-- ==== Sys2Proof/Word.lean ====
section
/-!
DEFINITION. The word and byte types of the LY3200 and nothing else: every register and every Kroval register is 32
bits wide (R10, R81), memory is addressed in bytes and all multi-byte values are little-endian (R8).
-/

namespace Sys2Proof

/-- A 32-bit register or instruction word (R10, R75). -/
abbrev Word := BitVec 32

/-- A byte of memory (R8). -/
abbrev Byte := BitVec 8

/-- A 64-bit value: two consecutive registers (R12), the nanosecond counter (R82). -/
abbrev DWord := BitVec 64

end Sys2Proof
end

