-- ==== Sys2Proof/Fmt.lean ====
section
/-!
DEFINITION. The operand groups that the commands of the instruction set share: the fields of the Kroval word formats
(R75), unused fields included, since a non-zero one has an effect (R77).
-/

namespace Sys2Proof

/-- The fields of a register-format word after its major (R75). -/
structure RFmt where
  rd : BitVec 5
  ra : BitVec 5
  rb : BitVec 5
  fn : BitVec 10
  deriving DecidableEq, Repr

/-- The register fields of a register-format word whose fn the mnemonic fixes (R75). -/
structure R3 where
  rd : BitVec 5
  ra : BitVec 5
  rb : BitVec 5
  deriving DecidableEq, Repr

/-- The fields of an immediate-format word after its major (R75). -/
structure IFmt where
  rd : BitVec 5
  ra : BitVec 5
  imm : BitVec 15
  deriving DecidableEq, Repr

/-- The fields of a Stencil instruction after its op, unused ones included (R383). -/
structure SFmt where
  rd : BitVec 4
  rs : BitVec 4
  fn : BitVec 4
  deriving DecidableEq, Repr

/-- Who makes a register access (R12): the host, whose JTAG accesses share its holding registers, an Atelier core, or
GMP. -/
inductive Req where
  | host
  | atl (core : Fin 4)
  | gmp
  deriving DecidableEq, Repr

/-- What takes an up port down (R401): signal lost, alignment lost, a local or a remote fault received. -/
inductive LinkWhy where
  | signal
  | alignment
  | localFault
  | remoteFault
  deriving DecidableEq, Repr

/-- How a DMA transfer with host memory fails (R488): Unsupported Request, Completer Abort, poisoned data, a completion
timeout. -/
inductive DmaErr where
  | ur
  | ca
  | poisoned
  | timeout
  deriving DecidableEq, Repr

/-- What a DMA read of host memory finds: its data, or a failure. -/
inductive Dma where
  | ok (bytes : List (BitVec 8))
  | fail (e : DmaErr)
  deriving DecidableEq, Repr

/-- The rings whose descriptors the device fetches (R464). -/
inductive FetchRing where
  | inj
  | punt
  | cmd
  deriving DecidableEq, Repr

/-- A DMA read that host memory does not answer (R487): a doorbell block, descriptors, an INJ packet's data, a command's
operand. -/
inductive DmaUse where
  | doorbell
  | descriptors (r : FetchRing)
  | injData
  | operand
  deriving DecidableEq, Repr

/-- How the host takes the link from the device (R485). -/
inductive LinkLoss where
  | busMaster
  | linkDown
  | d3hot
  deriving DecidableEq, Repr

/-- A trained PCI Express link (R460, R488): its speed (0, 1, 2 for 8, 16, 32 GT/s), its lanes, Bus Master Enable and its
maximum payload size. -/
structure PcieLink where
  speed : Fin 3
  lanes : Fin 3
  bme : Bool
  mps : Fin 3
  deriving DecidableEq, Repr

/-- The lanes of a link: x4, x8 or x16 (R460). -/
def PcieLink.width (l : PcieLink) : Nat := 4 * 2 ^ l.lanes.val

/-- A host access through BAR4 (R461): a read of a number of bytes, or a write of bytes. -/
inductive Bar4 where
  | read (bytes : Nat)
  | write (bytes : List (BitVec 8))
  deriving DecidableEq, Repr

/-- The JTAG boundary register (R556), whose cells are numbered as log entry 129 says. -/
abbrev Boundary := BitVec 122

/-- A bit cell of a heritage lane as its front end meets it, a half-bit cell for Manchester (R377, R378, R382): the three
samples centred on the sample point, and the line edge in it, if any: its distance from where it is expected, in 1/256 of a
bit, and the length of the pulse it begins, in SCLK cycles. -/
structure Cell where
  samples : BitVec 3
  edge : Option (Int × Nat)
  deriving DecidableEq, Repr

/-- What the SPD of a channel's DIMMs says (R63): registered modules with ECC of supported organisation, how many, ranks
and GiB per DIMM. -/
structure Spd where
  rdimm : Bool
  dimms : Nat
  ranks : Nat
  cap : Nat
  deriving DecidableEq, Repr

/-- A burst as it arrives from the DRAM (R431, R432): the channel-local line (x ÷ 64) of the location that answered, and
the bits of beats 0 to 15 that differ from what was written there. -/
structure BurstRead where
  line : Nat
  flips : List (Fin 16 × Fin 40)
  deriving DecidableEq, Repr

/-- A register-space access. -/
inductive RegAcc where
  | read
  | write (v : BitVec 32)
  deriving DecidableEq, Repr

end Sys2Proof
end

