-- ==== Sys2Proof/Config.lean ====
section
/-!
DEFINITION. The free values: what the spec leaves open. Each is an opaque constant with no body, so that no proof can
rest on a particular value of it; every use names the rule that leaves the value open and its log entry.
-/

namespace Sys2Proof.Config

/-- A fresh unconstrained word for the n-th time the machine needs one (log entry 2). -/
opaque freeWord : Nat → Word

/-- A fresh unconstrained choice below a bound: which of several candidates the hardware takes (R311, R118, R122; log
entry 2). The user reduces it modulo the number of candidates. -/
opaque freePick : Nat → Nat

/-- The hash of signature bank b (0-3) of a granule under VRN_SIG_SEED (R158: each bank has its own hash; the spec does
not give it; log entry 3). The user reduces it modulo 512. -/
opaque sigHash : (bank seed granule : Nat) → Nat

/-- log2 of the Atelier L2 line in bytes (R118 gives no line size; log entry 4). -/
opaque l2LineLog2 : Nat

/-- The SCI of a secure association whose SecTAG carries none and does not say that its source is an end station: the
association holds none (R229, R479; log entry 6). -/
opaque implicitSci : (assoc : Nat) → Nat

/-- Bits [31:5] of the first result word of mrecv for a status: R235 puts the length in [4:0] of the word that holds the
status and does not say where the status lies (log entry 7). -/
opaque mrecvStatus : (status : Nat) → Nat

/-- Frames that a port's egress FIFO holds (R330 names the FIFO and gives no size; log entry 8); at least one. -/
opaque egressFrames : (port : Nat) → Nat

/-- How PORT_PROFILE_MISMATCH codes the port's family in bits [31:8] of its detail (R65 names the family and gives no
code; log entry 9). The user reduces it modulo 2^24. -/
opaque familyCode : (family : Nat) → Nat

/-- The cause byte of a LINK event into the up state, for which R424 gives no code (log entry 12), modulo 256. -/
opaque linkUpCause : Nat

/-- M0, the SHAKE256 digest of the Primer ROM (R503), whose contents the spec does not give (log entry 13); the user
takes 64 bytes. -/
opaque primerDigest : List Byte

/-- The energy in nJ that an integration step of 1 µs adds to a count (R535): of block b of R536 at index b, of VDD_CORE at 9,
of cluster c at 16 + c. -/
opaque energyStep : (index step : Nat) → Nat

/-- The device power over the last 1 ms at a time, in mW (R533; log entry 25). -/
opaque devicePower : (time : Nat) → Word

/-- The bit errors that a lane's pattern checker meets in a step of 1 µs (R551; log entry 26). -/
opaque laneErrStep : (lane step : Nat) → Nat

/-- MiB of a returning channel that its zero fill or its rebuild goes through in a step of 1 µs (R447; log entry 138). -/
opaque rebuildStep : (channel step : Nat) → Nat

/-- How many ns a local (0) or remote (1) fault lasts that a port begins to receive at a time (R401; log entry 130). -/
opaque faultLasts : (port kind time : Nat) → Nat

/-- Whether the board supplies VDD_HIO (R574): no command changes it (log entry 116). -/
opaque vddHio : Bool

/-- The JTAG manufacturer code assigned to Zwilia (R556; log entry 27), modulo 2^11. -/
opaque zwiliaCode : Nat

/-- Whether a GMP command needs firmware, which the spec does not say (R502; log entry 83). -/
opaque gmpFirmware : (code : Nat) → Bool

/-- The code of word i of the result that a control-plane transaction failed by a power failure answers (R510; log 124). -/
opaque failedStaging : (word : Nat) → Nat

/-- Whether firmware has kept a record's worth of erased journal pages ready before the n-th record (R511; log entry 35). -/
opaque journalReady : (n : Nat) → Bool

/-- The counters that firmware has marked, as they stand at a time (R510; log entry 35); a record takes 512 bytes. -/
opaque markedCounters : (time : Nat) → List Byte

/-- The check bits of the (39,32) SECDED code of a DRAM beat (R431); the spec gives the code's properties, not its bits. -/
opaque secdedBits : BitVec 32 → BitVec 7

end Sys2Proof.Config
end

