-- ==== Sys2Proof/Machine/Bits.lean ====
section
/-!
DEFINITION. Bit fields, sign extension, byte order and the checksums the spec names: CRC32C (R200, R227), CRC-32 and
CRC-16 and CRC-8 of management and lane codes, the ones'-complement sum and the Toeplitz hash of R227.
-/

namespace Sys2Proof.Machine

/-- The word with a given value, modulo 2^32. -/
def wd (n : Nat) : Word := BitVec.ofNat 32 n

/-- The field [hi:lo] of a word (R8). -/
def fld (w : Word) (hi lo : Nat) : Nat := (w.toNat / 2 ^ lo) % 2 ^ (hi + 1 - lo)

/-- Bit i of a word. -/
def bit (w : Word) (i : Nat) : Bool := w.toNat.testBit i

/-- A word with its field [hi:lo] set to v. -/
def setFld (w : Word) (hi lo v : Nat) : Word :=
  let m := 2 ^ (hi + 1 - lo)
  wd (w.toNat - fld w hi lo * 2 ^ lo + (v % m) * 2 ^ lo)

/-- A word with bit i set to b. -/
def setBit (w : Word) (i : Nat) (b : Bool) : Word := setFld w i i (if b then 1 else 0)

/-- 1 for true, 0 for false. -/
def b2n (b : Bool) : Nat := if b then 1 else 0

/-- The low n bits of a Nat, sign-extended to a word. -/
def sextN (n v : Nat) : Word :=
  let x := v % 2 ^ n
  if x < 2 ^ (n - 1) then wd x else wd (x + (2 ^ 32 - 2 ^ n))

/-- The signed value of the low n bits. -/
def sintN (n v : Nat) : Int :=
  let x := v % 2 ^ n
  if x < 2 ^ (n - 1) then (x : Int) else (x : Int) - (2 ^ n : Nat)

/-- A word with its bytes reversed (R86). -/
def bswap (w : Word) : Word :=
  wd (fld w 7 0 * 2 ^ 24 + fld w 15 8 * 2 ^ 16 + fld w 23 16 * 2 ^ 8 + fld w 31 24)

/-- The number of set bits of the low n bits. -/
def popN : Nat → Nat → Nat
  | 0, _ => 0
  | n + 1, v => (v % 2) + popN n (v / 2)

/-- Leading zeros of an n-bit value. -/
def clzN : Nat → Nat → Nat
  | 0, _ => 0
  | n + 1, v => if v.testBit n then 0 else 1 + clzN n v

/-- The index of the lowest set bit among bits lo .. lo+n-1, if any. -/
def lowBit (v : Nat) : (lo n : Nat) → Option Nat
  | _, 0 => none
  | lo, n + 1 => if v.testBit lo then some lo else lowBit v (lo + 1) n

/-- A little-endian list of n bytes of a Nat (R8). -/
def leBytes : Nat → Nat → List Byte
  | 0, _ => []
  | n + 1, v => BitVec.ofNat 8 v :: leBytes n (v / 256)

/-- A big-endian list of n bytes of a Nat. -/
def beBytes (n v : Nat) : List Byte := (leBytes n v).reverse

/-- The value of a little-endian byte list (R8). -/
def leVal : List Byte → Nat
  | [] => 0
  | b :: bs => b.toNat + 256 * leVal bs

/-- The value of a big-endian byte list. -/
def beVal (bs : List Byte) : Nat := leVal bs.reverse

/-- The little-endian bytes of a list of words. -/
def wordsBytes (ws : List Word) : List Byte := ws.flatMap (fun w => leBytes 4 w.toNat)

/-- Little-endian words of a byte list; a short last word is padded with zeros. -/
def bytesWords : Nat → List Byte → List Word
  | 0, _ => []
  | n + 1, bs => wd (leVal (bs.take 4)) :: bytesWords n (bs.drop 4)

/-- Byte i of a list, 0 beyond its end. -/
def byteAt (bs : List Byte) (i : Nat) : Byte := bs.getD i 0

/-- n bytes of a list from offset o, 0 beyond its end. -/
def slice (bs : List Byte) (o n : Nat) : List Byte := (List.range n).map (fun i => byteAt bs (o + i))

/-- The little-endian value of n bytes from offset o. -/
def leAt (bs : List Byte) (o n : Nat) : Nat := leVal (slice bs o n)

/-- A list of n zero bytes. -/
def zeros (n : Nat) : List Byte := List.replicate n 0

/-- A byte list cut or zero-padded to n bytes. -/
def padTo (n : Nat) (bs : List Byte) : List Byte := slice bs 0 n

/-- A byte list with the bytes ws written from offset o. -/
def patch (bs : List Byte) (o : Nat) (ws : List Byte) : List Byte :=
  (List.range bs.length).map (fun i => if o ≤ i ∧ i < o + ws.length then byteAt ws (i - o) else byteAt bs i)

/-- One bit step of a reflected CRC. -/
def crcStep (poly : Nat) : Nat → Nat → Nat
  | 0, c => c
  | n + 1, c => crcStep poly n (if c % 2 = 1 then (c / 2) ^^^ poly else c / 2)

/-- A reflected CRC over bytes, without final inversion. -/
def crcRefl (poly : Nat) : Nat → List Byte → Nat
  | c, [] => c
  | c, b :: bs => crcRefl poly (crcStep poly 8 (c ^^^ b.toNat)) bs

/-- CRC32C, reflected, no final inversion (R227). -/
def crc32c (init : Nat) (bs : List Byte) : Nat := crcRefl 0x82F63B78 init bs

/-- The CRC-32 of IEEE 802.3, reflected, without final inversion. -/
def crc32 (init : Nat) (bs : List Byte) : Nat := crcRefl 0xEDB88320 init bs

/-- One bit step of a non-reflected CRC of width w. -/
def crcStepN (w poly : Nat) : Nat → Nat → Nat
  | 0, c => c
  | n + 1, c =>
    crcStepN w poly n (if c.testBit (w - 1) then ((c * 2) % 2 ^ w) ^^^ poly else (c * 2) % 2 ^ w)

/-- A non-reflected CRC of width w (8 or more) over bytes. -/
def crcFwd (w poly : Nat) : Nat → List Byte → Nat
  | c, [] => c
  | c, b :: bs => crcFwd w poly (crcStepN w poly 8 (c ^^^ (b.toNat * 2 ^ (w - 8)))) bs

/-- CRC-16 with polynomial 0x1021. -/
def crc16 (init : Nat) (bs : List Byte) : Nat := crcFwd 16 0x1021 init bs

/-- CRC-8 with polynomial 0x07. -/
def crc8 (init : Nat) (bs : List Byte) : Nat := crcFwd 8 0x07 init bs

/-- Folds a sum into a 16-bit ones'-complement sum (R227). -/
def fold16 (n : Nat) : Nat :=
  let a := n % 65536 + n / 65536
  let b := a % 65536 + a / 65536
  b % 65536 + b / 65536

/-- The sum of the 16-bit big-endian words of a byte list; an odd final byte is padded with 0 (R227). -/
def sum16 : List Byte → Nat
  | [] => 0
  | [a] => a.toNat * 256
  | a :: b :: r => a.toNat * 256 + b.toNat + sum16 r

/-- The ones'-complement 16-bit sum of R227 with an initial sum. -/
def onesSum (init : Nat) (bs : List Byte) : Nat := fold16 (fold16 (sum16 bs) + init % 65536)

/-- RFC 1624 equation 3: HC' = ~(~HC + ~m + m') (R227). -/
def sumUpdate (hc m m' : Nat) : Nat :=
  65535 - fold16 ((65535 - hc % 65536) + (65535 - m % 65536) + m' % 65536)

/-- The 32 key bits that start at key bit i, bit 0 being bit 7 of byte 0 (R227). -/
def toeplitzKey (key : Nat) (keyBits i : Nat) : Nat := (key / 2 ^ (keyBits - 32 - i)) % 2 ^ 32

/-- The Toeplitz hash (R227): for each set input bit i, most significant bit of byte 0 first, the key bits i to i+31. -/
def toeplitzGo (key keyBits : Nat) : (i : Nat) → List Byte → Nat → Nat
  | _, [], acc => acc
  | i, b :: bs, acc =>
    let acc' := (List.range 8).foldl
      (fun a j => if b.toNat.testBit (7 - j) then a ^^^ toeplitzKey key keyBits (i + j) else a) acc
    toeplitzGo key keyBits (i + 8) bs acc'

/-- The Toeplitz hash of an input under a 68-byte key (R227). -/
def toeplitz (key input : List Byte) : Nat := toeplitzGo (beVal key) (8 * key.length) 0 input 0

end Sys2Proof.Machine
end

