-- ==== Sys2Proof/Machine/Tab.lean ====
section
/-!
DEFINITION. Sparse tables: lists of key and value pairs in one canonical form, keys strictly rising and no entry equal
to what an unlisted key reads as. Memory, register files and every indexed resource of the device are such tables.
-/

namespace Sys2Proof.Machine

/-- A sparse table: keys strictly rising, no entry equal to the default. -/
abbrev Tab (α : Type) := List (Nat × α)

/-- The value at a key; `f k` where nothing is listed. -/
def Tab.get {α : Type} (f : Nat → α) : Tab α → Nat → α
  | [], k => f k
  | (k', v) :: r, k => if k = k' then v else Tab.get f r k

/-- The table with v listed at k, whatever its default. -/
def Tab.put {α : Type} : Tab α → Nat → α → Tab α
  | [], k, v => [(k, v)]
  | (k', v') :: r, k, v =>
    if k = k' then (k, v) :: r else if k < k' then (k, v) :: (k', v') :: r else (k', v') :: Tab.put r k v

/-- The table with nothing listed at k. -/
def Tab.del {α : Type} (m : Tab α) (k : Nat) : Tab α := m.filter (fun e => decide (e.1 ≠ k))

/-- The table with value v at key k, in canonical form: writing the default removes the entry. -/
def Tab.set {α : Type} [DecidableEq α] (f : Nat → α) (m : Tab α) (k : Nat) (v : α) : Tab α :=
  if v = f k then Tab.del m k else Tab.put m k v

/-- Whether every listed key lies above a bound. -/
def Tab.above {α : Type} (k : Nat) : Tab α → Bool
  | [] => true
  | (k', _) :: r => decide (k < k') && Tab.above k r

/-- The canonical form: keys strictly rising and no entry equal to its default. -/
def Tab.wf {α : Type} [DecidableEq α] (f : Nat → α) : Tab α → Bool
  | [] => true
  | (k, v) :: r => decide (v ≠ f k) && Tab.above k r && Tab.wf f r

/-- The value at a key of a table whose default is one constant. -/
def tget {α : Type} (d : α) (m : Tab α) (k : Nat) : α := Tab.get (fun _ => d) m k

/-- The table with value v at key k, whose default is one constant. -/
def tset {α : Type} [DecidableEq α] (d : α) (m : Tab α) (k : Nat) (v : α) : Tab α := Tab.set (fun _ => d) m k v

/-- The keys of a table whose values satisfy a test, in rising order. -/
def tkeys {α : Type} (p : Nat → α → Bool) (m : Tab α) : List Nat :=
  (m.filter (fun e => p e.1 e.2)).map (·.1)

/-- The table without the entries whose keys satisfy a test. -/
def tdrop {α : Type} (p : Nat → Bool) (m : Tab α) : Tab α := m.filter (fun e => !p e.1)

/-- Every entry's value mapped, in canonical form. -/
def tmap {α : Type} [DecidableEq α] (d : α) (g : Nat → α → α) (m : Tab α) : Tab α :=
  m.foldl (fun acc e => tset d acc e.1 (g e.1 e.2)) []

/-- The lowest k below lo + n with p k, searching from lo. -/
def findNat (p : Nat → Bool) : (lo n : Nat) → Option Nat
  | _, 0 => none
  | lo, n + 1 => if p lo then some lo else findNat p (lo + 1) n

/-- The first index in cyclic order from a start, below n, with p. -/
def findCyclic (p : Nat → Bool) (start n : Nat) : Option Nat :=
  (findNat (fun i => p ((start + i) % n)) 0 n).map (fun i => (start + i) % n)

end Sys2Proof.Machine
end

