-- ==== Sys2Proof/Machine/DevCore.lean ====
section
/-!
DEFINITION. The state of the packet path: Kroval threads and caches, the Easel, the brushes, Varnish, the parser, the
Palette and the lock unit. Plain data; each field's docstring cites the rule that gives the state.
-/

namespace Sys2Proof.Machine

/-- A trap that a word raises (R112): its cause, estat.kind, estat.sys and etval. -/
structure Trap where
  cause : Nat
  kind : Nat
  sys : Bool
  etval : Word
  deriving DecidableEq, Repr

/-- A brush function the core has issued, with the operand words the brush read (R216, R218), the token index assigned
to it, if it reports completion (R220), and the colour that an mtr of a speculative run evaluated at its issue (R337):
`none` where it is evaluated at confirmation, `some none` where the meter is not configured. -/
structure BrushOp where
  brush : Nat
  fn : Nat
  rd : Nat
  ra : Word
  rb : Word
  word : Word
  blk : List Byte
  tok : Option Nat
  prov : Option (Option Nat)
  deriving DecidableEq, Repr

/-- An issued word whose access check has not completed (R219), or a brush function it leaves unconfirmed. -/
inductive Fly where
  | ok
  | trap (x : Trap)
  | brush (op : BrushOp)
  deriving DecidableEq, Repr

/-- What follows the delay slot of the thread's last branch (R96, R114). -/
inductive Slot where
  | none
  | branch (dest : Word)
  | eret
  deriving DecidableEq, Repr

/-- What a thread is doing (R109, R110, R142, R153, R359). `starting` is an irrevocable rerun held at its entry (R173). -/
inductive ThRun where
  | stopped
  | starting
  | running
  | waiting (kind : Nat) (operand : Word) (rd : Nat)
  | lockWait (rd : Nat)
  deriving DecidableEq, Repr

/-- A load whose data have not returned (R73): destination, thread address, internal address, size, extension, and the
post-increment of ldw+. -/
structure Load where
  rd : Nat
  vaddr : Word
  paddr : Nat
  size : Nat
  signed : Bool
  tracked : Bool
  cached : Bool
  post : Option (Nat × Word)
  deriving DecidableEq, Repr

/-- The task a thread holds (R126, R138). `seq` is its start order (R140). -/
structure Task where
  hasTxn : Bool
  txn : Nat
  prio : Nat
  ticket : Word
  canvas : Word
  user : Word
  entry : Word
  seq : Nat
  deriving DecidableEq, Repr

/-- The open message of a thread's Message brush state (R223, R234). -/
structure OpenMsg where
  channel : Nat
  words : List Word
  deriving DecidableEq, Repr

/-- Debug's hold on a thread (R552): running, halting or halted (abort mode or not), and whether one word may issue. -/
inductive DbgHalt where
  | none
  | pending (abort : Bool)
  | halted (abort : Bool)
  | stepping (abort : Bool)
  deriving DecidableEq, Repr

/-- A hardware thread (R81, R82, R110, R119). Atelier cores hold sstatus, ptbr and asid as well. -/
structure Thread where
  gpr : Tab Word
  pc : Word
  flags : Word
  lc : Word
  repLeft : Word
  repAddr : Word
  deadline : DWord
  tvb : Word
  epc : Word
  ecause : Word
  etval : Word
  estat : Word
  ebta : Word
  rcnt : Word
  dwin : Word
  sstatus : Word
  ptbr : Word
  asid : Word
  nowHi : Option Word
  slot : Slot
  run : ThRun
  task : Option Task
  tid : Nat
  saving : Option Nat
  fly : List Fly
  load : Option Load
  msg : Option OpenMsg
  dbg : DbgHalt
  deriving DecidableEq, Repr

/-- A thread at reset: stopped, all of its state 0 (R81). -/
def Thread.reset : Thread :=
  { gpr := [], pc := 0, flags := 0, lc := 0, repLeft := 0, repAddr := 0, deadline := 0, tvb := 0, epc := 0,
    ecause := 0, etval := 0, estat := 0, ebta := 0, rcnt := 0, dwin := 0, sstatus := 0, ptbr := 0, asid := 0,
    nowHi := none, slot := .none, run := .stopped, task := none, tid := 0, saving := none, fly := [],
    load := none, msg := none, dbg := .none }

/-- A D-cache line (R106): its line address and its 32 bytes. -/
structure DLine where
  line : Nat
  data : List Byte
  deriving DecidableEq, Repr

/-- An entry of a core's write buffer (R106): a 32-byte line and the bytes written, by offset. -/
structure WbEntry where
  line : Nat
  bytes : Tab (Option Byte)
  deriving DecidableEq, Repr

/-- A line of the Atelier L2 (R118), with the words (address ÷ 4) that were read poisoned (R432). -/
structure L2Line where
  base : Nat
  data : List Byte
  dirty : Bool
  bad : List Nat
  deriving DecidableEq, Repr

/-- A TLB entry (R121, R122): the page, its ASID, whether it maps 2 MiB, and the page-table entry. -/
structure TlbEntry where
  asid : Nat
  vpn : Nat
  big : Bool
  pte : Nat
  deriving DecidableEq, Repr

/-- Cores: threads (cluster thread 64c + 8k + t, Atelier core k at 1536 + k), caches and TLBs (R81, R102, R106, R122).
Core 8c + k of a cluster is core number 8c + k; Atelier core k is core number 192 + k. -/
structure Krv where
  threads : Tab Thread
  icache : Tab (Option Nat)
  dcache : Tab (Option DLine)
  wbuf : Tab (List WbEntry)
  l2 : List L2Line
  tlb : Tab (List TlbEntry)
  deriving DecidableEq, Repr

/-- A slot of a task record (R126). -/
structure RSlot where
  token : Nat
  filled : Bool
  status : Word
  deriving DecidableEq, Repr

/-- A record of the matching store (R126, R133): `ready` is its ready time, none while a slot is unfilled (R134);
`taken` while a thread is being freed for it (R143). -/
structure Rec where
  entry : Word
  prio : Nat
  ticket : Word
  canvas : Word
  user : Word
  hasTxn : Bool
  txn : Nat
  resume : Bool
  save : Nat
  slots : List (Option RSlot)
  ready : Option Nat
  tid : Nat
  taken : Bool
  deriving DecidableEq, Repr

/-- An entry of a cluster's token table (R128 to R130). Without a transaction it belongs to the task `tid`; `named`
while a stored record names it; `ended` once that task has ended. -/
structure Tok where
  gen : Nat
  live : Bool
  tid : Nat
  done : Option Word
  named : Bool
  ended : Bool
  deriving DecidableEq, Repr

/-- A token never issued. -/
def Tok.reset : Tok := { gen := 0, live := false, tid := 0, done := none, named := false, ended := false }

/-- A completion on its way to a cluster's Easel (R130). -/
structure Comp where
  cluster : Nat
  token : Nat
  status : Word
  deriving DecidableEq, Repr

/-- The Easels of all clusters: matching stores (1024c + i), token tables (2560c + i), owned save slots (64c + i),
boosted transactions (256c + s, R135), completions and oldest reports in flight, and the order counter. -/
structure Esl where
  recs : Tab (Option Rec)
  toks : Tab Tok
  saves : Tab Bool
  boosted : Tab Bool
  comps : List Comp
  reports : List (Nat × Nat)
  seq : Nat
  deriving DecidableEq, Repr

/-- A Message channel (R233, R239): head slot, the lengths of the stored messages, and dropped messages. `gone` counts the
messages that have left it or were discarded: it numbers the head message (R235). -/
structure Chan where
  head : Nat
  lens : List Nat
  overflow : Nat
  gone : Nat
  deriving DecidableEq, Repr

/-- An mrecv that waits for a message or its deadline (R235). `gone` once the transaction that issued it has ended: it
then takes no message and completes at its deadline (R131). -/
structure Recv where
  cluster : Nat
  token : Nat
  channel : Nat
  deadline : Nat
  result : Nat
  txn : Option Nat
  gone : Bool
  deriving DecidableEq, Repr

/-- A lookup on its way to an engine (R225, R246): the requester, its token, its transaction until that ends, the domain
and ticket it was issued under, the key, the learn port of lkupl, the internal addresses of its result block and
working Canvas, its engine, and the lines that it has missed on (R450). -/
structure LkReq where
  cluster : Nat
  token : Nat
  txn : Option Nat
  under : Option (Nat × Nat)
  table : Nat
  key : List Byte
  learn : Option Nat
  bad : Bool
  result : Nat
  canvas : Nat
  engine : Nat
  missed : List Nat
  deriving DecidableEq, Repr

/-- A cipher chain not yet swapped in (R230): its handle, owner, length from skip and the transaction. -/
structure CipherChain where
  handle : Word
  len : Nat
  txn : Nat
  deriving DecidableEq, Repr

/-- A secure association of the Cipher brush (R229): suite 0-3, key and salt; `none` is not configured. -/
structure SecAssoc where
  suite : Nat
  key : List Byte
  salt : List Byte
  deriving DecidableEq, Repr

/-- The brushes: channels (64c + k), receives that wait, lookups and ciphers. -/
structure Brs where
  chans : Tab Chan
  recvs : List Recv
  lookups : List LkReq
  ciphers : List CipherChain
  assocs : Tab (Option SecAssoc)
  deriving DecidableEq, Repr

/-- An entry of a write set (R157). -/
inductive WsEntry where
  | store (gran : Nat) (bytes : Tab (Option Byte))
  | counter (idx bytes pkts : Nat)
  | meter (idx len inCol prov : Nat)
  | enq (queue : Nat) (handle : Word) (colour : Nat)
  | pal (fn : Nat) (handle : Word) (arg : Word)
  | msgClose (channel : Nat) (words : List Word)
  | msgCons (channel : Nat) (head : Nat) (number : Nat)
  deriving DecidableEq, Repr

/-- The phase of a transaction slot (R154); `ending` between vcommit and the request's arrival (R159), `aborted` from
the abort to its action at the Easel (R149). -/
inductive TxnPhase where
  | free
  | active
  | ending
  | commitWait
  | committing
  | aborted (cause : Nat)
  deriving DecidableEq, Repr

/-- Whether a run is speculative, waits for the irrevocable grant, or holds it (R172, R173). -/
inductive Irrev where
  | spec
  | waits
  | granted
  deriving DecidableEq, Repr

/-- A Varnish transaction slot (R154 to R158, R168, R209, R210). `work` is the working Canvas buffer; `d` the payload
bytes from skip onward; `hdrEnd0` hdr_end at distribution; `heldAt` when its thread's present halt in hold mode completed
(R178, R189). -/
structure Txn where
  phase : TxnPhase
  domain : Nat
  ticket : Nat
  entry : Word
  prio : Nat
  work : Nat
  handle : Word
  owner : Nat
  inPort : Nat
  winOff : Nat
  hdrEnd0 : Nat
  pktLen : Nat
  d : Nat
  recircs : Nat
  ws : List WsEntry
  sig : Nat
  newGran : Nat
  counted : Nat
  irrev : Irrev
  discard : Nat
  copying : Bool
  held : Bool
  heldAt : Nat
  hdrCell : Option Word
  enqs : List WsEntry
  recirc : Word
  tsNs : Nat
  tsSec : Nat
  nonspec : Bool
  deriving DecidableEq, Repr

/-- A free transaction slot. -/
def Txn.reset : Txn :=
  { phase := .free, domain := 0, ticket := 0, entry := 0, prio := 0, work := 0, handle := 0, owner := 0, inPort := 0,
    winOff := 0, hdrEnd0 := 0, pktLen := 0, d := 0, recircs := 0, ws := [], sig := 0, newGran := 0, counted := 0,
    irrev := .spec, discard := 0, copying := false, held := false, heldAt := 0, hdrCell := none, enqs := [], recirc := 0, tsNs := 0,
    tsSec := 0, nonspec := false }

/-- An ordering domain (R34, R160): the next ticket, and the tickets in flight, oldest first. -/
structure Dom where
  next : Nat
  flight : List Nat
  deriving DecidableEq, Repr

/-- An operation of a control-plane transaction (R183, R479). A table operation holds the op of R279 it applies as (an
INSERT with replace that met its entry is a MODIFY), the identity of its entry (R252), the entry index that staging
found or reserved (R283) and its block. -/
inductive CpOp where
  | table (op table aux : Nat) (key : List Byte) (slot : Nat) (blk : List Byte)
  | actWrite (index : Nat) (bytes : List Byte)
  | meter (index : Nat) (words : List Word)
  | tmObject (kind index : Nat) (words : List Word)
  | shared (addr : Nat) (bytes : List Byte)
  | secAssoc (index : Nat) (sa : Option SecAssoc)
  | reserve (kind owner pool buffers : Nat)
  | poolCount (pool count : Nat)
  deriving DecidableEq, Repr

/-- The stage of a control-plane transaction (R184). -/
inductive CpStage where
  | positioned
  | applied
  deriving DecidableEq, Repr

/-- A control-plane transaction held by Varnish (R183, R184): its operations, the ring and command it answers, its
stage, and per domain the first ticket after its position, taken at a time. -/
structure Cp where
  id : Nat
  ops : List CpOp
  ring : Option (Nat × Nat)
  stage : CpStage
  before : Tab Nat
  since : Nat
  status : Nat
  result : Word
  deriving DecidableEq, Repr

/-- Varnish: transaction slots (256c + s), domains, aborts on their way to the Easels, the commit buffer, the
irrevocable grant and its waiters, the time since which a store of the granted run stalls on a transaction halted in hold
mode and its granule (R176, R189), control-plane transactions (R154 to R187). -/
structure Vrn where
  txns : Tab Txn
  doms : Tab Dom
  aborts : List (Nat × Nat)
  cbuf : List Nat
  grant : Option Nat
  waiters : List Nat
  holdWait : Option (Nat × Nat)
  cps : List Cp
  cpSeq : Nat
  deriving DecidableEq, Repr

/-- A packet before the parser (R22, R23, R202): its chain, owner, length, port and timestamp, its recirculation
count and recirc word, and the transaction it migrates with (R174). -/
structure Pkt where
  handle : Word
  owner : Nat
  len : Nat
  port : Nat
  tsNs : Nat
  tsSec : Nat
  recircs : Nat
  recirc : Option Word
  deriving DecidableEq, Repr

/-- A parsed packet on its way to the distributor (R191 to R200). -/
structure Parsed where
  pkt : Pkt
  image : List Byte
  entry : Word
  prio : Nat
  domain : Nat
  ticket : Nat
  counted : Nat
  irrev : Bool
  winOff : Nat
  hdrEnd : Nat
  bank : Nat
  migrated : Bool
  deriving DecidableEq, Repr

/-- The parser and the distributor: packets waiting, how many of them came in the present cycle (R34), packets parsed, the
rotating tie index (R24). -/
structure Prs where
  inq : List Pkt
  fresh : Nat
  out : List Parsed
  rot : Nat
  rereads : List (Nat × Txn)
  deriving DecidableEq, Repr

/-- Where a buffer was charged (R306, R309). -/
inductive Charge where
  | free
  | shared
  | reserve
  | repl
  deriving DecidableEq, Repr

/-- The Palette: link memory (one 8-byte descriptor per cell, R300), the charge of each held buffer (by handle), which
buffers are chain heads, those quarantined (R317), buffers in use per owner, pool and charge, the transactions whose irrevocable header-cell requests wait, and the freed
buffers withheld for them (R310). -/
structure Pal where
  link : Tab DWord
  charge : Tab Charge
  heads : Tab Bool
  quar : List Word
  used : Tab Nat
  irrevWait : List Nat
  withheld : List (Word × Charge)
  deriving DecidableEq, Repr

/-- A waiter of a lock (R359, R364): the thread, its holder identity and when its wait ends. -/
structure Waiter where
  thread : Nat
  holder : Nat
  until_ : Nat
  deriving DecidableEq, Repr

/-- A lock entry (R359, R362, R367): holder, broken mark, waiters in order. -/
structure Lock where
  holder : Option Nat
  broken : Bool
  waiters : List Waiter
  deriving DecidableEq, Repr

/-- A lock without an entry. -/
def Lock.free : Lock := { holder := none, broken := false, waiters := [] }

/-- A request on its way to the lock unit (R359, R360). -/
structure LockReq where
  thread : Nat
  holder : Nat
  addr : Nat
  acquire : Bool
  deriving DecidableEq, Repr

/-- A compatibility semaphore (R369). -/
structure Sem where
  holder : Option Nat
  broken : Bool
  deriving DecidableEq, Repr

/-- The lock unit: locks by word address, acquires that wait for a free entry, requests in flight, semaphores. -/
structure Lku where
  locks : Tab Lock
  entryWait : List (Nat × Waiter)
  reqs : List LockReq
  sems : Tab Sem
  deriving DecidableEq, Repr

end Sys2Proof.Machine
end

