-- ==== Sys2Proof/Machine/DevIo.lean ====
section
/-!
DEFINITION. The state of the blocks around the packet path: traffic manager, lookup, Stencil engines, ports, time,
DRAM controller, table cache, host interface, management, Glaze, fault collector and debug.
-/

namespace Sys2Proof.Machine

/-- A trTCM meter (R335): the four configuration words, the two bucket levels in 2^-16 bytes and the last update. -/
structure Meter where
  cfg : List Word
  tc : Int
  tp : Int
  last : Nat
  lost : Bool
  deriving DecidableEq, Repr

/-- The meters and counters of the MTR block (R335, R338). -/
structure Mtr where
  meters : Tab Meter
  counters : Tab (Nat × Nat)
  deriving DecidableEq, Repr

/-- A copy queued in the traffic manager (R322): its header cell, the chain head its release acts on (for a replica the
original's, R315), the frame length L and the packet length its enqueue carries (R321), when it was admitted, whether its
data are in the port's staging buffer (R345), and what a recirculation carries (R202). -/
structure TmItem where
  handle : Word
  head : Word
  len : Nat
  pktLen : Nat
  at_ : Nat
  staged : Bool
  recircs : Nat
  recirc : Word
  deriving DecidableEq, Repr

/-- A traffic-manager queue (R323, R351, R354 statistics), with the time at which its head became the head (R345). -/
structure TmQueue where
  items : List TmItem
  headAt : Nat
  bytes : Nat
  cells : Nat
  admitted : Nat
  sent : Nat
  drops : Nat
  gateMiss : Nat
  nofit : Nat
  maxBytes : Nat
  newDrops : Nat
  deriving DecidableEq, Repr

/-- An empty queue. -/
def TmQueue.empty : TmQueue :=
  { items := [], headAt := 0, bytes := 0, cells := 0, admitted := 0, sent := 0, drops := 0, gateMiss := 0, nofit := 0, maxBytes := 0,
    newDrops := 0 }

/-- A dual token bucket (R333): levels in 2^-16 bytes and the last update. -/
structure Shaper where
  cLevel : Int
  pLevel : Int
  last : Nat
  deriving DecidableEq, Repr

/-- A gate schedule's run-time side (R341): entries (gates, interval), cycle, base, the switch that is pending with the
schedule its apply validated, and the switches made. -/
structure GateRun where
  oper : List (Nat × Nat)
  cycle : Nat
  base : Nat
  pending : Option Nat
  nextOper : List (Nat × Nat)
  nextCycle : Nat
  switches : Nat
  state : Nat
  entry : Nat
  deriving DecidableEq, Repr

/-- No schedule: every class open. -/
def GateRun.off : GateRun :=
  { oper := [], cycle := 0, base := 0, pending := none, nextOper := [], nextCycle := 0, switches := 0, state := 255, entry := 0 }

/-- A recovery function's state (R348 to R350). -/
structure Recov where
  reset : Bool
  seq : Nat
  hist : Nat
  passed : Nat
  discarded : Nat
  outOfOrder : Nat
  rogue : Nat
  resets : Nat
  last : Nat
  deriving DecidableEq, Repr

/-- A copy a port has dequeued and not finished transmitting (R314, R330), with the IEEE 1588 time of its dequeue in ns
(R473). -/
structure Egress where
  item : TmItem
  queue : Nat
  sent : Bool
  ts : Nat
  deriving DecidableEq, Repr

/-- The traffic manager (R319 to R354): object words (kind × 2^17 + index), queues, shapers (level × 2^17 + index),
DWRR deficits and ring pointers, gate schedules, recovery functions and each port's egress FIFO. -/
structure Tmg where
  objs : Tab (List Word)
  queues : Tab TmQueue
  shapers : Tab Shaper
  deficits : Tab Int
  rings : Tab Nat
  gates : Tab GateRun
  recov : Tab Recov
  egress : Tab (List Egress)
  swatchEnd : Nat
  deriving DecidableEq, Repr

/-- A fault report on its way to the collector (R541, R543). -/
structure Report where
  src : Nat
  detail : Word
  injected : Bool
  deriving DecidableEq, Repr

/-- A cluster that leaves service (R547, R550): since when it drains, none while it waits for its spare to wake, and the
spare. -/
structure Drain where
  cluster : Nat
  since : Option Nat
  spare : Option Nat
  deriving DecidableEq, Repr

/-- The fault collector: its inbox, the lookup engines out for test (R550), the times of the last counted errors of each
source and unit (key: 256 × source + unit, R541), the drains, and the unit under BIST (kind and index). -/
structure Flt where
  inbox : List Report
  engOut : Nat
  errs : Tab (List Nat)
  drains : List Drain
  bist : Option (Nat × Nat)
  deriving DecidableEq, Repr

/-- A posted write to host memory (R484): the group, the bus address, the bytes, and whether it carries Relaxed Ordering;
group 16 is an MSI-X message. -/
structure Posted where
  group : Nat
  addr : Nat
  data : List Byte
  relaxed : Bool
  deriving DecidableEq, Repr

/-- A command fetched from a CMD ring (R475): its index and its 64 bytes. -/
structure HCmd where
  index : Nat
  bytes : List Byte
  deriving DecidableEq, Repr

/-- The indices of a ring group (R464, R467): the device's own, and the host's as last read. -/
structure GrpIx where
  injProd : Nat
  puntProd : Nat
  cmdProd : Nat
  cplCons : Nat
  evtCons : Nat
  injCons : Nat
  puntCons : Nat
  cmdCons : Nat
  cplProd : Nat
  evtProd : Nat
  evtSeq : Nat
  writes : Nat
  deriving DecidableEq, Repr

/-- A ring group's run-time state (R463 to R486): its indices, those the last block write reported, when one first
changed since, as a tick has noted, and whether an error is unreported (R470); the time of the last poll (R469); the doorbell read in progress and the pending kick (R468); the INJ and PUNT descriptors fetched and not
completed; the commands fetched and not started, the commands running; completions held (R477); the time of the last
MSI-X message and whether one waits for the hold-off (R483). -/
structure Grp where
  ix : GrpIx
  told : GrpIx
  newsAt : Option Nat
  errNews : Bool
  polled : Nat
  reading : Bool
  kicked : Bool
  inj : List (Nat × List Byte)
  punt : List (Nat × List Byte)
  cmds : List HCmd
  running : List HCmd
  cpl : List (List Byte)
  lastMsg : Option Nat
  msgPend : Bool
  deriving DecidableEq, Repr

/-- Every index 0 (R464). -/
def GrpIx.zero : GrpIx :=
  { injProd := 0, puntProd := 0, cmdProd := 0, cplCons := 0, evtCons := 0, injCons := 0, puntCons := 0, cmdCons := 0,
    cplProd := 0, evtProd := 0, evtSeq := 0, writes := 0 }

/-- A ring group that is disabled. -/
def Grp.reset : Grp :=
  { ix := .zero, told := .zero, newsAt := none, errNews := false, polled := 0, reading := false, kicked := false, inj := [], punt := [], cmds := [],
    running := [], cpl := [], lastMsg := none, msgPend := false }

/-- The host interface: groups, and the writes posted to host memory. -/
structure Hst where
  grps : Tab Grp
  posted : List Posted
  deriving DecidableEq, Repr

/-- A cluster's regulator, clock and loop (R521 to R530): whether it waits to be gated or wakes (R524); its point and the
one a change leads to (R523); the max_point in effect (R519); the point that throttling holds it to, 9 without (R532); the loop's
offset below V_nom in mV, the commits counted while it speculates, those at the window's start and those at its latest timing
events (R530); whether the loop has stopped (R530); whether Varnish's request of the non-speculative voltage lasts (R529). -/
structure ClPwr where
  gating : Bool
  waking : Bool
  cur : Nat
  next : Option Nat
  maxOk : Nat
  ceil : Nat
  offset : Nat
  commits : Nat
  winAt : Nat
  evts : List Nat
  stopped : Bool
  nominal : Bool
  deriving DecidableEq, Repr

/-- A cluster at reset: point 8, max_point 9 (R538). -/
def ClPwr.reset : ClPwr :=
  { gating := false, waking := false, cur := 8, next := none, maxOk := 9, ceil := 9, offset := 0, commits := 0, winAt := 0,
    evts := [], stopped := false, nominal := false }

/-- Glaze: the clusters, the core-rail phases switched off for a fault (R520), and the last throttle step (R532). -/
structure Pwr where
  cl : Tab ClPwr
  badPhases : Nat
  lastStep : Option Nat
  deriving DecidableEq, Repr

end Sys2Proof.Machine
end

