-- ==== Sys2Proof/Machine/DevMem.lean ====
section
/-!
DEFINITION. The state of the DRAM controller, the table cache and the lookup complex. Plain data; each field's docstring
cites the rule that gives the state.
-/

namespace Sys2Proof.Machine

/-! DRAM controller (R427 to R448). -/

/-- Who waits for a DRAM read: a thread's load, a table-cache fill, the refetch of a stale line; the time-gated egress
reader of a port and the egress spill reader (R435, R437), each for the frame of a handle. -/
inductive DramWho where
  | load (t : Nat)
  | fill (line : Nat)
  | stale (line : Nat)
  | gate (p : Nat) (h : Word)
  | spill (p : Nat) (h : Word) (len : Nat)
  deriving DecidableEq, Repr

/-- A read in the controller's queues (R434, R435): its requester, its class, when it came, its address, whether it has
been issued and, once judged (R432), whether its data are poisoned. -/
structure DramReq where
  who : DramWho
  cls : Nat
  at_ : Nat
  addr : Nat
  issued : Bool
  done : Option Bool
  deriving DecidableEq, Repr

/-- The DRAM controller: the channels of the map with their capacities in bytes, none while bring-up runs; the map that the first
bring-up since reset fixed, and its grain field (R428, R429); the words whose check bits are uncorrectable (by internal address ÷ 4, R432), the reads queued and issued, the open row of every
bank, the bank group activated last, and the last four activates of each rank (R436), the mirrored regions (R443), whether
bring-up runs, when the frequency request was latched or deferred, and its target and its defer_us (R439), the end of the last training step (R441), each channel's last periodic retraining
(R442), the stage of each channel being returned (R447: 1 training, 2 zero fill, 3 rebuild; 9 is contained for good, R546), the
MiB to go through in its stage and when that began, the next burst of the patrol walker and when its pass began (R433), when
each channel last poisoned reads, poisoned reads not yet dated (R459), and the ports whose time-gated egress reader raises panic
(R437). -/
structure Drc where
  chans : List (Nat × Nat)
  map : List (Nat × Nat)
  ilv : Nat
  poison : Tab Bool
  reqs : List DramReq
  rows : Tab (Option Nat)
  group : Tab Nat
  acts : Tab (List Nat)
  mirrors : List (Nat × Nat)
  bringing : Bool
  freqSince : Nat
  freqTo : Bool
  freqDefer : Nat
  lastStep : Option Nat
  retrain : Tab Nat
  ret : Tab Nat
  left : Tab (Nat × Nat)
  scrubAt : Nat
  scrubFrom : Nat
  ueTimes : Tab (List Nat)
  ueNew : List Nat
  panics : Tab Bool
  deriving DecidableEq, Repr

/-! Table cache (R449 to R456). -/

/-- A line of the table cache: its line address, its 64 bytes, and whether it is stale (R453). -/
structure TcaLine where
  line : Nat
  data : List Byte
  stale : Bool
  deriving DecidableEq, Repr

/-- An outstanding fill (R450, R454): its line, the table it allocates for, whether a range invalidation has met it, and
whether preload asked for it. -/
structure TcaFill where
  line : Nat
  table : Nat
  drop : Bool
  pre : Bool
  deriving DecidableEq, Repr

/-- An entry of a merging buffer (R451): its line, the bytes written, when it was made. -/
structure MbEntry where
  line : Nat
  bytes : Tab (Option Byte)
  at_ : Nat
  deriving DecidableEq, Repr

/-- The table cache: lines by (slice × 4096 + set) × 16 + way, the pseudo-LRU trees by slice × 4096 + set, the victim
buffers by slice, the fills, fills that completed without being installed (data, none if poisoned), the merging buffers by
channel, and the preload that runs (table, next line, lines left). -/
structure Tca where
  lines : Tab (Option TcaLine)
  plru : Tab Nat
  victims : Tab (List TcaLine)
  fills : List TcaFill
  got : List (Nat × Option (List Byte))
  mbs : Tab (List MbEntry)
  preload : Option (Nat × Nat × Nat)
  deriving DecidableEq, Repr

/-! Lookup complex (R248 to R287). -/

/-- A learn (R271, R272): its table, key and port, and its bucket b0. -/
structure Learn where
  table : Nat
  key : List Byte
  port : Nat
  b0 : Nat
  deriving DecidableEq, Repr

/-- A flush in progress (R284): the port set, include_static, the next bucket, the counts, and the command it answers. -/
structure FlushRun where
  ports : Nat
  statics : Bool
  next : Nat
  removed : Nat
  pinned : Nat
  grp : Nat
  cmd : Nat
  deriving DecidableEq, Repr

/-- The lookup complex: stash entries (16 × table + position, R254), learns posted by the engines and not yet queued
(R271), learn queues by table, learns in progress with their start times (R272), when a learn last started, flushes
by table, tuples (64 × set + number: rules and mask, R264), action lists (R267), each swept table's next bucket, its
last visit and the age_period in force until the next (R251, R276), the slots whose hit bits were set last with the time and
the table (R278), and the SRAM rows in error with the 4-byte words not yet rewritten (R288). -/
structure Fwd where
  stash : Tab (List Byte)
  posts : List Learn
  queues : Tab (List Learn)
  learning : List (Learn × Nat)
  lastStart : Option Nat
  flushes : Tab (Option FlushRun)
  tuples : Tab (Nat × List Byte)
  acts : Tab (List Byte)
  sweep : Tab (Nat × Nat × Nat)
  hits : List (Nat × Nat × Nat)
  badRows : Tab Nat
  deriving DecidableEq, Repr

end Sys2Proof.Machine
end

