-- ==== Sys2Proof/Machine/DevSys.lean ====
section
/-!
DEFINITION. The state of the Stencil engines, the ports, the time base's pins, the chassis profile, management, debug
and the pins. Plain data; each field's docstring cites the rule that gives the state.
-/

namespace Sys2Proof.Machine

/-! The chassis profile (R52 to R59). -/

/-- A PORT entry (R54). -/
structure PortEnt where
  port : Nat
  kind : Nat
  code : Nat
  engine : Nat
  maxFrame : Nat
  preset : Nat
  flags : Nat
  rate : Nat
  deriving DecidableEq, Repr

/-- A RING entry (R56). -/
structure RingEnt where
  pair : Nat
  engine : Nat
  west : Nat
  east : Nat
  half : Nat
  westSlot : Nat
  eastSlot : Nat
  deriving DecidableEq, Repr

/-- A DRAM entry (R57). -/
structure DramEnt where
  channel : Nat
  dimms : Nat
  ranks : Nat
  speed : Nat
  cap : Nat
  deriving DecidableEq, Repr

/-- A POOL entry (R58). -/
structure PoolEnt where
  pool : Nat
  region : Nat
  size : Nat
  fallback : Nat
  count : Nat
  base : Nat
  deriving DecidableEq, Repr

/-- A RESERVE entry (R58). -/
structure ResvEnt where
  pool : Nat
  owner : Nat
  kind : Nat
  buffers : Nat
  deriving DecidableEq, Repr

/-- A LINEPARAM entry (R59). -/
structure LineEnt where
  port : Nat
  w1 : Word
  w2 : Word
  w3 : Word
  deriving DecidableEq, Repr

/-- A validated profile (R52). `digest` is its Ed448ph digest (R492, R503). -/
structure Profile where
  seq : Nat
  devNum : Nat
  sysSize : Nat
  spareA : Nat
  spareB : Nat
  pps : Nat
  ports : List PortEnt
  rings : List RingEnt
  drams : List DramEnt
  pools : List PoolEnt
  resvs : List ResvEnt
  lines : List LineEnt
  digest : List Byte
  deriving DecidableEq, Repr

/-- A PROFILE_APPLY in progress (R70, R71): the staged profile, the ring and command that wait for it, and the result
of its control-plane part once that is done. -/
structure Apply where
  prof : Profile
  grp : Nat
  cmd : Nat
  cp : Option Nat
  deriving DecidableEq, Repr

/-- Profiles: the one in force, the one staged (R69), the apply that runs (R70), the owner-key digests of the verified
image (R52). -/
structure Prf where
  inForce : Option Profile
  staged : Option Profile
  applying : Option Apply
  owners : List (List Byte)
  deriving DecidableEq, Repr

/-! Stencil engines (R373 to R397). -/

/-- A received symbol with its timestamp (R379). -/
structure Sym where
  val : BitVec 16
  sec : Nat
  ns : Nat
  deriving DecidableEq, Repr

/-- An open frame (R386, R390): its bytes, its timestamp, status bits [7:0], error characters, whether a byte found it at
max_frame, and whether its timestamp is that of the first symbol appended (`late`). -/
structure HFrame where
  bytes : List Byte
  sec : Nat
  ns : Nat
  status : Nat
  errs : Nat
  long : Bool
  late : Bool
  deriving DecidableEq, Repr

/-- What a Stencil slot waits for (R376, R386, R388); the register a wait writes. `waitc` ends at a time in quarter
nanoseconds, since an SCLK cycle is 1.25 ns (R28); `over` is a txrun that ended while debug held the slot, and its result. -/
inductive SWait where
  | none
  | rx (rd : Nat)
  | tx (rd : Nat)
  | rxrun (rd : Nat)
  | txrun (rd : Nat)
  | txnext (rd : Nat)
  | waitc (end4 : Nat)
  | waitt (deadline : Nat)
  | buffer
  | over (rd : Nat) (v : BitVec 16)
  deriving DecidableEq, Repr

/-- A frame staged for transmission (R391): its length, what is staged, what is not yet, its user byte,
and whether txnext has returned it. -/
structure Staged where
  len : Nat
  ready : List Byte
  rest : List Byte
  user : Nat
  taken : Bool
  deriving DecidableEq, Repr

/-- The CRC of a slot (R387). -/
structure SlotCrc where
  wide : Bool
  refl : Bool
  val : Nat
  deriving DecidableEq, Repr

/-- What a lane has sent (R381, R386): line bits in their order (half bits for Manchester), silence with the driver
disabled, or the line driver switched by `drive`. -/
inductive LineOut where
  | bits (bs : List Bool)
  | silent
  | driver (on : Bool)
  deriving DecidableEq, Repr

/-- The receive side of a lane's codec (R377 to R382): the sample point's offset in 1/256 of a bit and the bit times since
the last edge; the level of the bit before; the first half of a Manchester bit; the bits collected and how many; the run of
ones; whether a frame is open (or, for 8b/10b, the groups are aligned), whether 4b/5b groups are aligned; whether the frame's
start was placed, when it came, whether a byte of it was placed, the bytes held back for their CRC with their times and that
CRC; the running disparity; missing transitions; idle bit times; and the cells of silence. -/
structure RxLine where
  phase : Int
  quiet : Nat
  level : Bool
  half : Option Bool
  sh : Nat
  n : Nat
  ones : Nat
  opened : Bool
  aligned : Bool
  started : Bool
  startAt : Nat × Nat
  out : Bool
  held : List (Byte × Nat × Nat)
  crc : Nat
  rd : Bool
  miss : Nat
  idle : Nat
  silence : Nat
  deriving DecidableEq, Repr

/-- The receive side of a lane that has met nothing. -/
def RxLine.reset : RxLine :=
  { phase := 0, quiet := 0, level := true, half := none, sh := 0, n := 0, ones := 0, opened := false, aligned := false,
    started := false, startAt := (0, 0), out := false, held := [], crc := 0, rd := false, miss := 0, idle := 0, silence := 0 }

/-- The transmit side of a lane's codec: the line level (NRZI), the running disparity, the run of ones, the frame's CRC, and
whether a frame is open. -/
structure TxLine where
  level : Bool
  rd : Bool
  ones : Nat
  crc : Nat
  opened : Bool
  deriving DecidableEq, Repr

/-- The transmit side of a lane that has sent nothing. -/
def TxLine.reset : TxLine := { level := true, rd := false, ones := 0, crc := 0, opened := false }

/-- A Stencil slot (R374 to R391): registers, pc, flags (N 3, Z 2, C 1, V 0), the wait, the loaded value not yet
visible (R384), the FIFOs, symbols lost to a full FIFO (R380), the open frame, the frames that move out of assembly
buffers (R390), the timestamp of the symbol rx last returned, the CRC, the captured half of the counter (R388), the
staged frame, whether txrun has opened it, the line driver, and debug's hold. -/
structure Slot2 where
  regs : Tab (BitVec 16)
  pc : BitVec 12
  flags : BitVec 4
  wait : SWait
  ld : Option (Nat × BitVec 16)
  rxf : List Sym
  lost : Nat
  txf : List (BitVec 16)
  frame : Option HFrame
  moving : Nat
  stamp : Option (Nat × Nat)
  crc : SlotCrc
  nowHi : BitVec 16
  staged : Option Staged
  opened : Bool
  driver : Bool
  viol : List Nat
  dbg : DbgHalt
  deriving DecidableEq, Repr

/-- A slot at reset. -/
def Slot2.reset : Slot2 :=
  { regs := [], pc := 0, flags := 0, wait := .none, ld := none, rxf := [], lost := 0, txf := [], frame := none,
    moving := 0, stamp := none, crc := ⟨false, false, 0⟩, nowHi := 0, staged := none, opened := false, driver := false,
    viol := [], dbg := .none }

/-- The heartbeat of a ring pair (R394, R423): when its arming lapses and when the pin next toggles, in quarter
nanoseconds; when the pair entered its present state; whether it stopped since the engine was started; the level. -/
structure Hb where
  lapse : Nat
  next : Nat
  since : Nat
  stopped : Bool
  level : Bool
  deriving DecidableEq, Repr

/-- The Stencil engines: slots (4e + s), the slot of each engine that issued last (R376), both sides of each lane's codec,
each lane's count of frames with errors (R393), what each lane has sent, and the heartbeats of pairs A and B. -/
structure Stn where
  slots : Tab Slot2
  last : Tab Nat
  rx : Tab RxLine
  tx : Tab TxLine
  errs : Tab Nat
  out : Tab (List LineOut)
  hb : Tab Hb
  deriving DecidableEq, Repr

/-! Ports and time (R399 to R426). -/

/-- A transmit timestamp in a capture FIFO (R416). -/
structure TsCap where
  mtype : Nat
  dom : Nat
  seq : Nat
  ns : Nat
  sec : Nat
  frac : Nat
  deriving DecidableEq, Repr

/-- A unit of a sent frame on its line (R403, R406): an octet or its control code, with 0 for data and 1 for control, or a
66-bit block of raw 64b/66b, 2 for a data block and 3 for a control block, with its scrambled payload. -/
structure LineUnit where
  kind : Nat
  value : Nat
  deriving DecidableEq, Repr

/-- A frame that a port has sent: its bytes with the FCS or CRC, and what the line carried for it from preamble or start to
its end, the gap that follows included. -/
structure SentFrame where
  port : Nat
  bytes : List Byte
  line : List LineUnit
  deriving DecidableEq, Repr

/-- The ports: when each port's signal was detected and when its alignment began, until when it receives local and remote
fault (R401), the capture FIFOs, the frames sent,
the scramblers of raw 64b/66b ports, the ports held as a disagreement (R65), and TIME_PPS_OUT (level, when it rose, when it last
rose). -/
structure Prt where
  detect : Tab Nat
  align_ : Tab Nat
  faults : Tab (Nat × Nat)
  caps : Tab (List TsCap)
  sent : List SentFrame
  scr : Tab Nat
  held : List Nat
  pps : Bool
  ppsFall : Nat
  ppsLast : Option Nat
  deriving DecidableEq, Repr

/-! Management (R490 to R516), debug and JTAG (R552 to R556), pins (R566 to R573). -/

/-- The Fixative (R510): its start, whether PWRFAIL_N started it, and whether a reset follows it (R512). -/
structure Fix where
  start : Nat
  power : Bool
  resetAfter : Bool
  deriving DecidableEq, Repr

/-- The Fixative journal (R494, R511): its records in the order written, how many times the Fixative has run, whether a
record could not be written since the last boot, and the record that the last boot used. -/
structure Journal where
  recs : List (List Byte)
  runs : Nat
  missed : Bool
  used : Option (List Byte)
  deriving DecidableEq, Repr

/-- A quote asked for (R505): by a group's command, or by GMP; its nonce, and its signed bytes once it has captured the
measurements. -/
structure QuoteReq where
  ring : Option (Nat × Nat)
  nonce : List Byte
  body : Option (List Byte)
  deriving DecidableEq, Repr

/-- Management: the quotes that wait, oldest first, the last GMP quote, the timer lines of the Atelier cores and whose
compare has been reached since it was written (R502), the I3C limits and reset action (R506), the in-band interrupts (the one offered, and the latest that came
after it, R509), the Fixative, its journal, the cmd_index of the last control-plane transaction applied for each group
(R511), the sampled BOOT_SEL, the booted image's svn and entry, and whether the Atelier reboots (R508). -/
structure Mgt where
  quotes : List QuoteReq
  gmpQuote : Option (List Byte)
  timers : Nat
  timerHit : Nat
  mwl : Nat
  mrl : Nat
  rstAct : Nat
  ibi : Option (Nat × Nat)
  ibiNext : Option (Nat × Nat)
  fix : Option Fix
  journal : Journal
  lastCp : Tab Nat
  bootSel : Nat
  svn : Nat
  entry : Word
  reboot : Bool
  deriving DecidableEq, Repr

/-- The instructions of the TAP (R556). -/
inductive Tap where
  | bypass
  | idcode
  | sample
  | extest
  | clamp
  | highz
  | extestPulse
  | extestTrain
  | dbgAccess
  deriving DecidableEq, Repr

/-- JTAG: the TAP instruction and the boundary register (R556), whose cells are numbered as log entry 129 says; the time at
which the lane test that runs began (R551). -/
structure Dbg where
  tap : Tap
  boundary : Boundary
  testAt : Nat
  deriving DecidableEq, Repr

/-- The pins and supplies (R566 to R573): levels as driven or seen; `faultEnd` ends the FAULT_N pulse
(R545); `pfLow` says that PWRFAIL_N was low when RESET_N was released, and `pfUp` when it has risen since (R569). -/
structure Pins where
  vddIo : Bool
  vddCore : Bool
  resetN : Bool
  pwrfailN : Bool
  perstN : Bool
  thermtripN : Bool
  bootSel : Nat
  faultEnd : Option Nat
  refclk : Bool
  pfLow : Bool
  pfUp : Option Nat
  deriving DecidableEq, Repr

/-- The fused identity, the certificate, the device key and the measurements (R490, R491, R503). -/
structure Ident where
  lot : List Byte
  wafer : Nat
  x : Nat
  y : Nat
  stage : Nat
  stepping : Nat
  keys : List (List Byte)
  present : Nat
  revoked : Nat
  svnMin : Nat
  cert : List Byte
  devKey : Nat
  meas : List (List Byte)
  deriving DecidableEq, Repr

end Sys2Proof.Machine
end

