-- ==== Sys2Proof/Machine/RegTable.lean ====
section
/-!
DEFINITION. The register map: the offset of every register of the register space (R43) and, per block, the table of
access masks and reset values that the register tables of the chapters state (R13, R14).
Reset values the spec marks "fuse" or leaves to a view are given where the value is held (Ident, the view functions).
-/

namespace Sys2Proof.Machine.Reg


/-! Offsets of the GLB block (R45). -/
def GLB_DEVICE_ID : Nat := 0x0
def GLB_SCRATCH : Nat := 0x4
def GLB_CLK_STATUS : Nat := 0x8
def GLB_PCLK_STATUS : Nat := 0xc
def GLB_UNMAP_ADDR_LO : Nat := 0x10
def GLB_UNMAP_ADDR_HI : Nat := 0x14
def GLB_UNMAP_STATUS : Nat := 0x18
def GLB_RUN_STATE : Nat := 0x1c

/-! Offsets of the IDN block (R514). -/
def IDN_LOT_LO : Nat := 0x100000
def IDN_LOT_HI : Nat := 0x100004
def IDN_DIE : Nat := 0x100008
def IDN_STEP : Nat := 0x10000c
def IDN_KEYS : Nat := 0x100010
def IDN_CERT_LEN : Nat := 0x100014
def IDN_MEAS (i j : Nat) : Nat := 0x100100 + 64 * i + 4 * j
def IDN_CERT (i : Nat) : Nat := 0x101000 + 4 * i

/-! Offsets of the FLT block (R558). -/
def FLT_CTL : Nat := 0x200000
def FLT_FIRST_STATUS : Nat := 0x200004
def FLT_FIRST_DETAIL : Nat := 0x200008
def FLT_FIRST_TIME_LO : Nat := 0x20000c
def FLT_FIRST_TIME_HI : Nat := 0x200010
def FLT_INJECT : Nat := 0x200014
def FLT_INJECT_DETAIL : Nat := 0x200018
def FLT_IST_CMD : Nat := 0x200020
def FLT_IST_STATUS : Nat := 0x200024
def FLT_UNITS (i : Nat) : Nat := 0x200030 + 4 * i
def FLT_SEV (i : Nat) : Nat := 0x200400 + 4 * i
def FLT_CNT (i : Nat) : Nat := 0x200800 + 4 * i

/-! Offsets of the PWR block (R538). -/
def PWR_CTL : Nat := 0x300000
def PWR_STATUS : Nat := 0x300004
def PWR_RAIL : Nat := 0x300008
def PWR_RAIL_STATUS : Nat := 0x30000c
def PWR_LOOP : Nat := 0x300010
def PWR_THERM : Nat := 0x300014
def PWR_E_CORE_LO : Nat := 0x300018
def PWR_E_CORE_HI : Nat := 0x30001c
def PWR_CL_W0 (i : Nat) : Nat := 0x300100 + 32 * i
def PWR_CL_W1 (i : Nat) : Nat := 0x300104 + 32 * i
def PWR_CL_W2 (i : Nat) : Nat := 0x300108 + 32 * i
def PWR_CL_W3 (i : Nat) : Nat := 0x30010c + 32 * i
def PWR_CL_W4 (i : Nat) : Nat := 0x300110 + 32 * i
def PWR_CL_W5 (i : Nat) : Nat := 0x300114 + 32 * i
def PWR_CL_W6 (i : Nat) : Nat := 0x300118 + 32 * i
def PWR_CL_W7 (i : Nat) : Nat := 0x30011c + 32 * i
def PWR_E_BLK (i j : Nat) : Nat := 0x300400 + 8 * i + 4 * j

/-! Offsets of the HST block (R488). -/
def HST_CTL : Nat := 0x400000
def HST_STATUS : Nat := 0x400004
def HST_BAR4 : Nat := 0x400008
def HST_ERR_STATUS : Nat := 0x40000c
def HST_ERR_ADDR_LO : Nat := 0x400010
def HST_ERR_ADDR_HI : Nat := 0x400014
def HST_ATL_KICK : Nat := 0x400018
def HST_GRP_W0 (i : Nat) : Nat := 0x400100 + 64 * i
def HST_GRP_W1 (i : Nat) : Nat := 0x400104 + 64 * i
def HST_GRP_W2 (i : Nat) : Nat := 0x400108 + 64 * i
def HST_GRP_W3 (i : Nat) : Nat := 0x40010c + 64 * i
def HST_GRP_INJ_BASE_LO (i : Nat) : Nat := 0x400110 + 64 * i
def HST_GRP_INJ_BASE_HI (i : Nat) : Nat := 0x400114 + 64 * i
def HST_GRP_PUNT_BASE_LO (i : Nat) : Nat := 0x400118 + 64 * i
def HST_GRP_PUNT_BASE_HI (i : Nat) : Nat := 0x40011c + 64 * i
def HST_GRP_CMD_BASE_LO (i : Nat) : Nat := 0x400120 + 64 * i
def HST_GRP_CMD_BASE_HI (i : Nat) : Nat := 0x400124 + 64 * i
def HST_GRP_CPL_BASE_LO (i : Nat) : Nat := 0x400128 + 64 * i
def HST_GRP_CPL_BASE_HI (i : Nat) : Nat := 0x40012c + 64 * i
def HST_GRP_EVT_BASE_LO (i : Nat) : Nat := 0x400130 + 64 * i
def HST_GRP_EVT_BASE_HI (i : Nat) : Nat := 0x400134 + 64 * i
def HST_GRP_W14 (i : Nat) : Nat := 0x400138 + 64 * i
def HST_GRP_W15 (i : Nat) : Nat := 0x40013c + 64 * i
def HST_GRP_CNT (i j : Nat) : Nat := 0x400800 + 16 * i + 4 * j
def HST_MSIX_TABLE (i j : Nat) : Nat := 0x480000 + 16 * i + 4 * j
def HST_MSIX_PBA (i : Nat) : Nat := 0x481000 + 4 * i

/-! Offsets of the MGT block (R515). -/
def MGT_I3C_CFG : Nat := 0x500000
def MGT_I3C_STATUS : Nat := 0x500004
def MGT_IBI : Nat := 0x500008
def MGT_GMP_CNT : Nat := 0x50000c

/-! Offsets of the ATL block (R515). -/
def ATL_CORE_CTL : Nat := 0x1300000
def ATL_START (i : Nat) : Nat := 0x1300004 + 4 * i
def ATL_RUN : Nat := 0x1300010
def ATL_INT_EN : Nat := 0x1300014
def ATL_INT_PEND : Nat := 0x1300018
def ATL_IPI : Nat := 0x130001c
def ATL_TIMER (i j : Nat) : Nat := 0x1300020 + 8 * i + 4 * j
def ATL_BOOT : Nat := 0x1300040
def ATL_BOOT_SRC (i : Nat) : Nat := 0x1300044 + 4 * i
def ATL_MEAS_DATA (i : Nat) : Nat := 0x1300080 + 4 * i
def ATL_MEAS : Nat := 0x13000c0

/-! Offsets of the TIM block (R425). -/
def TIM_CTL : Nat := 0x600000
def TIM_RATE : Nat := 0x600004
def TIM_CMD : Nat := 0x600008
def TIM_T_FRAC : Nat := 0x60000c
def TIM_T_NS : Nat := 0x600010
def TIM_T_SEC_LO : Nat := 0x600014
def TIM_T_SEC_HI : Nat := 0x600018
def TIM_STEP_NS : Nat := 0x60001c
def TIM_PPS_OUT : Nat := 0x600020
def TIM_PPS_IN_NS : Nat := 0x600024
def TIM_PPS_IN_SEC_LO : Nat := 0x600028
def TIM_PPS_IN_STATUS : Nat := 0x60002c

/-! Offsets of the PRT block (R424). -/
def PRT_CTL : Nat := 0x700000
def PRT_SYSTEM : Nat := 0x700004
def PRT_RING_W0 (i : Nat) : Nat := 0x700100 + 8 * i
def PRT_RING_W1 (i : Nat) : Nat := 0x700104 + 8 * i
def PRT_PORT_W0 (i : Nat) : Nat := 0x701000 + 16 * i
def PRT_PORT_W1 (i : Nat) : Nat := 0x701004 + 16 * i
def PRT_PORT_W2 (i : Nat) : Nat := 0x701008 + 16 * i
def PRT_PORT_W3 (i : Nat) : Nat := 0x70100c + 16 * i
def PRT_LANE_W0 (i : Nat) : Nat := 0x702000 + 8 * i
def PRT_LANE_W1 (i : Nat) : Nat := 0x702004 + 8 * i
def PRT_CNT (i j : Nat) : Nat := 0x704000 + 64 * i + 4 * j

/-! Offsets of the STN block (R397). -/
def STN_CTL : Nat := 0x800000
def STN_ENG_W0 (i : Nat) : Nat := 0x800100 + 16 * i
def STN_ENG_W1 (i : Nat) : Nat := 0x800104 + 16 * i
def STN_ENG_W2 (i : Nat) : Nat := 0x800108 + 16 * i
def STN_ENG_W3 (i : Nat) : Nat := 0x80010c + 16 * i
def STN_LANE_W0 (i : Nat) : Nat := 0x800400 + 32 * i
def STN_LANE_W1 (i : Nat) : Nat := 0x800404 + 32 * i
def STN_LANE_W2 (i : Nat) : Nat := 0x800408 + 32 * i
def STN_LANE_W3 (i : Nat) : Nat := 0x80040c + 32 * i
def STN_LANE_W4 (i : Nat) : Nat := 0x800410 + 32 * i
def STN_LANE_W5 (i : Nat) : Nat := 0x800414 + 32 * i
def STN_LANE_W6 (i : Nat) : Nat := 0x800418 + 32 * i
def STN_LANE_W7 (i : Nat) : Nat := 0x80041c + 32 * i
def STN_HB (i : Nat) : Nat := 0x800800 + 4 * i
def STN_PMEM (i j : Nat) : Nat := 0x810000 + 8192 * i + 4 * j
def STN_DMEM (i j : Nat) : Nat := 0x850000 + 2048 * i + 4 * j

/-! Offsets of the PRS block (R214). -/
def PRS_CTL : Nat := 0x900000
def PRS_STATUS : Nat := 0x900004
def PRS_SLICE_CTL : Nat := 0x900008
def PRS_HASH_SEED : Nat := 0x90000c
def PRS_PKT_CNT_LO : Nat := 0x900010
def PRS_PKT_CNT_HI : Nat := 0x900014
def PRS_EXHAUST_CNT : Nat := 0x900018
def PRS_LIMIT_CNT : Nat := 0x90001c
def PRS_DROP_CNT : Nat := 0x900020
def PRS_DISCARD_CNT : Nat := 0x900024
def PRS_PORT_START (i : Nat) : Nat := 0x900400 + 4 * i
def PRS_STATE_W0 (i : Nat) : Nat := 0x901000 + 16 * i
def PRS_STATE_W1 (i : Nat) : Nat := 0x901004 + 16 * i
def PRS_STATE_W2 (i : Nat) : Nat := 0x901008 + 16 * i
def PRS_STATE_W3 (i : Nat) : Nat := 0x90100c + 16 * i
def PRS_END_W0 (i : Nat) : Nat := 0x902000 + 16 * i
def PRS_END_W1 (i : Nat) : Nat := 0x902004 + 16 * i
def PRS_END_W2 (i : Nat) : Nat := 0x902008 + 16 * i
def PRS_END_W3 (i : Nat) : Nat := 0x90200c + 16 * i
def PRS_TT_W0 (i : Nat) : Nat := 0x910000 + 16 * i
def PRS_TT_W1 (i : Nat) : Nat := 0x910004 + 16 * i
def PRS_TT_W2 (i : Nat) : Nat := 0x910008 + 16 * i
def PRS_TT_W3 (i : Nat) : Nat := 0x91000c + 16 * i

/-! Offsets of the CLS block (R287). -/
def CLS_CTL : Nat := 0xa00000
def CLS_STATUS : Nat := 0xa00004
def CLS_RULES : Nat := 0xa00008
def CLS_SET (i : Nat) : Nat := 0xa00100 + 4 * i

/-! Offsets of the FWD block (R286). -/
def FWD_CTL : Nat := 0xb00000
def FWD_STATUS : Nat := 0xb00004
def FWD_ECC_STATUS : Nat := 0xb00008
def FWD_TBL_W0 (i : Nat) : Nat := 0xb01000 + 32 * i
def FWD_TBL_W1 (i : Nat) : Nat := 0xb01004 + 32 * i
def FWD_TBL_W2 (i : Nat) : Nat := 0xb01008 + 32 * i
def FWD_TBL_W3 (i : Nat) : Nat := 0xb0100c + 32 * i
def FWD_TBL_W4 (i : Nat) : Nat := 0xb01010 + 32 * i
def FWD_TBL_W5 (i : Nat) : Nat := 0xb01014 + 32 * i
def FWD_TBL_W6 (i : Nat) : Nat := 0xb01018 + 32 * i
def FWD_TBL_W7 (i : Nat) : Nat := 0xb0101c + 32 * i
def FWD_TBL_STAT_W0 (i : Nat) : Nat := 0xb03000 + 32 * i
def FWD_TBL_STAT_W1 (i : Nat) : Nat := 0xb03004 + 32 * i
def FWD_TBL_STAT_W2 (i : Nat) : Nat := 0xb03008 + 32 * i
def FWD_TBL_STAT_W3 (i : Nat) : Nat := 0xb0300c + 32 * i
def FWD_TBL_STAT_W4 (i : Nat) : Nat := 0xb03010 + 32 * i
def FWD_TBL_STAT_W5 (i : Nat) : Nat := 0xb03014 + 32 * i
def FWD_TBL_STAT_W6 (i : Nat) : Nat := 0xb03018 + 32 * i
def FWD_TBL_STAT_W7 (i : Nat) : Nat := 0xb0301c + 32 * i

/-! Offsets of the VRN block (R188). -/
def VRN_CTL : Nat := 0xc00000
def VRN_SHR_BASE_LO : Nat := 0xc00004
def VRN_SHR_BASE_HI : Nat := 0xc00008
def VRN_SHR_SIZE : Nat := 0xc0000c
def VRN_SIG_SEED : Nat := 0xc00010
def VRN_STATUS : Nat := 0xc00014
def VRN_IRREV_STATUS : Nat := 0xc00018
def VRN_DOMAIN_SEL : Nat := 0xc0001c
def VRN_DOMAIN_HEAD : Nat := 0xc00020
def VRN_DOMAIN_NEXT : Nat := 0xc00024
def VRN_DOMAIN_STATUS : Nat := 0xc00028
def VRN_CP_STATUS : Nat := 0xc0002c
def VRN_COMMIT_CNT_LO : Nat := 0xc00030
def VRN_COMMIT_CNT_HI : Nat := 0xc00034
def VRN_IRREV_CNT_LO : Nat := 0xc00038
def VRN_IRREV_CNT_HI : Nat := 0xc0003c
def VRN_ABORT_CNT (i : Nat) : Nat := 0xc00040 + 4 * i
def VRN_VOID_CNT : Nat := 0xc00080

/-! Offsets of the PAL block (R318). -/
def PAL_CTL : Nat := 0xd00000
def PAL_STATUS : Nat := 0xd00004
def PAL_REJECT_STATUS : Nat := 0xd00008
def PAL_REJECT_HANDLE : Nat := 0xd0000c
def PAL_REJECT_CNT : Nat := 0xd00010
def PAL_REPL_DROP_CNT : Nat := 0xd00014
def PAL_POOL_W0 (i : Nat) : Nat := 0xd00100 + 16 * i
def PAL_POOL_W1 (i : Nat) : Nat := 0xd00104 + 16 * i
def PAL_POOL_W2 (i : Nat) : Nat := 0xd00108 + 16 * i
def PAL_POOL_W3 (i : Nat) : Nat := 0xd0010c + 16 * i
def PAL_POOL_STAT_W0 (i : Nat) : Nat := 0xd00200 + 8 * i
def PAL_POOL_STAT_W1 (i : Nat) : Nat := 0xd00204 + 8 * i
def PAL_OWNER (i : Nat) : Nat := 0xd00400 + 4 * i
def PAL_OWNER_DROP (i : Nat) : Nat := 0xd00500 + 4 * i
def PAL_OWN_W0 (i j : Nat) : Nat := 0xd10000 + 256 * i + 16 * j
def PAL_OWN_W1 (i j : Nat) : Nat := 0xd10004 + 256 * i + 16 * j
def PAL_OWN_W2 (i j : Nat) : Nat := 0xd10008 + 256 * i + 16 * j
def PAL_OWN_W3 (i j : Nat) : Nat := 0xd1000c + 256 * i + 16 * j

/-! Offsets of the TMG block (R354). -/
def TMG_CTL : Nat := 0xe00000
def TMG_OBJ_SEL : Nat := 0xe00004
def TMG_OBJ_CMD : Nat := 0xe00008
def TMG_OBJ_STATUS : Nat := 0xe0000c
def TMG_OBJ_DATA (i : Nat) : Nat := 0xe00010 + 4 * i
def TMG_SWATCH_CTL : Nat := 0xe00040
def TMG_SWATCH_RANGE : Nat := 0xe00044
def TMG_SWATCH_BASE_LO : Nat := 0xe00048
def TMG_SWATCH_BASE_HI : Nat := 0xe0004c
def TMG_SWATCH_SIZE : Nat := 0xe00050
def TMG_SWATCH_WIDX : Nat := 0xe00054
def TMG_DROP_CNT (i : Nat) : Nat := 0xe00080 + 4 * i

/-! Offsets of the MTR block (R355). -/
def MTR_CTL : Nat := 0xf00000
def MTR_SEL : Nat := 0xf00004
def MTR_CMD : Nat := 0xf00008
def MTR_STATUS : Nat := 0xf0000c
def MTR_DATA (i : Nat) : Nat := 0xf00010 + 4 * i

/-! Offsets of the DRC block (R457). -/
def DRC_CTL : Nat := 0x1000000
def DRC_STATUS : Nat := 0x1000004
def DRC_ILV : Nat := 0x1000008
def DRC_MIRROR_DELTA_LO : Nat := 0x100000c
def DRC_MIRROR_DELTA_HI : Nat := 0x1000010
def DRC_PAR_BASE : Nat := 0x1000014
def DRC_PAR_STRIPES : Nat := 0x1000018
def DRC_SCHED : Nat := 0x100001c
def DRC_PANIC : Nat := 0x1000020
def DRC_FREQ_CMD : Nat := 0x1000024
def DRC_FREQ_STATUS : Nat := 0x1000028
def DRC_RETIRE : Nat := 0x100002c
def DRC_REBUILD : Nat := 0x1000030
def DRC_SCRUB : Nat := 0x1000034
def DRC_ERR_STATUS : Nat := 0x1000038
def DRC_ERR_ADDR_LO : Nat := 0x100003c
def DRC_ERR_ADDR_HI : Nat := 0x1000040
def DRC_CE_CNT : Nat := 0x1000044
def DRC_UE_CNT : Nat := 0x1000048
def DRC_TSET_W0 (i : Nat) : Nat := 0x1000100 + 16 * i
def DRC_TSET_W1 (i : Nat) : Nat := 0x1000104 + 16 * i
def DRC_TSET_W2 (i : Nat) : Nat := 0x1000108 + 16 * i
def DRC_TSET_W3 (i : Nat) : Nat := 0x100010c + 16 * i
def DRC_CHAN_W0 (i : Nat) : Nat := 0x1000200 + 16 * i
def DRC_CHAN_W1 (i : Nat) : Nat := 0x1000204 + 16 * i
def DRC_CHAN_W2 (i : Nat) : Nat := 0x1000208 + 16 * i

/-! Offsets of the TCA block (R458). -/
def TCA_CTL : Nat := 0x1100000
def TCA_STATUS : Nat := 0x1100004
def TCA_CMD : Nat := 0x1100008
def TCA_RANGE_BASE_LO : Nat := 0x110000c
def TCA_RANGE_BASE_HI : Nat := 0x1100010
def TCA_RANGE_SIZE : Nat := 0x1100014
def TCA_CMD_STATUS : Nat := 0x1100018
def TCA_HIT_CNT_LO : Nat := 0x1100020
def TCA_HIT_CNT_HI : Nat := 0x1100024
def TCA_MISS_CNT_LO : Nat := 0x1100028
def TCA_MISS_CNT_HI : Nat := 0x110002c
def TCA_WAYS (i : Nat) : Nat := 0x1100100 + 4 * i

/-! Offsets of the LKU block (R371). -/
def LKU_CTL : Nat := 0x1200000
def LKU_STATUS : Nat := 0x1200004
def LKU_TIMEOUT_CNT : Nat := 0x1200008
def LKU_BROKEN_CNT : Nat := 0x120000c
def LKU_BAD_REL_CNT : Nat := 0x1200010
def LKU_CAPT_ADDR_LO : Nat := 0x1200014
def LKU_CAPT_ADDR_HI : Nat := 0x1200018
def LKU_CAPT_STATUS : Nat := 0x120001c
def LKU_PROBE_ADDR_LO : Nat := 0x1200020
def LKU_PROBE_ADDR_HI : Nat := 0x1200024
def LKU_PROBE_STATUS : Nat := 0x1200028
def LKU_SEM_GROUP (i : Nat) : Nat := 0x1200100 + 4 * i
def LKU_SEM_STATE (i : Nat) : Nat := 0x1200200 + 4 * i

/-! Offsets of the DBG block (R558). -/
def DBG_CTL : Nat := 0x1400000
def DBG_SEL : Nat := 0x1400004
def DBG_CMD : Nat := 0x1400008
def DBG_STATUS : Nat := 0x140000c
def DBG_CTX_IDX : Nat := 0x1400010
def DBG_CTX_DATA : Nat := 0x1400014
def DBG_BP_ADDR (i : Nat) : Nat := 0x1400100 + 8 * i
def DBG_BP_CTL (i : Nat) : Nat := 0x1400104 + 8 * i
def DBG_WP_ADDR (i : Nat) : Nat := 0x1400140 + 12 * i
def DBG_WP_MASK (i : Nat) : Nat := 0x1400144 + 12 * i
def DBG_WP_CTL (i : Nat) : Nat := 0x1400148 + 12 * i
def DBG_LANE_TEST : Nat := 0x1400200
def DBG_LANE_ERR : Nat := 0x1400204
def DBG_PAL_SEL : Nat := 0x1400300
def DBG_PAL_RES : Nat := 0x1400304

/-! Offsets of the CLU block (R153, R239). -/
def CLU_EASEL_CTL (i : Nat) : Nat := 0x2000000 + 1048576 * i
def CLU_CORE_MODE (i : Nat) : Nat := 0x2000004 + 1048576 * i
def CLU_SAVE_CFG (i : Nat) : Nat := 0x2000008 + 1048576 * i
def CLU_STACK_CFG (i : Nat) : Nat := 0x200000c + 1048576 * i
def CLU_TVB (i : Nat) : Nat := 0x2000010 + 1048576 * i
def CLU_DWIN (i : Nat) : Nat := 0x2000014 + 1048576 * i
def CLU_FREE_LIMIT (i : Nat) : Nat := 0x2000018 + 1048576 * i
def CLU_MS_STATUS (i : Nat) : Nat := 0x200001c + 1048576 * i
def CLU_DISPATCH_CNT_LO (i : Nat) : Nat := 0x2000020 + 1048576 * i
def CLU_DISPATCH_CNT_HI (i : Nat) : Nat := 0x2000024 + 1048576 * i
def CLU_PREEMPT_CNT_LO (i : Nat) : Nat := 0x2000028 + 1048576 * i
def CLU_PREEMPT_CNT_HI (i : Nat) : Nat := 0x200002c + 1048576 * i
def CLU_LOST_CNT (i : Nat) : Nat := 0x2000030 + 1048576 * i
def CLU_THREAD_STATE (i j : Nat) : Nat := 0x2000100 + 1048576 * i + 4 * j
def CLU_BRUSH_CTL (i : Nat) : Nat := 0x2000040 + 1048576 * i
def CLU_BRUSH_REFUSE_CNT (i j : Nat) : Nat := 0x2000060 + 1048576 * i + 4 * j
def CLU_MSG_CFG (i j : Nat) : Nat := 0x2000800 + 1048576 * i + 4 * j
def CLU_MSG_STATUS (i j : Nat) : Nat := 0x2000a00 + 1048576 * i + 4 * j

end Sys2Proof.Machine.Reg

namespace Sys2Proof.Machine

/-- One row of the register map: a register or an array of registers with its access masks (R13) and reset (R14).
`fwd` marks a register whose writes are refused while forwarding (R48). -/
structure RegDesc where
  base : Nat
  s1 : Nat
  n1 : Nat
  s2 : Nat
  n2 : Nat
  rw : Nat
  ro : Nat
  w1c : Nat
  w1s : Nat
  wo : Nat
  reset : Nat
  fwd : Bool
  deriving DecidableEq, Repr

/-- Rows of the GLB block's register tables (R45). -/
def regsGLB0 : List RegDesc := [
  ⟨0x0, 0, 1, 0, 1, 0, 0xffffffff, 0, 0, 0, 0x4c593200, false⟩,  -- GLB_DEVICE_ID
  ⟨0x4, 0, 1, 0, 1, 0xffffffff, 0, 0, 0, 0, 0, false⟩,  -- GLB_SCRATCH
  ⟨0x8, 0, 1, 0, 1, 0, 0x7fffffff, 0, 0, 0, 0x40000000, false⟩,  -- GLB_CLK_STATUS
  ⟨0xc, 0, 1, 0, 1, 0, 0xfffff, 0, 0, 0, 0, false⟩,  -- GLB_PCLK_STATUS
  ⟨0x10, 0, 1, 0, 1, 0, 0xffffffff, 0, 0, 0, 0, false⟩,  -- GLB_UNMAP_ADDR_LO
  ⟨0x14, 0, 1, 0, 1, 0, 0xfffff, 0, 0, 0, 0, false⟩,  -- GLB_UNMAP_ADDR_HI
  ⟨0x18, 0, 1, 0, 1, 0, 0, 3, 0, 0, 0, false⟩,  -- GLB_UNMAP_STATUS
  ⟨0x1c, 0, 1, 0, 1, 0, 0xf, 0, 0, 0, 0, false⟩]  -- GLB_RUN_STATE

/-- The GLB block's registers (R45). -/
def regsGLB : List RegDesc := regsGLB0

/-- Rows of the IDN block's register tables (R514). -/
def regsIDN0 : List RegDesc := [
  ⟨0x100000, 0, 1, 0, 1, 0, 0xffffffff, 0, 0, 0, 0, false⟩,  -- IDN_LOT_LO
  ⟨0x100004, 0, 1, 0, 1, 0, 0xffffffff, 0, 0, 0, 0, false⟩,  -- IDN_LOT_HI
  ⟨0x100008, 0, 1, 0, 1, 0, 0xffffffff, 0, 0, 0, 0, false⟩,  -- IDN_DIE
  ⟨0x10000c, 0, 1, 0, 1, 0, 0xffffffff, 0, 0, 0, 0, false⟩,  -- IDN_STEP
  ⟨0x100010, 0, 1, 0, 1, 0, 0xffffffff, 0, 0, 0, 0, false⟩,  -- IDN_KEYS
  ⟨0x100014, 0, 1, 0, 1, 0, 0xffffffff, 0, 0, 0, 0, false⟩,  -- IDN_CERT_LEN
  ⟨0x100100, 0x40, 4, 4, 16, 0, 0xffffffff, 0, 0, 0, 0, false⟩,  -- IDN_MEAS
  ⟨0x101000, 4, 512, 0, 1, 0, 0xffffffff, 0, 0, 0, 0, false⟩]  -- IDN_CERT

/-- The IDN block's registers (R514). -/
def regsIDN : List RegDesc := regsIDN0

/-- Rows of the FLT block's register tables (R558). -/
def regsFLT0 : List RegDesc := [
  ⟨0x200000, 0, 1, 0, 1, 0x3fffffff, 0, 0, 0, 0, 0x200a0064, false⟩,  -- FLT_CTL
  ⟨0x200004, 0, 1, 0, 1, 0, 0x200007ff, 0xc0000000, 0, 0, 0, false⟩,  -- FLT_FIRST_STATUS
  ⟨0x200008, 0, 1, 0, 1, 0, 0xffffffff, 0, 0, 0, 0, false⟩,  -- FLT_FIRST_DETAIL
  ⟨0x20000c, 0, 1, 0, 1, 0, 0xffffffff, 0, 0, 0, 0, false⟩,  -- FLT_FIRST_TIME_LO
  ⟨0x200010, 0, 1, 0, 1, 0, 0xffffffff, 0, 0, 0, 0, false⟩,  -- FLT_FIRST_TIME_HI
  ⟨0x200014, 0, 1, 0, 1, 0, 0, 0, 0, 0xff, 0, false⟩,  -- FLT_INJECT
  ⟨0x200018, 0, 1, 0, 1, 0xffffffff, 0, 0, 0, 0, 0, false⟩,  -- FLT_INJECT_DETAIL
  ⟨0x200020, 0, 1, 0, 1, 0x300001f, 0, 0, 0, 0xc0000000, 0, false⟩,  -- FLT_IST_CMD
  ⟨0x200024, 0, 1, 0, 1, 0, 0x8000000f, 0, 0, 0, 0, false⟩,  -- FLT_IST_STATUS
  ⟨0x200030, 4, 4, 0, 1, 0, 0xffffff, 0, 0, 0, 0, false⟩,  -- FLT_UNITS
  ⟨0x200400, 4, 256, 0, 1, 7, 0, 0, 0, 0, 0, false⟩,  -- FLT_SEV
  ⟨0x200800, 4, 256, 0, 1, 0, 0, 0xffff, 0, 0, 0, false⟩]  -- FLT_CNT

/-- The FLT block's registers (R558). -/
def regsFLT : List RegDesc := regsFLT0

/-- Rows of the PWR block's register tables (R538). -/
def regsPWR0 : List RegDesc := [
  ⟨0x300000, 0, 1, 0, 1, 0xfd, 0, 0, 0, 0, 0x35, false⟩,  -- PWR_CTL
  ⟨0x300004, 0, 1, 0, 1, 0, 0xc0ffffff, 0, 0, 0, 0, false⟩,  -- PWR_STATUS
  ⟨0x300008, 0, 1, 0, 1, 0xfffff3ff, 0, 0, 0, 0, 0x3c2822bc, true⟩,  -- PWR_RAIL
  ⟨0x30000c, 0, 1, 0, 1, 0, 0x8fff03ff, 0, 0, 0, 0, false⟩,  -- PWR_RAIL_STATUS
  ⟨0x300010, 0, 1, 0, 1, 0x1fffffff, 0, 0, 0, 0, 0x1b0d0a05, false⟩,  -- PWR_LOOP
  ⟨0x300014, 0, 1, 0, 1, 0xff0000, 0xffff, 0, 0, 0, 0x640000, false⟩,  -- PWR_THERM
  ⟨0x300018, 0, 1, 0, 1, 0, 0xffffffff, 0, 0, 0, 0, false⟩,  -- PWR_E_CORE_LO
  ⟨0x30001c, 0, 1, 0, 1, 0, 0xffffffff, 0, 0, 0, 0, false⟩,  -- PWR_E_CORE_HI
  ⟨0x300100, 0x20, 24, 0, 1, 0xc00000ff, 0, 0, 0, 0, 0x80000098, false⟩,  -- PWR_CL_W0
  ⟨0x300104, 0x20, 24, 0, 1, 0, 0xe3ff00ff, 0, 0, 0, 0, false⟩,  -- PWR_CL_W1
  ⟨0x300108, 0x20, 24, 0, 1, 0, 0xffffffff, 0, 0, 0, 0, false⟩,  -- PWR_CL_W2
  ⟨0x30010c, 0x20, 24, 0, 1, 0, 0xffffffff, 0, 0, 0, 0, false⟩,  -- PWR_CL_W3
  ⟨0x300110, 0x20, 24, 0, 1, 0, 0xffffffff, 0, 0, 0, 0, false⟩,  -- PWR_CL_W4
  ⟨0x300114, 0x20, 24, 0, 1, 0, 0xffffffff, 0, 0, 0, 0, false⟩,  -- PWR_CL_W5
  ⟨0x300118, 0x20, 24, 0, 1, 0, 0, 0, 0, 0, 0, false⟩,  -- PWR_CL_W6
  ⟨0x30011c, 0x20, 24, 0, 1, 0, 0, 0, 0, 0, 0, false⟩,  -- PWR_CL_W7
  ⟨0x300400, 8, 9, 4, 2, 0, 0xffffffff, 0, 0, 0, 0, false⟩]  -- PWR_E_BLK

/-- The PWR block's registers (R538). -/
def regsPWR : List RegDesc := regsPWR0

/-- Rows of the HST block's register tables (R488). -/
def regsHST0 : List RegDesc := [
  ⟨0x400000, 0, 1, 0, 1, 0x1fff00, 0, 0, 0, 0, 0x1fff00, false⟩,  -- HST_CTL
  ⟨0x400004, 0, 1, 0, 1, 0, 0xcfff0007, 0, 0, 0, 0, false⟩,  -- HST_STATUS
  ⟨0x400008, 0, 1, 0, 1, 0x8003ffff, 0, 0, 0, 0, 0, false⟩,  -- HST_BAR4
  ⟨0x40000c, 0, 1, 0, 1, 0, 0xf70f, 0xc0000000, 0, 0, 0, false⟩,  -- HST_ERR_STATUS
  ⟨0x400010, 0, 1, 0, 1, 0, 0xffffffff, 0, 0, 0, 0, false⟩,  -- HST_ERR_ADDR_LO
  ⟨0x400014, 0, 1, 0, 1, 0, 0xffffffff, 0, 0, 0, 0, false⟩,  -- HST_ERR_ADDR_HI
  ⟨0x400018, 0, 1, 0, 1, 0, 0, 0, 0, 1, 0, false⟩,  -- HST_ATL_KICK
  ⟨0x400100, 0x40, 16, 0, 1, 0xa3ff3fff, 0, 0, 0, 0x40000000, 0x640000, false⟩,  -- HST_GRP_W0
  ⟨0x400104, 0x40, 16, 0, 1, 0xffffffc0, 0, 0, 0, 0, 0, false⟩,  -- HST_GRP_W1
  ⟨0x400108, 0x40, 16, 0, 1, 0xffffffff, 0, 0, 0, 0, 0, false⟩,  -- HST_GRP_W2
  ⟨0x40010c, 0x40, 16, 0, 1, 0x1ffffff, 0, 0, 0, 0, 0, false⟩,  -- HST_GRP_W3
  ⟨0x400110, 0x40, 16, 0, 1, 0xffffffc0, 0, 0, 0, 0, 0, false⟩,  -- HST_GRP_INJ_BASE_LO
  ⟨0x400114, 0x40, 16, 0, 1, 0xffffffff, 0, 0, 0, 0, 0, false⟩,  -- HST_GRP_INJ_BASE_HI
  ⟨0x400118, 0x40, 16, 0, 1, 0xffffffc0, 0, 0, 0, 0, 0, false⟩,  -- HST_GRP_PUNT_BASE_LO
  ⟨0x40011c, 0x40, 16, 0, 1, 0xffffffff, 0, 0, 0, 0, 0, false⟩,  -- HST_GRP_PUNT_BASE_HI
  ⟨0x400120, 0x40, 16, 0, 1, 0xffffffc0, 0, 0, 0, 0, 0, false⟩,  -- HST_GRP_CMD_BASE_LO
  ⟨0x400124, 0x40, 16, 0, 1, 0xffffffff, 0, 0, 0, 0, 0, false⟩,  -- HST_GRP_CMD_BASE_HI
  ⟨0x400128, 0x40, 16, 0, 1, 0xffffffc0, 0, 0, 0, 0, 0, false⟩,  -- HST_GRP_CPL_BASE_LO
  ⟨0x40012c, 0x40, 16, 0, 1, 0xffffffff, 0, 0, 0, 0, 0, false⟩,  -- HST_GRP_CPL_BASE_HI
  ⟨0x400130, 0x40, 16, 0, 1, 0xffffffc0, 0, 0, 0, 0, 0, false⟩]  -- HST_GRP_EVT_BASE_LO

/-- Rows of the HST block's register tables (R488). -/
def regsHST1 : List RegDesc := [
  ⟨0x400134, 0x40, 16, 0, 1, 0xffffffff, 0, 0, 0, 0, 0, false⟩,  -- HST_GRP_EVT_BASE_HI
  ⟨0x400138, 0x40, 16, 0, 1, 0x3ffffff, 0, 0, 0, 0, 0x3e8, false⟩,  -- HST_GRP_W14
  ⟨0x40013c, 0x40, 16, 0, 1, 0, 0xe00000ff, 0, 0, 0, 0, false⟩,  -- HST_GRP_W15
  ⟨0x400800, 0x10, 16, 4, 4, 0, 0xffffffff, 0, 0, 0, 0, false⟩,  -- HST_GRP_CNT
  ⟨0x480000, 0x10, 256, 4, 4, 0xffffffff, 0, 0, 0, 0, 0, false⟩,  -- HST_MSIX_TABLE
  ⟨0x481000, 4, 8, 0, 1, 0, 0xffffffff, 0, 0, 0, 0, false⟩]  -- HST_MSIX_PBA

/-- The HST block's registers (R488). -/
def regsHST : List RegDesc := regsHST0 ++ regsHST1

/-- Rows of the MGT block's register tables (R515). -/
def regsMGT0 : List RegDesc := [
  ⟨0x500000, 0, 1, 0, 1, 0xfff, 0, 0, 0, 0, 0xcc, false⟩,  -- MGT_I3C_CFG
  ⟨0x500004, 0, 1, 0, 1, 0, 0x1ff, 0, 0, 0, 0, false⟩,  -- MGT_I3C_STATUS
  ⟨0x500008, 0, 1, 0, 1, 7, 0, 0, 0, 0, 3, false⟩,  -- MGT_IBI
  ⟨0x50000c, 0, 1, 0, 1, 0, 0xffffffff, 0, 0, 0, 0, false⟩]  -- MGT_GMP_CNT

/-- The MGT block's registers (R515). -/
def regsMGT : List RegDesc := regsMGT0

/-- Rows of the ATL block's register tables (R515). -/
def regsATL0 : List RegDesc := [
  ⟨0x1300000, 0, 1, 0, 1, 0, 0, 0, 7, 0, 0, false⟩,  -- ATL_CORE_CTL
  ⟨0x1300004, 4, 3, 0, 1, 0xffffffff, 0, 0, 0, 0, 0, false⟩,  -- ATL_START
  ⟨0x1300010, 0, 1, 0, 1, 0, 0, 0, 0, 1, 0, false⟩,  -- ATL_RUN
  ⟨0x1300014, 0, 1, 0, 1, 0xff, 0, 0, 0, 0, 0, false⟩,  -- ATL_INT_EN
  ⟨0x1300018, 0, 1, 0, 1, 0, 0, 0xff, 0, 0, 0, false⟩,  -- ATL_INT_PEND
  ⟨0x130001c, 0, 1, 0, 1, 0, 0, 0, 0xf, 0, 0, false⟩,  -- ATL_IPI
  ⟨0x1300020, 8, 4, 4, 2, 0xffffffff, 0, 0, 0, 0, 0xffffffff, false⟩,  -- ATL_TIMER
  ⟨0x1300040, 0, 1, 0, 1, 0x80000000, 0x60000000, 0, 0, 0, 0, false⟩,  -- ATL_BOOT
  ⟨0x1300044, 4, 6, 0, 1, 0xffffffff, 0, 0, 0, 0, 0, false⟩,  -- ATL_BOOT_SRC
  ⟨0x1300080, 4, 16, 0, 1, 0xffffffff, 0, 0, 0, 0, 0, false⟩,  -- ATL_MEAS_DATA
  ⟨0x13000c0, 0, 1, 0, 1, 0, 0xffff, 0, 0, 0x80000000, 0, false⟩]  -- ATL_MEAS

/-- The ATL block's registers (R515). -/
def regsATL : List RegDesc := regsATL0

/-- Rows of the TIM block's register tables (R425). -/
def regsTIM0 : List RegDesc := [
  ⟨0x600000, 0, 1, 0, 1, 0x33, 0, 0, 0, 0, 0, false⟩,  -- TIM_CTL
  ⟨0x600004, 0, 1, 0, 1, 0xffffffff, 0, 0, 0, 0, 0, false⟩,  -- TIM_RATE
  ⟨0x600008, 0, 1, 0, 1, 0, 0, 0, 0, 3, 0, false⟩,  -- TIM_CMD
  ⟨0x60000c, 0, 1, 0, 1, 0xffff, 0, 0, 0, 0, 0, false⟩,  -- TIM_T_FRAC
  ⟨0x600010, 0, 1, 0, 1, 0x3fffffff, 0, 0, 0, 0, 0, false⟩,  -- TIM_T_NS
  ⟨0x600014, 0, 1, 0, 1, 0xffffffff, 0, 0, 0, 0, 0, false⟩,  -- TIM_T_SEC_LO
  ⟨0x600018, 0, 1, 0, 1, 0xffff, 0, 0, 0, 0, 0, false⟩,  -- TIM_T_SEC_HI
  ⟨0x60001c, 0, 1, 0, 1, 0xffffffff, 0, 0, 0, 0, 0, false⟩,  -- TIM_STEP_NS
  ⟨0x600020, 0, 1, 0, 1, 0xbfffffff, 0, 0, 0, 0, 0x5f5e100, false⟩,  -- TIM_PPS_OUT
  ⟨0x600024, 0, 1, 0, 1, 0, 0x3fffffff, 0, 0, 0, 0, false⟩,  -- TIM_PPS_IN_NS
  ⟨0x600028, 0, 1, 0, 1, 0, 0xffffffff, 0, 0, 0, 0, false⟩,  -- TIM_PPS_IN_SEC_LO
  ⟨0x60002c, 0, 1, 0, 1, 0, 0xffff, 0xc0000000, 0, 0, 0, false⟩]  -- TIM_PPS_IN_STATUS

/-- The TIM block's registers (R425). -/
def regsTIM : List RegDesc := regsTIM0

/-- Rows of the PRT block's register tables (R424). -/
def regsPRT0 : List RegDesc := [
  ⟨0x700000, 0, 1, 0, 1, 1, 0, 0, 0, 0, 0, true⟩,  -- PRT_CTL
  ⟨0x700004, 0, 1, 0, 1, 0, 0x1fff0fff, 0, 0, 0, 0x10000, false⟩,  -- PRT_SYSTEM
  ⟨0x700100, 8, 2, 0, 1, 0xffffffff, 0, 0, 0, 0, 0x3e80064, false⟩,  -- PRT_RING_W0
  ⟨0x700104, 8, 2, 0, 1, 0, 3, 0, 0, 0, 0, false⟩,  -- PRT_RING_W1
  ⟨0x701000, 0x10, 80, 0, 1, 0xbf300000, 0, 0, 0, 0, 0, false⟩,  -- PRT_PORT_W0
  ⟨0x701004, 0x10, 80, 0, 1, 0xffffffff, 0, 0, 0, 0, 0, false⟩,  -- PRT_PORT_W1
  ⟨0x701008, 0x10, 80, 0, 1, 0, 0xfcffff07, 0, 0, 0, 0, false⟩,  -- PRT_PORT_W2
  ⟨0x70100c, 0x10, 80, 0, 1, 0, 0xffff, 0, 0, 0, 0, false⟩,  -- PRT_PORT_W3
  ⟨0x702000, 8, 80, 0, 1, 0xc0000000, 0xf, 0, 0, 0, 0, false⟩,  -- PRT_LANE_W0
  ⟨0x702004, 8, 80, 0, 1, 0, 0xe0000000, 0, 0, 0, 0, false⟩,  -- PRT_LANE_W1
  ⟨0x704000, 0x40, 112, 4, 16, 0, 0xffffffff, 0, 0, 0, 0, false⟩]  -- PRT_CNT

/-- The PRT block's registers (R424). -/
def regsPRT : List RegDesc := regsPRT0

/-- Rows of the STN block's register tables (R397). -/
def regsSTN0 : List RegDesc := [
  ⟨0x800000, 0, 1, 0, 1, 1, 0, 0, 0, 0, 0, false⟩,  -- STN_CTL
  ⟨0x800100, 0x10, 32, 0, 1, 0xc0000000, 0, 0, 0, 0, 0, false⟩,  -- STN_ENG_W0
  ⟨0x800104, 0x10, 32, 0, 1, 0xfff0fff, 0, 0, 0, 0, 0, false⟩,  -- STN_ENG_W1
  ⟨0x800108, 0x10, 32, 0, 1, 0xfff0fff, 0, 0, 0, 0, 0, false⟩,  -- STN_ENG_W2
  ⟨0x80010c, 0x10, 32, 0, 1, 0, 0xfff00fff, 0, 0, 0, 0, false⟩,  -- STN_ENG_W3
  ⟨0x800400, 0x20, 32, 0, 1, 0, 0xc0ff301f, 0, 0, 0, 0, false⟩,  -- STN_LANE_W0
  ⟨0x800404, 0x20, 32, 0, 1, 0, 0xffffffff, 0, 0, 0, 0, false⟩,  -- STN_LANE_W1
  ⟨0x800408, 0x20, 32, 0, 1, 0, 0xffffffff, 0, 0, 0, 0, false⟩,  -- STN_LANE_W2
  ⟨0x80040c, 0x20, 32, 0, 1, 0, 0xffffffff, 0, 0, 0, 0, false⟩,  -- STN_LANE_W3
  ⟨0x800410, 0x20, 32, 0, 1, 0, 0xffffffff, 0, 0, 0, 0, false⟩,  -- STN_LANE_W4
  ⟨0x800414, 0x20, 32, 0, 1, 0, 0xffffffff, 0, 0, 0, 0, false⟩,  -- STN_LANE_W5
  ⟨0x800418, 0x20, 32, 0, 1, 0, 0x3fffffff, 0, 0, 0, 0, false⟩,  -- STN_LANE_W6
  ⟨0x80041c, 0x20, 32, 0, 1, 0, 0, 0, 0, 0, 0, false⟩,  -- STN_LANE_W7
  ⟨0x800800, 4, 2, 0, 1, 0, 0xc01fffff, 0, 0, 0, 0, false⟩,  -- STN_HB
  ⟨0x810000, 0x2000, 32, 4, 2048, 0xffffffff, 0, 0, 0, 0, 0, false⟩,  -- STN_PMEM
  ⟨0x850000, 0x800, 32, 4, 512, 0xffffffff, 0, 0, 0, 0, 0, false⟩]  -- STN_DMEM

/-- The STN block's registers (R397). -/
def regsSTN : List RegDesc := regsSTN0

/-- Rows of the PRS block's register tables (R214). -/
def regsPRS0 : List RegDesc := [
  ⟨0x900000, 0, 1, 0, 1, 0xf3f3f07, 0, 0, 0, 0, 0x4000000, false⟩,  -- PRS_CTL
  ⟨0x900004, 0, 1, 0, 1, 0, 0x1ff, 0, 0, 0, 0xff, false⟩,  -- PRS_STATUS
  ⟨0x900008, 0, 1, 0, 1, 0xff, 0, 0, 0, 0, 0, false⟩,  -- PRS_SLICE_CTL
  ⟨0x90000c, 0, 1, 0, 1, 0xffffffff, 0, 0, 0, 0, 0xffffffff, true⟩,  -- PRS_HASH_SEED
  ⟨0x900010, 0, 1, 0, 1, 0, 0xffffffff, 0, 0, 0, 0, false⟩,  -- PRS_PKT_CNT_LO
  ⟨0x900014, 0, 1, 0, 1, 0, 0xffffffff, 0, 0, 0, 0, false⟩,  -- PRS_PKT_CNT_HI
  ⟨0x900018, 0, 1, 0, 1, 0, 0xffffffff, 0, 0, 0, 0, false⟩,  -- PRS_EXHAUST_CNT
  ⟨0x90001c, 0, 1, 0, 1, 0, 0xffffffff, 0, 0, 0, 0, false⟩,  -- PRS_LIMIT_CNT
  ⟨0x900020, 0, 1, 0, 1, 0, 0xffffffff, 0, 0, 0, 0, false⟩,  -- PRS_DROP_CNT
  ⟨0x900024, 0, 1, 0, 1, 0, 0xffffffff, 0, 0, 0, 0, false⟩,  -- PRS_DISCARD_CNT
  ⟨0x900400, 4, 136, 0, 1, 0x7fff, 0, 0, 0, 0, 0, false⟩,  -- PRS_PORT_START
  ⟨0x901000, 0x10, 256, 0, 1, 0x1ffffdff, 0, 0, 0, 0, 0, false⟩,  -- PRS_STATE_W0
  ⟨0x901004, 0x10, 256, 0, 1, 0xffffffff, 0, 0, 0, 0, 0, false⟩,  -- PRS_STATE_W1
  ⟨0x901008, 0x10, 256, 0, 1, 0x1fffff, 0, 0, 0, 0, 0, false⟩,  -- PRS_STATE_W2
  ⟨0x90100c, 0x10, 256, 0, 1, 0xffff1ff, 0, 0, 0, 0, 0, false⟩,  -- PRS_STATE_W3
  ⟨0x902000, 0x10, 64, 0, 1, 0xffffffff, 0, 0, 0, 0, 0, false⟩,  -- PRS_END_W0
  ⟨0x902004, 0x10, 64, 0, 1, 0x1fffff, 0, 0, 0, 0, 0, false⟩,  -- PRS_END_W1
  ⟨0x902008, 0x10, 64, 0, 1, 0xffff, 0, 0, 0, 0, 0, false⟩,  -- PRS_END_W2
  ⟨0x90200c, 0x10, 64, 0, 1, 0, 0, 0, 0, 0, 0, false⟩,  -- PRS_END_W3
  ⟨0x910000, 0x10, 4096, 0, 1, 0xffffffff, 0, 0, 0, 0, 0, false⟩]  -- PRS_TT_W0

/-- Rows of the PRS block's register tables (R214). -/
def regsPRS1 : List RegDesc := [
  ⟨0x910004, 0x10, 4096, 0, 1, 0xffffffff, 0, 0, 0, 0, 0, false⟩,  -- PRS_TT_W1
  ⟨0x910008, 0x10, 4096, 0, 1, 0xff03ff, 0, 0, 0, 0, 0, false⟩,  -- PRS_TT_W2
  ⟨0x91000c, 0x10, 4096, 0, 1, 0, 0, 0, 0, 0, 0, false⟩]  -- PRS_TT_W3

/-- The PRS block's registers (R214). -/
def regsPRS : List RegDesc := regsPRS0 ++ regsPRS1

/-- Rows of the CLS block's register tables (R287). -/
def regsCLS0 : List RegDesc := [
  ⟨0xa00000, 0, 1, 0, 1, 1, 0, 0, 0, 0, 0, false⟩,  -- CLS_CTL
  ⟨0xa00004, 0, 1, 0, 1, 0, 0x107ff, 0, 0, 0, 0, false⟩,  -- CLS_STATUS
  ⟨0xa00008, 0, 1, 0, 1, 0, 0x7ffff, 0, 0, 0, 0, false⟩,  -- CLS_RULES
  ⟨0xa00100, 4, 256, 0, 1, 0, 0x7ffff7f, 0, 0, 0, 0, false⟩]  -- CLS_SET

/-- The CLS block's registers (R287). -/
def regsCLS : List RegDesc := regsCLS0

/-- Rows of the FWD block's register tables (R286). -/
def regsFWD0 : List RegDesc := [
  ⟨0xb00000, 0, 1, 0, 1, 7, 0, 0, 0, 0, 0, false⟩,  -- FWD_CTL
  ⟨0xb00004, 0, 1, 0, 1, 0, 0x11f00, 1, 0, 0, 0, false⟩,  -- FWD_STATUS
  ⟨0xb00008, 0, 1, 0, 1, 0, 0x3ffff, 0x80000000, 0, 0, 0, false⟩,  -- FWD_ECC_STATUS
  ⟨0xb01000, 0x20, 256, 0, 1, 0xffffcfff, 0, 0, 0, 0, 0, false⟩,  -- FWD_TBL_W0
  ⟨0xb01004, 0x20, 256, 0, 1, 0xffffffff, 0, 0, 0, 0, 0, false⟩,  -- FWD_TBL_W1
  ⟨0xb01008, 0x20, 256, 0, 1, 0x11f, 0, 0, 0, 0, 0, false⟩,  -- FWD_TBL_W2
  ⟨0xb0100c, 0x20, 256, 0, 1, 0xffffffff, 0, 0, 0, 0, 0, false⟩,  -- FWD_TBL_W3
  ⟨0xb01010, 0x20, 256, 0, 1, 0xffffffff, 0, 0, 0, 0, 0, false⟩,  -- FWD_TBL_W4
  ⟨0xb01014, 0x20, 256, 0, 1, 0x7ffff, 0, 0, 0, 0, 0x103e8, false⟩,  -- FWD_TBL_W5
  ⟨0xb01018, 0x20, 256, 0, 1, 0xffffffff, 0, 0, 0, 0, 0, false⟩,  -- FWD_TBL_W6
  ⟨0xb0101c, 0x20, 256, 0, 1, 0xffffffff, 0, 0, 0, 0, 0, false⟩,  -- FWD_TBL_W7
  ⟨0xb03000, 0x20, 256, 0, 1, 0, 0xc7ffffff, 0, 0, 0, 0, false⟩,  -- FWD_TBL_STAT_W0
  ⟨0xb03004, 0x20, 256, 0, 1, 0, 0xffffffff, 0, 0, 0, 0, false⟩,  -- FWD_TBL_STAT_W1
  ⟨0xb03008, 0x20, 256, 0, 1, 0, 0x1f, 0, 0, 0, 0, false⟩,  -- FWD_TBL_STAT_W2
  ⟨0xb0300c, 0x20, 256, 0, 1, 0, 0xffffffff, 0, 0, 0, 0, false⟩,  -- FWD_TBL_STAT_W3
  ⟨0xb03010, 0x20, 256, 0, 1, 0, 0xffffffff, 0, 0, 0, 0, false⟩,  -- FWD_TBL_STAT_W4
  ⟨0xb03014, 0x20, 256, 0, 1, 0, 0xffffffff, 0, 0, 0, 0, false⟩,  -- FWD_TBL_STAT_W5
  ⟨0xb03018, 0x20, 256, 0, 1, 0, 0xffffffff, 0, 0, 0, 0, false⟩,  -- FWD_TBL_STAT_W6
  ⟨0xb0301c, 0x20, 256, 0, 1, 0, 0xffffffff, 0, 0, 0, 0, false⟩]  -- FWD_TBL_STAT_W7

/-- The FWD block's registers (R286). -/
def regsFWD : List RegDesc := regsFWD0

/-- Rows of the VRN block's register tables (R188). -/
def regsVRN0 : List RegDesc := [
  ⟨0xc00000, 0, 1, 0, 1, 0x703, 0, 0, 0, 0, 0x302, true⟩,  -- VRN_CTL
  ⟨0xc00004, 0, 1, 0, 1, 0xffff0000, 0, 0, 0, 0, 0, true⟩,  -- VRN_SHR_BASE_LO
  ⟨0xc00008, 0, 1, 0, 1, 0xffff, 0, 0, 0, 0, 0, true⟩,  -- VRN_SHR_BASE_HI
  ⟨0xc0000c, 0, 1, 0, 1, 0x80007fff, 0, 0, 0, 0, 0, true⟩,  -- VRN_SHR_SIZE
  ⟨0xc00010, 0, 1, 0, 1, 0xffffffff, 0, 0, 0, 0, 0x6c5e93a1, true⟩,  -- VRN_SIG_SEED
  ⟨0xc00014, 0, 1, 0, 1, 0, 0x3fffffff, 0, 0, 0, 0, false⟩,  -- VRN_STATUS
  ⟨0xc00018, 0, 1, 0, 1, 0, 0x9f0fffff, 0, 0, 0, 0, false⟩,  -- VRN_IRREV_STATUS
  ⟨0xc0001c, 0, 1, 0, 1, 0xfff, 0, 0, 0, 0, 0, false⟩,  -- VRN_DOMAIN_SEL
  ⟨0xc00020, 0, 1, 0, 1, 0, 0xffffffff, 0, 0, 0, 0, false⟩,  -- VRN_DOMAIN_HEAD
  ⟨0xc00024, 0, 1, 0, 1, 0, 0xffffffff, 0, 0, 0, 0, false⟩,  -- VRN_DOMAIN_NEXT
  ⟨0xc00028, 0, 1, 0, 1, 0, 0xdfff, 0, 0, 0, 0, false⟩,  -- VRN_DOMAIN_STATUS
  ⟨0xc0002c, 0, 1, 0, 1, 0, 0x11f, 0, 0, 0, 0, false⟩,  -- VRN_CP_STATUS
  ⟨0xc00030, 0, 1, 0, 1, 0, 0xffffffff, 0, 0, 0, 0, false⟩,  -- VRN_COMMIT_CNT_LO
  ⟨0xc00034, 0, 1, 0, 1, 0, 0xffffffff, 0, 0, 0, 0, false⟩,  -- VRN_COMMIT_CNT_HI
  ⟨0xc00038, 0, 1, 0, 1, 0, 0xffffffff, 0, 0, 0, 0, false⟩,  -- VRN_IRREV_CNT_LO
  ⟨0xc0003c, 0, 1, 0, 1, 0, 0xffffffff, 0, 0, 0, 0, false⟩,  -- VRN_IRREV_CNT_HI
  ⟨0xc00040, 4, 16, 0, 1, 0, 0xffffffff, 0, 0, 0, 0, false⟩,  -- VRN_ABORT_CNT
  ⟨0xc00080, 0, 1, 0, 1, 0, 0, 0xffffffff, 0, 0, 0, false⟩]  -- VRN_VOID_CNT

/-- The VRN block's registers (R188). -/
def regsVRN : List RegDesc := regsVRN0

/-- Rows of the PAL block's register tables (R318). -/
def regsPAL0 : List RegDesc := [
  ⟨0xd00000, 0, 1, 0, 1, 0x3f0f01, 0, 0, 0, 0, 0x330000, true⟩,  -- PAL_CTL
  ⟨0xd00004, 0, 1, 0, 1, 0, 0xfffff, 0, 0, 0, 0, false⟩,  -- PAL_STATUS
  ⟨0xd00008, 0, 1, 0, 1, 0, 0x3f070f, 0xc0000000, 0, 0, 0, false⟩,  -- PAL_REJECT_STATUS
  ⟨0xd0000c, 0, 1, 0, 1, 0, 0xffffffff, 0, 0, 0, 0, false⟩,  -- PAL_REJECT_HANDLE
  ⟨0xd00010, 0, 1, 0, 1, 0, 0xffffffff, 0, 0, 0, 0, false⟩,  -- PAL_REJECT_CNT
  ⟨0xd00014, 0, 1, 0, 1, 0, 0xffffffff, 0, 0, 0, 0, false⟩,  -- PAL_REPL_DROP_CNT
  ⟨0xd00100, 0x10, 16, 0, 1, 0xc0001f1f, 0, 0, 0, 0, 0, true⟩,  -- PAL_POOL_W0
  ⟨0xd00104, 0x10, 16, 0, 1, 0xffffff00, 0, 0, 0, 0, 0, true⟩,  -- PAL_POOL_W1
  ⟨0xd00108, 0x10, 16, 0, 1, 0xffff, 0, 0, 0, 0, 0, true⟩,  -- PAL_POOL_W2
  ⟨0xd0010c, 0x10, 16, 0, 1, 0xfffffff, 0, 0, 0, 0, 0, false⟩,  -- PAL_POOL_W3
  ⟨0xd00200, 8, 16, 0, 1, 0, 0xfffffff, 0, 0, 0, 0, false⟩,  -- PAL_POOL_STAT_W0
  ⟨0xd00204, 8, 16, 0, 1, 0, 0xfffffff, 0, 0, 0, 0, false⟩,  -- PAL_POOL_STAT_W1
  ⟨0xd00400, 4, 64, 0, 1, 0xf, 0, 0, 0, 0, 0, false⟩,  -- PAL_OWNER
  ⟨0xd00500, 4, 64, 0, 1, 0, 0xffffffff, 0, 0, 0, 0, false⟩,  -- PAL_OWNER_DROP
  ⟨0xd10000, 0x100, 64, 0x10, 16, 0xfffffff, 0, 0, 0, 0, 0, true⟩,  -- PAL_OWN_W0
  ⟨0xd10004, 0x100, 64, 0x10, 16, 0xfffffff, 0, 0, 0, 0, 0, true⟩,  -- PAL_OWN_W1
  ⟨0xd10008, 0x100, 64, 0x10, 16, 0xfffffff, 0, 0, 0, 0, 0xfffffff, false⟩,  -- PAL_OWN_W2
  ⟨0xd1000c, 0x100, 64, 0x10, 16, 0, 0xffffffff, 0, 0, 0, 0, false⟩]  -- PAL_OWN_W3

/-- The PAL block's registers (R318). -/
def regsPAL : List RegDesc := regsPAL0

/-- Rows of the TMG block's register tables (R354). -/
def regsTMG0 : List RegDesc := [
  ⟨0xe00000, 0, 1, 0, 1, 1, 0, 0, 0, 0, 0, true⟩,  -- TMG_CTL
  ⟨0xe00004, 0, 1, 0, 1, 0xf801ffff, 0, 0, 0, 0, 0, false⟩,  -- TMG_OBJ_SEL
  ⟨0xe00008, 0, 1, 0, 1, 0, 0, 0, 0, 3, 0, false⟩,  -- TMG_OBJ_CMD
  ⟨0xe0000c, 0, 1, 0, 1, 0, 0x8000000f, 0, 0, 0, 0, false⟩,  -- TMG_OBJ_STATUS
  ⟨0xe00010, 4, 8, 0, 1, 0xffffffff, 0, 0, 0, 0, 0, false⟩,  -- TMG_OBJ_DATA
  ⟨0xe00040, 0, 1, 0, 1, 0xc0ffffff, 0, 0, 0, 0, 0, false⟩,  -- TMG_SWATCH_CTL
  ⟨0xe00044, 0, 1, 0, 1, 0xffffffff, 0, 0, 0, 0, 0, false⟩,  -- TMG_SWATCH_RANGE
  ⟨0xe00048, 0, 1, 0, 1, 0xffffffe0, 0, 0, 0, 0, 0, false⟩,  -- TMG_SWATCH_BASE_LO
  ⟨0xe0004c, 0, 1, 0, 1, 0xffff, 0, 0, 0, 0, 0, false⟩,  -- TMG_SWATCH_BASE_HI
  ⟨0xe00050, 0, 1, 0, 1, 0xffffff, 0, 0, 0, 0, 0, false⟩,  -- TMG_SWATCH_SIZE
  ⟨0xe00054, 0, 1, 0, 1, 0, 0xffffffff, 0, 0, 0, 0, false⟩,  -- TMG_SWATCH_WIDX
  ⟨0xe00080, 4, 8, 0, 1, 0, 0xffffffff, 0, 0, 0, 0, false⟩]  -- TMG_DROP_CNT

/-- The TMG block's registers (R354). -/
def regsTMG : List RegDesc := regsTMG0

/-- Rows of the MTR block's register tables (R355). -/
def regsMTR0 : List RegDesc := [
  ⟨0xf00000, 0, 1, 0, 1, 1, 0, 0, 0, 0, 0, true⟩,  -- MTR_CTL
  ⟨0xf00004, 0, 1, 0, 1, 0x801fffff, 0, 0, 0, 0, 0, false⟩,  -- MTR_SEL
  ⟨0xf00008, 0, 1, 0, 1, 0, 0, 0, 0, 3, 0, false⟩,  -- MTR_CMD
  ⟨0xf0000c, 0, 1, 0, 1, 0, 0x8000000f, 0, 0, 0, 0, false⟩,  -- MTR_STATUS
  ⟨0xf00010, 4, 4, 0, 1, 0xffffffff, 0, 0, 0, 0, 0, false⟩]  -- MTR_DATA

/-- The MTR block's registers (R355). -/
def regsMTR : List RegDesc := regsMTR0

/-- Rows of the DRC block's register tables (R457). -/
def regsDRC0 : List RegDesc := [
  ⟨0x1000000, 0, 1, 0, 1, 1, 0, 0, 0, 0, 0, true⟩,  -- DRC_CTL
  ⟨0x1000004, 0, 1, 0, 1, 0, 0xffff0f01, 0, 0, 0, 0, false⟩,  -- DRC_STATUS
  ⟨0x1000008, 0, 1, 0, 1, 0xf, 0, 0, 0, 0, 4, false⟩,  -- DRC_ILV
  ⟨0x100000c, 0, 1, 0, 1, 0xffffff00, 0, 0, 0, 0, 0, false⟩,  -- DRC_MIRROR_DELTA_LO
  ⟨0x1000010, 0, 1, 0, 1, 0xff, 0x80000000, 0, 0, 0, 0, false⟩,  -- DRC_MIRROR_DELTA_HI
  ⟨0x1000014, 0, 1, 0, 1, 0x80ffffff, 0, 0, 0, 0, 0, true⟩,  -- DRC_PAR_BASE
  ⟨0x1000018, 0, 1, 0, 1, 0xfffffff, 0, 0, 0, 0, 0, true⟩,  -- DRC_PAR_STRIPES
  ⟨0x100001c, 0, 1, 0, 1, 0xffffffff, 0, 0, 0, 0, 0xfa01808, false⟩,  -- DRC_SCHED
  ⟨0x1000020, 0, 1, 0, 1, 0xff00ffff, 0, 0, 0, 0, 0x10001008, false⟩,  -- DRC_PANIC
  ⟨0x1000024, 0, 1, 0, 1, 0xffff0002, 0, 0, 0, 1, 0x320000, false⟩,  -- DRC_FREQ_CMD
  ⟨0x1000028, 0, 1, 0, 1, 0, 0xf001ffff, 0x3000000, 0, 0, 0, false⟩,  -- DRC_FREQ_STATUS
  ⟨0x100002c, 0, 1, 0, 1, 0xff, 0, 0, 0, 0, 0, false⟩,  -- DRC_RETIRE
  ⟨0x1000030, 0, 1, 0, 1, 0, 0x80ffffff, 0, 0, 0, 0, false⟩,  -- DRC_REBUILD
  ⟨0x1000034, 0, 1, 0, 1, 0x800fffff, 0, 0, 0, 0, 0x15180, false⟩,  -- DRC_SCRUB
  ⟨0x1000038, 0, 1, 0, 1, 0, 0x30701, 0xc0000000, 0, 0, 0, false⟩,  -- DRC_ERR_STATUS
  ⟨0x100003c, 0, 1, 0, 1, 0, 0xffffffff, 0, 0, 0, 0, false⟩,  -- DRC_ERR_ADDR_LO
  ⟨0x1000040, 0, 1, 0, 1, 0, 0xff, 0, 0, 0, 0, false⟩,  -- DRC_ERR_ADDR_HI
  ⟨0x1000044, 0, 1, 0, 1, 0, 0xffffffff, 0, 0, 0, 0, false⟩,  -- DRC_CE_CNT
  ⟨0x1000048, 0, 1, 0, 1, 0, 0xffffffff, 0, 0, 0, 0, false⟩,  -- DRC_UE_CNT
  ⟨0x1000100, 0x10, 2, 0, 1, 0xffffffff, 0, 0, 0, 0, 0, false⟩]  -- DRC_TSET_W0

/-- Rows of the DRC block's register tables (R457). -/
def regsDRC1 : List RegDesc := [
  ⟨0x1000104, 0x10, 2, 0, 1, 0xffffffff, 0, 0, 0, 0, 0, false⟩,  -- DRC_TSET_W1
  ⟨0x1000108, 0x10, 2, 0, 1, 0xffffffff, 0, 0, 0, 0, 0, false⟩,  -- DRC_TSET_W2
  ⟨0x100010c, 0x10, 2, 0, 1, 0xffffffff, 0, 0, 0, 0, 0, false⟩,  -- DRC_TSET_W3
  ⟨0x1000200, 0x10, 8, 0, 1, 0, 0xf0000fff, 0, 0, 0, 0, false⟩,  -- DRC_CHAN_W0
  ⟨0x1000204, 0x10, 8, 0, 1, 0, 0xffffffff, 0, 0, 0, 0, false⟩,  -- DRC_CHAN_W1
  ⟨0x1000208, 0x10, 8, 0, 1, 0, 0xffffffff, 0, 0, 0, 0, false⟩]  -- DRC_CHAN_W2

/-- The DRC block's registers (R457). -/
def regsDRC : List RegDesc := regsDRC0 ++ regsDRC1

/-- Rows of the TCA block's register tables (R458). -/
def regsTCA0 : List RegDesc := [
  ⟨0x1100000, 0, 1, 0, 1, 1, 0, 0, 0, 0, 0, true⟩,  -- TCA_CTL
  ⟨0x1100004, 0, 1, 0, 1, 0, 0x8007ffff, 0, 0, 0, 0x80000000, false⟩,  -- TCA_STATUS
  ⟨0x1100008, 0, 1, 0, 1, 0xff00, 0, 0, 0, 3, 0, false⟩,  -- TCA_CMD
  ⟨0x110000c, 0, 1, 0, 1, 0xffffffc0, 0, 0, 0, 0, 0, false⟩,  -- TCA_RANGE_BASE_LO
  ⟨0x1100010, 0, 1, 0, 1, 0xff, 0, 0, 0, 0, 0, false⟩,  -- TCA_RANGE_BASE_HI
  ⟨0x1100014, 0, 1, 0, 1, 0xffffffff, 0, 0, 0, 0, 0, false⟩,  -- TCA_RANGE_SIZE
  ⟨0x1100018, 0, 1, 0, 1, 0, 0x8000000f, 0, 0, 0, 0, false⟩,  -- TCA_CMD_STATUS
  ⟨0x1100020, 0, 1, 0, 1, 0, 0xffffffff, 0, 0, 0, 0, false⟩,  -- TCA_HIT_CNT_LO
  ⟨0x1100024, 0, 1, 0, 1, 0, 0xffffffff, 0, 0, 0, 0, false⟩,  -- TCA_HIT_CNT_HI
  ⟨0x1100028, 0, 1, 0, 1, 0, 0xffffffff, 0, 0, 0, 0, false⟩,  -- TCA_MISS_CNT_LO
  ⟨0x110002c, 0, 1, 0, 1, 0, 0xffffffff, 0, 0, 0, 0, false⟩,  -- TCA_MISS_CNT_HI
  ⟨0x1100100, 4, 256, 0, 1, 0xffff, 0, 0, 0, 0, 0, false⟩]  -- TCA_WAYS

/-- The TCA block's registers (R458). -/
def regsTCA : List RegDesc := regsTCA0

/-- Rows of the LKU block's register tables (R371). -/
def regsLKU0 : List RegDesc := [
  ⟨0x1200000, 0, 1, 0, 1, 0x1ffff, 0, 0, 0, 0, 0x64, false⟩,  -- LKU_CTL
  ⟨0x1200004, 0, 1, 0, 1, 0, 0x7ff3fff, 0, 0, 0, 0, false⟩,  -- LKU_STATUS
  ⟨0x1200008, 0, 1, 0, 1, 0, 0xffffffff, 0, 0, 0, 0, false⟩,  -- LKU_TIMEOUT_CNT
  ⟨0x120000c, 0, 1, 0, 1, 0, 0xffffffff, 0, 0, 0, 0, false⟩,  -- LKU_BROKEN_CNT
  ⟨0x1200010, 0, 1, 0, 1, 0, 0xffffffff, 0, 0, 0, 0, false⟩,  -- LKU_BAD_REL_CNT
  ⟨0x1200014, 0, 1, 0, 1, 0, 0xffffffff, 0, 0, 0, 0, false⟩,  -- LKU_CAPT_ADDR_LO
  ⟨0x1200018, 0, 1, 0, 1, 0, 0xffff, 0, 0, 0, 0, false⟩,  -- LKU_CAPT_ADDR_HI
  ⟨0x120001c, 0, 1, 0, 1, 0, 0x3ffff, 0xc0000000, 0, 0, 0, false⟩,  -- LKU_CAPT_STATUS
  ⟨0x1200020, 0, 1, 0, 1, 0xffffffff, 0, 0, 0, 0, 0, false⟩,  -- LKU_PROBE_ADDR_LO
  ⟨0x1200024, 0, 1, 0, 1, 0xffff, 0, 0, 0, 0, 0, false⟩,  -- LKU_PROBE_ADDR_HI
  ⟨0x1200028, 0, 1, 0, 1, 0, 0xc7ffffff, 0, 0, 0, 0, false⟩,  -- LKU_PROBE_STATUS
  ⟨0x1200100, 4, 16, 0, 1, 0x1ffffff, 0, 0, 0, 0, 0x1ffffff, false⟩,  -- LKU_SEM_GROUP
  ⟨0x1200200, 4, 256, 0, 1, 0, 0xc000ffff, 0, 0, 0, 0, false⟩]  -- LKU_SEM_STATE

/-- The LKU block's registers (R371). -/
def regsLKU : List RegDesc := regsLKU0

/-- Rows of the DBG block's register tables (R558). -/
def regsDBG0 : List RegDesc := [
  ⟨0x1400000, 0, 1, 0, 1, 3, 0, 0, 0, 0, 0, false⟩,  -- DBG_CTL
  ⟨0x1400004, 0, 1, 0, 1, 0xc0001f3f, 0, 0, 0, 0, 0, false⟩,  -- DBG_SEL
  ⟨0x1400008, 0, 1, 0, 1, 0, 0, 0, 0, 7, 0, false⟩,  -- DBG_CMD
  ⟨0x140000c, 0, 1, 0, 1, 0, 0xe000000f, 0, 0, 0, 0, false⟩,  -- DBG_STATUS
  ⟨0x1400010, 0, 1, 0, 1, 0x3f, 0, 0, 0, 0, 0, false⟩,  -- DBG_CTX_IDX
  ⟨0x1400014, 0, 1, 0, 1, 0xffffffff, 0, 0, 0, 0, 0, false⟩,  -- DBG_CTX_DATA
  ⟨0x1400100, 8, 4, 0, 1, 0xffffffff, 0, 0, 0, 0, 0, false⟩,  -- DBG_BP_ADDR
  ⟨0x1400104, 8, 4, 0, 1, 0xe00000ff, 0, 0, 0, 0, 0, false⟩,  -- DBG_BP_CTL
  ⟨0x1400140, 0xc, 2, 0, 1, 0xffffffff, 0, 0, 0, 0, 0, false⟩,  -- DBG_WP_ADDR
  ⟨0x1400144, 0xc, 2, 0, 1, 0xffffffff, 0, 0, 0, 0, 0, false⟩,  -- DBG_WP_MASK
  ⟨0x1400148, 0xc, 2, 0, 1, 0xf80000ff, 0, 0, 0, 0, 0, false⟩,  -- DBG_WP_CTL
  ⟨0x1400200, 0, 1, 0, 1, 0x80000f7f, 0, 0, 0, 0, 0, false⟩,  -- DBG_LANE_TEST
  ⟨0x1400204, 0, 1, 0, 1, 0, 0xffffffff, 0, 0, 0, 0, false⟩,  -- DBG_LANE_ERR
  ⟨0x1400300, 0, 1, 0, 1, 0x3ff, 0, 0, 0, 0, 0, false⟩,  -- DBG_PAL_SEL
  ⟨0x1400304, 0, 1, 0, 1, 0, 0xfffffff, 0, 0, 0, 0, false⟩]  -- DBG_PAL_RES

/-- The DBG block's registers (R558). -/
def regsDBG : List RegDesc := regsDBG0

/-- Rows of the CLU block's register tables (R153, R239). -/
def regsCLU0 : List RegDesc := [
  ⟨0x2000000, 0x100000, 24, 0, 1, 0x307, 0, 0, 0, 0, 0x202, false⟩,  -- CLU_EASEL_CTL
  ⟨0x2000004, 0x100000, 24, 0, 1, 0xff, 0, 0, 0, 0, 0, true⟩,  -- CLU_CORE_MODE
  ⟨0x2000008, 0x100000, 24, 0, 1, 0x7fc7f, 0, 0, 0, 0, 0, true⟩,  -- CLU_SAVE_CFG
  ⟨0x200000c, 0x100000, 24, 0, 1, 0x7fc0f, 0, 0, 0, 0, 8, true⟩,  -- CLU_STACK_CFG
  ⟨0x2000010, 0x100000, 24, 0, 1, 0xfffff800, 0, 0, 0, 0, 0, true⟩,  -- CLU_TVB
  ⟨0x2000014, 0x100000, 24, 0, 1, 0x1ff, 0, 0, 0, 0, 0, false⟩,  -- CLU_DWIN
  ⟨0x2000018, 0x100000, 24, 0, 1, 0x3ff, 0, 0, 0, 0, 0x300, false⟩,  -- CLU_FREE_LIMIT
  ⟨0x200001c, 0x100000, 24, 0, 1, 0, 0x1fffffff, 0, 0, 0, 0, false⟩,  -- CLU_MS_STATUS
  ⟨0x2000020, 0x100000, 24, 0, 1, 0, 0xffffffff, 0, 0, 0, 0, false⟩,  -- CLU_DISPATCH_CNT_LO
  ⟨0x2000024, 0x100000, 24, 0, 1, 0, 0xffffffff, 0, 0, 0, 0, false⟩,  -- CLU_DISPATCH_CNT_HI
  ⟨0x2000028, 0x100000, 24, 0, 1, 0, 0xffffffff, 0, 0, 0, 0, false⟩,  -- CLU_PREEMPT_CNT_LO
  ⟨0x200002c, 0x100000, 24, 0, 1, 0, 0xffffffff, 0, 0, 0, 0, false⟩,  -- CLU_PREEMPT_CNT_HI
  ⟨0x2000030, 0x100000, 24, 0, 1, 0, 0, 0xffffffff, 0, 0, 0, false⟩,  -- CLU_LOST_CNT
  ⟨0x2000100, 0x100000, 24, 4, 64, 0, 0xfff77, 0, 0, 0, 0, false⟩,  -- CLU_THREAD_STATE
  ⟨0x2000040, 0x100000, 24, 0, 1, 0x7f, 0, 0, 0, 0, 0x7f, false⟩,  -- CLU_BRUSH_CTL
  ⟨0x2000060, 0x100000, 24, 4, 8, 0, 0xffffffff, 0, 0, 0, 0, false⟩,  -- CLU_BRUSH_REFUSE_CNT
  ⟨0x2000800, 0x100000, 24, 4, 64, 0x81f7fc0f, 0, 0, 0, 0, 0, false⟩,  -- CLU_MSG_CFG
  ⟨0x2000a00, 0x100000, 24, 4, 64, 0, 0xffff01ff, 0, 0, 0, 0, false⟩]  -- CLU_MSG_STATUS

/-- The CLU block's registers (R153, R239). -/
def regsCLU : List RegDesc := regsCLU0

/-- The rows of the block that holds a register-space offset, by R43; none in the gaps of R44. -/
def regsAt (off : Nat) : List RegDesc :=
  match off / 0x100000 with
  | 0 => regsGLB
  | 1 => regsIDN
  | 2 => regsFLT
  | 3 => regsPWR
  | 4 => regsHST
  | 5 => regsMGT
  | 19 => regsATL
  | 6 => regsTIM
  | 7 => regsPRT
  | 8 => regsSTN
  | 9 => regsPRS
  | 10 => regsCLS
  | 11 => regsFWD
  | 12 => regsVRN
  | 13 => regsPAL
  | 14 => regsTMG
  | 15 => regsMTR
  | 16 => regsDRC
  | 17 => regsTCA
  | 18 => regsLKU
  | 20 => regsDBG
  | n => if 0x20 ≤ n ∧ n < 0x38 then regsCLU else []

/-- Whether an offset is one of the registers of a row. -/
def RegDesc.covers (r : RegDesc) (off : Nat) : Bool :=
  if off < r.base ∨ off % 4 ≠ 0 then false
  else
    let x := off - r.base
    let i := if r.s1 = 0 then 0 else min (x / r.s1) (r.n1 - 1)
    let y := x - r.s1 * i
    let j := if r.s2 = 0 then 0 else min (y / r.s2) (r.n2 - 1)
    decide (y = r.s2 * j)

/-- The row of a register-space offset; none where no register lies there (R11, R44). -/
def regDesc (off : Nat) : Option RegDesc := (regsAt off).find? (·.covers off)

/-- Default severities of R540, as (source, severity), for the sources whose default is not 0. -/
def sevDefaults : List (Nat × Nat) :=
  [(0x0, 1), (0x1, 1), (0x2, 3), (0x3, 2), (0x4, 3), (0x5, 2),
   (0x8, 2), (0x9, 3), (0xa, 1), (0xb, 4), (0xc, 4), (0xd, 1),
   (0x10, 1), (0x11, 4), (0x12, 1), (0x13, 5), (0x14, 2),
   (0x18, 1), (0x19, 1), (0x1a, 1), (0x1b, 2), (0x1c, 1), (0x1d, 4),
   (0x20, 2), (0x21, 1), (0x22, 1), (0x23, 1), (0x24, 1), (0x25, 4),
   (0x28, 2), (0x29, 2), (0x2a, 1), (0x2b, 0), (0x2c, 1),
   (0x30, 1), (0x31, 1), (0x32, 1), (0x33, 2), (0x34, 2),
   (0x38, 2), (0x39, 1), (0x3a, 2), (0x3b, 2), (0x3c, 1),
   (0x40, 3), (0x41, 2), (0x42, 1), (0x43, 1),
   (0x48, 1), (0x49, 1), (0x4a, 2), (0x4b, 3),
   (0x50, 0), (0x51, 1), (0x52, 2), (0x53, 3), (0x54, 4), (0x55, 1), (0x56, 1),
   (0x58, 2), (0x59, 1), (0x5a, 1), (0x5b, 0), (0x5c, 3),
   (0x60, 3), (0x61, 3), (0x62, 2), (0x63, 2),
   (0x68, 3), (0x69, 5), (0x6a, 4), (0x6b, 4), (0x6c, 2), (0x6d, 1), (0x6e, 2)]

/-- The value a register holds at reset (R14); FLT_SEV holds the default severities of R540, and an
MSI-X vector is masked at reset (PRESUMED: the PCI Express default, log entry 11). -/
def regReset (off : Nat) : Word :=
  if 0x200400 ≤ off ∧ off < 0x200800 then
    wd ((sevDefaults.lookup ((off - 0x200400) / 4)).getD 0)
  else if 0x480000 ≤ off ∧ off < 0x481000 ∧ off % 16 = 12 then 1
  else
    match regDesc off with
    | some r => wd r.reset
    | none => 0

end Sys2Proof.Machine
end

