-- ==== Sys2Proof/Machine/Dev.lean ====
section
/-!
DEFINITION. The whole block's state apart from the clock, the fused identity and the queue of waiting commands.
-/

namespace Sys2Proof.Machine

/-- The device state. -/
structure Dev where
  regs : Tab Word
  hold : Tab (Option Word)
  mem : Tab Byte
  krv : Krv
  esl : Esl
  brs : Brs
  vrn : Vrn
  prs : Prs
  pal : Pal
  lku : Lku
  mtr : Mtr
  tmg : Tmg
  hst : Hst
  pwr : Pwr
  flt : Flt
  drc : Drc
  tca : Tca
  fwd : Fwd
  stn : Stn
  prt : Prt
  prf : Prf
  mgt : Mgt
  dbg : Dbg
  pins : Pins
  free : Nat
  resp : List Byte
  deriving DecidableEq, Repr

/-- Time (R82, R412): IEEE 1588 seconds, nanoseconds and the fraction with its hidden 16 bits; the nanosecond counter;
and whether the nanoseconds have passed to 0, or a set or step crossed a second, since TIME_PPS_OUT last rose (R417). -/
structure Clock where
  sec : Nat
  nsec : Nat
  frac : Nat
  count : Nat
  edge : Bool
  deriving DecidableEq, Repr

end Sys2Proof.Machine
end

