-- ==== Sys2Proof/Machine/Base.lean ====
section
/-!
DEFINITION. The named operations over registers, memory, threads, transactions and the fault inbox, on which every
other operation of the model is built.
-/

namespace Sys2Proof.Machine

/-! The TAP (R556). -/

/-- Whether the TAP lets the RING_HOLD pins follow the toggler (R556). -/
def Dev.tapFree (d : Dev) : Bool := match d.dbg.tap with
  | .extest | .clamp | .highz => false
  | _ => true

/-- What the TAP makes of an output pin (R556): its cell of the boundary register under EXTEST and CLAMP, not driven under
HIGHZ, none of its doing otherwise. -/
inductive TapPin where
  | free
  | driven (level : Bool)
  | highZ
  deriving DecidableEq, Repr

def Dev.tapPin (d : Dev) (cell : Nat) : TapPin := match d.dbg.tap with
  | .extest | .clamp => .driven (d.dbg.boundary.getLsbD cell)
  | .highz => .highZ
  | _ => .free

/-! Fault sources (R540). -/
namespace Src
def regUnmapped : Nat := 0x00
def portRxOverflow : Nat := 0x01
def profileInvalid : Nat := 0x02
def portProfileMismatch : Nat := 0x03
def dramProfileMismatch : Nat := 0x04
def cfgConflict : Nat := 0x05
def coreDoubleTrap : Nat := 0x08
def atlDoubleTrap : Nat := 0x09
def cluSramEcc : Nat := 0x0A
def cluErrLimit : Nat := 0x0B
def cluBistFail : Nat := 0x0C
def msgOverflow : Nat := 0x0D
def vrnVoid : Nat := 0x10
def vrnIrrevError : Nat := 0x11
def vrnCbufEcc : Nat := 0x12
def vrnCbufLost : Nat := 0x13
def vrnHoldStall : Nat := 0x14
def prsRecircLimit : Nat := 0x18
def prsWinoffRange : Nat := 0x19
def canvasEditReject : Nat := 0x1A
def canvasBounds : Nat := 0x1B
def prsSliceErr : Nat := 0x1C
def prsSliceLimit : Nat := 0x1D
def fwdTblEcc : Nat := 0x20
def fwdLearnDrop : Nat := 0x21
def fwdLearnFail : Nat := 0x22
def fwdSweepLate : Nat := 0x23
def fwdEngErr : Nat := 0x24
def fwdEngLimit : Nat := 0x25
def palBadFree : Nat := 0x28
def palLinkEcc : Nat := 0x29
def palDataEcc : Nat := 0x2A
def palOwnerDrop : Nat := 0x2B
def palReplDrop : Nat := 0x2C
def tmNofit : Nat := 0x30
def tmSwatchLate : Nat := 0x31
def tmCfgEcc : Nat := 0x32
def tmLinkEcc : Nat := 0x33
def mtrEcc : Nat := 0x34
def lkuWaitTimeout : Nat := 0x38
def lkuBroken : Nat := 0x39
def lkuBadRelease : Nat := 0x3A
def lkuSemDenied : Nat := 0x3B
def lkuTableEcc : Nat := 0x3C
def stnEngHalt : Nat := 0x40
def stnParam : Nat := 0x41
def stnRxOverrun : Nat := 0x42
def stnTxUnderrun : Nat := 0x43
def portLinkDown : Nat := 0x48
def prtTsLost : Nat := 0x49
def ringHoldStop : Nat := 0x4A
def timRefLoss : Nat := 0x4B
def drcCe : Nat := 0x50
def drcRecovered : Nat := 0x51
def drcUe : Nat := 0x52
def drcTrainFail : Nat := 0x53
def drcChanFail : Nat := 0x54
def drcFreqForced : Nat := 0x55
def tcaEcc : Nat := 0x56
def hstRingError : Nat := 0x58
def hstDmaError : Nat := 0x59
def hstPuntDiscard : Nat := 0x5A
def hstEvtLost : Nat := 0x5B
def hstLinkDown : Nat := 0x5C
def bootImageInvalid : Nat := 0x60
def bootSource : Nat := 0x61
def pwrfail : Nat := 0x62
def fixIncomplete : Nat := 0x63
def gzPhaseFault : Nat := 0x68
def gzVcoreOor : Nat := 0x69
def gzLdoFault : Nat := 0x6A
def gzNominalErr : Nat := 0x6B
def gzSpecLimit : Nat := 0x6C
def gzErrBurst : Nat := 0x6D
def gzThrottle : Nat := 0x6E
end Src

/-! Registers: raw access to the value a register holds. -/

/-- The value a register holds; its reset value where nothing has been written (R14). -/
def Dev.reg (d : Dev) (off : Nat) : Word := Tab.get regReset d.regs off

/-- The device with a register holding v. -/
def Dev.setReg (d : Dev) (off : Nat) (v : Word) : Dev := { d with regs := Tab.set regReset d.regs off v }

/-- Field [hi:lo] of a register. -/
def Dev.rf (d : Dev) (off hi lo : Nat) : Nat := fld (d.reg off) hi lo

/-- Bit i of a register. -/
def Dev.rb (d : Dev) (off i : Nat) : Bool := bit (d.reg off) i

/-- A register's field [hi:lo] set to v. -/
def Dev.setRf (d : Dev) (off hi lo v : Nat) : Dev := d.setReg off (setFld (d.reg off) hi lo v)

/-- A register's bit set. -/
def Dev.setRb (d : Dev) (off i : Nat) (b : Bool) : Dev := d.setRf off i i (b2n b)

/-- A 32-bit count that wraps, n added. -/
def Dev.bump (d : Dev) (off n : Nat) : Dev := d.setReg off (wd ((d.reg off).toNat + n))

/-- A 64-bit count in two registers, n added (R12). -/
def Dev.bump64 (d : Dev) (off n : Nat) : Dev :=
  let v := (d.reg off).toNat + 2 ^ 32 * (d.reg (off + 4)).toNat + n
  (d.setReg off (wd v)).setReg (off + 4) (wd (v / 2 ^ 32))

/-- A count of a given width that saturates, n added. -/
def Dev.bumpSat (d : Dev) (off width n : Nat) : Dev :=
  d.setReg off (wd (min ((d.reg off).toNat + n) (2 ^ width - 1)))

/-- GLB_RUN_STATE.stage (R45). -/
def Dev.stage (d : Dev) : Nat := d.rf Reg.GLB_RUN_STATE 3 0

/-- Whether the device is forwarding: registers marked so refuse writes (R48). -/
def Dev.forwarding (d : Dev) : Bool := decide (3 ≤ d.stage)

/-! Faults. -/

/-- A unit reports a fault source with its detail (R541); the report waits for the collector (R543). -/
def Dev.raise (d : Dev) (src : Nat) (detail : Nat) : Dev :=
  { d with flt := { d.flt with inbox := d.flt.inbox ++ [⟨src, wd detail, false⟩] } }

/-- A report raised only if a condition holds. -/
def Dev.raiseIf (d : Dev) (c : Bool) (src detail : Nat) : Dev := if c then d.raise src detail else d

/-- A requester as GLB_UNMAP_ADDR_HI codes it (R45). -/
def reqCode : Req → Nat
  | .host => 0
  | .atl _ => 2
  | .gmp => 4

/-- A register write that is refused (R48): ignored, with REG_UNMAPPED recorded (R580). -/
def Dev.refuse (d : Dev) (r : Req) (off : Nat) : Dev :=
  d.raise Src.regUnmapped (2 ^ 31 + reqCode r * 2 ^ 28 + off)

/-- A register write that contradicts the profile (R67): ignored, with CFG_CONFLICT recorded (R580). -/
def Dev.conflict (d : Dev) (r : Req) (off : Nat) : Dev :=
  d.raise Src.cfgConflict (2 ^ 31 + reqCode r * 2 ^ 28 + off)

/-! The DRAM map (R429, R443, R444). -/

/-- The interleave grain g (R429): as the bring-up that fixed the map found it. -/
def Dev.grain (d : Dev) : Nat := 2 ^ (8 + if d.drc.map = [] then d.rf Reg.DRC_ILV 3 0 else d.drc.ilv)
/-- The number k of interleaved channels (R429). -/
def Dev.dramK (d : Dev) : Nat := d.drc.chans.length
/-- Cmin of R429: the smallest capacity of an interleaved channel. -/
def Dev.dramCmin (d : Dev) : Nat := match d.drc.chans with
  | [] => 0
  | c :: r => r.foldl (fun m e => min m e.2) c.2
/-- The fitted capacity of R39 in bytes: the sum of the capacities of the channels that bring-up left usable (R428). -/
def Dev.fittedDram (d : Dev) : Nat := d.drc.chans.foldl (fun n e => n + e.2) 0

/-- The base of the parity window (R444). -/
def Dev.parBase (d : Dev) : Nat := d.rf Reg.DRC_PAR_BASE 23 0 * 2 ^ 16
/-- Stripes × grain: an eighth of the parity window (R444). -/
def Dev.parWg (d : Dev) : Nat := d.rf Reg.DRC_PAR_STRIPES 27 0 * d.grain
/-- Whether an address is a data address of the parity window (R444). -/
def Dev.inParity (d : Dev) (a : Nat) : Bool :=
  d.rb Reg.DRC_PAR_BASE 31 && decide (d.parBase ≤ a ∧ a < d.parBase + 7 * d.parWg)
/-- Whether an address lies in the unmapped eighth of the parity window (R444). -/
def Dev.parityHole (d : Dev) (a : Nat) : Bool :=
  d.rb Reg.DRC_PAR_BASE 31 && decide (d.parBase + 7 * d.parWg ≤ a ∧ a < d.parBase + 8 * d.parWg)

/-- The channel and local address of the tail beyond the interleaved part, channel after channel (R429). -/
def tailLoc (cmin : Nat) : List (Nat × Nat) → Nat → Nat × Nat
  | [], o => (0, o)
  | (c, cap) :: r, o => if o < cap - cmin then (c, cmin + o) else tailLoc cmin r (o - (cap - cmin))

/-- The stripe of an address of the parity window (R444). An address of its unmapped eighth stands for the parity of a
stripe, stripe after stripe (log entry 136). -/
def Dev.stripe (d : Dev) (a : Nat) : Nat :=
  if d.parityHole a then (a - (d.parBase + 7 * d.parWg)) / d.grain else (a - d.parBase) / d.grain / 7

/-- The eight units of a stripe at an address's offset within its unit (R444): the seven data units and the parity. -/
def Dev.stripeUnits (d : Dev) (a : Nat) : List Nat :=
  let s := d.stripe a
  (List.range 7).map (fun q => d.parBase + (7 * s + q) * d.grain + a % d.grain)
    ++ [d.parBase + 7 * d.parWg + s * d.grain + a % d.grain]

/-- The channel and channel-local address of a DRAM address (R429, R444), or of the parity of a stripe. -/
def Dev.dramLoc (d : Dev) (a : Nat) : Nat × Nat :=
  let g := d.grain
  let k := max d.dramK 1
  if d.inParity a then
    let s := d.stripe a
    let q := (a - d.parBase) / g % 7
    (if q < 7 - s % 8 then q else q + 1, d.parBase / 8 + s * g + a % g)
  else if d.parityHole a then (7 - d.stripe a % 8, d.parBase / 8 + d.stripe a * g + a % g)
  else if a < k * d.dramCmin then ((d.drc.chans.getD (a / g % k) (0, 0)).1, a / g / k * g + a % g)
  else tailLoc d.dramCmin d.drc.chans (a - k * d.dramCmin)

/-- The distance from a mirrored byte to its copy (R443). -/
def Dev.mirrorDelta (d : Dev) : Nat :=
  d.rf Reg.DRC_MIRROR_DELTA_LO 31 8 * 2 ^ 8 + d.rf Reg.DRC_MIRROR_DELTA_HI 7 0 * 2 ^ 32
/-- Whether a DRAM address lies in a mirrored region (R443). -/
def Dev.mirrored (d : Dev) (a : Nat) : Bool := d.drc.mirrors.any (fun m => decide (m.1 ≤ a ∧ a < m.1 + m.2))
/-- Whether a channel is retired (R446). -/
def Dev.retired (d : Dev) (c : Nat) : Bool := d.rb Reg.DRC_STATUS (16 + c)

/-- Whether a channel holds valid copies and units: not retired, and rebuilt since its return (R446, R447). -/
def Dev.chanGood (d : Dev) (c : Nat) : Bool := !d.retired c && decide (tget 0 d.drc.ret c ≠ 3)

/-- Whether a DRAM address holds the copy of a mirrored byte (R443). -/
def Dev.mirrorCopy (d : Dev) (a : Nat) : Bool := decide (d.mirrorDelta ≤ a) && d.mirrored (a - d.mirrorDelta)

/-- Whether any of n bytes has check bits that are uncorrectable (R432). -/
def Dev.badWords (d : Dev) (a n : Nat) : Bool :=
  !d.drc.poison.isEmpty && d.drc.poison.any (fun e => decide (a < 4 * e.1 + 4 ∧ 4 * e.1 < a + n))

/-- Whether the burst of an address is sound: its channel is good and no word of it is bad (R432, R446). -/
def Dev.burstSound (d : Dev) (a : Nat) : Bool := d.chanGood (d.dramLoc a).1 && !d.badWords (a / 64 * 64) 64

/-- Whether the data at a DRAM address survive without its own burst: in the copy, or in the other seven units of its
stripe (R443, R445, R446). -/
def Dev.recoverable (d : Dev) (a : Nat) : Bool :=
  (d.mirrored a && d.burstSound (a + d.mirrorDelta)) || (d.mirrorCopy a && d.burstSound (a - d.mirrorDelta))
    || ((d.inParity a || d.parityHole a) && (d.stripeUnits a).all (fun b => decide (b = a) || d.burstSound b))

/-- Whether an address lies on a retired channel and cannot be recovered (R446). -/
def Dev.lost (d : Dev) (a : Nat) : Bool :=
  decide (a < d.fittedDram) && d.retired (d.dramLoc a).1 && !d.recoverable a

/-- Whether any of n bytes reads poisoned (R432, R446). -/
def Dev.poisoned (d : Dev) (a n : Nat) : Bool :=
  d.badWords a n
    || (decide (d.rf Reg.DRC_STATUS 23 16 ≠ 0) && (List.range (n / 64 + 2)).any (fun i => d.lost (min (a + 64 * i) (a + n - 1))))

/-- The first DRAM error is captured in DRC_ERR_STATUS; a further one sets overflow (R432, R457). -/
def Dev.dramCapture (d : Dev) (kind a : Nat) : Dev :=
  if d.rb Reg.DRC_ERR_STATUS 31 then d.setRb Reg.DRC_ERR_STATUS 30 true
  else
    let l := d.dramLoc a
    ((d.setReg Reg.DRC_ERR_STATUS (wd (2 ^ 31 + b2n (d.rb Reg.DRC_ERR_STATUS 30) * 2 ^ 30 + kind * 2 ^ 16 + l.1 * 2 ^ 8
      + l.2 / 64 % 2))).setReg Reg.DRC_ERR_ADDR_LO (wd a)).setReg Reg.DRC_ERR_ADDR_HI (wd (a / 2 ^ 32 % 256))

/-- The pieces of n bytes from an address that lie in one 64-byte burst each. -/
def bursts (a n : Nat) : List (Nat × Nat) :=
  ((List.range (n / 64 + 2)).map (fun i => (max a (a / 64 * 64 + 64 * i), min (a + n) (a / 64 * 64 + 64 * i + 64)))).filterMap
    (fun e => if e.1 < e.2 then some (e.1, e.2 - e.1) else none)

/-- Whether any of n bytes reads poisoned and is not recovered (R432, R446). -/
def Dev.dead (d : Dev) (a n : Nat) : Bool :=
  d.poisoned a n && (bursts a n).any (fun b => d.poisoned b.1 b.2 && !d.recoverable b.1)

/-- A poisoned read is counted, recorded and captured (R432). Its channel is noted for the count of R459. -/
def Dev.dramPoison (d : Dev) (kind a : Nat) : Dev :=
  let c := (d.dramLoc a).1
  let d := (((d.bump Reg.DRC_UE_CNT 1).bump (Reg.DRC_CHAN_W2 c) 1).dramCapture kind a).raise Src.drcUe c
  { d with drc := { d.drc with ueNew := d.drc.ueNew ++ [c] } }

/-- A burst is recovered from its copy or its stripe, written back and recorded (R432). -/
def Dev.dramRecover (d : Dev) (a : Nat) : Dev :=
  let base := a / 64 * 64
  let c := (d.dramLoc a).1
  let clear := fun (w : Nat) => decide (base ≤ 4 * w ∧ 4 * w < base + 64)
  ({ d with drc := { d.drc with poison := tdrop clear d.drc.poison } }.bump (Reg.DRC_CHAN_W2 c) 1).raise Src.drcRecovered c

/-- What a read of n bytes that is served within a step leaves (R432): each burst of it in DRAM that reads poisoned is
recovered, or counted, recorded and captured. -/
def Dev.seeDram (d : Dev) (a n : Nat) : Dev :=
  if d.fittedDram ≤ a ∨ !d.poisoned a n then d
  else (bursts a n).foldl (fun d b =>
    if !d.poisoned b.1 b.2 then d else if d.recoverable b.1 then d.dramRecover b.1 else d.dramPoison 0 (b.1 / 64 * 64)) d

/-! Memory: one byte-addressed internal space (R39). -/

/-- One byte of internal memory. A byte nothing has written reads 0 (log entry 10). -/
def Dev.memGet (d : Dev) (a : Nat) : Byte := tget 0 d.mem a

/-- Internal memory with one byte written. -/
def Dev.memSet (d : Dev) (a : Nat) (b : Byte) : Dev := { d with mem := tset 0 d.mem a b }

/-- A table of bytes with a run of bytes written from a key. -/
def putBytes : Tab Byte → Nat → List Byte → Tab Byte
  | m, _, [] => m
  | m, a, b :: bs => putBytes (tset 0 m a b) (a + 1) bs

/-- n bytes of internal memory from an address. -/
def Dev.memRead (d : Dev) (a n : Nat) : List Byte := (List.range n).map (fun i => d.memGet (a + i))

/-- A write of bytes into DRAM while something is mirrored, retired or poisoned (R432, R443, R446): bytes on a retired
channel that cannot be recovered are discarded, the copy of a mirrored byte is written too, and a word written whole is
no longer poisoned. -/
def Dev.dramWrite (d : Dev) (a : Nat) (bs : List Byte) : Dev :=
  let dead := fun (i : Nat) => d.lost (a + i)
  let mem := (List.range bs.length).foldl
    (fun m i => if dead i then m else
      let m := tset 0 m (a + i) (byteAt bs i)
      if d.mirrored (a + i) then tset 0 m (a + i + d.mirrorDelta) (byteAt bs i) else m) d.mem
  let whole := fun (w : Nat) => decide (a ≤ 4 * w ∧ 4 * w + 4 ≤ a + bs.length)
  let d' := { d with mem := mem, drc := { d.drc with poison := tdrop whole d.drc.poison } }
  match (List.range bs.length).find? dead with
  | some i => (d'.dramCapture 2 (a + i)).raise Src.drcUe (d.dramLoc (a + i)).1
  | none => d'

/-- Internal memory with a run of bytes written. -/
def Dev.memWrite (d : Dev) (a : Nat) (bs : List Byte) : Dev :=
  if d.drc.poison.isEmpty && d.drc.mirrors.isEmpty && decide (d.rf Reg.DRC_STATUS 23 16 = 0) then
    { d with mem := putBytes d.mem a bs }
  else d.dramWrite a bs

/-- The runs of consecutive keys of a table of bytes, the last run first. -/
def byteRuns : Tab (Option Byte) → List (Nat × List Byte) → List (Nat × List Byte)
  | [], rs => rs
  | (_, none) :: m, rs => byteRuns m rs
  | (k, some b) :: m, (o, bs) :: rs =>
    if o + bs.length = k then byteRuns m ((o, bs ++ [b]) :: rs) else byteRuns m ((k, [b]) :: (o, bs) :: rs)
  | (k, some b) :: m, [] => byteRuns m [(k, [b])]

/-- Internal memory with the bytes of a sparse table written from a base. -/
def Dev.memMask (d : Dev) (base : Nat) (m : Tab (Option Byte)) : Dev :=
  (byteRuns m []).foldr (fun r d => d.memWrite (base + r.1) r.2) d

/-- A little-endian value of n bytes of internal memory (R8). -/
def Dev.memLe (d : Dev) (a n : Nat) : Nat := leVal (d.memRead a n)

/-- Internal memory with a little-endian value of n bytes written (R8). -/
def Dev.memPut (d : Dev) (a n v : Nat) : Dev := d.memWrite a (leBytes n v)

/-- Bases of the internal map (R39). -/
def pmBase : Nat := 0x010000000000
def lookupBase : Nat := 0x010100000000
def cluBase (c : Nat) : Nat := 0x010200000000 + c * 0x100000
def atlSramBase : Nat := 0x010300000000
def regSpaceBase : Nat := 0x010400000000
def semBase : Nat := 0x010500000000
def primerBase : Nat := 0x010600000000

/-- SRAM rows in error lose the words that a write of n bytes at an internal address covers; a row whose words have all
been rewritten is sound again (R288). -/
def Dev.rewriteRows (d : Dev) (a n : Nat) : Dev :=
  if d.fwd.badRows.isEmpty ∨ a < lookupBase ∨ lookupBase + 0x3000000 ≤ a then d
  else
    let f := fun (t : Tab Nat) (w : Nat) =>
      let m := tget 0 t (w / 64)
      tset 0 t (w / 64) (if m.testBit (w % 64) then m - 2 ^ (w % 64) else m)
    { d with fwd := { d.fwd with
      badRows := ((List.range (n / 4)).map (fun i => (a - lookupBase) / 4 + i)).foldl f d.fwd.badRows } }

/-- The regions of the internal map (R39). -/
inductive Region where
  | dram
  | packet
  | lookup
  | cluster (c : Nat)
  | atlSram
  | regs
  | sem
  | primer
  | unmapped
  deriving DecidableEq, Repr

/-- The region that holds an internal address (R39, R40). -/
def Dev.region (d : Dev) (a : Nat) : Region :=
  if a < d.fittedDram then (if d.parityHole a then .unmapped else .dram)
  else if pmBase ≤ a ∧ a < pmBase + 0x6000000 then .packet
  else if lookupBase ≤ a ∧ a < lookupBase + 0x3000000 then .lookup
  else if cluBase 0 ≤ a ∧ a < cluBase 24 then
    if (a - cluBase 0) % 0x100000 < 0x80000 then .cluster ((a - cluBase 0) / 0x100000) else .unmapped
  else if atlSramBase ≤ a ∧ a < atlSramBase + 0x400000 then .atlSram
  else if regSpaceBase ≤ a ∧ a < regSpaceBase + 0x4000000 then .regs
  else if semBase ≤ a ∧ a < semBase + 0x10000 then .sem
  else if primerBase ≤ a ∧ a < primerBase + 0x40000 then .primer
  else .unmapped

/-- The first unmapped access is captured; further ones set overflow while valid is set (R40, R45). -/
def Dev.captureUnmapped (d : Dev) (requester addr : Nat) : Dev :=
  if d.rb Reg.GLB_UNMAP_STATUS 0 then d.setRb Reg.GLB_UNMAP_STATUS 1 true
  else
    ((d.setReg Reg.GLB_UNMAP_ADDR_LO (wd addr)).setReg Reg.GLB_UNMAP_ADDR_HI
      (wd (addr / 2 ^ 32 % 2 ^ 16 + requester * 2 ^ 16))).setRb Reg.GLB_UNMAP_STATUS 0 true

/-- The first unmapped byte of an access of n bytes to internal memory is captured, if one of them is unmapped (R40). -/
def Dev.captureIn (d : Dev) (requester a n : Nat) : Dev :=
  match (List.range n).find? (fun i => decide (d.region (a + i) = .unmapped)) with
  | some i => d.captureUnmapped requester (a + i)
  | none => d

/-! Threads. -/

/-- A thread's state. Cluster c, core k, thread t is number 64c + 8k + t; Atelier core k is 1536 + k. -/
def Dev.thr (d : Dev) (t : Nat) : Thread := tget Thread.reset d.krv.threads t

/-- The device with a thread's state replaced. -/
def Dev.setThr (d : Dev) (t : Nat) (th : Thread) : Dev :=
  { d with krv := { d.krv with threads := tset Thread.reset d.krv.threads t th } }

/-- A thread's state changed by a function. -/
def Dev.updThr (d : Dev) (t : Nat) (f : Thread → Thread) : Dev := d.setThr t (f (d.thr t))

/-- Whether a thread number is an Atelier core's (R118). -/
def isAtl (t : Nat) : Bool := decide (1536 ≤ t)
/-- The cluster of a cluster thread. -/
def clusterOf (t : Nat) : Nat := t / 64
/-- The core number of a thread: 8c + k in the clusters, 192 + k on the Atelier. -/
def coreOf (t : Nat) : Nat := if isAtl t then 192 + (t - 1536) else t / 8
/-- The core of a thread within its cluster. -/
def coreIn (t : Nat) : Nat := t / 8 % 8
/-- The number of a thread within its core. -/
def thIdx (t : Nat) : Nat := t % 8

/-- Whether a core of a cluster is in master mode (R124). -/
def Dev.masterCore (d : Dev) (t : Nat) : Bool := !isAtl t && d.rb (Reg.CLU_CORE_MODE (clusterOf t)) (coreIn t)

/-- Whether a thread is master-managed (R124). -/
def Dev.masterManaged (d : Dev) (t : Nat) : Bool := d.masterCore t && decide (thIdx t ≠ 0)

/-- A general register; g0 reads as 0 (R81). -/
def Thread.g (th : Thread) (r : Nat) : Word := if r = 0 then 0 else tget 0 th.gpr r

/-- A thread with a general register written; writes to g0 are discarded (R81). -/
def Thread.setG (th : Thread) (r : Nat) (v : Word) : Thread :=
  if r = 0 then th else { th with gpr := tset 0 th.gpr r v }

/-- Whether a thread's task carries a transaction. -/
def Thread.hasTxn (th : Thread) : Bool := match th.task with
  | some k => k.hasTxn
  | none => false

/-- tcmp: bits [31:0] of the wait deadline (R82). -/
def Thread.tcmp (th : Thread) : Word := BitVec.ofNat 32 th.deadline.toNat

/-- Whether a trap handler runs: estat.intrap (R82). -/
def Thread.intrap (th : Thread) : Bool := bit th.estat 0

/-- Whether an Atelier core is in supervisor mode: sstatus.s (R119). -/
def Thread.super (th : Thread) : Bool := bit th.sstatus 0

/-- A thread past the word it has executed: the next iteration of a repeat (R99), else what follows a delay slot, else
the next word. `eret` takes effect here, after its delay slot (R114); on the Atelier it restores s and ie (R119). -/
def Thread.advance (th : Thread) (atl : Bool) : Thread :=
  if 1 < th.repLeft.toNat then { th with repLeft := th.repLeft - 1 }
  else if th.repLeft.toNat = 1 then { th with repLeft := 0, repAddr := 0, pc := th.pc + 4 }
  else match th.slot with
    | .none => { th with pc := th.pc + 4 }
    | .branch dest => { th with pc := dest, slot := .none }
    | .eret =>
      let th := { th with
        sstatus := if atl then setBit (setBit th.sstatus 0 (bit th.estat 3)) 1 (bit th.sstatus 3) else th.sstatus
        estat := setBit th.estat 0 false }
      if bit th.estat 1 then { th with pc := th.epc, slot := .branch th.ebta }
      else if bit th.estat 2 && decide (th.rcnt.toNat = 0) then { th with pc := th.epc + 4, slot := .none }
      else if bit th.estat 2 then { th with pc := th.epc, slot := .none, repLeft := th.rcnt, repAddr := th.epc }
      else { th with pc := th.epc, slot := .none }

/-- The slot key of the transaction a thread carries: 256 × cluster + slot. -/
def txnKey (t : Nat) (th : Thread) : Option Nat := match th.task with
  | some k => if k.hasTxn then some (256 * clusterOf t + k.txn) else none
  | none => none

/-! Transactions and tokens. -/

/-- A transaction slot, numbered 256c + s. -/
def Dev.txn (d : Dev) (k : Nat) : Txn := tget Txn.reset d.vrn.txns k

/-- The device with a transaction slot replaced. -/
def Dev.setTxn (d : Dev) (k : Nat) (x : Txn) : Dev :=
  { d with vrn := { d.vrn with txns := tset Txn.reset d.vrn.txns k x } }

/-- A transaction slot changed by a function. -/
def Dev.updTxn (d : Dev) (k : Nat) (f : Txn → Txn) : Dev := d.setTxn k (f (d.txn k))

/-- Whether a transaction can still abort: it is in flight before its commit point, and not being aborted (R154). -/
def Txn.alive (x : Txn) : Bool := match x.phase with
  | .active | .ending | .commitWait => true
  | _ => false

/-- An ordering domain. -/
def Dev.dom (d : Dev) (n : Nat) : Dom := tget ⟨0, []⟩ d.vrn.doms n

/-- The device with a domain replaced. -/
def Dev.setDom (d : Dev) (n : Nat) (x : Dom) : Dev :=
  { d with vrn := { d.vrn with doms := tset ⟨0, []⟩ d.vrn.doms n x } }

/-- A domain's head: the oldest ticket neither committed nor voided; next when nothing is in flight (R160, R188). -/
def Dom.head (x : Dom) : Nat := x.flight.headD x.next

/-- An entry of a cluster's token table, numbered 2560c + i. -/
def Dev.tok (d : Dev) (k : Nat) : Tok := tget Tok.reset d.esl.toks k

/-- The device with a token replaced. -/
def Dev.setTok (d : Dev) (k : Nat) (x : Tok) : Dev :=
  { d with esl := { d.esl with toks := tset Tok.reset d.esl.toks k x } }

/-- A token's number from its 16 bits (R128): its entry in the cluster's table. -/
def tokKey (c token : Nat) : Nat := 2560 * c + token % 4096

/-- Ends the live tokens of a transaction slot (R129, R169). -/
def Dev.endTxnToks (d : Dev) (key : Nat) : Dev :=
  (List.range 8).foldl
    (fun d i =>
      let k := 2560 * (key / 256) + 8 * (key % 256) + i
      let x := d.tok k
      d.setTok k { x with live := false, done := none, named := false }) d

/-- Ends the tokens of a task without a transaction: an arrived completion is discarded, an outstanding one stays live
until it arrives; a token a stored record names is left (R129). -/
def Dev.endTaskToks (d : Dev) (c tid : Nat) : Dev :=
  let f : Nat → Tok → Tok := fun k x =>
    if k / 2560 = c ∧ 2048 ≤ k % 2560 ∧ x.live ∧ x.tid = tid ∧ ¬ x.named then
      if x.done.isSome then { x with live := false, done := none, ended := false } else { x with ended := true }
    else x
  { d with esl := { d.esl with toks := tmap Tok.reset f d.esl.toks } }

/-- A fresh order number (ready times and start order, R134, R140). -/
def Dev.nextSeq (d : Dev) : Nat × Dev := (d.esl.seq + 1, { d with esl := { d.esl with seq := d.esl.seq + 1 } })

/-! Free values. -/

/-- A fresh free choice below n, and the device with the counter advanced (log entry 2). -/
def Dev.pick (d : Dev) (n : Nat) : Nat × Dev :=
  (Config.freePick d.free % max n 1, { d with free := d.free + 1 })

/-- Whether a counted cause raises the transaction's counted aborts (R168). -/
def countedCause (cause : Nat) : Bool := decide (cause ∈ [1, 2, 3, 4, 5, 9])

/-- An abort of a transaction (R168, R169): its write set, signature, discard mark and live tokens end, VRN_ABORT_CNT
counts it, and the abort leaves for the Easel. A transaction not in flight is left alone. -/
def Dev.abortTxn (d : Dev) (key cause : Nat) : Dev :=
  let x := d.txn key
  if x.alive then
    let d := d.setTxn key { x with
      phase := .aborted cause, ws := [], sig := 0, newGran := 0, discard := 0, enqs := [], hdrCell := none,
      held := false, nonspec := false,
      counted := x.counted + b2n (countedCause cause) }
    let d := d.endTxnToks key
    let d := d.bump (Reg.VRN_ABORT_CNT (cause % 16)) 1
    { d with vrn := { d.vrn with aborts := d.vrn.aborts ++ [(key, cause)] } }
  else d

/-! The Fixative journal (R511). -/

/-- A journal record (R511): two data pages, and a commit page with the record sequence, the time, the cause (1 power
failure, 2 a severity-5 fault), the cmd_index of each group's last applied control-plane transaction, and a CRC-32 over the
record. The fields' places are a DESIGN CHOICE (log entry 35). -/
def journalRec (seq time cause : Nat) (last : Tab Nat) (marked : List Byte) : List Byte :=
  let body := padTo 764 (padTo 512 marked ++ leBytes 4 seq ++ leBytes 8 time ++ leBytes 4 cause
    ++ (List.range 16).flatMap (fun g => leBytes 4 (tget 0 last g)))
  body ++ leBytes 4 (0xFFFFFFFF - crc32 0xFFFFFFFF body)

/-- Whether a record has a valid commit page. -/
def journalOk (bs : List Byte) : Bool :=
  decide (bs.length = 768) && decide (leAt bs 764 4 = 0xFFFFFFFF - crc32 0xFFFFFFFF (bs.take 764))

/-- The record that a boot uses: the valid one of the highest sequence (R511). -/
def Journal.latest (j : Journal) : Option (List Byte) :=
  (j.recs.filter journalOk).foldl (fun (b : Option (List Byte)) x => match b with
    | some y => if leAt x 512 4 < leAt y 512 4 then some y else some x
    | none => some x) none

end Sys2Proof.Machine
end

