-- ==== Sys2Proof/Machine/Operands.lean ====
section
/-!
DEFINITION. Operand forms: the instruction word formats of R75 and R76, the words R97 and R100 exclude, and the
addresses a thread's operands name: the thread address maps of R103 and R120, the two-level tables of R121 and the
access classes of R41 and R107.
-/

namespace Sys2Proof.Machine

/-! Word formats (R75). -/

/-- A register-format word. -/
def wordR (op rd ra rb fn : Nat) : Word := wd (op * 2 ^ 25 + rd * 2 ^ 20 + ra * 2 ^ 15 + rb * 2 ^ 10 + fn)
/-- An immediate-format word. -/
def wordI (op rd ra imm : Nat) : Word := wd (op * 2 ^ 25 + rd * 2 ^ 20 + ra * 2 ^ 15 + imm)
/-- A wide-format word. -/
def wordW (op rd imm : Nat) : Word := wd (op * 2 ^ 25 + rd * 2 ^ 20 + imm)
/-- A word of a major with its low 25 bits. -/
def wordC (op low : Nat) : Word := wd (op * 2 ^ 25 + low)

/-- The major of a word with P = 0 (R75). -/
def major (w : Word) : Nat := fld w 30 25
/-- Whether a word is a pair (R75). -/
def isPair (w : Word) : Bool := bit w 31
/-- The first short operation's opcode, rd and rb or imm5 (R76). -/
def s1 (w : Word) : Nat × Nat × Nat := (fld w 30 26, fld w 25 21, fld w 20 16)
/-- The second short operation's opcode, rd and rb or imm5 (R76). -/
def s2 (w : Word) : Nat × Nat × Nat := (fld w 15 11, fld w 10 6, fld w 5 1)

/-- Whether a word contains rep (R90). -/
def hasRep (w : Word) : Bool := isPair w && (decide ((s1 w).1 = 0x1B) || decide ((s2 w).1 = 0x1B))

/-- The word of a pair: P = 1 and 31 bits (R75, R76). -/
def pairWord (p : BitVec 31) : Word := wd (2 ^ 31 + p.toNat)

/-- Whether a word may not stand in a delay slot or be repeated (R97, R100): a branch, call, callr, jr, eret, tcont,
vcommit, vabort, tend or wt, or a word that contains rep. A word of major 0x12 with a reserved fn counts as a branch here
(DESIGN CHOICE, log entry 139). -/
def slotForbidden (w : Word) : Bool :=
  hasRep w || (!isPair w && decide (major w ∈ [0x10, 0x11, 0x12, 0x13, 0x2B, 0x30, 0x31, 0x32, 0x33]))

/-! Address translation. -/

/-- What an access is for (R82 estat.kind). -/
inductive Acc where
  | fetch
  | load
  | store
  | brush
  deriving DecidableEq, Repr

/-- estat.kind of an access (R82). -/
def Acc.kind : Acc → Nat
  | .fetch => 0
  | .load => 1
  | .store => 2
  | .brush => 3

/-- A translated address: the internal address, or a cause with the address to capture as unmapped, if it is (R40). -/
inductive Xl where
  | ok (a : Nat) (cached : Bool)
  | bad (cause : Nat) (unmapped : Option Nat)
  deriving DecidableEq, Repr

/-- A cluster thread's address in the internal space (R103): classes follow R41 and R107. An address that R103 maps to
nothing has no internal address: GLB_UNMAP captures the thread's own 32-bit address then (DESIGN CHOICE, log entry 101). -/
def Dev.xlClu (d : Dev) (t : Nat) (acc : Acc) (va : Nat) : Xl :=
  if va < 0x80000 then .ok (cluBase (clusterOf t) + va) false
  else if 0x01000000 ≤ va ∧ va < 0x01000000 + 24 * 0x100000 then
    let a := cluBase 0 + (va - 0x01000000)
    if va % 0x100000 < 0x80000 then .ok a false else .bad 4 (some a)
  else if 0x10000000 ≤ va ∧ va < 0x16000000 then
    if acc = .load then .ok (pmBase + (va - 0x10000000)) false else .bad 4 none
  else if 0x20000000 ≤ va ∧ va < 0x23000000 then
    if acc = .load then .ok (lookupBase + (va - 0x20000000)) false else .bad 4 none
  else if 0x30000000 ≤ va ∧ va < 0x30010000 then
    if acc = .fetch then .bad 4 none else .ok (semBase + (va - 0x30000000)) false
  else if 0x40000000 ≤ va ∧ va < 0x80000000 then .bad 5 none
  else if 0x80000000 ≤ va then
    let a := fld (d.thr t).dwin 8 0 * 2 ^ 31 + (va - 0x80000000)
    if a < d.fittedDram ∧ ¬ d.parityHole a then .ok a true else .bad 4 (some a)
  else .bad 4 (some va)

/-- Whether the Atelier may make an access to an internal address (R41, R107). -/
def Dev.atlClass (d : Dev) (super : Bool) (acc : Acc) (a : Nat) (nc : Bool) : Xl :=
  match d.region a with
  | .dram | .atlSram => .ok a (!nc)
  | .cluster _ => .ok a false
  | .packet | .lookup | .sem => if acc = .fetch then .bad 4 none else .ok a false
  | .regs => if !super then .bad 5 none else if acc = .fetch then .bad 4 none else .ok a false
  | .primer => if !super then .bad 5 none else .ok a false
  | .unmapped => .bad 4 (some a)

/-- An Atelier address with mmu = 0 (R120); none where the map gives nothing. -/
def atlMap (va : Nat) : Option Nat :=
  if va < 0x400000 then some (atlSramBase + va)
  else if 0x01000000 ≤ va ∧ va < 0x01000000 + 24 * 0x100000 then some (cluBase 0 + (va - 0x01000000))
  else if 0x04000000 ≤ va ∧ va < 0x08000000 then some (regSpaceBase + (va - 0x04000000))
  else if 0x08000000 ≤ va ∧ va < 0x08040000 then some (primerBase + (va - 0x08000000))
  else if 0x09000000 ≤ va ∧ va < 0x09010000 then some (semBase + (va - 0x09000000))
  else if 0x10000000 ≤ va ∧ va < 0x16000000 then some (pmBase + (va - 0x10000000))
  else if 0x20000000 ≤ va ∧ va < 0x23000000 then some (lookupBase + (va - 0x20000000))
  else if 0x80000000 ≤ va then some (va - 0x80000000)
  else none

/-- A byte as the Atelier's L2 holds it, and memory's where the L2 does not (R118). -/
def Dev.l2Get (d : Dev) (a : Nat) : Byte :=
  match d.krv.l2.find? (fun l => l.base ≤ a ∧ a < l.base + l.data.length) with
  | some l => byteAt l.data (a - l.base)
  | none => d.memGet a

/-- A little-endian value of n bytes read through the L2 (R122). -/
def Dev.l2Le (d : Dev) (a n : Nat) : Nat := leVal ((List.range n).map (fun i => d.l2Get (a + i)))

/-- Whether any of n bytes lies in a word that the L2 holds as poisoned (R432). -/
def Dev.l2Bad (d : Dev) (a n : Nat) : Bool :=
  d.krv.l2.any (fun l => l.bad.any (fun w => decide (a < 4 * w + 4 ∧ 4 * w < a + n)))

/-- Whether the L2 holds an address. -/
def Dev.l2Holds (d : Dev) (a : Nat) : Bool := d.krv.l2.any (fun l => decide (l.base ≤ a ∧ a < l.base + l.data.length))

/-- Whether a page-table entry reads poisoned through the L2 (R432). -/
def Dev.pteDead (d : Dev) (a : Nat) : Bool := if d.l2Holds a then d.l2Bad a 8 else d.dead a 8

/-- Whether a page-table entry has a reserved bit set (R121). -/
def pteBad (e : Nat) : Bool := decide (e / 2 ^ 48 ≠ 0) || decide (e / 2 ^ 7 % 2 ^ 5 ≠ 0)

/-- The page-table walk of R121: the leaf entry and whether it maps 2 MiB; else a fault of cause 0x04, with the address of the
table entry where that is unmapped (R40). It reads through the L2; DESIGN CHOICE (log entry 133): a read that misses brings
no line into it. -/
def Dev.walk (d : Dev) (ptbr : Word) (va : Nat) : Except (Option Nat) (Nat × Bool) :=
  let a1 := ptbr.toNat * 2 ^ 16 + va / 2 ^ 21 * 8
  let e1 := d.l2Le a1 8
  let a2 := e1 / 2 ^ 12 * 2 ^ 12 + va / 2 ^ 12 % 2 ^ 9 * 8
  let e2 := d.l2Le a2 8
  if d.region a1 = .unmapped then .error (some a1)
  else if d.pteDead a1 then .error none
  else if e1 % 2 = 0 || pteBad e1 then .error none
  else if e1 / 2 % 8 ≠ 0 then (if e1 / 2 ^ 12 % 2 ^ 9 ≠ 0 then .error none else .ok (e1, true))
  else if d.region a2 = .unmapped then .error (some a2)
  else if d.pteDead a2 then .error none
  else if e2 % 2 = 0 || pteBad e2 || e2 / 2 % 8 = 0 then .error none
  else .ok (e2, false)

/-- Whether a TLB entry translates an address for an ASID (R121, R122). -/
def TlbEntry.hits (e : TlbEntry) (asid va : Nat) : Bool :=
  (decide (e.asid = asid) || e.pte.testBit 5) && decide (e.vpn = if e.big then va / 2 ^ 21 else va / 2 ^ 12)

/-- An Atelier core's TLB. -/
def Dev.tlb (d : Dev) (t : Nat) : List TlbEntry := tget [] d.krv.tlb t

/-- The leaf entry for an address: the TLB's, else the walk's (R122). -/
def Dev.leaf (d : Dev) (t va : Nat) : Except (Option Nat) (Nat × Bool) :=
  let th := d.thr t
  match (d.tlb t).find? (fun e => e.hits (fld th.asid 7 0) va) with
  | some e => .ok (e.pte, e.big)
  | none => d.walk th.ptbr va

/-- The permissions of R121 on a leaf entry: none, or the cause. A user access to a u = 0 page is judged first. -/
def ptePerm (e : Nat) (super : Bool) (acc : Acc) : Option Nat :=
  if !super && !e.testBit 4 then some 5
  else if acc = .fetch then
    (if !e.testBit 3 || (super && e.testBit 4) then some 4 else none)
  else if acc = .store then (if e.testBit 2 then none else some 4)
  else if e.testBit 1 then none else some 4

/-- An Atelier core's address in the internal space (R120, R121). -/
def Dev.xlAtl (d : Dev) (t : Nat) (acc : Acc) (va : Nat) : Xl :=
  let th := d.thr t
  if bit th.sstatus 2 then
    match d.leaf t va with
    | .error u => .bad 4 u
    | .ok (e, big) =>
      match ptePerm e th.super acc with
      | some c => .bad c none
      | none =>
        let a := if big then e % 2 ^ 48 / 2 ^ 21 * 2 ^ 21 + va % 2 ^ 21 else e % 2 ^ 48 / 2 ^ 12 * 2 ^ 12 + va % 2 ^ 12
        d.atlClass th.super acc a (e.testBit 6)
  else
    match atlMap va with
    | some a => d.atlClass th.super acc a false
    | none => .bad 4 (some va)

/-- A thread's address in the internal space. -/
def Dev.xlate (d : Dev) (t : Nat) (acc : Acc) (va : Nat) : Xl :=
  if isAtl t then d.xlAtl t acc va else d.xlClu t acc va

/-- The first byte of an access of n bytes whose thread address is unmapped is captured (R40): for words that name a
block of memory and whose check of it fails. -/
def Dev.captureVa (d : Dev) (t va n : Nat) : Dev :=
  match (List.range n).findSome? (fun i => match d.xlate t .load (va + i) with
    | .bad _ u => u
    | .ok _ _ => none) with
  | some a => d.captureUnmapped 3 a
  | none => d

/-- Whether a thread's core can translate an address without a walk: there is no translation, or an entry hits (R122). -/
def Dev.tlbHit (d : Dev) (t va : Nat) : Bool :=
  let th := d.thr t
  !isAtl t || !bit th.sstatus 2 || (d.tlb t).any (fun e => e.hits (fld th.asid 7 0) va)

/-- A walk's reads of the page table meet poisoned data (R432). -/
def Dev.walkSee (d : Dev) (ptbr : Word) (va : Nat) : Dev :=
  let a1 := ptbr.toNat * 2 ^ 16 + va / 2 ^ 21 * 8
  let e1 := d.l2Le a1 8
  let see := fun (d : Dev) (a : Nat) => if d.l2Holds a then d else d.seeDram a 8
  if d.pteDead a1 || e1 % 2 = 0 || e1 / 2 % 8 ≠ 0 then see d a1
  else see (see d a1) (e1 / 2 ^ 12 * 2 ^ 12 + va / 2 ^ 12 % 2 ^ 9 * 8)

/-- The TLB refilled for an address, when translation is on and no entry hits (R122): a full TLB loses an entry that
the spec leaves open (log entry 2). -/
def Dev.tlbFill (d : Dev) (t va : Nat) : Dev :=
  let th := d.thr t
  if isAtl t && bit th.sstatus 2 && !((d.tlb t).any (fun e => e.hits (fld th.asid 7 0) va)) then
    let got := d.walk th.ptbr va
    let d := d.walkSee th.ptbr va
    match got with
    | .error _ => d
    | .ok (e, big) =>
      let n : TlbEntry := ⟨fld th.asid 7 0, if big then va / 2 ^ 21 else va / 2 ^ 12, big, e⟩
      let l := d.tlb t
      if l.length < 64 then { d with krv := { d.krv with tlb := tset [] d.krv.tlb t (l ++ [n]) } }
      else
        let (i, d) := d.pick 64
        { d with krv := { d.krv with tlb := tset [] d.krv.tlb t (l.eraseIdx i ++ [n]) } }
  else d

/-- The shared region's base and size in bytes (R156, R188). -/
def Dev.shrBase (d : Dev) : Nat :=
  d.rf Reg.VRN_SHR_BASE_LO 31 16 * 2 ^ 16 + d.rf Reg.VRN_SHR_BASE_HI 15 0 * 2 ^ 32
/-- The shared region's size in bytes (R188). -/
def Dev.shrSize (d : Dev) : Nat := d.rf Reg.VRN_SHR_SIZE 14 0 * 2 ^ 16

/-- Whether an internal address lies in the Varnish shared region (R105, R156). -/
def Dev.inShared (d : Dev) (a : Nat) : Bool := decide (d.shrBase ≤ a ∧ a < d.shrBase + d.shrSize)

/-- The line of the I-cache that a fetch at a thread's pc needs: its internal address ÷ 32; the trap otherwise
(R104, R107). -/
def Dev.fetchLine (d : Dev) (t : Nat) : Xl :=
  let pc := (d.thr t).pc.toNat
  match d.xlate t .fetch pc with
  | .ok a _ => .ok (a / 32) true
  | x => x

/-- The key of a line in a core's I-cache: direct-mapped, 512 lines of 32 bytes (R74). -/
def icKey (core line : Nat) : Nat := core * 512 + line % 512
/-- The key of a line in a core's D-cache: direct-mapped, 256 lines of 32 bytes (R106). -/
def dcKey (core line : Nat) : Nat := core * 256 + line % 256

/-- Whether a thread can fetch at its pc: no TLB refill is due (R122), and the I-cache of its core holds the line
(R74). -/
def Dev.fetchHit (d : Dev) (t : Nat) : Bool :=
  decide ((d.thr t).pc.toNat % 4 = 0) && d.tlbHit t (d.thr t).pc.toNat &&
  match d.fetchLine t with
  | .ok l _ => decide (tget none d.krv.icache (icKey (coreOf t) l) = some l)
  | .bad _ _ => false

end Sys2Proof.Machine
end

