-- ==== Sys2Proof/Machine/Flags.lean ====
section
/-!
DEFINITION. Results and flags of the Kroval arithmetic: the flag classes of R83, the ALU group of R86, multiply and
divide of R87 and R93, the short operations of R90, shifts and rotates of R91 and R92, and the conditions of R88.
-/

namespace Sys2Proof.Machine

/-- The flags an operation writes; `none` keeps the old value (R83, R84). -/
structure FlagW where
  n : Option Bool
  z : Option Bool
  c : Option Bool
  v : Option Bool
  d : Option Bool
  deriving DecidableEq, Repr

/-- No flag written. -/
def FlagW.keep : FlagW := ⟨none, none, none, none, none⟩

/-- The flags word with the written flags replaced (R82): n 31, z 30, c 29, v 28, d 0. -/
def applyFlags (f : Word) (w : FlagW) : Word :=
  let put := fun (f : Word) (i : Nat) (o : Option Bool) => match o with
    | some b => setBit f i b
    | none => f
  put (put (put (put (put f 31 w.n) 30 w.z) 29 w.c) 28 w.v) 0 w.d

/-- Flag N of a flags word. -/
def flagN (f : Word) : Bool := bit f 31
/-- Flag Z of a flags word. -/
def flagZ (f : Word) : Bool := bit f 30
/-- Flag C of a flags word. -/
def flagC (f : Word) : Bool := bit f 29
/-- Flag V of a flags word. -/
def flagV (f : Word) : Bool := bit f 28
/-- Flag D of a flags word. -/
def flagD (f : Word) : Bool := bit f 0

/-- N and Z of a result (R83). -/
def flagsNZ (r : Word) : FlagW := ⟨some (bit r 31), some (decide (r = 0)), none, none, none⟩

/-- a + b + carry: the result with NZCV, C the carry out of bit 31 (R83). -/
def addW (a b : Word) (cin : Bool) : Word × FlagW :=
  let s := a.toNat + b.toNat + b2n cin
  let r := wd s
  let ov := (bit a 31 == bit b 31) && (bit r 31 != bit a 31)
  (r, ⟨some (bit r 31), some (decide (r = 0)), some (decide (2 ^ 32 ≤ s)), some ov, none⟩)

/-- a − b − (1 − carry): the result with NZCV, C set if no borrow (R83). -/
def subW (a b : Word) (cin : Bool) : Word × FlagW := addW a (~~~b) cin

/-- The shift kinds of R85, R86 and R90. -/
inductive Sh where
  | sll
  | srl
  | sra
  | rol
  | ror
  deriving DecidableEq, Repr

/-- A shift or rotate by a 32-bit amount, with C (R91, R92): C is unchanged at an effective amount of 0. -/
def shiftW (k : Sh) (a : Word) (n : Nat) : Word × FlagW :=
  let nz := fun (r : Word) (c : Option Bool) => (r, (⟨some (bit r 31), some (decide (r = 0)), c, none, none⟩ : FlagW))
  match k with
  | .sll =>
    if n = 0 then nz a none
    else if n ≤ 32 then nz (wd (a.toNat * 2 ^ n)) (some (bit a (32 - n)))
    else nz 0 (some false)
  | .srl =>
    if n = 0 then nz a none
    else if n ≤ 32 then nz (wd (a.toNat / 2 ^ n)) (some (bit a (n - 1)))
    else nz 0 (some false)
  | .sra =>
    if n = 0 then nz a none
    else if n < 32 then
      nz (wd (a.toNat / 2 ^ n + (if bit a 31 then 2 ^ 32 - 2 ^ (32 - n) else 0))) (some (bit a (n - 1)))
    else nz (if bit a 31 then wd 0xFFFFFFFF else 0) (some (bit a 31))
  | .rol =>
    let m := n % 32
    if m = 0 then nz a none
    else
      let r := wd (a.toNat * 2 ^ m + a.toNat / 2 ^ (32 - m))
      nz r (some (bit r 0))
  | .ror =>
    let m := n % 32
    if m = 0 then nz a none
    else
      let r := wd (a.toNat / 2 ^ m + a.toNat * 2 ^ (32 - m))
      nz r (some (bit r 31))

/-- The signed value of a word. -/
def sint (w : Word) : Int := sintN 32 w.toNat

/-- A word of an integer modulo 2^32. -/
def wdInt (i : Int) : Word := BitVec.ofInt 32 i

/-- An ALU-group operation (R86): the result, or none for one that writes no register, and the flags of its class.
None for a reserved selector. -/
def aluOp (sel : Nat) (a b : Word) (c : Bool) : Option (Option Word × FlagW) :=
  let nz := fun (r : Word) => some (some r, flagsNZ r)
  let full := fun (x : Word × FlagW) => some (some x.1, x.2)
  match sel with
  | 0x00 => full (addW a b false)
  | 0x01 => full (subW a b true)
  | 0x02 => full (addW a b c)
  | 0x03 => full (subW a b c)
  | 0x04 => nz (a &&& b)
  | 0x05 => nz (a ||| b)
  | 0x06 => nz (a ^^^ b)
  | 0x07 => nz (a &&& ~~~b)
  | 0x08 => full (shiftW .sll a b.toNat)
  | 0x09 => full (shiftW .srl a b.toNat)
  | 0x0A => full (shiftW .sra a b.toNat)
  | 0x0B => full (shiftW .rol a b.toNat)
  | 0x0C => full (shiftW .ror a b.toNat)
  | 0x0D => nz (if sint a ≤ sint b then a else b)
  | 0x0E => nz (if sint a ≤ sint b then b else a)
  | 0x0F => nz (if a.toNat ≤ b.toNat then a else b)
  | 0x10 => nz (if a.toNat ≤ b.toNat then b else a)
  | 0x11 => nz (wd (clzN 32 a.toNat))
  | 0x12 => nz (wd (popN 32 a.toNat))
  | 0x13 => nz (bswap a)
  | 0x14 => nz (sextN 8 a.toNat)
  | 0x15 => nz (sextN 16 a.toNat)
  | 0x16 => nz (wd (a.toNat % 2 ^ 8))
  | 0x17 => nz (wd (a.toNat % 2 ^ 16))
  | 0x18 => nz (~~~a)
  | 0x19 => full (subW 0 a true)
  | 0x1A => some (none, (subW a b true).2)
  | 0x1B => some (none, flagsNZ (a &&& b))
  | _ => none

/-- Whether an ALU selector is a unary operation, whose rb must be 0 (R86). -/
def aluUnary (sel : Nat) : Bool := decide (0x11 ≤ sel ∧ sel ≤ 0x19)
/-- Whether an ALU selector sets its flags whatever f is: neg, cmp and tst (R86). -/
def aluAlways (sel : Nat) : Bool := decide (0x19 ≤ sel ∧ sel ≤ 0x1B)
/-- Whether an ALU selector is cmp or tst, whose rd must be 0 (R86). -/
def aluNoDest (sel : Nat) : Bool := decide (sel = 0x1A ∨ sel = 0x1B)

/-- The multiply group (R87, R95); none for the reserved selector. -/
def mulOp (sel : Nat) (a b : Word) : Option (Word × FlagW) :=
  let out := fun (r : Word) => some (r, flagsNZ r)
  match sel with
  | 0 => out (wd (a.toNat * b.toNat))
  | 1 => out (wd (a.toNat * b.toNat / 2 ^ 32))
  | 2 => out (wdInt (sint a * sint b / 2 ^ 32))
  | _ => none

/-- The divide group (R87, R93): divu, divs, remu, rems. V always, D when the divisor is 0 (R84). -/
def divOp (sel : Nat) (a b : Word) : Word × FlagW :=
  let fl := fun (v : Bool) (z : Bool) => (⟨none, none, none, some v, if z then some true else none⟩ : FlagW)
  if b = 0 then ((if sel = 0 ∨ sel = 1 then wd 0xFFFFFFFF else a), fl false true)
  else if (sel = 1 ∨ sel = 3) ∧ a = wd 0x80000000 ∧ b = wd 0xFFFFFFFF then
    ((if sel = 1 then wd 0x80000000 else 0), fl true false)
  else
    match sel with
    | 0 => (wd (a.toNat / b.toNat), fl false false)
    | 1 => (wdInt (Int.tdiv (sint a) (sint b)), fl false false)
    | 2 => (wd (a.toNat % b.toNat), fl false false)
    | _ => (wdInt (Int.tmod (sint a) (sint b)), fl false false)

/-- The conditions of bcc (R88). -/
def condTaken (c : Nat) (f : Word) : Bool :=
  match c with
  | 0x0 => flagZ f
  | 0x1 => !flagZ f
  | 0x2 => flagC f
  | 0x3 => !flagC f
  | 0x4 => flagN f
  | 0x5 => !flagN f
  | 0x6 => flagV f
  | 0x7 => !flagV f
  | 0x8 => flagC f && !flagZ f
  | 0x9 => !flagC f || flagZ f
  | 0xA => flagN f == flagV f
  | 0xB => flagN f != flagV f
  | 0xC => !flagZ f && (flagN f == flagV f)
  | 0xD => flagZ f || (flagN f != flagV f)
  | 0xE => true
  | _ => flagD f

/-- What a short operation does (R90): the register and value it writes, its flags, and the value it gives lc. -/
structure ShortEff where
  wr : Option (Nat × Word)
  fl : FlagW
  lc : Option Word
  deriving DecidableEq, Repr

/-- A short operation over the registers, flags and lc at the start of its word (R80, R90); rep and nop do nothing
here. None for a reserved sop or a non-zero unused field. -/
def shortOp (op : Nat × Nat × Nat) (g : Nat → Word) (lc : Word) : Option ShortEff :=
  let (sop, rd, x) := op
  let a := g rd
  let b := g x
  let i := sextN 5 x
  let wr := fun (r : Word) => some (⟨some (rd, r), .keep, none⟩ : ShortEff)
  let wrF := fun (r : Word × FlagW) => some (⟨some (rd, r.1), r.2, none⟩ : ShortEff)
  let fl := fun (f : FlagW) => some (⟨none, f, none⟩ : ShortEff)
  match sop with
  | 0x00 | 0x1B => if rd = 0 ∧ x = 0 then some ⟨none, .keep, none⟩ else none
  | 0x01 => wr b
  | 0x02 => wr i
  | 0x03 => wr (a + b)
  | 0x04 => wr (a + i)
  | 0x05 => wr (a - b)
  | 0x06 => wr (a &&& b)
  | 0x07 => wr (a ||| b)
  | 0x08 => wr (a ^^^ b)
  | 0x09 => wr (a &&& ~~~b)
  | 0x0A => wr (shiftW .sll a b.toNat).1
  | 0x0B => wr (shiftW .srl a b.toNat).1
  | 0x0C => wr (shiftW .sra a b.toNat).1
  | 0x0D => wr (shiftW .sll a x).1
  | 0x0E => wr (shiftW .srl a x).1
  | 0x0F => wr (shiftW .sra a x).1
  | 0x10 => wr (~~~b)
  | 0x11 => wrF (subW 0 b true)
  | 0x12 => wr (sextN 8 b.toNat)
  | 0x13 => wr (sextN 16 b.toNat)
  | 0x14 => wr (wd (b.toNat % 2 ^ 8))
  | 0x15 => wr (wd (b.toNat % 2 ^ 16))
  | 0x16 => fl (subW a b true).2
  | 0x17 => fl (subW a i true).2
  | 0x18 => fl (flagsNZ (a &&& b))
  | 0x19 => wrF (addW a b false)
  | 0x1A => wrF (subW a b true)
  | 0x1C => if rd = 0 then some ⟨none, .keep, some b⟩ else none
  | 0x1D => if x = 0 then wr lc else none
  | _ => none

/-- The registers a short operation reads, lc as register 32 (R78). -/
def shortReads (op : Nat × Nat × Nat) : List Nat :=
  let (sop, rd, x) := op
  match sop with
  | 0x00 | 0x02 => []
  | 0x01 | 0x10 | 0x11 | 0x12 | 0x13 | 0x14 | 0x15 | 0x1C => [x]
  | 0x04 | 0x0D | 0x0E | 0x0F | 0x17 => [rd]
  | 0x1B | 0x1D => [32]
  | _ => [rd, x]

/-- The registers a short operation writes, lc as register 32 (R78). -/
def shortWrites (op : Nat × Nat × Nat) : List Nat :=
  let (sop, rd, _) := op
  match sop with
  | 0x00 | 0x16 | 0x17 | 0x18 | 0x1B => []
  | 0x1C => [32]
  | _ => [rd]

/-- Whether a short operation is a flag-setting one (R78). -/
def shortSetsFlags (op : Nat × Nat × Nat) : Bool := decide (op.1 ∈ [0x11, 0x16, 0x17, 0x18, 0x19, 0x1A])

/-- The rules of R78 for a pair; opcodes and unused fields are checked by `shortOp`. -/
def pairLegal (w : Word) : Bool :=
  let a := s1 w
  let b := s2 w
  let touched := (shortWrites a).filter (· ≠ 0)
  !(touched.any (fun r => r ∈ shortReads b || r ∈ shortWrites b))
    && !(shortSetsFlags a && shortSetsFlags b)
    && !(decide (a.1 = 0x1B) && decide (b.1 = 0x1B))
    && !(bit w 0)

end Sys2Proof.Machine
end

