-- ==== Sys2Proof/Machine/Locks.lean ====
section
/-!
DEFINITION. The lock unit (R357 to R372): acquire, release, the wait limit, broken locks and the compatibility
semaphore bank, and the waits of wt kind 1 that a release ends.
-/

namespace Sys2Proof.Machine

/-- The holder identity of a thread's requests (R365). -/
def Dev.holderId (d : Dev) (t : Nat) : Nat :=
  match txnKey t (d.thr t) with
  | some k => 0x8000 + k / 256 * 256 + k % 256
  | none => if isAtl t then 0x1F00 + (t - 1536) * 8 else clusterOf t * 256 + coreIn t * 8 + thIdx t

/-- The lock of a word address (R357). -/
def Dev.lock (d : Dev) (k : Nat) : Lock := tget Lock.free d.lku.locks k

/-- The device with a lock replaced. -/
def Dev.setLock (d : Dev) (k : Nat) (l : Lock) : Dev :=
  { d with lku := { d.lku with locks := tset Lock.free d.lku.locks k l } }

/-- The first timeout, bad release or broken release is captured; later ones set overflow (R364, R371). -/
def Dev.lkuCapture (d : Dev) (kind addr holder : Nat) : Dev :=
  if d.rb Reg.LKU_CAPT_STATUS 31 then d.setRb Reg.LKU_CAPT_STATUS 30 true
  else
    ((d.setReg Reg.LKU_CAPT_ADDR_LO (wd addr)).setReg Reg.LKU_CAPT_ADDR_HI (wd (addr / 2 ^ 32))).setReg
      Reg.LKU_CAPT_STATUS (wd (2 ^ 31 + b2n (d.rb Reg.LKU_CAPT_STATUS 30) * 2 ^ 30 + kind * 2 ^ 16 + holder))

/-- A thread's wait ends with a reason in rd (R110). -/
def Dev.endWait (d : Dev) (t : Nat) (reason : Word) : Dev :=
  let th := d.thr t
  match th.run with
  | .waiting _ _ rd => d.setThr t (({ th with run := .running }.setG rd reason).advance (isAtl t))
  | _ => d

/-- Whether a thread waits in wt kind 1 on the lock word at an internal address (R363). -/
def Dev.waitsOnLock (d : Dev) (t addr : Nat) : Bool :=
  match (d.thr t).run with
  | .waiting 1 op _ => match d.xlate t .load op.toNat with
    | .ok a _ => decide (a / 4 = addr / 4)
    | .bad _ _ => false
  | _ => false

/-- A release of a lock word ends every wait for it (R363). -/
def Dev.wakeLock (d : Dev) (addr : Nat) : Dev :=
  (tkeys (fun _ _ => true) d.krv.threads).foldl (fun d t => if d.waitsOnLock t addr then d.endWait t 1 else d) d

/-- The status of a stalled lkacq reaches its thread, if it still stalls for that holder (R359). -/
def Dev.lockReply (d : Dev) (t holder code : Nat) : Dev :=
  let th := d.thr t
  match th.run with
  | .lockWait rd =>
    if d.holderId t = holder then
      d.setThr t (({ th with run := .running }.setG rd (wd code)).advance (isAtl t))
    else d
  | _ => d

/-- An acquire at the lock unit (R359, R362, R367). -/
def Dev.lockAcquire (d : Dev) (k : Nat) (w : Waiter) : Dev :=
  let l := d.lock k
  match l.holder with
  | some h =>
    if h = w.holder then d.lockReply w.thread w.holder 3
    else d.setLock k { l with waiters := l.waiters ++ [w] }
  | none =>
    if l.broken then (d.setLock k { holder := some w.holder, broken := false, waiters := [] }).lockReply w.thread w.holder 1
    else if decide (8192 ≤ d.lku.locks.length) || !d.lku.entryWait.isEmpty then { d with lku := { d.lku with entryWait := d.lku.entryWait ++ [(k, w)] } }
    else (d.setLock k { holder := some w.holder, broken := false, waiters := [] }).lockReply w.thread w.holder 0

/-- An acquire that takes a lock entry, or joins the lock's FIFO if the lock has one by now (R359, R362). -/
def Dev.lockEnter (d : Dev) (k : Nat) (w : Waiter) : Dev :=
  let l := d.lock k
  match l.holder with
  | some _ => d.setLock k { l with waiters := l.waiters ++ [w] }
  | none => (d.setLock k { holder := some w.holder, broken := false, waiters := [] }).lockReply w.thread w.holder (b2n l.broken)

/-- The acquires that wait for an entry take those that have become free, in the order in which they arrived (R362). -/
def Dev.serveEntry (d : Dev) : (fuel : Nat) → Dev
  | 0 => d
  | n + 1 =>
    match d.lku.entryWait with
    | [] => d
    | (k, w) :: r =>
      if d.lku.locks.length < 8192 ∨ (d.lock k).holder.isSome then
        ({ d with lku := { d.lku with entryWait := r } }.lockEnter k w).serveEntry n
      else d

/-- A lock freed by its holder, or released broken: handed to the head of the FIFO with code 0 or 1; with no waiter a
broken lock stays marked (R360, R367). -/
def Dev.lockFree (d : Dev) (k : Nat) (broken : Bool) : Dev :=
  let l := d.lock k
  let d := match l.waiters with
    | w :: r =>
      (d.setLock k { holder := some w.holder, broken := false, waiters := r }).lockReply w.thread w.holder (b2n broken)
    | [] => (d.setLock k { holder := none, broken := broken, waiters := [] }).serveEntry d.lku.entryWait.length
  d.wakeLock (4 * k)

/-- A release by a non-holder, or of a free lock (R361). -/
def Dev.badRelease (d : Dev) (addr holder : Nat) : Dev :=
  ((d.bump Reg.LKU_BAD_REL_CNT 1).lkuCapture 1 addr holder).raise Src.lkuBadRelease holder

/-- A release at the lock unit (R360, R361). -/
def Dev.lockRelease (d : Dev) (k holder : Nat) : Dev :=
  if (d.lock k).holder = some holder then d.lockFree k false else d.badRelease (4 * k) holder

/-- A semaphore of the compatibility bank (R369). -/
def Dev.sem (d : Dev) (s : Nat) : Sem := tget ⟨none, false⟩ d.lku.sems s
/-- The device with a semaphore replaced. -/
def Dev.setSem (d : Dev) (s : Nat) (x : Sem) : Dev :=
  { d with lku := { d.lku with sems := tset ⟨none, false⟩ d.lku.sems s x } }

/-- The record of a broken release (R367). -/
def Dev.brokenRelease (d : Dev) (addr holder : Nat) : Dev :=
  ((d.bump Reg.LKU_BROKEN_CNT 1).lkuCapture 2 addr holder).raise Src.lkuBroken holder

/-- Whether a request is a release that a holder has issued: of a lock word or of a semaphore. -/
def LockReq.releases (r : LockReq) (holder : Nat) : Bool := !r.acquire && decide (r.holder = holder)

/-- Every lock and semaphore that a holder still holds is released broken (R367). -/
def Dev.breakHeld (d : Dev) (holder : Nat) : Dev :=
  let d := (tkeys (fun _ (l : Lock) => decide (l.holder = some holder)) d.lku.locks).foldl
    (fun d k => (d.brokenRelease (4 * k) holder).lockFree k true) d
  (tkeys (fun _ (x : Sem) => decide (x.holder = some holder)) d.lku.sems).foldl
    (fun d s => (d.brokenRelease (semBase + 0x100 * s) holder).setSem s ⟨none, true⟩) d

/-- What a stalled lkacq of a thread that stops leaves with the lock unit is withdrawn (R108, R362): its request, its place
in a FIFO and its wait for an entry. -/
def Dev.dropWait (d : Dev) (t : Nat) : Dev :=
  match (d.thr t).run with
  | .lockWait _ =>
    { d with lku := { d.lku with
        locks := tmap Lock.free (fun _ (l : Lock) => { l with waiters := l.waiters.filter (fun w => decide (w.thread ≠ t)) }) d.lku.locks
        entryWait := d.lku.entryWait.filter (fun e => decide (e.2.thread ≠ t))
        reqs := d.lku.reqs.filter (fun r => !(r.acquire && decide (r.thread = t))) } }
  | _ => d

/-- Whether a requester may access a semaphore's group: bit c its cluster, bit 24 the Atelier (R370). -/
def Dev.semAllowed (d : Dev) (t s : Nat) : Bool :=
  d.rb (Reg.LKU_SEM_GROUP (s / 16)) (if isAtl t then 24 else clusterOf t)

/-- A read of a semaphore's acquire word: the value read (R369). -/
def Dev.semAcquire (d : Dev) (holder s : Nat) : Word × Dev :=
  let x := d.sem s
  if !d.rb Reg.LKU_CTL 16 then (1, d)
  else match x.holder with
    | some h => if h = holder then (3, d) else (1, d)
    | none => (if x.broken then 2 else 0, d.setSem s ⟨some holder, false⟩)

/-- A semaphore's status word: [31] set, [30] broken, [15:0] holder (R369, R371). -/
def Sem.status (x : Sem) : Word :=
  match x.holder with
  | some h => wd (2 ^ 31 + h)
  | none => if x.broken then wd (2 ^ 30) else 0

/-- A write to a semaphore's release word (R369). -/
def Dev.semRelease (d : Dev) (holder s : Nat) : Dev :=
  if (d.sem s).holder = some holder then d.setSem s ⟨none, false⟩ else d.badRelease (semBase + 0x100 * s) holder

/-- A read of the bank at an offset (R369): acquire at 0x00, status at 0x04, 0 elsewhere. A read while the unit is
disabled returns 1 (R371). -/
def Dev.semRead (d : Dev) (holder off : Nat) : Word × Dev :=
  let s := off / 0x100
  if off % 0x100 = 0 then d.semAcquire holder s
  else if !d.rb Reg.LKU_CTL 16 then (1, d)
  else if off % 0x100 = 4 then ((d.sem s).status, d)
  else (0, d)

/-- A write of the bank at an offset (R369). -/
def Dev.semWrite (d : Dev) (holder off : Nat) : Dev :=
  if off % 0x100 = 4 then d.semRelease holder (off / 0x100) else d

/-- The releases that a holder issued before it ended, and that are still on their way, reach the lock unit first: a word's
effects come in program order (R73, R360). -/
def Dev.flushReleases (d : Dev) (holder : Nat) : Dev :=
  if d.lku.reqs.any (fun r => r.releases holder) then
    (d.lku.reqs.filter (fun r => r.releases holder)).foldl
      (fun (d : Dev) r =>
        if semBase ≤ r.addr ∧ r.addr < semBase + 0x10000 then d.semWrite r.holder (r.addr - semBase)
        else d.lockRelease (r.addr / 4) r.holder)
      { d with lku := { d.lku with reqs := d.lku.reqs.filter (fun r => !r.releases holder) } }
  else d

/-- A holder ends (R367): what it released before is free; every lock and semaphore that it still holds is released
broken. -/
def Dev.breakHolder (d : Dev) (holder : Nat) : Dev := (d.flushReleases holder).breakHeld holder

/-- A waiter's acquire ends at its limit with code 2 (R364). -/
def Dev.lockTimeout (d : Dev) (now t : Nat) : Dev :=
  let hit := fun (w : Waiter) => decide (w.thread = t ∧ w.until_ ≤ now)
  let out := fun (d : Dev) (k : Nat) (w : Waiter) =>
    (((d.bump Reg.LKU_TIMEOUT_CNT 1).lkuCapture 0 (4 * k) w.holder).raise Src.lkuWaitTimeout w.holder).lockReply
      w.thread w.holder 2
  match d.lku.locks.find? (fun e => e.2.waiters.any hit) with
  | some (k, l) =>
    match l.waiters.find? hit with
    | some w => out (d.setLock k { l with waiters := l.waiters.filter (fun x => !hit x) }) k w
    | none => d
  | none =>
    match d.lku.entryWait.find? (fun e => hit e.2) with
    | some (k, w) =>
      out { d with lku := { d.lku with entryWait := d.lku.entryWait.filter (fun e => !hit e.2) } } k w
    | none => d

/-- The request at the head of the unit's input is taken (R360). -/
def Dev.popLockReq (d : Dev) : Dev := { d with lku := { d.lku with reqs := d.lku.reqs.tail } }

/-- An acquire reaches the lock unit (R359 to R362); code 4 while it is disabled. -/
def lockAcquireStep (now : Nat) (d : Dev) : Dev :=
  match d.lku.reqs with
  | r :: _ =>
    if r.acquire then
      let d := d.popLockReq
      if !d.rb Reg.LKU_CTL 16 then d.lockReply r.thread r.holder 4
      else d.lockAcquire (r.addr / 4) ⟨r.thread, r.holder, now + 1000 * d.rf Reg.LKU_CTL 15 0⟩
    else d
  | [] => d

/-- A release reaches the lock unit (R360, R361). -/
def lockReleaseStep (d : Dev) : Dev :=
  match d.lku.reqs with
  | r :: _ => if r.acquire then d else d.popLockReq.lockRelease (r.addr / 4) r.holder
  | [] => d

/-- LKU_PROBE_STATUS of the lock at an address (R371). -/
def Dev.probeStatus (d : Dev) (addr : Nat) : Word :=
  let l := d.lock (addr / 4)
  wd (b2n l.holder.isSome * 2 ^ 31 + b2n l.broken * 2 ^ 30 + l.waiters.length % 2 ^ 11 * 2 ^ 16 + l.holder.getD 0)

/-- A write to LKU_PROBE_ADDR_HI samples the lock at the probe address (R371). -/
def lockProbe (hi : Word) (d : Dev) : Dev :=
  let d := d.setReg Reg.LKU_PROBE_ADDR_HI (wd (fld hi 15 0))
  d.setReg Reg.LKU_PROBE_STATUS
    (d.probeStatus ((d.reg Reg.LKU_PROBE_ADDR_LO).toNat + fld hi 15 0 * 2 ^ 32))

end Sys2Proof.Machine
end

