-- ==== Sys2Proof/Machine/Ops.lean ====
section
/-!
DEFINITION. The shared operations of a thread: issuing a word, taking a trap and entering a handler (R113 to R116,
R119, R123), ending a task and stopping a thread (R148), and the debug matches of R555.
-/

namespace Sys2Proof.Machine

/-! Ending a task. -/

/-- A thread that holds nothing any more: stopped, its open message discarded (R237). -/
def Thread.idle (th : Thread) : Thread :=
  { th with run := .stopped, task := none, fly := [], load := none, msg := none, slot := .none, saving := none,
            repLeft := 0, repAddr := 0 }

/-- The record that waits for a thread being saved is no longer reserved, and the save slot is free (R143, R149). -/
def Dev.cancelSave (d : Dev) (t : Nat) : Dev :=
  match (d.thr t).saving with
  | none => d
  | some n =>
    let rk := 1024 * clusterOf t + n / 64
    let sk := 64 * clusterOf t + n % 64
    let d := match tget none d.esl.recs rk with
      | some r => { d with esl := { d.esl with recs := tset none d.esl.recs rk (some { r with taken := false }) } }
      | none => d
    { d with esl := { d.esl with saves := tset false d.esl.saves sk false } }

/-- A thread stops: it holds no task and waits for nothing. -/
def Dev.stopThread (d : Dev) (t : Nat) : Dev := ((d.dropWait t).cancelSave t).updThr t Thread.idle

/-- A task or record without a transaction is deleted and counted (R150, R153). -/
def Dev.countLost (d : Dev) (c : Nat) : Dev := d.bumpSat (Reg.CLU_LOST_CNT c) 32 1

/-- A thread's task dies by a double trap or without a handler (R115, R116, R367): its locks break; a transaction
aborts with cause 0xC; a task without one is deleted and counted. The Easel regains the thread. -/
def Dev.killTask (d : Dev) (t : Nat) : Dev :=
  let th := d.thr t
  let d := d.breakHolder (d.holderId t)
  match th.task with
  | some k =>
    if k.hasTxn then (d.abortTxn (256 * clusterOf t + k.txn) 0xC).stopThread t
    else ((d.endTaskToks (clusterOf t) th.tid).countLost (clusterOf t)).stopThread t
  | none => (d.endTaskToks (clusterOf t) th.tid).stopThread t

/-! Traps. -/

/-- The destination of the branch whose delay slot a thread is at (R82 ebta). -/
def Thread.slotDest (th : Thread) : Option Word :=
  match th.slot with
  | .none => none
  | .branch dest => some dest
  | .eret => some th.epc

/-- The registers a trap or interrupt writes (R113, R119): epc, ecause, etval, estat, ebta and rcnt; on the Atelier
s and ie are saved and the core enters supervisor mode with ie = 0. -/
def Thread.enter (th : Thread) (atl : Bool) (ecause etval : Word) (kind : Nat) (sys : Bool) : Thread :=
  let rep := decide (th.repLeft.toNat ≠ 0)
  { th with
    epc := th.pc
    ecause := ecause
    etval := etval
    estat := wd (b2n sys * 2 ^ 6 + kind * 2 ^ 4 + b2n (atl && th.super) * 2 ^ 3 + b2n rep * 2 ^ 2
      + b2n th.slotDest.isSome * 2 + 1)
    ebta := th.slotDest.getD th.ebta
    rcnt := if rep then th.repLeft else th.rcnt
    sstatus := if atl then setBit (setBit (setBit th.sstatus 3 (bit th.sstatus 1)) 1 false) 0 true else th.sstatus }

/-- A thread at a word with nothing pending: no delay slot, repeat, check or load. -/
def Thread.settle (th : Thread) (pc : Word) : Thread :=
  { th with pc := pc, slot := .none, repLeft := 0, repAddr := 0, fly := [], load := none, run := .running }

/-- The report of a double trap, or of a trap without a handler (R115, R116, R580). -/
def Dev.raiseTrapFault (d : Dev) (t : Nat) : Dev :=
  if isAtl t then d.raise Src.atlDoubleTrap (t - 1536)
  else d.raise Src.coreDoubleTrap ((coreIn t * 8 + thIdx t) * 2 ^ 8 + clusterOf t)

/-- A trap (R113 to R116, R119): with a handler the registers are written and the thread continues at
tvb + cause × 0x40; without one, or inside a handler, the thread, its task or the core ends as R115 and R116 state. R115
does not say whether a double trap writes epc, ecause, etval and estat: they are left as they are (DESIGN CHOICE, log
entry 108). -/
def Dev.takeTrap (d : Dev) (t : Nat) (x : Trap) : Dev :=
  let th := d.thr t
  if th.intrap then
    let d := d.raiseTrapFault t
    if isAtl t then (d.breakHolder (d.holderId t)).stopThread t else d.killTask t
  else
    let th' := th.enter (isAtl t) (wd x.cause) x.etval x.kind x.sys
    if th.tvb.toNat / 2 ^ 11 ≠ 0 then
      d.setThr t (th'.settle (wd (th.tvb.toNat / 2 ^ 11 * 2 ^ 11 + x.cause * 0x40)))
    else
      let d := d.setThr t { th' with slot := .none, repLeft := 0, repAddr := 0, fly := [], load := none }
      if d.masterManaged t then
        ((d.endTaskToks (clusterOf t) th.tid).breakHolder (d.holderId t)).stopThread t
      else if isAtl t then ((d.raiseTrapFault t).breakHolder (d.holderId t)).stopThread t
      else (d.raiseTrapFault t).killTask t

/-- A trap whose etval holds the word (R112). -/
def Dev.trapWord (d : Dev) (t cause : Nat) (w : Word) : Dev := d.takeTrap t ⟨cause, 0, false, w⟩

/-- The return from a trap (R114): it takes effect after its delay slot, in `Thread.advance`. -/
def Thread.eret (th : Thread) : Thread := { th with slot := .eret, pc := th.pc + 4 }

/-- An interrupt at a word boundary (R123): it enters at tvb + 0x400 with ecause[31] = 1 and the line in [4:0]. What else it
leaves, R123 does not say: etval 0, estat.kind 0 and estat.intrap 1 as a trap's entry, at 0x400 where tvb is 0, and inside
a handler too, with no double trap (DESIGN CHOICE, log entry 109). -/
def Dev.takeInterrupt (d : Dev) (t line : Nat) : Dev :=
  let th := d.thr t
  let th' := th.enter true (wd (2 ^ 31 + line % 32)) 0 0 false
  d.setThr t (th'.settle (wd (th.tvb.toNat / 2 ^ 11 * 2 ^ 11 + 0x400)))

/-! Debug matches (R555, R558). The breakpoints and watchpoints of core n are kept apart from the register window. -/

/-- The key at which a core's breakpoint or watchpoint register is held. -/
def dbgKey (core off : Nat) : Nat := (core + 1) * 2 ^ 27 + off

/-- The mask bit of a thread in a breakpoint's thread mask. -/
def dbgThread (t : Nat) : Nat := if isAtl t then 0 else thIdx t

/-- The breakpoint control word that a fetch at a thread's pc matches, if any (R555). -/
def Dev.bpMatch (d : Dev) (t : Nat) : Option Word :=
  let core := coreOf t
  ((List.range 4).map (fun k => (d.reg (dbgKey core (Reg.DBG_BP_ADDR k)), d.reg (dbgKey core (Reg.DBG_BP_CTL k))))).find?
    (fun e => bit e.2 31 && bit e.2 (dbgThread t) && decide (e.1 = (d.thr t).pc)) |>.map (·.2)

/-- The watchpoint control word that a data access matches, if any (R555). -/
def Dev.wpMatch (d : Dev) (t : Nat) (store : Bool) (va : Nat) : Option Word :=
  let core := coreOf t
  let hit := fun (k : Nat) =>
    let a := (d.reg (dbgKey core (Reg.DBG_WP_ADDR k))).toNat
    let m := (d.reg (dbgKey core (Reg.DBG_WP_MASK k))).toNat
    let c := d.reg (dbgKey core (Reg.DBG_WP_CTL k))
    if bit c 31 && bit c (dbgThread t) && bit c (if store then 27 else 28) && decide (a &&& m = va &&& m) then some c
    else none
  match hit 0 with
  | some c => some c
  | none => hit 1

/-- Whether a matching breakpoint or watchpoint keeps the word from its effect (R555): it traps, or halts a thread that debug
does not step. -/
def Dev.stopsAt (d : Dev) (t : Nat) (m : Option Word) : Bool :=
  m.any (fun c => !bit c 30 || decide ((d.thr t).dbg = .none))

/-- A debug halt is requested of a thread (R552, R553); it completes at HALT_COMPLETE. R555 halts before the matching word
has any effect, R98 never halts between a branch and its delay slot: a match on a slot word halts after it (DESIGN CHOICE, log
entry 146). -/
def Dev.askHalt (d : Dev) (t : Nat) (abort : Bool) : Dev := d.updThr t (fun th => { th with dbg := .pending abort })

/-! Issuing a word. -/

/-- Whether the clock of a thread's core runs: KCLK of its cluster, or ACLK (R45). -/
def Dev.coreClocked (d : Dev) (t : Nat) : Bool :=
  if isAtl t then d.rb Reg.GLB_CLK_STATUS 27 else d.rb Reg.GLB_CLK_STATUS (clusterOf t)

/-- Whether a thread's transaction, if it has one, is still running (R108, R149). -/
def Dev.txnRuns (d : Dev) (t : Nat) : Bool :=
  match txnKey t (d.thr t) with
  | some k => decide ((d.txn k).phase = .active)
  | none => true

/-- Whether nothing a thread has issued holds its next word back: no load, and no check that traps or leaves a brush
function unconfirmed (R73, R108, R219; log entry 21). -/
def Thread.clear (th : Thread) : Bool := th.load.isNone && th.fly.all (fun f => decide (f = .ok))

/-- Whether debug or a save in progress lets a thread issue (R98, R142, R552). -/
def Thread.free (th : Thread) : Bool :=
  let inSlot := decide (th.slot ≠ .none)
  (th.saving.isNone || inSlot) && match th.dbg with
    | .none | .stepping _ => true
    | .pending _ => inSlot
    | .halted _ => false

/-- Whether a thread's next word can issue (R72 to R74). -/
def Dev.issuable (d : Dev) (t : Nat) : Bool :=
  let th := d.thr t
  decide (th.run = .running) && th.clear && th.free && d.coreClocked t && d.txnRuns t && d.fetchHit t

/-- After a word: a single step halts again once no delay slot is owed (R552). -/
def Dev.stepped (d : Dev) (t : Nat) : Dev :=
  let th := d.thr t
  match th.dbg with
  | .stepping a => if th.slot = .none then d.setThr t { th with dbg := .pending a } else d
  | _ => d

/-- A word issues on a thread: nothing happens while it cannot issue; a breakpoint traps or halts before the word has
any effect (R555), but does not halt the word of a single step again; otherwise the word's own effect follows. -/
def Dev.issue (d : Dev) (t : Nat) (body : Dev → Dev) : Dev :=
  if d.issuable t then
    match d.bpMatch t with
    | some c =>
      if !bit c 30 then d.takeTrap t ⟨7, 0, false, (d.thr t).pc⟩
      else if (d.thr t).dbg = .none then d.askHalt t (bit c 29)
      else (body d).stepped t
    | none => (body d).stepped t
  else d

/-- A word that only changes its thread's registers, and then goes on to the next word. -/
def Dev.retire (d : Dev) (t : Nat) (f : Thread → Thread) : Dev :=
  d.updThr t (fun th => (f th).advance (isAtl t))

/-- A word that traps with cause 0x01 if a check fails, and has its effect otherwise (R77, R89). -/
def Dev.legal (d : Dev) (t : Nat) (ok : Bool) (w : Word) (body : Dev → Dev) : Dev :=
  if ok then body d else d.trapWord t 1 w

end Sys2Proof.Machine
end

