-- ==== Sys2Proof/Machine/Palette.lean ====
section
/-!
DEFINITION. The Palette (R298 to R318): pools and handles, descriptors and chains, allocation under reserves and caps,
the share functions with their rejections, egress release and header cells.
-/

namespace Sys2Proof.Machine

/-! Pools and handles (R299 to R301). -/

/-- The pool of a handle. -/
def hPool (h : Word) : Nat := fld h 31 28
/-- The index of a handle. -/
def hIdx (h : Word) : Nat := fld h 27 0
/-- The handle of an index of a pool. -/
def mkHandle (p i : Nat) : Word := wd (p * 2 ^ 28 + i)

def Dev.poolValid (d : Dev) (p : Nat) : Bool := d.rb (Reg.PAL_POOL_W0 p) 31
def Dev.poolDram (d : Dev) (p : Nat) : Bool := d.rb (Reg.PAL_POOL_W0 p) 30
def Dev.poolSize (d : Dev) (p : Nat) : Nat := d.rf (Reg.PAL_POOL_W0 p) 4 0
def Dev.poolBase (d : Dev) (p : Nat) : Nat :=
  d.rf (Reg.PAL_POOL_W1 p) 31 8 * 2 ^ 8 + d.rf (Reg.PAL_POOL_W2 p) 15 0 * 2 ^ 32
def Dev.poolCount (d : Dev) (p : Nat) : Nat := d.rf (Reg.PAL_POOL_W3 p) 27 0
/-- The fallback pool, if there is one. -/
def Dev.poolNext (d : Dev) (p : Nat) : Option Nat :=
  if d.rb (Reg.PAL_POOL_W0 p) 12 then some (d.rf (Reg.PAL_POOL_W0 p) 11 8) else none

/-- The charge of a buffer (R306); `free` while no one holds it. -/
def Dev.charge (d : Dev) (h : Word) : Charge := tget .free d.pal.charge h.toNat

/-- Whether a handle is valid (R301): index 0 never; above the count only while the buffer is held or parked. -/
def Dev.hValid (d : Dev) (h : Word) : Bool :=
  d.poolValid (hPool h) && decide (hIdx h ≠ 0) &&
    (decide (hIdx h ≤ d.poolCount (hPool h)) || decide (d.charge h ≠ .free))

/-- The internal address of a buffer (R299). -/
def Dev.bufAddr (d : Dev) (h : Word) : Nat := d.poolBase (hPool h) + (hIdx h - 1) * 2 ^ d.poolSize (hPool h)

/-- The link-memory entry of a packet-memory buffer: its first cell (R300). -/
def Dev.linkKey (d : Dev) (h : Word) : Nat := (d.bufAddr h - pmBase) / 256

/-- A buffer's descriptor (R300, R302): in link memory, or in DRAM below the pool's base. -/
def Dev.desc (d : Dev) (h : Word) : Nat :=
  if d.poolDram (hPool h) then d.memLe (d.poolBase (hPool h) - 8 * hIdx h) 8
  else (tget 0 d.pal.link (d.linkKey h)).toNat

/-- The device with a buffer's descriptor written. -/
def Dev.setDesc (d : Dev) (h : Word) (v : Nat) : Dev :=
  if d.poolDram (hPool h) then d.memPut (d.poolBase (hPool h) - 8 * hIdx h) 8 v
  else { d with pal := { d.pal with link := tset 0 d.pal.link (d.linkKey h) (BitVec.ofNat 64 v) } }

/-- The fields of a descriptor (R302). -/
structure Desc where
  next : Nat
  state : Nat
  owner : Nat
  shares : Nat
  releaser : Nat
  shared : Bool
  hdr : Bool
  deriving DecidableEq, Repr

/-- The fields of an 8-byte descriptor. -/
def Desc.of (v : Nat) : Desc :=
  let w := v / 2 ^ 32
  { next := v % 2 ^ 32, state := w / 2 ^ 30 % 4, owner := w / 2 ^ 24 % 64, shares := w / 2 ^ 16 % 256,
    releaser := w / 2 ^ 10 % 64, shared := w.testBit 9, hdr := w.testBit 8 }

/-- The 8 bytes of a descriptor as a number. -/
def Desc.enc (x : Desc) : Nat :=
  x.next % 2 ^ 32 + 2 ^ 32 * (x.state % 4 * 2 ^ 30 + x.owner % 64 * 2 ^ 24 + x.shares % 256 * 2 ^ 16
    + x.releaser % 64 * 2 ^ 10 + b2n x.shared * 2 ^ 9 + b2n x.hdr * 2 ^ 8)

/-- Whether a buffer's descriptor lies in DRAM and reads poisoned (R432). -/
def Dev.linkPoisoned (d : Dev) (h : Word) : Bool :=
  d.poolDram (hPool h) && d.dead (d.poolBase (hPool h) - 8 * hIdx h) 8

/-- Whether a buffer's descriptor is in no error: neither quarantined nor poisoned (R317). -/
def Dev.soundBuf (d : Dev) (h : Word) : Bool := !d.pal.quar.contains h && !d.linkPoisoned h

/-- The descriptor of a buffer; one in error marks it quarantined, state 3 (R317). -/
def Dev.ds (d : Dev) (h : Word) : Desc :=
  let x := Desc.of (d.desc h)
  if d.soundBuf h then x else { x with state := 3 }

/-- An access meets a buffer's descriptor: one that reads poisoned quarantines the buffer until reset, and is recorded
(R317, R432). -/
def Dev.meetLink (d : Dev) (h : Word) : Dev :=
  if d.pal.quar.contains h then d
  else
    let bad := d.linkPoisoned h
    let d := if d.poolDram (hPool h) then d.seeDram (d.poolBase (hPool h) - 8 * hIdx h) 8 else d
    if bad then { d with pal := { d.pal with quar := h :: d.pal.quar } }.raise Src.palLinkEcc h.toNat else d
/-- The device with a buffer's descriptor replaced. -/
def Dev.setDs (d : Dev) (h : Word) (x : Desc) : Dev := d.setDesc h x.enc

/-- Whether a buffer is a chain head (R302). -/
def Dev.isHead (d : Dev) (h : Word) : Bool := tget false d.pal.heads h.toNat
/-- The device with a buffer's chain-head mark. -/
def Dev.setHead (d : Dev) (h : Word) (b : Bool) : Dev :=
  { d with pal := { d.pal with heads := tset false d.pal.heads h.toNat b } }

/-! Counts (R306). -/

/-- The index of a charge in the use counts. -/
def Charge.ix : Charge → Nat
  | .shared => 0
  | .reserve => 1
  | .repl => 2
  | .free => 3

/-- The key of a use count: owner, pool and charge. -/
def usedKey (o p : Nat) (c : Charge) : Nat := (o * 16 + p) * 4 + c.ix

/-- Buffers an owner holds in a pool under a charge: sh_used, res_used, and the replication reserve in use. -/
def Dev.used (d : Dev) (o p : Nat) (c : Charge) : Nat := tget 0 d.pal.used (usedKey o p c)
/-- The device with a use count. -/
def Dev.setUsed (d : Dev) (o p : Nat) (c : Charge) (n : Nat) : Dev :=
  { d with pal := { d.pal with used := tset 0 d.pal.used (usedKey o p c) n } }

def Dev.ownMin (d : Dev) (o p : Nat) : Nat := d.rf (Reg.PAL_OWN_W0 o p) 27 0
def Dev.ownRepl (d : Dev) (o p : Nat) : Nat := d.rf (Reg.PAL_OWN_W1 o p) 27 0
def Dev.ownCap (d : Dev) (o p : Nat) : Nat := d.rf (Reg.PAL_OWN_W2 o p) 27 0

/-- A sum over the 64 owners. -/
def sumOwners (f : Nat → Nat) : Nat := (List.range 64).foldl (fun n o => n + f o) 0

/-- The reserves of a pool: Σ min + Σ repl. -/
def Dev.reserves (d : Dev) (p : Nat) : Nat := sumOwners (fun o => d.ownMin o p + d.ownRepl o p)

/-- The shared remainder of a pool, in buffers (R306). -/
def Dev.remainder (d : Dev) (p : Nat) : Nat := d.poolCount p - d.reserves p

/-- Whether the shared remainder of a pool has a free buffer. -/
def Dev.shFree (d : Dev) (p : Nat) : Bool :=
  decide (sumOwners (fun o => d.used o p .shared) < d.remainder p)

/-- Whether a buffer may be allocated: free, not quarantined and not withheld (R310, R311, R317). -/
def Dev.bufFree (d : Dev) (h : Word) : Bool :=
  decide (d.charge h = .free) && d.soundBuf h && !(d.pal.withheld.any (fun e => decide (e.1 = h)))

/-- The descriptor of an index that a raised count adds is empty (R316); a buffer still held from before, and a quarantined
one (R317), stay as they are. -/
def Dev.newBuf (d : Dev) (h : Word) : Dev :=
  if d.charge h ≠ .free ∨ h ∈ d.pal.quar then d else d.setDesc h 0

/-! Allocation (R307 to R311). -/

/-- Takes a buffer of a pool for an owner under a charge: which free buffer is left open (R311, log entry 2). -/
def Dev.take (d : Dev) (o p : Nat) (c : Charge) : Option (Word × Dev) :=
  let n := d.poolCount p
  let (s, d) := d.pick n
  match findCyclic (fun i => d.bufFree (mkHandle p (i + 1))) s n with
  | none => none
  | some i =>
    let h := mkHandle p (i + 1)
    let d := { d with pal := { d.pal with charge := tset .free d.pal.charge h.toNat c } }
    let d := d.setUsed o p c (d.used o p c + 1)
    some (h, d.setDs h { next := 0, state := 1, owner := o, shares := 0, releaser := 0, shared := false, hdr := false })

/-- Takes a buffer of one pool: from the reserve if it has room, else from the shared remainder within the cap
(R307, R308). -/
def Dev.takePool (d : Dev) (repl : Bool) (o p : Nat) : Option (Word × Dev) :=
  let res := if repl then Charge.repl else Charge.reserve
  let room := if repl then d.ownRepl o p else d.ownMin o p
  let first := if d.used o p res < room then d.take o p res else none
  match first with
  | some x => some x
  | none => if d.used o p .shared < d.ownCap o p ∧ d.shFree p then d.take o p .shared else none

/-- An allocation through a pool and its fallbacks, at most 4 pools (R307). -/
def Dev.allocFrom (d : Dev) (repl : Bool) (o : Nat) : (fuel p : Nat) → Option (Word × Dev)
  | 0, _ => none
  | n + 1, p =>
    if !d.poolValid p then none
    else match d.takePool repl o p with
      | some x => some x
      | none => match d.poolNext p with
        | some q => d.allocFrom repl o n q
        | none => none

/-- One buffer for an owner from a pool (R307, R318: while PAL_CTL.enable is 0 every allocation fails). -/
def Dev.alloc (d : Dev) (repl : Bool) (o p : Nat) : Option (Word × Dev) :=
  if d.rb Reg.PAL_CTL 0 then d.allocFrom repl o 4 p else none

/-! Chains (R302). -/

/-- The buffers of a chain from a handle: to the end, or to the next buffer that is itself a chain head (R315). -/
def Dev.chainFrom (d : Dev) : (fuel : Nat) → Word → List Word
  | 0, _ => []
  | n + 1, h =>
    let nx := wd (d.ds h).next
    if hIdx nx = 0 ∨ d.isHead nx then [h] else h :: d.chainFrom n nx

/-- The buffers of a chain: 65,535 bytes need at most 256 buffers, and a header cell. -/
def Dev.chain (d : Dev) (h : Word) : List Word := if hIdx h = 0 then [] else d.chainFrom 300 h

/-- Whether a freed buffer goes to the first irrevocable request that has none yet (R310): it returned to the shared
remainder of hdr_pool or a fallback of it, or to that packet's owner's own reserve there, and its index is not retired
(R316). -/
def Dev.irrevTakes (d : Dev) (o p i : Nat) (c : Charge) : Bool :=
  let hp := d.rf Reg.PAL_CTL 11 8
  let pools := hp :: ((d.poolNext hp).toList ++ ((d.poolNext hp).bind d.poolNext).toList
    ++ (((d.poolNext hp).bind d.poolNext).bind d.poolNext).toList)
  match d.pal.irrevWait[d.pal.withheld.length]? with
  | some k => decide (p ∈ pools) && decide (i ≤ d.poolCount p)
      && (decide (c = .shared) || (decide (c = .reserve) && decide (o = (d.txn k).owner)))
  | none => false

/-- A buffer with a new descriptor and no head mark, and the Palette's lists changed with it. -/
def Dev.settleBuf (d : Dev) (h : Word) (x : Desc) (f : Pal → Pal) : Dev :=
  let d := (d.setDs h x).setHead h false
  { d with pal := f d.pal }

/-- A buffer freed: its owner is credited under the charge it came from (R309); a quarantined one stays (R317). One that
an irrevocable request takes is charged to that packet's owner at once, under the source it came from (R310). -/
def Dev.freeBuf (d : Dev) (h : Word) : Dev :=
  let x := d.ds h
  let c := d.charge h
  let p := hPool h
  if x.state = 3 then d.meetLink h
  else
    let wh := d.irrevTakes x.owner p (hIdx h) c
    let d := d.setUsed x.owner p c (d.used x.owner p c - 1)
    if wh then
      let o := ((d.pal.irrevWait[d.pal.withheld.length]?).map (fun k => (d.txn k).owner)).getD x.owner
      let d := d.setUsed o p c (d.used o p c + 1)
      d.settleBuf h { next := 0, state := 1, owner := o, shares := 0, releaser := 0, shared := false, hdr := false }
        fun q => { q with withheld := q.withheld ++ [(h, c)] }
    else
      d.settleBuf h { x with next := 0, state := 0, shares := 0, releaser := 0, shared := false, hdr := false }
        fun q => { q with charge := tset .free q.charge h.toNat .free }

/-- The wait of an irrevocable request ends without a commit (R310): a buffer it took is freed. -/
def Dev.endIrrevWait (d : Dev) (key : Nat) : Dev :=
  let i := d.pal.irrevWait.idxOf key
  let got := if i < d.pal.irrevWait.length then d.pal.withheld[i]? else none
  let d := { d with pal := { d.pal with irrevWait := d.pal.irrevWait.erase key } }
  match got with
  | some (h, _) => ({ d with pal := { d.pal with withheld := d.pal.withheld.eraseIdx i } }).freeBuf h
  | none => d

/-- A chain freed, header cell included (R312). -/
def Dev.freeChain (d : Dev) (h : Word) : Dev := (d.chain h).foldl Dev.freeBuf d

/-- Whether a chain holds a quarantined buffer (R317). -/
def Dev.quarantined (d : Dev) (h : Word) : Bool := (d.chain h).any (fun b => decide ((d.ds b).state = 3))

/-- Buffers for n bytes, linked; none if an allocation fails, with every buffer returned (R309). -/
def Dev.allocBufs (d : Dev) (o p : Nat) : (fuel need : Nat) → List Word → Option (List Word × Dev)
  | 0, _, _ => none
  | f + 1, need, got =>
    if need = 0 then some (got, d)
    else match d.alloc false o p with
      | none => none
      | some (h, d) => d.allocBufs o p f (need - 2 ^ d.poolSize (hPool h)) (got ++ [h])

/-- Links buffers into a chain. -/
def Dev.linkAll (d : Dev) : List Word → Dev
  | [] => d
  | [_] => d
  | a :: b :: r => (d.setDs a { d.ds a with next := b.toNat }).linkAll (b :: r)

/-- A chain for n bytes, at least one buffer: its head, and the device; none if an allocation fails. -/
def Dev.allocChain (d : Dev) (o p n : Nat) : Option (Word × Dev) :=
  match d.allocBufs o p 260 (max n 1) [] with
  | some (h :: r, d) => some (h, (d.linkAll (h :: r)).setHead h true)
  | _ => none

/-- Bytes written into the buffers of a chain in order. -/
def Dev.fillBufs (d : Dev) : List Word → List Byte → Dev
  | [], _ => d
  | h :: r, bs =>
    let n := 2 ^ d.poolSize (hPool h)
    (d.memWrite (d.bufAddr h) (bs.take n)).fillBufs r (bs.drop n)

/-- The bytes that a list of buffers holds, in order. -/
def Dev.bufBytes (d : Dev) : List Word → List Byte
  | [] => []
  | h :: r => d.memRead (d.bufAddr h) (2 ^ d.poolSize (hPool h)) ++ d.bufBytes r

/-- The first n payload bytes of a chain: every buffer but a header cell (R303). -/
def Dev.payload (d : Dev) (h : Word) (n : Nat) : List Byte :=
  let bufs := match d.chain h with
    | a :: r => if (d.ds a).hdr then
        (match r with
         | [] => d.chain (wd (d.ds a).next)
         | _ => r)
      else a :: r
    | [] => []
  let bufs := match bufs with
    | a :: r => if (d.ds a).hdr then r else a :: r
    | [] => []
  (d.bufBytes bufs).take n

/-! Share functions and rejections (R312 to R314). -/

/-- The Palette functions as PAL_REJECT_STATUS codes them (R318). -/
inductive PalFn where
  | pshare
  | pdrop
  | pfree
  | pswap
  | egress
  deriving DecidableEq, Repr

def PalFn.code : PalFn → Nat
  | .pshare => 0
  | .pdrop => 1
  | .pfree => 2
  | .pswap => 3
  | .egress => 4

/-- A rejected function: counted, captured if it is the first, and reported (R313). -/
def Dev.palReject (d : Dev) (f : PalFn) (owner : Nat) (h : Word) (reason : Nat) : Dev :=
  let d := d.bump Reg.PAL_REJECT_CNT 1
  let d := if d.rb Reg.PAL_REJECT_STATUS 31 then d.setRb Reg.PAL_REJECT_STATUS 30 true
    else (d.setReg Reg.PAL_REJECT_STATUS (wd (2 ^ 31 + b2n (d.rb Reg.PAL_REJECT_STATUS 30) * 2 ^ 30 + owner * 2 ^ 16
      + f.code * 2 ^ 8 + reason))).setReg Reg.PAL_REJECT_HANDLE h
  d.raise Src.palBadFree (owner * 2 ^ 16 + f.code * 2 ^ 8 + reason)

/-- The descriptors of a chain are met (R317). -/
def Dev.meetLinks (d : Dev) (h : Word) : Dev := (d.chain h).foldl Dev.meetLink d

/-- The rejection of a head: invalid handle, a released buffer, or not a chain head (R313). -/
def Dev.headFault (d : Dev) (h : Word) (parkedOk : Bool) : Option Nat :=
  if !d.hValid h then some 4
  else
    let s := (d.ds h).state
    if s = 0 ∨ s = 3 then some 1
    else if !d.isHead h then some 4
    else if s = 2 ∧ !parkedOk then some 1
    else none

/-- pshare k with a releaser owner (R312). -/
def Dev.pshare (d : Dev) (a : Nat) (h : Word) (k releaser : Nat) : Dev :=
  let d := if d.hValid h then d.meetLink h else d
  match d.headFault h false with
  | some r => d.palReject .pshare a h r
  | none =>
    let x := d.ds h
    if 255 < x.shares + k then d.palReject .pshare a h 3
    else d.setDs h { x with shares := x.shares + k, shared := true, releaser := if x.shared then x.releaser else releaser }

/-- pdrop (R312): the last share of a parked chain frees it. -/
def Dev.pdropAs (d : Dev) (f : PalFn) (a : Nat) (h : Word) : Dev :=
  let d := if d.hValid h then d.meetLink h else d
  match d.headFault h true with
  | some r => d.palReject f a h r
  | none =>
    let x := d.ds h
    if x.shares = 0 then d.palReject f a h 2
    else if x.shares = 1 ∧ x.state = 2 then d.freeChain h
    else d.setDs h { x with shares := x.shares - 1 }

/-- pfree (R312): a shared head only by its releaser; with shares outstanding it is parked. -/
def Dev.pfreeAs (d : Dev) (f : PalFn) (a : Nat) (h : Word) : Dev :=
  let d := if d.hValid h then d.meetLink h else d
  match d.headFault h false with
  | some r => d.palReject f a h r
  | none =>
    let x := d.ds h
    if !x.shared then d.freeChain h
    else if a ≠ x.releaser then d.palReject f a h 2
    else if x.shares = 0 then d.freeChain h
    else d.setDs h { x with state := 2 }

/-- pswap of chain c under the header cell of the packet's own head (R312); `own` says the handle names it. -/
def Dev.pswap (d : Dev) (a : Nat) (h c : Word) (own : Bool) : Dev :=
  if !own then d.palReject .pswap a h 4
  else match d.headFault h false with
    | some r => d.palReject .pswap a h r
    | none =>
      match d.headFault c false with
      | some _ => d.palReject .pswap a h 5
      | none =>
        if (d.ds c).owner ≠ (d.ds h).owner then d.palReject .pswap a h 5
        else
          let d := ((d.chain h).drop 1).foldl Dev.freeBuf d
          (d.setDs h { d.ds h with next := c.toNat }).setHead c false

/-- One release of a chain head by an owner: an egress release, a drop, a discard or a void (R314). A chain whose head is
quarantined is released with the rest of its buffers freed (R317), once. -/
def Dev.release (d : Dev) (e : Nat) (h : Word) : Dev :=
  let d := if d.hValid h then d.meetLinks h else d
  let x := d.ds h
  if d.hValid h && decide (x.state = 3) then
    (((d.chain h).drop 1).foldl Dev.freeBuf d).setDs h { x with next := 0 }
  else if !x.shared then d.pfreeAs .egress e h
  else if e = x.releaser ∧ x.state = 1 then d.pfreeAs .egress e h
  else d.pdropAs .egress e h

/-! Header cells (R303). -/

/-- The header cell written and made the chain's new head, share state moved from the former head (R303). -/
def Dev.putHeader (d : Dev) (cell old : Word) (hdr : List Byte) (prefix_ skip : Nat) : Dev :=
  let x := d.ds old
  let a := d.bufAddr cell
  let d := d.memWrite a hdr
  let d := d.memPut (a + 0xF8) 4 (prefix_ * 2 ^ 16 + hdr.length % 256)
  let d := d.memPut (a + 0xFC) 4 skip
  let d := d.setDs cell { d.ds cell with
    next := old.toNat, shares := x.shares, releaser := x.releaser, shared := x.shared, hdr := true }
  let d := d.setDs old { x with shares := 0, releaser := 0, shared := false }
  (d.setHead cell true).setHead old false

/-- The owner of a port (R304), for heritage ports the owner of the engine that serves them. -/
def Dev.portOwner (d : Dev) (p : Nat) : Nat :=
  if p < 32 then p / 4
  else if p < 80 then 8 + (p - 32) / 4
  else if p < 112 then 20 + d.rf (Reg.STN_LANE_W0 (p - 80)) 4 0 / 2
  else if p < 128 then 36 + (p - 112)
  else 52 + (p - 128)

end Sys2Proof.Machine
end

