-- ==== Sys2Proof/Machine/Meter.lean ====
section
/-!
DEFINITION. Token buckets (R333), the trTCM meters (R335 to R337) and the counters (R338) of the MTR block.
-/

namespace Sys2Proof.Machine

/-- A bucket level in 2^-16 bytes brought up to date (R333): min(burst, level + rate × Δt ÷ 8,000,000), truncated. -/
def refill (level : Int) (rate burst dt : Nat) : Int :=
  min ((burst * 65536 : Nat) : Int) (level + ((rate * dt * 65536 / 8000000 : Nat) : Int))

/-- A meter's state; nothing configured where none is listed. -/
def Dev.meter (d : Dev) (i : Nat) : Meter := tget ⟨[], 0, 0, 0, false⟩ d.mtr.meters i
/-- The device with a meter replaced. -/
def Dev.setMeter (d : Dev) (i : Nat) (m : Meter) : Dev :=
  { d with mtr := { d.mtr with meters := tset ⟨[], 0, 0, 0, false⟩ d.mtr.meters i m } }

/-- Word i of a meter's configuration. -/
def Meter.w (m : Meter) (i : Nat) : Word := m.cfg.getD i 0
/-- Whether a meter is configured (R228, R355). -/
def Meter.valid (m : Meter) : Bool := bit (m.w 0) 31

/-- A configuration's words, written bits only (R355). -/
def meterWords (ws : List Word) : List Word :=
  [wd (fld (ws.getD 0 0) 31 28 * 2 ^ 28 + fld (ws.getD 0 0) 23 0), wd (fld (ws.getD 1 0) 28 0),
   wd (fld (ws.getD 2 0) 28 0), wd (fld (ws.getD 3 0) 23 0)]

/-- Whether a meter configuration is invalid: RFC 2698 with pir below cir (R335). -/
def meterBad (ws : List Word) : Bool :=
  let w0 := ws.getD 0 0
  bit w0 31 && !bit w0 30 && decide (fld (ws.getD 2 0) 28 0 < fld (ws.getD 1 0) 28 0)

/-- A meter written: both buckets are filled (R335). -/
def meterSet (now : Nat) (ws : List Word) : Meter :=
  let c := meterWords ws
  { cfg := c, tc := ((fld (c.getD 0 0) 23 0 * 65536 : Nat) : Int), tp := ((fld (c.getD 3 0) 23 0 * 65536 : Nat) : Int), last := now,
    lost := false }

/-- A meter with both buckets refilled at a time (R336). -/
def Meter.fill (m : Meter) (now : Nat) : Meter :=
  let cbs := fld (m.w 0) 23 0
  let pbs := fld (m.w 3) 23 0
  let dt := now - m.last
  let tc := refill m.tc (fld (m.w 1) 28 0) cbs dt
  let tp := refill m.tp (fld (m.w 2) 28 0) pbs dt
  let spill := m.tc + ((fld (m.w 1) 28 0 * dt * 65536 / 8000000 : Nat) : Int) - ((cbs * 65536 : Nat) : Int)
  let tp := if bit (m.w 0) 30 && bit (m.w 0) 28 && decide (0 < spill) then min ((pbs * 65536 : Nat) : Int) (tp + spill) else tp
  { m with tc := tc, tp := tp, last := now }

/-- A meter evaluated for B bytes and an input colour (R336): the colour 0 green, 1 yellow, 2 red, and the meter with
the update applied. -/
def Meter.eval (m : Meter) (now len inCol : Nat) : Nat × Meter :=
  let m := m.fill now
  let b : Int := ((len * 65536 : Nat) : Int)
  let col := if bit (m.w 0) 29 then min inCol 2 else 0
  if bit (m.w 0) 30 then
    if col = 0 ∧ b ≤ m.tc then (0, { m with tc := m.tc - b })
    else if col ≠ 2 ∧ b ≤ m.tp then (1, { m with tp := m.tp - b })
    else (2, m)
  else
    if col = 2 ∨ m.tp < b then (2, m)
    else if col = 1 ∨ m.tc < b then (1, { m with tp := m.tp - b })
    else (0, { m with tp := m.tp - b, tc := m.tc - b })

/-- Whether the Meter brush is served and the meter configured (R228, R355). -/
def Dev.meterOn (d : Dev) (i : Nat) : Bool := d.rb Reg.MTR_CTL 0 && (d.meter i).valid

/-- A counter: bytes and packets (R338). -/
def Dev.counter (d : Dev) (i : Nat) : Nat × Nat := tget (0, 0) d.mtr.counters i
/-- The device with a counter replaced. -/
def Dev.setCounter (d : Dev) (i : Nat) (x : Nat × Nat) : Dev :=
  { d with mtr := { d.mtr with counters := tset (0, 0) d.mtr.counters i (x.1 % 2 ^ 64, x.2 % 2 ^ 64) } }

/-- Increments added to a counter; each count wraps at 2^64 (R157, R338). -/
def Dev.addCounter (d : Dev) (i bytes pkts : Nat) : Dev :=
  let x := d.counter i
  d.setCounter i (x.1 + bytes, x.2 + pkts)

end Sys2Proof.Machine
end

