-- ==== Sys2Proof/Machine/HostOps.lean ====
section
/-!
DEFINITION. What every block may ask of the host interface: a posted write, an MSI-X message (R483), an event (R480,
R481), a completion (R477) and the change that a doorbell-block write will report (R470).
-/

namespace Sys2Proof.Machine

/-- A ring group's state. -/
def Dev.grp (d : Dev) (g : Nat) : Grp := tget Grp.reset d.hst.grps g
/-- The device with a ring group replaced. -/
def Dev.setGrp (d : Dev) (g : Nat) (x : Grp) : Dev :=
  { d with hst := { d.hst with grps := tset Grp.reset d.hst.grps g x } }
/-- Whether a group runs: enabled and not in error (R488). -/
def Dev.grpRuns (d : Dev) (g : Nat) : Bool := d.rb (Reg.HST_GRP_W15 g) 31

/-- An Atelier interrupt line shared by the cores becomes pending (R502). -/
def Dev.atlLine (d : Dev) (n : Nat) : Dev := d.setRb Reg.ATL_INT_PEND n true

/-- Whether n bytes of internal memory from an address are all mapped memory (R40, R41). -/
def Dev.dmaMapped (d : Dev) (a n : Nat) : Bool :=
  (List.range n).all (fun i => match d.region (a + i) with
    | .dram | .packet | .lookup | .cluster _ | .atlSram => true
    | _ => false)

/-- A failed DMA transfer of n bytes that does not stop its group (R487): recorded, and captured if it is the first; the first
unmapped byte is captured too (R40). `ring` is as HST_ERR_STATUS codes it, `cause` too. -/
def Dev.dmaFault (d : Dev) (g ring cause addr n : Nat) : Dev :=
  let d := if cause = 5 then d.captureIn 1 addr n else d
  let d := if d.rb Reg.HST_ERR_STATUS 31 then d.setRb Reg.HST_ERR_STATUS 30 true
    else ((d.setReg Reg.HST_ERR_STATUS (wd (2 ^ 31 + b2n (d.rb Reg.HST_ERR_STATUS 30) * 2 ^ 30 + g * 2 ^ 12 + ring * 2 ^ 8
      + cause))).setReg Reg.HST_ERR_ADDR_LO (wd addr)).setReg Reg.HST_ERR_ADDR_HI (wd (addr / 2 ^ 32))
  d.raise Src.hstDmaError g

/-- A DMA write of a group for one of its rings: into host memory, or for group 15 into internal memory, where an
unmapped address fails it (R40, R466, R484). -/
def Dev.dmaWrite (d : Dev) (g ring addr : Nat) (bs : List Byte) : Dev :=
  if g ≠ 15 then { d with hst := { d.hst with posted := d.hst.posted ++ [⟨g, addr, bs, false⟩] } }
  else if d.dmaMapped addr bs.length then d.memWrite addr bs
  else d.dmaFault g ring 5 addr bs.length

/-- A write of packet data: one to host memory carries Relaxed Ordering while HST_CTL.ro_data is 1 (R484). -/
def Dev.dataWrite (d : Dev) (g addr : Nat) (bs : List Byte) : Dev :=
  if g ≠ 15 then { d with hst := { d.hst with posted := d.hst.posted ++ [⟨g, addr, bs, d.rb Reg.HST_CTL 20⟩] } }
  else d.dmaWrite g 1 addr bs

/-- An MSI-X message, or the vector's pending bit while it is masked (R461, R483). -/
def Dev.sendVec (d : Dev) (v : Nat) : Dev :=
  if d.rb (Reg.HST_MSIX_TABLE v 3) 0 then d.setRb (Reg.HST_MSIX_PBA (v / 32)) (v % 32) true
  else
    let a := (d.reg (Reg.HST_MSIX_TABLE v 0)).toNat + (d.reg (Reg.HST_MSIX_TABLE v 1)).toNat * 2 ^ 32
    { d with hst := { d.hst with posted := d.hst.posted ++ [⟨16, a, leBytes 4 (d.reg (Reg.HST_MSIX_TABLE v 2)).toNat, false⟩] } }

/-- The five rings of a group (R463). -/
inductive Ring where
  | inj
  | punt
  | cmd
  | cpl
  | evt
  deriving DecidableEq, Repr

def Ring.ix : Ring → Nat
  | .inj => 0
  | .punt => 1
  | .cmd => 2
  | .cpl => 3
  | .evt => 4

/-- log2 of a ring's entries (R464). -/
def Dev.ringLog (d : Dev) (g : Nat) (r : Ring) : Nat := d.rf (Reg.HST_GRP_W3 g) (5 * r.ix + 4) (5 * r.ix)
/-- A ring's base address. -/
def Dev.ringBase (d : Dev) (g : Nat) (r : Ring) : Nat :=
  (d.reg (Reg.HST_GRP_INJ_BASE_LO g + 8 * r.ix)).toNat + (d.reg (Reg.HST_GRP_INJ_BASE_LO g + 8 * r.ix + 4)).toNat * 2 ^ 32
/-- The address of the entry of an index, for entries of a given size (R464). -/
def Dev.ringEntry (d : Dev) (g : Nat) (r : Ring) (size i : Nat) : Nat :=
  d.ringBase g r + size * (i % 2 ^ d.ringLog g r)
/-- The phase bit of an index (R465). -/
def Dev.phase (d : Dev) (g : Nat) (r : Ring) (i : Nat) : Nat := (i / 2 ^ d.ringLog g r + 1) % 2

/-- Entries between two free-running indices (R464). -/
def ixDiff (p c : Nat) : Nat := (p + 2 ^ 32 - c) % 2 ^ 32
/-- A free-running index advanced. -/
def ixAdd (i n : Nat) : Nat := (i + n) % 2 ^ 32

/-- The EVT descriptor of an event's sequence number and payload (R480). -/
def evtBytes (seq phase : Nat) (payload : List Byte) : List Byte :=
  leBytes 4 seq ++ leBytes 4 (phase * 2 ^ 31) ++ padTo 24 payload

/-- Writes events into consecutive entries of a group's EVT ring. -/
def Dev.writeEvts (d : Dev) (g : Nat) : List (List Byte) → Dev
  | [] => d
  | p :: r =>
    let x := d.grp g
    let i := x.ix.evtProd
    let d := d.dmaWrite g 4 (d.ringEntry g .evt 32 i) (evtBytes x.ix.evtSeq (d.phase g .evt i) p)
    let d := d.setGrp g { x with ix := { x.ix with evtProd := ixAdd i 1, evtSeq := ixAdd x.ix.evtSeq 1 } }
    d.writeEvts g r

/-- Events for a group, written if the ring has room for all of them and otherwise lost; discarded without count while
the group does not run (R481, R482). -/
def Dev.postEvts (d : Dev) (g : Nat) (ps : List (List Byte)) : Dev :=
  if !d.grpRuns g then d
  else
    let x := d.grp g
    let n := ps.length
    if ixDiff x.ix.evtProd x.ix.evtCons + n ≤ 2 ^ d.ringLog g .evt then d.writeEvts g ps
    else ((d.setGrp g { x with ix := { x.ix with evtSeq := ixAdd x.ix.evtSeq n } }).bump (Reg.HST_GRP_CNT g 3) n).raise
      Src.hstEvtLost g

/-- One event for a group. -/
def Dev.postEvt (d : Dev) (g : Nat) (payload : List Byte) : Dev := d.postEvts g [payload]

/-- The MSG events of a message (R482). -/
def msgEvents (ws : List Word) : List (List Byte) :=
  let m := ws.length
  let p := max 1 ((m + 4) / 5)
  (List.range p).map fun j =>
    leBytes 4 (0x50 + m * 2 ^ 8 + (j + (p - 1) * 4) * 2 ^ 16) ++ padTo 20 (wordsBytes ((ws.drop (5 * j)).take 5))

/-! PUNT buffers (R473, R474). -/

/-- The address of a ring descriptor's data (R471, R473). -/
def descAddr (b : List Byte) : Nat := leAt b 0 8
/-- The status a PUNT descriptor earns by its own fields: FIELD, LENGTH or OK (R473). -/
def puntStatus (b : List Byte) : Nat :=
  if leAt b 10 2 ≠ 0 then 4 else if leAt b 8 2 < 64 then 2 else 0

/-- The PUNT descriptors that a packet of n bytes takes, in order, unusable ones included; none if those fetched do not
hold it. -/
def puntTake : List (Nat × List Byte) → Nat → Option (List (Nat × List Byte))
  | _, 0 => some []
  | [], _ + 1 => none
  | e :: r, n + 1 =>
    (puntTake r (if puntStatus e.2 = 0 then n + 1 - leAt e.2 8 2 else n + 1)).map (e :: ·)

/-- The usable descriptors of a group that a packet may take: at most 64, and at most the ring's entries (R474). -/
def Dev.puntUsable (d : Dev) (g : Nat) : List (Nat × List Byte) :=
  ((d.grp g).punt.filter (fun e => decide (puntStatus e.2 = 0))).take (min 64 (2 ^ d.ringLog g .punt))

/-- Whether a packet cannot be held by as many descriptors as it may take, or by all that the ring has entries for, unusable
ones included (R474; log entry 134). -/
def Dev.puntTooLong (d : Dev) (g n : Nat) : Bool :=
  let u := d.puntUsable g
  decide (u.length = min 64 (2 ^ d.ringLog g .punt)) && decide ((u.map (fun e => leAt e.2 8 2)).sum < n)
    || decide ((d.grp g).punt.length = 2 ^ d.ringLog g .punt) && (puntTake (d.grp g).punt n).isNone

/-- Whether a group can take a packet of n bytes now: enough buffers are posted, or it is to be discarded (R474). -/
def Dev.puntReady (d : Dev) (g n : Nat) : Bool := (puntTake (d.grp g).punt n).isSome || d.puntTooLong g n

/-! Message channels (R233, R239). -/

/-- Slots of a channel. -/
def Dev.chanSlots (d : Dev) (ch : Nat) : Nat := 2 ^ d.rf (Reg.CLU_MSG_CFG (ch / 64) (ch % 64)) 3 0
/-- Whether a channel's sink is a ring group. -/
def Dev.chanRing (d : Dev) (ch : Nat) : Bool := d.rb (Reg.CLU_MSG_CFG (ch / 64) (ch % 64)) 24
/-- The internal address of a channel's slot. -/
def Dev.slotAddr (d : Dev) (ch i : Nat) : Nat :=
  cluBase (ch / 64) + d.rf (Reg.CLU_MSG_CFG (ch / 64) (ch % 64)) 18 10 * 1024 + 64 * (i % d.chanSlots ch)
/-- The device with a channel's state replaced. -/
def Dev.setChan (d : Dev) (ch : Nat) (x : Chan) : Dev :=
  { d with brs := { d.brs with chans := tset ⟨0, [], 0, 0⟩ d.brs.chans ch x } }
/-- A channel's state. -/
def Dev.chan (d : Dev) (ch : Nat) : Chan := tget ⟨0, [], 0, 0⟩ d.brs.chans ch

/-- Whether a channel is enabled: configured, and its cluster not out of service (R239, R547). -/
def Dev.chanEnabled (d : Dev) (ch : Nat) : Bool :=
  decide (ch < 1536) && d.rb (Reg.CLU_MSG_CFG (ch / 64) (ch % 64)) 31 && !d.rb (Reg.FLT_UNITS 0) (ch / 64)

/-- Whether a channel has room for a message; a ring sink always takes it (R233). -/
def Dev.chanRoom (d : Dev) (ch : Nat) : Bool := d.chanRing ch || decide ((d.chan ch).lens.length < d.chanSlots ch)

/-- A message appended to a channel with room, or delivered to its ring group (R233, R482). -/
def Dev.chanPush (d : Dev) (ch : Nat) (ws : List Word) : Dev :=
  if d.chanRing ch then d.postEvts (d.rf (Reg.CLU_MSG_CFG (ch / 64) (ch % 64)) 23 20) (msgEvents ws)
  else
    let x := d.chan ch
    (d.memWrite (d.slotAddr ch (x.head + x.lens.length)) (wordsBytes ws)).setChan ch { x with lens := x.lens ++ [ws.length] }

/-- A committed message that finds its channel full is dropped and counted (R234). -/
def Dev.chanDrop (d : Dev) (ch : Nat) : Dev :=
  let x := d.chan ch
  (d.setChan ch { x with overflow := min (x.overflow + 1) 0xFFFF }).raise Src.msgOverflow (ch % 64 * 2 ^ 8 + ch / 64)

/-- The words of the i-th stored message of a channel. -/
def Dev.chanMsg (d : Dev) (ch i : Nat) : List Word :=
  let x := d.chan ch
  bytesWords (x.lens.getD i 0) (d.memRead (d.slotAddr ch (x.head + i)) 64)

/-- The head message leaves a channel. -/
def Dev.chanPop (d : Dev) (ch : Nat) : Dev :=
  let x := d.chan ch
  d.setChan ch { x with head := (x.head + 1) % d.chanSlots ch, lens := x.lens.tail, gone := x.gone + 1 }

/-- The messages of a channel are discarded (R239, R547). -/
def Chan.discard (x : Chan) : Chan := { x with lens := [], gone := x.gone + x.lens.length }

end Sys2Proof.Machine
end

