-- ==== Sys2Proof/Machine/KrovalInt.lean ====
section
/-!
DEFINITION. Kroval words that work on registers: ALU, multiply and divide, immediates, branches, eret, sys, bkpt, short
pairs, rep, thread control, wt, mfs and mts (R78 to R101, R109, R110, R82).
-/

namespace Sys2Proof.Machine

/-- A register-format word of a major. -/
def RFmt.word (f : RFmt) (op : Nat) : Word := wordR op f.rd.toNat f.ra.toNat f.rb.toNat f.fn.toNat
/-- A register-format word of a major with a fixed fn. -/
def R3.word (f : R3) (op fn : Nat) : Word := wordR op f.rd.toNat f.ra.toNat f.rb.toNat fn
/-- An immediate-format word of a major. -/
def IFmt.word (f : IFmt) (op : Nat) : Word := wordI op f.rd.toNat f.ra.toNat f.imm.toNat
/-- sext(imm15). -/
def IFmt.sext (f : IFmt) : Word := sextN 15 f.imm.toNat
/-- zext(imm15). -/
def IFmt.zext (f : IFmt) : Word := wd f.imm.toNat

/-- A thread with a result and flags written. -/
def Thread.result (th : Thread) (rd : Nat) (r : Word) (w : FlagW) : Thread :=
  { th.setG rd r with flags := applyFlags th.flags w }

/-- A thread with flags written. -/
def Thread.setFlags (th : Thread) (w : FlagW) : Thread := { th with flags := applyFlags th.flags w }

/-- The ALU group (R86). -/
def aluCmd (t : Nat) (f : RFmt) (d : Dev) : Dev :=
  d.issue t fun d =>
    let th := d.thr t
    let fn := f.fn.toNat
    let sel := fn % 64
    let legal := decide (fn / 64 % 8 = 0) && (!aluUnary sel || decide (f.rb.toNat = 0))
      && (!aluNoDest sel || decide (f.rd.toNat = 0))
    match aluOp sel (th.g f.ra.toNat) (th.g f.rb.toNat) (flagC th.flags) with
    | some (r, w) =>
      d.legal t legal (RFmt.word f 0x00) fun d => d.retire t fun th =>
        let th := if aluAlways sel || fn.testBit 9 then th.setFlags w else th
        match r with
        | some v => th.setG f.rd.toNat v
        | none => th
    | none => d.trapWord t 1 (RFmt.word f 0x00)

/-- The multiply half of the multiply and divide group (R87, R95). -/
def mulCmd (t : Nat) (f : RFmt) (d : Dev) : Dev :=
  d.issue t fun d =>
    let th := d.thr t
    match mulOp (f.fn.toNat % 4) (th.g f.ra.toNat) (th.g f.rb.toNat) with
    | some (r, w) =>
      d.legal t (decide (f.fn.toNat / 8 = 0)) (RFmt.word f 0x01) fun d =>
        d.retire t fun th => th.result f.rd.toNat r w
    | none => d.trapWord t 1 (RFmt.word f 0x01)

/-- The divide half of the multiply and divide group (R87, R93). -/
def divCmd (t : Nat) (f : RFmt) (d : Dev) : Dev :=
  d.issue t fun d =>
    let th := d.thr t
    let x := divOp (f.fn.toNat % 4) (th.g f.ra.toNat) (th.g f.rb.toNat)
    d.legal t (decide (f.fn.toNat / 8 = 0)) (RFmt.word f 0x01) fun d =>
      d.retire t fun th => th.result f.rd.toNat x.1 x.2

/-- An immediate operation (R85): the result and flags of ra and the immediate. -/
def immCmd (t : Nat) (f : IFmt) (op : Word → Word × FlagW) (d : Dev) : Dev :=
  d.issue t fun d => d.retire t fun th =>
    let x := op (th.g f.ra.toNat)
    th.result f.rd.toNat x.1 x.2

/-- shifti (R85): kind imm15[6:5], amount imm15[4:0], flags when imm15[14]. -/
def shiftiCmd (t : Nat) (f : IFmt) (d : Dev) : Dev :=
  d.issue t fun d =>
    let i := f.imm.toNat
    d.legal t (decide (i / 2 ^ 7 % 2 ^ 7 = 0)) (IFmt.word f 0x0C) fun d => d.retire t fun th =>
      let k := match i / 2 ^ 5 % 4 with
        | 0 => Sh.sll
        | 1 => Sh.srl
        | 2 => Sh.sra
        | _ => Sh.ror
      let x := shiftW k (th.g f.ra.toNat) (i % 32)
      th.result f.rd.toNat x.1 (if i.testBit 14 then x.2 else .keep)

/-- cmpi (R85): ra − sext(imm15), flags NZCV; rd must be 0. -/
def cmpiCmd (t : Nat) (f : IFmt) (d : Dev) : Dev :=
  d.issue t fun d => d.legal t (decide (f.rd.toNat = 0)) (IFmt.word f 0x0D) fun d =>
    d.retire t fun th => th.setFlags (subW (th.g f.ra.toNat) (IFmt.sext f) true).2

/-- lui (R85). -/
def luiCmd (t : Nat) (rd : BitVec 5) (imm : BitVec 20) (d : Dev) : Dev :=
  d.issue t fun d => d.retire t fun th => th.setG rd.toNat (wd (imm.toNat * 2 ^ 12))

/-- A branch word with the word of its delay slot (R96, R97): a forbidden slot word traps at the branch with cause 0x06;
otherwise the delay slot is next and the destination follows it. -/
def branchTo (t : Nat) (slotW : Word) (f : Thread → Thread × Slot) (d : Dev) : Dev :=
  if slotForbidden slotW then d.trapWord t 6 slotW
  else d.updThr t fun th =>
    let x := f th
    { x.1 with pc := th.pc + 4, slot := x.2 }

/-- bcc (R85, R88, R89): a non-zero bit [24] is illegal; off20 counts words from the branch (R77). -/
def bccCmd (t : Nat) (b24 : Bool) (cond : BitVec 4) (off : BitVec 20) (slotW : Word) (d : Dev) : Dev :=
  d.issue t fun d =>
    d.legal t (!b24) (wordC 0x10 (b2n b24 * 2 ^ 24 + cond.toNat * 2 ^ 20 + off.toNat)) fun d =>
      branchTo t slotW (fun th =>
        (th, .branch (if condTaken cond.toNat th.flags then th.pc + sextN 20 off.toNat * 4 else th.pc + 8))) d

/-- call (R85, R96): lk receives the branch word's address + 8. -/
def callCmd (t : Nat) (off : BitVec 25) (slotW : Word) (d : Dev) : Dev :=
  d.issue t fun d =>
    branchTo t slotW (fun th => (th.setG 31 (th.pc + 8), .branch (th.pc + sextN 25 off.toNat * 4))) d

/-- jr and callr (R85): rd and rb must be 0. -/
def jumpCmd (t : Nat) (f : R3) (link : Bool) (slotW : Word) (d : Dev) : Dev :=
  d.issue t fun d =>
    d.legal t (decide (f.rd.toNat = 0 ∧ f.rb.toNat = 0)) (R3.word f 0x12 (b2n link)) fun d =>
      branchTo t slotW (fun th =>
        (if link then th.setG 31 (th.pc + 8) else th, .branch (th.g f.ra.toNat))) d

/-- eret (R114, R119): all fields 0; cause 0x05 at Atelier user privilege. -/
def eretCmd (t : Nat) (low : BitVec 25) (slotW : Word) (d : Dev) : Dev :=
  d.issue t fun d =>
    d.legal t (decide (low.toNat = 0)) (wordC 0x13 low.toNat) fun d =>
      if isAtl t && !(d.thr t).super then d.trapWord t 5 (wordC 0x13 0)
      else branchTo t slotW (fun th => (th, .eret)) d

/-- sys (R85): cause 0x05 with estat.sys and etval = imm15; rd and ra must be 0. -/
def sysCmd (t : Nat) (f : IFmt) (d : Dev) : Dev :=
  d.issue t fun d => d.legal t (decide (f.rd.toNat = 0 ∧ f.ra.toNat = 0)) (IFmt.word f 0x14) fun d =>
    d.takeTrap t ⟨5, 0, true, IFmt.zext f⟩

/-- bkpt (R112): cause 0x07 with the word's address. -/
def bkptCmd (t : Nat) (low : BitVec 25) (d : Dev) : Dev :=
  d.issue t fun d => d.legal t (decide (low.toNat = 0)) (wordC 0x15 low.toNat) fun d =>
    d.takeTrap t ⟨7, 0, false, (d.thr t).pc⟩

/-- A legal pair's two results on a thread: both read the registers at the start of the word (R80). -/
def Thread.applyShort (th : Thread) (e : ShortEff) : Thread :=
  let th := match e.wr with
    | some (r, v) => th.setG r v
    | none => th
  { th with flags := applyFlags th.flags e.fl, lc := e.lc.getD th.lc }

/-- Both short operations of a pair over the thread's state at the start of the word; none if a rule of R78, R77 or a
reserved sop makes it illegal. -/
def Thread.pairEff (th : Thread) (w : Word) : Option Thread :=
  match shortOp (s1 w) th.g th.lc, shortOp (s2 w) th.g th.lc with
  | some a, some b => if pairLegal w then some ((th.applyShort a).applyShort b) else none
  | _, _ => none

/-- A pair without rep (R78 to R80): a word that contains rep is the command REP's (`Instr.wf`). -/
def pairCmd (t : Nat) (p : BitVec 31) (d : Dev) : Dev :=
  d.issue t fun d =>
    let w := pairWord p
    match (d.thr t).pairEff w with
    | some th => d.retire t fun _ => th
    | none => d.trapWord t 1 w

/-- A pair with rep (`Instr.wf`) and the word after it (R99, R100): lc is latched at issue; the other operation executes
once. -/
def repCmd (t : Nat) (p : BitVec 31) (next : Word) (d : Dev) : Dev :=
  d.issue t fun d =>
    let w := pairWord p
    let th := d.thr t
    match th.pairEff w with
    | none => d.trapWord t 1 w
    | some th' =>
      if slotForbidden next then d.trapWord t 6 next
      else if th.lc.toNat = 0 then d.setThr t { th' with pc := th.pc + 8 }
      else d.setThr t { th' with pc := th.pc + 4, repLeft := th.lc, repAddr := th.pc + 4 }

/-! Thread control (R109). -/

/-- A thread's register by its sel code: gN, pc, flags, lc, tvb, dwin (R109) and the codes debug adds (R554). -/
def Thread.sel (th : Thread) (s : Nat) : Option Word :=
  if s < 32 then some (th.g s)
  else match s with
    | 32 => some th.pc
    | 33 => some th.flags
    | 34 => some th.lc
    | 35 => some th.tvb
    | 36 => some th.dwin
    | 37 => some th.tcmp
    | 38 => some th.epc
    | 39 => some th.ecause
    | 40 => some th.etval
    | 41 => some th.estat
    | 42 => some th.ebta
    | 43 => some th.rcnt
    | _ => none

/-- The written bits of flags, tvb, dwin, ecause, estat and asid (R82). -/
def flagsMask : Word := 0xF0000001#32
def tvbMask : Word := 0xFFFFF800#32
def dwinMask : Word := 0x1FF#32
def ecauseMask : Word := 0x800000FF#32
def estatMask : Word := 0x7F#32

/-- A thread with the register of a sel code written (R109, R554). -/
def Thread.setSel (th : Thread) (s : Nat) (v : Word) : Thread :=
  if s < 32 then th.setG s v
  else match s with
    | 32 => { th with pc := v }
    | 33 => { th with flags := v &&& flagsMask }
    | 34 => { th with lc := v }
    | 35 => { th with tvb := v &&& tvbMask }
    | 36 => { th with dwin := v &&& dwinMask }
    | 37 => { th with deadline := BitVec.ofNat 64 (th.deadline.toNat / 2 ^ 32 * 2 ^ 32 + v.toNat) }
    | 38 => { th with epc := v }
    | 39 => { th with ecause := v &&& ecauseMask }
    | 40 => { th with etval := v }
    | 41 => { th with estat := v &&& estatMask }
    | 42 => { th with ebta := v }
    | 43 => { th with rcnt := v }
    | _ => th

/-- The checks every thread-control word shares (R109, R118): cause 0x02 on the Atelier, 0x05 from any thread but t0,
0x01 where ra[31:3] is not 0 or an unused field is set; then the word's effect on the target thread's number. Where
several fail, the fields of the word are judged first, then the thread, then ra (DESIGN CHOICE, log entry 107). -/
def thCmd (t : Nat) (w : Word) (ra : Nat) (legal : Bool) (d : Dev) (body : Nat → Dev → Dev) : Dev :=
  d.issue t fun d =>
    if isAtl t then d.trapWord t 2 w
    else if !legal then d.trapWord t 1 w
    else if thIdx t ≠ 0 then d.trapWord t 5 w
    else
      let a := ((d.thr t).g ra).toNat
      if a / 8 ≠ 0 then d.trapWord t 1 w else body (t / 8 * 8 + a) d

/-- The status of thset and thgo for a target (R109). -/
def Dev.thStatus (d : Dev) (u : Nat) : Nat :=
  if !d.masterManaged u then 2 else if (d.thr u).run = .stopped then 0 else 1

/-- thset (R109). -/
def thsetCmd (t : Nat) (f : RFmt) (d : Dev) : Dev :=
  thCmd t (RFmt.word f 0x28) f.ra.toNat (decide (f.fn.toNat ≤ 36)) d fun u d =>
    let st := d.thStatus u
    let v := (d.thr t).g f.rb.toNat
    let d := if st = 0 then d.updThr u (fun th => th.setSel f.fn.toNat v) else d
    d.retire t fun th => th.setG f.rd.toNat (wd st)

/-- thget (R109): rb must be 0; 0 for a target that runs or is Easel-managed. -/
def thgetCmd (t : Nat) (f : RFmt) (d : Dev) : Dev :=
  thCmd t (RFmt.word f 0x29) f.ra.toNat (decide (f.fn.toNat ≤ 36 ∧ f.rb.toNat = 0)) d fun u d =>
    let v := if d.thStatus u = 0 then ((d.thr u).sel f.fn.toNat).getD 0 else 0
    d.retire t fun th => th.setG f.rd.toNat v

/-- thgo (R109): releases a stopped master-managed thread at its pc and clears estat.intrap. -/
def thgoCmd (t : Nat) (f : RFmt) (d : Dev) : Dev :=
  thCmd t (RFmt.word f 0x2A) f.ra.toNat (decide (f.fn.toNat = 0 ∧ f.rb.toNat = 0)) d fun u d =>
    let st := d.thStatus u
    let (n, d) := d.nextSeq
    let d := if st = 0 then
        d.updThr u (fun th => { th.settle th.pc with estat := setBit th.estat 0 false, tid := n })
      else d
    d.retire t fun th => th.setG f.rd.toNat (wd st)

/-! Waiting (R110). -/

/-- Whether the event of a wt is present: the lock is not held (kind 1), the channel holds data (kind 2). R110 names no
trap for a lock address that does not translate, or for a channel that is out of range or disabled: no event ever occurs
there, and the wait lasts to its deadline (DESIGN CHOICE, log entry 106). -/
def Dev.waitEvent (d : Dev) (t kind : Nat) (op : Word) : Bool :=
  match kind with
  | 1 => match d.xlate t .load op.toNat with
    | .ok a _ => (d.lock (a / 4)).holder.isNone
    | .bad _ _ => false
  | 2 => d.chanEnabled op.toNat && decide ((d.chan op.toNat).lens ≠ [])
  | _ => false

/-- wt (R77, R110): kind fn[1:0]; kind 3 and a non-zero fn[9:2] are illegal, and so is a non-zero rb in kind 0, which
does not use it. The lock address of kind 1 is translated through the TLB (R122). -/
def wtCmd (now : Nat) (t : Nat) (f : RFmt) (d : Dev) : Dev :=
  d.issue t fun d =>
    d.legal t (decide (f.fn.toNat < 3 ∧ (f.fn.toNat = 0 → f.rb.toNat = 0))) (RFmt.word f 0x2B) fun d =>
      let d := if f.fn.toNat = 1 then d.tlbFill t ((d.thr t).g f.rb.toNat).toNat else d
      let th := d.thr t
      let ra := (th.g f.ra.toNat).toNat
      let op := th.g f.rb.toNat
      let th := { th with deadline := BitVec.ofNat 64 (now + ra) }
      let ended := fun (reason : Word) => d.setThr t ((th.setG f.rd.toNat reason).advance (isAtl t))
      if d.waitEvent t f.fn.toNat op then ended 1
      else if ra = 0 then ended 0
      else d.setThr t { th with run := .waiting f.fn.toNat op f.rd.toNat }

/-- A wt deadline is reached (R110). -/
def waitDeadline (now : Nat) (t : Nat) (d : Dev) : Dev :=
  let th := d.thr t
  match th.run with
  | .waiting k op _ =>
    if th.deadline.toNat ≤ now then d.endWait t (if d.waitEvent t k op then 1 else 0) else d
  | _ => d

/-! Special registers (R82). -/

/-- The id register (R82). -/
def idWord (t : Nat) : Word :=
  if isAtl t then wd (0x1F * 2 ^ 8 + (t - 1536) * 8) else wd (clusterOf t * 2 ^ 8 + coreIn t * 8 + thIdx t)

/-- What an access to a special register gives (R82). -/
inductive SprAcc where
  | value (v : Word)
  | fault (cause : Nat)
  deriving DecidableEq, Repr

/-- The value mfs reads (R82); `now` is the nanosecond counter. -/
def Thread.spr (th : Thread) (t now fn : Nat) : SprAcc :=
  let sup := fun (v : Word) => if !isAtl t then SprAcc.fault 1 else if th.super then .value v else .fault 5
  match fn with
  | 0x000 => .value th.flags
  | 0x001 => .value th.lc
  | 0x002 => .value th.tcmp
  | 0x003 => .value th.tvb
  | 0x004 => .value th.epc
  | 0x005 => .value th.ecause
  | 0x006 => .value th.etval
  | 0x007 => .value th.estat
  | 0x008 => .value th.ebta
  | 0x009 => .value th.rcnt
  | 0x00A => .value (idWord t)
  | 0x00B => .value (wd now)
  | 0x00C => .value (th.nowHi.getD (wd (now / 2 ^ 32)))
  | 0x00D => if isAtl t then .fault 1 else .value th.dwin
  | 0x100 => sup th.sstatus
  | 0x101 => sup th.ptbr
  | 0x102 => sup th.asid
  | _ => .fault 1

/-- A thread with a special register written; the cause where it may not be (R82, R119). R82 lets tvb be written in
supervisor mode only and names no cause: at user privilege it raises 0x05, as an access to a supervisor register does
(DESIGN CHOICE, log entry 105). -/
def Thread.setSpr (th : Thread) (t fn : Nat) (v : Word) : Thread × Option Nat :=
  let ok := fun (x : Thread) => (x, (none : Option Nat))
  let sup := fun (x : Thread) => if !isAtl t then (th, some 1) else if th.super then (x, none) else (th, some 5)
  match fn with
  | 0x000 => ok (th.setSel 33 v)
  | 0x001 => ok (th.setSel 34 v)
  | 0x002 => ok (th.setSel 37 v)
  | 0x003 => if isAtl t && !th.super then (th, some 5) else ok (th.setSel 35 v)
  | 0x004 => ok (th.setSel 38 v)
  | 0x005 => ok (th.setSel 39 v)
  | 0x006 => ok (th.setSel 40 v)
  | 0x007 => ok (th.setSel 41 v)
  | 0x008 => ok (th.setSel 42 v)
  | 0x009 => ok (th.setSel 43 v)
  | 0x00D => if isAtl t then (th, some 1) else ok (th.setSel 36 v)
  | 0x100 => sup { th with sstatus := wd (v.toNat % 16 / 2 * 2 + b2n th.super) }
  | 0x101 => sup { th with ptbr := v }
  | 0x102 => sup { th with asid := wd (v.toNat % 256) }
  | _ => (th, some 1)

/-- mfs (R82): ra and rb must be 0; a read of now_lo captures now_hi, and the next read of now_hi takes it. -/
def mfsCmd (now : Nat) (t : Nat) (f : RFmt) (d : Dev) : Dev :=
  d.issue t fun d =>
    let w := RFmt.word f 0x2C
    d.legal t (decide (f.ra.toNat = 0 ∧ f.rb.toNat = 0)) w fun d =>
      match (d.thr t).spr t now f.fn.toNat with
      | .value v => d.retire t fun th =>
          let th := if f.fn.toNat = 0x00B then { th with nowHi := some (wd (now / 2 ^ 32)) }
            else if f.fn.toNat = 0x00C then { th with nowHi := none } else th
          th.setG f.rd.toNat v
      | .fault c => d.trapWord t c w

/-- mts (R82): rd and rb must be 0. -/
def mtsCmd (t : Nat) (f : RFmt) (d : Dev) : Dev :=
  d.issue t fun d =>
    let w := RFmt.word f 0x2D
    d.legal t (decide (f.rd.toNat = 0 ∧ f.rb.toNat = 0)) w fun d =>
      let th := d.thr t
      match th.setSpr t f.fn.toNat (th.g f.ra.toNat) with
      | (th', none) => d.retire t fun _ => th'
      | (_, some c) => d.trapWord t c w

/-! Words that raise cause 0x01 or 0x02 whatever their operands (R77, R89). -/

/-- Whether a function code is listed for a brush (R216, R224 to R236). -/
def brushListed (b fn : Nat) : Bool :=
  decide (fn = 0x3FE ∨ fn = 0x3FF) || decide (fn ∈ (match b with
    | 0 => [0, 1, 2]
    | 1 => [0, 1]
    | 2 => [0, 1, 2, 3]
    | 3 => [0, 1]
    | 4 => [0, 1]
    | 5 => [0, 0x10, 0x11, 0x12, 0x13]
    | 6 => [0, 1, 2, 3, 4]
    | _ => []))

/-- The cause an undefined or reserved word raises (R85, R86, R87, R89, R102, R109): 0x02 for an undefined major or
brush id 7, 0x01 for a reserved selector or an unlisted brush function that no other command spells (R216); none for other words. -/
def undefinedCause (w : Word) : Option Nat :=
  if isPair w then none
  else
    let m := major w
    let fn := fld w 9 0
    if (0x02 ≤ m ∧ m ≤ 0x07) ∨ m = 0x16 ∨ m = 0x17 ∨ m = 0x23 ∨ m = 0x26 ∨ m = 0x27 ∨ m = 0x2E ∨ m = 0x2F
        ∨ m = 0x34 ∨ m = 0x35 ∨ m = 0x37 ∨ m = 0x3F then some 2
    else if (m = 0x12 ∧ 2 ≤ fn) ∨ (m = 0x22 ∧ 8 ≤ fn) ∨ (m = 0x36 ∧ 4 ≤ fn)
        ∨ (0x38 ≤ m ∧ m < 0x3F ∧ brushListed (m - 0x38) fn = false) then some 1
    else none

/-- An undefined or reserved word issues and traps (R89); brush id 7 counts a refusal (R221), and the Atelier
refuses every brush instruction (R118). -/
def undefinedCmd (t : Nat) (w : Word) (d : Dev) : Dev :=
  d.issue t fun d =>
    match undefinedCause w with
    | some c =>
      let d := if c = 2 ∧ major w = 0x3F ∧ ¬ isAtl t then d.bump (Reg.CLU_BRUSH_REFUSE_CNT (clusterOf t) 7) 1 else d
      d.trapWord t (if 0x38 ≤ major w ∧ isAtl t then 2 else c) w
    | none => d

end Sys2Proof.Machine
end

