-- ==== Sys2Proof/Machine/Dram.lean ====
section
/-!
DEFINITION. The DRAM controller (R427 to R448, R459): bring-up, the scheduler's choice, the judging of a read, patrol
scrub, frequency change, training, and the retire and return of a channel.
-/

namespace Sys2Proof.Machine

/-- Whether a channel's DIMMs fit its DRAM entry (R64): module type, DIMMs, ranks and capacity. DESIGN CHOICE (log entry
137): R64 does not say which SPD fields its check covers, and the declared speed is left to training. -/
def spdFits (s : Spd) (e : DramEnt) : Bool :=
  s.rdimm && decide (s.dimms = e.dimms ∧ s.ranks = e.ranks ∧ s.cap = e.cap)

/-- The fitted channels the profile in force declares (R57). -/
def Dev.dramEnts (d : Dev) : List DramEnt := match d.prf.inForce with
  | some p => p.drams.filter (fun e => decide (e.dimms ≠ 0))
  | none => []

/-- Writing DRC_CTL.enable = 1 starts bring-up (R428); refused while forwarding (R457). -/
def dramBringup (r : Req) (d : Dev) : Dev :=
  if d.forwarding then d.refuse r Reg.DRC_CTL
  else if d.rb Reg.DRC_CTL 0 then d
  else
    let d := ((d.setRb Reg.DRC_CTL 0 true).setRb Reg.DRC_STATUS 0 false).setRf Reg.DRC_STATUS 31 24 0
    let d := (List.range 8).foldl (fun d c => d.setRb (Reg.DRC_CHAN_W0 c) 30 false) (d.setRf Reg.DRC_FREQ_STATUS 7 0 0)
    { d with drc := { d.drc with bringing := true, chans := [] } }

/-- A channel's usable bit in DRC_STATUS and DRC_CHAN. -/
def Dev.setUsable (d : Dev) (c : Nat) (b : Bool) : Dev :=
  (d.setRb Reg.DRC_STATUS (24 + c) b).setRb (Reg.DRC_CHAN_W0 c) 30 b
/-- A channel's retired bit in DRC_STATUS and DRC_CHAN. -/
def Dev.setRetired (d : Dev) (c : Nat) (b : Bool) : Dev :=
  (d.setRb Reg.DRC_STATUS (16 + c) b).setRb (Reg.DRC_CHAN_W0 c) 29 b
/-- Whether a channel is usable. -/
def Dev.usable (d : Dev) (c : Nat) : Bool := d.rb Reg.DRC_STATUS (24 + c)

/-- Bring-up ends (R428, R66): the channels that pass the SPD check and train are usable, the mapping is fixed until reset
(R429) and DRC_STATUS.ready is set. `spd` and `trained` are what the SPD reads and the training of each channel gave. A
bring-up after the first keeps the map: a channel of it that does not pass is out like a retired one, and no other channel
joins; a channel whose DRC_RETIRE bit is set stays retired (DESIGN CHOICE, log entry 135). -/
def dramBringupDone (spd : List Spd) (trained : BitVec 8) (d : Dev) : Dev :=
  if !d.drc.bringing then d
  else
    let fits := fun (e : DramEnt) => ((spd[e.channel]?).map (fun s => spdFits s e)).getD false
    let es := d.dramEnts
    let passes := fun (e : DramEnt) => fits e && trained.toNat.testBit e.channel
    let good := es.filter passes
    let chans := if d.drc.map ≠ [] then d.drc.map else
      (List.range 8).filterMap (fun c => (good.find? (fun e => decide (e.channel = c))).map (fun e => (c, e.dimms * e.cap * 2 ^ 30)))
    let inMap := fun (c : Nat) => chans.any (fun e => decide (e.1 = c))
    let ilv := if d.drc.map ≠ [] then d.drc.ilv else d.rf Reg.DRC_ILV 3 0
    let d := es.foldl (fun d e =>
      if !fits e then d.raise Src.dramProfileMismatch e.channel
      else if !trained.toNat.testBit e.channel then d.raise Src.drcTrainFail e.channel
      else if !inMap e.channel then d
      else
        let d := (d.setRf (Reg.DRC_CHAN_W0 e.channel) 11 0 (e.dimms * e.cap)).setRb Reg.DRC_FREQ_STATUS e.channel true
        if d.rb Reg.DRC_RETIRE e.channel then d.setRetired e.channel true else d.setUsable e.channel true) d
    let d := chans.foldl (fun d e => if good.any (fun x => decide (x.channel = e.1)) then d else d.setRetired e.1 true) d
    let d := { d with drc := { d.drc with chans := chans, map := chans, ilv := ilv, bringing := false } }
    ((d.setRf Reg.DRC_STATUS 11 8 chans.length).setRb Reg.DRC_STATUS 0 true).setRb Reg.GLB_CLK_STATUS 25 true

/-! Reads (R432, R434 to R436). -/

/-- The address whose burst serves a read: the copy of a mirrored byte whose own channel is out or stopped (R441, R443); for a
unit of the parity window on such a channel a unit of its stripe, which it is rebuilt from (R445). -/
def Dev.servingAddr (d : Dev) (a : Nat) : Nat :=
  let c := (d.dramLoc a).1
  if d.mirrored a && (!d.chanGood c || d.rb (Reg.DRC_CHAN_W0 c) 28) then a + d.mirrorDelta
  else if d.mirrorCopy a && !d.chanGood c then a - d.mirrorDelta
  else if d.inParity a && !d.chanGood c then ((d.stripeUnits a).find? (fun b => decide (b ≠ a))).getD a
  else a

/-- The poisoned reads noted since are dated (R459): 16 of one channel within 1 s raise DRC_CHAN_FAIL. -/
def Dev.dateUes (d : Dev) (now : Nat) : Dev :=
  if d.drc.ueNew = [] then d
  else d.drc.ueNew.foldl (fun d c =>
    let ts := (tget [] d.drc.ueTimes c ++ [now]).filter (fun t => decide (now < t + 1000000000))
    let full := decide (16 ≤ ts.length) && d.usable c
    let d := { d with drc := { d.drc with ueTimes := tset [] d.drc.ueTimes c (if full then [] else ts) } }
    d.raiseIf full Src.drcChanFail c) { d with drc := { d.drc with ueNew := [] } }

/-- A poisoned read is counted, recorded and captured (R432), and dated (R459). -/
def Dev.dramUe (d : Dev) (now kind a : Nat) : Dev := (d.dramPoison kind a).dateUes now

/-- A read enters the controller's queues (R434); one that no channel can serve is poisoned at once (R446). -/
def Dev.dramAsk (d : Dev) (now cls : Nat) (who : DramWho) (a : Nat) : Dev :=
  let gone := d.lost a
  let q : DramReq := { who := who, cls := cls, at_ := now, addr := a, issued := false, done := if gone then some true else none }
  let d := { d with drc := { d.drc with reqs := d.drc.reqs ++ [q] } }
  if gone then d.dramUe now 0 a else d

/-- The judged result of a requester's read, once it has one. -/
def Dev.dramDone (d : Dev) (who : DramWho) : Option Bool :=
  (d.drc.reqs.find? (fun q => decide (q.who = who) && q.done.isSome)).bind (·.done)

/-- A requester's read leaves the controller. -/
def Dev.dramDrop (d : Dev) (who : DramWho) : Dev :=
  { d with drc := { d.drc with reqs := d.drc.reqs.filter (fun q => decide (q.who ≠ who)) } }

/-- The byte, subchannel, column burst, bank group, bank, rank and row of a channel-local address whose channel has 2^r
ranks (R430). -/
structure DramBank where
  byte : Nat
  sub : Nat
  col : Nat
  group : Nat
  bank : Nat
  rank : Nat
  row : Nat
  deriving DecidableEq, Repr

/-- The location of a channel-local address (R430). -/
def dramBank (r x : Nat) : DramBank :=
  let row := x / 2 ^ (19 + r)
  { byte := x % 64, sub := x / 64 % 2, col := x / 2 ^ 7 % 128, group := (x / 2 ^ 14 % 8) ^^^ (row % 8), bank := (x / 2 ^ 17 % 4) ^^^ (row / 8 % 4),
    rank := x / 2 ^ 19 % 2 ^ r, row := row }

/-- log2 of the ranks of a channel (R430). -/
def Dev.rankLog (d : Dev) (c : Nat) : Nat :=
  match d.dramEnts.find? (fun e => decide (e.channel = c)) with
  | some e => Nat.log2 (e.dimms * e.ranks)
  | none => 0

/-- The key of a bank's open row. -/
def bankKey (c : Nat) (b : DramBank) : Nat := (((c * 2 + b.sub) * 8 + b.rank) * 8 + b.group) * 4 + b.bank
/-- The key of a rank of a subchannel. -/
def rankKey (c : Nat) (b : DramBank) : Nat := (c * 2 + b.sub) * 8 + b.rank

/-- The active timing set: 0 A, 1 B. -/
def Dev.activeSet (d : Dev) : Nat := b2n (d.rb Reg.DRC_FREQ_STATUS 16)

/-- The transfer rate in MT/s (R57): that of the active set, or the profile's where the set names none. -/
def Dev.dramRate (d : Dev) : Nat :=
  let s := d.rf (Reg.DRC_TSET_W0 d.activeSet) 7 0
  4000 + 800 * (if s ≠ 0 then s else (d.dramEnts.head?.map (·.speed)).getD 1)

/-- Whether a rank may take one more activate (R436): the fourth last is at least tFAW clock cycles old, two transfers to a
cycle. -/
def Dev.mayActivate (d : Dev) (now c : Nat) (b : DramBank) : Bool :=
  match (tget [] d.drc.acts (rankKey c b))[3]? with
  | some t => decide (2000 * d.rf (Reg.DRC_TSET_W1 d.activeSet) 31 24 ≤ (now - t) * d.dramRate)
  | none => true

/-- Bytes in the prefetch buffer of the egress spill reader: the frames it has read whose copies are still there
(R437). -/
def Dev.spillLevel (d : Dev) : Nat :=
  d.drc.reqs.foldl (fun n q => match q.who with
    | .spill _ _ len => if q.done.isSome then n + len else n
    | _ => n) 0

/-- Whether the prefetch buffer of the egress spill reader has room for a read: 1 MiB, which the frames being read and those
read share (R437). -/
def Dev.spillRoom (d : Dev) (q : DramReq) : Bool :=
  match q.who with
  | .spill _ _ len => decide (d.drc.reqs.foldl (fun n x => match x.who with
      | .spill _ _ l => if x.issued || x.done.isSome then n + l else n
      | _ => n) 0 + len ≤ 2 ^ 20)
  | _ => true

/-- Whether the egress spill reader raises panic (R437): its buffer is below spill_panic × 8 KiB and a dequeued frame still
waits for data. -/
def Dev.spillPanic (d : Dev) : Bool :=
  decide (d.spillLevel < 8192 * d.rf Reg.DRC_PANIC 31 24) && d.drc.reqs.any (fun q => match q.who with
    | .spill _ _ _ => q.done.isNone
    | _ => false)

/-- Whether any real-time reader raises panic (R437, R439). -/
def Dev.anyPanic (d : Dev) : Bool := decide (d.drc.panics ≠ []) || d.spillPanic

/-- Whether a real-time reader's requests are of class 0: its panic is raised (R437), or the pre-fill of a frequency switch
runs (R439). -/
def Dev.lifted (d : Dev) (who : DramWho) : Bool :=
  match who with
  | .gate p _ => tget false d.drc.panics p || decide (d.rf Reg.DRC_FREQ_STATUS 31 28 = 3)
  | .spill _ _ _ => d.spillPanic || decide (d.rf Reg.DRC_FREQ_STATUS 31 28 = 3)
  | _ => false

/-- The class of a read (R435): 0 while its reader's panic is raised (R437), 1 from a certain age. -/
def Dev.reqClass (d : Dev) (now : Nat) (q : DramReq) : Nat :=
  if d.lifted q.who then 0
  else if d.rf Reg.DRC_SCHED 31 16 < now - q.at_ then min q.cls 1 else q.cls

/-- Whether requests may be issued to a channel: neither retired, returning, stopped for training, nor in a frequency
switch (R440, R441, R446). -/
def Dev.chanOpen (d : Dev) (c : Nat) : Bool :=
  !d.retired c && !d.rb (Reg.DRC_CHAN_W0 c) 28 && decide (d.rf Reg.DRC_FREQ_STATUS 31 28 ≠ 4)

/-- The first position of a list at which a test holds. -/
def findIx {α : Type} (p : α → Bool) : List α → Option Nat
  | [] => none
  | x :: r => if p x then some 0 else (findIx p r).map (· + 1)

/-- The read queue of a subchannel: the oldest 64 reads not issued, with their places (R434). -/
def Dev.readQueue (d : Dev) (ch sub : Nat) : List (Nat × DramReq) :=
  (((List.range d.drc.reqs.length).zip d.drc.reqs).filter (fun e =>
    let l := d.dramLoc (d.servingAddr e.2.addr)
    !e.2.issued && e.2.done.isNone && decide (l.1 = ch ∧ l.2 / 64 % 2 = sub))).take 64

/-- In a command slot of a subchannel the scheduler issues the lowest class that has an issuable read; within it row hits
first, then the oldest request of the next bank group in rotation, whose rank may take an activate (R436). Reads of one
address leave in arrival order (R434). -/
def dramCommandIssue (now ch sub : Nat) (d : Dev) : Dev :=
  let r := d.rankLog ch
  let bk := fun (q : DramReq) => dramBank r (d.dramLoc (d.servingAddr q.addr)).2
  if !d.chanOpen ch then d
  else
    let queue := d.readQueue ch sub
    let first := fun (e : Nat × DramReq) => queue.all (fun f => decide (e.1 ≤ f.1 ∨ f.2.addr / 64 ≠ e.2.addr / 64))
    let hit := fun (q : DramReq) => decide (tget none d.drc.rows (bankKey ch (bk q)) = some (bk q).row)
    let may := queue.filter (fun e => first e && d.spillRoom e.2 && (hit e.2 || d.mayActivate now ch (bk e.2)))
    match (List.range 5).find? (fun k => may.any (fun e => decide (d.reqClass now e.2 = k))) with
    | none => d
    | some k =>
      let here := may.filter (fun e => decide (d.reqClass now e.2 = k))
      let last := tget 0 d.drc.group (2 * ch + sub)
      let order := (List.range 8).map (fun i => (last + 1 + i) % 8)
      let chosen := match here.find? (fun e => hit e.2) with
        | some e => some e
        | none => (order.find? (fun g => here.any (fun e => decide ((bk e.2).group = g)))).bind
            (fun g => here.find? (fun e => decide ((bk e.2).group = g)))
      match chosen with
      | none => d
      | some (i, q) =>
        let b := bk q
        let k := rankKey ch b
        { d with drc := { d.drc with
          reqs := d.drc.reqs.set i { q with issued := true }
          rows := tset none d.drc.rows (bankKey ch b) (some b.row)
          group := if hit q then d.drc.group else tset 0 d.drc.group (2 * ch + sub) b.group
          acts := if hit q then d.drc.acts else tset [] d.drc.acts k (now :: (tget [] d.drc.acts k).take 3) } }

/-! Beats (R431, R432). -/

/-- The tag bits of the burst at a channel-local byte address x (R431). -/
def tagBits (x : Nat) : Nat := crc16 0xFFFF (leBytes 5 (x / 64))

/-- Beat b of the burst at a channel-local byte address (R431): the tag bit, the check bits and the data. -/
def dramBeat (x b : Nat) (w : Word) : BitVec 40 :=
  BitVec.ofNat 1 (tagBits x / 2 ^ b) ++ (Config.secdedBits w ++ w)

/-- The bits of beat b that arrive changed. -/
def burstMask (r : BurstRead) (b : Nat) : BitVec 40 :=
  r.flips.foldl (fun m e => if e.1.val = b then m ^^^ (1#40 <<< e.2.val) else m) 0

/-- A word that DRAM holds at an address: for the parity of a stripe, the XOR of its seven data units (R445). -/
def Dev.dramWord (d : Dev) (a : Nat) : Word :=
  if d.parityHole a then ((d.stripeUnits a).take 7).foldl (fun w b => w ^^^ wd (d.memLe b 4)) 0 else wd (d.memLe a 4)

/-- The beats as they arrive for a read of the burst at an address. -/
def Dev.arrived (d : Dev) (a : Nat) (r : BurstRead) : List (BitVec 40) :=
  (List.range 16).map (fun b => dramBeat (64 * r.line) b (d.dramWord (a / 64 * 64 + 4 * b)) ^^^ burstMask r b)

/-- Whether the tag bits of a burst that arrived match the address it was read for (R431). -/
def Dev.tagMatches (d : Dev) (a : Nat) (r : BurstRead) : Bool :=
  (List.range 16).all (fun b => ((d.arrived a r).getD b 0).getLsbD 39 == (tagBits (d.dramLoc a).2).testBit b)

/-- What the check bits and the address tag of a read burst say (R432): clean, corrected, a tag mismatch that a retry
cleared, a second tag mismatch, or a beat with an uncorrectable error. -/
inductive Finding where
  | clean
  | corrected
  | retried
  | address
  | beat (b : Nat)
  deriving DecidableEq, Repr

/-- What the check bits of a burst say (R432): (39,32) SECDED corrects one wrong bit of a beat and detects two; what it
makes of more is open (`many`: 0 clean, 1 corrected, 2 uncorrectable). -/
def burstBeats (r : BurstRead) (many : Nat) : Finding :=
  let st := fun (b : Nat) => match popN 39 (burstMask r b).toNat with
    | 0 => 0
    | 1 => 1
    | 2 => 2
    | _ => many
  match (List.range 16).find? (fun b => decide (2 ≤ st b)) with
  | some b => .beat b
  | none => if (List.range 16).any (fun b => decide (st b = 1)) then .corrected else .clean

/-- A read burst's finding (R432): a tag mismatch is read again once (`again`), and a match then counts as corrected. -/
def Dev.finding (d : Dev) (a : Nat) (first again : BurstRead) : Finding × Dev :=
  let (many, d) := d.pick 3
  (if d.tagMatches a first then burstBeats first many
   else if !d.tagMatches a again then .address
   else match burstBeats again many with
    | .beat b => .beat b
    | _ => .retried, d)

/-- A read burst at an address is judged (R432): whether its data are poisoned, and what is counted and recorded. -/
def Dev.judge (d : Dev) (now a : Nat) (first again : BurstRead) : Bool × Dev :=
  let (f, d) := d.finding a first again
  let c := (d.dramLoc a).1
  let base := a / 64 * 64
  let bad := fun (d : Dev) (kind : Nat) =>
    if d.recoverable base then (false, d.dramRecover base) else (true, d.dramUe now kind base)
  let fixed := fun (d : Dev) => (false, ((d.bump Reg.DRC_CE_CNT 1).bump (Reg.DRC_CHAN_W1 c) 1).raise Src.drcCe c)
  match f with
  | .address => bad d 1
  | .beat b =>
    let w := base / 4 + b
    bad { d with drc := { d.drc with poison := tset false d.drc.poison w true } } 0
  | _ =>
    if d.poisoned base 64 then bad d 0
    else match f with
      | .clean => (false, d)
      | _ => fixed d

/-- The oldest issued read of a subchannel returns and is judged (R432). -/
def dramReadReturn (now ch sub : Nat) (first again : BurstRead) (d : Dev) : Dev :=
  let loc := fun (q : DramReq) => d.dramLoc (d.servingAddr q.addr)
  let mine := fun (q : DramReq) =>
    q.issued && q.done.isNone && decide ((loc q).1 = ch) && decide ((loc q).2 / 64 % 2 = sub)
  match (findIx mine d.drc.reqs).bind (fun i => (d.drc.reqs[i]?).map (fun q => (i, q))) with
  | none => d
  | some (i, q) =>
    let r := d.judge now (d.servingAddr q.addr) first again
    let r := if !r.1 && d.lost q.addr then (true, r.2.dramUe now 0 q.addr) else r
    { r.2 with drc := { r.2.drc with reqs := r.2.drc.reqs.set i { q with done := some r.1 } } }

/-- The patrol walker reads the next burst of the fitted capacity, the parity of stripes included (R433); it begins one pass
in a period. -/
def scrubVisit (now : Nat) (first again : BurstRead) (d : Dev) : Dev :=
  let a := d.drc.scrubAt
  if !d.rb Reg.DRC_SCRUB 31 || decide (d.fittedDram = 0) then d
  else if a = 0 ∧ d.drc.scrubFrom ≠ 0 ∧ now < d.drc.scrubFrom + d.rf Reg.DRC_SCRUB 19 0 * 1000000000 then d
  else
    let d := { d with drc := { d.drc with
      scrubAt := (a + 64) % d.fittedDram, scrubFrom := if a = 0 then now else d.drc.scrubFrom } }
    if d.chanOpen (d.dramLoc a).1 then (d.judge now a first again).2 else d

/-! Frequency change and training (R438 to R442). -/

/-- Whether any channel is stopped for a training step. -/
def Dev.anyStopped (d : Dev) : Bool := (List.range 8).any (fun c => d.rb (Reg.DRC_CHAN_W0 c) 28)
/-- Whether a channel is trained on the active set. -/
def Dev.trainedOn (d : Dev) (c : Nat) : Bool := d.rb Reg.DRC_FREQ_STATUS (8 * d.activeSet + c)
/-- DRC_FREQ_STATUS.state. -/
def Dev.freqState (d : Dev) : Nat := d.rf Reg.DRC_FREQ_STATUS 31 28
/-- The device with a frequency-change state, entered now. -/
def Dev.setFreqState (d : Dev) (now st : Nat) : Dev :=
  let d := d.setRf Reg.DRC_FREQ_STATUS 31 28 st
  { d with drc := { d.drc with freqSince := now } }

/-- A switch proceeds under panic (R439, R459). -/
def Dev.forceSwitch (d : Dev) (now : Nat) : Dev :=
  ((d.setRb Reg.DRC_FREQ_STATUS 24 true).raise Src.drcFreqForced 0).setFreqState now 3

/-- A switch that was accepted waits for a training step, for panic to clear, or goes into its pre-fill; with defer_us = 0
it proceeds under panic at once (R439). -/
def Dev.latchSwitch (d : Dev) (now : Nat) : Dev :=
  if d.anyStopped then d.setFreqState now 1
  else if !d.anyPanic then d.setFreqState now 3
  else if d.drc.freqDefer ≠ 0 then d.setFreqState now 2
  else d.forceSwitch now

/-- A write of DRC_FREQ_CMD (R439): with go = 1 a switch to the target set is latched, or rejected and nothing else changes;
a switch that is pending keeps the target and the defer_us it was asked with. -/
def freqChangeGo (now : Nat) (v : Word) (d : Dev) : Dev :=
  let put := fun (d : Dev) => (d.setRf Reg.DRC_FREQ_CMD 31 16 (fld v 31 16)).setRf Reg.DRC_FREQ_CMD 1 1 (fld v 1 1)
  if !bit v 0 then put d
  else if fld v 1 1 = d.activeSet ∨ (1 ≤ d.freqState ∧ d.freqState ≤ 4) then d.setRb Reg.DRC_FREQ_STATUS 25 true
  else
    let d := put d
    { d with drc := { d.drc with freqTo := bit v 1, freqDefer := fld v 31 16 } }.latchSwitch now

/-- The merging-buffer entries of every channel drain (R440, R451). -/
def Dev.drainEntry (d : Dev) (e : MbEntry) : Dev :=
  d.memMask (64 * e.line) e.bytes

/-- Every merging buffer written (R440, R451). -/
def Dev.drainAll (d : Dev) : Dev :=
  let es := d.tca.mbs.flatMap (·.2)
  es.foldl Dev.drainEntry { d with tca := { d.tca with mbs := [] } }

/-- The latched switch goes ahead (R439, R440): one deferred by panic goes into its pre-fill once no panic is raised, or
after defer_us, and then it is forced; from the pre-fill the controller drains and relocks. -/
def freqSwitch (now : Nat) (d : Dev) : Dev :=
  let st := d.freqState
  if d.anyStopped || decide (st = 0 ∨ 4 ≤ st) then d
  else if st = 1 then d.latchSwitch now
  else if st = 2 then
    if !d.anyPanic then d.setFreqState now 3
    else if now < d.drc.freqSince + 1000 * d.drc.freqDefer then d
    else d.forceSwitch now
  else (d.drainAll.setFreqState now 4).setRb Reg.GLB_CLK_STATUS 25 false

/-- The first request issues on the target set, which becomes active (R440); untrained channels train step by step
(R441). -/
def freqSwitchDone (now : Nat) (d : Dev) : Dev :=
  if d.freqState ≠ 4 then d
  else
    let d := (d.setRb Reg.DRC_FREQ_STATUS 16 d.drc.freqTo).setRb Reg.GLB_CLK_STATUS 25 true
    let d := { d with drc := { d.drc with rows := [] } }
    d.setFreqState now (if (List.range 8).any (fun c => d.usable c && !d.trainedOn c) then 5 else 0)

/-- Whether a channel is to be trained: a usable one not trained on the active set after a switch, also while the next
switch waits for the step that runs, or one being returned (R439, R441, R447). -/
def Dev.wantsTraining (d : Dev) (c : Nat) : Bool :=
  decide (tget 0 d.drc.ret c = 1) || (decide (d.freqState = 5 ∨ d.freqState = 1) && d.usable c && !d.trainedOn c)

/-- Whether a training step may begin: none runs, no switch is under way and 100 µs have passed (R440, R441). -/
def Dev.mayStep (d : Dev) (now : Nat) : Bool :=
  !d.anyStopped && decide (d.freqState ≠ 4) && match d.drc.lastStep with
    | some t => decide (t + 100000 ≤ now)
    | none => true

/-- A training step stops a channel (R441). -/
def trainingStep (now c : Nat) (d : Dev) : Dev :=
  if d.wantsTraining c && d.mayStep now then d.setRb (Reg.DRC_CHAN_W0 c) 28 true else d

/-- Every 100 ms a channel runs a periodic retraining step (R442). -/
def periodicRetrain (now c : Nat) (d : Dev) : Dev :=
  if d.usable c && !d.anyStopped && decide (d.freqState ≠ 4) && decide (tget 0 d.drc.retrain c + 100000000 ≤ now) then
    let d := d.setRb (Reg.DRC_CHAN_W0 c) 28 true
    { d with drc := { d.drc with retrain := tset 0 d.drc.retrain c now } }
  else d

/-- A training step ends (R441, R442): the channel leaves its stopped state; `last` ends its training, `ok` false fails
it (R459). A switch latched behind training goes on (R439). -/
def trainingStepDone (now c : Nat) (last ok : Bool) (d : Dev) : Dev :=
  if !d.rb (Reg.DRC_CHAN_W0 c) 28 then d
  else
    let want := d.wantsTraining c
    let d := d.setRb (Reg.DRC_CHAN_W0 c) 28 false
    let d := { d with drc := { d.drc with lastStep := some now } }
    let d : Dev :=
      if !ok then d.raiseIf (d.usable c) Src.drcChanFail c
      else if want && last then
        let d := d.setRb Reg.DRC_FREQ_STATUS (8 * d.activeSet + c) true
        if tget 0 d.drc.ret c = 1 then { d with drc := { d.drc with ret := tset 0 d.drc.ret c 2 } } else d
      else d
    if d.freqState = 1 then d.latchSwitch now
    else if decide (d.freqState = 5) && (List.range 8).all (fun (c : Nat) => !d.usable c || d.trainedOn c) then d.setFreqState now 0
    else d

/-- A usable channel holds ALERT_N asserted for 1 ms (R459). -/
def ddrAlert (c : Nat) (d : Dev) : Dev := d.raiseIf (d.usable c) Src.drcChanFail c

/-! Retire and return (R446, R447). -/

/-- DRC_REBUILD.busy clears once no channel is being returned (R447). -/
def Dev.endReturns (d : Dev) : Dev :=
  if d.drc.ret.all (fun e => decide (e.2 = 9)) then d.setReg Reg.DRC_REBUILD 0 else d

/-- A channel enters a stage of its return, with the MiB to go through in it (R447). -/
def Dev.setReturn (d : Dev) (now c stage mib : Nat) : Dev :=
  { d with drc := { d.drc with ret := tset 0 d.drc.ret c stage, left := tset (0, 0) d.drc.left c (mib, now) } }

/-- A channel is retired (R446): its requests are served from the copy or the stripe, and otherwise poisoned. A return of it
that runs ends. -/
def Dev.retireChan (d : Dev) (now c : Nat) : Dev :=
  let d : Dev := if tget 0 d.drc.ret c ∈ [1, 2, 3] then (d.setReturn now c 0 0).endReturns else d
  if d.retired c then (d.setRb Reg.DRC_RETIRE c true).setRb (Reg.DRC_CHAN_W0 c) 28 false
  else
    let d := ((d.setRb Reg.DRC_RETIRE c true).setRetired c true).setUsable c false
    let d := d.setRb (Reg.DRC_CHAN_W0 c) 28 false
    let hit := fun (q : DramReq) => q.done.isNone && decide ((d.dramLoc q.addr).1 = c)
    let gone := d.drc.reqs.filter (fun q => hit q && d.lost q.addr)
    let reqs := d.drc.reqs.map (fun q =>
      if hit q then (if d.lost q.addr then { q with done := some true } else { q with issued := false }) else q)
    gone.foldl (fun d q => d.dramUe now 0 q.addr) { d with drc := { d.drc with reqs := reqs } }

/-- Setting a bit of DRC_RETIRE (R446): refused if it would retire the last usable channel. -/
def channelRetire (now : Nat) (r : Req) (c : Nat) (d : Dev) : Dev :=
  if d.rb Reg.DRC_RETIRE c then d
  else if d.usable c && decide (d.rf Reg.DRC_STATUS 31 24 = 2 ^ c) then d.refuse r Reg.DRC_RETIRE
  else if d.usable c || decide (tget 0 d.drc.ret c ≠ 0) then d.retireChan now c
  else d.setRb Reg.DRC_RETIRE c true

/-- Clearing a bit of DRC_RETIRE (R447): the channel is trained, zero-filled and rebuilt. A contained channel stays out
(R546). -/
def channelReturn (now : Nat) (r : Req) (c : Nat) (d : Dev) : Dev :=
  if !d.rb Reg.DRC_RETIRE c then d
  else if tget 0 d.drc.ret c = 9 then d.refuse r Reg.DRC_RETIRE
  else
    let d := d.setRb Reg.DRC_RETIRE c false
    if d.retired c then (d.setReturn now c 1 (d.rf (Reg.DRC_CHAN_W0 c) 11 0 * 1024)).setRb Reg.DRC_REBUILD 31 true
    else d

/-- A write of DRC_RETIRE (R446, R447): each bit that changes retires or returns its channel. The write is refused whole
where it would leave no usable channel, or names a contained one for return. -/
def retireWrite (now : Nat) (r : Req) (v : Word) (d : Dev) : Dev :=
  let us := (List.range 8).filter (fun c => d.usable c)
  if us.any (fun c => bit v c) && us.all (fun c => bit v c)
      || (List.range 8).any (fun c => d.rb Reg.DRC_RETIRE c && !bit v c && decide (tget 0 d.drc.ret c = 9)) then
    d.refuse r Reg.DRC_RETIRE
  else (List.range 8).foldl (fun d c => if bit v c then channelRetire now r c d else channelReturn now r c d) d

/-- MiB of mirrored regions and of the parity window, which a rebuild goes through (R447). -/
def Dev.protectedMib (d : Dev) : Nat :=
  (d.drc.mirrors.foldl (fun n m => n + m.2) 0 + (if d.rb Reg.DRC_PAR_BASE 31 then 8 * d.parWg else 0) + 2 ^ 20 - 1) / 2 ^ 20

/-- DRC_REBUILD.remaining (R447, R457): the MiB that the stages of the returns still have to go through. They count down from
what a stage begins with; what each µs takes off is the implementation's, a free value (log entry 138). -/
def Dev.rebuildLeft (d : Dev) (now : Nat) : Nat :=
  d.drc.left.foldl (fun n e => n + (e.2.1 - (List.range (now / 1000 - e.2.2 / 1000)).foldl
    (fun k i => k + Config.rebuildStep e.1 (e.2.2 / 1000 + i)) 0)) 0 % 2 ^ 24

/-- The zero fill of a returning channel ends (R447): unprotected data read as zero, and the channel becomes usable. What a
copy or a stripe holds is read from there until the rebuild ends. -/
def zeroFillDone (now c : Nat) (d : Dev) : Dev :=
  if tget 0 d.drc.ret c ≠ 2 then d
  else
    let gone := fun (a : Nat) => decide (a < d.fittedDram) && decide ((d.dramLoc a).1 = c) && !d.recoverable a
    let mem := d.mem.filter (fun e => !gone e.1)
    let poison := d.drc.poison.filter (fun e => !(decide (4 * e.1 < d.fittedDram) && decide ((d.dramLoc (4 * e.1)).1 = c)))
    let d := { d with mem := mem, drc := { d.drc with poison := poison } }
    ((d.setReturn now c 3 d.protectedMib).setRetired c false).setUsable c true

/-- The rebuild of a returned channel ends: its copies and units hold the data again, and DRC_REBUILD.busy clears with the
last (R447). -/
def rebuildDone (now c : Nat) (d : Dev) : Dev :=
  if tget 0 d.drc.ret c ≠ 3 then d else (d.setReturn now c 0 0).endReturns

end Sys2Proof.Machine
end

