-- ==== Sys2Proof/Machine/Crypto.lean ====
section
/-!
DEFINITION. The cryptographic functions that the spec names by their standards: AES-GCM (R229, IEEE 802.1AE-2018),
SHAKE256 (R492, R503) and Ed448ph (R492, RFC 8032). PRESUMED: their definitions are the standards' (log entries 5 and 6).
-/

namespace Sys2Proof.Machine

/-! AES (FIPS 197), on bytes as numbers, the state as 16 bytes column by column. -/

/-- A byte times x in the field of AES. -/
def aesX (a : Nat) : Nat := if a < 128 then 2 * a else (2 * a) ^^^ 0x11B

/-- A product in the field of AES, over the low n bits of the second factor. -/
def aesMul : (n a b : Nat) → Nat
  | 0, _, _ => 0
  | n + 1, a, b => (if b % 2 = 1 then a else 0) ^^^ aesMul n (aesX a) (b / 2)

/-- The inverse of a byte, 0 for 0: its power 254 = 2 + 4 + … + 128. -/
def aesInv (a : Nat) : Nat :=
  ((List.range 7).foldl (fun (p : Nat × Nat) _ => let s := aesMul 8 p.1 p.1; (s, aesMul 8 p.2 s)) (a, 1)).2

/-- The S-box of a byte: its inverse and four rotations of it, and 0x63. -/
def aesSub (a : Nat) : Nat :=
  let b := aesInv a
  let rot := fun (k : Nat) => (b * 2 ^ k) % 256 + b * 2 ^ k / 256
  b ^^^ rot 1 ^^^ rot 2 ^^^ rot 3 ^^^ rot 4 ^^^ 0x63

/-- The S-box as a table. -/
def aesTable : List Nat := (List.range 256).map aesSub

/-- Two lists combined by exclusive or. -/
def xorList (a b : List Nat) : List Nat := (a.zip b).map (fun e => e.1 ^^^ e.2)

/-- n more words of a key schedule for a key of nk words, from the i-th on. -/
def aesExpand (sbox : List Nat) (nk : Nat) : (n i : Nat) → List (List Nat) → List (List Nat)
  | 0, _, ws => ws
  | n + 1, i, ws =>
    let t := ws.getD (i - 1) []
    let sub := fun (w : List Nat) => w.map (fun b => sbox.getD b 0)
    let t := if i % nk = 0 then xorList (sub (t.tail ++ t.take 1)) [(List.range (i / nk - 1)).foldl (fun r _ => aesX r) 1, 0, 0, 0]
      else if 6 < nk ∧ i % nk = 4 then sub t else t
    aesExpand sbox nk n (i + 1) (ws ++ [xorList (ws.getD (i - nk) []) t])

/-- The round keys of a key of 16 or 32 bytes. -/
def aesKeys (sbox key : List Nat) : List (List Nat) :=
  let nk := key.length / 4
  let ws := aesExpand sbox nk (3 * nk + 28) nk ((List.range nk).map (fun i => (key.drop (4 * i)).take 4))
  (List.range (nk + 7)).map (fun i => ((ws.drop (4 * i)).take 4).flatten)

/-- The bytes of a block after the S-box, with row r of its columns shifted by r. -/
def aesShift (sbox s : List Nat) : List Nat :=
  (List.range 16).map (fun i => sbox.getD (s.getD ((i + 4 * (i % 4)) % 16) 0) 0)

/-- The columns of a block mixed. -/
def aesMix (s : List Nat) : List Nat :=
  (List.range 16).map (fun i =>
    let at_ := fun (k : Nat) => s.getD (i / 4 * 4 + (i + k) % 4) 0
    aesX (at_ 0) ^^^ aesX (at_ 1) ^^^ at_ 1 ^^^ at_ 2 ^^^ at_ 3)

/-- A block encrypted under round keys. -/
def aesBlock (sbox : List Nat) (keys : List (List Nat)) (x : List Nat) : List Nat :=
  let n := keys.length - 1
  let s := (List.range (n - 1)).foldl (fun s r => xorList (aesMix (aesShift sbox s)) (keys.getD (r + 1) []))
    (xorList x (keys.getD 0 []))
  xorList (aesShift sbox s) (keys.getD n [])

/-! GCM (NIST SP 800-38D), with blocks as 128-bit numbers, big-endian. -/

/-- A product in the field of GHASH, over the low n bits of the second factor, the highest of them first. -/
def gcmMul : (n v x : Nat) → Nat
  | 0, _, _ => 0
  | n + 1, v, x =>
    (if x.testBit n then v else 0) ^^^ gcmMul n (if v % 2 = 1 then (v / 2) ^^^ (0xE1 * 2 ^ 120) else v / 2) x

/-- The 16-byte blocks of some bytes, the last padded with zeros, as numbers. -/
def gcmBlocks (bs : List Byte) : List Nat := (List.range ((bs.length + 15) / 16)).map (fun i => beVal (slice bs (16 * i) 16))

/-- AES-GCM with a 12-byte nonce: the transformed bytes and the 16-byte tag. -/
@[irreducible] def aesGcm (key nonce aad data : List Byte) (encrypt : Bool) : List Byte × List Byte :=
  let sbox := aesTable
  let keys := aesKeys sbox (key.map (·.toNat))
  let enc := fun (n : Nat) => beVal ((aesBlock sbox keys ((beBytes 16 n).map (·.toNat))).map (BitVec.ofNat 8))
  let h := enc 0
  let j0 := beVal (padTo 12 nonce) * 2 ^ 32 + 1
  let out := ((List.range ((data.length + 15) / 16)).flatMap (fun i =>
    beBytes 16 (beVal (slice data (16 * i) 16) ^^^ enc (j0 + 1 + i)))).take data.length
  let cipher := if encrypt then out else data
  let lens := 8 * aad.length * 2 ^ 64 + 8 * cipher.length
  let s := (gcmBlocks aad ++ gcmBlocks cipher ++ [lens]).foldl (fun y x => gcmMul 128 h (y ^^^ x)) 0
  (out, beBytes 16 (s ^^^ enc j0))

/-! SHAKE256 (FIPS 202), with the state as 25 lanes, lane x + 5y at (x, y). -/

/-- A lane rotated left. -/
def rotLane (v k : Nat) : Nat := (v * 2 ^ k) % 2 ^ 64 + v / 2 ^ (64 - k)

/-- The rotation of each lane. -/
def keccakRot : List Nat :=
  [0, 1, 62, 28, 27, 36, 44, 6, 55, 20, 3, 10, 43, 25, 39, 41, 45, 15, 21, 8, 18, 2, 61, 56, 14]

/-- The register of the round constants after n steps. -/
def keccakLfsr : Nat → Nat
  | 0 => 1
  | n + 1 => let r := 2 * keccakLfsr n; if 256 ≤ r then (r ^^^ 0x171) else r

/-- The constant of a round. -/
def keccakRc (round : Nat) : Nat :=
  (List.range 7).foldl (fun c j => c + keccakLfsr (7 * round + j) % 2 * 2 ^ (2 ^ j - 1)) 0

/-- One round of Keccak-f[1600]. -/
def keccakRound (a : List Nat) (round : Nat) : List Nat :=
  let col := (List.range 5).map (fun x => (List.range 5).foldl (fun c y => c ^^^ a.getD (x + 5 * y) 0) 0)
  let a := (List.range 25).map (fun i =>
    a.getD i 0 ^^^ col.getD ((i + 4) % 5) 0 ^^^ rotLane (col.getD ((i + 1) % 5) 0) 1)
  let b := (List.range 25).map (fun i =>
    let x := i % 5
    let y := i / 5
    let from_ := (x + 3 * y) % 5 + 5 * x
    rotLane (a.getD from_ 0) (keccakRot.getD from_ 0))
  (List.range 25).map (fun i =>
    let at_ := fun (k : Nat) => b.getD ((i + k) % 5 + i / 5 * 5) 0
    let r := at_ 0 ^^^ ((2 ^ 64 - 1 - at_ 1) &&& at_ 2)
    if i = 0 then r ^^^ keccakRc round else r)

/-- Keccak-f[1600]. -/
def keccakF (a : List Nat) : List Nat := (List.range 24).foldl keccakRound a

/-- n squeezed blocks of 136 bytes. -/
def keccakSqueeze : (n : Nat) → List Nat → List Byte
  | 0, _ => []
  | n + 1, a => ((a.take 17).flatMap (leBytes 8)) ++ keccakSqueeze n (keccakF a)

/-- SHAKE256 of a message, to a given number of bytes (R492, R503). -/
@[irreducible] def shake256 (msg : List Byte) (outLen : Nat) : List Byte :=
  let n := msg.length / 136 + 1
  let last := 136 * n - 1
  let p := padTo (136 * n) (msg ++ [0x1F])
  let p := p.set last (byteAt p last ||| 0x80)
  let s := (List.range n).foldl (fun a k =>
    keccakF ((List.range 25).map (fun i => if i < 17 then a.getD i 0 ^^^ leAt p (136 * k + 8 * i) 8 else a.getD i 0)))
    (List.replicate 25 0)
  padTo outLen (keccakSqueeze (outLen / 136 + 1) s)

/-! Ed448 (RFC 8032), with points in projective coordinates. -/

/-- The prime of the field. -/
def edP : Nat := 2 ^ 448 - 2 ^ 224 - 1
/-- The order of the base point. -/
def edL : Nat := 2 ^ 446 - 13818066809895115352007386748515426880336692474882178609894547503885
/-- The constant of the curve, -39081. -/
def edD : Nat := edP - 39081

/-- b raised to a power of n bits, modulo the prime. -/
def edPow (b e : Nat) : (n : Nat) → Nat
  | 0 => 1
  | n + 1 =>
    let r := edPow b (e / 2) n
    let s := r * r % edP
    if e % 2 = 1 then s * b % edP else s

/-- A point (X : Y : Z). -/
structure EdPoint where
  x : Nat
  y : Nat
  z : Nat
  deriving DecidableEq, Repr

/-- The neutral point. -/
def edZero : EdPoint := ⟨0, 1, 1⟩

/-- The base point. -/
def edBase : EdPoint :=
  ⟨224580040295924300187604334099896036246789641632564134246125461686950415467406032909029192869357953282578032075146446173674602635247710,
   298819210078481492676017930443930673437544040154080242095928241372331506189835876003536878655418784733982303233503462500531545062832660,
   1⟩

/-- The sum of two points. -/
def EdPoint.add (p q : EdPoint) : EdPoint :=
  let a := p.z * q.z % edP
  let b := a * a % edP
  let c := p.x * q.x % edP
  let d := p.y * q.y % edP
  let e := edD * (c * d % edP) % edP
  let f := (b + edP - e) % edP
  let g := (b + e) % edP
  let h := (p.x + p.y) * (q.x + q.y) % edP
  ⟨a * f % edP * ((h + 2 * edP - c - d) % edP) % edP, a * g % edP * ((d + edP - c) % edP) % edP, f * g % edP⟩

/-- A point times a scalar of n bits. -/
def EdPoint.mul (p : EdPoint) (k : Nat) : (n : Nat) → EdPoint
  | 0 => edZero
  | n + 1 =>
    let r := p.mul (k / 2) n
    let s := r.add r
    if k % 2 = 1 then s.add p else s

/-- Whether two points are the same. -/
def EdPoint.same (p q : EdPoint) : Bool :=
  decide (p.x * q.z % edP = q.x * p.z % edP ∧ p.y * q.z % edP = q.y * p.z % edP)

/-- The 57 bytes of a point. -/
def EdPoint.enc (p : EdPoint) : List Byte :=
  let i := edPow p.z (edP - 2) 448
  leBytes 57 (p.y * i % edP + p.x * i % edP % 2 * 2 ^ 455)

/-- The point that 57 bytes encode, if they encode one. -/
def edDec (bs : List Byte) : Option EdPoint :=
  let v := leAt bs 0 57
  let y := v % 2 ^ 455
  let u := (y * y + edP - 1) % edP
  let w := (edD * (y * y % edP) + edP - 1) % edP
  let u3 := u * u % edP * u % edP
  let x := u3 * w % edP * edPow (u3 * (u * u % edP) % edP * (w * w % edP * w % edP) % edP) ((edP - 3) / 4) 446 % edP
  let neg := decide (v / 2 ^ 455 ≠ 0)
  if bs.length ≠ 57 ∨ edP ≤ y ∨ w * (x * x % edP) % edP ≠ u then none
  else if x = 0 then (if neg then none else some ⟨0, y, 1⟩)
  else some ⟨if decide (x % 2 = 1) = neg then x else edP - x, y, 1⟩

/-- What Ed448ph hashes before all else: its name, the flag of pre-hashing and the context. -/
def edDom (ctx : List Byte) : List Byte :=
  [0x53, 0x69, 0x67, 0x45, 0x64, 0x34, 0x34, 0x38, 1] ++ leBytes 1 ctx.length ++ ctx

/-- The scalar of a hash of 114 bytes. -/
def edScalar (bs : List Byte) : Nat := leVal (shake256 bs 114) % edL

/-- The Ed448ph signature of a 64-byte digest under a context by a 57-byte private key (R492): the public key's digest of it
is hashed in. -/
@[irreducible] def ed448Sign (key ctx digest : List Byte) : List Byte :=
  let h := shake256 key 114
  let s := (leAt h 0 56 / 4 * 4) % 2 ^ 447 + 2 ^ 447
  let pub := (edBase.mul s 448).enc
  let r := edScalar (edDom ctx ++ slice h 57 57 ++ digest)
  let rb := (edBase.mul r 446).enc
  let k := edScalar (edDom ctx ++ rb ++ pub ++ digest)
  rb ++ leBytes 57 ((r + k * s) % edL)

/-- Whether an Ed448ph signature of a 64-byte digest under a context verifies (R492), by the equation with the cofactor 4. -/
@[irreducible] def ed448Verify (pub ctx digest sig : List Byte) : Bool :=
  let rb := sig.take 57
  let s := leVal (sig.drop 57)
  match edDec rb, edDec pub with
  | some r, some a =>
    let k := edScalar (edDom ctx ++ rb ++ pub ++ digest)
    decide (sig.length = 114 ∧ s < edL)
      && ((edBase.mul (4 * s) 448).same ((r.mul 4 3).add (a.mul (4 * k) 448)))
  | _, _ => false

end Sys2Proof.Machine
end

