-- ==== Sys2Proof/Machine/VarnishOps.lean ====
section
/-!
DEFINITION. What a running transaction does to Varnish: the read signature (R158), the write set (R157), conflicts
(R165), and the effect of each write-set entry when it is applied (R161, R176); message delivery (R233 to R235).
-/

namespace Sys2Proof.Machine

/-! Signatures (R158). -/

/-- The four signature bits of a granule: one in each bank of 512 (R158; the hashes are free, log entry 3). -/
def Dev.sigMask (d : Dev) (gran : Nat) : Nat :=
  (List.range 4).foldl
    (fun m b => m ||| 2 ^ (512 * b + Config.sigHash b (d.reg Reg.VRN_SIG_SEED).toNat gran % 512)) 0

/-- Whether a signature holds a granule (R158, R165). -/
def Dev.sigHas (d : Dev) (x : Txn) (gran : Nat) : Bool := decide (x.sig &&& d.sigMask gran = d.sigMask gran)

/-- A tracked read enters the signature (R158): the 129th new granule aborts with cause 0x7, except in an irrevocable
run (R176). -/
def Dev.sigAdd (d : Dev) (key gran : Nat) : Dev :=
  let x := d.txn key
  if d.sigHas x gran then d
  else if decide (x.irrev = .spec) && decide (128 ≤ x.newGran) then d.abortTxn key 7
  else d.setTxn key { x with sig := x.sig ||| d.sigMask gran, newGran := x.newGran + 1 }

/-- Whether a transaction is protected against conflicts: irrevocable, or halted in hold mode (R165). -/
def Txn.guarded (x : Txn) : Bool := decide (x.irrev = .granted) || x.held

/-- The other transactions in flight whose signatures hold one of some granules (R165). -/
def Dev.conflicting (d : Dev) (key : Nat) (grans : List Nat) : List Nat :=
  tkeys (fun k x => decide (k ≠ key) && x.alive && grans.any (fun g => d.sigHas x g)) d.vrn.txns

/-- The unprotected transactions in conflict with some granules abort (R165, R186). -/
def Dev.abortConflicts (d : Dev) (key cause : Nat) (grans : List Nat) : Dev :=
  (d.conflicting key grans).foldl (fun d u => if (d.txn u).guarded then d else d.abortTxn u cause) d

/-- The granules that entries write: shared stores and consumed head positions (R165). -/
def wsGrans (es : List WsEntry) : List Nat :=
  es.filterMap fun e => match e with
    | .store g _ => some g
    | .msgCons _ h _ => some (h / 16)
    | _ => none

/-! Messages (R233 to R235). -/

/-- A completion leaves for its cluster's Easel (R130, R218). -/
def Dev.complete (d : Dev) (c token : Nat) (status : Word) : Dev :=
  { d with esl := { d.esl with comps := d.esl.comps ++ [⟨c, token, status⟩] } }

/-- The first result word of mrecv (R235; log entry 7). -/
def mrecvWord (status len : Nat) : Word := wd (Config.mrecvStatus status * 32 + len % 32)

/-- Whether cluster memory that a thread reads holds an uncorrectable error (R541). -/
def Dev.sramBad (d : Dev) (a n : Nat) : Bool := decide (d.fittedDram ≤ a) && d.poisoned a n

/-- An mrecv ends: its 68-byte result block is written and it completes (R235). -/
def Dev.recvEnd (d : Dev) (r : Recv) (status : Nat) (ws : List Word) : Dev :=
  let w := mrecvWord status ws.length
  (d.memWrite r.result (leBytes 4 w.toNat ++ padTo 64 (wordsBytes ws))).complete r.cluster r.token w

/-- The messages of a channel, from its head on, that a transaction has already received: those up to the last it took,
by their numbers (R235). -/
def Dev.consumed (d : Dev) (key ch : Nat) : Nat :=
  (d.txn key).ws.foldl (fun n e => match e with
    | .msgCons c _ k => if c = ch then max n (k + 1 - (d.chan ch).gone) else n
    | _ => n) 0

/-- Whether a message is there for a receive: the next one its transaction has not taken (R235). A receive of an
aborted or ended transaction takes none (R169). -/
def Dev.recvReady (d : Dev) (r : Recv) : Option Nat :=
  let i := match r.txn with
    | some k => d.consumed k r.channel
    | none => 0
  if i < (d.chan r.channel).lens.length ∧ ¬ r.gone ∧ r.txn.all (fun k => (d.txn k).alive) then some i else none

/-- A receive whose transaction has ended takes no message: it waits for its deadline (R131; log entry 31). -/
def Recv.ended (r : Recv) : Recv := { r with txn := none, gone := true }

/-- Waits of wt kind 2 that a message's arrival ends (R110, R233). -/
def Dev.wakeChan (d : Dev) (ch : Nat) : Dev :=
  (tkeys (fun _ (th : Thread) => match th.run with
    | .waiting 2 op _ => decide (op.toNat = ch)
    | _ => false) d.krv.threads).foldl (fun d t => d.endWait t 1) d

/-- An entry joins a speculative write set: the 49th aborts with cause 0x6 (R157, R168). -/
def Dev.wsPush (d : Dev) (key : Nat) (e : WsEntry) : Dev :=
  let x := d.txn key
  if decide (x.irrev = .spec) && decide (48 ≤ x.ws.length) then d.abortTxn key 6
  else d.setTxn key { x with ws := x.ws ++ [e] }

/-- What a run does next, if it has not been aborted on the way. -/
def Dev.ifAlive (d : Dev) (key : Nat) (f : Dev → Dev) : Dev := if (d.txn key).alive then f d else d

/-- A receive that finds its message (one in a slot with an uncorrectable error aborts a speculative run, R541): in a transaction the head position enters the signature and a consume entry is
made; without one the message leaves at once (R235). In an irrevocable run it leaves at once too (R176). A receive whose
head position or entry aborts its run (R168) takes nothing. -/
def Dev.recvTake (d : Dev) (r : Recv) (i : Nat) : Dev :=
  let ws := d.chanMsg r.channel i
  let head := d.slotAddr r.channel ((d.chan r.channel).head + i)
  match r.txn with
  | none => (d.chanPop r.channel).recvEnd r 0 ws
  | some k =>
    if (d.txn k).irrev = .granted then
      let d := d.sigAdd k (head / 16)
      let d := d.abortConflicts k 1 [head / 16]
      (d.chanPop r.channel).recvEnd r 0 ws
    else
      let d := if d.sramBad head 64 then d.abortTxn k 5
        else (d.sigAdd k (head / 16)).ifAlive k fun d => d.wsPush k (.msgCons r.channel head ((d.chan r.channel).gone + i))
      if (d.txn k).alive then d.recvEnd r 0 ws
      else { d with brs := { d.brs with recvs := d.brs.recvs ++ [r.ended] } }

/-- Receives that wait on a channel, in order: each that finds a message takes it (R235). -/
def Dev.serveRecvs (d : Dev) (ch : Nat) : Dev :=
  d.brs.recvs.foldl (fun d r =>
    if r.channel = ch then
      match d.recvReady r with
      | some i => ({ d with brs := { d.brs with recvs := d.brs.recvs.filter (· ≠ r) } }).recvTake r i
      | none => d
    else d) d

/-- A message becomes visible in its channel (R233, R234), and waits for it end. -/
def Dev.deliver (d : Dev) (ch : Nat) (ws : List Word) : Dev :=
  let d := d.chanPush ch ws
  if d.chanRing ch then d else (d.wakeChan ch).serveRecvs ch

/-- A committed close: the message becomes visible, or is dropped when the channel is full or disabled (R234, R547). -/
def Dev.commitClose (d : Dev) (ch : Nat) (ws : List Word) : Dev :=
  if d.chanEnabled ch && d.chanRoom ch then d.deliver ch ws else d.chanDrop ch

/-! Applying entries (R157, R161, R176). -/

/-- The bytes of a granule entry written; every D-cache line that holds the granule is invalidated (R106, R161). -/
def Dev.storeGran (d : Dev) (gran : Nat) (bytes : Tab (Option Byte)) : Dev :=
  let d := d.memMask (16 * gran) bytes
  let line := gran / 2
  { d with krv := { d.krv with dcache := d.krv.dcache.filter (fun e => match e.2 with
      | some l => decide (192 * 256 ≤ e.1) || decide (l.line ≠ line)
      | none => true) } }

/-- A granule enters the commit buffer of 1,024 granules until its DRAM write is acknowledged (R161); what would not fit,
of a control-plane transaction larger than the buffer alone, goes past it (DESIGN CHOICE, log entry 75). -/
def Dev.cbufAdd (d : Dev) (gran : Nat) : Dev := { d with vrn := { d.vrn with cbuf := (d.vrn.cbuf ++ [gran]).take 1024 } }

/-- A Palette function of a write set or of a task, as an acting owner; `own` is the packet's own handle and the head
that stands for it after the header cell is written (R303, R305, R312). -/
def Dev.palApply (d : Dev) (fn a : Nat) (h : Word) (arg : Word) (own : Option (Word × Word)) : Dev :=
  let isOwn := match own with
    | some (o, _) => decide (h = o)
    | none => false
  let tgt := match own with
    | some (o, n) => if h = o then n else h
    | none => h
  match fn with
  | 0x010 => d.pshare a tgt (fld arg 7 0) (fld arg 13 8)
  | 0x011 => d.pdropAs .pdrop a tgt
  | 0x012 => d.pfreeAs .pfree a tgt
  | _ => d.pswap a tgt arg isOwn

/-- One write-set entry applied at a time (R157): enqueues are left to the hand-off. -/
def Dev.applyEntry (d : Dev) (now key : Nat) (own : Option (Word × Word)) (e : WsEntry) : Dev :=
  match e with
  | .store g bs => (d.storeGran g bs).cbufAdd g
  | .counter i b p => d.addCounter i b p
  | .meter i len col _ => if d.meterOn i then d.setMeter i ((d.meter i).eval now len col).2 else d
  | .enq _ _ _ => d
  | .pal fn h arg => d.palApply fn (d.txn key).owner h arg own
  | .msgClose ch ws => d.commitClose ch ws
  | .msgCons ch _ n => if n = (d.chan ch).gone ∧ (d.chan ch).lens ≠ [] then d.chanPop ch else d

/-- An effect of a task with a transaction (R157, R176): a write-set entry of a speculative run; in an irrevocable run
it is applied at once, with aborts of the transactions it conflicts with, except enqueues and Palette functions on the
packet's own handle, which wait for vcommit. -/
def Dev.txnEffect (d : Dev) (now key : Nat) (e : WsEntry) : Dev :=
  let x := d.txn key
  if x.irrev = .granted then
    let defer := match e with
      | .enq _ _ _ => true
      | .pal _ h _ => decide (h = x.handle)
      | _ => false
    if defer then d.setTxn key { x with enqs := x.enqs ++ [e] }
    else
      let d := d.abortConflicts key 1 (wsGrans [e])
      d.applyEntry now key none e
  else d.wsPush key e

/-- A tracked store's bytes: merged into the granule's entry if there is one (R157). -/
def Dev.trackedStore (d : Dev) (now key addr : Nat) (bs : List Byte) : Dev :=
  let x := d.txn key
  let gran := addr / 16
  let o := addr % 16
  let new : Tab (Option Byte) := (List.range bs.length).foldl (fun m i => tset none m (o + i) (some (byteAt bs i))) []
  if x.irrev ≠ .granted ∧ x.ws.any (fun e => match e with
      | .store g _ => decide (g = gran)
      | _ => false) then
    d.setTxn key { x with ws := x.ws.map (fun e => match e with
      | .store g m => if g = gran then .store g (new.foldl (fun m e => tset none m e.1 e.2) m) else e
      | e => e) }
  else d.txnEffect now key (.store gran new)

/-- A byte as a transaction sees it: its own store, else memory (R105, R157). -/
def Dev.trackedByte (d : Dev) (key a : Nat) : Byte :=
  ((d.txn key).ws.findSome? (fun e => match e with
    | .store g m => if g = a / 16 then tget none m (a % 16) else none
    | _ => none)).getD (d.memGet a)

end Sys2Proof.Machine
end

