-- ==== Sys2Proof/Machine/Easel.lean ====
section
/-!
DEFINITION. The Easel (R124 to R153): records and tokens, selection and pre-emption, starting and resuming tasks, the
task-ending words, and what an abort does to a transaction's task (R149, R170, R171, R174).
-/

namespace Sys2Proof.Machine

/-! Records (R126, R133). -/

/-- A record of a cluster's matching store. -/
def Dev.rcd (d : Dev) (c i : Nat) : Option Rec := tget none d.esl.recs (1024 * c + i)
/-- The device with a record of the matching store replaced or removed. -/
def Dev.setRcd (d : Dev) (c i : Nat) (r : Option Rec) : Dev :=
  { d with esl := { d.esl with recs := tset none d.esl.recs (1024 * c + i) r } }

/-- Free-standing records of a cluster in use (R133). -/
def Dev.freeUsed (d : Dev) (c : Nat) : Nat :=
  d.esl.recs.countP (fun e => decide (e.1 / 1024 = c ∧ 256 ≤ e.1 % 1024))

/-- The index for a record without a transaction: the lowest free one (log entry 23); none at CLU_FREE_LIMIT (R133). -/
def Dev.freeRcd (d : Dev) (c : Nat) : Option Nat :=
  if d.freeUsed c < d.rf (Reg.CLU_FREE_LIMIT c) 9 0 then findNat (fun i => (d.rcd c i).isNone) 256 768 else none

/-- Whether every slot in use of a record is filled (R134). -/
def Rec.isFull (r : Rec) : Bool := r.slots.all (fun s => match s with
  | some x => x.filled
  | none => true)

/-- A record stored, with its ready time if it is ready (R134). -/
def Dev.storeRcd (d : Dev) (c i : Nat) (r : Rec) : Dev :=
  let (n, d) := d.nextSeq
  d.setRcd c i (some { r with ready := if r.isFull then some n else none })

/-- The effective priority of a task or record (R135). -/
def Dev.effPrio (d : Dev) (c : Nat) (hasTxn : Bool) (txn prio : Nat) : Nat :=
  if hasTxn && d.rb (Reg.CLU_EASEL_CTL c) 9 && tget false d.esl.boosted (256 * c + txn) then 7 else prio

/-- The fields of a record's 64 bytes that software writes, and whether the fields R126 marks 0 are 0, entry is
aligned and every slot kind is 0 or 1 (R126, R127). Status words are ignored. -/
def parseRec (bs : List Byte) : Rec × Bool :=
  let w := fun i => wd (leAt bs (4 * i) 4)
  let slot := fun k => w (8 + 2 * k)
  let used := fun k => decide (fld (slot k) 31 30 = 1)
  let r : Rec := { entry := w 0, prio := fld (w 1) 2 0, ticket := 0, canvas := 0, user := w 4, hasTxn := false, txn := 0,
                   resume := false, save := 0,
                   slots := (List.range 4).map (fun k =>
                     if used k then some ⟨fld (slot k) 15 0, false, 0⟩ else none),
                   ready := none, tid := 0, taken := false }
  let ok := decide (fld (w 0) 1 0 = 0) && decide (fld (w 1) 31 3 = 0) && decide (w 2 = 0) && decide (w 3 = 0)
    && decide (w 5 = 0) && decide (w 6 = 0) && decide (w 7 = 0)
    && (List.range 4).all (fun k => decide (fld (slot k) 31 30 < 2) && decide (fld (slot k) 29 16 = 0))
  (r, ok)

/-- The tokens that a record's slots name. -/
def Rec.tokens (r : Rec) : List Nat := r.slots.filterMap (fun s => s.map (·.token))

/-- Whether no two of some tokens are equal (R130). -/
def distinct : List Nat → Bool
  | [] => true
  | a :: r => !(r.contains a) && distinct r

/-! Tokens (R128 to R130). -/

/-- Whether a token is live for a task: its transaction's, or the task's own (R130). -/
def Dev.tokLive (d : Dev) (c token : Nat) (txn : Option Nat) (tid : Nat) : Bool :=
  let i := token % 4096
  let x := d.tok (2560 * c + i)
  decide (i < 2560) && x.live && decide (x.gen = token / 4096) &&
    match txn with
    | some s => decide (i / 8 = s)
    | none => decide (2048 ≤ i) && decide (x.tid = tid) && !x.ended

/-- The tables entries a task may take a token from (R128). -/
def tokRange (txn : Option Nat) : Nat × Nat :=
  match txn with
  | some s => (8 * s, 8)
  | none => (2048, 512)

/-- A token's index for a task: the lowest that is not live (log entry 23); none at the limit of R129. -/
def Dev.freeTok (d : Dev) (c : Nat) (txn : Option Nat) : Option Nat :=
  let (lo, n) := tokRange txn
  findNat (fun i => !(d.tok (2560 * c + i)).live) lo n

/-- The token that an index would issue: its generation advanced, 15 wrapping to 1 (R128). -/
def Dev.tokenOf (d : Dev) (c i : Nat) : Nat :=
  let g := (d.tok (2560 * c + i)).gen
  (if g = 15 then 1 else g + 1) * 4096 + i

/-- A token made live for a task (R129). -/
def Dev.liveTok (d : Dev) (c token tid : Nat) : Dev :=
  d.setTok (tokKey c token) { gen := token / 4096, live := true, tid := tid, done := none, named := false, ended := false }

/-- A completion reaches the Easel (R130): it fills the slot that names its token, or is held in the token table; one
for a token that is not live is discarded (R149). -/
def Dev.fillToken (d : Dev) (x : Comp) : Dev :=
  let k := tokKey x.cluster x.token
  let tk := d.tok k
  if !(tk.live && decide (tk.gen = x.token / 4096)) then d
  else if tk.named then
    match d.esl.recs.find? (fun e => decide (e.1 / 1024 = x.cluster) && match e.2 with
        | some r => decide (x.token ∈ r.tokens)
        | none => false) with
    | some (i, some r) =>
      let r := { r with slots := r.slots.map (fun s => s.map (fun y =>
        if y.token = x.token then { y with filled := true, status := x.status } else y)) }
      d.storeRcd (i / 1024) (i % 1024) r
    | _ => d
  else if tk.ended then d.setTok k { tk with live := false, ended := false }
  else d.setTok k { tk with done := some x.status }

/-- The next completion for a cluster arrives (R130). -/
def completionArrival (c : Nat) (d : Dev) : Dev :=
  match d.esl.comps.find? (fun x => decide (x.cluster = c)) with
  | some x => { d with esl := { d.esl with comps := d.esl.comps.erase x } }.fillToken x
  | none => d

/-- The next oldest-in-domain report for a cluster arrives (R135, R162). -/
def oldestReport (c : Nat) (d : Dev) : Dev :=
  match d.esl.reports.find? (fun x => decide (x.1 = c)) with
  | some x => { d with esl := { d.esl with reports := d.esl.reports.erase x,
                                           boosted := tset false d.esl.boosted (256 * c + x.2) true } }
  | none => d

/-! Starting a task (R138, R139, R144). -/

/-- The stack top of a thread (R139). -/
def Dev.stackTop (d : Dev) (t : Nat) : Word :=
  let c := clusterOf t
  wd (d.rf (Reg.CLU_STACK_CFG c) 18 10 * 1024 + (t % 64 + 1) * 2 ^ d.rf (Reg.CLU_STACK_CFG c) 3 0)

/-- The internal address of a save slot (R146). -/
def Dev.saveAddr (d : Dev) (c slot : Nat) : Nat := cluBase c + d.rf (Reg.CLU_SAVE_CFG c) 18 10 * 1024 + slot * 1024

/-- The bsave image of the Message brush (R223). -/
def msgImage (m : Option OpenMsg) : List Byte :=
  match m with
  | some x => leBytes 4 (6 * 2 ^ 24 + 2 ^ 16 + 1)
      ++ leBytes 4 (2 ^ 31 + x.channel * 2 ^ 16 + x.words.length) ++ padTo 64 (wordsBytes x.words) ++ zeros 24
  | none => leBytes 4 (6 * 2 ^ 24 + 2 ^ 16) ++ zeros 92

/-- The bsave image of a brush that keeps no per-thread state (R223). -/
def emptyImage (b : Nat) : List Byte := leBytes 4 (b * 2 ^ 24 + 2 ^ 16) ++ zeros 92

/-- A brest image read back (R223): whether it is accepted, and the open message it holds. An image is rejected for a
wrong brush or version, for a reserved field that it sets and for a channel out of range, live or not; brushes 0 to 5
accept live = 0 only. -/
def readImage (b : Nat) (bs : List Byte) : Bool × Option OpenMsg :=
  let w0 := wd (leAt bs 0 4)
  let w1 := wd (leAt bs 4 4)
  let ch := fld w1 26 16
  let n := fld w1 4 0
  if fld w0 31 24 ≠ b ∨ fld w0 23 16 ≠ 1 ∨ fld w0 15 1 ≠ 0 ∨ leAt bs 0x48 24 ≠ 0 then (false, none)
  else if b ≠ 6 then (!bit w0 0, none)
  else if fld w1 30 27 ≠ 0 ∨ fld w1 15 5 ≠ 0 ∨ 1535 < ch then (false, none)
  else if !bit w0 0 then (true, none)
  else if 16 < n then (false, none)
  else (true, if bit w1 31 then some ⟨ch, bytesWords n (bs.drop 8)⟩ else none)

/-- A thread's context as a save slot holds it (R146). The image areas of brushes without live state hold zeros (DESIGN CHOICE,
log entry 142). -/
def saveImage (th : Thread) : List Byte :=
  let (wait, op) := match th.run with
    | .waiting k op rd => (2 ^ 31 + k * 2 ^ 8 + rd, op)
    | _ => (0, 0)
  let ws := [th.pc, th.flags, th.lc, th.repLeft, th.repAddr, th.tcmp, th.tvb, th.epc, th.ecause, th.etval, th.estat,
    th.ebta, th.rcnt, th.dwin, wd wait, op, wd (if th.msg.isSome then 64 else 0), wd (th.deadline.toNat / 2 ^ 32)]
  wordsBytes ((List.range 32).map th.g ++ ws) ++ zeros 56
    ++ zeros (0x60 * 6) ++ (if th.msg.isSome then msgImage th.msg else zeros 96) ++ zeros 96

/-- A thread with the context of a save slot restored (R144, R146). -/
def Thread.restore (th : Thread) (bs : List Byte) : Thread :=
  let w := fun o => wd (leAt bs o 4)
  let wait := w 0xB8
  { th with
    gpr := (List.range 31).foldl (fun m i => tset 0 m (i + 1) (w (4 * (i + 1)))) []
    pc := w 0x80, flags := w 0x84 &&& flagsMask, lc := w 0x88, repLeft := w 0x8C, repAddr := w 0x90
    deadline := BitVec.ofNat 64 ((w 0xC4).toNat * 2 ^ 32 + (w 0x94).toNat)
    tvb := w 0x98 &&& tvbMask, epc := w 0x9C, ecause := w 0xA0 &&& ecauseMask, etval := w 0xA4
    estat := w 0xA8 &&& estatMask, ebta := w 0xAC, rcnt := w 0xB0, dwin := w 0xB4 &&& dwinMask
    slot := .none, fly := [], load := none, saving := none
    run := if bit wait 31 then .waiting (fld wait 9 8) (w 0xBC) (fld wait 4 0) else .running
    msg := if bit (w 0xC0) 6 then (readImage 6 (slice bs (0x100 + 0x60 * 6) 96)).2 else none }

/-- The state the Easel writes when it starts a record (R138). -/
def Thread.start (th : Thread) (r : Rec) (sp tvb dwin : Word) (held : Bool) : Thread :=
  let st := fun k => match (r.slots.getD k none) with
    | some s => s.status
    | none => (0 : Word)
  let th := ((((((th.setG 1 r.canvas).setG 2 r.user).setG 3 (st 0)).setG 4 (st 1)).setG 5 (st 2)).setG 6 (st 3)).setG 29 sp
  { th with pc := r.entry, flags := 0, lc := 0, deadline := 0, estat := 0, repLeft := 0, repAddr := 0, tvb := tvb,
            dwin := dwin, msg := none, slot := .none, fly := [], load := none, saving := none,
            run := if held then .starting else .running }

/-- A record starts on a thread (R138, R144): its tokens end (R129), the record leaves the store, CLU_DISPATCH_CNT
counts it. An irrevocable rerun is held at its entry (R173). A pre-empted wt evaluates its wait once (R145). -/
def Dev.startRec (d : Dev) (now t i : Nat) (r : Rec) : Dev :=
  let c := clusterOf t
  let (n, d) := d.nextSeq
  let d := r.tokens.foldl (fun d tk =>
    let x := d.tok (tokKey c tk)
    d.setTok (tokKey c tk) { x with live := false, done := none, named := false }) d
  let d := (d.setRcd c i none).bump64 (Reg.CLU_DISPATCH_CNT_LO c) 1
  let task : Task := { hasTxn := r.hasTxn, txn := r.txn, prio := r.prio, ticket := r.ticket, canvas := r.canvas,
                       user := r.user, entry := r.entry, seq := n }
  if r.resume then
    let th := (d.thr t).restore (d.memRead (d.saveAddr c r.save) 1024)
    let d := { d with esl := { d.esl with saves := tset false d.esl.saves (64 * c + r.save) false } }
    let d := d.setThr t { th with task := some task, tid := r.tid }
    match th.run with
    | .waiting k op _ =>
      if d.waitEvent t k op then d.endWait t 1
      else if th.deadline.toNat ≤ now then d.endWait t 0
      else d
    | _ => d
  else
    let held := r.hasTxn && decide ((d.txn (256 * c + r.txn)).irrev = .waits)
    let th := (d.thr t).start r (d.stackTop t) (d.reg (Reg.CLU_TVB c) &&& tvbMask) (wd (d.rf (Reg.CLU_DWIN c) 8 0)) held
    d.setThr t { th with task := some task, tid := n }

/-! Selection (R135 to R137) and pre-emption (R140 to R143). -/

/-- Whether a cluster's KCLK runs (R45). -/
def Dev.cluClocked (d : Dev) (c : Nat) : Bool := d.rb Reg.GLB_CLK_STATUS c
/-- Whether a cluster is in service: not out, not spare, not failed (R24, R558). -/
def Dev.cluServes (d : Dev) (c : Nat) : Bool :=
  decide (c < 24) && !d.rb (Reg.FLT_UNITS 0) c && !d.rb (Reg.FLT_UNITS 1) c && !d.rb (Reg.FLT_UNITS 2) c
/-- Whether a cluster drains (R547). -/
def Dev.draining (d : Dev) (c : Nat) : Bool := d.flt.drains.any (fun x => decide (x.cluster = c) && x.since.isSome)
/-- Whether a cluster runs tasks: in service and clocked (R150). -/
def Dev.cluRuns (d : Dev) (c : Nat) : Bool := d.cluServes c && d.cluClocked c
/-- Whether a cluster is active, so that the distributor may use it: in service, clocked, not being gated and not
draining (R24, R524, R547). -/
def Dev.cluActive (d : Dev) (c : Nat) : Bool :=
  d.cluRuns c && !d.rb (Reg.PWR_CL_W0 c) 30 && !d.draining c

/-- Threads of a core that hold a task (R136). -/
def Dev.coreLoad (d : Dev) (core : Nat) : Nat :=
  (List.range 8).countP (fun k => (d.thr (8 * core + k)).task.isSome)

/-- Whether a thread is idle and Easel-managed, and may take a record (R136). -/
def Dev.idleFor (d : Dev) (t : Nat) (hasTxn : Bool) : Bool :=
  let th := d.thr t
  th.task.isNone && decide (th.run = .stopped) && decide (th.dbg = .none) && !d.masterManaged t
    && !(hasTxn && d.masterCore t)

/-- Of two candidates the one with the smaller key, the first on a tie. -/
def pickMin (key : Nat → Nat) : List Nat → Option Nat
  | [] => none
  | a :: r => match pickMin key r with
    | none => some a
    | some b => if key b < key a then some b else some a

/-- The idle thread for a record: the core with the fewest tasks, then the lowest core, then the lowest thread
(R136). -/
def Dev.idleThread (d : Dev) (c : Nat) (hasTxn : Bool) : Option Nat :=
  pickMin (fun t => d.coreLoad (t / 8)) (((List.range 64).map (64 * c + ·)).filter (fun t => d.idleFor t hasTxn))

/-- Whether a thread may be pre-empted for a record (R141). -/
def Dev.victimOk (d : Dev) (t : Nat) (hasTxn : Bool) : Bool :=
  let th := d.thr t
  let c := clusterOf t
  match th.task with
  | none => false
  | some k =>
    (match th.run with
     | .running | .waiting _ _ _ => true
     | _ => false)
    && decide (th.dbg = .none) && th.saving.isNone && !d.masterManaged t && d.txnRuns t
    && !(k.hasTxn && decide ((d.txn (256 * c + k.txn)).irrev = .granted))
    && (k.hasTxn || (d.freeRcd c).isSome) && !(hasTxn && d.masterCore t)

/-- The victim for a record: lowest effective priority, then the most recent start (R140). -/
def Dev.victim (d : Dev) (c : Nat) (hasTxn : Bool) : Option Nat :=
  pickMin (fun t => match (d.thr t).task with
      | some k => d.effPrio c k.hasTxn k.txn k.prio * 2 ^ 64 + (2 ^ 64 - 1 - k.seq % 2 ^ 64)
      | none => 2 ^ 80)
    (((List.range 64).map (64 * c + ·)).filter (fun t => d.victimOk t hasTxn))

/-- A free save slot of a cluster (R146): the lowest (log entry 23). -/
def Dev.freeSave (d : Dev) (c : Nat) : Option Nat :=
  findNat (fun i => !tget false d.esl.saves (64 * c + i)) 0 (d.rf (Reg.CLU_SAVE_CFG c) 6 0)

/-- The victim and save slot with which a record may pre-empt (R140). -/
def Dev.preempts (d : Dev) (c : Nat) (r : Rec) : Option (Nat × Nat) :=
  let m := d.rf (Reg.CLU_EASEL_CTL c) 2 0
  if m = 0 then none
  else match d.freeSave c, d.victim c r.hasTxn with
    | some s, some v =>
      match (d.thr v).task with
      | some k =>
        if d.effPrio c k.hasTxn k.txn k.prio + m ≤ d.effPrio c r.hasTxn r.txn r.prio then some (v, s) else none
      | none => none
    | _, _ => none

/-- The ready records of a cluster that can start or pre-empt (R137). -/
def Dev.candidates (d : Dev) (c : Nat) : List (Nat × Rec) :=
  d.esl.recs.filterMap fun e => match e.2 with
    | some r =>
      if e.1 / 1024 = c ∧ r.ready.isSome ∧ ¬ r.taken
          ∧ ((d.idleThread c r.hasTxn).isSome ∨ (d.preempts c r).isSome) then some (e.1 % 1024, r) else none
    | none => none

/-- The order of R135: highest effective priority, earliest ready time, lowest index. -/
def Dev.before (d : Dev) (c : Nat) (a b : Nat × Rec) : Bool :=
  let pa := d.effPrio c a.2.hasTxn a.2.txn a.2.prio
  let pb := d.effPrio c b.2.hasTxn b.2.txn b.2.prio
  let ra := a.2.ready.getD 0
  let rb := b.2.ready.getD 0
  decide (pb < pa) || (decide (pa = pb) && (decide (ra < rb) || (decide (ra = rb) && decide (a.1 ≤ b.1))))

/-- The first of some records in the order of R135. -/
def Dev.firstRec (d : Dev) (c : Nat) : List (Nat × Rec) → Option (Nat × Rec)
  | [] => none
  | a :: r => match d.firstRec c r with
    | none => some a
    | some b => if d.before c a b then some a else some b

/-- A KCLK cycle's selection in a cluster (R135 to R137, R140): the first record that can start does so on an idle
thread, or else reserves a victim and a save slot. -/
def easelSelect (now c : Nat) (d : Dev) : Dev :=
  if d.rb (Reg.CLU_EASEL_CTL c) 8 && d.cluRuns c then
    match d.firstRec c (d.candidates c) with
    | none => d
    | some (i, r) =>
      match d.idleThread c r.hasTxn with
      | some t => d.startRec now t i r
      | none => match d.preempts c r with
        | some (v, s) =>
          let d := d.setRcd c i (some { r with taken := true })
          let d := { d with esl := { d.esl with saves := tset false d.esl.saves (64 * c + s) true } }
          d.updThr v (fun th => { th with saving := some (64 * i + s) })
        | none => d
  else d

/-- The victim reaches its word boundary (R142): its context is saved (R146), its resume record stored at its effective
priority, and the record that waited starts (R143). The free-standing record that it may need is not reserved when the victim
is selected: the stopped victim waits until one is free (DESIGN CHOICE, log entry 145). -/
def preemptSave (now t : Nat) (d : Dev) : Dev :=
  let th := d.thr t
  let c := clusterOf t
  match th.saving, th.task with
  | some n, some k =>
    let i := n / 64
    let s := n % 64
    let ri := if k.hasTxn then some k.txn else d.freeRcd c
    match d.rcd c i, ri with
    | some p, some ri =>
      if th.load.isNone && th.fly.all (fun f => decide (f = .ok)) && decide (th.slot = .none) && d.txnRuns t then
        let r : Rec := { entry := k.entry, prio := d.effPrio c k.hasTxn k.txn k.prio, ticket := k.ticket,
                         canvas := k.canvas, user := k.user, hasTxn := k.hasTxn, txn := k.txn, resume := true,
                         save := s, slots := [], ready := none, tid := th.tid, taken := false }
        let d := d.memWrite (d.saveAddr c s) (saveImage th)
        let d := (d.storeRcd c ri r).bump64 (Reg.CLU_PREEMPT_CNT_LO c) 1
        let d := d.updThr t (fun th => { th.idle with saving := none })
        d.startRec now t i p
      else d
    | _, _ => d
  | _, _ => d

/-! Task-ending words (R127, R148). -/

/-- A task without a transaction ends on a thread (R129, R148, R367): unnamed tokens end, its locks break, it stops. -/
def Dev.endTask (d : Dev) (t : Nat) : Dev :=
  let th := d.thr t
  let d := d.endTaskToks (clusterOf t) th.tid
  let d := d.breakHolder (d.holderId t)
  (d.updThr t (fun th => th.advance false)).stopThread t

/-- tcont (R127, R130, R148): the record at ra is checked and stored, and the task ends. -/
def tcontCmd (t : Nat) (f : RFmt) (d : Dev) : Dev :=
  d.issue t fun d =>
    let w := RFmt.word f 0x30
    let th := d.thr t
    let c := clusterOf t
    let va := (th.g f.ra.toNat).toNat
    if isAtl t then d.trapWord t 2 w
    else if f.rd.toNat ≠ 0 ∨ f.rb.toNat ≠ 0 ∨ f.fn.toNat ≠ 0 then d.trapWord t 1 w
    else if va % 64 ≠ 0 then d.takeTrap t ⟨3, 1, false, wd va⟩
    else
      let off := if va < 0x80000 then some va
        else if 0x01000000 + c * 0x100000 ≤ va ∧ va < 0x01080000 + c * 0x100000 then some (va - (0x01000000 + c * 0x100000))
        else none
      match off with
      | none => (d.captureVa t va 64).takeTrap t ⟨4, 1, false, wd va⟩
      | some off =>
        let pr := parseRec (d.memRead (cluBase c + off) 64)
        let r : Rec := pr.1
        let ok : Bool := pr.2
        let txn : Option Nat := match th.task with
          | some k => if k.hasTxn then some k.txn else none
          | none => none
        if !(ok && distinct r.tokens && r.tokens.all (fun tk => d.tokLive c tk txn th.tid)) then d.trapWord t 1 w
        else
          let idx := match txn with
            | some s => some s
            | none => d.freeRcd c
          match idx with
          | none => d.trapWord t 2 w
          | some i =>
            let r := { r with
              ticket := (th.task.map (fun (k : Task) => k.ticket)).getD 0
              canvas := (th.task.map (fun (k : Task) => k.canvas)).getD 0
              hasTxn := txn.isSome, txn := txn.getD 0, tid := th.tid
              slots := r.slots.map (fun (s : Option RSlot) => s.map (fun (y : RSlot) =>
                match (d.tok (tokKey c y.token)).done with
                | some st => { y with filled := true, status := st }
                | none => y)) }
            let d := r.tokens.foldl (fun d tk =>
              d.setTok (tokKey c tk) { d.tok (tokKey c tk) with named := true }) d
            let d := if txn.isSome then (d.updThr t (fun th => th.advance false)).stopThread t else d.endTask t
            d.storeRcd c i r

/-- The shared checks of vcommit, vabort and tend (R118, R148): cause 0x02 on the Atelier; all fields 0; the task must,
or must not, carry a transaction. -/
def endCmd (t op : Nat) (low : BitVec 25) (needTxn : Bool) (d : Dev) (body : Dev → Dev) : Dev :=
  d.issue t fun d =>
    let w := wordC op low.toNat
    if isAtl t then d.trapWord t 2 w
    else d.legal t (decide (low.toNat = 0) && decide ((d.thr t).hasTxn = needTxn)) w body

/-- tend (R148). -/
def tendCmd (t : Nat) (low : BitVec 25) (d : Dev) : Dev := endCmd t 0x33 low false d fun d => d.endTask t

/-- vcommit (R159, R367): the task ends, the transaction's locks break, and its request will leave the cluster. -/
def vcommitCmd (t : Nat) (low : BitVec 25) (d : Dev) : Dev :=
  endCmd t 0x31 low true d fun d =>
    match txnKey t (d.thr t) with
    | some k =>
      let d := d.breakHolder (d.holderId t)
      let d := d.updTxn k (fun x => { x with phase := .ending })
      (d.updThr t (fun th => th.advance false)).stopThread t
    | none => d

/-- vabort (R168, R176): cause 0x9, or a void with cause 0xC in an irrevocable run. -/
def vabortCmd (t : Nat) (low : BitVec 25) (d : Dev) : Dev :=
  endCmd t 0x32 low true d fun d =>
    match txnKey t (d.thr t) with
    | some k => d.abortTxn k (if (d.txn k).irrev = .granted then 0xC else 9)
    | none => d

/-! Aborts at the Easel (R149, R170 to R174). -/

/-- The thread that runs a transaction's task. -/
def Dev.txnThread (d : Dev) (key : Nat) : Option Nat :=
  (tkeys (fun t th => decide (txnKey t th = some key)) d.krv.threads).head?

/-- The cipher chains of a transaction that were not swapped in return to the Palette (R230). -/
def Dev.freeCiphers (d : Dev) (key : Nat) : Dev :=
  let mine := d.brs.ciphers.filter (fun x => decide (x.txn = key))
  let d := { d with brs := { d.brs with ciphers := d.brs.ciphers.filter (fun x => decide (x.txn ≠ key)) } }
  mine.foldl (fun d x => if d.isHead x.handle then d.freeChain x.handle else d) d

/-- The report to the cluster of a domain's head, if reports are on (R162). -/
def Dev.reportHead (d : Dev) (dn : Nat) : Dev :=
  if d.rb Reg.VRN_CTL 1 then
    let x := d.dom dn
    match x.flight with
    | [] => d
    | tk :: _ =>
      match d.vrn.txns.find? (fun e => decide (e.2.domain = dn ∧ e.2.ticket = tk ∧ e.2.phase ≠ .free)) with
      | some (k, _) => { d with esl := { d.esl with reports := d.esl.reports ++ [(k / 256, k % 256)] } }
      | none => d
  else d

/-- Whether ticket a is b or younger than b (R35). -/
def notOlder (a b : Nat) : Bool := decide ((a + 2 ^ 32 - b) % 2 ^ 32 < 2 ^ 31)

/-- Whether a transaction is ticketed after the position of a control-plane transaction (R184). -/
def Cp.isAfter (c : Cp) (x : Txn) : Bool := notOlder x.ticket (tget 0 c.before x.domain)

/-- Whether a transaction may receive the irrevocable grant (R173). -/
def Dev.eligible (d : Dev) (x : Txn) : Bool :=
  decide (x.irrev = .waits) && decide (x.phase = .active) && decide ((d.dom x.domain).flight.head? = some x.ticket)
    && !(d.vrn.cps.any (fun c => c.isAfter x)) && x.nonspec

/-- The transactions that wait for the grant, in the order in which they became eligible (R173). -/
def Dev.noteEligible (d : Dev) : Dev :=
  let old := d.vrn.waiters.filter (fun k => d.eligible (d.txn k))
  let new := (tkeys (fun k x => d.eligible x && !(old.contains k)) d.vrn.txns)
  { d with vrn := { d.vrn with waiters := old ++ new } }

/-- A ticket leaves its domain, committed or voided; if it was the head the next one is reported (R160, R162, R170). -/
def Dev.passTicket (d : Dev) (dn ticket : Nat) : Dev :=
  let x := d.dom dn
  let was := decide (x.flight.head? = some ticket)
  let d := d.setDom dn { x with flight := x.flight.erase ticket }
  if was then (d.reportHead dn).noteEligible else d

/-! The non-speculative voltage (R173, R529). -/

/-- A cluster's power state. -/
def Dev.clp (d : Dev) (c : Nat) : ClPwr := tget ClPwr.reset d.pwr.cl c
/-- The device with a cluster's power state replaced. -/
def Dev.setClp (d : Dev) (c : Nat) (x : ClPwr) : Dev := { d with pwr := { d.pwr with cl := tset ClPwr.reset d.pwr.cl c x } }

/-- Whether a transaction makes Varnish request the non-speculative voltage for its cluster (R173, R529): it holds the
grant, or waits for it at the head of its domain. -/
def Dev.wantsNominal (d : Dev) (x : Txn) : Bool :=
  decide (x.phase ≠ .free) && (decide (x.irrev = .granted) || decide (x.irrev = .waits)
    && (x.nonspec || decide ((d.dom x.domain).flight.head? = some x.ticket)))

/-- Whether a transaction of a cluster waits for or holds the irrevocable grant (R529). -/
def Dev.irrevHere (d : Dev) (c : Nat) : Bool :=
  d.vrn.txns.any (fun e => decide (e.1 / 256 = c) && (decide (e.2.phase ≠ .free) && decide (e.2.irrev ≠ .spec)))

/-- Whether the non-speculative voltage of a cluster is requested (R529): from a transaction's becoming head, for as long as
one of the cluster waits for or holds the grant. -/
def Dev.nominalAsked (d : Dev) (c : Nat) : Bool :=
  d.vrn.txns.any (fun e => decide (e.1 / 256 = c) && d.wantsNominal e.2) || ((d.clp c).nominal && d.irrevHere c)

/-- A cluster's lasting request brought up to date (R529), before and after a transaction of it ends or reruns. -/
def Dev.noteNominal (d : Dev) (c : Nat) : Dev :=
  if d.nominalAsked c = (d.clp c).nominal then d else d.setClp c { d.clp c with nominal := d.nominalAsked c }

/-- A transaction slot becomes free (R154); what it asked of the Glaze lasts while another of its cluster waits (R529). -/
def Dev.freeSlot (d : Dev) (key : Nat) : Dev :=
  let d := (d.noteNominal (key / 256)).setTxn key Txn.reset
  let d := { d with esl := { d.esl with boosted := tset false d.esl.boosted key false } }
  let d : Dev := if d.vrn.grant = some key then { d with vrn := { d.vrn with grant := none } } else d
  d.noteNominal (key / 256)

/-- The wait of an irrevocable request ends without its commit (R310): the buffer taken or granted for it is freed. -/
def Dev.dropHdrCell (d : Dev) (key : Nat) : Dev :=
  let d := d.endIrrevWait key
  match (d.txn key).hdrCell with
  | some h => (d.freeBuf h).updTxn key (fun x => { x with hdrCell := none })
  | none => d

/-- A voided transaction (R170): its buffer returns, its ticket passes, it is counted and reported, its locks break. -/
def Dev.voidTxn (d : Dev) (key cause : Nat) : Dev :=
  let x := d.txn key
  let d := ((d.freeCiphers key).dropHdrCell key).release x.owner x.handle
  let d := d.passTicket x.domain x.ticket
  let d := d.bumpSat Reg.VRN_VOID_CNT 32 1
  let d := d.raise Src.vrnVoid (cause * 2 ^ 16 + key % 256 * 2 ^ 8 + key / 256)
  (d.breakHolder (0x8000 + key / 256 * 256 + key % 256)).freeSlot key

/-- The thread address of a Canvas buffer of a slot (R190). -/
def canvasVa (slot buf : Nat) : Nat := 0x60000 + 0x200 * slot + 0x100 * buf

/-- What the end of a transaction does to its functions in flight (R129, R131, R149): a receive takes no message any more
and completes at its deadline; a lookup runs to its end, its result block written and its learn posted (R271), but no
longer acts on the Canvas; the tokens of both have ended (DEDUCED, log 31). -/
def Dev.dropRequests (d : Dev) (key : Nat) : Dev :=
  { d with brs := { d.brs with recvs := d.brs.recvs.map (fun r => if r.txn = some key then r.ended else r)
                               lookups := d.brs.lookups.map (fun r => if r.txn = some key then { r with txn := none } else r) } }

/-- The save of a thread that is being saved completes (R146, R149): its image is in the slot. -/
def Dev.endSave (d : Dev) (t : Nat) : Dev :=
  match (d.thr t).saving with
  | some n => d.memWrite (d.saveAddr (clusterOf t) (n % 64)) (saveImage (d.thr t))
  | none => d

/-- The task of an aborted transaction is removed (R149): a save in progress completes, with no resume record. Where its record
waited for a victim's thread, the victim's save is cancelled and the victim runs on (DESIGN CHOICE, log entry 143). -/
def Dev.removeTask (d : Dev) (key : Nat) : Dev :=
  let c := key / 256
  let s := key % 256
  let d := match d.txnThread key with
    | some t => (d.endSave t).stopThread t
    | none => d
  match d.rcd c s with
  | some r =>
    let d := if r.resume then { d with esl := { d.esl with saves := tset false d.esl.saves (64 * c + r.save) false } } else d
    let d := d.setRcd c s none
    if r.taken then
      (tkeys (fun t (th : Thread) => decide (clusterOf t = c) && !isAtl t && match th.saving with
          | some n => decide (n / 64 = s)
          | none => false) d.krv.threads).foldl
        (fun d t => (d.cancelSave t).updThr t (fun th => { th with saving := none })) d
    else d
  | none => d

/-- Whether the rerun after an abort is irrevocable (R172): the abort brought the counted aborts to the threshold, or its
cause is 0x6 to 0x8. A transaction that waited for the grant and is migrated keeps that (R547). -/
def Dev.rerunIrrev (d : Dev) (x : Txn) (cause : Nat) : Bool :=
  (countedCause cause && decide (d.rf Reg.VRN_CTL 10 8 ≤ x.counted)) || decide (cause = 6 ∨ cause = 7 ∨ cause = 8)
    || (decide (cause = 0xA) && decide (x.irrev = .waits))

/-- One more error of a kind that R541 counts, by the key of its source and unit: at the sixteenth within 1 s the limit is
raised for the unit, and counting starts again. -/
def Dev.countErr (d : Dev) (now key limit unit : Nat) : Dev :=
  let l := ((tget [] d.flt.errs key).filter (fun t => decide (now < t + 1000000000))) ++ [now]
  let full := decide (16 ≤ l.length)
  let d := { d with flt := { d.flt with errs := tset [] d.flt.errs key (if full then [] else l) } }
  d.raiseIf full limit unit

/-- The Errors rule of R176: an irrevocable run that cannot be undone ends; its effects stand, its packet is discarded,
its grant is released and VRN_IRREV_ERROR is recorded. -/
def Dev.irrevError (d : Dev) (key : Nat) : Dev :=
  let x := d.txn key
  let d := ((d.removeTask key).dropRequests key).endTxnToks key
  let d := ((d.freeCiphers key).release x.owner x.handle).dropHdrCell key
  let d := d.passTicket x.domain x.ticket
  let d := d.raise Src.vrnIrrevError (key % 256 * 2 ^ 8 + key / 256)
  (d.breakHolder (0x8000 + key / 256 * 256 + key % 256)).freeSlot key

/-- A transaction meets an uncorrectable error of its core's state (R168, R541): it aborts with cause 0x5, or ends by the
Errors rule in an irrevocable run (R176). -/
def Dev.coreUe (d : Dev) (key : Nat) : Dev :=
  if (d.txn key).irrev = .granted then d.irrevError key else d.abortTxn key 5

/-- An abort reaches the Easel (R149): the task is removed; then the transaction is voided (R170), leaves to be parsed
again (R174), or gets its rerun record on the former reserve buffer while the copy begins (R171). Nothing happens while
an earlier copy runs. -/
def abortAtEasel (now key : Nat) (d : Dev) : Dev :=
  let x := d.txn key
  match x.phase with
  | .aborted cause =>
    if x.copying then d
    else
      let d := if cause = 5 then d.countErr now (256 * 256 + key / 256) Src.cluErrLimit (key / 256) else d
      let d := { d with vrn := { d.vrn with aborts := d.vrn.aborts.filter (fun e => decide (e.1 ≠ key)) } }
      let d := (d.removeTask key).dropRequests key
      if cause = 0xC then d.voidTxn key cause
      else
        let d := d.freeCiphers key
        let irrev := d.rerunIrrev x cause
        if cause = 0xA then
          let d := d.breakHolder (0x8000 + key / 256 * 256 + key % 256)
          let d := { d with prs := { d.prs with rereads := d.prs.rereads ++ [(key, { x with
            irrev := if irrev then .waits else .spec })] } }
          d.freeSlot key
        else
          let c := key / 256
          let s := key % 256
          let img := d.memRead (cluBase c + canvasVa s (1 - x.work)) 256
          let d := (d.memWrite (cluBase c + canvasVa s x.work) img).noteNominal c
          let d := d.setTxn key { x with phase := .active, work := 1 - x.work, copying := true, ws := [], sig := 0,
                                         newGran := 0, irrev := if irrev then .waits else .spec }
          let d := d.noteEligible.noteNominal c
          d.storeRcd c s { entry := x.entry, prio := x.prio, ticket := wd x.ticket, canvas := wd (canvasVa s (1 - x.work)),
                           user := 0, hasTxn := true, txn := s, resume := false, save := 0, slots := [], ready := none,
                           tid := 0, taken := false }
  | _ => d

/-- The background copy ends (R171); an uncorrectable error in the reserve buffer voids the transaction with cause 0x5 in
place of its rerun: what the rerun has begun ends as an abort's task does (R149). A run that has committed stands. -/
def canvasRestoreDone (key : Nat) (bad : Bool) (d : Dev) : Dev :=
  let x := d.txn key
  if !x.copying then d
  else
    let d := d.setTxn key { x with copying := false }
    if bad && decide (x.phase ≠ .committing) then
      let d := { d with vrn := { d.vrn with aborts := d.vrn.aborts.filter (fun e => decide (e.1 ≠ key)) } }
      (((d.removeTask key).dropRequests key).endTxnToks key).voidTxn key 5
    else d

end Sys2Proof.Machine
end

