-- ==== Sys2Proof/Machine/PowerOps.lean ====
section
/-!
DEFINITION. The operations of Glaze that other units use (R519 to R530): a cluster's points and voltages, speculation,
gating, and the count of commits.
-/

namespace Sys2Proof.Machine

/-- V_nom of a point, in mV (R522). -/
def vNom (p : Nat) : Nat := [520, 545, 570, 600, 630, 660, 690, 720, 755, 800].getD p 800
/-- V_floor of a point, in mV (R522). -/
def vFloor (p : Nat) : Nat := [490, 510, 530, 555, 580, 610, 635, 665, 695, 740].getD p 740

/-- PWR_STATUS.pwrfail (R534). -/
def Dev.pwrfailOn (d : Dev) : Bool := d.rb Reg.PWR_STATUS 31

/-- The cap of low power (R533), 9 without it. -/
def Dev.lpCap (d : Dev) : Nat := if d.rb Reg.PWR_CTL 3 then d.rf Reg.PWR_CTL 7 4 else 9
/-- The highest point a cluster may use: its max_point in effect (R519), under the low-power cap (R533). -/
def Dev.pointCap (d : Dev) (c : Nat) : Nat := min (d.clp c).maxOk d.lpCap
/-- The written point of a cluster within its cap (R523, R533). -/
def Dev.pointBase (d : Dev) (c : Nat) : Nat := min (d.rf (Reg.PWR_CL_W0 c) 3 0) (d.pointCap c)
/-- The point a cluster goes to: the written one within its cap, held down by throttling (R523, R532). -/
def Dev.pointGoal (d : Dev) (c : Nat) : Nat := min (d.pointBase c) (d.clp c).ceil

/-- Whether a cluster is under BIST (R550). -/
def Dev.inBist (d : Dev) (c : Nat) : Bool := decide (d.flt.bist = some (0, c))

/-- Whether a cluster may speculate (R528, R530, R534): what it runs at, a non-speculative request apart. -/
def Dev.mayRunLow (d : Dev) (c : Nat) : Bool :=
  d.rb Reg.PWR_CTL 0 && d.rb (Reg.PWR_CL_W0 c) 31 && decide (d.rf (Reg.CLU_CORE_MODE c) 7 0 = 0)
    && decide (d.rf (Reg.CLU_FREE_LIMIT c) 9 0 = 0) && !(d.clp c).stopped && !d.pwrfailOn && d.cluClocked c
    && (d.clp c).next.isNone && !d.inBist c

/-- Whether a cluster speculates (R528, R529). -/
def Dev.speculates (d : Dev) (c : Nat) : Bool := d.mayRunLow c && !d.nominalAsked c

/-- A commit of a cluster's transaction, counted for its error-rate loop (R530). -/
def Dev.countCommit (d : Dev) (c : Nat) : Dev :=
  if d.speculates c then
    let x := d.clp c
    d.setClp c { x with commits := x.commits + 1 }
  else d

/-- A change of a cluster's point starts (R523), unless one runs or the cluster is at the point. -/
def Dev.retarget (d : Dev) (c : Nat) : Dev :=
  let x := d.clp c
  if x.next.isSome ∨ d.pointGoal c = x.cur ∨ d.pwrfailOn ∨ d.inBist c then d
  else if d.cluClocked c then d.setClp c { x with next := some (d.pointGoal c) }
  else d.setClp c { x with cur := d.pointGoal c }

/-- The change of a cluster's point is done: the speculative offset is 0 and its window starts again (R523). -/
def Dev.atPoint (d : Dev) (c p : Nat) : Dev :=
  let x := d.clp c
  (d.setClp c { x with cur := p, next := none, offset := 0, winAt := x.commits }).setReg (Reg.PWR_CL_W3 c) 0

/-- Whether a cluster holds no transaction, no record and no inbound FIFO entry (R524). -/
def Dev.cluEmpty (d : Dev) (c : Nat) : Bool :=
  d.vrn.txns.all (fun e => decide (e.1 / 256 ≠ c) || decide (e.2.phase = .free))
    && d.esl.recs.all (fun e => decide (e.1 / 1024 ≠ c) || e.2.isNone)
    && d.esl.comps.all (fun x => decide (x.cluster ≠ c)) && d.esl.reports.all (fun x => decide (x.1 ≠ c))

/-- The L1 contents of a cluster are lost (R524), or invalidated (R46). -/
def Dev.dropL1 (d : Dev) (c : Nat) : Dev :=
  { d with krv := { d.krv with icache := tdrop (fun k => decide (k / 512 / 8 = c)) d.krv.icache
                               dcache := tdrop (fun k => decide (k / 256 / 8 = c)) d.krv.dcache } }

/-- A cluster is gated: KCLK stops, the LDO is off and L1 is lost (R524). -/
def Dev.gateNow (d : Dev) (c : Nat) : Dev :=
  let x := d.clp c
  (((d.setRb (Reg.PWR_CL_W0 c) 30 true).setRb Reg.GLB_CLK_STATUS c false).dropL1 c).setClp c
    { x with gating := false, waking := false, next := none }

/-- A cluster's BIST begins (R550): it is not gated, or is no longer, and runs at V_nom of point 8. -/
def Dev.bistWake (d : Dev) (c : Nat) : Dev :=
  ((d.setRb (Reg.PWR_CL_W0 c) 30 false).setRb Reg.GLB_CLK_STATUS c true).setClp c
    { d.clp c with cur := 8, next := none, offset := 0, gating := false, waking := false }

/-- Gating starts: gate is set and the cluster is excluded until it is empty (R524). -/
def Dev.startGating (d : Dev) (c : Nat) : Dev :=
  let d := d.setRb (Reg.PWR_CL_W0 c) 30 true
  if d.cluClocked c then d.setClp c { d.clp c with gating := true } else d.setClp c { d.clp c with waking := false }

/-- Waking starts, or gating that has not ended is called off (R524). -/
def Dev.startWaking (d : Dev) (c : Nat) : Dev :=
  let d := d.setRb (Reg.PWR_CL_W0 c) 30 false
  if d.cluClocked c then d.setClp c { d.clp c with gating := false } else d.setClp c { d.clp c with waking := true }

end Sys2Proof.Machine
end

