-- ==== Sys2Proof/Machine/Brush.lean ====
section
/-!
DEFINITION. The brushes (R216 to R240): the checks at issue, refusal, confirmation, and the functions of the Edit,
Lookup, Hash, Meter, Cipher, Queue and Message brushes, with bsave and brest.
-/

namespace Sys2Proof.Machine

/-! The brush instruction (R216 to R222). -/

/-- What the function table of a brush says of one function: whether rb names a result block, of how many bytes and at
what alignment, the alignment of ra, whether ra names a block, and whether it reports completion. -/
structure BrushFn where
  res : Nat
  resAlign : Nat
  raAlign : Nat
  blk : Bool
  comp : Bool
  deriving DecidableEq, Repr

/-- The function table (R223 to R236). -/
def brushFn (b fn : Nat) : BrushFn :=
  if fn = 0x3FE ∨ fn = 0x3FF then ⟨0, 4, 32, true, false⟩
  else match b, fn with
    | 1, _ => ⟨48, 16, 4, true, true⟩
    | 2, _ => ⟨8, 4, 4, true, false⟩
    | 4, _ => ⟨16, 4, 4, true, true⟩
    | 6, 2 => ⟨0, 4, 4, false, false⟩
    | 6, 3 => ⟨68, 4, 4, true, true⟩
    | _, _ => ⟨0, 4, 4, true, false⟩

/-- The bytes of a function's operand block, whose length word 0 may give (R223 to R236). -/
def blkSize (b fn w0 : Nat) : Nat :=
  if fn = 0x3FE ∨ fn = 0x3FF then 96
  else match b, fn with
    | 0, 1 => 4
    | 0, _ => 4 + (if w0 / 256 % 256 ≤ 64 then w0 / 256 % 256 else 0)
    | 1, _ => 4 + (w0 / 256 % 128 + 3) / 4 * 4
    | 2, _ => 12
    | 3, 0 => 8
    | 3, _ => 12
    | 4, _ => 16
    | 5, 0x000 => 12
    | 5, 0x010 => 8
    | 5, 0x013 => 8
    | 5, _ => 4
    | 6, 1 => 4 + (if w0 % 32 ≤ 16 then 4 * (w0 % 32) else 0)
    | 6, 3 => 8
    | 6, 4 => 64
    | _, _ => 4

/-- The offset in a cluster's own shared memory of n bytes at a thread address, if they lie wholly within it (R216). -/
def ownOff (c va n : Nat) : Option Nat :=
  let win := 0x01000000 + c * 0x100000
  if va + n ≤ 0x80000 then some va
  else if win ≤ va ∧ va + n ≤ win + 0x80000 then some (va - win)
  else none

/-- Functions of a brush that a cluster has issued and that have not left it (R222). -/
def Dev.brushDepth (d : Dev) (c b : Nat) : Nat :=
  (d.krv.threads.foldl (fun n e => if e.1 / 64 = c ∧ e.1 < 1536 then
      n + e.2.fly.countP (fun f => match f with
        | .brush op => decide (op.brush = b)
        | _ => false) else n) 0)
    + (if b = 1 then d.brs.lookups.countP (fun r => decide (r.cluster = c)) else 0)
    + (if b = 6 then d.brs.recvs.countP (fun r => decide (r.cluster = c)) else 0)

/-- The issue queue entries of a brush (R222). -/
def brushEntries (b : Nat) : Nat :=
  match b with
  | 0 => 8
  | 1 => 64
  | 2 => 16
  | 3 => 64
  | 4 => 16
  | 5 => 64
  | 6 => 32
  | _ => 0

/-- Whether a token index is assigned to a function that is not confirmed yet (R220). -/
def Dev.tokTaken (d : Dev) (c i : Nat) : Bool :=
  d.krv.threads.any (fun e => decide (e.1 / 64 = c ∧ e.1 < 1536) && e.2.fly.any (fun f => match f with
    | .brush op => decide (op.tok = some i)
    | _ => false))

/-- The token index for a completion function: the lowest that is neither live nor assigned (log entry 23). -/
def Dev.assignTok (d : Dev) (c : Nat) (txn : Option Nat) : Option Nat :=
  let r := tokRange txn
  findNat (fun i => !(d.tok (2560 * c + i)).live && !d.tokTaken c i) r.1 r.2

/-! Edit (R206 to R209, R224). -/

/-- The outcome of an Edit function on a Canvas (R207, R208): the new image, or a rejection's reason. -/
def editCanvas (fn : Nat) (img blk : List Byte) : Except Nat (List Byte) :=
  let w0 := leAt blk 0 4
  let o := w0 % 256
  let n := w0 / 256 % 256
  let hs := (byteAt img 0xC3).toNat
  let he := (byteAt img 0xC4).toNat
  let data := slice blk 4 n
  let layers := fun (f : Nat → Nat) (m : List Byte) =>
    patch m 0xDC ((List.range 16).map (fun k => BitVec.ofNat 8 (f (byteAt img (0xDC + k)).toNat)))
  if w0 / 65536 ≠ 0 then .error 2
  else if n = 0 then .ok img
  else match fn with
    | 0 =>
      if hs ≤ o ∧ o ≤ he ∧ n ≤ 64 ∧ n ≤ hs then
        let m := patch (patch img (hs - n) (slice img hs (o - hs))) (o - n) data
        let m := patch m 0xC3 [BitVec.ofNat 8 (hs - n)]
        .ok (layers (fun l => if l < o ∧ l ≠ 255 then l + 256 - n else l) m)
      else .error (if hs ≤ o ∧ o ≤ he ∧ n ≤ 64 then 1 else 2)
    | 1 =>
      if hs ≤ o ∧ o + n ≤ he ∧ n ≤ 128 then
        let m := patch img (hs + n) (slice img hs (o - hs))
        let m := patch m 0xC3 [BitVec.ofNat 8 (hs + n)]
        .ok (layers (fun l => if l < o then l + n else if l < o + n then 255 else l) m)
      else .error 2
    | _ => if hs ≤ o ∧ o + n ≤ he ∧ n ≤ 64 then .ok (patch img o data) else .error 2

/-- The internal address of a task's working Canvas. -/
def Dev.canvasAddr (d : Dev) (t : Nat) : Nat :=
  cluBase (clusterOf t) + (((d.thr t).task.map (fun (k : Task) => k.canvas.toNat)).getD 0) % 0x80000

/-- An Edit function on a Canvas at an internal address, for a transaction if there is one (R206 to R209): the status
and the device. -/
def Dev.editAt (d : Dev) (txn : Option Nat) (a fn : Nat) (blk : List Byte) : Word × Dev :=
  let img := d.memRead a 256
  match editCanvas fn img blk with
  | .ok m => (0, d.memWrite a m)
  | .error r =>
    let d := match txn with
      | some k =>
        let d := d.raise Src.canvasEditReject (r * 2 ^ 16 + k % 256 * 2 ^ 8 + k / 256)
        let x := d.txn k
        if x.discard = 0 then
          let st := wd (leAt img 0xD8 4)
          ((d.setTxn k { x with discard := r }).memPut (a + 0xD8) 4 (setFld st 12 8 (r * 2 + 1)).toNat)
        else d
      | none => d
    (wd r, d)

/-- An Edit function at confirmation (R206 to R209): rd receives the status. -/
def Dev.editDo (d : Dev) (t fn : Nat) (blk : List Byte) : Word × Dev :=
  d.editAt (txnKey t (d.thr t)) (d.canvasAddr t) fn blk

/-! Lookup (R225). -/

/-- The lookups queued at an engine. -/
def Dev.engineLoad (d : Dev) (e : Nat) : Nat := d.brs.lookups.countP (fun r => decide (r.engine = e))
/-- Whether an engine receives lookups: neither contained nor out for test (R546, R549). -/
def Dev.engineIn (d : Dev) (e : Nat) : Bool := !d.rb (Reg.FLT_UNITS 3) (8 + e) && !d.flt.engOut.testBit e

/-- The engine in service with the fewest queued lookups, the lowest among equals (R241). -/
def Dev.leastEngine (d : Dev) : Nat :=
  ((List.range 16).filter d.engineIn).foldl
    (fun b e => if b = 16 ∨ d.engineLoad e < d.engineLoad b then e else b) 16

/-- A lookup sent to an engine at confirmation (R225). -/
def Dev.lookupDo (d : Dev) (t fn token : Nat) (rb : Word) (blk : List Byte) : Dev :=
  let w0 := leAt blk 0 4
  let n := w0 / 256 % 128
  let port := w0 / 65536 % 256
  let bad := decide (w0.testBit 15) || decide (w0 / 2 ^ 24 ≠ 0) || decide (n = 0 ∨ 64 < n)
    || (if fn = 1 then decide (135 < port) else decide (port ≠ 0))
  let c := clusterOf t
  let r : LkReq := { cluster := c, token := token, txn := txnKey t (d.thr t),
                     under := (txnKey t (d.thr t)).map (fun k => ((d.txn k).domain, (d.txn k).ticket)),
                     table := w0 % 256, key := slice blk 4 n,
                     learn := if fn = 1 then some port else none, bad := bad,
                     result := cluBase c + (ownOff c rb.toNat 48).getD 0, canvas := d.canvasAddr t,
                     engine := d.leastEngine, missed := [] }
  { d with brs := { d.brs with lookups := d.brs.lookups ++ [r] } }

/-! Hash (R227). -/

/-- The internal address of a Hash source of n bytes: own shared memory, or packet memory (R227). -/
def hashSrc (c va n : Nat) : Option Nat :=
  match ownOff c va n with
  | some o => some (cluBase c + o)
  | none => if 0x10000000 ≤ va ∧ va + n ≤ 0x16000000 then some (pmBase + (va - 0x10000000)) else none

/-- The value and status of a Hash function (R227). -/
def Dev.hashDo (d : Dev) (c fn : Nat) (blk : List Byte) : Word × Nat :=
  let a := leAt blk 0 4
  let n := leAt blk 4 4
  let x := leAt blk 8 4
  if fn = 3 then (wd (sumUpdate a n x), 0)
  else if (if fn = 1 then 64 else 4096) < n then (0, 1)
  else if n = 0 then (if fn = 1 then 0 else if fn = 0 then wd x else wd (x % 65536), 0)
  else match hashSrc c a n with
    | none => (0, 2)
    | some s =>
      let src := d.memRead s n
      match fn with
      | 0 => (wd (crc32c x src), 0)
      | 1 => match ownOff c x 68 with
        | none => (0, 2)
        | some k => (wd (toeplitz (d.memRead (cluBase c + k) 68) src), 0)
      | _ => (wd (onesSum x src), 0)

/-! Meter (R228). -/

/-- The meter index, input colour and length of an mtr's operand block (R228). -/
def mtrArgs (blk : List Byte) : Nat × Nat × Nat :=
  (leAt blk 0 4 % 2 ^ 20, min (leAt blk 0 4 / 2 ^ 20 % 4) 2, leAt blk 4 2)

/-- The colour an mtr evaluates at a time, where its meter is configured (R228, R336). -/
def Dev.mtrColour (d : Dev) (now : Nat) (blk : List Byte) : Option Nat :=
  let x := mtrArgs blk
  if d.meterOn x.1 then some ((d.meter x.1).eval now x.2.2 x.2.1).1 else none

/-- The speculative run of a thread's transaction (R172), whose mtr is evaluated at issue (R337). -/
def Dev.specTxn (d : Dev) (t : Nat) : Option Nat := match txnKey t (d.thr t) with
  | some k => if (d.txn k).irrev = .granted then none else some k
  | none => none

/-- mtr at confirmation (R228, R336, R337): `prov` is the colour that its issue evaluated, where it did. -/
def Dev.mtrDo (d : Dev) (now t : Nat) (prov : Option (Option Nat)) (blk : List Byte) : Word × Dev :=
  let x := mtrArgs blk
  match prov.getD (d.mtrColour now blk) with
  | none => (wd (2 ^ 31), d)
  | some c =>
    match d.specTxn t with
    | some k => (wd c, d.wsPush k (.meter x.1 x.2.2 x.2.1 c))
    | none => (wd c, d.setMeter x.1 ((d.meter x.1).eval now x.2.2 x.2.1).2)

/-- cnt at confirmation (R228): no entry while the Meter brush is not served (R355). -/
def Dev.cntDo (d : Dev) (now t : Nat) (blk : List Byte) : Dev :=
  let i := leAt blk 0 4 % 2 ^ 21
  let b := leAt blk 4 4
  let p := leAt blk 8 2
  if !d.rb Reg.MTR_CTL 0 then d
  else match txnKey t (d.thr t) with
    | some k => d.txnEffect now k (.counter i b p)
    | none => d.addCounter i b p

/-! Cipher (R229, R230). -/

/-- A secure association; none where it is not configured (R229). -/
def Dev.secAssoc (d : Dev) (i : Nat) : Option SecAssoc := tget none d.brs.assocs i

/-- The bytes of a SecTAG: 16 with an SCI, 8 without (PRESUMED from IEEE 802.1AE, which R229 names; log entry 6). -/
def secTagLen (img : List Byte) (o : Nat) : Nat := if (byteAt img (o + 2)).toNat.testBit 5 then 16 else 8

/-- The result block of a Cipher function (R230), written before its completion. -/
def Dev.cipherEnd (d : Dev) (c token res st : Nat) (h : Word) (len : Nat) : Dev :=
  (d.memWrite res (leBytes 4 st ++ leBytes 4 h.toNat ++ leBytes 4 len ++ zeros 4)).complete c token (wd st)

/-- The 12-byte nonce of a secure association for a packet number (PRESUMED from IEEE 802.1AE-2018, which R229 names; log
entry 6): SCI and packet number; with extended packet numbering the salt, XORed with SSCI and packet number. An SCI that the
SecTAG does not carry is the source address with port 1, or 0 for single copy broadcast, where ES is set. -/
def macsecNonce (a : Nat) (sa : SecAssoc) (pn : Nat) (img : List Byte) (hs o : Nat) : List Byte :=
  let tci := (byteAt img (o + 2)).toNat
  if 2 ≤ sa.suite then
    let x := beBytes 4 (leAt sa.salt 12 4) ++ beBytes 8 pn
    (List.range 12).map (fun i => byteAt sa.salt i ^^^ byteAt x i)
  else
    let sci := if tci.testBit 5 then slice img (o + 8) 8
      else if tci.testBit 6 then slice img (hs + 6) 6 ++ [0, if tci.testBit 4 then 0 else 1]
      else beBytes 8 (Config.implicitSci a)
    sci ++ beBytes 4 pn

/-- cenc and cdec (R229, R230): AES-GCM over the frame as IEEE 802.1AE-2018 protects it. -/
def Dev.cipherDo (d : Dev) (t fn token : Nat) (rb : Word) (blk : List Byte) : Dev :=
  let c := clusterOf t
  let res := cluBase c + (ownOff c rb.toNat 16).getD 0
  let w0 := leAt blk 0 4
  let o := w0 / 2 ^ 16 % 256
  let a := d.canvasAddr t
  let img := d.memRead a 256
  let hs := (byteAt img 0xC3).toNat
  let he := (byteAt img 0xC4).toNat
  match d.secAssoc (w0 % 4096), txnKey t (d.thr t) with
  | none, _ => d.cipherEnd c token res 2 0 0
  | some _, none => d.cipherEnd c token res 4 0 0
  | some sa, some k =>
    if o < hs ∨ he ≤ o then d.cipherEnd c token res 4 0 0
    else
      let x := d.txn k
      let skip := x.winOff + (x.hdrEnd0 - 0x40)
      let old := d.payload x.handle (skip + x.d)
      let tag := secTagLen img o
      let start := min he (o + tag)
      let body := slice img start (he - start) ++ old.drop skip
      let enc := decide (fn = 0)
      let data := if enc then body else body.take (body.length - 16)
      let plain := if w0.testBit 31 then data.length else w0 / 2 ^ 24 % 128
      let aad := slice img hs (start - hs) ++ data.take plain
      let g := aesGcm sa.key (macsecNonce (w0 % 4096) sa (leAt blk 4 8) img hs o) aad (data.drop plain) enc
      let out := data.take plain ++ padTo (data.length - plain) g.1
      let icv := padTo 16 g.2
      if !enc && (decide (body.length < 16) || decide (icv ≠ body.drop (body.length - 16))) then
        d.cipherEnd c token res 1 0 0
      else
        let all := if enc then out ++ icv else out
        let inHdr := min (he - start) all.length
        let rest := all.drop (if enc then he - start else inHdr)
        match d.allocChain x.owner (hPool x.handle) (skip + rest.length) with
        | none => d.cipherEnd c token res 3 0 0
        | some got =>
          let h := got.1
          let d := got.2.fillBufs (got.2.chain h) (old.take skip ++ rest)
          let d := d.memWrite (a + start) (all.take inHdr)
          let d := { d with brs := { d.brs with ciphers := d.brs.ciphers ++ [CipherChain.mk h rest.length k] } }
          d.cipherEnd c token res 0 h rest.length

/-! Queue (R232). -/

/-- A Palette function at confirmation (R232, R305): an entry in a transaction, else applied as PAL_CTL.task_owner. -/
def Dev.palDo (d : Dev) (now t fn : Nat) (blk : List Byte) : Word × Dev :=
  let h := wd (leAt blk 0 4)
  let arg := wd (leAt blk 4 4)
  if fn = 0x010 ∧ (fld arg 7 0 = 0 ∨ 63 < fld arg 15 8 ∨ fld arg 31 16 ≠ 0) then (1, d)
  else match txnKey t (d.thr t) with
    | some k => (0, d.txnEffect now k (.pal fn h arg))
    | none => (0, d.palApply fn (d.rf Reg.PAL_CTL 21 16) h arg none)

/-- enq at confirmation (R232). -/
def Dev.enqDo (d : Dev) (now t : Nat) (blk : List Byte) : Dev :=
  match txnKey t (d.thr t) with
  | some k => d.txnEffect now k (.enq (leAt blk 0 2) (wd (leAt blk 4 4)) (leAt blk 8 1 % 4))
  | none => d

/-! Message (R234 to R236). -/

/-- mopen (R234). -/
def Dev.mopenDo (d : Dev) (t : Nat) (blk : List Byte) : Word × Dev :=
  let ch := leAt blk 0 2 % 2048
  if !d.chanEnabled ch then (1, d)
  else if (d.thr t).msg.isSome then (2, d)
  else (0, d.updThr t (fun th => { th with msg := some ⟨ch, []⟩ }))

/-- mput (R234). -/
def Dev.mputDo (d : Dev) (t : Nat) (blk : List Byte) : Word × Dev :=
  let n := leAt blk 0 1 % 32
  match (d.thr t).msg with
  | none => (1, d)
  | some m =>
    if n = 0 ∨ 16 < m.words.length + n then (2, d)
    else (0, d.updThr t (fun th => { th with msg := some ⟨m.channel, m.words ++ bytesWords n (blk.drop 4)⟩ }))

/-- mclose (R234). -/
def Dev.mcloseDo (d : Dev) (now t : Nat) : Word × Dev :=
  match (d.thr t).msg with
  | none => (1, d)
  | some m =>
    let shut := fun (d : Dev) => d.updThr t (fun th => { th with msg := none })
    match txnKey t (d.thr t) with
    | some k => (0, (shut d).txnEffect now k (.msgClose m.channel m.words))
    | none =>
      if d.chanEnabled m.channel && d.chanRoom m.channel then (0, (shut d).deliver m.channel m.words) else (2, d)

/-- mrecv at confirmation (R235). -/
def Dev.mrecvDo (d : Dev) (now t token : Nat) (rb : Word) (blk : List Byte) : Dev :=
  let c := clusterOf t
  let ch := leAt blk 0 2 % 2048
  let wait := leAt blk 4 4
  let r : Recv := { cluster := c, token := token, channel := ch, deadline := now + wait,
                    result := cluBase c + (ownOff c rb.toNat 68).getD 0, txn := txnKey t (d.thr t), gone := false }
  if !d.chanEnabled ch || d.chanRing ch then d.recvEnd r 2 []
  else match d.recvReady r with
    | some i => d.recvTake r i
    | none =>
      if wait = 0 then d.recvEnd r 1 []
      else { d with brs := { d.brs with recvs := d.brs.recvs ++ [r] } }

/-- A record posted to a cluster's Easel (R132, R236, R478): 0 posted, 1 full, 2 cluster not active. -/
def Dev.postRec (d : Dev) (r : Rec) : Nat × Dev :=
  let c := fld r.user 28 24
  if !d.cluActive c then (2, d)
  else match d.freeRcd c with
    | none => (1, d)
    | some i => (0, d.storeRcd c i r)

/-- Whether a record may be posted (R127, R236): every slot unused and every field R127 requires 0 is 0. -/
def postable (bs : List Byte) : Bool :=
  let p := parseRec bs
  p.2 && p.1.slots.all (fun s => decide (s = none))

/-! bsave and brest (R223). -/

/-- bsave at confirmation. -/
def Dev.bsaveDo (d : Dev) (t b : Nat) (ra : Word) : Dev :=
  d.memWrite (cluBase (clusterOf t) + (ownOff (clusterOf t) ra.toNat 96).getD 0)
    (if b = 6 then msgImage (d.thr t).msg else emptyImage b)

/-- brest at confirmation: 1 and an empty state for a rejected image. -/
def Dev.brestDo (d : Dev) (t b : Nat) (blk : List Byte) : Word × Dev :=
  let x := readImage b blk
  (wd (b2n (!x.1)), if b = 6 then d.updThr t (fun th => { th with msg := x.2 }) else d)

/-! Confirmation (R219) and issue (R216, R221). -/

/-- The shared memory that a confirmed function reads, its operand block apart (R206, R227, R229). -/
def Dev.brushReads (d : Dev) (t : Nat) (op : BrushOp) : List (Nat × Nat) :=
  let c := clusterOf t
  let n := leAt op.blk 4 4
  if op.fn = 0x3FE ∨ op.fn = 0x3FF then []
  else if op.brush = 0 ∨ op.brush = 4 then [(d.canvasAddr t, 256)]
  else if op.brush = 2 ∧ op.fn ≠ 3 ∧ 0 < n ∧ n ≤ (if op.fn = 1 then 64 else 4096) then
    ((hashSrc c (leAt op.blk 0 4) n).map (fun a => (a, n))).toList
      ++ (if op.fn = 1 then ((ownOff c (leAt op.blk 8 4) 68).map (fun o => (cluBase c + o, 68))).toList else [])
  else []

/-- A confirmed function's effect, and the value rd receives. -/
def Dev.brushDo (d : Dev) (now t : Nat) (op : BrushOp) (token : Nat) : Word × Dev :=
  let c := clusterOf t
  let fn := op.fn
  let eff := fun (d : Dev) => ((0 : Word), d)
  let tok := fun (d : Dev) => (wd token, d)
  if fn = 0x3FE then eff (d.bsaveDo t op.brush op.ra)
  else if fn = 0x3FF then d.brestDo t op.brush op.blk
  else match op.brush with
    | 0 => d.editDo t fn op.blk
    | 1 => tok (d.lookupDo t fn token op.rb op.blk)
    | 2 =>
      let r := d.hashDo c fn op.blk
      (r.1, d.memWrite (cluBase c + (ownOff c op.rb.toNat 8).getD 0) (leBytes 4 r.1.toNat ++ leBytes 4 r.2))
    | 3 => if fn = 0 then d.mtrDo now t op.prov op.blk else eff (d.cntDo now t op.blk)
    | 4 => tok (d.cipherDo t fn token op.rb op.blk)
    | 5 => if fn = 0 then eff (d.enqDo now t op.blk) else d.palDo now t fn op.blk
    | 6 => match fn with
      | 0 => d.mopenDo t op.blk
      | 1 => d.mputDo t op.blk
      | 2 => d.mcloseDo now t
      | 3 => tok (d.mrecvDo now t token op.rb op.blk)
      | _ =>
        let r := d.postRec (parseRec op.blk).1
        (wd r.1, r.2)
    | _ => eff d

/-- A brush function is confirmed (R219): its token becomes live, its effect is applied and rd is written. Where it reads
shared memory with an uncorrectable error its transaction aborts with cause 0x5 (R541); without a transaction the value of
a Hash is open (log entry 2). -/
def Dev.confirm (d : Dev) (now t : Nat) (op : BrushOp) : Dev :=
  let c := clusterOf t
  let token := (op.tok.map (d.tokenOf c)).getD 0
  let d := if op.tok.isSome then d.liveTok c token (d.thr t).tid else d
  if (d.brushReads t op).any (fun r => d.sramBad r.1 r.2) then
    match txnKey t (d.thr t) with
    | some k => d.coreUe k
    | none =>
      let r := d.brushDo now t op token
      let v := Config.freeWord d.free
      let d : Dev := if op.brush = 2 then
        { r.2.memWrite (cluBase c + (ownOff c op.rb.toNat 8).getD 0) (leBytes 4 v.toNat) with free := d.free + 1 } else r.2
      d.updThr t (fun th => th.setG op.rd (if op.brush = 2 then v else r.1))
  else
  let r := d.brushDo now t op token
  r.2.updThr t (fun th => th.setG op.rd r.1)

/-- Whether a control-plane transaction holds a thread's function on a meter back in front of the Meter brush (R185). -/
def Dev.meterWaits (d : Dev) (t : Nat) (blk : List Byte) : Bool :=
  match txnKey t (d.thr t) with
  | none => false
  | some k => d.vrn.cps.any (fun c => c.isAfter (d.txn k) && c.ops.any (fun o => match o with
      | .meter i _ => decide (i = (mtrArgs blk).1)
      | _ => false))

/-- Whether a control-plane transaction holds a brush function back (R185). -/
def Dev.meterHeld (d : Dev) (t : Nat) (op : BrushOp) : Bool :=
  decide (op.brush = 3 ∧ op.fn = 0) && d.meterWaits t op.blk

/-- What an mtr evaluates at its issue (R337): in a speculative run, unless it is held in front of the brush. -/
def Dev.mtrIssue (d : Dev) (now t b fn : Nat) (blk : List Byte) : Option (Option Nat) :=
  if b = 3 ∧ fn = 0 ∧ (d.specTxn t).isSome ∧ ¬ d.meterWaits t blk then some (d.mtrColour now blk) else none

/-- A brush function at the head of a thread's unfinished words is confirmed, and those after it (R219). -/
def Dev.confirmHead (d : Dev) (now t : Nat) : (fuel : Nat) → Dev
  | 0 => d
  | n + 1 => match (d.thr t).fly with
    | .brush op :: r => if d.meterHeld t op then d else ((d.updThr t (fun th => { th with fly := r })).confirm now t op).confirmHead now t n
    | _ => d

/-- The first check of R216 that a brush instruction fails: alignment, own shared memory, or none. -/
def Dev.brushCheck (d : Dev) (t b fn : Nat) (ra rb : Word) : Option Trap :=
  let c := clusterOf t
  let f := brushFn b fn
  let w0 := match ownOff c ra.toNat 4 with
    | some o => d.memLe (cluBase c + o) 4
    | none => 0
  if f.blk && decide (ra.toNat % f.raAlign ≠ 0) then some ⟨3, 3, false, ra⟩
  else if decide (f.res ≠ 0) && decide (rb.toNat % f.resAlign ≠ 0) then some ⟨3, 3, false, rb⟩
  else if f.blk && (ownOff c ra.toNat (blkSize b fn w0)).isNone then some ⟨4, 3, false, ra⟩
  else if decide (f.res ≠ 0) && (ownOff c rb.toNat f.res).isNone then some ⟨4, 3, false, rb⟩
  else none

/-- The unmapped address that a brush pointer's failed check captures (R40): of the operand block, or of the result
block. -/
def Dev.brushCapture (d : Dev) (t b fn : Nat) (ra rb : Word) (x : Trap) : Dev :=
  let c := clusterOf t
  let f := brushFn b fn
  let w0 := match ownOff c ra.toNat 4 with
    | some o => d.memLe (cluBase c + o) 4
    | none => 0
  if x.cause ≠ 4 then d
  else if f.blk && (ownOff c ra.toNat (blkSize b fn w0)).isNone then d.captureVa t ra.toNat (blkSize b fn w0)
  else d.captureVa t rb.toNat f.res

/-- Whether a function may not be issued by its task (R224, R232, R236), which raises cause 0x01. -/
def Dev.brushIllegal (d : Dev) (t b fn : Nat) (ra : Word) : Bool :=
  let c := clusterOf t
  let has := (txnKey t (d.thr t)).isSome
  if fn = 0x3FE ∨ fn = 0x3FF then false
  else match b, fn with
    | 0, _ => !has
    | 5, 0x000 => !has
    | 5, 0x013 => !has
    | 6, 4 => has || !postable (d.memRead (cluBase c + (ownOff c ra.toNat 64).getD 0) 64)
    | _, _ => false

/-- A brush instruction (R216, R219, R221): cause 0x02 on the Atelier; the checks of R216; a refusal, counted; then the
operand block is read, and the function is confirmed once every older word has passed its check. A block with an
uncorrectable error aborts the transaction with cause 0x5 (R541); without one its bytes are open (log entry 2). -/
def Dev.brushIssue (now t b fn : Nat) (f : R3) (d : Dev) : Dev :=
    let w := R3.word f (0x38 + b) fn
    let th := d.thr t
    let c := clusterOf t
    let ra := th.g f.ra.toNat
    let rb := th.g f.rb.toNat
    let i := brushFn b fn
    if isAtl t then d.trapWord t 2 w
    else if (i.res = 0 ∧ f.rb.toNat ≠ 0) ∨ (!i.blk ∧ f.ra.toNat ≠ 0) then d.trapWord t 1 w
    else match d.brushCheck t b fn ra rb with
      | some x => (d.brushCapture t b fn ra rb x).takeTrap t x
      | none =>
        let txn := (txnKey t th).map (· % 256)
        let tok := if i.comp then d.assignTok c txn else none
        if b = 7 ∨ !d.rb (Reg.CLU_BRUSH_CTL c) b ∨ brushEntries b ≤ d.brushDepth c b ∨ (i.comp ∧ tok.isNone) then
          (d.bump (Reg.CLU_BRUSH_REFUSE_CNT c b) 1).trapWord t 2 w
        else if d.brushIllegal t b fn ra then d.trapWord t 1 w
        else
          let off := (ownOff c ra.toNat 4).getD 0
          let n := if i.blk then blkSize b fn (d.memLe (cluBase c + off) 4) else 0
          let bad := d.sramBad (cluBase c + off) n
          match (if bad then txnKey t th else none) with
          | some k => d.coreUe k
          | none =>
          let blk := if bad then (List.range n).map (fun j => (Config.freeWord (d.free + j)).setWidth 8)
            else d.memRead (cluBase c + off) n
          let d := if bad then { d with free := d.free + n } else d
          let op : BrushOp := { brush := b, fn := fn, rd := f.rd.toNat, ra := ra, rb := rb, word := w, blk := blk, tok := tok,
                                prov := d.mtrIssue now t b fn blk }
          let d := d.updThr t (fun th => { th with fly := th.fly ++ [.brush op] })
          (d.retire t id).confirmHead now t 1

/-- Whether a word holds its thread's issued words back: an access check that traps. -/
def Fly.traps (x : Fly) : Bool := match x with
  | .trap _ => true
  | _ => false

/-- A thread as a brush instruction finds it that issues behind words whose checks are outstanding (R108, R219): the words
issued take the addresses behind the one that will trap, and none of their checks is known to it. -/
def Thread.ahead (th : Thread) : Thread :=
  let n := if th.fly.any Fly.traps then (th.fly.dropWhile (fun x => !x.traps)).length else 0
  { th with pc := th.pc + wd (4 * n), fly := .ok :: th.fly.map (fun x => if x.traps then .ok else x) }

/-- Whether a brush instruction issues behind a failing check or an unconfirmed brush function of its thread (R108, R219,
R220): it could issue but for them, at no breakpoint, and it uses no register that an unconfirmed function writes (R73). -/
def Dev.runsAhead (d : Dev) (t : Nat) (f : R3) : Bool :=
  let th := d.thr t
  let e := d.updThr t (fun th => { th.ahead with fly := [] })
  !th.clear && decide (th.slot = .none) && decide (th.repLeft.toNat = 0) && decide (th.dbg = .none)
    && e.issuable t && decide (e.bpMatch t = none)
    && th.fly.all (fun x => match x with
      | .brush op => decide (op.rd = 0 ∨ op.rd ∉ [f.rd.toNat, f.ra.toNat, f.rb.toNat])
      | _ => true)

/-- A brush instruction issues behind words whose checks are outstanding (R108, R220): the brush reads its operands, its
token index is assigned, and it stays unconfirmed. The trap of an older word squashes it. One that would trap or abort itself
waits. -/
def Dev.brushAhead (now t b fn : Nat) (f : R3) (d : Dev) : Dev :=
  let th := d.thr t
  let e := Dev.brushIssue now t b fn f (d.updThr t Thread.ahead)
  match (e.thr t).fly.drop (th.fly.length + 1) with
  | [.brush op] =>
    { d with free := e.free }.setThr t { th with fly := th.fly ++ [Fly.brush op], pc := if th.fly.any Fly.traps then th.pc else th.pc + 4 }
  | _ => d

/-- A brush instruction (R216 to R221): it issues as any word does, or behind words whose checks are outstanding. -/
def brushCmd (now t b fn : Nat) (f : R3) (d : Dev) : Dev :=
  if d.runsAhead t f then d.brushAhead now t b fn f else d.issue t (Dev.brushIssue now t b fn f)

/-- A word's access check completes (R113, R219): the trap is taken, or the brush functions behind it are confirmed.
Nothing that an aborted transaction's task has issued completes: it is squashed (R108, R220), and leaves the thread when
the abort reaches the Easel (R149). -/
def accessCheckComplete (now t : Nat) (d : Dev) : Dev :=
  if !d.txnRuns t then d
  else match (d.thr t).fly with
  | .trap x :: _ => d.takeTrap t x
  | .ok :: r => (d.updThr t (fun th => { th with fly := r })).confirmHead now t (r.length + 1)
  | .brush _ :: r => d.confirmHead now t (r.length + 1)
  | [] => d

/-- An mrecv's deadline passes (R235): the receive with that token completes with status 1. -/
def mrecvDeadline (now c token : Nat) (d : Dev) : Dev :=
  match d.brs.recvs.find? (fun r => decide (r.cluster = c ∧ r.token = token ∧ r.deadline ≤ now)) with
  | some r => { d with brs := { d.brs with recvs := d.brs.recvs.erase r } }.recvEnd r 1 []
  | none => d

end Sys2Proof.Machine
end

