-- ==== Sys2Proof/Machine/Varnish.lean ====
section
/-!
DEFINITION. Commits (R159 to R166, R176, R210), the commit buffer, the irrevocable grant (R173) and the header cell an
irrevocable commit waits for (R310).
-/

namespace Sys2Proof.Machine

/-! The commit (R160 to R166, R210). -/

/-- The bytes at which the payload resumes (R303). -/
def Txn.skip (x : Txn) : Nat := x.winOff + (x.hdrEnd0 - 0x40)

/-- The entries a commit applies: the write set, and the deferred entries of an irrevocable run (R176). -/
def Txn.entries (x : Txn) : List WsEntry := x.ws ++ x.enqs

/-- The payload bytes from skip onward: those of the last Cipher chain that a pswap of the same transaction swaps in,
else those recorded at distribution (R210). -/
def Dev.payloadLen (d : Dev) (key : Nat) : Nat :=
  let x := d.txn key
  x.entries.foldl (fun n e => match e with
    | .pal 0x013 h c =>
      if h = x.handle then
        match d.brs.ciphers.find? (fun (y : CipherChain) => decide (y.handle = c ∧ y.txn = key)) with
        | some y => y.len
        | none => n
      else n
    | _ => n) x.d

/-- Whether a commit is held by a control-plane transaction positioned before it (R185): an enqueue to a queue that it
configures (object kind 0), or a store to a granule that it writes. -/
def Dev.commitHeld (d : Dev) (x : Txn) : Bool :=
  d.vrn.cps.any fun c => c.isAfter x && x.entries.any (fun e => c.ops.any (fun o => match e, o with
    | .enq q _ _, .tmObject kind i _ => decide (kind = 0 ∧ i = q)
    | .store g _, .shared a bs => decide (a / 16 ≤ g ∧ g ≤ (a + bs.length - 1) / 16)
    | _, _ => false))

/-- The meter entries of a transaction re-evaluated in order against the meters' current state (R164): whether every
colour equals its provisional one. -/
def Dev.metersHold (d : Dev) (now : Nat) : List WsEntry → Bool
  | [] => true
  | .meter i len col prov :: r =>
    if d.meterOn i then
      let e := (d.meter i).eval now len col
      decide (e.1 = prov) && (d.setMeter i e.2).metersHold now r
    else d.metersHold now r
  | _ :: r => d.metersHold now r

/-- Whether an enqueue entry names a handle. -/
def WsEntry.enqOf (e : WsEntry) (h : Word) : Bool := match e with
  | .enq _ h' _ => decide (h' = h)
  | _ => false

/-- The commit-buffer granules that entries take (R161). -/
def wsStores (es : List WsEntry) : Nat := es.countP (fun e => match e with
  | .store _ _ => true
  | _ => false)

/-- The header cell of a commit (R163, R310): the one an irrevocable request was granted, else a fresh one. -/
def Dev.headerCell (d : Dev) (x : Txn) : Option (Word × Dev) :=
  match x.hdrCell with
  | some h => some (h, d)
  | none => d.alloc false x.owner (d.rf Reg.PAL_CTL 11 8)

/-- The end of a commit (R129, R161, R230): requests and tokens end, unused Cipher chains return, the grant is
released (R176), the ticket passes, the commit is counted. -/
def Dev.commitDone (d : Dev) (key : Nat) : Dev :=
  let x := d.txn key
  let d := ((d.freeCiphers key).dropRequests key).endTxnToks key
  let d := if d.vrn.grant = some key then { d with vrn := { d.vrn with grant := none } } else d
  (d.passTicket x.domain x.ticket).bump64 Reg.VRN_COMMIT_CNT_LO 1 |>.countCommit (key / 256)

/-- A commit that discards its packet (R210): every effect but the enqueues of its own handle, and the buffer
returns; a header cell that it waited for, or was granted, is not needed (R310). -/
def Dev.commitDiscard (d : Dev) (now key : Nat) (bounds : Bool) : Dev :=
  let x := d.txn key
  let d := d.dropHdrCell key
  let d := x.entries.foldl (fun d e => d.applyEntry now key (some (x.handle, x.handle)) e) d
  let d := d.bump (Reg.TMG_DROP_CNT 0) (x.entries.countP (fun e => match e with
    | .enq _ h _ => decide (h ≠ x.handle)
    | _ => false))
  let d := (d.commitDone key).release x.owner x.handle
  let d := d.bump Reg.PRS_DISCARD_CNT 1
  let d := d.raiseIf bounds Src.canvasBounds (key % 256 * 2 ^ 8 + key / 256)
  d.freeSlot key

/-- A commit whose header cell is there (R161, R303): the header is written, the effects are applied to the new head,
and the enqueues of the packet's handle wait for their hand-off; without one the buffer is released. -/
def Dev.commitApply (d : Dev) (now key : Nat) (cell : Word) (img : List Byte) : Dev :=
  let x := d.txn key
  let hs := (byteAt img 0xC3).toNat
  let he := (byteAt img 0xC4).toNat
  let d := d.putHeader cell x.handle (slice img hs (he - hs)) x.winOff x.skip
  let d := x.entries.foldl (fun d e => d.applyEntry now key (some (x.handle, cell)) e) d
  let d := d.bump (Reg.TMG_DROP_CNT 0) (x.entries.countP (fun e => match e with
    | .enq _ h _ => decide (h ≠ x.handle)
    | _ => false))
  let own := x.entries.filter (fun e => e.enqOf x.handle)
  let d := d.commitDone key
  if own = [] then (d.release x.owner cell).freeSlot key
  else d.setTxn key { x with phase := .committing, ws := [], sig := 0, handle := cell, pktLen := leAt img 0xC0 2,
                             recirc := wd (leAt img 0xFC 4), enqs := own, hdrCell := none }

/-- A transaction in commit wait that is its domain's head commits (R160 to R166), or aborts with cause 0x1, 0x3 or
0x8. It waits while it is held (R185) or the commit buffer is full; an irrevocable one waits for a header cell. A packet
with a quarantined buffer is discarded (R317). An uncorrectable error in its Canvas aborts it with cause 0x5 (R541). -/
def varnishCommit (now key : Nat) (d : Dev) : Dev :=
  let x := d.txn key
  if x.phase ≠ .commitWait ∨ (d.dom x.domain).flight.head? ≠ some x.ticket ∨ d.commitHeld x
      ∨ 1024 < d.vrn.cbuf.length + wsStores x.entries then d
  else
    let img := d.memRead (cluBase (key / 256) + canvasVa (key % 256) x.work) 256
    let hs := (byteAt img 0xC3).toNat
    let he := (byteAt img 0xC4).toNat
    let len := leAt img 0xC0 2
    let inBounds := decide (hs ≤ he ∧ he ≤ 0xC0 ∧ x.skip ≤ len ∧ len ≤ x.skip + d.payloadLen key)
    let grans := wsGrans x.entries
    if d.sramBad (cluBase (key / 256) + canvasVa (key % 256) x.work) 256 then d.coreUe key
    else if !d.metersHold now x.entries then d.abortTxn key 3
    else if (d.conflicting key grans).any (fun u => (d.txn u).guarded) then d.abortTxn key 1
    else if x.discard ≠ 0 ∨ !inBounds ∨ d.quarantined x.handle then
      (d.abortConflicts key 1 grans).commitDiscard now key (!inBounds)
    else if d.pal.irrevWait.contains key && x.hdrCell.isNone then d
    else match d.headerCell x with
      | some (cell, d) => (d.abortConflicts key 1 grans).commitApply now key cell img
      | none =>
        if x.irrev = .granted then { d with pal := { d.pal with irrevWait := d.pal.irrevWait ++ [key] } }
        else d.abortTxn key 8

/-- A commit request reaches Varnish and enters commit wait (R159, R163). -/
def commitRequest (key : Nat) (d : Dev) : Dev :=
  if (d.txn key).phase = .ending then d.updTxn key (fun x => { x with phase := .commitWait }) else d

/-- The DRAM write of the oldest granule of the commit buffer is acknowledged (R161). -/
def commitBufferRetire (d : Dev) : Dev := { d with vrn := { d.vrn with cbuf := d.vrn.cbuf.tail } }

/-- The buffer that was taken for the irrevocable request that waits first becomes its header cell (R310): it was charged
to the packet's owner when the free returned it. -/
def irrevHeaderCellGrant (d : Dev) : Dev :=
  match d.pal.irrevWait, d.pal.withheld with
  | k :: r, (h, _) :: w =>
    ({ d with pal := { d.pal with irrevWait := r, withheld := w } }).updTxn k (fun x => { x with hdrCell := some h })
  | _, _ => d

/-! The irrevocable grant (R173). -/

/-- Varnish gives the grant to the transaction that became eligible first: its thread, held at its entry, is released,
and the grant is counted. -/
def irrevocableGrant (d : Dev) : Dev :=
  if d.vrn.grant.isSome then d
  else
    let d := d.noteEligible
    match d.vrn.waiters with
    | [] => d
    | k :: r =>
      let d := { d with vrn := { d.vrn with grant := some k, waiters := r, holdWait := none } }
      let d := (d.updTxn k (fun x => { x with irrev := .granted })).bump64 Reg.VRN_IRREV_CNT_LO 1
      match d.txnThread k with
      | some t => d.updThr t (fun th => if th.run = .starting then { th with run := .running } else th)
      | none => d

/-- Whether something has waited 1 ms for a transaction halted in hold mode (R176, R184, R189): the drain of a control-plane
transaction positioned after it, or a shared store of the granted run that hits its signature. -/
def Dev.holdsUp (d : Dev) (now key : Nat) (x : Txn) : Bool :=
  let long := fun (t : Nat) => decide (max t x.heldAt + 1000000 ≤ now)
  x.held && (d.vrn.cps.any (fun c => decide (c.stage = .positioned) && !c.isAfter x && long c.since)
    || d.vrn.grant.any (fun g => decide (g ≠ key)) && d.vrn.holdWait.any (fun e => d.sigHas x e.2 && long e.1))

/-- A wait on a transaction halted in hold mode reaches 1 ms (R189): nothing is recorded before, nor while nothing waits
for it. -/
def vrnHoldStall (now : Nat) (d : Dev) : Dev :=
  d.raiseIf (d.vrn.txns.any (fun e => d.holdsUp now e.1 e.2)) Src.vrnHoldStall 0

end Sys2Proof.Machine
end

