-- ==== Sys2Proof/Machine/Parser.lean ====
section
/-!
DEFINITION. Frames in packet memory (R204, R303, R321), the parser (R190 to R205), bank switches and slices (R211 to
R213), recirculation (R202, R203), and the distributor (R24, R155).
-/

namespace Sys2Proof.Machine

/-! Frames (R303, R321). -/

/-- The trailer of a header cell: prefix, hdr_len and skip (R303). -/
def Dev.trailer (d : Dev) (h : Word) : Nat × Nat × Nat :=
  let a := d.bufAddr h
  (d.memLe (a + 0xFA) 2, d.memLe (a + 0xF8) 1, d.memLe (a + 0xFC) 2)

/-- The frame length L of an enqueue (R321). -/
def Dev.frameLen (d : Dev) (h : Word) (pktLen : Nat) : Nat :=
  let t := d.trailer h
  t.1 + t.2.1 + (pktLen - t.2.2)

/-- The live header of a header cell. -/
def Dev.liveHeader (d : Dev) (h : Word) : List Byte := d.memRead (d.bufAddr h) (d.trailer h).2.1

/-- The bytes of a frame (R204, R303): prefix bytes of the payload, the header, and the payload from skip up to the
packet length. -/
def Dev.frameBytes (d : Dev) (x : TmItem) : List Byte :=
  let t := d.trailer x.handle
  let pay := d.payload (wd (d.ds x.handle).next) (max x.pktLen t.1)
  pay.take t.1 ++ d.liveHeader x.handle ++ (pay.take x.pktLen).drop t.2.2

/-- The first buffer of a frame whose data are poisoned, if any (R317, R432). -/
def Dev.poisonedBuf (d : Dev) (x : TmItem) : Option Word :=
  (d.chain x.handle).find? (fun h => d.dead (d.bufAddr h) (2 ^ d.poolSize (hPool h)))

/-- Whether a queued copy must be discarded at egress: its data are poisoned, or a buffer of it or the head it shares is
quarantined (R315, R317, R432). -/
def Dev.frameBad (d : Dev) (x : TmItem) : Bool :=
  (d.poisonedBuf x).isSome || d.quarantined x.handle || !d.soundBuf x.head

/-- Poisoned data of a frame are recorded at egress with their buffer (R580), and each poisoned DRAM descriptor of its chain,
whose buffer is quarantined (R317, R432). -/
def Dev.dataFault (d : Dev) (x : TmItem) : Dev :=
  let d := match d.poisonedBuf x with
    | some h => d.raise Src.palDataEcc h.toNat
    | none => d
  (d.meetLinks x.handle).meetLink x.head

/-- Whether the copy of a handle at a port still waits for the egress spill reader (R437). -/
def Dev.spillWaits (d : Dev) (p : Nat) (h : Word) : Bool :=
  d.drc.reqs.any (fun q => match q.who with
    | .spill r k _ => decide (r = p ∧ k = h) && q.done.isNone
    | _ => false)

/-- The real-time readers are done with the frame of a handle (R345, R437). -/
def Dev.endReads (d : Dev) (h : Word) : Dev :=
  { d with drc := { d.drc with reqs := d.drc.reqs.filter (fun q => match q.who with
      | .gate _ k => decide (k ≠ h)
      | .spill _ k _ => decide (k ≠ h)
      | _ => true) } }

/-- The release of one copy as a port's owner (R314): a replica's header cell is freed with it (R315). -/
def Dev.releaseCopy (d : Dev) (e : Nat) (x : TmItem) : Dev :=
  let d := d.endReads x.handle
  let d := if x.handle = x.head then d else d.freeBuf x.handle
  d.release e x.head

/-! The parse (R194 to R200). -/

/-- The registers of a parse bank (R211): bank B is held apart from the register window. -/
def Dev.prsReg (d : Dev) (bank off : Nat) : Word := d.reg (off + bank * 2 ^ 26)

/-- What a parse has recorded (R192, R195). -/
structure ParseSt where
  cursor : Nat
  layers : List Nat
  key : List Byte
  steps : Nat
  short : Bool
  exhausted : Bool
  exCursor : Nat
  missEnd : Bool
  limit : Bool
  done : Option Nat
  deriving DecidableEq, Repr

/-- A parse at its start cursor. -/
def ParseSt.init (cursor : Nat) : ParseSt :=
  { cursor := cursor, layers := List.replicate 16 255, key := zeros 16, steps := 0, short := false, exhausted := false,
    exCursor := 0, missEnd := false, limit := false, done := none }

/-- A step touches window byte i (R196): beyond the window the parse ends with the exhaust profile; beyond the packet's
end `short` is set. -/
def ParseSt.touch (s : ParseSt) (avail exEnd i : Nat) : ParseSt :=
  if s.done.isSome then s
  else if 127 < i then { s with exhausted := true, exCursor := min s.cursor 255, done := some exEnd }
  else if avail ≤ i then { s with short := true } else s

/-- The extraction of R195 step 2: bytes beyond key[15] are neither read nor written. -/
def ParseSt.extract (s : ParseSt) (win : List Byte) (avail exEnd src dst : Nat) : (n : Nat) → ParseSt
  | 0 => s
  | n + 1 =>
    if 15 < dst then s
    else
      let s := s.touch avail exEnd src
      if s.done.isSome then s
      else ({ s with key := patch s.key dst [byteAt win src] } : ParseSt).extract win avail exEnd (src + 1) (dst + 1) n

/-- Touches n window bytes from one. -/
def ParseSt.touches (s : ParseSt) (avail exEnd : Nat) : (i n : Nat) → ParseSt
  | _, 0 => s
  | i, n + 1 => (s.touch avail exEnd i).touches avail exEnd (i + 1) n

/-- The first matching transition entry of a state (R195 step 4). -/
def Dev.ttMatch (d : Dev) (bank sel mask : Nat) : (i n : Nat) → Option Nat
  | _, 0 => none
  | i, n + 1 =>
    if 4095 < i then none
    else
      let m := (d.prsReg bank (Reg.PRS_TT_W1 i)).toNat
      if bit (d.prsReg bank (Reg.PRS_TT_W2 i)) 9
          && decide (sel &&& m = (d.prsReg bank (Reg.PRS_TT_W0 i)).toNat &&& mask &&& m) then some i
      else d.ttMatch bank sel mask (i + 1) n

/-- One step in a state (R195 to R197), and the next state. -/
def Dev.parseStep (d : Dev) (bank : Nat) (win : List Byte) (avail exEnd st : Nat) (s : ParseSt) : ParseSt × Nat :=
  let w0 := d.prsReg bank (Reg.PRS_STATE_W0 st)
  let mask := (d.prsReg bank (Reg.PRS_STATE_W1 st)).toNat
  let w2 := d.prsReg bank (Reg.PRS_STATE_W2 st)
  let w3 := d.prsReg bank (Reg.PRS_STATE_W3 st)
  let s := { s with steps := s.steps + 1 }
  let s := if bit w2 20 then
      let s := s.touch avail exEnd s.cursor
      if s.done.isSome then s else { s with layers := s.layers.set (fld w2 19 16) (0x40 + s.cursor) }
    else s
  let s := s.extract win avail exEnd (s.cursor + fld w2 6 0) (fld w2 15 12) (fld w2 11 7)
  let so := s.cursor + fld w0 6 0
  let sn := fld w0 8 7 + 1
  let s := s.touches avail exEnd so sn
  let sel := beVal (slice win so sn) &&& mask
  let ho := s.cursor + fld w3 19 13
  let s := if bit w3 12 then s.touch avail exEnd ho else s
  let hlen := if bit w3 12 then
      (byteAt win ho).toNat / 2 ^ fld w3 22 20 % 2 ^ (fld w3 25 23 + 1) * 2 ^ fld w3 27 26 else 0
  if s.done.isSome then (s, 0)
  else match d.ttMatch bank sel mask (fld w0 21 10) (fld w0 28 22) with
    | some i =>
      let t := d.prsReg bank (Reg.PRS_TT_W2 i)
      let s := { s with cursor := s.cursor + hlen + fld t 23 16 }
      if bit t 8 then ({ s with done := some (fld t 5 0) }, 0) else (s, fld t 7 0)
    | none =>
      let s := { s with cursor := s.cursor + hlen }
      if bit w3 8 then ({ s with missEnd := true, done := some (fld w3 5 0) }, 0) else (s, fld w3 7 0)

/-- A parse of at most n further steps (R196). -/
def Dev.parseGo (d : Dev) (bank : Nat) (win : List Byte) (avail exEnd limEnd : Nat) :
    (n st : Nat) → ParseSt → ParseSt
  | 0, _, s => { s with limit := true, done := some limEnd }
  | n + 1, st, s =>
    let r := d.parseStep bank win avail exEnd st s
    if r.1.done.isSome then r.1 else d.parseGo bank win avail exEnd limEnd n r.2 r.1

/-- The ordering domain of a packet (R200). -/
def Dev.domainOf (d : Dev) (bank prof port : Nat) (key : List Byte) : Nat :=
  let w1 := d.prsReg bank (Reg.PRS_END_W1 prof)
  let mask := fld (d.prsReg bank (Reg.PRS_END_W2 prof)) 15 0
  let h := if bit w1 16 then port
    else crc32c (d.reg Reg.PRS_HASH_SEED).toNat ((List.range 16).filterMap (fun k =>
      if mask.testBit k then some (byteAt key k) else none))
  (fld w1 11 0 + h % 2 ^ fld w1 15 12) % 4096

/-- The 256-byte initial Canvas image (R191, R192). -/
def canvasImage (p : Pkt) (win : List Byte) (winOff hdrEnd : Nat) (s : ParseSt) (prof prio dom : Nat) : List Byte :=
  let recircd := decide (128 ≤ p.port)
  let status := min p.recircs 255 * 2 ^ 24 + s.exCursor * 2 ^ 16 + b2n recircd * 16 + b2n s.missEnd * 8
    + b2n s.limit * 4 + b2n s.exhausted * 2 + b2n s.short
  zeros 64 ++ win
    ++ leBytes 4 (0x40 * 2 ^ 24 + p.port * 2 ^ 16 + p.len)
    ++ leBytes 4 (winOff * 2 ^ 16 + hdrEnd)
    ++ leBytes 4 (s.steps * 2 ^ 22 + prof * 2 ^ 16 + prio * 2 ^ 12 + dom)
    ++ leBytes 4 p.handle.toNat ++ leBytes 4 p.tsNs ++ leBytes 4 p.tsSec ++ leBytes 4 status
    ++ s.layers.map (BitVec.ofNat 8) ++ s.key ++ zeros 4

/-- Whether a parser slice is in service (R213, R546). -/
def Dev.slicesIn (d : Dev) : Nat :=
  255 - ((d.rf Reg.PRS_SLICE_CTL 7 0) ||| (d.rf (Reg.FLT_UNITS 3) 7 0))

/-- The recirc word's window offset, if it is valid (R202). -/
def Pkt.winOff (p : Pkt) : Nat := match p.recirc with
  | some w => if bit w 24 then fld w 15 0 else 0
  | none => 0

/-- A packet parsed in the active bank (R194 to R200): the result before a domain and ticket are chosen. -/
def Dev.parsePkt (d : Dev) (p : Pkt) : ParseSt × List Byte × Nat :=
  let bank := d.rf Reg.PRS_CTL 1 1
  let off := p.winOff
  let avail := min 128 (p.len - off)
  let bytes := d.payload p.handle (off + avail)
  let win := padTo 128 ((bytes.take (off + avail)).drop off)
  let ps := d.prsReg bank (Reg.PRS_PORT_START p.port)
  let valid := match p.recirc with
    | some w => bit w 24
    | none => false
  let st := match p.recirc with
    | some w => if bit w 24 then fld w 23 16 else fld ps 7 0
    | none => fld ps 7 0
  let cur := if valid then 0 else fld ps 14 8
  (d.parseGo bank win avail (d.rf Reg.PRS_CTL 13 8) (d.rf Reg.PRS_CTL 21 16) 14 st (ParseSt.init cur), win,
    0x40 + avail)

/-- The exhaust and limit counts of a parse (R214). -/
def Dev.countParse (d : Dev) (s : ParseSt) : Dev :=
  (d.bump Reg.PRS_EXHAUST_CNT (b2n s.exhausted)).bump Reg.PRS_LIMIT_CNT (b2n s.limit)

/-- A packet that migrates is parsed again (R174, R205): it keeps its ticket, domain, entry, priority and counted
aborts. -/
def Dev.reparse (d : Dev) (x : Txn) : Dev :=
  let p : Pkt := { handle := x.handle, owner := x.owner, len := x.pktLen, port := x.inPort,
                   tsNs := x.tsNs, tsSec := x.tsSec, recircs := x.recircs,
                   recirc := if 128 ≤ x.inPort then some x.recirc else none }
  let r := d.parsePkt p
  let s := r.1
  let d := d.countParse s
  let out : Parsed := { pkt := p, image := canvasImage p r.2.1 p.winOff r.2.2 s (s.done.getD 0) x.prio x.domain,
                        entry := x.entry, prio := x.prio, domain := x.domain, ticket := x.ticket, counted := x.counted,
                        irrev := decide (x.irrev = .waits), winOff := p.winOff, hdrEnd := r.2.2,
                        bank := d.rf Reg.PRS_CTL 1 1, migrated := true }
  { d with prs := { d.prs with out := d.prs.out ++ [out] } }

/-- A new packet is parsed (R195 to R200, R203): discarded, also for a quarantined buffer (R317), dropped by its end
profile, or ticketed. -/
def Dev.parseNew (d : Dev) (sec nsec : Nat) (p : Pkt) : Dev :=
  let p := if 112 ≤ p.port then { p with tsNs := nsec, tsSec := sec % 2 ^ 32 } else p
  let lost := fun (d : Dev) => (d.release p.owner p.handle).bump Reg.PRS_DISCARD_CNT 1
  let far := p.recirc.isSome && decide (d.rf Reg.PRS_CTL 27 24 < p.recircs)
  let wide := p.recirc.isSome && decide (p.len ≤ p.winOff)
  if far || wide then ((lost d).raiseIf far Src.prsRecircLimit p.port).raiseIf wide Src.prsWinoffRange p.port
  else if d.quarantined p.handle then d.release p.owner p.handle
  else
    let bank := d.rf Reg.PRS_CTL 1 1
    let r := d.parsePkt p
    let s := r.1
    let prof := s.done.getD 0
    let w1 := d.prsReg bank (Reg.PRS_END_W1 prof)
    let d := d.countParse s
    if bit w1 20 then (d.release p.owner p.handle).bump Reg.PRS_DROP_CNT 1
    else
      let dn := d.domainOf bank prof p.port s.key
      let x := d.dom dn
      let d := d.setDom dn { next := (x.next + 1) % 2 ^ 32, flight := x.flight ++ [x.next] }
      let d := d.bump64 Reg.PRS_PKT_CNT_LO 1
      let out : Parsed := { pkt := p, image := canvasImage p r.2.1 p.winOff r.2.2 s prof (fld w1 19 17) dn,
                            entry := d.prsReg bank (Reg.PRS_END_W0 prof), prio := fld w1 19 17, domain := dn,
                            ticket := x.next, counted := 0, irrev := false, winOff := p.winOff, hdrEnd := r.2.2,
                            bank := bank, migrated := false }
      { d with prs := { d.prs with out := d.prs.out ++ [out] } }

/-- Free transaction slots of a cluster (R154). -/
def Dev.freeSlots (d : Dev) (c : Nat) : Nat :=
  256 - d.vrn.txns.countP (fun e => decide (e.1 / 256 = c ∧ e.2.phase ≠ .free))

/-- Free transaction slots of the active clusters: how many parsed packets the distributor can still place (R24). -/
def Dev.placesFree (d : Dev) : Nat :=
  (List.range 24).foldl (fun n c => if d.cluActive c then n + d.freeSlots c else n) 0

/-- A slice parses the next packet (R195): a packet that migrates first, else the oldest in the ingress order while the
parser accepts packets. It stalls while no active cluster has a free slot for the packet (R24). -/
def parsePacket (sec nsec : Nat) (d : Dev) : Dev :=
  if d.slicesIn = 0 ∨ d.stage = 4 ∨ d.placesFree ≤ d.prs.out.length then d
  else match d.prs.rereads with
    | (_, x) :: r => { d with prs := { d.prs with rereads := r } }.reparse x
    | [] =>
      if d.rb Reg.PRS_CTL 0 then
        match d.prs.inq with
        | p :: r => { d with prs := { d.prs with inq := r } }.parseNew sec nsec p
        | [] => d
      else d

/-- A packet whose last cell has entered the ingress cell writer waits for the parser: the packets of one cycle in the order of
their ports (R34; one value of the nanosecond counter stands for one cycle, log entry 119). -/
def Dev.enqueueIn (d : Dev) (p : Pkt) : Dev :=
  let q := d.prs.inq
  let k := min d.prs.fresh q.length
  let new := q.drop (q.length - k)
  let early := fun (x : Pkt) => decide (x.port ≤ p.port)
  { d with prs := { d.prs with inq := q.take (q.length - k) ++ new.takeWhile early ++ p :: new.dropWhile early, fresh := k + 1 } }

/-- A cycle ends: the packets that come later are of another (R34). -/
def Dev.cycleEnds (d : Dev) : Dev := { d with prs := { d.prs with fresh := 0 } }

/-- A packet enqueued to a recirculation port re-enters (R26, R202, R304): its frame is written into a fresh chain
charged to the port's owner, and the old chain is released as that owner (log entry 24). One with poisoned data or a
quarantined buffer is discarded (R317), and one that still waits for the egress spill reader stays (R437). -/
def recirculationReentry (port : Nat) (d : Dev) : Dev :=
  match tget [] d.tmg.egress port with
  | e :: r =>
    if d.spillWaits port e.item.handle then d
    else
    let o := d.portOwner port
    let bytes := d.frameBytes e.item
    let d := { d with tmg := { d.tmg with egress := tset [] d.tmg.egress port r } }
    if e.sent || d.frameBad e.item then (if e.sent then d else d.dataFault e.item).releaseCopy o e.item
    else match d.allocChain o (d.rf (Reg.PAL_OWNER o) 3 0) bytes.length with
    | none => ((d.releaseCopy o e.item).bump (Reg.PAL_OWNER_DROP o) 1).raise Src.palOwnerDrop o
    | some (h, d) =>
      let d := (d.fillBufs (d.chain h) bytes).releaseCopy o e.item
      let p : Pkt := { handle := h, owner := o, len := bytes.length, port := port, tsNs := 0, tsSec := 0,
                       recircs := e.item.recircs + 1, recirc := some e.item.recirc }
      d.enqueueIn p
  | [] => d

/-! The distributor (R24, R155). -/

/-- The cluster a packet is placed in: the active one with the most free slots, ties by the rotating index. -/
def Dev.placeCluster (d : Dev) : Option Nat :=
  let best := (List.range 24).foldl (fun n c => if d.cluActive c then max n (d.freeSlots c) else n) 0
  if best = 0 then none else findCyclic (fun c => d.cluActive c && decide (d.freeSlots c = best)) (d.prs.rot % 24) 24

/-- The distributor places the oldest parsed packet (R24, R132, R155, R162): the initial image goes into both buffers of
the lowest free slot (log entry 23), and a task record is posted. It waits while no active cluster has a free slot. -/
def distributePacket (d : Dev) : Dev :=
  match d.prs.out, d.placeCluster with
  | p :: r, some c =>
    if !d.rb Reg.VRN_CTL 0 ∨ d.stage = 4 then d
    else match findNat (fun s => decide ((d.txn (256 * c + s)).phase = .free)) 0 256 with
      | none => d
      | some s =>
        let key := 256 * c + s
        let d := { d with prs := { d.prs with out := r, rot := (d.prs.rot + 1) % 24 } }
        let d := (d.memWrite (cluBase c + canvasVa s 0) p.image).memWrite (cluBase c + canvasVa s 1) p.image
        let skip := p.winOff + (p.hdrEnd - 0x40)
        let d := d.setTxn key { Txn.reset with
          phase := .active, domain := p.domain, ticket := p.ticket, entry := p.entry, prio := p.prio, work := 0,
          handle := p.pkt.handle, owner := (d.ds p.pkt.handle).owner, inPort := p.pkt.port, winOff := p.winOff,
          hdrEnd0 := p.hdrEnd, pktLen := p.pkt.len, d := p.pkt.len - skip, recircs := p.pkt.recircs,
          counted := p.counted, irrev := if p.irrev then .waits else .spec,
          recirc := p.pkt.recirc.getD 0, tsNs := p.pkt.tsNs, tsSec := p.pkt.tsSec }
        let d := d.storeRcd c s { entry := p.entry, prio := p.prio, ticket := wd p.ticket, canvas := wd (canvasVa s 0),
                                  user := 0, hasTxn := true, txn := s, resume := false, save := 0, slots := [],
                                  ready := none, tid := 0, taken := false }
        if d.rb Reg.VRN_CTL 1 && decide ((d.dom p.domain).flight.head? = some p.ticket) then
          { d with esl := { d.esl with reports := d.esl.reports ++ [(c, s)] } }
        else d
  | _, _ => d

/-! Banks and slices (R212, R213). -/

/-- A write that changes PRS_CTL.active_bank (R212): the packets parsed from now on use the new bank. -/
def parserBankSwitch (bank : Nat) (d : Dev) : Dev := d.setRf Reg.PRS_CTL 1 1 bank

/-- Whether packets of the former bank are still in a slice (PRS_STATUS.switch_pending, R212). -/
def Dev.switchPending (d : Dev) : Bool := d.prs.out.any (fun p => decide (p.bank ≠ d.rf Reg.PRS_CTL 1 1))

/-- A write of PRS_SLICE_CTL (R213, R214): 0xFF is refused. -/
def prsSliceIsolate (req : Req) (v : Nat) (d : Dev) : Dev :=
  if v % 256 = 255 then d.refuse req Reg.PRS_SLICE_CTL
  else d.setReg Reg.PRS_SLICE_CTL (wd (v % 256))

end Sys2Proof.Machine
end

