-- ==== Sys2Proof/Machine/Tm.lean ====
section
/-!
DEFINITION. The traffic manager (R319 to R354): the object store, admission with IEEE 802.1CB recovery and replication,
shapers, DWRR, time gates, dequeue, the Swatch and the object commands; and the register commands of the MTR block.
-/

namespace Sys2Proof.Machine

/-! Objects (R319, R354). -/

/-- The key of an object. -/
def objKey (kind i : Nat) : Nat := kind * 2 ^ 17 + i

/-- The words of an object; every one 0 at reset but a port's guard and lead time (R354). -/
def objReset (k : Nat) : List Word :=
  if k / 2 ^ 17 = 3 then [0, 0, 0, 0, 0, wd (8 * 2 ^ 16 + 0x78), 0, 0] else List.replicate 8 0

/-- An object's words. -/
def Dev.obj (d : Dev) (kind i : Nat) : List Word := Tab.get objReset d.tmg.objs (objKey kind i)
/-- Word w of an object. -/
def Dev.ow (d : Dev) (kind i w : Nat) : Word := (d.obj kind i).getD w 0
/-- The device with an object's words replaced. -/
def Dev.setObj (d : Dev) (kind i : Nat) (ws : List Word) : Dev :=
  { d with tmg := { d.tmg with objs := Tab.set objReset d.tmg.objs (objKey kind i) ws } }

/-- A queue's run-time state. -/
def Dev.queue (d : Dev) (q : Nat) : TmQueue := tget TmQueue.empty d.tmg.queues q
/-- The device with a queue's run-time state replaced. -/
def Dev.setQueue (d : Dev) (q : Nat) (x : TmQueue) : Dev :=
  { d with tmg := { d.tmg with queues := tset TmQueue.empty d.tmg.queues q x } }

/-- Whether a queue, node or port is enabled. -/
def Dev.objOn (d : Dev) (kind i : Nat) : Bool := bit (d.ow kind i 0) 31
/-- A queue's subscriber. -/
def Dev.subOf (d : Dev) (q : Nat) : Nat := fld (d.ow 0 q 0) 13 0
/-- A subscriber's service. -/
def Dev.svcOf (d : Dev) (s : Nat) : Nat := fld (d.ow 1 s 0) 10 0
/-- A service's port. -/
def Dev.svcPort (d : Dev) (v : Nat) : Nat := fld (d.ow 2 v 0) 7 0
/-- The port at the end of a queue's path, enabled or not. -/
def Dev.queuePort (d : Dev) (q : Nat) : Nat := d.svcPort (d.svcOf (d.subOf q))

/-- Whether the subscriber, service and port above a queue are enabled (R320). -/
def Dev.aboveOn (d : Dev) (q : Nat) : Bool :=
  d.objOn 1 (d.subOf q) && d.objOn 2 (d.svcOf (d.subOf q)) && d.objOn 3 (d.queuePort q)

/-- Whether a queue has a complete path (R320). -/
def Dev.pathOn (d : Dev) (q : Nat) : Bool := d.objOn 0 q && d.aboveOn q

/-- Whether a port is up (R401): fabric and slot ports in state 4, heritage lanes in service, a ring group's port while
the group runs (R485); recirculation ports always. -/
def Dev.portUp (d : Dev) (p : Nat) : Bool :=
  if p < 80 then decide (d.rf (Reg.PRT_PORT_W2 p) 31 28 = 4)
  else if p < 112 then d.rb (Reg.STN_LANE_W0 (p - 80)) 31
  else if p < 128 then d.grpRuns (p - 112)
  else true

/-- Whether a port is declared as Ethernet (R339). -/
def Dev.portEthernet (d : Dev) (p : Nat) : Bool :=
  decide (p < 80) && decide (d.rf (Reg.PRT_PORT_W2 p) 23 16 = 1 ∨ d.rf (Reg.PRT_PORT_W2 p) 23 16 = 3)

/-! Shapers (R332, R333). -/

/-- A shaper's state. -/
def Dev.shaper (d : Dev) (k : Nat) : Shaper := tget ⟨0, 0, 0⟩ d.tmg.shapers k
/-- The device with a shaper's state replaced. -/
def Dev.setShaper (d : Dev) (k : Nat) (s : Shaper) : Dev :=
  { d with tmg := { d.tmg with shapers := tset ⟨0, 0, 0⟩ d.tmg.shapers k s } }

/-- A shaper brought up to date (R333). -/
def Dev.shaperNow (d : Dev) (now kind i : Nat) : Shaper :=
  let s := d.shaper (objKey kind i)
  let dt := now - s.last
  { cLevel := refill s.cLevel (fld (d.ow kind i 1) 28 0) (fld (d.ow kind i 3) 23 0) dt,
    pLevel := refill s.pLevel (fld (d.ow kind i 2) 28 0) (fld (d.ow kind i 4) 23 0) dt, last := now }

/-- Whether an object's peak bucket conforms, or its pir is 0 (R327). -/
def Dev.peakOk (d : Dev) (now kind i : Nat) : Bool :=
  decide (fld (d.ow kind i 2) 28 0 = 0) || decide (0 ≤ (d.shaperNow now kind i).pLevel)

/-- Whether an object is committed (R327). -/
def Dev.committed (d : Dev) (now kind i : Nat) : Bool :=
  decide (fld (d.ow kind i 1) 28 0 ≠ 0) && decide (0 ≤ (d.shaperNow now kind i).cLevel)

/-- A debit of S bytes on both buckets, down to −16,777,215 (R329, R333). -/
def Dev.debit (d : Dev) (now kind i : Nat) (bytes : Int) : Dev :=
  let s := d.shaperNow now kind i
  let lo : Int := -(16777215 * 65536)
  d.setShaper (objKey kind i)
    { s with cLevel := max lo (s.cLevel - bytes * 65536), pLevel := max lo (s.pLevel - bytes * 65536) }

/-- Both buckets full (R333). -/
def Dev.fillShaper (d : Dev) (now kind i : Nat) : Dev :=
  d.setShaper (objKey kind i)
    { cLevel := ((fld (d.ow kind i 3) 23 0 * 65536 : Nat) : Int), pLevel := ((fld (d.ow kind i 4) 23 0 * 65536 : Nat) : Int),
      last := now }

/-- The shaping length of a frame on a port (R329, R334). -/
def Dev.shapeLen (d : Dev) (p len : Nat) : Int :=
  (if d.portEthernet p then ((max (len + 4) 64 : Nat) : Int) else (len : Int)) + sintN 8 (fld (d.ow 3 p 5) 31 24)

/-! Drops (R322, R354). -/

/-- A copy's size in cells (R323). -/
def cellsOf (len : Nat) : Nat := 1 + (len + 255) / 256

/-- A drop of a queue is counted under its reason. -/
def Dev.countDrop (d : Dev) (q reason : Nat) : Dev :=
  let x := d.queue q
  (d.setQueue q { x with drops := (x.drops + 1) % 2 ^ 32, newDrops := x.newDrops + 1 }).bump (Reg.TMG_DROP_CNT reason) 1

/-- A copy dropped at a queue, released as the owner of the port at the end of the path, or for reason 0 as the packet's
own owner (R314, R322). -/
def Dev.dropCopy (d : Dev) (q reason own : Nat) (x : TmItem) : Dev :=
  let e := if reason = 0 then own else d.portOwner (d.queuePort q)
  (d.countDrop q reason).releaseCopy e x

/-- A copy taken off a queue's counts (R323); the next one is the head from now on. -/
def Dev.unqueue (d : Dev) (now q : Nat) (len : Nat) : Dev :=
  let x := d.queue q
  d.setQueue q { x with items := x.items.tail, headAt := now, bytes := x.bytes - len, cells := x.cells - cellsOf len }

/-! Sequence recovery (R348 to R350). -/

/-- A recovery function in its reset state. -/
def Recov.init : Recov :=
  { reset := true, seq := 0, hist := 0, passed := 0, discarded := 0, outOfOrder := 0, rogue := 0, resets := 0, last := 0 }

/-- A recovery function. -/
def Dev.recov (d : Dev) (i : Nat) : Recov := tget Recov.init d.tmg.recov i
/-- The device with a recovery function replaced. -/
def Dev.setRecov (d : Dev) (i : Nat) (r : Recov) : Dev :=
  { d with tmg := { d.tmg with recov := tset Recov.init d.tmg.recov i r } }

/-- A packet with a sequence number at a recovery function (R349): the drop reason, if any, and the new state. -/
def Recov.check (r : Recov) (now seq : Nat) : Option Nat × Recov :=
  let diff := sintN 16 (seq + 65536 - r.seq)
  if r.reset then (none, { r with reset := false, seq := seq, hist := 1, passed := r.passed + 1, last := now })
  else if 64 ≤ diff ∨ diff ≤ -64 then (some 3, { r with rogue := r.rogue + 1 })
  else if 0 < diff then
    (none, { r with hist := r.hist * 2 ^ diff.toNat % 2 ^ 64 ||| 1, seq := seq, passed := r.passed + 1, last := now })
  else
    let k := (-diff).toNat
    if r.hist.testBit k then (some 2, { r with discarded := r.discarded + 1 })
    else (none, { r with hist := r.hist ||| 2 ^ k, passed := r.passed + 1, outOfOrder := r.outOfOrder + 1, last := now })

/-- The elimination check of a queue (R322, R348): the drop reason, if any. A packet admitted without a sequence number is an
admission too (R350). -/
def Dev.eliminate (d : Dev) (now q : Nat) (h : Word) : Option Nat × Dev :=
  let i := fld (d.ow 0 q 6) 31 20
  let off := fld (d.ow 0 q 3) 31 24
  let hdr := d.liveHeader h
  if hdr.length < off + 2 then
    (if bit (d.ow 7 i 0) 30 then (none, d.setRecov i { d.recov i with last := now }) else (some 4, d))
  else
    let r := (d.recov i).check now (beVal (slice hdr off 2))
    (r.1, d.setRecov i r.2)

/-- A recovery function whose timeout has passed returns to its reset state (R350). -/
def recoveryTimeout (now i : Nat) (d : Dev) : Dev :=
  let r := d.recov i
  let t := fld (d.ow 7 i 0) 19 0
  if t ≠ 0 ∧ !r.reset ∧ r.last + 1000 * t ≤ now then
    d.setRecov i { r with reset := true, resets := (r.resets + 1) % 2 ^ 32 }
  else d

/-! Admission (R321 to R324, R347). -/

/-- Steps 1, 3 and 4 of R322 for a copy at a queue: the drop reason, or the copy linked. A threshold of 0 admits
nothing. -/
def Dev.admitCopy (d : Dev) (now q colour : Nat) (x : TmItem) : Option Nat × Dev :=
  let s := d.queue q
  let thr := match colour with
    | 0 => fld (d.ow 0 q 5) 19 0
    | 1 => fld (d.ow 0 q 6) 19 0
    | _ => fld (d.ow 0 q 7) 19 0
  if !d.rb Reg.TMG_CTL 0 ∨ !d.pathOn q then (some 0, d)
  else if thr = 0 ∨ 256 * thr < s.bytes + x.len then (some 1, d)
  else
    (none, d.setQueue q { s with items := s.items ++ [{ x with at_ := now }]
                                 headAt := if s.items = [] then now else s.headAt, bytes := s.bytes + x.len,
                                 cells := s.cells + cellsOf x.len, admitted := (s.admitted + 1) % 2 ^ 64,
                                 maxBytes := max s.maxBytes (s.bytes + x.len) })

/-- The member queues of a replication list (R347). -/
def Dev.members (d : Dev) (l : Nat) : List Nat :=
  let w := fun i => d.ow 6 l i
  ([fld (w 1) 15 0, fld (w 1) 31 16, fld (w 2) 15 0, fld (w 2) 31 16]).take (min 4 (fld (w 0) 2 0))

/-- One replica of an admitted packet for a member queue (R68, R308, R315, R347). -/
def Dev.replicate (d : Dev) (now own q0 colour : Nat) (x : TmItem) (q : Nat) : Dev :=
  let noCell := fun (d : Dev) => (d.bump Reg.PAL_REPL_DROP_CNT 1).raise Src.palReplDrop own
  let head := d.ds x.head
  if 255 ≤ head.shares then noCell d
  else match d.alloc true own (d.rf Reg.PAL_CTL 11 8) with
    | none => noCell d
    | some (cell, d) =>
      let src := d.bufAddr x.handle
      let d := d.memWrite (d.bufAddr cell) (d.memRead src 256)
      let d := d.setDs cell { d.ds cell with next := (d.ds x.handle).next, hdr := true }
      let d := d.setDs x.head { head with
        shares := head.shares + 1, shared := true,
        releaser := if head.shared then head.releaser else d.portOwner (d.queuePort q0) }
      let y : TmItem := { x with handle := cell }
      match d.admitCopy now q colour y with
      | (none, d) => d
      | (some r, d) => d.dropCopy q r own y

/-- A hand-off to a queue (R322): path, elimination, threshold, link, replication. -/
def Dev.handoff (d : Dev) (now own q colour : Nat) (x : TmItem) : Dev :=
  if !d.rb Reg.TMG_CTL 0 ∨ !d.pathOn q then d.dropCopy q 0 own x
  else
    let el := if bit (d.ow 0 q 4) 31 then d.eliminate now q x.handle else (none, d)
    let d := el.2
    match el.1 with
    | some r => d.dropCopy q r own x
    | none =>
      match d.admitCopy now q colour x with
      | (some r, d) => d.dropCopy q r own x
      | (none, d) =>
        if bit (d.ow 0 q 5) 31 then
          (d.members (fld (d.ow 0 q 5) 29 20)).foldl (fun d m => d.replicate now own q colour x m) d
        else d

/-! Time gates (R339 to R345). -/

/-- A port's operational schedule. -/
def Dev.gate (d : Dev) (p : Nat) : GateRun := tget GateRun.off d.tmg.gates p
/-- The device with a port's operational schedule replaced. -/
def Dev.setGate (d : Dev) (p : Nat) (g : GateRun) : Dev :=
  { d with tmg := { d.tmg with gates := tset GateRun.off d.tmg.gates p g } }

/-- A list cut off at the cycle's end, its last state lasting to it (R340). -/
def gateCut : List (Nat × Nat) → (left : Nat) → List (Nat × Nat)
  | [], _ => []
  | [(g, _)], left => [(g, left)]
  | (g, t) :: r, left => if left ≤ t then [(g, left)] else (g, t) :: gateCut r (left - t)

/-- The intervals of one cycle. -/
def GateRun.cyc (g : GateRun) : List (Nat × Nat) := gateCut g.oper g.cycle

/-- How long a class stays open from a position of a list of intervals. -/
def openRun (c : Nat) : List (Nat × Nat) → (pos : Nat) → Nat
  | [], _ => 0
  | (g, t) :: r, pos =>
    if t ≤ pos then openRun c r (pos - t)
    else if g.testBit c then (t - pos) + openRun c r 0 else 0

/-- The position of a time in a schedule's cycle; cycle n starts at base + n × cycle for every whole n, so a step of the
time base to before the base moves the schedule with it (R340). -/
def GateRun.pos (g : GateRun) (t : Nat) : Nat := (((t : Int) - g.base) % (max g.cycle 1 : Nat)).toNat

/-- The time to the close of a class's open interval from a time in one schedule, merged across a cycle boundary; none if the
class is open throughout the cycle, and 0 if it is closed (R342). -/
def GateRun.opens (g : GateRun) (c t : Nat) : Option Nat :=
  let n := openRun c (g.cyc ++ g.cyc) (g.pos t)
  if g.cycle ≤ n then none else some n

/-- The schedule that a pending switch brings, which starts with its entry 0 at the switch time (R341). -/
def GateRun.next (g : GateRun) (t : Nat) : GateRun :=
  { oper := g.nextOper, cycle := g.nextCycle, base := t, pending := none, nextOper := [], nextCycle := 0,
    switches := (g.switches + 1) % 2 ^ 32, state := ((g.nextOper.head?).map (·.1)).getD 255, entry := 0 }

/-- The time to the close of a class's open interval from a time, as the gates will be: a pending switch cuts the running
cycle off, and an interval that is open up to it goes on with the new schedule's entry 0 (R341, R342). -/
def GateRun.openFor (g : GateRun) (c t : Nat) : Option Nat :=
  match g.pending with
  | none => g.opens c t
  | some s =>
    if s ≤ t then (g.next s).opens c t
    else match (g.opens c t).filter (fun n => decide (n < s - t)) with
      | some n => some n
      | none => ((g.next s).opens c s).map (s - t + ·)

/-- The gate state at a time, and the entry that gives it. -/
def gateAt : List (Nat × Nat) → (pos i : Nat) → Nat × Nat
  | [], _, i => (255, i)
  | (g, t) :: r, pos, i => if pos < t then (g, i) else gateAt r (pos - t) (i + 1)

/-- I_max of a class in ns; none for a class that is always open (R343). -/
def GateRun.longest (g : GateRun) (c : Nat) : Option Nat :=
  let starts := (List.range g.cyc.length).map (fun i => ((g.cyc.take i).map (·.2)).sum)
  let runs := starts.map (fun s => openRun c (g.cyc ++ g.cyc) s)
  if runs.any (fun n => decide (g.cycle ≤ n)) then none else some (runs.foldl max 0)

/-- A port's MAC data rate in Gbit/s (R342). -/
def Dev.macRate (d : Dev) (p : Nat) : Nat :=
  if p < 32 then 100 * max 1 (d.rf (Reg.PRT_PORT_W2 p) 2 0)
  else match d.rf (Reg.PRT_PORT_W2 p) 15 8 with
    | 0x20 => 1
    | 0x21 => 10
    | 0x22 => 25
    | _ => 50

/-- Whether gates are in force on a port (R339). -/
def Dev.gated (d : Dev) (p : Nat) : Bool := bit (d.ow 3 p 6) 31 && decide ((d.gate p).oper ≠ [])

/-- Bits of a frame on the wire, W × 8 (R342). -/
def wireBits (len : Nat) : Nat := (max (len + 4) 64 + 20) * 8

/-- Whether a frame passes its gate at a decision time (R342). -/
def Dev.gateOk (d : Dev) (p tm tc len : Nat) : Bool :=
  if !bit (d.ow 3 p 6) 31 then true
  else
    let g := d.gate p
    let first := tm + fld (d.ow 3 p 5) 9 0
    match g.openFor tc first with
    | none => true
    | some n => decide (wireBits len + fld (d.ow 3 p 5) 23 16 * d.macRate p ≤ n * d.macRate p ∧ 0 < n)

/-- Whether a frame can never fit its class's open intervals (R343). -/
def Dev.neverFits (d : Dev) (p tc len : Nat) : Bool :=
  d.gated p && match (d.gate p).longest tc with
    | none => false
    | some n => decide (n * d.macRate p < wireBits len + fld (d.ow 3 p 5) 23 16 * d.macRate p)

/-- Whether a frame has a buffer in a DRAM pool (R345). -/
def Dev.inDramPool (d : Dev) (x : TmItem) : Bool := (d.chain x.handle).any (fun h => d.poolDram (hPool h))

/-- Whether a head's data are there (R345): of a gated port, DRAM frames must be staged. -/
def Dev.available (d : Dev) (p : Nat) (x : TmItem) : Bool :=
  !bit (d.ow 3 p 6) 31 || x.staged || !d.inDramPool x

/-- The traffic class of a queue. -/
def Dev.queueTc (d : Dev) (q : Nat) : Nat := fld (d.ow 0 q 0) 29 27

/-- The queues of a port that hold a packet and are scheduled: the nodes above them are enabled (R320), and a queue that
was disabled still gives up what it holds (R326; DEDUCED, log 30). -/
def Dev.busyQueues (d : Dev) (p : Nat) : List Nat :=
  tkeys (fun q x => decide (x.items ≠ []) && d.aboveOn q && decide (d.queuePort q = p)) d.tmg.queues

/-! The real-time readers (R345, R437). -/

/-- The address of the first buffer of a frame that lies in DRAM: the request for it stands for the frame's reads
(DESIGN CHOICE, log entry 111). -/
def Dev.dramHead (d : Dev) (h : Word) : Nat :=
  (((d.chain h).find? (fun b => d.poolDram (hPool b))).map (fun b => d.bufAddr b)).getD 0

/-- Bytes in a gated port's staging: the heads that the time-gated egress reader has read (R345). -/
def Dev.gateStaged (d : Dev) (p : Nat) : Nat :=
  (d.busyQueues p).foldl (fun n q => match (d.queue q).items with
    | x :: _ => if x.staged then n + x.len else n
    | [] => n) 0

/-- The queues of a gated port whose heads in a DRAM pool are not staged (R345). -/
def Dev.gateUnstaged (d : Dev) (p : Nat) : List Nat :=
  (d.busyQueues p).filter (fun q => match (d.queue q).items with
    | x :: _ => bit (d.ow 3 p 6) 31 && !x.staged && d.inDramPool x
    | [] => false)

/-- The head of a queue. -/
def Dev.headOf (d : Dev) (q : Nat) : Option TmItem := (d.queue q).items.head?

/-- The next head that the reader of a gated port prefetches (R345): the highest class first, while staging has room. -/
def Dev.gateNext (d : Dev) (p : Nat) : Option TmItem :=
  ((pickMin (fun q => 7 - d.queueTc q) (d.gateUnstaged p)).bind d.headOf).filter
    (fun x => decide (d.gateStaged p + x.len ≤ 32768))

/-- The panic of a port's time-gated egress reader (R437): raised below gate_lo KiB while a gated head is not staged,
cleared when staging reaches gate_hi KiB or nothing is left to stage. -/
def Dev.gatePanic (d : Dev) (p : Nat) : Dev :=
  let n := d.gateStaged p
  let b := if d.gateUnstaged p = [] ∨ 1024 * d.rf Reg.DRC_PANIC 15 8 ≤ n then false
    else if n < 1024 * d.rf Reg.DRC_PANIC 7 0 then true
    else tget false d.drc.panics p
  { d with drc := { d.drc with panics := tset false d.drc.panics p b } }

/-- Whether the reader of a gated port has a read under way. -/
def Dev.gateReading (d : Dev) (p : Nat) : Bool :=
  d.drc.reqs.any (fun q => match q.who with
    | .gate r _ => decide (r = p)
    | _ => false)

/-- The time-gated egress reader of a port goes on (R345, R437): its panic follows its staging, and the next head's read
enters the controller at class 1 (R435). -/
def Dev.gateTend (d : Dev) (now p : Nat) : Dev :=
  if 80 ≤ p then d
  else
    let d := d.gatePanic p
    match if d.gateReading p then none else d.gateNext p with
    | some x => d.dramAsk now 1 (.gate p x.handle) (d.dramHead x.handle)
    | none => d

/-- Whether no older transaction of the same domain has still to be handed off (R36). -/
def Dev.oldestHandoff (d : Dev) (key : Nat) : Bool :=
  let x := d.txn key
  d.vrn.txns.all (fun e => decide (e.1 = key) || decide (e.2.phase ≠ .committing) || decide (e.2.domain ≠ x.domain)
    || notOlder e.2.ticket x.ticket)

/-- A committed transaction's enqueues are handed to the traffic manager after its header is written (R161, R321), and
its slot is free. Hand-offs of a domain are made in ticket order (R36, R38). -/
def tmHandoff (now key : Nat) (d : Dev) : Dev :=
  let x := d.txn key
  if x.phase = .committing ∧ d.oldestHandoff key then
    let d := x.enqs.foldl (fun d e => match e with
      | .enq q _ col =>
        let it : TmItem := { handle := x.handle, head := x.handle, len := d.frameLen x.handle x.pktLen, pktLen := x.pktLen,
                             at_ := now, staged := false, recircs := x.recircs, recirc := x.recirc }
        (d.handoff now x.owner q col it).gateTend now (d.queuePort q)
      | _ => d) d
    d.freeSlot key
  else d

/-- A queue's missed gate is counted (R345). -/
def Dev.missGate (d : Dev) (q : Nat) : Dev :=
  let s := d.queue q
  d.setQueue q { s with gateMiss := min 0xFFFF (s.gateMiss + 1) }

/-- Whether a queue's head was its head at the latest t_first that fits an open interval of its class which closes n ns from
now: T_W + guard_ns before the close (R342, R345). -/
def Dev.wasHead (d : Dev) (now p q len n : Nat) : Bool :=
  decide (wireBits len + fld (d.ow 3 p 5) 23 16 * d.macRate p ≤ (n + (now - (d.queue q).headAt)) * d.macRate p)

/-- Whether a head read now has missed the open interval of its class (R345): the class is open, the latest t_first that fits
the interval is past, and the frame was the head then. -/
def Dev.tooLate (d : Dev) (now p tm q len : Nat) : Bool :=
  d.gated p && !d.neverFits p (d.queueTc q) len && match (d.gate p).openFor (d.queueTc q) tm with
    | none => false
    | some n => decide (0 < n) && decide (n * d.macRate p < wireBits len + fld (d.ow 3 p 5) 23 16 * d.macRate p)
        && d.wasHead now p q len n

/-- The time-gated egress reader has read a head into its port's staging (R345): it is available; one that comes after the
latest t_first that fits its open interval counts a missed gate. No prefetch completes during a frequency change. -/
def gatedPrefetchDone (now tm p : Nat) (d : Dev) : Dev :=
  let mine := fun (q : DramReq) => match q.who with
    | .gate r _ => decide (r = p) && q.done.isSome
    | _ => false
  if d.rf Reg.DRC_FREQ_STATUS 31 28 = 4 then d
  else match d.drc.reqs.find? mine with
    | none => d.gateTend now p
    | some r =>
      let d := d.dramDrop r.who
      match (d.gateUnstaged p).find? (fun q => (d.headOf q).any (fun x => decide (r.who = .gate p x.handle))) with
      | none => d.gateTend now p
      | some q =>
        let s := d.queue q
        match s.items with
        | x :: rest =>
          let d := d.setQueue q { s with items := { x with staged := true } :: rest }
          (if d.tooLate now p tm q x.len then d.missGate q else d).gateTend now p
        | [] => d

/-- A gate interval of a port ends (R340): the next state takes effect; a queue whose class closes with its head's data
not there, though it was the head at the latest t_first, counts a missed gate (R345). -/
def gateEntryChange (now tm p : Nat) (d : Dev) : Dev :=
  let g := d.gate p
  if g.oper = [] then d
  else
    let r := gateAt g.cyc (g.pos tm) 0
    let old := g.state
    let d := d.setGate p { g with state := r.1, entry := r.2 }
    (d.busyQueues p).foldl (fun d q =>
      let c := d.queueTc q
      match (d.queue q).items with
      | x :: _ =>
        if old.testBit c && !r.1.testBit c && bit (d.ow 3 p 6) 31 && !d.available p x && !d.neverFits p c x.len && d.wasHead now p q x.len 0 then d.missGate q
        else d
      | [] => d) d

/-- The admin schedule of a port: its entries, cycle and base time (R341, R354). -/
def Dev.adminList (d : Dev) (p : Nat) : List (Nat × Nat) :=
  (List.range (fld (d.ow 5 p 0) 10 0)).map (fun i => (fld (d.ow 4 (p * 1024 + i) 0) 7 0, fld (d.ow 4 (p * 1024 + i) 1) 29 0))
/-- The admin base time in ns of IEEE 1588 time. -/
def Dev.adminBase (d : Dev) (p : Nat) : Nat :=
  ((d.ow 5 p 3).toNat + 2 ^ 32 * fld (d.ow 5 p 4) 15 0) * 1000000000 + fld (d.ow 5 p 2) 29 0

/-- The switch time comes: the operational schedule is replaced by the admin schedule that the apply validated (R341;
DESIGN CHOICE, log entry 112). -/
def gateScheduleSwitch (tm p : Nat) (d : Dev) : Dev :=
  let g := d.gate p
  match g.pending with
  | some t => if t ≤ tm then d.setGate p (g.next t) else d
  | none => d

/-! Scheduling (R327 to R330). -/

/-- Whether every queue below a node is empty. -/
def Dev.nodeEmpty (d : Dev) (kind i : Nat) : Bool :=
  d.tmg.queues.all (fun e => decide (e.2.items = []) || match kind with
    | 0 => decide (e.1 ≠ i)
    | 1 => decide (d.subOf e.1 ≠ i)
    | _ => decide (d.svcOf (d.subOf e.1) ≠ i))

/-- The deficits of a queue and of the nodes above it whose queues are now all empty go to 0 (R328). -/
def Dev.clearDeficits (d : Dev) (q : Nat) : Dev :=
  let s := d.subOf q
  let v := d.svcOf s
  [(0, q), (1, s), (2, v)].foldl (fun d e =>
    if d.nodeEmpty e.1 e.2 then { d with tmg := { d.tmg with deficits := tset 0 d.tmg.deficits (objKey e.1 e.2) 0 } } else d) d

/-- The scheduler examines the shapers of a port and of all that it may select (R333): their levels are brought up to
date. -/
def Dev.examine (d : Dev) (now p : Nat) : Dev :=
  let qs := d.busyQueues p
  let ks := (3, p) :: (qs.map (fun q => (0, q)) ++ (qs.map d.subOf).dedup.map (fun s => (1, s))
    ++ (qs.map (fun q => d.svcOf (d.subOf q))).dedup.map (fun v => (2, v)))
  ks.foldl (fun d e => d.setShaper (objKey e.1 e.2) (d.shaperNow now e.1 e.2)) d

/-- A frame at the head of a queue that can never fit is discarded with reason 5, when the queue is otherwise eligible: its
peak bucket conforms and its data are there (R327, R343). -/
def Dev.dropNofit (d : Dev) (now p : Nat) : (fuel : Nat) → Dev
  | 0 => d
  | n + 1 =>
    match (d.busyQueues p).find? (fun q => match (d.queue q).items with
        | x :: _ => d.neverFits p (d.queueTc q) x.len && d.peakOk now 0 q && d.available p x
        | [] => false) with
    | none => d
    | some q =>
      match (d.queue q).items with
      | x :: _ =>
        let d := d.unqueue now q x.len
        let s := d.queue q
        let d := (d.setQueue q { s with nofit := min 0xFFFF (s.nofit + 1) }).clearDeficits q
        ((d.dropCopy q 5 0 x).raise Src.tmNofit q).dropNofit now p n
      | [] => d

/-- The eligible queues of a port (R327). -/
def Dev.eligibleQueues (d : Dev) (now tm p : Nat) : List Nat :=
  (d.busyQueues p).filter fun q =>
    d.peakOk now 0 q && d.peakOk now 1 (d.subOf q) && d.peakOk now 2 (d.svcOf (d.subOf q)) && match (d.queue q).items with
      | x :: _ => d.gateOk p tm (d.queueTc q) x.len && d.available p x
      | [] => false

/-- A child's priority in its parent's selection: committed before excess, then prio 7 first (R327). -/
def Dev.rank (d : Dev) (now kind i : Nat) : Nat :=
  (if d.committed now kind i then 0 else 8) + (7 - fld (d.ow kind i 0) 26 24)

/-- The key of the DWRR ring of a node, class and prio (R328). -/
def ringKey (kind node rank : Nat) : Nat := (kind * 2 ^ 17 + node) * 16 + rank

/-- The child a node selects among eligible ones (R327, R328): the best rank, then the ring's pointer onwards. -/
def Dev.selectChild (d : Dev) (now kind node : Nat) (cs : List Nat) : Option (Nat × Nat) :=
  match pickMin (fun c => d.rank now kind c) cs with
  | none => none
  | some b =>
    let r := d.rank now kind b
    let ring := cs.filter (fun c => decide (d.rank now kind c = r))
    let ptr := tget 0 d.tmg.rings (ringKey kind node r)
    (pickMin (fun c => if ptr ≤ c then c - ptr else c + 2 ^ 17 - ptr) ring).map (fun c => (c, r))

/-- The DWRR accounts after a child was served (R328). -/
def Dev.served (d : Dev) (kind node child rank : Nat) (bytes : Int) (emptied : Bool) : Dev :=
  let k := objKey kind child
  let f := tget 0 d.tmg.deficits k - bytes
  let spent := decide (f ≤ 0)
  let quantum : Int := ((256 * max 1 (fld (d.ow kind child 0) 23 16) : Nat) : Int)
  let f := if spent then f + quantum else f
  let ptr := if spent then child + 1 else child
  { d with tmg := { d.tmg with deficits := tset 0 d.tmg.deficits k (if emptied then 0 else f)
                               rings := tset 0 d.tmg.rings (ringKey kind node rank) ptr } }

/-- The copy that a port dequeues (R327 to R330): the service, subscriber and queue, with their ranks. -/
def Dev.choose (d : Dev) (now tm p : Nat) : Option ((Nat × Nat) × (Nat × Nat) × (Nat × Nat)) :=
  let qs := d.eligibleQueues now tm p
  match d.selectChild now 2 p (qs.map (fun q => d.svcOf (d.subOf q))).dedup with
  | none => none
  | some v =>
    let qs := qs.filter (fun q => decide (d.svcOf (d.subOf q) = v.1))
    match d.selectChild now 1 v.1 (qs.map d.subOf).dedup with
    | none => none
    | some s =>
      match d.selectChild now 0 s.1 (qs.filter (fun q => decide (d.subOf q = s.1))) with
      | none => none
      | some q => some (v, s, q)

/-- Whether a port may dequeue (R325, R330): its peak bucket conforms, and, unless it is down, its egress FIFO has
room; a heritage port's staging (R391) and a ring group's port stand in for the FIFO with one frame. -/
def Dev.portReady (d : Dev) (now p : Nat) : Bool :=
  d.objOn 3 p && d.peakOk now 3 p &&
    (!d.portUp p || (if 80 ≤ p ∧ p < 128 then decide (tget [] d.tmg.egress p = [])
      else decide ((tget [] d.tmg.egress p).length < max 1 (Config.egressFrames p))))

/-- A port selects a queue and dequeues its head (R325, R327 to R330): buckets and deficits are debited, and the copy
goes to the port's egress FIFO, where the egress spill reader reads one that lies in DRAM (R435, R437); on a port that is down
it is dropped with reason 6. A ring group's port dequeues only what its posted buffers hold (R474). -/
def tmDequeue (now tm p : Nat) (d : Dev) : Dev :=
  if !d.rb Reg.TMG_CTL 0 then d
  else
  let d := ((d.examine now p).dropNofit now p 65536).gateTend now p
  if !d.portReady now p then d
  else match d.choose now tm p with
    | none => d
    | some (v, s, q) =>
      match (d.queue q.1).items with
      | [] => d
      | x :: _ =>
        if 112 ≤ p ∧ p < 128 ∧ d.portUp p ∧ ¬ d.puntReady (p - 112) x.len then d
        else
        let bytes := d.shapeLen p x.len
        let d := d.unqueue now q.1 x.len
        let d := (((d.debit now 0 q.1 bytes).debit now 1 s.1 bytes).debit now 2 v.1 bytes).debit now 3 p bytes
        let d := d.served 0 s.1 q.1 q.2 bytes (d.nodeEmpty 0 q.1)
        let d := d.served 1 v.1 s.1 s.2 bytes (d.nodeEmpty 1 s.1)
        let d := d.served 2 p v.1 v.2 bytes (d.nodeEmpty 2 v.1)
        if d.portUp p then
          let y := d.queue q.1
          let d := d.setQueue q.1 { y with sent := (y.sent + 1) % 2 ^ 64 }
          let d : Dev := { d with tmg := { d.tmg with egress := tset [] d.tmg.egress p (tget [] d.tmg.egress p ++ [⟨x, q.1, false, tm⟩]) } }
          (if d.inDramPool x && !x.staged then d.dramAsk now 1 (.spill p x.handle x.len) (d.dramHead x.handle) else d).gateTend now p
        else (d.dropCopy q.1 6 0 x).gateTend now p

/-! The Swatch (R351 to R353). -/

/-- Words 1 to 5 of a Swatch record (R352). -/
def TmQueue.sample (x : TmQueue) (now : Nat) : List Word :=
  [wd x.bytes, wd (x.cells % 2 ^ 24), wd x.maxBytes,
   wd (match x.items with
    | i :: _ => min (now - i.at_) 0xFFFFFFFF
    | [] => 0),
   wd (min x.newDrops 0xFFFFFFFF)]

/-- One queue visited by a pass (R351 to R353). An index that a smaller region no longer holds goes on at 0 (DESIGN CHOICE,
log entry 113). -/
def Dev.swatchVisit (d : Dev) (now : Nat) (late : Bool) (q : Nat) : Dev :=
  let x := d.queue q
  let busy := decide (x.items ≠ [])
  let d := d.setQueue q { x with maxBytes := x.bytes, newDrops := 0 }
  if d.rb Reg.TMG_SWATCH_CTL 30 then
    d.postEvt (d.rf Reg.TMG_SWATCH_CTL 23 20)
      (leBytes 1 0x20 ++ leBytes 1 (b2n busy + 2 * b2n late) ++ leBytes 2 q ++ wordsBytes (x.sample now))
  else
    let n := d.rf Reg.TMG_SWATCH_SIZE 23 0
    if n = 0 then d
    else
      let i := if d.rf Reg.TMG_SWATCH_WIDX 23 0 < n then d.rf Reg.TMG_SWATCH_WIDX 23 0 else 0
      let base := (d.reg Reg.TMG_SWATCH_BASE_LO).toNat + 2 ^ 32 * d.rf Reg.TMG_SWATCH_BASE_HI 15 0
      let d := d.memWrite (base + 32 * i)
        (leBytes 4 (b2n late * 2 ^ 17 + b2n busy * 2 ^ 16 + q) ++ wordsBytes (x.sample now) ++ leBytes 8 now)
      if i + 1 < n then d.setRf Reg.TMG_SWATCH_WIDX 23 0 (i + 1)
      else (d.setRf Reg.TMG_SWATCH_WIDX 23 0 0).setRf Reg.TMG_SWATCH_WIDX 31 24 (d.rf Reg.TMG_SWATCH_WIDX 31 24 + 1)

/-- A Swatch pass (R351 to R353), one every period, after a late one when that ends: late when its queues take longer than the period at 8 FCLK cycles, 6.4 ns, each. -/
def swatchPass (now : Nat) (d : Dev) : Dev :=
  let period := d.rf Reg.TMG_SWATCH_CTL 19 0
  if !d.rb Reg.TMG_SWATCH_CTL 31 ∨ period = 0 ∨ now < d.tmg.swatchEnd then d
  else
    let lo := d.rf Reg.TMG_SWATCH_RANGE 15 0
    let hi := d.rf Reg.TMG_SWATCH_RANGE 31 16
    let late := decide (period * 10000 < (hi + 1 - lo) * 64)
    let d := if d.rb Reg.TMG_SWATCH_CTL 30 then
        d.postEvt (d.rf Reg.TMG_SWATCH_CTL 23 20) (leBytes 1 0x21 ++ zeros 15 ++ leBytes 8 now)
      else d
    let d := ((List.range (hi + 1 - lo)).map (lo + ·)).foldl (fun d q => d.swatchVisit now late q) d
    let d := { d with tmg := { d.tmg with swatchEnd := now + max (period * 1000) (((hi + 1 - lo) * 64 + 9) / 10) } }
    d.raiseIf late Src.tmSwatchLate 0

/-! Object commands (R354). -/

/-- The number of objects of a kind. -/
def objCount (kind : Nat) : Nat :=
  match kind with
  | 0 => 65536
  | 1 => 16384
  | 2 => 2048
  | 3 => 136
  | 4 => 81920
  | 5 => 80
  | 6 => 1024
  | 7 => 4096
  | 8 => 65536
  | _ => 0

/-- An object's eight data words as a read returns them (R354). -/
def Dev.objRead (d : Dev) (kind bank i : Nat) : List Word :=
  match kind with
  | 4 =>
    if bank = 1 then
      let e := (d.gate (i / 1024)).oper.getD (i % 1024) (0, 0)
      [wd e.1, wd e.2, 0, 0, 0, 0, 0, 0]
    else d.obj 4 i
  | 5 =>
    let g := d.gate i
    let w := d.obj 5 i
    (w.take 5) ++ [wd (b2n g.pending.isSome * 2 ^ 31 + b2n (decide (g.oper ≠ [])) * 2 ^ 30 + g.oper.length),
      wd g.cycle, wd g.switches]
  | 7 =>
    let r := d.recov i
    [d.ow 7 i 0, wd (b2n r.reset * 2 ^ 16 + r.seq), wd r.passed, wd r.discarded, wd r.outOfOrder, wd r.rogue, wd r.resets, 0]
  | 8 =>
    let x := d.queue i
    [wd x.bytes, wd (x.cells % 2 ^ 24), wd x.admitted, wd (x.admitted / 2 ^ 32), wd x.sent, wd (x.sent / 2 ^ 32),
     wd x.drops, wd (x.gateMiss * 2 ^ 16 + x.nofit)]
  | _ => d.obj kind i

/-- The written bits of an object's words (R354). -/
def objMask (kind : Nat) : List Nat :=
  match kind with
  | 0 => [0xBFFF3FFF, 0x1FFFFFFF, 0x1FFFFFFF, 0xFFFFFFFF, 0x80FFFFFF, 0xBFFFFFFF, 0xFFFFFFFF, 0x000FFFFF]
  | 1 => [0x87FF07FF, 0x1FFFFFFF, 0x1FFFFFFF, 0x00FFFFFF, 0x00FFFFFF, 0, 0, 0]
  | 2 => [0x87FF00FF, 0x1FFFFFFF, 0x1FFFFFFF, 0x00FFFFFF, 0x00FFFFFF, 0, 0, 0]
  | 3 => [0x80000000, 0x1FFFFFFF, 0x1FFFFFFF, 0x00FFFFFF, 0x00FFFFFF, 0xFFFF03FF, 0x80000000, 0]
  | 4 => [0xFF, 0x3FFFFFFF, 0, 0, 0, 0, 0, 0]
  | 5 => [0x7FF, 0x3FFFFFFF, 0x3FFFFFFF, 0xFFFFFFFF, 0xFFFF, 0, 0, 0]
  | 6 => [7, 0xFFFFFFFF, 0xFFFFFFFF, 0, 0, 0, 0, 0]
  | 7 => [0x400FFFFF, 0, 0, 0, 0, 0, 0, 0]
  | _ => [0, 0, 0, 0, 0, 0, 0, 0]

/-- A rate clamped (R332). -/
def clampRate (r : Nat) : Nat := if 1 ≤ r ∧ r < 8 then 8 else min r 400000000

/-- The words that a write of some data stores. -/
def objWords (kind : Nat) (ws : List Word) : List Word :=
  let m := (List.range 8).map (fun i => wd ((ws.getD i 0).toNat &&& (objMask kind).getD i 0))
  if kind < 4 then (m.set 1 (wd (clampRate (m.getD 1 0).toNat))).set 2 (wd (clampRate (m.getD 2 0).toNat)) else m

/-- Whether a write of an object is refused (R354): a field out of range, a parent or tc change on an enabled object, a
port from 136 to 159, gates on a port R339 excludes, or a member list that names a queue twice. -/
def Dev.objRefused (d : Dev) (kind i : Nat) (ws : List Word) : Bool :=
  let w := fun k => ws.getD k 0
  let o := d.ow kind i 0
  let live := bit o 31
  match kind with
  | 0 => live && (decide (fld o 13 0 ≠ fld (w 0) 13 0) || decide (fld o 29 27 ≠ fld (w 0) 29 27))
  | 1 => live && decide (fld o 10 0 ≠ fld (w 0) 10 0)
  | 2 => (live && decide (fld o 7 0 ≠ fld (w 0) 7 0)) || decide (135 < fld (w 0) 7 0)
  | 3 =>
    let adj := sintN 8 (fld (w 5) 31 24)
    decide (adj < -64 ∨ 63 < adj) || (bit (w 6) 31 && !d.portEthernet i)
  | 4 => !d.portEthernet (i / 1024) || decide (fld (w 1) 29 0 < 16)
  | 5 => !d.portEthernet i || decide (999999999 < fld (w 2) 29 0)
  | 6 =>
    let n := fld (w 0) 2 0
    let ms := ([fld (w 1) 15 0, fld (w 1) 31 16, fld (w 2) 15 0, fld (w 2) 31 16]).take n
    decide (4 < n) || !distinct ms
  | 8 => true
  | _ => false

/-- An object written (R333, R350, R354): enabling a shaped object fills its buckets; a recovery function returns to its
reset state with its counters cleared. -/
def Dev.objPut (d : Dev) (now kind i : Nat) (ws : List Word) : Dev :=
  let was := d.objOn kind i
  let d := d.setObj kind i (objWords kind ws)
  if kind < 4 then
    let d := if !was && d.objOn kind i then d.fillShaper now kind i else d
    if kind = 3 then d.gateTend now i else d
  else if kind = 7 then d.setRecov i Recov.init
  else d

/-- The selected object's kind, bank and index. -/
def Dev.objSel (d : Dev) : Nat × Nat × Nat :=
  (d.rf Reg.TMG_OBJ_SEL 31 28, d.rf Reg.TMG_OBJ_SEL 27 27, d.rf Reg.TMG_OBJ_SEL 16 0)

/-- An object command's result code. -/
def Dev.objResult (d : Dev) (code : Nat) : Dev := d.setReg Reg.TMG_OBJ_STATUS (wd code)

/-- TMG_OBJ_CMD read (R354). -/
def tmgObjRead (d : Dev) : Dev :=
  let (kind, bank, i) := d.objSel
  if objCount kind ≤ i then d.objResult 1
  else
    let ws := d.objRead kind bank i
    ((List.range 8).foldl (fun d w => d.setReg (Reg.TMG_OBJ_DATA w) (ws.getD w 0)) d).objResult 0

/-- TMG_OBJ_CMD write (R354). -/
def tmgObjWrite (now : Nat) (d : Dev) : Dev :=
  let (kind, bank, i) := d.objSel
  let ws := (List.range 8).map (fun w => d.reg (Reg.TMG_OBJ_DATA w))
  if objCount kind ≤ i ∨ (kind = 4 ∧ bank = 1) then d.objResult 1
  else if d.objRefused kind i ws then d.objResult 2
  else (d.objPut now kind i ws).objResult 0

/-- Every packet of a queue dropped with a reason (R326). -/
def Dev.flushQueue (d : Dev) (q reason : Nat) : Dev :=
  let x := d.queue q
  let d := (d.setQueue q { x with items := [], bytes := 0, cells := 0 }).clearDeficits q
  x.items.foldl (fun d it => d.dropCopy q reason 0 it) d

/-- TMG_OBJ_CMD flush (R326). -/
def tmgQueueFlush (now : Nat) (d : Dev) : Dev :=
  let (kind, _, i) := d.objSel
  if kind ≠ 0 ∨ objCount 0 ≤ i then d.objResult 1
  else if d.objOn 0 i then d.objResult 2
  else ((d.flushQueue i 7).gateTend now (d.queuePort i)).objResult 0

/-- TMG_OBJ_CMD apply (R341): the admin schedule is validated and its switch is pending. -/
def tmgScheduleApply (tm : Nat) (d : Dev) : Dev :=
  let (kind, _, p) := d.objSel
  let l := d.adminList p
  let cycle := fld (d.ow 5 p 1) 29 0
  if kind ≠ 5 ∨ 80 ≤ p then d.objResult 1
  else if !d.portEthernet p then d.objResult 2
  else if l.length < 1 ∨ 1024 < l.length ∨ cycle < 1000 ∨ 1000000000 < cycle ∨ l.any (fun e => decide (e.2 < 16)) then
    d.objResult 3
  else
    let base := d.adminBase p
    let t := if tm < base then base else base + (tm + 1000 - base + cycle - 1) / cycle * cycle
    (d.setGate p { d.gate p with pending := some t, nextOper := l, nextCycle := cycle }).objResult 0

/-! The MTR commands (R338, R355). -/

/-- A MTR command's result code. -/
def Dev.mtrResult (d : Dev) (code : Nat) : Dev := d.setReg Reg.MTR_STATUS (wd code)

/-- Data words put into MTR_DATA. -/
def Dev.mtrData (d : Dev) (ws : List Word) : Dev :=
  ((List.range 4).foldl (fun d w => d.setReg (Reg.MTR_DATA w) (ws.getD w 0)) d).mtrResult 0

/-- A counter's four words (R338, R355). -/
def counterWords (x : Nat × Nat) : List Word := [wd x.1, wd (x.1 / 2 ^ 32), wd x.2, wd (x.2 / 2 ^ 32)]

/-- MTR_CMD read (R338, R355); a meter lost to an uncorrectable error gives result 4 until it is written (R356). -/
def mtrRead (d : Dev) : Dev :=
  let i := d.rf Reg.MTR_SEL 20 0
  if d.rb Reg.MTR_SEL 31 then d.mtrData (counterWords (d.counter i))
  else if 2 ^ 20 ≤ i then d.mtrResult 1
  else if (d.meter i).lost then d.mtrResult 4
  else d.mtrData (d.meter i).cfg

/-- MTR_CMD write (R335, R355). -/
def mtrWrite (now : Nat) (d : Dev) : Dev :=
  let i := d.rf Reg.MTR_SEL 20 0
  let ws := (List.range 4).map (fun w => d.reg (Reg.MTR_DATA w))
  let ws := (ws.set 1 (wd (clampRate (fld (ws.getD 1 0) 28 0)))).set 2 (wd (clampRate (fld (ws.getD 2 0) 28 0)))
  if d.rb Reg.MTR_SEL 31 ∨ 2 ^ 20 ≤ i then d.mtrResult 1
  else if d.stage = 3 ∨ meterBad ws then d.mtrResult 2
  else (d.setMeter i (meterSet now ws)).mtrResult 0

/-- MTR_CMD read and clear (R338). -/
def mtrReadClear (d : Dev) : Dev :=
  let i := d.rf Reg.MTR_SEL 20 0
  if d.rb Reg.MTR_SEL 31 then (d.mtrData (counterWords (d.counter i))).setCounter i (0, 0) else d.mtrResult 1

end Sys2Proof.Machine
end

