-- ==== Sys2Proof/Machine/Codec.lean ====
section
/-!
DEFINITION. The heritage lanes' front ends and codecs (R377 to R382, R393): sampling, bit timing, and the five line codes in
both directions. The conventions of the codes themselves, where the spec names only the code, are those of log entry 114.
-/

namespace Sys2Proof.Machine

/-! The line codes' tables (log entry 114). -/

/-- The 4b/5b groups of the sixteen nibbles. -/
def groups45 : List Nat :=
  [0x1E, 0x09, 0x14, 0x15, 0x0A, 0x0B, 0x0E, 0x0F, 0x12, 0x13, 0x16, 0x17, 0x1A, 0x1B, 0x1C, 0x1D]
/-- The 4b/5b control groups J, K, T, R, I, H, Q and S. -/
def ctl45 : List Nat := [0x18, 0x11, 0x0D, 0x07, 0x1F, 0x04, 0x00, 0x19]

/-- The six bits abcdei of the 32 values of an 8b/10b byte's low five bits at running disparity −1. -/
def abcdei : List Nat :=
  [0x27, 0x1D, 0x2D, 0x31, 0x35, 0x29, 0x19, 0x38, 0x39, 0x25, 0x15, 0x34, 0x0D, 0x2C, 0x1C, 0x17,
   0x1B, 0x23, 0x13, 0x32, 0x0B, 0x2A, 0x1A, 0x3A, 0x33, 0x26, 0x16, 0x36, 0x0E, 0x2E, 0x1E, 0x2B]
/-- The four bits fghj of the 8 values of the high three bits of a data byte at running disparity −1. -/
def fghj : List Nat := [0x0B, 0x09, 0x05, 0x0C, 0x0D, 0x0A, 0x06, 0x0E]
/-- The same for a K code. -/
def fghjK : List Nat := [0x0B, 0x06, 0x0A, 0x0C, 0x0D, 0x05, 0x09, 0x07]

/-- The ones in the low n bits of a number. -/
def onesOf (n v : Nat) : Nat := (List.range n).countP (fun i => v.testBit i)

/-- A sub-block of n bits at a running disparity, from its form at −1, and the disparity after it: a sub-block that is not
balanced, or is 111000 or 1100, is inverted at +1. -/
def subBlock (n v : Nat) (flip rd : Bool) : Nat × Bool :=
  let even := decide (2 * onesOf n v = n)
  let w := if rd && (!even || flip) then 2 ^ n - 1 - v else v
  (w, if even then rd else !rd)

/-- The ten bits of an 8b/10b character, the first on the line highest, and the disparity after it. -/
def enc810 (k : Bool) (b : Nat) (rd : Bool) : Nat × Bool :=
  let x := b % 32
  let y := b / 32
  let six := subBlock 6 (if k && decide (x = 28) then 0x0F else abcdei.getD x 0) (decide (x = 7) && !k) rd
  let alt := !k && decide (y = 7) && (if six.2 then decide (x = 11 ∨ x = 13 ∨ x = 14) else decide (x = 17 ∨ x = 18 ∨ x = 20))
  let four := if k then subBlock 4 (fghjK.getD y 0) true six.2
    else if alt then subBlock 4 7 false six.2
    else subBlock 4 (fghj.getD y 0) (decide (y = 3)) six.2
  (six.1 * 16 + four.1, four.2)

/-- The 268 characters of 8b/10b. -/
def chars810 : List (Bool × Nat) :=
  (List.range 256).map (fun b => (false, b)) ++
    [0x1C, 0x3C, 0x5C, 0x7C, 0x9C, 0xBC, 0xDC, 0xFC, 0xF7, 0xFB, 0xFD, 0xFE].map (fun b => (true, b))

/-- The character of ten bits at a running disparity; the flag says that it belongs to the other disparity. -/
def dec810 (rd : Bool) (v : Nat) : Option ((Bool × Nat) × Bool) :=
  match chars810.find? (fun c => decide ((enc810 c.1 c.2 rd).1 = v)) with
  | some c => some (c, false)
  | none => (chars810.find? (fun c => decide ((enc810 c.1 c.2 (!rd)).1 = v))).map (fun c => (c, true))

/-! The front end (R377, R378, R382). -/

/-- The value of a cell: the majority of its three samples, or the one sample of the deserialiser. -/
def cellBit (c : Cell) (deser : Bool) : Bool :=
  if deser then c.samples.toNat.testBit 1 else decide (2 ≤ onesOf 3 c.samples.toNat)

/-- The edge of a cell that the lane follows: on an LVCMOS lane a pulse shorter than 2 SCLK cycles is ignored. -/
def cellEdge (c : Cell) (lvcmos : Bool) : Option Int := match c.edge with
  | some (o, w) => if lvcmos && decide (w < 2) then none else some o
  | none => none

/-- How a lane is set, and when: its line code and codec, its front end's mode, its kind of line, words 1 and 2 of its
LINEPARAM entry, and the time of the stretch of line it meets. -/
structure LaneSet where
  code : Nat
  codec : Nat
  deser : Bool
  lvcmos : Bool
  w1 : Word
  w2 : Word
  sec : Nat
  ns : Nat

/-- The bit timing of a lane after a cell (R378), and whether its edge is a violation (R382): the digital PLL moves the
sample point 1/16 of a bit toward each edge, and holds through 64 bit times (128 half-bit cells) without one; after that the
next edge sets the timing anew (log entry 114). Asynchronous serial is set by the edge of each start bit. -/
def RxLine.time (x : RxLine) (s : LaneSet) (c : Cell) : RxLine × Bool :=
  match cellEdge c s.lvcmos with
  | none => ({ x with quiet := x.quiet + 1, silence := x.silence + 1 }, false)
  | some o =>
    let y := { x with quiet := 0, silence := 0 }
    let e := o - x.phase
    let far := decide (96 < e ∨ e < -96)
    if s.deser then (y, false)
    else if s.codec = 0x30 then (if x.n = 0 then ({ y with phase := o }, false) else (y, far))
    else if (if s.codec = 0x32 then 128 else 64) < x.quiet then ({ y with phase := o }, false)
    else ({ y with phase := x.phase + (if e < 0 then max e (-16) else min e 16) }, far)

/-! Symbols (R379). -/

/-- An event symbol. -/
def evSym (event aux : Nat) : BitVec 16 := BitVec.ofNat 16 (0x8000 + event * 256 + aux % 256)
/-- A data symbol, with its framing and its parity or disparity error. -/
def dataSym (v : Nat) (framing parity : Bool) : BitVec 16 := BitVec.ofNat 16 (b2n framing * 1024 + b2n parity * 512 + v % 512)
/-- A symbol that the codec decodes now, with its receive timestamp (R379). -/
def LaneSet.sym (s : LaneSet) (v : BitVec 16) : Sym := ⟨v, s.sec, s.ns⟩

/-- What a codec makes of a bit: its state, the symbols it places, and the violations of the code. -/
structure Decoded where
  rx : RxLine
  syms : List Sym
  viol : Nat

/-- Nothing placed. -/
def RxLine.quietly (x : RxLine) : Decoded := ⟨x, [], 0⟩

/-- The bytes of CRC that a code removes (R393). -/
def crcLen (code : Nat) (w1 : Word) : Nat :=
  match code with
  | 0x31 => if bit w1 0 then 4 else 2
  | 0x32 => if bit w1 22 then 2 else 0
  | _ => 0

/-- A frame's CRC at its start, over a byte, and as it is sent (R393, log entry 114). -/
def lineCrcInit (n : Nat) : Nat := if n = 4 then 0xFFFFFFFF else 0xFFFF
def lineCrcFold (n c : Nat) (b : Byte) : Nat := if n = 4 then crc32 c [b] else crcRefl 0x8408 c [b]
def lineCrcBytes (n c : Nat) : List Byte := leBytes n (lineCrcInit n - c)

/-- A frame opens. -/
def RxLine.open_ (x : RxLine) (s : LaneSet) (started : Bool) : RxLine :=
  { x with opened := true, started := started, startAt := (s.sec, s.ns), out := false, held := []
           crc := lineCrcInit (crcLen s.codec s.w1), sh := 0, n := 0, miss := 0 }

/-- The start event of the open frame, unless it was placed, at the time the frame opened. -/
def RxLine.startSym (x : RxLine) : List Sym := if x.started then [] else [⟨evSym 1 0, x.startAt.1, x.startAt.2⟩]

/-- A byte of a frame: as many as its CRC has are held back (R393); the first one out places the start. -/
def RxLine.byte (x : RxLine) (s : LaneSet) (b : Byte) : RxLine × List Sym :=
  let k := crcLen s.codec s.w1
  match x.held ++ [(b, s.sec, s.ns)] with
  | o :: r =>
    if r.length < k then ({ x with held := o :: r }, [])
    else ({ x with held := r, crc := lineCrcFold k x.crc o.1, started := true, out := true },
      x.startSym ++ [⟨dataSym o.1.toNat false false, o.2.1, o.2.2⟩])
  | [] => (x, [])

/-- A frame ends (R379): its CRC bad, or the frame shorter than its CRC and 1 byte. -/
def RxLine.close (x : RxLine) (s : LaneSet) : List Sym :=
  let k := crcLen s.codec s.w1
  let short := decide (0 < k) && !x.out
  let bad := decide (0 < k) && decide (x.held.map (·.1) ≠ lineCrcBytes k x.crc)
  x.startSym ++ [s.sym (evSym 2 (b2n bad + 2 * b2n short))]

/-! The receive codecs (R379, R393). -/

/-- Asynchronous serial: a falling edge whose bit still reads 0 at its sample point opens a character (R378); a gap is placed
once. -/
def RxLine.asyncBit (x : RxLine) (s : LaneSet) (raw : Bool) : Decoded :=
  let w1 := s.w1
  let b := raw != bit w1 8
  let falls := x.level && !b
  let x := { x with level := b }
  let data := fld w1 3 0
  let par := fld w1 5 4
  let total := 1 + data + (if par = 0 then 0 else 1) + (if bit w1 6 then 2 else 1)
  if x.n = 0 then
    if b then
      let gap := fld w1 31 16
      let now := decide (gap ≠ 0) && decide (x.idle + 1 = gap) && x.started
      ⟨{ x with idle := x.idle + 1, started := x.started && !now }, if now then [s.sym (evSym 4 0)] else [], 0⟩
    else if falls then { x with n := 1, sh := 0, idle := 0 }.quietly
    else { x with idle := 0 }.quietly
  else
    let x := { x with sh := x.sh + b2n b * 2 ^ x.n, n := x.n + 1 }
    if x.n < total then x.quietly
    else
      let v := x.sh / 2 % 2 ^ data
      let v := if bit w1 7 then (List.range data).foldl (fun n i => 2 * n + b2n (v.testBit i)) 0 else v
      let odd := decide (onesOf (data + 1) (x.sh / 2) % 2 = 1)
      let perr := decide (par ≠ 0) && (odd != decide (par = 2))
      let stop := 1 + data + (if par = 0 then 0 else 1)
      let ferr := !(x.sh.testBit stop) || (bit w1 6 && !(x.sh.testBit (stop + 1)))
      ⟨{ x with n := 0, sh := 0, idle := 0, started := true }, [s.sym (dataSym v ferr perr)], b2n ferr⟩

/-- HDLC: flags, zero deletion, abort (R379). -/
def RxLine.hdlcBit (x : RxLine) (s : LaneSet) (raw : Bool) : Decoded :=
  let b := if bit s.w1 1 then decide (raw = x.level) else raw
  let x := { x with level := raw }
  let put := fun (x : RxLine) (b : Bool) =>
    let x := { x with sh := x.sh + b2n b * 2 ^ x.n, n := x.n + 1 }
    if x.opened && decide (x.n = 8) then
      (let r := { x with sh := 0, n := 0 }.byte s (BitVec.ofNat 8 x.sh)
       (⟨r.1, r.2, 0⟩ : Decoded))
    else { x with n := x.n % 8, sh := x.sh % 256 }.quietly
  if b then
    let ones := x.ones + 1
    let x := { x with ones := ones }
    if ones < 6 then put x true
    else if ones = 6 then x.quietly
    else if ones = 7 ∧ x.opened ∧ (x.started ∨ x.held ≠ []) then
      ⟨{ x with opened := false, started := false }, [s.sym (evSym 3 0)], 0⟩
    else { x with opened := decide (ones < 7) && x.opened }.quietly
  else
    let ones := x.ones
    let x := { x with ones := 0 }
    if ones = 5 then x.quietly
    else if ones = 6 then
      ⟨x.open_ s false, if x.opened && (x.started || decide (x.held ≠ [])) then x.close s else [], 0⟩
    else if ones < 5 then put x false
    else x.quietly

/-- Manchester: the two half-bit cells of a bit; a bit without its mid-bit transition inside a frame is a violation, unless
it is the first of the two that end the frame (R379, R382, R393). -/
def RxLine.manchesterBit (x : RxLine) (s : LaneSet) (raw : Bool) : Decoded :=
  let w1 := s.w1
  match x.half with
  | none => { x with half := some raw }.quietly
  | some h =>
    if h = raw then
      if !x.opened then { x with half := some raw, n := 0 }.quietly
      else if x.miss = 0 then { x with half := none, miss := 1 }.quietly
      else ⟨{ x with half := none, opened := false, started := false, miss := 0, n := 0 }, x.close s, 0⟩
    else
      let b := raw != bit w1 21
      let viol := if x.opened then x.miss else 0
      let x := { x with half := none, miss := 0 }
      if x.opened then
        let x := { x with sh := x.sh + b2n b * 2 ^ x.n, n := x.n + 1 }
        if x.n = 8 then
          let r := { x with sh := 0, n := 0 }.byte s (BitVec.ofNat 8 x.sh)
          ⟨r.1, r.2, viol⟩
        else ⟨x, [], viol⟩
      else
        let len := fld w1 20 16 + 1
        let x := { x with sh := (2 * x.sh + b2n b) % 2 ^ len, n := min len (x.n + 1) }
        if x.n = len ∧ x.sh = fld w1 15 0 % 2 ^ len then ⟨x.open_ s true, [s.sym (evSym 1 0)], 0⟩ else x.quietly

/-- A 4b/5b group inside a frame: two data groups make a byte, the high nibble first. -/
def RxLine.group (x : RxLine) (s : LaneSet) (g : Nat) : Decoded :=
  match groups45.findIdx? (fun k => decide (k = g)) with
  | some v => (match x.held with
    | [h] => ⟨{ x with held := [], miss := 0 }, [s.sym (dataSym (h.1.toNat * 16 + v) false false)], 0⟩
    | _ => { x with held := [(BitVec.ofNat 8 v, s.sec, s.ns)], miss := 0 }.quietly)
  | none =>
    if g = 0x0D then { x with miss := 1 }.quietly
    else if g = 0x07 ∧ x.miss = 1 then
      ⟨{ x with opened := false, started := false, held := [], miss := 0 }, [s.sym (evSym 2 0)], 0⟩
    else if g ∈ ctl45 then ⟨{ x with miss := 0 }, if g = 0x18 then [] else [s.sym (evSym 6 g)], 0⟩
    else ⟨{ x with miss := 0 }, [s.sym (evSym 5 g)], 1⟩

/-- 4b/5b: groups from a J-K pair on (R379, R382, R393); outside a frame only a group that is no code is noticed. -/
def RxLine.groupBit (x : RxLine) (s : LaneSet) (raw : Bool) : Decoded :=
  let b := if bit s.w1 0 then decide (raw ≠ x.level) else raw
  let x := { x with level := raw, sh := (2 * x.sh + b2n b) % 1024 }
  if x.sh = 0x18 * 32 + 0x11 then
    ⟨{ x with opened := true, aligned := true, started := true, n := 0, held := [], miss := 0 }, [s.sym (evSym 1 0)], 0⟩
  else if !x.aligned then x.quietly
  else if x.n < 4 then { x with n := x.n + 1 }.quietly
  else
    let g := x.sh % 32
    let x := { x with n := 0 }
    if x.opened then x.group s g
    else if groups45.contains g ∨ g ∈ ctl45 then x.quietly
    else ⟨x, [s.sym (evSym 5 g)], 1⟩

/-- 8b/10b: groups aligned by the comma; the start and end K codes are the frame's events, the idle K code is not placed
(R379, R382, R393). -/
def RxLine.tenBit (x : RxLine) (s : LaneSet) (raw : Bool) : Decoded :=
  let w1 := s.w1
  let x := { x with sh := (2 * x.sh + b2n raw) % 1024, n := x.n + 1 }
  let comma := decide (x.sh / 8 = 0x1F ∨ x.sh / 8 = 0x60)
  if x.n = 10 ∨ comma then
    let v := x.sh
    let x := { x with n := 0, opened := x.opened || comma }
    if !x.opened then x.quietly
    else match dec810 x.rd v with
      | none => ⟨x, [s.sym (evSym 5 (v % 256))], 1⟩
      | some ((k, b), bad) =>
        let x := { x with rd := (enc810 k b (x.rd != bad)).2 }
        if !k then ⟨x, [s.sym (dataSym b false bad)], b2n bad⟩
        else if b = fld w1 7 0 then ⟨x, [s.sym (evSym 1 0)], b2n bad⟩
        else if b = fld w1 15 8 then ⟨x, [s.sym (evSym 2 0)], b2n bad⟩
        else if b = fld w1 23 16 then ⟨x, [], b2n bad⟩
        else ⟨x, [s.sym (evSym 6 b)], b2n bad⟩
  else x.quietly

/-- Raw: each data symbol holds 8 sampled bits, the first in [0] (R393). -/
def RxLine.rawBit (x : RxLine) (s : LaneSet) (raw : Bool) : Decoded :=
  let x := { x with sh := x.sh + b2n raw * 2 ^ x.n, n := x.n + 1 }
  if x.n = 8 then ⟨{ x with sh := 0, n := 0 }, [s.sym (dataSym x.sh false false)], 0⟩ else x.quietly

/-- A bit at the codec that a lane uses (R393). -/
def RxLine.decode (x : RxLine) (s : LaneSet) (b : Bool) : Decoded :=
  match s.codec with
  | 0x30 => x.asyncBit s b
  | 0x31 => x.hdlcBit s b
  | 0x32 => x.manchesterBit s b
  | 0x33 => x.groupBit s b
  | 0x34 => x.tenBit s b
  | _ => x.rawBit s b

/-- A cell at a lane: bit timing, sampling, and the codec (R377 to R382). Only the violations that R382 lists for the declared
code count. -/
def RxLine.cell (x : RxLine) (s : LaneSet) (c : Cell) : Decoded :=
  let t := x.time s c
  let r := t.1.decode s (cellBit c s.deser)
  let edge := t.2 && decide (s.code ≠ 0x30 ∧ s.code ≠ 0x34)
  { r with viol := b2n edge + (if s.code = 0x3F then 0 else r.viol) }

/-! The transmit codecs (R381, R386, R392, R393). -/

/-- What the codec sends next: a character or byte, the opening or the closing framing, a control symbol, an abort, or the
code's idle. -/
inductive TxItem where
  | data (v : Nat)
  | opening
  | closing
  | control (aux : Nat)
  | abort
  | idle
  deriving DecidableEq, Repr

/-- The low n bits of a number, the lowest first. -/
def bitsLsb (n v : Nat) : List Bool := (List.range n).map v.testBit
/-- The low n bits of a number, the highest first. -/
def bitsMsb (n v : Nat) : List Bool := (bitsLsb n v).reverse

/-- An asynchronous character: start bit, data, parity, stop bits. -/
def asyncChar (w1 : Word) (v : Nat) : List Bool :=
  let data := fld w1 3 0
  let ds := if bit w1 7 then bitsMsb data v else bitsLsb data v
  let odd := decide (ds.countP id % 2 = 1)
  let par := match fld w1 5 4 with
    | 0 => []
    | 1 => [odd]
    | _ => [!odd]
  (([false] ++ ds ++ par ++ [true]) ++ (if bit w1 6 then [true] else [])).map (· != bit w1 8)

/-- Bits with a 0 inserted after five ones (HDLC): the bits, and the run of ones they end with. -/
def stuff : (ones : Nat) → List Bool → List Bool × Nat
  | n, [] => ([], n)
  | n, b :: r =>
    if b then
      (if n + 1 = 5 then
        (let t := stuff 0 r
         (true :: false :: t.1, t.2))
       else
        (let t := stuff (n + 1) r
         (true :: t.1, t.2)))
    else
      (let t := stuff 0 r
       (false :: t.1, t.2))

/-- Bits as levels under NRZI: a change for every bit that is `chg`. -/
def nrzi (chg : Bool) : (level : Bool) → List Bool → List Bool
  | _, [] => []
  | l, b :: r => (if b = chg then !l else l) :: nrzi chg (if b = chg then !l else l) r

/-- The level after some bits. -/
def lastLevel (l : Bool) (bs : List Bool) : Bool := bs.getLast?.getD l

/-- The HDLC flag. -/
def flagBits : List Bool := bitsLsb 8 0x7E

/-- An item in HDLC. -/
def TxLine.hdlc (x : TxLine) (w1 : Word) (it : TxItem) : TxLine × List Bool :=
  let k := crcLen 0x31 w1
  let put := fun (x : TxLine) (bs : List Byte) =>
    let t := stuff x.ones (bs.flatMap (fun b => bitsLsb 8 b.toNat))
    ({ x with ones := t.2 }, t.1)
  let plain : TxLine × List Bool := match it with
    | .data v => put { x with crc := lineCrcFold k x.crc (BitVec.ofNat 8 v) } [BitVec.ofNat 8 v]
    | .opening => ({ x with ones := 0, crc := lineCrcInit k, opened := true }, (List.replicate (fld w1 7 4) flagBits).flatten)
    | .closing =>
      let t := put x (lineCrcBytes k x.crc)
      ({ t.1 with ones := 0, opened := false }, t.2 ++ flagBits)
    | .abort => ({ x with ones := 0, opened := false }, List.replicate 8 true)
    | .control _ => (x, [])
    | .idle => ({ x with ones := 0 }, if bit w1 3 then List.replicate 8 true else flagBits)
  if bit w1 1 then
    let ls := nrzi false x.level plain.2
    ({ plain.1 with level := lastLevel x.level ls }, ls)
  else plain

/-- An item in Manchester: two half bits to a bit, nothing outside a frame; an idle ends the frame (R381, R392). -/
def TxLine.manchester (x : TxLine) (w1 : Word) (it : TxItem) : TxLine × List Bool :=
  let k := crcLen 0x32 w1
  let halves := fun (bs : List Bool) => bs.flatMap (fun b => [!(b != bit w1 21), b != bit w1 21])
  match it with
  | .data v => ({ x with crc := lineCrcFold k x.crc (BitVec.ofNat 8 v) }, halves (bitsLsb 8 v))
  | .opening =>
    ({ x with crc := lineCrcInit k, opened := true },
      halves ((List.range (fld w1 31 24)).map (fun i => decide (i % 2 = 0)) ++ bitsMsb (fld w1 20 16 + 1) (fld w1 15 0)))
  | .closing => ({ x with opened := false },
      if k = 0 then [] else halves ((lineCrcBytes k x.crc).flatMap (fun b => bitsLsb 8 b.toNat)))
  | .control _ => (x, [])
  | _ => ({ x with opened := false }, [])

/-- An item in 4b/5b. -/
def TxLine.group45 (x : TxLine) (w1 : Word) (it : TxItem) : TxLine × List Bool :=
  let plain : TxLine × List Bool := match it with
    | .data v => (x, bitsMsb 5 (groups45.getD (v / 16 % 16) 0) ++ bitsMsb 5 (groups45.getD (v % 16) 0))
    | .opening => ({ x with opened := true }, bitsMsb 5 0x18 ++ bitsMsb 5 0x11)
    | .closing => ({ x with opened := false }, bitsMsb 5 0x0D ++ bitsMsb 5 0x07)
    | .control a => (x, bitsMsb 5 a)
    | .abort => ({ x with opened := false }, bitsMsb 5 0x1F)
    | .idle => (x, bitsMsb 5 0x1F)
  if bit w1 0 then
    let ls := nrzi true x.level plain.2
    ({ plain.1 with level := lastLevel x.level ls }, ls)
  else plain

/-- An item in 8b/10b. -/
def TxLine.ten (x : TxLine) (w1 : Word) (it : TxItem) : TxLine × List Bool :=
  let put := fun (x : TxLine) (k : Bool) (b : Nat) =>
    let t := enc810 k b x.rd
    ({ x with rd := t.2 }, bitsMsb 10 t.1)
  match it with
  | .data v => put x false (v % 256)
  | .opening => put { x with opened := true } true (fld w1 7 0)
  | .closing => put { x with opened := false } true (fld w1 15 8)
  | .control a => put x true (a % 256)
  | .abort => put { x with opened := false } true (fld w1 23 16)
  | .idle => put x true (fld w1 23 16)

/-- An item on the line in a lane's code: the line's bits; an empty list is silence. -/
def TxLine.encode (x : TxLine) (codec : Nat) (w1 : Word) (it : TxItem) : TxLine × List Bool :=
  match codec with
  | 0x30 => (x, match it with
      | .data v => asyncChar w1 v
      | .idle => [!(bit w1 8)]
      | _ => [])
  | 0x31 => x.hdlc w1 it
  | 0x32 => x.manchester w1 it
  | 0x33 => x.group45 w1 it
  | 0x34 => x.ten w1 it
  | _ => (x, match it with
      | .data v => bitsLsb 8 v
      | _ => [])

/-- The item that a queued symbol stands for (R386). -/
def symItem (v : BitVec 16) : Option TxItem :=
  let n := v.toNat
  if n.testBit 15 then
    match n / 256 % 16 with
    | 1 => some .opening
    | 2 => some .closing
    | 3 => some .abort
    | 6 => some (.control (n % 256))
    | _ => none
  else some (.data (n % 512))

end Sys2Proof.Machine
end

