-- ==== Sys2Proof/Machine/Stencil.lean ====
section
/-!
DEFINITION. The Stencil engines (R373 to R398): lanes and codecs, the instruction set, frames and the heritage
encapsulation header, and the ring heartbeat (R394, R419 to R423).
-/

namespace Sys2Proof.Machine

/-! Slots, lanes and pairs. -/

/-- A slot of an engine. -/
def Dev.slot (d : Dev) (e s : Nat) : Slot2 := tget Slot2.reset d.stn.slots (4 * e + s)
/-- The device with a slot replaced. -/
def Dev.setSlot (d : Dev) (e s : Nat) (x : Slot2) : Dev :=
  { d with stn := { d.stn with slots := tset Slot2.reset d.stn.slots (4 * e + s) x } }
/-- A slot changed by a function. -/
def Dev.updSlot (d : Dev) (e s : Nat) (f : Slot2 → Slot2) : Dev := d.setSlot e s (f (d.slot e s))

/-- Whether a lane is declared: its line code is not 0. -/
def Dev.laneDeclared (d : Dev) (l : Nat) : Bool := decide (d.rf (Reg.STN_LANE_W0 l) 23 16 ≠ 0)
/-- The engine and slot that serve a lane. -/
def Dev.laneEngine (d : Dev) (l : Nat) : Nat := d.rf (Reg.STN_LANE_W0 l) 4 0
def Dev.laneSlot (d : Dev) (l : Nat) : Nat := d.rf (Reg.STN_LANE_W0 l) 13 12
/-- Whether a lane is in service. -/
def Dev.laneUp (d : Dev) (l : Nat) : Bool := d.rb (Reg.STN_LANE_W0 l) 31
/-- The lane that a slot serves. -/
def Dev.slotLane (d : Dev) (e s : Nat) : Option Nat :=
  findNat (fun l => d.laneDeclared l && decide (d.laneEngine l = e) && decide (d.laneSlot l = s)) 0 32
/-- The declared lanes of an engine. -/
def Dev.engineLanes (d : Dev) (e : Nat) : List Nat :=
  (List.range 32).filter (fun l => d.laneDeclared l && decide (d.laneEngine l = e))

/-- The profile in force, section by section. -/
def Dev.profPorts (d : Dev) : List PortEnt := match d.prf.inForce with
  | some p => p.ports
  | none => []
def Dev.profRings (d : Dev) : List RingEnt := match d.prf.inForce with
  | some p => p.rings
  | none => []
/-- The PORT entry of a port. -/
def Dev.portEnt (d : Dev) (p : Nat) : Option PortEnt := d.profPorts.find? (fun e => decide (e.port = p))
/-- The LINEPARAM entry of a port. -/
def Dev.lineEnt (d : Dev) (p : Nat) : Option LineEnt := match d.prf.inForce with
  | some x => x.lines.find? (fun e => decide (e.port = p))
  | none => none
/-- The RING entry of a pair, and the pair an engine owns. -/
def Dev.ringEnt (d : Dev) (k : Nat) : Option RingEnt := d.profRings.find? (fun r => decide (r.pair = k))
def Dev.enginePair (d : Dev) (e : Nat) : Option Nat :=
  (d.profRings.find? (fun r => decide (r.engine = e))).map (·.pair)
/-- The pair that a port belongs to. -/
def Dev.portPair (d : Dev) (p : Nat) : Option Nat :=
  (d.profRings.find? (fun r => decide (r.west = p ∨ r.east = p))).map (·.pair)

/-- max_frame of a port (R54); the largest of its kind while no entry declares it. -/
def Dev.maxFrame (d : Dev) (p : Nat) : Nat := match d.portEnt p with
  | some e => e.maxFrame
  | none => if p < 80 then 9216 else 9200

/-- Word w (1 to 3) of a lane's line parameters (R59). -/
def Dev.linePar (d : Dev) (l w : Nat) : Word := match d.lineEnt (80 + l) with
  | some e => if w = 1 then e.w1 else if w = 2 then e.w2 else e.w3
  | none => 0

/-- The codec of a lane as a line code (R393): an owner program's word 3 selects it; 0 is raw. -/
def Dev.codec (d : Dev) (l : Nat) : Nat :=
  let c := d.rf (Reg.STN_LANE_W0 l) 23 16
  if c = 0x3F then
    (let k := fld (d.linePar l 3) 3 0
     if k = 0 then 0 else 0x2F + k)
  else c

/-- Whether a lane's characters have more than 8 bits (R386). -/
def Dev.wideChars (d : Dev) (l : Nat) : Bool := decide (d.codec l = 0x30) && decide (8 < fld (d.linePar l 1) 3 0)

/-- Whether a lane's pins can work: VDD_HIO feeds the LVCMOS lanes (R574). -/
def lanePowered (l : Nat) : Bool := decide (l < 16) || Config.vddHio

/-- How a lane is set when it meets a stretch of line (R377, R393). -/
def Dev.laneSet (d : Dev) (sec ns l : Nat) : LaneSet :=
  { sec := sec, ns := ns, code := d.rf (Reg.STN_LANE_W0 l) 23 16, codec := d.codec l, deser := d.rb (Reg.STN_LANE_W0 l) 30, lvcmos := decide (16 ≤ l),
    w1 := d.linePar l 1, w2 := d.linePar l 2 }

/-- The receive side of a lane's codec. -/
def Dev.rxLine (d : Dev) (l : Nat) : RxLine := tget RxLine.reset d.stn.rx l
/-- The transmit side of a lane's codec. -/
def Dev.txLine (d : Dev) (l : Nat) : TxLine := tget TxLine.reset d.stn.tx l
/-- The device with a lane's receive side replaced. -/
def Dev.setRx (d : Dev) (l : Nat) (x : RxLine) : Dev := { d with stn := { d.stn with rx := tset RxLine.reset d.stn.rx l x } }
/-- The device with a lane's transmit side replaced. -/
def Dev.setTx (d : Dev) (l : Nat) (x : TxLine) : Dev := { d with stn := { d.stn with tx := tset TxLine.reset d.stn.tx l x } }

/-- Whether a lane's encoder output is turned back into its own decoder (R396). -/
def Dev.loops (d : Dev) (l : Nat) : Bool := d.rb (Reg.STN_ENG_W0 (d.laneEngine l)) 30

/-- Whether words 1 and 2 of a codec lie within the table of R393. -/
def lineWordsOk (code : Nat) (w1 w2 : Word) : Bool :=
  match code with
  | 0x30 => decide (5 ≤ fld w1 3 0 ∧ fld w1 3 0 ≤ 9 ∧ fld w1 5 4 ≤ 2 ∧ fld w1 15 9 = 0 ∧ fld w2 31 10 = 0)
  | 0x31 => decide (1 ≤ fld w1 7 4 ∧ fld w1 31 8 = 0 ∧ w2 = 0)
  | 0x32 => decide (fld w1 23 23 = 0 ∧ 8 ≤ fld w1 31 24 ∧ fld w2 31 9 = 0)
  | 0x33 => decide (fld w1 31 2 = 0 ∧ w2 = 0)
  | 0x34 => decide (fld w1 31 25 = 0 ∧ w2 = 0)
  | _ => true

/-- Whether a LINEPARAM entry is valid for a line code (R393). -/
def lineParamOk (code : Nat) (e : LineEnt) : Bool :=
  if code = 0x3F then
    decide (fld e.w3 15 4 = 0) && decide (fld e.w3 3 0 ≤ 5) &&
      (decide (fld e.w3 3 0 = 0) || lineWordsOk (0x2F + fld e.w3 3 0) e.w1 e.w2)
  else decide (e.w3 = 0) && lineWordsOk code e.w1 e.w2

/-! The ring heartbeat (R394, R419, R421 to R423). -/

/-- The heartbeat of a pair. -/
def Dev.hb (d : Dev) (k : Nat) : Hb := tget ⟨0, 0, 0, false, false⟩ d.stn.hb k
/-- The device with a heartbeat replaced. -/
def Dev.setHb (d : Dev) (k : Nat) (h : Hb) : Dev :=
  { d with stn := { d.stn with hb := tset ⟨0, 0, 0, false, false⟩ d.stn.hb k h } }
def Dev.hbToggling (d : Dev) (k : Nat) : Bool := d.rb (Reg.STN_HB k) 31
def Dev.hbArmed (d : Dev) (k : Nat) : Bool := d.rb (Reg.STN_HB k) 30
/-- PRT_RING[k].state (R423). -/
def Dev.ringState (d : Dev) (k : Nat) : Nat := d.rf (Reg.PRT_RING_W1 k) 1 0

/-- A heartbeat stops and its pair returns to bypassed (R394, R421, R423): the pin is driven low. A heartbeat that was armed
restarts only when its engine is started again. A toggling one counts
the stop, and unless software cleared run it records RING_HOLD_STOP. -/
def Dev.hbStop (d : Dev) (k : Nat) (software : Bool) : Dev :=
  let tog := d.hbToggling k
  let h := d.hb k
  let d := d.setHb k { h with lapse := 0, stopped := h.stopped || tog || d.hbArmed k, level := false }
  let d := (d.setRb (Reg.STN_HB k) 31 false).setRb (Reg.STN_HB k) 30 false
  let d := if tog then d.setRf (Reg.STN_HB k) 15 0 (min (d.rf (Reg.STN_HB k) 15 0 + 1) 0xFFFF) else d
  (d.setRf (Reg.PRT_RING_W1 k) 1 0 0).raiseIf (tog && !software) Src.ringHoldStop 0

/-- Both heartbeats stop (R421, R510, R542, R573). -/
def Dev.hbStopAll (d : Dev) : Dev := (d.hbStop 0 false).hbStop 1 false

/-- Whether both ports of a pair are declared, enabled and not held (R423). -/
def Dev.ringPortsOk (d : Dev) (k : Nat) : Bool := match d.ringEnt k with
  | some r => [r.west, r.east].all (fun p => (match d.portEnt p with
      | some e => e.flags.testBit 0
      | none => false) && !d.prt.held.contains p)
  | none => false

/-- Whether a PROFILE_APPLY that runs changes a port: it stops at a frame boundary (R70). -/
def Dev.portChanging (d : Dev) (p : Nat) : Bool := match d.prf.applying with
  | some a => decide (a.prof.ports.find? (fun e => decide (e.port = p)) ≠ d.portEnt p)
  | none => false

/-- A heritage port is held down as a disagreement (R65): its lane leaves service, its pair's heartbeat stops, and
PORT_PROFILE_MISMATCH is recorded. -/
def Dev.holdHeritage (d : Dev) (p : Nat) : Dev :=
  let d := { d with prt := { d.prt with held := p :: d.prt.held.filter (fun q => decide (q ≠ p)) } }
  let d := d.setRb (Reg.STN_LANE_W0 (p - 80)) 31 false
  let d := match d.portPair p with
    | some k => d.hbStop k false
    | none => d
  d.raise Src.portProfileMismatch (p + 2 ^ 8 * (Config.familyCode 2 % 2 ^ 24))

/-! The pins of a lane and of a pair (R51, R419). -/

/-- What a heritage lane's output is (R51, R381): the code's levels, or the state of R51. -/
inductive Pad where
  | driven
  | disabled
  | highZ
  deriving DecidableEq, Repr

/-- The output of a heritage lane: while it is held, in loopback or unpowered, an LVDS output is disabled and an LVCMOS output
is high impedance (R51, R396, R574); a Manchester lane drives only inside its frames (R381), an owner's as `drive` says
(R386). EXTEST and CLAMP drive it from the boundary register, HIGHZ does not drive it (R556). -/
def Dev.lanePad (d : Dev) (l : Nat) : Pad :=
  let off := if l < 16 then Pad.disabled else Pad.highZ
  match d.tapPin (90 + l) with
  | .driven _ => .driven
  | .highZ => .highZ
  | .free =>
  if !d.laneUp l || d.loops l || !lanePowered l then off
  else if d.codec l = 0x32 then (if (d.txLine l).opened || (d.slot (d.laneEngine l) (d.laneSlot l)).driver then .driven else off)
  else if d.rf (Reg.STN_LANE_W0 l) 23 16 = 0x3F then (if (d.slot (d.laneEngine l) (d.laneSlot l)).driver then .driven else off)
  else .driven

/-- The level of a RING_HOLD pin (R419, R556): undriven without VDD_IO, that of the boundary register while EXTEST, CLAMP or
HIGHZ is loaded, low but while the heartbeat toggles otherwise. -/
def Dev.ringHold (d : Dev) (k : Nat) : Option Bool :=
  if !d.pins.vddIo then none
  else if d.tapFree then some (d.hbToggling k && (d.hb k).level)
  else some (d.dbg.boundary.getLsbD k)

/-! The instruction frame. -/

/-- A general register of a slot. -/
def Slot2.r (x : Slot2) (i : Nat) : BitVec 16 := tget 0 x.regs i
/-- A slot with a register written. -/
def Slot2.setR (x : Slot2) (i : Nat) (v : BitVec 16) : Slot2 := { x with regs := tset 0 x.regs i v }

/-- Whether debug lets a slot issue (R552). -/
def Slot2.free (x : Slot2) : Bool := match x.dbg with
  | .none | .stepping _ => true
  | _ => false

/-- Whether an engine runs: STN_CTL.enable, its running bit and SCLK (R28, R397). -/
def Dev.engineRuns (d : Dev) (e : Nat) : Bool :=
  d.rb Reg.STN_CTL 0 && d.rb (Reg.STN_ENG_W3 e) 30 && d.rb Reg.GLB_CLK_STATUS 28

/-- Whether a slot is ready (R374, R376): the engine runs, the slot is used and waits for nothing. -/
def Dev.slotReady (d : Dev) (e s : Nat) : Bool :=
  let x := d.slot e s
  d.engineRuns e && d.rb (Reg.STN_ENG_W3 e) (20 + s) && decide (x.wait = .none) && x.free

/-- The loaded value of the previous ld is written after an instruction, over what it wrote (R384). -/
def Slot2.land (x : Slot2) (old : Option (Nat × BitVec 16)) : Slot2 := match old with
  | some (rd, v) => x.setR rd v
  | none => x

/-- An instruction of a slot ends: its effect, then the pending load, then the next pc; a single step halts again. -/
def Slot2.done (x : Slot2) (f : Slot2 → Slot2) (pc : BitVec 12) : Slot2 :=
  let y := (f { x with ld := none, wait := .none }).land x.ld
  { y with pc := pc, dbg := match x.dbg with
      | .stepping a => .halted a
      | h => h }

/-- The same, going on to the next instruction. -/
def Slot2.step (x : Slot2) (f : Slot2 → Slot2) : Slot2 := x.done f (x.pc + 1)

/-- An engine stops for a cause (R385): every slot stops, its lanes are held, open frames are discarded, the heartbeat
stops, and STN_ENG word 3 captures the slot, cause and pc. -/
def Dev.engineEnd (d : Dev) (e s cause : Nat) : Dev :=
  let pc := (d.slot e s).pc.toNat
  let d := (List.range 4).foldl (fun d i => d.updSlot e i (fun x => { x with wait := .none, frame := none, driver := false })) d
  let d := (d.engineLanes e).foldl (fun d l => d.setRb (Reg.STN_LANE_W0 l) 31 false) d
  let d := match d.enginePair e with
    | some k => d.hbStop k false
    | none => d
  let used := d.rf (Reg.STN_ENG_W3 e) 23 20
  d.setReg (Reg.STN_ENG_W3 e) (wd (2 ^ 31 + s * 2 ^ 28 + cause * 2 ^ 24 + used * 2 ^ 20 + pc))

/-- An engine halts (R385), and STN_ENG_HALT is recorded. -/
def Dev.engineHalt (d : Dev) (e s cause : Nat) : Dev := (d.engineEnd e s cause).raise Src.stnEngHalt e

/-- The slot of an engine that issues next: the first ready one after the slot that issued last (R376). -/
def Dev.nextSlot (d : Dev) (e : Nat) : Option Nat := findCyclic (d.slotReady e) ((tget 3 d.stn.last e + 1) % 4) 4

/-- An uncorrectable error in an engine's program or data memory (R375, R385): a running engine halts with cause 3. The slot
captured is the one that issues next, or, while every slot waits, the one that issued last (DESIGN CHOICE, log entry 115). -/
def Dev.engineMemory (d : Dev) (e : Nat) : Dev :=
  if d.engineRuns e then d.engineEnd e ((d.nextSlot e).getD (tget 3 d.stn.last e)) 3 else d

/-- The device in which a slot of an engine issued last (R376). -/
def Dev.issued (d : Dev) (e s : Nat) : Dev := { d with stn := { d.stn with last := tset 3 d.stn.last e s } }

/-- A slot issues an instruction when its turn among the ready slots comes (R376), and nothing happens before; an undefined
word or a non-zero unused field halts the engine with cause 2 (R385). -/
def Dev.stnIssue (d : Dev) (e s : Nat) (ok : Bool) (body : Dev → Dev) : Dev :=
  if d.nextSlot e = some s then
    if ok then body (d.issued e s) else (d.issued e s).engineHalt e s 2
  else d

/-- An instruction that only changes its slot and goes on. -/
def Dev.stnStep (d : Dev) (e s : Nat) (f : Slot2 → Slot2) : Dev := d.updSlot e s (fun x => x.step f)

/-! The ALU group and the immediate instructions (R383). -/

/-- The flags of 16 bits: N 3, Z 2, C 1, V 0; `none` keeps the old value. -/
def flags16 (old : BitVec 4) (r : BitVec 16) (c v : Option Bool) : BitVec 4 :=
  BitVec.ofNat 4 (8 * b2n (r.toNat.testBit 15) + 4 * b2n (decide (r = 0)) + 2 * b2n (c.getD (old.toNat.testBit 1))
    + b2n (v.getD (old.toNat.testBit 0)))

/-- The NZCV flags as the Kroval flags word that R88's conditions read. -/
def flagsWord (f : BitVec 4) : Word := wd (f.toNat * 2 ^ 28)

/-- a + b + carry at 16 bits: result, carry, overflow. -/
def add16 (a b : BitVec 16) (cin : Bool) : BitVec 16 × Bool × Bool :=
  let n := a.toNat + b.toNat + b2n cin
  let r := BitVec.ofNat 16 n
  (r, decide (2 ^ 16 ≤ n),
    (a.toNat.testBit 15 == b.toNat.testBit 15) && (r.toNat.testBit 15 != a.toNat.testBit 15))

/-- A slot after an addition (or a subtraction, as a + ~b + 1), writing rd if asked. -/
def Slot2.add (x : Slot2) (rd : Nat) (b : BitVec 16) (cin wr : Bool) : Slot2 :=
  let r := add16 (x.r rd) b cin
  let y := { x with flags := flags16 x.flags r.1 (some r.2.1) (some r.2.2) }
  if wr then y.setR rd r.1 else y

/-- A slot after a logical result (flags NZ). -/
def Slot2.logic (x : Slot2) (rd : Nat) (r : BitVec 16) (wr : Bool) : Slot2 :=
  let y := { x with flags := flags16 x.flags r none none }
  if wr then y.setR rd r else y

/-- A 16-bit shift by a full 16-bit amount: the result and C, `none` unchanged (R383). -/
def shift16 (k : Sh) (a : BitVec 16) (n : Nat) : BitVec 16 × Option Bool :=
  let neg := a.toNat.testBit 15
  if n = 0 then (a, none)
  else match k with
    | .sll => if n ≤ 16 then (BitVec.ofNat 16 (a.toNat * 2 ^ n), some (a.toNat.testBit (16 - n))) else (0, some false)
    | .srl => if n ≤ 16 then (BitVec.ofNat 16 (a.toNat / 2 ^ n), some (a.toNat.testBit (n - 1))) else (0, some false)
    | _ =>
      let fill := if neg then 2 ^ 16 - 2 ^ (16 - min n 16) else 0
      (BitVec.ofNat 16 (a.toNat / 2 ^ n + fill), some (if n ≤ 16 then a.toNat.testBit (n - 1) else neg))

/-- A slot after a shift (flags NZC). -/
def Slot2.shift (x : Slot2) (k : Sh) (rd rs : Nat) : Slot2 :=
  let r := shift16 k (x.r rd) (x.r rs).toNat
  { x with flags := flags16 x.flags r.1 r.2 none }.setR rd r.1

/-- The ALU group of R383; none where fn is undefined or is jr. -/
def Slot2.alu (x : Slot2) (rd rs fn : Nat) : Option Slot2 :=
  let a := x.r rd
  let b := x.r rs
  match fn with
  | 0x0 => some (x.setR rd b)
  | 0x1 => some (x.add rd b false true)
  | 0x2 => some (x.add rd (~~~b) true true)
  | 0x3 => some (x.logic rd (a &&& b) true)
  | 0x4 => some (x.logic rd (a ||| b) true)
  | 0x5 => some (x.logic rd (a ^^^ b) true)
  | 0x6 => some (x.shift .sll rd rs)
  | 0x7 => some (x.shift .srl rd rs)
  | 0x8 => some (x.shift .sra rd rs)
  | 0x9 => some (x.logic rd (~~~b) true)
  | 0xA => some (x.add rd (~~~b) true false)
  | 0xB => some (x.logic rd (a &&& b) false)
  | _ => none

/-- An ALU-group instruction other than jr. -/
def stnAlu (e s : Nat) (f : SFmt) (d : Dev) : Dev :=
  let rd := f.rd.toNat
  let rs := f.rs.toNat
  let fn := f.fn.toNat
  d.stnIssue e s (decide (fn ≤ 0xB)) fun d => d.stnStep e s (fun x => (x.alu rd rs fn).getD x)

/-- jr (R383): rd must be 0. -/
def stnJr (e s : Nat) (rd rs : BitVec 4) (d : Dev) : Dev :=
  d.stnIssue e s (decide (rd = 0)) fun d =>
    d.updSlot e s (fun x => x.done id (BitVec.ofNat 12 (x.r rs.toNat).toNat))

/-- addi (R383): flags NZCV. -/
def stnAddi (e s : Nat) (rd : BitVec 4) (imm : BitVec 8) (d : Dev) : Dev :=
  d.stnIssue e s true fun d => d.stnStep e s (fun x => x.add rd.toNat (imm.signExtend 16) false true)

/-- movi (R383). -/
def stnMovi (e s : Nat) (rd : BitVec 4) (imm : BitVec 8) (d : Dev) : Dev :=
  d.stnIssue e s true fun d => d.stnStep e s (fun x => x.setR rd.toNat (imm.zeroExtend 16))

/-- movh (R383): bits [15:8] of rd. -/
def stnMovh (e s : Nat) (rd : BitVec 4) (imm : BitVec 8) (d : Dev) : Dev :=
  d.stnIssue e s true fun d => d.stnStep e s (fun x =>
    x.setR rd.toNat (BitVec.ofNat 16 (imm.toNat * 256 + (x.r rd.toNat).toNat % 256)))

/-- cmpi (R383): rd − zext(imm8), flags only. -/
def stnCmpi (e s : Nat) (rd : BitVec 4) (imm : BitVec 8) (d : Dev) : Dev :=
  d.stnIssue e s true fun d => d.stnStep e s (fun x => x.add rd.toNat (~~~(imm.zeroExtend 16)) true false)

/-- A word of an engine's data memory, held in STN_DMEM (R397). -/
def Dev.dmem (d : Dev) (e a : Nat) : BitVec 16 :=
  BitVec.ofNat 16 ((d.reg (Reg.STN_DMEM e (a / 2))).toNat / 2 ^ (16 * (a % 2)))

/-- ld (R383, R384): the loaded value is visible after the next instruction of the slot. -/
def stnLd (e s : Nat) (f : SFmt) (d : Dev) : Dev :=
  d.stnIssue e s true fun d =>
    let v := d.dmem e ((((d.slot e s).r f.rs.toNat).toNat + f.fn.toNat) % 1024)
    d.stnStep e s (fun x => { x with ld := some (f.rd.toNat, v) })

/-- st (R383). -/
def stnSt (e s : Nat) (f : SFmt) (d : Dev) : Dev :=
  d.stnIssue e s true fun d =>
    let x := d.slot e s
    let a := ((x.r f.rs.toNat).toNat + f.fn.toNat) % 1024
    let lo := 16 * (a % 2)
    (d.setRf (Reg.STN_DMEM e (a / 2)) (lo + 15) lo (x.r f.rd.toNat).toNat).stnStep e s id

/-- bcc (R383): cond 0xF is undefined; no delay slot (R384). -/
def stnBcc (e s : Nat) (cond : BitVec 4) (off : BitVec 8) (d : Dev) : Dev :=
  d.stnIssue e s (decide (cond ≠ 0xF)) fun d =>
    d.updSlot e s (fun x => x.done id
      (if condTaken cond.toNat (flagsWord x.flags) then x.pc + 1 + off.signExtend 12 else x.pc + 1))

/-- jmp (R383). -/
def stnJmp (e s : Nat) (off : BitVec 12) (d : Dev) : Dev :=
  d.stnIssue e s true fun d => d.updSlot e s (fun x => x.done id (x.pc + 1 + off))

/-- call (R383): s15 ← pc + 1. -/
def stnCall (e s : Nat) (off : BitVec 12) (d : Dev) : Dev :=
  d.stnIssue e s true fun d =>
    d.updSlot e s (fun x => x.done (fun y => y.setR 15 ((x.pc + 1).zeroExtend 16)) (x.pc + 1 + off))

/-! Received symbols and frames (R379, R386, R390). -/

/-- The status bits that a symbol read while the frame is open sets (R390). -/
def HFrame.read (f : HFrame) (v : BitVec 16) : HFrame :=
  let n := v.toNat
  let put := fun (f : HFrame) (i : Nat) => { f with status := f.status ||| 2 ^ i }
  if n.testBit 15 then
    match n / 256 % 16 with
    | 0x2 => if n.testBit 0 then put f 0 else f
    | 0x3 => put f 1
    | 0x4 => put f 7
    | 0x5 => put f 4
    | 0x7 => put f 6
    | _ => f
  else
    let f := if n.testBit 10 then put f 2 else f
    let f := if n.testBit 9 then put f 3 else f
    if n.testBit 10 || n.testBit 9 then { f with errs := min (f.errs + 1) 255 } else f

/-- A symbol read by a slot, for its open frame's status. -/
def Slot2.readSym (x : Slot2) (v : BitVec 16) : Slot2 := { x with frame := x.frame.map (fun f => f.read v) }

/-- A character appended to a frame: one byte, or two where characters have more than 8 bits; a frame at max_frame is
not extended (R386). -/
def HFrame.append (f : HFrame) (wide : Bool) (maxLen : Nat) (v : BitVec 16) : HFrame :=
  let bs := if wide then leBytes 2 (v.toNat % 512) else leBytes 1 v.toNat
  if f.bytes.length + bs.length ≤ maxLen then { f with bytes := f.bytes ++ bs } else { f with long := true }

/-- Whether a slot may open a frame: one of its two assembly buffers is free (R375, R390). -/
def Slot2.bufferFree (x : Slot2) : Bool := decide (x.moving < 2)

/-- A slot with a frame opened at a time, unless one is open. -/
def Slot2.openFrame (x : Slot2) (late : Bool) (at_ : Nat × Nat) : Slot2 :=
  if x.frame.isSome then x
  else { x with frame := some { bytes := [], sec := at_.1, ns := at_.2, status := 0, errs := 0, long := false, late := late } }

/-- The frame of a slot with one clean data symbol appended (rxrun, R386). -/
def Slot2.appendSym (x : Slot2) (wide : Bool) (maxLen : Nat) (y : Sym) : Slot2 :=
  { x with frame := x.frame.map (fun f =>
      let f := if f.late then { f with sec := y.sec, ns := y.ns, late := false } else f
      f.append wide maxLen y.val) }

/-- Whether a symbol is a data symbol without an error (R379, R386). -/
def Sym.clean (y : Sym) : Bool := !(y.val.toNat.testBit 15) && !(y.val.toNat.testBit 10) && !(y.val.toNat.testBit 9)

/-- rxrun appends the clean symbols at the head of the receive FIFO (R386). -/
def Slot2.drain (x : Slot2) (wide : Bool) (maxLen : Nat) : (fuel : Nat) → Slot2
  | 0 => x
  | n + 1 => match x.rxf with
    | y :: r => if y.clean then ({ x with rxf := r }.appendSym wide maxLen y).drain wide maxLen n else x
    | [] => x

/-- The next symbol taken from a non-empty receive FIFO into a register (rx, R386). -/
def Slot2.take (x : Slot2) (rd : Nat) : Slot2 := match x.rxf with
  | y :: r => ({ x with rxf := r, stamp := some (y.sec, y.ns) }.readSym y.val).setR rd y.val
  | [] => x

/-- What the slot's lane makes of characters: whether they are wide, and max_frame. -/
def Dev.slotChars (d : Dev) (e s : Nat) : Bool × Nat := match d.slotLane e s with
  | some l => (d.wideChars l, d.maxFrame (80 + l))
  | none => (false, 9200)

/-- Room returned after an overrun: one overrun event is placed (R380). -/
def Slot2.placeOverrun (x : Slot2) (sec ns : Nat) : Slot2 :=
  if x.lost ≠ 0 ∧ x.rxf.length < 64 then
    { x with rxf := x.rxf ++ [⟨BitVec.ofNat 16 (0x8700 + min x.lost 255), sec, ns⟩], lost := 0 }
  else x

/-- rx (R386). -/
def stnRx (sec ns e s : Nat) (rd rs : BitVec 4) (d : Dev) : Dev :=
  d.stnIssue e s (decide (rs = 0)) fun d =>
    d.updSlot e s (fun x =>
      match x.rxf with
      | _ :: _ => (x.step (fun y => y.take rd.toNat)).placeOverrun sec ns
      | [] => { x with wait := .rx rd.toNat })

/-- rxrun (R386): opens a frame if none is open, and appends from then on until an event or errored symbol. -/
def stnRxrun (sec ns e s : Nat) (rd rs : BitVec 4) (d : Dev) : Dev :=
  d.stnIssue e s (decide (rs = 0)) fun d =>
    let c := d.slotChars e s
    d.updSlot e s (fun x =>
      if x.frame.isNone ∧ !x.bufferFree then { x with wait := .buffer }
      else (({ x with wait := .rxrun rd.toNat }.openFrame true (sec, ns)).drain c.1 c.2 65).placeOverrun sec ns)

/-- An event or errored symbol stops rxrun and goes to rd (R386). -/
def rxrunStop (sec ns e s : Nat) (d : Dev) : Dev :=
  let x := d.slot e s
  match x.wait, x.rxf with
  | .rxrun rd, y :: r =>
    if d.engineRuns e && x.free && !y.clean then
      d.setSlot e s ((x.step (fun z => ({ z with rxf := r }.readSym y.val).setR rd y.val)).placeOverrun sec ns)
    else d
  | _, _ => d

/-- fput (R386): a frame that rxrun opened and that holds nothing yet takes its timestamp from this character. -/
def stnFput (sec ns e s : Nat) (rd rs : BitVec 4) (d : Dev) : Dev :=
  d.stnIssue e s (decide (rs = 0)) fun d =>
    let c := d.slotChars e s
    d.updSlot e s (fun x =>
      if x.frame.isNone ∧ !x.bufferFree then { x with wait := .buffer }
      else x.step (fun y =>
        let at_ := y.stamp.getD (sec, ns)
        let y := y.openFrame false at_
        { y with frame := y.frame.map (fun f =>
            (if f.late then { f with sec := at_.1, ns := at_.2, late := false } else f).append c.1 c.2 (x.r rd.toNat)) }))

/-- fopen (R386). -/
def stnFopen (sec ns e s : Nat) (rd rs : BitVec 4) (d : Dev) : Dev :=
  d.stnIssue e s (decide (rd = 0) && decide (rs = 0)) fun d =>
    d.updSlot e s (fun x =>
      if x.frame.isNone ∧ !x.bufferFree then { x with wait := .buffer }
      else x.step (fun y => y.openFrame false (y.stamp.getD (sec, ns))))

/-- A lane counter of STN_LANE. -/
def Dev.laneDiscard (d : Dev) (l : Nat) : Dev := d.bump (Reg.STN_LANE_W3 l) 1

/-- A frame that ends counts toward its lane's errors if any of its status bits 2 to 6 is set (R393; log entry 115). -/
def Dev.laneFrameErr (d : Dev) (l : Nat) (f : HFrame) : Dev :=
  if f.status / 4 % 32 = 0 then d else { d with stn := { d.stn with errs := tset 0 d.stn.errs l (tget 0 d.stn.errs l + 1) } }

/-- fdrop (R386): an open frame is discarded and counted. -/
def stnFdrop (e s : Nat) (rd rs : BitVec 4) (d : Dev) : Dev :=
  d.stnIssue e s (decide (rd = 0) && decide (rs = 0)) fun d =>
    let d := match d.slotLane e s, (d.slot e s).frame with
      | some l, some f => (d.laneFrameErr l f).laneDiscard l
      | _, _ => d
    d.stnStep e s (fun x => { x with frame := none, stamp := none })

/-- Whether a frame fits an ingress FIFO of 16 KiB (R22): what waits for the parser from the same macro or engine is
still in it. -/
def Dev.fifoRoom (d : Dev) (p n : Nat) : Bool :=
  let same := fun (q : Nat) =>
    if p < 80 then decide (q / 4 = p / 4)
    else decide (80 ≤ q ∧ q < 112) && decide (d.laneEngine (q - 80) = d.laneEngine (p - 80))
  decide (((d.prs.inq.filter (fun x => same x.port)).map (·.len)).sum + n ≤ 16384)

/-- The ingress cell writer (R22, R309): a frame is written into a chain of the port's owner and waits for the parser;
a full FIFO or a failed allocation discards it whole, counted. -/
def Dev.ingress (d : Dev) (p : Nat) (bytes : List Byte) (sec ns : Nat) : Dev :=
  if !d.fifoRoom p bytes.length then (d.bump (Reg.PRT_CNT p 5) 1).raise Src.portRxOverflow p
  else
    let o := d.portOwner p
    match d.allocChain o (d.rf (Reg.PAL_OWNER o) 3 0) bytes.length with
    | none => (d.bump (Reg.PAL_OWNER_DROP o) 1).raise Src.palOwnerDrop o
    | some (h, d) =>
      let d := d.fillBufs (d.chain h) bytes
      let pk : Pkt := { handle := h, owner := o, len := bytes.length, port := p, tsNs := ns, tsSec := sec % 2 ^ 32,
                        recircs := 0, recirc := none }
      d.enqueueIn pk

/-- The heritage encapsulation header (R390). -/
def heritageHeader (port code user : Nat) (f : HFrame) : List Byte :=
  leBytes 1 port ++ leBytes 1 code ++ leBytes 2 f.bytes.length
    ++ leBytes 4 (user % 256 * 2 ^ 24 + f.errs * 2 ^ 8 + f.status % 256) ++ leBytes 4 f.ns ++ leBytes 4 (f.sec % 2 ^ 32)

/-- Whether a ring port's pair is not inserted, so that it discards what it receives (R422). -/
def Dev.notInserted (d : Dev) (p : Nat) : Bool := match d.portPair p with
  | some k => decide (d.ringState k ≠ 3)
  | none => false

/-- A closed frame leaves its slot (R386, R390, R422): a ring port whose pair is
not inserted discards it, counted as held; one that passed max_frame is discarded; else it goes to the ingress cell writer with its header. -/
def Dev.closeFrame (d : Dev) (e s user : Nat) (f : HFrame) : Dev :=
  match d.slotLane e s with
  | none => d
  | some l =>
    let p := 80 + l
    let d := d.laneFrameErr l f
    if d.notInserted p then d.bump (Reg.PRT_CNT p 6) 1
    else if f.long then d.laneDiscard l
    else
      let d := d.updSlot e s (fun x => { x with moving := x.moving + 1 })
      (d.bump (Reg.STN_LANE_W1 l) 1).ingress p
        (heritageHeader p (d.rf (Reg.STN_LANE_W0 l) 23 16) user f ++ f.bytes) f.sec f.ns

/-- fend (R386, R390); with no open frame there is nothing to close. -/
def stnFend (e s : Nat) (rd rs : BitVec 4) (d : Dev) : Dev :=
  d.stnIssue e s (decide (rs = 0)) fun d =>
    let x := d.slot e s
    let user := (x.r rd.toNat).toNat % 256
    let d := d.stnStep e s (fun x => { x with frame := none, stamp := none })
    match x.frame with
    | some f => d.closeFrame e s user f
    | none => d

/-- A closed frame has left its assembly buffer (R390); a slot that waits for one becomes ready. -/
def assemblyBufferFree (e s : Nat) (d : Dev) : Dev :=
  d.updSlot e s (fun x =>
    if x.moving = 0 then x else { x with moving := x.moving - 1, wait := if x.wait = .buffer then .none else x.wait })

/-- The 17th violation within 1 s (R64, R382): its time against that of the 16th before it. -/
def Slot2.violate (x : Slot2) (now : Nat) : Slot2 × Bool :=
  let v := (now :: x.viol).take 17
  ({ x with viol := v }, match v[16]? with
    | some t => decide (now - t ≤ 1000000000)
    | none => false)

/-- A symbol reaches the receive FIFO (R379, R380): an overrun event that is owed comes before it. -/
def Slot2.push (x : Slot2) (y : Sym) : Slot2 :=
  let x := x.placeOverrun y.sec y.ns
  if x.rxf.length < 64 then { x with rxf := x.rxf ++ [y] } else { x with lost := x.lost + 1 }

/-- A slot that waits in rx or rxrun takes what has arrived. -/
def Slot2.wake (x : Slot2) (wide : Bool) (maxLen : Nat) : Slot2 :=
  match x.wait, x.rxf with
  | .rx rd, _ :: _ => x.step (fun y => y.take rd)
  | .rxrun _, _ => x.drain wide maxLen 65
  | _, _ => x

/-- A decoded symbol is placed in its slot's FIFO, or lost (R379, R380); a slot that waits for it goes on. -/
def Dev.placeSym (d : Dev) (l : Nat) (v : Sym) : Dev :=
  let e := d.laneEngine l
  let s := d.laneSlot l
  let c := d.slotChars e s
  let x := d.slot e s
  let y := x.push v
  let lost := decide (x.lost < y.lost) || decide (y.lost ≠ 0 ∧ x.lost ≠ y.lost)
  let y := if x.free then (y.wake c.1 c.2).placeOverrun v.sec v.ns else y
  let d := d.setSlot e s y
  if lost then
    let w := Reg.STN_LANE_W5 l
    (d.setRf w 31 16 (min (d.rf w 31 16 + 1) 0xFFFF)).raise Src.stnRxOverrun (80 + l)
  else d

/-- A violation of a lane's line code is counted, and the 17th within 1 s holds its port (R64, R382), after which nothing more
is received (R65); a ring port whose pair is not inserted counts none (R422). -/
def Dev.laneViolation (d : Dev) (now l : Nat) : Dev :=
  if d.notInserted (80 + l) || !d.laneUp l then d
  else
    let e := d.laneEngine l
    let s := d.laneSlot l
    let r := (d.slot e s).violate now
    let d := (d.setSlot e s r.1).bump (Reg.STN_LANE_W4 l) 1
    if r.2 then d.holdHeritage (80 + l) else d

/-- A stretch of line at a lane's decoder, cell by cell while the lane is in service (R65, R377 to R382). -/
def Dev.laneCells (d : Dev) (now sec ns l : Nat) : List Cell → Dev
  | [] => d
  | c :: cs =>
    if !d.laneUp l then d
    else
      let r := (d.rxLine l).cell (d.laneSet sec ns l) c
      let d := r.syms.foldl (fun d v => d.placeSym l v) (d.setRx l r.rx)
      ((List.range r.viol).foldl (fun d _ => d.laneViolation now l) d).laneCells now sec ns l cs

/-- The codec of a lane in service decodes a stretch of line (R379 to R382): the symbols it gives are placed in the slot's
FIFO, or lost. A lane in loopback hears only itself (R396), and one that an apply changes stops at a frame boundary (R70). -/
def symbolReceive (now sec ns l : Nat) (cs : List Cell) (d : Dev) : Dev :=
  let between := (d.slot (d.laneEngine l) (d.laneSlot l)).frame.isNone
  if !d.laneUp l ∨ d.stage = 4 ∨ d.loops l ∨ (d.portChanging (80 + l) ∧ between) then d else d.laneCells now sec ns l cs

/-! Transmission (R381, R386, R391, R392). -/

/-- What a lane in service sends; one that is not keeps the state of R51. -/
def Dev.lineOut (d : Dev) (l : Nat) (o : LineOut) : Dev :=
  if !d.laneUp l then d
  else { d with stn := { d.stn with out := tset [] d.stn.out l (tget [] d.stn.out l ++ [o]) } }

/-- tx (R386). -/
def stnTx (e s : Nat) (rd rs : BitVec 4) (d : Dev) : Dev :=
  d.stnIssue e s (decide (rs = 0)) fun d =>
    d.updSlot e s (fun x =>
      if x.txf.length < 64 then x.step (fun y => { y with txf := y.txf ++ [x.r rd.toNat] })
      else { x with wait := .tx rd.toNat })

/-- An item in a lane's code (R381, R386, R393): on its line, or, in loopback, at its own decoder while the pins stay as
R51 states (R396): there a Manchester lane's silence is two bit times without a transition (DESIGN CHOICE, log entry 114). An
item for which the code has nothing puts nothing on the line. -/
def Dev.lineSend (d : Dev) (now sec ns l : Nat) (it : TxItem) : Dev :=
  if !d.laneUp l then d
  else
    let t := (d.txLine l).encode (d.codec l) (d.linePar l 1) it
    let d := d.setTx l t.1
    let silent := decide (d.codec l = 0x32) && decide (it = .idle ∨ it = .abort)
    if d.loops l then
      d.laneCells now sec ns l (if silent then List.replicate 4 ⟨0, none⟩ else t.2.map (fun b => ⟨if b then 7 else 0, none⟩))
    else if silent then d.lineOut l .silent
    else if t.2 = [] then d
    else d.lineOut l (.bits t.2)

/-- Whether a Manchester lane must still wait before it drives: turnaround bit times of line silence (R381). -/
def Dev.turning (d : Dev) (l : Nat) (it : TxItem) : Bool :=
  decide (d.codec l = 0x32) && decide (it = .opening) && !d.loops l && decide ((d.rxLine l).silence < 2 * fld (d.linePar l 2) 7 0)

/-- The codec of a lane takes its next item (R381): from the transmit FIFO, else the opening or the next byte of a frame that
txrun sends, else it sends the code's idle, as does a ring port whose pair is not inserted (R422). -/
def symbolTransmit (now sec ns l : Nat) (d : Dev) : Dev :=
  if !d.laneUp l ∨ d.stage = 4 then d
  else if d.notInserted (80 + l) then d.lineSend now sec ns l .idle
  else
    let e := d.laneEngine l
    let s := d.laneSlot l
    let x := d.slot e s
    match x.txf with
    | v :: r =>
      let it := (symItem v).getD .idle
      if d.turning l it then d.lineSend now sec ns l .idle
      else
        let x := { x with txf := r }
        let x := match x.wait with
          | .tx rd => if x.free then x.step (fun y => { y with txf := y.txf ++ [x.r rd] }) else x
          | _ => x
        (d.setSlot e s x).lineSend now sec ns l it
    | [] =>
      match x.wait, x.staged with
      | .txrun _, some g =>
        if !x.opened then
          (if d.turning l .opening then d.lineSend now sec ns l .idle
           else (d.setSlot e s { x with opened := true }).lineSend now sec ns l .opening)
        else (match g.ready with
         | b :: r => (d.setSlot e s { x with staged := some { g with ready := r } }).lineSend now sec ns l (.data b.toNat)
         | [] => d)
      | _, _ => d.lineSend now sec ns l .idle

/-- The copy at the head of a port's egress is over: TRANSMIT_DONE releases it (R314). -/
def Dev.egressOver (d : Dev) (p : Nat) : Dev :=
  match tget [] d.tmg.egress p with
  | e :: r => { d with tmg := { d.tmg with egress := tset [] d.tmg.egress p ({ e with sent := true } :: r) } }
  | [] => d

/-- txrun (R386): the rest of the staged frame is sent by the codec. -/
def stnTxrun (e s : Nat) (rd rs : BitVec 4) (d : Dev) : Dev :=
  d.stnIssue e s (decide (rs = 0)) fun d => d.updSlot e s (fun x => { x with wait := .txrun rd.toNat, opened := false })

/-- txrun ends (R386, R392) once its opening, its bytes and what was queued before it are sent: with the code's CRC and
closing framing; or, with the staging empty and more to come, as an underrun. A port whose pair is not inserted sends idle in
place of either (R422); a slot that debug holds has its result once it goes on (R552). -/
def txrunDone (now sec ns e s : Nat) (d : Dev) : Dev :=
  let x := d.slot e s
  match x.wait, x.staged with
  | .txrun rd, some g =>
    if !d.engineRuns e ∨ g.ready ≠ [] ∨ ((d.slotLane e s).isSome ∧ (x.txf ≠ [] ∨ !x.opened)) then d
    else
      let fin := fun (d : Dev) (v : BitVec 16) =>
        let y := { x with staged := none, opened := false }
        d.setSlot e s (if x.free then y.step (fun y => y.setR rd v) else { y with wait := .over rd v })
      (match d.slotLane e s with
       | none => fin d (if g.rest = [] then 0 else 1)
       | some l =>
         let d := d.egressOver (80 + l)
         if g.rest = [] then ((fin d 0).bump (Reg.STN_LANE_W2 l) 1).lineSend now sec ns l
           (if d.notInserted (80 + l) then .idle else .closing)
         else
           let w := Reg.STN_LANE_W5 l
           let d := (d.setRf w 15 0 (min (d.rf w 15 0 + 1) 0xFFFF)).raise Src.stnTxUnderrun (80 + l)
           (fin d 1).lineSend now sec ns l (if d.codec l = 0x31 ∧ !d.notInserted (80 + l) then .abort else .idle))
  | .txrun rd, none => if d.engineRuns e && x.free then d.setSlot e s (x.step (fun y => y.setR rd 0)) else d
  | _, _ => d

/-- txnext (R386, R391): a frame that txnext returned before is over; the next staged one is returned, or waited for. -/
def stnTxnext (e s : Nat) (rd rs : BitVec 4) (d : Dev) : Dev :=
  d.stnIssue e s (decide (rs = 0)) fun d =>
    let x := d.slot e s
    match x.staged with
    | some g =>
      if g.taken then
        let d := match d.slotLane e s with
          | some l => d.egressOver (80 + l)
          | none => d
        d.setSlot e s { x with staged := none, wait := .txnext rd.toNat }
      else d.stnStep e s (fun y => { y with staged := some { g with taken := true } }.setR rd.toNat (BitVec.ofNat 16 g.len))
    | none => d.setSlot e s { x with wait := .txnext rd.toNat }

/-- A slot that waits in txnext returns the frame that is staged, unless debug holds it (R386, R391, R552). -/
def Slot2.takeStaged (x : Slot2) : Slot2 := match x.wait, x.staged with
  | .txnext rd, some g =>
    if x.free then x.step (fun z => { z with staged := some { g with taken := true } }.setR rd (BitVec.ofNat 16 g.len)) else x
  | _, _ => x

/-- The egress reader stages a frame for a slot, or refills its staging (R391): the header is stripped and 4 KiB at most
are staged; a packet shorter than its header is discarded. A slot that waits in txnext returns. -/
def txnextReady (e s : Nat) (d : Dev) : Dev :=
  match d.slotLane e s with
  | none => d
  | some l =>
    let x := d.slot e s
    if !d.engineRuns e then d
    else match x.staged with
      | some g =>
        let n := 4096 - g.ready.length
        d.setSlot e s { x with staged := some { g with ready := g.ready ++ g.rest.take n, rest := g.rest.drop n } }
      | none =>
        match tget [] d.tmg.egress (80 + l) with
        | y :: _ =>
          if y.sent || d.spillWaits (80 + l) y.item.handle then d
          else
            let bs := d.frameBytes y.item
            if d.frameBad y.item then (d.dataFault y.item).egressOver (80 + l)
            else if bs.length < 16 then (d.laneDiscard l).egressOver (80 + l)
            else
              let body := bs.drop 16
              let g : Staged := { len := body.length, ready := body.take 4096, rest := body.drop 4096,
                                  user := (byteAt bs 7).toNat, taken := false }
              d.setSlot e s { x with staged := some g }.takeStaged
        | [] => d

/-- txget (R386): the next byte, or 0xFFFF after the last. -/
def stnTxget (e s : Nat) (rd rs : BitVec 4) (d : Dev) : Dev :=
  d.stnIssue e s (decide (rs = 0)) fun d =>
    d.stnStep e s (fun x =>
      match x.staged with
      | some g =>
        (match g.ready ++ g.rest with
         | b :: r => { x with staged := some { g with ready := r.take 4096, rest := r.drop 4096 } }.setR rd.toNat
             (b.zeroExtend 16)
         | [] => x.setR rd.toNat 0xFFFF)
      | none => x.setR rd.toNat 0xFFFF)

/-- txusr (R386, R391). -/
def stnTxusr (e s : Nat) (rd rs : BitVec 4) (d : Dev) : Dev :=
  d.stnIssue e s (decide (rs = 0)) fun d =>
    d.stnStep e s (fun x => x.setR rd.toNat (BitVec.ofNat 16 (match x.staged with
      | some g => g.user
      | none => 0)))

/-- drive (R386): the line driver of Manchester and owner codes; 0 disables it inside a frame too. -/
def stnDrive (e s : Nat) (rd rs : BitVec 4) (d : Dev) : Dev :=
  d.stnIssue e s (decide (rs = 0)) fun d =>
    let on := ((d.slot e s).r rd.toNat).toNat.testBit 0
    match d.slotLane e s with
    | some l =>
      let c := d.rf (Reg.STN_LANE_W0 l) 23 16
      if c = 0x32 ∨ c = 0x3F then
        let d := if on then d else d.setTx l { d.txLine l with opened := false }
        (d.lineOut l (.driver on)).stnStep e s (fun x => { x with driver := on })
      else d.stnStep e s id
    | none => d.stnStep e s id

/-- par (R386): a halfword of LINEPARAM words 1 to 3; 6 and 7 return 0. -/
def stnPar (e s : Nat) (rd rs : BitVec 4) (d : Dev) : Dev :=
  d.stnIssue e s true fun d =>
    let i := ((d.slot e s).r rs.toNat).toNat % 8
    let v := match d.slotLane e s with
      | some l => if i < 6 then (d.linePar l (1 + i / 2)).toNat / 2 ^ (16 * (i % 2)) else 0
      | none => 0
    d.stnStep e s (fun x => x.setR rd.toNat (BitVec.ofNat 16 v))

/-! The CRC and time groups (R387, R388). -/

/-- cinit (R387). -/
def stnCinit (e s : Nat) (rd rs : BitVec 4) (d : Dev) : Dev :=
  d.stnIssue e s (decide (rs = 0)) fun d =>
    d.stnStep e s (fun x =>
      let n := (x.r rd.toNat).toNat
      { x with crc := ⟨n.testBit 0, n.testBit 1, if n.testBit 0 then 0xFFFFFFFF else 0xFFFF⟩ })

/-- A byte folded into the CRC: polynomial 0x1021, or that of IEEE 802.3 (R387). -/
def SlotCrc.fold (c : SlotCrc) (b : Byte) : SlotCrc :=
  { c with val :=
      if c.wide then (if c.refl then crc32 c.val [b] else crcFwd 32 0x04C11DB7 c.val [b])
      else (if c.refl then crcRefl 0x8408 c.val [b] else crc16 c.val [b]) }

/-- cupd (R387). -/
def stnCupd (e s : Nat) (rd rs : BitVec 4) (d : Dev) : Dev :=
  d.stnIssue e s (decide (rs = 0)) fun d =>
    d.stnStep e s (fun x => { x with crc := x.crc.fold (BitVec.ofNat 8 (x.r rd.toNat).toNat) })

/-- crdl (R387). -/
def stnCrdl (e s : Nat) (rd rs : BitVec 4) (d : Dev) : Dev :=
  d.stnIssue e s (decide (rs = 0)) fun d => d.stnStep e s (fun x => x.setR rd.toNat (BitVec.ofNat 16 x.crc.val))

/-- crdh (R387). -/
def stnCrdh (e s : Nat) (rd rs : BitVec 4) (d : Dev) : Dev :=
  d.stnIssue e s (decide (rs = 0)) fun d => d.stnStep e s (fun x => x.setR rd.toNat (BitVec.ofNat 16 (x.crc.val / 2 ^ 16)))

/-- now (R388): bits [15:0] of the nanosecond counter; [31:16] are captured. -/
def stnNow (now e s : Nat) (rd rs : BitVec 4) (d : Dev) : Dev :=
  d.stnIssue e s (decide (rs = 0)) fun d =>
    d.stnStep e s (fun x => { x with nowHi := BitVec.ofNat 16 (now / 2 ^ 16) }.setR rd.toNat (BitVec.ofNat 16 now))

/-- nowh (R388). -/
def stnNowh (e s : Nat) (rd rs : BitVec 4) (d : Dev) : Dev :=
  d.stnIssue e s (decide (rs = 0)) fun d => d.stnStep e s (fun x => x.setR rd.toNat x.nowHi)

/-- waitc (R388): rd SCLK cycles of 1.25 ns; 0 ends at once. -/
def stnWaitc (now e s : Nat) (rd rs : BitVec 4) (d : Dev) : Dev :=
  d.stnIssue e s (decide (rs = 0)) fun d =>
    d.updSlot e s (fun x =>
      let n := (x.r rd.toNat).toNat
      if n = 0 then x.step id else { x with wait := .waitc (4 * now + 5 * n) })

/-- A waitc count expires (R388). -/
def waitcExpiry (now e s : Nat) (d : Dev) : Dev :=
  let x := d.slot e s
  match x.wait with
  | .waitc t => if t ≤ 4 * now ∧ d.engineRuns e ∧ x.free then d.setSlot e s (x.step id) else d
  | _ => d

/-- Whether a waitt deadline is reached (R388). -/
def waittOver (now deadline : Nat) : Bool := decide ((now % 2 ^ 32 + 2 ^ 32 - deadline) % 2 ^ 32 < 2 ^ 31)

/-- waitt (R388). -/
def stnWaitt (now e s : Nat) (rd rs : BitVec 4) (d : Dev) : Dev :=
  d.stnIssue e s true fun d =>
    d.updSlot e s (fun x =>
      let t := (x.r rs.toNat).toNat * 65536 + (x.r rd.toNat).toNat
      if waittOver now t then x.step id else { x with wait := .waitt t })

/-- A waitt deadline is reached (R388). -/
def waittExpiry (now e s : Nat) (d : Dev) : Dev :=
  let x := d.slot e s
  match x.wait with
  | .waitt t => if waittOver now t ∧ d.engineRuns e ∧ x.free then d.setSlot e s (x.step id) else d
  | _ => d

/-! The pin and system groups (R389, R383). -/

/-- pps (R389): the pin follows rd[0] when the profile gives it to this engine. -/
def stnPps (e s : Nat) (rd rs : BitVec 4) (d : Dev) : Dev :=
  d.stnIssue e s (decide (rs = 0)) fun d =>
    let v := ((d.slot e s).r rd.toNat).toNat.testBit 0
    let own := match d.prf.inForce with
      | some p => decide (p.pps = 0x80 + e)
      | none => false
    let d := if own then { d with prt := { d.prt with pps := v } }
      else d.raise Src.cfgConflict (2 ^ 31 + 7 * 2 ^ 28 + e)
    d.stnStep e s id

/-- Whether the engine that owns a pair runs in loopback: the pair is bypassed meanwhile (R396, R549). -/
def Dev.ringLoops (d : Dev) (k : Nat) : Bool := d.rb (Reg.STN_ENG_W0 (d.rf (Reg.STN_HB k) 20 16)) 30

/-- hbkick (R389, R394, R423): arms the heartbeat of the engine's pair for 4,096 SCLK cycles; a bypassed pair whose
ports are declared, enabled and not held begins to wait. A heartbeat that stopped needs its engine started again. -/
def Dev.hbKick (d : Dev) (now e : Nat) : Dev :=
  match d.enginePair e with
  | none => d
  | some k =>
    let h := d.hb k
    if h.stopped ∨ d.ringLoops k then d
    else
      let d := (d.setHb k { h with lapse := 4 * now + 5 * 4096 }).setRb (Reg.STN_HB k) 30 true
      if d.ringState k = 0 ∧ d.ringPortsOk k then
        (d.setHb k { d.hb k with since := now }).setRf (Reg.PRT_RING_W1 k) 1 0 1
      else d

/-- hbkick (R389). -/
def stnHbkick (now e s : Nat) (rd rs : BitVec 4) (d : Dev) : Dev :=
  d.stnIssue e s (decide (rd = 0) && decide (rs = 0)) fun d => (d.hbKick now e).stnStep e s id

/-- hbstat (R389): [0] toggling, [1] armed. -/
def stnHbstat (e s : Nat) (rd rs : BitVec 4) (d : Dev) : Dev :=
  d.stnIssue e s (decide (rs = 0)) fun d =>
    let v := match d.enginePair e with
      | some k => b2n (d.hbToggling k) + 2 * b2n (d.hbArmed k)
      | none => 0
    d.stnStep e s (fun x => x.setR rd.toNat (BitVec.ofNat 16 v))

/-- nop (R383). -/
def stnNop (e s : Nat) (rd rs : BitVec 4) (d : Dev) : Dev :=
  d.stnIssue e s (decide (rd = 0) && decide (rs = 0)) fun d => d.stnStep e s id

/-- halt (R383, R385): cause 1. -/
def stnHalt (e s : Nat) (rd rs : BitVec 4) (d : Dev) : Dev :=
  d.stnIssue e s (decide (rd = 0) && decide (rs = 0)) fun d => d.engineHalt e s 1

/-- brk (R385, R555): halts its slot while DBG_CTL.stn_brk is 1, else the engine with cause 4. -/
def stnBrk (e s : Nat) (rd rs : BitVec 4) (d : Dev) : Dev :=
  d.stnIssue e s (decide (rd = 0) && decide (rs = 0)) fun d =>
    if d.rb Reg.DBG_CTL 1 then d.updSlot e s (fun x => { x.step id with dbg := .halted false }) else d.engineHalt e s 4

/-- Whether a 16-bit word is undefined or has a non-zero field that its instruction does not use (R383, R385 to R389). -/
def stnUndefined (w : BitVec 16) : Bool :=
  let n := w.toNat
  let rd := n / 256 % 16
  let rs := n / 16 % 16
  let fn := n % 16
  match n / 4096 with
  | 0x0 => decide (0xC < fn) || (decide (fn = 0xC) && decide (rd ≠ 0))
  | 0x7 => decide (rd = 0xF)
  | 0xA => decide (0xC < fn) || (decide (fn = 6 ∨ fn = 7) && decide (rd ≠ 0 ∨ rs ≠ 0)) || (decide (fn ≠ 0xC) && decide (rs ≠ 0))
  | 0xB => decide (3 < fn) || decide (rs ≠ 0)
  | 0xC => decide (3 < fn) || (decide (fn ≠ 3) && decide (rs ≠ 0))
  | 0xD => decide (2 < fn) || decide (rs ≠ 0) || (decide (fn = 1) && decide (rd ≠ 0))
  | 0xE => true
  | 0xF => decide (2 < fn) || decide (rd ≠ 0 ∨ rs ≠ 0)
  | _ => false

/-- An undefined word issues: the whole engine halts with cause 2 (R385). -/
def stnUndef (e s : Nat) (w : BitVec 16) (d : Dev) : Dev := d.stnIssue e s (!stnUndefined w) id

/-! Heartbeat and ring events (R394, R423). -/

/-- half_period of a pair (R56). -/
def Dev.halfPeriod (d : Dev) (k : Nat) : Nat := match d.ringEnt k with
  | some r => r.half
  | none => 200

/-- A half period ends: the pin toggles (R394, R419). -/
def heartbeatToggle (now k : Nat) (d : Dev) : Dev :=
  let h := d.hb k
  if d.hbToggling k && decide (h.next ≤ 4 * now) && d.rb Reg.GLB_CLK_STATUS 28 && d.tapFree && !d.ringLoops k then
    d.setHb k { h with level := !h.level, next := 4 * now + 5 * d.halfPeriod k }
  else d

/-- The arming lapses (R394): toggling stops and the pair is bypassed. -/
def heartbeatLapse (now k : Nat) (d : Dev) : Dev :=
  if d.hbArmed k && decide ((d.hb k).lapse ≤ 4 * now) then d.hbStop k false else d

/-- insert_delay µs have passed in the waiting state (R423): toggling begins. -/
def ringInsertDelayEnd (now k : Nat) (d : Dev) : Dev :=
  if d.hbArmed k && decide (d.ringState k = 1) && !d.ringLoops k &&
      decide ((d.hb k).since + 1000 * max 1 (d.rf (Reg.PRT_RING_W0 k) 31 16) ≤ now) then
    ((d.setHb k { d.hb k with since := now, next := 4 * now }).setRb (Reg.STN_HB k) 31 true).setRf (Reg.PRT_RING_W1 k) 1 0 2
  else d

/-- settle_us µs have passed in the settling state (R423): the pair is inserted. -/
def ringSettleEnd (now k : Nat) (d : Dev) : Dev :=
  if decide (d.ringState k = 2) && decide ((d.hb k).since + 1000 * d.rf (Reg.PRT_RING_W0 k) 15 0 ≤ now) then
    d.setRf (Reg.PRT_RING_W1 k) 1 0 3
  else d

/-- A slot that debug lets go on takes up what its wait has met meanwhile (R386, R552): symbols, room, a staged frame, or the
end of its txrun. -/
def Slot2.goOn (x : Slot2) (wide : Bool) (maxLen sec ns : Nat) : Slot2 :=
  if !x.free then x
  else match x.wait with
    | .tx rd => if x.txf.length < 64 then x.step (fun y => { y with txf := y.txf ++ [x.r rd] }) else x
    | .over rd v => x.step (fun y => y.setR rd v)
    | .txnext _ => x.takeStaged
    | _ => (x.wake wide maxLen).placeOverrun sec ns

/-! Starting and stopping an engine (R385, R393, R394, R397). -/

/-- A declared lane enters service when its engine runs (R51, R65, R393): its port is enabled and not held, and its
LINEPARAM entry is valid; an invalid one records STN_PARAM. An LVCMOS lane needs VDD_HIO (R574). -/
def Dev.laneStart (d : Dev) (l : Nat) : Dev :=
  let p := 80 + l
  match d.portEnt p with
  | none => d
  | some x =>
    let ok := match d.lineEnt p with
      | some y => lineParamOk x.code y
      | none => false
    if !ok then d.raise Src.stnParam p
    else if x.flags.testBit 0 && !d.prt.held.contains p && decide (d.stage ≠ 4) && d.pins.thermtripN && lanePowered l
        && !d.laneUp l then
      ((d.setRb (Reg.STN_LANE_W0 l) 31 true).setRx l RxLine.reset).setTx l TxLine.reset
    else d

/-- The counters of a lane are cleared when run is written from 0 to 1 (R397). -/
def Dev.laneClear (d : Dev) (l : Nat) : Dev :=
  [Reg.STN_LANE_W1 l, Reg.STN_LANE_W2 l, Reg.STN_LANE_W3 l, Reg.STN_LANE_W4 l, Reg.STN_LANE_W5 l].foldl
    (fun d o => d.setReg o 0) d

/-- The entry of a slot (R397). -/
def Dev.slotEntry (d : Dev) (e s : Nat) : Nat :=
  fld (d.reg (if s < 2 then Reg.STN_ENG_W1 e else Reg.STN_ENG_W2 e)) (16 * (s % 2) + 11) (16 * (s % 2))

/-- An engine whose run bit is 1 starts (R397): each used slot at its entry, waiting for nothing. While STN_CTL.enable is 0 the
engine stays stopped. -/
def Dev.engineStart (d : Dev) (e : Nat) : Dev :=
  if !d.rb Reg.STN_CTL 0 then d
  else
    let used := d.rf (Reg.STN_ENG_W3 e) 23 20
    let d := d.setReg (Reg.STN_ENG_W3 e) (wd (2 ^ 30 + used * 2 ^ 20))
    let d := (List.range 4).foldl (fun d s => if used.testBit s then
      d.updSlot e s (fun x => { x with pc := BitVec.ofNat 12 (d.slotEntry e s), wait := .none, ld := none, frame := none,
                                        stamp := none }) else d) d
    let d := (d.engineLanes e).foldl (fun d l => d.laneStart l) d
    match d.enginePair e with
    | some k => d.setHb k { d.hb k with stopped := false }
    | none => d

/-- run is written 1 (R397): from 0, its lanes' counters are cleared and the engine starts. -/
def stnEngRun (e : Nat) (d : Dev) : Dev :=
  if d.rb (Reg.STN_ENG_W0 e) 31 then d
  else
    let d := d.setRb (Reg.STN_ENG_W0 e) 31 true
    ((d.engineLanes e).foldl (fun d l => d.laneClear l) d).engineStart e

/-- An engine is stopped (R397, R508): open frames are discarded and its lanes are held down; `software` says that its run
bit was cleared (R421). -/
def Dev.engineOff (d : Dev) (e : Nat) (software : Bool) : Dev :=
  let ran := d.rb (Reg.STN_ENG_W3 e) 30
  let d := (List.range 4).foldl (fun d i => d.updSlot e i (fun x => { x with wait := .none, frame := none, driver := false })) d
  let d := (d.engineLanes e).foldl (fun d l => d.setRb (Reg.STN_LANE_W0 l) 31 false) d
  let d := match d.enginePair e with
    | some k => d.hbStop k software
    | none => d
  if ran then (d.setRf (Reg.STN_ENG_W3 e) 31 30 0).setRf (Reg.STN_ENG_W3 e) 27 24 5 else d

/-- run is written 0 (R397, R508). -/
def stnEngStop (e : Nat) (d : Dev) : Dev := (d.setRb (Reg.STN_ENG_W0 e) 31 false).engineOff e true

end Sys2Proof.Machine
end

