-- ==== Sys2Proof/Syntax.lean ====
section
/-!
DEFINITION. The commands of the block: one constructor for each row of the opcode table, with its operands. A thread is
numbered 0 to 1535 (cluster × 64 + core × 8 + slot) or 1536 + k for Atelier core k; the other numbers are those the spec
gives its units. Unused instruction fields are operands too, since a non-zero one has an effect (R77).
-/

namespace Sys2Proof

/-- The commands (spec/opcode_table.json). -/
inductive Instr where
  /-- RESET_N_RELEASE (R566). -/
  | resetNRelease (boot : Nat)
  /-- PRIMER_BOOT (R498). -/
  | primerBoot (img0 : List Byte) (img1 : List Byte) (prf0 : List Byte × Bool) (prf1 : List Byte × Bool)
  /-- HOST_BOOT_DMA_DONE (R495). -/
  | hostBootDmaDone (data : Option (List Byte × List Byte))
  /-- PCIE_PERST_N_RELEASE (R570). -/
  | pciePerstNRelease (link : PcieLink)
  /-- HOST_LINK_LOSS (R485). -/
  | hostLinkLoss (why : LinkLoss)
  /-- FRAME_RECEIVE (R21). -/
  | frameReceive (p : Nat) (frame : List Byte)
  /-- SIGNAL_DETECT (R401). -/
  | signalDetect (l : Nat)
  /-- LINK_TRAINING_DONE (R401). -/
  | linkTrainingDone (p : Nat)
  /-- PORT_UP (R401). -/
  | portUp (p : Nat)
  /-- PORT_BRINGUP_TIMEOUT (R64). -/
  | portBringupTimeout (p : Nat)
  /-- PORT_LINK_DOWN (R401). -/
  | portLinkDown (p : Nat) (why : LinkWhy)
  /-- TRANSMIT_FRAME (R406). -/
  | transmitFrame (p : Nat)
  /-- TRANSMIT_DONE (R314). -/
  | transmitDone (p : Nat)
  /-- TIME_SET (R413). -/
  | timeSet (r : Req)
  /-- RECIRCULATION_REENTRY (R202). -/
  | recirculationReentry (port : Nat)
  /-- PARSER_BANK_SWITCH (R212). -/
  | parserBankSwitch (bank : Nat)
  /-- EASEL_SELECT (R135). -/
  | easelSelect (cl : Nat)
  /-- PREEMPT_SAVE (R143). -/
  | preemptSave (t : Nat)
  /-- ALU_OP (R86). -/
  | aluOp (t : Nat) (f : RFmt)
  /-- MULTIPLY (R95). -/
  | multiply (t : Nat) (f : RFmt)
  /-- DIVIDE (R93). -/
  | divide (t : Nat) (f : RFmt)
  /-- ADDI (R85). -/
  | addi (t : Nat) (f : IFmt)
  /-- ANDI (R85). -/
  | andi (t : Nat) (f : IFmt)
  /-- ORI (R85). -/
  | ori (t : Nat) (f : IFmt)
  /-- XORI (R85). -/
  | xori (t : Nat) (f : IFmt)
  /-- SHIFTI (R85). -/
  | shifti (t : Nat) (f : IFmt)
  /-- CMPI (R85). -/
  | cmpi (t : Nat) (f : IFmt)
  /-- ADDIS (R85). -/
  | addis (t : Nat) (f : IFmt)
  /-- LUI (R85). -/
  | lui (t : Nat) (rd : BitVec 5) (imm : BitVec 20)
  /-- BCC (R88). -/
  | bcc (t : Nat) (b24 : Bool) (cond : BitVec 4) (off : BitVec 20) (slot : Word)
  /-- CALL (R96). -/
  | call (t : Nat) (off : BitVec 25) (slot : Word)
  /-- JR (R96). -/
  | jr (t : Nat) (f : R3) (slot : Word)
  /-- CALLR (R96). -/
  | callr (t : Nat) (f : R3) (slot : Word)
  /-- ERET (R114). -/
  | eret (t : Nat) (low : BitVec 25) (slot : Word)
  /-- SYS (R85). -/
  | sys (t : Nat) (f : IFmt)
  /-- BKPT (R112). -/
  | bkpt (t : Nat) (low : BitVec 25)
  /-- LDW (R105). -/
  | ldw (t : Nat) (f : IFmt)
  /-- LDH (R85). -/
  | ldh (t : Nat) (f : IFmt)
  /-- LDHU (R85). -/
  | ldhu (t : Nat) (f : IFmt)
  /-- LDB (R85). -/
  | ldb (t : Nat) (f : IFmt)
  /-- LDBU (R85). -/
  | ldbu (t : Nat) (f : IFmt)
  /-- STW (R105). -/
  | stw (t : Nat) (f : IFmt)
  /-- STH (R85). -/
  | sth (t : Nat) (f : IFmt)
  /-- STB (R85). -/
  | stb (t : Nat) (f : IFmt)
  /-- LDW_POSTINC (R85). -/
  | ldwPostinc (t : Nat) (f : IFmt)
  /-- STW_POSTINC (R85). -/
  | stwPostinc (t : Nat) (f : IFmt)
  /-- LKACQ (R359). -/
  | lkacq (t : Nat) (f : RFmt)
  /-- LKREL (R360). -/
  | lkrel (t : Nat) (f : RFmt)
  /-- SYNC (R102). -/
  | sync (t : Nat) (f : R3)
  /-- DINVL (R102). -/
  | dinvl (t : Nat) (f : R3)
  /-- DINVA (R102). -/
  | dinva (t : Nat) (f : R3)
  /-- IINVL (R102). -/
  | iinvl (t : Nat) (f : R3)
  /-- IINVA (R102). -/
  | iinva (t : Nat) (f : R3)
  /-- L2INVL (R102). -/
  | l2invl (t : Nat) (f : R3)
  /-- L2CLNL (R102). -/
  | l2clnl (t : Nat) (f : R3)
  /-- L2FLUSH (R102). -/
  | l2flush (t : Nat) (f : R3)
  /-- THSET (R109). -/
  | thset (t : Nat) (f : RFmt)
  /-- THGET (R109). -/
  | thget (t : Nat) (f : RFmt)
  /-- THGO (R109). -/
  | thgo (t : Nat) (f : RFmt)
  /-- WT (R110). -/
  | wt (t : Nat) (f : RFmt)
  /-- MFS (R82). -/
  | mfs (t : Nat) (f : RFmt)
  /-- MTS (R82). -/
  | mts (t : Nat) (f : RFmt)
  /-- TCONT (R127). -/
  | tcont (t : Nat) (f : RFmt)
  /-- VCOMMIT (R159). -/
  | vcommit (t : Nat) (low : BitVec 25)
  /-- VABORT (R168). -/
  | vabort (t : Nat) (low : BitVec 25)
  /-- TEND (R148). -/
  | tend (t : Nat) (low : BitVec 25)
  /-- TLBINV_ALL (R122). -/
  | tlbinvAll (t : Nat) (f : R3)
  /-- TLBINV_PAGE (R122). -/
  | tlbinvPage (t : Nat) (f : R3)
  /-- TLBINV_ASID (R122). -/
  | tlbinvAsid (t : Nat) (f : R3)
  /-- TLBINV_PAGE_ASID (R122). -/
  | tlbinvPageAsid (t : Nat) (f : R3)
  /-- SHORT_PAIR (R80). -/
  | shortPair (t : Nat) (pair : BitVec 31)
  /-- REP (R99). -/
  | rep (t : Nat) (pair : BitVec 31) (next : Word)
  /-- ACCESS_CHECK_COMPLETE (R219). -/
  | accessCheckComplete (t : Nat)
  /-- LOAD_DATA_RETURN (R73). -/
  | loadDataReturn (t : Nat)
  /-- ICACHE_FILL_DONE (R74). -/
  | icacheFillDone (t : Nat)
  /-- ATELIER_INTERRUPT (R123). -/
  | atelierInterrupt (k : Nat) (line : Nat)
  /-- WAIT_DEADLINE (R110). -/
  | waitDeadline (t : Nat)
  /-- EDPUSH (R207). -/
  | edpush (t : Nat) (f : R3)
  /-- EDPOP (R207). -/
  | edpop (t : Nat) (f : R3)
  /-- EDRW (R207). -/
  | edrw (t : Nat) (f : R3)
  /-- LKUP (R225). -/
  | lkup (t : Nat) (f : R3)
  /-- LKUPL (R270). -/
  | lkupl (t : Nat) (f : R3)
  /-- HCRC (R227). -/
  | hcrc (t : Nat) (f : R3)
  /-- HTPZ (R227). -/
  | htpz (t : Nat) (f : R3)
  /-- HSUM (R227). -/
  | hsum (t : Nat) (f : R3)
  /-- HSUPD (R227). -/
  | hsupd (t : Nat) (f : R3)
  /-- MTR (R228). -/
  | mtr (t : Nat) (f : R3)
  /-- CNT (R228). -/
  | cnt (t : Nat) (f : R3)
  /-- CENC (R230). -/
  | cenc (t : Nat) (f : R3)
  /-- CDEC (R230). -/
  | cdec (t : Nat) (f : R3)
  /-- ENQ (R232). -/
  | enq (t : Nat) (f : R3)
  /-- PSHARE (R312). -/
  | pshare (t : Nat) (f : R3)
  /-- PDROP (R312). -/
  | pdrop (t : Nat) (f : R3)
  /-- PFREE (R312). -/
  | pfree (t : Nat) (f : R3)
  /-- PSWAP (R312). -/
  | pswap (t : Nat) (f : R3)
  /-- MOPEN (R234). -/
  | mopen (t : Nat) (f : R3)
  /-- MPUT (R234). -/
  | mput (t : Nat) (f : R3)
  /-- MCLOSE (R234). -/
  | mclose (t : Nat) (f : R3)
  /-- MRECV (R235). -/
  | mrecv (t : Nat) (f : R3)
  /-- MPOST (R236). -/
  | mpost (t : Nat) (f : R3)
  /-- BSAVE (R223). -/
  | bsave (t : Nat) (brush : Nat) (f : R3)
  /-- BREST (R223). -/
  | brest (t : Nat) (brush : Nat) (f : R3)
  /-- LOOKUP_ENGINE_SEARCH (R246). -/
  | lookupEngineSearch (e : Nat)
  /-- LEARN_START (R272). -/
  | learnStart (id : Nat)
  /-- LEARN_APPLY (R273). -/
  | learnApply (n : Nat)
  /-- AGE_VISIT (R276). -/
  | ageVisit (id : Nat)
  /-- FLUSH_WALK_VISIT (R284). -/
  | flushWalkVisit (id : Nat)
  /-- FWD_TBL_ENABLE (R250). -/
  | fwdTblEnable (r : Req) (id : Nat) (v : Word)
  /-- FWD_TBL_DISABLE (R251). -/
  | fwdTblDisable (id : Nat) (v : Word)
  /-- TABLE_INIT_DONE (R250). -/
  | tableInitDone (id : Nat)
  /-- SEARCH (R281). -/
  | search (g : Nat) (x : Dma)
  /-- NEXT (R282). -/
  | next (g : Nat) (x : Dma)
  /-- INSERT (R279). -/
  | insert (g : Nat) (x : Dma)
  /-- MODIFY (R279). -/
  | modify (g : Nat) (x : Dma)
  /-- DELETE (R279). -/
  | delete (g : Nat) (x : Dma)
  /-- FLUSH_PORT (R284). -/
  | flushPort (g : Nat) (x : Dma)
  /-- ACT_WRITE (R267). -/
  | actWrite (g : Nat) (x : Dma)
  /-- TXN (R184). -/
  | txn (g : Nat) (x : Dma)
  /-- PORT_REARM (R65). -/
  | portRearm (g : Nat)
  /-- PROFILE_STAGE (R69). -/
  | profileStage (g : Nat) (x : Dma) (flash : List Byte)
  /-- PROFILE_APPLY (R70). -/
  | profileApply (g : Nat)
  /-- MSG_SEND (R233). -/
  | msgSend (g : Nat) (x : Dma)
  /-- TASK_POST (R478). -/
  | taskPost (g : Nat) (x : Dma)
  /-- QUOTE (R505). -/
  | quote (g : Nat) (x : Dma)
  /-- NOP (R478). -/
  | nop (g : Nat)
  /-- COMMIT_REQUEST (R163). -/
  | commitRequest (key : Nat)
  /-- VARNISH_COMMIT (R161). -/
  | varnishCommit (key : Nat)
  /-- TM_HANDOFF (R322). -/
  | tmHandoff (key : Nat)
  /-- ABORT_AT_EASEL (R149). -/
  | abortAtEasel (key : Nat)
  /-- TIMING_EVENT (R527). -/
  | timingEvent (cl : Nat) (core : Nat) (threads : BitVec 8) (ended : List Nat)
  /-- PAL_POOL_COUNT_WRITE (R316). -/
  | palPoolCountWrite (r : Req) (p : Nat) (v : Word)
  /-- TM_DEQUEUE (R330). -/
  | tmDequeue (p : Nat)
  /-- GATE_ENTRY_CHANGE (R340). -/
  | gateEntryChange (p : Nat)
  /-- GATE_SCHEDULE_SWITCH (R341). -/
  | gateScheduleSwitch (p : Nat)
  /-- SEMAPHORE_ACQUIRE (R369). -/
  | semaphoreAcquire (t : Nat) (sem : Nat)
  /-- SEMAPHORE_STATUS (R369). -/
  | semaphoreStatus (t : Nat) (sem : Nat)
  /-- LOCK_PROBE (R371). -/
  | lockProbe (hi : Word)
  /-- SYMBOL_RECEIVE (R379). -/
  | symbolReceive (l : Nat) (cs : List Cell)
  /-- SYMBOL_TRANSMIT (R381). -/
  | symbolTransmit (l : Nat)
  /-- STN_ALU (R383). -/
  | stnAlu (e : Nat) (j : Nat) (f : SFmt)
  /-- STN_JR (R383). -/
  | stnJr (e : Nat) (j : Nat) (rd : BitVec 4) (rs : BitVec 4)
  /-- STN_ADDI (R383). -/
  | stnAddi (e : Nat) (j : Nat) (rd : BitVec 4) (imm : BitVec 8)
  /-- STN_MOVI (R383). -/
  | stnMovi (e : Nat) (j : Nat) (rd : BitVec 4) (imm : BitVec 8)
  /-- STN_MOVH (R383). -/
  | stnMovh (e : Nat) (j : Nat) (rd : BitVec 4) (imm : BitVec 8)
  /-- STN_CMPI (R383). -/
  | stnCmpi (e : Nat) (j : Nat) (rd : BitVec 4) (imm : BitVec 8)
  /-- STN_LD (R384). -/
  | stnLd (e : Nat) (j : Nat) (f : SFmt)
  /-- STN_ST (R383). -/
  | stnSt (e : Nat) (j : Nat) (f : SFmt)
  /-- STN_BCC (R383). -/
  | stnBcc (e : Nat) (j : Nat) (cond : BitVec 4) (off : BitVec 8)
  /-- STN_JMP (R383). -/
  | stnJmp (e : Nat) (j : Nat) (off : BitVec 12)
  /-- STN_CALL (R383). -/
  | stnCall (e : Nat) (j : Nat) (off : BitVec 12)
  /-- RX (R386). -/
  | rx (e : Nat) (j : Nat) (rd : BitVec 4) (rs : BitVec 4)
  /-- TX (R386). -/
  | tx (e : Nat) (j : Nat) (rd : BitVec 4) (rs : BitVec 4)
  /-- RXRUN (R386). -/
  | rxrun (e : Nat) (j : Nat) (rd : BitVec 4) (rs : BitVec 4)
  /-- TXRUN (R386). -/
  | txrun (e : Nat) (j : Nat) (rd : BitVec 4) (rs : BitVec 4)
  /-- FPUT (R386). -/
  | fput (e : Nat) (j : Nat) (rd : BitVec 4) (rs : BitVec 4)
  /-- FEND (R390). -/
  | fend (e : Nat) (j : Nat) (rd : BitVec 4) (rs : BitVec 4)
  /-- FDROP (R386). -/
  | fdrop (e : Nat) (j : Nat) (rd : BitVec 4) (rs : BitVec 4)
  /-- FOPEN (R386). -/
  | fopen (e : Nat) (j : Nat) (rd : BitVec 4) (rs : BitVec 4)
  /-- TXNEXT (R391). -/
  | txnext (e : Nat) (j : Nat) (rd : BitVec 4) (rs : BitVec 4)
  /-- TXGET (R386). -/
  | txget (e : Nat) (j : Nat) (rd : BitVec 4) (rs : BitVec 4)
  /-- DRIVE (R386). -/
  | drive (e : Nat) (j : Nat) (rd : BitVec 4) (rs : BitVec 4)
  /-- TXUSR (R386). -/
  | txusr (e : Nat) (j : Nat) (rd : BitVec 4) (rs : BitVec 4)
  /-- PAR (R386). -/
  | par (e : Nat) (j : Nat) (rd : BitVec 4) (rs : BitVec 4)
  /-- CINIT (R387). -/
  | cinit (e : Nat) (j : Nat) (rd : BitVec 4) (rs : BitVec 4)
  /-- CUPD (R387). -/
  | cupd (e : Nat) (j : Nat) (rd : BitVec 4) (rs : BitVec 4)
  /-- CRDL (R387). -/
  | crdl (e : Nat) (j : Nat) (rd : BitVec 4) (rs : BitVec 4)
  /-- CRDH (R387). -/
  | crdh (e : Nat) (j : Nat) (rd : BitVec 4) (rs : BitVec 4)
  /-- NOW (R388). -/
  | now (e : Nat) (j : Nat) (rd : BitVec 4) (rs : BitVec 4)
  /-- NOWH (R388). -/
  | nowh (e : Nat) (j : Nat) (rd : BitVec 4) (rs : BitVec 4)
  /-- WAITC (R388). -/
  | waitc (e : Nat) (j : Nat) (rd : BitVec 4) (rs : BitVec 4)
  /-- WAITT (R388). -/
  | waitt (e : Nat) (j : Nat) (rd : BitVec 4) (rs : BitVec 4)
  /-- PPS (R389). -/
  | pps (e : Nat) (j : Nat) (rd : BitVec 4) (rs : BitVec 4)
  /-- HBKICK (R394). -/
  | hbkick (e : Nat) (j : Nat) (rd : BitVec 4) (rs : BitVec 4)
  /-- HBSTAT (R389). -/
  | hbstat (e : Nat) (j : Nat) (rd : BitVec 4) (rs : BitVec 4)
  /-- STN_NOP (R383). -/
  | stnNop (e : Nat) (j : Nat) (rd : BitVec 4) (rs : BitVec 4)
  /-- STN_HALT (R385). -/
  | stnHalt (e : Nat) (j : Nat) (rd : BitVec 4) (rs : BitVec 4)
  /-- BRK (R555). -/
  | brk (e : Nat) (j : Nat) (rd : BitVec 4) (rs : BitVec 4)
  /-- STN_ENG_RUN (R397). -/
  | stnEngRun (e : Nat)
  /-- STN_ENG_STOP (R397). -/
  | stnEngStop (e : Nat)
  /-- DRAM_BRINGUP (R428). -/
  | dramBringup (r : Req)
  /-- DRAM_BRINGUP_DONE (R428). -/
  | dramBringupDone (spd : List Spd) (trained : BitVec 8)
  /-- DRAM_COMMAND_ISSUE (R436). -/
  | dramCommandIssue (ch : Nat) (sub : Nat)
  /-- DRAM_READ_RETURN (R432). -/
  | dramReadReturn (ch : Nat) (sub : Nat) (first : BurstRead) (again : BurstRead)
  /-- SCRUB_VISIT (R433). -/
  | scrubVisit (first : BurstRead) (again : BurstRead)
  /-- FREQ_CHANGE_GO (R439). -/
  | freqChangeGo (v : Word)
  /-- TRAINING_STEP (R441). -/
  | trainingStep (ch : Nat)
  /-- CHANNEL_RETIRE (R446). -/
  | channelRetire (r : Req) (ch : Nat)
  /-- CHANNEL_RETURN (R447). -/
  | channelReturn (r : Req) (ch : Nat)
  /-- MERGE_BUFFER_DRAIN (R451). -/
  | mergeBufferDrain (cl : Nat)
  /-- TABLE_CACHE_FILL (R450). -/
  | tableCacheFill (sl : Nat)
  /-- PRELOAD (R452). -/
  | preload (id : Nat)
  /-- KICK (R468). -/
  | kick (g : Nat) (acc : Bar4)
  /-- ATELIER_KICK (R466). -/
  | atelierKick (r : Req)
  /-- DOORBELL_READ_DONE (R468). -/
  | doorbellReadDone (g : Nat) (x : Dma)
  /-- DESCRIPTOR_FETCH_DONE (R470). -/
  | descriptorFetchDone (g : Nat) (ring : FetchRing) (x : Dma)
  /-- INJ_PACKET (R472). -/
  | injPacket (g : Nat) (xs : List Dma)
  /-- PUNT_PACKET (R474). -/
  | puntPacket (g : Nat) (err : Option DmaErr)
  /-- DOORBELL_WRITEBACK (R470). -/
  | doorbellWriteback (g : Nat)
  /-- GROUP_ENABLE (R488). -/
  | groupEnable (r : Req) (g : Nat) (v : Word)
  /-- GROUP_RESET (R486). -/
  | groupReset (r : Req) (g : Nat) (v : Word)
  /-- GROUP_RESET_DONE (R486). -/
  | groupResetDone (g : Nat)
  /-- BAR4_ACCESS (R461). -/
  | bar4Access (off : Nat) (acc : Bar4)
  /-- IDENTITY (R507). -/
  | identity (a : BitVec 7) (p : List Byte) (crc : Byte)
  /-- FAULT_READ (R544). -/
  | faultRead (a : BitVec 7) (p : List Byte) (crc : Byte)
  /-- FAULT_CLEAR (R544). -/
  | faultClear (a : BitVec 7) (p : List Byte) (crc : Byte)
  /-- POWER_STATE (R533). -/
  | powerState (a : BitVec 7) (p : List Byte) (crc : Byte)
  /-- POWER_SET (R533). -/
  | powerSet (a : BitVec 7) (p : List Byte) (crc : Byte)
  /-- RING_STATUS (R507). -/
  | ringStatus (a : BitVec 7) (p : List Byte) (crc : Byte)
  /-- SUBUNIT_RESET (R508). -/
  | subunitReset (a : BitVec 7) (p : List Byte) (crc : Byte)
  /-- QUOTE_START (R505). -/
  | quoteStart (a : BitVec 7) (p : List Byte) (crc : Byte)
  /-- QUOTE_READ (R505). -/
  | quoteRead (a : BitVec 7) (p : List Byte) (crc : Byte)
  /-- CERT_READ (R491). -/
  | certRead (a : BitVec 7) (p : List Byte) (crc : Byte)
  /-- REG_READ (R508). -/
  | regRead (a : BitVec 7) (p : List Byte) (crc : Byte)
  /-- ENTDAA (R506). -/
  | entdaa (a : BitVec 7)
  /-- ATL_CORE_START (R501). -/
  | atlCoreStart (r : Req) (mask : BitVec 3)
  /-- ATL_RUN_GO (R501). -/
  | atlRunGo (r : Req)
  /-- MEASUREMENT_EXTEND (R503). -/
  | measurementExtend (r : Req)
  /-- ATL_IPI (R502). -/
  | atlIpi (r : Req) (mask : BitVec 4)
  /-- CLUSTER_POINT_CHANGE (R523). -/
  | clusterPointChange (r : Req) (cl : Nat) (point : Nat)
  /-- POINT_CHANGE_DONE (R523). -/
  | pointChangeDone (cl : Nat)
  /-- CLUSTER_GATE (R524). -/
  | clusterGate (r : Req) (cl : Nat)
  /-- GATING_DONE (R524). -/
  | gatingDone (cl : Nat)
  /-- CLUSTER_WAKE (R524). -/
  | clusterWake (r : Req) (cl : Nat)
  /-- WAKE_DONE (R524). -/
  | wakeDone (cl : Nat)
  /-- NON_SPECULATIVE_CONFIRM (R529). -/
  | nonSpeculativeConfirm (cl : Nat)
  /-- ERROR_WINDOW_END (R530). -/
  | errorWindowEnd (cl : Nat)
  /-- THERMAL_THRESHOLD (R532). -/
  | thermalThreshold (sensor : Nat) (temp : Nat)
  /-- FAULT_REPORT (R542). -/
  | faultReport (src : Nat) (detail : Word)
  /-- DRAIN_TIMEOUT (R547). -/
  | drainTimeout (cl : Nat)
  /-- FAULT_INJECT (R550). -/
  | faultInject (src : Nat)
  /-- IST_OUT (R550). -/
  | istOut (kind : Nat) (n : Nat)
  /-- IST_BIST (R550). -/
  | istBist (kind : Nat) (n : Nat)
  /-- IST_RETURN (R550). -/
  | istReturn (kind : Nat) (n : Nat)
  /-- BIST_DONE (R550). -/
  | bistDone (pass : Bool) (array : Nat)
  /-- HALT_COMPLETE (R553). -/
  | haltComplete (t : Nat)
  /-- DEBUG_CONTEXT_WRITE (R554). -/
  | debugContextWrite (v : Word)
  /-- DBG_ACCESS (R556). -/
  | dbgAccess (off : Nat) (acc : RegAcc)
  /-- REG_PAIR_ACCESS (R12). -/
  | regPairAccess (r : Req) (size : Nat) (off : Nat) (acc : RegAcc)
  /-- REGISTER_WRITE (R48). -/
  | registerWrite (r : Req) (size : Nat) (off : Nat) (v : Word)
  /-- PCIE_COMPLETION_TIMEOUT (R487). -/
  | pcieCompletionTimeout (g : Nat) (use : DmaUse)
  /-- UNDEFINED_INSTRUCTION (R89). -/
  | undefinedInstruction (t : Nat) (w : Word)
  /-- STENCIL_UNDEFINED_INSTRUCTION (R385). -/
  | stencilUndefinedInstruction (e : Nat) (j : Nat) (w : BitVec 16)
  /-- VDD_IO_GOOD (R518). -/
  | vddIoGood
  /-- VDD_CORE_GOOD (R566). -/
  | vddCoreGood
  /-- VDD_IO_LOSS (R421). -/
  | vddIoLoss
  /-- RESET_N_ASSERT (R569). -/
  | resetNAssert
  /-- CACHE_INVALIDATION_DONE (R46). -/
  | cacheInvalidationDone
  /-- HOST_BOOT_GO (R495). -/
  | hostBootGo
  /-- PWRFAIL_ASSERT (R510). -/
  | pwrfailAssert
  /-- FIXATIVE_HEARTBEAT_STOP (R510). -/
  | fixativeHeartbeatStop
  /-- PWRFAIL_RELEASE (R512). -/
  | pwrfailRelease
  /-- THERMTRIP (R573). -/
  | thermtrip
  /-- FUNCTION_LEVEL_RESET (R462). -/
  | functionLevelReset
  /-- TCLK_PLL_LOCK (R412). -/
  | tclkPllLock
  /-- TIM_REF_LOSS (R426). -/
  | timRefLoss
  /-- REFCLK_SYS_LOSS (R578). -/
  | refclkSysLoss
  /-- TIME_PPS_OUT_RISE (R417). -/
  | timePpsOutRise
  /-- TIME_PPS_OUT_FALL (R417). -/
  | timePpsOutFall
  /-- TIME_PPS_IN_EDGE (R418). -/
  | timePpsInEdge
  /-- TIME_CAPTURE (R413). -/
  | timeCapture
  /-- TIME_STEP (R413). -/
  | timeStep
  /-- PARSE_PACKET (R195). -/
  | parsePacket
  /-- DISTRIBUTE_PACKET (R24). -/
  | distributePacket
  /-- LEARN_POST (R271). -/
  | learnPost
  /-- CONTROL_PLANE_APPLY (R186). -/
  | controlPlaneApply
  /-- CONTROL_PLANE_RELEASE (R184). -/
  | controlPlaneRelease
  /-- PROFILE_COMMIT (R71). -/
  | profileCommit
  /-- QUOTE_DONE (R505). -/
  | quoteDone
  /-- COMMIT_BUFFER_RETIRE (R161). -/
  | commitBufferRetire
  /-- IRREVOCABLE_GRANT (R173). -/
  | irrevocableGrant
  /-- VRN_HOLD_STALL (R189). -/
  | vrnHoldStall
  /-- IRREV_HEADER_CELL_GRANT (R310). -/
  | irrevHeaderCellGrant
  /-- SWATCH_PASS (R351). -/
  | swatchPass
  /-- TMG_OBJ_READ (R354). -/
  | tmgObjRead
  /-- TMG_OBJ_WRITE (R354). -/
  | tmgObjWrite
  /-- TMG_QUEUE_FLUSH (R326). -/
  | tmgQueueFlush
  /-- TMG_SCHEDULE_APPLY (R341). -/
  | tmgScheduleApply
  /-- MTR_READ (R355). -/
  | mtrRead
  /-- MTR_WRITE (R335). -/
  | mtrWrite
  /-- MTR_READ_CLEAR (R338). -/
  | mtrReadClear
  /-- LOCK_ACQUIRE (R359). -/
  | lockAcquire
  /-- LOCK_RELEASE (R360). -/
  | lockRelease
  /-- SEMAPHORE_RELEASE (R369). -/
  | semaphoreRelease
  /-- FREQ_SWITCH (R440). -/
  | freqSwitch
  /-- FREQ_SWITCH_DONE (R440). -/
  | freqSwitchDone
  /-- RANGE_INVALIDATE (R453). -/
  | rangeInvalidate
  /-- MERGE_SYNC (R451). -/
  | mergeSync
  /-- RSTDAA (R506). -/
  | rstdaa
  /-- ENEC (R506). -/
  | enec
  /-- DISEC (R506). -/
  | disec
  /-- GETPID (R506). -/
  | getpid
  /-- GETBCR (R506). -/
  | getbcr
  /-- GETDCR (R506). -/
  | getdcr
  /-- GETSTATUS (R506). -/
  | getstatus
  /-- GETMWL (R506). -/
  | getmwl
  /-- GETMRL (R506). -/
  | getmrl
  /-- VCORE_SLEW_DONE (R519). -/
  | vcoreSlewDone
  /-- THROTTLE_STEP (R532). -/
  | throttleStep
  /-- GZ_VCORE_OOR (R520). -/
  | gzVcoreOor
  /-- FAULT_N_PULSE_END (R545). -/
  | faultNPulseEnd
  /-- HALT_HOLD (R552). -/
  | haltHold
  /-- HALT_ABORT (R552). -/
  | haltAbort
  /-- RESUME (R552). -/
  | resume
  /-- STEP (R552). -/
  | step
  /-- KILL (R552). -/
  | kill
  /-- LANE_TEST_CLEAR (R551). -/
  | laneTestClear
  /-- JTAG_BYPASS (R556). -/
  | jtagBypass
  /-- JTAG_IDCODE (R556). -/
  | jtagIdcode
  /-- JTAG_CLAMP (R556). -/
  | jtagClamp
  /-- JTAG_HIGHZ (R556). -/
  | jtagHighz
  /-- JTAG_EXTEST_PULSE (R556). -/
  | jtagExtestPulse
  /-- JTAG_EXTEST_TRAIN (R556). -/
  | jtagExtestTrain
  /-- THERMTRIP_N_RELEASE (R573). -/
  | thermtripNRelease
  /-- IBI_ACCEPTED (R509). -/
  | ibiAccepted
  /-- PRS_SLICE_ISOLATE (R213). -/
  | prsSliceIsolate (r : Req) (v : BitVec 8)
  /-- COMPLETION_ARRIVAL (R130). -/
  | completionArrival (cl : Nat)
  /-- OLDEST_REPORT (R135). -/
  | oldestReport (cl : Nat)
  /-- ATELIER_TIMER (R502). -/
  | atelierTimer (k : Nat)
  /-- MRECV_DEADLINE (R235). -/
  | mrecvDeadline (cl : Nat) (token : Nat)
  /-- CANVAS_RESTORE_DONE (R171). -/
  | canvasRestoreDone (key : Nat) (bad : Bool)
  /-- GATED_PREFETCH_DONE (R345). -/
  | gatedPrefetchDone (p : Nat)
  /-- RECOVERY_TIMEOUT (R350). -/
  | recoveryTimeout (n : Nat)
  /-- LOCK_WAIT_TIMEOUT (R364). -/
  | lockWaitTimeout (t : Nat)
  /-- RXRUN_STOP (R386). -/
  | rxrunStop (e : Nat) (j : Nat)
  /-- TXRUN_DONE (R392). -/
  | txrunDone (e : Nat) (j : Nat)
  /-- TXNEXT_READY (R391). -/
  | txnextReady (e : Nat) (j : Nat)
  /-- WAITC_EXPIRY (R388). -/
  | waitcExpiry (e : Nat) (j : Nat)
  /-- WAITT_EXPIRY (R388). -/
  | waittExpiry (e : Nat) (j : Nat)
  /-- HEARTBEAT_TOGGLE (R394). -/
  | heartbeatToggle (hb : Nat)
  /-- HEARTBEAT_LAPSE (R394). -/
  | heartbeatLapse (hb : Nat)
  /-- RING_INSERT_DELAY_END (R423). -/
  | ringInsertDelayEnd (hb : Nat)
  /-- RING_SETTLE_END (R423). -/
  | ringSettleEnd (hb : Nat)
  /-- PERIODIC_RETRAIN (R442). -/
  | periodicRetrain (ch : Nat)
  /-- ZERO_FILL_DONE (R447). -/
  | zeroFillDone (ch : Nat)
  /-- REBUILD_DONE (R447). -/
  | rebuildDone (ch : Nat)
  /-- STALE_REFETCH_DONE (R453). -/
  | staleRefetchDone (sl : Nat)
  /-- POLL_TIMER (R469). -/
  | pollTimer (g : Nat)
  /-- MSIX_HOLDOFF_EXPIRY (R483). -/
  | msixHoldoffExpiry (g : Nat)
  /-- SETDASA (R506). -/
  | setdasa (static : BitVec 7) (a : BitVec 7)
  /-- SETMWL (R506). -/
  | setmwl (n : BitVec 16)
  /-- SETMRL (R506). -/
  | setmrl (n : BitVec 16)
  /-- RSTACT (R506). -/
  | rstact (a : BitVec 8)
  /-- GZ_PHASE_FAULT (R520). -/
  | gzPhaseFault (n : Nat)
  /-- GZ_LDO_FAULT (R539). -/
  | gzLdoFault (cl : Nat)
  /-- LANE_TEST_ENABLE (R551). -/
  | laneTestEnable (lane : Nat) (pattern : Nat)
  /-- JTAG_SAMPLE_PRELOAD (R556). -/
  | jtagSamplePreload (v : Boundary)
  /-- JTAG_EXTEST (R556). -/
  | jtagExtest (v : Boundary)
  /-- DDR_ALERT_N_ASSERTED (R459). -/
  | ddrAlertNAsserted (ch : Nat)
  /-- TRAINING_STEP_DONE (R441). -/
  | trainingStepDone (ch : Nat) (last : Bool) (ok : Bool)
  /-- ASSEMBLY_BUFFER_FREE (R390). -/
  | assemblyBufferFree (e : Nat) (j : Nat)
  deriving DecidableEq, Repr

end Sys2Proof
end

