-- ==== Sys2Proof/Decode.lean ====
section
/-!
DEFINITION. The commands that words spell. The opcode table gives no row any bits: the block has no encoding of its
commands, so no word of the table spells one. The words of the block's own processors have encodings: which command a Kroval
word (R75, R76, R85 to R87, R90, R102, R122, R216) or a Stencil instruction (R383, R386 to R389) stands for, with its fields
as operands.
-/

namespace Sys2Proof

/-- The command that a word spells by the table's bits: none, since the table gives no row bits. -/
def decodeTableWord (nbits w : Nat) : Option Instr :=
  match nbits, w with
  | _, _ => none

/-! Kroval words. -/

/-- The fields [hi:lo] of a word as an operand. -/
def field (w : Word) (hi lo n : Nat) : BitVec n := BitVec.ofNat n (Machine.fld w hi lo)

/-- The fields of a register-format word (R75). -/
def rFields (w : Word) : RFmt := ⟨field w 24 20 5, field w 19 15 5, field w 14 10 5, field w 9 0 10⟩
/-- Its register fields, where fn selects the command. -/
def r3Fields (w : Word) : R3 := ⟨field w 24 20 5, field w 19 15 5, field w 14 10 5⟩
/-- The fields of an immediate-format word (R75). -/
def iFields (w : Word) : IFmt := ⟨field w 24 20 5, field w 19 15 5, field w 14 0 15⟩
/-- The low 25 bits of a word. -/
def lowField (w : Word) : BitVec 25 := field w 24 0 25

/-- The command of a cache-group word (R102). -/
def cacheInstr (t : Nat) (w : Word) : Instr :=
  match Machine.fld w 9 0 with
  | 0 => .sync t (r3Fields w)
  | 1 => .dinvl t (r3Fields w)
  | 2 => .dinva t (r3Fields w)
  | 3 => .iinvl t (r3Fields w)
  | 4 => .iinva t (r3Fields w)
  | 5 => .l2invl t (r3Fields w)
  | 6 => .l2clnl t (r3Fields w)
  | _ => .l2flush t (r3Fields w)

/-- The command of a tlbinv word (R122). -/
def tlbinvInstr (t : Nat) (w : Word) : Instr :=
  match Machine.fld w 9 0 with
  | 0 => .tlbinvAll t (r3Fields w)
  | 1 => .tlbinvPage t (r3Fields w)
  | 2 => .tlbinvAsid t (r3Fields w)
  | _ => .tlbinvPageAsid t (r3Fields w)

/-- The command of a brush word (R216): the brush is op[2:0]. -/
def brushInstr (t : Nat) (w : Word) : Instr :=
  let b := Machine.major w - 0x38
  let f := r3Fields w
  match Machine.fld w 9 0 with
  | 0x3FE => .bsave t b f
  | 0x3FF => .brest t b f
  | fn => match b, fn with
    | 0, 0 => .edpush t f
    | 0, 1 => .edpop t f
    | 0, _ => .edrw t f
    | 1, 0 => .lkup t f
    | 1, _ => .lkupl t f
    | 2, 0 => .hcrc t f
    | 2, 1 => .htpz t f
    | 2, 2 => .hsum t f
    | 2, _ => .hsupd t f
    | 3, 0 => .mtr t f
    | 3, _ => .cnt t f
    | 4, 0 => .cenc t f
    | 4, _ => .cdec t f
    | 5, 0 => .enq t f
    | 5, 0x10 => .pshare t f
    | 5, 0x11 => .pdrop t f
    | 5, 0x12 => .pfree t f
    | 5, _ => .pswap t f
    | _, 0 => .mopen t f
    | _, 1 => .mput t f
    | _, 2 => .mclose t f
    | _, 3 => .mrecv t f
    | _, _ => .mpost t f

/-- The command that a Kroval word stands for on a thread (R75, R85); `next` is the word after it, which a branch takes as its
delay slot (R96) and rep repeats (R99). -/
def krovalInstr (t : Nat) (w next : Word) : Instr :=
  if Machine.isPair w then
    (if Machine.hasRep w then .rep t (field w 30 0 31) next else .shortPair t (field w 30 0 31))
  else if (Machine.undefinedCause w).isSome then .undefinedInstruction t w
  else
    let r := rFields w
    let i := iFields w
    match Machine.major w with
    | 0x00 => .aluOp t r
    | 0x01 => if Machine.fld w 2 0 < 4 then .multiply t r else .divide t r
    | 0x08 => .addi t i
    | 0x09 => .andi t i
    | 0x0A => .ori t i
    | 0x0B => .xori t i
    | 0x0C => .shifti t i
    | 0x0D => .cmpi t i
    | 0x0E => .addis t i
    | 0x0F => .lui t (field w 24 20 5) (field w 19 0 20)
    | 0x10 => .bcc t (Machine.bit w 24) (field w 23 20 4) (field w 19 0 20) next
    | 0x11 => .call t (lowField w) next
    | 0x12 => if Machine.fld w 9 0 = 0 then .jr t (r3Fields w) next else .callr t (r3Fields w) next
    | 0x13 => .eret t (lowField w) next
    | 0x14 => .sys t i
    | 0x15 => .bkpt t (lowField w)
    | 0x18 => .ldw t i
    | 0x19 => .ldh t i
    | 0x1A => .ldhu t i
    | 0x1B => .ldb t i
    | 0x1C => .ldbu t i
    | 0x1D => .stw t i
    | 0x1E => .sth t i
    | 0x1F => .stb t i
    | 0x20 => .lkacq t r
    | 0x21 => .lkrel t r
    | 0x22 => cacheInstr t w
    | 0x24 => .ldwPostinc t i
    | 0x25 => .stwPostinc t i
    | 0x28 => .thset t r
    | 0x29 => .thget t r
    | 0x2A => .thgo t r
    | 0x2B => .wt t r
    | 0x2C => .mfs t r
    | 0x2D => .mts t r
    | 0x30 => .tcont t r
    | 0x31 => .vcommit t (lowField w)
    | 0x32 => .vabort t (lowField w)
    | 0x33 => .tend t (lowField w)
    | 0x36 => tlbinvInstr t w
    | _ => brushInstr t w

/-! Stencil instructions. -/

/-- The command of a line-group instruction (R386). -/
def lineInstr (e j : Nat) (rd rs fn : BitVec 4) : Instr :=
  match fn.toNat with
  | 0x0 => .rx e j rd rs
  | 0x1 => .tx e j rd rs
  | 0x2 => .rxrun e j rd rs
  | 0x3 => .txrun e j rd rs
  | 0x4 => .fput e j rd rs
  | 0x5 => .fend e j rd rs
  | 0x6 => .fdrop e j rd rs
  | 0x7 => .fopen e j rd rs
  | 0x8 => .txnext e j rd rs
  | 0x9 => .txget e j rd rs
  | 0xA => .drive e j rd rs
  | 0xB => .txusr e j rd rs
  | _ => .par e j rd rs

/-- The command that a Stencil instruction stands for in a slot of an engine (R383, R386 to R389). -/
def stencilInstr (e j : Nat) (w : BitVec 16) : Instr :=
  let rd : BitVec 4 := BitVec.ofNat 4 (w.toNat / 256)
  let rs : BitVec 4 := BitVec.ofNat 4 (w.toNat / 16)
  let fn : BitVec 4 := BitVec.ofNat 4 w.toNat
  let imm : BitVec 8 := BitVec.ofNat 8 w.toNat
  let off : BitVec 12 := BitVec.ofNat 12 w.toNat
  if Machine.stnUndefined w then .stencilUndefinedInstruction e j w
  else match w.toNat / 4096, fn.toNat with
    | 0x0, 0xC => .stnJr e j rd rs
    | 0x0, _ => .stnAlu e j ⟨rd, rs, fn⟩
    | 0x1, _ => .stnAddi e j rd imm
    | 0x2, _ => .stnMovi e j rd imm
    | 0x3, _ => .stnMovh e j rd imm
    | 0x4, _ => .stnCmpi e j rd imm
    | 0x5, _ => .stnLd e j ⟨rd, rs, fn⟩
    | 0x6, _ => .stnSt e j ⟨rd, rs, fn⟩
    | 0x7, _ => .stnBcc e j rd imm
    | 0x8, _ => .stnJmp e j off
    | 0x9, _ => .stnCall e j off
    | 0xA, _ => lineInstr e j rd rs fn
    | 0xB, 0 => .cinit e j rd rs
    | 0xB, 1 => .cupd e j rd rs
    | 0xB, 2 => .crdl e j rd rs
    | 0xB, _ => .crdh e j rd rs
    | 0xC, 0 => .now e j rd rs
    | 0xC, 1 => .nowh e j rd rs
    | 0xC, 2 => .waitc e j rd rs
    | 0xC, _ => .waitt e j rd rs
    | 0xD, 0 => .pps e j rd rs
    | 0xD, 1 => .hbkick e j rd rs
    | 0xD, _ => .hbstat e j rd rs
    | _, 0 => .stnNop e j rd rs
    | _, 1 => .stnHalt e j rd rs
    | _, _ => .brk e j rd rs

end Sys2Proof
end

