-- ==== Sys2Proof/Machine/Ports.lean ====
section
/-!
DEFINITION. The fabric and slot ports (R399 to R411, R414 to R416): bring-up, the MAC, the Unnova header, IEEE 1588
timestamps and one-step Sync.
-/

namespace Sys2Proof.Machine

/-! States of a port (R401, R424). -/

/-- PRT_PORT[p].state. -/
def Dev.prtState (d : Dev) (p : Nat) : Nat := d.rf (Reg.PRT_PORT_W2 p) 31 28
/-- The kind a port is declared with. -/
def Dev.prtKind (d : Dev) (p : Nat) : Nat := d.rf (Reg.PRT_PORT_W2 p) 23 16
/-- The lanes of a port. -/
def Dev.prtLanes (d : Dev) (p : Nat) : List Nat := (List.range (d.rf (Reg.PRT_PORT_W2 p) 2 0)).map (p + ·)
/-- The port that a fabric or slot lane belongs to. -/
def Dev.lanePort (d : Dev) (l : Nat) : Option Nat :=
  findNat (fun i => decide (l < 4 * (l / 4) + i + d.rf (Reg.PRT_PORT_W2 (4 * (l / 4) + i)) 2 0)
    && decide (4 * (l / 4) + i ≤ l)) 0 4 |>.map (4 * (l / 4) + ·)

/-- A LINK event to the port's group, while evt_mask bit 1 is set (R424). -/
def Dev.linkEvent (d : Dev) (now p state cause : Nat) : Dev :=
  if d.rb (Reg.PRT_PORT_W0 p) 21 then
    d.postEvt (d.rf (Reg.PRT_PORT_W0 p) 27 24)
      (leBytes 1 0x31 ++ leBytes 1 p ++ leBytes 1 state ++ leBytes 1 cause ++ zeros 12 ++ leBytes 8 now)
  else d

/-- A port enters a state: leaving state 4 is counted and records PORT_LINK_DOWN (R424, R426). -/
def Dev.setPrtState (d : Dev) (p st : Nat) : Dev :=
  let was := d.prtState p
  let d := d.setRf (Reg.PRT_PORT_W2 p) 31 28 st
  if was = 4 ∧ st ≠ 4 then
    (d.setRf (Reg.PRT_PORT_W3 p) 15 0 (min (d.rf (Reg.PRT_PORT_W3 p) 15 0 + 1) 0xFFFF)).raise Src.portLinkDown p
  else d

/-- Whether a port is held down as a disagreement (R65). -/
def Dev.portHeld (d : Dev) (p : Nat) : Bool := d.prt.held.contains p

/-- The device with a port no longer held. -/
def Dev.unhold (d : Dev) (p : Nat) : Dev :=
  { d with prt := { d.prt with held := d.prt.held.filter (fun q => decide (q ≠ p)) } }

/-- Whether a port is declared and enabled (R55). -/
def Dev.portEnabled (d : Dev) (p : Nat) : Bool := match d.portEnt p with
  | some e => e.flags.testBit 0
  | none => false

/-- Whether a lane of a port is in a lane test (R551). -/
def Dev.laneTested (d : Dev) (p : Nat) : Bool :=
  d.rb Reg.DBG_LANE_TEST 31 && (d.prtLanes p).contains (d.rf Reg.DBG_LANE_TEST 6 0)

/-- Whether a port may be brought up (R51, R55, R65, R424): enabled by its entry and PRT_CTL, not held as a disagreement, by
software, by a severity-5 stop or THERMTRIP_N (R573), and not in a lane test (R551). -/
def Dev.mayBringUp (d : Dev) (p : Nat) : Bool :=
  d.portEnabled p && !d.portHeld p && d.rb Reg.PRT_CTL 0 && !d.rb (Reg.PRT_PORT_W0 p) 31 && decide (d.stage < 4) &&
    d.pins.thermtripN && !d.laneTested p

/-- Until when a port receives local and remote fault (R401). -/
def Dev.faultEnds (d : Dev) (p : Nat) : Nat × Nat := tget (0, 0) d.prt.faults p

/-- The 1 ms of alignment without fault begins now, or when the faults that the port receives end (R401). -/
def Dev.alignFrom (d : Dev) (now p : Nat) : Dev :=
  let f := d.faultEnds p
  { d with prt := { d.prt with align_ := tset 0 d.prt.align_ p (max now (max f.1 f.2)) } }

/-- What a declared port does when nothing of it runs (R424): 0 not enabled; 6 held by software; 5 held as a disagreement or
for a lane test (R551); 0 while PRT_CTL.enable, a severity-5 stop or THERMTRIP_N holds every lane; else 1. -/
def Dev.prtRest (d : Dev) (p : Nat) : Nat :=
  if !d.portEnabled p then 0
  else if d.rb (Reg.PRT_PORT_W0 p) 31 then 6
  else if d.portHeld p || d.laneTested p then 5
  else if d.mayBringUp p then 1
  else 0

/-- The declared bring-up of a port (R401): it waits for a signal on every lane, then trains (fabric) or aligns. -/
def Dev.bringUp (d : Dev) (now p : Nat) : Dev :=
  if d.mayBringUp p then
    if (d.prtLanes p).all (fun l => d.rb (Reg.PRT_LANE_W1 l) 31) then
      let d := { d with prt := { d.prt with detect := tset 0 d.prt.detect p now } }.alignFrom now p
      d.setPrtState p (if p < 32 then 2 else 3)
    else d.setPrtState p 1
  else d

/-- Signal is detected on a lane (R401): its port's bring-up begins when every lane has one. -/
def signalDetect (now l : Nat) (d : Dev) : Dev :=
  let d := d.setRb (Reg.PRT_LANE_W1 l) 31 true
  match d.lanePort l with
  | some p => if d.prtState p = 1 then d.bringUp now p else d
  | none => d

/-- Fabric link training completes (R401): alignment begins. -/
def linkTrainingDone (now p : Nat) (d : Dev) : Dev :=
  if d.prtState p = 2 then
    let d := (d.prtLanes p).foldl (fun d l => (d.setRb (Reg.PRT_LANE_W1 l) 30 true).setRb (Reg.PRT_LANE_W1 l) 29 true) d
    (d.alignFrom now p).setPrtState p 3
  else d

/-- Alignment has held without fault for 1 ms (R401): the port is up. -/
def portUpEvent (now p : Nat) (d : Dev) : Dev :=
  if d.prtState p = 3 ∧ tget 0 d.prt.align_ p + 1000000 ≤ now then
    let d := (d.prtLanes p).foldl (fun d l => d.setRb (Reg.PRT_LANE_W1 l) 30 true) d
    (d.setPrtState p 4).linkEvent now p 4 (Config.linkUpCause % 256)
  else d

/-- A port is held down as a disagreement (R64, R65). -/
def Dev.holdPort (d : Dev) (now p : Nat) : Dev :=
  let d := { d with prt := { d.prt with held := p :: d.prt.held.filter (fun q => decide (q ≠ p)) } }
  ((d.setPrtState p 5).linkEvent now p 5 2).raise Src.portProfileMismatch
    (p + 2 ^ 8 * (Config.familyCode (if p < 32 then 0 else 1) % 2 ^ 24))

/-- A present signal does not reach the declared state within 1 s (fabric) or 100 ms (slot) (R64, R401). -/
def portBringupTimeout (now p : Nat) (d : Dev) : Dev :=
  let limit := if p < 32 then 1000000000 else 100000000
  if (d.prtState p = 2 ∨ d.prtState p = 3) ∧ tget 0 d.prt.detect p + limit ≤ now then d.holdPort now p else d

/-- What a loss or a fault leaves on a port's lanes (R424), and until when a fault is received: how long it lasts is the
line's (log entry 130). A port without signal receives no fault. -/
def Dev.linkLoss (d : Dev) (now p : Nat) (why : LinkWhy) : Dev :=
  let f := d.faultEnds p
  let fault := fun (x : Nat × Nat) => { d with prt := { d.prt with faults := tset (0, 0) d.prt.faults p x } }
  match why with
  | .signal => (d.prtLanes p).foldl (fun d l => d.setRf (Reg.PRT_LANE_W1 l) 31 29 0) (fault (0, 0))
  | .alignment => (d.prtLanes p).foldl (fun d l => d.setRb (Reg.PRT_LANE_W1 l) 30 false) d
  | .localFault => fault (max f.1 (now + 1 + Config.faultLasts p 0 now), f.2)
  | .remoteFault => fault (f.1, max f.2 (now + 1 + Config.faultLasts p 1 now))

/-- A port loses its signal or alignment, or receives a fault (R401): an up port goes down and repeats bring-up from the
start, fabric link training included; in bring-up a lost signal ends it, which is no disagreement (R64), and anything else
begins the 1 ms of alignment anew. -/
def portLinkDownEvent (now p : Nat) (why : LinkWhy) (d : Dev) : Dev :=
  if d.prtState p = 4 then
    let d := ((d.linkLoss now p why).setPrtState p 1).linkEvent now p 1 (if why = LinkWhy.signal then 0 else 1)
    let d := (d.prtLanes p).foldl (fun d l => d.setRb (Reg.PRT_LANE_W1 l) 29 false) d
    d.bringUp now p
  else if d.prtState p = 2 ∨ d.prtState p = 3 then
    let d := d.linkLoss now p why
    if why = LinkWhy.signal then d.setPrtState p 1 else d.alignFrom now p
  else d

/-- Whether a port receives local (0) or remote (1) fault at a time (R401, R424): in bring-up or up, while the fault lasts. -/
def Dev.faultBit (d : Dev) (now p kind : Nat) : Bool :=
  decide (2 ≤ d.prtState p ∧ d.prtState p ≤ 4) && decide (now < (if kind = 0 then (d.faultEnds p).1 else (d.faultEnds p).2))

/-- PRT_PORT[p] word 2 as it reads (R424). -/
def Dev.prtStatus (d : Dev) (now p : Nat) : Word :=
  setBit (setBit (d.reg (Reg.PRT_PORT_W2 p)) 27 (d.faultBit now p 0)) 26 (d.faultBit now p 1)

/-- Whether a port sends remote fault (R401): while it receives local fault. -/
def Dev.sendsRemoteFault (d : Dev) (now p : Nat) : Bool := d.faultBit now p 0

/-- The equaliser of a slot transmitter (R402): c(−1), c(0) and c(+1) of a preset, in hundredths. -/
def slotTaps (p : Nat) : Int × Int × Int :=
  let pre : Int := 4 * ((p % 4 : Nat) : Int)
  let post : Int := 6 * ((p / 4 : Nat) : Int)
  (-pre, 100 - pre - post, -post)

/-- The equaliser in use on a slot lane (R402, R424). -/
def Dev.laneTaps (d : Dev) (l : Nat) : Int × Int × Int := slotTaps (d.rf (Reg.PRT_LANE_W0 l) 3 0)

/-- The pattern that a fabric or slot lane under test sends (R551), as DBG_LANE_TEST numbers it; none without a test. -/
def Dev.lanePattern (d : Dev) (l : Nat) : Option Nat :=
  if d.rb Reg.DBG_LANE_TEST 31 ∧ d.rf Reg.DBG_LANE_TEST 6 0 = l then some (d.rf Reg.DBG_LANE_TEST 11 8) else none

/-- Whether a fabric or slot lane's transmitter is in electrical idle (R51, R551, R568): unless its port is declared, enabled,
not held, and brought up, or the lane sends a test pattern, which DESIGN CHOICE (log entry 126) a lane that no profile
declares does too; always while RESET_N is low. EXTEST, CLAMP, EXTEST_PULSE and EXTEST_TRAIN drive it, HIGHZ does not
(R556). -/
def Dev.laneIdle (d : Dev) (l : Nat) : Bool :=
  let idle := !d.pins.resetN || ((d.lanePattern l).isNone && (match d.lanePort l with
    | some p => !(d.mayBringUp p && decide (1 ≤ d.prtState p ∧ d.prtState p ≤ 4))
    | none => true))
  match d.dbg.tap with
  | .extestPulse | .extestTrain => false
  | _ => match d.tapPin (10 + l) with
    | .driven _ => false
    | .highZ => true
    | .free => idle

/-- admin_down is written (R424): 1 holds the port as R51 states; 0 runs the bring-up once, but a port held as a disagreement
stays down (R65). -/
def Dev.adminDown (d : Dev) (now p : Nat) (down : Bool) : Dev :=
  if !d.portEnabled p then d
  else if down then (d.setPrtState p 6).linkEvent now p 6 3
  else (d.setPrtState p (d.prtRest p)).bringUp now p

/-- PORT_REARM of a held port (R65, R478): its declared bring-up runs once more. -/
def Dev.rearm (d : Dev) (now p : Nat) : Dev :=
  let d := d.unhold p
  if p < 80 then (if d.prtState p = 5 then (d.setPrtState p (d.prtRest p)).bringUp now p else d)
  else if d.engineRuns (d.laneEngine (p - 80)) then d.laneStart (p - 80) else d

/-- Every fabric, slot and heritage lane is held as R51 states (severity 5, THERMTRIP; PRT_CTL.enable and STN_CTL.enable
hold their own). -/
def Dev.holdLanes (d : Dev) (fabric heritage : Bool) : Dev :=
  let d := if fabric then
    (List.range 80).foldl (fun d p => if d.prtState p ∈ [1, 2, 3, 4] then d.setPrtState p 0 else d) d else d
  if heritage then (List.range 32).foldl (fun d l => if d.laneUp l then d.setRb (Reg.STN_LANE_W0 l) 31 false else d) d
  else d

/-! Receive (R21, R31, R55, R405, R409, R414). -/

/-- The FCS of a frame's bytes, least significant byte first. -/
def fcsBytes (bs : List Byte) : List Byte := leBytes 4 (0xFFFFFFFF - crc32 0xFFFFFFFF bs)

/-- A time with a signed number of nanoseconds added (R413, R414). -/
def addNs (sec nsec : Nat) (n : Int) : Nat × Nat :=
  let t : Int := (sec * 1000000000 + nsec : Nat) + n
  let m : Int := ((2 ^ 48 * 1000000000 : Nat) : Int)
  let u := (t % m).toNat
  (u / 1000000000, u % 1000000000)

/-- A counter of PRT_CNT. -/
def Dev.prtCount (d : Dev) (p c : Nat) : Dev := d.bump (Reg.PRT_CNT p c) 1

/-- A frame, FCS included, arrives at a port's MAC (R21, R22, R65, R405, R409): checked in order, its Unnova padding
stripped, and written to packet memory with its timestamp. -/
def frameReceive (sec nsec p : Nat) (frame : List Byte) (d : Dev) : Dev :=
  if d.prtState p = 5 then d.prtCount p 6
  else if d.prtState p ≠ 4 ∨ d.portChanging p then d
  else
    let k := d.prtKind p
    let n := frame.length
    let body := frame.take (n - 4)
    if n < 4 ∨ fcsBytes body ≠ frame.drop (n - 4) then d.prtCount p 1
    else if n < (if k = 4 then 5 else 64) then d.prtCount p 2
    else if d.maxFrame p < n then d.prtCount p 3
    else
      let len := beVal (slice body 10 2)
      let ty := (byteAt body 0).toNat
      if k = 2 ∧ (ty / 16 ≠ 1 ∨ 1 < ty % 16 ∨ body.length < 16 + len) then d.prtCount p 4
      else
        let body := if k = 2 then body.take (16 + len) else body
        let t := addNs sec nsec (sintN 16 (d.rf (Reg.PRT_PORT_W1 p) 31 16))
        (d.prtCount p 0).ingress p body t.1 t.2

/-! Transmit (R403, R406, R410, R415, R416). -/

/-- The offset past up to two tags, of the EtherType (R415). -/
def etherAt (bs : List Byte) : Nat :=
  let tag := fun (o : Nat) => decide (beVal (slice bs o 2) ∈ [0x8100, 0x88A8])
  if tag 12 then (if tag 16 then 20 else 16) else 12

/-- Where an IEEE 1588 event message lies in a frame, with the offset of its IPv4 UDP header, and whether it is over
IPv6 (R415); none where there is none. -/
def eventAt (bs : List Byte) : Option (Nat × Option Nat × Bool) :=
  let o := etherAt bs
  let et := beVal (slice bs o 2)
  let ip := o + 2
  let cand : Option (Nat × Option Nat × Bool) :=
    if et = 0x88F7 then some (ip, none, false)
    else if et = 0x0800 then
      let u := ip + 4 * ((byteAt bs ip).toNat % 16)
      if (byteAt bs (ip + 9)).toNat = 17 ∧ beVal (slice bs (u + 2) 2) = 319 then some (u + 8, some u, false) else none
    else if et = 0x86DD then
      let u := ip + 40
      if (byteAt bs (ip + 6)).toNat = 17 ∧ beVal (slice bs (u + 2) 2) = 319 then some (u + 8, none, true) else none
    else none
  match cand with
  | some c => if (byteAt bs c.1).toNat % 16 < 4 ∧ c.1 + 34 ≤ bs.length then some c else none
  | none => none

/-- The TX_TS event of a captured timestamp (R416). -/
def txTsEvent (p : Nat) (t : TsCap) : List Byte :=
  leBytes 1 0x30 ++ leBytes 1 p ++ leBytes 1 t.mtype ++ leBytes 1 t.dom ++ leBytes 2 t.seq ++ leBytes 2 0
    ++ leBytes 4 t.ns ++ leBytes 6 t.sec ++ leBytes 2 t.frac ++ leBytes 4 0

/-- The captured timestamps of a port are posted while evt_mask bit 0 is set (R416). -/
def Dev.drainCaps (d : Dev) (p : Nat) : Dev :=
  if d.rb (Reg.PRT_PORT_W0 p) 20 then
    let q := tget [] d.prt.caps p
    let d := { d with prt := { d.prt with caps := tset [] d.prt.caps p [] } }
    q.foldl (fun d x => d.postEvt (d.rf (Reg.PRT_PORT_W0 p) 27 24) (txTsEvent p x)) d
  else d

/-- A transmit timestamp enters the port's capture FIFO of 16 entries (R416); one that finds it full is lost. -/
def Dev.captureTs (d : Dev) (p : Nat) (t : TsCap) : Dev :=
  let q := tget [] d.prt.caps p
  let d := if q.length < 16 then
    { d with prt := { d.prt with caps := tset [] d.prt.caps p (q ++ [t]) } }.prtCount p 9
  else (d.prtCount p 10).raise Src.prtTsLost p
  d.drainCaps p

/-- Where the frame that an event message can lie in begins: after the Unnova header on an Unnova link (log entry 117). -/
def Dev.macOff (d : Dev) (p : Nat) : Nat := if d.prtKind p = 2 then 16 else 0

/-- What the transmit MAC does with a frame under ts_mode (R415): the bytes it sends, and the timestamp it captures. -/
def Dev.txStamp (d : Dev) (sec nsec frac p : Nat) (bs : List Byte) : List Byte × Option TsCap :=
  let mode := d.rf (Reg.PRT_PORT_W0 p) 29 28
  let base := d.macOff p
  if mode = 0 then (bs, none)
  else match eventAt (bs.drop base) with
    | none => (bs, none)
    | some (o, udp, v6) =>
      let o := base + o
      let t := addNs sec nsec (sintN 16 (d.rf (Reg.PRT_PORT_W1 p) 15 0))
      let sync := decide ((byteAt bs o).toNat % 16 = 0) && !(byteAt bs (o + 6)).toNat.testBit 1
      if mode = 2 ∧ sync ∧ !v6 then
        let bs := patch bs (o + 34) (beBytes 6 t.1 ++ beBytes 4 t.2)
        (match udp with
         | some u => patch bs (base + u + 6) (zeros 2)
         | none => bs, none)
      else
        (bs, some { mtype := (byteAt bs o).toNat % 16, dom := (byteAt bs (o + 4)).toNat, seq := beVal (slice bs (o + 30) 2),
                    ns := t.2, sec := t.1, frac := frac / 2 ^ 16 })

/-- A data octet and a control code on a line. -/
def octet (b : Byte) : LineUnit := ⟨0, b.toNat⟩
def control (b : Nat) : LineUnit := ⟨1, b⟩

/-- The 64-bit payloads of a raw 64b/66b frame (R403), each with whether its block is a control block: a start block that
carries the first 7 bytes, or after four idle octets the first 3 of a shorter frame, which is not padded (log entry 117),
data blocks, a terminate block with what is left, and idle control blocks of 12 octets at
least. -/
def blocks66 (bs : List Byte) : List (Bool × Nat) :=
  let rest := bs.drop (if bs.length < 7 then 3 else 7)
  let full := rest.length / 8
  let left := rest.drop (8 * full)
  let term := [0x87, 0x99, 0xAA, 0xB4, 0xCC, 0xD2, 0xE1, 0xFF].getD left.length 0x87
  let start := if bs.length < 7 then 0x33 + 2 ^ 40 * leVal (bs.take 3) else 0x78 + 256 * leVal (bs.take 7)
  (true, start) ::
    ((List.range full).map (fun i => (false, leVal (slice rest (8 * i) 8)))
      ++ [(true, term + 256 * leVal (padTo 7 left)), (true, 0x1E), (true, 0x1E)])

/-- One bit of the Clause 49 scrambler, 1 + x^39 + x^58: the bit sent, and the state. -/
def scrambleBit (s : Nat) (b : Bool) : Bool × Nat :=
  let o := (b != s.testBit 38) != s.testBit 57
  (o, (2 * s + b2n o) % 2 ^ 58)

/-- The low n bits of a payload scrambled, the lowest first. -/
def scramble : (n : Nat) → (s v : Nat) → Nat × Nat
  | 0, s, _ => (0, s)
  | n + 1, s, v =>
    let a := scrambleBit s (v.testBit 0)
    let r := scramble n a.2 (v / 2)
    (b2n a.1 + 2 * r.1, r.2)

/-- Blocks scrambled in order. -/
def scrambleAll : (s : Nat) → List (Bool × Nat) → List LineUnit × Nat
  | s, [] => ([], s)
  | s, (c, v) :: r =>
    let a := scramble 64 s v
    let t := scrambleAll a.2 r
    (⟨if c then 3 else 2, a.1⟩ :: t.1, t.2)

/-- A frame, FCS or CRC included, on its line (R403, R406): Ethernet's preamble, start delimiter and gap; raw 8b/10b's start
and end codes and its idle ordered sets; raw 64b/66b's blocks. -/
def Dev.lineForm (d : Dev) (p : Nat) (bs : List Byte) : List LineUnit × Dev :=
  if d.prtKind p = 4 then
    if d.rf (Reg.PRT_PORT_W2 p) 15 8 = 0x24 then
      (control 0xFB :: (bs.map octet ++ [control 0xFD, control 0xF7]
        ++ (List.range 6).flatMap (fun _ => [control 0xBC, octet 0x50])), d)
    else
      let t := scrambleAll (tget 0 d.prt.scr p) (blocks66 bs)
      (t.1, { d with prt := { d.prt with scr := tset 0 d.prt.scr p t.2 } })
  else (List.replicate 7 (octet 0x55) ++ (octet 0xD5 :: bs.map octet) ++ List.replicate 12 (control 0x07), d)

/-- The first copy of a port's egress that has not been sent. -/
def Dev.nextEgress (d : Dev) (p : Nat) : Option Egress := (tget [] d.tmg.egress p).find? (fun e => !e.sent)

/-- Whether a copy's first bit may leave now: a gated frame is held to the t_first of its decision (R342), and one in DRAM
until the egress spill reader has it (R437). -/
def Dev.mayLeave (d : Dev) (p tm : Nat) (e : Egress) : Bool :=
  !(d.gated p && decide (tm < e.ts + fld (d.ow 3 p 5) 9 0)) && !d.spillWaits p e.item.handle

/-- The first unsent copy of a list of them is over. -/
def markSent : List Egress → List Egress
  | [] => []
  | e :: r => if e.sent then e :: markSent r else { e with sent := true } :: r

/-- The first unsent copy of a port is over. -/
def Dev.endEgress (d : Dev) (p : Nat) : Dev :=
  { d with tmg := { d.tmg with egress := tset [] d.tmg.egress p (markSent (tget [] d.tmg.egress p)) } }

/-- The egress read of a port's next copy completes and the MAC sends it (R406, R410, R415): a frame with no bytes, one
too long, with poisoned data or a quarantined buffer (R317), or an Unnova frame without its header is discarded; a port
that has gone down sends nothing. A gated frame is held to its t_first (R342). -/
def transmitFrame (sec nsec frac p : Nat) (d : Dev) : Dev :=
  match d.nextEgress p with
  | none => d
  | some e =>
    if !d.mayLeave p (sec * 1000000000 + nsec) e then d
    else
    let x := e.item
    let bs := d.frameBytes x
    let n := bs.length
    let d := d.endEgress p
    if n = 0 ∨ d.maxFrame p < n + 4 ∨ (d.prtKind p = 2 ∧ n < 16) then d.prtCount p 8
    else if d.frameBad x then d.dataFault x
    else if d.prtState p ≠ 4 then d
    else
      let bs : List Byte := if d.prtKind p = 2 then patch bs 10 (beBytes 2 (n - 16)) else bs
      let r := d.txStamp sec nsec frac p bs
      let bs : List Byte := if d.prtKind p = 4 then r.1 else r.1 ++ zeros (60 - r.1.length)
      let out := bs ++ fcsBytes bs
      let u := d.lineForm p out
      let d := u.2
      let d := { d with prt := { d.prt with sent := d.prt.sent ++ [SentFrame.mk p out u.1] } }.prtCount p 7
      match r.2 with
      | some t => d.captureTs p t
      | none => d

/-- Transmission of a copy ends (R314): the chain head is released once, as the port's owner. -/
def transmitDone (p : Nat) (d : Dev) : Dev :=
  match tget [] d.tmg.egress p with
  | e :: r =>
    if e.sent then
      { d with tmg := { d.tmg with egress := tset [] d.tmg.egress p r } }.releaseCopy (d.portOwner p) e.item
    else d
  | [] => d

end Sys2Proof.Machine
end

