-- ==== Sys2Proof/Machine/Time.lean ====
section
/-!
DEFINITION. The time base (R412, R413, R417, R418): ticks, TIM_CMD, and the two PPS pins. An operation that changes the
clock answers a clock; the others a device.
-/

namespace Sys2Proof.Machine

/-- Whether the time base drives TIME_PPS_OUT (R417). -/
def Dev.ppsByTime (d : Dev) : Bool :=
  d.rb Reg.TIM_PPS_OUT 31 && (match d.prf.inForce with
    | some p => decide (p.pps = 0)
    | none => true)

/-- A clock moved to a time: TIME_PPS_OUT is due an edge if the second changed while the time base drives it (R417). -/
def Clock.moveTo (c : Clock) (on : Bool) (sec nsec : Nat) : Clock :=
  { c with sec := sec, nsec := nsec, edge := on && (c.edge || decide (sec ≠ c.sec)) }

/-- A clock with a signed number of nanoseconds added. -/
def Clock.add (c : Clock) (on : Bool) (n : Int) : Clock :=
  let t := addNs c.sec c.nsec n
  c.moveTo on t.1 t.2

/-- One TCLK cycle (R412): 1 ns, and rate × 2^-32 ns, while TIM_CTL.enable is 1; the counter is never adjusted. Without
TCLK lock, one REFCLK_SYS cycle of 10 ns. With neither clock nothing advances. -/
def clockTick (d : Dev) (c : Clock) : Clock :=
  let locked := d.rb Reg.GLB_CLK_STATUS 29
  if !d.pins.resetN ∨ (!locked ∧ !d.pins.refclk) then c
  else
    let n := if locked then 1 else 10
    let c := { c with count := (c.count + n) % 2 ^ 64 }
    if !d.rb Reg.TIM_CTL 0 then c
    else if !locked then c.add d.ppsByTime 10
    else
      let f : Int := (c.frac : Int) + sintN 32 (d.reg Reg.TIM_RATE).toNat
      let u : Int := ((2 ^ 32 : Nat) : Int)
      { c with frac := (f % u).toNat }.add d.ppsByTime (1 + f / u)

/-- The TCLK PLL locks (R412). -/
def tclkPllLock (d : Dev) : Dev := d.setRb Reg.GLB_CLK_STATUS 29 true

/-- The TCLK PLL loses lock (R426). -/
def timRefLoss (d : Dev) : Dev :=
  if d.rb Reg.GLB_CLK_STATUS 29 then (d.setRb Reg.GLB_CLK_STATUS 29 false).raise Src.timRefLoss 0 else d

/-- TIM_CMD capture (R413). -/
def timeCapture (c : Clock) (d : Dev) : Dev :=
  (((d.setReg Reg.TIM_T_FRAC (wd (c.frac / 2 ^ 16))).setReg Reg.TIM_T_NS (wd c.nsec)).setReg Reg.TIM_T_SEC_LO
    (wd c.sec)).setReg Reg.TIM_T_SEC_HI (wd (c.sec / 2 ^ 32))

/-- Whether TIM_CMD set is refused (R413). -/
def Dev.setRefused (d : Dev) : Bool := decide (1000000000 ≤ (d.reg Reg.TIM_T_NS).toNat)

/-- TIM_CMD set, on the clock (R413). -/
def timeSetClock (d : Dev) (c : Clock) : Clock :=
  if d.setRefused then c
  else { c with frac := d.rf Reg.TIM_T_FRAC 15 0 * 2 ^ 16 }.moveTo d.ppsByTime
    ((d.reg Reg.TIM_T_SEC_LO).toNat + d.rf Reg.TIM_T_SEC_HI 15 0 * 2 ^ 32) (d.reg Reg.TIM_T_NS).toNat

/-- TIM_CMD set, on the device: refused with TIM_T_NS of 10^9 or more (R48, R413). -/
def timeSetDev (r : Req) (d : Dev) : Dev := if d.setRefused then d.refuse r Reg.TIM_CMD else d

/-- TIM_CMD step (R413): the signed TIM_STEP_NS is added. -/
def timeStepClock (d : Dev) (c : Clock) : Clock := c.add d.ppsByTime (sint (d.reg Reg.TIM_STEP_NS))

/-- Whether TIME_PPS_OUT rises now (R417): an edge is due, and none came within the last 1 ms. -/
def Dev.ppsRises (d : Dev) (c : Clock) : Bool :=
  c.edge && d.ppsByTime && (match d.prt.ppsLast with
    | some t => decide (t + 1000000 ≤ c.count)
    | none => true)

/-- TIME_PPS_OUT rises, on the clock: the edge is no longer due. -/
def ppsRiseClock (_ : Dev) (c : Clock) : Clock := { c with edge := false }

/-- TIME_PPS_OUT rises (R417); it is to fall width ns later. -/
def ppsRiseDev (c : Clock) (d : Dev) : Dev :=
  if d.ppsRises c then
    { d with prt := { d.prt with pps := true, ppsLast := some c.count,
                                 ppsFall := c.count + max 1 (d.rf Reg.TIM_PPS_OUT 29 0) } }
  else d

/-- TIME_PPS_OUT falls (R417). -/
def ppsFallDev (c : Clock) (d : Dev) : Dev :=
  if d.prt.pps && decide (d.prt.ppsFall ≤ c.count) && d.ppsByTime then { d with prt := { d.prt with pps := false } } else d

/-- The level of TIME_PPS_OUT (R417, R568): high impedance while RESET_N is low, and where the profile's owner is 0x01;
EXTEST, CLAMP and HIGHZ take the pin over (R556). -/
def Dev.ppsPin (d : Dev) : Option Bool :=
  match d.tapPin 4 with
  | .driven level => some level
  | .highZ => none
  | .free =>
  if !d.pins.resetN then none
  else match d.prf.inForce with
    | some p => if p.pps = 1 then none else some d.prt.pps
    | none => some d.prt.pps

/-- A rising edge on TIME_PPS_IN (R418). -/
def ppsInEdge (c : Clock) (d : Dev) : Dev :=
  if !d.rb Reg.TIM_CTL 1 then d
  else if d.rb Reg.TIM_PPS_IN_STATUS 31 then d.setRb Reg.TIM_PPS_IN_STATUS 30 true
  else
    ((d.setReg Reg.TIM_PPS_IN_NS (wd c.nsec)).setReg Reg.TIM_PPS_IN_SEC_LO (wd c.sec)).setReg Reg.TIM_PPS_IN_STATUS
      (wd (2 ^ 31 + b2n (d.rb Reg.TIM_PPS_IN_STATUS 30) * 2 ^ 30 + c.sec / 2 ^ 32 % 2 ^ 16))

end Sys2Proof.Machine
end

