-- ==== Sys2Proof/Machine/Profile.lean ====
section
/-!
DEFINITION. The chassis profile: its format (R52 to R59), the checks of R60 with the offset each failure reports, and
the signatures of R492.
-/

namespace Sys2Proof.Machine

/-! Signatures (R492). -/

/-- The 64-byte Ed448ph digest of signed bytes. -/
def phDigest (bs : List Byte) : List Byte := shake256 bs 64
/-- The key digest of a 57-byte public key. -/
def keyDigest (pub : List Byte) : List Byte := shake256 pub 32

/-- The ASCII bytes of the context strings of R492. -/
def ctxFirmware : List Byte := [76, 89, 51, 50, 48, 48, 32, 102, 105, 114, 109, 119, 97, 114, 101].map (BitVec.ofNat 8)
def ctxProfile : List Byte := [76, 89, 51, 50, 48, 48, 32, 112, 114, 111, 102, 105, 108, 101].map (BitVec.ofNat 8)
def ctxQuote : List Byte := [76, 89, 51, 50, 48, 48, 32, 113, 117, 111, 116, 101].map (BitVec.ofNat 8)

/-- Whether an Ed448ph signature over bytes verifies under a context (R492). -/
def sigOk (ctx pub bs sig : List Byte) : Bool := ed448Verify pub ctx (phDigest bs) sig

/-! Format (R52, R53). -/

/-- A section as a walk finds it: its offset, type, entry size and count. -/
structure PSec where
  off : Nat
  ty : Nat
  esize : Nat
  count : Nat
  deriving DecidableEq, Repr

/-- Bytes of a section, header and padding included. -/
def PSec.size (s : PSec) : Nat := (8 + s.esize * s.count + 7) / 8 * 8

/-- The offsets of a section's entries. -/
def PSec.entries (s : PSec) : List Nat := (List.range s.count).map (fun i => s.off + 8 + s.esize * i)

/-- The sections from an offset to an end; none where they do not fill it exactly (R60 LENGTH). -/
def walkSections (bs : List Byte) (stop : Nat) : (fuel off : Nat) → Option (List PSec)
  | 0, _ => none
  | n + 1, off =>
    if off = stop then some []
    else if stop < off + 8 then none
    else
      let s : PSec := { off := off, ty := leAt bs off 2, esize := leAt bs (off + 2) 2, count := leAt bs (off + 4) 4 }
      if stop < off + s.size then none else (walkSections bs stop n (off + s.size)).map (s :: ·)

/-- The entry size and the bounds of the count of a section type (R53). -/
def secShape : Nat → Option (Nat × Nat × Nat)
  | 1 => some (16, 1, 112)
  | 2 => some (8, 0, 2)
  | 3 => some (8, 8, 8)
  | 4 => some (16, 0, 16)
  | 5 => some (8, 0, 1024)
  | 6 => some (16, 0, 32)
  | _ => none

/-- The entries of a type, with their offsets, in the order of the sections. -/
def secEntries (ss : List PSec) (ty : Nat) : List Nat := (ss.filter (fun s => decide (s.ty = ty))).flatMap PSec.entries

def portAt (bs : List Byte) (o : Nat) : PortEnt :=
  { port := leAt bs o 1, kind := leAt bs (o + 1) 1, code := leAt bs (o + 2) 1, engine := leAt bs (o + 3) 1,
    maxFrame := leAt bs (o + 4) 2, preset := leAt bs (o + 6) 1, flags := leAt bs (o + 7) 1, rate := leAt bs (o + 8) 8 }
def ringAt (bs : List Byte) (o : Nat) : RingEnt :=
  { pair := leAt bs o 1, engine := leAt bs (o + 1) 1, west := leAt bs (o + 2) 1, east := leAt bs (o + 3) 1,
    half := leAt bs (o + 4) 2, westSlot := leAt bs (o + 6) 1, eastSlot := leAt bs (o + 7) 1 }
def dramAt (bs : List Byte) (o : Nat) : DramEnt :=
  { channel := leAt bs o 1, dimms := leAt bs (o + 1) 1, ranks := leAt bs (o + 2) 1, speed := leAt bs (o + 3) 1,
    cap := leAt bs (o + 4) 2 }
/-- A POOL entry; the device clears bits [7:0] of base (R299). -/
def poolAt (bs : List Byte) (o : Nat) : PoolEnt :=
  { pool := leAt bs o 1, region := leAt bs (o + 1) 1, size := leAt bs (o + 2) 1, fallback := leAt bs (o + 3) 1,
    count := leAt bs (o + 4) 4, base := leAt bs (o + 8) 8 / 256 * 256 }
def resvAt (bs : List Byte) (o : Nat) : ResvEnt :=
  { pool := leAt bs o 1, owner := leAt bs (o + 1) 1, kind := leAt bs (o + 2) 1, buffers := leAt bs (o + 4) 4 }
def lineAt (bs : List Byte) (o : Nat) : LineEnt :=
  { port := leAt bs o 1, w1 := wd (leAt bs (o + 4) 4), w2 := wd (leAt bs (o + 8) 4), w3 := wd (leAt bs (o + 12) 4) }

/-- The profile that bytes and their sections spell. -/
def profileOf (bs : List Byte) (ss : List PSec) (total : Nat) : Profile :=
  { seq := leAt bs 0x0C 4, devNum := leAt bs 0x10 2, sysSize := leAt bs 0x12 2, spareA := leAt bs 0x14 1,
    spareB := leAt bs 0x15 1, pps := leAt bs 0x17 1, ports := (secEntries ss 1).map (portAt bs),
    rings := (secEntries ss 2).map (ringAt bs), drams := (secEntries ss 3).map (dramAt bs),
    pools := (secEntries ss 4).map (poolAt bs), resvs := (secEntries ss 5).map (resvAt bs),
    lines := (secEntries ss 6).map (lineAt bs), digest := phDigest (bs.take (total - 176)) }

/-! The checks of R60. Each answers the offset it reports, or none where it passes. Within an entry the
conditions are examined in the order in which R60 states them, and each reports the field it is stated on (DEDUCED, log 28). -/

/-- The offset of the first condition that holds. -/
def firstFail : List (Bool × Nat) → Option Nat
  | [] => none
  | (c, o) :: r => if c then some o else firstFail r

/-- A check over entries in order, each with those before it. -/
def eachBefore (f : List Nat → Nat → Option Nat) : (before rest : List Nat) → Option Nat
  | _, [] => none
  | b, o :: r => match f b o with
    | some x => some x
    | none => eachBefore f (b ++ [o]) r

/-- 0x01 FORMAT. -/
def checkFormat (bs : List Byte) : Option Nat :=
  firstFail [(decide (leAt bs 0 4 ≠ 0x5043594C), 0x00), (decide (leAt bs 4 2 ≠ 1), 0x04), (decide (leAt bs 6 2 ≠ 0x40), 0x06),
    (decide (leAt bs 0x38 8 ≠ 0), 0x38)]

/-- 0x06 SECTION, for one section with the types before it. -/
def checkSection (bs : List Byte) (seen : List Nat) (s : PSec) : Option Nat :=
  match secShape s.ty with
  | none => some s.off
  | some (es, lo, hi) =>
    let stop := s.off + 8 + s.esize * s.count
    match firstFail [(decide (s.ty ∈ seen), s.off), (decide (s.esize ≠ es), s.off + 2),
        (decide (s.count < lo ∨ hi < s.count), s.off + 4)] with
    | some o => some o
    | none =>
      match (if s.ty = 6 then s.entries.find? (fun o => decide (leAt bs (o + 1) 3 ≠ 0)) else none) with
      | some o => some (o + 1)
      | none => if leAt bs stop (s.off + s.size - stop) ≠ 0 then some stop else none

/-- 0x06 SECTION. -/
def checkSections (bs : List Byte) : (seen : List Nat) → List PSec → Option Nat
  | _, [] => none
  | seen, s :: r => match checkSection bs seen s with
    | some o => some o
    | none => checkSections bs (s.ty :: seen) r

/-- The ports of a kind (R54). -/
def kindRange : Nat → Option (Nat × Nat)
  | 1 | 2 => some (0, 31)
  | 3 | 4 => some (32, 79)
  | 5 => some (80, 95)
  | 6 => some (96, 111)
  | _ => none

/-- 0x07 PORT. -/
def checkPort (bs : List Byte) (b : List Nat) (o : Nat) : Option Nat :=
  let e := portAt bs o
  firstFail [(decide (111 < e.port) || b.any (fun x => decide ((portAt bs x).port = e.port)), o),
    (match kindRange e.kind with
      | some (lo, hi) => decide (e.port < lo ∨ hi < e.port)
      | none => false, o), (decide (kindRange e.kind = none), o + 1), (decide (4 ≤ e.flags), o + 7)]

/-- Lanes of a port by kind and rate (R54); none where the rate is not a fabric rate. -/
def fabricLanes : Nat → Option Nat
  | 106250000000 => some 1
  | 212500000000 => some 2
  | 425000000000 => some 4
  | _ => none

/-- The lanes an entry takes. -/
def PortEnt.lanes (e : PortEnt) : Nat := if e.kind ≤ 2 then (fabricLanes e.rate).getD 1 else 1

/-- Whether an entry's line code is allowed for its kind (R54). -/
def PortEnt.codeOk (e : PortEnt) : Bool :=
  match e.kind with
  | 1 | 2 => decide (e.code = 0x10)
  | 3 => decide (0x20 ≤ e.code ∧ e.code ≤ 0x23)
  | 4 => decide (e.code = 0x24 ∨ e.code = 0x25)
  | 5 => decide (0x30 ≤ e.code ∧ e.code ≤ 0x34 ∨ e.code = 0x3F)
  | _ => decide (0x30 ≤ e.code ∧ e.code ≤ 0x33 ∨ e.code = 0x3F)

/-- Whether an entry's rate is allowed (R54). DESIGN CHOICE (log entry 104): where the table gives an upper limit alone, a
heritage rate of 0 is allowed. -/
def PortEnt.rateOk (e : PortEnt) : Bool :=
  let lane := if e.kind = 5 then 1250000000 else 50000000
  match e.kind with
  | 1 | 2 => match fabricLanes e.rate with
    | some n => decide (e.port % n = 0)
    | none => false
  | 3 => decide (e.rate = match e.code with
      | 0x20 => 1250000000
      | 0x21 => 10312500000
      | 0x22 => 25781250000
      | _ => 53125000000)
  | 4 => decide (1250000000 ≤ e.rate ∧ e.rate ≤ 56250000000)
  | _ =>
    let limit := match e.code with
      | 0x30 => 12000000
      | 0x31 => 52000000
      | 0x32 => 20000000
      | 0x33 => 125000000
      | _ => lane
    decide (e.rate ≤ min limit lane) && (decide (e.code ≠ 0x30) || decide (300 ≤ e.rate))

/-- 0x08 RATE. DESIGN CHOICE (log entry 103): of several faults within one entry the field at the lowest offset is
reported. -/
def checkRate (bs : List Byte) (b : List Nat) (o : Nat) : Option Nat :=
  let e := portAt bs o
  let heavy := decide (e.kind ≤ 4)
  let meets := fun (x : Nat) =>
    let y := portAt bs x
    decide (y.port < e.port + e.lanes ∧ e.port < y.port + y.lanes)
  firstFail [(b.any meets, o), (!e.codeOk, o + 2),
    (if heavy then decide (e.maxFrame < 64 ∨ 9216 < e.maxFrame) else decide (e.maxFrame < 1 ∨ 9200 < e.maxFrame), o + 4),
    (if e.kind = 3 ∨ e.kind = 4 then decide (15 < e.preset) else decide (e.preset ≠ 0), o + 6),
    (e.flags.testBit 1 && decide (2 < e.kind), o + 7), (!e.rateOk, o + 8)]

/-- An entry of the PORT or RING section that takes a slot of an engine: its engine, the offset of its engine field, and
the rate it adds, with its offset. -/
structure SlotUse where
  engine : Nat
  off : Nat
  rate : Nat
  rateOff : Nat
  bad : Bool
  deriving DecidableEq, Repr

/-- The slots that the entries of a section take (R61). -/
def slotUses (bs : List Byte) (s : PSec) : List SlotUse :=
  if s.ty = 1 then s.entries.filterMap (fun o =>
    let e := portAt bs o
    if 5 ≤ e.kind then some ⟨e.engine, o + 3, e.rate, o + 8, decide (31 < e.engine)⟩
    else if e.engine ≠ 0xFF then some ⟨e.engine, o + 3, 0, o + 8, true⟩ else none)
  else if s.ty = 2 then s.entries.map (fun o => ⟨(ringAt bs o).engine, o + 1, 0, o + 1, false⟩)
  else []

/-- 0x09 ENGINE. -/
def checkEngine : (before : List SlotUse) → List SlotUse → Option Nat
  | _, [] => none
  | b, u :: r =>
    let same := b.filter (fun x => decide (x.engine = u.engine))
    match firstFail [(u.bad, u.off), (decide (4 ≤ same.length), u.off),
        (decide (1250000000 < (same.map (·.rate)).sum + u.rate), u.rateOff)] with
    | some o => some o
    | none => checkEngine (b ++ [u]) r

/-- 0x0A RING. DESIGN CHOICE (log entry 103): an entry whose pair is above 1 fails here. -/
def checkRing (bs : List Byte) (ports : List PortEnt) (b : List Nat) (o : Nat) : Option Nat :=
  let e := ringAt bs o
  let foreign := fun (p : Nat) => !ports.any (fun x => decide (x.port = p ∧ 5 ≤ x.kind ∧ x.engine = e.engine))
  let both := fun (p : Nat) => b.any (fun x =>
    let y := ringAt bs x
    decide (y.pair ≠ e.pair ∧ (y.west = p ∨ y.east = p)))
  firstFail [(decide (1 < e.pair) || b.any (fun x => decide ((ringAt bs x).pair = e.pair)), o),
    (foreign e.west || both e.west, o + 2), (foreign e.east || both e.east, o + 3),
    (decide (e.half < 8 ∨ 400 < e.half), o + 4)]

/-- 0x0B SYSTEM. -/
def checkSystem (bs : List Byte) : Option Nat :=
  let dev := leAt bs 0x10 2
  let sys := leAt bs 0x12 2
  let a := leAt bs 0x14 1
  let b := leAt bs 0x15 1
  firstFail [(decide (sys = 0 ∨ 4096 < sys), 0x12), (decide (sys ≤ dev), 0x10), (decide (23 < a), 0x14), (decide (23 < b ∨ a = b), 0x15)]

/-- GiB a DRAM entry fits. -/
def DramEnt.gib (e : DramEnt) : Nat := e.dimms * e.cap

/-- 0x0C DRAM, for one entry. -/
def checkDram (bs : List Byte) (b : List Nat) (o : Nat) : Option Nat :=
  let e := dramAt bs o
  let fit := decide (e.dimms = 1 ∨ e.dimms = 2)
  let prev := (b.map (dramAt bs)).filter (fun x => decide (x.dimms ≠ 0))
  let other := match prev with
    | x :: _ => decide (x.speed ≠ e.speed)
    | [] => false
  firstFail [(decide (7 < e.channel) || b.any (fun x => decide ((dramAt bs x).channel = e.channel)), o),
    (decide (2 < e.dimms), o + 1), (fit && decide (e.ranks ∉ [1, 2, 4]), o + 2),
    (fit && (decide (e.speed ∉ [1, 2, 3]) || other || decide (e.dimms = 2 ∧ e.speed = 3)), o + 3),
    (fit && (decide (e.cap ∉ [16, 32, 64, 128]) || decide (1024 < (prev.map DramEnt.gib).sum + e.gib)), o + 4),
    (decide (leAt bs (o + 6) 2 ≠ 0), o + 6)]

/-- 0x0C DRAM: the entries, then no channel fitted. -/
def checkDrams (bs : List Byte) (ss : List PSec) : Option Nat :=
  match eachBefore (checkDram bs) [] (secEntries ss 3) with
  | some o => some o
  | none =>
    if (secEntries ss 3).all (fun o => decide ((dramAt bs o).dimms = 0)) then
      (ss.find? (fun s => decide (s.ty = 3))).map (fun s => s.off + 4)
    else none

/-- The extent of a pool (R300). -/
def PoolEnt.extent (e : PoolEnt) : Int × Nat :=
  (if e.region = 1 then (e.base : Int) - ((8 * e.count : Nat) : Int) else (e.base : Int), e.base + e.count * 2 ^ e.size)

/-- Whether two pools overlap. -/
def PoolEnt.overlaps (a b : PoolEnt) : Bool :=
  decide (a.extent.1 < (b.extent.2 : Int)) && decide (b.extent.1 < (a.extent.2 : Int))

/-- Whether a pool lies in its region, with a fitted DRAM size (R60). -/
def PoolEnt.inRegion (e : PoolEnt) (fitted : Nat) : Bool :=
  if e.region = 1 then decide (0 ≤ e.extent.1) && decide (e.extent.2 ≤ fitted)
  else decide (pmBase ≤ e.base) && decide (e.extent.2 ≤ pmBase + 0x6000000)

/-- The fallback chain of a pool among some entries: whether a fallback is not larger, repeats a pool or lies more than 3
deep. -/
def chainBad (ps : List PoolEnt) : (fuel : Nat) → (seen : List Nat) → PoolEnt → Bool
  | 0, _, e => decide (e.fallback ≠ 0xFF)
  | n + 1, seen, e =>
    if e.fallback = 0xFF then false
    else match ps.find? (fun x => decide (x.pool = e.fallback)) with
      | none => false
      | some y => decide (y.size ≤ e.size) || decide (y.pool ∈ seen) || chainBad ps n (y.pool :: seen) y

/-- Whether some chain among entries is bad. -/
def anyChainBad (ps : List PoolEnt) : Bool := ps.any (fun e => chainBad ps 3 [e.pool] e)

/-- The sum of the RESERVE entries of a pool. -/
def resvSum (rs : List ResvEnt) (p : Nat) : Nat := ((rs.filter (fun r => decide (r.pool = p))).map (·.buffers)).sum

/-- 0x0D BUFFER, for one POOL entry after others. -/
def checkPool (bs : List Byte) (fitted : Nat) (b : List PoolEnt) (rs : List ResvEnt) (o : Nat) : Option Nat :=
  let e := poolAt bs o
  firstFail [(decide (15 < e.pool) || b.any (fun x => decide (x.pool = e.pool)), o), (decide (1 < e.region), o + 1),
    (decide (e.size < 8 ∨ 16 < e.size), o + 2), (anyChainBad (b ++ [e]), o + 3),
    (decide (e.count = 0 ∨ 2 ^ 28 ≤ e.count) || decide (e.count < resvSum rs e.pool), o + 4),
    (decide (leAt bs (o + 14) 2 ≠ 0) || !e.inRegion fitted || b.any e.overlaps, o + 8)]

/-- 0x0D BUFFER, for one RESERVE entry. -/
def checkResv (bs : List Byte) (all : List PoolEnt) (b : List PoolEnt) (rs : List ResvEnt) (o : Nat) : Option Nat :=
  let e := resvAt bs o
  let over_ := b.any (fun x => decide (x.pool = e.pool ∧ x.count < resvSum (rs ++ [e]) e.pool))
  firstFail [(!all.any (fun x => decide (x.pool = e.pool)), o), (decide (63 < e.owner), o + 1), (decide (1 < e.kind), o + 2),
    (decide (leAt bs (o + 3) 1 ≠ 0), o + 3), (over_, o + 4)]

/-- The POOL and RESERVE entries of the sections in order: whether each is a POOL entry, and its offset. -/
def bufferEntries (ss : List PSec) : List (Bool × Nat) :=
  ss.flatMap (fun s => if s.ty = 4 then s.entries.map (true, ·) else if s.ty = 5 then s.entries.map (false, ·) else [])

/-- 0x0D BUFFER, entry by entry. -/
def checkBuffers (bs : List Byte) (fitted : Nat) (all : List PoolEnt) :
    (b : List PoolEnt) → (rs : List ResvEnt) → List (Bool × Nat) → Option Nat
  | _, _, [] => none
  | b, rs, (isPool, o) :: r =>
    if isPool then
      match checkPool bs fitted b rs o with
      | some x => some x
      | none => checkBuffers bs fitted all (b ++ [poolAt bs o]) rs r
    else
      match checkResv bs all b rs o with
      | some x => some x
      | none => checkBuffers bs fitted all b (rs ++ [resvAt bs o]) r

/-- A fallback that no POOL entry declares: the pool it names is not a larger one. -/
def danglingFallback (bs : List Byte) (ss : List PSec) (all : List PoolEnt) : Option Nat :=
  ((secEntries ss 4).find? (fun o =>
    let e := poolAt bs o
    decide (e.fallback ≠ 0xFF) && !all.any (fun x => decide (x.pool = e.fallback)))).map (· + 3)

/-- 0x0E PIN. -/
def checkPin (p : Profile) : Option Nat :=
  let ok := decide (p.pps ≤ 1) || (decide (0x80 ≤ p.pps ∧ p.pps ≤ 0x9F) &&
    p.ports.any (fun e => decide (5 ≤ e.kind ∧ e.engine = p.pps - 0x80)) &&
    !p.rings.any (fun r => decide (r.engine = p.pps - 0x80)))
  if ok then none else some 0x17

/-- The fitted DRAM of a profile in bytes (R39). -/
def Profile.fitted (p : Profile) : Nat := 2 ^ 30 * (p.drams.map DramEnt.gib).sum

/-- The checks of R60 from SECTION on. -/
def checkBody (bs : List Byte) (ss : List PSec) (p : Profile) : List (Nat × Option Nat) :=
  [(0x06, if leAt bs 0x16 1 ≠ ss.length ∨ !ss.any (fun s => decide (s.ty = 1)) ∨ !ss.any (fun s => decide (s.ty = 3)) then some 0x16 else none),
   (0x06, checkSections bs [] ss),
   (0x07, eachBefore (checkPort bs) [] (secEntries ss 1)),
   (0x08, eachBefore (checkRate bs) [] (secEntries ss 1)),
   (0x09, checkEngine [] (ss.flatMap (slotUses bs))),
   (0x0A, eachBefore (checkRing bs p.ports) [] (secEntries ss 2)),
   (0x0B, checkSystem bs),
   (0x0C, checkDrams bs ss),
   (0x0D, match checkBuffers bs p.fitted p.pools [] [] (bufferEntries ss) with
     | some o => some o
     | none => danglingFallback bs ss p.pools),
   (0x0E, checkPin p)]

/-- The first check of a list that fails: its code and offset. -/
def firstCode : List (Nat × Option Nat) → Option (Nat × Nat)
  | [] => none
  | (c, some o) :: _ => some (c, o)
  | (_, none) :: r => firstCode r

/-- What validation answers (R60): the code and offset of the first failed check, or the profile. -/
inductive PrfRes where
  | bad (code off : Nat)
  | good (p : Profile)
  deriving DecidableEq, Repr

/-- The checks of R60 in table order, for the owner-key digests of an image and, in service, the sequence in force. DESIGN
CHOICE (log entry 103): bytes supplied beyond total_len fail LENGTH. -/
def validateProfile (bs : List Byte) (owners : List (List Byte)) (inService : Option Nat) : PrfRes :=
  match checkFormat bs with
  | some o => .bad 0x01 o
  | none =>
    let total := leAt bs 8 4
    if total < 336 ∨ 262144 < total ∨ bs.length ≠ total then .bad 0x02 0x08
    else
      match walkSections bs (total - 176) 32768 64 with
      | none => .bad 0x02 0x08
      | some ss =>
        let sig := total - 176
        let pub := slice bs sig 57
        let own := slice bs 0x18 32
        if keyDigest pub ≠ own ∨ own ∉ owners then .bad 0x03 0x18
        else if !sigOk ctxProfile pub (bs.take sig) (slice bs (sig + 57) 114) ∨ leAt bs (sig + 171) 5 ≠ 0 then .bad 0x04 sig
        else if (match inService with
            | some n => decide (leAt bs 0x0C 4 ≤ n)
            | none => false) then .bad 0x05 0x0C
        else
          let p := profileOf bs ss total
          match firstCode (checkBody bs ss p) with
          | some (c, o) => .bad c o
          | none => .good p

end Sys2Proof.Machine
end

