-- ==== Sys2Proof/Machine/Boot.lean ====
section
/-!
DEFINITION. Boot (R493 to R499, R569): the firmware image, the Primer's sequence, host boot, and the set-up that a
profile installs (R54 to R58, R374, R377). Fuses and measurements are kept apart from the device.
-/

namespace Sys2Proof.Machine

/-! The set-up a profile installs. -/

/-- A fabric or slot PORT entry installed in PRT_PORT and PRT_LANE (R54, R399, R402). -/
def Dev.installPort (d : Dev) (e : PortEnt) : Dev :=
  let w := Reg.PRT_PORT_W2 e.port
  let d := ((d.setRf w 23 16 e.kind).setRf w 15 8 e.code).setRf w 2 0 e.lanes
  if 32 ≤ e.port then d.setRf (Reg.PRT_LANE_W0 e.port) 3 0 e.preset else d

/-- The slot of a heritage port on its engine: ports take slots in ascending port order (R374). -/
def heritageSlot (ps : List PortEnt) (e : PortEnt) : Nat :=
  ps.countP (fun x => decide (5 ≤ x.kind ∧ x.engine = e.engine ∧ x.port < e.port))

/-- A heritage PORT entry installed in STN_LANE and in its engine's slots_used (R374, R377). -/
def Dev.installLane (d : Dev) (ps : List PortEnt) (e : PortEnt) : Dev :=
  let w := Reg.STN_LANE_W0 (e.port - 80)
  let s := heritageSlot ps e
  let d := d.setReg w (wd (b2n (decide (800000000 < 15 * e.rate)) * 2 ^ 30 + e.code * 2 ^ 16 + s * 2 ^ 12 + e.engine))
  let d := d.setReg (Reg.STN_LANE_W6 (e.port - 80)) (wd (800000000 * 256 / e.rate % 2 ^ 30))
  d.setRb (Reg.STN_ENG_W3 e.engine) (20 + s) true

/-- The slot of a heritage port that stays on its engine taken again in ascending port order (R374): the slot's context goes
with the lane, so that the port keeps forwarding (R70; DESIGN CHOICE, log entry 132). -/
def Dev.reslot (d : Dev) (ps : List PortEnt) (e : PortEnt) (x : Slot2) : Dev :=
  let s := heritageSlot ps e
  let d := (d.setRf (Reg.STN_LANE_W0 (e.port - 80)) 13 12 s).setRb (Reg.STN_ENG_W3 e.engine) (20 + s) true
  d.setSlot e.engine s x

/-- The slot of a heritage port that comes to an engine that runs starts at its entry (R70, R397; log entry 132). -/
def Dev.freshSlot (d : Dev) (ps : List PortEnt) (e : PortEnt) : Dev :=
  if 5 ≤ e.kind ∧ d.engineRuns e.engine then
    let s := heritageSlot ps e
    d.setSlot e.engine s { Slot2.reset with pc := BitVec.ofNat 12 (d.slotEntry e.engine s) }
  else d

/-- The slots of an engine that its ports take, all free: slot 3 stays with a heartbeat (R374). -/
def Dev.freeSlotsUsed (d : Dev) (p : Profile) (e : Nat) : Dev :=
  let d := d.setRf (Reg.STN_ENG_W3 e) 22 20 0
  if p.rings.any (fun r => decide (r.engine = e)) then d else d.setRb (Reg.STN_ENG_W3 e) 23 false

/-- One PORT entry installed. -/
def Dev.installEntry (d : Dev) (ps : List PortEnt) (e : PortEnt) : Dev :=
  if e.kind ≤ 4 then d.installPort e else d.installLane ps e

/-- A port whose entry goes is no longer declared; one that was up goes down first (R424). -/
def Dev.removePort (d : Dev) (e : PortEnt) : Dev :=
  if e.kind ≤ 4 then ((d.setPrtState e.port 0).setReg (Reg.PRT_PORT_W2 e.port) 0).setRf (Reg.PRT_LANE_W0 e.port) 3 0 0
  else
    let l := e.port - 80
    let s := d.laneSlot l
    let d := d.setRb (Reg.STN_ENG_W3 (d.laneEngine l)) (20 + s) false
    (d.setReg (Reg.STN_LANE_W0 l) 0).setReg (Reg.STN_LANE_W6 l) 0

/-- A RING entry installed: the heartbeat takes slot 3 of its engine (R374, R397). -/
def Dev.installRing (d : Dev) (r : RingEnt) : Dev :=
  (d.setRf (Reg.STN_HB r.pair) 20 16 r.engine).setRb (Reg.STN_ENG_W3 r.engine) 23 true

/-- A POOL entry installed (R58, R299, R318). -/
def Dev.installPool (d : Dev) (e : PoolEnt) : Dev :=
  let w0 := 2 ^ 31 + e.region * 2 ^ 30 + (if e.fallback = 0xFF then 0 else 2 ^ 12 + e.fallback * 2 ^ 8) + e.size
  (((d.setReg (Reg.PAL_POOL_W0 e.pool) (wd w0)).setReg (Reg.PAL_POOL_W1 e.pool) (wd (e.base % 2 ^ 32))).setReg
    (Reg.PAL_POOL_W2 e.pool) (wd (e.base / 2 ^ 32))).setReg (Reg.PAL_POOL_W3 e.pool) (wd e.count)

/-- The buffers that a profile's RESERVE entries give an owner in a pool, by kind. -/
def reserveOf (rs : List ResvEnt) (o p kind : Nat) : Nat :=
  ((rs.filter (fun r => decide (r.owner = o ∧ r.pool = p ∧ r.kind = kind))).map (·.buffers)).sum

/-- The spares that a profile names newly (R70). -/
def newSpares (old new : Profile) : List Nat :=
  [new.spareA, new.spareB].filter (fun c => decide (c ≠ old.spareA ∧ c ≠ old.spareB))

/-- A profile that declares nothing: what PROFILE_APPLY replaces while none is in force (log entry 131). -/
def Profile.empty : Profile :=
  { seq := 0, devNum := 0, sysSize := 1, spareA := 24, spareB := 24, pps := 0, ports := [], rings := [], drams := [],
    pools := [], resvs := [], lines := [], digest := [] }

/-- The profile that PROFILE_APPLY replaces. -/
def Dev.oldProfile (d : Dev) : Profile := d.prf.inForce.getD Profile.empty

/-- The ports that two profiles do not give alike (R70). -/
def changedPorts (a b : Profile) : List Nat :=
  (List.range 112).filter (fun p => decide (a.ports.find? (fun e => decide (e.port = p)) ≠ b.ports.find? (fun e => decide (e.port = p))))

/-- The pairs that two profiles do not give alike (R70). -/
def changedPairs (a b : Profile) : List Nat :=
  [0, 1].filter (fun k => decide (a.rings.find? (fun e => decide (e.pair = k)) ≠ b.rings.find? (fun e => decide (e.pair = k))))

/-- A RESERVE entry installed (R58, R306). -/
def Dev.installResv (d : Dev) (rs : List ResvEnt) (e : ResvEnt) : Dev :=
  d.setReg (if e.kind = 0 then Reg.PAL_OWN_W0 e.owner e.pool else Reg.PAL_OWN_W1 e.owner e.pool)
    (wd (reserveOf rs e.owner e.pool e.kind))

/-- The profile in force installed at boot (R50, R58, R498): PRT_SYSTEM, ports, rings, pools, reserves
and spares, which are held gated (R524). -/
def Dev.installProfile (d : Dev) (p : Profile) : Dev :=
  let d := { d with prf := { d.prf with inForce := some p } }
  let d := d.setReg Reg.PRT_SYSTEM (wd (p.sysSize * 2 ^ 16 + p.devNum))
  let d := p.ports.foldl (fun d e => d.installEntry p.ports e) d
  let d := p.rings.foldl Dev.installRing d
  let d := p.pools.foldl Dev.installPool d
  let d := p.resvs.foldl (fun d e => d.installResv p.resvs e) d
  ((d.setReg (Reg.FLT_UNITS 1) (wd (2 ^ p.spareA ||| 2 ^ p.spareB))).gateNow p.spareA).gateNow p.spareB

/-! The firmware image (R496, R497). -/

/-- Whether an image's steppings include the device's (R496, R497). -/
def stepListed (bs : List Byte) (stepping : Nat) : Bool :=
  (List.range 4).any (fun i => decide (leAt bs (0x10 + 2 * i) 2 = stepping) && decide (stepping ≠ 0))

/-- Whether an image verifies (R497). -/
def imageOk (i : Ident) (bs : List Byte) : Bool :=
  let n := leAt bs 8 4
  let k := leAt bs 6 1
  let pub := slice bs 0xA0 57
  decide (leAt bs 0 4 = 0x4D495246) && decide (k < 4) && decide (leAt bs 7 1 < 16) && decide (leAt bs 0x1C 1 < 2)
    && decide (leAt bs 0x1D 1 ≤ 4) && decide (leAt bs 0x1E 2 = 0) && decide (leAt bs 0xD9 39 = 0)
    && decide (384 ≤ n ∧ n ≤ 3932160 ∧ n ≤ bs.length)
    && decide (leAt bs (n - 14) 14 = 0)
    && decide (i.keys[k]? = some (keyDigest pub)) && i.present.testBit k && !i.revoked.testBit k
    && sigOk ctxFirmware pub (bs.take (n - 128)) (slice bs (n - 128) 114)
    && decide (i.svnMin ≤ leAt bs 0xC 4 ∧ leAt bs 0xC 4 ≤ 64) && stepListed bs i.stepping

/-- The image that the Primer boots of two (R497): the higher svn, then the higher version, then slot 0. -/
def chooseImage (i : Ident) (a b : List Byte) : Option (List Byte) :=
  match imageOk i a, imageOk i b with
  | true, true =>
    let rank := fun (bs : List Byte) => leAt bs 0xC 4 * 2 ^ 16 + leAt bs 4 2
    some (if rank a < rank b then b else a)
  | true, false => some a
  | false, true => some b
  | false, false => none

/-- The owner-key digests of an image (R496). -/
def imageOwners (bs : List Byte) : List (List Byte) :=
  (List.range (leAt bs 0x1D 1)).map (fun i => slice bs (0x20 + 32 * i) 32)

/-- The profile that the Primer loads of two flash slots, each with whether it carries a committed record (R50): the
valid committed one with the higher sequence; else the code of the first failed check. DESIGN CHOICE (log entry 102): of two
with equal sequences slot 0 is loaded, and the detail is 0 where neither slot carries a record. -/
def chooseProfile (owners : List (List Byte)) (a b : List Byte × Bool) : PrfRes :=
  let one := fun (x : List Byte × Bool) => if x.2 then validateProfile x.1 owners none else PrfRes.bad 0 0
  match one a, one b with
  | .good p, .good q => .good (if p.seq < q.seq then q else p)
  | .good p, .bad _ _ => .good p
  | .bad _ _, .good q => .good q
  | .bad c o, .bad c' o' => if a.2 then .bad c o else .bad c' o'

/-! The Primer (R498, R499). -/

/-- What the Primer's verification found. -/
inductive BootRes where
  | source
  | noImage
  | host
  | boot (img : List Byte) (prf : PrfRes)
  | firmware (img : List Byte)
  deriving DecidableEq, Repr

/-- The Primer's choice from flash (R493, R497, R499): BOOT_SEL 0b01 waits for the host; 0b10 falls back to it; 0b11 is
reserved. -/
def flashBoot (sel : Nat) (i : Ident) (img0 img1 : List Byte) (prf0 prf1 : List Byte × Bool) : BootRes :=
  if sel = 3 then .source
  else if sel = 1 then .host
  else match chooseImage i img0 img1 with
    | some img => .boot img (chooseProfile (imageOwners img) prf0 prf1)
    | none => if sel = 2 then .host else .noImage

/-- What the Primer's firmware stage makes of a verification (R508): of the Atelier's reboot it runs the image alone, and
leaves the profile, the fuses and the measurements as they are (log entry 89). -/
def BootRes.again : BootRes → BootRes
  | .boot img _ => .firmware img
  | r => r

/-- The fuses and measurements after a boot (R498, R503). -/
def bootIdent (r : BootRes) (i : Ident) : Ident :=
  match r with
  | .boot img prf =>
    let n := leAt img 8 4
    let k := leAt img 6 1
    let mask := leAt img 7 1 % 16
    let m1 := phDigest (img.take (n - 128))
    let m2 := match prf with
      | .good p => p.digest
      | .bad _ _ => zeros 64
    { i with
      revoked := i.revoked ||| (if mask.testBit k then mask - 2 ^ k else mask)
      svnMin := if (leAt img 0x1C 1).testBit 0 then max i.svnMin (leAt img 0xC 4) else i.svnMin
      meas := [padTo 64 Config.primerDigest, padTo 64 m1, padTo 64 m2, zeros 64] }
  | _ => i

/-- An Atelier core starts at an address, in supervisor mode with mmu = 0 (R119, R498, R501). -/
def Dev.startAtl (d : Dev) (k : Nat) (pc : Word) : Dev :=
  d.setThr (1536 + k) { Thread.reset with pc := pc, sstatus := 1, run := .running }

/-- The boot reads the journal (R511): the record used, and FIX_INCOMPLETE if one could not be written. -/
def Dev.journalRead (d : Dev) : Dev :=
  let j := d.mgt.journal
  let d : Dev := { d with mgt := { d.mgt with journal := { j with missed := false, used := j.latest } } }
  if j.missed then d.raise Src.fixIncomplete 0 else d

/-- The device after the Primer's verification (R495, R498, R499). -/
def bootDev (r : BootRes) (d : Dev) : Dev :=
  match r with
  | .source => d.raise Src.bootSource 0
  | .noImage => d.raise Src.bootImageInvalid 0
  | .host => d.setRb Reg.ATL_BOOT 30 true
  | .boot img prf =>
    let n := leAt img 8 4
    let d := d.journalRead.memWrite atlSramBase (img.take n)
    let d := { d with prf := { d.prf with owners := imageOwners img }, mgt := { d.mgt with svn := leAt img 0xC 4, entry := wd (leAt img 0x18 4) } }
    let d := match prf with
      | .good p => d.installProfile p
      | .bad c _ => d.raise Src.profileInvalid c
    (d.setRf Reg.GLB_RUN_STATE 3 0 2).startAtl 0 (wd (leAt img 0x18 4))
  | .firmware img =>
    let d := d.memWrite atlSramBase (img.take (leAt img 8 4))
    let d := { d with prf := { d.prf with owners := imageOwners img }
                      mgt := { d.mgt with svn := leAt img 0xC 4, entry := wd (leAt img 0x18 4), reboot := false } }
    d.startAtl 0 (wd (leAt img 0x18 4))

/-- Whether PWRFAIL_N has been high for 10 ms. -/
def Dev.pfHigh (d : Dev) (now : Nat) : Bool := match d.pins.pfUp with
  | some t => d.pins.pwrfailN && decide (t + 10000000 ≤ now)
  | none => false

/-- Whether the Primer may run (R498, R569): stage 0x1, and, where PWRFAIL_N was low when RESET_N was released, PWRFAIL_N
high for 10 ms. -/
def Dev.primerRuns (d : Dev) (now : Nat) : Bool := decide (d.stage = 1) && (!d.pins.pfLow || d.pfHigh now)

/-- What the Primer makes of a verification now: a boot in stage 0x1, its firmware stage in a reboot of the Atelier (R498,
R508); none while the Primer does not run. -/
def Dev.primerDoes (d : Dev) (now : Nat) (r : BootRes) : Option BootRes :=
  if d.primerRuns now then some r else if d.mgt.reboot then some r.again else none

/-- What PRIMER_BOOT finds in flash; none while the Primer may not run, or waits for the host. -/
def Dev.primerRes (d : Dev) (now : Nat) (i : Ident) (img0 img1 : List Byte) (prf0 prf1 : List Byte × Bool) : Option BootRes :=
  if d.rb Reg.ATL_BOOT 30 then none else d.primerDoes now (flashBoot d.mgt.bootSel i img0 img1 prf0 prf1)

/-- PRIMER_BOOT on the fuses. -/
def primerBootIdent (now : Nat) (img0 img1 : List Byte) (prf0 prf1 : List Byte × Bool) (d : Dev) (i : Ident) : Ident :=
  match d.primerRes now i img0 img1 prf0 prf1 with
  | some r => bootIdent r i
  | none => i

/-- PRIMER_BOOT on the device. -/
def primerBootDev (now : Nat) (i : Ident) (img0 img1 : List Byte) (prf0 prf1 : List Byte × Bool) (d : Dev) : Dev :=
  match d.primerRes now i img0 img1 prf0 prf1 with
  | some r => bootDev r d
  | none => d

/-- The host sets ATL_BOOT.go (R495). -/
def hostBootGo (d : Dev) : Dev := d.setRb Reg.ATL_BOOT 31 true

/-- What the Primer finds once the host's image and profile have been read; none of them where a read failed. -/
def Dev.hostRes (d : Dev) (now : Nat) (i : Ident) (data : Option (List Byte × List Byte)) : Option BootRes :=
  if d.rb Reg.ATL_BOOT 30 && d.rb Reg.ATL_BOOT 31 then
    d.primerDoes now (match data with
      | some (img, prf) => if imageOk i img then .boot img (validateProfile prf (imageOwners img) none) else .noImage
      | none => .noImage)
  else none

/-- The host-boot DMA ends, on the fuses (R495). -/
def hostDmaIdent (now : Nat) (data : Option (List Byte × List Byte)) (d : Dev) (i : Ident) : Ident :=
  match d.hostRes now i data with
  | some r => bootIdent r i
  | none => i

/-- The host-boot DMA ends (R495): waiting clears and the image boots; a failed read or an image that does not verify
sets error, clears go, and the Primer waits again. -/
def hostDmaDev (now : Nat) (i : Ident) (data : Option (List Byte × List Byte)) (d : Dev) : Dev :=
  match d.hostRes now i data with
  | some (.boot img prf) => bootDev (.boot img prf) (d.setRb Reg.ATL_BOOT 30 false)
  | some (.firmware img) => bootDev (.firmware img) (d.setRb Reg.ATL_BOOT 30 false)
  | some _ => (d.setRb Reg.ATL_BOOT 31 false).setRb Reg.ATL_BOOT 29 true
  | none => d

end Sys2Proof.Machine
end

