-- ==== Sys2Proof/Machine/Tca.lean ====
section
/-!
DEFINITION. The table cache (R449 to R456, R458): lines, pseudo-LRU replacement, fills, merging buffers, range
invalidation and preload, and the reads and writes of a table held in DRAM.
-/

namespace Sys2Proof.Machine

/-- The slice of a line address (R449). -/
def tcaSlice (l : Nat) : Nat := (l % 8) ^^^ (l / 2 ^ 15 % 8) ^^^ (l / 2 ^ 30 % 8)
/-- The set of a line address within its slice, as slice × 4096 + set (R449). -/
def tcaSet (l : Nat) : Nat := tcaSlice l * 4096 + l / 8 % 4096

/-- The line in a way of a set. -/
def Dev.tcaWay (d : Dev) (set way : Nat) : Option TcaLine := tget none d.tca.lines (set * 16 + way)
/-- The way that holds a line, if one does. -/
def Dev.tcaFind (d : Dev) (l : Nat) : Option Nat :=
  (List.range 16).find? (fun w => match d.tcaWay (tcaSet l) w with
    | some x => decide (x.line = l)
    | none => false)
/-- The way that serves an access to a line: none while the cache does not allocate, when accesses go to DRAM (R458). -/
def Dev.tcaServe (d : Dev) (l : Nat) : Option Nat := if d.rb Reg.TCA_CTL 0 then d.tcaFind l else none
/-- The device with a way's contents replaced. -/
def Dev.setWay (d : Dev) (set way : Nat) (x : Option TcaLine) : Dev :=
  { d with tca := { d.tca with lines := tset none d.tca.lines (set * 16 + way) x } }

/-- The ways locked to any table (R452). -/
def Dev.lockedWays (d : Dev) : Nat := (List.range 256).foldl (fun m i => m ||| d.rf (Reg.TCA_WAYS i) 15 0) 0
/-- The ways a table may allocate into (R452). -/
def Dev.tableWays (d : Dev) (id : Nat) : Nat :=
  let m := d.rf (Reg.TCA_WAYS id) 15 0
  if m ≠ 0 then m else 0xFFFF - d.lockedWays

/-- The tree node after one step of a way's path: node n of a 15-node tree has children 2n + 1 and 2n + 2. -/
def plruTouch (way : Nat) : (fuel node tree : Nat) → Nat
  | 0, _, t => t
  | k + 1, n, t =>
    let right := way.testBit k
    let t := if t.testBit n = right then t ^^^ 2 ^ n else t
    plruTouch way k (2 * n + 1 + b2n right) t

/-- The ways below a node at height k whose first way is `lo`, as a mask. -/
def plruSpan (lo k : Nat) : Nat := (2 ^ 2 ^ k - 1) * 2 ^ lo

/-- The way that tree pseudo-LRU picks among allowed ways: at each node the side its bit points to, unless no allowed
way lies there (R449). A bit of 0 points to the lower ways. -/
def plruVictim (tree allowed : Nat) : (fuel node lo : Nat) → Nat
  | 0, _, lo => lo
  | k + 1, n, lo =>
    let right := if tree.testBit n then decide (allowed &&& plruSpan (lo + 2 ^ k) k ≠ 0)
      else decide (allowed &&& plruSpan lo k = 0)
    plruVictim tree allowed k (2 * n + 1 + b2n right) (if right then lo + 2 ^ k else lo)

/-- An access makes a way the most recently used of its set. -/
def Dev.touchWay (d : Dev) (set way : Nat) : Dev :=
  { d with tca := { d.tca with plru := tset 0 d.tca.plru set (plruTouch way 4 0 (tget 0 d.tca.plru set)) } }

/-- A line installed for a table: in place if it is resident, else over the victim of its set, which enters the slice's
8-entry victim buffer (R449, R452, R454). -/
def Dev.tcaInstall (d : Dev) (id : Nat) (x : TcaLine) : Dev :=
  let set := tcaSet x.line
  match d.tcaFind x.line with
  | some w => (d.setWay set w (some x)).touchWay set w
  | none =>
    let ways := d.tableWays id
    if ways = 0 then d
    else
      let w := plruVictim (tget 0 d.tca.plru set) ways 4 0 0
      let s := tcaSlice x.line
      let d := match d.tcaWay set w with
        | some v =>
          let vs := (v :: tget [] d.tca.victims s).take 8
          { d with tca := { d.tca with victims := tset [] d.tca.victims s vs } }
        | none => d
      (d.setWay set w (some x)).touchWay set w

/-- The bytes written to a line and not yet in DRAM, over its bytes in DRAM (R451, R454). -/
def Dev.lineFromDram (d : Dev) (l : Nat) : List Byte :=
  (d.tca.mbs.flatMap (·.2)).foldl
    (fun bs e => if e.line = l then e.bytes.foldl (fun bs x => match x.2 with
      | some b => patch bs x.1 [b]
      | none => bs) bs else bs)
    (d.memRead (64 * l) 64)

/-- The resident line that serves an access: not one marked stale, for which the access waits (R453). -/
def Dev.freshLine (d : Dev) (l : Nat) : Option TcaLine :=
  ((d.tcaServe l).bind (d.tcaWay (tcaSet l))).filter (fun x => !x.stale)

/-- A line as a table access sees it: from a completed fill, or resident, or from DRAM; none if its fill was poisoned. -/
def Dev.lineData (d : Dev) (l : Nat) : Option (List Byte) :=
  match d.tca.got.lookup l with
  | some r => r
  | none => match d.freshLine l with
    | some x => some x.data
    | none => if d.dead (64 * l) 64 then none else some (d.lineFromDram l)

/-- n bytes of a DRAM table from an address, through the cache; none for an uncorrectable error. -/
def Dev.tcaRead (d : Dev) (a n : Nat) : Option (List Byte) :=
  let l := a / 64
  let parts := (List.range ((a + n - 1) / 64 + 1 - l)).map (fun i => d.lineData (l + i))
  if parts.any Option.isNone then none
  else some (slice ((parts.filterMap id).flatten) (a % 64) n)

/-- The slice's victim buffer without a line, and that line if it was there. -/
def Dev.takeVictim (d : Dev) (l : Nat) : Option TcaLine × Dev :=
  let vs := tget [] d.tca.victims (tcaSlice l)
  match vs.find? (fun v => decide (v.line = l)) with
  | none => (none, d)
  | some v => (some v, { d with tca := { d.tca with
      victims := tset [] d.tca.victims (tcaSlice l) (vs.filter (fun v => decide (v.line ≠ l))) } })

/-- Whether a fill of a line is outstanding (R450). -/
def Dev.filling (d : Dev) (l : Nat) : Bool := d.tca.fills.any (fun f => decide (f.line = l))
/-- Whether the slice of a line has 32 fills outstanding (R450). -/
def Dev.sliceFull (d : Dev) (l : Nat) : Bool :=
  decide (32 ≤ d.tca.fills.countP (fun f => decide (tcaSlice f.line = tcaSlice l)))

/-- A fill is asked of the DRAM controller, unless one is outstanding, which the miss joins, or the slice has 32 (R450). -/
def Dev.askFill (d : Dev) (now cls id l : Nat) (pre : Bool) : Dev :=
  if d.filling l || d.sliceFull l then d
  else
    let d := { d with tca := { d.tca with fills := d.tca.fills ++ [TcaFill.mk l id false pre] } }
    d.dramAsk now cls (.fill l) (64 * l)

/-- Whether a line can serve an access now: resident and not stale, or held by a completed fill (R450, R453). -/
def Dev.lineReady (d : Dev) (l : Nat) : Bool := (d.tca.got.lookup l).isSome || (d.freshLine l).isSome

/-- Whether an access misses on a line: it is not ready, and no stale copy of it is being refetched (R453). -/
def Dev.lineMissing (d : Dev) (l : Nat) : Bool := !d.lineReady l && (d.tcaServe l).isNone

/-- A lookup misses on a line: counted at its first try, and a victim returns, unless the cache does not allocate, or a fill is
asked for (R450, R454, R458). -/
def Dev.missLine (d : Dev) (now id l : Nat) (first : Bool) : Dev :=
  let d := if first then d.bump64 Reg.TCA_MISS_CNT_LO 1 else d
  let back := if d.rb Reg.TCA_CTL 0 then d.takeVictim l else (none, d)
  match back with
  | (some v, d) => d.tcaInstall id { v with data := d.lineFromDram l }
  | (none, d) => d.askFill now 2 id l false

/-- A line that served an access: counted as a hit unless the access missed on it, and its way made most recent. -/
def Dev.hitLine (d : Dev) (missed : Bool) (l : Nat) : Dev :=
  let d := if missed then d else d.bump64 Reg.TCA_HIT_CNT_LO 1
  match d.tcaServe l with
  | some w => d.touchWay (tcaSet l) w
  | none => d

/-- A maintenance or command access to a line (R450), its wait for a fill or for the refetch of a stale line served within the
step (log entry 63): the line is then read from DRAM, and it is installed unless a fill of it is outstanding, which the access
joins. -/
def Dev.maintLine (d : Dev) (id l : Nat) : Dev :=
  if (d.tcaServe l).isSome then (if (d.freshLine l).isSome then d else d.seeDram (64 * l) 64).hitLine false l
  else
    let d := (d.bump64 Reg.TCA_MISS_CNT_LO 1).seeDram (64 * l) 64
    if d.rb Reg.TCA_CTL 0 && !d.filling l && !d.dead (64 * l) 64 then d.tcaInstall id ⟨l, d.lineFromDram l, false⟩ else d

/-- An entry of a merging buffer with bytes merged from an offset. -/
def MbEntry.merge (e : MbEntry) (off : Nat) (bs : List Byte) : MbEntry :=
  { e with bytes := (List.range bs.length).foldl (fun t i => tset none t (off + i) (some (byteAt bs i))) e.bytes }

/-- Bytes within one line enter the merging buffer of the line's channel; a full buffer drains its oldest entry first
(R451). -/
def Dev.mergeIn (d : Dev) (now l off : Nat) (bs : List Byte) : Dev :=
  let c := (d.dramLoc (64 * l)).1
  let q := tget [] d.tca.mbs c
  let put := fun (d : Dev) (q : List MbEntry) => { d with tca := { d.tca with mbs := tset [] d.tca.mbs c q } }
  if q.any (fun e => decide (e.line = l)) then put d (q.map (fun e => if e.line = l then e.merge off bs else e))
  else
    let n : MbEntry := { line := l, bytes := [], at_ := now }
    match q with
    | e :: r => if 16 ≤ q.length then put (d.drainEntry e) (r ++ [n.merge off bs]) else put d (q ++ [n.merge off bs])
    | [] => put d [n.merge off bs]

/-- A write of bytes within one line of a DRAM table (R451): a resident line and one that a fill holds are updated, and the
bytes enter the merging
buffer of its channel and, for a mirrored table, of the copy's (R443). -/
def Dev.tcaWriteLine (d : Dev) (now : Nat) (mirror : Bool) (l off : Nat) (bs : List Byte) : Dev :=
  let d := match d.tcaFind l with
    | some w => match d.tcaWay (tcaSet l) w with
      | some x => d.setWay (tcaSet l) w (some { x with data := patch x.data off bs })
      | none => d
    | none => d
  let d : Dev := { d with tca := { d.tca with
    got := d.tca.got.map (fun e => if e.1 = l then (l, e.2.map (fun x => patch x off bs)) else e) } }
  let d := d.mergeIn now l off bs
  if mirror then d.mergeIn now (l + d.mirrorDelta / 64) off bs else d

/-- A write of bytes to a DRAM table, line by line. -/
def Dev.tcaWrite (d : Dev) (now : Nat) (mirror : Bool) : (fuel a : Nat) → List Byte → Dev
  | 0, _, _ => d
  | k + 1, a, bs =>
    if bs.isEmpty then d
    else
      let n := 64 - a % 64
      (d.tcaWriteLine now mirror (a / 64) (a % 64) (bs.take n)).tcaWrite now mirror k (a + n) (bs.drop n)

/-! The events of the table cache. -/

/-- A merging-buffer entry drains: with 12 entries held, or 1 µs after it was made (R451); not to a channel that takes no
request (R440, R441). -/
def mergeBufferDrain (now c : Nat) (d : Dev) : Dev :=
  match tget [] d.tca.mbs c with
  | e :: r =>
    if (d.chanOpen c || d.retired c) && decide (12 ≤ r.length + 1 ∨ e.at_ + 1000 ≤ now) then
      { d with tca := { d.tca with mbs := tset [] d.tca.mbs c r } }.drainEntry e
    else d
  | [] => d

/-- The device with TCA_CMD_STATUS. -/
def Dev.tcaResult (d : Dev) (busy : Bool) (r : Nat) : Dev :=
  (d.setRb Reg.TCA_CMD_STATUS 31 busy).setRf Reg.TCA_CMD_STATUS 3 0 r

/-- A TCA_CMD command, refused while another runs (R458). -/
def Dev.tcaCommand (d : Dev) (f : Dev → Dev) : Dev :=
  if d.rb Reg.TCA_CMD_STATUS 31 then d.setRf Reg.TCA_CMD_STATUS 3 0 1 else f d

/-- TCA_CMD 3: every merging buffer drains (R451). -/
def mergeSync (d : Dev) : Dev := d.tcaCommand fun d => d.drainAll.tcaResult false 0

/-- A preload goes on once no line that it asked for is outstanding (R452): its next line is asked for at class 4, or is on its
way already, or it ends. While the slice has 32 fills outstanding it waits for one of them. -/
def Dev.preloadNext (d : Dev) (now : Nat) : Dev :=
  if d.tca.fills.any (fun f => f.pre) then d
  else match d.tca.preload with
    | none => d
    | some (_, _, 0) => { d with tca := { d.tca with preload := none } }.tcaResult false 0
    | some (id, l, n + 1) =>
      let go : Dev := { d with tca := { d.tca with preload := some (id, l + 1, n) } }
      if d.filling l then go else if d.sliceFull l then d else go.askFill now 4 id l true

/-- Whether a way holds locked lines (R452). -/
def Dev.wayLocked (d : Dev) (key : Nat) : Bool := d.lockedWays.testBit (key % 16)

/-- The oldest answered fill of a slice completes (R450, R454): a poisoned line is not installed; one met by a range
invalidation, or while the cache does not allocate, only completes to its requester, but a locked line is installed stale. -/
def tableCacheFill (now s : Nat) (d : Dev) : Dev :=
  match d.tca.fills.find? (fun f => decide (tcaSlice f.line = s) && (d.dramDone (.fill f.line)).isSome) with
  | none => d
  | some f =>
    let bad := ((d.dramDone (.fill f.line)).getD true) || d.dead (64 * f.line) 64
    let d := { d with tca := { d.tca with fills := d.tca.fills.erase f } }.dramDrop (.fill f.line)
    let data := d.lineFromDram f.line
    let keep := fun (d : Dev) (r : Option (List Byte)) =>
      if f.pre then d else { d with tca := { d.tca with got := d.tca.got.filter (fun e => decide (e.1 ≠ f.line)) ++ [(f.line, r)] } }
    let locked := decide (d.rf (Reg.TCA_WAYS f.table) 15 0 ≠ 0)
    let d : Dev :=
      if bad then keep d none
      else if !d.rb Reg.TCA_CTL 0 then keep d (some data)
      else if f.drop then
        let d := keep d (some data)
        if locked then (d.tcaInstall f.table ⟨f.line, data, true⟩).dramAsk now 2 (.stale f.line) (64 * f.line) else d
      else d.tcaInstall f.table ⟨f.line, data, false⟩
    d.preloadNext now

/-- A table that the lines of a way belong to (R452): the one it is locked to, else any without locked ways. -/
def Dev.wayOwner (d : Dev) (way : Nat) : Nat :=
  let mask := fun (id : Nat) => d.rf (Reg.TCA_WAYS id) 15 0
  ((List.range 256).find? (fun id => if d.lockedWays.testBit way then (mask id).testBit way else decide (mask id = 0))).getD 0

/-- TCA_CMD 1: every unlocked line of the range is removed; a locked one is stale until refetched (R453). -/
def rangeInvalidate (now : Nat) (d : Dev) : Dev :=
  d.tcaCommand fun d =>
    let lo := d.rf Reg.TCA_RANGE_BASE_LO 31 6 + d.rf Reg.TCA_RANGE_BASE_HI 7 0 * 2 ^ 26
    let hit := fun (l : Nat) => decide (lo ≤ l ∧ l < lo + (d.reg Reg.TCA_RANGE_SIZE).toNat)
    let mine := d.tca.lines.filter (fun e => (e.2.map (fun x => hit x.line)).getD false)
    let d := { d with tca := { d.tca with
      fills := d.tca.fills.map (fun (f : TcaFill) => if hit f.line then { f with drop := true } else f)
      got := d.tca.got.filter (fun e => !hit e.1)
      victims := tmap [] (fun _ vs => vs.filter (fun v => !hit v.line)) d.tca.victims } }
    let d := mine.foldl (fun d e => match e.2 with
      | none => d
      | some x =>
        if d.wayLocked e.1 then
          let d := d.setWay (e.1 / 16) (e.1 % 16) (some { x with stale := true })
          if x.stale then d else d.dramAsk now 2 (.stale x.line) (64 * x.line)
        else d.setWay (e.1 / 16) (e.1 % 16) none) d
    d.tcaResult false 0

/-- A stale locked line of a slice is refetched (R453); a poisoned one leaves the cache (R432). -/
def staleRefetchDone (s : Nat) (d : Dev) : Dev :=
  match d.tca.lines.find? (fun e => match e.2 with
      | some x => x.stale && decide (tcaSlice x.line = s) && (d.dramDone (.stale x.line)).isSome
      | none => false) with
  | some (k, some x) =>
    let bad := ((d.dramDone (.stale x.line)).getD true) || d.dead (64 * x.line) 64
    let d := d.dramDrop (.stale x.line)
    d.setWay (k / 16) (k % 16) (if bad then none else some { x with data := d.lineFromDram x.line, stale := false })
  | _ => d

/-! Table geometry (R249), shared with the lookup complex. -/

/-- Word w of FWD_TBL[id] (R286). -/
def Dev.tw (d : Dev) (id w : Nat) : Word := d.reg (Reg.FWD_TBL_W0 id + 4 * w)
def Dev.tType (d : Dev) (id : Nat) : Nat := fld (d.tw id 0) 29 27
def Dev.tKeyLen (d : Dev) (id : Nat) : Nat := fld (d.tw id 0) 26 20
def Dev.tResLen (d : Dev) (id : Nat) : Nat := fld (d.tw id 0) 19 14
def Dev.tDram (d : Dev) (id : Nat) : Bool := bit (d.tw id 0) 30
def Dev.tMirror (d : Dev) (id : Nat) : Bool := bit (d.tw id 2) 8
/-- N: buckets or entries (R249). -/
def Dev.tN (d : Dev) (id : Nat) : Nat := 2 ^ fld (d.tw id 2) 4 0
/-- Whether a type is hashed: exact match, LPM, learned MAC or classifier. -/
def hashedType (t : Nat) : Bool := decide (t = 0 ∨ t = 2 ∨ t = 3 ∨ t = 5 ∨ t = 6)
/-- The bytes of a stored key of a type (R249). -/
def storedKeyLen (t keyLen : Nat) : Nat := if t = 2 then 4 else if t = 3 then 16 else if t = 5 then 8 else keyLen
/-- The smallest of 16, 32, 64 and 128 that holds n bytes. -/
def slotPow (n : Nat) : Nat := if n ≤ 16 then 16 else if n ≤ 32 then 32 else if n ≤ 64 then 64 else 128
/-- Slot or entry bytes S of a table given by type, key and result lengths (R249). -/
def slotSize (t keyLen resLen : Nat) : Nat :=
  if t = 4 then (if keyLen = 2 then 4 else 16)
  else if t = 1 then slotPow (8 + resLen)
  else slotPow (8 + storedKeyLen t keyLen + (if t = 6 then 4 else 0) + resLen)
def Dev.tS (d : Dev) (id : Nat) : Nat := slotSize (d.tType id) (d.tKeyLen id) (d.tResLen id)
/-- The bytes of a table's region, a whole number of 256-byte units (R249). -/
def Dev.tBytes (d : Dev) (id : Nat) : Nat :=
  (d.tN id * (if hashedType (d.tType id) then 4 * d.tS id else d.tS id) + 255) / 256 * 256
/-- The internal address of a table's region (R286). -/
def Dev.tBase (d : Dev) (id : Nat) : Nat := (if d.tDram id then 0 else lookupBase) + (d.tw id 1).toNat * 256
/-- Whether a table is enabled. -/
def Dev.tOn (d : Dev) (id : Nat) : Bool := bit (d.tw id 0) 31

/-- TCA_CMD 2: preload fetches every line of a DRAM table at class 4 (R452). -/
def preload (now : Nat) (d : Dev) : Dev :=
  d.tcaCommand fun d =>
    let id := d.rf Reg.TCA_CMD 15 8
    if !d.tOn id || !d.tDram id then d.tcaResult false 2
    else
      ({ d with tca := { d.tca with preload := some (id, d.tBase id / 64, d.tBytes id / 64) } }.tcaResult true 0).preloadNext now

end Sys2Proof.Machine
end

