-- ==== Sys2Proof/Machine/Table.lean ====
section
/-!
DEFINITION. Lookup tables as stored (R242, R249 to R256): rows in lookup SRAM or in DRAM through the table cache, slots,
hashing, the two-bucket search and the placement of an insert; enabling a table and its initialisation.
-/

namespace Sys2Proof.Machine

/-! Statuses of R280. -/
namespace TSt
def notFound : Nat := 1
def exists_ : Nat := 2
def full : Nat := 3
def table : Nat := 4
def field : Nat := 5
def pending : Nat := 6
def priority : Nat := 7
def ecc : Nat := 8
def busy : Nat := 9
end TSt

/-! Rows. -/

/-- The SRAM rows in error among those of n bytes at an internal address (R288). -/
def Dev.badAmong (d : Dev) (a n : Nat) : List Nat :=
  (d.fwd.badRows.map (·.1)).filter (fun r => decide ((a - lookupBase) / 256 ≤ r ∧ r ≤ (a + n - 1 - lookupBase) / 256))

/-- Whether n bytes at an internal address touch an SRAM row in error (R288). -/
def Dev.rowBad (d : Dev) (a n : Nat) : Bool := !d.fwd.badRows.isEmpty && !(d.badAmong a n).isEmpty

/-- An access meets an SRAM row in error (R286, R288): FWD_ECC_STATUS captures the first, and each is recorded. -/
def Dev.meetRow (d : Dev) (row : Nat) : Dev :=
  let d := if d.rb Reg.FWD_ECC_STATUS 31 then d else d.setReg Reg.FWD_ECC_STATUS (wd (2 ^ 31 + row))
  d.raise Src.fwdTblEcc row

/-- A run of bytes of a table's region: the table, the offset and the length. -/
structure Span where
  table : Nat
  off : Nat
  len : Nat
  deriving DecidableEq, Repr

/-- The lines of 64 bytes that a span lies in, if its table is held in DRAM. -/
def Dev.spanLines (d : Dev) (s : Span) : List Nat :=
  if d.tDram s.table then
    let a := d.tBase s.table + s.off
    (List.range ((a + s.len - 1) / 64 + 1 - a / 64)).map (a / 64 + ·)
  else []

/-- Every SRAM row in error that some spans touch is met (R288). -/
def Dev.meetRows (d : Dev) (ss : List Span) : Dev :=
  (ss.flatMap (fun s => if d.tDram s.table then [] else d.badAmong (d.tBase s.table + s.off) s.len)).eraseDups.foldl
    (fun d r => d.meetRow r) d

/-- A command or maintenance access to some spans: their lines go through the table cache, a miss served within the step
(R450), and rows in error are recorded (R288). -/
def Dev.touch (d : Dev) (ss : List Span) : Dev :=
  ss.foldl (fun d s => (d.spanLines s).foldl (fun d l => d.maintLine s.table l) d) (d.meetRows ss)

/-- n bytes of a table's region from an offset; none for an uncorrectable error. -/
def Dev.tblRead (d : Dev) (id off n : Nat) : Option (List Byte) :=
  let a := d.tBase id + off
  if d.tDram id then d.tcaRead a n
  else if d.rowBad a n then none
  else some (d.memRead a n)

/-- Bytes written to a table's region at an offset. -/
def Dev.tblWrite (d : Dev) (now id off : Nat) (bs : List Byte) : Dev :=
  let a := d.tBase id + off
  if d.tDram id then d.tcaWrite now (d.tMirror id) 4 a bs else d.memWrite a bs

/-! Slots (R252). -/

/-- A slot's header word 0. -/
def slotW0 (s : List Byte) : Word := wd (leAt s 0 4)
/-- A slot's header word 1. -/
def slotW1 (s : List Byte) : Nat := leAt s 4 4
/-- Whether a slot holds an entry. -/
def slotValid (s : List Byte) : Bool := bit (slotW0 s) 31
/-- Whether a slot is reserved by a staged insert. -/
def slotPend (s : List Byte) : Bool := bit (slotW0 s) 24
/-- A slot's aux field: LPM prefix length, classifier tuple number. -/
def slotAux (s : List Byte) : Nat := fld (slotW0 s) 23 16
/-- A slot with header word 0 replaced. -/
def slotSetW0 (s : List Byte) (w : Word) : List Byte := patch s 0 (leBytes 4 w.toNat)

/-- Bytes of a stored key. -/
def Dev.tStored (d : Dev) (id : Nat) : Nat := storedKeyLen (d.tType id) (d.tKeyLen id)
/-- A slot's stored key. -/
def Dev.slotKey (d : Dev) (id : Nat) (s : List Byte) : List Byte := slice s 8 (d.tStored id)
/-- A slot's opaque value: classifiers only. -/
def Dev.slotOpaque (d : Dev) (id : Nat) (s : List Byte) : Nat :=
  if d.tType id = 6 then leAt s (8 + d.tStored id) 4 else 0
/-- The offset of the result in a slot or direct entry. -/
def Dev.resOff (d : Dev) (id : Nat) : Nat :=
  if d.tType id = 1 then 8 else 8 + d.tStored id + (if d.tType id = 6 then 4 else 0)
/-- A slot's result bytes. -/
def Dev.slotRes (d : Dev) (id : Nat) (s : List Byte) : List Byte := slice s (d.resOff id) (d.tResLen id)

/-- A slot of entry index i: in a bucket, or a stash position from index 4N (R258); none for an uncorrectable error. -/
def Dev.slotAt (d : Dev) (id i : Nat) : Option (List Byte) :=
  if hashedType (d.tType id) && decide (4 * d.tN id ≤ i) then
    some (padTo (d.tS id) (tget [] d.fwd.stash (16 * id + (i - 4 * d.tN id))))
  else d.tblRead id (i * d.tS id) (d.tS id)

/-- A table's count of valid entries, pend excluded, and of stash entries, as one slot's contents change (R286). -/
def Dev.countSlot (d : Dev) (id i : Nat) (old new : List Byte) : Dev :=
  let live := fun (s : List Byte) => b2n (slotValid s && !slotPend s)
  let n := d.rf (Reg.FWD_TBL_STAT_W0 id) 26 0 + live new - live old
  let d := d.setRf (Reg.FWD_TBL_STAT_W0 id) 26 0 n
  if hashedType (d.tType id) && decide (4 * d.tN id ≤ i) then
    d.setRf (Reg.FWD_TBL_STAT_W2 id) 4 0 (d.rf (Reg.FWD_TBL_STAT_W2 id) 4 0 + b2n (slotValid new) - b2n (slotValid old))
  else d

/-- The slot of an entry index rewritten whole. -/
def Dev.putSlot (d : Dev) (now id i : Nat) (s : List Byte) : Dev :=
  let old := (d.slotAt id i).getD []
  let s := padTo (d.tS id) s
  let d := if d.tType id = 4 then d else d.countSlot id i old s
  if hashedType (d.tType id) && decide (4 * d.tN id ≤ i) then
    let v := if slotValid s then s else []
    { d with fwd := { d.fwd with stash := tset [] d.fwd.stash (16 * id + (i - 4 * d.tN id)) v } }
  else
    let a := d.tBase id + i * d.tS id
    (if d.tDram id then d else d.rewriteRows a (d.tS id)).tblWrite now id (i * d.tS id) s

/-- A slot's header word 0 changed in place: hit bits and ages (R257, R276). -/
def Dev.putHeader0 (d : Dev) (now id i : Nat) (w : Word) : Dev :=
  if hashedType (d.tType id) && decide (4 * d.tN id ≤ i) then
    let k := 16 * id + (i - 4 * d.tN id)
    { d with fwd := { d.fwd with stash := tset [] d.fwd.stash k (slotSetW0 (tget [] d.fwd.stash k) w) } }
  else d.tblWrite now id (i * d.tS id) (leBytes 4 w.toNat)

/-! Hashing and search (R253, R254). -/

/-- The hashed key: aux prefixed as one byte for LPM and classifier tables (R253). -/
def hashedKey (t aux : Nat) (key : List Byte) : List Byte :=
  if t = 2 ∨ t = 3 ∨ t = 6 then BitVec.ofNat 8 aux :: key else key

/-- The candidate buckets b0 and b1 of a key (R253). -/
def Dev.buckets (d : Dev) (id aux : Nat) (key : List Byte) : Nat × Nat :=
  let seed := d.tw id 3
  let k := hashedKey (d.tType id) aux key
  let half := d.tN id / 2
  (crc32c seed.toNat k % half, half + crc32c (shiftW .rol seed 16).1.toNat k % half)

/-- The entry indices a search reads: both candidate buckets, then the stash (R254). -/
def Dev.candidates2 (d : Dev) (id aux : Nat) (key : List Byte) : List Nat :=
  let b := d.buckets id aux key
  (List.range 4).map (4 * b.1 + ·) ++ (List.range 4).map (4 * b.2 + ·) ++ (List.range 16).map (4 * d.tN id + ·)

/-- What a search finds: an uncorrectable error, nothing, or an entry index with its slot. -/
inductive Found where
  | ecc
  | miss
  | at_ (i : Nat) (s : List Byte)
  deriving DecidableEq, Repr

/-- A search of a hashed table (R254); `pend` says whether reserved slots match too, as staging sees them (R283). -/
def Dev.findSlot (d : Dev) (id aux : Nat) (key : List Byte) (pend : Bool) : Found :=
  let slots := (d.candidates2 id aux key).map (fun i => (i, d.slotAt id i))
  if slots.any (fun e => e.2.isNone) then .ecc
  else match slots.find? (fun e => match e.2 with
      | some s => slotValid s && (pend || !slotPend s) && decide (slotAux s = aux) && decide (d.slotKey id s = key)
      | none => false) with
    | some (i, some s) => .at_ i s
    | _ => .miss

/-! Placement (R255, R256). -/

/-- The span of a bucket. -/
def Dev.bucketSpan (d : Dev) (id b : Nat) : Span := ⟨id, 4 * d.tS id * b, 4 * d.tS id⟩

/-- Whether a bucket's row read meets an uncorrectable error (R280). -/
def Dev.bucketBad (d : Dev) (id b : Nat) : Bool := (List.range 4).any (fun k => (d.slotAt id (4 * b + k)).isNone)

/-- The first free slot of a bucket. -/
def Dev.freeSlot4 (d : Dev) (id b : Nat) : Option Nat :=
  ((List.range 4).map (4 * b + ·)).find? (fun i => match d.slotAt id i with
    | some s => !slotValid s
    | none => false)

/-- The first free stash position, as an entry index. -/
def Dev.freeStash (d : Dev) (id : Nat) : Option Nat :=
  ((List.range 16).map (4 * d.tN id + ·)).find? (fun i => match d.slotAt id i with
    | some s => !slotValid s
    | none => false)

/-- reloc_count, one more (R255). -/
def Dev.reloc (d : Dev) (id : Nat) : Dev := d.bump (Reg.FWD_TBL_STAT_W1 id) 1

/-- What a placement comes to (R255, R280): done; no room; or an error in the row of a bucket that it read. The device of
the last two holds every displacement, none undone yet. -/
inductive Placed where
  | done (d : Dev)
  | full (d : Dev)
  | ecc (d : Dev) (bucket : Nat)

/-- Displacement along one path (R255): the entry `cur` takes slot (reloc_count mod 4) of bucket b, whose entry moves to
its own alternate bucket; after the last displacement it goes to the stash. -/
def Dev.displace (d : Dev) (now id : Nat) : (fuel : Nat) → (cur : List Byte) → (b : Nat) → Placed
  | 0, cur, _ => match d.freeStash id with
    | some i => .done ((d.putSlot now id i cur).reloc id)
    | none => .full d
  | n + 1, cur, b =>
    let i := 4 * b + (d.reg (Reg.FWD_TBL_STAT_W1 id)).toNat % 4
    let v := (d.slotAt id i).getD []
    let d := (d.putSlot now id i cur).reloc id
    let c := d.buckets id (slotAux v) (d.slotKey id v)
    let alt := if b = c.1 then c.2 else c.1
    if d.bucketBad id alt then .ecc d alt
    else match d.freeSlot4 id alt with
      | some j => .done (d.putSlot now id j v)
      | none => d.displace now id n v alt

/-- An insert (R255): its status (0, FULL or ECC) and the device, in which a failed one leaves only reloc_count advanced and
the errors met. Both candidate buckets are read first (R280). -/
def Dev.insertSlot (d : Dev) (now id : Nat) (s : List Byte) : Nat × Dev :=
  let b := d.buckets id (slotAux s) (d.slotKey id s)
  let undo := fun (e : Dev) => d.setReg (Reg.FWD_TBL_STAT_W1 id) (e.reg (Reg.FWD_TBL_STAT_W1 id))
  if d.bucketBad id b.1 || d.bucketBad id b.2 then (TSt.ecc, d.meetRows [d.bucketSpan id b.1, d.bucketSpan id b.2])
  else match d.freeSlot4 id b.1, d.freeSlot4 id b.2 with
  | some i, _ => (0, d.putSlot now id i s)
  | none, some i => (0, d.putSlot now id i s)
  | none, none => match d.displace now id 8 s b.1 with
    | .done e => (0, e)
    | .full e => (TSt.full, undo e)
    | .ecc e x => (TSt.ecc, (undo e).meetRows [d.bucketSpan id x])

/-! Service, enabling and initialisation (R250, R251). -/

/-- Whether a table's initialisation runs. -/
def Dev.tInit (d : Dev) (id : Nat) : Bool := d.rb (Reg.FWD_TBL_STAT_W0 id) 31
/-- Whether a table is enabled and initialised. -/
def Dev.tReady (d : Dev) (id : Nat) : Bool := d.tOn id && !d.tInit id

/-- Whether the fields of word 0 (v) and the other words of a table lie within R248 and R250. -/
def Dev.tableFits (d : Dev) (id : Nat) (v : Word) : Bool :=
  let t := fld v 29 27
  let kl := fld v 26 20
  let rl := fld v 19 14
  let sl := fld (d.tw id 2) 4 0
  let dram := bit v 30
  let keyOk := match t with
    | 0 | 6 => decide (kl ∈ [16, 32, 48, 64])
    | 1 => decide (1 ≤ kl ∧ kl ≤ 4)
    | 2 => decide (kl = 4)
    | 3 => decide (kl = 16)
    | 4 => decide (kl = 2 ∧ rl = 4 ∧ sl = 16) || (decide (kl = 3 ∧ rl = 16 ∧ sl = 24) && dram)
    | 5 => decide (kl = 8)
    | _ => false
  let resOk := match t with
    | 0 | 1 => decide (rl ≤ 32 ∧ rl % 4 = 0)
    | 2 | 3 => decide (rl ≤ 8 ∧ rl % 4 = 0)
    | 4 => true
    | 5 => decide (rl = 8)
    | _ => decide (rl ≤ 28 ∧ rl % 4 = 0) && !dram
  let f := fld v 7 0
  let lpmOk := !decide (t = 2 ∨ t = 3) ||
    (decide (1 ≤ fld v 11 8 ∧ fld v 11 8 ≤ 8) && decide (f ≠ id) && d.tOn f && decide (d.tType f = 4)
      && decide (d.tKeyLen f = if t = 2 then 2 else 3))
  let ageOk := !bit (d.tw id 4) 31 || decide (t = 0 ∨ t = 5)
  keyOk && resOk && decide (1 ≤ sl ∧ sl ≤ 24) && lpmOk && ageOk

/-- Whether two enabled tables' regions share a byte (R250). -/
def Dev.regionsMeet (d : Dev) (a b : Nat) : Bool :=
  decide (d.tDram a = d.tDram b) && decide (d.tBase a < d.tBase b + d.tBytes b ∧ d.tBase b < d.tBase a + d.tBytes a)

/-- Whether DRC_MIRROR_DELTA meets R443: a multiple of g whose copies lie on other channels. -/
def Dev.deltaValid (d : Dev) : Bool :=
  decide (d.dramK ≠ 0 ∧ d.mirrorDelta % d.grain = 0 ∧ d.mirrorDelta / d.grain % d.dramK ≠ 0)

/-- Whether a region and its copy may be mirrored (R443): a valid delta, and both within the interleaved part. -/
def Dev.mayMirror (d : Dev) (base size : Nat) : Bool :=
  d.deltaValid && decide (base + size + d.mirrorDelta ≤ d.dramK * d.dramCmin)

/-- The mirrored regions without one. -/
def Dev.unmirror (d : Dev) (base size : Nat) : Dev :=
  { d with drc := { d.drc with mirrors := d.drc.mirrors.erase (base, size) } }

/-- A write of FWD_TBL word 0 with enable = 1 (R250, R251): refused while the table is enabled; else checked, and
initialisation starts. -/
def fwdTblEnable (r : Req) (id : Nat) (v : Word) (d : Dev) : Dev :=
  let off := Reg.FWD_TBL_W0 id
  if d.tOn id then d.refuse r off
  else
    let n := d.setReg off (setFld (setBit v 31 true) 13 12 0)
    let base := n.tBase id
    let size := n.tBytes id
    let limit := if n.tDram id then n.fittedDram else lookupBase + 0x3000000
    if !d.tableFits id v || decide (limit < base + size)
        || (List.range 256).any (fun j => decide (j ≠ id) && d.tOn j && n.regionsMeet id j)
        || (n.tDram id && n.tMirror id && !d.mayMirror base size) then d.conflict r off
    else
      let n := (List.range 8).foldl (fun d w => d.setReg (Reg.FWD_TBL_STAT_W0 id + 4 * w) 0) n
      let n := n.setRb (Reg.FWD_TBL_STAT_W0 id) 31 true
      let n : Dev := { n with fwd := { n.fwd with sweep := tset (0, 0, 0) n.fwd.sweep id (0, 0, 0) } }
      if n.tDram id && n.tMirror id then { n with drc := { n.drc with mirrors := n.drc.mirrors ++ [(base, size)] } } else n

/-- A write of FWD_TBL word 0 that clears enable (R251): lookups stop and the table's queued learns are discarded. -/
def fwdTblDisable (id : Nat) (v : Word) (d : Dev) : Dev :=
  let off := Reg.FWD_TBL_W0 id
  let w := setFld (setBit v 31 false) 13 12 0
  if !d.tOn id then d.setReg off w
  else
    let d := d.unmirror (d.tBase id) (d.tBytes id)
    let mine := fun (l : Learn) => decide (l.table ≠ id)
    let d := { d with fwd := { d.fwd with
      queues := tset [] d.fwd.queues id []
      posts := d.fwd.posts.filter mine
      learning := d.fwd.learning.filter (fun e => mine e.1) } }
    (d.setReg off w).setRb (Reg.FWD_TBL_STAT_W0 id) 31 false

/-- Initialisation ends (R250): every row of the region has all slots invalid and every filter vector is zero. -/
def tableInitDone (id : Nat) (d : Dev) : Dev :=
  if !d.tOn id || !d.tInit id then d
  else
    let a := d.tBase id
    let z := d.tBase id + d.tBytes id
    let within := fun (x : Nat) => decide (a ≤ x ∧ x < z)
    let copy := if d.tMirror id && d.tDram id then d.mirrorDelta else 0
    let inCopy := fun (x : Nat) => decide (copy ≠ 0) && within (x - copy) && decide (copy ≤ x)
    let wipe := fun (x : TcaLine) => if within (64 * x.line) then { x with data := zeros 64 } else x
    let d : Dev := { d with
      mem := d.mem.filter (fun e => !(within e.1 || inCopy e.1))
      drc := { d.drc with poison := d.drc.poison.filter (fun e => !(within (4 * e.1) || inCopy (4 * e.1))) }
      tca := { d.tca with
        lines := tmap none (fun _ x => x.map wipe) d.tca.lines
        got := d.tca.got.filter (fun e => !within (64 * e.1))
        mbs := tmap [] (fun _ es => es.filter (fun e => !(within (64 * e.line) || inCopy (64 * e.line)))) d.tca.mbs }
      fwd := { d.fwd with
        stash := tdrop (fun k => decide (k / 16 = id)) d.fwd.stash
        tuples := tdrop (fun k => decide (k / 64 = id)) d.fwd.tuples
        badRows := d.fwd.badRows.filter (fun e => !(within (lookupBase + 256 * e.1) && !d.tDram id)) } }
    let d := d.setRb (Reg.FWD_TBL_STAT_W0 id) 31 false
    if d.tType id = 4 then d.setRf (Reg.FWD_TBL_STAT_W0 id) 26 0 (d.tN id) else d

end Sys2Proof.Machine
end

