-- ==== Sys2Proof/Machine/Lookup.lean ====
section
/-!
DEFINITION. The lookup engines (R241 to R270), the learner (R271 to R275), the aging sweeper (R276 to R278) and the
flush walker (R284).
-/

namespace Sys2Proof.Machine

/-! Engine searches. -/

/-- The index a direct-index key forms: byte 0 most significant (R259). -/
def directIndex (key : List Byte) : Nat := beVal key

/-- A prefix of a key at a length: the bits beyond it cleared (R260). -/
def maskTo (len : Nat) (key : List Byte) : List Byte :=
  let w := 8 * key.length
  beBytes key.length (beVal key / 2 ^ (w - len) * 2 ^ (w - len))

/-- The bytes ANDed with a mask (R264). -/
def andBytes (a m : List Byte) : List Byte := (List.range a.length).map (fun i => byteAt a i &&& byteAt m i)

/-- A tuple's rules and mask (R264). -/
def Dev.tuple (d : Dev) (id k : Nat) : Nat × List Byte := tget (0, []) d.fwd.tuples (64 * id + k)

/-- The set lengths of a presence vector, longest first (R260, R262). -/
def setLengths (vec width : Nat) : List Nat := ((List.range width).reverse.filter (fun i => vec.testBit i)).map (· + 1)

/-- An LPM table's filter entry for a key (R260). -/
def Dev.filterIndex (d : Dev) (id : Nat) (key : List Byte) : Nat :=
  directIndex (key.take (if d.tType id = 2 then 2 else 3))

/-- The spans of both candidate buckets. -/
def Dev.bucketSpans (d : Dev) (id aux : Nat) (key : List Byte) : List Span :=
  let b := d.buckets id aux key
  [d.bucketSpan id b.1, d.bucketSpan id b.2]

/-- The span of a direct or filter entry. -/
def Dev.entrySpan (d : Dev) (id i : Nat) : Span := ⟨id, i * d.tS id, d.tS id⟩

/-- What a lookup reads of its tables as far as it knows it: a filter first, then its probes; every tuple of a classifier
(R246, R262, R265). -/
def Dev.lookupSpans (d : Dev) (id : Nat) (key : List Byte) : List Span :=
  if !d.tReady id ∨ key.length ≠ d.tKeyLen id then []
  else match d.tType id with
    | 1 | 4 => if directIndex key < d.tN id then [d.entrySpan id (directIndex key)] else []
    | 2 | 3 =>
      let f := fld (d.tw id 0) 7 0
      let fs := d.entrySpan f (d.filterIndex id key)
      if (d.spanLines fs).all d.lineReady then
        let vec := leVal ((d.tblRead f fs.off fs.len).getD [])
        fs :: ((setLengths vec (8 * key.length)).take (fld (d.tw id 0) 11 8)).flatMap (fun l => d.bucketSpans id l (maskTo l key))
      else [fs]
    | 6 => ((List.range 64).filter (fun k => decide ((d.tuple id k).1 ≠ 0))).flatMap
        (fun k => d.bucketSpans id k (andBytes key (d.tuple id k).2))
    | _ => d.bucketSpans id 0 key

/-- The lines a lookup needs as far as it knows them (R246, R262). -/
def Dev.lookupLines (d : Dev) (id : Nat) (key : List Byte) : List Nat := (d.lookupSpans id key).flatMap d.spanLines

/-- The outcome of a lookup (R226): its code, entry index, opaque value, result data, and what it leaves to do: the slot
whose hit bit is set (entry index), the action list to apply, the learn to post and whether learn_skip counts it. -/
structure LkOut where
  code : Nat
  index : Nat
  opq : Nat
  data : List Byte
  hit : Option Nat
  act : Option Nat
  learn : Bool
  skip : Bool
  deriving DecidableEq, Repr

/-- An outcome with no entry. -/
def LkOut.none (code : Nat) : LkOut :=
  { code := code, index := 0, opq := 0, data := [], hit := .none, act := .none, learn := false, skip := false }

/-- A hit on a slot. -/
def Dev.hitOut (d : Dev) (id i : Nat) (s : List Byte) (setHit : Bool) : LkOut :=
  { LkOut.none 0 with index := i, opq := d.slotOpaque id s, data := d.slotRes id s, hit := if setHit then some i else .none }

/-- An LPM search over the lengths probed in one pass, longest first (R262): an error in any row read, or the first hit. -/
def Dev.lpmProbe (d : Dev) (id : Nat) (key : List Byte) (ls : List Nat) : Option LkOut :=
  let found := ls.map (fun l => d.findSlot id l (maskTo l key) false)
  if found.any (fun f => decide (f = .ecc)) then some (.none 5)
  else found.findSome? fun f => match f with
    | .at_ i s => some (d.hitOut id i s true)
    | _ => none

/-- An LPM lookup (R262, R263). -/
def Dev.lpmOut (d : Dev) (id : Nat) (key : List Byte) : LkOut :=
  let f := fld (d.tw id 0) 7 0
  if !d.tReady f ∨ d.tType f ≠ 4 then .none 3
  else match d.tblRead f (d.filterIndex id key * d.tS f) (d.tS f) with
    | none => .none 5
    | some v =>
      let ls := setLengths (leVal v) (8 * key.length)
      let budget := fld (d.tw id 0) 11 8
      match d.lpmProbe id key (ls.take budget) with
      | some o => o
      | none =>
        if budget < ls.length then .none 2
        else if bit (d.tw id 5) 18 then
          { LkOut.none 0 with index := 0x7FFFFFF, data := (leBytes 4 (d.tw id 6).toNat ++ leBytes 4 (d.tw id 7).toNat).take (d.tResLen id) }
        else .none 1

/-- A classifier lookup (R265): every tuple is probed, and the hit of highest priority wins. -/
def Dev.clsOut (d : Dev) (id : Nat) (key : List Byte) : LkOut :=
  let tuples := (List.range 64).filter (fun k => decide ((d.tuple id k).1 ≠ 0))
  let found := tuples.map (fun k => d.findSlot id k (andBytes key (d.tuple id k).2) false)
  if found.any (fun f => decide (f = .ecc)) then .none 5
  else
    let best := found.foldl (fun (b : Option (Nat × List Byte)) f => match f, b with
      | .at_ i s, some x => if slotW1 x.2 % 2 ^ 20 < slotW1 s % 2 ^ 20 then some (i, s) else b
      | .at_ i s, .none => some (i, s)
      | _, _ => b) Option.none
    match best with
    | none => .none 1
    | some (i, s) =>
      let a := slotW1 s / 2 ^ 20
      { d.hitOut id i s true with act := if a = 0xFFF then .none else some a }

/-- A learned-MAC lookup (R257, R270). -/
def Dev.macOut (d : Dev) (id : Nat) (key : List Byte) (port : Option Nat) : LkOut :=
  let learnEn := bit (d.tw id 5) 17
  match d.findSlot id 0 key false, port with
  | .ecc, _ => .none 5
  | .miss, none => .none 1
  | .miss, some _ => { LkOut.none 1 with learn := learnEn }
  | .at_ i s, none => d.hitOut id i s (!bit (d.tw id 5) 16)
  | .at_ i s, some p =>
    let o := d.hitOut id i s true
    if (byteAt (d.slotRes id s) 0).toNat = p then o
    else if bit (slotW0 s) 27 then { o with skip := true }
    else { o with learn := learnEn }

/-- A lookup's outcome (R226, R248, R258, R259, R270). -/
def Dev.lookupOut (d : Dev) (r : LkReq) : LkOut :=
  let id := r.table
  let t := d.tType id
  if !d.rb Reg.FWD_CTL 0 || !d.tReady id || (decide (t = 6) && !d.rb Reg.CLS_CTL 0) then .none 3
  else if r.bad then .none 6
  else if r.key.length ≠ d.tKeyLen id then .none 4
  else if r.learn.isSome ∧ t ≠ 5 then .none 6
  else match t with
    | 1 | 4 =>
      let i := directIndex r.key
      if d.tN id ≤ i then .none 6
      else match d.slotAt id i with
        | none => .none 5
        | some s =>
          if t = 4 then { LkOut.none 0 with index := i, data := s }
          else if slotValid s && !slotPend s then d.hitOut id i s true
          else .none 1
    | 2 | 3 => d.lpmOut id r.key
    | 6 => d.clsOut id r.key
    | 5 => d.macOut id r.key r.learn
    | _ => match d.findSlot id 0 r.key false with
      | .ecc => .none 5
      | .miss => .none 1
      | .at_ i s => d.hitOut id i s true

/-- The operations of an action list applied in order to a Canvas (R267, R268). -/
def Dev.applyActs (d : Dev) (txn canvas : Nat) (list : List Byte) : List Nat → Dev
  | [] => d
  | j :: r =>
    let w := leAt list (4 + 4 * j) 4
    let layer := (d.memGet (canvas + 0xDC + w / 4 % 16)).toNat
    let o := layer + w / 2 ^ 8 % 256
    let n := w / 2 ^ 16 % 256
    let fn := match w % 4 with
      | 0 => 2
      | 1 => 0
      | _ => 1
    let blk := leBytes 4 (if layer = 0xFF ∨ (255 < o ∧ n ≠ 0) then 2 ^ 16 else if n = 0 then 0 else o + n * 2 ^ 8)
      ++ slice list (16 + w / 2 ^ 24 % 64) n
    (d.editAt (some txn) canvas fn blk).2.applyActs txn canvas list r

/-- Whether a control-plane transaction installs classifier rules, so that classifier lookups pause (R186). -/
def Dev.cpPauses (d : Dev) (c : Cp) : Bool := c.ops.any (fun o => match o with
  | .table _ id _ _ _ _ => decide (d.tType id = 6)
  | _ => false)

/-- Whether a rule install is in progress: classifier lookups wait (R186, R266, R287). -/
def Dev.clsPaused (d : Dev) : Bool := d.vrn.cps.any (fun c => decide (c.stage = .applied) && d.cpPauses c)

/-- Whether a control-plane transaction holds a lookup back (R185), or a rule install the classifier (R186). -/
def Dev.lookupHeld (d : Dev) (r : LkReq) : Bool :=
  (decide (d.tType r.table = 6) && d.clsPaused)
  || match r.under with
    | none => false
    | some (n, k) => d.vrn.cps.any (fun c => notOlder k (tget 0 c.before n) && c.ops.any (fun o => match o with
        | .table _ t _ _ _ _ => decide (t = r.table)
        | _ => false))

/-- Whether the sweeper's last visit of a table, at this time, was to an entry's bucket (R278). -/
def Dev.visitedNow (d : Dev) (now id i : Nat) : Bool :=
  let v := tget (0, 0, 0) d.fwd.sweep id
  decide (v.2.2 ≠ 0 ∧ v.2.1 = now ∧ (v.1 + d.tN id - 1) % d.tN id = min (i / 4) (d.tN id - 1))

/-- A slot's hit bit is set (R257): with a visit in the same cycle, the visit comes first and the slot ends with hit = 1
and age = 0 (R278; one value of the nanosecond counter stands for one cycle, log entry 119). -/
def Dev.setHit (d : Dev) (now id i : Nat) : Dev :=
  let w := setBit (slotW0 ((d.slotAt id i).getD [])) 30 true
  let d := { d with fwd := { d.fwd with hits := (now, id, i) :: d.fwd.hits.filter (fun h => decide (h.1 = now)) } }
  d.putHeader0 now id i (if d.visitedNow now id i then setFld w 29 28 0 else w)

/-- A search ends (R226, R257, R268, R270, R271): a completed fill goes once no other lookup waits for it; the hit bit, the action list, the result block and the completion; a
learn waits to be posted. -/
def Dev.lookupEnd (d : Dev) (now : Nat) (r : LkReq) : Dev :=
  let o := d.lookupOut r
  let spans := d.lookupSpans r.table r.key
  let lines := spans.flatMap d.spanLines
  let d := { d with brs := { d.brs with lookups := d.brs.lookups.erase r } }
  let d := lines.foldl (fun d l => d.hitLine (r.missed.contains l) l) d
  let wanted := fun (l : Nat) => d.brs.lookups.any (fun x => x.missed.contains l)
  let d : Dev := { d with tca := { d.tca with got := d.tca.got.filter (fun e => wanted e.1) } }
  let d := if o.code = 5 then d.meetRows spans else d
  let d := match o.hit with
    | some i => d.setHit now r.table i
    | none => d
  let d := match o.act, r.txn with
    | some a, some k =>
      let list := padTo 64 (tget [] d.fwd.acts a)
      d.applyActs k r.canvas list (List.range (leAt list 0 4 % 4))
    | _, _ => d
  let d := if o.skip then d.bump (Reg.FWD_TBL_STAT_W4 r.table) 1 else d
  let d : Dev := if o.learn then
      let b0 := (d.buckets r.table 0 r.key).1
      { d with fwd := { d.fwd with posts := d.fwd.posts ++ [Learn.mk r.table r.key (r.learn.getD 0) b0] } }
    else d
  let st := o.data.length * 2 ^ 8 + o.code
  (d.memWrite r.result (leBytes 4 st ++ leBytes 4 o.index ++ leBytes 4 o.opq ++ zeros 4 ++ padTo 32 o.data)).complete
    r.cluster r.token (wd st)

/-- The lines that a lookup misses on are fetched, each for the table of its span; each counts one miss for the access
(R450, R458). -/
def Dev.lookupMiss (d : Dev) (now : Nat) (r : LkReq) : Dev :=
  let ls := ((d.lookupSpans r.table r.key).flatMap (fun s => (d.spanLines s).map (fun l => (s.table, l)))).filter
    (fun e => d.lineMissing e.2)
  let y : LkReq := { r with missed := (r.missed ++ ls.map (·.2)).eraseDups }
  let d : Dev := { d with brs := { d.brs with lookups := d.brs.lookups.map (fun x => if x = r then y else x) } }
  ls.foldl (fun d e => if d.lineMissing e.2 then d.missLine now e.1 e.2 (!r.missed.contains e.2) else d) d

/-- A lookup engine serves its oldest request that nothing holds and whose rows are at hand; where there is none, the
oldest request's rows are fetched (R185, R241, R246, R450). -/
def lookupEngineSearch (now e : Nat) (d : Dev) : Dev :=
  let mine := d.brs.lookups.filter (fun r => decide (r.engine = e) && !d.lookupHeld r)
  match mine.find? (fun r => (d.lookupLines r.table r.key).all d.lineReady) with
  | some r => d.lookupEnd now r
  | none => match mine with
    | r :: _ => d.lookupMiss now r
    | [] => d

/-! Events (R285). -/

/-- An event of the learner or the sweeper, if its kind is enabled (R285). -/
def Dev.fwdEvent (d : Dev) (now id kind port stored index : Nat) (key : List Byte) : Dev :=
  if (fld (d.tw id 4) 26 22).testBit kind then
    d.postEvt (fld (d.tw id 4) 30 27)
      ([BitVec.ofNat 8 (0x10 + kind), BitVec.ofNat 8 id, BitVec.ofNat 8 port, BitVec.ofNat 8 stored] ++ leBytes 4 index
        ++ padTo 8 key ++ leBytes 8 now)
  else d

/-- Whether a pending control-plane transaction pins or reserves an entry (R184). -/
def Dev.pinned (d : Dev) (id aux : Nat) (key : List Byte) : Bool :=
  d.vrn.cps.any (fun c => c.ops.any (fun o => match o with
    | .table _ t a k _ _ => decide (t = id ∧ a = aux ∧ k = key)
    | _ => false))

/-! Learner (R271 to R274). -/

/-- A posted learn enters its table's queue, or is dropped when the queue is full (R271, R272). -/
def learnPost (d : Dev) : Dev :=
  match d.fwd.posts with
  | [] => d
  | l :: r =>
    let d := { d with fwd := { d.fwd with posts := r } }
    let q := tget [] d.fwd.queues l.table
    if 8192 ≤ q.length then
      (d.bump (Reg.FWD_TBL_STAT_W3 l.table) 1).raise Src.fwdLearnDrop (l.port * 2 ^ 8 + l.table)
    else { d with fwd := { d.fwd with queues := tset [] d.fwd.queues l.table (q ++ [l]) } }

/-- Whether a flush of a learn's table holds it back (R284). -/
def Dev.flushHolds (d : Dev) (l : Learn) : Bool := match tget none d.fwd.flushes l.table with
  | some f => f.ports.testBit l.port
  | none => false

/-- The learner starts a table's first learn that may start (R272): the last start lies 8 FCLK cycles (6.4 ns) back, at
most 15 are in progress, and no earlier learn of the same bucket waits or runs. -/
def learnStart (now id : Nat) (d : Dev) : Dev :=
  let q := tget [] d.fwd.queues id
  let spaced := match d.fwd.lastStart with
    | some t => decide (10 * t + 64 ≤ 10 * now)
    | none => true
  let busy := fun (l : Learn) => d.fwd.learning.any (fun e => decide (e.1.table = id ∧ e.1.b0 = l.b0))
  let ok := fun (i : Nat) => match q[i]? with
    | some l => !busy l && !d.flushHolds l && !((q.take i).any (fun m => decide (m.b0 = l.b0) && !d.flushHolds m))
    | none => false
  if !d.rb Reg.FWD_CTL 1 || !spaced || decide (16 ≤ d.fwd.learning.length) then d
  else match (List.range q.length).find? ok with
    | none => d
    | some i => match q[i]? with
      | none => d
      | some l => { d with fwd := { d.fwd with
          queues := tset [] d.fwd.queues id (q.eraseIdx i)
          learning := d.fwd.learning ++ [(l, now)], lastStart := some now } }

/-- µs of the nanosecond counter (R252). -/
def usOf (now : Nat) : Nat := now / 1000 % 2 ^ 32

/-- The i-th learn in progress is applied (R273). -/
def learnApply (now i : Nat) (d : Dev) : Dev :=
  match d.fwd.learning[i]? with
  | none => d
  | some (l, _) =>
    let id := l.table
    let d := { d with fwd := { d.fwd with learning := d.fwd.learning.eraseIdx i } }
    let d := d.touch (d.bucketSpans id 0 l.key)
    let skip := fun (d : Dev) => d.bump (Reg.FWD_TBL_STAT_W4 id) 1
    if !d.tReady id || decide (d.tType id ≠ 5) then d
    else if d.pinned id 0 l.key then skip d
    else match d.findSlot id 0 l.key false with
      | .ecc => d
      | .miss =>
        let s := leBytes 4 (2 ^ 31 + 2 ^ 30) ++ leBytes 4 (usOf now) ++ l.key ++ [BitVec.ofNat 8 l.port, 2] ++ zeros 6
        let r := d.insertSlot now id (padTo (d.tS id) s)
        if r.1 = TSt.ecc then r.2
        else if r.1 = 0 then
          let at_ := match r.2.findSlot id 0 l.key false with
            | .at_ j _ => j
            | _ => 0x7FFFFFF
          r.2.fwdEvent now id 0 l.port 0 at_ l.key
        else
          (((r.2.bump (Reg.FWD_TBL_STAT_W6 id) 1).raise Src.fwdLearnFail (l.port * 2 ^ 8 + id))).fwdEvent
            now id 4 l.port 0 0x7FFFFFF l.key
      | .at_ j s =>
        let stored := (byteAt (d.slotRes id s) 0).toNat
        if stored = l.port then d.setHit now id j
        else if bit (slotW0 s) 27 then skip d
        else if (usOf now + 2 ^ 32 - slotW1 s) % 2 ^ 32 < fld (d.tw id 5) 15 0 then
          (d.bump (Reg.FWD_TBL_STAT_W5 id) 1).fwdEvent now id 2 l.port stored 0x7FFFFFF l.key
        else
          let w := setFld (setBit (slotW0 s) 30 true) 29 28 0
          let s' := patch (patch (slotSetW0 s w) 4 (leBytes 4 (usOf now))) (d.resOff id) [BitVec.ofNat 8 l.port]
          (d.putSlot now id j s').fwdEvent now id 1 l.port stored j l.key

/-! Aging (R276 to R278). -/

/-- The port an event names for an entry: 0 for exact match. -/
def Dev.entryPort (d : Dev) (id : Nat) (s : List Byte) : Nat :=
  if d.tType id = 5 then (byteAt (d.slotRes id s) 0).toNat else 0

/-- Whether a table is swept (R276). -/
def Dev.swept (d : Dev) (id : Nat) : Bool :=
  d.rb Reg.FWD_CTL 2 && bit (d.tw id 4) 31 && d.tReady id && decide (fld (d.tw id 4) 21 0 ≠ 0)

/-- Whether a slot's hit bit was set at this time (R278). -/
def Dev.hitNow (d : Dev) (now id i : Nat) : Bool := d.fwd.hits.contains (now, id, i)

/-- One slot of a visit (R276); one whose hit bit was set in the same cycle ends with hit = 1 and age = 0 (R278). -/
def Dev.ageSlot (d : Dev) (now id i : Nat) : Dev :=
  match d.slotAt id i with
  | none => d
  | some s =>
    let w := slotW0 s
    if !bit w 31 || bit w 27 || bit w 26 || bit w 24 || d.pinned id 0 (d.slotKey id s) then d
    else if d.hitNow now id i then d.putHeader0 now id i (setFld (setBit w 30 true) 29 28 0)
    else if bit w 30 then d.putHeader0 now id i (setFld (setBit w 30 false) 29 28 0)
    else if fld w 29 28 = 0 then d.putHeader0 now id i (setFld w 29 28 1)
    else
      ((d.putSlot now id i []).bump (Reg.FWD_TBL_STAT_W7 id) 1).fwdEvent now id 3 (d.entryPort id s) 0 i (d.slotKey id s)

/-- The entry indices of a visit to bucket b; the stash goes with the last bucket. -/
def Dev.visitSlots (d : Dev) (id b : Nat) : List Nat :=
  (List.range 4).map (4 * b + ·) ++ (if b + 1 = d.tN id then (List.range 16).map (4 * d.tN id + ·) else [])

/-- Buckets per second that aging demands, times 1,000 (R277). -/
def Dev.sweepDemand (d : Dev) : Nat :=
  (List.range 256).foldl (fun n id => if d.swept id then n + d.tN id * 1000000 / fld (d.tw id 4) 21 0 else n) 0

/-- The sweeper visits the next bucket of a table (R276): age_period ÷ N after its last visit, or in proportion later while
the demand exceeds its rate (R277). The age_period in force is the one that the last visit read (R251). -/
def ageVisit (now id : Nat) (d : Dev) : Dev :=
  if !d.swept id then d
  else
    let v := tget (0, 0, 0) d.fwd.sweep id
    let cap := 78125000000
    if now * d.tN id * cap < v.2.1 * d.tN id * cap + v.2.2 * 1000000 * max cap d.sweepDemand then d
    else
      let b := v.1 % d.tN id
      let d := { d with fwd := { d.fwd with
        sweep := tset (0, 0, 0) d.fwd.sweep id ((b + 1) % d.tN id, now, fld (d.tw id 4) 21 0) } }
      let d := d.touch [d.bucketSpan id b]
      let d : Dev := (d.visitSlots id b).foldl (fun d i => d.ageSlot now id i) d
      if decide (cap < d.sweepDemand) && !d.rb Reg.FWD_STATUS 0 then
        (d.setRb Reg.FWD_STATUS 0 true).raise Src.fwdSweepLate 0
      else d

end Sys2Proof.Machine
end

