-- ==== Sys2Proof/Machine/TableOps.lean ====
section
/-!
DEFINITION. Table operations (R279 to R284): the operation block and its checks, SEARCH and NEXT, the staging, apply and
undoing of INSERT, MODIFY, DELETE and ACT_WRITE, and the flush.
-/

namespace Sys2Proof.Machine

/-! The operation block (R279). -/

/-- Whether n bytes of a block from an offset are all 0. -/
def blkZero (b : List Byte) (o n : Nat) : Bool := (slice b o n).all (· == 0)

/-- The flags of R279 that an op may set on a table of a type. -/
def opFlags (op t : Nat) : Nat :=
  match op with
  | 3 => (if t = 5 then 1 else if t = 0 then 2 else if t = 2 ∨ t = 3 then 4 else 0) + 8
  | 4 => if t = 5 then 1 else if t = 0 then 2 else if t = 2 ∨ t = 3 then 4 else 0
  | 6 => 16
  | _ => 0

/-- Whether a block breaks a field rule of R279 or R280 for a table of a type, key length and result length; N is the
table's entry count. -/
def opFieldBad (b : List Byte) (t kl rl n : Nat) : Bool :=
  let op := leAt b 0 1
  let w1 := leAt b 4 4
  let w2 := leAt b 8 4
  let writes := decide (op = 3 ∨ op = 4)
  let hasKey := decide (op = 1 ∨ op = 3 ∨ op = 4 ∨ op = 5)
  let key := slice b 0x10 kl
  let w1Bad :=
    if hasKey && decide (t = 2 ∨ t = 3) then
      decide (w1 = 0 ∨ 8 * kl < w1) || decide (maskTo w1 key ≠ key)
    else if writes && decide (t = 5) then decide (135 < w1)
    else if writes && decide (t = 6) then decide (2 ^ 20 ≤ w1)
    else decide (w1 ≠ 0)
  let w2Bad :=
    if writes && decide (t = 6) then decide (2 ^ 12 ≤ w2)
    else if op = 2 then decide (2 ^ 25 ≤ w2)
    else decide (w2 ≠ 0)
  let w3Bad := !(writes && decide (t = 6)) && decide (leAt b 12 4 ≠ 0)
  let keyBytes := if hasKey then kl else if op = 6 then 17 else 0
  let keyBad := !blkZero b (0x10 + keyBytes) (64 - keyBytes)
    || (hasKey && decide (t = 1 ∨ t = 4) && decide (n ≤ directIndex key))
  let resBytes := if writes then rl else 0
  let resBad := !blkZero b (0x50 + resBytes) (32 - resBytes) || (writes && decide (t = 5) && !blkZero b 0x50 2)
  let maskBytes := if hasKey && decide (t = 6) then kl else 0
  let maskBad := !blkZero b (0x70 + maskBytes) (64 - maskBytes)
  let flags := leAt b 2 1
  decide (flags &&& (255 - opFlags op t) ≠ 0) || decide (leAt b 3 1 ≠ 0) || w1Bad || w2Bad || w3Bad || keyBad || resBad
    || maskBad || !blkZero b 0xB0 16

/-- Whether an ACT_WRITE block breaks a field rule (R267, R279). -/
def actBad (b : List Byte) : Bool :=
  let n := leAt b 0x10 4
  let opBad := fun (i : Nat) =>
    let w := leAt b (0x14 + 4 * i) 4
    decide (w % 4 = 3) || decide (w / 2 ^ 30 ≠ 0) || decide (w / 2 ^ 6 % 4 ≠ 0)
      || (decide (w % 4 ≠ 2) && decide (48 < w / 2 ^ 24 % 64 + w / 2 ^ 16 % 256))
  decide (leAt b 1 3 ≠ 0) || decide (0xFFE < leAt b 4 4) || !blkZero b 8 8 || decide (3 < n)
    || (List.range n).any opBad || !blkZero b 0x50 112

/-- Whether an op is defined for a type of table: FLUSH_PORT for learned-MAC tables alone (R284). -/
def opDefined (op t : Nat) : Bool := !decide (op = 6) || decide (t = 5)

/-- The TABLE and FIELD checks of a table operation, in that order (R280); none if both pass. -/
def Dev.opCheck (d : Dev) (b : List Byte) : Option Nat :=
  let op := leAt b 0 1
  let id := leAt b 1 1
  if op = 7 then (if actBad b then some TSt.field else none)
  else if op = 0 ∨ 7 < op then some TSt.field
  else if !d.tReady id || !opDefined op (d.tType id) then some TSt.table
  else if opFieldBad b (d.tType id) (d.tKeyLen id) (d.tResLen id) (d.tN id) then some TSt.field
  else none

/-- The key of a block as its table stores it: masked for a classifier (R264). -/
def Dev.opKey (d : Dev) (b : List Byte) : List Byte :=
  let id := leAt b 1 1
  let k := slice b 0x10 (d.tKeyLen id)
  if d.tType id = 6 then andBytes k (slice b 0x70 (d.tKeyLen id)) else k

/-- The mask of a classifier block. -/
def Dev.opMask (d : Dev) (b : List Byte) : List Byte := slice b 0x70 (d.tKeyLen (leAt b 1 1))

/-- The tuple of a set whose mask a block names. -/
def Dev.maskTuple (d : Dev) (id : Nat) (m : List Byte) : Option Nat :=
  (List.range 64).find? (fun k => decide ((d.tuple id k).1 ≠ 0 ∧ (d.tuple id k).2 = m))

/-- The aux field that identifies a block's entry (R252, R280): none for a classifier mask with no tuple. -/
def Dev.opAux (d : Dev) (b : List Byte) : Option Nat :=
  let id := leAt b 1 1
  match d.tType id with
  | 2 | 3 => some (leAt b 4 1)
  | 6 => d.maskTuple id (d.opMask b)
  | _ => some 0

/-- The result bytes a block stores (R279): for learned MAC, built from the port word, the static flag and bytes 2 to 7. -/
def Dev.opResult (d : Dev) (b : List Byte) : List Byte :=
  let id := leAt b 1 1
  if d.tType id = 5 then [byteAt b 4, byteAt b 2 &&& 1] ++ slice b 0x52 6 else slice b 0x50 (d.tResLen id)

/-- A slot built from a block (R252): header word 0 with the given hit, age and pend bits, and header word 1. -/
def Dev.opSlot (d : Dev) (b : List Byte) (aux w1 hitAge : Nat) (pend : Bool) : List Byte :=
  let id := leAt b 1 1
  let t := d.tType id
  let fl := leAt b 2 1
  let w0 := 2 ^ 31 + hitAge * 2 ^ 28 + fl % 2 * 2 ^ 27 + fl / 2 % 2 * 2 ^ 26 + fl / 4 % 2 * 2 ^ 25 + b2n pend * 2 ^ 24
    + aux % 256 * 2 ^ 16
  let w1 := if t = 6 then leAt b 8 4 * 2 ^ 20 + leAt b 4 4 else w1
  padTo (d.tS id) (leBytes 4 w0 ++ leBytes 4 w1 ++ (if t = 1 then [] else d.opKey b)
    ++ (if t = 6 then slice b 12 4 else []) ++ d.opResult b)

/-! SEARCH and NEXT (R281, R282). -/

/-- An entry record (R281). -/
def Dev.entryRec (d : Dev) (id i : Nat) (s : List Byte) : List Byte :=
  let t := d.tType id
  let key := if t = 1 ∨ t = 4 then beBytes (d.tKeyLen id) i else d.slotKey id s
  let mask := if t = 6 then (d.tuple id (slotAux s)).2 else []
  let hdr := if t = 4 then leBytes 4 (2 ^ 31) ++ zeros 4 else slice s 0 8
  let res := if t = 4 then s else d.slotRes id s
  hdr ++ leBytes 4 i ++ leBytes 4 (d.slotOpaque id s) ++ padTo 64 key ++ padTo 32 res ++ padTo 64 mask

/-- A response header (R281). -/
def respHead (n cursor : Nat) (end_ : Bool) (reloc : Word) : List Byte :=
  leBytes 4 n ++ leBytes 4 (cursor % 2 ^ 25 + b2n end_ * 2 ^ 31) ++ leBytes 4 reloc.toNat ++ zeros 4

/-- Where a block's entry lies, as a search of its table finds it; `pend` also finds reserved slots. -/
def Dev.opFind (d : Dev) (b : List Byte) (pend : Bool) : Found :=
  let id := leAt b 1 1
  let t := d.tType id
  if t = 1 ∨ t = 4 then
    let i := directIndex (d.opKey b)
    match d.slotAt id i with
    | none => .ecc
    | some s => if t = 4 || (slotValid s && (pend || !slotPend s)) then .at_ i s else .miss
  else match d.opAux b with
    | none => .miss
    | some aux => d.findSlot id aux (d.opKey b) pend

/-- SEARCH (R281): its status and response. -/
def Dev.opSearch (d : Dev) (b : List Byte) : Nat × List Byte :=
  match d.opFind b false with
  | .ecc => (TSt.ecc, [])
  | .miss => (TSt.notFound, [])
  | .at_ i s => (0, respHead 1 0 false (d.reg (Reg.FWD_TBL_STAT_W1 (leAt b 1 1))) ++ d.entryRec (leAt b 1 1) i s)

/-- The entry indices of a NEXT cursor (R282). -/
def cursorSlots (c : Nat) : List Nat := (List.range 4).map (4 * c + ·)

/-- Cursor values a table has: its buckets, and four for the stash of a hashed table (R282). -/
def Dev.cursors (d : Dev) (id : Nat) : Nat := if hashedType (d.tType id) then d.tN id + 4 else (d.tN id + 3) / 4

/-- The valid entries of a cursor's bucket; none for an uncorrectable error. -/
def Dev.cursorEntries (d : Dev) (id c : Nat) : Option (List (Nat × List Byte)) :=
  let ss := ((cursorSlots c).filter (fun i => hashedType (d.tType id) || decide (i < d.tN id))).map
    (fun i => (i, d.slotAt id i))
  if ss.any (fun e => e.2.isNone) then none
  else some ((ss.filterMap (fun e => e.2.map (fun s => (e.1, s)))).filter
    (fun e => decide (d.tType id = 4) || (slotValid e.2 && !slotPend e.2)))

/-- NEXT from a cursor (R282). -/
def Dev.nextGo (d : Dev) (id : Nat) : (fuel c : Nat) → Nat × List Byte
  | 0, c => (0, respHead 0 c (decide (d.cursors id ≤ c)) (d.reg (Reg.FWD_TBL_STAT_W1 id)))
  | n + 1, c =>
    if d.cursors id ≤ c then (0, respHead 0 c true (d.reg (Reg.FWD_TBL_STAT_W1 id)))
    else match d.cursorEntries id c with
      | none => (TSt.ecc, [])
      | some [] => d.nextGo id n (c + 1)
      | some es => (0, respHead es.length (c + 1) (decide (d.cursors id ≤ c + 1)) (d.reg (Reg.FWD_TBL_STAT_W1 id))
          ++ es.flatMap (fun e => d.entryRec id e.1 e.2))

/-- The cursors that NEXT examines (R282): up to the first whose bucket is not empty or cannot be read. -/
def Dev.nextSeen (d : Dev) (id : Nat) : (fuel c : Nat) → List Nat
  | 0, _ => []
  | n + 1, c =>
    if d.cursors id ≤ c then []
    else if d.cursorEntries id c = some [] then c :: d.nextSeen id n (c + 1)
    else [c]

/-- The rows that a cursor's bucket lies in: none for the stash. -/
def Dev.cursorSpan (d : Dev) (id c : Nat) : List Span :=
  let n := min 4 (d.tN id - 4 * c)
  if hashedType (d.tType id) then (if c < d.tN id then [d.bucketSpan id c] else [])
  else if n = 0 then [] else [⟨id, 4 * c * d.tS id, n * d.tS id⟩]

/-- NEXT: at most 256 buckets are examined (R282). -/
def Dev.opNext (d : Dev) (b : List Byte) : Nat × List Byte := d.nextGo (leAt b 1 1) 256 (leAt b 8 4)

/-! Staging (R184, R283). -/

/-- Whether an operation is on an entry: its table, its key, and its LPM length or classifier mask (R280). -/
def Dev.opOn (d : Dev) (id aux : Nat) (key mask : List Byte) (o : CpOp) : Bool := match o with
  | .table _ t a k _ b => decide (t = id ∧ k = key)
      && if d.tType id = 6 then decide (slice b 0x70 (d.tKeyLen id) = mask) else decide (a = aux)
  | _ => false

/-- A rule's priority once the pending operations have been applied, those staged before it in its own transaction (`got`)
included (R265): none if they delete it. -/
def Dev.prioAfter (d : Dev) (id : Nat) (got : List CpOp) (s : List Byte) : Option Nat :=
  let mine := d.opOn id 0 (d.slotKey id s) (d.tuple id (slotAux s)).2
  match (d.vrn.cps.flatMap (·.ops) ++ got.reverse).reverse.find? mine with
  | some (.table op _ _ _ _ b) => if op = 5 then none else some (leAt b 4 4)
  | _ => some (slotW1 s % 2 ^ 20)

/-- Whether a set has, or will have once the operations before it have been applied, a rule of another mask with a
priority (R265; DEDUCED, log entry 118). -/
def Dev.prioClash (d : Dev) (id prio : Nat) (mask : List Byte) (got : List CpOp) : Bool :=
  (List.range (4 * d.tN id + 16)).any (fun i => match d.slotAt id i with
      | some s => slotValid s && decide ((d.tuple id (slotAux s)).2 ≠ mask) && decide (d.prioAfter id got s = some prio)
      | none => false)

/-- Rules installed and reserved in the device, and tuples allocated (R264). -/
def Dev.ruleCount (d : Dev) : Nat := d.fwd.tuples.foldl (fun n e => n + e.2.1) 0

/-- A rule more, or less, in a tuple; the last rule frees it (R264). -/
def Dev.tupleAdd (d : Dev) (id k : Nat) (mask : List Byte) (up : Bool) : Dev :=
  let n := (d.tuple id k).1
  let v := if up then (n + 1, mask) else if n ≤ 1 then (0, []) else (n - 1, mask)
  { d with fwd := { d.fwd with tuples := tset (0, []) d.fwd.tuples (64 * id + k) v } }

/-- The tuple a new rule goes to: its mask's, or the lowest free one within the limits (R264). -/
def Dev.tupleFor (d : Dev) (id : Nat) (mask : List Byte) : Option Nat :=
  if 262144 ≤ d.ruleCount then none
  else match d.maskTuple id mask with
    | some k => some k
    | none =>
      if 1024 ≤ d.fwd.tuples.length then none
      else (List.range 64).find? (fun k => decide ((d.tuple id k).1 = 0))

/-- A command's access to its entry's rows (R288, R450). A filter vector is written whole, without being read (R280); a
classifier rule of a mask with no tuple is sought nowhere, and inserted in the buckets of the tuple it is given. -/
def Dev.opTouch (d : Dev) (b : List Byte) : Dev :=
  let id := leAt b 1 1
  let t := d.tType id
  let aux := if t = 6 ∧ leAt b 0 1 = 3 then d.tupleFor id (d.opMask b) else d.opAux b
  d.touch (if t = 4 ∧ leAt b 0 1 ≠ 1 then []
    else if t = 1 ∨ t = 4 then [d.entrySpan id (directIndex (d.opKey b))]
    else match aux with
      | some a => d.bucketSpans id a (d.opKey b)
      | none => [])

/-- What staging an operation gives: the failing status, or the operation; and the device, which keeps what the attempt
counted. -/
structure Staging where
  st : Nat
  op : Option CpOp
  dev : Dev

/-- A new entry's slot reserved with pend = 1, displacements made at once (R283). -/
def Dev.stageNew (d : Dev) (now : Nat) (b : List Byte) : Staging :=
  let id := leAt b 1 1
  let t := d.tType id
  let mask := d.opMask b
  let aux := if t = 6 then d.tupleFor id mask else d.opAux b
  match aux with
  | none => ⟨TSt.full, none, d⟩
  | some a =>
    let r := d.insertSlot now id (d.opSlot b a 0 0 true)
    if r.1 = 0 then
      let d := if t = 6 then r.2.tupleAdd id a mask true else r.2
      ⟨0, some (.table 3 id a (d.opKey b) 0 b), d⟩
    else ⟨r.1, none, r.2⟩

/-- INSERT, MODIFY or DELETE staged (R280, R283): its checks in order, its pin or reservation. `got` holds the operations
staged before it in its own transaction. -/
def Dev.stageTable (d : Dev) (now : Nat) (got : List CpOp) (b : List Byte) : Staging :=
  let d := d.opTouch b
  let op := leAt b 0 1
  let id := leAt b 1 1
  let t := d.tType id
  let key := d.opKey b
  let aux := (d.opAux b).getD 0
  let prio := leAt b 4 4
  let clash := decide (t = 6 ∧ op ≠ 5) && d.prioClash id prio (d.opMask b) got
  let ok := fun (o i : Nat) (d : Dev) => (⟨0, some (.table o id aux key i b), d⟩ : Staging)
  if d.vrn.cps.any (fun c => c.ops.any (d.opOn id aux key (d.opMask b))) then ⟨TSt.pending, none, d⟩
  else if t = 4 then ok (if op = 5 then 5 else 4) (directIndex key) d
  else match d.opFind b true with
    | .ecc => ⟨TSt.ecc, none, d⟩
    | .miss =>
      if op ≠ 3 then ⟨TSt.notFound, none, d⟩
      else if clash then ⟨TSt.priority, none, d⟩
      else if t = 1 then ok 3 (directIndex key) (d.putSlot now id (directIndex key) (d.opSlot b 0 0 0 true))
      else d.stageNew now b
    | .at_ i _ =>
      if op = 5 then ok 5 i d
      else if decide (op = 3) && !(leAt b 2 1).testBit 3 then ⟨TSt.exists_, none, d⟩
      else if clash then ⟨TSt.priority, none, d⟩
      else ok 4 i d

/-- The slot that an applied operation finds for its entry. -/
def Dev.opEntry (d : Dev) (id aux : Nat) (key : List Byte) (slot : Nat) : Found :=
  if d.tType id = 1 then
    match d.slotAt id slot with
    | some s => .at_ slot s
    | none => .ecc
  else d.findSlot id aux key true

/-- A staged table operation applied (R279, R283). A filter's vector is written whole: DELETE writes a zero one. -/
def Dev.applyTable (d : Dev) (now op id aux : Nat) (key : List Byte) (slot : Nat) (b : List Byte) : Dev :=
  let t := d.tType id
  if !d.tOn id then d
  else if t = 4 then d.putSlot now id slot (if op = 5 then [] else d.opResult b)
  else match d.opEntry id aux key slot with
    | .at_ i s =>
      if op = 5 then
        let d := d.putSlot now id i []
        if t = 6 then d.tupleAdd id aux (d.tuple id aux).2 false else d
      else if op = 3 then d.putSlot now id i (d.opSlot b aux (if t = 5 then usOf now else 0) 0 false)
      else d.putSlot now id i (d.opSlot b aux (slotW1 s) (fld (slotW0 s) 30 28) false)
    | _ => d

/-- A staged operation undone when its transaction fails: a reserved slot is freed (R184). -/
def Dev.unstage (d : Dev) (now : Nat) (o : CpOp) : Dev :=
  match o with
  | .table 3 id aux key slot _ =>
    match d.opEntry id aux key slot with
      | .at_ i s =>
        if slotPend s then
          let d := d.putSlot now id i []
          if d.tType id = 6 then d.tupleAdd id aux (d.tuple id aux).2 false else d
        else d
      | _ => d
  | _ => d

/-! Flush (R284). -/

/-- One slot of a flush visit; a bucket that cannot be read ends the flush before (flushWalkVisit). -/
def Dev.flushSlot (d : Dev) (now id i : Nat) (f : FlushRun) : FlushRun × Dev :=
  match d.slotAt id i with
  | none => (f, d)
  | some s =>
    let w := slotW0 s
    if !bit w 31 || bit w 24 || !f.ports.testBit (byteAt (d.slotRes id s) 0).toNat || (bit w 27 && !f.statics) then (f, d)
    else if d.pinned id 0 (d.slotKey id s) then ({ f with pinned := f.pinned + 1 }, d)
    else ({ f with removed := f.removed + 1 }, d.putSlot now id i [])

/-- Slots of a flush visit in turn. -/
def Dev.flushSlots (d : Dev) (now id : Nat) : List Nat → FlushRun → FlushRun × Dev
  | [], f => (f, d)
  | i :: r, f =>
    let x := d.flushSlot now id i f
    x.2.flushSlots now id r x.1

end Sys2Proof.Machine
end

