-- ==== Sys2Proof/Machine/Rings.lean ====
section
/-!
DEFINITION. Ring groups (R463 to R488): kicks, the doorbell block, descriptor fetches, INJ and PUNT, the start and end
of commands with their completions, interrupts, errors and group reset.
-/

namespace Sys2Proof.Machine

/-! DMA reads (R40, R466, R487). -/

def dmaCode : DmaErr → Nat
  | .ur => 1
  | .ca => 2
  | .poisoned => 3
  | .timeout => 4

/-- A DMA read of a group: of host memory, whose answer is given; of internal memory for group 15. The error is a cause
of HST_ERR_STATUS. -/
def Dev.dmaRead (d : Dev) (g a n : Nat) (x : Dma) : Except Nat (List Byte) :=
  if g = 15 then
    if !d.dmaMapped a n then .error 5 else if d.dead a n then .error 3 else .ok (d.memRead a n)
  else match x with
    | .ok bs => .ok (padTo n bs)
    | .fail e => .error (dmaCode e)

/-- A DRAM read by ring group 15 that is poisoned is recovered, or counted, recorded and captured, as any other (R432). -/
def Dev.ringSee (d : Dev) (now g a n : Nat) : Dev := if g = 15 then (d.seeDram a n).dateUes now else d

/-! The error state (R485). -/

/-- A group enters the error state: it stops, its block is to be written, and the code is recorded. -/
def Dev.grpError (d : Dev) (g code : Nat) : Dev :=
  let d := d.setReg (Reg.HST_GRP_W15 g) (wd (2 ^ 30 + b2n (d.rb (Reg.HST_GRP_W15 g) 29) * 2 ^ 29 + code))
  (d.setGrp g { d.grp g with errNews := true, reading := false, kicked := false }).raise Src.hstRingError code

/-! Kicks and the doorbell block (R467 to R470). -/

/-- A kick or a poll of a running group: a read of the doorbell block begins, or is to follow the one outstanding. -/
def Dev.kicked (d : Dev) (g : Nat) : Dev :=
  if !d.grpRuns g then d
  else
    let s := d.grp g
    d.setGrp g (if s.reading then { s with kicked := true } else { s with reading := true })

/-- Whether the endpoint has BAR0 only: the Primer has not brought the device to stage 0x2 (R495). -/
def Dev.bar0Only (d : Dev) : Bool := decide (d.stage < 2)

/-- A host access to a group's BAR2 line (R466, R468): a write kicks, but that of group 15 is ignored; a read returns 0. While
the endpoint has BAR0 only (R495), a write is dropped and a read completes with Unsupported Request, as `resp` shows. -/
def kick (g : Nat) (acc : Bar4) (d : Dev) : Dev :=
  match acc with
  | .read n => { d with resp := if d.bar0Only then [1] else zeros n }
  | .write _ => if g = 15 ∨ d.bar0Only then d else d.kicked g

/-- HST_ATL_KICK (R466). -/
def atelierKick (d : Dev) : Dev := d.kicked 15

/-- The poll timer of a group in poll mode (R469): a read of the block every poll_us µs. -/
def pollTimer (now g : Nat) (d : Dev) : Dev :=
  if d.rb (Reg.HST_GRP_W0 g) 29 && decide ((d.grp g).polled + 1000 * d.rf (Reg.HST_GRP_W0 g) 25 16 ≤ now) then
    (d.setGrp g { d.grp g with polled := now }).kicked g
  else d

/-- The address of a group's doorbell block (R467). -/
def Dev.dbAddr (d : Dev) (g : Nat) : Nat :=
  (d.reg (Reg.HST_GRP_W1 g)).toNat + 2 ^ 32 * (d.reg (Reg.HST_GRP_W2 g)).toNat

/-- Held completions written while the CPL ring has room (R477). -/
def Dev.flushCpl (d : Dev) (g : Nat) : (fuel : Nat) → Dev
  | 0 => d
  | n + 1 =>
    let s := d.grp g
    match s.cpl with
    | [] => d
    | b :: r =>
      if !d.grpRuns g ∨ 2 ^ d.ringLog g .cpl ≤ ixDiff s.ix.cplProd s.ix.cplCons then d
      else
        let i := s.ix.cplProd
        let w0 := leAt b 0 4 + d.phase g .cpl i * 2 ^ 31
        let d := d.dmaWrite g 3 (d.ringEntry g .cpl 64 i) (leBytes 4 w0 ++ b.drop 4)
        (d.setGrp g { s with cpl := r, ix := { s.ix with cplProd := ixAdd i 1 } }).flushCpl g n

/-- Whether the host's indices are out of range (R485, code 1): a producer more than a ring ahead of the device's
consumer or behind it, a consumer ahead of the device's producer. -/
def Dev.indexBad (d : Dev) (g : Nat) (b : List Byte) : Bool :=
  let x := (d.grp g).ix
  let far := fun (r : Ring) (p c : Nat) => decide (2 ^ d.ringLog g r < ixDiff p c)
  far .inj (leAt b 0 4) x.injCons || far .punt (leAt b 4 4) x.puntCons || far .cmd (leAt b 8 4) x.cmdCons
    || far .cpl x.cplProd (leAt b 12 4) || far .evt x.evtProd (leAt b 16 4)

/-- The doorbell-block read completes (R468, R485): the indices are validated; a kick that came meanwhile is served by
one more read; completions held for room are written. -/
def doorbellReadDone (now g : Nat) (x : Dma) (d : Dev) : Dev :=
  let s := d.grp g
  if !d.grpRuns g ∨ !s.reading then d
  else
    let got := d.dmaRead g (d.dbAddr g) 32 x
    let d := d.ringSee now g (d.dbAddr g) 32
    match got with
    | .error _ => (if g = 15 then d.captureIn 1 (d.dbAddr g) 32 else d).grpError g 2
    | .ok b =>
      if d.indexBad g b then d.grpError g 1
      else
        let ix := { s.ix with injProd := leAt b 0 4, puntProd := leAt b 4 4, cmdProd := leAt b 8 4,
                              cplCons := leAt b 12 4, evtCons := leAt b 16 4 }
        (d.setGrp g { s with ix := ix, reading := s.kicked, kicked := false }).flushCpl g s.cpl.length

/-- The MSI-X message of a group, or its wait for the hold-off (R483). -/
def Dev.grpMsg (d : Dev) (now g : Nat) : Dev :=
  let s := d.grp g
  let due := match s.lastMsg with
    | some t => decide (t + 1000 * d.rf (Reg.HST_GRP_W14 g) 25 16 ≤ now)
    | none => true
  if s.msgPend then d
  else if due then (d.setGrp g { s with lastMsg := some now }).sendVec (d.rf (Reg.HST_GRP_W0 g) 13 6)
  else d.setGrp g { s with msgPend := true }

/-- Entries produced or consumed of each ring since the last write of the doorbell block (R470). -/
def Grp.news (s : Grp) : List Nat :=
  [ixDiff s.ix.injCons s.told.injCons, ixDiff s.ix.puntCons s.told.puntCons, ixDiff s.ix.cmdCons s.told.cmdCons,
    ixDiff s.ix.cplProd s.told.cplProd, ixDiff s.ix.evtProd s.told.evtProd]

/-- Whether the doorbell block is to be written (R470): an error, 16 entries of a ring, or wb_delay ns since the first
unreported change; a change that no tick has seen yet is of this moment. -/
def Dev.wbDue (d : Dev) (now g : Nat) : Bool :=
  let s := d.grp g
  s.errNews || s.news.any (fun n => decide (16 ≤ n))
    || (s.news.any (fun n => decide (n ≠ 0)) && decide (s.newsAt.getD now + d.rf (Reg.HST_GRP_W14 g) 15 0 ≤ now))

/-- A tick notes when an index first changed since the last write of its group's doorbell block (R470). -/
def Dev.noteNews (d : Dev) (now : Nat) : Dev :=
  let f := fun (_ : Nat) (s : Grp) =>
    if s.newsAt.isNone && s.news.any (fun n => decide (n ≠ 0)) then { s with newsAt := some now } else s
  { d with hst := { d.hst with grps := tmap Grp.reset f d.hst.grps } }

/-- The device writes its half of the doorbell block (R467, R470, R483): it reports every index that changed since the
last write, and the error state. -/
def doorbellWriteback (now g : Nat) (d : Dev) : Dev :=
  let s := d.grp g
  let w := d.reg (Reg.HST_GRP_W15 g)
  let x := s.ix
  let news := s.news.map (fun n => decide (n ≠ 0)) ++ [s.errNews]
  if !(bit w 31 || bit w 30) || !d.wbDue now g then d
  else
    let x := { x with writes := ixAdd x.writes 1 }
    let state := b2n (bit w 30) * 2 ^ 31 + fld w 7 0 * 2 ^ 16 + b2n (bit w 31)
    let bs := [x.injCons, x.puntCons, x.cmdCons, x.cplProd, x.evtProd, x.evtSeq, state, x.writes].flatMap (leBytes 4)
    let d := (d.dmaWrite g 5 (d.dbAddr g + 0x20) bs).setGrp g { s with ix := x, told := x, newsAt := none, errNews := false }
    let d := if g = 15 ∧ (news.getD 3 false ∨ news.getD 4 false) then d.atlLine 2 else d
    let hit := (List.range 6).any (fun i => news.getD i false && d.rb (Reg.HST_GRP_W0 g) i)
    if hit then d.grpMsg now g else d

/-- The hold-off of a group passes (R483). -/
def msixHoldoffExpiry (now g : Nat) (d : Dev) : Dev :=
  let s := d.grp g
  match s.msgPend, s.lastMsg with
  | true, some t =>
    if t + 1000 * d.rf (Reg.HST_GRP_W14 g) 25 16 ≤ now then
      (d.setGrp g { s with msgPend := false, lastMsg := some now }).sendVec (d.rf (Reg.HST_GRP_W0 g) 13 6)
    else d
  | _, _ => d

/-! Descriptors (R464, R470 to R475). -/

/-- The entry size of a ring whose descriptors the device fetches. -/
def fetchSize : FetchRing → Nat
  | .cmd => 64
  | _ => 32

/-- The ring of a fetch. -/
def fetchRing : FetchRing → Ring
  | .inj => .inj
  | .punt => .punt
  | .cmd => .cmd

/-- The next index to fetch of a ring, and how many entries are posted beyond it. -/
def Grp.fetchAt (s : Grp) : FetchRing → Nat × Nat
  | .inj => (ixAdd s.ix.injCons s.inj.length, ixDiff s.ix.injProd s.ix.injCons - s.inj.length)
  | .punt => (ixAdd s.ix.puntCons s.punt.length, ixDiff s.ix.puntProd s.ix.puntCons - s.punt.length)
  | .cmd => (s.ix.cmdCons, ixDiff s.ix.cmdProd s.ix.cmdCons)

/-- Up to 16 descriptors of a ring arrive (R470); commands count as fetched (R464). A failed read puts the group in the
error state (R485). A power failure or a
severity-5 fault stops the fetching of commands (R510). -/
def descriptorFetchDone (now g : Nat) (r : FetchRing) (x : Dma) (d : Dev) : Dev :=
  let s := d.grp g
  let at_ := (s.fetchAt r).1
  let n := min 16 (s.fetchAt r).2
  let a := fun (k : Nat) => d.ringEntry g (fetchRing r) (fetchSize r) (ixAdd at_ k)
  if !d.grpRuns g ∨ n = 0 ∨ (r = .cmd ∧ (d.mgt.fix.isSome ∨ d.pwrfailOn ∨ d.stage = 4)) then d
  else
    let got : Except Nat (List (List Byte)) :=
      if g = 15 then (List.range n).mapM (fun k => d.dmaRead g (a k) (fetchSize r) x)
      else (d.dmaRead g (a 0) (n * fetchSize r) x).map (fun b => (List.range n).map (fun k => slice b (k * fetchSize r) (fetchSize r)))
    let d := (List.range n).foldl (fun (d : Dev) k => d.ringSee now g (a k) (fetchSize r)) d
    match got with
    | .error _ => (if g = 15 then (List.range n).foldl (fun (d : Dev) k => d.captureIn 1 (a k) (fetchSize r)) d
      else d).grpError g 3
    | .ok bs =>
      let es := (List.range n).zip bs |>.map (fun e => (ixAdd at_ e.1, e.2))
      match r with
      | .inj => d.setGrp g { s with inj := s.inj ++ es }
      | .punt => d.setGrp g { s with punt := s.punt ++ es }
      | .cmd => d.setGrp g { s with cmds := s.cmds ++ es.map (fun e => HCmd.mk e.1 e.2), ix := { s.ix with cmdCons := ixAdd at_ n } }

/-! INJ (R471, R472). -/

/-- The descriptors of the INJ packet at the head of those fetched, and whether its end is among them. -/
def injSplit : List (Nat × List Byte) → List (Nat × List Byte) × Bool
  | [] => ([], false)
  | e :: r => if (byteAt e.2 10).toNat.testBit 0 then (e :: (injSplit r).1, (injSplit r).2) else ([e], true)

/-- The status an INJ packet earns by its descriptors: LENGTH, FIELD or OK (R472). -/
def injStatus (es : List (Nat × List Byte)) (ends : Bool) : Nat :=
  let lens := es.map (fun e => leAt e.2 8 2)
  if !ends ∨ 16 < es.length ∨ lens.any (fun n => decide (n = 0)) ∨ 9216 < lens.sum then 2
  else if es.any (fun e => decide (leAt e.2 10 2 / 2 ≠ 0 ∨ leAt e.2 12 16 ≠ 0)) then 4
  else 0

/-- Every descriptor of an INJ packet completes with a status (R471, R472). -/
def Dev.injEnd (d : Dev) (g : Nat) (es : List (Nat × List Byte)) (status : Nat) : Dev :=
  let d := es.foldl (fun d e =>
    d.dmaWrite g 0 (d.ringEntry g .inj 32 e.1 + 0x1C) (leBytes 4 (d.phase g .inj e.1 * 2 ^ 31 + status))) d
  let s := d.grp g
  d.setGrp g { s with inj := s.inj.drop es.length, ix := { s.ix with injCons := ixAdd s.ix.injCons es.length } }

/-- The data of an INJ packet, descriptor by descriptor; or the cause, address and length of the first failed read. -/
def Dev.injData (d : Dev) (g : Nat) : List (Nat × List Byte) → List Dma → Except (Nat × Nat × Nat) (List Byte)
  | [], _ => .ok []
  | e :: r, xs =>
    match d.dmaRead g (descAddr e.2) (leAt e.2 8 2) (xs.headD (.ok [])) with
    | .error c => .error (c, descAddr e.2, leAt e.2 8 2)
    | .ok b => (d.injData g r xs.tail).map (b ++ ·)

/-- The data of the oldest INJ packet arrive (R472): once all of its descriptors are posted it is written to packet
memory and enters the parser, or completes with its status. It waits while the ingress FIFO has no room. -/
def injPacket (now sec nsec g : Nat) (xs : List Dma) (d : Dev) : Dev :=
  let s := d.grp g
  let p := injSplit s.inj
  let full := decide (s.inj.length = 2 ^ d.ringLog g .inj)
  let len := (p.1.map (fun e => leAt e.2 8 2)).sum
  let waiting := ((d.prs.inq.filter (fun x => decide (x.port = 112 + g))).map (·.len)).sum
  if !d.grpRuns g ∨ s.inj = [] ∨ (!p.2 ∧ !full) then d
  else if injStatus p.1 p.2 ≠ 0 then d.injEnd g p.1 (injStatus p.1 p.2)
  else if 16384 < waiting + len then d
  else
    let got := d.injData g p.1 xs
    let d := p.1.foldl (fun d e => d.ringSee now g (descAddr e.2) (leAt e.2 8 2)) d
    match got with
    | .error (c, a, n) => (d.dmaFault g 0 c a n).injEnd g p.1 1
    | .ok bs =>
      let o := 36 + g
      match d.allocChain o (d.rf (Reg.PAL_OWNER o) 3 0) bs.length with
      | none => d.injEnd g p.1 3
      | some (h, d) =>
        let d := d.fillBufs (d.chain h) bs
        let pk : Pkt := { handle := h, owner := o, len := bs.length, port := 112 + g, tsNs := nsec, tsSec := sec % 2 ^ 32,
                          recircs := 0, recirc := none }
        ((d.enqueueIn pk).bump (Reg.HST_GRP_CNT g 0) 1).injEnd g p.1 0

/-! PUNT (R473, R474). -/

/-- Words 3 to 7 of a PUNT descriptor written (R473). -/
def Dev.puntDesc (d : Dev) (g i : Nat) (first more : Bool) (n ts queue status : Nat) : Dev :=
  let ph := d.phase g .punt i * 2 ^ 31
  let bs := leBytes 4 (ph + b2n first * 2 ^ 17 + b2n more * 2 ^ 16 + n) ++ leBytes 4 (ts % 1000000000)
    ++ leBytes 4 (ts / 1000000000) ++ leBytes 4 queue ++ leBytes 4 (ph + status)
  d.dmaWrite g 1 (d.ringEntry g .punt 32 i + 0x0C) bs

/-- Descriptors that have been written leave the PUNT ring. -/
def Dev.puntGone (d : Dev) (g n : Nat) : Dev :=
  let s := d.grp g
  d.setGrp g { s with punt := s.punt.drop n, ix := { s.ix with puntCons := ixAdd s.ix.puntCons n } }

/-- A packet's data written over the descriptors it takes; unusable ones complete with their own status (R473). -/
def Dev.puntData (d : Dev) (g ts queue : Nat) : List (Nat × List Byte) → (first : Bool) → List Byte → Dev
  | [], _, _ => d
  | e :: r, first, bs =>
    let st := puntStatus e.2
    if st ≠ 0 then (d.puntDesc g e.1 false false 0 ts queue st).puntData g ts queue r first bs
    else
      let n := min bs.length (leAt e.2 8 2)
      let d := d.dataWrite g (descAddr e.2) (bs.take n)
      (d.puntDesc g e.1 first (decide (n < bs.length)) n ts queue 0).puntData g ts queue r false (bs.drop n)

/-- The address and length of the first buffer of group 15 that a packet's write would meet unmapped. -/
def Dev.puntBadAddr (d : Dev) (g : Nat) (es : List (Nat × List Byte)) : Option (Nat × Nat) :=
  if g ≠ 15 then none
  else ((es.filter (fun e => decide (puntStatus e.2 = 0))).find? (fun e => !d.dmaMapped (descAddr e.2) (leAt e.2 8 2))).map
    (fun e => (descAddr e.2, leAt e.2 8 2))

/-- A packet dequeued to a ring group's port is written into posted PUNT buffers and its chain released (R473, R474);
`err` says how a data write fails, where one does. One that can never be held is discarded; one whose group has stopped
with no buffers left is released unwritten. -/
def puntPacket (g : Nat) (err : Option DmaErr) (d : Dev) : Dev :=
  let p := 112 + g
  match tget [] d.tmg.egress p with
  | [] => d
  | e :: r =>
    let bs := d.frameBytes e.item
    let done := fun (d : Dev) => { d with tmg := { d.tmg with egress := tset [] d.tmg.egress p r } }.releaseCopy (d.portOwner p) e.item
    if d.spillWaits p e.item.handle then d
    else if e.sent then done d
    else if d.frameBad e.item then done (d.dataFault e.item)
    else if d.puntTooLong g bs.length then
      let d := match (d.grp g).punt with
        | x :: _ => (d.puntDesc g x.1 false false 0 e.ts e.queue 2).puntGone g 1
        | [] => d
      done ((d.bump (Reg.HST_GRP_CNT g 2) 1).raise Src.hstPuntDiscard g)
    else match puntTake (d.grp g).punt bs.length with
      | some es =>
        let bad : Option (Nat × Nat × Nat) := match d.puntBadAddr g es with
          | some a => some (5, a)
          | none => err.map (fun x => (dmaCode x,
              ((es.find? (fun e => decide (puntStatus e.2 = 0))).map (fun e => descAddr e.2)).getD 0, 0))
        match bad with
        | some (c, a, n) =>
          let d := d.dmaFault g 1 c a n
          let d := es.foldl (fun d x => d.puntDesc g x.1 false false 0 e.ts e.queue
            (if puntStatus x.2 = 0 then 1 else puntStatus x.2)) d
          done (d.puntGone g es.length)
        | none => done (((d.puntData g e.ts e.queue es true bs).puntGone g es.length).bump (Reg.HST_GRP_CNT g 1) 1)
      | none => if !d.grpRuns g then done d else d

/-! Commands (R475 to R478). -/

def HCmd.opcode (c : HCmd) : Nat := leAt c.bytes 0 1
def HCmd.fence (c : HCmd) : Bool := (byteAt c.bytes 1).toNat.testBit 0
def HCmd.tag (c : HCmd) : Nat := leAt c.bytes 4 4
def HCmd.addrA (c : HCmd) : Nat := leAt c.bytes 8 8
def HCmd.lenA (c : HCmd) : Nat := leAt c.bytes 0x10 4
def HCmd.addrB (c : HCmd) : Nat := leAt c.bytes 0x18 8
def HCmd.lenB (c : HCmd) : Nat := leAt c.bytes 0x20 4
/-- Parameter word i. -/
def HCmd.param (c : HCmd) (i : Nat) : Nat := leAt c.bytes (0x28 + 4 * i) 4

/-- Whether a reserved field, or a parameter the opcode does not use, is not 0; `used` is how many it uses (R475). -/
def HCmd.fieldBad (c : HCmd) (used : Nat) : Bool :=
  decide (leAt c.bytes 0 4 / 2 ^ 9 ≠ 0 ∨ leAt c.bytes 0x14 4 ≠ 0 ∨ leAt c.bytes 0x24 4 ≠ 0)
    || (List.range 6).any (fun i => decide (used ≤ i ∧ c.param i ≠ 0))

/-- The command that a group starts next (R476, R477): in ring order, at most 4 at a time, behind its fence, and not
while completions are held. -/
def Dev.cmdNext (d : Dev) (g : Nat) : Option HCmd :=
  let s := d.grp g
  match s.cmds with
  | c :: _ =>
    if !d.grpRuns g ∨ 4 ≤ s.running.length ∨ s.cpl ≠ [] ∨ (c.fence ∧ s.running ≠ []) then none else some c
  | [] => none

/-- The next command starts. -/
def Dev.cmdStart (d : Dev) (g : Nat) (c : HCmd) : Dev :=
  let s := d.grp g
  d.setGrp g { s with cmds := s.cmds.tail, running := s.running ++ [c] }

/-- A running command ends with a status and result words (R477); after a group reset its completion is discarded
(R486). -/
def Dev.cmdEnd (d : Dev) (g index status : Nat) (rs : List Nat) : Dev :=
  let s := d.grp g
  match s.running.find? (fun c => decide (c.index = index)) with
  | none => d
  | some c =>
    let s := { s with running := s.running.filter (fun x => decide (x.index ≠ index)) }
    if d.rb (Reg.HST_GRP_W15 g) 29 then d.setGrp g s
    else
      let bs := leBytes 4 (status * 2 ^ 8 + c.opcode) ++ leBytes 4 c.tag ++ leBytes 4 index ++ zeros 4
        ++ padTo 48 (rs.flatMap (leBytes 4))
      (d.setGrp g { s with cpl := s.cpl ++ [bs] }).flushCpl g 1

/-- A response is written into a command's buffer; for group 15 a buffer that is not memory fails the command with ADDR
(R477). -/
def Dev.respond (d : Dev) (g : Nat) (c : HCmd) (bs : List Byte) (rs : List Nat) : Dev :=
  if g = 15 ∧ !d.dmaMapped c.addrB bs.length then (d.dmaFault g 2 5 c.addrB bs.length).cmdEnd g c.index 1 []
  else (d.dmaWrite g 2 c.addrB bs).cmdEnd g c.index 0 rs

/-- A command of an opcode started by its own event: the checks of R477 in the order OPCODE, FIELD, LENGTH, ADDR; then its
body on its operand. `used` is how many parameter words the opcode uses, `bad` its parameter rule, `len` its operand's
length rule, `n` the operand bytes. -/
def Dev.runCmd (d : Dev) (now g : Nat) (op used : Nat) (bad len : HCmd → Bool) (n : HCmd → Nat) (x : Dma)
    (body : HCmd → List Byte → Dev → Dev) : Dev :=
  match d.cmdNext g with
  | none => d
  | some c =>
    if c.opcode ≠ op then d
    else
      let e := d.cmdStart g c
      if c.fieldBad used || bad c then e.cmdEnd g c.index 4 []
      else if !len c then e.cmdEnd g c.index 2 []
      else if n c = 0 then body c [] e
      else
        let got := d.dmaRead g c.addrA (n c) x
        let e := e.ringSee now g c.addrA (n c)
        match got with
        | .error k => (e.dmaFault g 2 k c.addrA (n c)).cmdEnd g c.index 1 []
        | .ok bs => body c bs e

/-- NOP (R478); an opcode that is not listed completes here with OPCODE. -/
def nopCmd (g : Nat) (d : Dev) : Dev :=
  match d.cmdNext g with
  | none => d
  | some c =>
    if 1 ≤ c.opcode ∧ c.opcode ≤ 8 then d
    else
      let e := d.cmdStart g c
      if c.opcode ≠ 9 then e.cmdEnd g c.index 3 []
      else if c.fieldBad 0 then e.cmdEnd g c.index 4 []
      else e.cmdEnd g c.index 0 [0]

/-! Enabling and resetting groups (R486, R488). -/

/-- poll_us as written: 0 as 1, above 1,000 as 1,000. -/
def pollClamp (v : Word) : Word := setFld v 25 16 (min 1000 (max 1 (fld v 25 16)))

/-- The fields of HST_GRP word 0 that a write stores. -/
def grpWord (v : Word) : Word := wd ((pollClamp v).toNat &&& 0xA3FF3FFF)

/-- A group reset (R486): the group stops at once; it is disabled when its running commands have ended. -/
def Dev.grpReset (d : Dev) (g : Nat) : Dev :=
  let s := d.grp g
  (d.setReg (Reg.HST_GRP_W15 g) (wd (2 ^ 29))).setGrp g
    { s with errNews := false, reading := false, kicked := false, inj := [], cmds := [], cpl := [], msgPend := false }

/-- A write of HST_GRP word 0 (R466, R486, R488): reset, or a cleared enable, stops the group, which a reset disables only when
it ends (groupResetDone); enable = 1 is refused while reset_busy is 1 or a size is out of range, and starts a group that is
not enabled with zeroed indices and counters. -/
def grpWrite (r : Req) (g : Nat) (v : Word) (d : Dev) : Dev :=
  let off := Reg.HST_GRP_W0 g
  let was := d.rb off 31
  let bad := (List.range 5).any (fun k =>
    let n := d.rf (Reg.HST_GRP_W3 g) (5 * k + 4) (5 * k)
    decide (n < 4 ∨ 16 < n))
  if g = 15 ∧ r = .host then d.refuse r off
  else if bit v 30 then (d.setReg off (setBit (grpWord v) 31 was)).grpReset g
  else if bit v 31 then
    if d.rb (Reg.HST_GRP_W15 g) 29 ∨ bad then d.refuse r off
    else if was then d.setReg off (grpWord v)
    else
      let d := (d.setReg off (grpWord v)).setGrp g Grp.reset
      ((List.range 4).foldl (fun d c => d.setReg (Reg.HST_GRP_CNT g c) 0) d).setReg (Reg.HST_GRP_W15 g) (wd (2 ^ 31))
  else if was then (d.setReg off (grpWord v)).grpReset g
  else d.setReg off (grpWord v)

/-- GROUP_ENABLE: word 0 written with enable = 1. -/
def groupEnable (r : Req) (g : Nat) (v : Word) (d : Dev) : Dev := grpWrite r g (setBit (setBit v 31 true) 30 false) d

/-- GROUP_RESET: word 0 written with reset = 1. -/
def groupReset (r : Req) (g : Nat) (v : Word) (d : Dev) : Dev := grpWrite r g (setBit v 30 true) d

/-- The last running command of a group being reset has ended: every index reads 0 and the group is disabled (R486). -/
def groupResetDone (g : Nat) (d : Dev) : Dev :=
  if d.rb (Reg.HST_GRP_W15 g) 29 && decide ((d.grp g).running = []) then
    ((d.setRb (Reg.HST_GRP_W0 g) 31 false).setReg (Reg.HST_GRP_W15 g) 0).setGrp g Grp.reset
  else d

/-- Groups 0 to 14 are reset and BAR4 closes (R462). -/
def functionLevelReset (d : Dev) : Dev :=
  ((List.range 15).foldl Dev.grpReset d).setRb Reg.HST_BAR4 31 false

/-! The link (R485, R489, R570). -/

/-- Bus Master Enable clears, the link goes down or D3hot is entered: the running groups 0 to 14 enter the error state. -/
def hostLinkLoss (why : LinkLoss) (d : Dev) : Dev :=
  let run := (List.range 15).filter d.grpRuns
  let d : Dev := match why with
    | .busMaster => d.setRb Reg.HST_STATUS 30 false
    | .linkDown => d.setReg Reg.HST_STATUS 0
    | .d3hot => d
  let d := d.raiseIf (decide (why = .linkDown) && decide (run ≠ [])) Src.hstLinkDown 0
  run.foldl (fun d g => d.grpError g 4) d

end Sys2Proof.Machine
end

