-- ==== Sys2Proof/Machine/ControlPlane.lean ====
section
/-!
DEFINITION. Control-plane transactions (R183 to R187, R479): staging, position, apply and release; the commands that make
them, the other table commands, and the changes of a pool's count (R316).
-/

namespace Sys2Proof.Machine

/-! Staging (R184, R479). -/

/-- The words of an element's data from 0x10. -/
def elemWords (b : List Byte) (n : Nat) : List Word := (List.range n).map (fun i => wd (leAt b (0x10 + 4 * i) 4))

/-- Whether the bytes of an element from an offset on are all 0. -/
def elemTail (b : List Byte) (o : Nat) : Bool := blkZero b o (192 - o)

/-- METER_WRITE (R335, R355, R479): its operation, if its fields are in range. -/
def elemMeter (b : List Byte) : Option CpOp :=
  let ws := elemWords b 4
  let ws := (ws.set 1 (wd (clampRate (fld (ws.getD 1 0) 28 0)))).set 2 (wd (clampRate (fld (ws.getD 2 0) 28 0)))
  if 2 ^ 20 ≤ leAt b 4 4 ∨ meterBad ws ∨ !blkZero b 8 8 ∨ !elemTail b 0x20 then none else some (.meter (leAt b 4 4) ws)

/-- TM_OBJ_WRITE (R354, R479). -/
def Dev.elemObject (d : Dev) (b : List Byte) : Option CpOp :=
  let w := leAt b 4 4
  let kind := w / 2 ^ 28
  let i := w % 2 ^ 17
  if kind ∉ [0, 1, 2, 3, 6, 7] ∨ w / 2 ^ 17 % 2 ^ 11 ≠ 0 ∨ objCount kind ≤ i ∨ d.objRefused kind i (elemWords b 8)
      ∨ !blkZero b 8 8 ∨ !elemTail b 0x30 then none
  else some (.tmObject kind i (elemWords b 8))

/-- SHR_WRITE (R156, R479). -/
def Dev.elemShared (d : Dev) (b : List Byte) : Option CpOp :=
  let n := leAt b 4 4
  let a := leAt b 8 6
  if n < 1 ∨ 64 < n ∨ leAt b 0x0E 2 ≠ 0 ∨ !elemTail b (0x10 + min n 64) ∨ !d.inShared a ∨ !d.inShared (a + n - 1) then none
  else some (.shared a (slice b 0x10 n))

/-- CIPHER_SA (R229, R479): the salt and SSCI of an XPN suite are kept together. -/
def elemAssoc (b : List Byte) : Option CpOp :=
  let w := leAt b 4 4
  let suite := w / 2 ^ 16 % 4
  let install := decide (2 ^ 31 ≤ w)
  let xpn := decide (2 ≤ suite)
  let long := decide (suite % 2 = 1)
  if w / 2 ^ 12 % 16 ≠ 0 ∨ w / 2 ^ 18 % 2 ^ 13 ≠ 0 ∨ !blkZero b 8 8 ∨ !elemTail b 0x40
      ∨ (!long ∧ !blkZero b 0x20 16) ∨ (!xpn ∧ !blkZero b 0x30 12) then none
  else some (.secAssoc (w % 4096) (if install then
    some { suite := suite, key := slice b 0x10 (if long then 32 else 16), salt := slice b 0x30 16 } else none))

/-- An element of a TXN list staged after the operations `got`, latest first (R279, R479): table operations by their own
checks, the rest by their fields. -/
def Dev.stageElem (d : Dev) (now : Nat) (got : List CpOp) (b : List Byte) : Staging :=
  let plain := fun (o : Option CpOp) => match o with
    | some x => (⟨0, some x, d⟩ : Staging)
    | none => ⟨TSt.field, none, d⟩
  match leAt b 0 1 with
  | 3 | 4 | 5 => match d.opCheck b with
    | some st => ⟨st, none, d⟩
    | none => d.stageTable now got b
  | 7 => plain (if actBad b then none else some (.actWrite (leAt b 4 4) (slice b 0x10 64)))
  | 0x10 => plain (if leAt b 1 3 = 0 then elemMeter b else none)
  | 0x11 => plain (if leAt b 1 3 = 0 then d.elemObject b else none)
  | 0x12 => plain (if leAt b 1 3 = 0 then d.elemShared b else none)
  | 0x13 => plain (if leAt b 1 3 = 0 then elemAssoc b else none)
  | _ => ⟨TSt.field, none, d⟩

/-- What staging a list gives: the status and index of the first failing element, or the operations. -/
structure StagedList where
  st : Nat
  index : Nat
  ops : List CpOp
  dev : Dev

/-- The elements staged in order; the first failure undoes those before it (R184). -/
def Dev.stageList (d : Dev) (now : Nat) : (index : Nat) → List (List Byte) → (got : List CpOp) → StagedList
  | _, [], got => ⟨0, 0xFFFFFFFF, got.reverse, d⟩
  | i, b :: r, got =>
    let s := d.stageElem now got b
    match s.op with
    | some o => s.dev.stageList now (i + 1) r (o :: got)
    | none => ⟨s.st, i, [], got.foldl (fun d o => d.unstage now o) s.dev⟩

/-! A pool's count (R316). -/

/-- A pool as PAL_POOL describes it. -/
def Dev.poolEntry (d : Dev) (p : Nat) : PoolEnt :=
  { pool := p, region := b2n (d.poolDram p), size := d.poolSize p, fallback := 0xFF, count := d.poolCount p, base := d.poolBase p }

/-- Whether a pool with another count would overlap another pool, or leave its region or the fitted DRAM. -/
def Dev.poolBad (d : Dev) (p n : Nat) : Bool :=
  let e : PoolEnt := { d.poolEntry p with count := n }
  !e.inRegion d.fittedDram || (List.range 16).any (fun q => decide (q ≠ p) && d.poolValid q && e.overlaps (d.poolEntry q))

/-- A pool's count set (R316): the indices that a raise adds start free, with empty descriptors. -/
def Dev.setPoolCount (d : Dev) (p n : Nat) : Dev :=
  let old := d.poolCount p
  let d := d.setRf (Reg.PAL_POOL_W3 p) 27 0 n
  (List.range (n - old)).foldl (fun d k => d.newBuf (mkHandle p (old + k + 1))) d

/-- PAL_POOL word 3 written (R67, R316, R318). While GLB_RUN_STATE is 0x3 a count raised beyond what fits, or lowered below
the pool's reserves, is ignored with CFG_CONFLICT; below 0x3 only the lowering is (R67). Any other takes effect at once. -/
def palPoolCountWrite (r : Req) (p : Nat) (v : Word) (d : Dev) : Dev :=
  let n := fld v 27 0
  let bad := if d.poolCount p < n then decide (d.stage = 3) && d.poolBad p n else decide (n < d.reserves p)
  if d.poolValid p && bad then d.conflict r (Reg.PAL_POOL_W3 p) else d.setPoolCount p n

/-! Position, apply, release (R184 to R186). -/

/-- The first ticket after a position taken now, per domain (R184). -/
def Dev.position (d : Dev) : Tab Nat := d.vrn.doms.foldl (fun b e => tset 0 b e.1 e.2.next) []

/-- A control-plane transaction takes its position (R184); its number. -/
def Dev.cpSubmit (d : Dev) (now : Nat) (ring : Option (Nat × Nat)) (ops : List CpOp) : Nat × Dev :=
  let c : Cp := { id := d.vrn.cpSeq, ops := ops, ring := ring, stage := .positioned, before := d.position, since := now, status := 0, result := 0 }
  (c.id, { d with vrn := { d.vrn with cps := d.vrn.cps ++ [c], cpSeq := d.vrn.cpSeq + 1 } })

/-- Whether a further control-plane transaction must wait: 16 lie between staging and release (R183). -/
def Dev.cpFull (d : Dev) : Bool := decide (16 ≤ d.vrn.cps.length)

/-- Whether staging fails whatever is staged: the Fixative runs, or power has failed (R510, R513). -/
def Dev.cpStops (d : Dev) : Bool := d.mgt.fix.isSome || d.pwrfailOn

/-- The result words of a transaction that fails so: a status that is not OK, and the second word of TXN (log entry 124). -/
def failedWords : List Nat := [1 + Config.failedStaging 0 % 255, Config.failedStaging 1]

/-- The bytes of a shared write, granule by granule. -/
def sharedGrans (a : Nat) (bs : List Byte) : List (Nat × Tab (Option Byte)) :=
  (List.range ((a % 16 + bs.length + 15) / 16)).map fun k =>
    let g := a / 16 + k
    (g, (List.range 16).foldl (fun (m : Tab (Option Byte)) o =>
      if a ≤ 16 * g + o ∧ 16 * g + o < a + bs.length then tset none m o (some (byteAt bs (16 * g + o - a))) else m) [])

/-- The granules that an operation brings into the commit buffer (R186). -/
def CpOp.grans (o : CpOp) : Nat := match o with
  | .shared a bs => (sharedGrans a bs).length
  | _ => 0

/-- One operation takes effect (R186): a shared write enters the commit buffer and aborts every transaction whose
signature holds one of its granules with cause 0x2, halted ones too; only a granted irrevocable run has nothing to abort
(R176). -/
def Dev.cpApply (d : Dev) (now : Nat) (o : CpOp) : Dev :=
  match o with
  | .table op id aux key slot b => d.applyTable now op id aux key slot b
  | .actWrite i bs => { d with fwd := { d.fwd with acts := tset [] d.fwd.acts i bs } }
  | .meter i ws => d.setMeter i (meterSet now ws)
  | .tmObject kind i ws => d.objPut now kind i ws
  | .shared a bs =>
    let d := (sharedGrans a bs).foldl (fun d g => (d.storeGran g.1 g.2).cbufAdd g.1) d
    (d.conflicting (2 ^ 20) ((sharedGrans a bs).map (·.1))).foldl
      (fun d u => if (d.txn u).irrev = .granted then d else d.abortTxn u 2) d
  | .secAssoc i sa => { d with brs := { d.brs with assocs := tset none d.brs.assocs i sa } }
  | .reserve kind o p n => d.setRf (if kind = 0 then Reg.PAL_OWN_W0 o p else Reg.PAL_OWN_W1 o p) 27 0 n
  | .poolCount p n => d.setPoolCount p n

/-- Whether every transaction ticketed before a position has committed or been voided (R184), the hand-off of its
enqueues included, for its packet sees the old state of the queues (R37; DEDUCED, log 29). -/
def Dev.drained (d : Dev) (c : Cp) : Bool :=
  d.vrn.doms.all (fun e => e.2.flight.all (fun t => notOlder t (tget 0 c.before e.1)))
    && d.vrn.txns.all (fun e => decide (e.2.phase ≠ .committing) || notOlder e.2.ticket (tget 0 c.before e.2.domain))

/-- The first control-plane transaction of a stage. -/
def Dev.firstCp (d : Dev) (s : CpStage) : Option Cp := d.vrn.cps.find? (fun c => decide (c.stage = s))

/-- The drain of the oldest positioned control-plane transaction completes: all of its operations take effect (R186), once
the commit buffer has room for its shared writes (R161; log entry 75). -/
def controlPlaneApply (now : Nat) (d : Dev) : Dev :=
  match d.firstCp .positioned with
  | none => d
  | some c =>
    if !d.drained c ∨ 1024 < d.vrn.cbuf.length + min 1024 (c.ops.map CpOp.grans).sum then d
    else
      let d := c.ops.foldl (fun d o => d.cpApply now o) d
      let d : Dev := match c.ring with
        | some (g, i) => { d with mgt := { d.mgt with lastCp := tset 0 d.mgt.lastCp g i } }
        | none => d
      { d with vrn := { d.vrn with cps := d.vrn.cps.map (fun x => if x.id = c.id then { x with stage := .applied } else x) } }

/-- The apply of the oldest applied control-plane transaction ends: its holds and pins are lifted and its completion is
posted (R184, R478). -/
def controlPlaneRelease (d : Dev) : Dev :=
  match d.firstCp .applied with
  | none => d
  | some c =>
    let d := ({ d with vrn := { d.vrn with cps := d.vrn.cps.filter (fun x => decide (x.id ≠ c.id)) } }).noteEligible
    match c.ring with
    | some (g, i) => d.cmdEnd g i c.status (if c.status = 0 then [0, c.result.toNat] else [])
    | none => d

/-! The commands (R478). -/

/-- TXN (R184, R478, R479). -/
def txnCmd (now g : Nat) (x : Dma) (d : Dev) : Dev :=
  if d.cpFull then d
  else d.runCmd now g 2 1 (fun c => decide (c.param 0 < 1 ∨ 4096 < c.param 0)) (fun c => decide (c.lenA = 192 * c.param 0))
    (fun c => c.lenA) x fun c bs d =>
      if d.cpStops then d.cmdEnd g c.index 0 failedWords
      else
      let s := d.stageList now 0 ((List.range (c.param 0)).map (fun i => slice bs (192 * i) 192)) []
      if s.st = 0 then
        let r := s.dev.cpSubmit now (some (g, c.index)) s.ops
        { r.2 with vrn := { r.2.vrn with cps := r.2.vrn.cps.map (fun x => if x.id = r.1 then { x with result := 0xFFFFFFFF } else x) } }
      else s.dev.cmdEnd g c.index 0 [s.st, s.index]

/-- A TABLE_OP command whose block names an operation (R478, R279); `mine` says which operations its event serves. -/
def Dev.tableCmd (d : Dev) (now g : Nat) (mine : Nat → Bool) (x : Dma) (body : HCmd → List Byte → Dev → Dev) : Dev :=
  match d.cmdNext g with
  | none => d
  | some c =>
    if c.opcode ≠ 1 then d
    else
      let e := d.cmdStart g c
      if c.fieldBad 0 then e.cmdEnd g c.index 4 []
      else if c.lenA ≠ 192 then e.cmdEnd g c.index 2 []
      else
        let got := d.dmaRead g c.addrA 192 x
        let e := e.ringSee now g c.addrA 192
        match got with
        | .error k => (e.dmaFault g 2 k c.addrA 192).cmdEnd g c.index 1 []
        | .ok b =>
          if !mine (leAt b 0 1) then d
          else if (leAt b 0 1 = 1 ∨ leAt b 0 1 = 2) ∧ c.lenB < 768 then e.cmdEnd g c.index 2 []
          else match e.opCheck b with
            | some st => e.cmdEnd g c.index 0 [st]
            | none => body c b e

/-- SEARCH and NEXT answer into the response buffer of at least 768 bytes (R281, R282). -/
def Dev.answer (d : Dev) (g : Nat) (c : HCmd) (r : Nat × List Byte) : Dev :=
  if r.1 ≠ 0 then d.cmdEnd g c.index 0 [r.1]
  else d.respond g c r.2 [0]

/-- Whether a control-plane apply is under way, in which SEARCH and NEXT are not served (R283). -/
def Dev.applying (d : Dev) : Bool := d.vrn.cps.any (fun c => decide (c.stage = .applied))

/-- SEARCH (R281); a block that names no operation completes here with FIELD (R279). -/
def searchCmd (now g : Nat) (x : Dma) (d : Dev) : Dev :=
  if d.applying then d else d.tableCmd now g (fun op => decide (op = 1 ∨ op = 0 ∨ 7 < op)) x fun c b d => (d.opTouch b).answer g c ((d.opTouch b).opSearch b)

/-- NEXT (R282): the rows of every bucket examined are read (R288). -/
def nextCmd (now g : Nat) (x : Dma) (d : Dev) : Dev :=
  if d.applying then d else d.tableCmd now g (fun op => decide (op = 2)) x fun c b d =>
    let id := leAt b 1 1
    (d.touch ((d.nextSeen id 256 (leAt b 8 4)).flatMap (d.cursorSpan id))).answer g c (d.opNext b)

/-- A table operation issued alone is a control-plane transaction of one operation (R279). -/
def Dev.aloneCmd (d : Dev) (now g op : Nat) (x : Dma) : Dev :=
  if d.cpFull then d
  else d.tableCmd now g (fun o => decide (o = op)) x fun c b d =>
    if d.cpStops then d.cmdEnd g c.index 0 (failedWords.take 1)
    else
    let s := d.stageElem now [] b
    match s.op with
    | some o => (s.dev.cpSubmit now (some (g, c.index)) [o]).2
    | none => s.dev.cmdEnd g c.index 0 [s.st]

/-- INSERT (R279, R283). -/
def insertCmd (now g : Nat) (x : Dma) (d : Dev) : Dev := d.aloneCmd now g 3 x
/-- MODIFY (R279, R283). -/
def modifyCmd (now g : Nat) (x : Dma) (d : Dev) : Dev := d.aloneCmd now g 4 x
/-- DELETE (R279, R283). -/
def deleteCmd (now g : Nat) (x : Dma) (d : Dev) : Dev := d.aloneCmd now g 5 x
/-- ACT_WRITE (R267, R279). -/
def actWriteCmd (now g : Nat) (x : Dma) (d : Dev) : Dev := d.aloneCmd now g 7 x

/-- FLUSH_PORT starts the background flush of its table (R284); one that finds a flush of the table running is busy. -/
def flushPortCmd (now g : Nat) (x : Dma) (d : Dev) : Dev :=
  d.tableCmd now g (fun op => decide (op = 6)) x fun c b d =>
    let id := leAt b 1 1
    if (tget none d.fwd.flushes id).isSome then d.cmdEnd g c.index 0 [TSt.busy]
    else
      let f : FlushRun := { ports := leVal (slice b 0x10 17), statics := (byteAt b 2).toNat.testBit 4, next := 0, removed := 0,
                            pinned := 0, grp := g, cmd := c.index }
      { d with fwd := { d.fwd with flushes := tset none d.fwd.flushes id (some f) } }

/-- The flush walker visits a bucket, the stash with the last one, and completes the command at the end (R284). -/
def flushWalkVisit (now id : Nat) (d : Dev) : Dev :=
  match tget none d.fwd.flushes id with
  | none => d
  | some f =>
    let fin := fun (d : Dev) (f : FlushRun) (st : Nat) =>
      ({ d with fwd := { d.fwd with flushes := tset none d.fwd.flushes id none } }).cmdEnd f.grp f.cmd 0 [st, f.removed, f.pinned]
    if !d.tReady id then fin d f 0
    else
      let d := d.touch [d.bucketSpan id f.next]
      if d.bucketBad id f.next then fin d f TSt.ecc
      else
      let r := d.flushSlots now id (d.visitSlots id f.next) f
      let f : FlushRun := { r.1 with next := f.next + 1 }
      if d.tN id ≤ f.next then fin r.2 f 0
      else { r.2 with fwd := { r.2.fwd with flushes := tset none r.2.fwd.flushes id (some f) } }

end Sys2Proof.Machine
end

