-- ==== Sys2Proof/Machine/Power.lean ====
section
/-!
DEFINITION. Glaze (R517 to R534, R538, R539): the core rail, cluster points and gating, timing events and the error-rate
loop, throttling.
-/

namespace Sys2Proof.Machine

/-- A fault that Glaze records raises Atelier interrupt line 6 (R539). -/
def Dev.glaze (d : Dev) (src detail : Nat) : Dev := (d.raise src detail).atlLine 6

/-- A cluster's max_point in effect is held to the low-power cap, which acts as a lower max_point would: removing it takes
effect once VDD_CORE has reached its new target (R519, R533). -/
def Dev.capPoint (d : Dev) (c : Nat) : Dev :=
  let x := d.clp c
  if x.maxOk ≤ d.lpCap then d else d.setClp c { x with maxOk := d.lpCap }

/-- Every cluster goes to the point its caps and writes now give (R523, R532, R533). -/
def Dev.retargetAll (d : Dev) : Dev := (List.range 24).foldl (fun (d : Dev) c => (d.capPoint c).retarget c) d

/-! The core rail (R518 to R520). -/

/-- The highest max_point over ungated clusters, under the low-power cap; none with every cluster gated (R519). -/
def Dev.pMax (d : Dev) : Option Nat :=
  (List.range 24).foldl (fun (m : Option Nat) c =>
    if d.cluClocked c || (d.clp c).waking then some (max (m.getD 0) (min (d.rf (Reg.PWR_CL_W0 c) 7 4) d.lpCap)) else m) none

/-- VDD_CORE's target in mV (R518, R519): 750 before forwarding, 550 in stage 0x4 once the Fixative has ended. -/
def Dev.vcoreGoal (d : Dev) : Nat :=
  if d.stage = 4 ∧ d.mgt.fix = none then 550
  else if 3 ≤ d.stage then
    match d.pMax with
    | some p => max (d.rf Reg.PWR_RAIL 9 0) (vNom p + d.rf Reg.PWR_RAIL 23 16)
    | none => d.rf Reg.PWR_RAIL 9 0
  else 750

/-- The phases that are on and without fault (R518, R520). -/
def Dev.phasesOk (d : Dev) : Nat :=
  let n := 2 ^ d.rf Reg.PWR_RAIL 15 12 - 1
  n - (n &&& d.pwr.badPhases)

/-- VDD_CORE is in tolerance at its target on the enabled phases: PWR_RAIL_STATUS (R538). -/
def Dev.railUp (d : Dev) : Dev :=
  d.setReg Reg.PWR_RAIL_STATUS (wd (2 ^ 31 + d.phasesOk * 2 ^ 16 + d.vcoreGoal))

/-- VDD_CORE reaches its new target, in tolerance unless no phase is on (R520, R538), and every raised max_point takes
effect (R519). -/
def vcoreSlewDone (d : Dev) : Dev :=
  let d := d.setRf Reg.PWR_RAIL_STATUS 9 0 d.vcoreGoal
  let d := if d.rf Reg.PWR_RAIL_STATUS 27 16 = 0 then d else d.setRb Reg.PWR_RAIL_STATUS 31 true
  let d := (List.range 24).foldl (fun (d : Dev) c =>
    d.setClp c { d.clp c with maxOk := min 9 (d.rf (Reg.PWR_CL_W0 c) 7 4) }) d
  d.retargetAll

/-- A write of PWR_RAIL (R538): fields outside their range take the nearer limit, and the phases follow. -/
def pwrRailWrite (v : Word) (d : Dev) : Dev :=
  let w := setFld v 23 16 (min 50 (max 30 (fld v 23 16)))
  let w := setFld w 15 12 (min 12 (max 2 (fld w 15 12)))
  let w := setFld w 9 0 (min 850 (max 700 (fld w 9 0)))
  let d := d.setReg Reg.PWR_RAIL (setFld w 11 10 0)
  d.setRf Reg.PWR_RAIL_STATUS 27 16 d.phasesOk

/-- A stage fault or an overcurrent switches a phase off (R520). -/
def gzPhaseFault (n : Nat) (d : Dev) : Dev :=
  if d.rb Reg.PWR_RAIL_STATUS (16 + n) then
    ({ d.setRb Reg.PWR_RAIL_STATUS (16 + n) false with
        pwr := { d.pwr with badPhases := d.pwr.badPhases ||| 2 ^ n } }).glaze Src.gzPhaseFault n
  else d

/-- VDD_CORE has been out of tolerance for 10 µs (R520); after a power failure every GZ_PWM output goes high impedance
(R534). -/
def gzVcoreOor (d : Dev) : Dev :=
  let d := d.setRb Reg.PWR_RAIL_STATUS 31 false
  let d := if d.pwrfailOn then d.setRf Reg.PWR_RAIL_STATUS 27 16 0 else d
  d.glaze Src.gzVcoreOor 0

/-- A cluster's LDO misses its setting by 20 mV for 1 µs (R539). -/
def gzLdoFault (c : Nat) (d : Dev) : Dev :=
  if d.cluClocked c || (d.clp c).waking then d.glaze Src.gzLdoFault c else d

/-! Points and gating (R523, R524). -/

/-- A write of PWR_CL[c] word 0 (R519, R523, R524, R530): a point above max_point is refused, a new one above the cap in effect
too, and any write during a change; after a power failure every change of point or gating is. A raised max_point waits for VDD_CORE. -/
def pwrClWrite (r : Req) (c : Nat) (v : Word) (d : Dev) : Dev :=
  let w := Reg.PWR_CL_W0 c
  let x := d.clp c
  let p := fld v 3 0
  let m := min 9 (fld v 7 4)
  let moves := decide (p ≠ d.rf w 3 0)
  if decide (m < p) || x.next.isSome || (moves && (decide (min x.maxOk d.lpCap < p) || d.pwrfailOn))
      || (bit v 30 && !d.rb w 30 && d.pwrfailOn) then d.refuse r w
  else
    let wakes := !d.rb w 31 && bit v 31
    let d := ((d.setRf w 3 0 p).setRf w 7 4 m).setRb w 31 (bit v 31)
    let d := d.setClp c { x with maxOk := min m x.maxOk, stopped := x.stopped && !wakes }
    let d : Dev := if bit v 30 && !d.rb w 30 then d.startGating c else if !bit v 30 && d.rb w 30 then d.startWaking c else d
    d.retarget c

/-- A write of PWR_CL[c].point (R523). -/
def clusterPointChange (r : Req) (c p : Nat) (d : Dev) : Dev :=
  pwrClWrite r c (setFld (d.reg (Reg.PWR_CL_W0 c)) 3 0 p) d

/-- The LDO has settled and the clock has changed (R523). -/
def pointChangeDone (c : Nat) (d : Dev) : Dev :=
  match (d.clp c).next with
  | some p => (d.atPoint c p).retarget c
  | none => d

/-- PWR_CL[c].gate is written 1 (R524). -/
def clusterGate (r : Req) (c : Nat) (d : Dev) : Dev := pwrClWrite r c (setBit (d.reg (Reg.PWR_CL_W0 c)) 30 true) d

/-- The cluster being gated is empty: its clock stops (R524). After a power failure none is gated (R534). -/
def gatingDone (c : Nat) (d : Dev) : Dev :=
  if (d.clp c).gating && d.cluEmpty c && !d.pwrfailOn && !d.inBist c then d.gateNow c else d

/-- PWR_CL[c].gate is written 0 (R524). -/
def clusterWake (r : Req) (c : Nat) (d : Dev) : Dev := pwrClWrite r c (setBit (d.reg (Reg.PWR_CL_W0 c)) 30 false) d

/-- The cluster is awake at its point with its L1 invalidated (R524); a drain that waited for it as its spare begins
(R550). -/
def wakeDone (now c : Nat) (d : Dev) : Dev :=
  let x := d.clp c
  if x.waking then
    let d := (d.setClp c { x with waking := false }).dropL1 c
    let d := (d.atPoint c (d.pointGoal c)).setRb Reg.GLB_CLK_STATUS c true
    { d with flt := { d.flt with drains := d.flt.drains.map (fun e =>
        if e.spare = some c ∧ e.since = none then { e with since := some now } else e) } }
  else d

/-- The LDO has settled at V_nom: Glaze confirms the non-speculative voltage of the cluster, which its waiting transactions
share, to Varnish (R529, R173). -/
def nonSpeculativeConfirm (c : Nat) (d : Dev) : Dev :=
  let f : Nat → Txn → Txn := fun k x =>
    if k / 256 = c ∧ x.irrev = .waits ∧ x.phase ≠ .free ∧ d.nominalAsked c then { x with nonspec := true } else x
  ({ d with vrn := { d.vrn with txns := tmap Txn.reset f d.vrn.txns } }).noteEligible

/-! Timing events and the loop (R527 to R530). -/

/-- The loop's window starts again (R530); the fast guard's events are those of any 2^20 commits. -/
def Dev.newWindow (d : Dev) (c : Nat) : Dev :=
  let x := d.clp c
  (d.setClp c { x with winAt := x.commits }).setReg (Reg.PWR_CL_W3 c) 0

/-- A timing event of a speculating cluster in its loop; the fast guard acts at the seventeenth within 2^20 commits
(R530). -/
def Dev.loopEvent (d : Dev) (c : Nat) : Dev :=
  let x := d.clp c
  let d := d.bump (Reg.PWR_CL_W3 c) 1
  let evts := (x.evts.filter (fun n => decide (x.commits < n + 2 ^ 20))) ++ [x.commits]
  if 16 < evts.length then
    ((d.setClp c { x with offset := x.offset - 20, evts := [] }).newWindow c).glaze Src.gzErrBurst c
  else d.setClp c { x with evts := evts }

/-- A timing event (R175, R527): the report names the core, the threads that issued a word in its window, and the slots of
the tasks that have ended by vcommit in it. Their transactions abort with cause 0x4; an irrevocable run ends by the Errors
rule of R176. A halt in hold mode that is not complete becomes one in abort mode (R553). On a cluster at V_nom
GZ_NOMINAL_ERR is recorded (R528). -/
def timingEvent (c core : Nat) (threads : BitVec 8) (ended : List Nat) (d : Dev) : Dev :=
  if !d.cluClocked c then d
  else
    let low := d.speculates c
    let atNom := !low && (!d.mayRunLow c || d.vrn.txns.any (fun e => decide (e.1 / 256 = c) && e.2.nonspec))
    let ts := ((List.range 8).filter (fun i => threads.getLsbD i)).map (fun i => 64 * c + 8 * core + i)
    let mine := ts.filterMap (fun t => txnKey t (d.thr t))
    let keys := mine ++ (ended.map (fun s => 256 * c + s)).filter (fun k =>
      decide ((d.txn k).phase = .ending ∨ (d.txn k).phase = .active) && !mine.contains k)
    let d := ts.foldl (fun (d : Dev) t => d.updThr t (fun th =>
      if th.dbg = .pending false then { th with dbg := .pending true } else th)) d
    let d := keys.foldl (fun (d : Dev) k => if (d.txn k).irrev = .granted then d.irrevError k else d.abortTxn k 4) d
    let d := d.bump (Reg.PWR_CL_W2 c) 1
    let d : Dev := if low then d.loopEvent c else d
    if atNom then d.glaze Src.gzNominalErr c else d

/-- The end of a speculating cluster's window (R530). Offsets are kept to the LDO's 5 mV steps (R521). -/
def errorWindowEnd (c : Nat) (d : Dev) : Dev :=
  let x := d.clp c
  if d.speculates c && decide (x.winAt + 2 ^ d.rf Reg.PWR_LOOP 28 24 ≤ x.commits) then
    let e := (d.reg (Reg.PWR_CL_W3 c)).toNat
    let tgt := d.rf Reg.PWR_LOOP 23 16
    if 2 * e < tgt then
      let o := min ((x.offset + d.rf Reg.PWR_LOOP 7 0) / 5 * 5) (vNom x.cur - vFloor x.cur)
      (d.setClp c { x with offset := o }).newWindow c
    else if e ≤ 2 * tgt then d.newWindow c
    else if x.offset = 0 then
      ((d.setClp c { x with stopped := true }).newWindow c).glaze Src.gzSpecLimit c
    else (d.setClp c { x with offset := (x.offset - d.rf Reg.PWR_LOOP 15 8) / 5 * 5 }).newWindow c
  else d

/-! Temperature (R532). -/

/-- The hottest reading, of a sensor, crosses t_throttle upward, or falls 3 °C below it (R532). -/
def thermalThreshold (sensor temp : Nat) (d : Dev) : Dev :=
  let d := (d.setRf Reg.PWR_THERM 15 8 sensor).setRf Reg.PWR_THERM 7 0 temp
  let t := d.rf Reg.PWR_THERM 23 16
  let on := d.rb Reg.PWR_STATUS 30
  if d.rb Reg.PWR_CTL 2 && decide (t < temp) && !on then
    (d.setRb Reg.PWR_STATUS 30 true).glaze Src.gzThrottle sensor
  else if on && decide (temp + 3 < t) then d.setRb Reg.PWR_STATUS 30 false
  else d

/-- What a throttle step makes of a cluster (R532): one point down while throttling; one back up to the written point
after it. -/
def Dev.throttled (d : Dev) (c : Nat) (on : Bool) : Dev :=
  let x := d.clp c
  if on then (if 0 < d.pointGoal c then d.setClp c { x with ceil := d.pointGoal c - 1 } else d)
  else d.setClp c { x with ceil := if x.ceil + 1 < d.pointBase c then x.ceil + 1 else 9 }

/-- A throttle step (R532), at most one each ms: clusters step down while throttling, and get their points back one step
at a time once it ends. -/
def throttleStep (now : Nat) (d : Dev) : Dev :=
  let due := match d.pwr.lastStep with
    | some t => decide (t + 1000000 ≤ now)
    | none => true
  let on := d.rb Reg.PWR_STATUS 30 && d.rb Reg.PWR_CTL 2
  if due && (on || (List.range 24).any (fun c => decide ((d.clp c).ceil ≠ 9))) then
    let d := { d with pwr := { d.pwr with lastStep := some now } }
    ((List.range 24).foldl (fun (d : Dev) c => d.throttled c on) d).retargetAll
  else d

/-- A write of PWR_CTL (R538): lp_point above 9 is written as 9. -/
def pwrCtlWrite (v : Word) (d : Dev) : Dev :=
  let w := (setFld v 7 4 (min 9 (fld v 7 4))).toNat &&& 0xFD
  (d.setReg Reg.PWR_CTL (wd w)).retargetAll

/-! Views (R538). -/

/-- PWR_STATUS.speculating. -/
def Dev.specBits (d : Dev) : Nat :=
  (List.range 24).foldl (fun n c => n + b2n (d.speculates c) * 2 ^ c) 0

/-- A cluster's LDO setting in mV (R523, R529). -/
def Dev.ldoMv (d : Dev) (c : Nat) : Nat :=
  let x := d.clp c
  if !d.cluClocked c && !x.waking then 0
  else if d.inBist c then vNom 8
  else match x.next with
    | some p => vNom (max x.cur p)
    | none => if d.speculates c then vNom x.cur - x.offset else vNom x.cur

/-- PWR_CL[c] word 1. -/
def Dev.clView (d : Dev) (c : Nat) : Word :=
  let x := d.clp c
  let st := if x.waking then 1 else if !d.cluClocked c then 0 else if x.next.isSome then 5
    else if d.mayRunLow c && d.nominalAsked c then 4 else if d.speculates c then 3 else 2
  wd (st * 2 ^ 29 + d.ldoMv c * 2 ^ 16 + (if st = 3 then x.offset else 0))

end Sys2Proof.Machine
end

