-- ==== Sys2Proof/Machine/Faults.lean ====
section
/-!
DEFINITION. The fault collector (R540 to R545, R580, R581), containment and the cluster drain (R546, R547), in-service
test (R549, R550) and fault injection.
-/

namespace Sys2Proof.Machine

/-! A cluster leaves service (R547). -/

/-- Step 3 of a drain: every transaction of the cluster aborts with cause 0xA; one whose abort for another cause has not
reached the Easel is migrated too, counted as the abort it was (R541). A void stays a void, and a commit that awaits its
hand-off stands. -/
def Dev.migrateAll (d : Dev) (now c : Nat) : Dev :=
  (tkeys (fun k (_ : Txn) => decide (k / 256 = c)) d.vrn.txns).foldl (fun (d : Dev) k =>
    let x := d.txn k
    match x.phase with
    | .active | .ending | .commitWait => d.abortTxn k 0xA
    | .aborted cause =>
      if cause = 0xC then d
      else (if cause = 5 then d.countErr now (256 * 256 + c) Src.cluErrLimit c else d).setTxn k { x with phase := .aborted 0xA }
    | _ => d) d

/-- Step 4 of a drain: records and tasks without a transaction are deleted and counted (R150). A transaction's task that is
being saved goes on: its abort lets the save complete (R149). Tokens that a deleted task or record named stay live until their
completions arrive (DESIGN CHOICE, log entry 144). -/
def Dev.dropFree (d : Dev) (c : Nat) : Dev :=
  let ts := tkeys (fun t (th : Thread) => decide (clusterOf t = c) && !isAtl t && (th.saving.isSome || th.task.isSome)) d.krv.threads
  let d := ts.foldl (fun (d : Dev) t =>
    if (d.thr t).hasTxn then d else (d.cancelSave t).updThr t (fun th => { th with saving := none })) d
  let d := ts.foldl (fun (d : Dev) t => if (d.thr t).hasTxn then d else d.killTask t) d
  (List.range 1024).foldl (fun (d : Dev) i => match d.rcd c i with
    | some r =>
      if r.hasTxn then d
      else
        let d : Dev := if r.resume then { d with esl := { d.esl with saves := tset false d.esl.saves (64 * c + r.save) false } } else d
        (d.setRcd c i none).countLost c
    | none => d) d

/-- Whether a holder identity belongs to a cluster's threads or transactions (R365). -/
def holderIn (c h : Nat) : Bool := decide (h % 0x8000 / 256 = c)

/-- No task of a cluster waits for a lock any more (R362, R547): its requests, its places in the FIFOs and its waits for an
entry are withdrawn. The acquire of a master-managed thread without a task goes on to its limit (R364; DESIGN CHOICE, log
entry 128). -/
def Dev.dropWaits (d : Dev) (c : Nat) : Dev :=
  let mine := fun (t holder : Nat) => holderIn c holder && (d.thr t).task.isSome
  { d with lku := { d.lku with
      locks := tmap Lock.free (fun _ (l : Lock) => { l with waiters := l.waiters.filter (fun w => !mine w.thread w.holder) }) d.lku.locks
      entryWait := d.lku.entryWait.filter (fun e => !mine e.2.thread e.2.holder)
      reqs := d.lku.reqs.filter (fun r => !(r.acquire && mine r.thread r.holder)) } }

/-- Step 4 of a drain: the locks and semaphores that the cluster's holders hold are broken (R367). -/
def Dev.breakCluster (d : Dev) (c : Nat) : Dev :=
  let d := d.dropWaits c
  let hs := d.lku.locks.filterMap (fun e => e.2.holder) ++ d.lku.sems.filterMap (fun e => e.2.holder)
  (hs.filter (holderIn c)).foldl Dev.breakHolder d

/-- Step 5 of a drain: the messages that the cluster's channels hold are lost (R234, R547). -/
def Dev.dropMessages (d : Dev) (c : Nat) : Dev :=
  { d with brs := { d.brs with chans := tmap ⟨0, [], 0, 0⟩ (fun ch (x : Chan) =>
      if ch / 64 = c then { x.discard with head := 0 } else x) d.brs.chans } }

/-- Steps 3 to 6 of a drain (R547): the cluster is out of service and is gated once empty. -/
def Dev.leaveService (d : Dev) (now c : Nat) : Dev :=
  let d := d.setRb (Reg.FLT_UNITS 0) c true
  let d := { d with flt := { d.flt with drains := d.flt.drains.filter (fun e => decide (e.cluster ≠ c)) } }
  ((((d.migrateAll now c).dropFree c).breakCluster c).dropMessages c).startGating c

/-- A spare cluster is taken and woken, if one remains; which of two is left open (R546, log entry 2). -/
def Dev.takeSpare (d : Dev) : Option Nat × Dev :=
  let (s, d) := d.pick 24
  match findCyclic (fun c => d.rb (Reg.FLT_UNITS 1) c) s 24 with
  | some c => (some c, (d.setRb (Reg.FLT_UNITS 1) c false).startWaking c)
  | none => (none, d)

/-! In-service test (R550). -/

/-- FLT_IST_STATUS of an operation that has ended. -/
def Dev.istDone (d : Dev) (result : Nat) : Dev := d.setReg Reg.FLT_IST_STATUS (wd result)
/-- FLT_IST_STATUS of an operation that runs. -/
def Dev.istBusy (d : Dev) : Dev := d.setReg Reg.FLT_IST_STATUS (wd (2 ^ 31))

/-- Whether a unit of FLT_IST_CMD exists: 24 clusters, 8 slices, 16 lookup engines. -/
def istUnit (kind i : Nat) : Bool := decide (i < [24, 8, 16].getD kind 0)
/-- Whether a unit is marked failed in FLT_UNITS (R546). -/
def Dev.unitFailed (d : Dev) (kind i : Nat) : Bool := match kind with
  | 0 => d.rb (Reg.FLT_UNITS 2) i
  | 1 => d.rb (Reg.FLT_UNITS 3) i
  | _ => d.rb (Reg.FLT_UNITS 3) (8 + i)
/-- Whether a unit is in service; a spare cluster is not. -/
def Dev.unitIn (d : Dev) (kind i : Nat) : Bool := match kind with
  | 0 => d.cluServes i
  | 1 => d.slicesIn.testBit i
  | _ => d.engineIn i

/-- A unit is marked failed and out of service (R546). -/
def Dev.markFailed (d : Dev) (kind i : Nat) : Dev := match kind with
  | 0 => ((d.setRb (Reg.FLT_UNITS 2) i true).setRb (Reg.FLT_UNITS 0) i true).setRb (Reg.FLT_UNITS 1) i false
  | 1 => (d.setRb (Reg.FLT_UNITS 3) i true).setRb Reg.PRS_SLICE_CTL i true
  | _ => d.setRb (Reg.FLT_UNITS 3) (8 + i) true

/-- Whether an out would leave no active cluster, no slice or no lookup engine (R550). -/
def Dev.lastUnit (d : Dev) (kind i : Nat) : Bool := match kind with
  | 0 => (List.range 24).all (fun c => decide (c = i) || (!d.cluActive c && !d.rb (Reg.FLT_UNITS 1) c))
  | 1 => (List.range 8).all (fun k => decide (k = i) || !d.slicesIn.testBit k)
  | _ => (List.range 16).all (fun k => decide (k = i) || !d.engineIn k)

/-- The kind and index that an operation of FLT_IST_CMD names are stored. -/
def Dev.istName (d : Dev) (kind i : Nat) : Dev := d.setReg Reg.FLT_IST_CMD (wd (kind * 2 ^ 24 + i))

/-- An operation of FLT_IST_CMD on a unit (R550): ignored while one runs, refused for a failed unit or one that does not
exist, and else its effect. -/
def Dev.istOp (d : Dev) (kind i : Nat) (refused : Dev → Bool) (body : Dev → Dev) : Dev :=
  if d.rb Reg.FLT_IST_STATUS 31 then d
  else
    let d := d.istName kind i
    if !istUnit kind i || d.unitFailed kind i || refused d then d.istDone 2 else body d

/-- Operation 1, out (R550): a cluster drains, its spare woken first; a slice or an engine is isolated. -/
def istOut (now kind i : Nat) (d : Dev) : Dev :=
  d.istOp kind i (fun d => d.lastUnit kind i) fun d =>
    match kind with
    | 0 =>
      if d.cluServes i then
        let (s, d) := d.takeSpare
        let waits := match s with
          | some c => !d.cluClocked c
          | none => false
        { d.istBusy with flt := { d.flt with drains := d.flt.drains ++ [⟨i, if waits then none else some now, s⟩] } }
      else ((d.setRb (Reg.FLT_UNITS 0) i true).setRb (Reg.FLT_UNITS 1) i false).istDone 0
    | 1 => (d.setRb Reg.PRS_SLICE_CTL i true).istDone 0
    | _ => { d.istDone 0 with flt := { d.flt with engOut := d.flt.engOut ||| 2 ^ i } }

/-- Operation 2, BIST (R550), of a unit that is out of service; a cluster is then not gated (R547). -/
def istBist (kind i : Nat) (d : Dev) : Dev :=
  d.istOp kind i (fun d => d.unitIn kind i) fun d =>
    let d := { d.istBusy with flt := { d.flt with bist := some (kind, i) } }
    if kind = 0 then d.bistWake i else d

/-- Operation 3, return (R550): a cluster becomes a spare while 22 are active, and active otherwise; a slice or an engine
returns to service. -/
def istReturn (kind i : Nat) (d : Dev) : Dev :=
  d.istOp kind i (fun d => d.unitIn kind i) fun d =>
    match kind with
    | 0 =>
      let d := d.setRb (Reg.FLT_UNITS 0) i false
      if 22 ≤ (List.range 24).countP d.cluActive then (d.setRb (Reg.FLT_UNITS 1) i true).istDone 0
      else ((d.setRb (Reg.FLT_UNITS 1) i false).startWaking i).istDone 0
    | 1 => (d.setRb Reg.PRS_SLICE_CTL i false).istDone 0
    | _ => { d.istDone 0 with flt := { d.flt with engOut := (d.flt.engOut ||| 2 ^ i) - 2 ^ i } }

/-- A write of FLT_IST_CMD (R550, R558). -/
def istWrite (now : Nat) (v : Word) (d : Dev) : Dev :=
  let kind := fld v 25 24
  let i := fld v 4 0
  match fld v 31 30 with
  | 1 => istOut now kind i d
  | 2 => istBist kind i d
  | 3 => istReturn kind i d
  | _ => d.istName kind i

/-- The BIST ends (R550), and a cluster is gated then (R547): a failure marks the unit failed and is recorded; `array` is the first failing array of a
cluster. -/
def bistDone (pass : Bool) (array : Nat) (d : Dev) : Dev :=
  match d.flt.bist with
  | none => d
  | some (kind, i) =>
    let d := { d with flt := { d.flt with bist := none } }
    let d := if kind = 0 then d.startGating i else d
    if pass then d.istDone 0
    else
      let d := (d.markFailed kind i).istDone 1
      match kind with
      | 0 => d.raise Src.cluBistFail (array % 256 * 2 ^ 8 + i)
      | 1 => d.raise Src.prsSliceLimit i
      | _ => d.raise Src.fwdEngLimit i

/-- drain_us ends, or the cluster has emptied (R547): the rest of a drain that is not a containment. It waits for an
irrevocable run that has begun (R176). -/
def drainTimeout (now c : Nat) (d : Dev) : Dev :=
  match d.flt.drains.find? (fun e => decide (e.cluster = c)) with
  | some e => match e.since with
    | some t =>
      let mine := d.vrn.txns.filter (fun x => decide (x.1 / 256 = c) && decide (x.2.phase ≠ .free))
      let over_ := decide (t + 1000 * d.rf Reg.FLT_CTL 15 0 ≤ now) || decide (mine = [])
      if over_ && mine.all (fun x => decide (x.2.irrev ≠ .granted)) then
        let ist := d.rb Reg.FLT_IST_STATUS 31 && decide (d.flt.bist = none)
          && decide (d.rf Reg.FLT_IST_CMD 25 24 = 0 ∧ d.rf Reg.FLT_IST_CMD 4 0 = c)
        let d := d.leaveService now c
        if ist then d.istDone 0 else d
      else d
    | none => d
  | none => d

/-! Containment (R546, R581). -/

/-- The kind of unit that a source's detail names: 0 cluster, 1 slice, 2 lookup engine, 3 DRAM channel (R581). -/
def containKind (s : Nat) : Option Nat :=
  if s ∈ [0x08, 0x0A, 0x0B, 0x0C, 0x0D, 0x10, 0x11, 0x1A, 0x1B, 0x6A, 0x6B, 0x6C, 0x6D] then some 0
  else if s ∈ [0x1C, 0x1D] then some 1
  else if s ∈ [0x24, 0x25] then some 2
  else if s ∈ [0x50, 0x51, 0x52, 0x53, 0x54] then some 3
  else none

/-- A BIST of a unit that is contained ends (R550). -/
def Dev.endBist (d : Dev) (kind i : Nat) : Dev :=
  if d.flt.bist = some (kind, i) then
    let d := ({ d with flt := { d.flt with bist := none } }.markFailed kind i).istDone 1
    if kind = 0 then d.startGating i else d
  else d

/-- A cluster in service is contained (R176, R546, R547): its irrevocable run ends by the Errors rule, it drains with no
wait, and a spare replaces it if FLT_CTL.auto_spare is 1. -/
def Dev.containCluster (d : Dev) (now c : Nat) : Dev :=
  let drain := d.flt.drains.find? (fun e => decide (e.cluster = c))
  let ist := d.rb Reg.FLT_IST_STATUS 31 && decide (d.flt.bist = none)
    && decide (d.rf Reg.FLT_IST_CMD 25 24 = 0 ∧ d.rf Reg.FLT_IST_CMD 4 0 = c) && drain.isSome
  let d := match d.vrn.grant with
    | some k => if k / 256 = c then d.irrevError k else d
    | none => d
  let d := (d.leaveService now c).markFailed 0 c
  let d : Dev := if ist then d.istDone 0 else d
  if d.rb Reg.FLT_CTL 29 && drain.all (fun e => decide (e.spare = none)) then d.takeSpare.2 else d

/-- Containment of a unit (R546): one already out of service stays as it is, but a BIST of it ends. -/
def Dev.contain (d : Dev) (now kind i : Nat) : Dev :=
  match kind with
  | 3 =>
    if 8 ≤ i ∨ d.retired i then d
    else
      let d := d.retireChan now i
      { d with drc := { d.drc with ret := tset 0 d.drc.ret i 9 } }
  | _ =>
    if !istUnit kind i then d
    else if d.unitIn kind i then
      if kind = 0 then d.containCluster now i else d.markFailed kind i
    else if kind = 0 && d.rb (Reg.FLT_UNITS 1) i then
      (d.endBist kind i).markFailed 0 i |>.startGating i
    else d.endBist kind i

/-! The Fixative and the stop (R510, R512, R542). -/

/-- The Fixative starts, unless it runs: CMD fetching stops and interrupt line 1 is raised (R510, R502). -/
def Dev.startFix (d : Dev) (now : Nat) (power : Bool) : Dev :=
  let d := d.atlLine 1
  match d.mgt.fix with
  | some _ => d
  | none => { d with mgt := { d.mgt with fix := some ⟨now, power, false⟩ } }

/-- The severity-5 stop (R542): lanes held, heartbeats stopped, the Fixative, GLB_RUN_STATE 0x4. -/
def Dev.stop (d : Dev) (now : Nat) : Dev :=
  let d := (d.setRf Reg.GLB_RUN_STATE 3 0 4).holdLanes true true
  (d.hbStopAll).startFix now false

/-- A PROFILE_APPLY that a fault of severity 4 or 5 stops (R71): its transaction does not take effect, if it has not yet; the
newly named spares return to service, the pairs that were to change may run again, and the command completes with r0 = 1. -/
def Dev.stopApply (d : Dev) : Dev :=
  match d.prf.applying with
  | none => d
  | some a =>
    let old := d.oldProfile
    let d := { d with prf := { d.prf with applying := none } }
    let mine := fun (c : Cp) => decide (a.cp = some c.id ∧ c.stage = .positioned)
    let d := ({ d with vrn := { d.vrn with cps := d.vrn.cps.filter (fun c => !mine c) } }).noteEligible
    let back := (newSpares old a.prof).filter (fun c => !d.rb (Reg.FLT_UNITS 1) c && !d.rb (Reg.FLT_UNITS 2) c)
    let d := back.foldl (fun (d : Dev) c =>
      let d := { d with flt := { d.flt with drains := d.flt.drains.filter (fun e => decide (e.cluster ≠ c)) } }
      if d.rb (Reg.FLT_UNITS 0) c then (d.setRb (Reg.FLT_UNITS 0) c false).startWaking c else d) d
    let d := (changedPairs old a.prof).foldl (fun (d : Dev) k => d.setHb k { d.hb k with stopped := false }) d
    d.cmdEnd a.grp a.cmd 0 [1]

/-! The collector (R542 to R545). -/

/-- Whether R540 assigns a source number. -/
def srcListed (s : Nat) : Bool := sevDefaults.any (fun e => decide (e.1 = s))

/-- The first report of severity 1 or above is captured; later ones set overflow (R544). -/
def Dev.firstFault (d : Dev) (now sev : Nat) (x : Report) : Dev :=
  if d.rb Reg.FLT_FIRST_STATUS 31 then d.setRb Reg.FLT_FIRST_STATUS 30 true
  else
    let w := 2 ^ 31 + b2n (d.rb Reg.FLT_FIRST_STATUS 30) * 2 ^ 30 + b2n x.injected * 2 ^ 29 + sev * 2 ^ 8 + x.src
    ((((d.setReg Reg.FLT_FIRST_STATUS (wd w)).setReg Reg.FLT_FIRST_DETAIL x.detail).setReg Reg.FLT_FIRST_TIME_LO
      (wd now)).setReg Reg.FLT_FIRST_TIME_HI (wd (now / 2 ^ 32)))

/-- The payload of a FAULT event (R482). -/
def faultPayload (now sev : Nat) (x : Report) : List Byte :=
  leBytes 1 0x40 ++ leBytes 1 sev ++ leBytes 1 x.src ++ zeros 1 ++ leBytes 4 x.detail.toNat ++ zeros 8 ++ leBytes 8 now

/-- The in-band interrupt of a fault (R509): offered, or the latest to follow the one on offer. -/
def Dev.raiseIbi (d : Dev) (sev src : Nat) : Dev :=
  if d.rb Reg.MGT_I3C_STATUS 7 && decide (d.rf Reg.MGT_IBI 2 0 ≤ sev) then
    match d.mgt.ibi with
    | none => { d with mgt := { d.mgt with ibi := some (sev, src) } }
    | some _ => { d with mgt := { d.mgt with ibiNext := some (sev, src) } }
  else d

/-- A report acts at its severity (R542). -/
def Dev.collect (d : Dev) (now : Nat) (x : Report) : Dev :=
  let sev := d.rf (Reg.FLT_SEV x.src) 2 0
  let d := (d.bumpSat (Reg.FLT_CNT x.src) 16 1).raiseIbi sev x.src
  let d : Dev := if 1 ≤ sev then (d.firstFault now sev x).postEvt (d.rf Reg.HST_CTL 19 16) (faultPayload now sev x) else d
  let d : Dev := if 2 ≤ sev then (d.sendVec (d.rf Reg.HST_CTL 15 8)).atlLine 0 else d
  let d : Dev := if 3 ≤ sev then
    { d with pins := { d.pins with faultEnd := some (now + 1000 * d.rf Reg.FLT_CTL 27 16) } } else d
  let d : Dev := if 4 ≤ sev then
    (match containKind x.src with
     | some k => d.contain now k (fld x.detail 7 0)
     | none => d).stopApply else d
  if 5 ≤ sev then d.stop now else d

/-! Errors that a unit meets (R288, R317, R356, R455, R541): what the report's unit does itself. -/

/-- Moves the oldest lookup of an engine to another one (R541, FWD_ENG_ERR). -/
def Dev.reissue (d : Dev) (e : Nat) : Dev :=
  let others := (List.range 16).filter (fun k => decide (k ≠ e) && d.engineIn k)
  match findIx (fun (r : LkReq) => decide (r.engine = e)) d.brs.lookups, pickMin d.engineLoad others with
  | some i, some k => match d.brs.lookups[i]? with
    | some r => { d with brs := { d.brs with lookups := d.brs.lookups.set i { r with engine := k } } }
    | none => d
  | _, _ => d

/-- An uncorrectable error in a cluster's register files, brush state, write sets or signatures (R168, R541): the
transaction that read it aborts with cause 0x5, or ends by the Errors rule in an irrevocable run (R176). The detail names
no such word: an offset beyond shared memory stands for one, and which transaction of the cluster it meets is a free choice
(DESIGN CHOICE, log entry 110). -/
def Dev.coreError (d : Dev) (c : Nat) : Dev :=
  let ks := tkeys (fun k (x : Txn) => decide (k / 256 = c) && x.alive) d.vrn.txns
  let (n, d) := d.pick ks.length
  match ks[n]? with
  | some k => d.coreUe k
  | none => d

/-- What a unit does about an error that it reports of its own accord, before the report acts. -/
def Dev.unitError (d : Dev) (now s : Nat) (w : Word) : Dev :=
  let u := fld w 7 0
  if s = Src.cluSramEcc then
    let d : Dev := if fld w 28 8 < 0x20000 then
        { d with drc := { d.drc with poison := tset false d.drc.poison ((cluBase u) / 4 + fld w 28 8) true } }
      else d.coreError u
    d.countErr now (s * 256 + u) Src.cluErrLimit u
  else if s = Src.prsSliceErr then d.countErr now (s * 256 + u) Src.prsSliceLimit u
  else if s = Src.fwdEngErr then (d.reissue u).countErr now (s * 256 + u) Src.fwdEngLimit u
  else if s = Src.fwdTblEcc then
    let row := fld w 17 0
    let d := { d with fwd := { d.fwd with badRows := tset 0 d.fwd.badRows row (2 ^ 64 - 1) } }
    if d.rb Reg.FWD_ECC_STATUS 31 then d else d.setReg Reg.FWD_ECC_STATUS (wd (2 ^ 31 + row))
  else if s = Src.palLinkEcc then if d.hValid w then { d with pal := { d.pal with quar := w :: d.pal.quar.filter (· ≠ w) } } else d
  else if s = Src.palDataEcc then
    { d with tmg := { d.tmg with egress := tmap [] (fun _ (l : List Egress) => l.map (fun e =>
        if (d.chain e.item.handle).contains w then { e with sent := true } else e)) d.tmg.egress } }
  else if s = Src.stnEngHalt then d.engineMemory u
  else if s = Src.tmLinkEcc then (d.flushQueue (fld w 15 0) 7).gateTend now (d.queuePort (fld w 15 0))
  else if s = Src.mtrEcc then
    if bit w 31 then d.setCounter (fld w 20 0) (0, 0)
    else d.setMeter (fld w 20 0) { d.meter (fld w 20 0) with cfg := meterWords [], lost := true }
  else if s = Src.tcaEcc then
    let ks := tkeys (fun k (_ : Option TcaLine) => decide (k / 16 / 4096 = u)) d.tca.lines
    let (n, d) := d.pick (2 * ks.length)
    match ks[n / 2]? with
    | some k =>
      let e : Dev := { d with tca := { d.tca with lines := tdrop (fun j => decide (j = k ∨ (n % 2 = 1 ∧ j / 16 = k / 16))) d.tca.lines } }
      match d.tcaWay (k / 16) (k % 16) with
      | some x => if n % 2 = 0 then e.askFill now 2 (d.wayOwner (k % 16)) x.line true else e
      | none => e
    | none => d
  else d

/-- A fault report reaches the collector (R542, R543): the oldest one on its way with this source and detail, or one of an
error that a unit meets now. Reserved source numbers are never raised (R540). -/
def faultReport (now s : Nat) (detail : Word) (d : Dev) : Dev :=
  if !srcListed s then d
  else match findIx (fun (x : Report) => decide (x.src = s ∧ x.detail = detail)) d.flt.inbox with
    | some i =>
      let x := (d.flt.inbox[i]?).getD ⟨s, detail, false⟩
      { d with flt := { d.flt with inbox := d.flt.inbox.eraseIdx i } }.collect now x
    | none => (d.unitError now s detail).collect now ⟨s, detail, false⟩

/-- The FAULT_N pulse ends (R545). -/
def faultNPulseEnd (now : Nat) (d : Dev) : Dev :=
  match d.pins.faultEnd with
  | some t => if t ≤ now then { d with pins := { d.pins with faultEnd := none } } else d
  | none => d

/-- Whether the device drives FAULT_N low (R545); EXTEST, CLAMP and HIGHZ take the pin over (R556). -/
def Dev.faultLow (d : Dev) : Bool := match d.tapPin 2 with
  | .driven level => !level
  | .highZ => false
  | .free => d.pins.faultEnd.isSome || d.rb Reg.FLT_CTL 28 || decide (d.stage = 4)

/-- A write of FLT_INJECT (R550): a source of R540 is raised with the injected flag; a reserved number is ignored. -/
def faultInject (s : Nat) (d : Dev) : Dev :=
  if srcListed s then
    { d with flt := { d.flt with inbox := d.flt.inbox ++ [⟨s, d.reg Reg.FLT_INJECT_DETAIL, true⟩] } }
  else d

end Sys2Proof.Machine
end

