-- ==== Sys2Proof/Machine/Quote.lean ====
section
/-!
DEFINITION. Measurements and quotes (R503 to R505): the quote engine, the QUOTE command and GMP's quotes.
-/

namespace Sys2Proof.Machine

/-- Bytes 0x000 to 0x16F of a quote (R504): what its signature covers. -/
def Dev.quoteBody (d : Dev) (c : Clock) (i : Ident) (nonce : List Byte) : List Byte :=
  leBytes 4 0x544F5551 ++ leBytes 2 1 ++ leBytes 2 nonce.length ++ padTo 8 i.lot
    ++ leBytes 1 i.wafer ++ leBytes 1 i.x ++ leBytes 1 i.y ++ leBytes 1 i.stage ++ leBytes 4 (i.stepping % 65536)
    ++ leBytes 8 c.count ++ padTo 256 (i.meas.flatMap (padTo 64))
    ++ leBytes 4 (match d.prf.inForce with
        | some p => p.seq
        | none => 0)
    ++ leBytes 4 d.mgt.svn ++ leBytes 4 (d.rf Reg.ATL_MEAS 15 0) ++ zeros 4 ++ padTo 64 nonce

/-- The quote engine takes the oldest quote that waits: it captures the measurements as it starts (R505), so that an
extension comes before it or after it. -/
def Dev.startQuote (d : Dev) (c : Clock) (i : Ident) : Dev :=
  match d.mgt.quotes with
  | q :: r => match q.body with
    | none => { d with mgt := { d.mgt with quotes := { q with body := some (d.quoteBody c i q.nonce) } :: r } }
    | some _ => d
  | [] => d

/-- A quote asked for joins those that wait (R505). -/
def Dev.askQuote (d : Dev) (c : Clock) (i : Ident) (q : QuoteReq) : Dev :=
  ({ d with mgt := { d.mgt with quotes := d.mgt.quotes ++ [q] } }).startQuote c i

/-- QUOTE (R478, R505): a response buffer that is too short completes LENGTH with the length required. -/
def quoteCmd (c : Clock) (i : Ident) (g : Nat) (x : Dma) (d : Dev) : Dev :=
  match d.cmdNext g with
  | none => d
  | some k =>
    if k.opcode = 8 ∧ !k.fieldBad 0 ∧ 16 ≤ k.lenA ∧ k.lenA ≤ 64 ∧ k.lenB < 496 then
      (d.cmdStart g k).cmdEnd g k.index 2 [0, 496]
    else d.runCmd c.count g 8 0 (fun _ => false) (fun k => decide (16 ≤ k.lenA ∧ k.lenA ≤ 64)) (fun k => k.lenA) x
      fun k bs d => d.askQuote c i ⟨some (g, k.index), bs, none⟩

/-- The quote engine finishes a quote (R504, R505): signed with the device key, and handed over; the next one starts. -/
def quoteDone (c : Clock) (i : Ident) (d : Dev) : Dev :=
  match d.mgt.quotes with
  | [] => d
  | q :: r => match q.body with
    | none => d.startQuote c i
    | some b =>
      let bytes := b ++ padTo 114 (ed448Sign (leBytes 57 i.devKey) ctxQuote (phDigest b)) ++ zeros 14
      let d := { d with mgt := { d.mgt with quotes := r } }
      let d : Dev := match q.ring with
        | none => { d with mgt := { d.mgt with gmpQuote := some bytes } }
        | some (g, k) => match (d.grp g).running.find? (fun x => decide (x.index = k)) with
          | some x => d.respond g x bytes [496, 496]
          | none => d
      d.startQuote c i

/-- A measurement extended with a digest (R503). -/
def extended (m digest : List Byte) : List Byte := padTo 64 (shake256 (padTo 64 m ++ digest) 64)

/-- The digest of ATL_MEAS_DATA. -/
def Dev.measData (d : Dev) : List Byte := (List.range 16).flatMap (fun w => leBytes 4 (d.reg (Reg.ATL_MEAS_DATA w)).toNat)

/-- ATL_MEAS.extend on the measurements: M3 (R503). -/
def measExtendIdent (r : Req) (d : Dev) (i : Ident) : Ident :=
  if r = .host then i else { i with meas := i.meas.set 3 (extended (i.meas.getD 3 []) d.measData) }

/-- ATL_MEAS.extend on the device: the count (R503, R515); a host write is refused. -/
def measExtendDev (r : Req) (d : Dev) : Dev :=
  if r = .host then d.refuse r Reg.ATL_MEAS
  else d.setReg Reg.ATL_MEAS (wd (min (d.rf Reg.ATL_MEAS 15 0 + 1) 0xFFFF))

end Sys2Proof.Machine
end

