-- ==== Sys2Proof/Machine/Cmds.lean ====
section
/-!
DEFINITION. The commands of a CMD ring that are not table operations (R478): PORT_REARM, the profile's replacement (R69 to
R71), MSG_SEND, TASK_POST; DMA reads that host memory does not answer (R487); host accesses through BAR4 (R461).
-/

namespace Sys2Proof.Machine

/-- No operand. -/
def noLen : HCmd → Nat := fun _ => 0

/-- PORT_REARM (R65, R478). -/
def portRearmCmd (now g : Nat) (d : Dev) : Dev :=
  d.runCmd now g 3 1 (fun c => decide (111 < c.param 0)) (fun _ => true) noLen (.ok []) fun c _ d =>
    if d.portHeld (c.param 0) then (d.rearm now (c.param 0)).cmdEnd g c.index 0 [0] else d.cmdEnd g c.index 0 [1]

/-! The profile (R69 to R71). -/

/-- PROFILE_STAGE (R69, R478): the profile at addr_a or the one in the inactive flash slot is validated. -/
def profileStageCmd (now g : Nat) (x : Dma) (flash : List Byte) (d : Dev) : Dev :=
  let host := fun (c : HCmd) => decide (c.param 0 = 1)
  d.runCmd now g 4 1 (fun c => decide (1 < c.param 0)) (fun c => !host c || decide (336 ≤ c.lenA ∧ c.lenA ≤ 262144))
    (fun c => if host c then c.lenA else 0) x fun c bs d =>
      match validateProfile (if host c then bs else flash) d.prf.owners (d.prf.inForce.map (·.seq)) with
      | .bad code off => d.cmdEnd g c.index 0 [code, off]
      | .good p => { d with prf := { d.prf with staged := some p } }.cmdEnd g c.index 0 [0, 0]

/-- The reserves that differ, and the pool counts that grow, as operations of one control-plane transaction (R70). -/
def resvOps (a b : Profile) : List CpOp :=
  let rs := (List.range 2).flatMap fun kind => (List.range 64).flatMap fun o => (List.range 16).filterMap fun p =>
    let n := reserveOf b.resvs o p kind
    if n = reserveOf a.resvs o p kind then none else some (CpOp.reserve kind o p n)
  let ps := b.pools.filterMap fun e => match a.pools.find? (fun x => decide (x.pool = e.pool)) with
    | some x => if x.count < e.count then some (CpOp.poolCount e.pool e.count) else none
    | none => none
  rs ++ ps

/-- The differences of a staged profile begin to apply (R70): changed ports stop at a frame boundary while their queues drain,
the heartbeats of changed pairs stop, the reserves go as one control-plane transaction, and a newly named spare drains. -/
def Dev.startApply (d : Dev) (now g cmd : Nat) (old new : Profile) : Dev :=
  let d := (changedPairs old new).foldl (fun (d : Dev) k => d.hbStop k false) d
  let ops := resvOps old new
  let (cp, d) := if ops = [] then ((none : Option Nat), d) else
    let r := d.cpSubmit now none ops
    (some r.1, r.2)
  let fresh := (newSpares old new).filter (fun c => d.cluServes c)
  { d with prf := { d.prf with applying := some ⟨new, g, cmd, cp⟩ }
           flt := { d.flt with drains := d.flt.drains ++ fresh.map (fun c => ⟨c, some now, none⟩) } }

/-- PROFILE_APPLY (R69, R70, R478). One that finds another running is BUSY. With no profile in force every entry of the staged
one is a difference (DESIGN CHOICE, log entry 131). It waits while its transaction would be the 17th between staging and
release (R183). -/
def profileApplyCmd (now g : Nat) (d : Dev) : Dev :=
  let old := d.oldProfile
  let waits := match d.prf.applying, d.prf.staged with
    | none, some p => d.cpFull && decide (resvOps old p ≠ [])
    | _, _ => false
  if waits then d
  else d.runCmd now g 5 0 (fun _ => false) (fun _ => true) noLen (.ok []) fun c _ d =>
    match d.prf.applying, d.prf.staged with
    | some _, _ => d.cmdEnd g c.index 5 []
    | none, none => d.cmdEnd g c.index 0 [2]
    | none, some p => if d.cpStops then d.cmdEnd g c.index 0 [1] else d.startApply now g c.index old p

/-- Whether every change of an apply but the ports' and pairs' reconfiguration is done (R70, R71): the changed ports'
queues have drained, the transaction is released and the spares are out. -/
def Dev.applyReady (d : Dev) (a : Apply) (old : Profile) : Bool :=
  (changedPorts old a.prof).all (fun p => decide (tget [] d.tmg.egress p = []) && decide (d.busyQueues p = []))
    && (match a.cp with
        | some k => d.vrn.cps.all (fun c => decide (c.id ≠ k))
        | none => true)
    && (newSpares old a.prof).all (fun c => !d.cluServes c)

/-- The profile that is in force after an apply (R70): the fields that wait for the next boot keep their values. -/
def Profile.merged (old new : Profile) : Profile :=
  { new with
    devNum := old.devNum, sysSize := old.sysSize, pps := old.pps, drams := old.drams, lines := old.lines
    pools := old.pools.map (fun e => match new.pools.find? (fun x => decide (x.pool = e.pool)) with
      | some x => { e with count := max e.count x.count }
      | none => e) }

/-- What PROFILE_COMMIT puts in force: the apply and the profiles before and after; none while it is not ready. -/
def Dev.commitReady (d : Dev) : Option (Apply × Profile) :=
  match d.prf.applying with
  | some a => if d.applyReady a d.oldProfile then some (a, d.oldProfile) else none
  | none => none

/-- The committed record is written (R70, R71): the changed ports and pairs are reconfigured and brought up, which ends
a hold of R65, the lanes of their engines take their slots in port order (R374; log entry 132), the former spare comes into
service, and PROFILE_APPLY completes. -/
def profileCommitDev (now : Nat) (d : Dev) : Dev :=
  match d.commitReady with
  | none => d
  | some (a, old) =>
    let new := old.merged a.prof
    let ps := changedPorts old a.prof
    let gone := old.ports.filter (fun e => decide (e.port ∈ ps))
    let come := new.ports.filter (fun e => decide (e.port ∈ ps))
    let ks := changedPairs old a.prof
    let was := d
    let d := gone.foldl Dev.removePort d
    let d := (old.rings.filter (fun r => decide (r.pair ∈ ks))).foldl (fun (d : Dev) r =>
      (d.setRb (Reg.STN_ENG_W3 r.engine) 23 false).setRf (Reg.STN_HB r.pair) 20 16 0) d
    let d := { d with prf := { d.prf with inForce := some new, applying := none } }
    let d := ps.foldl Dev.unhold d
    let touched := (gone ++ come).filterMap (fun e => if 5 ≤ e.kind then some e.engine else none)
    let d := touched.foldl (fun (d : Dev) e => d.freeSlotsUsed new e) d
    let d := come.foldl (fun (d : Dev) e => (d.installEntry new.ports e).freshSlot new.ports e) d
    let d := (new.ports.filter (fun e => decide (5 ≤ e.kind ∧ e.engine ∈ touched ∧ e.port ∉ ps))).foldl
      (fun (d : Dev) e => d.reslot new.ports e (was.slot e.engine (was.laneSlot (e.port - 80)))) d
    let d := (new.rings.filter (fun r => decide (r.pair ∈ ks))).foldl Dev.installRing d
    let d := come.foldl (fun (d : Dev) e =>
      if e.port < 80 then (d.setPrtState e.port (d.prtRest e.port)).bringUp now e.port
      else if d.engineRuns (d.laneEngine (e.port - 80)) then d.laneStart (e.port - 80) else d) d
    let d := ks.foldl (fun (d : Dev) k => d.setHb k { d.hb k with stopped := false }) d
    let spares := [new.spareA, new.spareB]
    let former := (List.range 24).filter (fun c =>
      decide (c = old.spareA ∨ c = old.spareB) && d.rb (Reg.FLT_UNITS 1) c && !spares.contains c)
    let d := (newSpares old a.prof).foldl (fun (d : Dev) c =>
      if d.rb (Reg.FLT_UNITS 2) c then d
      else ((d.setRb (Reg.FLT_UNITS 0) c false).setRb (Reg.FLT_UNITS 1) c true)) d
    let d := former.foldl (fun (d : Dev) c => (d.setRb (Reg.FLT_UNITS 1) c false).startWaking c) d
    d.cmdEnd a.grp a.cmd 0 [0]

/-- The profile that becomes in force extends M2 with its digest (R71, R503). -/
def profileCommitIdent (d : Dev) (i : Ident) : Ident :=
  match d.commitReady with
  | none => i
  | some (a, _) => { i with meas := i.meas.set 2 (extended (i.meas.getD 2 []) a.prof.digest) }

/-! Messages and tasks (R233, R478). -/

/-- MSG_SEND (R233, R478). -/
def msgSendCmd (now g : Nat) (x : Dma) (d : Dev) : Dev :=
  d.runCmd now g 6 1 (fun c => decide (2 ^ 11 ≤ c.param 0)) (fun c => decide (c.lenA % 4 = 0 ∧ c.lenA ≤ 64)) (fun c => c.lenA) x
    fun c bs d =>
      let ch := c.param 0
      if !d.chanEnabled ch || d.chanRing ch then d.cmdEnd g c.index 0 [1]
      else if !d.chanRoom ch then d.cmdEnd g c.index 0 [2]
      else (d.deliver ch (bytesWords (bs.length / 4) bs)).cmdEnd g c.index 0 [0]

/-- TASK_POST (R127, R236, R478). -/
def taskPostCmd (now g : Nat) (x : Dma) (d : Dev) : Dev :=
  d.runCmd now g 7 0 (fun _ => false) (fun c => decide (c.lenA = 64)) (fun c => c.lenA) x fun c bs d =>
    let p := parseRec bs
    if p.1.hasTxn || !postable bs then d.cmdEnd g c.index 4 []
    else
      let r := d.postRec p.1
      r.2.cmdEnd g c.index 0 [r.1]

/-! DMA reads that time out (R485, R487). -/

/-- A command's operand read times out (R487): the command next in order ends with ADDR. -/
def Dev.operandTimeout (d : Dev) (g : Nat) : Dev :=
  match d.cmdNext g with
  | none => d
  | some c =>
    if c.opcode ∈ [1, 2, 6, 7, 8] ∨ (c.opcode = 4 ∧ c.param 0 = 1) then
      ((d.cmdStart g c).dmaFault g 2 (dmaCode .timeout) c.addrA 0).cmdEnd g c.index 1 []
    else d

/-- A DMA read to host memory receives no completion in time (R485, R487); group 15 reads no host memory. -/
def pcieCompletionTimeout (now sec nsec g : Nat) (use : DmaUse) (d : Dev) : Dev :=
  if g = 15 then d
  else match use with
    | .doorbell => doorbellReadDone now g (.fail .timeout) d
    | .descriptors r => descriptorFetchDone now g r (.fail .timeout) d
    | .injData => injPacket now sec nsec g [.fail .timeout] d
    | .operand => d.operandTimeout g

/-! BAR4 (R41, R461). -/

/-- The internal address of a BAR4 offset. -/
def Dev.bar4Addr (d : Dev) (off : Nat) : Nat := d.rf Reg.HST_BAR4 17 0 * 2 ^ 30 + off

/-- Whether a region answers a host access through BAR4 (R41). -/
def bar4Region (write : Bool) : Region → Bool
  | .dram | .packet | .cluster _ => true
  | .lookup => !write
  | _ => false

/-- A host access through BAR4 (R40, R41, R432, R461), which does not decode before stage 0x2 (R495). The completion's status byte is 0, 1 for Unsupported Request, or 2
with the poisoned bit set; the data of a read follow it. -/
def bar4Access (now off : Nat) (acc : Bar4) (d : Dev) : Dev :=
  let a := d.bar4Addr off
  let n := match acc with
    | .read n => n
    | .write bs => bs.length
  let wr := match acc with
    | .read _ => false
    | .write _ => true
  let ur := fun (d : Dev) => { d with resp := [1] }
  if !d.rb Reg.HST_BAR4 31 || d.bar0Only then ur d
  else match (List.range n).find? (fun i => decide (d.region (a + i) = .unmapped)) with
    | some i => ur (d.captureUnmapped 0 (a + i))
    | none =>
      if !(List.range n).all (fun i => bar4Region wr (d.region (a + i))) then ur d
      else match acc with
        | .read n =>
          { (d.seeDram a n).dateUes now with resp := (if d.dead a n then 2 else 0) :: d.memRead a n }
        | .write bs => { d.memWrite a bs with resp := [0] }

end Sys2Proof.Machine
end

