-- ==== Sys2Proof/Machine/Reset.lean ====
section
/-!
DEFINITION. Supplies, reset and the pins (R29, R46, R510, R512, R566 to R573, R578): the device after a reset, the
power-up events, PWRFAIL_N and the Fixative, THERMTRIP_N, and the losses of a clock.
-/

namespace Sys2Proof.Machine

/-- An Atelier core at reset (R119): supervisor mode, pc 0x0800_0000; cores 1 to 3 are held (R498). -/
def atlReset : Thread := { Thread.reset with pc := 0x08000000, sstatus := 1 }

/-- The threads at reset: the cluster threads stopped with their state 0 (R81), the Atelier cores at the Primer. -/
def resetThreads : Tab Thread := (List.range 4).map (fun k => (1536 + k, atlReset))

/-- The pins of a powered device out of reset. -/
def pinsUp : Pins :=
  { vddIo := true, vddCore := true, resetN := true, pwrfailN := true, perstN := false, thermtripN := true, bootSel := 0,
    faultEnd := none, refclk := true, pfLow := false, pfUp := none }

/-- The device when RESET_N is released (R14, R46, R81): every register at its reset value, every structure empty. -/
def Dev.reset : Dev :=
  { regs := [], hold := [], mem := []
    krv := { threads := resetThreads, icache := [], dcache := [], wbuf := [], l2 := [], tlb := [] }
    esl := { recs := [], toks := [], saves := [], boosted := [], comps := [], reports := [], seq := 0 }
    brs := { chans := [], recvs := [], lookups := [], ciphers := [], assocs := [] }
    vrn := { txns := [], doms := [], aborts := [], cbuf := [], grant := none, waiters := [], holdWait := none, cps := [], cpSeq := 0 }
    prs := { inq := [], fresh := 0, out := [], rot := 0, rereads := [] }
    pal := { link := [], charge := [], heads := [], quar := [], used := [], irrevWait := [], withheld := [] }
    lku := { locks := [], entryWait := [], reqs := [], sems := [] }
    mtr := { meters := [], counters := [] }
    tmg := { objs := [], queues := [], shapers := [], deficits := [], rings := [], gates := [], recov := [], egress := [],
             swatchEnd := 0 }
    hst := { grps := [], posted := [] }
    pwr := { cl := [], badPhases := 0, lastStep := none }
    flt := { inbox := [], engOut := 0, errs := [], drains := [], bist := none }
    drc := { chans := [], map := [], ilv := 0, poison := [], reqs := [], rows := [], group := [], acts := [], mirrors := [],
             bringing := false, freqSince := 0, freqTo := false, freqDefer := 0, lastStep := none, retrain := [], ret := [],
             left := [], scrubAt := 0, scrubFrom := 0, ueTimes := [], ueNew := [], panics := [] }
    tca := { lines := [], plru := [], victims := [], fills := [], got := [], mbs := [], preload := none }
    fwd := { stash := [], posts := [], queues := [], learning := [], lastStart := none, flushes := [], tuples := [],
             acts := [], sweep := [], hits := [], badRows := [] }
    stn := { slots := [], last := [], rx := [], tx := [], errs := [], out := [], hb := [] }
    prt := { detect := [], align_ := [], faults := [], caps := [], sent := [], scr := [], held := [], pps := false, ppsFall := 0, ppsLast := none }
    prf := { inForce := none, staged := none, applying := none, owners := [] }
    mgt := { quotes := [], gmpQuote := none, timers := 0, timerHit := 0, mwl := 0, mrl := 0, rstAct := 0, ibi := none,
             ibiNext := none, fix := none, journal := { recs := [], runs := 0, missed := false, used := none }, lastCp := [],
             bootSel := 0, svn := 0, entry := 0, reboot := false }
    dbg := { tap := .bypass, boundary := 0, testAt := 0 }
    pins := pinsUp
    free := 0
    resp := [] }

/-- The first-fault registers, which RESET_N does not clear (R544). -/
def keptRegs : List Nat :=
  [Reg.FLT_FIRST_STATUS, Reg.FLT_FIRST_DETAIL, Reg.FLT_FIRST_TIME_LO, Reg.FLT_FIRST_TIME_HI]

/-- Management at reset: the journal lies in flash and stays (R494, R511). -/
def Dev.keptMgt (d : Dev) : Mgt := { Dev.reset.mgt with journal := d.mgt.journal }

/-- RESET_N falls (R421, R544, R545, R568, R569): ring-hold toggling stops and everything but the first-fault record, the
memories, the pins, a stop in stage 0x4 and what has left the device is lost. -/
def resetAssert (d : Dev) : Dev :=
  let h := d.hbStopAll
  let r : Dev := { Dev.reset with
    mem := d.mem, free := d.free, pins := { d.pins with resetN := false, faultEnd := none, perstN := d.pins.perstN }
    hst := { grps := [], posted := d.hst.posted }, prt := { Dev.reset.prt with sent := d.prt.sent }
    flt := { Dev.reset.flt with inbox := h.flt.inbox.drop d.flt.inbox.length }, mgt := d.keptMgt }
  let r := keptRegs.foldl (fun (r : Dev) o => r.setReg o (d.reg o)) r
  if d.stage = 4 then r.setRf Reg.GLB_RUN_STATE 3 0 4 else r

/-- The time base and the nanosecond counter at reset. -/
def Clock.reset : Clock := { sec := 0, nsec := 0, frac := 0, count := 0, edge := false }

/-- The measurements at reset: zero until the Primer sets them (R503, R514). -/
def Ident.cleared (i : Ident) : Ident := { i with meas := List.replicate 4 (zeros 64) }

/-- RESET_N is released (R46, R493, R566): BOOT_SEL is sampled and stage 0x0 begins. -/
def resetRelease (boot : Nat) (d : Dev) : Dev :=
  if d.pins.resetN ∨ !d.pins.vddIo ∨ !d.pins.vddCore then d
  else
    let d := d.setRf Reg.GLB_RUN_STATE 3 0 0
    { d with pins := { d.pins with resetN := true, bootSel := boot, pfLow := !d.pins.pwrfailN, pfUp := none }, mgt := { d.mgt with bootSel := boot } }

/-- A reset that acts as a RESET_N pulse of 1 µs (R508, R512). -/
def Dev.pulse (d : Dev) : Dev := resetRelease d.pins.bootSel (resetAssert d)

/-- The clocks that run once the device is out of stage 0x0: SCLK, ACLK, HCLK, MCLK, FCLK and every KCLK (R28, R45). -/
def clocksUp : Nat := 0x1FFFFFFF

/-- The reset invalidation of the caches is done (R46): the clocks run, the rail status is sensed and stage 0x1 begins. -/
def cacheInvalidationDone (d : Dev) : Dev :=
  if d.stage ≠ 0 ∨ !d.pins.resetN ∨ !d.pins.refclk then d
  else
    let d := d.setReg Reg.GLB_CLK_STATUS (wd ((d.reg Reg.GLB_CLK_STATUS).toNat ||| clocksUp))
    let d := (d.setReg Reg.GLB_PCLK_STATUS 0xFFFFF).setRb Reg.TCA_STATUS 31 false
    (d.setRf Reg.GLB_RUN_STATE 3 0 1).railUp

/-! Supplies (R518, R566). -/

/-- VDD_IO becomes good: VDD_CORE rises on phases 0 and 1, the RING_HOLD pins are driven low, RESET_N and PWRFAIL_N are
held low by the board (R518, R566). -/
def vddIoGood (d : Dev) : Dev :=
  if d.pins.vddIo then d
  else { Dev.reset with
    free := d.free, mgt := d.keptMgt
    pins := { pinsUp with vddCore := false, resetN := false, pwrfailN := false, refclk := d.pins.refclk } }

/-- VDD_CORE becomes good: AOCLK runs (R29, R566). PWR_RAIL_STATUS holds its reset value until the clocks run (R14). -/
def vddCoreGood (d : Dev) : Dev :=
  if !d.pins.vddIo ∨ d.pins.vddCore then d
  else
    { d with pins := { d.pins with vddCore := true } }

/-- VDD_IO is lost (R421, R544): ring-hold toggling stops and the device, its first-fault record included, is lost. -/
def vddIoLoss (d : Dev) : Dev :=
  { Dev.reset with
    free := d.free, hst := { grps := [], posted := d.hst.posted }, prt := { Dev.reset.prt with sent := d.prt.sent }
    mgt := d.keptMgt
    pins := { pinsUp with vddIo := false, vddCore := false, resetN := false, pwrfailN := false, refclk := d.pins.refclk } }

/-! Power failure (R510, R512, R534, R569). -/

/-- PWRFAIL_N asserts (R510, R569): in stages 0x0 and 0x1, and so while RESET_N is low, PWRFAIL is recorded and only the
hardware rows are performed. -/
def pwrfailAssert (now : Nat) (d : Dev) : Dev :=
  if !d.pins.pwrfailN then d
  else
    let d : Dev := { d with pins := { d.pins with pwrfailN := false, pfUp := none } }
    let d := (d.raise Src.pwrfail 0).setRb Reg.PWR_STATUS 31 true
    if d.stage < 2 ∨ !d.pins.resetN then d.atlLine 1 else d.startFix now true

/-- Whether the Fixative's sequence ends now: 2 ms after its start (R510). -/
def Dev.fixEnds (d : Dev) (now : Nat) : Bool := match d.mgt.fix with
  | some f => decide (f.start + 2000000 ≤ now)
  | none => false

/-- Whether a reset follows the end of the Fixative (R512). -/
def Dev.fixResets (d : Dev) (now : Nat) : Bool :=
  d.fixEnds now && decide (d.stage ≠ 4) && (match d.mgt.fix with
    | some f => f.resetAfter
    | none => false)

/-- The Fixative commits its record, or cannot for want of erased pages (R511). -/
def Dev.journalWrite (d : Dev) (now : Nat) : Dev :=
  let j := d.mgt.journal
  let seq := match j.latest with
    | some x => leAt x 512 4 + 1
    | none => 0
  let cause := match d.mgt.fix with
    | some f => if f.power then 1 else 2
    | none => 0
  let j : Journal := if Config.journalReady j.runs then
      { j with recs := j.recs ++ [journalRec seq now cause d.mgt.lastCp (Config.markedCounters now)], runs := j.runs + 1 }
    else { j with runs := j.runs + 1, missed := true }
  { d with mgt := { d.mgt with journal := j } }

/-- The end of the Fixative without a reset: both heartbeats stop (R510); in stage 0x4 every cluster is then gated (R519). -/
def fixativeDone (d : Dev) : Dev :=
  let d : Dev := d.hbStopAll
  let d : Dev := { d with mgt := { d.mgt with fix := none } }
  if d.stage = 4 then (List.range 24).foldl Dev.startGating d else d

/-- 2 ms after PWRFAIL_N falls the Fixative has ended, its record written (R510, R511); a device whose PWRFAIL_N has risen again resets itself
(R512). -/
def fixativeEnd (now : Nat) (d : Dev) : Dev :=
  match d.fixEnds now, d.fixResets now with
  | false, _ => d
  | true, true => (d.journalWrite now).pulse
  | true, false => fixativeDone (d.journalWrite now)

/-- PWRFAIL_N rises (R512, R569): a Fixative that runs completes and a reset follows it. -/
def pwrfailRelease (now : Nat) (d : Dev) : Dev :=
  if d.pins.pwrfailN then d
  else
    let d : Dev := { d with pins := { d.pins with pwrfailN := true, pfUp := some now } }
    match d.mgt.fix with
    | some f => { d with mgt := { d.mgt with fix := some { f with resetAfter := f.power || f.resetAfter } } }
    | none => if d.stage < 2 then d.setRb Reg.PWR_STATUS 31 false else d

/-! Temperature and clocks (R573, R578). -/

/-- A junction reaches 120 °C (R573): heartbeats stop, every lane is held, every GZ_PWM output goes high impedance. -/
def thermtrip (d : Dev) : Dev :=
  let d := { d with pins := { d.pins with thermtripN := false } }
  ((d.hbStopAll.holdLanes true true).setRf Reg.PWR_RAIL_STATUS 27 16 0).setRb Reg.PWR_RAIL_STATUS 31 false

/-- Every sensor reads below 110 °C while RESET_N is low (R573). -/
def thermtripRelease (d : Dev) : Dev :=
  if d.pins.resetN then d else { d with pins := { d.pins with thermtripN := true } }

/-- REFCLK_SYS stops (R578): SCLK stops with it, and so does ring-hold toggling. -/
def refclkSysLoss (d : Dev) : Dev :=
  let d : Dev := { d with pins := { d.pins with refclk := false } }
  (d.setRb Reg.GLB_CLK_STATUS 28 false).hbStopAll

/-- PCIE_PERST_N is released and the link trains (R570): the host interface resets as for a Function Level Reset. -/
def perstRelease (link : PcieLink) (d : Dev) : Dev :=
  let d : Dev := functionLevelReset { d with pins := { d.pins with perstN := true } }
  d.setReg Reg.HST_STATUS (wd (2 ^ 31 + b2n link.bme * 2 ^ 30 + link.speed.val * 2 ^ 24 + 3 * 2 ^ 24 + link.width * 2 ^ 16
    + link.mps.val))

end Sys2Proof.Machine
end

