-- ==== Sys2Proof/Machine/Mgmt.lean ====
section
/-!
DEFINITION. Management: GMP requests (R507, R508), the I3C common commands and in-band interrupts (R506, R509), and the
Atelier's control registers (R501, R502).
-/

namespace Sys2Proof.Machine

/-! GMP (R507). -/

/-- A GMP response: status, length, payload, CRC-8 over them. -/
def gmpAnswer (status : Nat) (bs : List Byte) : List Byte :=
  let h := leBytes 1 status ++ leBytes 1 bs.length ++ bs
  h ++ leBytes 1 (crc8 0 h)

/-- What a request does: its status, its response payload, and the device after it. -/
abbrev GmpBody := Dev → Nat × List Byte × Dev

/-- Whether the I3C target answers: VDD_CORE is good and MGT_I3C_CFG.enable is 1 (R515, R566). -/
def Dev.targetUp (d : Dev) : Bool := d.pins.vddCore && d.rb Reg.MGT_I3C_CFG 7

/-- The device after a response; a request that was executed counts in MGT_GMP_CNT. -/
def Dev.gmpReply (d : Dev) (x : Nat × List Byte) : Dev :=
  { (if x.1 = 0 then d.bump Reg.MGT_GMP_CNT 1 else d) with resp := gmpAnswer x.1 x.2 }

/-- Whether a command byte is one of GMP's (R507). -/
def gmpKnown (code : Nat) : Bool := decide (1 ≤ code ∧ code ≤ 11)

/-- The address that requests reach the target at (R506): its static one, served as I2C, until a dynamic one is assigned. -/
def Dev.busAddr (d : Dev) : Nat :=
  if d.rb Reg.MGT_I3C_STATUS 8 then d.rf Reg.MGT_I3C_STATUS 6 0 else d.rf Reg.MGT_I3C_CFG 6 0

/-- Whether a private write to an address reaches the target (R506). -/
def Dev.answersTo (d : Dev) (a : BitVec 7) : Bool := d.targetUp && decide (a.toNat = d.busAddr)

/-- A request that needs firmware raises line 3 (R502); which ones do is left open (log entry 83). -/
def Dev.gmpLine (d : Dev) (code : Nat) : Dev := if Config.gmpFirmware code then d.atlLine 3 else d

/-- A GMP request (R507): a bad CRC answers 3, an unknown command 1, a bad length 2, a command not available in reset 5; else
its own effect, after line 3 where it needs firmware. A new request discards
an unread response; a request to another address, or to a target that is off, is not answered. -/
def Dev.gmp (d : Dev) (code : Nat) (inReset : Bool) (len : Nat → Bool) (a : BitVec 7) (payload : List Byte) (crc : Byte)
    (body : GmpBody) : Dev :=
  if !d.answersTo a then d
  else if crc.toNat ≠ crc8 0 (leBytes 1 code ++ leBytes 1 payload.length ++ payload) then d.gmpReply (3, [])
  else if !gmpKnown code then d.gmpReply (1, [])
  else if !len payload.length then d.gmpReply (2, [])
  else if !d.pins.resetN && !inReset then d.gmpReply (5, [])
  else
    let r := body (d.gmpLine code)
    r.2.2.gmpReply (r.1, r.2.1)

/-- A request without a payload. -/
def noPayload : Nat → Bool := fun n => decide (n = 0)

/-- IDENTITY (R507). -/
def gmpIdentity (i : Ident) (a : BitVec 7) (p : List Byte) (crc : Byte) (d : Dev) : Dev :=
  d.gmp 1 true noPayload a p crc fun d => (0, padTo 8 i.lot ++ leBytes 1 i.wafer ++ leBytes 1 i.x ++ leBytes 1 i.y
    ++ leBytes 1 i.stage ++ leBytes 2 i.stepping ++ leBytes 1 d.stage ++ zeros 1, d)

/-- The first-fault record in 16 bytes (R544). -/
def Dev.faultRecord (d : Dev) : List Byte :=
  let s := d.reg Reg.FLT_FIRST_STATUS
  leBytes 1 (b2n (bit s 31) + 2 * b2n (bit s 30) + 4 * b2n (bit s 29)) ++ leBytes 1 (fld s 7 0) ++ leBytes 1 (fld s 10 8)
    ++ zeros 1 ++ leBytes 4 (d.reg Reg.FLT_FIRST_DETAIL).toNat ++ leBytes 4 (d.reg Reg.FLT_FIRST_TIME_LO).toNat
    ++ leBytes 4 (d.reg Reg.FLT_FIRST_TIME_HI).toNat

/-- FAULT_READ (R544). -/
def gmpFaultRead (a : BitVec 7) (p : List Byte) (crc : Byte) (d : Dev) : Dev :=
  d.gmp 2 true noPayload a p crc fun d => (0, d.faultRecord, d)

/-- FAULT_CLEAR (R544): valid and overflow clear. -/
def gmpFaultClear (a : BitVec 7) (p : List Byte) (crc : Byte) (d : Dev) : Dev :=
  d.gmp 3 true noPayload a p crc fun d => (0, [], d.setRf Reg.FLT_FIRST_STATUS 31 30 0)

/-- POWER_STATE (R533). -/
def gmpPowerState (now : Nat) (a : BitVec 7) (p : List Byte) (crc : Byte) (d : Dev) : Dev :=
  d.gmp 4 false noPayload a p crc fun d => (0, leBytes 4 (d.reg Reg.PWR_RAIL_STATUS).toNat
    ++ leBytes 4 (Config.devicePower now).toNat ++ leBytes 1 (d.rf Reg.PWR_THERM 7 0), d)

/-- POWER_SET (R533): a value above 1 is out of range. -/
def gmpPowerSet (a : BitVec 7) (p : List Byte) (crc : Byte) (d : Dev) : Dev :=
  d.gmp 5 false (fun n => decide (n = 1)) a p crc fun d =>
    let v := leAt p 0 1
    if 1 < v then (6, [], d) else (0, [], (d.setRb Reg.PWR_CTL 3 (decide (v = 1))).retargetAll)

/-- RING_STATUS (R507). -/
def gmpRingStatus (a : BitVec 7) (p : List Byte) (crc : Byte) (d : Dev) : Dev :=
  d.gmp 6 true noPayload a p crc fun d => (0, wordsBytes [d.reg (Reg.PRT_RING_W1 0), d.reg (Reg.PRT_RING_W1 1),
    d.reg (Reg.STN_HB 0), d.reg (Reg.STN_HB 1)], d)

/-- The Atelier reboots (R508): its cores lose their state, their waits for locks and their locks, group 15 is reset, cores 1 to 3 wait, and core 0 runs the
Primer's firmware stage, which PRIMER_BOOT ends. -/
def Dev.resetAtelier (d : Dev) : Dev :=
  let d := [1536, 1537, 1538, 1539].foldl Dev.dropWait d
  let d := [1536, 1537, 1538, 1539].foldl (fun (d : Dev) t => d.breakHolder (d.holderId t)) d
  let d := [1536, 1537, 1538, 1539].foldl (fun (d : Dev) t => d.setThr t atlReset) d
  let core := fun (k : Nat) => decide (192 ≤ k)
  let d : Dev := { d with
    krv := { d.krv with
      icache := tdrop (fun k => core (k / 512)) d.krv.icache, dcache := tdrop (fun k => core (k / 256)) d.krv.dcache
      wbuf := tdrop core d.krv.wbuf, tlb := [] }
    mgt := { d.mgt with timers := 0, timerHit := 0 } }
  let d := (((d.setReg Reg.ATL_CORE_CTL 0).setReg Reg.ATL_INT_EN 0).setReg Reg.ATL_INT_PEND 0).setReg Reg.ATL_IPI 0
  let d := d.grpReset 15
  if d.stage < 2 then d else { d with mgt := { d.mgt with reboot := true } }

/-- What SUBUNIT_RESET resets, the whole device apart (R507, R508). -/
def subunitBody (u : Nat) : GmpBody := fun d =>
  if u = 0 then (0, [], d.resetAtelier)
  else if u ≤ 32 then (0, [], stnEngStop (u - 1) d)
  else if u = 0x40 then
    (0, [], (List.range 15).foldl Dev.grpReset d)
  else if u = 0xFF then (0, [], d.pulse)
  else (6, [], d)

/-- SUBUNIT_RESET (R507, R508). -/
def gmpSubunitReset (a : BitVec 7) (p : List Byte) (crc : Byte) (d : Dev) : Dev :=
  d.gmp 7 false (fun n => decide (n = 1)) a p crc (subunitBody (leAt p 0 1))

/-- Whether a SUBUNIT_RESET request resets the whole device. -/
def Dev.subunitAll (d : Dev) (a : BitVec 7) (p : List Byte) (crc : Byte) : Bool :=
  d.answersTo a && d.pins.resetN && decide (p.length = 1 ∧ leAt p 0 1 = 0xFF)
    && decide (crc.toNat = crc8 0 (leBytes 1 7 ++ leBytes 1 p.length ++ p))

/-- QUOTE_START (R505, R507): busy while a GMP quote is being made. -/
def gmpQuoteStart (c : Clock) (i : Ident) (a : BitVec 7) (p : List Byte) (crc : Byte) (d : Dev) : Dev :=
  d.gmp 8 false (fun n => decide (16 ≤ n ∧ n ≤ 64)) a p crc fun d =>
    if d.mgt.quotes.any (fun q => q.ring.isNone) then (4, [], d)
    else (0, [], ({ d with mgt := { d.mgt with gmpQuote := none } } : Dev).askQuote c i ⟨none, p, none⟩)

/-- QUOTE_READ (R507): busy while the quote is being made; an offset beyond the quote is out of range. -/
def gmpQuoteRead (a : BitVec 7) (p : List Byte) (crc : Byte) (d : Dev) : Dev :=
  d.gmp 9 false (fun n => decide (n = 2)) a p crc fun d =>
    if d.mgt.quotes.any (fun q => q.ring.isNone) then (4, [], d)
    else match d.mgt.gmpQuote with
      | none => (5, [], d)
      | some q => if 496 ≤ leAt p 0 2 then (6, [], d) else (0, slice q (leAt p 0 2) 32, d)

/-- CERT_READ (R491, R507): 0 beyond the certificate's length. -/
def gmpCertRead (i : Ident) (a : BitVec 7) (p : List Byte) (crc : Byte) (d : Dev) : Dev :=
  d.gmp 10 true (fun n => decide (n = 2)) a p crc fun d => (0, slice i.cert (leAt p 0 2) 32, d)

/-! I3C (R506, R509). -/

/-- A common command: it reaches a target that is up. -/
def Dev.ccc (d : Dev) (f : Dev → Dev) : Dev := if d.targetUp then f d else d

/-- A dynamic address is assigned, unless one is held. -/
def Dev.assignAddr (d : Dev) (a : BitVec 7) : Dev :=
  if d.rb Reg.MGT_I3C_STATUS 8 then d
  else (d.setRf Reg.MGT_I3C_STATUS 6 0 a.toNat).setRb Reg.MGT_I3C_STATUS 8 true

/-- ENTDAA. -/
def i3cEntdaa (a : BitVec 7) (d : Dev) : Dev := d.ccc (·.assignAddr a)
/-- SETDASA, sent to the static address. -/
def i3cSetdasa (static a : BitVec 7) (d : Dev) : Dev :=
  d.ccc fun d => if static.toNat = d.rf Reg.MGT_I3C_CFG 6 0 then d.assignAddr a else d
/-- RSTDAA. -/
def i3cRstdaa (d : Dev) : Dev :=
  d.ccc fun d => (d.setRf Reg.MGT_I3C_STATUS 6 0 0).setRb Reg.MGT_I3C_STATUS 8 false
/-- ENEC. -/
def i3cEnec (d : Dev) : Dev := d.ccc fun d => d.setRb Reg.MGT_I3C_STATUS 7 true
/-- DISEC. -/
def i3cDisec (d : Dev) : Dev := d.ccc fun d => d.setRb Reg.MGT_I3C_STATUS 7 false
/-- GETPID: the 48-bit provisional ID, its most significant byte first. -/
def i3cGetpid (d : Dev) : Dev :=
  d.ccc fun d => { d with resp := beBytes 6 (0x0B35 * 2 ^ 33 + 0x3200 * 2 ^ 16 + d.rf Reg.MGT_I3C_CFG 11 8 * 2 ^ 12) }
/-- GETBCR. -/
def i3cGetbcr (d : Dev) : Dev := d.ccc fun d => { d with resp := [0x06] }
/-- GETDCR. -/
def i3cGetdcr (d : Dev) : Dev := d.ccc fun d => { d with resp := [0x00] }
/-- GETSTATUS: two bytes whose contents the spec does not state, a free value (log entry 2). -/
def i3cGetstatus (d : Dev) : Dev :=
  d.ccc fun d => { d with resp := leBytes 2 (Config.freeWord d.free).toNat, free := d.free + 1 }
/-- SETMWL. -/
def i3cSetmwl (n : BitVec 16) (d : Dev) : Dev := d.ccc fun d => { d with mgt := { d.mgt with mwl := n.toNat } }
/-- SETMRL. -/
def i3cSetmrl (n : BitVec 16) (d : Dev) : Dev := d.ccc fun d => { d with mgt := { d.mgt with mrl := n.toNat } }
/-- GETMWL. -/
def i3cGetmwl (d : Dev) : Dev := d.ccc fun d => { d with resp := beBytes 2 d.mgt.mwl }
/-- GETMRL. -/
def i3cGetmrl (d : Dev) : Dev := d.ccc fun d => { d with resp := beBytes 2 d.mgt.mrl }
/-- RSTACT. -/
def i3cRstact (a : BitVec 8) (d : Dev) : Dev := d.ccc fun d => { d with mgt := { d.mgt with rstAct := a.toNat } }

/-- The controller accepts the in-band interrupt on offer (R509): its bytes; the latest fault meanwhile is offered next. -/
def ibiAccepted (d : Dev) : Dev :=
  match d.mgt.ibi with
  | some (sev, src) =>
    if d.rb Reg.MGT_I3C_STATUS 7 then
      { d with resp := [0x40] ++ leBytes 1 sev ++ leBytes 1 src
               mgt := { d.mgt with ibi := d.mgt.ibiNext, ibiNext := none } }
    else d
  | none => d

/-! The Atelier (R501, R502, R515). -/

/-- A write of an ATL register: the host's is refused (R515). -/
def Dev.atlWrite (d : Dev) (r : Req) (off : Nat) (f : Dev → Dev) : Dev := if r = .host then d.refuse r off else f d

/-- A write of ATL_CORE_CTL (R501): a core whose start bit becomes 1 starts at its start address. -/
def atlCoreStart (r : Req) (mask : BitVec 3) (d : Dev) : Dev :=
  d.atlWrite r Reg.ATL_CORE_CTL fun d =>
    [0, 1, 2].foldl (fun (d : Dev) k =>
      if mask.toNat.testBit k && !d.rb Reg.ATL_CORE_CTL k then
        (d.setRb Reg.ATL_CORE_CTL k true).startAtl (k + 1) (d.reg (Reg.ATL_START k))
      else d) d

/-- Whether a write of ATL_RUN.go has what it needs: a profile in force, DRAM ready, a usable channel (R501). -/
def Dev.mayRun (d : Dev) : Bool :=
  d.prf.inForce.isSome && d.rb Reg.DRC_STATUS 0 && decide (d.rf Reg.DRC_STATUS 31 24 ≠ 0)

/-- A write of ATL_RUN.go (R501): stage 0x2 becomes 0x3, or the write is ignored and CFG_CONFLICT recorded. -/
def atlRunGo (r : Req) (d : Dev) : Dev :=
  d.atlWrite r Reg.ATL_RUN fun d =>
    if d.stage ≠ 2 then d
    else if d.mayRun then d.setRf Reg.GLB_RUN_STATE 3 0 3
    else d.conflict r Reg.ATL_RUN

/-- A write of ATL_IPI raises line 5 of the named cores (R502). -/
def atlIpi (r : Req) (mask : BitVec 4) (d : Dev) : Dev :=
  d.atlWrite r Reg.ATL_IPI fun d => d.setReg Reg.ATL_IPI (wd (d.rf Reg.ATL_IPI 3 0 ||| mask.toNat))

/-- The nanosecond counter has reached ATL_TIMER[core] (R502): line 4 of the core, once for each compare written. -/
def atelierTimer (count k : Nat) (d : Dev) : Dev :=
  let at' := (d.reg (Reg.ATL_TIMER k 0)).toNat + 2 ^ 32 * (d.reg (Reg.ATL_TIMER k 1)).toNat
  if at' ≤ count ∧ !d.mgt.timerHit.testBit k then
    { d with mgt := { d.mgt with timers := d.mgt.timers ||| 2 ^ k, timerHit := d.mgt.timerHit ||| 2 ^ k } }
  else d

end Sys2Proof.Machine
end

