-- ==== Sys2Proof/Machine/Debug.lean ====
section
/-!
DEFINITION. Debug (R551 to R556): halting, stepping and killing a target, its context, lane tests, JTAG.
-/

namespace Sys2Proof.Machine

/-! Targets (R552). -/

/-- A debug target: a cluster thread, an Atelier core's thread, or a Stencil slot. -/
inductive Tgt where
  | cluster (t : Nat)
  | atelier (t : Nat)
  | slot (e s : Nat)
  deriving DecidableEq, Repr

/-- The target that DBG_SEL names, if there is one. -/
def Dev.tgt (d : Dev) : Option Tgt :=
  let w := d.reg Reg.DBG_SEL
  let unit := fld w 12 8
  let core := fld w 5 3
  let th := fld w 2 0
  match fld w 31 30 with
  | 0 => if unit < 24 then some (.cluster (64 * unit + 8 * core + th)) else none
  | 1 => if core < 4 then some (.atelier (1536 + core)) else none
  | 2 => if th < 4 then some (.slot unit th) else none
  | _ => none

/-- Debug's hold on a target. -/
def Dev.tgtDbg (d : Dev) : Tgt → DbgHalt
  | .cluster t => (d.thr t).dbg
  | .atelier t => (d.thr t).dbg
  | .slot e s => (d.slot e s).dbg

/-- Whether a target runs something that can be halted. -/
def Dev.tgtRuns (d : Dev) : Tgt → Bool
  | .cluster t => decide ((d.thr t).run ≠ .stopped) || (d.thr t).task.isSome
  | .atelier t => decide ((d.thr t).run ≠ .stopped)
  | .slot e s => d.engineRuns e && d.rb (Reg.STN_ENG_W3 e) (20 + s)

/-- Whether a target lies in a cluster that is gated or out of service (R558). -/
def Dev.tgtOff (d : Dev) : Tgt → Bool
  | .cluster t => !d.cluRuns (clusterOf t)
  | _ => false

/-- DBG_STATUS.result of a command (R558). -/
def Dev.dbgDone (d : Dev) (result : Nat) : Dev := d.setReg Reg.DBG_STATUS (wd result)

/-- DBG_STATUS as it reads: busy, halted and mode of the target, and the last result (R558). -/
def Dev.dbgStatus (d : Dev) : Word :=
  let r := (d.reg Reg.DBG_STATUS).toNat
  match d.tgt with
  | none => wd r
  | some x => match d.tgtDbg x with
    | .none => wd r
    | .pending a => wd (2 ^ 31 + b2n a * 2 ^ 29 + r)
    | .halted a => wd (2 ^ 30 + b2n a * 2 ^ 29 + r)
    | .stepping a => wd (2 ^ 31 + b2n a * 2 ^ 29 + r)

/-- A DBG_CMD on the target of DBG_SEL: result 1 where there is none, or its cluster is gated or out of service. -/
def Dev.dbgCmd (d : Dev) (f : Tgt → Dev → Dev) : Dev :=
  match d.tgt with
  | none => d.dbgDone 1
  | some x => if d.tgtOff x then d.dbgDone 1 else f x d

/-! Commands (R552). -/

/-- The transaction of a halted thread leaves or enters hold mode (R178) at a time. -/
def Dev.holdTxn (d : Dev) (now t : Nat) (on : Bool) : Dev :=
  match txnKey t (d.thr t) with
  | some k => d.updTxn k (fun x => { x with held := on, heldAt := now })
  | none => d

/-- Debug aborts a thread's transaction with cause 0xB (R178); a granted irrevocable run gives the grant up and waits for
it again. -/
def Dev.debugAbort (d : Dev) (t : Nat) : Dev :=
  match txnKey t (d.thr t) with
  | none => d
  | some k =>
    let d : Dev := if d.vrn.grant = some k then { d with vrn := { d.vrn with grant := none } } else d
    (d.updTxn k (fun x => { x with irrev := if x.irrev = .granted then .waits else x.irrev, held := false })).abortTxn k 0xB

/-- A halt is asked of a target (R552): a Stencil slot is not ready from then on; a thread halts at HALT_COMPLETE; one
already halted in hold mode can still be put in abort mode. -/
def haltCmd (abort : Bool) (d : Dev) : Dev :=
  d.dbgCmd fun x d =>
    if !d.tgtRuns x && decide (d.tgtDbg x = .none) then d.dbgDone 2
    else match x with
      | .slot e s => (d.updSlot e s (fun y => { y with dbg := .halted false })).dbgDone 0
      | .atelier t => (if (d.thr t).dbg = .none then d.askHalt t false else d).dbgDone 0
      | .cluster t =>
        match (d.thr t).dbg with
        | .halted false => (if abort then (d.debugAbort t).updThr t (fun th => { th with dbg := .halted true }) else d).dbgDone 0
        | .halted true => d.dbgDone 0
        | .pending a => (d.askHalt t (a || abort)).dbgDone 0
        | .none | .stepping _ => (d.askHalt t abort).dbgDone 0

/-- A Stencil slot leaves its halt (R552): what its instruction waits for may have come meanwhile. -/
def Dev.slotGoes (d : Dev) (sec ns e s : Nat) (to_ : DbgHalt) : Dev :=
  let c := d.slotChars e s
  d.updSlot e s (fun y => { y with dbg := to_ }.goOn c.1 c.2 sec ns)

/-- Resume (R552): the target continues at its pc; refused where it is not halted. -/
def resumeCmd (sec ns : Nat) (d : Dev) : Dev :=
  d.dbgCmd fun x d =>
    match d.tgtDbg x with
    | .halted _ => match x with
      | .slot e s => (d.slotGoes sec ns e s .none).dbgDone 0
      | .atelier t => (d.updThr t (fun th => { th with dbg := .none })).dbgDone 0
      | .cluster t => ((d.holdTxn 0 t false).updThr t (fun th => { th with dbg := .none })).dbgDone 0
    | _ => d.dbgDone 1

/-- Step (R552): one word, or a branch with its delay slot, issues, and the target halts again in the same mode. -/
def stepCmd (sec ns : Nat) (d : Dev) : Dev :=
  d.dbgCmd fun x d =>
    match d.tgtDbg x with
    | .halted a =>
      if !d.tgtRuns x then d.dbgDone 2
      else match x with
        | .slot e s => (d.slotGoes sec ns e s (.stepping a)).dbgDone 0
        | .atelier t => (d.updThr t (fun th => { th with dbg := .stepping a })).dbgDone 0
        | .cluster t => ((d.holdTxn 0 t false).updThr t (fun th => { th with dbg := .stepping a })).dbgDone 0
    | _ => d.dbgDone 1

/-- Kill (R552, R237, R367): a cluster thread's task ends; refused for an Atelier core or a Stencil slot. -/
def killCmd (d : Dev) : Dev :=
  d.dbgCmd fun x d =>
    match x with
    | .cluster t =>
      if !d.tgtRuns x then d.dbgDone 2
      else if (d.thr t).hasTxn then (d.debugAbort t).dbgDone 0
      else (d.killTask t).dbgDone 0
    | _ => d.dbgDone 1

/-- A DBG_CMD write by its code; other codes are refused. -/
def dbgCmdWrite (sec ns cmd : Nat) (d : Dev) : Dev :=
  match cmd with
  | 1 => haltCmd false d
  | 2 => haltCmd true d
  | 3 => resumeCmd sec ns d
  | 4 => stepCmd sec ns d
  | 5 => killCmd d
  | _ => d.dbgDone 1

/-- A halt completes (R108, R178, R552, R553), not while lkacq stalls. Abort mode, which a task with a transaction has
(R178), squashes what the thread has issued (a load, a failing check, an unconfirmed brush function), and the transaction
aborts. Otherwise the halt comes at a word boundary, once nothing the thread issued is outstanding; hold keeps the
transaction in flight. -/
def haltComplete (now t : Nat) (d : Dev) : Dev :=
  let th := d.thr t
  let squash := fun (a : Bool) => a && (txnKey t th).isSome
  let stalls := match th.run with
    | .lockWait _ => true
    | _ => false
  match th.dbg with
  | .pending a =>
    if stalls || (decide (th.slot ≠ .none) && !(squash a && !th.clear)) || !(squash a || th.clear) then d
    else if squash a then (d.setThr t { th with dbg := .halted a, fly := [], load := none }).debugAbort t
    else (d.setThr t { th with dbg := .halted a }).holdTxn now t true
  | _ => d

/-! The context of a halted target (R554). -/

/-- The register of a Stencil slot by its code: 0 to 15, 32 pc, 33 flags. -/
def Slot2.sel (x : Slot2) (s : Nat) : Word :=
  if s < 16 then wd (x.r s).toNat else if s = 32 then wd x.pc.toNat else if s = 33 then wd x.flags.toNat else 0

/-- A Stencil slot with the register of a code written. -/
def Slot2.setSel (x : Slot2) (s : Nat) (v : Word) : Slot2 :=
  if s < 16 then x.setR s (BitVec.ofNat 16 v.toNat)
  else if s = 32 then { x with pc := BitVec.ofNat 12 v.toNat }
  else if s = 33 then { x with flags := BitVec.ofNat 4 v.toNat }
  else x

/-- Whether a target is halted. -/
def Dev.tgtHalted (d : Dev) (x : Tgt) : Bool := match d.tgtDbg x with
  | .halted _ => true
  | _ => false

/-- DBG_CTX_DATA as it reads: the target's register while it is halted, else 0. -/
def Dev.ctxData (d : Dev) : Word :=
  let s := d.rf Reg.DBG_CTX_IDX 5 0
  match d.tgt with
  | none => 0
  | some x =>
    if !d.tgtHalted x then 0
    else match x with
      | .cluster t => ((d.thr t).sel s).getD 0
      | .atelier t => ((d.thr t).sel s).getD 0
      | .slot e k => (d.slot e k).sel s

/-- DBG_CTX_DATA is written (R554): result 1 where the target is not halted. -/
def debugContextWrite (v : Word) (d : Dev) : Dev :=
  let s := d.rf Reg.DBG_CTX_IDX 5 0
  d.dbgCmd fun x d =>
    if !d.tgtHalted x then d.dbgDone 1
    else match x with
      | .cluster t => (d.updThr t (fun th => th.setSel s v)).dbgDone 0
      | .atelier t => (d.updThr t (fun th => th.setSel s v)).dbgDone 0
      | .slot e k => (d.updSlot e k (fun y => y.setSel s v)).dbgDone 0

/-! Lane tests (R551). -/

/-- The fields of DBG_LANE_TEST that a write stores. -/
def laneTestWord (v : Word) : Word := v &&& 0x80000F7F#32

/-- The port of a lane goes down as a held port. -/
def Dev.laneTestOn (d : Dev) (now l : Nat) : Dev :=
  match d.lanePort l with
  | some p => (d.setPrtState p 5).linkEvent now p 5 2
  | none => d

/-- The bit errors counted on a lane since its test was enabled; the count saturates (R551, log entry 26). -/
def Dev.laneErrs (d : Dev) (now l : Nat) : Nat :=
  (List.range (now / 1000 - d.dbg.testAt / 1000)).foldl
    (fun n i => min 0xFFFFFFFF (n + Config.laneErrStep l (d.dbg.testAt / 1000 + i))) 0

/-- A lane leaves its test: its errors stay, and its port runs its declared bring-up once, unless it runs already. -/
def Dev.laneTestOff (d : Dev) (now l : Nat) : Dev :=
  match d.lanePort l with
  | some p => if d.prtState p ∈ [2, 3, 4] then d else (d.setPrtState p (d.prtRest p)).bringUp now p
  | none => d

/-- DBG_LANE_TEST is written: the lane under test before it, if any, leaves the test; the one named enters it. -/
def laneTestWrite (now : Nat) (v : Word) (d : Dev) : Dev :=
  let was := d.reg Reg.DBG_LANE_TEST
  let same := bit was 31 && bit v 31 && decide (fld was 6 0 = fld v 6 0)
  let d := if bit was 31 && !same then d.setReg Reg.DBG_LANE_ERR (wd (d.laneErrs now (fld was 6 0))) else d
  let d := d.setReg Reg.DBG_LANE_TEST (laneTestWord v)
  if same then d
  else
    let d := if bit was 31 then d.laneTestOff now (fld was 6 0) else d
    if bit v 31 && decide (fld v 6 0 < 80) then
      { d with dbg := { d.dbg with testAt := now } }.laneTestOn now (fld v 6 0)
    else d

/-- LANE_TEST_ENABLE: a lane and a pattern. -/
def laneTestEnable (now lane pattern : Nat) (d : Dev) : Dev :=
  laneTestWrite now (wd (2 ^ 31 + pattern % 16 * 2 ^ 8 + lane % 128)) d

/-- LANE_TEST_CLEAR. -/
def laneTestClear (now : Nat) (d : Dev) : Dev :=
  laneTestWrite now (setBit (d.reg Reg.DBG_LANE_TEST) 31 false) d

/-- DBG_LANE_ERR as it reads: the bit errors since enable, also after the test (log entry 26). -/
def Dev.laneErr (d : Dev) (now : Nat) : Word :=
  if d.rb Reg.DBG_LANE_TEST 31 then wd (d.laneErrs now (d.rf Reg.DBG_LANE_TEST 6 0)) else d.reg Reg.DBG_LANE_ERR

/-! JTAG (R556). -/

/-- The level of THERMTRIP_N (R573): EXTEST, CLAMP and HIGHZ take the pin over (R556). -/
def Dev.thermtripPin (d : Dev) : Option Bool := match d.tapPin 3 with
  | .driven level => some level
  | .highZ => none
  | .free => some d.pins.thermtripN

/-- A TAP instruction is loaded; while EXTEST, CLAMP or HIGHZ is, the RING_HOLD pins do not toggle (R420, R556). -/
def Dev.tapLoad (d : Dev) (x : Tap) : Dev :=
  let d : Dev := { d with dbg := { d.dbg with tap := x } }
  if d.tapFree then d else d.hbStopAll

/-- BYPASS. -/
def jtagBypass (d : Dev) : Dev := d.tapLoad .bypass
/-- IDCODE: the manufacturer code is the one assigned to Zwilia (log entry 27). -/
def jtagIdcode (d : Dev) : Dev :=
  { d.tapLoad .idcode with resp := leBytes 4 (2 ^ 28 + 0x3200 * 2 ^ 12 + Config.zwiliaCode % 2 ^ 11 * 2 + 1) }
/-- The level of the pin of a boundary cell, where the model has it: the lanes carry the line's (log entry 129). -/
def Dev.pinLevel (d : Dev) (cell : Nat) : Option Bool :=
  match cell with
  | 0 => d.ringHold 0
  | 1 => d.ringHold 1
  | 2 => some (!d.faultLow)
  | 3 => d.thermtripPin
  | 4 => d.ppsPin
  | 5 => some d.pins.resetN
  | 6 => some d.pins.pwrfailN
  | 7 => some d.pins.perstN
  | 8 => some (d.pins.bootSel.testBit 0)
  | 9 => some (d.pins.bootSel.testBit 1)
  | _ => none

/-- The pins captured into the boundary cells (R556); a pin whose level the model has not gives a free value. -/
def Dev.captured (d : Dev) : Nat :=
  (List.range 122).foldl (fun n i =>
    n + b2n ((d.pinLevel i).getD ((Config.freeWord (d.free + i / 32)).getLsbD (i % 32))) * 2 ^ i) 0

/-- SAMPLE and EXTEST: the pins are captured and shifted out as 16 bytes, and the boundary register takes what is shifted in
(R556). -/
def Dev.boundaryScan (d : Dev) (x : Tap) (v : Boundary) : Dev :=
  let d := d.tapLoad x
  { d with resp := leBytes 16 d.captured, free := d.free + 4, dbg := { d.dbg with boundary := v } }

/-- SAMPLE/PRELOAD: the pins are sampled and the boundary register preloaded. -/
def jtagSamplePreload (v : Boundary) (d : Dev) : Dev := d.boundaryScan .sample v
/-- EXTEST. -/
def jtagExtest (v : Boundary) (d : Dev) : Dev := d.boundaryScan .extest v
/-- CLAMP. -/
def jtagClamp (d : Dev) : Dev := d.tapLoad .clamp
/-- HIGHZ. -/
def jtagHighz (d : Dev) : Dev := d.tapLoad .highz
/-- EXTEST_PULSE. -/
def jtagExtestPulse (d : Dev) : Dev := d.tapLoad .extestPulse
/-- EXTEST_TRAIN. -/
def jtagExtestTrain (d : Dev) : Dev := d.tapLoad .extestTrain

end Sys2Proof.Machine
end

