-- ==== Sys2Proof/Machine/RegView.lean ====
section
/-!
DEFINITION. The registers whose value the device computes when they are read: status views of the blocks, and the fused
identity. Every other register reads as the value it holds.
-/

namespace Sys2Proof.Machine

/-! Identity (R514). -/

/-- Four bytes of a list as a register word. -/
def wordAt (bs : List Byte) (i : Nat) : Word := wd (leAt bs (4 * i) 4)

/-- The IDN registers (R514). -/
def Ident.view (i : Ident) (off : Nat) : Word :=
  if off = Reg.IDN_LOT_LO then wordAt i.lot 0
  else if off = Reg.IDN_LOT_HI then wordAt i.lot 1
  else if off = Reg.IDN_DIE then wd (i.wafer % 256 * 2 ^ 24 + i.x % 256 * 2 ^ 16 + i.y % 256 * 2 ^ 8 + i.stage % 16)
  else if off = Reg.IDN_STEP then wd (i.stepping % 2 ^ 16)
  else if off = Reg.IDN_KEYS then wd (i.svnMin % 128 * 2 ^ 8 + i.revoked % 16 * 2 ^ 4 + i.present % 16)
  else if off = Reg.IDN_CERT_LEN then wd (i.cert.length % 2 ^ 12)
  else if Reg.IDN_CERT 0 ≤ off then wordAt i.cert ((off - Reg.IDN_CERT 0) / 4)
  else wordAt (i.meas.getD ((off - Reg.IDN_MEAS 0 0) / 64) []) ((off - Reg.IDN_MEAS 0 0) % 64 / 4)

/-! Varnish (R188). -/

/-- How many table entries satisfy a condition. -/
def tcount {α : Type} (p : Nat → α → Bool) (m : Tab α) : Nat := (tkeys p m).length

/-- Whether a transaction slot is not free. -/
def Txn.used (x : Txn) : Bool := decide (x.phase ≠ .free)

/-- VRN_STATUS. -/
def Dev.vrnStatus (d : Dev) : Word :=
  wd (d.vrn.cbuf.length % 2 ^ 11 * 2 ^ 19 + b2n d.vrn.grant.isSome * 2 ^ 18 + d.vrn.cps.length % 32 * 2 ^ 13
    + tcount (fun _ x => x.used) d.vrn.txns % 2 ^ 13)

/-- VRN_IRREV_STATUS: the grant holder. -/
def Dev.irrevStatus (d : Dev) : Word := match d.vrn.grant with
  | some k => wd (2 ^ 31 + k / 256 % 32 * 2 ^ 24 + k % 256 * 2 ^ 12 + (d.txn k).domain % 2 ^ 12)
  | none => 0

/-- The slot of the head of a domain, where it has one. -/
def Dev.headTxn (d : Dev) (dn : Nat) : Option Nat :=
  (tkeys (fun _ x => x.used && decide (x.domain = dn ∧ x.ticket = (d.dom dn).head)) d.vrn.txns).head?

/-- VRN_DOMAIN_STATUS. -/
def Dev.domainStatus (d : Dev) (dn : Nat) : Word :=
  let head : Nat := match d.headTxn dn with
    | some k => b2n (d.txn k).held * 2 ^ 15 + b2n (decide ((d.txn k).irrev ≠ Irrev.spec)) * 2 ^ 14
    | none => 0
  wd (head + tcount (fun _ (x : Txn) => x.used && decide (x.domain = dn)) d.vrn.txns % 2 ^ 13)

/-- VRN_CP_STATUS. -/
def Dev.cpStatus (d : Dev) : Word :=
  wd (b2n (d.vrn.cps.any (fun c => decide (c.stage = .applied))) * 2 ^ 8 + d.vrn.cps.length % 32)

/-! The lookup complex (R286, R287). -/

/-- Whether maintenance work waits (R243, R286): a learn in progress, a flush, or a table's initialisation (DEDUCED, log
entry 120). -/
def Dev.maintBusy (d : Dev) : Bool :=
  !d.fwd.learning.isEmpty || !d.fwd.flushes.isEmpty || (List.range 256).any (fun id => d.tInit id)

/-- The rules that staged inserts reserve in some sets and no apply has installed yet (R186, R283). -/
def Dev.rulesReserved (d : Dev) (p : Nat → Bool) : Nat :=
  (d.vrn.cps.filter (fun c => decide (c.stage = .positioned))).foldl (fun n c => n + c.ops.countP (fun o => match o with
    | .table 3 id _ _ _ _ => p id && decide (d.tType id = 6)
    | _ => false)) 0

/-- CLS_STATUS. -/
def Dev.clsStatus (d : Dev) : Word :=
  wd (b2n d.clsPaused * 2 ^ 16
    + tcount (fun _ x => decide (x.1 ≠ 0)) d.fwd.tuples % 2 ^ 11)

/-- CLS_SET of a rule set. -/
def Dev.clsSet (d : Dev) (id : Nat) : Word :=
  let rules := (List.range 64).foldl (fun n k => n + (d.tuple id k).1) 0
  wd ((rules - d.rulesReserved (fun t => decide (t = id))) % 2 ^ 19 * 2 ^ 8 + tcount (fun k x => decide (k / 64 = id) && decide (x.1 ≠ 0)) d.fwd.tuples % 2 ^ 7)

/-! Palette (R318). -/

/-- The indices of a pool up to its count that are held by no one, parked nowhere and not quarantined. -/
def Dev.poolFree (d : Dev) (p : Nat) : Nat :=
  (List.range (d.poolCount p)).foldl
    (fun n i => let h := mkHandle p (i + 1)
      if decide (d.charge h = .free) && d.soundBuf h then n + 1 else n) 0

/-- The held indices of a pool above its count (R316). -/
def Dev.poolRetiring (d : Dev) (p : Nat) : Nat :=
  tcount (fun h _ => decide (hPool (wd h) = p ∧ d.poolCount p < hIdx (wd h))) d.pal.charge

/-- The packet-memory cells of the buffers of a pool that are not free. -/
def Dev.poolCells (d : Dev) (p : Nat) : Nat :=
  if d.poolValid p && !d.poolDram p then
    (d.poolCount p - d.poolFree p + d.poolRetiring p) * 2 ^ (d.poolSize p - 8)
  else 0

/-- PAL_STATUS; cells_free holds its reset value 0 while the Palette is not enabled. -/
def Dev.palStatus (d : Dev) : Word :=
  let used := (List.range 16).foldl (fun n p => n + d.poolCells p) 0
  wd (b2n (decide (d.pal.irrevWait ≠ [])) * 2 ^ 19 + (if d.rb Reg.PAL_CTL 0 then 393216 - used else 0) % 2 ^ 19)

/-- Reserved buffers of an owner in a pool that are in use (R306, R557). -/
def Dev.resUsed (d : Dev) (o p : Nat) : Nat := (d.used o p .reserve + d.used o p .repl) % 2 ^ 28

/-! Locks (R371), threads (R153), messages (R239). -/

/-- LKU_STATUS. -/
def Dev.lkuStatus (d : Dev) : Word :=
  let waiting := d.lku.locks.foldl (fun n e => n + e.2.waiters.length) 0 + d.lku.entryWait.length
  wd (waiting % 2 ^ 11 * 2 ^ 16 + tcount (fun _ l => l.holder.isSome || l.broken) d.lku.locks % 2 ^ 14)

/-- CLU_MS_STATUS of a cluster. -/
def Dev.msStatus (d : Dev) (c : Nat) : Word :=
  let recs (p : Rec → Bool) : Nat := tcount (fun k x => decide (k / 1024 = c) && x.any p) d.esl.recs
  wd (tcount (fun k b => decide (k / 64 = c) && b) d.esl.saves % 128 * 2 ^ 22
    + recs (fun r => r.ready.isNone) % 2 ^ 11 * 2 ^ 11 + recs (fun r => r.ready.isSome) % 2 ^ 11)

/-- The state code of a thread in CLU_THREAD_STATE. -/
def Thread.code (th : Thread) : Nat := match th.dbg with
  | .halted _ => 6
  | _ =>
    if th.saving.isSome then 5
    else match th.run with
      | .stopped => 0
      | .starting => 1
      | .running => 2
      | .waiting _ _ _ => 3
      | .lockWait _ => 4

/-- CLU_THREAD_STATE of a thread. -/
def Dev.threadState (d : Dev) (t : Nat) : Word :=
  let th := d.thr t
  let task := match th.task with
    | some k =>
      b2n (k.hasTxn && decide ((d.txn (256 * clusterOf t + k.txn)).irrev ≠ .spec)) * 2 ^ 18 + b2n k.hasTxn * 2 ^ 16
        + (if k.hasTxn then k.txn % 256 else 0) * 2 ^ 8 + d.effPrio (clusterOf t) k.hasTxn k.txn k.prio % 8 * 2 ^ 4
    | none => 0
  wd (b2n (d.masterManaged t) * 2 ^ 19 + b2n th.intrap * 2 ^ 17 + task + th.code)

/-- CLU_MSG_STATUS of a channel. -/
def Dev.msgStatus (d : Dev) (ch : Nat) : Word :=
  let x := d.chan ch
  wd (min x.overflow 0xFFFF * 2 ^ 16 + x.lens.length % 2 ^ 9)

/-! Energy and power (R535, R536, R538). -/

/-- An energy count in nJ after a number of integration steps of 1 µs (R535): it accumulates from 0 at reset release; what a
step adds is measured, a free value (log entry 25). -/
def energyCount (index : Nat) : (steps : Nat) → Nat
  | 0 => 0
  | k + 1 => (energyCount index k + Config.energyStep index k) % 2 ^ 64

/-- One word of a 64-bit energy count (R535, R538). -/
def energyWord (now index : Nat) (hi : Bool) : Word :=
  let e := energyCount index (now / 1000)
  wd (if hi then e / 2 ^ 32 else e)

/-- The computed registers of the PWR block; none for a register that reads as it holds. -/
def Dev.pwrView (d : Dev) (now off : Nat) : Option Word :=
  if off = Reg.PWR_STATUS then some (wd (d.rf off 31 30 * 2 ^ 30 + d.specBits % 2 ^ 24))
  else if off = Reg.PWR_E_CORE_LO then some (energyWord now 9 false)
  else if off = Reg.PWR_E_CORE_HI then some (energyWord now 9 true)
  else if Reg.PWR_E_BLK 0 0 ≤ off then
    some (energyWord now ((off - Reg.PWR_E_BLK 0 0) / 8) (decide (off % 8 = 4)))
  else if Reg.PWR_CL_W0 0 ≤ off then
    let c := (off - Reg.PWR_CL_W0 0) / 32
    match (off - Reg.PWR_CL_W0 0) % 32 / 4 with
    | 1 => some (d.clView c)
    | 4 => some (energyWord now (16 + c) false)
    | 5 => some (energyWord now (16 + c) true)
    | _ => none
  else none

/-! Debug and the Atelier. -/

/-- Where a DBG_BP or DBG_WP register of the selected core is held (R555); none where DBG_SEL selects no core. -/
def Dev.bpReg (d : Dev) (off : Nat) : Option Nat :=
  let w := d.reg Reg.DBG_SEL
  match fld w 31 30 with
  | 0 => if fld w 12 8 < 24 then some (dbgKey (8 * fld w 12 8 + fld w 5 3) off) else none
  | 1 => if fld w 5 3 < 4 then some (dbgKey (192 + fld w 5 3) off) else none
  | _ => none

/-- Whether an offset is one of DBG_BP and DBG_WP. -/
def isBpReg (off : Nat) : Bool := decide (Reg.DBG_BP_ADDR 0 ≤ off ∧ off < Reg.DBG_WP_ADDR 2)

/-- The computed registers of the DBG block. -/
def Dev.dbgView (d : Dev) (now off : Nat) : Option Word :=
  if off = Reg.DBG_STATUS then some d.dbgStatus
  else if off = Reg.DBG_CTX_DATA then some d.ctxData
  else if off = Reg.DBG_LANE_ERR then some (d.laneErr now)
  else if off = Reg.DBG_PAL_RES then
    some (wd (d.resUsed (d.rf Reg.DBG_PAL_SEL 9 4) (d.rf Reg.DBG_PAL_SEL 3 0)))
  else if isBpReg off then
    some (match d.bpReg off with
      | some k => d.reg k
      | none => 0)
  else none

/-- ATL_INT_PEND as a requester reads it (R502): lines 0 to 3 and 6 are shared, lines 4 and 5 are the reading core's
own; another requester reads them for any core. -/
def Dev.intPend (d : Dev) (r : Req) : Word :=
  let own (n : Nat) : Bool := match r with
    | .atl k => n.testBit k
    | _ => decide (n % 16 ≠ 0)
  wd ((d.reg Reg.ATL_INT_PEND).toNat % 256 / 64 % 2 * 64 + (d.reg Reg.ATL_INT_PEND).toNat % 16
    + b2n (own (d.rf Reg.ATL_IPI 3 0)) * 32 + b2n (own d.mgt.timers) * 16)

/-- The computed registers of the VRN block. -/
def Dev.vrnView (d : Dev) (off : Nat) : Option Word :=
  let dn := d.rf Reg.VRN_DOMAIN_SEL 11 0
  if off = Reg.VRN_STATUS then some d.vrnStatus
  else if off = Reg.VRN_IRREV_STATUS then some d.irrevStatus
  else if off = Reg.VRN_DOMAIN_HEAD then some (wd (d.dom dn).head)
  else if off = Reg.VRN_DOMAIN_NEXT then some (wd (d.dom dn).next)
  else if off = Reg.VRN_DOMAIN_STATUS then some (d.domainStatus dn)
  else if off = Reg.VRN_CP_STATUS then some d.cpStatus
  else none

/-- The computed registers of the PAL block. -/
def Dev.palView (d : Dev) (off : Nat) : Option Word :=
  if off = Reg.PAL_STATUS then some d.palStatus
  else if Reg.PAL_POOL_STAT_W0 0 ≤ off ∧ off < Reg.PAL_POOL_STAT_W0 16 then
    let p := (off - Reg.PAL_POOL_STAT_W0 0) / 8
    some (wd ((if off % 8 = 0 then d.poolFree p else d.poolRetiring p) % 2 ^ 28))
  else if Reg.PAL_OWN_W0 0 0 ≤ off ∧ off % 16 = 12 then
    let o := (off - Reg.PAL_OWN_W0 0 0) / 256
    let p := (off - Reg.PAL_OWN_W0 0 0) % 256 / 16
    some (wd (d.resUsed o p / 2 ^ 24 * 2 ^ 28 + d.used o p .shared % 2 ^ 28))
  else none

/-- The computed registers of a cluster's block. -/
def Dev.cluView (d : Dev) (off : Nat) : Option Word :=
  let c := (off - Reg.CLU_EASEL_CTL 0) / 0x100000
  let o := off % 0x100000
  if o = 0x01C then some (d.msStatus c)
  else if 0x100 ≤ o ∧ o < 0x200 then some (d.threadState (64 * c + (o - 0x100) / 4))
  else if 0xA00 ≤ o ∧ o < 0xB00 then some (d.msgStatus (64 * c + (o - 0xA00) / 4))
  else none

/-- The registers whose value is computed when they are read; none for a register that reads as it holds. -/
def Dev.view (d : Dev) (r : Req) (now : Nat) (idn : Ident) (off : Nat) : Option Word :=
  match off / 0x100000 with
  | 1 => some (idn.view off)
  | 3 => d.pwrView now off
  | 9 => if off = Reg.PRS_STATUS then some (wd (b2n d.switchPending * 2 ^ 8 + d.slicesIn)) else none
  | 10 =>
    if off = Reg.CLS_STATUS then some d.clsStatus
    else if off = Reg.CLS_RULES then some (wd ((d.ruleCount - d.rulesReserved (fun _ => true)) % 2 ^ 19))
    else if Reg.CLS_SET 0 ≤ off then some (d.clsSet ((off - Reg.CLS_SET 0) / 4))
    else none
  | 11 =>
    if off = Reg.FWD_STATUS then some (setBit (setFld (d.reg off) 12 8 d.fwd.learning.length) 16 d.maintBusy)
    else if Reg.FWD_TBL_STAT_W0 0 ≤ off ∧ off % 32 = 0 then
      some (setBit (d.reg off) 30 (tget none d.fwd.flushes ((off - Reg.FWD_TBL_STAT_W0 0) / 32)).isSome)
    else none
  | 12 => d.vrnView off
  | 13 => d.palView off
  | 16 =>
    let c := (off - Reg.DRC_CHAN_W0 0) / 16
    if off = Reg.DRC_MIRROR_DELTA_HI then some (setBit (d.reg off) 31 d.deltaValid)
    else if off = Reg.DRC_REBUILD then some (setFld (d.reg off) 23 0 (d.rebuildLeft now))
    else if Reg.DRC_CHAN_W0 0 ≤ off ∧ off = Reg.DRC_CHAN_W0 c then
      some (setBit (d.reg off) 31 (d.dramEnts.any (fun e => decide (e.channel = c))))
    else none
  | 17 =>
    if off = Reg.TCA_STATUS then
      some (setFld (d.reg off) 18 0 (tcount (fun _ x => x.any (·.stale)) d.tca.lines))
    else none
  | 18 =>
    if off = Reg.LKU_STATUS then some d.lkuStatus
    else if Reg.LKU_SEM_STATE 0 ≤ off then some (d.sem ((off - Reg.LKU_SEM_STATE 0) / 4)).status
    else none
  | 7 => if Reg.PRT_PORT_W0 0 ≤ off ∧ off < Reg.PRT_PORT_W0 80 ∧ off % 16 = 8 then
      some (d.prtStatus now ((off - Reg.PRT_PORT_W0 0) / 16)) else none
  | 19 => if off = Reg.ATL_INT_PEND then some (d.intPend r) else none
  | 20 => d.dbgView now off
  | n => if 32 ≤ n then d.cluView off else none

end Sys2Proof.Machine
end

