-- ==== Sys2Proof/Machine/RegFile.lean ====
section
/-!
DEFINITION. Register accesses (R9 to R14, R43 to R48): a read and a write of any offset of the register space by a
requester, the 64-bit pairs of R12, and the accesses of REG_READ and DBG_ACCESS. A write of a register that has a row of
its own is handed to that row's operation.
-/

namespace Sys2Proof.Machine

/-! Plain storage (R13). -/

/-- What a write leaves in a register: RW bits take the value, a 1 clears a W1C bit and sets a W1S bit. -/
def RegDesc.store (x : RegDesc) (cur v : Word) : Word :=
  (((cur &&& ~~~(wd x.rw)) ||| (v &&& wd x.rw)) &&& ~~~(v &&& wd x.w1c)) ||| (v &&& wd x.w1s)

/-- A register written as its access codes say (R13). -/
def Dev.plain (d : Dev) (off : Nat) (v : Word) : Dev := match regDesc off with
  | some x => d.setReg off (x.store (d.reg off) v)
  | none => d

/-- A register written as its access codes say, unless the write is refused (R48). -/
def Dev.plainIf (d : Dev) (r : Req) (off : Nat) (ok : Bool) (v : Word) : Dev := if ok then d.plain off v else d.refuse r off

/-- A write refused because it contradicts the profile or another register (R67), or stored. -/
def Dev.plainOk (d : Dev) (r : Req) (off : Nat) (ok : Bool) (v : Word) : Dev := if ok then d.plain off v else d.conflict r off

/-- A value whose field below a minimum is the minimum, and above a maximum the maximum. -/
def clampFld (v : Word) (hi lo least most : Nat) : Word := setFld v hi lo (min most (max least (fld v hi lo)))

/-! Unmapped offsets (R11, R44, R45). -/

/-- An access to an offset that no register occupies: captured, and REG_UNMAPPED recorded (R11, R580). -/
def Dev.unmapped (d : Dev) (r : Req) (off : Nat) : Dev :=
  (d.captureUnmapped (reqCode r) off).raise Src.regUnmapped (reqCode r * 2 ^ 28 + off)

/-! Writes, block by block. -/

/-- HST (R488). -/
def writeHst (r : Req) (off : Nat) (v : Word) (d : Dev) : Dev :=
  if off = Reg.HST_ATL_KICK then
    if r = .host then d.refuse r off else if bit v 0 then atelierKick d else d
  else if Reg.HST_GRP_W0 0 ≤ off ∧ off < Reg.HST_GRP_W0 16 then
    let g := (off - Reg.HST_GRP_W0 0) / 64
    let w := (off - Reg.HST_GRP_W0 0) % 64 / 4
    if g = 15 ∧ r = .host then d.refuse r off
    else if w = 0 then grpWrite r g v d
    else if w ≤ 13 ∧ d.rb (Reg.HST_GRP_W0 g) 31 then d.refuse r off
    else d.plain off v
  else if Reg.HST_MSIX_TABLE 0 0 ≤ off ∧ off < Reg.HST_MSIX_TABLE 256 0 then
    let x := (off - Reg.HST_MSIX_TABLE 0 0) / 16
    let was := d.reg off
    let d := d.plain off v
    if off % 16 = 12 ∧ bit was 0 ∧ ¬ bit v 0 ∧ d.rb (Reg.HST_MSIX_PBA (x / 32)) (x % 32) then
      (d.setRb (Reg.HST_MSIX_PBA (x / 32)) (x % 32) false).sendVec x
    else d
  else d.plain off v

/-- MGT (R515). -/
def writeMgt (off : Nat) (v : Word) (d : Dev) : Dev :=
  if off = Reg.MGT_IBI then d.plain off (if fld v 2 0 = 0 then setFld v 2 0 1 else v) else d.plain off v

/-- A write of ATL_INT_PEND (R502): a core clears its own lines 4 and 5, GMP those of every core. -/
def intPendWrite (r : Req) (v : Word) (d : Dev) : Dev :=
  let mine : Nat := match r with
    | .atl k => 2 ^ k.val
    | _ => 15
  let d : Dev := if bit v 5 then d.setReg Reg.ATL_IPI (wd (d.rf Reg.ATL_IPI 3 0 &&& (15 - mine))) else d
  let d : Dev := if bit v 4 then { d with mgt := { d.mgt with timers := d.mgt.timers &&& (15 - mine) } } else d
  d.setReg Reg.ATL_INT_PEND (d.reg Reg.ATL_INT_PEND &&& ~~~(v &&& 0x4F#32))

/-- ATL (R495, R501 to R503, R515): the host writes ATL_BOOT and the boot source only. -/
def writeAtl (r : Req) (off : Nat) (v : Word) (d : Dev) : Dev :=
  if off = Reg.ATL_BOOT then if bit v 31 then hostBootGo d else d.plain off v
  else if Reg.ATL_BOOT_SRC 0 ≤ off ∧ off < Reg.ATL_BOOT_SRC 6 then d.plain off v
  else d.atlWrite r off fun d =>
    if off = Reg.ATL_CORE_CTL then atlCoreStart r (BitVec.ofNat 3 v.toNat) d
    else if off = Reg.ATL_RUN then if bit v 0 then atlRunGo r d else d
    else if off = Reg.ATL_IPI then atlIpi r (BitVec.ofNat 4 v.toNat) d
    else if off = Reg.ATL_INT_PEND then intPendWrite r v d
    else if off = Reg.ATL_MEAS then if bit v 31 then measExtendDev r d else d
    else if Reg.ATL_TIMER 0 0 ≤ off ∧ off < Reg.ATL_TIMER 4 0 then
      let k := (off - Reg.ATL_TIMER 0 0) / 8
      let d := d.plain off v
      { d with mgt := { d.mgt with timerHit := d.mgt.timerHit &&& (15 - 2 ^ k) } }
    else d.plain off v

/-- FLT (R541, R550, R558). -/
def writeFlt (now off : Nat) (v : Word) (d : Dev) : Dev :=
  if off = Reg.FLT_CTL then d.plain off (if fld v 27 16 < 10 then setFld v 27 16 10 else v)
  else if off = Reg.FLT_INJECT then faultInject (fld v 7 0) d
  else if off = Reg.FLT_IST_CMD then istWrite now v d
  else if Reg.FLT_CNT 0 ≤ off then if fld v 15 0 ≠ 0 then d.setReg off 0 else d
  else if Reg.FLT_SEV 0 ≤ off then d.plain off (if 5 < fld v 2 0 then setFld v 2 0 5 else v)
  else d.plain off v

/-- PWR (R538). -/
def writePwr (r : Req) (off : Nat) (v : Word) (d : Dev) : Dev :=
  if off = Reg.PWR_CTL then pwrCtlWrite v d
  else if off = Reg.PWR_RAIL then pwrRailWrite v d
  else if off = Reg.PWR_LOOP then d.plain off (clampFld (clampFld v 28 24 20 30) 23 16 2 255)
  else if off = Reg.PWR_THERM then d.plain off (clampFld v 23 16 80 105)
  else if Reg.PWR_CL_W0 0 ≤ off ∧ off < Reg.PWR_CL_W0 24 ∧ (off - Reg.PWR_CL_W0 0) % 32 = 0 then
    pwrClWrite r ((off - Reg.PWR_CL_W0 0) / 32) v d
  else d.plain off v

/-- TIM, on the device (R412, R413, R417, R425). -/
def writeTim (r : Req) (c : Clock) (off : Nat) (v : Word) (d : Dev) : Dev :=
  if off = Reg.TIM_CTL then
    d.plainIf r off (decide (fld v 5 4 ≠ 3) && !(d.forwarding && decide (fld v 5 4 ≠ d.rf off 5 4))) v
  else if off = Reg.TIM_RATE then d.plain off (wdInt (max (-4294967) (min 4294967 (sint v))))
  else if off = Reg.TIM_CMD then match fld v 1 0 with
    | 1 => timeCapture c d
    | 2 => timeSetDev r d
    | _ => d
  else if off = Reg.TIM_PPS_OUT then
    let mine : Bool := match d.prf.inForce with
      | some p => decide (p.pps = 0)
      | none => true
    d.plainOk r off (!bit v 31 || mine) (if fld v 29 0 = 0 then setFld v 29 0 1 else v)
  else d.plain off v

/-- A write of TIM_CMD on the time (R413): set and step. -/
def regWriteClock (off : Nat) (v : Word) (d : Dev) (c : Clock) : Clock :=
  if off = Reg.TIM_CMD ∧ d.pins.resetN then match fld v 1 0 with
    | 2 => timeSetClock d c
    | 3 => timeStepClock d c
    | _ => c
  else c

/-- PRT_CTL.enable (R424): every declared port is brought up, or every lane is held. -/
def prtEnable (now : Nat) (v : Word) (d : Dev) : Dev :=
  let was := d.rb Reg.PRT_CTL 0
  let d := d.plain Reg.PRT_CTL v
  if was && !bit v 0 then d.holdLanes true false
  else if !was && bit v 0 then
    d.profPorts.foldl (fun d e => if e.port < 80 then d.bringUp now e.port else d) d
  else d

/-- PRT (R424). -/
def writePrt (r : Req) (now off : Nat) (v : Word) (d : Dev) : Dev :=
  if off = Reg.PRT_CTL then prtEnable now v d
  else if Reg.PRT_RING_W0 0 ≤ off ∧ off < Reg.PRT_RING_W0 2 then
    d.plain off (if fld v 31 16 = 0 then setFld v 31 16 1 else v)
  else if Reg.PRT_PORT_W0 0 ≤ off ∧ off < Reg.PRT_PORT_W0 80 ∧ off % 16 = 0 then
    let p := (off - Reg.PRT_PORT_W0 0) / 16
    let was := d.rb off 31
    let d := d.plain off (if fld v 29 28 = 3 then setFld v 29 28 0 else v)
    let d := d.drainCaps p
    if was = bit v 31 then d else d.adminDown now p (bit v 31)
  else if Reg.PRT_LANE_W0 0 ≤ off ∧ off < Reg.PRT_LANE_W0 80 ∧ off % 8 = 0 then
    let busy : Bool := match d.lanePort ((off - Reg.PRT_LANE_W0 0) / 8) with
      | some p => decide (2 ≤ d.prtState p ∧ d.prtState p ≤ 4)
      | none => false
    d.plainIf r off (!busy) v
  else d.plain off v

/-- STN_CTL.enable (R397): while 0 every engine is stopped; engines whose run bit is 1 start when it is set again. -/
def stnEnable (v : Word) (d : Dev) : Dev :=
  let was := d.rb Reg.STN_CTL 0
  let runs (d : Dev) : List Nat := (List.range 32).filter (fun e => d.rb (Reg.STN_ENG_W0 e) 31)
  let d := d.plain Reg.STN_CTL v
  if was && !bit v 0 then
    (runs d).foldl (fun (d : Dev) e => d.engineOff e false) d
  else if !was && bit v 0 then
    (runs d).foldl (fun (d : Dev) e => d.engineStart e) d
  else d

/-- STN (R397). -/
def writeStn (r : Req) (off : Nat) (v : Word) (d : Dev) : Dev :=
  if off = Reg.STN_CTL then stnEnable v d
  else if off < Reg.STN_LANE_W0 0 then
    let e := (off - Reg.STN_ENG_W0 0) / 16
    let runs := d.rb (Reg.STN_ENG_W0 e) 31
    if off % 16 = 0 then
      if runs ∧ bit v 30 ≠ d.rb off 30 then d.refuse r off
      else
        let d := d.setRb off 30 (bit v 30)
        if bit v 31 ∧ ¬ runs then stnEngRun e d else if ¬ bit v 31 ∧ runs then stnEngStop e d else d
    else d.plainIf r off (!runs || decide (off % 16 = 12)) v
  else if Reg.STN_DMEM 0 0 ≤ off then d.plainIf r off (!d.rb (Reg.STN_ENG_W0 ((off - Reg.STN_DMEM 0 0) / 2048)) 31) v
  else if Reg.STN_PMEM 0 0 ≤ off then d.plainIf r off (!d.rb (Reg.STN_ENG_W0 ((off - Reg.STN_PMEM 0 0) / 8192)) 31) v
  else d.plain off v

/-- A value of a parse table with its fields limited (R214). -/
def prsValue (off : Nat) (v : Word) : Word :=
  if Reg.PRS_STATE_W0 0 ≤ off ∧ off < Reg.PRS_STATE_W0 256 then
    match off % 16 with
    | 0 => clampFld v 28 22 0 64
    | 8 => clampFld v 11 7 0 16
    | _ => v
  else if Reg.PRS_END_W0 0 ≤ off ∧ off < Reg.PRS_END_W0 64 then
    match off % 16 with
    | 0 => setFld v 1 0 0
    | 4 => clampFld v 15 12 0 12
    | _ => v
  else v

/-- A write of a parse table through the edit bank (R211): refused while GLB_RUN_STATE is 0x3 for the active bank, and for
the former bank while a switch is pending. -/
def prsTable (r : Req) (off : Nat) (v : Word) (d : Dev) : Dev :=
  let bank := d.rf Reg.PRS_CTL 2 2
  if decide (d.stage = 3) && (decide (bank = d.rf Reg.PRS_CTL 1 1) || d.switchPending) then d.refuse r off
  else match regDesc off with
    | some x => d.setReg (off + bank * 2 ^ 26) (x.store (d.reg (off + bank * 2 ^ 26)) (prsValue off v))
    | none => d

/-- PRS (R211 to R214). -/
def writePrs (r : Req) (off : Nat) (v : Word) (d : Dev) : Dev :=
  if off = Reg.PRS_CTL then d.plain off (if fld v 27 24 = 0 then setFld v 27 24 1 else v)
  else if off = Reg.PRS_SLICE_CTL then prsSliceIsolate r (fld v 7 0) d
  else if Reg.PRS_PORT_START 0 ≤ off then prsTable r off v d
  else d.plain off v

/-- FWD (R250, R251, R287). -/
def writeFwd (r : Req) (off : Nat) (v : Word) (d : Dev) : Dev :=
  if Reg.FWD_TBL_W0 0 ≤ off ∧ off < Reg.FWD_TBL_W0 256 then
    let id := (off - Reg.FWD_TBL_W0 0) / 32
    match off % 32 / 4 with
    | 0 => if bit v 31 then fwdTblEnable r id v d else fwdTblDisable id v d
    | 4 => d.plain off v
    | 5 => d.plain off v
    | 2 =>
      let n := d.setReg off v
      if d.tOn id then d.refuse r off
      else if bit v 8 && n.tDram id && !n.mayMirror (n.tBase id) (n.tBytes id) then d.conflict r off
      else d.plain off v
    | _ => d.plainIf r off (!d.tOn id) v
  else d.plain off v

/-- The shared region's bounds that a write of VRN_SHR_SIZE would give (R188, R443). -/
def shrSizeWrite (r : Req) (v : Word) (d : Dev) : Dev :=
  let off := Reg.VRN_SHR_SIZE
  let base := d.shrBase
  let size := fld v 14 0 * 2 ^ 16
  if 16384 < fld v 14 0 ∨ (fld v 14 0 ≠ 0 ∧ d.fittedDram < base + size) then d.refuse r off
  else if bit v 31 && !d.mayMirror base size then d.conflict r off
  else
    let d : Dev := if d.rb off 31 then d.unmirror base d.shrSize else d
    let d := d.plain off v
    if bit v 31 then { d with drc := { d.drc with mirrors := d.drc.mirrors ++ [(base, size)] } } else d

/-- VRN (R188). -/
def writeVrn (r : Req) (off : Nat) (v : Word) (d : Dev) : Dev :=
  if off = Reg.VRN_CTL then d.plain off (if fld v 10 8 = 0 then setFld v 10 8 1 else v)
  else if off = Reg.VRN_SHR_BASE_HI then d.plainIf r off (decide (fld v 15 0 < 0x100)) v
  else if off = Reg.VRN_SHR_SIZE then shrSizeWrite r v d
  else if off = Reg.VRN_VOID_CNT then if v ≠ 0 then d.setReg off 0 else d
  else d.plain off v

/-- Whether a pool can be hdr_pool (R303): 256-byte packet-memory buffers, and a shared remainder in its chain. -/
def Dev.hdrPoolOk (d : Dev) (p : Nat) : Bool :=
  d.poolValid p && !d.poolDram p && decide (d.poolSize p = 8)
    && ([some p, d.poolNext p, (d.poolNext p).bind d.poolNext, ((d.poolNext p).bind d.poolNext).bind d.poolNext].any
      (fun q => q.any (fun n => decide (0 < d.remainder n))))

/-- PAL (R303, R316, R318). -/
def writePal (r : Req) (off : Nat) (v : Word) (d : Dev) : Dev :=
  if off = Reg.PAL_CTL then d.plainOk r off (d.hdrPoolOk (fld v 11 8)) v
  else if Reg.PAL_POOL_W0 0 ≤ off ∧ off < Reg.PAL_POOL_W0 16 ∧ off % 16 = 12 then
    palPoolCountWrite r ((off - Reg.PAL_POOL_W0 0) / 16) v d
  else d.plain off v

/-- TMG_OBJ_CMD (R354): 1 read, 2 write, 3 flush of a queue or apply of a schedule. -/
def tmgCmd (c : Clock) (code : Nat) (d : Dev) : Dev :=
  match code with
  | 1 => tmgObjRead d
  | 2 => tmgObjWrite c.count d
  | 3 => match d.rf Reg.TMG_OBJ_SEL 31 28 with
    | 0 => tmgQueueFlush c.count d
    | 5 => tmgScheduleApply (c.sec * 10 ^ 9 + c.nsec) d
    | _ => d.objResult 1
  | _ => d

/-- Whether the Swatch's circular region at a base lies in the fitted DRAM (R354). -/
def Dev.swatchFits (d : Dev) (lo hi size : Nat) : Bool := decide (lo * 32 + hi * 2 ^ 32 + size * 32 ≤ d.fittedDram)

/-- TMG (R354). The Swatch stops when its enable is cleared: a later pass starts afresh (R351). -/
def writeTmg (r : Req) (c : Clock) (off : Nat) (v : Word) (d : Dev) : Dev :=
  let on := d.rb Reg.TMG_SWATCH_CTL 31
  let lo := d.rf Reg.TMG_SWATCH_BASE_LO 31 5
  let hi := d.rf Reg.TMG_SWATCH_BASE_HI 15 0
  let size := d.rf Reg.TMG_SWATCH_SIZE 23 0
  if off = Reg.TMG_OBJ_CMD then tmgCmd c (fld v 1 0) d
  else if off = Reg.TMG_SWATCH_SIZE then d.plainIf r off (!on && d.swatchFits lo hi (fld v 23 0)) v
  else if off = Reg.TMG_SWATCH_BASE_LO then d.plainIf r off (!on && d.swatchFits (fld v 31 5) hi size) v
  else if off = Reg.TMG_SWATCH_BASE_HI then d.plainIf r off (!on && d.swatchFits lo (fld v 15 0) size) v
  else if off = Reg.TMG_SWATCH_CTL then
    let d := d.plain off v
    if bit v 31 then d else { d with tmg := { d.tmg with swatchEnd := 0 } }
  else d.plain off v

/-- MTR (R355). -/
def writeMtr (c : Clock) (off : Nat) (v : Word) (d : Dev) : Dev :=
  if off = Reg.MTR_CMD then match fld v 1 0 with
    | 1 => mtrRead d
    | 2 => mtrWrite c.count d
    | 3 => mtrReadClear d
    | _ => d
  else d.plain off v

/-- Whether a parity window meets R444: eight channels, an aligned base, all of it in the interleaved part. -/
def Dev.parityOk (d : Dev) (base stripes : Nat) : Bool :=
  decide (d.dramK = 8 ∧ base * 2 ^ 16 % (8 * d.grain) = 0 ∧ base * 2 ^ 16 + 8 * (stripes * d.grain) ≤ 8 * d.dramCmin)

/-- A write of a timing set (R438): the active set refuses it; a new speed must suit the profile; the inactive set loses its
trained bits. -/
def tsetWrite (r : Req) (off : Nat) (v : Word) (d : Dev) : Dev :=
  let s := (off - Reg.DRC_TSET_W0 0) / 16
  let speed := fld v 7 0
  let es := d.dramEnts
  let bad := decide (off % 16 = 0) && (decide (speed < 1 ∨ 3 < speed)
    || es.any (fun e => decide (e.speed < speed) || (decide (e.dimms = 2) && decide (2 < speed))))
  if s = d.activeSet ∨ bad then d.refuse r off
  else (d.plain off v).setRf Reg.DRC_FREQ_STATUS (8 * s + 7) (8 * s) 0

/-- DRC (R428, R429, R438 to R447, R457). -/
def writeDrc (r : Req) (now off : Nat) (v : Word) (d : Dev) : Dev :=
  if off = Reg.DRC_CTL then if bit v 0 then dramBringup r d else d.plain off v
  else if off = Reg.DRC_ILV then d.plainIf r off (!d.rb Reg.DRC_CTL 0) (clampFld v 3 0 0 8)
  else if off = Reg.DRC_MIRROR_DELTA_LO ∨ off = Reg.DRC_MIRROR_DELTA_HI then
    d.plainIf r off (decide (d.drc.mirrors = [])) v
  else if off = Reg.DRC_PAR_BASE then
    d.plainIf r off (!bit v 31 || d.parityOk (fld v 23 0) (d.rf Reg.DRC_PAR_STRIPES 27 0)) v
  else if off = Reg.DRC_PAR_STRIPES then
    d.plainIf r off (!d.rb Reg.DRC_PAR_BASE 31 || d.parityOk (d.rf Reg.DRC_PAR_BASE 23 0) (fld v 27 0)) v
  else if off = Reg.DRC_SCHED then d.plain off (if fld v 31 16 = 0 then setFld v 31 16 1 else v)
  else if off = Reg.DRC_FREQ_CMD then freqChangeGo now v d
  else if off = Reg.DRC_RETIRE then retireWrite now r v d
  else if off = Reg.DRC_SCRUB then d.plain off (if fld v 19 0 = 0 then setFld v 19 0 1 else v)
  else if Reg.DRC_TSET_W0 0 ≤ off ∧ off < Reg.DRC_TSET_W0 2 then tsetWrite r off v d
  else d.plain off v

/-- Whether a way mask suits a table (R452): at most 12 ways, disjoint from the other masks, at most 12 together. -/
def Dev.waysOk (d : Dev) (id mask : Nat) : Bool :=
  let others := (List.range 256).foldl (fun m i => if i = id then m else m ||| d.rf (Reg.TCA_WAYS i) 15 0) 0
  !d.tOn id && decide (popN 16 mask ≤ 12) && decide (mask &&& others = 0) && decide (popN 16 (mask ||| others) ≤ 12)

/-- TCA (R451 to R453, R458). -/
def writeTca (r : Req) (now off : Nat) (v : Word) (d : Dev) : Dev :=
  if off = Reg.TCA_CMD then
    let d := d.plain off v
    match fld v 1 0 with
    | 1 => rangeInvalidate now d
    | 2 => preload now d
    | 3 => mergeSync d
    | _ => d
  else if Reg.TCA_WAYS 0 ≤ off then d.plainOk r off (d.waysOk ((off - Reg.TCA_WAYS 0) / 4) (fld v 15 0)) v
  else d.plain off v

/-- LKU (R371). -/
def writeLku (off : Nat) (v : Word) (d : Dev) : Dev :=
  if off = Reg.LKU_CTL then d.plain off (if fld v 15 0 = 0 then setFld v 15 0 1 else v)
  else if off = Reg.LKU_PROBE_ADDR_HI then lockProbe v d
  else d.plain off v

/-- DBG (R551 to R558). -/
def writeDbg (r : Req) (c : Clock) (off : Nat) (v : Word) (d : Dev) : Dev :=
  if off = Reg.DBG_CTL then d.plainIf r off (decide (r ≠ .host)
    || decide (bit v 0 = d.rb off 0)) v
  else if off = Reg.DBG_CMD then dbgCmdWrite c.sec c.nsec (fld v 2 0) d
  else if off = Reg.DBG_CTX_DATA then debugContextWrite v d
  else if off = Reg.DBG_LANE_TEST then laneTestWrite c.count v d
  else if isBpReg off then match d.bpReg off, regDesc off with
    | some k, some x => d.setReg k (x.store (d.reg k) v)
    | _, _ => d
  else d.plain off v

/-- Whether a write of CLU_CORE_MODE changes a core that holds a task (R153). -/
def Dev.coreModeBad (d : Dev) (c : Nat) (v : Word) : Bool :=
  (List.range 64).any (fun i => (bit v (i / 8) != d.rb (Reg.CLU_CORE_MODE c) (i / 8)) && (d.thr (64 * c + i)).task.isSome)

/-- A write of CLU_MSG_CFG (R239): while enabled only enable may change; a region ends within 512 KiB; enable 0 → 1
clears the overflow count, and 1 → 0 discards the stored messages. -/
def msgCfgWrite (r : Req) (off : Nat) (v : Word) (d : Dev) : Dev :=
  let ch := 64 * ((off - Reg.CLU_EASEL_CTL 0) / 0x100000) + (off % 0x100000 - 0x800) / 4
  let was := d.reg off
  let v := clampFld v 3 0 0 8
  let m := 0x81F7FC0F#32
  let moved := decide ((v &&& m) ||| 0x80000000#32 ≠ (was &&& m) ||| 0x80000000#32)
  if (bit was 31 && moved) || decide (0x80000 < fld v 18 10 * 1024 + 64 * 2 ^ fld v 3 0) then d.refuse r off
  else
    let d := d.plain off v
    if bit was 31 && !bit v 31 then d.setChan ch (d.chan ch).discard
    else if !bit was 31 && bit v 31 then d.setChan ch { d.chan ch with overflow := 0 }
    else d

/-- CLU (R153, R239). -/
def writeClu (r : Req) (off : Nat) (v : Word) (d : Dev) : Dev :=
  let c := (off - Reg.CLU_EASEL_CTL 0) / 0x100000
  let o := off % 0x100000
  if o = 0x004 then d.plainIf r off (!d.coreModeBad c v) v
  else if o = 0x008 then
    let v := clampFld v 6 0 0 64
    d.plainIf r off (decide (fld v 18 10 * 1024 + fld v 6 0 * 1024 ≤ 0x80000)) v
  else if o = 0x00C then
    d.plainIf r off (decide (8 ≤ fld v 3 0 ∧ fld v 3 0 ≤ 12 ∧ fld v 18 10 * 1024 + 64 * 2 ^ fld v 3 0 ≤ 0x80000)) v
  else if o = 0x018 then d.plain off (clampFld v 9 0 0 768)
  else if o = 0x030 then if v ≠ 0 then d.setReg off 0 else d
  else if 0x800 ≤ o ∧ o < 0x900 then msgCfgWrite r off v d
  else d.plain off v

/-- Whether forwarding refuses a write of a register so marked (R48); a cluster's registers accept it while the cluster
is out of service (R153). -/
def Dev.fwdRefuses (d : Dev) (x : RegDesc) (off : Nat) : Bool :=
  x.fwd && d.forwarding && !(decide (32 ≤ off / 0x100000) && !d.cluServes ((off - Reg.CLU_EASEL_CTL 0) / 0x100000))

/-- A write of an occupied offset, by its block (R43). -/
def Dev.writeBlock (d : Dev) (r : Req) (c : Clock) (off : Nat) (v : Word) : Dev :=
  match off / 0x100000 with
  | 2 => writeFlt c.count off v d
  | 3 => writePwr r off v d
  | 4 => writeHst r off v d
  | 5 => writeMgt off v d
  | 6 => writeTim r c off v d
  | 7 => writePrt r c.count off v d
  | 8 => writeStn r off v d
  | 9 => writePrs r off v d
  | 11 => writeFwd r off v d
  | 12 => writeVrn r off v d
  | 13 => writePal r off v d
  | 14 => writeTmg r c off v d
  | 15 => writeMtr c off v d
  | 16 => writeDrc r c.count off v d
  | 17 => writeTca r c.count off v d
  | 18 => writeLku off v d
  | 19 => writeAtl r off v d
  | 20 => writeDbg r c off v d
  | n => if 32 ≤ n then writeClu r off v d else d.plain off v

/-- A register write (R11, R13, R48). -/
def Dev.writeReg (d : Dev) (r : Req) (c : Clock) (off : Nat) (v : Word) : Dev :=
  match regDesc off with
  | none => d.unmapped r off
  | some x => if d.fwdRefuses x off then d.refuse r off else d.writeBlock r c off v

/-! Reads (R11, R13). -/

/-- What a register of an occupied offset reads as. -/
def Dev.peek (d : Dev) (r : Req) (now : Nat) (idn : Ident) (off : Nat) : Word :=
  match regDesc off with
  | none => 0
  | some x => match d.view r now idn off with
    | some w => w
    | none =>
      let bank := if Reg.PRS_PORT_START 0 ≤ off ∧ off < Reg.CLS_CTL then d.rf Reg.PRS_CTL 2 2 else 0
      d.reg (off + bank * 2 ^ 26) &&& wd (x.rw ||| x.ro ||| x.w1c ||| x.w1s)

/-! Pairs (R12). -/

/-- The lower registers of the pairs that hold a 64-bit value (R12): first register, distance to the next pair, and how
many. The counts and times whose tables name R12; and the 64-bit bus addresses: the doorbells and rings of the groups
(R464, R488), the first DMA error (R487) and host boot's image and profile (R495). Pairs whose two registers together hold
fewer than 64 bits of one value are plain registers (DESIGN CHOICE, log entry 100). -/
def pairBases : List (Nat × Nat × Nat) :=
  [(Reg.FLT_FIRST_TIME_LO, 8, 1), (Reg.PWR_E_CORE_LO, 8, 1), (Reg.PWR_CL_W4 0, 32, 24), (Reg.PWR_E_BLK 0 0, 8, 9),
   (Reg.HST_ERR_ADDR_LO, 8, 1), (Reg.HST_GRP_W1 0, 64, 16), (Reg.HST_GRP_INJ_BASE_LO 0, 64, 16),
   (Reg.HST_GRP_INJ_BASE_LO 0 + 8, 64, 16), (Reg.HST_GRP_INJ_BASE_LO 0 + 16, 64, 16),
   (Reg.HST_GRP_INJ_BASE_LO 0 + 24, 64, 16), (Reg.HST_GRP_INJ_BASE_LO 0 + 32, 64, 16),
   (Reg.ATL_TIMER 0 0, 8, 4), (Reg.ATL_BOOT_SRC 0, 12, 2), (Reg.PRS_PKT_CNT_LO, 8, 1), (Reg.VRN_COMMIT_CNT_LO, 8, 2),
   (Reg.TCA_HIT_CNT_LO, 8, 2), (Reg.CLU_DISPATCH_CNT_LO 0, 0x100000, 24), (Reg.CLU_PREEMPT_CNT_LO 0, 0x100000, 24)]

/-- Whether an offset is the lower register of a pair whatever the device holds. -/
def pairLow (off : Nat) : Bool :=
  pairBases.any (fun e => decide (e.1 ≤ off ∧ (off - e.1) % e.2.1 = 0 ∧ (off - e.1) / e.2.1 < e.2.2))

/-- Whether an offset is the lower register of a pair now (R12): MTR_DATA holds two 64-bit values while a counter is selected,
TMG_OBJ_DATA while queue statistics are. -/
def Dev.pairLow (d : Dev) (off : Nat) : Bool :=
  Machine.pairLow off || (d.rb Reg.MTR_SEL 31 && decide (off = Reg.MTR_DATA 0 ∨ off = Reg.MTR_DATA 2))
    || (decide (d.objSel.1 = 8) && decide (off = Reg.TMG_OBJ_DATA 2 ∨ off = Reg.TMG_OBJ_DATA 4))

/-- Whether an offset is the upper register of a pair now. -/
def Dev.pairHigh (d : Dev) (off : Nat) : Bool := decide (4 ≤ off) && d.pairLow (off - 4)

/-- Whether a write of a pair's lower register is refused before it is held (R48): an ATL_TIMER by the host (R502), a word of
HST_GRP[15] by the host (R466), a word of a group that is enabled (R488). -/
def Dev.lowRefused (d : Dev) (r : Req) (off : Nat) : Bool :=
  let g := (off - Reg.HST_GRP_W0 0) / 64
  decide (r = .host ∧ Reg.ATL_TIMER 0 0 ≤ off ∧ off < Reg.ATL_TIMER 4 0)
    || (decide (Reg.HST_GRP_W0 0 ≤ off ∧ off < Reg.HST_GRP_W0 16)
      && (decide (g = 15 ∧ r = .host) || d.rb (Reg.HST_GRP_W0 g) 31))

/-- The holding register of a requester for a pair: the host and JTAG share one (R12). A read's captured half and a
write's held half are kept apart. -/
def holdKey (r : Req) (write : Bool) (low : Nat) : Nat :=
  let n := match r with
    | .host => 0
    | .atl k => 1 + k.val
    | .gmp => 5
  (2 * n + b2n write) * 2 ^ 26 + low

/-- The device with a holding register set or emptied. -/
def Dev.setHold (d : Dev) (k : Nat) (v : Option Word) : Dev := { d with hold := tset none d.hold k v }

/-- A register read by a requester: the word, and what the read leaves behind (R11, R12). -/
def Dev.readReg (d : Dev) (r : Req) (now : Nat) (idn : Ident) (off : Nat) : Word × Dev :=
  if (regDesc off).isNone then (0, d.unmapped r off)
  else if d.pairLow off then (d.peek r now idn off, d.setHold (holdKey r false off) (some (d.peek r now idn (off + 4))))
  else if d.pairHigh off then
    match tget none d.hold (holdKey r false (off - 4)) with
    | some w => (w, d.setHold (holdKey r false (off - 4)) none)
    | none => (d.peek r now idn off, d)
  else (d.peek r now idn off, d)

/-- A register write by a requester: the lower half of a pair is held until the upper half is written (R12). -/
def Dev.regWrite (d : Dev) (r : Req) (c : Clock) (off : Nat) (v : Word) : Dev :=
  if d.pairLow off then
    if d.lowRefused r off then d.refuse r off else d.setHold (holdKey r true off) (some v)
  else if d.pairHigh off then
    match tget none d.hold (holdKey r true (off - 4)) with
    | some w => ((d.setHold (holdKey r true (off - 4)) none).writeReg r c (off - 4) w).writeReg r c off v
    | none => d.writeReg r c off v
  else d.writeReg r c off v

/-- An access with its answer in `resp` (4 bytes for a read). Nothing answers while RESET_N is asserted. -/
def Dev.regAccess (d : Dev) (r : Req) (c : Clock) (idn : Ident) (off : Nat) (a : RegAcc) : Dev :=
  if !d.pins.resetN then d
  else match a with
    | .read => let x := d.readReg r c.count idn off
      { x.2 with resp := leBytes 4 x.1.toNat }
    | .write v => d.regWrite r c off v

/-- An access of a given size in bytes (R10): only 4 bytes reach a register. A host access through BAR0 of any other size
completes with Unsupported Request status, which `resp` shows as 1; a core's traps before it leaves the core
(Dev.startLoad, Dev.startStore). -/
def Dev.regSized (d : Dev) (r : Req) (size : Nat) (c : Clock) (idn : Ident) (off : Nat) (a : RegAcc) : Dev :=
  if size = 4 then d.regAccess r c idn off a
  else if r = .host then { d with resp := [1] } else d

/-- REGISTER_WRITE (R10, R48). -/
def registerWrite (r : Req) (size off : Nat) (v : Word) (c : Clock) (idn : Ident) (d : Dev) : Dev :=
  d.regSized r size c idn off (.write v)

/-- What a register write leaves of the time: a write of another size than 4 bytes writes nothing (R10). -/
def sizedClock (size off : Nat) (v : Word) (d : Dev) (c : Clock) : Clock := if size = 4 then regWriteClock off v d c else c

/-- What a write leaves of the fused identity: ATL_MEAS.extend extends M3 (R503). -/
def regWriteIdent (r : Req) (off : Nat) (v : Word) (d : Dev) (i : Ident) : Ident :=
  if off = Reg.ATL_MEAS ∧ bit v 31 ∧ d.pins.resetN then measExtendIdent r d i else i

/-- What a register write of a given size leaves of the fused identity (R10, R503). -/
def sizedIdent (r : Req) (size off : Nat) (v : Word) (d : Dev) (i : Ident) : Ident :=
  if size = 4 then regWriteIdent r off v d i else i

/-- REG_PAIR_ACCESS (R10, R12): an access to a register of a pair; nothing for another offset. -/
def regPairAccess (r : Req) (size off : Nat) (a : RegAcc) (c : Clock) (idn : Ident) (d : Dev) : Dev :=
  if d.pairLow off || d.pairHigh off then d.regSized r size c idn off a else d

/-- GMP REG_READ (R507, R508): an aligned offset of the register space. -/
def gmpRegRead (c : Clock) (idn : Ident) (a : BitVec 7) (p : List Byte) (crc : Byte) (d : Dev) : Dev :=
  d.gmp 11 false (fun n => decide (n = 4)) a p crc fun d =>
    let off := leVal p
    if off < 2 ^ 26 then
      let x := d.readReg .gmp c.count idn off
      (0, leBytes 4 x.1.toNat, x.2)
    else (0, zeros 4, (d.captureUnmapped 4 off).raise Src.regUnmapped (4 * 2 ^ 28 + off % 2 ^ 26))

/-- DBG_ACCESS (R556): while jtag_en is 1, an access as the host makes one through BAR0. -/
def dbgAccess (off : Nat) (a : RegAcc) (c : Clock) (idn : Ident) (d : Dev) : Dev :=
  if d.rb Reg.DBG_CTL 0 then (d.tapLoad .dbgAccess).regAccess .host c idn off a else d.tapLoad .dbgAccess

/-- What a DBG_ACCESS leaves of the time: a write to TIM_CMD sets or steps it (R413, R556). -/
def dbgClock (off : Nat) (a : RegAcc) (d : Dev) (c : Clock) : Clock :=
  match d.rb Reg.DBG_CTL 0, a with
  | true, .write v => regWriteClock off v d c
  | _, _ => c

/-- What a DBG_ACCESS leaves of the fused identity (R503, R556). -/
def dbgIdent (off : Nat) (a : RegAcc) (d : Dev) (i : Ident) : Ident :=
  match d.rb Reg.DBG_CTL 0, a with
  | true, .write v => regWriteIdent .host off v d i
  | _, _ => i

end Sys2Proof.Machine
end

