-- ==== Sys2Proof/Machine/KrovalMem.lean ====
section
/-!
DEFINITION. Kroval words that reach memory: loads and stores, lock requests, the cache group and tlbinv, and the events
that complete them (R73, R74, R85, R102 to R108, R118 to R123, R357 to R360, R369, R370).
-/

namespace Sys2Proof.Machine

/-! The Atelier L2 (R118): 1 MiB, 8 ways, write-back; the line size is free (log entry 4). -/

/-- The L2 line size in bytes: at least the 32 bytes of an L1 line. -/
def l2Size : Nat := 2 ^ (5 + Config.l2LineLog2 % 6)

/-- The base of the L2 line that holds an address. -/
def l2Base (a : Nat) : Nat := a / l2Size * l2Size

/-- Whether the L2 holds an address. -/
def Dev.l2Has (d : Dev) (a : Nat) : Bool := d.krv.l2.any (fun l => decide (l.base = l2Base a))

/-- Words marked as ones whose check bits are uncorrectable (R432). -/
def Dev.markBad (d : Dev) (ws : List Nat) : Dev :=
  { d with drc := { d.drc with poison := ws.foldl (fun p w => tset false p w true) d.drc.poison } }

/-- A dirty line is written back; a word that was read poisoned and not written whole since stays poisoned (R432). -/
def Dev.l2Clean (d : Dev) (l : L2Line) : Dev := if l.dirty then (d.memWrite l.base l.data).markBad l.bad else d


/-- The device without the L2 lines that satisfy a condition. -/
def Dev.l2Drop (d : Dev) (p : L2Line → Bool) : Dev := { d with krv := { d.krv with l2 := d.krv.l2.filter (fun l => !p l) } }

/-- Room for a line: with 8 lines in its set one is replaced, chosen by the LFSR (log entry 2). -/
def Dev.l2Room (d : Dev) (a : Nat) : Dev :=
  let sets := 2 ^ 20 / 8 / l2Size
  let mine := d.krv.l2.filter (fun l => decide (l.base / l2Size % sets = a / l2Size % sets))
  if mine.length < 8 then d
  else
    let (i, d) := d.pick 8
    match mine[i]? with
    | some l => (d.l2Clean l).l2Drop (fun x => decide (x.base = l.base))
    | none => d

/-- The L2 with the line of an address; a poisoned DRAM read of it is recorded, and its words stay poisoned (R432). -/
def Dev.l2Fill (d : Dev) (a : Nat) : Dev :=
  if d.l2Has a then d
  else
    let d := (d.l2Room a).seeDram (l2Base a) l2Size
    let bad := if d.poisoned (l2Base a) l2Size then
        ((List.range (l2Size / 4)).map (l2Base a / 4 + ·)).filter (fun w => d.dead (4 * w) 4)
      else []
    { d with krv := { d.krv with l2 := ⟨l2Base a, d.memRead (l2Base a) l2Size, false, bad⟩ :: d.krv.l2 } }

/-- Bytes written into the L2 line of an address. -/
def Dev.l2Put (d : Dev) (a : Nat) (bs : List Byte) : Dev :=
  let d := d.l2Fill a
  { d with krv := { d.krv with l2 := d.krv.l2.map (fun l =>
      if l.base = l2Base a then { l with data := patch l.data (a - l.base) bs, dirty := true
                                         bad := l.bad.filter (fun w => !decide (a ≤ 4 * w ∧ 4 * w + 4 ≤ a + bs.length)) }
      else l) } }

/-- Every L2 line written back and invalidated. -/
def Dev.l2FlushAll (d : Dev) : Dev := (d.krv.l2.foldl Dev.l2Clean d).l2Drop (fun _ => true)

/-! Write buffers and D-caches (R106). -/

/-- A core's write buffer. -/
def Dev.wbuf (d : Dev) (core : Nat) : List WbEntry := tget [] d.krv.wbuf core
/-- The device with a core's write buffer replaced. -/
def Dev.setWbuf (d : Dev) (core : Nat) (l : List WbEntry) : Dev :=
  { d with krv := { d.krv with wbuf := tset [] d.krv.wbuf core l } }

/-- An entry reaches memory, or the L2 behind an Atelier core (R106, R118). -/
def Dev.drainWb (d : Dev) (core : Nat) (e : WbEntry) : Dev :=
  if core < 192 then d.memMask (32 * e.line) e.bytes
  else (byteRuns e.bytes []).foldr (fun r d => d.l2Put (32 * e.line + r.1) r.2) d

/-- A core's write buffer emptied in order. -/
def Dev.drainCore (d : Dev) (core : Nat) : Dev :=
  (d.wbuf core).foldl (fun d e => d.drainWb core e) (d.setWbuf core [])

/-- Every core's write buffer emptied: what the passage of time does. -/
def Dev.drainCores (d : Dev) : Dev := (tkeys (fun _ _ => true) d.krv.wbuf).foldl Dev.drainCore d

/-- A store's bytes enter a core's write buffer: merged into their line's entry, or as a new entry for which the oldest
leaves a full buffer. -/
def Dev.bufferStore (d : Dev) (core a : Nat) (bs : List Byte) : Dev :=
  let line := a / 32
  let add (m : Tab (Option Byte)) : Tab (Option Byte) :=
    (List.range bs.length).foldl (fun m i => tset none m (a % 32 + i) (some (byteAt bs i))) m
  let l := d.wbuf core
  if l.any (fun e => decide (e.line = line)) then
    d.setWbuf core (l.map (fun e => if e.line = line then { e with bytes := add e.bytes } else e))
  else match l with
    | e :: r =>
      if l.length < 8 then d.setWbuf core (l ++ [⟨line, add []⟩])
      else (d.setWbuf core (r ++ [⟨line, add []⟩])).drainWb core e
    | [] => d.setWbuf core [⟨line, add []⟩]

/-- A line's bytes with a core's buffered stores over them. -/
def Dev.overlay (d : Dev) (core line : Nat) (bs : List Byte) : List Byte :=
  match (d.wbuf core).find? (fun e => decide (e.line = line)) with
  | some e => (List.range bs.length).map (fun i => (tget none e.bytes i).getD (byteAt bs i))
  | none => bs

/-- The D-cache line of a core that holds a line. -/
def Dev.dline (d : Dev) (core line : Nat) : Option DLine :=
  (tget none d.krv.dcache (dcKey core line)).filter (fun x => decide (x.line = line))

/-- A D-cache line of a core replaced. -/
def Dev.setDline (d : Dev) (core line : Nat) (x : Option DLine) : Dev :=
  { d with krv := { d.krv with dcache := tset none d.krv.dcache (dcKey core line) x } }

/-- A line read into a core's D-cache: from memory, or through the L2 on the Atelier. -/
def Dev.fillDline (d : Dev) (core line : Nat) : Dev :=
  let d : Dev := if core < 192 then d else d.l2Fill (32 * line)
  let bs := if core < 192 then d.memRead (32 * line) 32 else (List.range 32).map (fun i => d.l2Get (32 * line + i))
  d.setDline core line (some ⟨line, d.overlay core line bs⟩)

/-- A cached store (R106): written through a hit line and the write buffer, with no allocation on a miss. -/
def Dev.cachedStore (d : Dev) (core a : Nat) (bs : List Byte) : Dev :=
  let d : Dev := match d.dline core (a / 32) with
    | some x => d.setDline core (a / 32) (some { x with data := patch x.data (a % 32) bs })
    | none => d
  d.bufferStore core a bs

/-! Failing accesses (R112, R113). -/

/-- An access that fails its check: the trap waits for the check to complete; an unmapped address is captured (R40). -/
def Dev.failAccess (d : Dev) (t cause : Nat) (acc : Acc) (va : Word) (unmapped : Option Nat) : Dev :=
  let d : Dev := match unmapped with
    | some a => d.captureUnmapped (if isAtl t then 2 else 3) a
    | none => d
  d.updThr t (fun th => { th with fly := th.fly ++ [.trap ⟨cause, acc.kind, false, va⟩] })

/-- An access that passes its checks: alignment at issue (R104), translation and privilege, and the watchpoints of
R555, which trap or halt before it. -/
def Dev.checked (d : Dev) (t : Nat) (acc : Acc) (va : Word) (size : Nat) (body : (a : Nat) → (cached : Bool) → Dev → Dev) : Dev :=
  if va.toNat % size ≠ 0 then d.takeTrap t ⟨3, acc.kind, false, va⟩
  else
    let d := d.tlbFill t va.toNat
    match d.xlate t acc va.toNat with
    | .bad c u => d.failAccess t c acc va u
    | .ok a cached =>
      match d.wpMatch t (decide (acc = .store)) va.toNat with
      | some c =>
        if !bit c 30 then d.failAccess t 8 acc va none
        else if (d.thr t).dbg = .none then d.askHalt t (bit c 29)
        else body a cached d
      | none => body a cached d

/-- A word past its access: its check is on its way (R219). -/
def Dev.passed (d : Dev) (t : Nat) (f : Thread → Thread) : Dev :=
  d.updThr t (fun th => let th := f th; ({ th with fly := th.fly ++ [.ok] } : Thread).advance (isAtl t))

/-! Loads (R73, R85, R105). -/

/-- The result of a load from its little-endian bytes. -/
def loadVal (size : Nat) (signed : Bool) (bs : List Byte) : Word :=
  let v := leVal (bs.take size)
  if signed then sextN (8 * size) v else wd v

/-- A thread with the result of a load, and the advanced address of ldw+. -/
def Thread.loaded (th : Thread) (l : Load) (v : Word) : Thread :=
  let th := { th.setG l.rd v with load := none }
  match l.post with
  | some (ra, x) => th.setG ra x
  | none => th

/-- A load's data are on their way: a DRAM read joins the controller's queues at class 3 (R435). -/
def Dev.awaitLoad (d : Dev) (now t : Nat) (l : Load) (dram : Bool) : Dev :=
  let d := (d.dramDrop (.load t)).updThr t (fun th => { th with load := some l, fly := th.fly ++ [.ok] })
  if dram then d.dramAsk now 3 (.load t) l.paddr else d

/-- Whether the data of a tracked load lie in the write set or the commit buffer (R105, R161). -/
def Dev.onChip (d : Dev) (t a : Nat) : Bool :=
  d.vrn.cbuf.contains (a / 16) || (match txnKey t (d.thr t) with
    | some k => (d.txn k).ws.any (fun e => match e with
      | .store g m => decide (g = a / 16) && (List.range 16).all (fun i => (tget none m i).isSome)
      | _ => false)
    | none => false)

/-- A load of uncached on-chip memory, whose value goes on to `fin` (R541): where the word has an uncorrectable error the
thread's transaction aborts with cause 0x5, or ends by the Errors rule of R176 in an irrevocable run; without a
transaction the value is open (log entry 2). -/
def Dev.plainLoad (d : Dev) (t : Nat) (l : Load) (fin : Word → Dev → Dev) : Dev :=
  if d.sramBad l.paddr l.size then
    match txnKey t (d.thr t) with
    | some k => d.coreUe k
    | none => fin (Config.freeWord d.free) { d with free := d.free + 1 }
  else fin (loadVal l.size l.signed (d.memRead l.paddr l.size)) d

/-- An uncached access comes after the core's earlier stores, and its later loads after it (R73): its write buffer has
drained, its D-cache line of the address goes, and on the Atelier an L2 line that holds it is written back and leaves the
L2. -/
def Dev.ncSync (d : Dev) (t a : Nat) : Dev :=
  let d := d.drainCore (coreOf t)
  let d := if (d.dline (coreOf t) (a / 32)).isSome then d.setDline (coreOf t) (a / 32) none else d
  if isAtl t then
    ((d.krv.l2.filter (fun l => decide (l.base = l2Base a))).foldl Dev.l2Clean d).l2Drop (fun l => decide (l.base = l2Base a))
  else d

/-- A load that has passed its checks (R73, R105, R106, R369, R370). -/
def Dev.startLoad (d : Dev) (now t : Nat) (idn : Ident) (l : Load) (va : Word) : Dev :=
  let a := l.paddr
  let core := coreOf t
  match d.region a with
  | .dram =>
    if !isAtl t && d.inShared a then
      d.awaitLoad now t { l with tracked := true, cached := false } (!d.onChip t a)
    else if !l.cached then d.awaitLoad now t l true
    else match d.dline core (a / 32) with
      | some x => d.passed t (fun th => th.loaded l (loadVal l.size l.signed (slice x.data (a % 32) l.size)))
      | none => d.awaitLoad now t l (!(isAtl t && d.l2Has a))
  | .atlSram =>
    if !l.cached then d.awaitLoad now t l false
    else match d.dline core (a / 32) with
      | some x => d.passed t (fun th => th.loaded l (loadVal l.size l.signed (slice x.data (a % 32) l.size)))
      | none => d.awaitLoad now t l false
  | .cluster c =>
    if !isAtl t && decide (c = clusterOf t) then
      d.plainLoad t l fun v d => d.passed t (fun th => th.loaded l v)
    else d.awaitLoad now t l false
  | .regs =>
    if l.size ≠ 4 then d.failAccess t 4 .load va none
    else
      let x := d.readReg (.atl (Fin.ofNat 4 (t - 1536))) now idn (a - regSpaceBase)
      x.2.passed t (fun th => th.loaded l x.1)
  | .sem =>
    if l.size ≠ 4 then d.failAccess t 4 .load va none
    else if !d.semAllowed t ((a - semBase) / 0x100) then
      (d.raise Src.lkuSemDenied (d.holderId t)).failAccess t 4 .load va none
    else d.awaitLoad now t l false
  | .packet | .lookup | .primer => d.awaitLoad now t l false
  | .unmapped => d.failAccess t 4 .load va (some a)

/-- A load word of an immediate format: at ra + sext(imm15), or at ra with ra then advanced (R85). -/
def loadCmd (op size : Nat) (signed post : Bool) (now t : Nat) (idn : Ident) (f : IFmt) (d : Dev) : Dev :=
  d.issue t fun d =>
    let th := d.thr t
    let base := th.g f.ra.toNat
    let va := if post then base else base + IFmt.sext f
    let inc := if post then some (f.ra.toNat, base + IFmt.sext f) else none
    d.legal t (!post || decide (f.rd ≠ f.ra)) (IFmt.word f op) fun d =>
      d.checked t .load va size fun a cached d =>
        d.startLoad now t idn ⟨f.rd.toNat, va, a, size, signed, false, cached, inc⟩ va

/-- ldw. -/
def ldwCmd (now t : Nat) (idn : Ident) (f : IFmt) (d : Dev) : Dev := loadCmd 0x18 4 false false now t idn f d
/-- ldh. -/
def ldhCmd (now t : Nat) (idn : Ident) (f : IFmt) (d : Dev) : Dev := loadCmd 0x19 2 true false now t idn f d
/-- ldhu. -/
def ldhuCmd (now t : Nat) (idn : Ident) (f : IFmt) (d : Dev) : Dev := loadCmd 0x1A 2 false false now t idn f d
/-- ldb. -/
def ldbCmd (now t : Nat) (idn : Ident) (f : IFmt) (d : Dev) : Dev := loadCmd 0x1B 1 true false now t idn f d
/-- ldbu. -/
def ldbuCmd (now t : Nat) (idn : Ident) (f : IFmt) (d : Dev) : Dev := loadCmd 0x1C 1 false false now t idn f d
/-- ldw+. -/
def ldwPostCmd (now t : Nat) (idn : Ident) (f : IFmt) (d : Dev) : Dev := loadCmd 0x24 4 false true now t idn f d

/-- A load ends: the result is written and the thread goes on. -/
def Dev.endLoad (d : Dev) (t : Nat) (l : Load) (v : Word) : Dev :=
  (d.dramDrop (.load t)).updThr t (fun th => (th.loaded l v).advance (isAtl t))

/-- The data of a load that is not of the lock unit's semaphore words. -/
def Dev.loadData (d : Dev) (t : Nat) (l : Load) : Dev :=
  let a := l.paddr
  if l.tracked then
    match txnKey t (d.thr t) with
    | some k =>
      let v := loadVal l.size l.signed ((List.range l.size).map (fun i => d.trackedByte k (a + i)))
      (d.sigAdd k (a / 16)).endLoad t l v
    | none => d.endLoad t l (loadVal l.size l.signed (d.memRead a l.size))
  else if l.cached then
    let d := d.fillDline (coreOf t) (a / 32)
    match d.dline (coreOf t) (a / 32) with
    | some x => d.endLoad t l (loadVal l.size l.signed (slice x.data (a % 32) l.size))
    | none => d
  else if semBase ≤ a ∧ a < semBase + 0x10000 then
    let x := d.semRead (d.holderId t) (a - semBase)
    x.2.endLoad t l x.1
  else
    (if a < d.fittedDram then d.ncSync t a else d).plainLoad t l fun v d => d.endLoad t l v

/-- Whether a load waits for a semaphore's acquire or status word, which has a row of its own (R369). -/
def semWord (l : Load) : Bool :=
  decide (semBase ≤ l.paddr ∧ l.paddr < semBase + 0x10000 ∧ (l.paddr - semBase) % 0x100 < 8)

/-- A load's data return (R73, R432): nothing happens until a DRAM read has been judged; poisoned data trap. -/
def loadDataReturn (t : Nat) (d : Dev) : Dev :=
  match (d.thr t).load with
  | none => d
  | some l =>
    let asked := d.drc.reqs.any (fun q => decide (q.who = .load t))
    if semWord l || !d.txnRuns t then d
    else match asked, d.dramDone (.load t) with
      | true, none => d
      | true, some true => (d.dramDrop (.load t)).takeTrap t ⟨4, Acc.load.kind, false, l.vaddr⟩
      | _, _ =>
        let a := if l.cached then l.paddr / 32 * 32 else l.paddr
        if isAtl t && d.l2Bad a (if l.cached then 32 else l.size) then
          (d.dramDrop (.load t)).takeTrap t ⟨4, Acc.load.kind, false, l.vaddr⟩
        else d.loadData t l

/-- A read of a semaphore's word reaches the lock unit (R369), behind the thread's own release of that semaphore if one
is on its way (R73). -/
def semLoad (off t s : Nat) (d : Dev) : Dev :=
  match (d.thr t).load with
  | none => d
  | some l =>
    if l.paddr = semBase + 0x100 * s + off ∧ d.txnRuns t
        ∧ ¬ d.lku.reqs.any (fun r => decide (r.thread = t ∧ r.addr / 0x100 = (semBase + 0x100 * s) / 0x100)) then
      let x := d.semRead (d.holderId t) (0x100 * s + off)
      x.2.endLoad t l x.1
    else d

/-- SEMAPHORE_ACQUIRE: the read of offset 0x00. -/
def semaphoreAcquire (t s : Nat) (d : Dev) : Dev := semLoad 0 t s d
/-- SEMAPHORE_STATUS: the read of offset 0x04. -/
def semaphoreStatus (t s : Nat) (d : Dev) : Dev := semLoad 4 t s d

/-! Stores (R85, R105, R106). -/

/-- A shared store of the granted run stalls on a transaction halted in hold mode, from a time (R176, R189). -/
def Dev.holdStall (d : Dev) (now gran : Nat) : Dev :=
  match d.vrn.holdWait with
  | some (_, g) => if g = gran then d else { d with vrn := { d.vrn with holdWait := some (now, gran) } }
  | none => { d with vrn := { d.vrn with holdWait := some (now, gran) } }

/-- A store that has passed its checks: its bytes reach memory, the write buffer or the write set, a register, or the
lock unit. The bytes go through `fin`, which ends the word. A shared store of an irrevocable run stalls on a transaction
halted in hold mode (R176) and while the commit buffer is full (R161). -/
def Dev.startStore (d : Dev) (now t a : Nat) (cached : Bool) (bs : List Byte) (va : Word) (fin : Dev → Dev) : Dev :=
  match d.region a with
  | .dram =>
    if !isAtl t && d.inShared a then
      match txnKey t (d.thr t) with
      | none => d.failAccess t 4 .store va none
      | some k =>
        if (d.txn k).irrev ≠ .granted then fin (d.trackedStore now k a bs)
        else if (d.conflicting k [a / 16]).any (fun u => (d.txn u).held) then d.holdStall now (a / 16)
        else if 1024 ≤ d.vrn.cbuf.length then d
        else fin ({ d with vrn := { d.vrn with holdWait := none } }.trackedStore now k a bs)
    else if cached then fin (d.cachedStore (coreOf t) a bs)
    else fin ((d.ncSync t a).memWrite a bs)
  | .atlSram => fin (if cached then d.cachedStore (coreOf t) a bs else (d.ncSync t a).memWrite a bs)
  | .cluster _ | .packet => fin (d.memWrite a bs)
  | .lookup => fin ((d.rewriteRows a bs.length).memWrite a bs)
  | .regs =>
    if bs.length ≠ 4 then d.failAccess t 4 .store va none else fin d
  | .sem =>
    let s := (a - semBase) / 0x100
    if bs.length ≠ 4 then d.failAccess t 4 .store va none
    else if !d.semAllowed t s then (d.raise Src.lkuSemDenied (d.holderId t)).failAccess t 4 .store va none
    else if a % 0x100 = 4 then
      fin { d with lku := { d.lku with reqs := d.lku.reqs ++ [⟨t, d.holderId t, a, false⟩] } }
    else fin d
  | .primer => fin d
  | .unmapped => d.failAccess t 4 .store va (some a)

/-- The address a store of an immediate format goes to (R85). -/
def storeVa (post : Bool) (f : IFmt) (th : Thread) : Word :=
  if post then th.g f.ra.toNat else th.g f.ra.toNat + IFmt.sext f

/-- The register an Atelier store writes if it issues now: a word store that passes every check into register space. -/
def storeReg (post : Bool) (t : Nat) (f : IFmt) (d : Dev) : Option (Nat × Word) :=
  let th := d.thr t
  let va := storeVa post f th
  if !isAtl t || !d.issuable t || d.stopsAt t (d.bpMatch t) || decide (va.toNat % 4 ≠ 0) ||
      d.stopsAt t (d.wpMatch t true va.toNat) then
    none
  else match d.xlate t .store va.toNat with
    | .ok a _ => if d.region a = .regs then some (a - regSpaceBase, th.g f.rd.toNat) else none
    | .bad _ _ => none

/-- A store word of an immediate format: at ra + sext(imm15), or at ra with ra then advanced. -/
def storeCmd (size : Nat) (post : Bool) (t : Nat) (c : Clock) (f : IFmt) (d : Dev) : Dev :=
  d.issue t fun d =>
    let th := d.thr t
    let va := storeVa post f th
    let v := th.g f.rd.toNat
    let inc (th : Thread) : Thread := if post then th.setG f.ra.toNat (th.g f.ra.toNat + IFmt.sext f) else th
    d.checked t .store va size fun a cached d =>
      d.startStore c.count t a cached (leBytes size v.toNat) va fun d =>
        let d := d.passed t inc
        if d.region a = .regs then d.regWrite (.atl (Fin.ofNat 4 (t - 1536))) c (a - regSpaceBase) v else d

/-- stw. -/
def stwCmd (t : Nat) (c : Clock) (f : IFmt) (d : Dev) : Dev := storeCmd 4 false t c f d
/-- sth. -/
def sthCmd (t : Nat) (c : Clock) (f : IFmt) (d : Dev) : Dev := storeCmd 2 false t c f d
/-- stb. -/
def stbCmd (t : Nat) (c : Clock) (f : IFmt) (d : Dev) : Dev := storeCmd 1 false t c f d
/-- stw+. -/
def stwPostCmd (t : Nat) (c : Clock) (f : IFmt) (d : Dev) : Dev := storeCmd 4 true t c f d

/-- What a word store leaves of the time: an Atelier store to TIM_CMD sets or steps it (R413). -/
def storeClock (post : Bool) (t : Nat) (f : IFmt) (d : Dev) (c : Clock) : Clock := match storeReg post t f d with
  | some (off, v) => regWriteClock off v d c
  | none => c

/-- What a word store leaves of the fused identity: an Atelier store to ATL_MEAS extends M3 (R503). -/
def storeIdent (post : Bool) (t : Nat) (f : IFmt) (d : Dev) (i : Ident) : Ident := match storeReg post t f d with
  | some (off, v) => regWriteIdent (.atl (Fin.ofNat 4 (t - 1536))) off v d i
  | none => i

/-! Locks (R357 to R360). -/

/-- Whether a word of this region can serve as a lock word (R357). -/
def lockRegion (atl : Bool) : Region → Bool
  | .dram | .cluster _ => true
  | .atlSram => atl
  | _ => false

/-- A lock word's checks (R357, R358): alignment at issue, cause 0x03; then, with cause 0x04, that it lies in a lock region
and that the thread may store to it. A packet thread stores to the shared region in a transaction only (R148). R121 gives a
user access to a u = 0 page cause 0x05, R358 every address that may not be stored to 0x04: 0x04 here (DESIGN CHOICE, log
entry 140). -/
def Dev.lockWord (d : Dev) (t : Nat) (va : Word) (body : Nat → Dev → Dev) : Dev :=
  if va.toNat % 4 ≠ 0 then d.takeTrap t ⟨3, Acc.store.kind, false, va⟩
  else
    let d := d.tlbFill t va.toNat
    match d.xlate t .store va.toNat with
    | .bad _ u => d.failAccess t 4 .store va u
    | .ok a _ =>
      if lockRegion (isAtl t) (d.region a) && (isAtl t || !d.inShared a || (txnKey t (d.thr t)).isSome) then body a d
      else d.failAccess t 4 .store va none

/-- A request leaves for the lock unit. -/
def Dev.lockReq (d : Dev) (t a : Nat) (acquire : Bool) : Dev :=
  { d with lku := { d.lku with reqs := d.lku.reqs ++ [⟨t, d.holderId t, a, acquire⟩] } }

/-- lkacq (R359): the thread stalls until the lock unit answers. -/
def lkacqCmd (t : Nat) (f : RFmt) (d : Dev) : Dev :=
  d.issue t fun d =>
    d.legal t (decide (f.rb.toNat = 0 ∧ f.fn.toNat = 0)) (RFmt.word f 0x20) fun d =>
      d.lockWord t ((d.thr t).g f.ra.toNat) fun a d =>
        (d.lockReq t a true).updThr t (fun th => { th with run := .lockWait f.rd.toNat, fly := th.fly ++ [.ok] })

/-- lkrel (R360). -/
def lkrelCmd (t : Nat) (f : RFmt) (d : Dev) : Dev :=
  d.issue t fun d =>
    d.legal t (decide (f.rd.toNat = 0 ∧ f.rb.toNat = 0 ∧ f.fn.toNat = 0)) (RFmt.word f 0x21) fun d =>
      d.lockWord t ((d.thr t).g f.ra.toNat) fun a d => (d.lockReq t a false).passed t id

/-- A release reaches the lock unit (R360): one of a lock word, not of the semaphore bank. -/
def lockRelease (d : Dev) : Dev := match d.lku.reqs with
  | r :: _ => if semBase ≤ r.addr then (if r.addr < semBase + 0x10000 then d else lockReleaseStep d) else lockReleaseStep d
  | [] => d

/-- A write of a semaphore's release word reaches the lock unit (R369). -/
def semaphoreRelease (d : Dev) : Dev := match d.lku.reqs with
  | r :: _ =>
    if !r.acquire ∧ semBase ≤ r.addr ∧ r.addr < semBase + 0x10000 then
      d.popLockReq.semWrite r.holder (r.addr - semBase)
    else d
  | [] => d

/-! The cache group (R102). -/

/-- A cache-group word: unused fields must be 0, and so must ra where no address is taken (R77, R102). -/
def cacheCmd (t : Nat) (f : R3) (fn : Nat) (addr : Bool) (d : Dev) (body : Nat → Dev → Dev) : Dev :=
  d.issue t fun d =>
    let ok := decide (f.rd.toNat = 0 ∧ f.rb.toNat = 0) && (addr || decide (f.ra.toNat = 0))
    d.legal t ok (R3.word f 0x22 fn) fun d =>
      (body ((d.thr t).g f.ra.toNat).toNat d).retire t id

/-- The internal address of a cache operation's address, if it maps to one; its walk refills the TLB (R122). -/
def Dev.lineAddr (d : Dev) (t : Nat) (acc : Acc) (va : Nat) : Option Nat := match d.xlate t acc va with
  | .ok a _ => some a
  | .bad _ _ => none

/-- sync: the write buffer reaches memory. -/
def syncCmd (t : Nat) (f : R3) (d : Dev) : Dev := cacheCmd t f 0 false d fun _ d => d.drainCore (coreOf t)

/-- dinvl. -/
def dinvlCmd (t : Nat) (f : R3) (d : Dev) : Dev := cacheCmd t f 1 true d fun va d =>
  let d := d.tlbFill t va
  match d.lineAddr t .load va with
  | some a => if (d.dline (coreOf t) (a / 32)).isSome then d.setDline (coreOf t) (a / 32) none else d
  | none => d

/-- dinva. -/
def dinvaCmd (t : Nat) (f : R3) (d : Dev) : Dev := cacheCmd t f 2 false d fun _ d =>
  { d with krv := { d.krv with dcache := tdrop (fun k => decide (k / 256 = coreOf t)) d.krv.dcache } }

/-- iinvl. -/
def iinvlCmd (t : Nat) (f : R3) (d : Dev) : Dev := cacheCmd t f 3 true d fun va d =>
  let d := d.tlbFill t va
  match d.lineAddr t .fetch va with
  | some a =>
    let k := icKey (coreOf t) (a / 32)
    if tget none d.krv.icache k = some (a / 32) then { d with krv := { d.krv with icache := tset none d.krv.icache k none } }
    else d
  | none => d

/-- iinva. -/
def iinvaCmd (t : Nat) (f : R3) (d : Dev) : Dev := cacheCmd t f 4 false d fun _ d =>
  { d with krv := { d.krv with icache := tdrop (fun k => decide (k / 512 = coreOf t)) d.krv.icache } }

/-- An Atelier-only word: cause 0x01 on a cluster core, 0x05 at user privilege (R85, R102). -/
def atelierOnly (t : Nat) (w : Word) (ok : Bool) (d : Dev) (body : Dev → Dev) : Dev :=
  d.issue t fun d =>
    if !isAtl t || !ok then d.trapWord t 1 w
    else if !(d.thr t).super then d.trapWord t 5 w
    else (body d).retire t id

/-- An L2 operation of the cache group. -/
def l2Cmd (t : Nat) (f : R3) (fn : Nat) (addr : Bool) (d : Dev) (body : Nat → Dev → Dev) : Dev :=
  atelierOnly t (R3.word f 0x22 fn) (decide (f.rd.toNat = 0 ∧ f.rb.toNat = 0) && (addr || decide (f.ra.toNat = 0))) d
    fun d => body ((d.thr t).g f.ra.toNat).toNat d

/-- l2invl: without write-back. -/
def l2invlCmd (t : Nat) (f : R3) (d : Dev) : Dev := l2Cmd t f 5 true d fun va d =>
  let d := d.tlbFill t va
  match d.lineAddr t .load va with
  | some a => d.l2Drop (fun l => decide (l.base = l2Base a))
  | none => d

/-- l2clnl: written back, and kept. -/
def l2clnlCmd (t : Nat) (f : R3) (d : Dev) : Dev := l2Cmd t f 6 true d fun va d =>
  let d := d.tlbFill t va
  match d.lineAddr t .load va with
  | some a =>
    let mine := d.krv.l2.filter (fun l => decide (l.base = l2Base a))
    let d := mine.foldl Dev.l2Clean d
    { d with krv := { d.krv with l2 := d.krv.l2.map (fun l => if l.base = l2Base a then { l with dirty := false } else l) } }
  | none => d

/-- l2flush. -/
def l2flushCmd (t : Nat) (f : R3) (d : Dev) : Dev := l2Cmd t f 7 false d fun _ d => d.l2FlushAll

/-! tlbinv (R122). -/

/-- tlbinv of a fn: the entries that satisfy a condition on the address, the current ASID and the entry leave. -/
def tlbinvCmd (t : Nat) (f : R3) (fn : Nat) (gone : (ra : Nat) → (asid : Nat) → TlbEntry → Bool) (d : Dev) : Dev :=
  atelierOnly t (R3.word f 0x36 fn) (decide (f.rd.toNat = 0 ∧ f.rb.toNat = 0) && (decide (fn ≠ 0) || decide (f.ra.toNat = 0))) d
    fun d =>
      let th := d.thr t
      let p := gone (th.g f.ra.toNat).toNat (fld th.asid 7 0)
      { d with krv := { d.krv with tlb := tset [] d.krv.tlb t ((d.tlb t).filter (fun e => !p e)) } }

/-- Whether a TLB entry covers the page of an address. -/
def TlbEntry.page (e : TlbEntry) (va : Nat) : Bool := decide (e.vpn = if e.big then va / 2 ^ 21 else va / 2 ^ 12)

/-- fn 0: every entry. -/
def tlbinvAll (t : Nat) (f : R3) (d : Dev) : Dev := tlbinvCmd t f 0 (fun _ _ _ => true) d
/-- fn 1: the page in every ASID. -/
def tlbinvPage (t : Nat) (f : R3) (d : Dev) : Dev := tlbinvCmd t f 1 (fun ra _ e => e.page ra) d
/-- fn 2: the non-global entries of ASID ra[7:0]. -/
def tlbinvAsid (t : Nat) (f : R3) (d : Dev) : Dev :=
  tlbinvCmd t f 2 (fun ra _ e => decide (e.asid = ra % 256) && !e.pte.testBit 5) d
/-- fn 3: the page in the current ASID, global entries included. -/
def tlbinvPageAsid (t : Nat) (f : R3) (d : Dev) : Dev :=
  tlbinvCmd t f 3 (fun ra asid e => e.page ra && (decide (e.asid = asid) || e.pte.testBit 5)) d

/-! Fetch and interrupts. -/

/-- An I-cache fill completes (R74): a fetch that fails traps with estat.kind 0b00 (R104, R107); so does a poisoned DRAM
line (R432). A line of cluster memory with an uncorrectable error aborts the transaction with cause 0x5 (R541). -/
def icacheFillDone (now t : Nat) (d : Dev) : Dev :=
  let th := d.thr t
  if decide (th.run ≠ .running) || !d.coreClocked t || !d.txnRuns t || d.fetchHit t || !th.clear then d
  else if th.pc.toNat % 4 ≠ 0 then d.takeTrap t ⟨3, 0, false, th.pc⟩
  else
    let d := d.tlbFill t th.pc.toNat
    match d.fetchLine t with
    | .bad c u =>
      let d : Dev := match u with
        | some a => d.captureUnmapped (if isAtl t then 2 else 3) a
        | none => d
      d.takeTrap t ⟨c, 0, false, th.pc⟩
    | .ok l _ =>
      let dead := decide (32 * l < d.fittedDram) && d.dead (32 * l) 32
      let d := (d.seeDram (32 * l) 32).dateUes now
      if dead then d.takeTrap t ⟨4, 0, false, th.pc⟩
      else match (if d.sramBad (32 * l) 32 then txnKey t th else none) with
      | some k => d.coreUe k
      | none =>
        let k := icKey (coreOf t) l
        { d with krv := { d.krv with icache := tset none d.krv.icache k (some l) } }

/-- Whether line n is pending for Atelier core k (R502): 4 and 5 are the core's own. -/
def Dev.intLine (d : Dev) (k n : Nat) : Bool :=
  if n = 4 then d.mgt.timers.testBit k else if n = 5 then d.rb Reg.ATL_IPI k else d.rb Reg.ATL_INT_PEND n

/-- An Atelier core takes interrupt line n (R98, R123): pending and enabled, sstatus.ie set, at a word boundary. Not while a
debug halt is pending or in force, nor within a single step (DESIGN CHOICE, log entry 141). -/
def atelierInterrupt (k n : Nat) (d : Dev) : Dev :=
  let t := 1536 + k
  let th := d.thr t
  if decide (th.run = .running) && decide (th.slot = .none) && th.clear && decide (th.dbg = .none) && bit th.sstatus 1 && d.intLine k n
      && d.rb Reg.ATL_INT_EN n && d.coreClocked t then d.takeInterrupt t n
  else d

end Sys2Proof.Machine
end

