-- ==== Sys2Proof/Machine/State.lean ====
section
/-!
DEFINITION. The machine's state, the reasons it stops, and the machine right after reset.
-/

namespace Sys2Proof.Machine

/-- The state of the block: time, the fused identity with the measurements, everything else the spec gives the device, and
the commands that wait, first in, first out. -/
structure State where
  clk : Clock
  idn : Ident
  dev : Dev
  pending : List Instr
  deriving DecidableEq, Repr

/-- Why a step stops. -/
inductive Fault where
  /-- A command that is not well formed: it names a unit the spec does not give the device, or gives as undefined a word
  that is defined. Raised by every meaning with such operands; safe: no such command exists. -/
  | noSuchUnit
  deriving DecidableEq, Repr

/-- Why a command is not run. -/
inductive Refusal where
  /-- A command without a meaning; safe. No arm of this model answers it. -/
  | notModelled (mnemonic : String)
  deriving DecidableEq, Repr

/-- The fused identity of the modelled part (R490, R491; the spec fixes the form and not one part's values: DESIGN CHOICE,
log entry 14) with the measurements as reset leaves them. -/
def Ident.blank : Ident :=
  { lot := List.replicate 8 0x30, wafer := 1, x := 0, y := 0, stage := 0, stepping := 0x3141
    keys := List.replicate 4 (List.replicate 32 0), present := 0, revoked := 0, svnMin := 0, cert := [], devKey := 0
    meas := List.replicate 4 (zeros 64) }

/-- The machine right after RESET_N is released, with no command waiting (R14, R46). -/
def State.reset : State := { clk := Clock.reset, idn := Ident.blank, dev := Dev.reset, pending := [] }

/-- The canonical form of the memory: addresses strictly rise, and no listed byte is the 0 that an unlisted address reads
as (log entry 10). -/
def Memory.wf (m : List Host.Cell) : Bool := m.Pairwise (fun a b => a.1 < b.1) && m.all (fun x => x.2 ≠ 0)

end Sys2Proof.Machine
end

