-- ==== Sys2Proof/WellFormed.lean ====
section
/-!
DEFINITION. Which commands are well formed: each unit, port, thread, key or offset that a command names is one the spec
gives the device, and a word given as undefined is undefined (R89, R385).
-/

namespace Sys2Proof

/-- A number of a thread: 24 clusters of 8 cores of 8 threads (R72), and the four Atelier cores (R119). -/
def isThread (n : Nat) : Bool := decide (n < 1540)

/-- A number of a cluster thread (R72). -/
def isClusterThread (n : Nat) : Bool := decide (n < 1536)

/-- A number of a cluster (R27). -/
def isCluster (n : Nat) : Bool := decide (n < 24)

/-- A number of a MAC port: 64 fabric lanes and 16 slot lanes give at most 80. -/
def isMac (n : Nat) : Bool := decide (n < 80)

/-- A number of a traffic manager port (R317). -/
def isPort (n : Nat) : Bool := decide (n < 136)

/-- A number of a lane with a PRT_LANE entry. -/
def isLane (n : Nat) : Bool := decide (n < 80)

/-- A number of a Stencil lane (R379). -/
def isStnLane (n : Nat) : Bool := decide (n < 32)

/-- A number of a Stencil engine (R376). -/
def isEngine (n : Nat) : Bool := decide (n < 32)

/-- A number of a slot of a Stencil engine (R376). -/
def isSlot (n : Nat) : Bool := decide (n < 4)

/-- A number of a lookup engine (R246). -/
def isLookupEngine (n : Nat) : Bool := decide (n < 16)

/-- A number of a forwarding table (R248). -/
def isTable (n : Nat) : Bool := decide (n < 256)

/-- A number of a ring group (R463). -/
def isGroup (n : Nat) : Bool := decide (n < 16)

/-- A number of a transaction: 24 clusters of 256 (R153). -/
def isTxn (n : Nat) : Bool := decide (n < 6144)

/-- A number of an Atelier core. -/
def isAtlCore (n : Nat) : Bool := decide (n < 4)

/-- A number of an interrupt line. -/
def isIntLine (n : Nat) : Bool := decide (n < 8)

/-- A number of a DRAM channel. -/
def isChannel (n : Nat) : Bool := decide (n < 8)

/-- A number of a subchannel. -/
def isSub (n : Nat) : Bool := decide (n < 2)

/-- A number of a table cache slice. -/
def isTcaSlice (n : Nat) : Bool := decide (n < 8)

/-- A number of a ring pair. -/
def isRing (n : Nat) : Bool := decide (n < 2)

/-- A number of a semaphore (R369). -/
def isSem (n : Nat) : Bool := decide (n < 256)

/-- A number of a token (R130). -/
def isToken (n : Nat) : Bool := decide (n < 65536)

/-- A number of a brush that exists (R220). -/
def isBrush (n : Nat) : Bool := decide (n < 7)

/-- A value of BOOT_SEL. -/
def isBootSel (n : Nat) : Bool := decide (n < 4)

/-- A number of a parse bank. -/
def isBank (n : Nat) : Bool := decide (n < 2)

/-- A number of a recovery function. -/
def isRecovery (n : Nat) : Bool := decide (n < 4096)

/-- A number of a core of a cluster. -/
def isCore (n : Nat) : Bool := decide (n < 8)

/-- A number of a pool. -/
def isPool (n : Nat) : Bool := decide (n < 16)

/-- An offset of BAR4. -/
def inBar4 (n : Nat) : Bool := decide (n < 2 ^ 30)

/-- An offset of the register space. -/
def inRegs (n : Nat) : Bool := decide (n < 2 ^ 26)

/-- A value of a point field. -/
def isPoint (n : Nat) : Bool := decide (n < 16)

/-- A number of a temperature sensor. -/
def isSensor (n : Nat) : Bool := decide (n < 32)

/-- A reading of 8 bits. -/
def isTemp (n : Nat) : Bool := decide (n < 256)

/-- A number of a stage of the VDD_CORE supply. -/
def isPhase (n : Nat) : Bool := decide (n < 12)

/-- A fault source number. -/
def isSource (n : Nat) : Bool := decide (n < 256)

/-- A number of a kind of unit of FLT_IST. -/
def isUnitKind (n : Nat) : Bool := decide (n < 4)

/-- A unit number of FLT_IST. -/
def isUnit (n : Nat) : Bool := decide (n < 32)

/-- A memory array number. -/
def isArray (n : Nat) : Bool := decide (n < 256)

/-- A value of the lane field of DBG_LANE_TEST. -/
def isTestLane (n : Nat) : Bool := decide (n < 128)

/-- A value of the pattern field of DBG_LANE_TEST. -/
def isPattern (n : Nat) : Bool := decide (n < 16)

/-- A command names only what exists. -/
def Instr.wf : Instr → Bool
  | .resetNRelease boot => isBootSel boot
  | .primerBoot _ _ _ _ => true
  | .hostBootDmaDone _ => true
  | .pciePerstNRelease _ => true
  | .hostLinkLoss _ => true
  | .frameReceive p _ => isMac p
  | .signalDetect l => isLane l
  | .linkTrainingDone p => isMac p
  | .portUp p => isMac p
  | .portBringupTimeout p => isMac p
  | .portLinkDown p _ => isMac p
  | .transmitFrame p => isMac p
  | .transmitDone p => isPort p
  | .timeSet _ => true
  | .recirculationReentry port => isPort port
  | .parserBankSwitch bank => isBank bank
  | .easelSelect cl => isCluster cl
  | .preemptSave t => isClusterThread t
  | .aluOp t _ => isThread t
  | .multiply t f => isThread t && decide (f.fn.toNat % 8 < 4)
  | .divide t f => isThread t && decide (4 ≤ f.fn.toNat % 8)
  | .addi t _ => isThread t
  | .andi t _ => isThread t
  | .ori t _ => isThread t
  | .xori t _ => isThread t
  | .shifti t _ => isThread t
  | .cmpi t _ => isThread t
  | .addis t _ => isThread t
  | .lui t _ _ => isThread t
  | .bcc t _ _ _ _ => isThread t
  | .call t _ _ => isThread t
  | .jr t _ _ => isThread t
  | .callr t _ _ => isThread t
  | .eret t _ _ => isThread t
  | .sys t _ => isThread t
  | .bkpt t _ => isThread t
  | .ldw t _ => isThread t
  | .ldh t _ => isThread t
  | .ldhu t _ => isThread t
  | .ldb t _ => isThread t
  | .ldbu t _ => isThread t
  | .stw t _ => isThread t
  | .sth t _ => isThread t
  | .stb t _ => isThread t
  | .ldwPostinc t _ => isThread t
  | .stwPostinc t _ => isThread t
  | .lkacq t _ => isThread t
  | .lkrel t _ => isThread t
  | .sync t _ => isThread t
  | .dinvl t _ => isThread t
  | .dinva t _ => isThread t
  | .iinvl t _ => isThread t
  | .iinva t _ => isThread t
  | .l2invl t _ => isThread t
  | .l2clnl t _ => isThread t
  | .l2flush t _ => isThread t
  | .thset t _ => isThread t
  | .thget t _ => isThread t
  | .thgo t _ => isThread t
  | .wt t _ => isThread t
  | .mfs t _ => isThread t
  | .mts t _ => isThread t
  | .tcont t _ => isThread t
  | .vcommit t _ => isThread t
  | .vabort t _ => isThread t
  | .tend t _ => isThread t
  | .tlbinvAll t _ => isThread t
  | .tlbinvPage t _ => isThread t
  | .tlbinvAsid t _ => isThread t
  | .tlbinvPageAsid t _ => isThread t
  | .shortPair t pair => isThread t && !Machine.hasRep (Machine.pairWord pair)
  | .rep t pair _ => isThread t && Machine.hasRep (Machine.pairWord pair)
  | .accessCheckComplete t => isThread t
  | .loadDataReturn t => isThread t
  | .icacheFillDone t => isThread t
  | .atelierInterrupt k line => isAtlCore k && isIntLine line
  | .waitDeadline t => isThread t
  | .edpush t _ => isThread t
  | .edpop t _ => isThread t
  | .edrw t _ => isThread t
  | .lkup t _ => isThread t
  | .lkupl t _ => isThread t
  | .hcrc t _ => isThread t
  | .htpz t _ => isThread t
  | .hsum t _ => isThread t
  | .hsupd t _ => isThread t
  | .mtr t _ => isThread t
  | .cnt t _ => isThread t
  | .cenc t _ => isThread t
  | .cdec t _ => isThread t
  | .enq t _ => isThread t
  | .pshare t _ => isThread t
  | .pdrop t _ => isThread t
  | .pfree t _ => isThread t
  | .pswap t _ => isThread t
  | .mopen t _ => isThread t
  | .mput t _ => isThread t
  | .mclose t _ => isThread t
  | .mrecv t _ => isThread t
  | .mpost t _ => isThread t
  | .bsave t brush _ => isThread t && isBrush brush
  | .brest t brush _ => isThread t && isBrush brush
  | .lookupEngineSearch e => isLookupEngine e
  | .learnStart id => isTable id
  | .learnApply _ => true
  | .ageVisit id => isTable id
  | .flushWalkVisit id => isTable id
  | .fwdTblEnable _ id _ => isTable id
  | .fwdTblDisable id _ => isTable id
  | .tableInitDone id => isTable id
  | .search g _ => isGroup g
  | .next g _ => isGroup g
  | .insert g _ => isGroup g
  | .modify g _ => isGroup g
  | .delete g _ => isGroup g
  | .flushPort g _ => isGroup g
  | .actWrite g _ => isGroup g
  | .txn g _ => isGroup g
  | .portRearm g => isGroup g
  | .profileStage g _ _ => isGroup g
  | .profileApply g => isGroup g
  | .msgSend g _ => isGroup g
  | .taskPost g _ => isGroup g
  | .quote g _ => isGroup g
  | .nop g => isGroup g
  | .commitRequest key => isTxn key
  | .varnishCommit key => isTxn key
  | .tmHandoff key => isTxn key
  | .abortAtEasel key => isTxn key
  | .timingEvent cl core _ _ => isCluster cl && isCore core
  | .palPoolCountWrite _ p _ => isPool p
  | .tmDequeue p => isPort p
  | .gateEntryChange p => isMac p
  | .gateScheduleSwitch p => isMac p
  | .semaphoreAcquire t sem => isThread t && isSem sem
  | .semaphoreStatus t sem => isThread t && isSem sem
  | .lockProbe _ => true
  | .symbolReceive l _ => isStnLane l
  | .symbolTransmit l => isStnLane l
  | .stnAlu e j _ => isEngine e && isSlot j
  | .stnJr e j _ _ => isEngine e && isSlot j
  | .stnAddi e j _ _ => isEngine e && isSlot j
  | .stnMovi e j _ _ => isEngine e && isSlot j
  | .stnMovh e j _ _ => isEngine e && isSlot j
  | .stnCmpi e j _ _ => isEngine e && isSlot j
  | .stnLd e j _ => isEngine e && isSlot j
  | .stnSt e j _ => isEngine e && isSlot j
  | .stnBcc e j _ _ => isEngine e && isSlot j
  | .stnJmp e j _ => isEngine e && isSlot j
  | .stnCall e j _ => isEngine e && isSlot j
  | .rx e j _ _ => isEngine e && isSlot j
  | .tx e j _ _ => isEngine e && isSlot j
  | .rxrun e j _ _ => isEngine e && isSlot j
  | .txrun e j _ _ => isEngine e && isSlot j
  | .fput e j _ _ => isEngine e && isSlot j
  | .fend e j _ _ => isEngine e && isSlot j
  | .fdrop e j _ _ => isEngine e && isSlot j
  | .fopen e j _ _ => isEngine e && isSlot j
  | .txnext e j _ _ => isEngine e && isSlot j
  | .txget e j _ _ => isEngine e && isSlot j
  | .drive e j _ _ => isEngine e && isSlot j
  | .txusr e j _ _ => isEngine e && isSlot j
  | .par e j _ _ => isEngine e && isSlot j
  | .cinit e j _ _ => isEngine e && isSlot j
  | .cupd e j _ _ => isEngine e && isSlot j
  | .crdl e j _ _ => isEngine e && isSlot j
  | .crdh e j _ _ => isEngine e && isSlot j
  | .now e j _ _ => isEngine e && isSlot j
  | .nowh e j _ _ => isEngine e && isSlot j
  | .waitc e j _ _ => isEngine e && isSlot j
  | .waitt e j _ _ => isEngine e && isSlot j
  | .pps e j _ _ => isEngine e && isSlot j
  | .hbkick e j _ _ => isEngine e && isSlot j
  | .hbstat e j _ _ => isEngine e && isSlot j
  | .stnNop e j _ _ => isEngine e && isSlot j
  | .stnHalt e j _ _ => isEngine e && isSlot j
  | .brk e j _ _ => isEngine e && isSlot j
  | .stnEngRun e => isEngine e
  | .stnEngStop e => isEngine e
  | .dramBringup _ => true
  | .dramBringupDone _ _ => true
  | .dramCommandIssue ch sub => isChannel ch && isSub sub
  | .dramReadReturn ch sub _ _ => isChannel ch && isSub sub
  | .scrubVisit _ _ => true
  | .freqChangeGo _ => true
  | .trainingStep ch => isChannel ch
  | .channelRetire _ ch => isChannel ch
  | .channelReturn _ ch => isChannel ch
  | .mergeBufferDrain cl => isCluster cl
  | .tableCacheFill sl => isTcaSlice sl
  | .preload id => isTable id
  | .kick g _ => isGroup g
  | .atelierKick _ => true
  | .doorbellReadDone g _ => isGroup g
  | .descriptorFetchDone g _ _ => isGroup g
  | .injPacket g _ => isGroup g
  | .puntPacket g _ => isGroup g
  | .doorbellWriteback g => isGroup g
  | .groupEnable _ g _ => isGroup g
  | .groupReset _ g _ => isGroup g
  | .groupResetDone g => isGroup g
  | .bar4Access off _ => inBar4 off
  | .identity _ _ _ => true
  | .faultRead _ _ _ => true
  | .faultClear _ _ _ => true
  | .powerState _ _ _ => true
  | .powerSet _ _ _ => true
  | .ringStatus _ _ _ => true
  | .subunitReset _ _ _ => true
  | .quoteStart _ _ _ => true
  | .quoteRead _ _ _ => true
  | .certRead _ _ _ => true
  | .regRead _ _ _ => true
  | .entdaa _ => true
  | .atlCoreStart _ _ => true
  | .atlRunGo _ => true
  | .measurementExtend _ => true
  | .atlIpi _ _ => true
  | .clusterPointChange _ cl point => isCluster cl && isPoint point
  | .pointChangeDone cl => isCluster cl
  | .clusterGate _ cl => isCluster cl
  | .gatingDone cl => isCluster cl
  | .clusterWake _ cl => isCluster cl
  | .wakeDone cl => isCluster cl
  | .nonSpeculativeConfirm cl => isCluster cl
  | .errorWindowEnd cl => isCluster cl
  | .thermalThreshold sensor temp => isSensor sensor && isTemp temp
  | .faultReport src _ => isSource src
  | .drainTimeout cl => isCluster cl
  | .faultInject src => isSource src
  | .istOut kind n => isUnitKind kind && isUnit n
  | .istBist kind n => isUnitKind kind && isUnit n
  | .istReturn kind n => isUnitKind kind && isUnit n
  | .bistDone _ array => isArray array
  | .haltComplete t => isThread t
  | .debugContextWrite _ => true
  | .dbgAccess off _ => inRegs off
  | .regPairAccess _ _ off _ => inRegs off
  | .registerWrite _ _ off _ => inRegs off
  | .pcieCompletionTimeout g _ => isGroup g
  | .undefinedInstruction t w => isThread t && (Machine.undefinedCause w).isSome
  | .stencilUndefinedInstruction e j w => isEngine e && isSlot j && Machine.stnUndefined w
  | .vddIoGood => true
  | .vddCoreGood => true
  | .vddIoLoss => true
  | .resetNAssert => true
  | .cacheInvalidationDone => true
  | .hostBootGo => true
  | .pwrfailAssert => true
  | .fixativeHeartbeatStop => true
  | .pwrfailRelease => true
  | .thermtrip => true
  | .functionLevelReset => true
  | .tclkPllLock => true
  | .timRefLoss => true
  | .refclkSysLoss => true
  | .timePpsOutRise => true
  | .timePpsOutFall => true
  | .timePpsInEdge => true
  | .timeCapture => true
  | .timeStep => true
  | .parsePacket => true
  | .distributePacket => true
  | .learnPost => true
  | .controlPlaneApply => true
  | .controlPlaneRelease => true
  | .profileCommit => true
  | .quoteDone => true
  | .commitBufferRetire => true
  | .irrevocableGrant => true
  | .vrnHoldStall => true
  | .irrevHeaderCellGrant => true
  | .swatchPass => true
  | .tmgObjRead => true
  | .tmgObjWrite => true
  | .tmgQueueFlush => true
  | .tmgScheduleApply => true
  | .mtrRead => true
  | .mtrWrite => true
  | .mtrReadClear => true
  | .lockAcquire => true
  | .lockRelease => true
  | .semaphoreRelease => true
  | .freqSwitch => true
  | .freqSwitchDone => true
  | .rangeInvalidate => true
  | .mergeSync => true
  | .rstdaa => true
  | .enec => true
  | .disec => true
  | .getpid => true
  | .getbcr => true
  | .getdcr => true
  | .getstatus => true
  | .getmwl => true
  | .getmrl => true
  | .vcoreSlewDone => true
  | .throttleStep => true
  | .gzVcoreOor => true
  | .faultNPulseEnd => true
  | .haltHold => true
  | .haltAbort => true
  | .resume => true
  | .step => true
  | .kill => true
  | .laneTestClear => true
  | .jtagBypass => true
  | .jtagIdcode => true
  | .jtagClamp => true
  | .jtagHighz => true
  | .jtagExtestPulse => true
  | .jtagExtestTrain => true
  | .thermtripNRelease => true
  | .ibiAccepted => true
  | .prsSliceIsolate _ _ => true
  | .completionArrival cl => isCluster cl
  | .oldestReport cl => isCluster cl
  | .atelierTimer k => isAtlCore k
  | .mrecvDeadline cl token => isCluster cl && isToken token
  | .canvasRestoreDone key _ => isTxn key
  | .gatedPrefetchDone p => isMac p
  | .recoveryTimeout n => isRecovery n
  | .lockWaitTimeout t => isThread t
  | .rxrunStop e j => isEngine e && isSlot j
  | .txrunDone e j => isEngine e && isSlot j
  | .txnextReady e j => isEngine e && isSlot j
  | .waitcExpiry e j => isEngine e && isSlot j
  | .waittExpiry e j => isEngine e && isSlot j
  | .heartbeatToggle hb => isRing hb
  | .heartbeatLapse hb => isRing hb
  | .ringInsertDelayEnd hb => isRing hb
  | .ringSettleEnd hb => isRing hb
  | .periodicRetrain ch => isChannel ch
  | .zeroFillDone ch => isChannel ch
  | .rebuildDone ch => isChannel ch
  | .staleRefetchDone sl => isTcaSlice sl
  | .pollTimer g => isGroup g
  | .msixHoldoffExpiry g => isGroup g
  | .setdasa _ _ => true
  | .setmwl _ => true
  | .setmrl _ => true
  | .rstact _ => true
  | .gzPhaseFault n => isPhase n
  | .gzLdoFault cl => isCluster cl
  | .laneTestEnable lane pattern => isTestLane lane && isPattern pattern
  | .jtagSamplePreload _ => true
  | .jtagExtest _ => true
  | .ddrAlertNAsserted ch => isChannel ch
  | .trainingStepDone ch _ _ => isChannel ch
  | .assemblyBufferFree e j => isEngine e && isSlot j

end Sys2Proof
end

