-- ==== Sys2Proof/Machine/Run.lean ====
section
/-!
DEFINITION. How a meaning runs its operation on the state: on the device alone, or on the time or the identity as well.
A command that is not well formed faults.
-/

namespace Sys2Proof.Machine

/-- A command whose effect is on the device. -/
def runDev (ok : Bool) (f : Dev → Dev) (s : State) : Host.Outcome State Fault Refusal :=
  if ok then .next { s with dev := f s.dev } else .fault .noSuchUnit

/-- A command that may also set or step the time. -/
def runClk (ok : Bool) (c : Clock → Clock) (f : Dev → Dev) (s : State) : Host.Outcome State Fault Refusal :=
  if ok then .next { s with clk := c s.clk, dev := f s.dev } else .fault .noSuchUnit

/-- A command that may also change the fuses or the measurements. -/
def runIdn (ok : Bool) (n : Ident → Ident) (f : Dev → Dev) (s : State) : Host.Outcome State Fault Refusal :=
  if ok then .next { s with idn := n s.idn, dev := f s.dev } else .fault .noSuchUnit

/-- A command that may change the time and the measurements. -/
def runAll (ok : Bool) (c : Clock → Clock) (n : Ident → Ident) (f : Dev → Dev) (s : State) :
    Host.Outcome State Fault Refusal :=
  if ok then .next { s with clk := c s.clk, idn := n s.idn, dev := f s.dev } else .fault .noSuchUnit

/-- A register write reaches its block only while RESET_N is high (R569). -/
def Dev.live (f : Dev → Dev) (d : Dev) : Dev := if d.pins.resetN then f d else d

end Sys2Proof.Machine
end

