-- ==== Sys2Proof/Machine/MeanAccess.lean ====
section
/-!
DEFINITION. The meanings of the commands of JTAG, register access and the rows added last: each runs the block's
operation of its rule on the state.
-/

namespace Sys2Proof.Machine

/-- JTAG_BYPASS (R556): The JTAG BYPASS instruction. -/
def execJtagBypass (s : State) : Host.Outcome State Fault Refusal :=
  runDev true jtagBypass s

/-- JTAG_IDCODE (R556): The JTAG IDCODE instruction returns the device IDCODE. -/
def execJtagIdcode (s : State) : Host.Outcome State Fault Refusal :=
  runDev true jtagIdcode s

/-- JTAG_SAMPLE_PRELOAD (R556): The JTAG SAMPLE/PRELOAD instruction. -/
def execJtagSamplePreload (v : Boundary) (s : State) : Host.Outcome State Fault Refusal :=
  runDev true (jtagSamplePreload v) s

/-- JTAG_EXTEST (R556): The JTAG EXTEST instruction drives the pins from the boundary register and stops ring-hold
toggling. -/
def execJtagExtest (v : Boundary) (s : State) : Host.Outcome State Fault Refusal :=
  runDev true (jtagExtest v) s

/-- JTAG_CLAMP (R556): The JTAG CLAMP instruction. -/
def execJtagClamp (s : State) : Host.Outcome State Fault Refusal :=
  runDev true jtagClamp s

/-- JTAG_HIGHZ (R556): The JTAG HIGHZ instruction. -/
def execJtagHighz (s : State) : Host.Outcome State Fault Refusal :=
  runDev true jtagHighz s

/-- JTAG_EXTEST_PULSE (R556): The IEEE 1149.6 EXTEST_PULSE instruction. -/
def execJtagExtestPulse (s : State) : Host.Outcome State Fault Refusal :=
  runDev true jtagExtestPulse s

/-- JTAG_EXTEST_TRAIN (R556): The IEEE 1149.6 EXTEST_TRAIN instruction. -/
def execJtagExtestTrain (s : State) : Host.Outcome State Fault Refusal :=
  runDev true jtagExtestTrain s

/-- DBG_ACCESS (R556): The JTAG DBG_ACCESS instruction makes a register-space access while jtag_en is 1. -/
def execDbgAccess (off : Nat) (acc : RegAcc) (s : State) : Host.Outcome State Fault Refusal :=
  runAll (inRegs off) (fun c => dbgClock off acc s.dev c) (fun i => dbgIdent off acc s.dev i) (dbgAccess off acc
    s.clk s.idn) s

/-- REG_PAIR_ACCESS (R12): An access to one register of a 64-bit pair captures or holds the other half for its
requester. -/
def execRegPairAccess (r : Req) (size : Nat) (off : Nat) (acc : RegAcc) (s : State) : Host.Outcome State Fault
    Refusal :=
  runDev (inRegs off) (Dev.live (regPairAccess r size off acc s.clk s.idn)) s

/-- REGISTER_WRITE (R48): A write to a register without a row of its own takes effect at the block's next packet
boundary, or is refused. -/
def execRegisterWrite (r : Req) (size : Nat) (off : Nat) (v : Word) (s : State) : Host.Outcome State Fault Refusal :=
  runAll (inRegs off) (fun c => if s.dev.pins.resetN then sizedClock size off v s.dev c else c) (fun i => if
    s.dev.pins.resetN then sizedIdent r size off v s.dev i else i) (Dev.live (registerWrite r size off v s.clk
    s.idn)) s

/-- DDR_ALERT_N_ASSERTED (R459): A usable channel holds ALERT_N asserted for 1 ms, which raises DRC_CHAN_FAIL and
contains the channel at severity 4. -/
def execDdrAlertNAsserted (ch : Nat) (s : State) : Host.Outcome State Fault Refusal :=
  runDev (isChannel ch) (ddrAlert ch) s

/-- PCIE_COMPLETION_TIMEOUT (R487): A DMA read to host memory receives no completion in time; its descriptor completes
with ADDR, or the group enters the error state for a descriptor or doorbell-block read. -/
def execPcieCompletionTimeout (g : Nat) (use : DmaUse) (s : State) : Host.Outcome State Fault Refusal :=
  runDev (isGroup g) (pcieCompletionTimeout s.clk.count s.clk.sec s.clk.nsec g use) s

/-- TRAINING_STEP_DONE (R441): A DRAM training or retraining step ends; the channel leaves its stopped state, its
trained bit may set, and a latched frequency switch may proceed. -/
def execTrainingStepDone (ch : Nat) (last : Bool) (ok : Bool) (s : State) : Host.Outcome State Fault Refusal :=
  runDev (isChannel ch) (trainingStepDone s.clk.count ch last ok) s

/-- THERMTRIP_N_RELEASE (R573): With RESET_N low, every sensor comes to read below 110 °C and THERMTRIP_N is released. -/
def execThermtripNRelease (s : State) : Host.Outcome State Fault Refusal :=
  runDev true thermtripRelease s

/-- IBI_ACCEPTED (R509): The I3C controller accepts an in-band interrupt, and faults that arrived meanwhile raise one
further interrupt naming the latest. -/
def execIbiAccepted (s : State) : Host.Outcome State Fault Refusal :=
  runDev true ibiAccepted s

/-- UNDEFINED_INSTRUCTION (R89): A Kroval word with an undefined major, or a brush instruction with id 7, issues and
raises cause 0x02. -/
def execUndefinedInstruction (t : Nat) (w : Word) (s : State) : Host.Outcome State Fault Refusal :=
  runDev (isThread t && (Machine.undefinedCause w).isSome) (undefinedCmd t w) s

/-- STENCIL_UNDEFINED_INSTRUCTION (R385): A Stencil instruction with op 0xE, an undefined fn or a non-zero unused field
halts the whole engine. -/
def execStencilUndefinedInstruction (e : Nat) (j : Nat) (w : BitVec 16) (s : State) : Host.Outcome State Fault
    Refusal :=
  runDev (isEngine e && isSlot j && Machine.stnUndefined w) (stnUndef e j w) s

/-- ASSEMBLY_BUFFER_FREE (R390): A closed frame finishes moving from its assembly buffer into the ingress FIFO, and a
slot waiting for an assembly buffer becomes ready. -/
def execAssemblyBufferFree (e : Nat) (j : Nat) (s : State) : Host.Outcome State Fault Refusal :=
  runDev (isEngine e && isSlot j) (assemblyBufferFree e j) s

end Sys2Proof.Machine
end

