-- ==== Sys2Proof/Machine/MeanBrushes.lean ====
section
/-!
DEFINITION. The meanings of the commands of the brush functions: each runs the block's operation of its rule on the
state.
-/

namespace Sys2Proof.Machine

/-- EDPUSH (R207): The Edit push function inserts bytes below hdr_start, or is rejected. -/
def execEdpush (t : Nat) (f : R3) (s : State) : Host.Outcome State Fault Refusal :=
  runDev (isThread t) (brushCmd s.clk.count t 0 0x0 f) s

/-- EDPOP (R207): The Edit pop function removes header bytes, or is rejected. -/
def execEdpop (t : Nat) (f : R3) (s : State) : Host.Outcome State Fault Refusal :=
  runDev (isThread t) (brushCmd s.clk.count t 0 0x1 f) s

/-- EDRW (R207): The Edit rewrite function overwrites header bytes, or is rejected. -/
def execEdrw (t : Nat) (f : R3) (s : State) : Host.Outcome State Fault Refusal :=
  runDev (isThread t) (brushCmd s.clk.count t 0 0x2 f) s

/-- LKUP (R225): lkup sends a search to a lookup engine and returns a token. -/
def execLkup (t : Nat) (f : R3) (s : State) : Host.Outcome State Fault Refusal :=
  runDev (isThread t) (brushCmd s.clk.count t 1 0x0 f) s

/-- LKUPL (R270): lkupl searches a learned-MAC table as a source and may post a learn. -/
def execLkupl (t : Nat) (f : R3) (s : State) : Host.Outcome State Fault Refusal :=
  runDev (isThread t) (brushCmd s.clk.count t 1 0x1 f) s

/-- HCRC (R227): hcrc returns the CRC32C of a source. -/
def execHcrc (t : Nat) (f : R3) (s : State) : Host.Outcome State Fault Refusal :=
  runDev (isThread t) (brushCmd s.clk.count t 2 0x0 f) s

/-- HTPZ (R227): htpz returns the Toeplitz hash of a source. -/
def execHtpz (t : Nat) (f : R3) (s : State) : Host.Outcome State Fault Refusal :=
  runDev (isThread t) (brushCmd s.clk.count t 2 0x1 f) s

/-- HSUM (R227): hsum returns the folded ones'-complement sum of a source. -/
def execHsum (t : Nat) (f : R3) (s : State) : Host.Outcome State Fault Refusal :=
  runDev (isThread t) (brushCmd s.clk.count t 2 0x2 f) s

/-- HSUPD (R227): hsupd updates a checksum by RFC 1624. -/
def execHsupd (t : Nat) (f : R3) (s : State) : Host.Outcome State Fault Refusal :=
  runDev (isThread t) (brushCmd s.clk.count t 2 0x3 f) s

/-- MTR (R228): mtr returns the meter's provisional colour and makes a Meter entry. -/
def execMtr (t : Nat) (f : R3) (s : State) : Host.Outcome State Fault Refusal :=
  runDev (isThread t) (brushCmd s.clk.count t 3 0x0 f) s

/-- CNT (R228): cnt makes a Counter entry. -/
def execCnt (t : Nat) (f : R3) (s : State) : Host.Outcome State Fault Refusal :=
  runDev (isThread t) (brushCmd s.clk.count t 3 0x1 f) s

/-- CENC (R230): cenc starts IEEE 802.1AE protection of the packet and returns a token. -/
def execCenc (t : Nat) (f : R3) (s : State) : Host.Outcome State Fault Refusal :=
  runDev (isThread t) (brushCmd s.clk.count t 4 0x0 f) s

/-- CDEC (R230): cdec starts validation and decryption of the packet and returns a token. -/
def execCdec (t : Nat) (f : R3) (s : State) : Host.Outcome State Fault Refusal :=
  runDev (isThread t) (brushCmd s.clk.count t 4 0x1 f) s

/-- ENQ (R232): enq makes an Enqueue entry for the packet's own handle. -/
def execEnq (t : Nat) (f : R3) (s : State) : Host.Outcome State Fault Refusal :=
  runDev (isThread t) (brushCmd s.clk.count t 5 0x0 f) s

/-- PSHARE (R312): pshare raises the chain head's share count. -/
def execPshare (t : Nat) (f : R3) (s : State) : Host.Outcome State Fault Refusal :=
  runDev (isThread t) (brushCmd s.clk.count t 5 0x10 f) s

/-- PDROP (R312): pdrop drops one share. -/
def execPdrop (t : Nat) (f : R3) (s : State) : Host.Outcome State Fault Refusal :=
  runDev (isThread t) (brushCmd s.clk.count t 5 0x11 f) s

/-- PFREE (R312): pfree frees the chain or parks it while shares remain. -/
def execPfree (t : Nat) (f : R3) (s : State) : Host.Outcome State Fault Refusal :=
  runDev (isThread t) (brushCmd s.clk.count t 5 0x12 f) s

/-- PSWAP (R312): pswap replaces the packet's payload with a new chain. -/
def execPswap (t : Nat) (f : R3) (s : State) : Host.Outcome State Fault Refusal :=
  runDev (isThread t) (brushCmd s.clk.count t 5 0x13 f) s

/-- MOPEN (R234): mopen opens a message on a channel. -/
def execMopen (t : Nat) (f : R3) (s : State) : Host.Outcome State Fault Refusal :=
  runDev (isThread t) (brushCmd s.clk.count t 6 0x0 f) s

/-- MPUT (R234): mput appends words to the open message. -/
def execMput (t : Nat) (f : R3) (s : State) : Host.Outcome State Fault Refusal :=
  runDev (isThread t) (brushCmd s.clk.count t 6 0x1 f) s

/-- MCLOSE (R234): mclose closes the message, as an entry in a transaction. -/
def execMclose (t : Nat) (f : R3) (s : State) : Host.Outcome State Fault Refusal :=
  runDev (isThread t) (brushCmd s.clk.count t 6 0x2 f) s

/-- MRECV (R235): mrecv receives from a channel with a deadline and returns a token. -/
def execMrecv (t : Nat) (f : R3) (s : State) : Host.Outcome State Fault Refusal :=
  runDev (isThread t) (brushCmd s.clk.count t 6 0x3 f) s

/-- MPOST (R236): mpost posts a task record to a cluster's Easel. -/
def execMpost (t : Nat) (f : R3) (s : State) : Host.Outcome State Fault Refusal :=
  runDev (isThread t) (brushCmd s.clk.count t 6 0x4 f) s

/-- BSAVE (R223): bsave writes the brush's per-thread image. -/
def execBsave (t : Nat) (brush : Nat) (f : R3) (s : State) : Host.Outcome State Fault Refusal :=
  runDev (isThread t && isBrush brush) (brushCmd s.clk.count t brush 0x3fe f) s

/-- BREST (R223): brest loads the brush's per-thread image, or rejects it. -/
def execBrest (t : Nat) (brush : Nat) (f : R3) (s : State) : Host.Outcome State Fault Refusal :=
  runDev (isThread t && isBrush brush) (brushCmd s.clk.count t brush 0x3ff f) s

/-- MRECV_DEADLINE (R235): An mrecv deadline passes and it completes with status 1. -/
def execMrecvDeadline (cl : Nat) (token : Nat) (s : State) : Host.Outcome State Fault Refusal :=
  runDev (isCluster cl && isToken token) (mrecvDeadline s.clk.count cl token) s

end Sys2Proof.Machine
end

