-- ==== Sys2Proof/Machine/MeanCommands.lean ====
section
/-!
DEFINITION. The meanings of the commands of the commands of the CMD rings and the control plane: each runs the
block's operation of its rule on the state.
-/

namespace Sys2Proof.Machine

/-- SEARCH (R281): A SEARCH operation finds one entry and writes the response buffer. -/
def execSearch (g : Nat) (x : Dma) (s : State) : Host.Outcome State Fault Refusal :=
  runDev (isGroup g) (searchCmd s.clk.count g x) s

/-- NEXT (R282): A NEXT operation returns the entries of the next non-empty bucket. -/
def execNext (g : Nat) (x : Dma) (s : State) : Host.Outcome State Fault Refusal :=
  runDev (isGroup g) (nextCmd s.clk.count g x) s

/-- INSERT (R279): An INSERT operation is staged and applied as a control-plane transaction. -/
def execInsert (g : Nat) (x : Dma) (s : State) : Host.Outcome State Fault Refusal :=
  runDev (isGroup g) (insertCmd s.clk.count g x) s

/-- MODIFY (R279): A MODIFY operation changes an entry as a control-plane transaction. -/
def execModify (g : Nat) (x : Dma) (s : State) : Host.Outcome State Fault Refusal :=
  runDev (isGroup g) (modifyCmd s.clk.count g x) s

/-- DELETE (R279): A DELETE operation removes an entry as a control-plane transaction. -/
def execDelete (g : Nat) (x : Dma) (s : State) : Host.Outcome State Fault Refusal :=
  runDev (isGroup g) (deleteCmd s.clk.count g x) s

/-- FLUSH_PORT (R284): A FLUSH_PORT operation starts the background flush of a learned-MAC table. -/
def execFlushPort (g : Nat) (x : Dma) (s : State) : Host.Outcome State Fault Refusal :=
  runDev (isGroup g) (flushPortCmd s.clk.count g x) s

/-- ACT_WRITE (R267): An ACT_WRITE operation writes a classifier action list as a control-plane transaction. -/
def execActWrite (g : Nat) (x : Dma) (s : State) : Host.Outcome State Fault Refusal :=
  runDev (isGroup g) (actWriteCmd s.clk.count g x) s

/-- TXN (R184): A TXN command stages a control-plane transaction and takes its position. -/
def execTxn (g : Nat) (x : Dma) (s : State) : Host.Outcome State Fault Refusal :=
  runDev (isGroup g) (txnCmd s.clk.count g x) s

/-- CONTROL_PLANE_APPLY (R186): Once the drain completes, all of the operations take effect as one change. -/
def execControlPlaneApply (s : State) : Host.Outcome State Fault Refusal :=
  runDev true (controlPlaneApply s.clk.count) s

/-- CONTROL_PLANE_RELEASE (R184): The apply ends; holds and pins are lifted and the completion is posted. -/
def execControlPlaneRelease (s : State) : Host.Outcome State Fault Refusal :=
  runDev true controlPlaneRelease s

/-- PORT_REARM (R65): PORT_REARM runs the declared bring-up of a held port once more. -/
def execPortRearm (g : Nat) (s : State) : Host.Outcome State Fault Refusal :=
  runDev (isGroup g) (portRearmCmd s.clk.count g) s

/-- PROFILE_STAGE (R69): PROFILE_STAGE validates a new profile and returns the check code. -/
def execProfileStage (g : Nat) (x : Dma) (flash : List Byte) (s : State) : Host.Outcome State Fault Refusal :=
  runDev (isGroup g) (profileStageCmd s.clk.count g x flash) s

/-- PROFILE_APPLY (R70): PROFILE_APPLY starts applying the differences of the staged profile. -/
def execProfileApply (g : Nat) (s : State) : Host.Outcome State Fault Refusal :=
  runDev (isGroup g) (profileApplyCmd s.clk.count g) s

/-- PROFILE_COMMIT (R71): After the last change, the committed record is written and the profile comes into force,
extending M2. -/
def execProfileCommit (s : State) : Host.Outcome State Fault Refusal :=
  runIdn true (fun i => profileCommitIdent s.dev i) (profileCommitDev s.clk.count) s

/-- MSG_SEND (R233): MSG_SEND appends a message to a channel without a ticket. -/
def execMsgSend (g : Nat) (x : Dma) (s : State) : Host.Outcome State Fault Refusal :=
  runDev (isGroup g) (msgSendCmd s.clk.count g x) s

/-- TASK_POST (R478): TASK_POST posts a record to a cluster's Easel. -/
def execTaskPost (g : Nat) (x : Dma) (s : State) : Host.Outcome State Fault Refusal :=
  runDev (isGroup g) (taskPostCmd s.clk.count g x) s

/-- QUOTE (R505): QUOTE requests a signed quote over a verifier nonce. -/
def execQuote (g : Nat) (x : Dma) (s : State) : Host.Outcome State Fault Refusal :=
  runDev (isGroup g) (quoteCmd s.clk s.idn g x) s

/-- NOP (R478): The NOP command completes with r0 = 0. -/
def execNop (g : Nat) (s : State) : Host.Outcome State Fault Refusal :=
  runDev (isGroup g) (nopCmd g) s

/-- QUOTE_DONE (R505): The quote engine finishes a quote. -/
def execQuoteDone (s : State) : Host.Outcome State Fault Refusal :=
  runDev true (quoteDone s.clk s.idn) s

end Sys2Proof.Machine
end

