-- ==== Sys2Proof/Machine/MeanHostRings.lean ====
section
/-!
DEFINITION. The meanings of the commands of the host rings: each runs the block's operation of its rule on the
state.
-/

namespace Sys2Proof.Machine

/-- KICK (R468): A host write to a group's BAR2 line triggers a read of the doorbell block. -/
def execKick (g : Nat) (acc : Bar4) (s : State) : Host.Outcome State Fault Refusal :=
  runDev (isGroup g) (kick g acc) s

/-- ATELIER_KICK (R466): HST_ATL_KICK kicks group 15. -/
def execAtelierKick (r : Req) (s : State) : Host.Outcome State Fault Refusal :=
  runDev true (Dev.live (fun d => if r = .host then d.refuse r Reg.HST_ATL_KICK else atelierKick d)) s

/-- POLL_TIMER (R469): In poll mode the device reads the doorbell block every poll_us. -/
def execPollTimer (g : Nat) (s : State) : Host.Outcome State Fault Refusal :=
  runDev (isGroup g) (pollTimer s.clk.count g) s

/-- DOORBELL_READ_DONE (R468): The doorbell-block read completes, the indices are validated and fetches begin. -/
def execDoorbellReadDone (g : Nat) (x : Dma) (s : State) : Host.Outcome State Fault Refusal :=
  runDev (isGroup g) (doorbellReadDone s.clk.count g x) s

/-- DESCRIPTOR_FETCH_DONE (R470): Descriptors arrive from host memory. -/
def execDescriptorFetchDone (g : Nat) (ring : FetchRing) (x : Dma) (s : State) : Host.Outcome State Fault Refusal :=
  runDev (isGroup g) (descriptorFetchDone s.clk.count g ring x) s

/-- INJ_PACKET (R472): The data of an INJ packet arrive, are written to packet memory and enter the parser. -/
def execInjPacket (g : Nat) (xs : List Dma) (s : State) : Host.Outcome State Fault Refusal :=
  runDev (isGroup g) (injPacket s.clk.count s.clk.sec s.clk.nsec g xs) s

/-- PUNT_PACKET (R474): A packet dequeued to a host port is written into posted PUNT buffers. -/
def execPuntPacket (g : Nat) (err : Option DmaErr) (s : State) : Host.Outcome State Fault Refusal :=
  runDev (isGroup g) (puntPacket g err) s

/-- DOORBELL_WRITEBACK (R470): The device writes its half of the doorbell block after 16 entries or wb_delay. -/
def execDoorbellWriteback (g : Nat) (s : State) : Host.Outcome State Fault Refusal :=
  runDev (isGroup g) (doorbellWriteback s.clk.count g) s

/-- MSIX_HOLDOFF_EXPIRY (R483): holdoff_us passes and a pending vector is sent. -/
def execMsixHoldoffExpiry (g : Nat) (s : State) : Host.Outcome State Fault Refusal :=
  runDev (isGroup g) (msixHoldoffExpiry s.clk.count g) s

/-- GROUP_ENABLE (R488): Writing HST_GRP enable = 1 starts the group with zeroed indices. -/
def execGroupEnable (r : Req) (g : Nat) (v : Word) (s : State) : Host.Outcome State Fault Refusal :=
  runDev (isGroup g) (Dev.live (groupEnable r g v)) s

/-- GROUP_RESET (R486): Writing HST_GRP reset = 1 stops the group. -/
def execGroupReset (r : Req) (g : Nat) (v : Word) (s : State) : Host.Outcome State Fault Refusal :=
  runDev (isGroup g) (Dev.live (groupReset r g v)) s

/-- GROUP_RESET_DONE (R486): The last running command ends and the group is disabled. -/
def execGroupResetDone (g : Nat) (s : State) : Host.Outcome State Fault Refusal :=
  runDev (isGroup g) (groupResetDone g) s

/-- BAR4_ACCESS (R461): A host access through BAR4 reaches internal memory. -/
def execBar4Access (off : Nat) (acc : Bar4) (s : State) : Host.Outcome State Fault Refusal :=
  runDev (inBar4 off) (bar4Access s.clk.count off acc) s

end Sys2Proof.Machine
end

