-- ==== Sys2Proof/Machine/MeanKroval.lean ====
section
/-!
DEFINITION. The meanings of the commands of the Kroval instructions and their completions: each runs the block's
operation of its rule on the state.
-/

namespace Sys2Proof.Machine

/-- ALU_OP (R86): An ALU-group long operation computes its result and optionally sets the flags. -/
def execAluOp (t : Nat) (f : RFmt) (s : State) : Host.Outcome State Fault Refusal :=
  runDev (isThread t) (aluCmd t f) s

/-- MULTIPLY (R95): mul, mulhu or mulhs writes the product bits and sets N and Z. -/
def execMultiply (t : Nat) (f : RFmt) (s : State) : Host.Outcome State Fault Refusal :=
  runDev (isThread t && decide (f.fn.toNat % 8 < 4)) (mulCmd t f) s

/-- DIVIDE (R93): divu, divs, remu or rems computes its result without trapping, setting V and D. -/
def execDivide (t : Nat) (f : RFmt) (s : State) : Host.Outcome State Fault Refusal :=
  runDev (isThread t && decide (4 ≤ f.fn.toNat % 8)) (divCmd t f) s

/-- ADDI (R85): addi adds a sign-extended immediate without setting the flags. -/
def execAddi (t : Nat) (f : IFmt) (s : State) : Host.Outcome State Fault Refusal :=
  runDev (isThread t) (immCmd t f (fun a => (a + IFmt.sext f, FlagW.keep))) s

/-- ANDI (R85): andi ANDs a zero-extended immediate and sets N and Z. -/
def execAndi (t : Nat) (f : IFmt) (s : State) : Host.Outcome State Fault Refusal :=
  runDev (isThread t) (immCmd t f (fun a => (a &&& IFmt.zext f, flagsNZ (a &&& IFmt.zext f)))) s

/-- ORI (R85): ori ORs a zero-extended immediate. -/
def execOri (t : Nat) (f : IFmt) (s : State) : Host.Outcome State Fault Refusal :=
  runDev (isThread t) (immCmd t f (fun a => (a ||| IFmt.zext f, FlagW.keep))) s

/-- XORI (R85): xori XORs a zero-extended immediate. -/
def execXori (t : Nat) (f : IFmt) (s : State) : Host.Outcome State Fault Refusal :=
  runDev (isThread t) (immCmd t f (fun a => (a ^^^ IFmt.zext f, FlagW.keep))) s

/-- SHIFTI (R85): shifti shifts or rotates by an immediate amount. -/
def execShifti (t : Nat) (f : IFmt) (s : State) : Host.Outcome State Fault Refusal :=
  runDev (isThread t) (shiftiCmd t f) s

/-- CMPI (R85): cmpi compares with a sign-extended immediate and sets NZCV. -/
def execCmpi (t : Nat) (f : IFmt) (s : State) : Host.Outcome State Fault Refusal :=
  runDev (isThread t) (cmpiCmd t f) s

/-- ADDIS (R85): addis adds an immediate and sets NZCV. -/
def execAddis (t : Nat) (f : IFmt) (s : State) : Host.Outcome State Fault Refusal :=
  runDev (isThread t) (immCmd t f (fun a => addW a (IFmt.sext f) false)) s

/-- LUI (R85): lui loads imm20 into the upper bits of rd. -/
def execLui (t : Nat) (rd : BitVec 5) (imm : BitVec 20) (s : State) : Host.Outcome State Fault Refusal :=
  runDev (isThread t) (luiCmd t rd imm) s

/-- BCC (R88): bcc branches on its condition after its delay slot. -/
def execBcc (t : Nat) (b24 : Bool) (cond : BitVec 4) (off : BitVec 20) (slot : Word) (s : State) : Host.Outcome
    State Fault Refusal :=
  runDev (isThread t) (bccCmd t b24 cond off slot) s

/-- CALL (R96): call writes lk and branches after its delay slot. -/
def execCall (t : Nat) (off : BitVec 25) (slot : Word) (s : State) : Host.Outcome State Fault Refusal :=
  runDev (isThread t) (callCmd t off slot) s

/-- JR (R96): jr jumps to ra after its delay slot. -/
def execJr (t : Nat) (f : R3) (slot : Word) (s : State) : Host.Outcome State Fault Refusal :=
  runDev (isThread t) (jumpCmd t f false slot) s

/-- CALLR (R96): callr writes lk and jumps to ra after its delay slot. -/
def execCallr (t : Nat) (f : R3) (slot : Word) (s : State) : Host.Outcome State Fault Refusal :=
  runDev (isThread t) (jumpCmd t f true slot) s

/-- ERET (R114): eret returns from a trap, resuming a delay slot or a repeat as estat indicates. -/
def execEret (t : Nat) (low : BitVec 25) (slot : Word) (s : State) : Host.Outcome State Fault Refusal :=
  runDev (isThread t) (eretCmd t low slot) s

/-- SYS (R85): sys raises cause 0x05 with estat.sys set and etval holding imm15. -/
def execSys (t : Nat) (f : IFmt) (s : State) : Host.Outcome State Fault Refusal :=
  runDev (isThread t) (sysCmd t f) s

/-- BKPT (R112): bkpt raises cause 0x07. -/
def execBkpt (t : Nat) (low : BitVec 25) (s : State) : Host.Outcome State Fault Refusal :=
  runDev (isThread t) (bkptCmd t low) s

/-- LDW (R105): ldw loads a word; it is tracked when it lies in the shared region. -/
def execLdw (t : Nat) (f : IFmt) (s : State) : Host.Outcome State Fault Refusal :=
  runDev (isThread t) (ldwCmd s.clk.count t s.idn f) s

/-- LDH (R85): ldh loads a sign-extended halfword. -/
def execLdh (t : Nat) (f : IFmt) (s : State) : Host.Outcome State Fault Refusal :=
  runDev (isThread t) (ldhCmd s.clk.count t s.idn f) s

/-- LDHU (R85): ldhu loads a zero-extended halfword. -/
def execLdhu (t : Nat) (f : IFmt) (s : State) : Host.Outcome State Fault Refusal :=
  runDev (isThread t) (ldhuCmd s.clk.count t s.idn f) s

/-- LDB (R85): ldb loads a sign-extended byte. -/
def execLdb (t : Nat) (f : IFmt) (s : State) : Host.Outcome State Fault Refusal :=
  runDev (isThread t) (ldbCmd s.clk.count t s.idn f) s

/-- LDBU (R85): ldbu loads a zero-extended byte. -/
def execLdbu (t : Nat) (f : IFmt) (s : State) : Host.Outcome State Fault Refusal :=
  runDev (isThread t) (ldbuCmd s.clk.count t s.idn f) s

/-- STW (R105): stw stores a word, into the write set when it is tracked. -/
def execStw (t : Nat) (f : IFmt) (s : State) : Host.Outcome State Fault Refusal :=
  runAll (isThread t) (fun c => storeClock false t f s.dev c) (fun i => storeIdent false t f s.dev i) (stwCmd t
    s.clk f) s

/-- STH (R85): sth stores a halfword. -/
def execSth (t : Nat) (f : IFmt) (s : State) : Host.Outcome State Fault Refusal :=
  runDev (isThread t) (sthCmd t s.clk f) s

/-- STB (R85): stb stores a byte. -/
def execStb (t : Nat) (f : IFmt) (s : State) : Host.Outcome State Fault Refusal :=
  runDev (isThread t) (stbCmd t s.clk f) s

/-- LDW_POSTINC (R85): ldw+ loads a word and then advances ra. -/
def execLdwPostinc (t : Nat) (f : IFmt) (s : State) : Host.Outcome State Fault Refusal :=
  runDev (isThread t) (ldwPostCmd s.clk.count t s.idn f) s

/-- STW_POSTINC (R85): stw+ stores a word and then advances ra. -/
def execStwPostinc (t : Nat) (f : IFmt) (s : State) : Host.Outcome State Fault Refusal :=
  runAll (isThread t) (fun c => storeClock true t f s.dev c) (fun i => storeIdent true t f s.dev i) (stwPostCmd t
    s.clk f) s

/-- LKACQ (R359): lkacq checks its address and sends an acquire to the lock unit, stalling the thread until rd returns. -/
def execLkacq (t : Nat) (f : RFmt) (s : State) : Host.Outcome State Fault Refusal :=
  runDev (isThread t) (lkacqCmd t f) s

/-- LKREL (R360): lkrel checks its address and sends a release to the lock unit. -/
def execLkrel (t : Nat) (f : RFmt) (s : State) : Host.Outcome State Fault Refusal :=
  runDev (isThread t) (lkrelCmd t f) s

/-- SYNC (R102): sync waits for the thread's earlier loads and write-buffer entries to complete. -/
def execSync (t : Nat) (f : R3) (s : State) : Host.Outcome State Fault Refusal :=
  runDev (isThread t) (syncCmd t f) s

/-- DINVL (R102): dinvl invalidates one D-cache line. -/
def execDinvl (t : Nat) (f : R3) (s : State) : Host.Outcome State Fault Refusal :=
  runDev (isThread t) (dinvlCmd t f) s

/-- DINVA (R102): dinva invalidates the whole D-cache in 256 KCLK cycles. -/
def execDinva (t : Nat) (f : R3) (s : State) : Host.Outcome State Fault Refusal :=
  runDev (isThread t) (dinvaCmd t f) s

/-- IINVL (R102): iinvl invalidates one I-cache line. -/
def execIinvl (t : Nat) (f : R3) (s : State) : Host.Outcome State Fault Refusal :=
  runDev (isThread t) (iinvlCmd t f) s

/-- IINVA (R102): iinva invalidates the whole I-cache. -/
def execIinva (t : Nat) (f : R3) (s : State) : Host.Outcome State Fault Refusal :=
  runDev (isThread t) (iinvaCmd t f) s

/-- L2INVL (R102): l2invl invalidates one Atelier L2 line without write-back. -/
def execL2invl (t : Nat) (f : R3) (s : State) : Host.Outcome State Fault Refusal :=
  runDev (isThread t) (l2invlCmd t f) s

/-- L2CLNL (R102): l2clnl writes back one Atelier L2 line. -/
def execL2clnl (t : Nat) (f : R3) (s : State) : Host.Outcome State Fault Refusal :=
  runDev (isThread t) (l2clnlCmd t f) s

/-- L2FLUSH (R102): l2flush writes back and invalidates the whole Atelier L2. -/
def execL2flush (t : Nat) (f : R3) (s : State) : Host.Outcome State Fault Refusal :=
  runDev (isThread t) (l2flushCmd t f) s

/-- THSET (R109): t0 writes a register of a stopped master-managed thread. -/
def execThset (t : Nat) (f : RFmt) (s : State) : Host.Outcome State Fault Refusal :=
  runDev (isThread t) (thsetCmd t f) s

/-- THGET (R109): t0 reads a register of a stopped master-managed thread. -/
def execThget (t : Nat) (f : RFmt) (s : State) : Host.Outcome State Fault Refusal :=
  runDev (isThread t) (thgetCmd t f) s

/-- THGO (R109): t0 releases a stopped master-managed thread at its pc. -/
def execThgo (t : Nat) (f : RFmt) (s : State) : Host.Outcome State Fault Refusal :=
  runDev (isThread t) (thgoCmd t f) s

/-- WT (R110): wt sets a deadline and waits for it or for a lock-release or message event. -/
def execWt (t : Nat) (f : RFmt) (s : State) : Host.Outcome State Fault Refusal :=
  runDev (isThread t) (wtCmd s.clk.count t f) s

/-- MFS (R82): mfs reads a special register. -/
def execMfs (t : Nat) (f : RFmt) (s : State) : Host.Outcome State Fault Refusal :=
  runDev (isThread t) (mfsCmd s.clk.count t f) s

/-- MTS (R82): mts writes a special register. -/
def execMts (t : Nat) (f : RFmt) (s : State) : Host.Outcome State Fault Refusal :=
  runDev (isThread t) (mtsCmd t f) s

/-- TCONT (R127): tcont ends the task, leaving a continuation record in the Easel. -/
def execTcont (t : Nat) (f : RFmt) (s : State) : Host.Outcome State Fault Refusal :=
  runDev (isThread t) (tcontCmd t f) s

/-- VCOMMIT (R159): vcommit ends the task and requests the commit of its transaction once confirmations and the monitor
window are done. -/
def execVcommit (t : Nat) (low : BitVec 25) (s : State) : Host.Outcome State Fault Refusal :=
  runDev (isThread t) (vcommitCmd t low) s

/-- VABORT (R168): vabort aborts a speculative transaction with cause 0x9, or voids an irrevocable one. -/
def execVabort (t : Nat) (low : BitVec 25) (s : State) : Host.Outcome State Fault Refusal :=
  runDev (isThread t) (vabortCmd t low) s

/-- TEND (R148): tend ends a task that carries no transaction. -/
def execTend (t : Nat) (low : BitVec 25) (s : State) : Host.Outcome State Fault Refusal :=
  runDev (isThread t) (tendCmd t low) s

/-- TLBINV_ALL (R122): tlbinv fn 0 invalidates every TLB entry. -/
def execTlbinvAll (t : Nat) (f : R3) (s : State) : Host.Outcome State Fault Refusal :=
  runDev (isThread t) (tlbinvAll t f) s

/-- TLBINV_PAGE (R122): tlbinv fn 1 invalidates the page of ra in every ASID. -/
def execTlbinvPage (t : Nat) (f : R3) (s : State) : Host.Outcome State Fault Refusal :=
  runDev (isThread t) (tlbinvPage t f) s

/-- TLBINV_ASID (R122): tlbinv fn 2 invalidates the non-global entries of one ASID. -/
def execTlbinvAsid (t : Nat) (f : R3) (s : State) : Host.Outcome State Fault Refusal :=
  runDev (isThread t) (tlbinvAsid t f) s

/-- TLBINV_PAGE_ASID (R122): tlbinv fn 3 invalidates the page of ra in the current ASID. -/
def execTlbinvPageAsid (t : Nat) (f : R3) (s : State) : Host.Outcome State Fault Refusal :=
  runDev (isThread t) (tlbinvPageAsid t f) s

/-- SHORT_PAIR (R80): A P = 1 word executes two short operations that read at its start and write at its end. -/
def execShortPair (t : Nat) (pair : BitVec 31) (s : State) : Host.Outcome State Fault Refusal :=
  runDev (isThread t && !Machine.hasRep (Machine.pairWord pair)) (pairCmd t pair) s

/-- REP (R99): rep latches lc and executes the next word that many times. -/
def execRep (t : Nat) (pair : BitVec 31) (next : Word) (s : State) : Host.Outcome State Fault Refusal :=
  runDev (isThread t && Machine.hasRep (Machine.pairWord pair)) (repCmd t pair next) s

/-- ACCESS_CHECK_COMPLETE (R219): A word's access check completes 2 or 4 KCLK cycles after issue, trapping or confirming
younger brush instructions. -/
def execAccessCheckComplete (t : Nat) (s : State) : Host.Outcome State Fault Refusal :=
  runDev (isThread t) (accessCheckComplete s.clk.count t) s

/-- LOAD_DATA_RETURN (R73): Load data return to the thread; a poisoned DRAM read traps with cause 0x04. -/
def execLoadDataReturn (t : Nat) (s : State) : Host.Outcome State Fault Refusal :=
  runDev (isThread t) (loadDataReturn t) s

/-- ICACHE_FILL_DONE (R74): An I-cache fill completes and the thread becomes ready. -/
def execIcacheFillDone (t : Nat) (s : State) : Host.Outcome State Fault Refusal :=
  runDev (isThread t) (icacheFillDone s.clk.count t) s

/-- ATELIER_INTERRUPT (R123): An enabled Atelier interrupt is taken at a word boundary at tvb + 0x400. -/
def execAtelierInterrupt (k : Nat) (line : Nat) (s : State) : Host.Outcome State Fault Refusal :=
  runDev (isAtlCore k && isIntLine line) (atelierInterrupt k line) s

/-- ATELIER_TIMER (R502): The nanosecond counter reaches ATL_TIMER[core] and raises interrupt line 4. -/
def execAtelierTimer (k : Nat) (s : State) : Host.Outcome State Fault Refusal :=
  runDev (isAtlCore k) (atelierTimer s.clk.count k) s

/-- WAIT_DEADLINE (R110): A wt deadline is reached and the wait ends with rd = 0. -/
def execWaitDeadline (t : Nat) (s : State) : Host.Outcome State Fault Refusal :=
  runDev (isThread t) (waitDeadline s.clk.count t) s

end Sys2Proof.Machine
end

