-- ==== Sys2Proof/Machine/MeanLanes.lean ====
section
/-!
DEFINITION. The meanings of the commands of the Stencil engines and ring hold: each runs the block's operation of
its rule on the state.
-/

namespace Sys2Proof.Machine

/-- SYMBOL_RECEIVE (R379): A lane codec decodes a symbol into the slot's receive FIFO. -/
def execSymbolReceive (l : Nat) (cs : List Cell) (s : State) : Host.Outcome State Fault Refusal :=
  runDev (isStnLane l) (symbolReceive s.clk.count s.clk.sec s.clk.nsec l cs) s

/-- SYMBOL_TRANSMIT (R381): The codec takes a symbol from the transmit FIFO, or sends idle. -/
def execSymbolTransmit (l : Nat) (s : State) : Host.Outcome State Fault Refusal :=
  runDev (isStnLane l) (symbolTransmit s.clk.count s.clk.sec s.clk.nsec l) s

/-- STN_ALU (R383): A Stencil ALU-group instruction computes on 16 bits. -/
def execStnAlu (e : Nat) (j : Nat) (f : SFmt) (s : State) : Host.Outcome State Fault Refusal :=
  runDev (isEngine e && isSlot j) (stnAlu e j f) s

/-- STN_JR (R383): Stencil jr jumps to rs. -/
def execStnJr (e : Nat) (j : Nat) (rd : BitVec 4) (rs : BitVec 4) (s : State) : Host.Outcome State Fault Refusal :=
  runDev (isEngine e && isSlot j) (stnJr e j rd rs) s

/-- STN_ADDI (R383): Stencil addi adds an immediate. -/
def execStnAddi (e : Nat) (j : Nat) (rd : BitVec 4) (imm : BitVec 8) (s : State) : Host.Outcome State Fault Refusal :=
  runDev (isEngine e && isSlot j) (stnAddi e j rd imm) s

/-- STN_MOVI (R383): Stencil movi loads an immediate. -/
def execStnMovi (e : Nat) (j : Nat) (rd : BitVec 4) (imm : BitVec 8) (s : State) : Host.Outcome State Fault Refusal :=
  runDev (isEngine e && isSlot j) (stnMovi e j rd imm) s

/-- STN_MOVH (R383): Stencil movh sets rd[15:8]. -/
def execStnMovh (e : Nat) (j : Nat) (rd : BitVec 4) (imm : BitVec 8) (s : State) : Host.Outcome State Fault Refusal :=
  runDev (isEngine e && isSlot j) (stnMovh e j rd imm) s

/-- STN_CMPI (R383): Stencil cmpi compares with an immediate. -/
def execStnCmpi (e : Nat) (j : Nat) (rd : BitVec 4) (imm : BitVec 8) (s : State) : Host.Outcome State Fault Refusal :=
  runDev (isEngine e && isSlot j) (stnCmpi e j rd imm) s

/-- STN_LD (R384): Stencil ld loads from data memory with a visible delay. -/
def execStnLd (e : Nat) (j : Nat) (f : SFmt) (s : State) : Host.Outcome State Fault Refusal :=
  runDev (isEngine e && isSlot j) (stnLd e j f) s

/-- STN_ST (R383): Stencil st stores to data memory. -/
def execStnSt (e : Nat) (j : Nat) (f : SFmt) (s : State) : Host.Outcome State Fault Refusal :=
  runDev (isEngine e && isSlot j) (stnSt e j f) s

/-- STN_BCC (R383): Stencil bcc branches on a condition. -/
def execStnBcc (e : Nat) (j : Nat) (cond : BitVec 4) (off : BitVec 8) (s : State) : Host.Outcome State Fault
    Refusal :=
  runDev (isEngine e && isSlot j) (stnBcc e j cond off) s

/-- STN_JMP (R383): Stencil jmp jumps. -/
def execStnJmp (e : Nat) (j : Nat) (off : BitVec 12) (s : State) : Host.Outcome State Fault Refusal :=
  runDev (isEngine e && isSlot j) (stnJmp e j off) s

/-- STN_CALL (R383): Stencil call writes s15 and jumps. -/
def execStnCall (e : Nat) (j : Nat) (off : BitVec 12) (s : State) : Host.Outcome State Fault Refusal :=
  runDev (isEngine e && isSlot j) (stnCall e j off) s

/-- RX (R386): rx waits for and takes the next received symbol. -/
def execRx (e : Nat) (j : Nat) (rd : BitVec 4) (rs : BitVec 4) (s : State) : Host.Outcome State Fault Refusal :=
  runDev (isEngine e && isSlot j) (stnRx s.clk.sec s.clk.nsec e j rd rs) s

/-- TX (R386): tx waits for room and queues a symbol. -/
def execTx (e : Nat) (j : Nat) (rd : BitVec 4) (rs : BitVec 4) (s : State) : Host.Outcome State Fault Refusal :=
  runDev (isEngine e && isSlot j) (stnTx e j rd rs) s

/-- RXRUN (R386): rxrun appends clean data symbols to the open frame at line speed. -/
def execRxrun (e : Nat) (j : Nat) (rd : BitVec 4) (rs : BitVec 4) (s : State) : Host.Outcome State Fault Refusal :=
  runDev (isEngine e && isSlot j) (stnRxrun s.clk.sec s.clk.nsec e j rd rs) s

/-- RXRUN_STOP (R386): An event or errored symbol stops rxrun and goes to rd. -/
def execRxrunStop (e : Nat) (j : Nat) (s : State) : Host.Outcome State Fault Refusal :=
  runDev (isEngine e && isSlot j) (rxrunStop s.clk.sec s.clk.nsec e j) s

/-- TXRUN (R386): txrun sends the rest of the staged frame with framing and CRC. -/
def execTxrun (e : Nat) (j : Nat) (rd : BitVec 4) (rs : BitVec 4) (s : State) : Host.Outcome State Fault Refusal :=
  runDev (isEngine e && isSlot j) (stnTxrun e j rd rs) s

/-- TXRUN_DONE (R392): txrun ends when the frame is sent, or ends with underrun when staging empties. -/
def execTxrunDone (e : Nat) (j : Nat) (s : State) : Host.Outcome State Fault Refusal :=
  runDev (isEngine e && isSlot j) (txrunDone s.clk.count s.clk.sec s.clk.nsec e j) s

/-- FPUT (R386): fput appends a byte to the open frame. -/
def execFput (e : Nat) (j : Nat) (rd : BitVec 4) (rs : BitVec 4) (s : State) : Host.Outcome State Fault Refusal :=
  runDev (isEngine e && isSlot j) (stnFput s.clk.sec s.clk.nsec e j rd rs) s

/-- FEND (R390): fend closes the frame with the encapsulation header and hands it to the ingress cell writer. -/
def execFend (e : Nat) (j : Nat) (rd : BitVec 4) (rs : BitVec 4) (s : State) : Host.Outcome State Fault Refusal :=
  runDev (isEngine e && isSlot j) (stnFend e j rd rs) s

/-- FDROP (R386): fdrop discards the open frame. -/
def execFdrop (e : Nat) (j : Nat) (rd : BitVec 4) (rs : BitVec 4) (s : State) : Host.Outcome State Fault Refusal :=
  runDev (isEngine e && isSlot j) (stnFdrop e j rd rs) s

/-- FOPEN (R386): fopen opens a frame with a timestamp. -/
def execFopen (e : Nat) (j : Nat) (rd : BitVec 4) (rs : BitVec 4) (s : State) : Host.Outcome State Fault Refusal :=
  runDev (isEngine e && isSlot j) (stnFopen s.clk.sec s.clk.nsec e j rd rs) s

/-- TXNEXT (R391): txnext waits for a staged frame and returns its length. -/
def execTxnext (e : Nat) (j : Nat) (rd : BitVec 4) (rs : BitVec 4) (s : State) : Host.Outcome State Fault Refusal :=
  runDev (isEngine e && isSlot j) (stnTxnext e j rd rs) s

/-- TXNEXT_READY (R391): The egress reader stages enough of a frame for txnext to return. -/
def execTxnextReady (e : Nat) (j : Nat) (s : State) : Host.Outcome State Fault Refusal :=
  runDev (isEngine e && isSlot j) (txnextReady e j) s

/-- TXGET (R386): txget returns the next staged byte. -/
def execTxget (e : Nat) (j : Nat) (rd : BitVec 4) (rs : BitVec 4) (s : State) : Host.Outcome State Fault Refusal :=
  runDev (isEngine e && isSlot j) (stnTxget e j rd rs) s

/-- DRIVE (R386): drive enables or disables the line driver. -/
def execDrive (e : Nat) (j : Nat) (rd : BitVec 4) (rs : BitVec 4) (s : State) : Host.Outcome State Fault Refusal :=
  runDev (isEngine e && isSlot j) (stnDrive e j rd rs) s

/-- TXUSR (R386): txusr returns the staged frame's user byte. -/
def execTxusr (e : Nat) (j : Nat) (rd : BitVec 4) (rs : BitVec 4) (s : State) : Host.Outcome State Fault Refusal :=
  runDev (isEngine e && isSlot j) (stnTxusr e j rd rs) s

/-- PAR (R386): par returns a halfword of the lane's LINEPARAM. -/
def execPar (e : Nat) (j : Nat) (rd : BitVec 4) (rs : BitVec 4) (s : State) : Host.Outcome State Fault Refusal :=
  runDev (isEngine e && isSlot j) (stnPar e j rd rs) s

/-- CINIT (R387): cinit selects and initialises the slot CRC. -/
def execCinit (e : Nat) (j : Nat) (rd : BitVec 4) (rs : BitVec 4) (s : State) : Host.Outcome State Fault Refusal :=
  runDev (isEngine e && isSlot j) (stnCinit e j rd rs) s

/-- CUPD (R387): cupd folds a byte into the CRC. -/
def execCupd (e : Nat) (j : Nat) (rd : BitVec 4) (rs : BitVec 4) (s : State) : Host.Outcome State Fault Refusal :=
  runDev (isEngine e && isSlot j) (stnCupd e j rd rs) s

/-- CRDL (R387): crdl reads the CRC's low half. -/
def execCrdl (e : Nat) (j : Nat) (rd : BitVec 4) (rs : BitVec 4) (s : State) : Host.Outcome State Fault Refusal :=
  runDev (isEngine e && isSlot j) (stnCrdl e j rd rs) s

/-- CRDH (R387): crdh reads the CRC's high half. -/
def execCrdh (e : Nat) (j : Nat) (rd : BitVec 4) (rs : BitVec 4) (s : State) : Host.Outcome State Fault Refusal :=
  runDev (isEngine e && isSlot j) (stnCrdh e j rd rs) s

/-- NOW (R388): now reads bits [15:0] of the nanosecond counter and captures [31:16]. -/
def execNow (e : Nat) (j : Nat) (rd : BitVec 4) (rs : BitVec 4) (s : State) : Host.Outcome State Fault Refusal :=
  runDev (isEngine e && isSlot j) (stnNow s.clk.count e j rd rs) s

/-- NOWH (R388): nowh returns the captured bits [31:16]. -/
def execNowh (e : Nat) (j : Nat) (rd : BitVec 4) (rs : BitVec 4) (s : State) : Host.Outcome State Fault Refusal :=
  runDev (isEngine e && isSlot j) (stnNowh e j rd rs) s

/-- WAITC (R388): waitc waits rd SCLK cycles. -/
def execWaitc (e : Nat) (j : Nat) (rd : BitVec 4) (rs : BitVec 4) (s : State) : Host.Outcome State Fault Refusal :=
  runDev (isEngine e && isSlot j) (stnWaitc s.clk.count e j rd rs) s

/-- WAITC_EXPIRY (R388): A waitc count expires and the slot becomes ready. -/
def execWaitcExpiry (e : Nat) (j : Nat) (s : State) : Host.Outcome State Fault Refusal :=
  runDev (isEngine e && isSlot j) (waitcExpiry s.clk.count e j) s

/-- WAITT (R388): waitt waits until a nanosecond deadline. -/
def execWaitt (e : Nat) (j : Nat) (rd : BitVec 4) (rs : BitVec 4) (s : State) : Host.Outcome State Fault Refusal :=
  runDev (isEngine e && isSlot j) (stnWaitt s.clk.count e j rd rs) s

/-- WAITT_EXPIRY (R388): A waitt deadline is reached and the slot becomes ready. -/
def execWaittExpiry (e : Nat) (j : Nat) (s : State) : Host.Outcome State Fault Refusal :=
  runDev (isEngine e && isSlot j) (waittExpiry s.clk.count e j) s

/-- PPS (R389): pps drives TIME_PPS_OUT when this engine owns it, or records CFG_CONFLICT. -/
def execPps (e : Nat) (j : Nat) (rd : BitVec 4) (rs : BitVec 4) (s : State) : Host.Outcome State Fault Refusal :=
  runDev (isEngine e && isSlot j) (stnPps e j rd rs) s

/-- HBKICK (R394): hbkick arms the heartbeat for 4,096 SCLK cycles. -/
def execHbkick (e : Nat) (j : Nat) (rd : BitVec 4) (rs : BitVec 4) (s : State) : Host.Outcome State Fault Refusal :=
  runDev (isEngine e && isSlot j) (stnHbkick s.clk.count e j rd rs) s

/-- HBSTAT (R389): hbstat reads the heartbeat status. -/
def execHbstat (e : Nat) (j : Nat) (rd : BitVec 4) (rs : BitVec 4) (s : State) : Host.Outcome State Fault Refusal :=
  runDev (isEngine e && isSlot j) (stnHbstat e j rd rs) s

/-- STN_NOP (R383): The Stencil nop does nothing. -/
def execStnNop (e : Nat) (j : Nat) (rd : BitVec 4) (rs : BitVec 4) (s : State) : Host.Outcome State Fault Refusal :=
  runDev (isEngine e && isSlot j) (stnNop e j rd rs) s

/-- STN_HALT (R385): Stencil halt stops the engine. -/
def execStnHalt (e : Nat) (j : Nat) (rd : BitVec 4) (rs : BitVec 4) (s : State) : Host.Outcome State Fault Refusal :=
  runDev (isEngine e && isSlot j) (stnHalt e j rd rs) s

/-- BRK (R555): brk halts the slot when debug routes it, and otherwise the engine. -/
def execBrk (e : Nat) (j : Nat) (rd : BitVec 4) (rs : BitVec 4) (s : State) : Host.Outcome State Fault Refusal :=
  runDev (isEngine e && isSlot j) (stnBrk e j rd rs) s

/-- HEARTBEAT_TOGGLE (R394): After half_period SCLK cycles an armed heartbeat toggles its RING_HOLD pin. -/
def execHeartbeatToggle (hb : Nat) (s : State) : Host.Outcome State Fault Refusal :=
  runDev (isRing hb) (heartbeatToggle s.clk.count hb) s

/-- HEARTBEAT_LAPSE (R394): The arming lapses and toggling stops. -/
def execHeartbeatLapse (hb : Nat) (s : State) : Host.Outcome State Fault Refusal :=
  runDev (isRing hb) (heartbeatLapse s.clk.count hb) s

/-- RING_INSERT_DELAY_END (R423): insert_delay ends, toggling begins and the pair enters settling. -/
def execRingInsertDelayEnd (hb : Nat) (s : State) : Host.Outcome State Fault Refusal :=
  runDev (isRing hb) (ringInsertDelayEnd s.clk.count hb) s

/-- RING_SETTLE_END (R423): settle_us ends and the pair is inserted. -/
def execRingSettleEnd (hb : Nat) (s : State) : Host.Outcome State Fault Refusal :=
  runDev (isRing hb) (ringSettleEnd s.clk.count hb) s

/-- STN_ENG_RUN (R397): Writing STN_ENG run = 1 starts each used slot at its entry. -/
def execStnEngRun (e : Nat) (s : State) : Host.Outcome State Fault Refusal :=
  runDev (isEngine e) (Dev.live (stnEngRun e)) s

/-- STN_ENG_STOP (R397): Writing STN_ENG run = 0 stops the engine and holds its lanes down. -/
def execStnEngStop (e : Nat) (s : State) : Host.Outcome State Fault Refusal :=
  runDev (isEngine e) (Dev.live (stnEngStop e)) s

end Sys2Proof.Machine
end

