-- ==== Sys2Proof/Machine/MeanLockUnit.lean ====
section
/-!
DEFINITION. The meanings of the commands of locks and semaphores: each runs the block's operation of its rule on the
state.
-/

namespace Sys2Proof.Machine

/-- LOCK_ACQUIRE (R359): An acquire reaches the lock unit, which grants it or queues it. -/
def execLockAcquire (s : State) : Host.Outcome State Fault Refusal :=
  runDev true (lockAcquireStep s.clk.count) s

/-- LOCK_RELEASE (R360): A release reaches the lock unit and frees the lock or hands it on. -/
def execLockRelease (s : State) : Host.Outcome State Fault Refusal :=
  runDev true lockRelease s

/-- LOCK_WAIT_TIMEOUT (R364): A waiting acquire reaches wait_limit and ends with code 2. -/
def execLockWaitTimeout (t : Nat) (s : State) : Host.Outcome State Fault Refusal :=
  runDev (isThread t) (fun d => d.lockTimeout s.clk.count t) s

/-- SEMAPHORE_ACQUIRE (R369): A read of semaphore offset 0x00 tries to acquire it without waiting. -/
def execSemaphoreAcquire (t : Nat) (sem : Nat) (s : State) : Host.Outcome State Fault Refusal :=
  runDev (isThread t && isSem sem) (semaphoreAcquire t sem) s

/-- SEMAPHORE_STATUS (R369): A read of semaphore offset 0x04 returns its status. -/
def execSemaphoreStatus (t : Nat) (sem : Nat) (s : State) : Host.Outcome State Fault Refusal :=
  runDev (isThread t && isSem sem) (semaphoreStatus t sem) s

/-- SEMAPHORE_RELEASE (R369): A write to semaphore offset 0x04 releases it. -/
def execSemaphoreRelease (s : State) : Host.Outcome State Fault Refusal :=
  runDev true semaphoreRelease s

/-- LOCK_PROBE (R371): A write to LKU_PROBE_ADDR_HI samples a lock into LKU_PROBE_STATUS. -/
def execLockProbe (hi : Word) (s : State) : Host.Outcome State Fault Refusal :=
  runDev true (Dev.live (lockProbe hi)) s

end Sys2Proof.Machine
end

