-- ==== Sys2Proof/Machine/MeanManagement.lean ====
section
/-!
DEFINITION. The meanings of the commands of GMP, I3C and Atelier management: each runs the block's operation of its
rule on the state.
-/

namespace Sys2Proof.Machine

/-- IDENTITY (R507): GMP IDENTITY returns the fused identity and the run state. -/
def execIdentity (a : BitVec 7) (p : List Byte) (crc : Byte) (s : State) : Host.Outcome State Fault Refusal :=
  runDev true (gmpIdentity s.idn a p crc) s

/-- FAULT_READ (R544): GMP FAULT_READ returns the first-fault record. -/
def execFaultRead (a : BitVec 7) (p : List Byte) (crc : Byte) (s : State) : Host.Outcome State Fault Refusal :=
  runDev true (gmpFaultRead a p crc) s

/-- FAULT_CLEAR (R544): GMP FAULT_CLEAR clears the first-fault record. -/
def execFaultClear (a : BitVec 7) (p : List Byte) (crc : Byte) (s : State) : Host.Outcome State Fault Refusal :=
  runDev true (gmpFaultClear a p crc) s

/-- POWER_STATE (R533): GMP POWER_STATE returns the rail status, power and the hottest junction. -/
def execPowerState (a : BitVec 7) (p : List Byte) (crc : Byte) (s : State) : Host.Outcome State Fault Refusal :=
  runDev true (gmpPowerState s.clk.count a p crc) s

/-- POWER_SET (R533): GMP POWER_SET sets or removes the low-power cap. -/
def execPowerSet (a : BitVec 7) (p : List Byte) (crc : Byte) (s : State) : Host.Outcome State Fault Refusal :=
  runDev true (gmpPowerSet a p crc) s

/-- RING_STATUS (R507): GMP RING_STATUS returns the ring and heartbeat states. -/
def execRingStatus (a : BitVec 7) (p : List Byte) (crc : Byte) (s : State) : Host.Outcome State Fault Refusal :=
  runDev true (gmpRingStatus a p crc) s

/-- SUBUNIT_RESET (R508): GMP SUBUNIT_RESET resets the Atelier, a Stencil engine, the host interface or the device. -/
def execSubunitReset (a : BitVec 7) (p : List Byte) (crc : Byte) (s : State) : Host.Outcome State Fault Refusal :=
  runAll true (fun c => if s.dev.subunitAll a p crc then Clock.reset else c) (fun i => if s.dev.subunitAll a p crc
    then Ident.cleared i else i) (gmpSubunitReset a p crc) s

/-- QUOTE_START (R505): GMP QUOTE_START starts a quote. -/
def execQuoteStart (a : BitVec 7) (p : List Byte) (crc : Byte) (s : State) : Host.Outcome State Fault Refusal :=
  runDev true (gmpQuoteStart s.clk s.idn a p crc) s

/-- QUOTE_READ (R505): GMP QUOTE_READ returns 32 bytes of the quote. -/
def execQuoteRead (a : BitVec 7) (p : List Byte) (crc : Byte) (s : State) : Host.Outcome State Fault Refusal :=
  runDev true (gmpQuoteRead a p crc) s

/-- CERT_READ (R491): GMP CERT_READ returns 32 bytes of the certificate. -/
def execCertRead (a : BitVec 7) (p : List Byte) (crc : Byte) (s : State) : Host.Outcome State Fault Refusal :=
  runDev true (gmpCertRead s.idn a p crc) s

/-- REG_READ (R508): GMP REG_READ returns a register. -/
def execRegRead (a : BitVec 7) (p : List Byte) (crc : Byte) (s : State) : Host.Outcome State Fault Refusal :=
  runDev true (gmpRegRead s.clk s.idn a p crc) s

/-- ENTDAA (R506): I3C ENTDAA assigns a dynamic address. -/
def execEntdaa (a : BitVec 7) (s : State) : Host.Outcome State Fault Refusal :=
  runDev true (i3cEntdaa a) s

/-- SETDASA (R506): I3C SETDASA assigns a dynamic address from the static one. -/
def execSetdasa (static : BitVec 7) (a : BitVec 7) (s : State) : Host.Outcome State Fault Refusal :=
  runDev true (i3cSetdasa static a) s

/-- RSTDAA (R506): I3C RSTDAA resets the dynamic address. -/
def execRstdaa (s : State) : Host.Outcome State Fault Refusal :=
  runDev true i3cRstdaa s

/-- ENEC (R506): I3C ENEC enables in-band interrupts. -/
def execEnec (s : State) : Host.Outcome State Fault Refusal :=
  runDev true i3cEnec s

/-- DISEC (R506): I3C DISEC disables in-band interrupts. -/
def execDisec (s : State) : Host.Outcome State Fault Refusal :=
  runDev true i3cDisec s

/-- GETPID (R506): I3C GETPID returns the provisional ID. -/
def execGetpid (s : State) : Host.Outcome State Fault Refusal :=
  runDev true i3cGetpid s

/-- GETBCR (R506): I3C GETBCR returns the BCR. -/
def execGetbcr (s : State) : Host.Outcome State Fault Refusal :=
  runDev true i3cGetbcr s

/-- GETDCR (R506): I3C GETDCR returns the DCR. -/
def execGetdcr (s : State) : Host.Outcome State Fault Refusal :=
  runDev true i3cGetdcr s

/-- GETSTATUS (R506): I3C GETSTATUS returns the status. -/
def execGetstatus (s : State) : Host.Outcome State Fault Refusal :=
  runDev true i3cGetstatus s

/-- SETMWL (R506): I3C SETMWL sets the maximum write length. -/
def execSetmwl (n : BitVec 16) (s : State) : Host.Outcome State Fault Refusal :=
  runDev true (i3cSetmwl n) s

/-- SETMRL (R506): I3C SETMRL sets the maximum read length. -/
def execSetmrl (n : BitVec 16) (s : State) : Host.Outcome State Fault Refusal :=
  runDev true (i3cSetmrl n) s

/-- GETMWL (R506): I3C GETMWL returns the maximum write length. -/
def execGetmwl (s : State) : Host.Outcome State Fault Refusal :=
  runDev true i3cGetmwl s

/-- GETMRL (R506): I3C GETMRL returns the maximum read length. -/
def execGetmrl (s : State) : Host.Outcome State Fault Refusal :=
  runDev true i3cGetmrl s

/-- RSTACT (R506): I3C RSTACT sets the target reset action. -/
def execRstact (a : BitVec 8) (s : State) : Host.Outcome State Fault Refusal :=
  runDev true (i3cRstact a) s

/-- ATL_CORE_START (R501): An ATL_CORE_CTL write starts Atelier cores 1–3 at their start addresses. -/
def execAtlCoreStart (r : Req) (mask : BitVec 3) (s : State) : Host.Outcome State Fault Refusal :=
  runDev true (Dev.live (atlCoreStart r mask)) s

/-- ATL_RUN_GO (R501): ATL_RUN.go moves GLB_RUN_STATE to 0x3, or is ignored when a precondition fails. -/
def execAtlRunGo (r : Req) (s : State) : Host.Outcome State Fault Refusal :=
  runDev true (Dev.live (atlRunGo r)) s

/-- MEASUREMENT_EXTEND (R503): ATL_MEAS.extend extends M3 with the digest in ATL_MEAS_DATA. -/
def execMeasurementExtend (r : Req) (s : State) : Host.Outcome State Fault Refusal :=
  runIdn true (fun i => if s.dev.pins.resetN then measExtendIdent r s.dev i else i) (Dev.live (measExtendDev r)) s

/-- ATL_IPI (R502): An ATL_IPI write raises interrupt line 5 on the named cores. -/
def execAtlIpi (r : Req) (mask : BitVec 4) (s : State) : Host.Outcome State Fault Refusal :=
  runDev true (Dev.live (atlIpi r mask)) s

end Sys2Proof.Machine
end

