-- ==== Sys2Proof/Machine/MeanMemory.lean ====
section
/-!
DEFINITION. The meanings of the commands of DRAM and the table cache: each runs the block's operation of its rule on
the state.
-/

namespace Sys2Proof.Machine

/-- DRAM_BRINGUP (R428): Writing DRC_CTL.enable = 1 starts the SPD check and training of timing set A. -/
def execDramBringup (r : Req) (s : State) : Host.Outcome State Fault Refusal :=
  runDev true (Dev.live (dramBringup r)) s

/-- DRAM_BRINGUP_DONE (R428): Bring-up ends, the mapping is fixed and DRC_STATUS.ready is set. -/
def execDramBringupDone (spd : List Spd) (trained : BitVec 8) (s : State) : Host.Outcome State Fault Refusal :=
  runDev true (dramBringupDone spd trained) s

/-- DRAM_COMMAND_ISSUE (R436): In a command slot the scheduler issues a command by class and age. -/
def execDramCommandIssue (ch : Nat) (sub : Nat) (s : State) : Host.Outcome State Fault Refusal :=
  runDev (isChannel ch && isSub sub) (dramCommandIssue s.clk.count ch sub) s

/-- DRAM_READ_RETURN (R432): A read burst returns and is judged: clean, corrected, retried, recovered or poisoned. -/
def execDramReadReturn (ch : Nat) (sub : Nat) (first : BurstRead) (again : BurstRead) (s : State) : Host.Outcome
    State Fault Refusal :=
  runDev (isChannel ch && isSub sub) (dramReadReturn s.clk.count ch sub first again) s

/-- SCRUB_VISIT (R433): The patrol walker reads and corrects the next burst. -/
def execScrubVisit (first : BurstRead) (again : BurstRead) (s : State) : Host.Outcome State Fault Refusal :=
  runDev true (scrubVisit s.clk.count first again) s

/-- FREQ_CHANGE_GO (R439): DRC_FREQ_CMD.go requests a switch to the target timing set, or is rejected. -/
def execFreqChangeGo (v : Word) (s : State) : Host.Outcome State Fault Refusal :=
  runDev true (Dev.live (freqChangeGo s.clk.count v)) s

/-- FREQ_SWITCH (R440): After training, panic deferral and pre-fill, the controller drains and relocks at the target
rate. -/
def execFreqSwitch (s : State) : Host.Outcome State Fault Refusal :=
  runDev true (freqSwitch s.clk.count) s

/-- FREQ_SWITCH_DONE (R440): The first request issues on the target set, which becomes active. -/
def execFreqSwitchDone (s : State) : Host.Outcome State Fault Refusal :=
  runDev true (freqSwitchDone s.clk.count) s

/-- TRAINING_STEP (R441): A training step stops one channel for at most 5 µs. -/
def execTrainingStep (ch : Nat) (s : State) : Host.Outcome State Fault Refusal :=
  runDev (isChannel ch) (trainingStep s.clk.count ch) s

/-- PERIODIC_RETRAIN (R442): Every 100 ms a channel runs a retraining step. -/
def execPeriodicRetrain (ch : Nat) (s : State) : Host.Outcome State Fault Refusal :=
  runDev (isChannel ch) (periodicRetrain s.clk.count ch) s

/-- CHANNEL_RETIRE (R446): Setting a DRC_RETIRE bit retires the channel. -/
def execChannelRetire (r : Req) (ch : Nat) (s : State) : Host.Outcome State Fault Refusal :=
  runDev (isChannel ch) (Dev.live (channelRetire s.clk.count r ch)) s

/-- CHANNEL_RETURN (R447): Clearing a DRC_RETIRE bit trains and zero-fills the channel. -/
def execChannelReturn (r : Req) (ch : Nat) (s : State) : Host.Outcome State Fault Refusal :=
  runDev (isChannel ch) (Dev.live (channelReturn s.clk.count r ch)) s

/-- ZERO_FILL_DONE (R447): The zero fill ends and the rebuild walker starts. -/
def execZeroFillDone (ch : Nat) (s : State) : Host.Outcome State Fault Refusal :=
  runDev (isChannel ch) (zeroFillDone s.clk.count ch) s

/-- REBUILD_DONE (R447): The rebuild ends and DRC_REBUILD.busy clears. -/
def execRebuildDone (ch : Nat) (s : State) : Host.Outcome State Fault Refusal :=
  runDev (isChannel ch) (rebuildDone s.clk.count ch) s

/-- MERGE_BUFFER_DRAIN (R451): A merging-buffer entry drains at 12 entries, at 1 µs of age, or at a sync. -/
def execMergeBufferDrain (cl : Nat) (s : State) : Host.Outcome State Fault Refusal :=
  runDev (isCluster cl) (mergeBufferDrain s.clk.count cl) s

/-- TABLE_CACHE_FILL (R450): A table-cache miss fill returns from DRAM and is installed. -/
def execTableCacheFill (sl : Nat) (s : State) : Host.Outcome State Fault Refusal :=
  runDev (isTcaSlice sl) (tableCacheFill s.clk.count sl) s

/-- RANGE_INVALIDATE (R453): TCA_CMD range invalidate removes or marks stale the lines of the range. -/
def execRangeInvalidate (s : State) : Host.Outcome State Fault Refusal :=
  runDev true (Dev.live (rangeInvalidate s.clk.count)) s

/-- PRELOAD (R452): TCA_CMD preload fetches every line of a table. -/
def execPreload (id : Nat) (s : State) : Host.Outcome State Fault Refusal :=
  runDev (isTable id) (Dev.live (fun d => preload s.clk.count (d.setRf Reg.TCA_CMD 15 8 id))) s

/-- MERGE_SYNC (R451): TCA_CMD sync drains the merging buffers. -/
def execMergeSync (s : State) : Host.Outcome State Fault Refusal :=
  runDev true (Dev.live mergeSync) s

/-- STALE_REFETCH_DONE (R453): A stale locked line is refetched. -/
def execStaleRefetchDone (sl : Nat) (s : State) : Host.Outcome State Fault Refusal :=
  runDev (isTcaSlice sl) (staleRefetchDone sl) s

end Sys2Proof.Machine
end

