-- ==== Sys2Proof/Machine/MeanPacket.lean ====
section
/-!
DEFINITION. The meanings of the commands of the parser, the distributor and the Easel: each runs the block's
operation of its rule on the state.
-/

namespace Sys2Proof.Machine

/-- PARSE_PACKET (R195): A packet's first 128 bytes are parsed in a slice over 30 FCLK cycles, and an end profile is
chosen. -/
def execParsePacket (s : State) : Host.Outcome State Fault Refusal :=
  runDev true (parsePacket s.clk.sec s.clk.nsec) s

/-- RECIRCULATION_REENTRY (R202): A packet enqueued to a recirculation port re-enters the parser with its recirc word. -/
def execRecirculationReentry (port : Nat) (s : State) : Host.Outcome State Fault Refusal :=
  runDev (isPort port) (recirculationReentry port) s

/-- DISTRIBUTE_PACKET (R24): The distributor places the Canvas in the active cluster with the most free slots and posts
a task record. -/
def execDistributePacket (s : State) : Host.Outcome State Fault Refusal :=
  runDev true distributePacket s

/-- PARSER_BANK_SWITCH (R212): A write that changes PRS_CTL.active_bank switches parse banks for packets starting two
cycles later. -/
def execParserBankSwitch (bank : Nat) (s : State) : Host.Outcome State Fault Refusal :=
  runDev (isBank bank) (Dev.live (parserBankSwitch bank)) s

/-- PRS_SLICE_ISOLATE (R213): A PRS_SLICE_CTL write takes slices out of service at a packet boundary. -/
def execPrsSliceIsolate (r : Req) (v : BitVec 8) (s : State) : Host.Outcome State Fault Refusal :=
  runDev true (Dev.live (prsSliceIsolate r v.toNat)) s

/-- EASEL_SELECT (R135): In a KCLK cycle the Easel selects a ready record and starts it on an idle thread or by
pre-emption. -/
def execEaselSelect (cl : Nat) (s : State) : Host.Outcome State Fault Refusal :=
  runDev (isCluster cl) (easelSelect s.clk.count cl) s

/-- PREEMPT_SAVE (R143): The victim reaches its word boundary; its context is saved, its resume record stored and P
started. -/
def execPreemptSave (t : Nat) (s : State) : Host.Outcome State Fault Refusal :=
  runDev (isClusterThread t) (preemptSave s.clk.count t) s

/-- COMPLETION_ARRIVAL (R130): A brush completion arrives and fills the continuation slot that names its token, or is
held in the token table. -/
def execCompletionArrival (cl : Nat) (s : State) : Host.Outcome State Fault Refusal :=
  runDev (isCluster cl) (completionArrival cl) s

/-- OLDEST_REPORT (R135): An oldest-in-domain report arrives and raises the record's effective priority to 7. -/
def execOldestReport (cl : Nat) (s : State) : Host.Outcome State Fault Refusal :=
  runDev (isCluster cl) (oldestReport cl) s

end Sys2Proof.Machine
end

