-- ==== Sys2Proof/Machine/MeanPorts.lean ====
section
/-!
DEFINITION. The meanings of the commands of the ports and time: each runs the block's operation of its rule on the
state.
-/

namespace Sys2Proof.Machine

/-- FRAME_RECEIVE (R21): A frame arrives at a port MAC; it is checked, timestamped and written into packet memory. -/
def execFrameReceive (p : Nat) (frame : List Byte) (s : State) : Host.Outcome State Fault Refusal :=
  runDev (isMac p) (frameReceive s.clk.sec s.clk.nsec p frame) s

/-- SIGNAL_DETECT (R401): Signal is detected on a declared lane and the declared bring-up begins. -/
def execSignalDetect (l : Nat) (s : State) : Host.Outcome State Fault Refusal :=
  runDev (isLane l) (signalDetect s.clk.count l) s

/-- LINK_TRAINING_DONE (R401): Fabric link training completes and FEC and PCS alignment begins. -/
def execLinkTrainingDone (p : Nat) (s : State) : Host.Outcome State Fault Refusal :=
  runDev (isMac p) (linkTrainingDone s.clk.count p) s

/-- PORT_UP (R401): Alignment has held without fault for 1 ms and the port is up. -/
def execPortUp (p : Nat) (s : State) : Host.Outcome State Fault Refusal :=
  runDev (isMac p) (portUpEvent s.clk.count p) s

/-- PORT_BRINGUP_TIMEOUT (R64): A present signal fails to reach the declared state within 1 s (fabric) or 100 ms (slot);
the port is held as a disagreement. -/
def execPortBringupTimeout (p : Nat) (s : State) : Host.Outcome State Fault Refusal :=
  runDev (isMac p) (portBringupTimeout s.clk.count p) s

/-- PORT_LINK_DOWN (R401): An up port loses alignment or signal, or receives a fault; it goes down within 10 µs and
repeats bring-up. -/
def execPortLinkDown (p : Nat) (why : LinkWhy) (s : State) : Host.Outcome State Fault Refusal :=
  runDev (isMac p) (portLinkDownEvent s.clk.count p why) s

/-- TRANSMIT_FRAME (R406): The egress read completes and the MAC transmits the frame with preamble, padding and FCS. -/
def execTransmitFrame (p : Nat) (s : State) : Host.Outcome State Fault Refusal :=
  runDev (isMac p) (transmitFrame s.clk.sec s.clk.nsec s.clk.frac p) s

/-- TRANSMIT_DONE (R314): Transmission of one enqueued copy ends and the egress reader releases the chain head once. -/
def execTransmitDone (p : Nat) (s : State) : Host.Outcome State Fault Refusal :=
  runDev (isPort p) (transmitDone p) s

/-- TIME_PPS_OUT_RISE (R417): The nanoseconds pass from 999,999,999 to 0 and TIME_PPS_OUT rises. -/
def execTimePpsOutRise (s : State) : Host.Outcome State Fault Refusal :=
  runClk true (fun c => if s.dev.ppsRises c then ppsRiseClock s.dev c else c) (ppsRiseDev s.clk) s

/-- TIME_PPS_OUT_FALL (R417): width ns after its rise, TIME_PPS_OUT falls. -/
def execTimePpsOutFall (s : State) : Host.Outcome State Fault Refusal :=
  runDev true (ppsFallDev s.clk) s

/-- TIME_PPS_IN_EDGE (R418): A rising edge on TIME_PPS_IN captures the time, or sets overflow while valid is set. -/
def execTimePpsInEdge (s : State) : Host.Outcome State Fault Refusal :=
  runDev true (ppsInEdge s.clk) s

/-- TIME_CAPTURE (R413): TIM_CMD capture copies the time into the TIM_T registers. -/
def execTimeCapture (s : State) : Host.Outcome State Fault Refusal :=
  runDev true (Dev.live (timeCapture s.clk)) s

/-- TIME_SET (R413): TIM_CMD set loads the time from the TIM_T registers in one TCLK cycle. -/
def execTimeSet (r : Req) (s : State) : Host.Outcome State Fault Refusal :=
  runClk true (fun c => if s.dev.pins.resetN then timeSetClock s.dev c else c) (Dev.live (timeSetDev r)) s

/-- TIME_STEP (R413): TIM_CMD step adds the signed TIM_STEP_NS to the time. -/
def execTimeStep (s : State) : Host.Outcome State Fault Refusal :=
  runClk true (fun c => if s.dev.pins.resetN then timeStepClock s.dev c else c) id s

end Sys2Proof.Machine
end

