-- ==== Sys2Proof/Machine/MeanPowerCmds.lean ====
section
/-!
DEFINITION. The meanings of the commands of power and clocks: each runs the block's operation of its rule on the
state.
-/

namespace Sys2Proof.Machine

/-- CLUSTER_POINT_CHANGE (R523): A PWR_CL point write starts a glitch-free change of voltage and clock. -/
def execClusterPointChange (r : Req) (cl : Nat) (point : Nat) (s : State) : Host.Outcome State Fault Refusal :=
  runDev (isCluster cl && isPoint point) (Dev.live (clusterPointChange r cl point)) s

/-- POINT_CHANGE_DONE (R523): The LDO settles and the clock change completes. -/
def execPointChangeDone (cl : Nat) (s : State) : Host.Outcome State Fault Refusal :=
  runDev (isCluster cl) (pointChangeDone cl) s

/-- VCORE_SLEW_DONE (R519): VDD_CORE reaches its new target and a raised max_point takes effect. -/
def execVcoreSlewDone (s : State) : Host.Outcome State Fault Refusal :=
  runDev true vcoreSlewDone s

/-- CLUSTER_GATE (R524): Writing PWR_CL gate = 1 excludes the cluster and waits for it to empty. -/
def execClusterGate (r : Req) (cl : Nat) (s : State) : Host.Outcome State Fault Refusal :=
  runDev (isCluster cl) (Dev.live (clusterGate r cl)) s

/-- GATING_DONE (R524): The cluster is empty; KCLK stops and the LDO turns off. -/
def execGatingDone (cl : Nat) (s : State) : Host.Outcome State Fault Refusal :=
  runDev (isCluster cl) (gatingDone cl) s

/-- CLUSTER_WAKE (R524): Writing gate = 0 ramps the LDO, starts the clock and invalidates L1. -/
def execClusterWake (r : Req) (cl : Nat) (s : State) : Host.Outcome State Fault Refusal :=
  runDev (isCluster cl) (Dev.live (clusterWake r cl)) s

/-- WAKE_DONE (R524): The cluster is awake and the distributor re-enables it. -/
def execWakeDone (cl : Nat) (s : State) : Host.Outcome State Fault Refusal :=
  runDev (isCluster cl) (wakeDone s.clk.count cl) s

/-- NON_SPECULATIVE_CONFIRM (R529): The LDO settles at V_nom and the Glaze confirms the non-speculative voltage. -/
def execNonSpeculativeConfirm (cl : Nat) (s : State) : Host.Outcome State Fault Refusal :=
  runDev (isCluster cl) (nonSpeculativeConfirm cl) s

/-- ERROR_WINDOW_END (R530): A window of committed transactions ends and the loop lowers, holds or raises the LDO. -/
def execErrorWindowEnd (cl : Nat) (s : State) : Host.Outcome State Fault Refusal :=
  runDev (isCluster cl) (errorWindowEnd cl) s

/-- THERMAL_THRESHOLD (R532): The hottest reading crosses t_throttle, or falls below it by 3 °C. -/
def execThermalThreshold (sensor : Nat) (temp : Nat) (s : State) : Host.Outcome State Fault Refusal :=
  runDev (isSensor sensor && isTemp temp) (thermalThreshold sensor temp) s

/-- THROTTLE_STEP (R532): Every 1 ms while throttling, clusters step down one point, or restore one step. -/
def execThrottleStep (s : State) : Host.Outcome State Fault Refusal :=
  runDev true (throttleStep s.clk.count) s

/-- GZ_PHASE_FAULT (R520): A stage fault or overcurrent switches a phase off. -/
def execGzPhaseFault (n : Nat) (s : State) : Host.Outcome State Fault Refusal :=
  runDev (isPhase n) (gzPhaseFault n) s

/-- GZ_VCORE_OOR (R520): VDD_CORE stays out of tolerance for 10 µs. -/
def execGzVcoreOor (s : State) : Host.Outcome State Fault Refusal :=
  runDev true gzVcoreOor s

/-- GZ_LDO_FAULT (R539): A cluster LDO misses its setting by 20 mV for 1 µs. -/
def execGzLdoFault (cl : Nat) (s : State) : Host.Outcome State Fault Refusal :=
  runDev (isCluster cl) (gzLdoFault cl) s

end Sys2Proof.Machine
end

