-- ==== Sys2Proof/Machine/MeanService.lean ====
section
/-!
DEFINITION. The meanings of the commands of faults, in-service test and debug: each runs the block's operation of
its rule on the state.
-/

namespace Sys2Proof.Machine

/-- FAULT_REPORT (R542): A fault report reaches the collector and acts at its severity. -/
def execFaultReport (src : Nat) (detail : Word) (s : State) : Host.Outcome State Fault Refusal :=
  runDev (isSource src) (faultReport s.clk.count src detail) s

/-- DRAIN_TIMEOUT (R547): drain_us ends and the cluster's remaining transactions abort with cause 0xA. -/
def execDrainTimeout (cl : Nat) (s : State) : Host.Outcome State Fault Refusal :=
  runDev (isCluster cl) (drainTimeout s.clk.count cl) s

/-- FAULT_N_PULSE_END (R545): The FAULT_N pulse of pulse_us ends. -/
def execFaultNPulseEnd (s : State) : Host.Outcome State Fault Refusal :=
  runDev true (faultNPulseEnd s.clk.count) s

/-- FAULT_INJECT (R550): An FLT_INJECT write raises a source with the injected flag. -/
def execFaultInject (src : Nat) (s : State) : Host.Outcome State Fault Refusal :=
  runDev (isSource src) (Dev.live (faultInject src)) s

/-- IST_OUT (R550): FLT_IST out takes a cluster, slice or engine out of service. -/
def execIstOut (kind : Nat) (n : Nat) (s : State) : Host.Outcome State Fault Refusal :=
  runDev (isUnitKind kind && isUnit n) (Dev.live (istOut s.clk.count kind n)) s

/-- IST_BIST (R550): FLT_IST BIST runs the unit's memory and logic BIST. -/
def execIstBist (kind : Nat) (n : Nat) (s : State) : Host.Outcome State Fault Refusal :=
  runDev (isUnitKind kind && isUnit n) (Dev.live (istBist kind n)) s

/-- IST_RETURN (R550): FLT_IST return returns the unit to service or makes it a spare. -/
def execIstReturn (kind : Nat) (n : Nat) (s : State) : Host.Outcome State Fault Refusal :=
  runDev (isUnitKind kind && isUnit n) (Dev.live (istReturn kind n)) s

/-- BIST_DONE (R550): A BIST ends, passing or marking the unit failed. -/
def execBistDone (pass : Bool) (array : Nat) (s : State) : Host.Outcome State Fault Refusal :=
  runDev (isArray array) (bistDone pass array) s

/-- HALT_HOLD (R552): DBG_CMD halt-hold halts the target; its transaction stays in flight. -/
def execHaltHold (s : State) : Host.Outcome State Fault Refusal :=
  runDev true (Dev.live (haltCmd false)) s

/-- HALT_ABORT (R552): DBG_CMD halt-abort halts the target and aborts its transaction with cause 0xB. -/
def execHaltAbort (s : State) : Host.Outcome State Fault Refusal :=
  runDev true (Dev.live (haltCmd true)) s

/-- RESUME (R552): DBG_CMD resume continues the target. -/
def execResume (s : State) : Host.Outcome State Fault Refusal :=
  runDev true (Dev.live (resumeCmd s.clk.sec s.clk.nsec)) s

/-- STEP (R552): DBG_CMD step issues one word and halts again. -/
def execStep (s : State) : Host.Outcome State Fault Refusal :=
  runDev true (Dev.live (stepCmd s.clk.sec s.clk.nsec)) s

/-- KILL (R552): DBG_CMD kill ends the thread's task. -/
def execKill (s : State) : Host.Outcome State Fault Refusal :=
  runDev true (Dev.live killCmd) s

/-- HALT_COMPLETE (R553): The monitor window of the last word closes and the halt completes. -/
def execHaltComplete (t : Nat) (s : State) : Host.Outcome State Fault Refusal :=
  runDev (isThread t) (haltComplete s.clk.count t) s

/-- DEBUG_CONTEXT_WRITE (R554): A DBG_CTX_DATA write changes a halted target's state, effective at resume. -/
def execDebugContextWrite (v : Word) (s : State) : Host.Outcome State Fault Refusal :=
  runDev true (Dev.live (debugContextWrite v)) s

/-- LANE_TEST_ENABLE (R551): DBG_LANE_TEST enable puts a lane in PRBS pattern mode. -/
def execLaneTestEnable (lane : Nat) (pattern : Nat) (s : State) : Host.Outcome State Fault Refusal :=
  runDev (isTestLane lane && isPattern pattern) (Dev.live (laneTestEnable s.clk.count lane pattern)) s

/-- LANE_TEST_CLEAR (R551): Clearing the lane test runs the port's declared bring-up once. -/
def execLaneTestClear (s : State) : Host.Outcome State Fault Refusal :=
  runDev true (Dev.live (laneTestClear s.clk.count)) s

end Sys2Proof.Machine
end

