-- ==== Sys2Proof/Machine/MeanSystem.lean ====
section
/-!
DEFINITION. The meanings of the commands of reset, rails, boot and power failure: each runs the block's operation of
its rule on the state.
-/

namespace Sys2Proof.Machine

/-- VDD_IO_GOOD (R518): VDD_IO becomes good; the rail controller raises VDD_CORE to 0.75 V on phases 0 and 1 and the
RING_HOLD pins are driven low. -/
def execVddIoGood (s : State) : Host.Outcome State Fault Refusal :=
  runDev true vddIoGood s

/-- VDD_CORE_GOOD (R566): VDD_CORE becomes good; AOCLK starts and I3C and GMP begin to answer the in-reset commands. -/
def execVddCoreGood (s : State) : Host.Outcome State Fault Refusal :=
  runDev true vddCoreGood s

/-- VDD_IO_LOSS (R421): VDD_IO is lost; ring-hold toggling stops at once and the first-fault record is lost. -/
def execVddIoLoss (s : State) : Host.Outcome State Fault Refusal :=
  runAll true (fun _ => Clock.reset) (fun i => Ident.cleared i) vddIoLoss s

/-- RESET_N_ASSERT (R569): A low pulse of RESET_N of at least 1 µs resets the device, and ring-hold toggling stops
within 20 ns. -/
def execResetNAssert (s : State) : Host.Outcome State Fault Refusal :=
  runAll true (fun _ => Clock.reset) (fun i => Ident.cleared i) resetAssert s

/-- RESET_N_RELEASE (R566): RESET_N is released; BOOT_SEL is sampled and every cache begins its invalidation. -/
def execResetNRelease (boot : Nat) (s : State) : Host.Outcome State Fault Refusal :=
  runDev (isBootSel boot) (resetRelease boot) s

/-- CACHE_INVALIDATION_DONE (R46): The reset invalidation of the caches completes and GLB_RUN_STATE leaves stage 0x0. -/
def execCacheInvalidationDone (s : State) : Host.Outcome State Fault Refusal :=
  runDev true cacheInvalidationDone s

/-- PRIMER_BOOT (R498): The Primer reads the fuses, verifies the images and the profile, blows the requested fuses and
jumps to the firmware entry. -/
def execPrimerBoot (img0 : List Byte) (img1 : List Byte) (prf0 : List Byte × Bool) (prf1 : List Byte × Bool) (s :
    State) : Host.Outcome State Fault Refusal :=
  runIdn true (fun i => primerBootIdent s.clk.count img0 img1 prf0 prf1 s.dev i) (primerBootDev s.clk.count s.idn
    img0 img1 prf0 prf1) s

/-- HOST_BOOT_GO (R495): The host sets ATL_BOOT.go, and the Primer starts DMA reads of the image and the profile. -/
def execHostBootGo (s : State) : Host.Outcome State Fault Refusal :=
  runDev true (Dev.live hostBootGo) s

/-- HOST_BOOT_DMA_DONE (R495): The host-boot DMA ends; the Primer verifies the image, or sets error and waits again. -/
def execHostBootDmaDone (data : Option (List Byte × List Byte)) (s : State) : Host.Outcome State Fault Refusal :=
  runIdn true (fun i => hostDmaIdent s.clk.count data s.dev i) (hostDmaDev s.clk.count s.idn data) s

/-- PWRFAIL_ASSERT (R510): The filtered assertion of PWRFAIL_N records PWRFAIL, stops CMD fetching, raises interrupt
line 1 and starts the Fixative. -/
def execPwrfailAssert (s : State) : Host.Outcome State Fault Refusal :=
  runDev true (pwrfailAssert s.clk.count) s

/-- FIXATIVE_HEARTBEAT_STOP (R510): 2 ms after PWRFAIL_N falls, hardware stops both heartbeats, whatever stage the
Fixative has reached. -/
def execFixativeHeartbeatStop (s : State) : Host.Outcome State Fault Refusal :=
  runAll true (fun c => if s.dev.fixResets c.count then Clock.reset else c) (fun i => if s.dev.fixResets
    s.clk.count then Ident.cleared i else i) (fixativeEnd s.clk.count) s

/-- PWRFAIL_RELEASE (R512): PWRFAIL_N rises during the Fixative; the sequence completes and the device then resets
itself. -/
def execPwrfailRelease (s : State) : Host.Outcome State Fault Refusal :=
  runDev true (pwrfailRelease s.clk.count) s

/-- THERMTRIP (R573): A junction reaches 120 °C; THERMTRIP_N falls, both heartbeats stop, every lane is held and every
GZ_PWM output goes high impedance. -/
def execThermtrip (s : State) : Host.Outcome State Fault Refusal :=
  runDev true thermtrip s

/-- PCIE_PERST_N_RELEASE (R570): PCIE_PERST_N is released; the host interface resets as for a Function Level Reset. -/
def execPciePerstNRelease (link : PcieLink) (s : State) : Host.Outcome State Fault Refusal :=
  runDev true (perstRelease link) s

/-- HOST_LINK_LOSS (R485): Bus Master Enable clears, the PCI Express link goes down or D3hot is entered; the running
groups 0–14 enter the error state. -/
def execHostLinkLoss (why : LinkLoss) (s : State) : Host.Outcome State Fault Refusal :=
  runDev true (hostLinkLoss why) s

/-- FUNCTION_LEVEL_RESET (R462): A Function Level Reset resets ring groups 0–14 and clears HST_BAR4.enable. -/
def execFunctionLevelReset (s : State) : Host.Outcome State Fault Refusal :=
  runDev true (functionLevelReset) s

/-- TCLK_PLL_LOCK (R412): The TCLK PLL locks, and the nanosecond counter continues from TCLK without a jump. -/
def execTclkPllLock (s : State) : Host.Outcome State Fault Refusal :=
  runDev true tclkPllLock s

/-- TIM_REF_LOSS (R426): The TCLK PLL loses lock; time advances at 10 ns per REFCLK_SYS cycle until lock returns. -/
def execTimRefLoss (s : State) : Host.Outcome State Fault Refusal :=
  runDev true timRefLoss s

/-- REFCLK_SYS_LOSS (R578): REFCLK_SYS stops; SCLK stops with it and ring-hold toggling stops at once. -/
def execRefclkSysLoss (s : State) : Host.Outcome State Fault Refusal :=
  runDev true refclkSysLoss s

end Sys2Proof.Machine
end

