-- ==== Sys2Proof/Machine/MeanTables.lean ====
section
/-!
DEFINITION. The meanings of the commands of lookup engines, learning and tables: each runs the block's operation of
its rule on the state.
-/

namespace Sys2Proof.Machine

/-- LOOKUP_ENGINE_SEARCH (R246): A lookup engine takes a request and searches the table. -/
def execLookupEngineSearch (e : Nat) (s : State) : Host.Outcome State Fault Refusal :=
  runDev (isLookupEngine e) (lookupEngineSearch s.clk.count e) s

/-- LEARN_POST (R271): After the search and its confirmation, the engine posts the learn into the table's queue. -/
def execLearnPost (s : State) : Host.Outcome State Fault Refusal :=
  runDev true learnPost s

/-- LEARN_START (R272): The learner starts a queued learn once spacing and conflicts allow. -/
def execLearnStart (id : Nat) (s : State) : Host.Outcome State Fault Refusal :=
  runDev (isTable id) (learnStart s.clk.count id) s

/-- LEARN_APPLY (R273): A learn is applied as insert, move, flap or skip, and its event is posted. -/
def execLearnApply (n : Nat) (s : State) : Host.Outcome State Fault Refusal :=
  runDev true (learnApply s.clk.count n) s

/-- AGE_VISIT (R276): The sweeper visits a bucket and ages or removes its entries. -/
def execAgeVisit (id : Nat) (s : State) : Host.Outcome State Fault Refusal :=
  runDev (isTable id) (ageVisit s.clk.count id) s

/-- FLUSH_WALK_VISIT (R284): The flush walker visits a bucket and removes the entries of the port set. -/
def execFlushWalkVisit (id : Nat) (s : State) : Host.Outcome State Fault Refusal :=
  runDev (isTable id) (flushWalkVisit s.clk.count id) s

/-- FWD_TBL_ENABLE (R250): A write of FWD_TBL enable = 1 is checked and starts table initialisation. -/
def execFwdTblEnable (r : Req) (id : Nat) (v : Word) (s : State) : Host.Outcome State Fault Refusal :=
  runDev (isTable id) (Dev.live (fwdTblEnable r id v)) s

/-- FWD_TBL_DISABLE (R251): Clearing FWD_TBL enable stops lookups and discards the queued learns. -/
def execFwdTblDisable (id : Nat) (v : Word) (s : State) : Host.Outcome State Fault Refusal :=
  runDev (isTable id) (Dev.live (fwdTblDisable id v)) s

/-- TABLE_INIT_DONE (R250): Table initialisation completes and FWD_TBL_STAT.init clears. -/
def execTableInitDone (id : Nat) (s : State) : Host.Outcome State Fault Refusal :=
  runDev (isTable id) (tableInitDone id) s

end Sys2Proof.Machine
end

