-- ==== Sys2Proof/Machine/MeanTraffic.lean ====
section
/-!
DEFINITION. The meanings of the commands of the traffic manager and meters: each runs the block's operation of its
rule on the state.
-/

namespace Sys2Proof.Machine

/-- TM_DEQUEUE (R330): A port selects a queue through the hierarchy and dequeues its head. -/
def execTmDequeue (p : Nat) (s : State) : Host.Outcome State Fault Refusal :=
  runDev (isPort p) (tmDequeue s.clk.count (s.clk.sec * 1000000000 + s.clk.nsec) p) s

/-- GATE_ENTRY_CHANGE (R340): A gate control list entry's interval ends and the next state takes effect. -/
def execGateEntryChange (p : Nat) (s : State) : Host.Outcome State Fault Refusal :=
  runDev (isMac p) (gateEntryChange s.clk.count (s.clk.sec * 1000000000 + s.clk.nsec) p) s

/-- GATE_SCHEDULE_SWITCH (R341): At the switch time the operational schedule is replaced by the admin schedule. -/
def execGateScheduleSwitch (p : Nat) (s : State) : Host.Outcome State Fault Refusal :=
  runDev (isMac p) (gateScheduleSwitch (s.clk.sec * 1000000000 + s.clk.nsec) p) s

/-- GATED_PREFETCH_DONE (R345): A DRAM frame becomes available in the port's staging buffer. -/
def execGatedPrefetchDone (p : Nat) (s : State) : Host.Outcome State Fault Refusal :=
  runDev (isMac p) (gatedPrefetchDone s.clk.count (s.clk.sec * 1000000000 + s.clk.nsec) p) s

/-- RECOVERY_TIMEOUT (R350): A recovery function with no admission for timeout µs returns to its reset state. -/
def execRecoveryTimeout (n : Nat) (s : State) : Host.Outcome State Fault Refusal :=
  runDev (isRecovery n) (recoveryTimeout s.clk.count n) s

/-- SWATCH_PASS (R351): A Swatch pass starts at its period and records each queue. -/
def execSwatchPass (s : State) : Host.Outcome State Fault Refusal :=
  runDev true (swatchPass s.clk.count) s

/-- TMG_OBJ_READ (R354): TMG_OBJ_CMD read copies the selected object into the data words. -/
def execTmgObjRead (s : State) : Host.Outcome State Fault Refusal :=
  runDev true (Dev.live tmgObjRead) s

/-- TMG_OBJ_WRITE (R354): TMG_OBJ_CMD write writes the selected object. -/
def execTmgObjWrite (s : State) : Host.Outcome State Fault Refusal :=
  runDev true (Dev.live (tmgObjWrite s.clk.count)) s

/-- TMG_QUEUE_FLUSH (R326): TMG_OBJ_CMD flush drops every packet of a disabled queue with reason 7. -/
def execTmgQueueFlush (s : State) : Host.Outcome State Fault Refusal :=
  runDev true (Dev.live (tmgQueueFlush s.clk.count)) s

/-- TMG_SCHEDULE_APPLY (R341): TMG_OBJ_CMD apply validates the admin schedule and sets pending. -/
def execTmgScheduleApply (s : State) : Host.Outcome State Fault Refusal :=
  runDev true (Dev.live (tmgScheduleApply (s.clk.sec * 1000000000 + s.clk.nsec))) s

/-- MTR_READ (R355): MTR_CMD read reads a meter or captures a counter. -/
def execMtrRead (s : State) : Host.Outcome State Fault Refusal :=
  runDev true (Dev.live mtrRead) s

/-- MTR_WRITE (R335): MTR_CMD write configures a meter and fills its buckets. -/
def execMtrWrite (s : State) : Host.Outcome State Fault Refusal :=
  runDev true (Dev.live (mtrWrite s.clk.count)) s

/-- MTR_READ_CLEAR (R338): MTR_CMD read and clear captures and clears a counter. -/
def execMtrReadClear (s : State) : Host.Outcome State Fault Refusal :=
  runDev true (Dev.live mtrReadClear) s

end Sys2Proof.Machine
end

