-- ==== Sys2Proof/Machine/MeanTransactions.lean ====
section
/-!
DEFINITION. The meanings of the commands of Varnish, the Palette: each runs the block's operation of its rule on the
state.
-/

namespace Sys2Proof.Machine

/-- COMMIT_REQUEST (R163): A commit request arrives at Varnish and enters commit wait. -/
def execCommitRequest (key : Nat) (s : State) : Host.Outcome State Fault Refusal :=
  runDev (isTxn key) (commitRequest key) s

/-- VARNISH_COMMIT (R161): A transaction in commit wait that is its domain's head commits, aborting conflicting
transactions. -/
def execVarnishCommit (key : Nat) (s : State) : Host.Outcome State Fault Refusal :=
  runDev (isTxn key) (varnishCommit s.clk.count key) s

/-- TM_HANDOFF (R322): After the header cell is written, the enqueue is handed to the traffic manager for admission. -/
def execTmHandoff (key : Nat) (s : State) : Host.Outcome State Fault Refusal :=
  runDev (isTxn key) (tmHandoff s.clk.count key) s

/-- COMMIT_BUFFER_RETIRE (R161): The DRAM write of a commit-buffer granule is acknowledged and the granule leaves the
buffer. -/
def execCommitBufferRetire (s : State) : Host.Outcome State Fault Refusal :=
  runDev true commitBufferRetire s

/-- ABORT_AT_EASEL (R149): An abort reaches the Easel, which removes the task and stores the rerun record. -/
def execAbortAtEasel (key : Nat) (s : State) : Host.Outcome State Fault Refusal :=
  runDev (isTxn key) (abortAtEasel s.clk.count key) s

/-- CANVAS_RESTORE_DONE (R171): The background copy of the initial Canvas image ends. -/
def execCanvasRestoreDone (key : Nat) (bad : Bool) (s : State) : Host.Outcome State Fault Refusal :=
  runDev (isTxn key) (canvasRestoreDone key bad) s

/-- IRREVOCABLE_GRANT (R173): Varnish gives the irrevocable grant to the next eligible transaction. -/
def execIrrevocableGrant (s : State) : Host.Outcome State Fault Refusal :=
  runDev true irrevocableGrant s

/-- TIMING_EVENT (R527): A timing monitor reports a late transition and the transactions in its window abort with cause
0x4. -/
def execTimingEvent (cl : Nat) (core : Nat) (threads : BitVec 8) (ended : List Nat) (s : State) : Host.Outcome
    State Fault Refusal :=
  runDev (isCluster cl && isCore core) (timingEvent cl core threads ended) s

/-- VRN_HOLD_STALL (R189): A wait on a hold-mode transaction reaches 1 ms. -/
def execVrnHoldStall (s : State) : Host.Outcome State Fault Refusal :=
  runDev true (vrnHoldStall s.clk.count) s

/-- PAL_POOL_COUNT_WRITE (R316): A PAL_POOL count write while forwarding adds indices or retires them. -/
def execPalPoolCountWrite (r : Req) (p : Nat) (v : Word) (s : State) : Host.Outcome State Fault Refusal :=
  runDev (isPool p) (Dev.live (palPoolCountWrite r p v)) s

/-- IRREV_HEADER_CELL_GRANT (R310): A waiting irrevocable header-cell request takes the next eligible freed buffer. -/
def execIrrevHeaderCellGrant (s : State) : Host.Outcome State Fault Refusal :=
  runDev true irrevHeaderCellGrant s

end Sys2Proof.Machine
end

