-- ==== Sys2Proof/Machine/Dispatch.lean ====
section
/-!
DEFINITION. What each command does, on everything but the queue: one call of its meaning.
-/

namespace Sys2Proof.Machine

def exec (i : Instr) (s : State) : Host.Outcome State Fault Refusal :=
  match i with
  | .resetNRelease boot => Sys2Proof.Machine.execResetNRelease boot s
  | .primerBoot img0 img1 prf0 prf1 => Sys2Proof.Machine.execPrimerBoot img0 img1 prf0 prf1 s
  | .hostBootDmaDone data => Sys2Proof.Machine.execHostBootDmaDone data s
  | .pciePerstNRelease link => Sys2Proof.Machine.execPciePerstNRelease link s
  | .hostLinkLoss why => Sys2Proof.Machine.execHostLinkLoss why s
  | .frameReceive p frame => Sys2Proof.Machine.execFrameReceive p frame s
  | .signalDetect l => Sys2Proof.Machine.execSignalDetect l s
  | .linkTrainingDone p => Sys2Proof.Machine.execLinkTrainingDone p s
  | .portUp p => Sys2Proof.Machine.execPortUp p s
  | .portBringupTimeout p => Sys2Proof.Machine.execPortBringupTimeout p s
  | .portLinkDown p why => Sys2Proof.Machine.execPortLinkDown p why s
  | .transmitFrame p => Sys2Proof.Machine.execTransmitFrame p s
  | .transmitDone p => Sys2Proof.Machine.execTransmitDone p s
  | .timeSet r => Sys2Proof.Machine.execTimeSet r s
  | .recirculationReentry port => Sys2Proof.Machine.execRecirculationReentry port s
  | .parserBankSwitch bank => Sys2Proof.Machine.execParserBankSwitch bank s
  | .easelSelect cl => Sys2Proof.Machine.execEaselSelect cl s
  | .preemptSave t => Sys2Proof.Machine.execPreemptSave t s
  | .aluOp t f => Sys2Proof.Machine.execAluOp t f s
  | .multiply t f => Sys2Proof.Machine.execMultiply t f s
  | .divide t f => Sys2Proof.Machine.execDivide t f s
  | .addi t f => Sys2Proof.Machine.execAddi t f s
  | .andi t f => Sys2Proof.Machine.execAndi t f s
  | .ori t f => Sys2Proof.Machine.execOri t f s
  | .xori t f => Sys2Proof.Machine.execXori t f s
  | .shifti t f => Sys2Proof.Machine.execShifti t f s
  | .cmpi t f => Sys2Proof.Machine.execCmpi t f s
  | .addis t f => Sys2Proof.Machine.execAddis t f s
  | .lui t rd imm => Sys2Proof.Machine.execLui t rd imm s
  | .bcc t b24 cond off slot => Sys2Proof.Machine.execBcc t b24 cond off slot s
  | .call t off slot => Sys2Proof.Machine.execCall t off slot s
  | .jr t f slot => Sys2Proof.Machine.execJr t f slot s
  | .callr t f slot => Sys2Proof.Machine.execCallr t f slot s
  | .eret t low slot => Sys2Proof.Machine.execEret t low slot s
  | .sys t f => Sys2Proof.Machine.execSys t f s
  | .bkpt t low => Sys2Proof.Machine.execBkpt t low s
  | .ldw t f => Sys2Proof.Machine.execLdw t f s
  | .ldh t f => Sys2Proof.Machine.execLdh t f s
  | .ldhu t f => Sys2Proof.Machine.execLdhu t f s
  | .ldb t f => Sys2Proof.Machine.execLdb t f s
  | .ldbu t f => Sys2Proof.Machine.execLdbu t f s
  | .stw t f => Sys2Proof.Machine.execStw t f s
  | .sth t f => Sys2Proof.Machine.execSth t f s
  | .stb t f => Sys2Proof.Machine.execStb t f s
  | .ldwPostinc t f => Sys2Proof.Machine.execLdwPostinc t f s
  | .stwPostinc t f => Sys2Proof.Machine.execStwPostinc t f s
  | .lkacq t f => Sys2Proof.Machine.execLkacq t f s
  | .lkrel t f => Sys2Proof.Machine.execLkrel t f s
  | .sync t f => Sys2Proof.Machine.execSync t f s
  | .dinvl t f => Sys2Proof.Machine.execDinvl t f s
  | .dinva t f => Sys2Proof.Machine.execDinva t f s
  | .iinvl t f => Sys2Proof.Machine.execIinvl t f s
  | .iinva t f => Sys2Proof.Machine.execIinva t f s
  | .l2invl t f => Sys2Proof.Machine.execL2invl t f s
  | .l2clnl t f => Sys2Proof.Machine.execL2clnl t f s
  | .l2flush t f => Sys2Proof.Machine.execL2flush t f s
  | .thset t f => Sys2Proof.Machine.execThset t f s
  | .thget t f => Sys2Proof.Machine.execThget t f s
  | .thgo t f => Sys2Proof.Machine.execThgo t f s
  | .wt t f => Sys2Proof.Machine.execWt t f s
  | .mfs t f => Sys2Proof.Machine.execMfs t f s
  | .mts t f => Sys2Proof.Machine.execMts t f s
  | .tcont t f => Sys2Proof.Machine.execTcont t f s
  | .vcommit t low => Sys2Proof.Machine.execVcommit t low s
  | .vabort t low => Sys2Proof.Machine.execVabort t low s
  | .tend t low => Sys2Proof.Machine.execTend t low s
  | .tlbinvAll t f => Sys2Proof.Machine.execTlbinvAll t f s
  | .tlbinvPage t f => Sys2Proof.Machine.execTlbinvPage t f s
  | .tlbinvAsid t f => Sys2Proof.Machine.execTlbinvAsid t f s
  | .tlbinvPageAsid t f => Sys2Proof.Machine.execTlbinvPageAsid t f s
  | .shortPair t pair => Sys2Proof.Machine.execShortPair t pair s
  | .rep t pair next => Sys2Proof.Machine.execRep t pair next s
  | .accessCheckComplete t => Sys2Proof.Machine.execAccessCheckComplete t s
  | .loadDataReturn t => Sys2Proof.Machine.execLoadDataReturn t s
  | .icacheFillDone t => Sys2Proof.Machine.execIcacheFillDone t s
  | .atelierInterrupt k line => Sys2Proof.Machine.execAtelierInterrupt k line s
  | .waitDeadline t => Sys2Proof.Machine.execWaitDeadline t s
  | .edpush t f => Sys2Proof.Machine.execEdpush t f s
  | .edpop t f => Sys2Proof.Machine.execEdpop t f s
  | .edrw t f => Sys2Proof.Machine.execEdrw t f s
  | .lkup t f => Sys2Proof.Machine.execLkup t f s
  | .lkupl t f => Sys2Proof.Machine.execLkupl t f s
  | .hcrc t f => Sys2Proof.Machine.execHcrc t f s
  | .htpz t f => Sys2Proof.Machine.execHtpz t f s
  | .hsum t f => Sys2Proof.Machine.execHsum t f s
  | .hsupd t f => Sys2Proof.Machine.execHsupd t f s
  | .mtr t f => Sys2Proof.Machine.execMtr t f s
  | .cnt t f => Sys2Proof.Machine.execCnt t f s
  | .cenc t f => Sys2Proof.Machine.execCenc t f s
  | .cdec t f => Sys2Proof.Machine.execCdec t f s
  | .enq t f => Sys2Proof.Machine.execEnq t f s
  | .pshare t f => Sys2Proof.Machine.execPshare t f s
  | .pdrop t f => Sys2Proof.Machine.execPdrop t f s
  | .pfree t f => Sys2Proof.Machine.execPfree t f s
  | .pswap t f => Sys2Proof.Machine.execPswap t f s
  | .mopen t f => Sys2Proof.Machine.execMopen t f s
  | .mput t f => Sys2Proof.Machine.execMput t f s
  | .mclose t f => Sys2Proof.Machine.execMclose t f s
  | .mrecv t f => Sys2Proof.Machine.execMrecv t f s
  | .mpost t f => Sys2Proof.Machine.execMpost t f s
  | .bsave t brush f => Sys2Proof.Machine.execBsave t brush f s
  | .brest t brush f => Sys2Proof.Machine.execBrest t brush f s
  | .lookupEngineSearch e => Sys2Proof.Machine.execLookupEngineSearch e s
  | .learnStart id => Sys2Proof.Machine.execLearnStart id s
  | .learnApply n => Sys2Proof.Machine.execLearnApply n s
  | .ageVisit id => Sys2Proof.Machine.execAgeVisit id s
  | .flushWalkVisit id => Sys2Proof.Machine.execFlushWalkVisit id s
  | .fwdTblEnable r id v => Sys2Proof.Machine.execFwdTblEnable r id v s
  | .fwdTblDisable id v => Sys2Proof.Machine.execFwdTblDisable id v s
  | .tableInitDone id => Sys2Proof.Machine.execTableInitDone id s
  | .search g x => Sys2Proof.Machine.execSearch g x s
  | .next g x => Sys2Proof.Machine.execNext g x s
  | .insert g x => Sys2Proof.Machine.execInsert g x s
  | .modify g x => Sys2Proof.Machine.execModify g x s
  | .delete g x => Sys2Proof.Machine.execDelete g x s
  | .flushPort g x => Sys2Proof.Machine.execFlushPort g x s
  | .actWrite g x => Sys2Proof.Machine.execActWrite g x s
  | .txn g x => Sys2Proof.Machine.execTxn g x s
  | .portRearm g => Sys2Proof.Machine.execPortRearm g s
  | .profileStage g x flash => Sys2Proof.Machine.execProfileStage g x flash s
  | .profileApply g => Sys2Proof.Machine.execProfileApply g s
  | .msgSend g x => Sys2Proof.Machine.execMsgSend g x s
  | .taskPost g x => Sys2Proof.Machine.execTaskPost g x s
  | .quote g x => Sys2Proof.Machine.execQuote g x s
  | .nop g => Sys2Proof.Machine.execNop g s
  | .commitRequest key => Sys2Proof.Machine.execCommitRequest key s
  | .varnishCommit key => Sys2Proof.Machine.execVarnishCommit key s
  | .tmHandoff key => Sys2Proof.Machine.execTmHandoff key s
  | .abortAtEasel key => Sys2Proof.Machine.execAbortAtEasel key s
  | .timingEvent cl core threads ended => Sys2Proof.Machine.execTimingEvent cl core threads ended s
  | .palPoolCountWrite r p v => Sys2Proof.Machine.execPalPoolCountWrite r p v s
  | .tmDequeue p => Sys2Proof.Machine.execTmDequeue p s
  | .gateEntryChange p => Sys2Proof.Machine.execGateEntryChange p s
  | .gateScheduleSwitch p => Sys2Proof.Machine.execGateScheduleSwitch p s
  | .semaphoreAcquire t sem => Sys2Proof.Machine.execSemaphoreAcquire t sem s
  | .semaphoreStatus t sem => Sys2Proof.Machine.execSemaphoreStatus t sem s
  | .lockProbe hi => Sys2Proof.Machine.execLockProbe hi s
  | .symbolReceive l cs => Sys2Proof.Machine.execSymbolReceive l cs s
  | .symbolTransmit l => Sys2Proof.Machine.execSymbolTransmit l s
  | .stnAlu e j f => Sys2Proof.Machine.execStnAlu e j f s
  | .stnJr e j rd rs => Sys2Proof.Machine.execStnJr e j rd rs s
  | .stnAddi e j rd imm => Sys2Proof.Machine.execStnAddi e j rd imm s
  | .stnMovi e j rd imm => Sys2Proof.Machine.execStnMovi e j rd imm s
  | .stnMovh e j rd imm => Sys2Proof.Machine.execStnMovh e j rd imm s
  | .stnCmpi e j rd imm => Sys2Proof.Machine.execStnCmpi e j rd imm s
  | .stnLd e j f => Sys2Proof.Machine.execStnLd e j f s
  | .stnSt e j f => Sys2Proof.Machine.execStnSt e j f s
  | .stnBcc e j cond off => Sys2Proof.Machine.execStnBcc e j cond off s
  | .stnJmp e j off => Sys2Proof.Machine.execStnJmp e j off s
  | .stnCall e j off => Sys2Proof.Machine.execStnCall e j off s
  | .rx e j rd rs => Sys2Proof.Machine.execRx e j rd rs s
  | .tx e j rd rs => Sys2Proof.Machine.execTx e j rd rs s
  | .rxrun e j rd rs => Sys2Proof.Machine.execRxrun e j rd rs s
  | .txrun e j rd rs => Sys2Proof.Machine.execTxrun e j rd rs s
  | .fput e j rd rs => Sys2Proof.Machine.execFput e j rd rs s
  | .fend e j rd rs => Sys2Proof.Machine.execFend e j rd rs s
  | .fdrop e j rd rs => Sys2Proof.Machine.execFdrop e j rd rs s
  | .fopen e j rd rs => Sys2Proof.Machine.execFopen e j rd rs s
  | .txnext e j rd rs => Sys2Proof.Machine.execTxnext e j rd rs s
  | .txget e j rd rs => Sys2Proof.Machine.execTxget e j rd rs s
  | .drive e j rd rs => Sys2Proof.Machine.execDrive e j rd rs s
  | .txusr e j rd rs => Sys2Proof.Machine.execTxusr e j rd rs s
  | .par e j rd rs => Sys2Proof.Machine.execPar e j rd rs s
  | .cinit e j rd rs => Sys2Proof.Machine.execCinit e j rd rs s
  | .cupd e j rd rs => Sys2Proof.Machine.execCupd e j rd rs s
  | .crdl e j rd rs => Sys2Proof.Machine.execCrdl e j rd rs s
  | .crdh e j rd rs => Sys2Proof.Machine.execCrdh e j rd rs s
  | .now e j rd rs => Sys2Proof.Machine.execNow e j rd rs s
  | .nowh e j rd rs => Sys2Proof.Machine.execNowh e j rd rs s
  | .waitc e j rd rs => Sys2Proof.Machine.execWaitc e j rd rs s
  | .waitt e j rd rs => Sys2Proof.Machine.execWaitt e j rd rs s
  | .pps e j rd rs => Sys2Proof.Machine.execPps e j rd rs s
  | .hbkick e j rd rs => Sys2Proof.Machine.execHbkick e j rd rs s
  | .hbstat e j rd rs => Sys2Proof.Machine.execHbstat e j rd rs s
  | .stnNop e j rd rs => Sys2Proof.Machine.execStnNop e j rd rs s
  | .stnHalt e j rd rs => Sys2Proof.Machine.execStnHalt e j rd rs s
  | .brk e j rd rs => Sys2Proof.Machine.execBrk e j rd rs s
  | .stnEngRun e => Sys2Proof.Machine.execStnEngRun e s
  | .stnEngStop e => Sys2Proof.Machine.execStnEngStop e s
  | .dramBringup r => Sys2Proof.Machine.execDramBringup r s
  | .dramBringupDone spd trained => Sys2Proof.Machine.execDramBringupDone spd trained s
  | .dramCommandIssue ch sub => Sys2Proof.Machine.execDramCommandIssue ch sub s
  | .dramReadReturn ch sub first again => Sys2Proof.Machine.execDramReadReturn ch sub first again s
  | .scrubVisit first again => Sys2Proof.Machine.execScrubVisit first again s
  | .freqChangeGo v => Sys2Proof.Machine.execFreqChangeGo v s
  | .trainingStep ch => Sys2Proof.Machine.execTrainingStep ch s
  | .channelRetire r ch => Sys2Proof.Machine.execChannelRetire r ch s
  | .channelReturn r ch => Sys2Proof.Machine.execChannelReturn r ch s
  | .mergeBufferDrain cl => Sys2Proof.Machine.execMergeBufferDrain cl s
  | .tableCacheFill sl => Sys2Proof.Machine.execTableCacheFill sl s
  | .preload id => Sys2Proof.Machine.execPreload id s
  | .kick g acc => Sys2Proof.Machine.execKick g acc s
  | .atelierKick r => Sys2Proof.Machine.execAtelierKick r s
  | .doorbellReadDone g x => Sys2Proof.Machine.execDoorbellReadDone g x s
  | .descriptorFetchDone g ring x => Sys2Proof.Machine.execDescriptorFetchDone g ring x s
  | .injPacket g xs => Sys2Proof.Machine.execInjPacket g xs s
  | .puntPacket g err => Sys2Proof.Machine.execPuntPacket g err s
  | .doorbellWriteback g => Sys2Proof.Machine.execDoorbellWriteback g s
  | .groupEnable r g v => Sys2Proof.Machine.execGroupEnable r g v s
  | .groupReset r g v => Sys2Proof.Machine.execGroupReset r g v s
  | .groupResetDone g => Sys2Proof.Machine.execGroupResetDone g s
  | .bar4Access off acc => Sys2Proof.Machine.execBar4Access off acc s
  | .identity a p crc => Sys2Proof.Machine.execIdentity a p crc s
  | .faultRead a p crc => Sys2Proof.Machine.execFaultRead a p crc s
  | .faultClear a p crc => Sys2Proof.Machine.execFaultClear a p crc s
  | .powerState a p crc => Sys2Proof.Machine.execPowerState a p crc s
  | .powerSet a p crc => Sys2Proof.Machine.execPowerSet a p crc s
  | .ringStatus a p crc => Sys2Proof.Machine.execRingStatus a p crc s
  | .subunitReset a p crc => Sys2Proof.Machine.execSubunitReset a p crc s
  | .quoteStart a p crc => Sys2Proof.Machine.execQuoteStart a p crc s
  | .quoteRead a p crc => Sys2Proof.Machine.execQuoteRead a p crc s
  | .certRead a p crc => Sys2Proof.Machine.execCertRead a p crc s
  | .regRead a p crc => Sys2Proof.Machine.execRegRead a p crc s
  | .entdaa a => Sys2Proof.Machine.execEntdaa a s
  | .atlCoreStart r mask => Sys2Proof.Machine.execAtlCoreStart r mask s
  | .atlRunGo r => Sys2Proof.Machine.execAtlRunGo r s
  | .measurementExtend r => Sys2Proof.Machine.execMeasurementExtend r s
  | .atlIpi r mask => Sys2Proof.Machine.execAtlIpi r mask s
  | .clusterPointChange r cl point => Sys2Proof.Machine.execClusterPointChange r cl point s
  | .pointChangeDone cl => Sys2Proof.Machine.execPointChangeDone cl s
  | .clusterGate r cl => Sys2Proof.Machine.execClusterGate r cl s
  | .gatingDone cl => Sys2Proof.Machine.execGatingDone cl s
  | .clusterWake r cl => Sys2Proof.Machine.execClusterWake r cl s
  | .wakeDone cl => Sys2Proof.Machine.execWakeDone cl s
  | .nonSpeculativeConfirm cl => Sys2Proof.Machine.execNonSpeculativeConfirm cl s
  | .errorWindowEnd cl => Sys2Proof.Machine.execErrorWindowEnd cl s
  | .thermalThreshold sensor temp => Sys2Proof.Machine.execThermalThreshold sensor temp s
  | .faultReport src detail => Sys2Proof.Machine.execFaultReport src detail s
  | .drainTimeout cl => Sys2Proof.Machine.execDrainTimeout cl s
  | .faultInject src => Sys2Proof.Machine.execFaultInject src s
  | .istOut kind n => Sys2Proof.Machine.execIstOut kind n s
  | .istBist kind n => Sys2Proof.Machine.execIstBist kind n s
  | .istReturn kind n => Sys2Proof.Machine.execIstReturn kind n s
  | .bistDone pass array => Sys2Proof.Machine.execBistDone pass array s
  | .haltComplete t => Sys2Proof.Machine.execHaltComplete t s
  | .debugContextWrite v => Sys2Proof.Machine.execDebugContextWrite v s
  | .dbgAccess off acc => Sys2Proof.Machine.execDbgAccess off acc s
  | .regPairAccess r size off acc => Sys2Proof.Machine.execRegPairAccess r size off acc s
  | .registerWrite r size off v => Sys2Proof.Machine.execRegisterWrite r size off v s
  | .pcieCompletionTimeout g use => Sys2Proof.Machine.execPcieCompletionTimeout g use s
  | .undefinedInstruction t w => Sys2Proof.Machine.execUndefinedInstruction t w s
  | .stencilUndefinedInstruction e j w => Sys2Proof.Machine.execStencilUndefinedInstruction e j w s
  | .vddIoGood => Sys2Proof.Machine.execVddIoGood s
  | .vddCoreGood => Sys2Proof.Machine.execVddCoreGood s
  | .vddIoLoss => Sys2Proof.Machine.execVddIoLoss s
  | .resetNAssert => Sys2Proof.Machine.execResetNAssert s
  | .cacheInvalidationDone => Sys2Proof.Machine.execCacheInvalidationDone s
  | .hostBootGo => Sys2Proof.Machine.execHostBootGo s
  | .pwrfailAssert => Sys2Proof.Machine.execPwrfailAssert s
  | .fixativeHeartbeatStop => Sys2Proof.Machine.execFixativeHeartbeatStop s
  | .pwrfailRelease => Sys2Proof.Machine.execPwrfailRelease s
  | .thermtrip => Sys2Proof.Machine.execThermtrip s
  | .functionLevelReset => Sys2Proof.Machine.execFunctionLevelReset s
  | .tclkPllLock => Sys2Proof.Machine.execTclkPllLock s
  | .timRefLoss => Sys2Proof.Machine.execTimRefLoss s
  | .refclkSysLoss => Sys2Proof.Machine.execRefclkSysLoss s
  | .timePpsOutRise => Sys2Proof.Machine.execTimePpsOutRise s
  | .timePpsOutFall => Sys2Proof.Machine.execTimePpsOutFall s
  | .timePpsInEdge => Sys2Proof.Machine.execTimePpsInEdge s
  | .timeCapture => Sys2Proof.Machine.execTimeCapture s
  | .timeStep => Sys2Proof.Machine.execTimeStep s
  | .parsePacket => Sys2Proof.Machine.execParsePacket s
  | .distributePacket => Sys2Proof.Machine.execDistributePacket s
  | .learnPost => Sys2Proof.Machine.execLearnPost s
  | .controlPlaneApply => Sys2Proof.Machine.execControlPlaneApply s
  | .controlPlaneRelease => Sys2Proof.Machine.execControlPlaneRelease s
  | .profileCommit => Sys2Proof.Machine.execProfileCommit s
  | .quoteDone => Sys2Proof.Machine.execQuoteDone s
  | .commitBufferRetire => Sys2Proof.Machine.execCommitBufferRetire s
  | .irrevocableGrant => Sys2Proof.Machine.execIrrevocableGrant s
  | .vrnHoldStall => Sys2Proof.Machine.execVrnHoldStall s
  | .irrevHeaderCellGrant => Sys2Proof.Machine.execIrrevHeaderCellGrant s
  | .swatchPass => Sys2Proof.Machine.execSwatchPass s
  | .tmgObjRead => Sys2Proof.Machine.execTmgObjRead s
  | .tmgObjWrite => Sys2Proof.Machine.execTmgObjWrite s
  | .tmgQueueFlush => Sys2Proof.Machine.execTmgQueueFlush s
  | .tmgScheduleApply => Sys2Proof.Machine.execTmgScheduleApply s
  | .mtrRead => Sys2Proof.Machine.execMtrRead s
  | .mtrWrite => Sys2Proof.Machine.execMtrWrite s
  | .mtrReadClear => Sys2Proof.Machine.execMtrReadClear s
  | .lockAcquire => Sys2Proof.Machine.execLockAcquire s
  | .lockRelease => Sys2Proof.Machine.execLockRelease s
  | .semaphoreRelease => Sys2Proof.Machine.execSemaphoreRelease s
  | .freqSwitch => Sys2Proof.Machine.execFreqSwitch s
  | .freqSwitchDone => Sys2Proof.Machine.execFreqSwitchDone s
  | .rangeInvalidate => Sys2Proof.Machine.execRangeInvalidate s
  | .mergeSync => Sys2Proof.Machine.execMergeSync s
  | .rstdaa => Sys2Proof.Machine.execRstdaa s
  | .enec => Sys2Proof.Machine.execEnec s
  | .disec => Sys2Proof.Machine.execDisec s
  | .getpid => Sys2Proof.Machine.execGetpid s
  | .getbcr => Sys2Proof.Machine.execGetbcr s
  | .getdcr => Sys2Proof.Machine.execGetdcr s
  | .getstatus => Sys2Proof.Machine.execGetstatus s
  | .getmwl => Sys2Proof.Machine.execGetmwl s
  | .getmrl => Sys2Proof.Machine.execGetmrl s
  | .vcoreSlewDone => Sys2Proof.Machine.execVcoreSlewDone s
  | .throttleStep => Sys2Proof.Machine.execThrottleStep s
  | .gzVcoreOor => Sys2Proof.Machine.execGzVcoreOor s
  | .faultNPulseEnd => Sys2Proof.Machine.execFaultNPulseEnd s
  | .haltHold => Sys2Proof.Machine.execHaltHold s
  | .haltAbort => Sys2Proof.Machine.execHaltAbort s
  | .resume => Sys2Proof.Machine.execResume s
  | .step => Sys2Proof.Machine.execStep s
  | .kill => Sys2Proof.Machine.execKill s
  | .laneTestClear => Sys2Proof.Machine.execLaneTestClear s
  | .jtagBypass => Sys2Proof.Machine.execJtagBypass s
  | .jtagIdcode => Sys2Proof.Machine.execJtagIdcode s
  | .jtagClamp => Sys2Proof.Machine.execJtagClamp s
  | .jtagHighz => Sys2Proof.Machine.execJtagHighz s
  | .jtagExtestPulse => Sys2Proof.Machine.execJtagExtestPulse s
  | .jtagExtestTrain => Sys2Proof.Machine.execJtagExtestTrain s
  | .thermtripNRelease => Sys2Proof.Machine.execThermtripNRelease s
  | .ibiAccepted => Sys2Proof.Machine.execIbiAccepted s
  | .prsSliceIsolate r v => Sys2Proof.Machine.execPrsSliceIsolate r v s
  | .completionArrival cl => Sys2Proof.Machine.execCompletionArrival cl s
  | .oldestReport cl => Sys2Proof.Machine.execOldestReport cl s
  | .atelierTimer k => Sys2Proof.Machine.execAtelierTimer k s
  | .mrecvDeadline cl token => Sys2Proof.Machine.execMrecvDeadline cl token s
  | .canvasRestoreDone key bad => Sys2Proof.Machine.execCanvasRestoreDone key bad s
  | .gatedPrefetchDone p => Sys2Proof.Machine.execGatedPrefetchDone p s
  | .recoveryTimeout n => Sys2Proof.Machine.execRecoveryTimeout n s
  | .lockWaitTimeout t => Sys2Proof.Machine.execLockWaitTimeout t s
  | .rxrunStop e j => Sys2Proof.Machine.execRxrunStop e j s
  | .txrunDone e j => Sys2Proof.Machine.execTxrunDone e j s
  | .txnextReady e j => Sys2Proof.Machine.execTxnextReady e j s
  | .waitcExpiry e j => Sys2Proof.Machine.execWaitcExpiry e j s
  | .waittExpiry e j => Sys2Proof.Machine.execWaittExpiry e j s
  | .heartbeatToggle hb => Sys2Proof.Machine.execHeartbeatToggle hb s
  | .heartbeatLapse hb => Sys2Proof.Machine.execHeartbeatLapse hb s
  | .ringInsertDelayEnd hb => Sys2Proof.Machine.execRingInsertDelayEnd hb s
  | .ringSettleEnd hb => Sys2Proof.Machine.execRingSettleEnd hb s
  | .periodicRetrain ch => Sys2Proof.Machine.execPeriodicRetrain ch s
  | .zeroFillDone ch => Sys2Proof.Machine.execZeroFillDone ch s
  | .rebuildDone ch => Sys2Proof.Machine.execRebuildDone ch s
  | .staleRefetchDone sl => Sys2Proof.Machine.execStaleRefetchDone sl s
  | .pollTimer g => Sys2Proof.Machine.execPollTimer g s
  | .msixHoldoffExpiry g => Sys2Proof.Machine.execMsixHoldoffExpiry g s
  | .setdasa static a => Sys2Proof.Machine.execSetdasa static a s
  | .setmwl n => Sys2Proof.Machine.execSetmwl n s
  | .setmrl n => Sys2Proof.Machine.execSetmrl n s
  | .rstact a => Sys2Proof.Machine.execRstact a s
  | .gzPhaseFault n => Sys2Proof.Machine.execGzPhaseFault n s
  | .gzLdoFault cl => Sys2Proof.Machine.execGzLdoFault cl s
  | .laneTestEnable lane pattern => Sys2Proof.Machine.execLaneTestEnable lane pattern s
  | .jtagSamplePreload v => Sys2Proof.Machine.execJtagSamplePreload v s
  | .jtagExtest v => Sys2Proof.Machine.execJtagExtest v s
  | .ddrAlertNAsserted ch => Sys2Proof.Machine.execDdrAlertNAsserted ch s
  | .trainingStepDone ch last ok => Sys2Proof.Machine.execTrainingStepDone ch last ok s
  | .assemblyBufferFree e j => Sys2Proof.Machine.execAssemblyBufferFree e j s

end Sys2Proof.Machine
end

