-- ==== Sys2Proof/Machine/Step.lean ====
section
/-!
DEFINITION. One step: the command at the front of the queue runs; with none waiting, the clocks tick.
-/

namespace Sys2Proof.Machine

/-- A tick with no command waiting (DESIGN CHOICE, log entry 1): one clock of the time base, and the write buffers of the
cores drain; the first change that a doorbell block has to report is noted at its time (R470), poisoned reads are dated
(R459), and the packets of one cycle are complete (R34). -/
def State.tick (s : State) : State := { s with clk := clockTick s.dev s.clk, dev := ((s.dev.noteNews s.clk.count).dateUes s.clk.count).cycleEnds.drainCores }

/-- One step. -/
def step (s : State) : Host.Outcome State Fault Refusal :=
  match s.pending with
  | [] => .next s.tick
  | i :: rest => exec i { s with pending := rest }

/-- The state with the command that a word spells put at the front of the queue; unchanged where it spells none. -/
def State.withFetchWord (s : State) (nbits w : Nat) : State :=
  match decodeTableWord nbits w with
  | some i => { s with pending := i :: s.pending }
  | none => s

end Sys2Proof.Machine
end

