-- ==== Sys2Proof/Safety.lean ====
section
/-!
DEFINITION. The terms in which the statements speak of the machine: a state with another device, what a tick keeps, when a
word of a thread or of a lane engine runs, and the invariants.
-/

namespace Sys2Proof.Machine

/-- The state with the device replaced: time, identity and queue as they were. -/
def State.withDev (s : State) (d : Dev) : State := { s with dev := d }

/-! Invariants. -/

/-- The ranges of the time base (R412): 48 bits of seconds, nanoseconds below 10^9, a 32-bit fraction, and 64 bits of
the nanosecond counter (R82). -/
def Clock.ok (c : Clock) : Bool :=
  decide (c.sec < 2 ^ 48) && decide (c.nsec < 1000000000) && decide (c.frac < 2 ^ 32) && decide (c.count < 2 ^ 64)

/-- What no command writes of the fused identity (R490, R491). -/
def Ident.sameFuses (a b : Ident) : Prop :=
  a.lot = b.lot ∧ a.wafer = b.wafer ∧ a.x = b.x ∧ a.y = b.y ∧ a.stage = b.stage ∧ a.stepping = b.stepping ∧
  a.keys = b.keys ∧ a.present = b.present ∧ a.cert = b.cert ∧ a.devKey = b.devKey

/-! Threads. -/

/-- The next word of a thread runs: it can issue, no breakpoint matches and debug does not step the thread. -/
def Dev.ready (d : Dev) (t : Nat) : Prop := d.issuable t = true ∧ d.bpMatch t = none ∧ (d.thr t).dbg = .none

/-- The state in which a thread has run a word that only changed its own registers, as f says, and went on. -/
def State.retired (s : State) (t : Nat) (f : Thread → Thread) : State :=
  s.withDev (s.dev.setThr t ((f (s.dev.thr t)).advance (isAtl t)))

/-- The state in which a thread has run a branch whose delay slot is next: f gives its registers, dest where it goes. -/
def State.branched (s : State) (t : Nat) (f : Thread → Thread) (dest : Thread → Word) : State :=
  s.withDev (s.dev.setThr t { f (s.dev.thr t) with pc := (s.dev.thr t).pc + 4, slot := .branch (dest (s.dev.thr t)) })

/-- A thread can take a trap: it is in no handler and has one (R113, R115, R116). -/
def Dev.trapsTo (d : Dev) (t : Nat) : Prop := (d.thr t).intrap = false ∧ (d.thr t).tvb.toNat / 2 ^ 11 ≠ 0

/-- A thread after a trap or interrupt that it took at state th (R113, R119): the saved registers, the handler's address,
and, of an Atelier core, the modes. -/
def trapEntry (th th' : Thread) (atl : Bool) (ecause etval : Word) (entry : Nat) : Prop :=
  th'.epc = th.pc ∧ th'.ecause = ecause ∧ th'.etval = etval ∧ th'.intrap = true ∧
  th'.pc = wd (th.tvb.toNat / 2 ^ 11 * 2 ^ 11 + entry) ∧
  th'.gpr = th.gpr ∧ th'.flags = th.flags ∧ th'.lc = th.lc ∧ th'.tvb = th.tvb ∧ th'.dwin = th.dwin ∧
  th'.run = .running ∧ th'.slot = .none ∧ th'.task = th.task ∧
  (atl = false → th'.sstatus = th.sstatus) ∧ (atl = true → th'.super = true ∧ bit th'.sstatus 1 = false)

/-- Everything but one thread's registers is as it was. -/
def State.onlyThread (s u : State) (t : Nat) : Prop := u = s.withDev (s.dev.setThr t (u.dev.thr t))

/-- A data access of a cluster thread that reaches its own cluster's shared memory (R103): an aligned address below
0x8_0000 that no watchpoint matches and that holds no uncorrectable error. The bound on DRAM is R39's, 1 TiB. -/
def Dev.ownAccess (d : Dev) (t : Nat) (store : Bool) (va size : Nat) : Prop :=
  isAtl t = false ∧ isThread t = true ∧ va < 0x80000 ∧ va % size = 0 ∧ d.fittedDram ≤ pmBase ∧ d.wpMatch t store va = none ∧
  d.sramBad (cluBase (clusterOf t) + va) size = false

/-- A word of memory at a thread address of its own shared memory, and narrower data. -/
def Dev.ownBytes (d : Dev) (t va n : Nat) : List Byte := d.memRead (cluBase (clusterOf t) + va) n

/-! Brushes (R216 to R222). -/

/-- Memory is written plainly: nothing is mirrored, retired or poisoned (R432, R443, R446). -/
def Dev.plainMem (d : Dev) : Prop := d.drc.poison = [] ∧ d.drc.mirrors = [] ∧ d.rf Reg.DRC_STATUS 23 16 = 0

/-- The operand block of a brush function at ra (R216, R218). -/
def Dev.brushBlock (d : Dev) (t b fn : Nat) (ra : Word) : List Byte :=
  let a := cluBase (clusterOf t) + (ownOff (clusterOf t) ra.toNat 4).getD 0
  if (brushFn b fn).blk then d.memRead a (blkSize b fn (d.memLe a 4)) else []

/-- The internal address that rb names in the cluster's own shared memory, for n bytes. -/
def ownAddr (t : Nat) (rb : Word) (n : Nat) : Nat := cluBase (clusterOf t) + (ownOff (clusterOf t) rb.toNat n).getD 0

/-- No word of a shared memory holds an uncorrectable error (R541). -/
def Dev.sramSound (d : Dev) : Prop := ∀ a n, d.sramBad a n = false

/-- A brush instruction of a cluster thread passes the checks of R216, is not refused (R221), reads no uncorrectable word
(R541) and is confirmed as it issues, since no older word is unchecked (R219). -/
def Dev.brushes (d : Dev) (t b fn : Nat) (f : R3) : Prop :=
  let th := d.thr t
  isThread t = true ∧ isAtl t = false ∧ d.ready t ∧ th.fly = [] ∧
  ((brushFn b fn).res = 0 → f.rb = 0) ∧ ((brushFn b fn).blk = false → f.ra = 0) ∧
  d.brushCheck t b fn (th.g f.ra.toNat) (th.g f.rb.toNat) = none ∧
  d.rb (Reg.CLU_BRUSH_CTL (clusterOf t)) b = true ∧ d.brushDepth (clusterOf t) b < brushEntries b ∧
  d.brushIllegal t b fn (th.g f.ra.toNat) = false ∧ d.sramSound

/-! Heartbeats, lanes and ring groups (R394, R421, R485). -/

/-- The heartbeat of a pair neither toggles nor is armed, and its pin is low (R394, R421). -/
def Dev.heartOff (d : Dev) (k : Nat) : Prop :=
  d.rb (Reg.STN_HB k) 31 = false ∧ d.rb (Reg.STN_HB k) 30 = false ∧ (d.hb k).level = false

/-- Both heartbeats have stopped. -/
def Dev.heartsOff (d : Dev) : Prop := d.heartOff 0 ∧ d.heartOff 1

/-- A ring group is being reset (R486): it neither runs nor is in error, has reset_busy set, and holds nothing that it
fetched. Its enable bit clears when the reset ends. -/
def Dev.grpCleared (d : Dev) (g : Nat) : Prop :=
  d.reg (Reg.HST_GRP_W15 g) = wd (2 ^ 29) ∧ (d.grp g).inj = [] ∧ (d.grp g).cmds = [] ∧
  (d.grp g).cpl = [] ∧ (d.grp g).reading = false

/-- The host interface after a Function Level Reset (R462): groups 0 to 14 are reset, BAR4 is closed, and group 15 is as
it was. -/
def Dev.flrDone (d d' : Dev) : Prop :=
  (∀ g, g < 15 → d'.grpCleared g) ∧ d'.rb Reg.HST_BAR4 31 = false ∧ d'.grp 15 = d.grp 15 ∧
  (∀ w, w < 16 → d'.reg (Reg.HST_GRP_W0 15 + 4 * w) = d.reg (Reg.HST_GRP_W0 15 + 4 * w)) ∧ d'.stage = d.stage

/-- The commands that may set or step the time (R413, R417), or write the register that does, or reset the device. -/
def setsTime : Instr → Bool
  | .vddIoLoss | .resetNAssert | .fixativeHeartbeatStop | .timePpsOutRise | .timeSet _ | .timeStep | .subunitReset ..
  | .dbgAccess _ _ | .registerWrite _ _ _ _ | .stw _ _ | .stwPostinc _ _ => true
  | _ => false

/-- One extension of a measurement (R503): the digest of the old value and a digest, for some digest. -/
def Ident.extends (a b : Ident) (k : Nat) : Prop := ∃ dg, b.meas = a.meas.set k (extended (a.meas.getD k []) dg)

/-! Stencil slots. -/

/-- The state in which a slot has run a word that changed only its own registers, as f says, and goes on at pc; the load
before it becomes visible (R384). -/
def State.slotWent (s : State) (e j : Nat) (f : Slot2 → Slot2) (pc : BitVec 12) : State :=
  s.withDev ((s.dev.issued e j).setSlot e j ((s.dev.slot e j).done f pc))

/-- The flags N, Z and C, V of a slot against a result (R383). -/
def Slot2.nz (y : Slot2) (r : BitVec 16) : Prop := y.flags.toNat.testBit 3 = r.msb ∧ y.flags.toNat.testBit 2 = decide (r = 0)
def Slot2.cv (y : Slot2) (c v : Bool) : Prop := y.flags.toNat.testBit 1 = c ∧ y.flags.toNat.testBit 0 = v

/-- Whether a signed value lies outside 16 bits. -/
def over16 (n : Int) : Bool := decide (n < -32768 ∨ 32767 < n)

end Sys2Proof.Machine
end

