-- ==== Sys2Proof/Certificates/Slice0/Obligations.lean ====
section
/-!
DEFINITION. The statements for the provers. Each docstring names the rules of spec/ it speaks of, and says where a clause is the
model's own choice.
-/

open Sys2Proof Sys2Proof.Machine

/-- A step takes the command at the front of the queue and runs it on the state with the rest of the queue. -/
def Obligations.StepRunsFront : Prop :=
  ∀ (c : Instr) (rest : List Instr) (s : State), s.pending = c :: rest → step s = exec c { s with pending := rest }

/-- With no command waiting a step is one tick (the model's choice, log entry 1): the write buffers drain, the first change a
doorbell block has to report is noted at its time (R470), poisoned reads are dated (R459), the packets of one cycle are complete (R34), the identity
stays and, with the TCLK PLL locked, the nanosecond counter gains 1, with only REFCLK_SYS 10 (R412), and nothing with
neither clock; while RESET_N is low the clock stands. -/
def Obligations.IdleStepTicks : Prop :=
  ∀ (s : State), s.pending = [] → ∃ t, step s = .next t ∧ t.pending = [] ∧ t.idn = s.idn ∧
    t.dev = ((s.dev.noteNews s.clk.count).dateUes s.clk.count).cycleEnds.drainCores ∧
    (s.dev.pins.resetN = false → t.clk = s.clk) ∧
    (s.clk.ok = true → s.dev.pins.resetN = true →
      (s.dev.rb Reg.GLB_CLK_STATUS 29 = true → t.clk.count = (s.clk.count + 1) % 2 ^ 64) ∧
      (s.dev.rb Reg.GLB_CLK_STATUS 29 = false → s.dev.pins.refclk = true → t.clk.count = (s.clk.count + 10) % 2 ^ 64) ∧
      (s.dev.rb Reg.GLB_CLK_STATUS 29 = false → s.dev.pins.refclk = false → t.clk = s.clk))

/-- Right after reset every register reads its reset value (R14), the block is in stage 0x0 (R46), every cluster thread is
stopped with its state 0 (R81), the Atelier cores stand at the Primer in supervisor mode (R119), and the invariants of this
file hold: the time is in range and memory is in canonical form. That memory and time start at 0 is the model's choice
(log entries 10, 37). -/
def Obligations.ResetState : Prop :=
  (∀ o, State.reset.dev.reg o = regReset o) ∧ State.reset.dev.stage = 0 ∧
  (∀ t, t < 1536 → State.reset.dev.thr t = Thread.reset) ∧
  (∀ k, k < 4 → (State.reset.dev.thr (1536 + k)).pc = 0x08000000 ∧ (State.reset.dev.thr (1536 + k)).sstatus = 1) ∧
  State.reset.clk.ok = true ∧ Memory.wf State.reset.dev.mem = true ∧ State.reset.pending = []

/-- A well-formed command answers a next state and leaves the queue as it is; one that is not well formed names no unit of
the device and stops; no command is refused (the model's choice, log entry 18). -/
def Obligations.CommandsAnswer : Prop :=
  ∀ (c : Instr) (s : State), (c.wf = true → ∃ t, exec c s = .next t ∧ t.pending = s.pending) ∧
    (c.wf = false → exec c s = .fault .noSuchUnit)

/-- Every step keeps the ranges of the time base (R412): nanoseconds below 10^9, seconds of 48 bits, a fraction of 32 bits
with its hidden 16 and a nanosecond counter of 64 bits (R82), whichever command runs. -/
def Obligations.TimeStaysInRange : Prop :=
  ∀ (s t : State), s.clk.ok = true → step s = .next t → t.clk.ok = true

/-- Only the commands that set or step the time, that write the register that does, that raise TIME_PPS_OUT, or that reset
the device touch the clock (R82, R413, R417): across every other command it stands as it was. -/
def Obligations.TimeMovesOnlyByTime : Prop :=
  ∀ (c : Instr) (s t : State), exec c s = .next t → setsTime c = false → t.clk = s.clk

/-- No step changes the fused identity (R490, R491), and the fuses that a boot may blow only gain (R498): a revoked key
stays revoked and the minimum svn never falls. -/
def Obligations.FusesOnlyGain : Prop :=
  ∀ (s t : State), step s = .next t → t.idn.sameFuses s.idn ∧ s.idn.svnMin ≤ t.idn.svnMin ∧
    t.idn.revoked ||| s.idn.revoked = t.idn.revoked

/-- No measurement is written otherwise before reset (R503): a step leaves the measurements alone, or extends M3, or
extends M2 by the commit of a profile, or sets all four at a boot out of stage 0x1 with M3 at 64 zero bytes, or is a
reset, which leaves 64 zero bytes in each. -/
def Obligations.MeasurementsKept : Prop :=
  ∀ (s t : State), step s = .next t →
    t.idn.meas = s.idn.meas ∨ s.idn.extends t.idn 3 ∨
    ((∃ rest, s.pending = .profileCommit :: rest) ∧ s.idn.extends t.idn 2) ∨
    (s.dev.stage = 1 ∧ t.idn.meas[0]? = some (padTo 64 Config.primerDigest) ∧ t.idn.meas[3]? = some (zeros 64) ∧
      t.idn.meas.length = 4) ∨
    t.idn.meas = List.replicate 4 (zeros 64)

/-- Writes of memory keep its canonical form, and where nothing is poisoned, mirrored or retired a byte reads back as
written inside the bytes written and as before outside them. -/
def Obligations.MemoryWrites : Prop :=
  ∀ (d : Dev) (a : Nat) (bs : List Byte), Memory.wf d.mem = true →
    Memory.wf (d.memWrite a bs).mem = true ∧
    (d.plainMem → ∀ x, (d.memWrite a bs).memGet x =
      if a ≤ x ∧ x < a + bs.length then bs.getD (x - a) 0 else d.memGet x)

/-- Division never traps (R93): the word completes, and with divisor 0 the quotient is 0xFFFF_FFFF, the remainder is the
dividend, D is set and V cleared; divs of 0x8000_0000 by 0xFFFF_FFFF returns 0x8000_0000 and rems of them 0, with V set. -/
def Obligations.DivisionNeverTraps : Prop :=
  ∀ (s : State) (t : Nat) (f : RFmt), isThread t = true → s.dev.ready t → 4 ≤ f.fn.toNat → f.fn.toNat < 8 →
    ∃ u : Thread, exec (.divide t f) s = .next (s.retired t fun _ => u) ∧ u.ecause = (s.dev.thr t).ecause ∧
      let a := (s.dev.thr t).g f.ra.toNat
      let b := (s.dev.thr t).g f.rb.toNat
      (b = 0 → flagD u.flags = true ∧ flagV u.flags = false ∧
        (f.rd ≠ 0 → (f.fn.toNat = 4 ∨ f.fn.toNat = 5 → u.g f.rd.toNat = 0xFFFFFFFF) ∧
          (f.fn.toNat = 6 ∨ f.fn.toNat = 7 → u.g f.rd.toNat = a))) ∧
      (a = 0x80000000 → b = 0xFFFFFFFF → f.fn.toNat = 5 ∨ f.fn.toNat = 7 → flagV u.flags = true ∧
        (f.rd ≠ 0 → u.g f.rd.toNat = if f.fn.toNat = 5 then 0x80000000 else 0))

/-- neg of 0x8000_0000 returns 0x8000_0000 and sets V; in general neg sets C only when its operand is 0 (R94). -/
def Obligations.NegCorners : Prop :=
  ∀ (s : State) (t : Nat) (f : RFmt), isThread t = true → s.dev.ready t → f.rb = 0 → f.fn.toNat / 64 % 8 = 0 →
    f.fn.toNat % 64 = 0x19 →
    ∃ u : Thread, exec (.aluOp t f) s = .next (s.retired t fun _ => u) ∧
      let a := (s.dev.thr t).g f.ra.toNat
      (a = 0x80000000 → flagV u.flags = true ∧ (f.rd ≠ 0 → u.g f.rd.toNat = 0x80000000)) ∧
      (flagC u.flags = true → a = 0)

/-- Words that compute on a thread's registers (R84 to R87, R91 to R95): the destination and the flags of the operation,
and the next word; nothing else changes. `g0` reads as 0 and takes no value (R81). -/
def Obligations.KrovalArithmetic : Prop :=
  ∀ (s : State) (t : Nat), isThread t = true → s.dev.ready t →
    (∀ (f : RFmt) (r : Option Word) (w : FlagW),
      f.fn.toNat / 64 % 8 = 0 →
      (aluUnary (f.fn.toNat % 64) = true → f.rb = 0) →
      (aluNoDest (f.fn.toNat % 64) = true → f.rd = 0) →
      aluOp (f.fn.toNat % 64) ((s.dev.thr t).g f.ra.toNat) ((s.dev.thr t).g f.rb.toNat) (flagC (s.dev.thr t).flags)
        = some (r, w) →
      exec (.aluOp t f) s = .next (s.retired t fun th =>
        let th := if aluAlways (f.fn.toNat % 64) || f.fn.toNat.testBit 9 then th.setFlags w else th
        match r with
        | some v => th.setG f.rd.toNat v
        | none => th)) ∧
    (∀ (f : RFmt) (r : Word) (w : FlagW),
      f.fn.toNat < 4 →
      mulOp f.fn.toNat ((s.dev.thr t).g f.ra.toNat) ((s.dev.thr t).g f.rb.toNat) = some (r, w) →
      exec (.multiply t f) s = .next (s.retired t fun th => th.result f.rd.toNat r w)) ∧
    (∀ f : RFmt, 4 ≤ f.fn.toNat → f.fn.toNat < 8 →
      exec (.divide t f) s = .next (s.retired t fun th =>
        let x := divOp (f.fn.toNat - 4) (th.g f.ra.toNat) (th.g f.rb.toNat)
        th.result f.rd.toNat x.1 x.2)) ∧
    (∀ f : IFmt, exec (.addi t f) s = .next (s.retired t fun th =>
      th.setG f.rd.toNat (th.g f.ra.toNat + sextN 15 f.imm.toNat))) ∧
    (∀ f : IFmt, exec (.addis t f) s = .next (s.retired t fun th =>
      let x := addW (th.g f.ra.toNat) (sextN 15 f.imm.toNat) false
      th.result f.rd.toNat x.1 x.2)) ∧
    (∀ f : IFmt, exec (.andi t f) s = .next (s.retired t fun th =>
      let r := th.g f.ra.toNat &&& wd f.imm.toNat
      th.result f.rd.toNat r (flagsNZ r))) ∧
    (∀ f : IFmt, exec (.ori t f) s = .next (s.retired t fun th =>
      th.setG f.rd.toNat (th.g f.ra.toNat ||| wd f.imm.toNat))) ∧
    (∀ f : IFmt, exec (.xori t f) s = .next (s.retired t fun th =>
      th.setG f.rd.toNat (th.g f.ra.toNat ^^^ wd f.imm.toNat))) ∧
    (∀ f : IFmt, f.imm.toNat / 2 ^ 7 % 2 ^ 7 = 0 →
      exec (.shifti t f) s = .next (s.retired t fun th =>
        let k := match f.imm.toNat / 2 ^ 5 % 4 with
          | 0 => Sh.sll
          | 1 => Sh.srl
          | 2 => Sh.sra
          | _ => Sh.ror
        let x := shiftW k (th.g f.ra.toNat) (f.imm.toNat % 32)
        th.result f.rd.toNat x.1 (if f.imm.toNat.testBit 14 then x.2 else .keep))) ∧
    (∀ f : IFmt, f.rd = 0 → exec (.cmpi t f) s = .next (s.retired t fun th =>
      th.setFlags (subW (th.g f.ra.toNat) (sextN 15 f.imm.toNat) true).2)) ∧
    (∀ (rd : BitVec 5) (imm : BitVec 20), exec (.lui t rd imm) s = .next (s.retired t fun th =>
      th.setG rd.toNat (wd (imm.toNat * 2 ^ 12)))) ∧
    (∀ (p : BitVec 31) (th' : Thread), hasRep (pairWord p) = false → (s.dev.thr t).pairEff (pairWord p) = some th' →
      exec (.shortPair t p) s = .next (s.retired t fun _ => th'))

/-- Branches (R85, R96, R114): the delay slot is next and the destination follows it; call and callr write lk; eret
returns after its delay slot, to epc with estat.intrap cleared; rep repeats the next word lc times, or skips it at 0 (R99). -/
def Obligations.KrovalBranches : Prop :=
  ∀ (s : State) (t : Nat), isThread t = true → s.dev.ready t →
    (∀ (cond : BitVec 4) (off : BitVec 20) (w : Word), slotForbidden w = false →
      exec (.bcc t false cond off w) s = .next (s.branched t id fun th =>
        if condTaken cond.toNat th.flags then th.pc + sextN 20 off.toNat * 4 else th.pc + 8)) ∧
    (∀ (off : BitVec 25) (w : Word), slotForbidden w = false →
      exec (.call t off w) s = .next (s.branched t (fun th => th.setG 31 (th.pc + 8)) fun th =>
        th.pc + sextN 25 off.toNat * 4)) ∧
    (∀ (ra : BitVec 5) (w : Word), slotForbidden w = false →
      exec (.jr t ⟨0, ra, 0⟩ w) s = .next (s.branched t id fun th => th.g ra.toNat)) ∧
    (∀ (ra : BitVec 5) (w : Word), slotForbidden w = false →
      exec (.callr t ⟨0, ra, 0⟩ w) s = .next (s.branched t (fun th => th.setG 31 (th.pc + 8)) fun th => th.g ra.toNat)) ∧
    (∀ w : Word, slotForbidden w = false → (isAtl t = true → (s.dev.thr t).super = true) →
      exec (.eret t 0 w) s
        = .next (s.withDev (s.dev.setThr t { s.dev.thr t with pc := (s.dev.thr t).pc + 4, slot := .eret }))) ∧
    (∀ (rd : BitVec 5) (imm : BitVec 20), isAtl t = false → (s.dev.thr t).slot = .eret → (s.dev.thr t).repLeft = 0 →
      bit (s.dev.thr t).estat 1 = false → bit (s.dev.thr t).estat 2 = false →
      ∃ u, exec (.lui t rd imm) s = .next u ∧ (u.dev.thr t).pc = (s.dev.thr t).epc ∧ (u.dev.thr t).slot = .none ∧
        (u.dev.thr t).intrap = false ∧ s.onlyThread u t) ∧
    (∀ (p : BitVec 31) (w : Word) (th' : Thread), slotForbidden w = false →
      hasRep (pairWord p) = true → (s.dev.thr t).pairEff (pairWord p) = some th' →
      exec (.rep t p w) s = .next (s.withDev (s.dev.setThr t
        (if (s.dev.thr t).lc = 0 then { th' with pc := (s.dev.thr t).pc + 8 }
          else { th' with pc := (s.dev.thr t).pc + 4, repLeft := (s.dev.thr t).lc, repAddr := (s.dev.thr t).pc + 4 }))))

/-- Words whose effect is a trap (R85, R89, R112, R113): sys takes cause 0x05 with its immediate in etval and estat.sys
set, bkpt cause 0x07 with its own address, an undefined or reserved word cause 0x02 or 0x01 with the word. -/
def Obligations.KrovalTraps : Prop :=
  ∀ (s : State) (t : Nat), isThread t = true → s.dev.ready t → s.dev.trapsTo t →
    (∀ imm : BitVec 15, ∃ u, exec (.sys t ⟨0, 0, imm⟩) s = .next u ∧ s.onlyThread u t ∧
      trapEntry (s.dev.thr t) (u.dev.thr t) (isAtl t) 5 (wd imm.toNat) 0x140 ∧ bit (u.dev.thr t).estat 6 = true) ∧
    (∃ u, exec (.bkpt t 0) s = .next u ∧ s.onlyThread u t ∧
      trapEntry (s.dev.thr t) (u.dev.thr t) (isAtl t) 7 (s.dev.thr t).pc 0x1C0 ∧ bit (u.dev.thr t).estat 6 = false) ∧
    (∀ w : Word, undefinedCause w = some 1 ∨ undefinedCause w = some 2 ∧ major w ≠ 0x3F → major w < 0x38 →
      ∃ u, exec (.undefinedInstruction t w) s = .next u ∧ s.onlyThread u t ∧
        ∀ c, undefinedCause w = some c → trapEntry (s.dev.thr t) (u.dev.thr t) (isAtl t) (wd c) w (c * 0x40))

/-- Loads of a cluster thread from its own shared memory (R85, R103): ldw, ldh, ldhu, ldb and ldbu take the little-endian
bytes at ra + sext(imm15), extended; ldw+ takes those at ra and advances ra. Memory is unchanged. -/
def Obligations.KrovalLoads : Prop :=
  ∀ (s : State) (t : Nat) (f : IFmt), s.dev.ready t →
    let at_ := ((s.dev.thr t).g f.ra.toNat + sextN 15 f.imm.toNat).toNat
    let post := ((s.dev.thr t).g f.ra.toNat).toNat
    (s.dev.ownAccess t false at_ 4 → ∃ u, exec (.ldw t f) s = .next u ∧ s.onlyThread u t ∧
      (u.dev.thr t).gpr = ((s.dev.thr t).setG f.rd.toNat (wd (leVal (s.dev.ownBytes t at_ 4)))).gpr) ∧
    (s.dev.ownAccess t false at_ 2 → ∃ u, exec (.ldh t f) s = .next u ∧ s.onlyThread u t ∧
      (u.dev.thr t).gpr = ((s.dev.thr t).setG f.rd.toNat (sextN 16 (leVal (s.dev.ownBytes t at_ 2)))).gpr) ∧
    (s.dev.ownAccess t false at_ 2 → ∃ u, exec (.ldhu t f) s = .next u ∧ s.onlyThread u t ∧
      (u.dev.thr t).gpr = ((s.dev.thr t).setG f.rd.toNat (wd (leVal (s.dev.ownBytes t at_ 2)))).gpr) ∧
    (s.dev.ownAccess t false at_ 1 → ∃ u, exec (.ldb t f) s = .next u ∧ s.onlyThread u t ∧
      (u.dev.thr t).gpr = ((s.dev.thr t).setG f.rd.toNat (sextN 8 (leVal (s.dev.ownBytes t at_ 1)))).gpr) ∧
    (s.dev.ownAccess t false at_ 1 → ∃ u, exec (.ldbu t f) s = .next u ∧ s.onlyThread u t ∧
      (u.dev.thr t).gpr = ((s.dev.thr t).setG f.rd.toNat (wd (leVal (s.dev.ownBytes t at_ 1)))).gpr) ∧
    (s.dev.ownAccess t false post 4 → f.rd ≠ f.ra → ∃ u, exec (.ldwPostinc t f) s = .next u ∧ s.onlyThread u t ∧
      (u.dev.thr t).gpr = (((s.dev.thr t).setG f.rd.toNat (wd (leVal (s.dev.ownBytes t post 4)))).setG f.ra.toNat
        ((s.dev.thr t).g f.ra.toNat + sextN 15 f.imm.toNat)).gpr)

/-- Stores of a cluster thread to its own shared memory (R85, R103): stw, sth and stb write the low bytes of rd, least
significant first, at ra + sext(imm15); stw+ writes them at ra and advances ra. Every other byte reads as before. -/
def Obligations.KrovalStores : Prop :=
  ∀ (s : State) (t : Nat) (f : IFmt), s.dev.ready t →
    s.dev.drc.poison = [] → s.dev.drc.mirrors = [] → s.dev.rf Reg.DRC_STATUS 23 16 = 0 →
    let at_ := ((s.dev.thr t).g f.ra.toNat + sextN 15 f.imm.toNat).toNat
    let post := ((s.dev.thr t).g f.ra.toNat).toNat
    let stored := fun (u : State) (va n : Nat) =>
      (∀ a, a < cluBase (clusterOf t) + va ∨ cluBase (clusterOf t) + va + n ≤ a → u.dev.memGet a = s.dev.memGet a) ∧
      u.dev.ownBytes t va n = leBytes n ((s.dev.thr t).g f.rd.toNat).toNat
    (s.dev.ownAccess t true at_ 4 → ∃ u, exec (.stw t f) s = .next u ∧ stored u at_ 4 ∧
      (u.dev.thr t).gpr = (s.dev.thr t).gpr) ∧
    (s.dev.ownAccess t true at_ 2 → ∃ u, exec (.sth t f) s = .next u ∧ stored u at_ 2 ∧
      (u.dev.thr t).gpr = (s.dev.thr t).gpr) ∧
    (s.dev.ownAccess t true at_ 1 → ∃ u, exec (.stb t f) s = .next u ∧ stored u at_ 1 ∧
      (u.dev.thr t).gpr = (s.dev.thr t).gpr) ∧
    (s.dev.ownAccess t true post 4 → ∃ u, exec (.stwPostinc t f) s = .next u ∧ stored u post 4 ∧
      (u.dev.thr t).gpr = ((s.dev.thr t).setG f.ra.toNat ((s.dev.thr t).g f.ra.toNat + sextN 15 f.imm.toNat)).gpr)

/-- The cache group (R102, R106, R118): sync empties the core's write buffer; dinva, iinva and l2flush leave no line of
the cache, and the line forms leave out the line of ra's address alone; l2clnl leaves its line clean. The thread goes on. A line form
whose address misses the TLB fills it first (R122). -/
def Obligations.KrovalCaches : Prop :=
  ∀ (s : State) (t : Nat) (ra : BitVec 5), isThread t = true → s.dev.ready t →
    let va := ((s.dev.thr t).g ra.toNat).toNat
    let core := coreOf t
    let went := fun (u : State) => u = s.withDev { s.dev with krv := u.dev.krv } ∧
      u.dev.thr t = (s.dev.thr t).advance (isAtl t)
    let filled := s.dev.tlbFill t va
    let wentLine := fun (u : State) => u = s.withDev { filled with krv := u.dev.krv } ∧
      u.dev.thr t = (s.dev.thr t).advance (isAtl t)
    let atl := isAtl t = true ∧ (s.dev.thr t).super = true
    (∃ u, exec (.sync t ⟨0, 0, 0⟩) s = .next u ∧ u.dev.wbuf core = [] ∧ u.dev.thr t = (s.dev.thr t).advance (isAtl t) ∧
      (s.dev.wbuf core = [] → went u)) ∧
    (∃ u, exec (.dinva t ⟨0, 0, 0⟩) s = .next u ∧ went u ∧ (∀ line, u.dev.dline core line = none) ∧
      ∀ c line, c ≠ core → u.dev.dline c line = s.dev.dline c line) ∧
    (∃ u, exec (.iinva t ⟨0, 0, 0⟩) s = .next u ∧ went u ∧ ∀ c line,
      tget none u.dev.krv.icache (icKey c line) = if c = core then none else tget none s.dev.krv.icache (icKey c line)) ∧
    (∀ a, filled.lineAddr t .load va = some a → ∃ u, exec (.dinvl t ⟨0, ra, 0⟩) s = .next u ∧ wentLine u ∧ ∀ c line,
      u.dev.dline c line = if c = core ∧ line = a / 32 then none else s.dev.dline c line) ∧
    (∀ a, filled.lineAddr t .fetch va = some a → ∃ u, exec (.iinvl t ⟨0, ra, 0⟩) s = .next u ∧ wentLine u ∧
      tget none u.dev.krv.icache (icKey core (a / 32)) ≠ some (a / 32) ∧
      ∀ k, tget none s.dev.krv.icache k ≠ some (a / 32) → tget none u.dev.krv.icache k = tget none s.dev.krv.icache k) ∧
    (atl → ∀ a, filled.lineAddr t .load va = some a → ∃ u, exec (.l2invl t ⟨0, ra, 0⟩) s = .next u ∧ wentLine u ∧
      u.dev.krv.l2 = s.dev.krv.l2.filter (fun l => decide (l.base ≠ l2Base a))) ∧
    (atl → ∀ a, filled.lineAddr t .load va = some a → ∃ u, exec (.l2clnl t ⟨0, ra, 0⟩) s = .next u ∧
      u.dev.thr t = (s.dev.thr t).advance true ∧
      u.dev.krv.l2 = s.dev.krv.l2.map (fun l => if l.base = l2Base a then { l with dirty := false } else l)) ∧
    (atl → ∃ u, exec (.l2flush t ⟨0, 0, 0⟩) s = .next u ∧ u.dev.thr t = (s.dev.thr t).advance true ∧
      u.dev.krv.l2 = [])

/-- tlbinv of an Atelier core in supervisor mode (R122): fn 0 leaves no entry; fn 1 leaves out the entries of ra's page;
fn 2 those of ASID ra[7:0] that are not global; fn 3 those of ra's page in the current ASID, global ones included. -/
def Obligations.KrovalTlb : Prop :=
  ∀ (s : State) (t : Nat) (ra : BitVec 5), isThread t = true → s.dev.ready t → isAtl t = true → (s.dev.thr t).super = true →
    let va := ((s.dev.thr t).g ra.toNat).toNat
    let page := fun (e : TlbEntry) => e.vpn = if e.big then va / 2 ^ 21 else va / 2 ^ 12
    let left := fun (keep : TlbEntry → Bool) => s.withDev (({ s.dev with krv := { s.dev.krv with
      tlb := tset [] s.dev.krv.tlb t ((s.dev.tlb t).filter keep) } } : Dev).retire t id)
    exec (.tlbinvAll t ⟨0, 0, 0⟩) s = .next (left fun _ => false) ∧
    exec (.tlbinvPage t ⟨0, ra, 0⟩) s = .next (left fun e => decide (¬ page e)) ∧
    exec (.tlbinvAsid t ⟨0, ra, 0⟩) s = .next (left fun e => decide (¬ (e.asid = va % 256 ∧ e.pte.testBit 5 = false))) ∧
    exec (.tlbinvPageAsid t ⟨0, ra, 0⟩) s = .next (left fun e =>
      decide (¬ (page e ∧ (e.asid = fld (s.dev.thr t).asid 7 0 ∨ e.pte.testBit 5 = true))))

/-- lkacq and lkrel of an aligned word of the cluster's own shared memory (R357 to R360): the request joins the tail of
those on their way to the lock unit; lkacq's thread stalls until rd receives a code, lkrel's goes on. -/
def Obligations.KrovalLocks : Prop :=
  ∀ (s : State) (t : Nat) (rd ra : BitVec 5), isThread t = true → isAtl t = false → s.dev.ready t →
    s.dev.fittedDram ≤ pmBase →
    let va := ((s.dev.thr t).g ra.toNat).toNat
    let asked := fun (acquire : Bool) => { s.dev.lku with
      reqs := s.dev.lku.reqs ++ [⟨t, s.dev.holderId t, cluBase (clusterOf t) + va, acquire⟩] }
    va % 4 = 0 → va < 0x80000 →
    (s.dev.inShared (cluBase (clusterOf t) + va) = true → (txnKey t (s.dev.thr t)).isSome = true) →
    exec (.lkacq t ⟨rd, ra, 0, 0⟩) s = .next (s.withDev { s.dev.setThr t
      { s.dev.thr t with run := .lockWait rd.toNat, fly := (s.dev.thr t).fly ++ [.ok] } with lku := asked true }) ∧
    exec (.lkrel t ⟨0, ra, 0, 0⟩) s = .next (s.withDev { s.dev.setThr t
      (({ s.dev.thr t with fly := (s.dev.thr t).fly ++ [.ok] } : Thread).advance false) with lku := asked false })

/-- Thread control by a core's t0 on the target of ra (R109): thset writes, and thget reads, the selected register of a
stopped master-managed target; thgo releases it at its pc with estat.intrap clear; another target is left alone. -/
def Obligations.KrovalThreadControl : Prop :=
  ∀ (s : State) (t a : Nat) (rd ra rb : BitVec 5) (fn : BitVec 10), isThread t = true → isAtl t = false → s.dev.ready t →
    t % 8 = 0 → ((s.dev.thr t).g ra.toNat).toNat = a → a < 8 → fn.toNat ≤ 36 →
    let u := t / 8 * 8 + a
    let v := (s.dev.thr t).g rb.toNat
    let th := s.dev.thr u
    let written := if fn.toNat < 32 then th.setG fn.toNat v
      else if fn.toNat = 32 then { th with pc := v }
      else if fn.toNat = 33 then { th with flags := v &&& 0xF0000001#32 }
      else if fn.toNat = 34 then { th with lc := v }
      else if fn.toNat = 35 then { th with tvb := v &&& 0xFFFFF800#32 }
      else { th with dwin := v &&& 0x1FF#32 }
    let selected := if fn.toNat < 32 then th.g fn.toNat
      else if fn.toNat = 32 then th.pc
      else if fn.toNat = 33 then th.flags
      else if fn.toNat = 34 then th.lc
      else if fn.toNat = 35 then th.tvb
      else th.dwin
    let answer := fun (d : Dev) (x : Word) => Host.Outcome.next (s.withDev (d.retire t fun th => th.setG rd.toNat x))
    (s.dev.masterManaged u = true → th.run = .stopped →
      exec (.thset t ⟨rd, ra, rb, fn⟩) s = answer (s.dev.setThr u written) 0 ∧
      exec (.thget t ⟨rd, ra, 0, fn⟩) s = answer s.dev selected ∧
      ∃ w, exec (.thgo t ⟨rd, ra, 0, 0⟩) s = .next w ∧ (w.dev.thr u).run = .running ∧ (w.dev.thr u).pc = th.pc ∧
        (w.dev.thr u).gpr = th.gpr ∧ (w.dev.thr u).intrap = false ∧
        w.dev.thr t = ((s.dev.thr t).setG rd.toNat 0).advance false) ∧
    (∀ st : Word, (s.dev.masterManaged u = false ∧ st = 2) ∨ (s.dev.masterManaged u = true ∧ th.run ≠ .stopped ∧ st = 1) →
      exec (.thset t ⟨rd, ra, rb, fn⟩) s = answer s.dev st ∧ exec (.thget t ⟨rd, ra, 0, fn⟩) s = answer s.dev 0)

/-- mfs and mts (R82, R119): each special register is read and written as its row says; now_lo captures now_hi for the
thread's next read of it; tcmp is the low half of the deadline. -/
def Obligations.KrovalSpecialRegisters : Prop :=
  ∀ (s : State) (t : Nat) (r : BitVec 5), isThread t = true → s.dev.ready t →
    let th := s.dev.thr t
    let v := th.g r.toNat
    let reads := fun (fn : BitVec 10) (x : Word) =>
      exec (.mfs t ⟨r, 0, 0, fn⟩) s = .next (s.retired t fun th => th.setG r.toNat x)
    let writes := fun (fn : BitVec 10) (x : Thread) => exec (.mts t ⟨0, r, 0, fn⟩) s = .next (s.retired t fun _ => x)
    let super := isAtl t = true ∧ th.super = true
    (reads 0 th.flags ∧ reads 1 th.lc ∧ reads 2 (wd th.deadline.toNat) ∧ reads 3 th.tvb ∧ reads 4 th.epc ∧
      reads 5 th.ecause ∧ reads 6 th.etval ∧ reads 7 th.estat ∧ reads 8 th.ebta ∧ reads 9 th.rcnt ∧
      reads 10 (if isAtl t then wd (0x1F00 + (t - 1536) * 8) else wd (t / 64 * 256 + t / 8 % 8 * 8 + t % 8)) ∧
      (isAtl t = false → reads 13 th.dwin) ∧
      (super → reads 0x100 th.sstatus ∧ reads 0x101 th.ptbr ∧ reads 0x102 th.asid) ∧
      exec (.mfs t ⟨r, 0, 0, 11⟩) s = .next (s.retired t fun th =>
        ({ th with nowHi := some (wd (s.clk.count / 2 ^ 32)) } : Thread).setG r.toNat (wd s.clk.count)) ∧
      exec (.mfs t ⟨r, 0, 0, 12⟩) s = .next (s.retired t fun th =>
        ({ th with nowHi := none } : Thread).setG r.toNat (th.nowHi.getD (wd (s.clk.count / 2 ^ 32))))) ∧
    (writes 0 { th with flags := v &&& 0xF0000001#32 } ∧ writes 1 { th with lc := v } ∧
      writes 2 { th with deadline := BitVec.ofNat 64 (th.deadline.toNat / 2 ^ 32 * 2 ^ 32 + v.toNat) } ∧
      (isAtl t = false ∨ super → writes 3 { th with tvb := v &&& 0xFFFFF800#32 }) ∧ writes 4 { th with epc := v } ∧
      writes 5 { th with ecause := v &&& 0x800000FF#32 } ∧ writes 6 { th with etval := v } ∧
      writes 7 { th with estat := v &&& 0x7F#32 } ∧ writes 8 { th with ebta := v } ∧ writes 9 { th with rcnt := v } ∧
      (isAtl t = false → writes 13 { th with dwin := v &&& 0x1FF#32 }) ∧
      (super → writes 0x100 { th with sstatus := wd (v.toNat % 16 / 2 * 2 + 1) } ∧ writes 0x101 { th with ptbr := v } ∧ writes 0x102 { th with asid := wd (v.toNat % 256) }))

/-- wt and what ends it (R110): the deadline is now + ra; an event already there ends it at once with 1, ra = 0 with 0,
and otherwise the thread waits; the address of a kind-1 wait fills the TLB on a miss (R122); a deadline reached ends the wait. An Atelier timer that is reached makes line 4 pending. -/
def Obligations.KrovalWaits : Prop :=
  ∀ (s : State) (t : Nat) (rd ra rb : BitVec 5) (kind : BitVec 10), isThread t = true →
    let th := s.dev.thr t
    let wait := (th.g ra.toNat).toNat
    let op := th.g rb.toNat
    let at_ := BitVec.ofNat 64 (s.clk.count + wait)
    let filled := if kind.toNat = 1 then s.dev.tlbFill t op.toNat else s.dev
    let event := fun (d : Dev) => d.waitEvent t kind.toNat op
    let ended := fun (x : Word) => s.withDev (filled.setThr t
      ((({ th with deadline := at_ } : Thread).setG rd.toNat x).advance (isAtl t)))
    (s.dev.ready t → kind.toNat < 3 → (kind.toNat = 0 → rb.toNat = 0) →
      exec (.wt t ⟨rd, ra, rb, kind⟩) s = .next (if event filled then ended 1 else if wait = 0 then ended 0
        else s.withDev (filled.setThr t { th with deadline := at_, run := .waiting kind.toNat op rd.toNat }))) ∧
    (th.run = .waiting kind.toNat op rd.toNat → th.deadline.toNat ≤ s.clk.count →
      exec (.waitDeadline t) s = .next (s.withDev (s.dev.setThr t
        ((({ th with run := .running } : Thread).setG rd.toNat (if event s.dev then 1 else 0)).advance (isAtl t))))) ∧
    (∀ k, k < 4 → (s.dev.reg (Reg.ATL_TIMER k 0)).toNat + 2 ^ 32 * (s.dev.reg (Reg.ATL_TIMER k 1)).toNat ≤ s.clk.count →
      s.dev.mgt.timerHit.testBit k = false →
      ∃ u, exec (.atelierTimer k) s = .next u ∧ u.dev.intLine k 4 = true ∧ u = s.withDev { s.dev with mgt := u.dev.mgt })

/-- The words that end a task (R127, R148, R159, R168): tend and vcommit stop the thread, vcommit with its transaction
ending; vabort aborts it with cause 0x9, or 0xC in an irrevocable run; tcont stores the record at ra as the transaction's. -/
def Obligations.KrovalTaskEnds : Prop :=
  ∀ (s : State) (t : Nat), isThread t = true → isAtl t = false → s.dev.ready t →
    let th := s.dev.thr t
    let stopped := fun (u : State) => (u.dev.thr t).run = .stopped ∧ (u.dev.thr t).task = none
    (th.hasTxn = false → ∃ u, exec (.tend t 0) s = .next u ∧ stopped u ∧ u.dev.vrn = s.dev.vrn) ∧
    (∀ k, th.task = some k → k.hasTxn = true →
      let key := 256 * (t / 64) + k.txn
      (∃ u, exec (.vcommit t 0) s = .next u ∧ stopped u ∧ u.dev.txn key = { s.dev.txn key with phase := .ending } ∧
        ∀ j, j ≠ key → u.dev.txn j = s.dev.txn j) ∧
      (∃ u, exec (.vabort t 0) s = .next u ∧ u.dev.thr t = th ∧
        let cause := if (s.dev.txn key).irrev = .granted then 0xC else 9
        (u.dev.txn key).phase = .aborted cause ∧ (u.dev.txn key).ws = [] ∧ (u.dev.txn key).sig = 0 ∧
        u.dev.vrn.aborts = s.dev.vrn.aborts ++ [(key, cause)]) ∧
      (∀ (ra : BitVec 5) (r : Rec),
        let va := (th.g ra.toNat).toNat
        let bs := s.dev.ownBytes t va 64
        va % 64 = 0 → va < 0x80000 → parseRec bs = (r, true) → r.tokens = [] →
        ∃ u x, exec (.tcont t ⟨0, ra, 0, 0⟩) s = .next u ∧ stopped u ∧ u.dev.rcd (t / 64) k.txn = some x ∧
          x.entry = wd (leAt bs 0 4) ∧ x.prio = fld (wd (leAt bs 4 4)) 2 0 ∧ x.user = wd (leAt bs 16 4) ∧
          x.ticket = k.ticket ∧ x.canvas = k.canvas ∧ x.hasTxn = true ∧ x.txn = k.txn ∧ x.resume = false))

/-- What completes a thread's words (R73, R74, R98, R113, R123): a check that fails traps; load data reach rd, an
uncached DRAM load's after the core's earlier stores; an I-cache
fill of sound memory installs its line; an enabled pending Atelier interrupt enters at tvb + 0x400 with the line in ecause. -/
def Obligations.KrovalEvents : Prop :=
  ∀ (s : State) (t : Nat), isThread t = true → s.dev.txnRuns t = true →
    let th := s.dev.thr t
    (∀ x r, th.fly = .trap x :: r → x.kind < 4 → s.dev.trapsTo t → ∃ u, exec (.accessCheckComplete t) s = .next u ∧
      s.onlyThread u t ∧ trapEntry th (u.dev.thr t) (isAtl t) (wd x.cause) x.etval (x.cause * 0x40)) ∧
    (∀ r, th.fly = .ok :: r → (∀ op, r.head? ≠ some (.brush op)) →
      exec (.accessCheckComplete t) s = .next (s.withDev (s.dev.setThr t { th with fly := r }))) ∧
    (∀ l, th.load = some l → l.tracked = false → l.cached = false →
      let synced := if l.paddr < s.dev.fittedDram then s.dev.ncSync t l.paddr else s.dev
      synced.sramBad l.paddr l.size = false → (isAtl t = true → s.dev.l2Bad l.paddr l.size = false) →
      l.paddr < semBase ∨ semBase + 0x10000 ≤ l.paddr →
      s.dev.dramDone (.load t) = some false ∨ s.dev.drc.reqs.any (fun q => decide (q.who = .load t)) = false →
      ∃ u, exec (.loadDataReturn t) s = .next u ∧ u.dev.mem = synced.mem ∧
        u.dev.thr t = (th.loaded l (loadVal l.size l.signed (synced.memRead l.paddr l.size))).advance (isAtl t)) ∧
    (∀ l b, isAtl t = false → th.run = .running → s.dev.coreClocked t = true → th.clear = true → s.dev.fetchHit t = false →
      th.pc.toNat % 4 = 0 → s.dev.fetchLine t = .ok l b → s.dev.poisoned (32 * l) 32 = false → s.dev.sramBad (32 * l) 32 = false →
      ∃ u, exec (.icacheFillDone t) s = .next u ∧ u = s.withDev { s.dev.dateUes s.clk.count with krv := u.dev.krv } ∧
        u.dev.thr t = th ∧ tget none u.dev.krv.icache (icKey (coreOf t) l) = some l) ∧
    (∀ k n, t = 1536 + k → k < 4 → n < 7 → th.run = .running → th.slot = .none → th.clear = true → th.dbg = .none →
      bit th.sstatus 1 = true → s.dev.intLine k n = true → s.dev.rb Reg.ATL_INT_EN n = true → s.dev.coreClocked t = true →
      ∃ u, exec (.atelierInterrupt k n) s = .next u ∧ s.onlyThread u t ∧
        trapEntry th (u.dev.thr t) true (wd (2 ^ 31 + n)) 0 0x400)

/-- Edit and Hash functions that are confirmed as they issue (R206 to R208, R224, R227): an accepted Edit function changes
the working Canvas alone and returns 0; a Hash function writes its value and status to the result block and returns it. -/
def Obligations.BrushEditHash : Prop :=
  ∀ (s : State) (t : Nat) (f : R3), s.dev.plainMem →
    let th := s.dev.thr t
    let ra := th.g f.ra.toNat
    let rb := th.g f.rb.toNat
    let gone := fun (u : State) (x : Word) => u.dev.thr t = (th.advance false).setG f.rd.toNat x ∧
      u = s.withDev { s.dev with krv := u.dev.krv, mem := u.dev.mem }
    (∀ fn m, let o := fun (c : Instr) => ∃ u, exec c s = .next u ∧ gone u 0 ∧
        u.dev.mem = putBytes s.dev.mem (s.dev.canvasAddr t) m
      s.dev.brushes t 0 fn f →
      editCanvas fn (s.dev.memRead (s.dev.canvasAddr t) 256) (s.dev.brushBlock t 0 fn ra) = .ok m →
      (fn = 0 → o (.edpush t f)) ∧ (fn = 1 → o (.edpop t f)) ∧ (fn = 2 → o (.edrw t f))) ∧
    (∀ fn, let r := s.dev.hashDo (clusterOf t) fn (s.dev.brushBlock t 2 fn ra)
      let o := fun (c : Instr) => ∃ u, exec c s = .next u ∧ gone u r.1 ∧
        u.dev.mem = putBytes s.dev.mem (ownAddr t rb 8) (leBytes 4 r.1.toNat ++ leBytes 4 r.2)
      s.dev.brushes t 2 fn f →
      (fn = 0 → o (.hcrc t f)) ∧ (fn = 1 → o (.htpz t f)) ∧ (fn = 2 → o (.hsum t f)) ∧ (fn = 3 → o (.hsupd t f)))

/-- What an Edit function makes of a Canvas image (R207, R208): edpush moves hdr_start down by n and puts the data in
front of the offset, edpop moves it up, edrw replaces the bytes at the offset; a range error is 2, no headroom 1. -/
def Obligations.EditRules : Prop :=
  ∀ (img blk : List Byte) (o n : Nat), leAt blk 0 4 = n * 256 + o → o < 256 → 0 < n → n < 256 →
    let hs := (byteAt img 0xC3).toNat
    let he := (byteAt img 0xC4).toNat
    let data := slice blk 4 n
    (hs ≤ o → o ≤ he → n ≤ 64 → n ≤ hs → ∃ m, editCanvas 0 img blk = .ok m) ∧
    (hs ≤ o → o ≤ he → n ≤ 64 → hs < n → editCanvas 0 img blk = .error 1) ∧
    (¬ (hs ≤ o ∧ o ≤ he ∧ n ≤ 64) → editCanvas 0 img blk = .error 2) ∧
    (hs ≤ o → o + n ≤ he → n ≤ 128 → ∃ m, editCanvas 1 img blk = .ok m) ∧
    (¬ (hs ≤ o ∧ o + n ≤ he ∧ n ≤ 128) → editCanvas 1 img blk = .error 2) ∧
    (hs ≤ o → o + n ≤ he → n ≤ 64 → editCanvas 2 img blk = .ok (patch img o data)) ∧
    (¬ (hs ≤ o ∧ o + n ≤ he ∧ n ≤ 64) → editCanvas 2 img blk = .error 2)

/-- Functions that make one write-set entry in a speculative transaction (R157, R217, R228, R232): mtr returns the colour
it evaluates, cnt, enq, pdrop, pfree and pswap 0, and pshare 0 for 1 to 255 shares and a releaser below 64. -/
def Obligations.BrushEntries : Prop :=
  ∀ (s : State) (t k : Nat) (f : R3), txnKey t (s.dev.thr t) = some k →
    (s.dev.txn k).irrev ≠ .granted → (s.dev.txn k).ws.length < 48 → s.dev.vrn.cps = [] →
    let th := s.dev.thr t
    let ra := th.g f.ra.toNat
    let made := fun (c : Instr) (v : Word) (e : WsEntry) => ∃ u, exec c s = .next u ∧
      u.dev.thr t = (th.advance false).setG f.rd.toNat v ∧
      u.dev.txn k = { s.dev.txn k with ws := (s.dev.txn k).ws ++ [e] } ∧
      u = s.withDev { s.dev with krv := u.dev.krv, vrn := u.dev.vrn }
    (let blk := s.dev.brushBlock t 3 0 ra
     let i := leAt blk 0 4 % 2 ^ 20
     let colour := min (leAt blk 0 4 / 2 ^ 20 % 4) 2
     let got := ((s.dev.meter i).eval s.clk.count (leAt blk 4 2) colour).1
     s.dev.brushes t 3 0 f → s.dev.meterOn i = true →
       made (.mtr t f) (wd got) (.meter i (leAt blk 4 2) colour got)) ∧
    (let blk := s.dev.brushBlock t 3 1 ra
     s.dev.brushes t 3 1 f → s.dev.rb Reg.MTR_CTL 0 = true →
       made (.cnt t f) 0 (.counter (leAt blk 0 4 % 2 ^ 21) (leAt blk 4 4) (leAt blk 8 2))) ∧
    (let blk := s.dev.brushBlock t 5 0 ra
     s.dev.brushes t 5 0 f →
       made (.enq t f) 0 (.enq (leAt blk 0 2) (wd (leAt blk 4 4)) (leAt blk 8 1 % 4))) ∧
    (∀ fn, let blk := s.dev.brushBlock t 5 fn ra
      let arg := wd (leAt blk 4 4)
      let e := WsEntry.pal fn (wd (leAt blk 0 4)) arg
      s.dev.brushes t 5 fn f →
        (fn = 0x10 → fld arg 7 0 ≠ 0 → fld arg 15 8 < 64 → fld arg 31 16 = 0 → made (.pshare t f) 0 e) ∧
        (fn = 0x11 → made (.pdrop t f) 0 e) ∧ (fn = 0x12 → made (.pfree t f) 0 e) ∧ (fn = 0x13 → made (.pswap t f) 0 e))

/-- Functions that report completion, confirmed as they issue (R217, R220, R225, R230): rd receives the token, which is
live; lkup and lkupl queue their lookup at the least loaded engine; cenc and cdec complete with one of the statuses of
R230: 2 without an association, 4 outside the live header, and otherwise 0, 1 (cdec alone) or 3. A lookup that issues behind a
check that fails stays unconfirmed with its token index assigned and has no other effect. -/
def Obligations.BrushCompletions : Prop :=
  ∀ (s : State) (t i : Nat) (f : R3),
    s.dev.assignTok (clusterOf t) ((txnKey t (s.dev.thr t)).map (· % 256)) = some i →
    let c := clusterOf t
    let token := s.dev.tokenOf c i
    let th := s.dev.thr t
    let ra := th.g f.ra.toNat
    let rb := th.g f.rb.toNat
    let took := fun (u : State) => (u.dev.thr t).g f.rd.toNat = (if f.rd = 0 then 0 else wd token) ∧
      (u.dev.tok (tokKey c token)).live = true ∧ (u.dev.tok (tokKey c token)).gen = token / 4096
    (∀ fn, let blk := s.dev.brushBlock t 1 fn ra
      let o := fun (c : Instr) => ∃ u r, exec c s = .next u ∧ took u ∧ u.dev.brs.lookups = s.dev.brs.lookups ++ [r] ∧
        r.cluster = clusterOf t ∧ r.token = token ∧ r.txn = txnKey t th ∧ r.table = leAt blk 0 4 % 256 ∧
        r.key = slice blk 4 (leAt blk 0 4 / 256 % 128) ∧ r.result = ownAddr t rb 48 ∧ r.engine = s.dev.leastEngine ∧
        r.learn = (if fn = 1 then some (leAt blk 0 4 / 65536 % 256) else none) ∧ u.dev.mem = s.dev.mem
      s.dev.brushes t 1 fn f → (fn = 0 → o (.lkup t f)) ∧ (fn = 1 → o (.lkupl t f))) ∧
    (∀ fn, let blk := s.dev.brushBlock t 4 fn ra
      let w0 := leAt blk 0 4
      let at_ := w0 / 2 ^ 16 % 256
      let hdr := fun n => (s.dev.memGet (s.dev.canvasAddr t + n)).toNat
      let inside := hdr 0xC3 ≤ at_ ∧ at_ < hdr 0xC4 ∧ (txnKey t th).isSome = true
      let sa := s.dev.secAssoc (w0 % 4096)
      let o := fun (c : Instr) => ∃ u st, exec c s = .next u ∧ took u ∧
        u.dev.esl.comps = s.dev.esl.comps ++ [⟨clusterOf t, token, st⟩] ∧
        (sa = none → st = 2) ∧ (sa ≠ none → ¬ inside → st = 4) ∧
        (sa ≠ none → inside → st = 0 ∨ st = 3 ∨ (fn = 1 ∧ st = 1))
      s.dev.brushes t 4 fn f → (fn = 0 → o (.cenc t f)) ∧ (fn = 1 → o (.cdec t f))) ∧
    (∀ x fn j, let e := s.dev.updThr t (fun th => { th with pc := th.pc + 4, fly := [] })
      let o := fun (c : Instr) => ∃ op : BrushOp, op.tok = some j ∧ op.rd = f.rd.toNat ∧ op.blk = s.dev.brushBlock t 1 fn ra ∧
        exec c s = .next (s.withDev (s.dev.setThr t { th with fly := [.trap x, .brush op] }))
      th.fly = [.trap x] → th.slot = .none → th.repLeft = 0 → e.brushes t 1 fn f →
      e.assignTok c ((txnKey t th).map (· % 256)) = some j → (fn = 0 → o (.lkup t f)) ∧ (fn = 1 → o (.lkupl t f)))

/-- The Message functions, bsave and brest, confirmed as they issue (R223, R233 to R236): mopen opens, mput appends 1 to
16 words, mclose in a speculative transaction makes an entry, mpost stores its record, bsave writes the thread's image and
brest loads an accepted one. -/
def Obligations.BrushMessages : Prop :=
  ∀ (s : State) (t : Nat) (f : R3),
    let c := clusterOf t
    let th := s.dev.thr t
    let ra := th.g f.ra.toNat
    let blk := fun b fn => s.dev.brushBlock t b fn ra
    let done := fun (u : State) (m : Option OpenMsg) =>
      u.dev.thr t = ({ th.advance false with msg := m } : Thread).setG f.rd.toNat 0
    (s.dev.brushes t 6 0 f → th.msg = none → s.dev.chanEnabled (leAt (blk 6 0) 0 2 % 2048) = true →
      ∃ u, exec (.mopen t f) s = .next u ∧ done u (some ⟨leAt (blk 6 0) 0 2 % 2048, []⟩)) ∧
    (∀ m n, s.dev.brushes t 6 1 f → th.msg = some m → leAt (blk 6 1) 0 1 % 32 = n → 0 < n → m.words.length + n ≤ 16 →
      ∃ u, exec (.mput t f) s = .next u ∧
        done u (some ⟨m.channel, m.words ++ bytesWords n ((blk 6 1).drop 4)⟩)) ∧
    (∀ m k, s.dev.brushes t 6 2 f → th.msg = some m → txnKey t th = some k → (s.dev.txn k).irrev ≠ .granted →
      (s.dev.txn k).ws.length < 48 → ∃ u, exec (.mclose t f) s = .next u ∧ done u none ∧
        u.dev.txn k = { s.dev.txn k with ws := (s.dev.txn k).ws ++ [.msgClose m.channel m.words] }) ∧
    (∀ i, let r := (parseRec (blk 6 4)).1
      let to_ := fld r.user 28 24
      s.dev.brushes t 6 4 f → s.dev.cluActive to_ = true → s.dev.freeRcd to_ = some i →
        ∃ u x, exec (.mpost t f) s = .next u ∧ done u th.msg ∧ u.dev.rcd to_ i = some x ∧ x.entry = r.entry ∧
          x.prio = r.prio ∧ x.user = r.user ∧ x.hasTxn = false) ∧
    (∀ b, b < 7 → s.dev.plainMem → s.dev.brushes t b 0x3FE f → ∃ u, exec (.bsave t b f) s = .next u ∧ done u th.msg ∧
      u.dev.mem = putBytes s.dev.mem (ownAddr t ra 96) (if b = 6 then msgImage th.msg else emptyImage b)) ∧
    (∀ b m, b < 7 → s.dev.brushes t b 0x3FF f → readImage b (blk b 0x3FF) = (true, m) →
      ∃ u, exec (.brest t b f) s = .next u ∧ done u (if b = 6 then m else th.msg))

/-- mrecv (R235): with no message there and a deadline, the receive waits until now + the deadline and rd has the live
token; at its deadline it completes with status 1 and leaves. -/
def Obligations.BrushReceive : Prop :=
  ∀ (s : State) (t : Nat),
    (∀ (f : R3) (i : Nat), let th := s.dev.thr t
      let blk := s.dev.brushBlock t 6 3 (th.g f.ra.toNat)
      let ch := leAt blk 0 2 % 2048
      let token := s.dev.tokenOf (clusterOf t) i
      s.dev.assignTok (clusterOf t) ((txnKey t th).map (· % 256)) = some i → s.dev.brushes t 6 3 f →
      s.dev.chanEnabled ch = true → s.dev.chanRing ch = false → (s.dev.chan ch).lens = [] → leAt blk 4 4 ≠ 0 →
      ∃ u r, exec (.mrecv t f) s = .next u ∧ u.dev.brs.recvs = s.dev.brs.recvs ++ [r] ∧ r.cluster = clusterOf t ∧
        r.token = token ∧ r.channel = ch ∧ r.deadline = s.clk.count + leAt blk 4 4 ∧
        r.result = ownAddr t (th.g f.rb.toNat) 68 ∧ r.txn = txnKey t th ∧
        u.dev.thr t = (th.advance false).setG f.rd.toNat (wd token) ∧ (u.dev.tok (tokKey (clusterOf t) token)).live = true) ∧
    (∀ (c token : Nat) (r : Recv), c < 24 → token < 65536 → r.deadline ≤ s.clk.count →
      s.dev.brs.recvs.find? (fun r => decide (r.cluster = c ∧ r.token = token ∧ r.deadline ≤ s.clk.count)) = some r →
      ∃ u, exec (.mrecvDeadline c token) s = .next u ∧ u.dev.brs.recvs = s.dev.brs.recvs.erase r ∧
        u.dev.esl.comps = s.dev.esl.comps ++ [⟨c, token, mrecvWord 1 0⟩])

/-- Supplies, RESET_N and the clocks they start (R29, R46, R493, R518, R566, R569): a good VDD_IO leaves every register at
its reset value, with RESET_N and PWRFAIL_N still low; a good VDD_CORE is noted, with no
register changed; RESET_N falling returns every register
but the first-fault record to its reset value, the time base to 0 and the measurements to 0; RESET_N rising samples
BOOT_SEL and begins stage 0x0; the end of the cache invalidation starts the clocks and stage 0x1; a lost VDD_IO loses
everything. That memories survive RESET_N is the model's choice (log entry 16). -/
def Obligations.SystemSupplies : Prop :=
  ∀ (s : State), let p := s.dev.pins
    (p.vddIo = false → ∃ d, exec .vddIoGood s = .next (s.withDev d) ∧ (∀ o, d.reg o = regReset o) ∧
      d.pins.vddIo = true ∧ d.pins.vddCore = false ∧ d.pins.resetN = false ∧ d.pins.pwrfailN = false) ∧
    (p.vddIo = true → p.vddCore = false →
      exec .vddCoreGood s = .next (s.withDev { s.dev with pins := { p with vddCore := true } })) ∧
    (∃ d, exec .resetNAssert s = .next { s with clk := Clock.reset, idn := s.idn.cleared, dev := d } ∧
      (∀ o, o ≠ Reg.GLB_RUN_STATE → d.reg o = if o ∈ keptRegs then s.dev.reg o else regReset o) ∧
      d.stage = (if s.dev.stage = 4 then 4 else 0) ∧ d.pins.resetN = false ∧ d.mem = s.dev.mem ∧
      (∀ t, t < 1536 → d.thr t = Thread.reset) ∧ d.vrn = Dev.reset.vrn ∧ d.pal = Dev.reset.pal ∧ d.lku = Dev.reset.lku ∧
      d.tmg = Dev.reset.tmg) ∧
    (∀ boot, boot < 4 → p.vddIo = true → p.vddCore = true → p.resetN = false →
      ∃ d, exec (.resetNRelease boot) s = .next (s.withDev d) ∧ d.pins.resetN = true ∧ d.mgt.bootSel = boot ∧ d.stage = 0 ∧
        d.pins.pfLow = !p.pwrfailN ∧ ∀ o, o ≠ Reg.GLB_RUN_STATE → d.reg o = s.dev.reg o) ∧
    (s.dev.stage = 0 → p.resetN = true → p.refclk = true → ∃ d, exec .cacheInvalidationDone s = .next (s.withDev d) ∧
      d.stage = 1 ∧ (∀ i, i < 29 → d.rb Reg.GLB_CLK_STATUS i = true) ∧ d.rb Reg.TCA_STATUS 31 = false ∧
      d.rb Reg.PWR_RAIL_STATUS 31 = true ∧ d.rf Reg.PWR_RAIL_STATUS 9 0 = 750 ∧ d.pins = p) ∧
    (∃ d, exec .vddIoLoss s = .next { s with clk := Clock.reset, idn := s.idn.cleared, dev := d } ∧
      (∀ o, d.reg o = regReset o) ∧ d.mem = [] ∧ d.pins.vddIo = false ∧ d.pins.vddCore = false ∧ d.pins.resetN = false)

/-- Boot (R493, R495, R498, R499, R503): the Primer in stage 0x1 with BOOT_SEL 0b00 boots the better of the images that
verify, sets the stage to 0x2, starts core 0 at the image's entry and puts the image into Atelier SRAM; without one it
stays in stage 0x1 and records BOOT_IMAGE_INVALID, or with 0b10 waits for the host; go starts the host boot, whose image boots or sets error, clears go and
waits again. M0 to M3 are set as R503 says, and no fuse but the revoke mask and the minimum svn changes. -/
def Obligations.SystemBoot : Prop :=
  ∀ (s : State), let d := s.dev
    let booted := fun (img : List Byte) (prf : PrfRes) (u : State) =>
      u.clk = s.clk ∧ u.pending = s.pending ∧ u.dev.stage = 2 ∧ (u.dev.thr 1536).pc = wd (leAt img 0x18 4) ∧
      (u.dev.thr 1536).run = .running ∧ (u.dev.thr 1536).sstatus = 1 ∧ u.dev.mgt.svn = leAt img 0xC 4 ∧
      u.dev.prf.inForce = (match prf with
        | .good p => some p
        | .bad _ _ => d.prf.inForce) ∧
      u.idn.sameFuses s.idn ∧ u.idn.meas[1]? = some (padTo 64 (phDigest (img.take (leAt img 8 4 - 128)))) ∧
      u.idn.meas[3]? = some (zeros 64) ∧ s.idn.svnMin ≤ u.idn.svnMin
    (∀ i0 i1 p0 p1, d.primerRuns s.clk.count = true → d.rb Reg.ATL_BOOT 30 = false →
      (d.mgt.bootSel = 0 → chooseImage s.idn i0 i1 = none → ∃ e, exec (.primerBoot i0 i1 p0 p1) s = .next (s.withDev e) ∧
        e.stage = 1 ∧ e.flt.inbox = d.flt.inbox ++ [⟨Src.bootImageInvalid, 0, false⟩] ∧ e.regs = d.regs) ∧
      (d.mgt.bootSel = 3 → ∃ e, exec (.primerBoot i0 i1 p0 p1) s = .next (s.withDev e) ∧
        e.stage = 1 ∧ e.flt.inbox = d.flt.inbox ++ [⟨Src.bootSource, 0, false⟩] ∧ e.regs = d.regs) ∧
      (d.mgt.bootSel = 1 → ∃ e, exec (.primerBoot i0 i1 p0 p1) s = .next (s.withDev e) ∧
        e.rb Reg.ATL_BOOT 30 = true ∧ e.stage = 1) ∧
      (d.mgt.bootSel = 2 → chooseImage s.idn i0 i1 = none → ∃ e, exec (.primerBoot i0 i1 p0 p1) s = .next (s.withDev e) ∧
        e.rb Reg.ATL_BOOT 30 = true ∧ e.stage = 1 ∧ e.flt = d.flt) ∧
      (∀ img, d.mgt.bootSel = 0 ∨ d.mgt.bootSel = 2 → chooseImage s.idn i0 i1 = some img →
        ∃ u, exec (.primerBoot i0 i1 p0 p1) s = .next u ∧ booted img (chooseProfile (imageOwners img) p0 p1) u)) ∧
    (d.pins.resetN = true → ∃ e, exec .hostBootGo s = .next (s.withDev e) ∧ e = d.setRb Reg.ATL_BOOT 31 true ∧ e.rb Reg.ATL_BOOT 31 = true) ∧
    (d.primerRuns s.clk.count = true → d.rb Reg.ATL_BOOT 30 = true → d.rb Reg.ATL_BOOT 31 = true →
      (∀ img prf, imageOk s.idn img = true → ∃ u, exec (.hostBootDmaDone (some (img, prf))) s = .next u ∧
        booted img (validateProfile prf (imageOwners img) none) u) ∧
      (∃ e, exec (.hostBootDmaDone none) s = .next (s.withDev e) ∧ e.rb Reg.ATL_BOOT 29 = true ∧
        e.rb Reg.ATL_BOOT 31 = false ∧ e.rb Reg.ATL_BOOT 30 = true ∧ e.stage = 1))

/-- The boot commands complete (R493, R495, R498, R508): while the Primer runs and does not wait for the host, PRIMER_BOOT
answers the next state for each BOOT_SEL; while RESET_N is high, the host's go is set; while the Primer waits with go set,
HOST_BOOT_DMA_DONE answers the next state for an image that verifies, one that does not and a failed read; and in a reboot of
the Atelier PRIMER_BOOT runs the Primer's firmware stage alone, with the fuses and measurements as they are (log entry 89). -/
def Obligations.BootCommands : Prop :=
  ∀ (s : State) (i0 i1 : List Byte) (p0 p1 : List Byte × Bool), let d := s.dev
    let found := flashBoot d.mgt.bootSel s.idn i0 i1 p0 p1
    (d.primerRuns s.clk.count = true → d.rb Reg.ATL_BOOT 30 = false →
      exec (.primerBoot i0 i1 p0 p1) s = .next { s with idn := bootIdent found s.idn, dev := bootDev found d } ∧
      (d.mgt.bootSel = 3 → found = .source) ∧ (d.mgt.bootSel = 1 → found = .host) ∧
      (∀ img, d.mgt.bootSel = 0 ∨ d.mgt.bootSel = 2 → chooseImage s.idn i0 i1 = some img →
        found = .boot img (chooseProfile (imageOwners img) p0 p1)) ∧
      (chooseImage s.idn i0 i1 = none → (d.mgt.bootSel = 0 → found = .noImage) ∧ (d.mgt.bootSel = 2 → found = .host))) ∧
    (d.primerRuns s.clk.count = false → d.mgt.reboot = true → d.rb Reg.ATL_BOOT 30 = false →
      exec (.primerBoot i0 i1 p0 p1) s = .next (s.withDev (bootDev found.again d))) ∧
    (d.pins.resetN = true → exec .hostBootGo s = .next (s.withDev (d.setRb Reg.ATL_BOOT 31 true))) ∧
    (d.primerRuns s.clk.count = true → d.rb Reg.ATL_BOOT 30 = true → d.rb Reg.ATL_BOOT 31 = true → ∀ img prf,
      let r := BootRes.boot img (validateProfile prf (imageOwners img) none)
      let failed := s.withDev ((d.setRb Reg.ATL_BOOT 31 false).setRb Reg.ATL_BOOT 29 true)
      (imageOk s.idn img = true → exec (.hostBootDmaDone (some (img, prf))) s
        = .next { s with idn := bootIdent r s.idn, dev := bootDev r (d.setRb Reg.ATL_BOOT 30 false) }) ∧
      (imageOk s.idn img = false → exec (.hostBootDmaDone (some (img, prf))) s = .next failed) ∧
      exec (.hostBootDmaDone none) s = .next failed)

/-- Power failure (R510, R512, R569): PWRFAIL_N falling is recorded, raises interrupt line 1 and, from stage 0x2 on, starts
the Fixative; 2 ms later its
record is in the journal, which a reset keeps (R511), both heartbeats stop, and a device whose PWRFAIL_N has risen again resets; PWRFAIL_N rising lets
a running Fixative complete and a reset follow. -/
def Obligations.PowerFailure : Prop :=
  ∀ (s : State), let d := s.dev
    (d.pins.pwrfailN = true → ∃ e, exec .pwrfailAssert s = .next (s.withDev e) ∧ e.pins = { d.pins with pwrfailN := false, pfUp := none } ∧
      e.flt.inbox = d.flt.inbox ++ [⟨Src.pwrfail, 0, false⟩] ∧ e.rb Reg.PWR_STATUS 31 = true ∧
      e.rb Reg.ATL_INT_PEND 1 = true ∧
      (2 ≤ d.stage → d.pins.resetN = true → d.mgt.fix = none → e.mgt.fix = some ⟨s.clk.count, true, false⟩) ∧
      (d.stage < 2 ∨ d.pins.resetN = false ∨ d.mgt.fix ≠ none → e.mgt.fix = d.mgt.fix)) ∧
    (∀ f, d.mgt.fix = some f → f.start + 2000000 ≤ s.clk.count →
      ((f.resetAfter = false ∨ d.stage = 4) → ∃ e, exec .fixativeHeartbeatStop s = .next (s.withDev e) ∧ e.heartsOff ∧
        e.mgt.fix = none ∧ e.stage = d.stage ∧ e.pins = d.pins ∧ e.mgt.journal = (d.journalWrite s.clk.count).mgt.journal) ∧
      (f.resetAfter = true → d.stage ≠ 4 → d.pins.vddIo = true → d.pins.vddCore = true →
        ∃ u, exec .fixativeHeartbeatStop s = .next u ∧ u.clk = Clock.reset ∧ u.idn = s.idn.cleared ∧ u.pending = s.pending ∧
          u.dev.pins.resetN = true ∧ u.dev.stage = 0 ∧ u.dev.mgt.journal = (d.journalWrite s.clk.count).mgt.journal ∧
          ∀ o, o ≠ Reg.GLB_RUN_STATE → u.dev.reg o = if o ∈ keptRegs then d.reg o else regReset o)) ∧
    (d.pins.pwrfailN = false → ∃ e, exec .pwrfailRelease s = .next (s.withDev e) ∧ e.pins = { d.pins with pwrfailN := true, pfUp := some s.clk.count } ∧
      ∀ f, d.mgt.fix = some f → e.mgt.fix = some { f with resetAfter := f.power || f.resetAfter } ∧ e.regs = d.regs)

/-- Over-temperature and lost clocks (R412, R426, R573, R578): THERMTRIP_N stops both heartbeats, holds every lane and
turns off every phase; a lost REFCLK_SYS stops SCLK and both heartbeats; the TCLK PLL's lock and its loss. -/
def Obligations.ThermtripAndClocks : Prop :=
  ∀ (s : State), let d := s.dev
    (∃ e, exec .thermtrip s = .next (s.withDev e) ∧ e.pins = { d.pins with thermtripN := false } ∧ e.heartsOff ∧
      (∀ p, p < 80 → e.prtState p ≠ 4 ∧ (d.prtState p ∈ [1, 2, 3, 4] → e.prtState p = 0)) ∧
      (∀ l, l < 32 → e.laneUp l = false) ∧
      e.rf Reg.PWR_RAIL_STATUS 27 16 = 0 ∧ e.rb Reg.PWR_RAIL_STATUS 31 = false) ∧
    (∃ e, exec .refclkSysLoss s = .next (s.withDev e) ∧ e.pins = { d.pins with refclk := false } ∧ e.heartsOff ∧
      e.rb Reg.GLB_CLK_STATUS 28 = false) ∧
    (∃ e, exec .tclkPllLock s = .next (s.withDev e) ∧ e = { d with regs := e.regs } ∧ e.rb Reg.GLB_CLK_STATUS 29 = true ∧
      ∀ o, o ≠ Reg.GLB_CLK_STATUS → e.reg o = d.reg o) ∧
    (d.rb Reg.GLB_CLK_STATUS 29 = true → ∃ e, exec .timRefLoss s = .next (s.withDev e) ∧ e.rb Reg.GLB_CLK_STATUS 29 = false ∧
      e.flt.inbox = d.flt.inbox ++ [⟨Src.timRefLoss, 0, false⟩] ∧ ∀ o, o ≠ Reg.GLB_CLK_STATUS → e.reg o = d.reg o)

/-- Resets and losses of the host's link (R462, R485, R570): a Function Level Reset, and PCIE_PERST_N rising, reset ring
groups 0 to 14, close BAR4 and do not stop forwarding; a lost link puts every running group of 0 to 14 in the error state
with code 0x04, recorded for each. -/
def Obligations.HostLink : Prop :=
  ∀ (s : State), let d := s.dev
    (∃ e, exec .functionLevelReset s = .next (s.withDev e) ∧ d.flrDone e ∧ e.pins = d.pins) ∧
    (∀ link, ∃ e, exec (.pciePerstNRelease link) s = .next (s.withDev e) ∧ d.flrDone e ∧ e.pins = { d.pins with perstN := true } ∧
      e.rb Reg.HST_STATUS 31 = true ∧ e.rb Reg.HST_STATUS 30 = link.bme) ∧
    (∀ why, let run := (List.range 15).filter d.grpRuns
      ∃ e, exec (.hostLinkLoss why) s = .next (s.withDev e) ∧
        (∀ g, g < 15 → d.grpRuns g = true → e.rb (Reg.HST_GRP_W15 g) 31 = false ∧ e.rb (Reg.HST_GRP_W15 g) 30 = true ∧
          e.rf (Reg.HST_GRP_W15 g) 7 0 = 4) ∧
        e.grp 15 = d.grp 15 ∧ e.reg (Reg.HST_GRP_W15 15) = d.reg (Reg.HST_GRP_W15 15) ∧
        e.flt.inbox = d.flt.inbox ++ (if why = .linkDown ∧ run ≠ [] then [⟨Src.hstLinkDown, 0, false⟩] else []) ++
          run.map (fun _ => ⟨Src.hstRingError, 4, false⟩) ∧
        (why = .busMaster → e.rb Reg.HST_STATUS 30 = false) ∧ (why = .linkDown → e.reg Reg.HST_STATUS = 0))

/-- The time base's commands (R413, R417, R418), with RESET_N high: capture copies the time into the TIM_T registers, set
loads it from them and is refused with 10^9 ns or more, step adds the signed TIM_STEP_NS; TIME_PPS_OUT rises when an edge
is due and falls its width later; an edge on TIME_PPS_IN captures the time, or sets overflow while one is held. -/
def Obligations.TimeCommands : Prop :=
  ∀ (s : State), let d := s.dev
    let c := s.clk
    (d.pins.resetN = true → c.ok = true →
      (∃ e, exec .timeCapture s = .next (s.withDev e) ∧ (e.reg Reg.TIM_T_NS).toNat = c.nsec ∧
        (e.reg Reg.TIM_T_SEC_LO).toNat + e.rf Reg.TIM_T_SEC_HI 15 0 * 2 ^ 32 = c.sec ∧ (e.reg Reg.TIM_T_FRAC).toNat = c.frac / 2 ^ 16 ∧
        e = { d with regs := e.regs } ∧
        ∀ o, o ∉ [Reg.TIM_T_NS, Reg.TIM_T_SEC_LO, Reg.TIM_T_SEC_HI, Reg.TIM_T_FRAC] → e.reg o = d.reg o) ∧
      (∀ r, (d.reg Reg.TIM_T_NS).toNat < 1000000000 → ∃ k, exec (.timeSet r) s = .next { s with clk := k } ∧
        k.nsec = (d.reg Reg.TIM_T_NS).toNat ∧ k.sec = (d.reg Reg.TIM_T_SEC_LO).toNat + d.rf Reg.TIM_T_SEC_HI 15 0 * 2 ^ 32 ∧
        k.frac = d.rf Reg.TIM_T_FRAC 15 0 * 2 ^ 16 ∧ k.count = c.count) ∧
      (∀ r, 1000000000 ≤ (d.reg Reg.TIM_T_NS).toNat → ∃ e, exec (.timeSet r) s = .next (s.withDev e) ∧ e = d.refuse r Reg.TIM_CMD) ∧
      (∃ k, exec .timeStep s = .next { s with clk := k } ∧ k.count = c.count ∧ k.frac = c.frac ∧ k.nsec < 1000000000 ∧
        (((k.sec * 1000000000 + k.nsec : Nat) : Int) - (c.sec * 1000000000 + c.nsec : Nat) - sint (d.reg Reg.TIM_STEP_NS)) % (2 ^ 48 * 1000000000) = 0)) ∧
    (d.ppsRises c = true → ∃ e, exec .timePpsOutRise s = .next { s with clk := { c with edge := false }, dev := e } ∧
      e = { d with prt := e.prt } ∧ e.prt.pps = true ∧ e.prt.ppsLast = some c.count ∧
      e.prt.ppsFall = c.count + max 1 (d.rf Reg.TIM_PPS_OUT 29 0)) ∧
    (d.prt.pps = true → d.prt.ppsFall ≤ c.count → d.ppsByTime = true → ∃ e, exec .timePpsOutFall s = .next (s.withDev e) ∧
      e = { d with prt := { d.prt with pps := false } }) ∧
    (d.rb Reg.TIM_CTL 1 = true → ∃ e, exec .timePpsInEdge s = .next (s.withDev e) ∧ e = { d with regs := e.regs } ∧
      (d.rb Reg.TIM_PPS_IN_STATUS 31 = true → e.rb Reg.TIM_PPS_IN_STATUS 30 = true ∧ e.rb Reg.TIM_PPS_IN_STATUS 31 = true ∧
        e.reg Reg.TIM_PPS_IN_NS = d.reg Reg.TIM_PPS_IN_NS) ∧
      (d.rb Reg.TIM_PPS_IN_STATUS 31 = false → c.ok = true → e.rb Reg.TIM_PPS_IN_STATUS 31 = true ∧
        (e.reg Reg.TIM_PPS_IN_NS).toNat = c.nsec ∧
        (e.reg Reg.TIM_PPS_IN_SEC_LO).toNat + e.rf Reg.TIM_PPS_IN_STATUS 15 0 * 2 ^ 32 = c.sec))

/-- The bring-up of a port (R64, R65, R401): a signal on every lane of a port that waits for one begins training (fabric)
or alignment (slot); training done begins alignment; 1 ms of alignment brings the port up; a limit passed holds it as a
disagreement, recorded; an up port that loses its link goes down, recorded, and repeats its bring-up; in bring-up a lost signal
ends it and a fault or lost alignment begins the 1 ms anew, which does not run while a fault is received. Other ports stay as they are. -/
def Obligations.PortBringUp : Prop :=
  ∀ (s : State) (p : Nat), p < 80 → let d := s.dev
    let now := s.clk.count
    let others := fun (e : Dev) => ∀ q, q < 80 → q ≠ p → e.prtState q = d.prtState q
    (∀ l, l < 80 → d.lanePort l = some p → ∃ e, exec (.signalDetect l) s = .next (s.withDev e) ∧ e.rb (Reg.PRT_LANE_W1 l) 31 = true ∧ others e ∧
      (d.prtState p ≠ 1 → e.prtState p = d.prtState p) ∧
      (d.prtState p = 1 → d.mayBringUp p = true → (∀ k ∈ d.prtLanes p, k ≠ l → d.rb (Reg.PRT_LANE_W1 k) 31 = true) →
        e.prtState p = (if p < 32 then 2 else 3) ∧ tget 0 e.prt.detect p = now)) ∧
    (d.prtState p = 2 → ∃ e, exec (.linkTrainingDone p) s = .next (s.withDev e) ∧ e.prtState p = 3 ∧
      tget 0 e.prt.align_ p = max now (max (d.faultEnds p).1 (d.faultEnds p).2) ∧ others e ∧
      ∀ l ∈ d.prtLanes p, e.rb (Reg.PRT_LANE_W1 l) 30 = true ∧ e.rb (Reg.PRT_LANE_W1 l) 29 = true) ∧
    (d.prtState p = 3 → tget 0 d.prt.align_ p + 1000000 ≤ now → ∃ e, exec (.portUp p) s = .next (s.withDev e) ∧ e.prtState p = 4 ∧ others e) ∧
    (d.prtState p = 2 ∨ d.prtState p = 3 → tget 0 d.prt.detect p + (if p < 32 then 1000000000 else 100000000) ≤ now →
      ∃ e, exec (.portBringupTimeout p) s = .next (s.withDev e) ∧ e.prtState p = 5 ∧ others e ∧
        ∃ x ∈ e.flt.inbox, x.src = Src.portProfileMismatch) ∧
    (d.prtState p = 4 → ∀ why, ∃ e, exec (.portLinkDown p why) s = .next (s.withDev e) ∧ e.prtState p ≠ 4 ∧ others e ∧
      ∃ x ∈ e.flt.inbox, x.src = Src.portLinkDown ∧ x.detail = wd p) ∧
    (d.prtState p = 2 ∨ d.prtState p = 3 → ∀ why, ∃ e, exec (.portLinkDown p why) s = .next (s.withDev e) ∧ others e ∧
      (why = .signal → e.prtState p = 1 ∧ ∀ l ∈ d.prtLanes p, e.rf (Reg.PRT_LANE_W1 l) 31 29 = 0) ∧
      (why ≠ .signal → e.prtState p = d.prtState p ∧ now ≤ tget 0 e.prt.align_ p))

/-- The receive MAC (R21, R65, R405, R409): a held port counts and drops every frame; an up one checks the FCS, the least
length, max_frame and, of an Unnova link, the header, in this order, counting the first that fails in its own counter and
changing nothing else; a frame that passes goes, without FCS and Unnova padding, to the ingress cell writer, with the time
of its start and the port's rx_delay added (R414), and stands behind the packets of earlier cycles and, within one cycle, those of
lower ports (R34). -/
def Obligations.FrameReceive : Prop :=
  ∀ (s : State) (p : Nat) (frame : List Byte), p < 80 → let d := s.dev
    let n := frame.length
    let body := frame.take (n - 4)
    let fcsOk := 4 ≤ n ∧ fcsBytes body = frame.drop (n - 4)
    let least := if d.prtKind p = 4 then 5 else 64
    let hdrOk := (byteAt body 0).toNat / 16 = 1 ∧ (byteAt body 0).toNat % 16 ≤ 1 ∧ 16 + beVal (slice body 10 2) ≤ n - 4
    let counts := fun (c : Nat) => exec (.frameReceive p frame) s = .next (s.withDev (d.bump (Reg.PRT_CNT p c) 1))
    (d.prtState p = 5 → counts 6) ∧
    (d.prtState p = 4 → d.portChanging p = false →
      (¬ fcsOk → counts 1) ∧ (fcsOk → n < least → counts 2) ∧ (fcsOk → least ≤ n → d.maxFrame p < n → counts 3) ∧
      (fcsOk → least ≤ n → n ≤ d.maxFrame p → d.prtKind p = 2 → ¬ hdrOk → counts 4) ∧
      (fcsOk → least ≤ n → n ≤ d.maxFrame p → (d.prtKind p = 2 → hdrOk) →
        let pkt := if d.prtKind p = 2 then body.take (16 + beVal (slice body 10 2)) else body
        let t := addNs s.clk.sec s.clk.nsec (sintN 16 (d.rf (Reg.PRT_PORT_W1 p) 31 16))
        exec (.frameReceive p frame) s = .next (s.withDev ((d.bump (Reg.PRT_CNT p 0) 1).ingress p pkt t.1 t.2)) ∧
        (d.fifoRoom p pkt.length = true → d.allocChain (d.portOwner p) (d.rf (Reg.PAL_OWNER (d.portOwner p)) 3 0) pkt.length ≠ none →
          ∃ e k pre post, exec (.frameReceive p frame) s = .next (s.withDev e) ∧ d.prs.inq = pre ++ post ∧ e.prs.inq = pre ++ k :: post ∧
            post.length ≤ d.prs.fresh ∧ (∀ q ∈ post.head?, p < q.port) ∧ k.port = p ∧
            k.len = pkt.length ∧ k.owner = d.portOwner p ∧ k.tsNs = t.2 ∧ k.tsSec = t.1 % 2 ^ 32 ∧ k.recircs = 0)))

/-- The transmit MAC (R406, R410, R314): the next copy of an up port that may leave, whose data are good and whose frame
is neither empty nor, with its FCS, above max_frame is sent once, padded to 60 bytes on an Ethernet port and with its FCS,
and counted; one of a wrong length is counted as discarded and not sent; a copy that is over leaves the port. A
timestamped frame, an Unnova link's length field and the characters on the line go through txStamp, R410 and lineForm. -/
def Obligations.FrameTransmit : Prop :=
  ∀ (s : State) (p : Nat), let d := s.dev
    (∀ x, p < 80 → d.nextEgress p = some x → d.mayLeave p (s.clk.sec * 1000000000 + s.clk.nsec) x = true → let bs := d.frameBytes x.item
      (bs.length = 0 ∨ d.maxFrame p < bs.length + 4 ∨ (d.prtKind p = 2 ∧ bs.length < 16) →
        exec (.transmitFrame p) s = .next (s.withDev ((d.endEgress p).bump (Reg.PRT_CNT p 8) 1))) ∧
      (bs.length ≠ 0 → bs.length + 4 ≤ d.maxFrame p → (d.prtKind p = 2 → 16 ≤ bs.length) → d.frameBad x.item = false → d.prtState p = 4 →
        let raw := if d.prtKind p = 2 then patch bs 10 (beBytes 2 (bs.length - 16)) else bs
        let out := (d.txStamp s.clk.sec s.clk.nsec s.clk.frac p raw).1
        let wire := if d.prtKind p = 4 then out else out ++ zeros (60 - out.length)
        let all := wire ++ fcsBytes wire
        ∃ e, exec (.transmitFrame p) s = .next (s.withDev e) ∧
          e.prt.sent = d.prt.sent ++ [⟨p, all, (d.lineForm p all).1⟩] ∧
          tget [] e.tmg.egress p = markSent (tget [] d.tmg.egress p) ∧ e.reg (Reg.PRT_CNT p 7) = wd ((d.reg (Reg.PRT_CNT p 7)).toNat + 1))) ∧
    (isPort p = true → ∀ e r, tget [] d.tmg.egress p = e :: r → e.sent = true → ∃ u, exec (.transmitDone p) s = .next (s.withDev u) ∧
        tget [] u.tmg.egress p = r ∧ u.prt = d.prt)

/-- The Stencil ALU group (R383): each word's result, its flags by the Kroval conventions at 16 bits, and nothing else of
the slot; the slot, whose turn it is (R376), goes on at pc + 1 with the load before it landed (R384). -/
def Obligations.StencilAlu : Prop :=
  ∀ (s : State) (e j : Nat) (f : SFmt), e < 32 → j < 4 → s.dev.nextSlot e = some j → f.fn.toNat ≤ 0xB →
    let x := s.dev.slot e j
    let a := x.r f.rd.toNat
    let b := x.r f.rs.toNat
    let c := x.flags.toNat.testBit 1
    let v := x.flags.toNat.testBit 0
    ∃ y : Slot2, exec (.stnAlu e j f) s = .next (s.slotWent e j (fun _ => { y with ld := none, wait := .none }) (x.pc + 1)) ∧
      y = { x with regs := y.regs, flags := y.flags } ∧ (∀ i, i ≠ f.rd.toNat → y.r i = x.r i) ∧
      match f.fn.toNat with
      | 0x0 => y.r f.rd.toNat = b ∧ y.flags = x.flags
      | 0x1 => y.r f.rd.toNat = a + b ∧ y.nz (a + b) ∧ y.cv (decide (2 ^ 16 ≤ a.toNat + b.toNat)) (over16 (a.toInt + b.toInt))
      | 0x2 => y.r f.rd.toNat = a - b ∧ y.nz (a - b) ∧ y.cv (decide (b.toNat ≤ a.toNat)) (over16 (a.toInt - b.toInt))
      | 0x3 => y.r f.rd.toNat = a &&& b ∧ y.nz (a &&& b) ∧ y.cv c v
      | 0x4 => y.r f.rd.toNat = a ||| b ∧ y.nz (a ||| b) ∧ y.cv c v
      | 0x5 => y.r f.rd.toNat = a ^^^ b ∧ y.nz (a ^^^ b) ∧ y.cv c v
      | 0x6 => y.r f.rd.toNat = a <<< b.toNat ∧ y.nz (a <<< b.toNat) ∧
          y.cv (if b = 0 then c else decide (b.toNat ≤ 16) && a.toNat.testBit (16 - b.toNat)) v
      | 0x7 => y.r f.rd.toNat = a >>> b.toNat ∧ y.nz (a >>> b.toNat) ∧
          y.cv (if b = 0 then c else decide (b.toNat ≤ 16) && a.toNat.testBit (b.toNat - 1)) v
      | 0x8 => y.r f.rd.toNat = a.sshiftRight b.toNat ∧ y.nz (a.sshiftRight b.toNat) ∧
          y.cv (if b = 0 then c else if b.toNat ≤ 16 then a.toNat.testBit (b.toNat - 1) else a.msb) v
      | 0x9 => y.r f.rd.toNat = ~~~b ∧ y.nz (~~~b) ∧ y.cv c v
      | 0xA => y.r f.rd.toNat = a ∧ y.nz (a - b) ∧ y.cv (decide (b.toNat ≤ a.toNat)) (over16 (a.toInt - b.toInt))
      | _ => y.r f.rd.toNat = a ∧ y.nz (a &&& b) ∧ y.cv c v

/-- The other words of a Stencil slot that change only its own registers and its pc, and st (R383, R384, R387, R388): the
immediates, loads and stores of data memory, branches, the CRC and time groups, and the words that read what a lane holds.
Each ends at the pc the table gives. -/
def Obligations.StencilWords : Prop :=
  ∀ (s : State) (e j : Nat), e < 32 → j < 4 → s.dev.nextSlot e = some j → let d := s.dev
    let x := d.slot e j
    let goes := fun (i : Instr) (f : Slot2 → Slot2) (pc : BitVec 12) => exec i s = .next (s.slotWent e j f pc)
    let writes := fun (i : Instr) (rd : BitVec 4) (v : BitVec 16) => goes i (fun y => y.setR rd.toNat v) (x.pc + 1)
    (∀ rs : BitVec 4, goes (.stnJr e j 0 rs) id ((x.r rs.toNat).setWidth 12)) ∧
    (∀ (rd : BitVec 4) (imm : BitVec 8), let a := x.r rd.toNat
      let b := imm.signExtend 16
      ∃ y : Slot2, goes (.stnAddi e j rd imm) (fun z => { z with regs := y.regs, flags := y.flags }) (x.pc + 1) ∧ y.r rd.toNat = a + b ∧ y.nz (a + b) ∧
        y.cv (decide (2 ^ 16 ≤ a.toNat + b.toNat)) (over16 (a.toInt + b.toInt)) ∧ ∀ i, i ≠ rd.toNat → y.r i = x.r i) ∧
    (∀ (rd : BitVec 4) (imm : BitVec 8), writes (.stnMovi e j rd imm) rd (imm.setWidth 16)) ∧
    (∀ (rd : BitVec 4) (imm : BitVec 8), writes (.stnMovh e j rd imm) rd (imm ++ (x.r rd.toNat).setWidth 8)) ∧
    (∀ (rd : BitVec 4) (imm : BitVec 8), let a := x.r rd.toNat
      let b := imm.setWidth 16
      ∃ y : Slot2, goes (.stnCmpi e j rd imm) (fun z => { z with flags := y.flags }) (x.pc + 1) ∧ y.nz (a - b) ∧
        y.cv (decide (b.toNat ≤ a.toNat)) (over16 (a.toInt - b.toInt))) ∧
    (∀ f : SFmt, goes (.stnLd e j f) (fun y => { y with ld := some (f.rd.toNat, d.dmem e (((x.r f.rs.toNat).toNat + f.fn.toNat) % 1024)) })
      (x.pc + 1)) ∧
    (∀ f : SFmt, ∃ u, exec (.stnSt e j f) s = .next (s.withDev u) ∧ u.slot e j = x.done id (x.pc + 1) ∧
      ∀ a, a < 1024 → u.dmem e a = if a = ((x.r f.rs.toNat).toNat + f.fn.toNat) % 1024 then x.r f.rd.toNat else d.dmem e a) ∧
    (∀ (cond : BitVec 4) (off : BitVec 8), cond ≠ 0xF → goes (.stnBcc e j cond off) id
      (if condTaken cond.toNat (flagsWord x.flags) then x.pc + 1 + off.signExtend 12 else x.pc + 1)) ∧
    (∀ off : BitVec 12, goes (.stnJmp e j off) id (x.pc + 1 + off)) ∧
    (∀ off : BitVec 12, goes (.stnCall e j off) (fun y => y.setR 15 ((x.pc + 1).setWidth 16)) (x.pc + 1 + off)) ∧
    goes (.stnNop e j 0 0) id (x.pc + 1) ∧
    (∀ rd : BitVec 4, let n := (x.r rd.toNat).toNat
      goes (.cinit e j rd 0) (fun y => { y with crc := ⟨n.testBit 0, n.testBit 1, if n.testBit 0 then 0xFFFFFFFF else 0xFFFF⟩ }) (x.pc + 1)) ∧
    (∀ rd : BitVec 4, goes (.cupd e j rd 0) (fun y => { y with crc := x.crc.fold ((x.r rd.toNat).setWidth 8) }) (x.pc + 1)) ∧
    (∀ rd : BitVec 4, writes (.crdl e j rd 0) rd (BitVec.ofNat 16 x.crc.val)) ∧
    (∀ rd : BitVec 4, writes (.crdh e j rd 0) rd (BitVec.ofNat 16 (x.crc.val / 2 ^ 16))) ∧
    (∀ rd : BitVec 4, goes (.now e j rd 0) (fun y => { y.setR rd.toNat (BitVec.ofNat 16 s.clk.count) with
      nowHi := BitVec.ofNat 16 (s.clk.count / 2 ^ 16) }) (x.pc + 1)) ∧
    (∀ rd : BitVec 4, writes (.nowh e j rd 0) rd x.nowHi) ∧
    (∀ rd rs : BitVec 4, ∀ l, d.slotLane e j = some l → let i := (x.r rs.toNat).toNat % 8
      writes (.par e j rd rs) rd (BitVec.ofNat 16 (if i < 6 then (d.linePar l (1 + i / 2)).toNat / 2 ^ (16 * (i % 2)) else 0))) ∧
    (∀ rd : BitVec 4, ∀ g, x.staged = some g → writes (.txusr e j rd 0) rd (BitVec.ofNat 16 g.user)) ∧
    (∀ rd : BitVec 4, ∀ g b r, x.staged = some g → g.ready ++ g.rest = b :: r → ∃ g' : Staged, g'.ready ++ g'.rest = r ∧ g'.len = g.len ∧
      goes (.txget e j rd 0) (fun y => { y.setR rd.toNat (b.setWidth 16) with staged := some g' }) (x.pc + 1)) ∧
    (∀ rd : BitVec 4, (∀ g, x.staged = some g → g.ready ++ g.rest = []) → writes (.txget e j rd 0) rd 0xFFFF)

/-- The Stencil line group towards the receiver (R379, R380, R386, R390): the codec of a lane in service
decodes what it hears cell by cell, a lane not in service or in loopback nothing; a symbol reaches the FIFO, a violation is counted; rx takes
the oldest or waits; rxrun opens a frame and appends symbols until an event or errored symbol, which goes to rd; fopen, fput,
fdrop and fend open, extend, discard and close the frame, which goes to the ingress cell writer with
its header, or, on a ring port that is not inserted, is discarded as held (R422). -/
def Obligations.StencilReceive : Prop :=
  ∀ (s : State) (e j : Nat), e < 32 → j < 4 → let d := s.dev
    let x := d.slot e j
    let c := d.slotChars e j
    let at_ := (s.clk.sec, s.clk.nsec)
    let sets := fun (i : Instr) (y : Slot2) => exec i s = .next (s.withDev (d.setSlot e j y))
    let turn := d.issued e j
    let runs := fun (i : Instr) (y : Slot2) => exec i s = .next (s.withDev (turn.setSlot e j y))
    (∀ l cs, l < 32 →
      (d.laneUp l = false ∨ d.stage = 4 ∨ d.loops l = true → exec (.symbolReceive l cs) s = .next (s.withDev d)) ∧
      (d.laneUp l = true → d.stage ≠ 4 → d.loops l = false → d.portChanging (80 + l) = false → d.laneEngine l = e → d.laneSlot l = j →
        ∀ b, let r := (d.rxLine l).cell (d.laneSet at_.1 at_.2 l) b
        let heard := d.setRx l r.rx
        (∀ u, exec (.symbolReceive l [b]) s = .next u →
          exec (.symbolReceive l (b :: cs)) s = .next (u.withDev (u.dev.laneCells s.clk.count at_.1 at_.2 l cs))) ∧
        (r.syms = [] → r.viol = 0 → exec (.symbolReceive l [b]) s = .next (s.withDev heard)) ∧
        (∀ v, r.syms = [v] → r.viol = 0 → x.wait = .none →
          (x.rxf.length < 64 → x.lost = 0 → exec (.symbolReceive l [b]) s
            = .next (s.withDev (heard.setSlot e j { x with rxf := x.rxf ++ [v] }))) ∧
          (64 ≤ x.rxf.length → ∃ u, exec (.symbolReceive l [b]) s = .next (s.withDev u) ∧
            u.slot e j = { x with lost := x.lost + 1 } ∧
            u.flt.inbox = d.flt.inbox ++ [⟨Src.stnRxOverrun, wd (80 + l), false⟩])) ∧
        (r.syms = [] → r.viol = 1 → d.notInserted (80 + l) = false → ∃ u, exec (.symbolReceive l [b]) s = .next (s.withDev u) ∧
          u.slot e j = (x.violate s.clk.count).1 ∧
          ((x.violate s.clk.count).2 = false → u.reg (Reg.STN_LANE_W4 l) = d.reg (Reg.STN_LANE_W4 l) + 1)))) ∧
    (∀ n, x.moving = n + 1 → sets (.assemblyBufferFree e j) { x with moving := n, wait := if x.wait = .buffer then .none else x.wait }) ∧
    (∀ rd y r, d.engineRuns e = true → x.free = true → x.wait = .rxrun rd → x.rxf = y :: r → y.clean = false →
      sets (.rxrunStop e j) ((x.done (fun z => { z with rxf := r, frame := z.frame.map (fun f : HFrame => f.read y.val) }.setR rd y.val)
        (x.pc + 1)).placeOverrun at_.1 at_.2)) ∧
    (d.nextSlot e = some j →
      (∀ (rd : BitVec 4) y r, x.rxf = y :: r → runs (.rx e j rd 0)
        ((x.done (fun z => { z with rxf := r, stamp := some (y.sec, y.ns), frame := z.frame.map (fun f : HFrame => f.read y.val) }.setR rd.toNat y.val)
          (x.pc + 1)).placeOverrun at_.1 at_.2)) ∧
      (∀ rd : BitVec 4, x.rxf = [] → runs (.rx e j rd 0) { x with wait := .rx rd.toNat }) ∧
      (∀ rd : BitVec 4, x.rxf = [] → x.lost = 0 → x.frame = none → x.moving < 2 →
        runs (.rxrun e j rd 0) { x with wait := .rxrun rd.toNat, frame := some ⟨[], at_.1, at_.2, 0, 0, false, true⟩ }) ∧
      (∀ (rd : BitVec 4) y f, x.rxf = [y] → x.lost = 0 → x.frame = some f → f.late = false → y.clean = true →
        c.1 = false → f.bytes.length < c.2 → runs (.rxrun e j rd 0)
          { x with wait := .rxrun rd.toNat, rxf := [], frame := some { f with bytes := f.bytes ++ [BitVec.ofNat 8 y.val.toNat] } }) ∧
      (∀ (i : Instr) (rd : BitVec 4), i = .rxrun e j rd 0 ∨ i = .fput e j rd 0 ∨ i = .fopen e j 0 0 → x.frame = none → 2 ≤ x.moving →
        runs i { x with wait := .buffer }) ∧
      (∀ f, x.frame = some f → runs (.fopen e j 0 0) (x.done id (x.pc + 1))) ∧
      (x.frame = none → x.moving < 2 → let t := x.stamp.getD at_
        runs (.fopen e j 0 0) (x.done (fun z => { z with frame := some ⟨[], t.1, t.2, 0, 0, false, false⟩ }) (x.pc + 1))) ∧
      (∀ (rd : BitVec 4) f, x.frame = some f → let v := (x.r rd.toNat).toNat
        let t := x.stamp.getD at_
        let g := if f.late then { f with sec := t.1, ns := t.2, late := false } else f
        let bs := if c.1 then leBytes 2 (v % 512) else leBytes 1 v
        runs (.fput e j rd 0) (x.done (fun z => { z with frame := some (if g.bytes.length + bs.length ≤ c.2 then { g with bytes := g.bytes ++ bs } else { g with long := true }) }) (x.pc + 1))) ∧
      (∀ l f, d.slotLane e j = some l → x.frame = some f → ∃ u, exec (.fdrop e j 0 0) s = .next (s.withDev u) ∧
        u.slot e j = x.done (fun z => { z with frame := none, stamp := none }) (x.pc + 1) ∧
        u.reg (Reg.STN_LANE_W3 l) = d.reg (Reg.STN_LANE_W3 l) + 1) ∧
      (∀ (rd : BitVec 4) l f, d.slotLane e j = some l → x.frame = some f →
        (d.notInserted (80 + l) = true → ∃ u, exec (.fend e j rd 0) s = .next (s.withDev u) ∧ (u.slot e j).frame = none ∧
          u.reg (Reg.PRT_CNT (80 + l) 6) = d.reg (Reg.PRT_CNT (80 + l) 6) + 1 ∧ u.prs = d.prs) ∧
        (f.long = true → d.notInserted (80 + l) = false → ∃ u, exec (.fend e j rd 0) s = .next (s.withDev u) ∧ (u.slot e j).frame = none ∧
          u.reg (Reg.STN_LANE_W3 l) = d.reg (Reg.STN_LANE_W3 l) + 1 ∧ u.prs = d.prs) ∧
        (f.long = false → d.portPair (80 + l) = none →
          let z := x.done (fun z => { z with frame := none, stamp := none }) (x.pc + 1)
          let head := heritageHeader (80 + l) (d.rf (Reg.STN_LANE_W0 l) 23 16) ((x.r rd.toNat).toNat % 256) f
          head.length = 16 ∧ exec (.fend e j rd 0) s = .next (s.withDev
            (((((turn.setSlot e j z).laneFrameErr l f).setSlot e j { z with moving := z.moving + 1 }).bump (Reg.STN_LANE_W1 l) 1).ingress (80 + l) (head ++ f.bytes) f.sec f.ns)))))

/-- The Stencil line group towards the transmitter, and the waits (R381, R386, R388, R391, R392): tx queues a symbol or waits
for room; the codec sends the FIFO's oldest symbol, the opening and the bytes of a frame txrun sends, or idle, in the lane's code; txnext returns a staged
frame or waits; txrun ends with 0 sent or 1 underrun, which a slot that debug holds keeps for later; drive sets the line driver; waitc and waitt wait and end. -/
def Obligations.StencilTransmit : Prop :=
  ∀ (s : State) (e j : Nat), e < 32 → j < 4 → let d := s.dev
    let x := d.slot e j
    let now := s.clk.count
    let sets := fun (i : Instr) (y : Slot2) => exec i s = .next (s.withDev (d.setSlot e j y))
    let next := fun (i : Instr) (f : Slot2 → Slot2) => sets i (x.done f (x.pc + 1))
    let turn := d.issued e j
    let runs := fun (i : Instr) (y : Slot2) => exec i s = .next (s.withDev (turn.setSlot e j y))
    let goes := fun (i : Instr) (f : Slot2 → Slot2) => runs i (x.done f (x.pc + 1))
    let at_ := (s.clk.sec, s.clk.nsec)
    (∀ l, l < 32 → let send := fun (c : Dev) (it : TxItem) => c.lineSend now at_.1 at_.2 l it
      let sends := fun (c : Dev) (it : TxItem) => exec (.symbolTransmit l) s = .next (s.withDev (send c it))
      (d.laneUp l = false ∨ d.stage = 4 → exec (.symbolTransmit l) s = .next (s.withDev d)) ∧
      (d.laneUp l = true → d.loops l = false → ∀ it, let bits := ((d.txLine l).encode (d.codec l) (d.linePar l 1) it).2
        tget [] (send d it).stn.out l = tget [] d.stn.out l ++
          (if d.codec l = 0x32 ∧ (it = .idle ∨ it = .abort) then [.silent] else if bits = [] then [] else [.bits bits])) ∧
      (d.laneUp l = true → d.stage ≠ 4 → d.laneEngine l = e → d.laneSlot l = j →
        (d.notInserted (80 + l) = true → sends d .idle) ∧
        (d.notInserted (80 + l) = false →
          (∀ v r, x.txf = v :: r → let it := (symItem v).getD .idle
            (d.turning l it = true → sends d .idle) ∧
            (d.turning l it = false → x.wait = .none → sends (d.setSlot e j { x with txf := r }) it) ∧
            (∀ rd, d.turning l it = false → x.wait = .tx rd → x.free = true → sends (d.setSlot e j
              (({ x with txf := r } : Slot2).done (fun y => { y with txf := y.txf ++ [x.r rd] }) (x.pc + 1))) it)) ∧
          (x.txf = [] → x.staged = none → sends d .idle) ∧
          (∀ rd g, x.txf = [] → x.wait = .txrun rd → x.staged = some g →
            (x.opened = false → d.turning l .opening = false → sends (d.setSlot e j { x with opened := true }) .opening) ∧
            (∀ b r, x.opened = true → g.ready = b :: r →
              sends (d.setSlot e j { x with staged := some { g with ready := r } }) (.data b.toNat)))))) ∧
    (∀ rd g l, d.engineRuns e = true → x.wait = .txrun rd → x.staged = some g → g.ready = [] → d.slotLane e j = some l →
      x.txf = [] → x.opened = true → d.loops l = false →
      ∃ u, exec (.txrunDone e j) s = .next (s.withDev u) ∧
        (x.free = true → u.slot e j = x.done (fun y =>
          { y with staged := none, opened := false }.setR rd (if g.rest = [] then 0 else 1)) (x.pc + 1)) ∧
        (x.free = false → u.slot e j = { x with staged := none, opened := false, wait := .over rd (if g.rest = [] then 0 else 1) }) ∧
        (g.rest = [] → u.flt = d.flt) ∧
        (g.rest ≠ [] → u.flt.inbox = d.flt.inbox ++ [⟨Src.stnTxUnderrun, wd (80 + l), false⟩])) ∧
    (∀ l y r, d.slotLane e j = some l → d.engineRuns e = true → x.staged = none → tget [] d.tmg.egress (80 + l) = y :: r → y.sent = false →
      d.spillWaits (80 + l) y.item.handle = false → d.frameBad y.item = false → 16 ≤ (d.frameBytes y.item).length → let body := (d.frameBytes y.item).drop 16
      ∃ g : Staged, g.len = body.length ∧ g.ready ++ g.rest = body ∧ g.ready.length ≤ 4096 ∧ g.user = (byteAt (d.frameBytes y.item) 7).toNat ∧
        (∀ rd, x.wait = .txnext rd → x.free = true → g.taken = true ∧
          next (.txnextReady e j) (fun z => { z.setR rd (BitVec.ofNat 16 g.len) with staged := some g })) ∧
        (x.wait = .none ∨ x.free = false → g.taken = false ∧ sets (.txnextReady e j) { x with staged := some g })) ∧
    (∀ t, x.wait = .waitc t → t ≤ 4 * now → d.engineRuns e = true → x.free = true → next (.waitcExpiry e j) id) ∧
    (∀ t, x.wait = .waitt t → (now % 2 ^ 32 + 2 ^ 32 - t) % 2 ^ 32 < 2 ^ 31 → d.engineRuns e = true → x.free = true → next (.waittExpiry e j) id) ∧
    (d.nextSlot e = some j → ∀ rd : BitVec 4, let n := (x.r rd.toNat).toNat
      (x.txf.length < 64 → goes (.tx e j rd 0) (fun y => { y with txf := y.txf ++ [x.r rd.toNat] })) ∧
      (64 ≤ x.txf.length → runs (.tx e j rd 0) { x with wait := .tx rd.toNat }) ∧
      runs (.txrun e j rd 0) { x with wait := .txrun rd.toNat, opened := false } ∧
      (∀ g, x.staged = some g → g.taken = false → goes (.txnext e j rd 0) (fun y =>
        { y.setR rd.toNat (BitVec.ofNat 16 g.len) with staged := some { g with taken := true } })) ∧
      (x.staged = none → runs (.txnext e j rd 0) { x with wait := .txnext rd.toNat }) ∧
      (∀ l, d.slotLane e j = some l → d.rf (Reg.STN_LANE_W0 l) 23 16 = 0x32 ∨ d.rf (Reg.STN_LANE_W0 l) 23 16 = 0x3F →
        let c := if n.testBit 0 then turn else turn.setTx l { d.txLine l with opened := false }
        exec (.drive e j rd 0) s = .next (s.withDev ((c.lineOut l (.driver (n.testBit 0))).setSlot e j
          (x.done (fun y => { y with driver := n.testBit 0 }) (x.pc + 1))))) ∧
      (n = 0 → goes (.waitc e j rd 0) id) ∧ (n ≠ 0 → runs (.waitc e j rd 0) { x with wait := .waitc (4 * now + 5 * n) }) ∧
      (∀ rs : BitVec 4, let t := (x.r rs.toNat).toNat * 65536 + n
        ((now % 2 ^ 32 + 2 ^ 32 - t) % 2 ^ 32 < 2 ^ 31 → goes (.waitt e j rd rs) id) ∧
        (2 ^ 31 ≤ (now % 2 ^ 32 + 2 ^ 32 - t) % 2 ^ 32 → runs (.waitt e j rd rs) { x with wait := .waitt t })))

/-- Stencil engines and the ring heartbeat (R385, R389, R394, R397, R423): run starts every used slot at its entry and run 0
stops the engine; halt stops it with cause 1, an undefined word with cause 2, and brk with cause 4 unless debug takes it;
hbkick arms the heartbeat of the engine's pair, whose pair waits, settles and is inserted, and whose pin toggles until the arming
lapses, but not while its engine is in loopback (R549); hbstat reads it; pps drives TIME_PPS_OUT for the engine the profile names. -/
def Obligations.StencilEngines : Prop :=
  ∀ (s : State) (e j : Nat), e < 32 → j < 4 → let d := s.dev
    let x := d.slot e j
    let now := s.clk.count
    let halts := fun (i : Instr) (cause : Nat) => ∃ u, exec i s = .next (s.withDev u) ∧ u.rb (Reg.STN_ENG_W3 e) 31 = true ∧
      u.rb (Reg.STN_ENG_W3 e) 30 = false ∧ u.rf (Reg.STN_ENG_W3 e) 27 24 = cause ∧ u.rf (Reg.STN_ENG_W3 e) 29 28 = j ∧
      u.rf (Reg.STN_ENG_W3 e) 11 0 = x.pc.toNat ∧ ⟨Src.stnEngHalt, wd e, false⟩ ∈ u.flt.inbox ∧
      (∀ k, k < 4 → (u.slot e k).frame = none ∧ (u.slot e k).wait = .none)
    (d.nextSlot e = some j →
      halts (.stnHalt e j 0 0) 1 ∧ (∀ w, stnUndefined w = true → halts (.stencilUndefinedInstruction e j w) 2) ∧
      (d.rb Reg.DBG_CTL 1 = false → halts (.brk e j 0 0) 4) ∧
      (d.rb Reg.DBG_CTL 1 = true → exec (.brk e j 0 0) s = .next (s.withDev ((d.issued e j).setSlot e j { x.done id (x.pc + 1) with dbg := .halted false }))) ∧
      (d.enginePair e = none → exec (.hbkick e j 0 0) s = .next (s.slotWent e j id (x.pc + 1))) ∧
      (∀ k, k < 2 → d.enginePair e = some k → (d.hb k).stopped = false → d.ringLoops k = false → ∃ u, exec (.hbkick e j 0 0) s = .next (s.withDev u) ∧
        u.hbArmed k = true ∧ (u.hb k).lapse = 4 * now + 5 * 4096 ∧ u.slot e j = x.done id (x.pc + 1) ∧
        u.ringState k = if d.ringState k = 0 ∧ d.ringPortsOk k = true then 1 else d.ringState k) ∧
      (∀ k, d.enginePair e = some k → (d.hb k).stopped = true ∨ d.ringLoops k = true →
        exec (.hbkick e j 0 0) s = .next (s.slotWent e j id (x.pc + 1))) ∧
      (∀ (rd : BitVec 4) k, d.enginePair e = some k → exec (.hbstat e j rd 0) s = .next (s.slotWent e j (fun y =>
        y.setR rd.toNat (BitVec.ofNat 16 (b2n (d.hbToggling k) + 2 * b2n (d.hbArmed k)))) (x.pc + 1))) ∧
      (∀ (rd : BitVec 4) p, d.prf.inForce = some p → p.pps = 0x80 + e → ∃ u, exec (.pps e j rd 0) s = .next (s.withDev u) ∧
        u.prt = { d.prt with pps := (x.r rd.toNat).toNat.testBit 0 } ∧ u.slot e j = x.done id (x.pc + 1) ∧ u.flt = d.flt)) ∧
    (d.pins.resetN = true → d.rb (Reg.STN_ENG_W0 e) 31 = false → d.rb Reg.STN_CTL 0 = true → ∃ u, exec (.stnEngRun e) s = .next (s.withDev u) ∧
      u.rb (Reg.STN_ENG_W0 e) 31 = true ∧ u.rb (Reg.STN_ENG_W3 e) 30 = true ∧
      ∀ k, k < 4 → (d.rf (Reg.STN_ENG_W3 e) 23 20).testBit k = true →
        (u.slot e k).pc = BitVec.ofNat 12 (d.slotEntry e k) ∧ (u.slot e k).wait = .none ∧ (u.slot e k).frame = none) ∧
    (d.pins.resetN = true → d.rb (Reg.STN_ENG_W3 e) 30 = true → ∃ u, exec (.stnEngStop e) s = .next (s.withDev u) ∧
      u.rb (Reg.STN_ENG_W0 e) 31 = false ∧ u.rb (Reg.STN_ENG_W3 e) 30 = false ∧ u.rf (Reg.STN_ENG_W3 e) 27 24 = 5 ∧
      (∀ k, k < 4 → (u.slot e k).frame = none) ∧ ∀ l ∈ d.engineLanes e, u.laneUp l = false) ∧
    (∀ k, k < 2 → let h := d.hb k
      (d.hbToggling k = true → h.next ≤ 4 * now → d.rb Reg.GLB_CLK_STATUS 28 = true → d.tapFree = true → d.ringLoops k = false →
        exec (.heartbeatToggle k) s = .next (s.withDev (d.setHb k { h with level := !h.level, next := 4 * now + 5 * d.halfPeriod k }))) ∧
      (d.hbArmed k = true → h.lapse ≤ 4 * now → ∃ u, exec (.heartbeatLapse k) s = .next (s.withDev u) ∧ u.hbToggling k = false ∧
        u.hbArmed k = false ∧ (u.hb k).level = false ∧ u.ringState k = 0 ∧ (u.hb k).stopped = true) ∧
      (d.hbArmed k = true → d.ringState k = 1 → d.ringLoops k = false → h.since + 1000 * max 1 (d.rf (Reg.PRT_RING_W0 k) 31 16) ≤ now →
        ∃ u, exec (.ringInsertDelayEnd k) s = .next (s.withDev u) ∧ u.hbToggling k = true ∧ u.ringState k = 2 ∧ (u.hb k).since = now) ∧
      (d.ringState k = 2 → h.since + 1000 * d.rf (Reg.PRT_RING_W0 k) 15 0 ≤ now →
        ∃ u, exec (.ringSettleEnd k) s = .next (s.withDev u) ∧ u.ringState k = 3 ∧ u.stn = d.stn))

/-- The lock unit (R359 to R365, R369, R371): an acquire of a free lock makes its requester the holder and returns 0, or 1 where
the lock was broken; of one held by the requester it returns 3; of one held by another it joins the waiters; while the unit is
disabled it returns 4; with no lock entry left it waits for one. A release by the holder hands the lock to the first waiter with code 0 or frees it; any other changes
no lock and is counted and recorded. A wait over its limit ends with code 2. The semaphore bank and the probe are read. -/
def Obligations.LockUnit : Prop :=
  ∀ (s : State), let d := s.dev
    let replied := fun (u : Dev) (t h code : Nat) => ∀ rd, (d.thr t).run = .lockWait rd → d.holderId t = h →
      u.thr t = ({ d.thr t with run := .running }.setG rd (wd code)).advance (isAtl t)
    let others := fun (u : Dev) (k : Nat) => ∀ k', k' ≠ k → u.lock k' = d.lock k'
    (∀ r rest, d.lku.reqs = r :: rest → r.acquire = true → let k := r.addr / 4
      let l := d.lock k
      ∃ u, exec .lockAcquire s = .next (s.withDev u) ∧ u.lku.reqs = rest ∧ others u k ∧ u.flt = d.flt ∧
        (d.rb Reg.LKU_CTL 16 = false → u.lock k = l ∧ replied u r.thread r.holder 4) ∧
        (d.rb Reg.LKU_CTL 16 = true →
          (l.holder = none → l.broken = true ∨ (d.lku.locks.length < 8192 ∧ d.lku.entryWait = []) → u.lock k = ⟨some r.holder, false, []⟩ ∧
            replied u r.thread r.holder (b2n l.broken)) ∧
          (l.holder = none → l.broken = false → 8192 ≤ d.lku.locks.length ∨ d.lku.entryWait ≠ [] → u.krv = d.krv ∧ u.lku.entryWait =
            d.lku.entryWait ++ [(k, ⟨r.thread, r.holder, s.clk.count + 1000 * d.rf Reg.LKU_CTL 15 0⟩)]) ∧
          (l.holder = some r.holder → u.lock k = l ∧ replied u r.thread r.holder 3) ∧
          (∀ h, l.holder = some h → h ≠ r.holder → u.krv = d.krv ∧ u.lock k =
            { l with waiters := l.waiters ++ [⟨r.thread, r.holder, s.clk.count + 1000 * d.rf Reg.LKU_CTL 15 0⟩] }))) ∧
    (∀ r rest, d.lku.reqs = r :: rest → r.acquire = false → r.addr < semBase ∨ semBase + 0x10000 ≤ r.addr →
      let k := r.addr / 4
      let l := d.lock k
      ∃ u, exec .lockRelease s = .next (s.withDev u) ∧ u.lku.reqs = rest ∧ (d.lku.entryWait = [] → others u k) ∧
        (l.holder ≠ some r.holder → u.lku = { d.lku with reqs := rest } ∧ u.krv = d.krv ∧
          u.reg Reg.LKU_BAD_REL_CNT = d.reg Reg.LKU_BAD_REL_CNT + 1 ∧
          u.flt.inbox = d.flt.inbox ++ [⟨Src.lkuBadRelease, wd r.holder, false⟩]) ∧
        (l.holder = some r.holder → u.flt = d.flt ∧
          (∀ w ws, l.waiters = w :: ws → u.lock k = ⟨some w.holder, false, ws⟩ ∧ replied u w.thread w.holder 0) ∧
          (l.waiters = [] → d.lku.entryWait = [] → u.lock k = Lock.free))) ∧
    (∀ t k l w, isThread t = true → let hit := fun (x : Waiter) => decide (x.thread = t ∧ x.until_ ≤ s.clk.count)
      d.lku.locks.find? (fun e => e.2.waiters.any hit) = some (k, l) → l.waiters.find? hit = some w →
      ∃ u, exec (.lockWaitTimeout t) s = .next (s.withDev u) ∧ others u k ∧
        u.lock k = { l with waiters := l.waiters.filter (fun x => !hit x) } ∧ replied u t w.holder 2 ∧
        u.reg Reg.LKU_TIMEOUT_CNT = d.reg Reg.LKU_TIMEOUT_CNT + 1 ∧
        u.flt.inbox = d.flt.inbox ++ [⟨Src.lkuWaitTimeout, wd w.holder, false⟩]) ∧
    (∀ t q l, isThread t = true → q < 256 → (d.thr t).load = some l → d.txnRuns t = true → d.rb Reg.LKU_CTL 16 = true →
      (∀ r ∈ d.lku.reqs, r.thread = t → r.addr / 0x100 ≠ (semBase + 0x100 * q) / 0x100) →
      (l.paddr = semBase + 0x100 * q → ∃ u, exec (.semaphoreAcquire t q) s = .next (s.withDev u) ∧
        u.thr t = ((d.thr t).loaded l (match (d.sem q).holder with
          | some h => if h = d.holderId t then 3 else 1
          | none => if (d.sem q).broken then 2 else 0)).advance (isAtl t) ∧
        u.sem q = (if (d.sem q).holder = none then ⟨some (d.holderId t), false⟩ else d.sem q) ∧ ∀ q', q' ≠ q → u.sem q' = d.sem q') ∧
      (l.paddr = semBase + 0x100 * q + 4 → ∃ u, exec (.semaphoreStatus t q) s = .next (s.withDev u) ∧ u.lku = d.lku ∧
        u.thr t = ((d.thr t).loaded l (match (d.sem q).holder with
          | some h => wd (2 ^ 31 + h)
          | none => if (d.sem q).broken then wd (2 ^ 30) else 0)).advance (isAtl t))) ∧
    (∀ r rest q, d.lku.reqs = r :: rest → r.acquire = false → q < 256 → r.addr = semBase + 0x100 * q + 4 →
      ∃ u, exec .semaphoreRelease s = .next (s.withDev u) ∧ u.lku.reqs = rest ∧ u.krv = d.krv ∧ u.lku.locks = d.lku.locks ∧
        ((d.sem q).holder = some r.holder → u.sem q = ⟨none, false⟩ ∧ u.flt = d.flt) ∧
        ((d.sem q).holder ≠ some r.holder → u.sem q = d.sem q ∧
          u.flt.inbox = d.flt.inbox ++ [⟨Src.lkuBadRelease, wd r.holder, false⟩])) ∧
    (∀ hi, d.pins.resetN = true → let a := (d.reg Reg.LKU_PROBE_ADDR_LO).toNat + hi.toNat % 2 ^ 16 * 2 ^ 32
      let l := d.lock (a / 4)
      l.holder.getD 0 < 2 ^ 16 → ∃ u, exec (.lockProbe hi) s = .next (s.withDev u) ∧ u.rf Reg.LKU_PROBE_ADDR_HI 15 0 = hi.toNat % 2 ^ 16 ∧
        u.rb Reg.LKU_PROBE_STATUS 31 = l.holder.isSome ∧ u.rb Reg.LKU_PROBE_STATUS 30 = l.broken ∧
        u.rf Reg.LKU_PROBE_STATUS 26 16 = l.waiters.length % 2 ^ 11 ∧ u.lku = d.lku)

/-- A port's dequeue (R320, R325, R327 to R330) chooses among the eligible queues one that no eligible queue of its subscriber
outranks, whose subscriber and service no other outranks, takes its oldest copy off its depth, and puts it into the port's egress
FIFO, or on a port that is down drops it; a hand-off links a copy at the queue's tail within its threshold (R322). Hand-offs of a
domain come in ticket order (R36); a gated head that was read is staged (R345). A disabled queue still gives up what it holds
(DEDUCED, log entry 30). -/
def Obligations.TrafficQueues : Prop :=
  ∀ (s : State) (p : Nat), isPort p = true → let d := s.dev
    let now := s.clk.count
    let tm := s.clk.sec * 1000000000 + s.clk.nsec
    let e := ((d.examine now p).dropNofit now p 65536).gateTend now p
    (∀ v sb q x r, d.rb Reg.TMG_CTL 0 = true → e.portReady now p = true →
      e.choose now tm p = some (v, sb, q) → (e.queue q.1).items = x :: r →
      (112 ≤ p → p < 128 → e.portUp p = true → e.puntReady (p - 112) x.len = true) →
      (q.1 ∈ e.eligibleQueues now tm p ∧ e.subOf q.1 = sb.1 ∧ e.svcOf sb.1 = v.1 ∧
        ∀ q' ∈ e.eligibleQueues now tm p,
          (e.svcOf (e.subOf q') ≠ v.1 → e.rank now 2 v.1 ≤ e.rank now 2 (e.svcOf (e.subOf q'))) ∧
          (e.svcOf (e.subOf q') = v.1 → e.rank now 1 sb.1 ≤ e.rank now 1 (e.subOf q')) ∧
          (e.subOf q' = sb.1 → e.svcOf (e.subOf q') = v.1 → e.rank now 0 q.1 ≤ e.rank now 0 q')) ∧
      ∃ u, exec (.tmDequeue p) s = .next (s.withDev u) ∧ (u.queue q.1).items = r ∧ (u.queue q.1).bytes = (e.queue q.1).bytes - x.len ∧
        (u.queue q.1).cells = (e.queue q.1).cells - cellsOf x.len ∧ (∀ q', q' ≠ q.1 → u.queue q' = e.queue q') ∧
        (e.portUp p = true → tget [] u.tmg.egress p = tget [] e.tmg.egress p ++ [⟨x, q.1, false, tm⟩] ∧
          (u.queue q.1).sent = ((e.queue q.1).sent + 1) % 2 ^ 64 ∧ u.pal = e.pal) ∧
        (e.portUp p = false → u.tmg.egress = e.tmg.egress ∧ (u.queue q.1).drops = ((e.queue q.1).drops + 1) % 2 ^ 32)) ∧
    (let read := fun (r : DramReq) => match r.who with
      | .gate r' _ => decide (r' = p) && r.done.isSome
      | _ => false
     p < 80 → d.rf Reg.DRC_FREQ_STATUS 31 28 ≠ 4 →
      (d.drc.reqs.find? read = none → ∃ u, exec (.gatedPrefetchDone p) s = .next (s.withDev u) ∧ u.tmg = d.tmg) ∧
      (∀ a q x r, d.drc.reqs.find? read = some a → a.who = .gate p x.handle → (d.dramDrop a.who).gateUnstaged p = [q] →
        (d.queue q).items = x :: r → ∃ u, exec (.gatedPrefetchDone p) s = .next (s.withDev u) ∧
          (u.queue q).items = { x with staged := true } :: r ∧ ∀ q', q' ≠ q → u.queue q' = d.queue q')) ∧
    (∀ i, i < 4096 → let t := fld (d.ow 7 i 0) 19 0
      t ≠ 0 → (d.recov i).reset = false → (d.recov i).last + 1000 * t ≤ now →
      exec (.recoveryTimeout i) s = .next (s.withDev (d.setRecov i { d.recov i with reset := true, resets := ((d.recov i).resets + 1) % 2 ^ 32 }))) ∧
    (∀ key, key < 6144 → (d.txn key).phase = .committing → d.oldestHandoff key = true → let t := d.txn key
      (t.enqs = [] → ∃ u, exec (.tmHandoff key) s = .next (s.withDev u) ∧ (u.txn key).phase = .free ∧ u.tmg = d.tmg) ∧
      (∀ q h col, t.enqs = [.enq q h col] → d.rb Reg.TMG_CTL 0 = true → d.pathOn q = true → bit (d.ow 0 q 4) 31 = false →
        bit (d.ow 0 q 5) 31 = false → let n := d.frameLen t.handle t.pktLen
        fld (d.ow 0 q (5 + min col 2)) 19 0 ≠ 0 → (d.queue q).bytes + n ≤ 256 * fld (d.ow 0 q (5 + min col 2)) 19 0 →
        ∃ u, exec (.tmHandoff key) s = .next (s.withDev u) ∧ (u.txn key).phase = .free ∧
          (u.queue q).items = (d.queue q).items ++ [⟨t.handle, t.handle, n, t.pktLen, now, false, t.recircs, t.recirc⟩] ∧
          (u.queue q).bytes = (d.queue q).bytes + n ∧ (u.queue q).cells = (d.queue q).cells + cellsOf n ∧ u.pal = d.pal)) ∧
    (∀ q, d.rb Reg.TMG_SWATCH_CTL 31 = true → d.rf Reg.TMG_SWATCH_CTL 19 0 ≠ 0 → d.tmg.swatchEnd ≤ now → d.rb Reg.TMG_SWATCH_CTL 30 = false →
      d.rf Reg.TMG_SWATCH_RANGE 15 0 = q → d.rf Reg.TMG_SWATCH_RANGE 31 16 = q → let n := d.rf Reg.TMG_SWATCH_SIZE 23 0
      let i := d.rf Reg.TMG_SWATCH_WIDX 23 0
      let base := (d.reg Reg.TMG_SWATCH_BASE_LO).toNat + 2 ^ 32 * d.rf Reg.TMG_SWATCH_BASE_HI 15 0
      let x := d.queue q
      n ≠ 0 → i + 1 < n → d.plainMem → ∃ u, exec .swatchPass s = .next (s.withDev u) ∧ u.queue q = { x with maxBytes := x.bytes, newDrops := 0 } ∧
        u.rf Reg.TMG_SWATCH_WIDX 23 0 = i + 1 ∧ u.memRead (base + 32 * i) 32 =
          leBytes 4 (b2n (decide (x.items ≠ [])) * 2 ^ 16 + q) ++ wordsBytes (x.sample now) ++ leBytes 8 now)

/-- The object commands, the gates and the MTR commands (R326, R338 to R341, R354, R355), with RESET_N high: a read puts an
object's words into the data registers, a write stores them unless it is refused, a flush drops every packet of a disabled queue
with reason 7, an apply sets the switch of a valid schedule, the switch replaces the operational schedule with the one the apply
validated (log entry 112), a gate entry takes
effect, and meters and counters are read, written and cleared. -/
def Obligations.TrafficObjects : Prop :=
  ∀ (s : State), let d := s.dev
    let now := s.clk.count
    let tm := s.clk.sec * 1000000000 + s.clk.nsec
    let kind := d.rf Reg.TMG_OBJ_SEL 31 28
    let bank := d.rf Reg.TMG_OBJ_SEL 27 27
    let i := d.rf Reg.TMG_OBJ_SEL 16 0
    let ws := (List.range 8).map (fun w => d.reg (Reg.TMG_OBJ_DATA w))
    let code := fun (u : Dev) (n : Nat) => u.reg Reg.TMG_OBJ_STATUS = wd n
    (d.pins.resetN = true →
      (∃ u, exec .tmgObjRead s = .next (s.withDev u) ∧ u.tmg = d.tmg ∧ (objCount kind ≤ i → code u 1) ∧
        (i < objCount kind → code u 0 ∧ ∀ w, w < 8 → u.reg (Reg.TMG_OBJ_DATA w) = (d.objRead kind bank i).getD w 0)) ∧
      (i < objCount kind → kind ≠ 4 ∨ bank = 0 →
        (d.objRefused kind i ws = true → ∃ u, exec .tmgObjWrite s = .next (s.withDev u) ∧ code u 2 ∧ u.tmg = d.tmg) ∧
        (d.objRefused kind i ws = false → ∃ u, exec .tmgObjWrite s = .next (s.withDev u) ∧ code u 0 ∧ u.obj kind i = objWords kind ws ∧
          (∀ k j, j < 2 ^ 17 → (k, j) ≠ (kind, i) → u.obj k j = d.obj k j) ∧ u.tmg.queues = d.tmg.queues)) ∧
      (kind = 0 → i < 65536 →
        (d.objOn 0 i = true → ∃ u, exec .tmgQueueFlush s = .next (s.withDev u) ∧ code u 2 ∧ u.tmg = d.tmg) ∧
        (d.objOn 0 i = false → ∃ u, exec .tmgQueueFlush s = .next (s.withDev u) ∧ code u 0 ∧ (u.queue i).items = [] ∧ (u.queue i).bytes = 0 ∧
          (u.queue i).drops % 2 ^ 32 = ((d.queue i).drops + (d.queue i).items.length) % 2 ^ 32 ∧ ∀ j, j ≠ i → u.queue j = d.queue j)) ∧
      (kind = 5 → i < 80 → d.portEthernet i = true → let l := d.adminList i
        let cycle := fld (d.ow 5 i 1) 29 0
        1 ≤ l.length → l.length ≤ 1024 → 1000 ≤ cycle → cycle ≤ 1000000000 → (∀ x ∈ l, 16 ≤ x.2) →
        ∃ u t, exec .tmgScheduleApply s = .next (s.withDev u) ∧ code u 0 ∧ u.gate i = { d.gate i with pending := some t, nextOper := l, nextCycle := cycle } ∧
          (tm < d.adminBase i → t = d.adminBase i) ∧
          (d.adminBase i ≤ tm → (∃ n, t = d.adminBase i + n * cycle) ∧ tm + 1000 ≤ t ∧ t < tm + 1000 + cycle)) ∧
      (∀ m, m = d.rf Reg.MTR_SEL 20 0 →
        (d.rb Reg.MTR_SEL 31 = true → ∃ u, exec .mtrRead s = .next (s.withDev u) ∧ u.mtr = d.mtr ∧ u.reg Reg.MTR_STATUS = 0 ∧
          ∀ w, w < 4 → u.reg (Reg.MTR_DATA w) = (counterWords (d.counter m)).getD w 0) ∧
        (d.rb Reg.MTR_SEL 31 = false → m < 2 ^ 20 → ∃ u, exec .mtrRead s = .next (s.withDev u) ∧ u.mtr = d.mtr ∧
          ((d.meter m).lost = true → u.reg Reg.MTR_STATUS = 4) ∧
          ((d.meter m).lost = false → u.reg Reg.MTR_STATUS = 0 ∧ ∀ w, w < 4 → u.reg (Reg.MTR_DATA w) = (d.meter m).cfg.getD w 0)) ∧
        (d.rb Reg.MTR_SEL 31 = true → ∃ u, exec .mtrReadClear s = .next (s.withDev u) ∧ u.counter m = (0, 0) ∧
          (∀ j, j ≠ m → u.counter j = d.counter j) ∧ ∀ w, w < 4 → u.reg (Reg.MTR_DATA w) = (counterWords (d.counter m)).getD w 0) ∧
        (let a := (List.range 4).map (fun w => d.reg (Reg.MTR_DATA w))
         let b := (a.set 1 (wd (clampRate (fld (a.getD 1 0) 28 0)))).set 2 (wd (clampRate (fld (a.getD 2 0) 28 0)))
         d.rb Reg.MTR_SEL 31 = false → m < 2 ^ 20 → d.stage ≠ 3 → meterBad b = false →
          ∃ u, exec .mtrWrite s = .next (s.withDev u) ∧ u.reg Reg.MTR_STATUS = 0 ∧ (u.meter m).cfg = meterWords b ∧
            (u.meter m).last = now ∧ (u.meter m).tc = (fld ((meterWords b).getD 0 0) 23 0 * 65536 : Nat) ∧ ∀ j, j ≠ m → u.meter j = d.meter j))) ∧
    (∀ p t, p < 80 → (d.gate p).pending = some t → t ≤ tm → ∃ u, exec (.gateScheduleSwitch p) s = .next (s.withDev u) ∧
      (u.gate p).oper = (d.gate p).nextOper ∧ (u.gate p).base = t ∧ (u.gate p).cycle = (d.gate p).nextCycle ∧ (u.gate p).pending = none ∧
      (u.gate p).entry = 0 ∧ ∀ p', p' ≠ p → u.gate p' = d.gate p') ∧
    (∀ p, p < 80 → let g := d.gate p
      g.oper ≠ [] → ∃ u, exec (.gateEntryChange p) s = .next (s.withDev u) ∧
        let r := gateAt g.cyc (g.pos tm) 0
        u.gate p = { g with state := r.1, entry := r.2 } ∧ ∀ q, (u.queue q).items = (d.queue q).items)

/-- GMP requests to a target that is up (R507, R508, R533, R544, R491): with a correct CRC and length each answers status 0 and
its payload, counts in MGT_GMP_CNT, and has its own effect, after line 3 where it needs firmware (which ones do is open, log entry
83); a bad CRC answers 3, a bad length 2, some are not available in reset (5), and one to another address is not answered
(R506). -/
def Obligations.GmpRequests : Prop :=
  ∀ (s : State) (a : BitVec 7) (crc : Byte), let d := s.dev
    (d.answersTo a = false → ∀ p, ∀ i ∈ [Instr.identity a p crc, .faultRead a p crc, .faultClear a p crc, .powerState a p crc,
      .powerSet a p crc, .ringStatus a p crc, .subunitReset a p crc, .quoteStart a p crc, .quoteRead a p crc, .certRead a p crc,
      .regRead a p crc], exec i s = .next s) ∧
    (d.answersTo a = true →
    let good := fun (code : Nat) (p : List Byte) => crc.toNat = crc8 0 (leBytes 1 code ++ leBytes 1 p.length ++ p)
    let at_ := fun (code : Nat) => d.gmpLine code
    let answers := fun (i : Instr) (e : Dev) (bs : List Byte) => exec i s = .next (s.withDev (e.gmpReply (0, bs)))
    (∀ (e : Dev) (bs : List Byte), (e.gmpReply (0, bs)).resp = gmpAnswer 0 bs ∧
      (e.gmpReply (0, bs)).reg Reg.MGT_GMP_CNT = e.reg Reg.MGT_GMP_CNT + 1) ∧
    (∀ p, ¬ good 1 p → exec (.identity a p crc) s = .next (s.withDev { d with resp := gmpAnswer 3 [] })) ∧
    (∀ p, good 1 p → p ≠ [] → exec (.identity a p crc) s = .next (s.withDev { d with resp := gmpAnswer 2 [] })) ∧
    (good 1 [] → answers (.identity a [] crc) (at_ 1) (padTo 8 s.idn.lot ++ leBytes 1 s.idn.wafer ++ leBytes 1 s.idn.x ++
      leBytes 1 s.idn.y ++ leBytes 1 s.idn.stage ++ leBytes 2 s.idn.stepping ++ leBytes 1 d.stage ++ zeros 1)) ∧
    (good 2 [] → answers (.faultRead a [] crc) (at_ 2) d.faultRecord) ∧
    (good 3 [] → ∃ e, answers (.faultClear a [] crc) e [] ∧ e = { at_ 3 with regs := e.regs } ∧ e.rb Reg.FLT_FIRST_STATUS 31 = false ∧
      e.rb Reg.FLT_FIRST_STATUS 30 = false ∧ e.rf Reg.FLT_FIRST_STATUS 29 0 = d.rf Reg.FLT_FIRST_STATUS 29 0 ∧
      ∀ o, o ≠ Reg.FLT_FIRST_STATUS → e.reg o = (at_ 3).reg o) ∧
    (good 6 [] → answers (.ringStatus a [] crc) (at_ 6) (wordsBytes [d.reg (Reg.PRT_RING_W1 0), d.reg (Reg.PRT_RING_W1 1),
      d.reg (Reg.STN_HB 0), d.reg (Reg.STN_HB 1)])) ∧
    (∀ p, good 10 p → p.length = 2 → answers (.certRead a p crc) (at_ 10) (slice s.idn.cert (leAt p 0 2) 32)) ∧
    (d.pins.resetN = false → good 4 [] → exec (.powerState a [] crc) s = .next (s.withDev { d with resp := gmpAnswer 5 [] })) ∧
    (d.pins.resetN = true →
      (good 4 [] → answers (.powerState a [] crc) (at_ 4) (leBytes 4 (d.reg Reg.PWR_RAIL_STATUS).toNat ++
        leBytes 4 (Config.devicePower s.clk.count).toNat ++ leBytes 1 (d.rf Reg.PWR_THERM 7 0))) ∧
      (∀ b : Byte, good 5 [b] → leAt [b] 0 1 ≤ 1 →
        answers (.powerSet a [b] crc) ((at_ 5).setRb Reg.PWR_CTL 3 (decide (leAt [b] 0 1 = 1))).retargetAll []) ∧
      (∀ b : Byte, good 7 [b] → let u := leAt [b] 0 1
        (u = 0 → answers (.subunitReset a [b] crc) (at_ 7).resetAtelier []) ∧
        (1 ≤ u → u ≤ 32 → answers (.subunitReset a [b] crc) (stnEngStop (u - 1) (at_ 7)) []) ∧
        (u = 0x40 → answers (.subunitReset a [b] crc)
          ((List.range 15).foldl Dev.grpReset (at_ 7)) []) ∧
        (u = 0xFF → exec (.subunitReset a [b] crc) s
          = .next { s with clk := Clock.reset, idn := s.idn.cleared, dev := (at_ 7).pulse.gmpReply (0, []) }) ∧
        (32 < u → u ≠ 0x40 → u ≠ 0xFF → exec (.subunitReset a [b] crc) s
          = .next (s.withDev { at_ 7 with resp := gmpAnswer 6 [] }))) ∧
      (∀ p, good 8 p → 16 ≤ p.length → p.length ≤ 64 → d.mgt.quotes.any (fun q => q.ring.isNone) = false →
        let e := at_ 8
        answers (.quoteStart a p crc) (({ e with mgt := { e.mgt with gmpQuote := none } } : Dev).askQuote s.clk s.idn ⟨none, p, none⟩) []) ∧
      (∀ p q, good 9 p → p.length = 2 → d.mgt.quotes.any (fun q => q.ring.isNone) = false → d.mgt.gmpQuote = some q →
        leAt p 0 2 < 496 → answers (.quoteRead a p crc) (at_ 9) (slice q (leAt p 0 2) 32)) ∧
      (∀ p, good 11 p → p.length = 4 → leVal p < 2 ^ 26 →
        let x := (at_ 11).readReg .gmp s.clk.count s.idn (leVal p)
        answers (.regRead a p crc) x.2 (leBytes 4 x.1.toNat))))

/-- I3C common commands at a target that is up, and the Atelier's registers (R501 to R503, R506, R509, R515): addresses are
assigned and reset, events enabled and disabled, and the identity, status and limits returned; an accepted interrupt gives its
bytes and makes room for the next; firmware starts cores, raises inter-core interrupts, extends M3 and starts forwarding, and a
host write of these is refused. GETSTATUS's bytes are a free value (log entry 2). -/
def Obligations.I3cAndAtelier : Prop :=
  ∀ (s : State), let d := s.dev
    let returns := fun (i : Instr) (bs : List Byte) => exec i s = .next (s.withDev { d with resp := bs })
    let sets := fun (i : Instr) (m : Mgt) => exec i s = .next (s.withDev { d with mgt := m })
    (d.targetUp = false → ∀ a, exec (.entdaa a) s = .next (s.withDev d)) ∧
    (d.targetUp = true →
      (∀ (a : BitVec 7) i, i = .entdaa a ∨ i = .setdasa (BitVec.ofNat 7 (d.rf Reg.MGT_I3C_CFG 6 0)) a →
        (d.rb Reg.MGT_I3C_STATUS 8 = true → exec i s = .next (s.withDev d)) ∧
        (d.rb Reg.MGT_I3C_STATUS 8 = false → ∃ e, exec i s = .next (s.withDev e) ∧ e = { d with regs := e.regs } ∧
          e.rf Reg.MGT_I3C_STATUS 6 0 = a.toNat ∧ e.rb Reg.MGT_I3C_STATUS 8 = true ∧ e.rb Reg.MGT_I3C_STATUS 7 = d.rb Reg.MGT_I3C_STATUS 7 ∧
          ∀ o, o ≠ Reg.MGT_I3C_STATUS → e.reg o = d.reg o)) ∧
      (∀ i b, (i = .rstdaa ∧ b = d.rb Reg.MGT_I3C_STATUS 7) ∨ (i = .enec ∧ b = true) ∨ (i = .disec ∧ b = false) →
        ∃ e, exec i s = .next (s.withDev e) ∧ e = { d with regs := e.regs } ∧ e.rb Reg.MGT_I3C_STATUS 7 = b ∧
          (i = .rstdaa → e.rf Reg.MGT_I3C_STATUS 6 0 = 0 ∧ e.rb Reg.MGT_I3C_STATUS 8 = false) ∧
          (i ≠ .rstdaa → e.rf Reg.MGT_I3C_STATUS 6 0 = d.rf Reg.MGT_I3C_STATUS 6 0) ∧
          ∀ o, o ≠ Reg.MGT_I3C_STATUS → e.reg o = d.reg o) ∧
      returns .getpid (beBytes 6 (0x0B35 * 2 ^ 33 + 0x3200 * 2 ^ 16 + d.rf Reg.MGT_I3C_CFG 11 8 * 2 ^ 12)) ∧
      returns .getbcr [0x06] ∧ returns .getdcr [0x00] ∧ returns .getmwl (beBytes 2 d.mgt.mwl) ∧ returns .getmrl (beBytes 2 d.mgt.mrl) ∧
      (∃ e, exec .getstatus s = .next (s.withDev e) ∧ e = { d with resp := e.resp, free := e.free } ∧ e.resp.length = 2) ∧
      (∀ n, sets (.setmwl n) { d.mgt with mwl := n.toNat } ∧ sets (.setmrl n) { d.mgt with mrl := n.toNat }) ∧
      ∀ a, sets (.rstact a) { d.mgt with rstAct := a.toNat }) ∧
    (∀ sev src, d.mgt.ibi = some (sev, src) → d.rb Reg.MGT_I3C_STATUS 7 = true → exec .ibiAccepted s = .next (s.withDev
      { d with resp := [0x40] ++ leBytes 1 sev ++ leBytes 1 src, mgt := { d.mgt with ibi := d.mgt.ibiNext, ibiNext := none } })) ∧
    (d.pins.resetN = true →
      (∀ m, exec (.atlCoreStart .host m) s = .next (s.withDev (d.refuse .host Reg.ATL_CORE_CTL))) ∧
      (∀ m, exec (.atlIpi .host m) s = .next (s.withDev (d.refuse .host Reg.ATL_IPI))) ∧
      exec (.atlRunGo .host) s = .next (s.withDev (d.refuse .host Reg.ATL_RUN)) ∧
      exec (.measurementExtend .host) s = .next (s.withDev (d.refuse .host Reg.ATL_MEAS)) ∧
      (∀ r, r ≠ .host →
        (∀ m : BitVec 3, ∃ e, exec (.atlCoreStart r m) s = .next (s.withDev e) ∧ ∀ k, k < 3 →
          (m.toNat.testBit k = true → d.rb Reg.ATL_CORE_CTL k = false → e.rb Reg.ATL_CORE_CTL k = true ∧
            (e.thr (1537 + k)).pc = d.reg (Reg.ATL_START k) ∧ (e.thr (1537 + k)).run = .running ∧ (e.thr (1537 + k)).super = true) ∧
          (m.toNat.testBit k = false ∨ d.rb Reg.ATL_CORE_CTL k = true → e.rb Reg.ATL_CORE_CTL k = d.rb Reg.ATL_CORE_CTL k ∧
            e.thr (1537 + k) = d.thr (1537 + k))) ∧
        (∀ m : BitVec 4, exec (.atlIpi r m) s = .next (s.withDev (d.setReg Reg.ATL_IPI (wd (d.rf Reg.ATL_IPI 3 0 ||| m.toNat))))) ∧
        (d.stage = 2 → d.prf.inForce ≠ none → d.rb Reg.DRC_STATUS 0 = true → d.rf Reg.DRC_STATUS 31 24 ≠ 0 →
          exec (.atlRunGo r) s = .next (s.withDev (d.setRf Reg.GLB_RUN_STATE 3 0 3))) ∧
        (d.stage = 2 → d.prf.inForce = none ∨ d.rb Reg.DRC_STATUS 0 = false ∨ d.rf Reg.DRC_STATUS 31 24 = 0 →
          exec (.atlRunGo r) s = .next (s.withDev (d.conflict r Reg.ATL_RUN))) ∧
        exec (.measurementExtend r) s = .next { s with
          idn := { s.idn with meas := s.idn.meas.set 3 (extended (s.idn.meas.getD 3 []) d.measData) }
          dev := d.setReg Reg.ATL_MEAS (wd (min (d.rf Reg.ATL_MEAS 15 0 + 1) 0xFFFF)) }))

/-- Points, gating and faults of the power unit complete (R519, R520, R523, R524, R529, R530, R532, R539, R577): a cluster's
written point is refused above its cap, during a change and after a power failure and starts a change otherwise; gating
empties a cluster and stops its clock, and waking restores it; the non-speculative voltage is confirmed to its waiting
transactions; an error window lowers, holds or raises the voltage; throttling starts, steps and ends; each fault of the
rail and of a regulator is recorded. -/
def Obligations.PowerUnit : Prop :=
  ∀ (s : State) (c : Nat), c < 24 → let d := s.dev
    let x := d.clp c
    let w := Reg.PWR_CL_W0 c
    let becomes := fun (i : Instr) (y : ClPwr) (p : Dev → Prop) => ∃ e, exec i s = .next (s.withDev e) ∧ e.clp c = y ∧
      (∀ c', c' ≠ c → e.clp c' = d.clp c') ∧ p e
    let recorded := fun (e : Dev) (src n : Nat) => e.flt.inbox = d.flt.inbox ++ [⟨src, wd n, false⟩] ∧ e.rb Reg.ATL_INT_PEND 6 = true
    let window := d.speculates c = true ∧ x.winAt + 2 ^ d.rf Reg.PWR_LOOP 28 24 ≤ x.commits
    let errs := (d.reg (Reg.PWR_CL_W3 c)).toNat
    let goal := d.rf Reg.PWR_LOOP 23 16
    let fresh := { x with winAt := x.commits }
    (∀ r p, p < 10 → d.pins.resetN = true → let m := min 9 (d.rf w 7 4)
      let moves := p ≠ d.rf w 3 0
      (m < p ∨ x.next.isSome ∨ (moves ∧ (min x.maxOk d.lpCap < p ∨ d.pwrfailOn = true)) →
        exec (.clusterPointChange r c p) s = .next (s.withDev (d.refuse r w))) ∧
      (p ≤ m → p ≤ min x.maxOk d.lpCap → x.next = none → d.pwrfailOn = false → d.inBist c = false →
        let y := { x with maxOk := min m x.maxOk }
        let to_ := min p x.ceil
        becomes (.clusterPointChange r c p)
          (if to_ = x.cur then y else if d.cluClocked c then { y with next := some to_ } else { y with cur := to_ })
          (fun e => e.rf w 3 0 = p ∧ e.rb w 30 = d.rb w 30 ∧ e.rb w 31 = d.rb w 31))) ∧
    (∀ p, x.next = some p → d.cluClocked c = true → becomes (.pointChangeDone c)
      { fresh with cur := p, next := if d.pointGoal c = p ∨ d.pwrfailOn = true ∨ d.inBist c = true then none else some (d.pointGoal c), offset := 0 } (fun e => e.reg (Reg.PWR_CL_W3 c) = 0)) ∧
    (d.vcoreGoal < 1024 → ∃ e, exec .vcoreSlewDone s = .next (s.withDev e) ∧ e.rf Reg.PWR_RAIL_STATUS 9 0 = d.vcoreGoal ∧
      (e.clp c).maxOk = min (min 9 (d.rf w 7 4)) d.lpCap ∧
      (d.rf Reg.PWR_RAIL_STATUS 27 16 ≠ 0 → e.rb Reg.PWR_RAIL_STATUS 31 = true)) ∧
    (∀ r, d.pins.resetN = true → d.rf w 3 0 ≤ min 9 (d.rf w 7 4) → x.next = none → d.rb w 30 = false → d.pwrfailOn = false → d.cluClocked c = true →
      ∃ e, exec (.clusterGate r c) s = .next (s.withDev e) ∧ e.rb w 30 = true ∧ (e.clp c).gating = true ∧ e.flt = d.flt) ∧
    (x.gating = true → d.cluEmpty c = true → d.pwrfailOn = false → d.inBist c = false →
      becomes (.gatingDone c) { x with gating := false, waking := false, next := none }
        (fun e => e.rb Reg.GLB_CLK_STATUS c = false ∧ e.rb w 30 = true)) ∧
    (∀ r, d.pins.resetN = true → d.rf w 3 0 ≤ min 9 (d.rf w 7 4) → x.next = none → d.rb w 30 = true → ∃ e, exec (.clusterWake r c) s = .next (s.withDev e) ∧ e.rb w 30 = false ∧
      (d.cluClocked c = true → (e.clp c).gating = false) ∧ (d.cluClocked c = false → (e.clp c).waking = true) ∧ e.flt = d.flt) ∧
    (x.waking = true → becomes (.wakeDone c)
        { fresh with waking := false, cur := d.pointGoal c, next := none, offset := 0 } (fun e => e.rb Reg.GLB_CLK_STATUS c = true ∧
          ∀ y ∈ d.flt.drains, y.spare = some c → y.since = none → { y with since := some s.clk.count } ∈ e.flt.drains)) ∧
    (Tab.wf (fun _ => Txn.reset) d.vrn.txns = true → ∃ e, exec (.nonSpeculativeConfirm c) s = .next (s.withDev e) ∧ e.flt = d.flt ∧
      ∀ k, e.txn k = if k / 256 = c ∧ (d.txn k).irrev = .waits ∧ (d.txn k).phase ≠ .free ∧ d.nominalAsked c = true
        then { d.txn k with nonspec := true } else d.txn k) ∧
    (window →
      (2 * errs < goal → becomes (.errorWindowEnd c)
        { fresh with offset := min ((x.offset + d.rf Reg.PWR_LOOP 7 0) / 5 * 5) (vNom x.cur - vFloor x.cur) } (fun e => e.flt = d.flt)) ∧
      (goal ≤ 2 * errs → errs ≤ 2 * goal → becomes (.errorWindowEnd c) fresh (fun e => e.flt = d.flt)) ∧
      (2 * goal < errs → x.offset ≠ 0 → becomes (.errorWindowEnd c)
        { fresh with offset := (x.offset - d.rf Reg.PWR_LOOP 15 8) / 5 * 5 } (fun e => e.flt = d.flt)) ∧
      (2 * goal < errs → x.offset = 0 → becomes (.errorWindowEnd c) { fresh with stopped := true }
        (fun e => recorded e Src.gzSpecLimit c))) ∧
    (∀ sensor temp, sensor < 32 → temp < 256 → ∃ e, exec (.thermalThreshold sensor temp) s = .next (s.withDev e) ∧
      e.rf Reg.PWR_THERM 15 8 = sensor ∧ e.rf Reg.PWR_THERM 7 0 = temp ∧
      (d.rb Reg.PWR_STATUS 30 = false → d.rb Reg.PWR_CTL 2 = true → d.rf Reg.PWR_THERM 23 16 < temp →
        e.rb Reg.PWR_STATUS 30 = true ∧ recorded e Src.gzThrottle sensor) ∧
      (d.rb Reg.PWR_STATUS 30 = true → temp + 3 < d.rf Reg.PWR_THERM 23 16 → e.rb Reg.PWR_STATUS 30 = false ∧ e.flt = d.flt)) ∧
    ((∀ t, d.pwr.lastStep = some t → t + 1000000 ≤ s.clk.count) → d.rb Reg.PWR_STATUS 30 = true → d.rb Reg.PWR_CTL 2 = true →
      ∃ e, exec .throttleStep s = .next (s.withDev e) ∧ e.pwr.lastStep = some s.clk.count ∧
        (e.clp c).ceil = if 0 < d.pointGoal c then d.pointGoal c - 1 else x.ceil) ∧
    ((∀ t, d.pwr.lastStep = some t → t + 1000000 ≤ s.clk.count) → d.rb Reg.PWR_STATUS 30 = false → x.ceil ≠ 9 →
      ∃ e, exec .throttleStep s = .next (s.withDev e) ∧ e.pwr.lastStep = some s.clk.count ∧
        (e.clp c).ceil = if x.ceil + 1 < d.pointBase c then x.ceil + 1 else 9) ∧
    (∀ n, n < 12 → d.rb Reg.PWR_RAIL_STATUS (16 + n) = true → ∃ e, exec (.gzPhaseFault n) s = .next (s.withDev e) ∧
      e.rb Reg.PWR_RAIL_STATUS (16 + n) = false ∧ recorded e Src.gzPhaseFault n) ∧
    (∃ e, exec .gzVcoreOor s = .next (s.withDev e) ∧ e.rb Reg.PWR_RAIL_STATUS 31 = false ∧ recorded e Src.gzVcoreOor 0) ∧
    (d.cluClocked c = true ∨ x.waking = true → ∃ e, exec (.gzLdoFault c) s = .next (s.withDev e) ∧ recorded e Src.gzLdoFault c) ∧
    (d.pins.resetN = false → exec .thermtripNRelease s = .next (s.withDev { d with pins := { d.pins with thermtripN := true } }))

/-- The collector, in-service test and debug complete (R542 to R547, R550 to R554): a report counts, is captured first, raises its
line and FAULT_N and at severity 5 stops forwarding; a drain's end takes the cluster out and aborts its transactions; out,
BIST and return act on a unit that admits them; a target is halted, stepped, resumed, killed and written; a lane enters and leaves its test. -/
def Obligations.ServiceAndDebug : Prop :=
  ∀ (s : State), let d := s.dev
    let st := fun (e : Dev) => (e.reg Reg.FLT_IST_STATUS).toNat
    let result := fun (e : Dev) => (e.reg Reg.DBG_STATUS).toNat
    (∀ x rest, d.flt.inbox = x :: rest → srcListed x.src = true → x.src < 256 → let v := d.rf (Reg.FLT_SEV x.src) 2 0
      ∃ e, exec (.faultReport x.src x.detail) s = .next (s.withDev e) ∧
        (v ≤ 3 → (e.reg (Reg.FLT_CNT x.src)).toNat = min ((d.reg (Reg.FLT_CNT x.src)).toNat + 1) 0xFFFF ∧
          (v = 0 → e.flt.inbox = rest ∧ e.reg Reg.FLT_FIRST_STATUS = d.reg Reg.FLT_FIRST_STATUS) ∧
          (1 ≤ v → d.rb Reg.FLT_FIRST_STATUS 31 = false → e.rb Reg.FLT_FIRST_STATUS 31 = true ∧
            e.rf Reg.FLT_FIRST_STATUS 10 8 = v ∧ e.rf Reg.FLT_FIRST_STATUS 7 0 = x.src ∧ e.reg Reg.FLT_FIRST_DETAIL = x.detail) ∧
          (1 ≤ v → d.rb Reg.FLT_FIRST_STATUS 31 = true → e.rb Reg.FLT_FIRST_STATUS 30 = true ∧
            e.reg Reg.FLT_FIRST_DETAIL = d.reg Reg.FLT_FIRST_DETAIL) ∧
          (2 ≤ v → e.rb Reg.ATL_INT_PEND 0 = true) ∧
          (v = 3 → e.pins.faultEnd = some (s.clk.count + 1000 * d.rf Reg.FLT_CTL 27 16)) ∧ (v < 3 → e.pins = d.pins)) ∧
        (5 ≤ v → e.stage = 4 ∧ e.heartsOff ∧ e.mgt.fix ≠ none ∧ e.rb Reg.ATL_INT_PEND 1 = true)) ∧
    (∀ c y t, c < 24 → d.flt.drains.find? (fun y => decide (y.cluster = c)) = some y → y.since = some t →
      t + 1000 * d.rf Reg.FLT_CTL 15 0 ≤ s.clk.count → (∀ k ∈ d.vrn.txns, k.1 / 256 = c → k.2.irrev ≠ .granted ∨ k.2.phase = .free) →
      ∃ e, exec (.drainTimeout c) s = .next (s.withDev e) ∧ e.rb (Reg.FLT_UNITS 0) c = true ∧ (∀ z ∈ e.flt.drains, z.cluster ≠ c) ∧
        e.rb (Reg.PWR_CL_W0 c) 30 = true ∧ ∀ k, k / 256 = c → (d.txn k).phase = .active → (e.txn k).phase = .aborted 0xA) ∧
    (∀ t, d.pins.faultEnd = some t → t ≤ s.clk.count →
      exec .faultNPulseEnd s = .next (s.withDev { d with pins := { d.pins with faultEnd := none } })) ∧
    (∀ kind array i, array < 256 → d.flt.bist = some (kind, i) → kind < 3 → istUnit kind i = true →
      (∃ e, exec (.bistDone true array) s = .next (s.withDev e) ∧ e.flt = { d.flt with bist := none } ∧ st e = 0) ∧
      (∃ e, exec (.bistDone false array) s = .next (s.withDev e) ∧ e.flt.bist = none ∧ st e = 1 ∧ e.unitFailed kind i = true ∧
        e.unitIn kind i = false)) ∧
    (d.pins.resetN = true →
      (∀ n, n < 256 → srcListed n = true → exec (.faultInject n) s = .next (s.withDev
        { d with flt := { d.flt with inbox := d.flt.inbox ++ [⟨n, d.reg Reg.FLT_INJECT_DETAIL, true⟩] } })) ∧
      (∀ kind i, kind < 3 → istUnit kind i = true → d.rb Reg.FLT_IST_STATUS 31 = false →
        (d.unitFailed kind i = true → ∀ cmd, cmd = .istOut kind i ∨ cmd = .istBist kind i ∨ cmd = .istReturn kind i →
          ∃ e, exec cmd s = .next (s.withDev e) ∧ st e = 2 ∧ e = { d with regs := e.regs }) ∧
        (d.unitFailed kind i = false → d.lastUnit kind i = true → ∃ e, exec (.istOut kind i) s = .next (s.withDev e) ∧ st e = 2 ∧
          e = { d with regs := e.regs }) ∧
        (d.unitFailed kind i = false → d.lastUnit kind i = false → ∃ e, exec (.istOut kind i) s = .next (s.withDev e) ∧
          (kind ≠ 0 → e.unitIn kind i = false ∧ st e = 0) ∧
          (kind = 0 → d.cluServes i = true → st e = 2 ^ 31 ∧ e.flt.drains.length = d.flt.drains.length + 1 ∧
            ∀ y, e.flt.drains.getLast? = some y → y.cluster = i)) ∧
        (d.unitFailed kind i = false → d.unitIn kind i = false →
          (∃ e, exec (.istBist kind i) s = .next (s.withDev e) ∧ e.flt = { d.flt with bist := some (kind, i) } ∧ st e = 2 ^ 31) ∧
          (∃ e, exec (.istReturn kind i) s = .next (s.withDev e) ∧ st e = 0 ∧ (kind ≠ 0 → e.unitIn kind i = true) ∧
            (kind = 0 → e.rb (Reg.FLT_UNITS 0) i = false ∧
              (22 ≤ (List.range 24).countP (d.setRb (Reg.FLT_UNITS 0) i false).cluActive → e.rb (Reg.FLT_UNITS 1) i = true))))) ∧
      (∀ x, d.tgt = some x → d.tgtOff x = false →
        (∀ t, x = .cluster t → d.tgtRuns x = true → d.tgtDbg x = .none →
          (∃ e, exec .haltHold s = .next (s.withDev e) ∧ result e = 0 ∧ e.thr t = { d.thr t with dbg := .pending false }) ∧
          (∃ e, exec .haltAbort s = .next (s.withDev e) ∧ result e = 0 ∧ e.thr t = { d.thr t with dbg := .pending true })) ∧
        (∀ a, d.tgtDbg x = .halted a →
          (∃ e, exec .resume s = .next (s.withDev e) ∧ result e = 0 ∧ e.tgtDbg x = .none) ∧
          (d.tgtRuns x = true → ∃ e, exec .step s = .next (s.withDev e) ∧ result e = 0 ∧
            ((∀ g q, x ≠ .slot g q) → e.tgtDbg x = .stepping a) ∧ (e.tgtDbg x = .stepping a ∨ e.tgtDbg x = .halted a)) ∧
          (∀ v, 1 ≤ d.rf Reg.DBG_CTX_IDX 5 0 → d.rf Reg.DBG_CTX_IDX 5 0 < 16 → (∀ g q, x ≠ .slot g q) →
            ∃ e, exec (.debugContextWrite v) s = .next (s.withDev e) ∧ result e = 0 ∧ e.ctxData = v ∧ e.mem = d.mem)) ∧
        (∀ t, x = .cluster t → d.tgtRuns x = true →
          (∀ k, txnKey t (d.thr t) = some k → (d.txn k).phase = .active → ∃ e, exec .kill s = .next (s.withDev e) ∧ result e = 0 ∧
            (e.txn k).phase = .aborted 0xB) ∧
          ((d.thr t).hasTxn = false → ∃ e, exec .kill s = .next (s.withDev e) ∧ result e = 0 ∧ (e.thr t).task = none))) ∧
      (d.rb Reg.DBG_LANE_TEST 31 = false → ∀ l n, l < 80 → n < 16 → ∃ e, exec (.laneTestEnable l n) s = .next (s.withDev e) ∧
        e.reg Reg.DBG_LANE_TEST = wd (2 ^ 31 + n * 2 ^ 8 + l) ∧ ∀ p, d.lanePort l = some p → e.prtState p = 5) ∧
      (∃ e, exec .laneTestClear s = .next (s.withDev e) ∧ e.reg Reg.DBG_LANE_TEST = d.reg Reg.DBG_LANE_TEST &&& 0x00000F7F#32)) ∧
    (∀ t a, isThread t = true → (d.thr t).dbg = .pending a → (∀ rd, (d.thr t).run ≠ .lockWait rd) →
      let squash := a = true ∧ (txnKey t (d.thr t)).isSome = true
      ((d.thr t).slot = .none ∧ (squash ∨ (d.thr t).clear = true)) ∨ (squash ∧ (d.thr t).clear = false) →
      ∃ e, exec (.haltComplete t) s = .next (s.withDev e) ∧ (e.thr t).dbg = .halted a ∧ (e.thr t).load = none ∧
        ∀ k, txnKey t (d.thr t) = some k → (d.txn k).phase = .active → if a then (e.txn k).phase = .aborted 0xB
          else e.txn k = { d.txn k with held := true, heldAt := s.clk.count })

/-- The test port, register accesses and two bus events complete (R10 to R12, R48, R420, R459, R487, R556): each TAP
instruction is loaded, SAMPLE captures the pins, and the three that take the pins stop both heartbeats; DBG_ACCESS reaches a register only while
enabled; an access to half of a pair captures or holds the other half; a register write stores, is refused, is unmapped or
has a wrong size; an alert is recorded and a DMA timeout puts its group in error. -/
def Obligations.AccessCommands : Prop :=
  ∀ (s : State), let d := s.dev
    let tapped := { d with dbg := { d.dbg with tap := .dbgAccess } }
    let loads := fun (i : Instr) (x : Tap) => exec i s = .next (s.withDev { d with dbg := { d.dbg with tap := x } })
    let stops := fun (i : Instr) (x : Tap) => ∃ e, exec i s = .next (s.withDev e) ∧ e.dbg.tap = x ∧ e.heartsOff ∧ e.pins = d.pins
    let word := Reg.FLT_INJECT_DETAIL
    loads .jtagBypass .bypass ∧ loads .jtagExtestPulse .extestPulse ∧ loads .jtagExtestTrain .extestTrain ∧
    (∃ bs, exec .jtagIdcode s = .next (s.withDev { d with dbg := { d.dbg with tap := .idcode }, resp := bs }) ∧
      leVal bs % 2 = 1 ∧ leVal bs / 2 ^ 12 = 0x13200 ∧ bs.length = 4) ∧
    (∀ v, ∃ bs, exec (.jtagSamplePreload v) s =
        .next (s.withDev { d with dbg := { d.dbg with tap := .sample, boundary := v }, resp := bs, free := d.free + 4 }) ∧
      bs.length = 16 ∧ ∀ cell level, cell < 122 → ({ d with dbg := { d.dbg with tap := .sample } } : Dev).pinLevel cell = some level →
        (leVal bs).testBit cell = level) ∧
    (∀ v, ∃ e, exec (.jtagExtest v) s = .next (s.withDev e) ∧ e.dbg = { d.dbg with tap := .extest, boundary := v } ∧ e.heartsOff ∧
      e.resp.length = 16) ∧
    stops .jtagClamp .clamp ∧ stops .jtagHighz .highz ∧
    (d.rb Reg.DBG_CTL 0 = false → ∀ off a, off < 2 ^ 26 → exec (.dbgAccess off a) s = .next (s.withDev tapped)) ∧
    (d.rb Reg.DBG_CTL 0 = true → d.pins.resetN = true → (∀ v, exec (.dbgAccess word (.write v)) s = .next (s.withDev (tapped.setReg word v))) ∧
      exec (.dbgAccess word .read) s = .next (s.withDev { tapped with resp := leBytes 4 (d.reg word).toNat })) ∧
    (d.pins.resetN = true → ∀ r off, off < 2 ^ 26 →
      (∀ v, exec (.registerWrite r 4 word v) s = .next (s.withDev (d.setReg word v))) ∧
      (∀ v n, n ≠ 4 → exec (.registerWrite .host n off v) s = .next (s.withDev { d with resp := [1] })) ∧
      (∀ v x, d.forwarding = true → regDesc off = some x → x.fwd = true → off / 0x100000 < 32 → d.pairLow off = false → d.pairHigh off = false →
        ∃ u, exec (.registerWrite r 4 off v) s = .next u ∧ u.dev = d.refuse r off) ∧
      (∀ v, regDesc off = none → d.pairLow off = false → d.pairHigh off = false → ∃ u, exec (.registerWrite r 4 off v) s = .next u ∧
        u.dev.flt.inbox = d.flt.inbox ++ [⟨Src.regUnmapped, wd (reqCode r * 2 ^ 28 + off), false⟩] ∧ u.dev.rb Reg.GLB_UNMAP_STATUS 0 = true) ∧
      (d.pairLow off = true → (regDesc off).isSome = true →
        (∃ e, exec (.regPairAccess r 4 off .read) s = .next (s.withDev e) ∧ e = { d with resp := e.resp, hold := e.hold } ∧
          e.resp = leBytes 4 (d.peek r s.clk.count s.idn off).toNat ∧
          tget none e.hold (holdKey r false off) = some (d.peek r s.clk.count s.idn (off + 4))) ∧
        (∀ v, d.lowRefused r off = true → ∃ u, exec (.regPairAccess r 4 off (.write v)) s = .next u ∧ u.dev = d.refuse r off) ∧
        (∀ v, d.lowRefused r off = false → ∃ e, exec (.regPairAccess r 4 off (.write v)) s = .next (s.withDev e) ∧ e = { d with hold := e.hold } ∧
          tget none e.hold (holdKey r true off) = some v)) ∧
      (∀ w, d.pairHigh off = true → d.pairLow off = false → (regDesc off).isSome = true → tget none d.hold (holdKey r false (off - 4)) = some w →
        ∃ e, exec (.regPairAccess r 4 off .read) s = .next (s.withDev e) ∧ e = { d with resp := e.resp, hold := e.hold } ∧
          e.resp = leBytes 4 w.toNat ∧ tget none e.hold (holdKey r false (off - 4)) = none)) ∧
    (∀ c, c < 8 → d.usable c = true → exec (.ddrAlertNAsserted c) s = .next (s.withDev (d.raise Src.drcChanFail c))) ∧
    (∀ g, g < 15 → d.grpRuns g = true →
      let fails := fun (use : DmaUse) (code : Nat) =>
        ∃ e, exec (.pcieCompletionTimeout g use) s = .next (s.withDev e) ∧ e.rb (Reg.HST_GRP_W15 g) 31 = false ∧
          e.rb (Reg.HST_GRP_W15 g) 30 = true ∧ e.rf (Reg.HST_GRP_W15 g) 7 0 = code ∧
          e.flt.inbox = d.flt.inbox ++ [⟨Src.hstRingError, wd code, false⟩]
      ((d.grp g).reading = true → fails .doorbell 2) ∧
      ∀ r, r ≠ .cmd → ((d.grp g).fetchAt r).2 ≠ 0 → fails (.descriptors r) 3)

/-- Host ring groups complete (R41, R461, R465 to R475, R483, R486, R488): a kick, or a poll when poll_us
has passed, of a running group begins a read of its doorbell block or is remembered; a read of BAR2 returns 0; a block that arrives gives its indices; descriptors are kept; an INJ packet enters the
parser or completes with its status; a PUNT packet takes buffers; the half written back when
16 entries, wb_delay or an error ask for it, the held message, enabling, reset and its end, and accesses through BAR4. -/
def Obligations.HostRingGroups : Prop :=
  ∀ (s : State) (g : Nat), g < 15 → let d := s.dev
    let x := d.grp g
    let becomes := fun (i : Instr) (y : Grp) => ∃ e, exec i s = .next (s.withDev e) ∧ e = { d with hst := e.hst } ∧ e.grp g = y ∧
      ∀ k, k ≠ g → e.grp k = d.grp k
    let kicked := if x.reading then { x with kicked := true } else { x with reading := true }
    let w0 := Reg.HST_GRP_W0 g
    let p := injSplit x.inj
    let w15 := Reg.HST_GRP_W15 g
    (d.grpRuns g = true →
      (∀ bs, d.bar0Only = false → becomes (.kick g (.write bs)) kicked) ∧
      (d.rb w0 29 = true → x.polled + 1000 * d.rf w0 25 16 ≤ s.clk.count → becomes (.pollTimer g) { kicked with polled := s.clk.count }) ∧
      (∀ bs, x.reading = true → x.cpl = [] → bs.length = 32 → d.indexBad g bs = false → becomes (.doorbellReadDone g (.ok bs))
        { x with reading := x.kicked, kicked := false, ix := { x.ix with
          injProd := leAt bs 0 4, puntProd := leAt bs 4 4, cmdProd := leAt bs 8 4, cplCons := leAt bs 12 4, evtCons := leAt bs 16 4 } }) ∧
      (∀ bs, x.reading = true → bs.length = 32 → d.indexBad g bs = true → ∃ e, exec (.doorbellReadDone g (.ok bs)) s = .next (s.withDev e) ∧
        e.grpRuns g = false ∧ e.rf w15 7 0 = 1) ∧
      (∀ r bs, let n := min 16 (x.fetchAt r).2
        n ≠ 0 → bs.length = n * fetchSize r → (r = .cmd → d.mgt.fix = none ∧ d.pwrfailOn = false ∧ d.stage ≠ 4) →
        ∃ e, exec (.descriptorFetchDone g r (.ok bs)) s = .next (s.withDev e) ∧ e = { d with hst := e.hst } ∧
          (r = .inj → (e.grp g).inj.length = x.inj.length + n ∧ x.inj <+: (e.grp g).inj) ∧
          (r = .punt → (e.grp g).punt.length = x.punt.length + n ∧ x.punt <+: (e.grp g).punt) ∧
          (r = .cmd → (e.grp g).cmds.length = x.cmds.length + n ∧ (e.grp g).ix.cmdCons = ixAdd x.ix.cmdCons n)) ∧
      (x.inj ≠ [] → p.2 = true →
        (injStatus p.1 true ≠ 0 → ∀ xs, ∃ e, exec (.injPacket g xs) s = .next (s.withDev e) ∧ e.prs = d.prs ∧
          (e.grp g).inj = x.inj.drop p.1.length ∧ (e.grp g).ix.injCons = ixAdd x.ix.injCons p.1.length) ∧
        (∀ xs bs, injStatus p.1 true = 0 → ((d.prs.inq.filter (fun q => decide (q.port = 112 + g))).map (·.len)).sum +
            (p.1.map (fun q => leAt q.2 8 2)).sum ≤ 16384 → d.injData g p.1 xs = .ok bs →
          d.allocChain (36 + g) (d.rf (Reg.PAL_OWNER (36 + g)) 3 0) bs.length ≠ none →
          ∃ e k pre post, exec (.injPacket g xs) s = .next (s.withDev e) ∧ d.prs.inq = pre ++ post ∧ e.prs.inq = pre ++ k :: post ∧
            post.length ≤ d.prs.fresh ∧ (∀ q ∈ post.head?, 112 + g < q.port) ∧ k.port = 112 + g ∧ k.owner = 36 + g ∧
            k.len = bs.length ∧ k.tsNs = s.clk.nsec ∧ (e.grp g).inj = x.inj.drop p.1.length ∧
            (e.grp g).ix.injCons = ixAdd x.ix.injCons p.1.length ∧ e.reg (Reg.HST_GRP_CNT g 0) = d.reg (Reg.HST_GRP_CNT g 0) + 1))) ∧
    (∀ y rest es, tget [] d.tmg.egress (112 + g) = y :: rest → d.spillWaits (112 + g) y.item.handle = false → y.sent = false →
      d.frameBad y.item = false → d.puntTooLong g (d.frameBytes y.item).length = false →
      puntTake x.punt (d.frameBytes y.item).length = some es → ∃ e, exec (.puntPacket g none) s = .next (s.withDev e) ∧
        tget [] e.tmg.egress (112 + g) = rest ∧ (e.grp g).punt = x.punt.drop es.length ∧
        (e.grp g).ix.puntCons = ixAdd x.ix.puntCons es.length ∧ e.reg (Reg.HST_GRP_CNT g 1) = d.reg (Reg.HST_GRP_CNT g 1) + 1) ∧
    (∀ n, exec (.kick g (.read n)) s = .next (s.withDev { d with resp := if d.bar0Only then [1] else zeros n })) ∧
    (d.rb w15 31 = true ∨ d.rb w15 30 = true → x.errNews = true ∨ (∃ n ∈ x.news, 16 ≤ n) ∨
        ((∃ n ∈ x.news, n ≠ 0) ∧ x.newsAt.getD s.clk.count + d.rf (Reg.HST_GRP_W14 g) 15 0 ≤ s.clk.count) →
      let ix := { x.ix with writes := ixAdd x.ix.writes 1 }
      ∃ e more, exec (.doorbellWriteback g) s = .next (s.withDev e) ∧ (e.grp g).ix = ix ∧ (e.grp g).told = ix ∧ (e.grp g).errNews = false ∧
        e.hst.posted = d.hst.posted ++ ⟨g, d.dbAddr g + 0x20, [ix.injCons, ix.puntCons, ix.cmdCons, ix.cplProd, ix.evtProd, ix.evtSeq,
          b2n (d.rb w15 30) * 2 ^ 31 + d.rf w15 7 0 * 2 ^ 16 + b2n (d.rb w15 31), ix.writes].flatMap (leBytes 4), false⟩ :: more) ∧
    (∀ t, x.msgPend = true → x.lastMsg = some t → t + 1000 * d.rf (Reg.HST_GRP_W14 g) 25 16 ≤ s.clk.count →
      let v := d.rf w0 13 6
      ∃ e, exec (.msixHoldoffExpiry g) s = .next (s.withDev e) ∧ e.grp g = { x with msgPend := false, lastMsg := some s.clk.count } ∧
        (d.rb (Reg.HST_MSIX_TABLE v 3) 0 = true → e.rb (Reg.HST_MSIX_PBA (v / 32)) (v % 32) = true ∧ e.hst.posted = d.hst.posted) ∧
        (d.rb (Reg.HST_MSIX_TABLE v 3) 0 = false → e.hst.posted.length = d.hst.posted.length + 1)) ∧
    (d.rb w15 29 = true → x.running = [] → ∃ e, exec (.groupResetDone g) s = .next (s.withDev e) ∧ e.grp g = Grp.reset ∧
      e.reg w15 = 0 ∧ e.rb w0 31 = false) ∧
    (d.pins.resetN = true →
      exec (.atelierKick .host) s = .next (s.withDev (d.refuse .host Reg.HST_ATL_KICK)) ∧
      (∀ r, r ≠ .host → d.grpRuns 15 = true → (d.grp 15).reading = false → ∃ e, exec (.atelierKick r) s = .next (s.withDev e) ∧
        e = { d with hst := e.hst } ∧ e.grp 15 = { d.grp 15 with reading := true }) ∧
      (∀ r v, d.rb w0 31 = false → d.rb w15 29 = false →
        (∀ k, k < 5 → 4 ≤ d.rf (Reg.HST_GRP_W3 g) (5 * k + 4) (5 * k) ∧ d.rf (Reg.HST_GRP_W3 g) (5 * k + 4) (5 * k) ≤ 16) →
        ∃ e, exec (.groupEnable r g v) s = .next (s.withDev e) ∧ e.grpRuns g = true ∧ e.grp g = Grp.reset ∧ e.rb w0 31 = true ∧
          ∀ c, c < 4 → e.reg (Reg.HST_GRP_CNT g c) = 0) ∧
      (∀ r v, ∃ e, exec (.groupReset r g v) s = .next (s.withDev e) ∧ e.reg w15 = wd (2 ^ 29) ∧ e.rb w0 31 = d.rb w0 31 ∧
        e.grp g = { x with errNews := false, reading := false, kicked := false, inj := [], cmds := [], cpl := [], msgPend := false })) ∧
    (∀ off, off < 2 ^ 30 → let a := d.bar4Addr off
      (d.rb Reg.HST_BAR4 31 = false ∨ d.bar0Only = true → ∀ acc, exec (.bar4Access off acc) s = .next (s.withDev { d with resp := [1] })) ∧
      (∀ n, d.rb Reg.HST_BAR4 31 = true → d.bar0Only = false → d.drc.ueNew = [] → (∀ i, i < n → bar4Region false (d.region (a + i)) = true ∧ d.region (a + i) ≠ .unmapped) →
        d.poisoned a n = false → exec (.bar4Access off (.read n)) s = .next (s.withDev { d with resp := 0 :: d.memRead a n })) ∧
      (∀ bs, d.rb Reg.HST_BAR4 31 = true → d.bar0Only = false → (∀ i, i < bs.length → bar4Region true (d.region (a + i)) = true ∧ d.region (a + i) ≠ .unmapped) →
        d.drc.poison = [] → d.drc.mirrors = [] → d.rf Reg.DRC_STATUS 23 16 = 0 →
        ∃ e, exec (.bar4Access off (.write bs)) s = .next (s.withDev e) ∧ e = { d with mem := e.mem, resp := [0] } ∧
          e.memRead a bs.length = bs ∧ ∀ b, b < a ∨ a + bs.length ≤ b → e.memGet b = d.memGet b))

/-- The DRAM controller's commands complete (R428, R432 to R436, R438 to R442, R446, R447, R457): bring-up makes the channels that fit
and train usable; a command slot issues a request of the lowest class, a row hit if that class has one; a burst that returns
is judged; the walker moves on; a frequency change is latched, deferred, pre-filled, switched and done; training steps
begin and end; a channel is retired and returned. -/
def Obligations.DramController : Prop :=
  ∀ (s : State), let d := s.dev
    let now := s.clk.count
    let st := Reg.DRC_FREQ_STATUS
    let latched := fun (defer : Nat) => if d.anyStopped = true then 1 else if d.anyPanic = true ∧ defer ≠ 0 then 2 else 3
    (d.pins.resetN = true → ∀ r,
      (d.forwarding = true → exec (.dramBringup r) s = .next (s.withDev (d.refuse r Reg.DRC_CTL))) ∧
      (d.forwarding = false → d.rb Reg.DRC_CTL 0 = false → ∃ e, exec (.dramBringup r) s = .next (s.withDev e) ∧
        e.rb Reg.DRC_CTL 0 = true ∧ e.rb Reg.DRC_STATUS 0 = false ∧ e.rf Reg.DRC_STATUS 31 24 = 0 ∧
        e.drc = { d.drc with bringing := true, chans := [] } ∧ e.flt = d.flt)) ∧
    (d.drc.bringing = true → ∀ spd (trained : BitVec 8), ∃ e, exec (.dramBringupDone spd trained) s = .next (s.withDev e) ∧
      e.drc.bringing = false ∧ e.rb Reg.DRC_STATUS 0 = true ∧ e.rb Reg.GLB_CLK_STATUS 25 = true ∧
      e.drc.chans = e.drc.map ∧ (d.drc.map ≠ [] → e.drc.map = d.drc.map ∧ e.drc.ilv = d.drc.ilv) ∧
      ∀ x p, x ∈ d.dramEnts → x.channel < 8 → spd[x.channel]? = some p → spdFits p x = true → trained.toNat.testBit x.channel = true →
        d.drc.map = [] ∨ x.channel ∈ d.drc.map.map (·.1) → d.rb Reg.DRC_RETIRE x.channel = false →
        e.usable x.channel = true ∧ x.channel ∈ e.drc.chans.map (·.1)) ∧
    (∀ ch sub, ch < 8 → sub < 2 → d.chanOpen ch = true →
      let bank := fun (q : DramReq) => dramBank (d.rankLog ch) (d.dramLoc (d.servingAddr q.addr)).2
      let hits := fun (q : DramReq) => tget none d.drc.rows (bankKey ch (bank q)) = some (bank q).row
      let may := fun (x : Nat × DramReq) => x ∈ d.readQueue ch sub ∧ d.spillRoom x.2 = true ∧ (hits x.2 ∨ d.mayActivate now ch (bank x.2) = true) ∧
        ∀ y ∈ d.readQueue ch sub, x.1 ≤ y.1 ∨ y.2.addr / 64 ≠ x.2.addr / 64
      (∃ x, may x ∧ d.reqClass now x.2 < 5) → ∃ e i q, exec (.dramCommandIssue ch sub) s = .next (s.withDev e) ∧
        d.drc.reqs[i]? = some q ∧ q.issued = false ∧ q.done = none ∧ may (i, q) ∧ (∀ x, may x → d.reqClass now q ≤ d.reqClass now x.2) ∧
        ((∃ x, may x ∧ d.reqClass now x.2 = d.reqClass now q ∧ hits x.2) → hits q) ∧
        e = { d with drc := e.drc } ∧ e.drc.reqs = d.drc.reqs.set i { q with issued := true } ∧
        tget none e.drc.rows (bankKey ch (bank q)) = some (bank q).row ∧
        (hits q → e.drc.group = d.drc.group ∧ e.drc.acts = d.drc.acts) ∧
        (¬ hits q → (tget [] e.drc.acts (rankKey ch (bank q))).head? = some now)) ∧
    (∀ ch sub i q, ch < 8 → sub < 2 → let loc := fun (q : DramReq) => d.dramLoc (d.servingAddr q.addr)
      findIx (fun (q : DramReq) => q.issued && q.done.isNone && decide ((loc q).1 = ch) && decide ((loc q).2 / 64 % 2 = sub)) d.drc.reqs = some i →
      d.drc.reqs[i]? = some q → ∀ first again, let a := d.servingAddr q.addr
      ∃ e b, exec (.dramReadReturn ch sub first again) s = .next (s.withDev e) ∧ e.drc.reqs = d.drc.reqs.set i { q with done := some b } ∧
        (d.tagMatches a first = true → first.flips = [] → d.poisoned (a / 64 * 64) 64 = false → d.lost q.addr = false →
          b = false ∧ e.flt = d.flt ∧ e.regs = d.regs) ∧
        (d.tagMatches a first = true → first.flips = [] → d.poisoned (a / 64 * 64) 64 = false → d.lost q.addr = true →
          b = true ∧ e.reg Reg.DRC_UE_CNT = d.reg Reg.DRC_UE_CNT + 1) ∧
        (d.tagMatches a first = true → first.flips = [] → d.poisoned (a / 64 * 64) 64 = true → d.recoverable (a / 64 * 64) = false →
          b = true ∧ e.reg Reg.DRC_UE_CNT = d.reg Reg.DRC_UE_CNT + 1)) ∧
    (d.rb Reg.DRC_SCRUB 31 = true → d.fittedDram ≠ 0 → ∀ first again,
      let due := d.drc.scrubFrom = 0 ∨ d.drc.scrubFrom + d.rf Reg.DRC_SCRUB 19 0 * 1000000000 ≤ now
      (d.drc.scrubAt ≠ 0 ∨ due → ∃ e, exec (.scrubVisit first again) s = .next (s.withDev e) ∧
        e.drc.scrubAt = (d.drc.scrubAt + 64) % d.fittedDram) ∧
      (d.drc.scrubAt = 0 → ¬ due → exec (.scrubVisit first again) s = .next (s.withDev d))) ∧
    (d.pins.resetN = true → ∀ v,
      let held := fun (e : Dev) => e.rf Reg.DRC_FREQ_CMD 31 16 = fld v 31 16 ∧ e.rf Reg.DRC_FREQ_CMD 1 1 = fld v 1 1
      (bit v 0 = false → ∃ e, exec (.freqChangeGo v) s = .next (s.withDev e) ∧ held e ∧ e.reg st = d.reg st ∧ e.drc = d.drc ∧ e.flt = d.flt) ∧
      (bit v 0 = true → fld v 1 1 = d.activeSet ∨ (1 ≤ d.freqState ∧ d.freqState ≤ 4) →
        exec (.freqChangeGo v) s = .next (s.withDev (d.setRb st 25 true))) ∧
      (bit v 0 = true → fld v 1 1 ≠ d.activeSet → d.freqState = 0 ∨ 4 < d.freqState → ∃ e, exec (.freqChangeGo v) s = .next (s.withDev e) ∧
        held e ∧ e.drc.freqTo = bit v 1 ∧ e.drc.freqDefer = fld v 31 16 ∧ e.freqState = latched (fld v 31 16) ∧ e.drc.freqSince = now ∧
        (if d.anyStopped = false ∧ d.anyPanic = true ∧ fld v 31 16 = 0 then
          e.rb st 24 = true ∧ e.flt.inbox = d.flt.inbox ++ [⟨Src.drcFreqForced, 0, false⟩] else e.flt = d.flt))) ∧
    (d.anyStopped = false →
      (d.freqState = 1 → ∃ e, exec .freqSwitch s = .next (s.withDev e) ∧ e.freqState = latched d.drc.freqDefer) ∧
      (d.freqState = 2 → d.anyPanic = false → ∃ e, exec .freqSwitch s = .next (s.withDev e) ∧ e.freqState = 3 ∧ e.flt = d.flt) ∧
      (d.freqState = 2 → d.anyPanic = true → d.drc.freqSince + 1000 * d.drc.freqDefer ≤ now → ∃ e, exec .freqSwitch s = .next (s.withDev e) ∧
        e.freqState = 3 ∧ e.rb st 24 = true ∧ e.flt.inbox = d.flt.inbox ++ [⟨Src.drcFreqForced, 0, false⟩]) ∧
      (d.freqState = 3 → ∃ e, exec .freqSwitch s = .next (s.withDev e) ∧ e.freqState = 4 ∧ e.rb Reg.GLB_CLK_STATUS 25 = false ∧ e.tca.mbs = [])) ∧
    (d.freqState = 4 → let set := b2n d.drc.freqTo
      ∃ e, exec .freqSwitchDone s = .next (s.withDev e) ∧ e.activeSet = set ∧ e.rb Reg.GLB_CLK_STATUS 25 = true ∧ e.drc.rows = [] ∧
        ((∃ c, c < 8 ∧ d.usable c = true ∧ d.rb st (8 * set + c) = false) → e.freqState = 5) ∧
        ((∀ c, c < 8 → d.usable c = true → d.rb st (8 * set + c) = true) → e.freqState = 0)) ∧
    (∀ c, c < 8 → let w := Reg.DRC_CHAN_W0 c
      (d.wantsTraining c = true → d.mayStep now = true → exec (.trainingStep c) s = .next (s.withDev (d.setRb w 28 true))) ∧
      (d.usable c = true → d.anyStopped = false → d.freqState ≠ 4 → tget 0 d.drc.retrain c + 100000000 ≤ now →
        ∃ e, exec (.periodicRetrain c) s = .next (s.withDev e) ∧ e.rb w 28 = true ∧ tget 0 e.drc.retrain c = now ∧ e.flt = d.flt) ∧
      (d.rb w 28 = true → ∀ last ok, ∃ e, exec (.trainingStepDone c last ok) s = .next (s.withDev e) ∧ e.rb w 28 = false ∧
        e.drc.lastStep = some now ∧
        (ok = true → last = true → d.wantsTraining c = true → e.rb st (8 * d.activeSet + c) = true ∧
          (tget 0 d.drc.ret c = 1 → tget 0 e.drc.ret c = 2)) ∧
        (d.freqState = 1 → (∀ k, k < 8 → k ≠ c → d.rb (Reg.DRC_CHAN_W0 k) 28 = false) →
          e.freqState = if d.anyPanic = true ∧ d.drc.freqDefer ≠ 0 then 2 else 3) ∧
        (ok = false → d.usable c = true → d.freqState ≠ 1 → e.flt.inbox = d.flt.inbox ++ [⟨Src.drcChanFail, wd c, false⟩])) ∧
      (d.pins.resetN = true → ∀ r,
        (d.rb Reg.DRC_RETIRE c = true → exec (.channelRetire r c) s = .next (s.withDev d)) ∧
        (d.rb Reg.DRC_RETIRE c = false → d.usable c = true → d.rf Reg.DRC_STATUS 31 24 = 2 ^ c →
          exec (.channelRetire r c) s = .next (s.withDev (d.refuse r Reg.DRC_RETIRE))) ∧
        (d.rb Reg.DRC_RETIRE c = false → d.usable c = true → d.rf Reg.DRC_STATUS 31 24 ≠ 2 ^ c → d.retired c = false →
          ∃ e, exec (.channelRetire r c) s = .next (s.withDev e) ∧ e.rb Reg.DRC_RETIRE c = true ∧ e.retired c = true ∧ e.usable c = false) ∧
        (d.rb Reg.DRC_RETIRE c = false → d.usable c = false → tget 0 d.drc.ret c = 0 →
          exec (.channelRetire r c) s = .next (s.withDev (d.setRb Reg.DRC_RETIRE c true))) ∧
        (d.rb Reg.DRC_RETIRE c = false → d.usable c = false → tget 0 d.drc.ret c ∈ [1, 2] →
          ∃ e, exec (.channelRetire r c) s = .next (s.withDev e) ∧ e.rb Reg.DRC_RETIRE c = true ∧ tget 0 e.drc.ret c = 0) ∧
        (d.rb Reg.DRC_RETIRE c = true → tget 0 d.drc.ret c = 9 → exec (.channelReturn r c) s = .next (s.withDev (d.refuse r Reg.DRC_RETIRE))) ∧
        (d.rb Reg.DRC_RETIRE c = true → tget 0 d.drc.ret c ≠ 9 → d.retired c = true →
          ∃ e, exec (.channelReturn r c) s = .next (s.withDev e) ∧ e.rb Reg.DRC_RETIRE c = false ∧ tget 0 e.drc.ret c = 1 ∧
            e.rb Reg.DRC_REBUILD 31 = true)))

/-- The table cache's commands complete (R447, R449 to R454, R458): a returning channel's zero fill and rebuild end; a
merging-buffer entry drains to DRAM; a fill that returns is installed or only answers its requester; a range invalidation removes
the lines of its range that are not locked; preload asks for a table's lines; a sync empties the merging buffers; a stale line is refetched. -/
def Obligations.TableCache : Prop :=
  ∀ (s : State), let d := s.dev
    let now := s.clk.count
    let plain := d.drc.poison = [] ∧ d.drc.mirrors = [] ∧ d.rf Reg.DRC_STATUS 23 16 = 0
    let busy := fun (e : Dev) => e.rb Reg.TCA_CMD_STATUS 31
    let result := fun (e : Dev) => e.rf Reg.TCA_CMD_STATUS 3 0
    (∀ c, c < 8 →
      (tget 0 d.drc.ret c = 2 → ∃ e, exec (.zeroFillDone c) s = .next (s.withDev e) ∧ tget 0 e.drc.ret c = 3 ∧ e.usable c = true ∧
        e.retired c = false ∧ ∀ x ∈ e.mem, x ∈ d.mem ∧ ¬ (x.1 < d.fittedDram ∧ (d.dramLoc x.1).1 = c ∧ d.recoverable x.1 = false)) ∧
      (tget 0 d.drc.ret c = 3 → ∃ e, exec (.rebuildDone c) s = .next (s.withDev e) ∧ tget 0 e.drc.ret c = 0 ∧
        (∀ k, k ≠ c → tget 0 e.drc.ret k = tget 0 d.drc.ret k) ∧ (d.drc.ret = [(c, 3)] → e.reg Reg.DRC_REBUILD = 0)) ∧
      (∀ x r, tget [] d.tca.mbs c = x :: r → 12 ≤ r.length + 1 ∨ x.at_ + 1000 ≤ now → d.chanOpen c = true ∨ d.retired c = true →
        ∃ e, exec (.mergeBufferDrain c) s = .next (s.withDev e) ∧ tget [] e.tca.mbs c = r ∧
          (plain → e.flt = d.flt ∧ ∀ k b, x.bytes = [(k, some b)] → e.memGet (64 * x.line + k) = b))) ∧
    (∀ i f, i < 8 → d.tca.fills.find? (fun f => decide (tcaSlice f.line = i) && (d.dramDone (.fill f.line)).isSome) = some f →
      let good := d.dramDone (.fill f.line) = some false ∧ d.dead (64 * f.line) 64 = false
      let on := d.rb Reg.TCA_CTL 0 = true
      let locked := d.rf (Reg.TCA_WAYS f.table) 15 0 ≠ 0
      let data := d.lineFromDram f.line
      let kept := fun (r : Option (List Byte)) =>
        if f.pre = true then d.tca.got else d.tca.got.filter (fun e => decide (e.1 ≠ f.line)) ++ [(f.line, r)]
      let put := fun (e : Dev) (stale : Bool) => ∃ w, e.tcaWay (tcaSet f.line) w = some ⟨f.line, data, stale⟩
      ∃ e fs, exec (.tableCacheFill i) s = .next (s.withDev e) ∧ e.tca.fills = d.tca.fills.erase f ++ fs ∧ (d.tca.preload = none → fs = []) ∧
        (¬ good → e.tca.got = kept none ∧ e.tca.lines = d.tca.lines) ∧
        (good → ¬ on ∨ f.drop = true → e.tca.got = kept (some data)) ∧
        (good → ¬ on ∨ (f.drop = true ∧ ¬ locked) → e.tca.lines = d.tca.lines) ∧
        (good → on → f.drop = true → locked → put e true ∧ ∃ q ∈ e.drc.reqs, q.who = .stale f.line) ∧
        (good → on → f.drop = false → e.tca.got = d.tca.got ∧ (d.tableWays f.table ≠ 0 → put e false))) ∧
    (∀ i k x, i < 8 → d.tca.lines.find? (fun e => match e.2 with
        | some x => x.stale && decide (tcaSlice x.line = i) && (d.dramDone (.stale x.line)).isSome
        | none => false) = some (k, some x) → ∃ e, exec (.staleRefetchDone i) s = .next (s.withDev e) ∧ e.dramDone (.stale x.line) = none ∧
      tget none e.tca.lines k = if d.dramDone (.stale x.line) = some false ∧ d.dead (64 * x.line) 64 = false
        then some { x with data := d.lineFromDram x.line, stale := false } else none) ∧
    (d.pins.resetN = true →
      (busy d = true → ∀ i, i = .rangeInvalidate ∨ i = .mergeSync → exec i s = .next (s.withDev (d.setRf Reg.TCA_CMD_STATUS 3 0 1))) ∧
      (busy d = false → let lo := d.rf Reg.TCA_RANGE_BASE_LO 31 6 + d.rf Reg.TCA_RANGE_BASE_HI 7 0 * 2 ^ 26
        let inside := fun (l : Nat) => lo ≤ l ∧ l < lo + (d.reg Reg.TCA_RANGE_SIZE).toNat
        ∃ e, exec .rangeInvalidate s = .next (s.withDev e) ∧ busy e = false ∧ result e = 0 ∧
          (∀ f ∈ e.tca.fills, inside f.line → f.drop = true) ∧ (∀ p ∈ e.tca.got, ¬ inside p.1) ∧
          (∀ k x, tget none d.tca.lines k = some x → inside x.line → d.wayLocked k = true → x.stale = false →
            ∃ q ∈ e.drc.reqs, q.who = .stale x.line) ∧
          (Tab.wf (fun _ => none) d.tca.lines = true → ∀ k, tget none e.tca.lines k = match tget none d.tca.lines k with
            | some x => if inside x.line then (if d.wayLocked k = true then some { x with stale := true } else none) else some x
            | none => none)) ∧
      (busy d = false → ∃ e, exec .mergeSync s = .next (s.withDev e) ∧ busy e = false ∧ result e = 0 ∧ e.tca.mbs = []) ∧
      (∀ t, t < 256 → ∃ e, exec (.preload t) s = .next (s.withDev e) ∧ e.rf Reg.TCA_CMD 15 8 = t ∧
        (busy d = true → result e = 1 ∧ e.tca = d.tca) ∧
        (busy d = false → d.tOn t = false ∨ d.tDram t = false → result e = 2 ∧ e.tca = d.tca) ∧
        (busy d = false → d.tOn t = true → d.tDram t = true → d.tBytes t / 64 ≠ 0 → busy e = true ∧
          (let l := d.tBase t / 64
          let pre := d.tca.fills.any (fun f => f.pre) = true
          let ask := d.filling l = false ∧ d.sliceFull l = false
          (pre ∨ (d.filling l = false ∧ d.sliceFull l = true) → e.tca = { d.tca with preload := some (t, l, d.tBytes t / 64) }) ∧
          (¬ pre → d.filling l = true ∨ ask → e.tca.preload = some (t, l + 1, d.tBytes t / 64 - 1) ∧
            e.tca.fills = d.tca.fills ++ if ask then [TcaFill.mk l t false true] else [])))))

/-- Transactions complete at Varnish (R159 to R176, R189, R310, R316, R527): a commit request enters commit wait; at the head of its
domain a transaction commits, is discarded, waits for a header cell, or aborts with its cause, an uncorrectable Canvas with 0x5 (R541); an abort at the Easel voids it, sends it to be parsed
again or reruns it; the grant, a granted cell, a timing event, a stalled hold and a pool's new count. -/
def Obligations.TransactionsComplete : Prop :=
  ∀ (s : State) (k : Nat), k < 6144 → let d := s.dev
    let x := d.txn k
    let gives := fun (i : Instr) (p : Dev → Prop) => ∃ e, exec i s = .next (s.withDev e) ∧ p e
    let own := x.entries.filter (fun e => e.enqOf x.handle)
    let img := d.memRead (cluBase (k / 256) + canvasVa (k % 256) x.work) 256
    let hs := (byteAt img 0xC3).toNat
    let he := (byteAt img 0xC4).toNat
    let len := leAt img 0xC0 2
    let inBounds := hs ≤ he ∧ he ≤ 0xC0 ∧ x.skip ≤ len ∧ len ≤ x.skip + d.payloadLen k
    let clash := ∃ u ∈ d.conflicting k (wsGrans x.entries), (d.txn u).guarded = true
    (x.phase = .ending → gives (.commitRequest k) (fun e => e.txn k = { x with phase := .commitWait } ∧ e = { d with vrn := e.vrn })) ∧
    (x.phase = .commitWait → (d.dom x.domain).flight.head? = some x.ticket → d.commitHeld x = false →
        d.vrn.cbuf.length + wsStores x.entries ≤ 1024 → let bad := d.sramBad (cluBase (k / 256) + canvasVa (k % 256) x.work) 256
      (bad = true → x.irrev ≠ .granted → gives (.varnishCommit k) (fun e => (e.txn k).phase = .aborted 5)) ∧
      (bad = false →
      (d.metersHold s.clk.count x.entries = false → gives (.varnishCommit k) (fun e => (e.txn k).phase = .aborted 3)) ∧
      (d.metersHold s.clk.count x.entries = true →
        (clash → gives (.varnishCommit k) (fun e => (e.txn k).phase = .aborted 1)) ∧
        (¬ clash → x.discard ≠ 0 ∨ ¬ inBounds ∨ d.quarantined x.handle = true → gives (.varnishCommit k) (fun e => e.txn k = Txn.reset)) ∧
        (¬ clash → x.discard = 0 → inBounds → d.quarantined x.handle = false →
          (k ∈ d.pal.irrevWait → x.hdrCell = none → exec (.varnishCommit k) s = .next (s.withDev d)) ∧
          (k ∉ d.pal.irrevWait → d.headerCell x = none → x.irrev = .granted → exec (.varnishCommit k) s = .next (s.withDev
            { d with pal := { d.pal with irrevWait := d.pal.irrevWait ++ [k] } })) ∧
          (k ∉ d.pal.irrevWait → d.headerCell x = none → x.irrev ≠ .granted → gives (.varnishCommit k) (fun e => (e.txn k).phase = .aborted 8)) ∧
          (∀ cell u, k ∉ d.pal.irrevWait ∨ x.hdrCell ≠ none → d.headerCell x = some (cell, u) →
            gives (.varnishCommit k) (fun e => (own = [] → e.txn k = Txn.reset) ∧
              (own ≠ [] → (e.txn k).phase = .committing ∧ (e.txn k).handle = cell ∧ (e.txn k).enqs = own))))))) ∧
    exec .commitBufferRetire s = .next (s.withDev { d with vrn := { d.vrn with cbuf := d.vrn.cbuf.tail } }) ∧
    (∀ cause, x.phase = .aborted cause → x.copying = false → let kind := d.rerunIrrev x cause
      (cause = 0xC → gives (.abortAtEasel k) (fun e => e.txn k = Txn.reset ∧
        ⟨Src.vrnVoid, wd (cause * 2 ^ 16 + k % 256 * 2 ^ 8 + k / 256), false⟩ ∈ e.flt.inbox)) ∧
      (cause = 0xA → gives (.abortAtEasel k) (fun e => e.txn k = Txn.reset ∧
        e.prs.rereads = d.prs.rereads ++ [(k, { x with irrev := if kind = true then .waits else .spec })])) ∧
      (cause ≠ 0xA → cause ≠ 0xC → gives (.abortAtEasel k) (fun e => e.txn k =
          { x with phase := .active, work := 1 - x.work, copying := true, ws := [], sig := 0, newGran := 0, irrev := if kind = true then .waits else .spec } ∧
        ∃ r, e.rcd (k / 256) (k % 256) = some r ∧ r.entry = x.entry ∧ r.hasTxn = true ∧ r.txn = k % 256 ∧ r.resume = false))) ∧
    (x.copying = true →
      gives (.canvasRestoreDone k false) (fun e => e.txn k = { x with copying := false } ∧ e = { d with vrn := e.vrn }) ∧
      (x.phase ≠ .committing → gives (.canvasRestoreDone k true) (fun e => e.txn k = Txn.reset ∧
        ⟨Src.vrnVoid, wd (5 * 2 ^ 16 + k % 256 * 2 ^ 8 + k / 256), false⟩ ∈ e.flt.inbox))) ∧
    (∀ r, d.vrn.grant = none → d.vrn.waiters = k :: r → d.eligible x = true → gives .irrevocableGrant (fun e => e.vrn.grant = some k ∧
      e.txn k = { x with irrev := .granted } ∧ ∀ t, d.txnThread k = some t → (d.thr t).run = .starting → (e.thr t).run = .running)) ∧
    (∀ c core i (threads : BitVec 8) ended, c < 24 → core < 8 → i < 8 → d.cluClocked c = true → threads.getLsbD i = true →
      let t := 64 * c + 8 * core + i
      txnKey t (d.thr t) = some k → x.phase = .active → x.irrev ≠ .granted → gives (.timingEvent c core threads ended)
        (fun e => (e.txn k).phase = .aborted 4 ∧ e.reg (Reg.PWR_CL_W2 c) = d.reg (Reg.PWR_CL_W2 c) + 1)) ∧
    ((∃ y ∈ d.vrn.txns, d.holdsUp s.clk.count y.1 y.2 = true) →
      exec .vrnHoldStall s = .next (s.withDev (d.raise Src.vrnHoldStall 0))) ∧
    (∀ r p v, p < 16 → d.pins.resetN = true → d.reserves p ≤ fld v 27 0 → fld v 27 0 ≤ d.poolCount p →
      gives (.palPoolCountWrite r p v) (fun e => e.poolCount p = fld v 27 0 ∧ e.flt = d.flt)) ∧
    (∀ r h o w, d.pal.irrevWait = k :: r → d.pal.withheld = (h, o) :: w → gives .irrevHeaderCellGrant (fun e =>
      e.txn k = { x with hdrCell := some h } ∧ e.pal = { d.pal with irrevWait := r, withheld := w }))

/-- Packets and tasks move on (R24, R130, R135 to R146, R195 to R203, R212 to R214): a parsed packet is ticketed, dropped or
discarded, and a migrating one keeps its ticket; a recirculated one re-enters; a placed one gets its slot, its images and its
record; a bank and slices are written; a record starts or reserves a victim; a saved task leaves its resume record; a completion fills its token; a report boosts. -/
def Obligations.PacketsAndTasks : Prop :=
  ∀ (s : State), let d := s.dev
    let gives := fun (i : Instr) (p : Dev → Prop) => ∃ e, exec i s = .next (s.withDev e) ∧ p e
    let plain := d.drc.poison = [] ∧ d.drc.mirrors = [] ∧ d.rf Reg.DRC_STATUS 23 16 = 0
    (d.slicesIn ≠ 0 → d.stage ≠ 4 → d.prs.out.length < d.placesFree →
      (∀ k x r, d.prs.rereads = (k, x) :: r → gives .parsePacket (fun e => e.prs.rereads = r ∧ e.prs.inq = d.prs.inq ∧ e.vrn = d.vrn ∧
        ∃ y, e.prs.out = d.prs.out ++ [y] ∧ y.ticket = x.ticket ∧ y.domain = x.domain ∧ y.entry = x.entry ∧ y.counted = x.counted ∧
          y.pkt.handle = x.handle ∧ y.migrated = true)) ∧
      (∀ p r, d.prs.rereads = [] → d.rb Reg.PRS_CTL 0 = true → d.prs.inq = p :: r →
        let lost := p.recirc.isSome = true ∧ (d.rf Reg.PRS_CTL 27 24 < p.recircs ∨ p.len ≤ p.winOff)
        let stamped := if 112 ≤ p.port then { p with tsNs := s.clk.nsec, tsSec := s.clk.sec % 2 ^ 32 } else p
        let w1 := d.prsReg (d.rf Reg.PRS_CTL 1 1) (Reg.PRS_END_W1 ((d.parsePkt stamped).1.done.getD 0))
        (lost → gives .parsePacket (fun e => e.prs = { d.prs with inq := r } ∧ e.reg Reg.PRS_DISCARD_CNT = d.reg Reg.PRS_DISCARD_CNT + 1)) ∧
        (¬ lost → d.quarantined p.handle = true → gives .parsePacket (fun e => e.prs = { d.prs with inq := r })) ∧
        (¬ lost → d.quarantined p.handle = false → bit w1 20 = true → gives .parsePacket (fun e => e.prs = { d.prs with inq := r } ∧
          e.reg Reg.PRS_DROP_CNT = d.reg Reg.PRS_DROP_CNT + 1)) ∧
        (¬ lost → d.quarantined p.handle = false → bit w1 20 = false → gives .parsePacket (fun e => e.prs.inq = r ∧
          ∃ y, e.prs.out = d.prs.out ++ [y] ∧ y.pkt = stamped ∧ y.prio = fld w1 19 17 ∧ y.ticket = (d.dom y.domain).next ∧
            y.migrated = false ∧ e.dom y.domain = ⟨(y.ticket + 1) % 2 ^ 32, (d.dom y.domain).flight ++ [y.ticket]⟩)))) ∧
    (∀ port y r, port < 136 → tget [] d.tmg.egress port = y :: r → d.spillWaits port y.item.handle = false → y.sent = false → d.frameBad y.item = false →
      let u := { d with tmg := { d.tmg with egress := tset [] d.tmg.egress port r } }
      let o := d.portOwner port
      let got := u.allocChain o (d.rf (Reg.PAL_OWNER o) 3 0) (d.frameBytes y.item).length
      (got = none → gives (.recirculationReentry port) (fun e => tget [] e.tmg.egress port = r ∧ e.prs = d.prs ∧
        ⟨Src.palOwnerDrop, wd o, false⟩ ∈ e.flt.inbox)) ∧
      (got ≠ none → gives (.recirculationReentry port) (fun e => tget [] e.tmg.egress port = r ∧ ∃ p pre post,
        d.prs.inq = pre ++ post ∧ e.prs.inq = pre ++ p :: post ∧ post.length ≤ d.prs.fresh ∧
        p.owner = o ∧ p.port = port ∧ p.len = (d.frameBytes y.item).length ∧ p.recircs = y.item.recircs + 1 ∧ p.recirc = some y.item.recirc))) ∧
    (∀ p r c i, d.prs.out = p :: r → d.placeCluster = some c → d.rb Reg.VRN_CTL 0 = true → d.stage ≠ 4 →
      findNat (fun i => decide ((d.txn (256 * c + i)).phase = .free)) 0 256 = some i → gives .distributePacket (fun e => e.prs.out = r ∧
        e.prs.rot = (d.prs.rot + 1) % 24 ∧ (∃ x, e.rcd c i = some x ∧ x.entry = p.entry ∧ x.prio = p.prio ∧ x.hasTxn = true ∧ x.txn = i ∧
          x.ticket = wd p.ticket ∧ x.canvas = wd (canvasVa i 0)) ∧
        (∃ x, e.txn (256 * c + i) = x ∧ x.phase = .active ∧ x.domain = p.domain ∧ x.ticket = p.ticket ∧ x.entry = p.entry ∧
          x.handle = p.pkt.handle ∧ x.pktLen = p.pkt.len) ∧
        (plain → p.image.length = 256 → ∀ b, b < 2 → e.memRead (cluBase c + canvasVa i b) 256 = p.image))) ∧
    (d.pins.resetN = true →
      (∀ b, b < 2 → gives (.parserBankSwitch b) (fun e => e.rf Reg.PRS_CTL 1 1 = b ∧ ∀ o, o ≠ Reg.PRS_CTL → e.reg o = d.reg o)) ∧
      (∀ r, exec (.prsSliceIsolate r 255) s = .next (s.withDev (d.refuse r Reg.PRS_SLICE_CTL))) ∧
      (∀ r v, v ≠ 255 → exec (.prsSliceIsolate r v) s = .next (s.withDev (d.setReg Reg.PRS_SLICE_CTL (wd v.toNat))))) ∧
    (∀ c i r, c < 24 → d.rb (Reg.CLU_EASEL_CTL c) 8 = true → d.cluRuns c = true → d.firstRec c (d.candidates c) = some (i, r) →
      (∀ t, clusterOf t = c → d.idleThread c r.hasTxn = some t → gives (.easelSelect c) (fun e => e.rcd c i = none ∧ (e.thr t).task.isSome = true ∧
        e.reg (Reg.CLU_DISPATCH_CNT_LO c) = d.reg (Reg.CLU_DISPATCH_CNT_LO c) + 1 ∧ (r.resume = true → (e.thr t).tid = r.tid) ∧
        (r.resume = false → (e.thr t).pc = r.entry ∧ (e.thr t).g 1 = r.canvas ∧ (e.thr t).g 2 = r.user ∧ (e.thr t).g 29 = d.stackTop t ∧
          (e.thr t).run = if r.hasTxn = true ∧ (d.txn (256 * c + r.txn)).irrev = .waits then .starting else .running))) ∧
      (∀ v n, d.idleThread c r.hasTxn = none → d.preempts c r = some (v, n) → gives (.easelSelect c) (fun e =>
        e.rcd c i = some { r with taken := true } ∧ e.thr v = { d.thr v with saving := some (64 * i + n) } ∧
        tget false e.esl.saves (64 * c + n) = true))) ∧
    (∀ t n k p ri, t < 1536 → let th := d.thr t
      let c := clusterOf t
      th.saving = some n → th.task = some k → d.rcd c (n / 64) = some p → (if k.hasTxn = true then some k.txn else d.freeRcd c) = some ri →
      ri ≠ n / 64 → th.load = none → (∀ f ∈ th.fly, f = .ok) → th.slot = .none → d.txnRuns t = true → p.resume = false →
      gives (.preemptSave t) (fun e => e.rcd c (n / 64) = none ∧ (e.thr t).pc = p.entry ∧ (e.thr t).saving = none ∧
        ∃ y, e.rcd c ri = some y ∧ y.resume = true ∧ y.save = n % 64 ∧ y.tid = th.tid ∧ y.entry = k.entry ∧ y.txn = k.txn)) ∧
    (∀ c x, c < 24 → d.esl.comps.find? (fun x => decide (x.cluster = c)) = some x → let tk := d.tok (tokKey c x.token)
      let live := tk.live = true ∧ tk.gen = x.token / 4096
      let taken := { d with esl := { d.esl with comps := d.esl.comps.erase x } }
      (¬ live → exec (.completionArrival c) s = .next (s.withDev taken)) ∧
      (live → tk.named = false → tk.ended = false →
        exec (.completionArrival c) s = .next (s.withDev (taken.setTok (tokKey c x.token) { tk with done := some x.status }))) ∧
      (live → tk.named = false → tk.ended = true →
        exec (.completionArrival c) s = .next (s.withDev (taken.setTok (tokKey c x.token) { tk with live := false, ended := false }))) ∧
      (∀ i r, live → tk.named = true → d.esl.recs.find? (fun e => decide (e.1 / 1024 = c) && match e.2 with
          | some r => decide (x.token ∈ r.tokens)
          | none => false) = some (i, some r) → gives (.completionArrival c) (fun e => e.esl.comps = d.esl.comps.erase x ∧
        ∃ r', e.rcd (i / 1024) (i % 1024) = some r' ∧ r'.entry = r.entry ∧ ∀ y, some y ∈ r'.slots → y.token = x.token →
          y.filled = true ∧ y.status = x.status))) ∧
    (∀ c x, c < 24 → d.esl.reports.find? (fun x => decide (x.1 = c)) = some x → gives (.oldestReport c) (fun e =>
      e.esl.reports = d.esl.reports.erase x ∧ tget false e.esl.boosted (256 * c + x.2) = true ∧ e = { d with esl := e.esl }))

/-- The lookup complex's own events complete (R226, R241, R250, R251, R271 to R276, R284): an engine serves its oldest servable
lookup and its result is written and sent; a learn is queued or dropped, started and applied; the sweeper and the flush walker move on by
a bucket; a table is enabled, disabled and initialised. -/
def Obligations.LookupEvents : Prop :=
  ∀ (s : State), let d := s.dev
    let now := s.clk.count
    let plain := d.drc.poison = [] ∧ d.drc.mirrors = [] ∧ d.rf Reg.DRC_STATUS 23 16 = 0
    let gives := fun (i : Instr) (p : Dev → Prop) => ∃ e, exec i s = .next (s.withDev e) ∧ p e
    (∀ k r, k < 16 → (d.brs.lookups.filter (fun r => decide (r.engine = k) && !d.lookupHeld r)).find?
        (fun r => (d.lookupLines r.table r.key).all d.lineReady) = some r →
      let o := d.lookupOut r
      let st := o.data.length * 2 ^ 8 + o.code
      gives (.lookupEngineSearch k) (fun e => e.brs.lookups = d.brs.lookups.erase r ∧
        e.esl.comps = d.esl.comps ++ [⟨r.cluster, r.token, wd st⟩] ∧
        (o.learn = true → e.fwd.posts = d.fwd.posts ++ [⟨r.table, r.key, r.learn.getD 0, (d.buckets r.table 0 r.key).1⟩]) ∧
        (o.learn = false → e.fwd.posts = d.fwd.posts) ∧
        (plain → e.memRead r.result 48 = leBytes 4 st ++ leBytes 4 o.index ++ leBytes 4 o.opq ++ zeros 4 ++ padTo 32 o.data))) ∧
    (∀ l r, d.fwd.posts = l :: r → let q := tget [] d.fwd.queues l.table
      (q.length < 8192 → gives .learnPost (fun e => e.fwd.posts = r ∧ tget [] e.fwd.queues l.table = q ++ [l] ∧ e.flt = d.flt)) ∧
      (8192 ≤ q.length → gives .learnPost (fun e => e.fwd = { d.fwd with posts := r } ∧
        e.reg (Reg.FWD_TBL_STAT_W3 l.table) = d.reg (Reg.FWD_TBL_STAT_W3 l.table) + 1 ∧
        e.flt.inbox = d.flt.inbox ++ [⟨Src.fwdLearnDrop, wd (l.port * 2 ^ 8 + l.table), false⟩]))) ∧
    (∀ t l r, t < 256 → tget [] d.fwd.queues t = l :: r → d.rb Reg.FWD_CTL 1 = true → d.fwd.learning.length < 16 → d.flushHolds l = false →
      (∀ b, d.fwd.lastStart = some b → 10 * b + 64 ≤ 10 * now) → (∀ x ∈ d.fwd.learning, x.1.table = t → x.1.b0 ≠ l.b0) →
      gives (.learnStart t) (fun e => tget [] e.fwd.queues t = r ∧ e.fwd.learning = d.fwd.learning ++ [(l, now)] ∧ e.fwd.lastStart = some now)) ∧
    (∀ n l b, d.fwd.learning[n]? = some (l, b) → let t := l.table
      let others := d.fwd.learning.eraseIdx n
      (d.tReady t = false → gives (.learnApply n) (fun e => e.fwd.learning = others)) ∧
      (d.tReady t = true → d.tType t = 5 → d.tDram t = false →
        (d.pinned t 0 l.key = true → gives (.learnApply n) (fun e => e.fwd.learning = others ∧
          e.reg (Reg.FWD_TBL_STAT_W4 t) = d.reg (Reg.FWD_TBL_STAT_W4 t) + 1)) ∧
        (∀ i, d.pinned t 0 l.key = false → d.findSlot t 0 l.key false = .miss → d.freeSlot4 t (d.buckets t 0 l.key).1 = some i →
          i < 4 * d.tN t → plain → fld (d.tw t 4) 30 27 ≠ 15 → l.key.length = 8 → gives (.learnApply n) (fun e => e.fwd.learning = others ∧
            e.slotAt t i = some (padTo (d.tS t) (leBytes 4 (2 ^ 31 + 2 ^ 30) ++ leBytes 4 (usOf now) ++ l.key ++ [BitVec.ofNat 8 l.port, 2] ++ zeros 6)))))) ∧
    (∀ t, t < 256 → d.swept t = true → let v := tget (0, 0, 0) d.fwd.sweep t
      v.2.1 * d.tN t * 78125000000 + v.2.2 * 1000000 * max 78125000000 d.sweepDemand ≤ now * d.tN t * 78125000000 →
      gives (.ageVisit t) (fun e => tget (0, 0, 0) e.fwd.sweep t = ((v.1 % d.tN t + 1) % d.tN t, now, fld (d.tw t 4) 21 0))) ∧
    (∀ t f, t < 256 → tget none d.fwd.flushes t = some f →
      (d.tReady t = false ∨ d.tN t ≤ f.next + 1 → gives (.flushWalkVisit t) (fun e => tget none e.fwd.flushes t = none)) ∧
      ((d.touch [d.bucketSpan t f.next]).bucketBad t f.next = true → gives (.flushWalkVisit t) (fun e => tget none e.fwd.flushes t = none)) ∧
      (d.tReady t = true → f.next + 1 < d.tN t → (d.touch [d.bucketSpan t f.next]).bucketBad t f.next = false → gives (.flushWalkVisit t) (fun e => ∃ f', tget none e.fwd.flushes t = some f' ∧
        f'.next = f.next + 1 ∧ f'.ports = f.ports ∧ f.removed ≤ f'.removed ∧ f.pinned ≤ f'.pinned))) ∧
    (d.pins.resetN = true → ∀ t, t < 256 →
      (∀ r v, d.tOn t = true → exec (.fwdTblEnable r t v) s = .next (s.withDev (d.refuse r (Reg.FWD_TBL_W0 t)))) ∧
      (∀ r v, d.tOn t = false → let n := d.setReg (Reg.FWD_TBL_W0 t) (setFld (setBit v 31 true) 13 12 0)
        let good := d.tableFits t v = true ∧ n.tBase t + n.tBytes t ≤ (if n.tDram t = true then n.fittedDram else lookupBase + 0x3000000) ∧
          (∀ j, j < 256 → j ≠ t → d.tOn j = true → n.regionsMeet t j = false) ∧
          (n.tDram t = true → n.tMirror t = true → d.mayMirror (n.tBase t) (n.tBytes t) = true)
        (¬ good → exec (.fwdTblEnable r t v) s = .next (s.withDev (d.conflict r (Reg.FWD_TBL_W0 t)))) ∧
        (good → gives (.fwdTblEnable r t v) (fun e => e.tOn t = true ∧ e.tInit t = true ∧ e.mem = d.mem ∧ e.flt = d.flt))) ∧
      (∀ v, d.tOn t = true → gives (.fwdTblDisable t v) (fun e => e.tOn t = false ∧ e.tInit t = false ∧ tget [] e.fwd.queues t = [] ∧
        (∀ l ∈ e.fwd.posts, l.table ≠ t) ∧ ∀ x ∈ e.fwd.learning, x.1.table ≠ t))) ∧
    (∀ t, t < 256 → d.tOn t = true → d.tInit t = true → gives (.tableInitDone t) (fun e => e.tInit t = false ∧ e.tOn t = true ∧
      ∀ a, d.tBase t ≤ a → a < d.tBase t + d.tBytes t → e.memGet a = 0))

/-- The commands of a CMD ring complete (R65, R69 to R71, R184 to R187, R233, R236, R279, R281 to R284, R477 to R479, R505): a
command that ends posts its completion, a malformed one ends with its status; SEARCH and NEXT answer, a table operation or a TXN
becomes a control-plane transaction that is applied and released (or fails after a power failure: R510), and PORT_REARM, the profile commands, MSG_SEND, TASK_POST, QUOTE
and NOP have their effects. -/
def Obligations.RingCommands : Prop :=
  ∀ (s : State) (g : Nat), g < 15 → let d := s.dev
    let now := s.clk.count
    let gives := fun (i : Instr) (p : Dev → Prop) => ∃ e, exec i s = .next (s.withDev e) ∧ p e
    (∀ (u : Dev) k st rs c, let y := u.grp g
      let n := y.ix.cplProd
      y.running.find? (fun c => decide (c.index = k)) = some c → u.rb (Reg.HST_GRP_W15 g) 29 = false → y.cpl = [] → u.grpRuns g = true →
      ixDiff n y.ix.cplCons < 2 ^ u.ringLog g .cpl → st < 2 ^ 16 → let e := u.cmdEnd g k st rs
      e.hst.posted = u.hst.posted ++ [⟨g, u.ringEntry g .cpl 64 n, leBytes 4 (u.phase g .cpl n * 2 ^ 31 + st * 2 ^ 8 + c.opcode) ++
        leBytes 4 c.tag ++ leBytes 4 k ++ zeros 4 ++ padTo 48 (rs.flatMap (leBytes 4)), false⟩] ∧
      (e.grp g).ix.cplProd = ixAdd n 1 ∧ (e.grp g).running = y.running.filter (fun x => decide (x.index ≠ k))) ∧
    (∀ c, d.cmdNext g = some c → let u := d.cmdStart g c
      let k := c.index
      let ends := fun (i : Instr) (v : Dev) (st : Nat) (rs : List Nat) => exec i s = .next (s.withDev (v.cmdEnd g k st rs))
      (c.opcode = 9 → c.fieldBad 0 = false → ends (.nop g) u 0 [0]) ∧
      (c.opcode = 9 → c.fieldBad 0 = true → ends (.nop g) u 4 []) ∧
      (c.opcode = 0 ∨ 9 < c.opcode → ends (.nop g) u 3 []) ∧
      (c.opcode = 3 → c.fieldBad 1 = false → c.param 0 ≤ 111 → let p := c.param 0
        (d.portHeld p = false → ends (.portRearm g) u 0 [1]) ∧
        (d.portHeld p = true → gives (.portRearm g) (fun e => e.portHeld p = false ∧ (p < 80 → d.prtState p = 5 → d.laneTested p = false → e.prtState p ≠ 5)))) ∧
      (c.opcode = 4 → c.fieldBad 1 = false → c.param 0 ≤ 1 → ∀ bs flash,
        (c.param 0 = 1 → 336 ≤ c.lenA ∧ c.lenA ≤ 262144 ∧ bs.length = c.lenA) →
        let r := validateProfile (if c.param 0 = 1 then bs else flash) d.prf.owners (d.prf.inForce.map (·.seq))
        (∀ code off, r = .bad code off → ends (.profileStage g (.ok bs) flash) u 0 [code, off]) ∧
        (∀ p, r = .good p → gives (.profileStage g (.ok bs) flash) (fun e => e.prf = { d.prf with staged := some p }))) ∧
      (c.opcode = 5 → c.fieldBad 0 = false →
        (d.prf.applying ≠ none → ends (.profileApply g) u 5 []) ∧
        (d.prf.applying = none → d.prf.staged = none → ends (.profileApply g) u 0 [2]) ∧
        (∀ p, d.prf.applying = none → d.prf.staged = some p → d.cpFull = false ∨ resvOps d.oldProfile p = [] →
          (d.cpStops = true → ends (.profileApply g) u 0 [1]) ∧
          (d.cpStops = false → gives (.profileApply g) (fun e =>
            e.prf.inForce = d.prf.inForce ∧ e.prf.applying.map (fun a => (a.prof, a.grp, a.cmd)) = some (p, g, k))))) ∧
      (c.opcode = 6 → c.fieldBad 1 = false → c.param 0 < 2048 → c.lenA % 4 = 0 → c.lenA ≤ 64 → ∀ bs, bs.length = c.lenA → let ch := c.param 0
        (d.chanEnabled ch = false ∨ d.chanRing ch = true → ends (.msgSend g (.ok bs)) u 0 [1]) ∧
        (d.chanEnabled ch = true → d.chanRing ch = false → d.chanRoom ch = false → ends (.msgSend g (.ok bs)) u 0 [2]) ∧
        (d.chanEnabled ch = true → d.chanRing ch = false → d.chanRoom ch = true → (∀ r ∈ d.brs.recvs, r.channel ≠ ch) →
          gives (.msgSend g (.ok bs)) (fun e => (e.chan ch).lens = (d.chan ch).lens ++ [bs.length / 4]))) ∧
      (c.opcode = 7 → c.fieldBad 0 = false → c.lenA = 64 → ∀ bs, bs.length = 64 → let r := u.postRec (parseRec bs).1
        ((parseRec bs).1.hasTxn = true ∨ postable bs = false → ends (.taskPost g (.ok bs)) u 4 []) ∧
        ((parseRec bs).1.hasTxn = false → postable bs = true → ends (.taskPost g (.ok bs)) r.2 0 [r.1])) ∧
      (c.opcode = 8 → c.fieldBad 0 = false → 16 ≤ c.lenA → c.lenA ≤ 64 → ∀ bs, bs.length = c.lenA →
        (c.lenB < 496 → ends (.quote g (.ok bs)) u 2 [0, 496]) ∧
        (496 ≤ c.lenB → gives (.quote g (.ok bs)) (fun e => e.mgt.quotes.length = d.mgt.quotes.length + 1 ∧
          ∃ q ∈ e.mgt.quotes, q.nonce = bs ∧ q.ring = some (g, k)))) ∧
      (c.opcode = 1 → c.fieldBad 0 = false → c.lenA = 192 → ∀ b, b.length = 192 → let op := leAt b 0 1
        (∀ i, d.applying = false → 768 ≤ c.lenB → (op = 1 ∧ i = .search g (.ok b)) ∨ (op = 2 ∧ i = .next g (.ok b)) →
          (∀ st, u.opCheck b = some st → ends i u 0 [st]) ∧
          (u.opCheck b = none → let r := if op = 1 then (u.opTouch b).opSearch b else u.opNext b
            (r.1 = 0 → gives i (fun e => e.mem = d.mem ∧ ∃ more, e.hst.posted = d.hst.posted ++ ⟨g, c.addrB, r.2, false⟩ :: more)) ∧
            (r.1 ≠ 0 → gives i (fun e => e.mem = d.mem ∧ ∃ v : Dev, e = v.cmdEnd g k 0 [r.1] ∧ v.grp g = u.grp g)))) ∧
        (∀ i, d.cpFull = false → (op = 3 ∧ i = .insert g (.ok b)) ∨ (op = 4 ∧ i = .modify g (.ok b)) ∨ (op = 5 ∧ i = .delete g (.ok b)) ∨
            (op = 7 ∧ i = .actWrite g (.ok b)) →
          (∀ st, u.opCheck b = some st → ends i u 0 [st]) ∧
          (u.opCheck b = none → d.cpStops = true → ends i u 0 (failedWords.take 1)) ∧
          (u.opCheck b = none → d.cpStops = false → let r := u.stageElem now [] b
            (r.op = none → ends i r.dev 0 [r.st]) ∧
            (∀ o, r.op = some o → gives i (fun e => ∃ cp, e.vrn.cps = r.dev.vrn.cps ++ [cp] ∧ cp.ops = [o] ∧ cp.stage = .positioned ∧
              cp.ring = some (g, k))))) ∧
        (op = 6 → u.opCheck b = none → let t := leAt b 1 1
          (tget none d.fwd.flushes t ≠ none → ends (.flushPort g (.ok b)) u 0 [9]) ∧
          (tget none d.fwd.flushes t = none → gives (.flushPort g (.ok b)) (fun e => ∃ f, tget none e.fwd.flushes t = some f ∧ f.next = 0 ∧
            f.removed = 0 ∧ f.pinned = 0 ∧ f.ports = leVal (slice b 0x10 17))))) ∧
      (c.opcode = 2 → c.fieldBad 1 = false → 1 ≤ c.param 0 → c.param 0 ≤ 4096 → c.lenA = 192 * c.param 0 → d.cpFull = false →
        ∀ bs, bs.length = c.lenA → let r := u.stageList now 0 ((List.range (c.param 0)).map (fun i => slice bs (192 * i) 192)) []
        (d.cpStops = true → ends (.txn g (.ok bs)) u 0 failedWords) ∧
        (d.cpStops = false → r.st ≠ 0 → ends (.txn g (.ok bs)) r.dev 0 [r.st, r.index]) ∧
        (d.cpStops = false → r.st = 0 → gives (.txn g (.ok bs)) (fun e => e.vrn.cps.length = r.dev.vrn.cps.length + 1 ∧
          ∃ cp ∈ e.vrn.cps, cp.ops = r.ops ∧ cp.stage = .positioned ∧ cp.ring = some (g, k))))) ∧
    (∀ a old, d.commitReady = some (a, old) → ∃ t, exec .profileCommit s = .next t ∧ t.dev.prf.inForce = some (old.merged a.prof) ∧
      t.dev.prf.applying = none ∧ t.idn = { s.idn with meas := s.idn.meas.set 2 (extended (s.idn.meas.getD 2 []) a.prof.digest) } ∧
      t.clk = s.clk ∧ t.pending = s.pending) ∧
    (∀ q r, d.mgt.quotes = q :: r →
      (q.body = none → gives .quoteDone (fun e => e = { d with mgt := e.mgt } ∧
        e.mgt.quotes = { q with body := some (d.quoteBody s.clk s.idn q.nonce) } :: r)) ∧
      (∀ b, q.body = some b → let bytes := b ++ padTo 114 (ed448Sign (leBytes 57 s.idn.devKey) ctxQuote (phDigest b)) ++ zeros 14
        (q.ring = none → gives .quoteDone (fun e => e.mgt.gmpQuote = some bytes ∧ e.mgt.quotes.length = r.length)) ∧
        (∀ k x, q.ring = some (g, k) → (d.grp g).running.find? (fun x => decide (x.index = k)) = some x → gives .quoteDone (fun e =>
          e.mgt.quotes.length = r.length ∧ ∃ more, e.hst.posted = d.hst.posted ++ ⟨g, x.addrB, bytes, false⟩ :: more)))) ∧
    (∀ c, d.firstCp .positioned = some c → d.drained c = true → d.vrn.cbuf.length + min 1024 (c.ops.map CpOp.grans).sum ≤ 1024 →
      gives .controlPlaneApply (fun e => ∀ x ∈ e.vrn.cps, x.id = c.id → x.stage = .applied) ∧
      (∀ i bs, c.ops = [.actWrite i bs] → gives .controlPlaneApply (fun e => tget [] e.fwd.acts i = bs ∧ e.mem = d.mem ∧
        ∀ j, j ≠ i → tget [] e.fwd.acts j = tget [] d.fwd.acts j))) ∧
    (∀ c, d.firstCp .applied = some c → gives .controlPlaneRelease (fun e => e.vrn.cps = d.vrn.cps.filter (fun x => decide (x.id ≠ c.id))))
end

