-- ==== Sys2Proof/Laws/Tab.lean ====
section
/-!
SUPPORT. Sparse tables: a read after a write, and that writes keep the canonical form.
-/

namespace Sys2Proof.Machine

variable {α : Type}

theorem Tab.get_put_self (f : Nat → α) (m : Tab α) (k : Nat) (v : α) : Tab.get f (Tab.put m k v) k = v := by
  induction m with
  | nil => simp [Tab.put, Tab.get]
  | cons e r ih =>
    unfold Tab.put
    split
    · simp [Tab.get]
    · split
      · simp [Tab.get]
      · rename_i h _; simpa [Tab.get, h] using ih

theorem Tab.get_put_ne (f : Nat → α) (m : Tab α) (k j : Nat) (v : α) (h : j ≠ k) :
    Tab.get f (Tab.put m k v) j = Tab.get f m j := by
  induction m with
  | nil => simp [Tab.put, Tab.get, h]
  | cons e r ih =>
    unfold Tab.put
    split
    · rename_i hk; subst hk; simp [Tab.get, h]
    · split
      · simp [Tab.get, h]
      · simp only [Tab.get]; split
        · rfl
        · exact ih

theorem Tab.get_del_self (f : Nat → α) (m : Tab α) (k : Nat) : Tab.get f (Tab.del m k) k = f k := by
  induction m with
  | nil => rfl
  | cons e r ih =>
    by_cases h : e.1 = k
    · simpa [Tab.del, h] using ih
    · simpa [Tab.del, h, Tab.get, Ne.symm h] using ih

theorem Tab.get_del_ne (f : Nat → α) (m : Tab α) (k j : Nat) (h : j ≠ k) : Tab.get f (Tab.del m k) j = Tab.get f m j := by
  induction m with
  | nil => rfl
  | cons e r ih =>
    by_cases hk : e.1 = k
    · have hj : ¬ j = e.1 := by omega
      simpa [Tab.del, hk, Tab.get, hj, h] using ih
    · by_cases hj : j = e.1
      · simp [Tab.del, Tab.get, hj, hk]
      · simpa [Tab.del, Tab.get, hj, hk] using ih

/-- A read of the key written gives the value written. -/
@[simp] theorem Tab.get_set_self [DecidableEq α] (f : Nat → α) (m : Tab α) (k : Nat) (v : α) :
    Tab.get f (Tab.set f m k v) k = v := by
  unfold Tab.set; split
  · rename_i h; rw [Tab.get_del_self, h]
  · exact Tab.get_put_self f m k v

/-- A read of any other key gives what it gave. -/
theorem Tab.get_set_ne [DecidableEq α] (f : Nat → α) (m : Tab α) (k j : Nat) (v : α) (h : j ≠ k) :
    Tab.get f (Tab.set f m k v) j = Tab.get f m j := by
  unfold Tab.set; split
  · exact Tab.get_del_ne f m k j h
  · exact Tab.get_put_ne f m k j v h

theorem Tab.get_set [DecidableEq α] (f : Nat → α) (m : Tab α) (k j : Nat) (v : α) :
    Tab.get f (Tab.set f m k v) j = if j = k then v else Tab.get f m j := by
  split
  · rename_i h; subst h; simp
  · rename_i h; exact Tab.get_set_ne f m k j v h

@[simp] theorem tget_tset_self [DecidableEq α] (d : α) (m : Tab α) (k : Nat) (v : α) : tget d (tset d m k v) k = v :=
  Tab.get_set_self _ m k v

theorem tget_tset_ne [DecidableEq α] (d : α) (m : Tab α) (k j : Nat) (v : α) (h : j ≠ k) :
    tget d (tset d m k v) j = tget d m j := Tab.get_set_ne _ m k j v h

theorem tget_tset [DecidableEq α] (d : α) (m : Tab α) (k j : Nat) (v : α) :
    tget d (tset d m k v) j = if j = k then v else tget d m j := Tab.get_set _ m k j v

@[simp] theorem tget_nil (d : α) (k : Nat) : tget d [] k = d := rfl

theorem Tab.above_iff (k : Nat) (m : Tab α) : Tab.above k m = true ↔ ∀ e ∈ m, k < e.1 := by
  induction m with
  | nil => simp [Tab.above]
  | cons e r ih => simp [Tab.above, ih]

/-- The canonical form says that keys rise strictly and that no entry is the default. -/
theorem Tab.wf_iff [DecidableEq α] (f : Nat → α) (m : Tab α) :
    Tab.wf f m = true ↔ m.Pairwise (fun a b => a.1 < b.1) ∧ ∀ e ∈ m, e.2 ≠ f e.1 := by
  induction m with
  | nil => simp [Tab.wf]
  | cons e r ih =>
    simp only [Tab.wf, Bool.and_eq_true, decide_eq_true_eq, Tab.above_iff, ih, List.pairwise_cons, List.forall_mem_cons]
    tauto

theorem Tab.mem_put {k : Nat} {v : α} {m : Tab α} {e : Nat × α} (h : e ∈ Tab.put m k v) : e = (k, v) ∨ e ∈ m := by
  induction m with
  | nil => simpa [Tab.put] using h
  | cons x r ih =>
    unfold Tab.put at h
    split at h
    · rcases List.mem_cons.mp h with h | h
      · exact .inl h
      · exact .inr (List.mem_cons_of_mem _ h)
    · split at h
      · exact List.mem_cons.mp h
      · rcases List.mem_cons.mp h with h | h
        · exact .inr (h ▸ List.mem_cons_self)
        · rcases ih h with h | h
          · exact .inl h
          · exact .inr (List.mem_cons_of_mem _ h)

theorem Tab.pairwise_put {m : Tab α} (k : Nat) (v : α) (h : m.Pairwise (fun a b => a.1 < b.1)) :
    (Tab.put m k v).Pairwise (fun a b => a.1 < b.1) := by
  induction m with
  | nil => simp [Tab.put]
  | cons x r ih =>
    obtain ⟨hx, hr⟩ := List.pairwise_cons.mp h
    unfold Tab.put
    split
    · rename_i hk
      exact List.pairwise_cons.mpr ⟨fun e he => by simpa [hk] using hx e he, hr⟩
    · rename_i hk
      split
      · rename_i hlt
        refine List.pairwise_cons.mpr ⟨fun e he => ?_, h⟩
        rcases List.mem_cons.mp he with rfl | he
        · exact hlt
        · exact Nat.lt_trans hlt (hx e he)
      · rename_i hlt
        refine List.pairwise_cons.mpr ⟨fun e he => ?_, ih hr⟩
        rcases Tab.mem_put he with rfl | he
        · show x.1 < k
          omega
        · exact hx e he

/-- A write keeps the canonical form. -/
theorem Tab.wf_set [DecidableEq α] (f : Nat → α) (m : Tab α) (k : Nat) (v : α) (h : Tab.wf f m = true) :
    Tab.wf f (Tab.set f m k v) = true := by
  rw [Tab.wf_iff] at h ⊢
  unfold Tab.set
  split
  · exact ⟨h.1.filter _, fun e he => h.2 e (List.mem_filter.mp he).1⟩
  · rename_i hv
    refine ⟨Tab.pairwise_put k v h.1, fun e he => ?_⟩
    rcases Tab.mem_put he with rfl | he
    · exact hv
    · exact h.2 e he

theorem tset_wf [DecidableEq α] (d : α) (m : Tab α) (k : Nat) (v : α) (h : Tab.wf (fun _ => d) m = true) :
    Tab.wf (fun _ => d) (tset d m k v) = true := Tab.wf_set _ m k v h

/-- What every step of a fold keeps, the fold keeps. -/
theorem foldl_inv {α β : Type} (f : β → α → β) (P : β → Prop) (h : ∀ b a, P b → P (f b a)) (l : List α) (b : β) (hb : P b) : P (l.foldl f b) := by
  induction l generalizing b with
  | nil => exact hb
  | cons a r ih => exact ih _ (h b a hb)

end Sys2Proof.Machine
end

