-- ==== Sys2Proof/Laws/Reg.lean ====
section
/-!
SUPPORT. Registers, threads, transactions and memory: a read after a write of the named operations, and the fields of the
device that each leaves alone.
-/

namespace Sys2Proof.Machine

/-! Bit fields. -/

theorem fld_lt (w : Word) (hi lo : Nat) : fld w hi lo < 2 ^ (hi + 1 - lo) := Nat.mod_lt _ (Nat.two_pow_pos _)

theorem setFld_toNat (w : Word) (hi lo v : Nat) (h : hi < 32) (hl : lo ≤ hi) :
    (setFld w hi lo v).toNat = w.toNat - fld w hi lo * 2 ^ lo + v % 2 ^ (hi + 1 - lo) * 2 ^ lo := by
  have hw := w.isLt
  have h1 : w.toNat = w.toNat % 2 ^ lo + 2 ^ lo * (fld w hi lo + 2 ^ (hi + 1 - lo) * (w.toNat / 2 ^ lo / 2 ^ (hi + 1 - lo))) := by
    unfold fld; rw [Nat.mod_add_div, Nat.mod_add_div]
  have h2 : 2 ^ (hi + 1 - lo) * 2 ^ lo = 2 ^ (hi + 1) := by rw [← Nat.pow_add]; congr 1; omega
  have h3 : v % 2 ^ (hi + 1 - lo) < 2 ^ (hi + 1 - lo) := Nat.mod_lt _ (Nat.two_pow_pos _)
  have h4 : w.toNat % 2 ^ lo < 2 ^ lo := Nat.mod_lt _ (Nat.two_pow_pos _)
  have h5 : 2 ^ (hi + 1) ∣ 2 ^ 32 := Nat.pow_dvd_pow 2 (by omega)
  obtain ⟨c, hc⟩ := h5
  generalize hq : w.toNat / 2 ^ lo / 2 ^ (hi + 1 - lo) = q at h1
  have hqc : q < c := by
    rw [← hq, Nat.div_div_eq_div_mul, Nat.mul_comm (2 ^ lo), h2]
    exact Nat.div_lt_of_lt_mul (by rw [← hc]; exact hw)
  have e1 : w.toNat - fld w hi lo * 2 ^ lo = w.toNat % 2 ^ lo + 2 ^ (hi + 1) * q := by
    have : 2 ^ lo * (fld w hi lo + 2 ^ (hi + 1 - lo) * q) = fld w hi lo * 2 ^ lo + 2 ^ (hi + 1) * q := by
      rw [← h2]; ring
    omega
  unfold setFld wd
  rw [BitVec.toNat_ofNat, e1]
  apply Nat.mod_eq_of_lt
  have h6 : (v % 2 ^ (hi + 1 - lo) + 1) * 2 ^ lo ≤ 2 ^ (hi + 1) := by
    rw [← h2]; exact Nat.mul_le_mul_right _ h3
  have h7 : 2 ^ (hi + 1) * (q + 1) ≤ 2 ^ 32 := by rw [hc]; exact Nat.mul_le_mul_left _ hqc
  have h8 : (v % 2 ^ (hi + 1 - lo) + 1) * 2 ^ lo = v % 2 ^ (hi + 1 - lo) * 2 ^ lo + 2 ^ lo := by ring
  have h9 : 2 ^ (hi + 1) * (q + 1) = 2 ^ (hi + 1) * q + 2 ^ (hi + 1) := by ring
  omega

/-- The field written reads as the value written. -/
theorem fld_setFld (w : Word) (hi lo v : Nat) (h : hi < 32) (hl : lo ≤ hi) :
    fld (setFld w hi lo v) hi lo = v % 2 ^ (hi + 1 - lo) := by
  have h1 := setFld_toNat w hi lo v h hl
  have h2 : 2 ^ (hi + 1 - lo) * 2 ^ lo = 2 ^ (hi + 1) := by rw [← Nat.pow_add]; congr 1; omega
  have hd : w.toNat = w.toNat % 2 ^ lo + 2 ^ lo * (fld w hi lo + 2 ^ (hi + 1 - lo) * (w.toNat / 2 ^ lo / 2 ^ (hi + 1 - lo))) := by
    unfold fld; rw [Nat.mod_add_div, Nat.mod_add_div]
  generalize w.toNat / 2 ^ lo / 2 ^ (hi + 1 - lo) = q at hd
  have e1 : (setFld w hi lo v).toNat = w.toNat % 2 ^ lo + 2 ^ lo * (v % 2 ^ (hi + 1 - lo) + 2 ^ (hi + 1 - lo) * q) := by
    have ha : 2 ^ lo * (fld w hi lo + 2 ^ (hi + 1 - lo) * q) = fld w hi lo * 2 ^ lo + 2 ^ (hi + 1) * q := by rw [← h2]; ring
    have hb : 2 ^ lo * (v % 2 ^ (hi + 1 - lo) + 2 ^ (hi + 1 - lo) * q) = v % 2 ^ (hi + 1 - lo) * 2 ^ lo + 2 ^ (hi + 1) * q := by
      rw [← h2]; ring
    omega
  have h4 : w.toNat % 2 ^ lo < 2 ^ lo := Nat.mod_lt _ (Nat.two_pow_pos _)
  show (setFld w hi lo v).toNat / 2 ^ lo % _ = _
  rw [e1, Nat.add_mul_div_left _ _ (Nat.two_pow_pos _), Nat.div_eq_of_lt h4, Nat.zero_add, Nat.add_mul_mod_self_left,
    Nat.mod_mod]

/-- A field apart from the field written reads as before. -/
theorem fld_setFld_apart (w : Word) (hi lo v hi' lo' : Nat) (h : hi < 32) (hl : lo ≤ hi) (ha : hi < lo' ∨ hi' < lo) :
    fld (setFld w hi lo v) hi' lo' = fld w hi' lo' := by
  have h1 := setFld_toNat w hi lo v h hl
  have h2 : 2 ^ (hi + 1 - lo) * 2 ^ lo = 2 ^ (hi + 1) := by rw [← Nat.pow_add]; congr 1; omega
  have hd : w.toNat = w.toNat % 2 ^ lo + 2 ^ lo * (fld w hi lo + 2 ^ (hi + 1 - lo) * (w.toNat / 2 ^ lo / 2 ^ (hi + 1 - lo))) := by
    unfold fld; rw [Nat.mod_add_div, Nat.mod_add_div]
  generalize w.toNat / 2 ^ lo / 2 ^ (hi + 1 - lo) = q at hd
  have h4 : w.toNat % 2 ^ lo < 2 ^ lo := Nat.mod_lt _ (Nat.two_pow_pos _)
  have h3 : v % 2 ^ (hi + 1 - lo) < 2 ^ (hi + 1 - lo) := Nat.mod_lt _ (Nat.two_pow_pos _)
  have hf := fld_lt w hi lo
  have e1 : (setFld w hi lo v).toNat = w.toNat % 2 ^ lo + 2 ^ lo * (v % 2 ^ (hi + 1 - lo) + 2 ^ (hi + 1 - lo) * q) := by
    have ha : 2 ^ lo * (fld w hi lo + 2 ^ (hi + 1 - lo) * q) = fld w hi lo * 2 ^ lo + 2 ^ (hi + 1) * q := by rw [← h2]; ring
    have hb : 2 ^ lo * (v % 2 ^ (hi + 1 - lo) + 2 ^ (hi + 1 - lo) * q) = v % 2 ^ (hi + 1 - lo) * 2 ^ lo + 2 ^ (hi + 1) * q := by
      rw [← h2]; ring
    omega
  generalize hx : w.toNat % 2 ^ lo = x at *
  rcases ha with ha | ha
  · have key : ∀ y, y < 2 ^ (hi + 1 - lo) → (x + 2 ^ lo * (y + 2 ^ (hi + 1 - lo) * q)) / 2 ^ lo' = q / 2 ^ (lo' - (hi + 1)) := by
      intro y hy
      have : 2 ^ lo' = 2 ^ (hi + 1) * 2 ^ (lo' - (hi + 1)) := by rw [← Nat.pow_add]; congr 1; omega
      rw [this, ← Nat.div_div_eq_div_mul]
      congr 1
      have e : x + 2 ^ lo * (y + 2 ^ (hi + 1 - lo) * q) = (x + 2 ^ lo * y) + 2 ^ (hi + 1) * q := by rw [← h2]; ring
      rw [e, Nat.add_mul_div_left _ _ (Nat.two_pow_pos _), Nat.div_eq_of_lt, Nat.zero_add]
      have : 2 ^ lo * (y + 1) ≤ 2 ^ (hi + 1) := by
        rw [← h2, Nat.mul_comm]; exact Nat.mul_le_mul_right _ hy
      have : 2 ^ lo * (y + 1) = 2 ^ lo * y + 2 ^ lo := by ring
      omega
    unfold fld
    rw [e1, key _ h3]
    conv_rhs => rw [hd, key _ hf]
  · have key : ∀ z, (x + 2 ^ lo * z) / 2 ^ lo' % 2 ^ (hi' + 1 - lo') = x / 2 ^ lo' % 2 ^ (hi' + 1 - lo') := by
      intro z
      by_cases hll : lo' ≤ hi'
      · have : 2 ^ lo = 2 ^ lo' * (2 ^ (hi' + 1 - lo') * 2 ^ (lo - (hi' + 1))) := by
          rw [← Nat.pow_add, ← Nat.pow_add]; congr 1; omega
        rw [this, Nat.mul_assoc, Nat.add_mul_div_left _ _ (Nat.two_pow_pos _), Nat.mul_assoc, Nat.add_mul_mod_self_left]
      · have : hi' + 1 - lo' = 0 := by omega
        simp [this, Nat.mod_one]
    unfold fld
    rw [e1, key]
    conv_rhs => rw [hd, key]

theorem bit_eq_fld (w : Word) (i : Nat) : bit w i = decide (fld w i i = 1) := by
  have : i + 1 - i = 1 := by omega
  simp [bit, fld, Nat.testBit_eq_decide_div_mod_eq, this]

theorem b2n_mod (b : Bool) : b2n b % 2 = b2n b := by cases b <;> rfl

/-- The bit written reads as written. -/
theorem bit_setFld_b2n (w : Word) (i : Nat) (b : Bool) (h : i < 32) : bit (setFld w i i (b2n b)) i = b := by
  have e : i + 1 - i = 1 := by omega
  rw [bit_eq_fld, fld_setFld w i i _ h (Nat.le_refl _), e]
  cases b <;> rfl

/-! Registers. -/

@[simp] theorem Dev.reg_setReg_self (d : Dev) (o : Nat) (v : Word) : (d.setReg o v).reg o = v := by
  simp [Dev.reg, Dev.setReg]

theorem Dev.reg_setReg_ne (d : Dev) (o p : Nat) (v : Word) (h : p ≠ o) : (d.setReg o v).reg p = d.reg p := by
  simp [Dev.reg, Dev.setReg, Tab.get_set_ne _ _ _ _ _ h]

theorem Dev.reg_setReg (d : Dev) (o p : Nat) (v : Word) : (d.setReg o v).reg p = if p = o then v else d.reg p := by
  split
  · rename_i h; subst h; simp
  · rename_i h; exact d.reg_setReg_ne o p v h

theorem Dev.reg_setRf_ne (d : Dev) (o hi lo v p : Nat) (h : p ≠ o) : (d.setRf o hi lo v).reg p = d.reg p :=
  d.reg_setReg_ne o p _ h

theorem Dev.reg_setRb_ne (d : Dev) (o i p : Nat) (b : Bool) (h : p ≠ o) : (d.setRb o i b).reg p = d.reg p :=
  d.reg_setReg_ne o p _ h

theorem Dev.rf_setRf_self (d : Dev) (o hi lo v : Nat) (h : hi < 32) (hl : lo ≤ hi) :
    (d.setRf o hi lo v).rf o hi lo = v % 2 ^ (hi + 1 - lo) := by
  simp [Dev.rf, Dev.setRf, fld_setFld _ _ _ _ h hl]

theorem Dev.rb_setRb_self (d : Dev) (o i : Nat) (b : Bool) (h : i < 32) : (d.setRb o i b).rb o i = b := by
  simp [Dev.rb, Dev.setRb, Dev.setRf, bit_setFld_b2n _ _ _ h]

theorem Dev.rf_setRf_apart (d : Dev) (o hi lo v hi' lo' : Nat) (h : hi < 32) (hl : lo ≤ hi) (ha : hi < lo' ∨ hi' < lo) :
    (d.setRf o hi lo v).rf o hi' lo' = d.rf o hi' lo' := by
  simp [Dev.rf, Dev.setRf, fld_setFld_apart _ _ _ _ _ _ h hl ha]

theorem Dev.rb_setRf_apart (d : Dev) (o hi lo v i : Nat) (h : hi < 32) (hl : lo ≤ hi) (ha : hi < i ∨ i < lo) :
    (d.setRf o hi lo v).rb o i = d.rb o i := by
  simp [Dev.rb, Dev.setRf, bit_eq_fld, fld_setFld_apart _ _ _ _ _ _ h hl ha]

theorem Dev.rb_setRb_apart (d : Dev) (o i j : Nat) (b : Bool) (h : i < 32) (ha : j ≠ i) :
    (d.setRb o i b).rb o j = d.rb o j :=
  d.rb_setRf_apart o i i _ j h (Nat.le_refl _) (by omega)

theorem Dev.rf_setReg_ne (d : Dev) (o p hi lo : Nat) (v : Word) (h : p ≠ o) : (d.setReg o v).rf p hi lo = d.rf p hi lo := by
  simp [Dev.rf, d.reg_setReg_ne o p v h]

theorem Dev.rb_setReg_ne (d : Dev) (o p i : Nat) (v : Word) (h : p ≠ o) : (d.setReg o v).rb p i = d.rb p i := by
  simp [Dev.rb, d.reg_setReg_ne o p v h]

/-! Threads, transactions, domains, tokens and memory. -/

@[simp] theorem Dev.thr_setThr_self (d : Dev) (t : Nat) (x : Thread) : (d.setThr t x).thr t = x := by
  simp [Dev.thr, Dev.setThr]

theorem Dev.thr_setThr_ne (d : Dev) (t u : Nat) (x : Thread) (h : u ≠ t) : (d.setThr t x).thr u = d.thr u := by
  simp [Dev.thr, Dev.setThr, tget_tset_ne _ _ _ _ _ h]

@[simp] theorem Dev.thr_updThr_self (d : Dev) (t : Nat) (f : Thread → Thread) : (d.updThr t f).thr t = f (d.thr t) := by
  simp [Dev.updThr]

theorem Dev.thr_updThr_ne (d : Dev) (t u : Nat) (f : Thread → Thread) (h : u ≠ t) : (d.updThr t f).thr u = d.thr u :=
  d.thr_setThr_ne t u _ h

@[simp] theorem Dev.txn_setTxn_self (d : Dev) (k : Nat) (x : Txn) : (d.setTxn k x).txn k = x := by
  simp [Dev.txn, Dev.setTxn]

theorem Dev.txn_setTxn_ne (d : Dev) (k j : Nat) (x : Txn) (h : j ≠ k) : (d.setTxn k x).txn j = d.txn j := by
  simp [Dev.txn, Dev.setTxn, tget_tset_ne _ _ _ _ _ h]

@[simp] theorem Dev.dom_setDom_self (d : Dev) (k : Nat) (x : Dom) : (d.setDom k x).dom k = x := by
  simp [Dev.dom, Dev.setDom]

@[simp] theorem Dev.tok_setTok_self (d : Dev) (k : Nat) (x : Tok) : (d.setTok k x).tok k = x := by
  simp [Dev.tok, Dev.setTok]

@[simp] theorem Dev.memGet_memSet_self (d : Dev) (a : Nat) (b : Byte) : (d.memSet a b).memGet a = b := by
  simp [Dev.memGet, Dev.memSet]

theorem Dev.memGet_memSet_ne (d : Dev) (a c : Nat) (b : Byte) (h : c ≠ a) : (d.memSet a b).memGet c = d.memGet c := by
  simp [Dev.memGet, Dev.memSet, tget_tset_ne _ _ _ _ _ h]

/-- Writing g0 changes nothing (R81). -/
@[simp] theorem Thread.setG_zero (th : Thread) (v : Word) : th.setG 0 v = th := (rfl)

/-- g0 reads as 0 (R81). -/
@[simp] theorem Thread.g_zero (th : Thread) : th.g 0 = 0 := (rfl)

theorem Thread.g_setG_self (th : Thread) (r : Nat) (v : Word) (h : r ≠ 0) : (th.setG r v).g r = v := by
  simp [Thread.g, Thread.setG, h]

theorem Thread.g_setG_ne (th : Thread) (r q : Nat) (v : Word) (h : q ≠ r) : (th.setG r v).g q = th.g q := by
  by_cases hr : r = 0
  · subst hr; rfl
  · simp [Thread.g, Thread.setG, hr, tget_tset_ne _ _ _ _ _ h]

end Sys2Proof.Machine
end

