-- ==== Sys2Proof/Laws/State.lean ====
section
/-!
SUPPORT. The fields of the device that each named update leaves alone, one lemma per field and update.
-/

namespace Sys2Proof.Machine

@[simp] theorem Dev.setReg_hold (d : Dev) (o : Nat) (v : Word) : (d.setReg o v).hold = d.hold := (rfl)
@[simp] theorem Dev.setReg_mem (d : Dev) (o : Nat) (v : Word) : (d.setReg o v).mem = d.mem := (rfl)
@[simp] theorem Dev.setReg_krv (d : Dev) (o : Nat) (v : Word) : (d.setReg o v).krv = d.krv := (rfl)
@[simp] theorem Dev.setReg_esl (d : Dev) (o : Nat) (v : Word) : (d.setReg o v).esl = d.esl := (rfl)
@[simp] theorem Dev.setReg_brs (d : Dev) (o : Nat) (v : Word) : (d.setReg o v).brs = d.brs := (rfl)
@[simp] theorem Dev.setReg_vrn (d : Dev) (o : Nat) (v : Word) : (d.setReg o v).vrn = d.vrn := (rfl)
@[simp] theorem Dev.setReg_prs (d : Dev) (o : Nat) (v : Word) : (d.setReg o v).prs = d.prs := (rfl)
@[simp] theorem Dev.setReg_pal (d : Dev) (o : Nat) (v : Word) : (d.setReg o v).pal = d.pal := (rfl)
@[simp] theorem Dev.setReg_lku (d : Dev) (o : Nat) (v : Word) : (d.setReg o v).lku = d.lku := (rfl)
@[simp] theorem Dev.setReg_mtr (d : Dev) (o : Nat) (v : Word) : (d.setReg o v).mtr = d.mtr := (rfl)
@[simp] theorem Dev.setReg_tmg (d : Dev) (o : Nat) (v : Word) : (d.setReg o v).tmg = d.tmg := (rfl)
@[simp] theorem Dev.setReg_hst (d : Dev) (o : Nat) (v : Word) : (d.setReg o v).hst = d.hst := (rfl)
@[simp] theorem Dev.setReg_pwr (d : Dev) (o : Nat) (v : Word) : (d.setReg o v).pwr = d.pwr := (rfl)
@[simp] theorem Dev.setReg_flt (d : Dev) (o : Nat) (v : Word) : (d.setReg o v).flt = d.flt := (rfl)
@[simp] theorem Dev.setReg_drc (d : Dev) (o : Nat) (v : Word) : (d.setReg o v).drc = d.drc := (rfl)
@[simp] theorem Dev.setReg_tca (d : Dev) (o : Nat) (v : Word) : (d.setReg o v).tca = d.tca := (rfl)
@[simp] theorem Dev.setReg_fwd (d : Dev) (o : Nat) (v : Word) : (d.setReg o v).fwd = d.fwd := (rfl)
@[simp] theorem Dev.setReg_stn (d : Dev) (o : Nat) (v : Word) : (d.setReg o v).stn = d.stn := (rfl)
@[simp] theorem Dev.setReg_prt (d : Dev) (o : Nat) (v : Word) : (d.setReg o v).prt = d.prt := (rfl)
@[simp] theorem Dev.setReg_prf (d : Dev) (o : Nat) (v : Word) : (d.setReg o v).prf = d.prf := (rfl)
@[simp] theorem Dev.setReg_mgt (d : Dev) (o : Nat) (v : Word) : (d.setReg o v).mgt = d.mgt := (rfl)
@[simp] theorem Dev.setReg_dbg (d : Dev) (o : Nat) (v : Word) : (d.setReg o v).dbg = d.dbg := (rfl)
@[simp] theorem Dev.setReg_pins (d : Dev) (o : Nat) (v : Word) : (d.setReg o v).pins = d.pins := (rfl)
@[simp] theorem Dev.setReg_free (d : Dev) (o : Nat) (v : Word) : (d.setReg o v).free = d.free := (rfl)
@[simp] theorem Dev.setReg_resp (d : Dev) (o : Nat) (v : Word) : (d.setReg o v).resp = d.resp := (rfl)
@[simp] theorem Dev.thr_setReg (d : Dev) (o : Nat) (v : Word) (p : Nat) : (d.setReg o v).thr p = d.thr p := (rfl)
@[simp] theorem Dev.txn_setReg (d : Dev) (o : Nat) (v : Word) (p : Nat) : (d.setReg o v).txn p = d.txn p := (rfl)
@[simp] theorem Dev.dom_setReg (d : Dev) (o : Nat) (v : Word) (p : Nat) : (d.setReg o v).dom p = d.dom p := (rfl)
@[simp] theorem Dev.tok_setReg (d : Dev) (o : Nat) (v : Word) (p : Nat) : (d.setReg o v).tok p = d.tok p := (rfl)
@[simp] theorem Dev.memGet_setReg (d : Dev) (o : Nat) (v : Word) (p : Nat) : (d.setReg o v).memGet p = d.memGet p := (rfl)

@[simp] theorem Dev.setRf_hold (d : Dev) (o hi lo v : Nat) : (d.setRf o hi lo v).hold = d.hold := (rfl)
@[simp] theorem Dev.setRf_mem (d : Dev) (o hi lo v : Nat) : (d.setRf o hi lo v).mem = d.mem := (rfl)
@[simp] theorem Dev.setRf_krv (d : Dev) (o hi lo v : Nat) : (d.setRf o hi lo v).krv = d.krv := (rfl)
@[simp] theorem Dev.setRf_esl (d : Dev) (o hi lo v : Nat) : (d.setRf o hi lo v).esl = d.esl := (rfl)
@[simp] theorem Dev.setRf_brs (d : Dev) (o hi lo v : Nat) : (d.setRf o hi lo v).brs = d.brs := (rfl)
@[simp] theorem Dev.setRf_vrn (d : Dev) (o hi lo v : Nat) : (d.setRf o hi lo v).vrn = d.vrn := (rfl)
@[simp] theorem Dev.setRf_prs (d : Dev) (o hi lo v : Nat) : (d.setRf o hi lo v).prs = d.prs := (rfl)
@[simp] theorem Dev.setRf_pal (d : Dev) (o hi lo v : Nat) : (d.setRf o hi lo v).pal = d.pal := (rfl)
@[simp] theorem Dev.setRf_lku (d : Dev) (o hi lo v : Nat) : (d.setRf o hi lo v).lku = d.lku := (rfl)
@[simp] theorem Dev.setRf_mtr (d : Dev) (o hi lo v : Nat) : (d.setRf o hi lo v).mtr = d.mtr := (rfl)
@[simp] theorem Dev.setRf_tmg (d : Dev) (o hi lo v : Nat) : (d.setRf o hi lo v).tmg = d.tmg := (rfl)
@[simp] theorem Dev.setRf_hst (d : Dev) (o hi lo v : Nat) : (d.setRf o hi lo v).hst = d.hst := (rfl)
@[simp] theorem Dev.setRf_pwr (d : Dev) (o hi lo v : Nat) : (d.setRf o hi lo v).pwr = d.pwr := (rfl)
@[simp] theorem Dev.setRf_flt (d : Dev) (o hi lo v : Nat) : (d.setRf o hi lo v).flt = d.flt := (rfl)
@[simp] theorem Dev.setRf_drc (d : Dev) (o hi lo v : Nat) : (d.setRf o hi lo v).drc = d.drc := (rfl)
@[simp] theorem Dev.setRf_tca (d : Dev) (o hi lo v : Nat) : (d.setRf o hi lo v).tca = d.tca := (rfl)
@[simp] theorem Dev.setRf_fwd (d : Dev) (o hi lo v : Nat) : (d.setRf o hi lo v).fwd = d.fwd := (rfl)
@[simp] theorem Dev.setRf_stn (d : Dev) (o hi lo v : Nat) : (d.setRf o hi lo v).stn = d.stn := (rfl)
@[simp] theorem Dev.setRf_prt (d : Dev) (o hi lo v : Nat) : (d.setRf o hi lo v).prt = d.prt := (rfl)
@[simp] theorem Dev.setRf_prf (d : Dev) (o hi lo v : Nat) : (d.setRf o hi lo v).prf = d.prf := (rfl)
@[simp] theorem Dev.setRf_mgt (d : Dev) (o hi lo v : Nat) : (d.setRf o hi lo v).mgt = d.mgt := (rfl)
@[simp] theorem Dev.setRf_dbg (d : Dev) (o hi lo v : Nat) : (d.setRf o hi lo v).dbg = d.dbg := (rfl)
@[simp] theorem Dev.setRf_pins (d : Dev) (o hi lo v : Nat) : (d.setRf o hi lo v).pins = d.pins := (rfl)
@[simp] theorem Dev.setRf_free (d : Dev) (o hi lo v : Nat) : (d.setRf o hi lo v).free = d.free := (rfl)
@[simp] theorem Dev.setRf_resp (d : Dev) (o hi lo v : Nat) : (d.setRf o hi lo v).resp = d.resp := (rfl)
@[simp] theorem Dev.thr_setRf (d : Dev) (o hi lo v : Nat) (p : Nat) : (d.setRf o hi lo v).thr p = d.thr p := (rfl)
@[simp] theorem Dev.txn_setRf (d : Dev) (o hi lo v : Nat) (p : Nat) : (d.setRf o hi lo v).txn p = d.txn p := (rfl)
@[simp] theorem Dev.dom_setRf (d : Dev) (o hi lo v : Nat) (p : Nat) : (d.setRf o hi lo v).dom p = d.dom p := (rfl)
@[simp] theorem Dev.tok_setRf (d : Dev) (o hi lo v : Nat) (p : Nat) : (d.setRf o hi lo v).tok p = d.tok p := (rfl)
@[simp] theorem Dev.memGet_setRf (d : Dev) (o hi lo v : Nat) (p : Nat) : (d.setRf o hi lo v).memGet p = d.memGet p := (rfl)

@[simp] theorem Dev.setRb_hold (d : Dev) (o i : Nat) (b : Bool) : (d.setRb o i b).hold = d.hold := (rfl)
@[simp] theorem Dev.setRb_mem (d : Dev) (o i : Nat) (b : Bool) : (d.setRb o i b).mem = d.mem := (rfl)
@[simp] theorem Dev.setRb_krv (d : Dev) (o i : Nat) (b : Bool) : (d.setRb o i b).krv = d.krv := (rfl)
@[simp] theorem Dev.setRb_esl (d : Dev) (o i : Nat) (b : Bool) : (d.setRb o i b).esl = d.esl := (rfl)
@[simp] theorem Dev.setRb_brs (d : Dev) (o i : Nat) (b : Bool) : (d.setRb o i b).brs = d.brs := (rfl)
@[simp] theorem Dev.setRb_vrn (d : Dev) (o i : Nat) (b : Bool) : (d.setRb o i b).vrn = d.vrn := (rfl)
@[simp] theorem Dev.setRb_prs (d : Dev) (o i : Nat) (b : Bool) : (d.setRb o i b).prs = d.prs := (rfl)
@[simp] theorem Dev.setRb_pal (d : Dev) (o i : Nat) (b : Bool) : (d.setRb o i b).pal = d.pal := (rfl)
@[simp] theorem Dev.setRb_lku (d : Dev) (o i : Nat) (b : Bool) : (d.setRb o i b).lku = d.lku := (rfl)
@[simp] theorem Dev.setRb_mtr (d : Dev) (o i : Nat) (b : Bool) : (d.setRb o i b).mtr = d.mtr := (rfl)
@[simp] theorem Dev.setRb_tmg (d : Dev) (o i : Nat) (b : Bool) : (d.setRb o i b).tmg = d.tmg := (rfl)
@[simp] theorem Dev.setRb_hst (d : Dev) (o i : Nat) (b : Bool) : (d.setRb o i b).hst = d.hst := (rfl)
@[simp] theorem Dev.setRb_pwr (d : Dev) (o i : Nat) (b : Bool) : (d.setRb o i b).pwr = d.pwr := (rfl)
@[simp] theorem Dev.setRb_flt (d : Dev) (o i : Nat) (b : Bool) : (d.setRb o i b).flt = d.flt := (rfl)
@[simp] theorem Dev.setRb_drc (d : Dev) (o i : Nat) (b : Bool) : (d.setRb o i b).drc = d.drc := (rfl)
@[simp] theorem Dev.setRb_tca (d : Dev) (o i : Nat) (b : Bool) : (d.setRb o i b).tca = d.tca := (rfl)
@[simp] theorem Dev.setRb_fwd (d : Dev) (o i : Nat) (b : Bool) : (d.setRb o i b).fwd = d.fwd := (rfl)
@[simp] theorem Dev.setRb_stn (d : Dev) (o i : Nat) (b : Bool) : (d.setRb o i b).stn = d.stn := (rfl)
@[simp] theorem Dev.setRb_prt (d : Dev) (o i : Nat) (b : Bool) : (d.setRb o i b).prt = d.prt := (rfl)
@[simp] theorem Dev.setRb_prf (d : Dev) (o i : Nat) (b : Bool) : (d.setRb o i b).prf = d.prf := (rfl)
@[simp] theorem Dev.setRb_mgt (d : Dev) (o i : Nat) (b : Bool) : (d.setRb o i b).mgt = d.mgt := (rfl)
@[simp] theorem Dev.setRb_dbg (d : Dev) (o i : Nat) (b : Bool) : (d.setRb o i b).dbg = d.dbg := (rfl)
@[simp] theorem Dev.setRb_pins (d : Dev) (o i : Nat) (b : Bool) : (d.setRb o i b).pins = d.pins := (rfl)
@[simp] theorem Dev.setRb_free (d : Dev) (o i : Nat) (b : Bool) : (d.setRb o i b).free = d.free := (rfl)
@[simp] theorem Dev.setRb_resp (d : Dev) (o i : Nat) (b : Bool) : (d.setRb o i b).resp = d.resp := (rfl)
@[simp] theorem Dev.thr_setRb (d : Dev) (o i : Nat) (b : Bool) (p : Nat) : (d.setRb o i b).thr p = d.thr p := (rfl)
@[simp] theorem Dev.txn_setRb (d : Dev) (o i : Nat) (b : Bool) (p : Nat) : (d.setRb o i b).txn p = d.txn p := (rfl)
@[simp] theorem Dev.dom_setRb (d : Dev) (o i : Nat) (b : Bool) (p : Nat) : (d.setRb o i b).dom p = d.dom p := (rfl)
@[simp] theorem Dev.tok_setRb (d : Dev) (o i : Nat) (b : Bool) (p : Nat) : (d.setRb o i b).tok p = d.tok p := (rfl)
@[simp] theorem Dev.memGet_setRb (d : Dev) (o i : Nat) (b : Bool) (p : Nat) : (d.setRb o i b).memGet p = d.memGet p := (rfl)

@[simp] theorem Dev.bump_hold (d : Dev) (o n : Nat) : (d.bump o n).hold = d.hold := (rfl)
@[simp] theorem Dev.bump_mem (d : Dev) (o n : Nat) : (d.bump o n).mem = d.mem := (rfl)
@[simp] theorem Dev.bump_krv (d : Dev) (o n : Nat) : (d.bump o n).krv = d.krv := (rfl)
@[simp] theorem Dev.bump_esl (d : Dev) (o n : Nat) : (d.bump o n).esl = d.esl := (rfl)
@[simp] theorem Dev.bump_brs (d : Dev) (o n : Nat) : (d.bump o n).brs = d.brs := (rfl)
@[simp] theorem Dev.bump_vrn (d : Dev) (o n : Nat) : (d.bump o n).vrn = d.vrn := (rfl)
@[simp] theorem Dev.bump_prs (d : Dev) (o n : Nat) : (d.bump o n).prs = d.prs := (rfl)
@[simp] theorem Dev.bump_pal (d : Dev) (o n : Nat) : (d.bump o n).pal = d.pal := (rfl)
@[simp] theorem Dev.bump_lku (d : Dev) (o n : Nat) : (d.bump o n).lku = d.lku := (rfl)
@[simp] theorem Dev.bump_mtr (d : Dev) (o n : Nat) : (d.bump o n).mtr = d.mtr := (rfl)
@[simp] theorem Dev.bump_tmg (d : Dev) (o n : Nat) : (d.bump o n).tmg = d.tmg := (rfl)
@[simp] theorem Dev.bump_hst (d : Dev) (o n : Nat) : (d.bump o n).hst = d.hst := (rfl)
@[simp] theorem Dev.bump_pwr (d : Dev) (o n : Nat) : (d.bump o n).pwr = d.pwr := (rfl)
@[simp] theorem Dev.bump_flt (d : Dev) (o n : Nat) : (d.bump o n).flt = d.flt := (rfl)
@[simp] theorem Dev.bump_drc (d : Dev) (o n : Nat) : (d.bump o n).drc = d.drc := (rfl)
@[simp] theorem Dev.bump_tca (d : Dev) (o n : Nat) : (d.bump o n).tca = d.tca := (rfl)
@[simp] theorem Dev.bump_fwd (d : Dev) (o n : Nat) : (d.bump o n).fwd = d.fwd := (rfl)
@[simp] theorem Dev.bump_stn (d : Dev) (o n : Nat) : (d.bump o n).stn = d.stn := (rfl)
@[simp] theorem Dev.bump_prt (d : Dev) (o n : Nat) : (d.bump o n).prt = d.prt := (rfl)
@[simp] theorem Dev.bump_prf (d : Dev) (o n : Nat) : (d.bump o n).prf = d.prf := (rfl)
@[simp] theorem Dev.bump_mgt (d : Dev) (o n : Nat) : (d.bump o n).mgt = d.mgt := (rfl)
@[simp] theorem Dev.bump_dbg (d : Dev) (o n : Nat) : (d.bump o n).dbg = d.dbg := (rfl)
@[simp] theorem Dev.bump_pins (d : Dev) (o n : Nat) : (d.bump o n).pins = d.pins := (rfl)
@[simp] theorem Dev.bump_free (d : Dev) (o n : Nat) : (d.bump o n).free = d.free := (rfl)
@[simp] theorem Dev.bump_resp (d : Dev) (o n : Nat) : (d.bump o n).resp = d.resp := (rfl)
@[simp] theorem Dev.thr_bump (d : Dev) (o n : Nat) (p : Nat) : (d.bump o n).thr p = d.thr p := (rfl)
@[simp] theorem Dev.txn_bump (d : Dev) (o n : Nat) (p : Nat) : (d.bump o n).txn p = d.txn p := (rfl)
@[simp] theorem Dev.dom_bump (d : Dev) (o n : Nat) (p : Nat) : (d.bump o n).dom p = d.dom p := (rfl)
@[simp] theorem Dev.tok_bump (d : Dev) (o n : Nat) (p : Nat) : (d.bump o n).tok p = d.tok p := (rfl)
@[simp] theorem Dev.memGet_bump (d : Dev) (o n : Nat) (p : Nat) : (d.bump o n).memGet p = d.memGet p := (rfl)

@[simp] theorem Dev.bumpSat_hold (d : Dev) (o w n : Nat) : (d.bumpSat o w n).hold = d.hold := (rfl)
@[simp] theorem Dev.bumpSat_mem (d : Dev) (o w n : Nat) : (d.bumpSat o w n).mem = d.mem := (rfl)
@[simp] theorem Dev.bumpSat_krv (d : Dev) (o w n : Nat) : (d.bumpSat o w n).krv = d.krv := (rfl)
@[simp] theorem Dev.bumpSat_esl (d : Dev) (o w n : Nat) : (d.bumpSat o w n).esl = d.esl := (rfl)
@[simp] theorem Dev.bumpSat_brs (d : Dev) (o w n : Nat) : (d.bumpSat o w n).brs = d.brs := (rfl)
@[simp] theorem Dev.bumpSat_vrn (d : Dev) (o w n : Nat) : (d.bumpSat o w n).vrn = d.vrn := (rfl)
@[simp] theorem Dev.bumpSat_prs (d : Dev) (o w n : Nat) : (d.bumpSat o w n).prs = d.prs := (rfl)
@[simp] theorem Dev.bumpSat_pal (d : Dev) (o w n : Nat) : (d.bumpSat o w n).pal = d.pal := (rfl)
@[simp] theorem Dev.bumpSat_lku (d : Dev) (o w n : Nat) : (d.bumpSat o w n).lku = d.lku := (rfl)
@[simp] theorem Dev.bumpSat_mtr (d : Dev) (o w n : Nat) : (d.bumpSat o w n).mtr = d.mtr := (rfl)
@[simp] theorem Dev.bumpSat_tmg (d : Dev) (o w n : Nat) : (d.bumpSat o w n).tmg = d.tmg := (rfl)
@[simp] theorem Dev.bumpSat_hst (d : Dev) (o w n : Nat) : (d.bumpSat o w n).hst = d.hst := (rfl)
@[simp] theorem Dev.bumpSat_pwr (d : Dev) (o w n : Nat) : (d.bumpSat o w n).pwr = d.pwr := (rfl)
@[simp] theorem Dev.bumpSat_flt (d : Dev) (o w n : Nat) : (d.bumpSat o w n).flt = d.flt := (rfl)
@[simp] theorem Dev.bumpSat_drc (d : Dev) (o w n : Nat) : (d.bumpSat o w n).drc = d.drc := (rfl)
@[simp] theorem Dev.bumpSat_tca (d : Dev) (o w n : Nat) : (d.bumpSat o w n).tca = d.tca := (rfl)
@[simp] theorem Dev.bumpSat_fwd (d : Dev) (o w n : Nat) : (d.bumpSat o w n).fwd = d.fwd := (rfl)
@[simp] theorem Dev.bumpSat_stn (d : Dev) (o w n : Nat) : (d.bumpSat o w n).stn = d.stn := (rfl)
@[simp] theorem Dev.bumpSat_prt (d : Dev) (o w n : Nat) : (d.bumpSat o w n).prt = d.prt := (rfl)
@[simp] theorem Dev.bumpSat_prf (d : Dev) (o w n : Nat) : (d.bumpSat o w n).prf = d.prf := (rfl)
@[simp] theorem Dev.bumpSat_mgt (d : Dev) (o w n : Nat) : (d.bumpSat o w n).mgt = d.mgt := (rfl)
@[simp] theorem Dev.bumpSat_dbg (d : Dev) (o w n : Nat) : (d.bumpSat o w n).dbg = d.dbg := (rfl)
@[simp] theorem Dev.bumpSat_pins (d : Dev) (o w n : Nat) : (d.bumpSat o w n).pins = d.pins := (rfl)
@[simp] theorem Dev.bumpSat_free (d : Dev) (o w n : Nat) : (d.bumpSat o w n).free = d.free := (rfl)
@[simp] theorem Dev.bumpSat_resp (d : Dev) (o w n : Nat) : (d.bumpSat o w n).resp = d.resp := (rfl)
@[simp] theorem Dev.thr_bumpSat (d : Dev) (o w n : Nat) (p : Nat) : (d.bumpSat o w n).thr p = d.thr p := (rfl)
@[simp] theorem Dev.txn_bumpSat (d : Dev) (o w n : Nat) (p : Nat) : (d.bumpSat o w n).txn p = d.txn p := (rfl)
@[simp] theorem Dev.dom_bumpSat (d : Dev) (o w n : Nat) (p : Nat) : (d.bumpSat o w n).dom p = d.dom p := (rfl)
@[simp] theorem Dev.tok_bumpSat (d : Dev) (o w n : Nat) (p : Nat) : (d.bumpSat o w n).tok p = d.tok p := (rfl)
@[simp] theorem Dev.memGet_bumpSat (d : Dev) (o w n : Nat) (p : Nat) : (d.bumpSat o w n).memGet p = d.memGet p := (rfl)

@[simp] theorem Dev.bump64_hold (d : Dev) (o n : Nat) : (d.bump64 o n).hold = d.hold := (rfl)
@[simp] theorem Dev.bump64_mem (d : Dev) (o n : Nat) : (d.bump64 o n).mem = d.mem := (rfl)
@[simp] theorem Dev.bump64_krv (d : Dev) (o n : Nat) : (d.bump64 o n).krv = d.krv := (rfl)
@[simp] theorem Dev.bump64_esl (d : Dev) (o n : Nat) : (d.bump64 o n).esl = d.esl := (rfl)
@[simp] theorem Dev.bump64_brs (d : Dev) (o n : Nat) : (d.bump64 o n).brs = d.brs := (rfl)
@[simp] theorem Dev.bump64_vrn (d : Dev) (o n : Nat) : (d.bump64 o n).vrn = d.vrn := (rfl)
@[simp] theorem Dev.bump64_prs (d : Dev) (o n : Nat) : (d.bump64 o n).prs = d.prs := (rfl)
@[simp] theorem Dev.bump64_pal (d : Dev) (o n : Nat) : (d.bump64 o n).pal = d.pal := (rfl)
@[simp] theorem Dev.bump64_lku (d : Dev) (o n : Nat) : (d.bump64 o n).lku = d.lku := (rfl)
@[simp] theorem Dev.bump64_mtr (d : Dev) (o n : Nat) : (d.bump64 o n).mtr = d.mtr := (rfl)
@[simp] theorem Dev.bump64_tmg (d : Dev) (o n : Nat) : (d.bump64 o n).tmg = d.tmg := (rfl)
@[simp] theorem Dev.bump64_hst (d : Dev) (o n : Nat) : (d.bump64 o n).hst = d.hst := (rfl)
@[simp] theorem Dev.bump64_pwr (d : Dev) (o n : Nat) : (d.bump64 o n).pwr = d.pwr := (rfl)
@[simp] theorem Dev.bump64_flt (d : Dev) (o n : Nat) : (d.bump64 o n).flt = d.flt := (rfl)
@[simp] theorem Dev.bump64_drc (d : Dev) (o n : Nat) : (d.bump64 o n).drc = d.drc := (rfl)
@[simp] theorem Dev.bump64_tca (d : Dev) (o n : Nat) : (d.bump64 o n).tca = d.tca := (rfl)
@[simp] theorem Dev.bump64_fwd (d : Dev) (o n : Nat) : (d.bump64 o n).fwd = d.fwd := (rfl)
@[simp] theorem Dev.bump64_stn (d : Dev) (o n : Nat) : (d.bump64 o n).stn = d.stn := (rfl)
@[simp] theorem Dev.bump64_prt (d : Dev) (o n : Nat) : (d.bump64 o n).prt = d.prt := (rfl)
@[simp] theorem Dev.bump64_prf (d : Dev) (o n : Nat) : (d.bump64 o n).prf = d.prf := (rfl)
@[simp] theorem Dev.bump64_mgt (d : Dev) (o n : Nat) : (d.bump64 o n).mgt = d.mgt := (rfl)
@[simp] theorem Dev.bump64_dbg (d : Dev) (o n : Nat) : (d.bump64 o n).dbg = d.dbg := (rfl)
@[simp] theorem Dev.bump64_pins (d : Dev) (o n : Nat) : (d.bump64 o n).pins = d.pins := (rfl)
@[simp] theorem Dev.bump64_free (d : Dev) (o n : Nat) : (d.bump64 o n).free = d.free := (rfl)
@[simp] theorem Dev.bump64_resp (d : Dev) (o n : Nat) : (d.bump64 o n).resp = d.resp := (rfl)
@[simp] theorem Dev.thr_bump64 (d : Dev) (o n : Nat) (p : Nat) : (d.bump64 o n).thr p = d.thr p := (rfl)
@[simp] theorem Dev.txn_bump64 (d : Dev) (o n : Nat) (p : Nat) : (d.bump64 o n).txn p = d.txn p := (rfl)
@[simp] theorem Dev.dom_bump64 (d : Dev) (o n : Nat) (p : Nat) : (d.bump64 o n).dom p = d.dom p := (rfl)
@[simp] theorem Dev.tok_bump64 (d : Dev) (o n : Nat) (p : Nat) : (d.bump64 o n).tok p = d.tok p := (rfl)
@[simp] theorem Dev.memGet_bump64 (d : Dev) (o n : Nat) (p : Nat) : (d.bump64 o n).memGet p = d.memGet p := (rfl)

@[simp] theorem Dev.raise_regs (d : Dev) (c x : Nat) : (d.raise c x).regs = d.regs := (rfl)
@[simp] theorem Dev.raise_hold (d : Dev) (c x : Nat) : (d.raise c x).hold = d.hold := (rfl)
@[simp] theorem Dev.raise_mem (d : Dev) (c x : Nat) : (d.raise c x).mem = d.mem := (rfl)
@[simp] theorem Dev.raise_krv (d : Dev) (c x : Nat) : (d.raise c x).krv = d.krv := (rfl)
@[simp] theorem Dev.raise_esl (d : Dev) (c x : Nat) : (d.raise c x).esl = d.esl := (rfl)
@[simp] theorem Dev.raise_brs (d : Dev) (c x : Nat) : (d.raise c x).brs = d.brs := (rfl)
@[simp] theorem Dev.raise_vrn (d : Dev) (c x : Nat) : (d.raise c x).vrn = d.vrn := (rfl)
@[simp] theorem Dev.raise_prs (d : Dev) (c x : Nat) : (d.raise c x).prs = d.prs := (rfl)
@[simp] theorem Dev.raise_pal (d : Dev) (c x : Nat) : (d.raise c x).pal = d.pal := (rfl)
@[simp] theorem Dev.raise_lku (d : Dev) (c x : Nat) : (d.raise c x).lku = d.lku := (rfl)
@[simp] theorem Dev.raise_mtr (d : Dev) (c x : Nat) : (d.raise c x).mtr = d.mtr := (rfl)
@[simp] theorem Dev.raise_tmg (d : Dev) (c x : Nat) : (d.raise c x).tmg = d.tmg := (rfl)
@[simp] theorem Dev.raise_hst (d : Dev) (c x : Nat) : (d.raise c x).hst = d.hst := (rfl)
@[simp] theorem Dev.raise_pwr (d : Dev) (c x : Nat) : (d.raise c x).pwr = d.pwr := (rfl)
@[simp] theorem Dev.raise_drc (d : Dev) (c x : Nat) : (d.raise c x).drc = d.drc := (rfl)
@[simp] theorem Dev.raise_tca (d : Dev) (c x : Nat) : (d.raise c x).tca = d.tca := (rfl)
@[simp] theorem Dev.raise_fwd (d : Dev) (c x : Nat) : (d.raise c x).fwd = d.fwd := (rfl)
@[simp] theorem Dev.raise_stn (d : Dev) (c x : Nat) : (d.raise c x).stn = d.stn := (rfl)
@[simp] theorem Dev.raise_prt (d : Dev) (c x : Nat) : (d.raise c x).prt = d.prt := (rfl)
@[simp] theorem Dev.raise_prf (d : Dev) (c x : Nat) : (d.raise c x).prf = d.prf := (rfl)
@[simp] theorem Dev.raise_mgt (d : Dev) (c x : Nat) : (d.raise c x).mgt = d.mgt := (rfl)
@[simp] theorem Dev.raise_dbg (d : Dev) (c x : Nat) : (d.raise c x).dbg = d.dbg := (rfl)
@[simp] theorem Dev.raise_pins (d : Dev) (c x : Nat) : (d.raise c x).pins = d.pins := (rfl)
@[simp] theorem Dev.raise_free (d : Dev) (c x : Nat) : (d.raise c x).free = d.free := (rfl)
@[simp] theorem Dev.raise_resp (d : Dev) (c x : Nat) : (d.raise c x).resp = d.resp := (rfl)
@[simp] theorem Dev.reg_raise (d : Dev) (c x : Nat) (p : Nat) : (d.raise c x).reg p = d.reg p := (rfl)
@[simp] theorem Dev.thr_raise (d : Dev) (c x : Nat) (p : Nat) : (d.raise c x).thr p = d.thr p := (rfl)
@[simp] theorem Dev.txn_raise (d : Dev) (c x : Nat) (p : Nat) : (d.raise c x).txn p = d.txn p := (rfl)
@[simp] theorem Dev.dom_raise (d : Dev) (c x : Nat) (p : Nat) : (d.raise c x).dom p = d.dom p := (rfl)
@[simp] theorem Dev.tok_raise (d : Dev) (c x : Nat) (p : Nat) : (d.raise c x).tok p = d.tok p := (rfl)
@[simp] theorem Dev.memGet_raise (d : Dev) (c x : Nat) (p : Nat) : (d.raise c x).memGet p = d.memGet p := (rfl)
@[simp] theorem Dev.rf_raise (d : Dev) (c x : Nat) (p h l : Nat) : (d.raise c x).rf p h l = d.rf p h l := (rfl)
@[simp] theorem Dev.rb_raise (d : Dev) (c x : Nat) (p j : Nat) : (d.raise c x).rb p j = d.rb p j := (rfl)

@[simp] theorem Dev.setThr_regs (d : Dev) (t : Nat) (x : Thread) : (d.setThr t x).regs = d.regs := (rfl)
@[simp] theorem Dev.setThr_hold (d : Dev) (t : Nat) (x : Thread) : (d.setThr t x).hold = d.hold := (rfl)
@[simp] theorem Dev.setThr_mem (d : Dev) (t : Nat) (x : Thread) : (d.setThr t x).mem = d.mem := (rfl)
@[simp] theorem Dev.setThr_esl (d : Dev) (t : Nat) (x : Thread) : (d.setThr t x).esl = d.esl := (rfl)
@[simp] theorem Dev.setThr_brs (d : Dev) (t : Nat) (x : Thread) : (d.setThr t x).brs = d.brs := (rfl)
@[simp] theorem Dev.setThr_vrn (d : Dev) (t : Nat) (x : Thread) : (d.setThr t x).vrn = d.vrn := (rfl)
@[simp] theorem Dev.setThr_prs (d : Dev) (t : Nat) (x : Thread) : (d.setThr t x).prs = d.prs := (rfl)
@[simp] theorem Dev.setThr_pal (d : Dev) (t : Nat) (x : Thread) : (d.setThr t x).pal = d.pal := (rfl)
@[simp] theorem Dev.setThr_lku (d : Dev) (t : Nat) (x : Thread) : (d.setThr t x).lku = d.lku := (rfl)
@[simp] theorem Dev.setThr_mtr (d : Dev) (t : Nat) (x : Thread) : (d.setThr t x).mtr = d.mtr := (rfl)
@[simp] theorem Dev.setThr_tmg (d : Dev) (t : Nat) (x : Thread) : (d.setThr t x).tmg = d.tmg := (rfl)
@[simp] theorem Dev.setThr_hst (d : Dev) (t : Nat) (x : Thread) : (d.setThr t x).hst = d.hst := (rfl)
@[simp] theorem Dev.setThr_pwr (d : Dev) (t : Nat) (x : Thread) : (d.setThr t x).pwr = d.pwr := (rfl)
@[simp] theorem Dev.setThr_flt (d : Dev) (t : Nat) (x : Thread) : (d.setThr t x).flt = d.flt := (rfl)
@[simp] theorem Dev.setThr_drc (d : Dev) (t : Nat) (x : Thread) : (d.setThr t x).drc = d.drc := (rfl)
@[simp] theorem Dev.setThr_tca (d : Dev) (t : Nat) (x : Thread) : (d.setThr t x).tca = d.tca := (rfl)
@[simp] theorem Dev.setThr_fwd (d : Dev) (t : Nat) (x : Thread) : (d.setThr t x).fwd = d.fwd := (rfl)
@[simp] theorem Dev.setThr_stn (d : Dev) (t : Nat) (x : Thread) : (d.setThr t x).stn = d.stn := (rfl)
@[simp] theorem Dev.setThr_prt (d : Dev) (t : Nat) (x : Thread) : (d.setThr t x).prt = d.prt := (rfl)
@[simp] theorem Dev.setThr_prf (d : Dev) (t : Nat) (x : Thread) : (d.setThr t x).prf = d.prf := (rfl)
@[simp] theorem Dev.setThr_mgt (d : Dev) (t : Nat) (x : Thread) : (d.setThr t x).mgt = d.mgt := (rfl)
@[simp] theorem Dev.setThr_dbg (d : Dev) (t : Nat) (x : Thread) : (d.setThr t x).dbg = d.dbg := (rfl)
@[simp] theorem Dev.setThr_pins (d : Dev) (t : Nat) (x : Thread) : (d.setThr t x).pins = d.pins := (rfl)
@[simp] theorem Dev.setThr_free (d : Dev) (t : Nat) (x : Thread) : (d.setThr t x).free = d.free := (rfl)
@[simp] theorem Dev.setThr_resp (d : Dev) (t : Nat) (x : Thread) : (d.setThr t x).resp = d.resp := (rfl)
@[simp] theorem Dev.reg_setThr (d : Dev) (t : Nat) (x : Thread) (p : Nat) : (d.setThr t x).reg p = d.reg p := (rfl)
@[simp] theorem Dev.txn_setThr (d : Dev) (t : Nat) (x : Thread) (p : Nat) : (d.setThr t x).txn p = d.txn p := (rfl)
@[simp] theorem Dev.dom_setThr (d : Dev) (t : Nat) (x : Thread) (p : Nat) : (d.setThr t x).dom p = d.dom p := (rfl)
@[simp] theorem Dev.tok_setThr (d : Dev) (t : Nat) (x : Thread) (p : Nat) : (d.setThr t x).tok p = d.tok p := (rfl)
@[simp] theorem Dev.memGet_setThr (d : Dev) (t : Nat) (x : Thread) (p : Nat) : (d.setThr t x).memGet p = d.memGet p := (rfl)
@[simp] theorem Dev.rf_setThr (d : Dev) (t : Nat) (x : Thread) (p h l : Nat) : (d.setThr t x).rf p h l = d.rf p h l := (rfl)
@[simp] theorem Dev.rb_setThr (d : Dev) (t : Nat) (x : Thread) (p j : Nat) : (d.setThr t x).rb p j = d.rb p j := (rfl)

@[simp] theorem Dev.updThr_regs (d : Dev) (t : Nat) (f : Thread → Thread) : (d.updThr t f).regs = d.regs := (rfl)
@[simp] theorem Dev.updThr_hold (d : Dev) (t : Nat) (f : Thread → Thread) : (d.updThr t f).hold = d.hold := (rfl)
@[simp] theorem Dev.updThr_mem (d : Dev) (t : Nat) (f : Thread → Thread) : (d.updThr t f).mem = d.mem := (rfl)
@[simp] theorem Dev.updThr_esl (d : Dev) (t : Nat) (f : Thread → Thread) : (d.updThr t f).esl = d.esl := (rfl)
@[simp] theorem Dev.updThr_brs (d : Dev) (t : Nat) (f : Thread → Thread) : (d.updThr t f).brs = d.brs := (rfl)
@[simp] theorem Dev.updThr_vrn (d : Dev) (t : Nat) (f : Thread → Thread) : (d.updThr t f).vrn = d.vrn := (rfl)
@[simp] theorem Dev.updThr_prs (d : Dev) (t : Nat) (f : Thread → Thread) : (d.updThr t f).prs = d.prs := (rfl)
@[simp] theorem Dev.updThr_pal (d : Dev) (t : Nat) (f : Thread → Thread) : (d.updThr t f).pal = d.pal := (rfl)
@[simp] theorem Dev.updThr_lku (d : Dev) (t : Nat) (f : Thread → Thread) : (d.updThr t f).lku = d.lku := (rfl)
@[simp] theorem Dev.updThr_mtr (d : Dev) (t : Nat) (f : Thread → Thread) : (d.updThr t f).mtr = d.mtr := (rfl)
@[simp] theorem Dev.updThr_tmg (d : Dev) (t : Nat) (f : Thread → Thread) : (d.updThr t f).tmg = d.tmg := (rfl)
@[simp] theorem Dev.updThr_hst (d : Dev) (t : Nat) (f : Thread → Thread) : (d.updThr t f).hst = d.hst := (rfl)
@[simp] theorem Dev.updThr_pwr (d : Dev) (t : Nat) (f : Thread → Thread) : (d.updThr t f).pwr = d.pwr := (rfl)
@[simp] theorem Dev.updThr_flt (d : Dev) (t : Nat) (f : Thread → Thread) : (d.updThr t f).flt = d.flt := (rfl)
@[simp] theorem Dev.updThr_drc (d : Dev) (t : Nat) (f : Thread → Thread) : (d.updThr t f).drc = d.drc := (rfl)
@[simp] theorem Dev.updThr_tca (d : Dev) (t : Nat) (f : Thread → Thread) : (d.updThr t f).tca = d.tca := (rfl)
@[simp] theorem Dev.updThr_fwd (d : Dev) (t : Nat) (f : Thread → Thread) : (d.updThr t f).fwd = d.fwd := (rfl)
@[simp] theorem Dev.updThr_stn (d : Dev) (t : Nat) (f : Thread → Thread) : (d.updThr t f).stn = d.stn := (rfl)
@[simp] theorem Dev.updThr_prt (d : Dev) (t : Nat) (f : Thread → Thread) : (d.updThr t f).prt = d.prt := (rfl)
@[simp] theorem Dev.updThr_prf (d : Dev) (t : Nat) (f : Thread → Thread) : (d.updThr t f).prf = d.prf := (rfl)
@[simp] theorem Dev.updThr_mgt (d : Dev) (t : Nat) (f : Thread → Thread) : (d.updThr t f).mgt = d.mgt := (rfl)
@[simp] theorem Dev.updThr_dbg (d : Dev) (t : Nat) (f : Thread → Thread) : (d.updThr t f).dbg = d.dbg := (rfl)
@[simp] theorem Dev.updThr_pins (d : Dev) (t : Nat) (f : Thread → Thread) : (d.updThr t f).pins = d.pins := (rfl)
@[simp] theorem Dev.updThr_free (d : Dev) (t : Nat) (f : Thread → Thread) : (d.updThr t f).free = d.free := (rfl)
@[simp] theorem Dev.updThr_resp (d : Dev) (t : Nat) (f : Thread → Thread) : (d.updThr t f).resp = d.resp := (rfl)
@[simp] theorem Dev.reg_updThr (d : Dev) (t : Nat) (f : Thread → Thread) (p : Nat) : (d.updThr t f).reg p = d.reg p := (rfl)
@[simp] theorem Dev.txn_updThr (d : Dev) (t : Nat) (f : Thread → Thread) (p : Nat) : (d.updThr t f).txn p = d.txn p := (rfl)
@[simp] theorem Dev.dom_updThr (d : Dev) (t : Nat) (f : Thread → Thread) (p : Nat) : (d.updThr t f).dom p = d.dom p := (rfl)
@[simp] theorem Dev.tok_updThr (d : Dev) (t : Nat) (f : Thread → Thread) (p : Nat) : (d.updThr t f).tok p = d.tok p := (rfl)
@[simp] theorem Dev.memGet_updThr (d : Dev) (t : Nat) (f : Thread → Thread) (p : Nat) : (d.updThr t f).memGet p = d.memGet p := (rfl)
@[simp] theorem Dev.rf_updThr (d : Dev) (t : Nat) (f : Thread → Thread) (p h l : Nat) : (d.updThr t f).rf p h l = d.rf p h l := (rfl)
@[simp] theorem Dev.rb_updThr (d : Dev) (t : Nat) (f : Thread → Thread) (p j : Nat) : (d.updThr t f).rb p j = d.rb p j := (rfl)

@[simp] theorem Dev.setTxn_regs (d : Dev) (k : Nat) (x : Txn) : (d.setTxn k x).regs = d.regs := (rfl)
@[simp] theorem Dev.setTxn_hold (d : Dev) (k : Nat) (x : Txn) : (d.setTxn k x).hold = d.hold := (rfl)
@[simp] theorem Dev.setTxn_mem (d : Dev) (k : Nat) (x : Txn) : (d.setTxn k x).mem = d.mem := (rfl)
@[simp] theorem Dev.setTxn_krv (d : Dev) (k : Nat) (x : Txn) : (d.setTxn k x).krv = d.krv := (rfl)
@[simp] theorem Dev.setTxn_esl (d : Dev) (k : Nat) (x : Txn) : (d.setTxn k x).esl = d.esl := (rfl)
@[simp] theorem Dev.setTxn_brs (d : Dev) (k : Nat) (x : Txn) : (d.setTxn k x).brs = d.brs := (rfl)
@[simp] theorem Dev.setTxn_prs (d : Dev) (k : Nat) (x : Txn) : (d.setTxn k x).prs = d.prs := (rfl)
@[simp] theorem Dev.setTxn_pal (d : Dev) (k : Nat) (x : Txn) : (d.setTxn k x).pal = d.pal := (rfl)
@[simp] theorem Dev.setTxn_lku (d : Dev) (k : Nat) (x : Txn) : (d.setTxn k x).lku = d.lku := (rfl)
@[simp] theorem Dev.setTxn_mtr (d : Dev) (k : Nat) (x : Txn) : (d.setTxn k x).mtr = d.mtr := (rfl)
@[simp] theorem Dev.setTxn_tmg (d : Dev) (k : Nat) (x : Txn) : (d.setTxn k x).tmg = d.tmg := (rfl)
@[simp] theorem Dev.setTxn_hst (d : Dev) (k : Nat) (x : Txn) : (d.setTxn k x).hst = d.hst := (rfl)
@[simp] theorem Dev.setTxn_pwr (d : Dev) (k : Nat) (x : Txn) : (d.setTxn k x).pwr = d.pwr := (rfl)
@[simp] theorem Dev.setTxn_flt (d : Dev) (k : Nat) (x : Txn) : (d.setTxn k x).flt = d.flt := (rfl)
@[simp] theorem Dev.setTxn_drc (d : Dev) (k : Nat) (x : Txn) : (d.setTxn k x).drc = d.drc := (rfl)
@[simp] theorem Dev.setTxn_tca (d : Dev) (k : Nat) (x : Txn) : (d.setTxn k x).tca = d.tca := (rfl)
@[simp] theorem Dev.setTxn_fwd (d : Dev) (k : Nat) (x : Txn) : (d.setTxn k x).fwd = d.fwd := (rfl)
@[simp] theorem Dev.setTxn_stn (d : Dev) (k : Nat) (x : Txn) : (d.setTxn k x).stn = d.stn := (rfl)
@[simp] theorem Dev.setTxn_prt (d : Dev) (k : Nat) (x : Txn) : (d.setTxn k x).prt = d.prt := (rfl)
@[simp] theorem Dev.setTxn_prf (d : Dev) (k : Nat) (x : Txn) : (d.setTxn k x).prf = d.prf := (rfl)
@[simp] theorem Dev.setTxn_mgt (d : Dev) (k : Nat) (x : Txn) : (d.setTxn k x).mgt = d.mgt := (rfl)
@[simp] theorem Dev.setTxn_dbg (d : Dev) (k : Nat) (x : Txn) : (d.setTxn k x).dbg = d.dbg := (rfl)
@[simp] theorem Dev.setTxn_pins (d : Dev) (k : Nat) (x : Txn) : (d.setTxn k x).pins = d.pins := (rfl)
@[simp] theorem Dev.setTxn_free (d : Dev) (k : Nat) (x : Txn) : (d.setTxn k x).free = d.free := (rfl)
@[simp] theorem Dev.setTxn_resp (d : Dev) (k : Nat) (x : Txn) : (d.setTxn k x).resp = d.resp := (rfl)
@[simp] theorem Dev.reg_setTxn (d : Dev) (k : Nat) (x : Txn) (p : Nat) : (d.setTxn k x).reg p = d.reg p := (rfl)
@[simp] theorem Dev.thr_setTxn (d : Dev) (k : Nat) (x : Txn) (p : Nat) : (d.setTxn k x).thr p = d.thr p := (rfl)
@[simp] theorem Dev.tok_setTxn (d : Dev) (k : Nat) (x : Txn) (p : Nat) : (d.setTxn k x).tok p = d.tok p := (rfl)
@[simp] theorem Dev.memGet_setTxn (d : Dev) (k : Nat) (x : Txn) (p : Nat) : (d.setTxn k x).memGet p = d.memGet p := (rfl)
@[simp] theorem Dev.rf_setTxn (d : Dev) (k : Nat) (x : Txn) (p h l : Nat) : (d.setTxn k x).rf p h l = d.rf p h l := (rfl)
@[simp] theorem Dev.rb_setTxn (d : Dev) (k : Nat) (x : Txn) (p j : Nat) : (d.setTxn k x).rb p j = d.rb p j := (rfl)

@[simp] theorem Dev.setDom_regs (d : Dev) (k : Nat) (x : Dom) : (d.setDom k x).regs = d.regs := (rfl)
@[simp] theorem Dev.setDom_hold (d : Dev) (k : Nat) (x : Dom) : (d.setDom k x).hold = d.hold := (rfl)
@[simp] theorem Dev.setDom_mem (d : Dev) (k : Nat) (x : Dom) : (d.setDom k x).mem = d.mem := (rfl)
@[simp] theorem Dev.setDom_krv (d : Dev) (k : Nat) (x : Dom) : (d.setDom k x).krv = d.krv := (rfl)
@[simp] theorem Dev.setDom_esl (d : Dev) (k : Nat) (x : Dom) : (d.setDom k x).esl = d.esl := (rfl)
@[simp] theorem Dev.setDom_brs (d : Dev) (k : Nat) (x : Dom) : (d.setDom k x).brs = d.brs := (rfl)
@[simp] theorem Dev.setDom_prs (d : Dev) (k : Nat) (x : Dom) : (d.setDom k x).prs = d.prs := (rfl)
@[simp] theorem Dev.setDom_pal (d : Dev) (k : Nat) (x : Dom) : (d.setDom k x).pal = d.pal := (rfl)
@[simp] theorem Dev.setDom_lku (d : Dev) (k : Nat) (x : Dom) : (d.setDom k x).lku = d.lku := (rfl)
@[simp] theorem Dev.setDom_mtr (d : Dev) (k : Nat) (x : Dom) : (d.setDom k x).mtr = d.mtr := (rfl)
@[simp] theorem Dev.setDom_tmg (d : Dev) (k : Nat) (x : Dom) : (d.setDom k x).tmg = d.tmg := (rfl)
@[simp] theorem Dev.setDom_hst (d : Dev) (k : Nat) (x : Dom) : (d.setDom k x).hst = d.hst := (rfl)
@[simp] theorem Dev.setDom_pwr (d : Dev) (k : Nat) (x : Dom) : (d.setDom k x).pwr = d.pwr := (rfl)
@[simp] theorem Dev.setDom_flt (d : Dev) (k : Nat) (x : Dom) : (d.setDom k x).flt = d.flt := (rfl)
@[simp] theorem Dev.setDom_drc (d : Dev) (k : Nat) (x : Dom) : (d.setDom k x).drc = d.drc := (rfl)
@[simp] theorem Dev.setDom_tca (d : Dev) (k : Nat) (x : Dom) : (d.setDom k x).tca = d.tca := (rfl)
@[simp] theorem Dev.setDom_fwd (d : Dev) (k : Nat) (x : Dom) : (d.setDom k x).fwd = d.fwd := (rfl)
@[simp] theorem Dev.setDom_stn (d : Dev) (k : Nat) (x : Dom) : (d.setDom k x).stn = d.stn := (rfl)
@[simp] theorem Dev.setDom_prt (d : Dev) (k : Nat) (x : Dom) : (d.setDom k x).prt = d.prt := (rfl)
@[simp] theorem Dev.setDom_prf (d : Dev) (k : Nat) (x : Dom) : (d.setDom k x).prf = d.prf := (rfl)
@[simp] theorem Dev.setDom_mgt (d : Dev) (k : Nat) (x : Dom) : (d.setDom k x).mgt = d.mgt := (rfl)
@[simp] theorem Dev.setDom_dbg (d : Dev) (k : Nat) (x : Dom) : (d.setDom k x).dbg = d.dbg := (rfl)
@[simp] theorem Dev.setDom_pins (d : Dev) (k : Nat) (x : Dom) : (d.setDom k x).pins = d.pins := (rfl)
@[simp] theorem Dev.setDom_free (d : Dev) (k : Nat) (x : Dom) : (d.setDom k x).free = d.free := (rfl)
@[simp] theorem Dev.setDom_resp (d : Dev) (k : Nat) (x : Dom) : (d.setDom k x).resp = d.resp := (rfl)
@[simp] theorem Dev.reg_setDom (d : Dev) (k : Nat) (x : Dom) (p : Nat) : (d.setDom k x).reg p = d.reg p := (rfl)
@[simp] theorem Dev.thr_setDom (d : Dev) (k : Nat) (x : Dom) (p : Nat) : (d.setDom k x).thr p = d.thr p := (rfl)
@[simp] theorem Dev.tok_setDom (d : Dev) (k : Nat) (x : Dom) (p : Nat) : (d.setDom k x).tok p = d.tok p := (rfl)
@[simp] theorem Dev.memGet_setDom (d : Dev) (k : Nat) (x : Dom) (p : Nat) : (d.setDom k x).memGet p = d.memGet p := (rfl)
@[simp] theorem Dev.rf_setDom (d : Dev) (k : Nat) (x : Dom) (p h l : Nat) : (d.setDom k x).rf p h l = d.rf p h l := (rfl)
@[simp] theorem Dev.rb_setDom (d : Dev) (k : Nat) (x : Dom) (p j : Nat) : (d.setDom k x).rb p j = d.rb p j := (rfl)

@[simp] theorem Dev.setTok_regs (d : Dev) (k : Nat) (x : Tok) : (d.setTok k x).regs = d.regs := (rfl)
@[simp] theorem Dev.setTok_hold (d : Dev) (k : Nat) (x : Tok) : (d.setTok k x).hold = d.hold := (rfl)
@[simp] theorem Dev.setTok_mem (d : Dev) (k : Nat) (x : Tok) : (d.setTok k x).mem = d.mem := (rfl)
@[simp] theorem Dev.setTok_krv (d : Dev) (k : Nat) (x : Tok) : (d.setTok k x).krv = d.krv := (rfl)
@[simp] theorem Dev.setTok_brs (d : Dev) (k : Nat) (x : Tok) : (d.setTok k x).brs = d.brs := (rfl)
@[simp] theorem Dev.setTok_vrn (d : Dev) (k : Nat) (x : Tok) : (d.setTok k x).vrn = d.vrn := (rfl)
@[simp] theorem Dev.setTok_prs (d : Dev) (k : Nat) (x : Tok) : (d.setTok k x).prs = d.prs := (rfl)
@[simp] theorem Dev.setTok_pal (d : Dev) (k : Nat) (x : Tok) : (d.setTok k x).pal = d.pal := (rfl)
@[simp] theorem Dev.setTok_lku (d : Dev) (k : Nat) (x : Tok) : (d.setTok k x).lku = d.lku := (rfl)
@[simp] theorem Dev.setTok_mtr (d : Dev) (k : Nat) (x : Tok) : (d.setTok k x).mtr = d.mtr := (rfl)
@[simp] theorem Dev.setTok_tmg (d : Dev) (k : Nat) (x : Tok) : (d.setTok k x).tmg = d.tmg := (rfl)
@[simp] theorem Dev.setTok_hst (d : Dev) (k : Nat) (x : Tok) : (d.setTok k x).hst = d.hst := (rfl)
@[simp] theorem Dev.setTok_pwr (d : Dev) (k : Nat) (x : Tok) : (d.setTok k x).pwr = d.pwr := (rfl)
@[simp] theorem Dev.setTok_flt (d : Dev) (k : Nat) (x : Tok) : (d.setTok k x).flt = d.flt := (rfl)
@[simp] theorem Dev.setTok_drc (d : Dev) (k : Nat) (x : Tok) : (d.setTok k x).drc = d.drc := (rfl)
@[simp] theorem Dev.setTok_tca (d : Dev) (k : Nat) (x : Tok) : (d.setTok k x).tca = d.tca := (rfl)
@[simp] theorem Dev.setTok_fwd (d : Dev) (k : Nat) (x : Tok) : (d.setTok k x).fwd = d.fwd := (rfl)
@[simp] theorem Dev.setTok_stn (d : Dev) (k : Nat) (x : Tok) : (d.setTok k x).stn = d.stn := (rfl)
@[simp] theorem Dev.setTok_prt (d : Dev) (k : Nat) (x : Tok) : (d.setTok k x).prt = d.prt := (rfl)
@[simp] theorem Dev.setTok_prf (d : Dev) (k : Nat) (x : Tok) : (d.setTok k x).prf = d.prf := (rfl)
@[simp] theorem Dev.setTok_mgt (d : Dev) (k : Nat) (x : Tok) : (d.setTok k x).mgt = d.mgt := (rfl)
@[simp] theorem Dev.setTok_dbg (d : Dev) (k : Nat) (x : Tok) : (d.setTok k x).dbg = d.dbg := (rfl)
@[simp] theorem Dev.setTok_pins (d : Dev) (k : Nat) (x : Tok) : (d.setTok k x).pins = d.pins := (rfl)
@[simp] theorem Dev.setTok_free (d : Dev) (k : Nat) (x : Tok) : (d.setTok k x).free = d.free := (rfl)
@[simp] theorem Dev.setTok_resp (d : Dev) (k : Nat) (x : Tok) : (d.setTok k x).resp = d.resp := (rfl)
@[simp] theorem Dev.reg_setTok (d : Dev) (k : Nat) (x : Tok) (p : Nat) : (d.setTok k x).reg p = d.reg p := (rfl)
@[simp] theorem Dev.thr_setTok (d : Dev) (k : Nat) (x : Tok) (p : Nat) : (d.setTok k x).thr p = d.thr p := (rfl)
@[simp] theorem Dev.txn_setTok (d : Dev) (k : Nat) (x : Tok) (p : Nat) : (d.setTok k x).txn p = d.txn p := (rfl)
@[simp] theorem Dev.dom_setTok (d : Dev) (k : Nat) (x : Tok) (p : Nat) : (d.setTok k x).dom p = d.dom p := (rfl)
@[simp] theorem Dev.memGet_setTok (d : Dev) (k : Nat) (x : Tok) (p : Nat) : (d.setTok k x).memGet p = d.memGet p := (rfl)
@[simp] theorem Dev.rf_setTok (d : Dev) (k : Nat) (x : Tok) (p h l : Nat) : (d.setTok k x).rf p h l = d.rf p h l := (rfl)
@[simp] theorem Dev.rb_setTok (d : Dev) (k : Nat) (x : Tok) (p j : Nat) : (d.setTok k x).rb p j = d.rb p j := (rfl)

@[simp] theorem Dev.memSet_regs (d : Dev) (a : Nat) (b : Byte) : (d.memSet a b).regs = d.regs := (rfl)
@[simp] theorem Dev.memSet_hold (d : Dev) (a : Nat) (b : Byte) : (d.memSet a b).hold = d.hold := (rfl)
@[simp] theorem Dev.memSet_krv (d : Dev) (a : Nat) (b : Byte) : (d.memSet a b).krv = d.krv := (rfl)
@[simp] theorem Dev.memSet_esl (d : Dev) (a : Nat) (b : Byte) : (d.memSet a b).esl = d.esl := (rfl)
@[simp] theorem Dev.memSet_brs (d : Dev) (a : Nat) (b : Byte) : (d.memSet a b).brs = d.brs := (rfl)
@[simp] theorem Dev.memSet_vrn (d : Dev) (a : Nat) (b : Byte) : (d.memSet a b).vrn = d.vrn := (rfl)
@[simp] theorem Dev.memSet_prs (d : Dev) (a : Nat) (b : Byte) : (d.memSet a b).prs = d.prs := (rfl)
@[simp] theorem Dev.memSet_pal (d : Dev) (a : Nat) (b : Byte) : (d.memSet a b).pal = d.pal := (rfl)
@[simp] theorem Dev.memSet_lku (d : Dev) (a : Nat) (b : Byte) : (d.memSet a b).lku = d.lku := (rfl)
@[simp] theorem Dev.memSet_mtr (d : Dev) (a : Nat) (b : Byte) : (d.memSet a b).mtr = d.mtr := (rfl)
@[simp] theorem Dev.memSet_tmg (d : Dev) (a : Nat) (b : Byte) : (d.memSet a b).tmg = d.tmg := (rfl)
@[simp] theorem Dev.memSet_hst (d : Dev) (a : Nat) (b : Byte) : (d.memSet a b).hst = d.hst := (rfl)
@[simp] theorem Dev.memSet_pwr (d : Dev) (a : Nat) (b : Byte) : (d.memSet a b).pwr = d.pwr := (rfl)
@[simp] theorem Dev.memSet_flt (d : Dev) (a : Nat) (b : Byte) : (d.memSet a b).flt = d.flt := (rfl)
@[simp] theorem Dev.memSet_drc (d : Dev) (a : Nat) (b : Byte) : (d.memSet a b).drc = d.drc := (rfl)
@[simp] theorem Dev.memSet_tca (d : Dev) (a : Nat) (b : Byte) : (d.memSet a b).tca = d.tca := (rfl)
@[simp] theorem Dev.memSet_fwd (d : Dev) (a : Nat) (b : Byte) : (d.memSet a b).fwd = d.fwd := (rfl)
@[simp] theorem Dev.memSet_stn (d : Dev) (a : Nat) (b : Byte) : (d.memSet a b).stn = d.stn := (rfl)
@[simp] theorem Dev.memSet_prt (d : Dev) (a : Nat) (b : Byte) : (d.memSet a b).prt = d.prt := (rfl)
@[simp] theorem Dev.memSet_prf (d : Dev) (a : Nat) (b : Byte) : (d.memSet a b).prf = d.prf := (rfl)
@[simp] theorem Dev.memSet_mgt (d : Dev) (a : Nat) (b : Byte) : (d.memSet a b).mgt = d.mgt := (rfl)
@[simp] theorem Dev.memSet_dbg (d : Dev) (a : Nat) (b : Byte) : (d.memSet a b).dbg = d.dbg := (rfl)
@[simp] theorem Dev.memSet_pins (d : Dev) (a : Nat) (b : Byte) : (d.memSet a b).pins = d.pins := (rfl)
@[simp] theorem Dev.memSet_free (d : Dev) (a : Nat) (b : Byte) : (d.memSet a b).free = d.free := (rfl)
@[simp] theorem Dev.memSet_resp (d : Dev) (a : Nat) (b : Byte) : (d.memSet a b).resp = d.resp := (rfl)
@[simp] theorem Dev.reg_memSet (d : Dev) (a : Nat) (b : Byte) (p : Nat) : (d.memSet a b).reg p = d.reg p := (rfl)
@[simp] theorem Dev.thr_memSet (d : Dev) (a : Nat) (b : Byte) (p : Nat) : (d.memSet a b).thr p = d.thr p := (rfl)
@[simp] theorem Dev.txn_memSet (d : Dev) (a : Nat) (b : Byte) (p : Nat) : (d.memSet a b).txn p = d.txn p := (rfl)
@[simp] theorem Dev.dom_memSet (d : Dev) (a : Nat) (b : Byte) (p : Nat) : (d.memSet a b).dom p = d.dom p := (rfl)
@[simp] theorem Dev.tok_memSet (d : Dev) (a : Nat) (b : Byte) (p : Nat) : (d.memSet a b).tok p = d.tok p := (rfl)
@[simp] theorem Dev.rf_memSet (d : Dev) (a : Nat) (b : Byte) (p h l : Nat) : (d.memSet a b).rf p h l = d.rf p h l := (rfl)
@[simp] theorem Dev.rb_memSet (d : Dev) (a : Nat) (b : Byte) (p j : Nat) : (d.memSet a b).rb p j = d.rb p j := (rfl)

end Sys2Proof.Machine
end

