-- ==== Sys2Proof/Laws/DramReads.lean ====
section
/-!
SUPPORT. What a read of DRAM that a step serves itself can change (R432, R459): registers, faults on their way and the
controller's state.
-/

namespace Sys2Proof.Machine

/-- A device that differs from another in registers, the DRAM controller and the faults only. -/
def dramOnly (d d' : Dev) : Prop := ∃ r c f, d' = { d with regs := r, drc := c, flt := { d.flt with inbox := f } }

theorem dramOnly_refl (d : Dev) : dramOnly d d := ⟨_, _, _, rfl⟩

theorem dramOnly_trans {a b c : Dev} (h : dramOnly a b) (k : dramOnly b c) : dramOnly a c := by
  obtain ⟨_, _, _, rfl⟩ := h
  obtain ⟨_, _, _, rfl⟩ := k
  exact ⟨_, _, _, rfl⟩

theorem dramOnly_setReg (d : Dev) (o : Nat) (v : Word) : dramOnly d (d.setReg o v) := ⟨_, _, _, rfl⟩

theorem dramOnly_bump (d : Dev) (o n : Nat) : dramOnly d (d.bump o n) := ⟨_, _, _, rfl⟩

theorem dramOnly_raise (d : Dev) (src x : Nat) : dramOnly d (d.raise src x) := ⟨_, _, _, rfl⟩

theorem dramOnly_drc (d : Dev) (c : Drc) : dramOnly d { d with drc := c } := ⟨_, _, _, rfl⟩

theorem dramCapture_only (d : Dev) (kind a : Nat) : dramOnly d (d.dramCapture kind a) := by
  unfold Dev.dramCapture
  split
  · exact ⟨_, _, _, rfl⟩
  · exact dramOnly_trans (dramOnly_trans (dramOnly_setReg _ _ _) (dramOnly_setReg _ _ _)) (dramOnly_setReg _ _ _)

theorem dramPoison_only (d : Dev) (kind a : Nat) : dramOnly d (d.dramPoison kind a) := by
  unfold Dev.dramPoison
  exact dramOnly_trans (dramOnly_trans (dramOnly_trans (dramOnly_trans (dramOnly_bump _ _ _) (dramOnly_bump _ _ _))
    (dramCapture_only _ _ _)) (dramOnly_raise _ _ _)) (dramOnly_drc _ _)

theorem dramRecover_only (d : Dev) (a : Nat) : dramOnly d (d.dramRecover a) := ⟨_, _, _, rfl⟩

theorem seeDram_only (d : Dev) (a n : Nat) : dramOnly d (d.seeDram a n) := by
  unfold Dev.seeDram
  split
  · exact dramOnly_refl d
  · refine foldl_inv _ (dramOnly d) (fun x e hx => dramOnly_trans hx ?_) _ _ (dramOnly_refl d)
    split
    · exact dramOnly_refl x
    · split
      · exact dramRecover_only x _
      · exact dramPoison_only x _ _

theorem dateUes_only (d : Dev) (now : Nat) : dramOnly d (d.dateUes now) := by
  unfold Dev.dateUes
  split
  · exact dramOnly_refl d
  · refine foldl_inv _ (dramOnly d) (fun x e hx => dramOnly_trans hx ?_) _ _ ⟨_, _, _, rfl⟩
    unfold Dev.raiseIf
    dsimp only
    split <;> exact ⟨_, _, _, rfl⟩

end Sys2Proof.Machine
end

