-- ==== Sys2Proof/Laws/Exec.lean ====
section
/-!
SUPPORT. What each command's meaning runs, one lemma per command, true by definition.
-/

namespace Sys2Proof.Machine

theorem exec_resetNRelease (boot : Nat) (s : State) :
    exec (.resetNRelease boot) s = runDev (isBootSel boot) (resetRelease boot) s := rfl

theorem exec_primerBoot (img0 : List Byte) (img1 : List Byte) (prf0 : List Byte × Bool) (prf1 : List Byte × Bool) (s : State) :
    exec (.primerBoot img0 img1 prf0 prf1) s = runIdn true (fun i => primerBootIdent s.clk.count img0 img1 prf0 prf1 s.dev i) (primerBootDev s.clk.count s.idn img0 img1 prf0 prf1) s := rfl

theorem exec_hostBootDmaDone (data : Option (List Byte × List Byte)) (s : State) :
    exec (.hostBootDmaDone data) s = runIdn true (fun i => hostDmaIdent s.clk.count data s.dev i) (hostDmaDev s.clk.count s.idn data) s := rfl

theorem exec_pciePerstNRelease (link : PcieLink) (s : State) :
    exec (.pciePerstNRelease link) s = runDev true (perstRelease link) s := rfl

theorem exec_hostLinkLoss (why : LinkLoss) (s : State) :
    exec (.hostLinkLoss why) s = runDev true (hostLinkLoss why) s := rfl

theorem exec_frameReceive (p : Nat) (frame : List Byte) (s : State) :
    exec (.frameReceive p frame) s = runDev (isMac p) (frameReceive s.clk.sec s.clk.nsec p frame) s := rfl

theorem exec_signalDetect (l : Nat) (s : State) :
    exec (.signalDetect l) s = runDev (isLane l) (signalDetect s.clk.count l) s := rfl

theorem exec_linkTrainingDone (p : Nat) (s : State) :
    exec (.linkTrainingDone p) s = runDev (isMac p) (linkTrainingDone s.clk.count p) s := rfl

theorem exec_portUp (p : Nat) (s : State) :
    exec (.portUp p) s = runDev (isMac p) (portUpEvent s.clk.count p) s := rfl

theorem exec_portBringupTimeout (p : Nat) (s : State) :
    exec (.portBringupTimeout p) s = runDev (isMac p) (portBringupTimeout s.clk.count p) s := rfl

theorem exec_portLinkDown (p : Nat) (why : LinkWhy) (s : State) :
    exec (.portLinkDown p why) s = runDev (isMac p) (portLinkDownEvent s.clk.count p why) s := rfl

theorem exec_transmitFrame (p : Nat) (s : State) :
    exec (.transmitFrame p) s = runDev (isMac p) (transmitFrame s.clk.sec s.clk.nsec s.clk.frac p) s := rfl

theorem exec_transmitDone (p : Nat) (s : State) :
    exec (.transmitDone p) s = runDev (isPort p) (transmitDone p) s := rfl

theorem exec_timeSet (r : Req) (s : State) :
    exec (.timeSet r) s = runClk true (fun c => if s.dev.pins.resetN then timeSetClock s.dev c else c) (Dev.live (timeSetDev r)) s := rfl

theorem exec_recirculationReentry (port : Nat) (s : State) :
    exec (.recirculationReentry port) s = runDev (isPort port) (recirculationReentry port) s := rfl

theorem exec_parserBankSwitch (bank : Nat) (s : State) :
    exec (.parserBankSwitch bank) s = runDev (isBank bank) (Dev.live (parserBankSwitch bank)) s := rfl

theorem exec_easelSelect (cl : Nat) (s : State) :
    exec (.easelSelect cl) s = runDev (isCluster cl) (easelSelect s.clk.count cl) s := rfl

theorem exec_preemptSave (t : Nat) (s : State) :
    exec (.preemptSave t) s = runDev (isClusterThread t) (preemptSave s.clk.count t) s := rfl

theorem exec_aluOp (t : Nat) (f : RFmt) (s : State) :
    exec (.aluOp t f) s = runDev (isThread t) (aluCmd t f) s := rfl

theorem exec_multiply (t : Nat) (f : RFmt) (s : State) :
    exec (.multiply t f) s = runDev (isThread t && decide (f.fn.toNat % 8 < 4)) (mulCmd t f) s := rfl

theorem exec_divide (t : Nat) (f : RFmt) (s : State) :
    exec (.divide t f) s = runDev (isThread t && decide (4 ≤ f.fn.toNat % 8)) (divCmd t f) s := rfl

theorem exec_addi (t : Nat) (f : IFmt) (s : State) :
    exec (.addi t f) s = runDev (isThread t) (immCmd t f (fun a => (a + IFmt.sext f, FlagW.keep))) s := rfl

theorem exec_andi (t : Nat) (f : IFmt) (s : State) :
    exec (.andi t f) s = runDev (isThread t) (immCmd t f (fun a => (a &&& IFmt.zext f, flagsNZ (a &&& IFmt.zext f)))) s := rfl

theorem exec_ori (t : Nat) (f : IFmt) (s : State) :
    exec (.ori t f) s = runDev (isThread t) (immCmd t f (fun a => (a ||| IFmt.zext f, FlagW.keep))) s := rfl

theorem exec_xori (t : Nat) (f : IFmt) (s : State) :
    exec (.xori t f) s = runDev (isThread t) (immCmd t f (fun a => (a ^^^ IFmt.zext f, FlagW.keep))) s := rfl

theorem exec_shifti (t : Nat) (f : IFmt) (s : State) :
    exec (.shifti t f) s = runDev (isThread t) (shiftiCmd t f) s := rfl

theorem exec_cmpi (t : Nat) (f : IFmt) (s : State) :
    exec (.cmpi t f) s = runDev (isThread t) (cmpiCmd t f) s := rfl

theorem exec_addis (t : Nat) (f : IFmt) (s : State) :
    exec (.addis t f) s = runDev (isThread t) (immCmd t f (fun a => addW a (IFmt.sext f) false)) s := rfl

theorem exec_lui (t : Nat) (rd : BitVec 5) (imm : BitVec 20) (s : State) :
    exec (.lui t rd imm) s = runDev (isThread t) (luiCmd t rd imm) s := rfl

theorem exec_bcc (t : Nat) (b24 : Bool) (cond : BitVec 4) (off : BitVec 20) (slot : Word) (s : State) :
    exec (.bcc t b24 cond off slot) s = runDev (isThread t) (bccCmd t b24 cond off slot) s := rfl

theorem exec_call (t : Nat) (off : BitVec 25) (slot : Word) (s : State) :
    exec (.call t off slot) s = runDev (isThread t) (callCmd t off slot) s := rfl

theorem exec_jr (t : Nat) (f : R3) (slot : Word) (s : State) :
    exec (.jr t f slot) s = runDev (isThread t) (jumpCmd t f false slot) s := rfl

theorem exec_callr (t : Nat) (f : R3) (slot : Word) (s : State) :
    exec (.callr t f slot) s = runDev (isThread t) (jumpCmd t f true slot) s := rfl

theorem exec_eret (t : Nat) (low : BitVec 25) (slot : Word) (s : State) :
    exec (.eret t low slot) s = runDev (isThread t) (eretCmd t low slot) s := rfl

theorem exec_sys (t : Nat) (f : IFmt) (s : State) :
    exec (.sys t f) s = runDev (isThread t) (sysCmd t f) s := rfl

theorem exec_bkpt (t : Nat) (low : BitVec 25) (s : State) :
    exec (.bkpt t low) s = runDev (isThread t) (bkptCmd t low) s := rfl

theorem exec_ldw (t : Nat) (f : IFmt) (s : State) :
    exec (.ldw t f) s = runDev (isThread t) (ldwCmd s.clk.count t s.idn f) s := rfl

theorem exec_ldh (t : Nat) (f : IFmt) (s : State) :
    exec (.ldh t f) s = runDev (isThread t) (ldhCmd s.clk.count t s.idn f) s := rfl

theorem exec_ldhu (t : Nat) (f : IFmt) (s : State) :
    exec (.ldhu t f) s = runDev (isThread t) (ldhuCmd s.clk.count t s.idn f) s := rfl

theorem exec_ldb (t : Nat) (f : IFmt) (s : State) :
    exec (.ldb t f) s = runDev (isThread t) (ldbCmd s.clk.count t s.idn f) s := rfl

theorem exec_ldbu (t : Nat) (f : IFmt) (s : State) :
    exec (.ldbu t f) s = runDev (isThread t) (ldbuCmd s.clk.count t s.idn f) s := rfl

theorem exec_stw (t : Nat) (f : IFmt) (s : State) :
    exec (.stw t f) s = runAll (isThread t) (fun c => storeClock false t f s.dev c) (fun i => storeIdent false t f s.dev i) (stwCmd t s.clk f) s := rfl

theorem exec_sth (t : Nat) (f : IFmt) (s : State) :
    exec (.sth t f) s = runDev (isThread t) (sthCmd t s.clk f) s := rfl

theorem exec_stb (t : Nat) (f : IFmt) (s : State) :
    exec (.stb t f) s = runDev (isThread t) (stbCmd t s.clk f) s := rfl

theorem exec_ldwPostinc (t : Nat) (f : IFmt) (s : State) :
    exec (.ldwPostinc t f) s = runDev (isThread t) (ldwPostCmd s.clk.count t s.idn f) s := rfl

theorem exec_stwPostinc (t : Nat) (f : IFmt) (s : State) :
    exec (.stwPostinc t f) s = runAll (isThread t) (fun c => storeClock true t f s.dev c) (fun i => storeIdent true t f s.dev i) (stwPostCmd t s.clk f) s := rfl

theorem exec_lkacq (t : Nat) (f : RFmt) (s : State) :
    exec (.lkacq t f) s = runDev (isThread t) (lkacqCmd t f) s := rfl

theorem exec_lkrel (t : Nat) (f : RFmt) (s : State) :
    exec (.lkrel t f) s = runDev (isThread t) (lkrelCmd t f) s := rfl

theorem exec_sync (t : Nat) (f : R3) (s : State) :
    exec (.sync t f) s = runDev (isThread t) (syncCmd t f) s := rfl

theorem exec_dinvl (t : Nat) (f : R3) (s : State) :
    exec (.dinvl t f) s = runDev (isThread t) (dinvlCmd t f) s := rfl

theorem exec_dinva (t : Nat) (f : R3) (s : State) :
    exec (.dinva t f) s = runDev (isThread t) (dinvaCmd t f) s := rfl

theorem exec_iinvl (t : Nat) (f : R3) (s : State) :
    exec (.iinvl t f) s = runDev (isThread t) (iinvlCmd t f) s := rfl

theorem exec_iinva (t : Nat) (f : R3) (s : State) :
    exec (.iinva t f) s = runDev (isThread t) (iinvaCmd t f) s := rfl

theorem exec_l2invl (t : Nat) (f : R3) (s : State) :
    exec (.l2invl t f) s = runDev (isThread t) (l2invlCmd t f) s := rfl

theorem exec_l2clnl (t : Nat) (f : R3) (s : State) :
    exec (.l2clnl t f) s = runDev (isThread t) (l2clnlCmd t f) s := rfl

theorem exec_l2flush (t : Nat) (f : R3) (s : State) :
    exec (.l2flush t f) s = runDev (isThread t) (l2flushCmd t f) s := rfl

theorem exec_thset (t : Nat) (f : RFmt) (s : State) :
    exec (.thset t f) s = runDev (isThread t) (thsetCmd t f) s := rfl

theorem exec_thget (t : Nat) (f : RFmt) (s : State) :
    exec (.thget t f) s = runDev (isThread t) (thgetCmd t f) s := rfl

theorem exec_thgo (t : Nat) (f : RFmt) (s : State) :
    exec (.thgo t f) s = runDev (isThread t) (thgoCmd t f) s := rfl

theorem exec_wt (t : Nat) (f : RFmt) (s : State) :
    exec (.wt t f) s = runDev (isThread t) (wtCmd s.clk.count t f) s := rfl

theorem exec_mfs (t : Nat) (f : RFmt) (s : State) :
    exec (.mfs t f) s = runDev (isThread t) (mfsCmd s.clk.count t f) s := rfl

theorem exec_mts (t : Nat) (f : RFmt) (s : State) :
    exec (.mts t f) s = runDev (isThread t) (mtsCmd t f) s := rfl

theorem exec_tcont (t : Nat) (f : RFmt) (s : State) :
    exec (.tcont t f) s = runDev (isThread t) (tcontCmd t f) s := rfl

theorem exec_vcommit (t : Nat) (low : BitVec 25) (s : State) :
    exec (.vcommit t low) s = runDev (isThread t) (vcommitCmd t low) s := rfl

theorem exec_vabort (t : Nat) (low : BitVec 25) (s : State) :
    exec (.vabort t low) s = runDev (isThread t) (vabortCmd t low) s := rfl

theorem exec_tend (t : Nat) (low : BitVec 25) (s : State) :
    exec (.tend t low) s = runDev (isThread t) (tendCmd t low) s := rfl

theorem exec_tlbinvAll (t : Nat) (f : R3) (s : State) :
    exec (.tlbinvAll t f) s = runDev (isThread t) (tlbinvAll t f) s := rfl

theorem exec_tlbinvPage (t : Nat) (f : R3) (s : State) :
    exec (.tlbinvPage t f) s = runDev (isThread t) (tlbinvPage t f) s := rfl

theorem exec_tlbinvAsid (t : Nat) (f : R3) (s : State) :
    exec (.tlbinvAsid t f) s = runDev (isThread t) (tlbinvAsid t f) s := rfl

theorem exec_tlbinvPageAsid (t : Nat) (f : R3) (s : State) :
    exec (.tlbinvPageAsid t f) s = runDev (isThread t) (tlbinvPageAsid t f) s := rfl

theorem exec_shortPair (t : Nat) (pair : BitVec 31) (s : State) :
    exec (.shortPair t pair) s = runDev (isThread t && !Machine.hasRep (Machine.pairWord pair)) (pairCmd t pair) s := rfl

theorem exec_rep (t : Nat) (pair : BitVec 31) (next : Word) (s : State) :
    exec (.rep t pair next) s = runDev (isThread t && Machine.hasRep (Machine.pairWord pair)) (repCmd t pair next) s := rfl

theorem exec_accessCheckComplete (t : Nat) (s : State) :
    exec (.accessCheckComplete t) s = runDev (isThread t) (accessCheckComplete s.clk.count t) s := rfl

theorem exec_loadDataReturn (t : Nat) (s : State) :
    exec (.loadDataReturn t) s = runDev (isThread t) (loadDataReturn t) s := rfl

theorem exec_icacheFillDone (t : Nat) (s : State) :
    exec (.icacheFillDone t) s = runDev (isThread t) (icacheFillDone s.clk.count t) s := rfl

theorem exec_atelierInterrupt (k : Nat) (line : Nat) (s : State) :
    exec (.atelierInterrupt k line) s = runDev (isAtlCore k && isIntLine line) (atelierInterrupt k line) s := rfl

theorem exec_waitDeadline (t : Nat) (s : State) :
    exec (.waitDeadline t) s = runDev (isThread t) (waitDeadline s.clk.count t) s := rfl

theorem exec_edpush (t : Nat) (f : R3) (s : State) :
    exec (.edpush t f) s = runDev (isThread t) (brushCmd s.clk.count t 0 0x0 f) s := rfl

theorem exec_edpop (t : Nat) (f : R3) (s : State) :
    exec (.edpop t f) s = runDev (isThread t) (brushCmd s.clk.count t 0 0x1 f) s := rfl

theorem exec_edrw (t : Nat) (f : R3) (s : State) :
    exec (.edrw t f) s = runDev (isThread t) (brushCmd s.clk.count t 0 0x2 f) s := rfl

theorem exec_lkup (t : Nat) (f : R3) (s : State) :
    exec (.lkup t f) s = runDev (isThread t) (brushCmd s.clk.count t 1 0x0 f) s := rfl

theorem exec_lkupl (t : Nat) (f : R3) (s : State) :
    exec (.lkupl t f) s = runDev (isThread t) (brushCmd s.clk.count t 1 0x1 f) s := rfl

theorem exec_hcrc (t : Nat) (f : R3) (s : State) :
    exec (.hcrc t f) s = runDev (isThread t) (brushCmd s.clk.count t 2 0x0 f) s := rfl

theorem exec_htpz (t : Nat) (f : R3) (s : State) :
    exec (.htpz t f) s = runDev (isThread t) (brushCmd s.clk.count t 2 0x1 f) s := rfl

theorem exec_hsum (t : Nat) (f : R3) (s : State) :
    exec (.hsum t f) s = runDev (isThread t) (brushCmd s.clk.count t 2 0x2 f) s := rfl

theorem exec_hsupd (t : Nat) (f : R3) (s : State) :
    exec (.hsupd t f) s = runDev (isThread t) (brushCmd s.clk.count t 2 0x3 f) s := rfl

theorem exec_mtr (t : Nat) (f : R3) (s : State) :
    exec (.mtr t f) s = runDev (isThread t) (brushCmd s.clk.count t 3 0x0 f) s := rfl

theorem exec_cnt (t : Nat) (f : R3) (s : State) :
    exec (.cnt t f) s = runDev (isThread t) (brushCmd s.clk.count t 3 0x1 f) s := rfl

theorem exec_cenc (t : Nat) (f : R3) (s : State) :
    exec (.cenc t f) s = runDev (isThread t) (brushCmd s.clk.count t 4 0x0 f) s := rfl

theorem exec_cdec (t : Nat) (f : R3) (s : State) :
    exec (.cdec t f) s = runDev (isThread t) (brushCmd s.clk.count t 4 0x1 f) s := rfl

theorem exec_enq (t : Nat) (f : R3) (s : State) :
    exec (.enq t f) s = runDev (isThread t) (brushCmd s.clk.count t 5 0x0 f) s := rfl

theorem exec_pshare (t : Nat) (f : R3) (s : State) :
    exec (.pshare t f) s = runDev (isThread t) (brushCmd s.clk.count t 5 0x10 f) s := rfl

theorem exec_pdrop (t : Nat) (f : R3) (s : State) :
    exec (.pdrop t f) s = runDev (isThread t) (brushCmd s.clk.count t 5 0x11 f) s := rfl

theorem exec_pfree (t : Nat) (f : R3) (s : State) :
    exec (.pfree t f) s = runDev (isThread t) (brushCmd s.clk.count t 5 0x12 f) s := rfl

theorem exec_pswap (t : Nat) (f : R3) (s : State) :
    exec (.pswap t f) s = runDev (isThread t) (brushCmd s.clk.count t 5 0x13 f) s := rfl

theorem exec_mopen (t : Nat) (f : R3) (s : State) :
    exec (.mopen t f) s = runDev (isThread t) (brushCmd s.clk.count t 6 0x0 f) s := rfl

theorem exec_mput (t : Nat) (f : R3) (s : State) :
    exec (.mput t f) s = runDev (isThread t) (brushCmd s.clk.count t 6 0x1 f) s := rfl

theorem exec_mclose (t : Nat) (f : R3) (s : State) :
    exec (.mclose t f) s = runDev (isThread t) (brushCmd s.clk.count t 6 0x2 f) s := rfl

theorem exec_mrecv (t : Nat) (f : R3) (s : State) :
    exec (.mrecv t f) s = runDev (isThread t) (brushCmd s.clk.count t 6 0x3 f) s := rfl

theorem exec_mpost (t : Nat) (f : R3) (s : State) :
    exec (.mpost t f) s = runDev (isThread t) (brushCmd s.clk.count t 6 0x4 f) s := rfl

theorem exec_bsave (t : Nat) (brush : Nat) (f : R3) (s : State) :
    exec (.bsave t brush f) s = runDev (isThread t && isBrush brush) (brushCmd s.clk.count t brush 0x3fe f) s := rfl

theorem exec_brest (t : Nat) (brush : Nat) (f : R3) (s : State) :
    exec (.brest t brush f) s = runDev (isThread t && isBrush brush) (brushCmd s.clk.count t brush 0x3ff f) s := rfl

theorem exec_lookupEngineSearch (e : Nat) (s : State) :
    exec (.lookupEngineSearch e) s = runDev (isLookupEngine e) (lookupEngineSearch s.clk.count e) s := rfl

theorem exec_learnStart (id : Nat) (s : State) :
    exec (.learnStart id) s = runDev (isTable id) (learnStart s.clk.count id) s := rfl

theorem exec_learnApply (n : Nat) (s : State) :
    exec (.learnApply n) s = runDev true (learnApply s.clk.count n) s := rfl

theorem exec_ageVisit (id : Nat) (s : State) :
    exec (.ageVisit id) s = runDev (isTable id) (ageVisit s.clk.count id) s := rfl

theorem exec_flushWalkVisit (id : Nat) (s : State) :
    exec (.flushWalkVisit id) s = runDev (isTable id) (flushWalkVisit s.clk.count id) s := rfl

theorem exec_fwdTblEnable (r : Req) (id : Nat) (v : Word) (s : State) :
    exec (.fwdTblEnable r id v) s = runDev (isTable id) (Dev.live (fwdTblEnable r id v)) s := rfl

theorem exec_fwdTblDisable (id : Nat) (v : Word) (s : State) :
    exec (.fwdTblDisable id v) s = runDev (isTable id) (Dev.live (fwdTblDisable id v)) s := rfl

theorem exec_tableInitDone (id : Nat) (s : State) :
    exec (.tableInitDone id) s = runDev (isTable id) (tableInitDone id) s := rfl

theorem exec_search (g : Nat) (x : Dma) (s : State) :
    exec (.search g x) s = runDev (isGroup g) (searchCmd s.clk.count g x) s := rfl

theorem exec_next (g : Nat) (x : Dma) (s : State) :
    exec (.next g x) s = runDev (isGroup g) (nextCmd s.clk.count g x) s := rfl

theorem exec_insert (g : Nat) (x : Dma) (s : State) :
    exec (.insert g x) s = runDev (isGroup g) (insertCmd s.clk.count g x) s := rfl

theorem exec_modify (g : Nat) (x : Dma) (s : State) :
    exec (.modify g x) s = runDev (isGroup g) (modifyCmd s.clk.count g x) s := rfl

theorem exec_delete (g : Nat) (x : Dma) (s : State) :
    exec (.delete g x) s = runDev (isGroup g) (deleteCmd s.clk.count g x) s := rfl

theorem exec_flushPort (g : Nat) (x : Dma) (s : State) :
    exec (.flushPort g x) s = runDev (isGroup g) (flushPortCmd s.clk.count g x) s := rfl

theorem exec_actWrite (g : Nat) (x : Dma) (s : State) :
    exec (.actWrite g x) s = runDev (isGroup g) (actWriteCmd s.clk.count g x) s := rfl

theorem exec_txn (g : Nat) (x : Dma) (s : State) :
    exec (.txn g x) s = runDev (isGroup g) (txnCmd s.clk.count g x) s := rfl

theorem exec_portRearm (g : Nat) (s : State) :
    exec (.portRearm g) s = runDev (isGroup g) (portRearmCmd s.clk.count g) s := rfl

theorem exec_profileStage (g : Nat) (x : Dma) (flash : List Byte) (s : State) :
    exec (.profileStage g x flash) s = runDev (isGroup g) (profileStageCmd s.clk.count g x flash) s := rfl

theorem exec_profileApply (g : Nat) (s : State) :
    exec (.profileApply g) s = runDev (isGroup g) (profileApplyCmd s.clk.count g) s := rfl

theorem exec_msgSend (g : Nat) (x : Dma) (s : State) :
    exec (.msgSend g x) s = runDev (isGroup g) (msgSendCmd s.clk.count g x) s := rfl

theorem exec_taskPost (g : Nat) (x : Dma) (s : State) :
    exec (.taskPost g x) s = runDev (isGroup g) (taskPostCmd s.clk.count g x) s := rfl

theorem exec_quote (g : Nat) (x : Dma) (s : State) :
    exec (.quote g x) s = runDev (isGroup g) (quoteCmd s.clk s.idn g x) s := rfl

theorem exec_nop (g : Nat) (s : State) :
    exec (.nop g) s = runDev (isGroup g) (nopCmd g) s := rfl

theorem exec_commitRequest (key : Nat) (s : State) :
    exec (.commitRequest key) s = runDev (isTxn key) (commitRequest key) s := rfl

theorem exec_varnishCommit (key : Nat) (s : State) :
    exec (.varnishCommit key) s = runDev (isTxn key) (varnishCommit s.clk.count key) s := rfl

theorem exec_tmHandoff (key : Nat) (s : State) :
    exec (.tmHandoff key) s = runDev (isTxn key) (tmHandoff s.clk.count key) s := rfl

theorem exec_abortAtEasel (key : Nat) (s : State) :
    exec (.abortAtEasel key) s = runDev (isTxn key) (abortAtEasel s.clk.count key) s := rfl

theorem exec_timingEvent (cl : Nat) (core : Nat) (threads : BitVec 8) (ended : List Nat) (s : State) :
    exec (.timingEvent cl core threads ended) s = runDev (isCluster cl && isCore core) (timingEvent cl core threads ended) s := rfl

theorem exec_palPoolCountWrite (r : Req) (p : Nat) (v : Word) (s : State) :
    exec (.palPoolCountWrite r p v) s = runDev (isPool p) (Dev.live (palPoolCountWrite r p v)) s := rfl

theorem exec_tmDequeue (p : Nat) (s : State) :
    exec (.tmDequeue p) s = runDev (isPort p) (tmDequeue s.clk.count (s.clk.sec * 1000000000 + s.clk.nsec) p) s := rfl

theorem exec_gateEntryChange (p : Nat) (s : State) :
    exec (.gateEntryChange p) s = runDev (isMac p) (gateEntryChange s.clk.count (s.clk.sec * 1000000000 + s.clk.nsec) p) s := rfl

theorem exec_gateScheduleSwitch (p : Nat) (s : State) :
    exec (.gateScheduleSwitch p) s = runDev (isMac p) (gateScheduleSwitch (s.clk.sec * 1000000000 + s.clk.nsec) p) s := rfl

theorem exec_semaphoreAcquire (t : Nat) (sem : Nat) (s : State) :
    exec (.semaphoreAcquire t sem) s = runDev (isThread t && isSem sem) (semaphoreAcquire t sem) s := rfl

theorem exec_semaphoreStatus (t : Nat) (sem : Nat) (s : State) :
    exec (.semaphoreStatus t sem) s = runDev (isThread t && isSem sem) (semaphoreStatus t sem) s := rfl

theorem exec_lockProbe (hi : Word) (s : State) :
    exec (.lockProbe hi) s = runDev true (Dev.live (lockProbe hi)) s := rfl

theorem exec_symbolReceive (l : Nat) (cs : List Cell) (s : State) :
    exec (.symbolReceive l cs) s = runDev (isStnLane l) (symbolReceive s.clk.count s.clk.sec s.clk.nsec l cs) s := rfl

theorem exec_symbolTransmit (l : Nat) (s : State) :
    exec (.symbolTransmit l) s = runDev (isStnLane l) (symbolTransmit s.clk.count s.clk.sec s.clk.nsec l) s := rfl

theorem exec_stnAlu (e : Nat) (j : Nat) (f : SFmt) (s : State) :
    exec (.stnAlu e j f) s = runDev (isEngine e && isSlot j) (stnAlu e j f) s := rfl

theorem exec_stnJr (e : Nat) (j : Nat) (rd : BitVec 4) (rs : BitVec 4) (s : State) :
    exec (.stnJr e j rd rs) s = runDev (isEngine e && isSlot j) (stnJr e j rd rs) s := rfl

theorem exec_stnAddi (e : Nat) (j : Nat) (rd : BitVec 4) (imm : BitVec 8) (s : State) :
    exec (.stnAddi e j rd imm) s = runDev (isEngine e && isSlot j) (stnAddi e j rd imm) s := rfl

theorem exec_stnMovi (e : Nat) (j : Nat) (rd : BitVec 4) (imm : BitVec 8) (s : State) :
    exec (.stnMovi e j rd imm) s = runDev (isEngine e && isSlot j) (stnMovi e j rd imm) s := rfl

theorem exec_stnMovh (e : Nat) (j : Nat) (rd : BitVec 4) (imm : BitVec 8) (s : State) :
    exec (.stnMovh e j rd imm) s = runDev (isEngine e && isSlot j) (stnMovh e j rd imm) s := rfl

theorem exec_stnCmpi (e : Nat) (j : Nat) (rd : BitVec 4) (imm : BitVec 8) (s : State) :
    exec (.stnCmpi e j rd imm) s = runDev (isEngine e && isSlot j) (stnCmpi e j rd imm) s := rfl

theorem exec_stnLd (e : Nat) (j : Nat) (f : SFmt) (s : State) :
    exec (.stnLd e j f) s = runDev (isEngine e && isSlot j) (stnLd e j f) s := rfl

theorem exec_stnSt (e : Nat) (j : Nat) (f : SFmt) (s : State) :
    exec (.stnSt e j f) s = runDev (isEngine e && isSlot j) (stnSt e j f) s := rfl

theorem exec_stnBcc (e : Nat) (j : Nat) (cond : BitVec 4) (off : BitVec 8) (s : State) :
    exec (.stnBcc e j cond off) s = runDev (isEngine e && isSlot j) (stnBcc e j cond off) s := rfl

theorem exec_stnJmp (e : Nat) (j : Nat) (off : BitVec 12) (s : State) :
    exec (.stnJmp e j off) s = runDev (isEngine e && isSlot j) (stnJmp e j off) s := rfl

theorem exec_stnCall (e : Nat) (j : Nat) (off : BitVec 12) (s : State) :
    exec (.stnCall e j off) s = runDev (isEngine e && isSlot j) (stnCall e j off) s := rfl

theorem exec_rx (e : Nat) (j : Nat) (rd : BitVec 4) (rs : BitVec 4) (s : State) :
    exec (.rx e j rd rs) s = runDev (isEngine e && isSlot j) (stnRx s.clk.sec s.clk.nsec e j rd rs) s := rfl

theorem exec_tx (e : Nat) (j : Nat) (rd : BitVec 4) (rs : BitVec 4) (s : State) :
    exec (.tx e j rd rs) s = runDev (isEngine e && isSlot j) (stnTx e j rd rs) s := rfl

theorem exec_rxrun (e : Nat) (j : Nat) (rd : BitVec 4) (rs : BitVec 4) (s : State) :
    exec (.rxrun e j rd rs) s = runDev (isEngine e && isSlot j) (stnRxrun s.clk.sec s.clk.nsec e j rd rs) s := rfl

theorem exec_txrun (e : Nat) (j : Nat) (rd : BitVec 4) (rs : BitVec 4) (s : State) :
    exec (.txrun e j rd rs) s = runDev (isEngine e && isSlot j) (stnTxrun e j rd rs) s := rfl

theorem exec_fput (e : Nat) (j : Nat) (rd : BitVec 4) (rs : BitVec 4) (s : State) :
    exec (.fput e j rd rs) s = runDev (isEngine e && isSlot j) (stnFput s.clk.sec s.clk.nsec e j rd rs) s := rfl

theorem exec_fend (e : Nat) (j : Nat) (rd : BitVec 4) (rs : BitVec 4) (s : State) :
    exec (.fend e j rd rs) s = runDev (isEngine e && isSlot j) (stnFend e j rd rs) s := rfl

theorem exec_fdrop (e : Nat) (j : Nat) (rd : BitVec 4) (rs : BitVec 4) (s : State) :
    exec (.fdrop e j rd rs) s = runDev (isEngine e && isSlot j) (stnFdrop e j rd rs) s := rfl

theorem exec_fopen (e : Nat) (j : Nat) (rd : BitVec 4) (rs : BitVec 4) (s : State) :
    exec (.fopen e j rd rs) s = runDev (isEngine e && isSlot j) (stnFopen s.clk.sec s.clk.nsec e j rd rs) s := rfl

theorem exec_txnext (e : Nat) (j : Nat) (rd : BitVec 4) (rs : BitVec 4) (s : State) :
    exec (.txnext e j rd rs) s = runDev (isEngine e && isSlot j) (stnTxnext e j rd rs) s := rfl

theorem exec_txget (e : Nat) (j : Nat) (rd : BitVec 4) (rs : BitVec 4) (s : State) :
    exec (.txget e j rd rs) s = runDev (isEngine e && isSlot j) (stnTxget e j rd rs) s := rfl

theorem exec_drive (e : Nat) (j : Nat) (rd : BitVec 4) (rs : BitVec 4) (s : State) :
    exec (.drive e j rd rs) s = runDev (isEngine e && isSlot j) (stnDrive e j rd rs) s := rfl

theorem exec_txusr (e : Nat) (j : Nat) (rd : BitVec 4) (rs : BitVec 4) (s : State) :
    exec (.txusr e j rd rs) s = runDev (isEngine e && isSlot j) (stnTxusr e j rd rs) s := rfl

theorem exec_par (e : Nat) (j : Nat) (rd : BitVec 4) (rs : BitVec 4) (s : State) :
    exec (.par e j rd rs) s = runDev (isEngine e && isSlot j) (stnPar e j rd rs) s := rfl

theorem exec_cinit (e : Nat) (j : Nat) (rd : BitVec 4) (rs : BitVec 4) (s : State) :
    exec (.cinit e j rd rs) s = runDev (isEngine e && isSlot j) (stnCinit e j rd rs) s := rfl

theorem exec_cupd (e : Nat) (j : Nat) (rd : BitVec 4) (rs : BitVec 4) (s : State) :
    exec (.cupd e j rd rs) s = runDev (isEngine e && isSlot j) (stnCupd e j rd rs) s := rfl

theorem exec_crdl (e : Nat) (j : Nat) (rd : BitVec 4) (rs : BitVec 4) (s : State) :
    exec (.crdl e j rd rs) s = runDev (isEngine e && isSlot j) (stnCrdl e j rd rs) s := rfl

theorem exec_crdh (e : Nat) (j : Nat) (rd : BitVec 4) (rs : BitVec 4) (s : State) :
    exec (.crdh e j rd rs) s = runDev (isEngine e && isSlot j) (stnCrdh e j rd rs) s := rfl

theorem exec_now (e : Nat) (j : Nat) (rd : BitVec 4) (rs : BitVec 4) (s : State) :
    exec (.now e j rd rs) s = runDev (isEngine e && isSlot j) (stnNow s.clk.count e j rd rs) s := rfl

theorem exec_nowh (e : Nat) (j : Nat) (rd : BitVec 4) (rs : BitVec 4) (s : State) :
    exec (.nowh e j rd rs) s = runDev (isEngine e && isSlot j) (stnNowh e j rd rs) s := rfl

theorem exec_waitc (e : Nat) (j : Nat) (rd : BitVec 4) (rs : BitVec 4) (s : State) :
    exec (.waitc e j rd rs) s = runDev (isEngine e && isSlot j) (stnWaitc s.clk.count e j rd rs) s := rfl

theorem exec_waitt (e : Nat) (j : Nat) (rd : BitVec 4) (rs : BitVec 4) (s : State) :
    exec (.waitt e j rd rs) s = runDev (isEngine e && isSlot j) (stnWaitt s.clk.count e j rd rs) s := rfl

theorem exec_pps (e : Nat) (j : Nat) (rd : BitVec 4) (rs : BitVec 4) (s : State) :
    exec (.pps e j rd rs) s = runDev (isEngine e && isSlot j) (stnPps e j rd rs) s := rfl

theorem exec_hbkick (e : Nat) (j : Nat) (rd : BitVec 4) (rs : BitVec 4) (s : State) :
    exec (.hbkick e j rd rs) s = runDev (isEngine e && isSlot j) (stnHbkick s.clk.count e j rd rs) s := rfl

theorem exec_hbstat (e : Nat) (j : Nat) (rd : BitVec 4) (rs : BitVec 4) (s : State) :
    exec (.hbstat e j rd rs) s = runDev (isEngine e && isSlot j) (stnHbstat e j rd rs) s := rfl

theorem exec_stnNop (e : Nat) (j : Nat) (rd : BitVec 4) (rs : BitVec 4) (s : State) :
    exec (.stnNop e j rd rs) s = runDev (isEngine e && isSlot j) (stnNop e j rd rs) s := rfl

theorem exec_stnHalt (e : Nat) (j : Nat) (rd : BitVec 4) (rs : BitVec 4) (s : State) :
    exec (.stnHalt e j rd rs) s = runDev (isEngine e && isSlot j) (stnHalt e j rd rs) s := rfl

theorem exec_brk (e : Nat) (j : Nat) (rd : BitVec 4) (rs : BitVec 4) (s : State) :
    exec (.brk e j rd rs) s = runDev (isEngine e && isSlot j) (stnBrk e j rd rs) s := rfl

theorem exec_stnEngRun (e : Nat) (s : State) :
    exec (.stnEngRun e) s = runDev (isEngine e) (Dev.live (stnEngRun e)) s := rfl

theorem exec_stnEngStop (e : Nat) (s : State) :
    exec (.stnEngStop e) s = runDev (isEngine e) (Dev.live (stnEngStop e)) s := rfl

theorem exec_dramBringup (r : Req) (s : State) :
    exec (.dramBringup r) s = runDev true (Dev.live (dramBringup r)) s := rfl

theorem exec_dramBringupDone (spd : List Spd) (trained : BitVec 8) (s : State) :
    exec (.dramBringupDone spd trained) s = runDev true (dramBringupDone spd trained) s := rfl

theorem exec_dramCommandIssue (ch : Nat) (sub : Nat) (s : State) :
    exec (.dramCommandIssue ch sub) s = runDev (isChannel ch && isSub sub) (dramCommandIssue s.clk.count ch sub) s := rfl

theorem exec_dramReadReturn (ch : Nat) (sub : Nat) (first : BurstRead) (again : BurstRead) (s : State) :
    exec (.dramReadReturn ch sub first again) s = runDev (isChannel ch && isSub sub) (dramReadReturn s.clk.count ch sub first again) s := rfl

theorem exec_scrubVisit (first : BurstRead) (again : BurstRead) (s : State) :
    exec (.scrubVisit first again) s = runDev true (scrubVisit s.clk.count first again) s := rfl

theorem exec_freqChangeGo (v : Word) (s : State) :
    exec (.freqChangeGo v) s = runDev true (Dev.live (freqChangeGo s.clk.count v)) s := rfl

theorem exec_trainingStep (ch : Nat) (s : State) :
    exec (.trainingStep ch) s = runDev (isChannel ch) (trainingStep s.clk.count ch) s := rfl

theorem exec_channelRetire (r : Req) (ch : Nat) (s : State) :
    exec (.channelRetire r ch) s = runDev (isChannel ch) (Dev.live (channelRetire s.clk.count r ch)) s := rfl

theorem exec_channelReturn (r : Req) (ch : Nat) (s : State) :
    exec (.channelReturn r ch) s = runDev (isChannel ch) (Dev.live (channelReturn s.clk.count r ch)) s := rfl

theorem exec_mergeBufferDrain (cl : Nat) (s : State) :
    exec (.mergeBufferDrain cl) s = runDev (isCluster cl) (mergeBufferDrain s.clk.count cl) s := rfl

theorem exec_tableCacheFill (sl : Nat) (s : State) :
    exec (.tableCacheFill sl) s = runDev (isTcaSlice sl) (tableCacheFill s.clk.count sl) s := rfl

theorem exec_preload (id : Nat) (s : State) :
    exec (.preload id) s = runDev (isTable id) (Dev.live (fun d => preload s.clk.count (d.setRf Reg.TCA_CMD 15 8 id))) s := rfl

theorem exec_kick (g : Nat) (acc : Bar4) (s : State) :
    exec (.kick g acc) s = runDev (isGroup g) (kick g acc) s := rfl

theorem exec_atelierKick (r : Req) (s : State) :
    exec (.atelierKick r) s = runDev true (Dev.live (fun d => if r = .host then d.refuse r Reg.HST_ATL_KICK else atelierKick d)) s := rfl

theorem exec_doorbellReadDone (g : Nat) (x : Dma) (s : State) :
    exec (.doorbellReadDone g x) s = runDev (isGroup g) (doorbellReadDone s.clk.count g x) s := rfl

theorem exec_descriptorFetchDone (g : Nat) (ring : FetchRing) (x : Dma) (s : State) :
    exec (.descriptorFetchDone g ring x) s = runDev (isGroup g) (descriptorFetchDone s.clk.count g ring x) s := rfl

theorem exec_injPacket (g : Nat) (xs : List Dma) (s : State) :
    exec (.injPacket g xs) s = runDev (isGroup g) (injPacket s.clk.count s.clk.sec s.clk.nsec g xs) s := rfl

theorem exec_puntPacket (g : Nat) (err : Option DmaErr) (s : State) :
    exec (.puntPacket g err) s = runDev (isGroup g) (puntPacket g err) s := rfl

theorem exec_doorbellWriteback (g : Nat) (s : State) :
    exec (.doorbellWriteback g) s = runDev (isGroup g) (doorbellWriteback s.clk.count g) s := rfl

theorem exec_groupEnable (r : Req) (g : Nat) (v : Word) (s : State) :
    exec (.groupEnable r g v) s = runDev (isGroup g) (Dev.live (groupEnable r g v)) s := rfl

theorem exec_groupReset (r : Req) (g : Nat) (v : Word) (s : State) :
    exec (.groupReset r g v) s = runDev (isGroup g) (Dev.live (groupReset r g v)) s := rfl

theorem exec_groupResetDone (g : Nat) (s : State) :
    exec (.groupResetDone g) s = runDev (isGroup g) (groupResetDone g) s := rfl

theorem exec_bar4Access (off : Nat) (acc : Bar4) (s : State) :
    exec (.bar4Access off acc) s = runDev (inBar4 off) (bar4Access s.clk.count off acc) s := rfl

theorem exec_identity (a : BitVec 7) (p : List Byte) (crc : Byte) (s : State) :
    exec (.identity a p crc) s = runDev true (gmpIdentity s.idn a p crc) s := rfl

theorem exec_faultRead (a : BitVec 7) (p : List Byte) (crc : Byte) (s : State) :
    exec (.faultRead a p crc) s = runDev true (gmpFaultRead a p crc) s := rfl

theorem exec_faultClear (a : BitVec 7) (p : List Byte) (crc : Byte) (s : State) :
    exec (.faultClear a p crc) s = runDev true (gmpFaultClear a p crc) s := rfl

theorem exec_powerState (a : BitVec 7) (p : List Byte) (crc : Byte) (s : State) :
    exec (.powerState a p crc) s = runDev true (gmpPowerState s.clk.count a p crc) s := rfl

theorem exec_powerSet (a : BitVec 7) (p : List Byte) (crc : Byte) (s : State) :
    exec (.powerSet a p crc) s = runDev true (gmpPowerSet a p crc) s := rfl

theorem exec_ringStatus (a : BitVec 7) (p : List Byte) (crc : Byte) (s : State) :
    exec (.ringStatus a p crc) s = runDev true (gmpRingStatus a p crc) s := rfl

theorem exec_subunitReset (a : BitVec 7) (p : List Byte) (crc : Byte) (s : State) :
    exec (.subunitReset a p crc) s = runAll true (fun c => if s.dev.subunitAll a p crc then Clock.reset else c) (fun i => if s.dev.subunitAll a p crc then Ident.cleared i else i) (gmpSubunitReset a p crc) s := rfl

theorem exec_quoteStart (a : BitVec 7) (p : List Byte) (crc : Byte) (s : State) :
    exec (.quoteStart a p crc) s = runDev true (gmpQuoteStart s.clk s.idn a p crc) s := rfl

theorem exec_quoteRead (a : BitVec 7) (p : List Byte) (crc : Byte) (s : State) :
    exec (.quoteRead a p crc) s = runDev true (gmpQuoteRead a p crc) s := rfl

theorem exec_certRead (a : BitVec 7) (p : List Byte) (crc : Byte) (s : State) :
    exec (.certRead a p crc) s = runDev true (gmpCertRead s.idn a p crc) s := rfl

theorem exec_regRead (a : BitVec 7) (p : List Byte) (crc : Byte) (s : State) :
    exec (.regRead a p crc) s = runDev true (gmpRegRead s.clk s.idn a p crc) s := rfl

theorem exec_entdaa (a : BitVec 7) (s : State) :
    exec (.entdaa a) s = runDev true (i3cEntdaa a) s := rfl

theorem exec_atlCoreStart (r : Req) (mask : BitVec 3) (s : State) :
    exec (.atlCoreStart r mask) s = runDev true (Dev.live (atlCoreStart r mask)) s := rfl

theorem exec_atlRunGo (r : Req) (s : State) :
    exec (.atlRunGo r) s = runDev true (Dev.live (atlRunGo r)) s := rfl

theorem exec_measurementExtend (r : Req) (s : State) :
    exec (.measurementExtend r) s = runIdn true (fun i => if s.dev.pins.resetN then measExtendIdent r s.dev i else i) (Dev.live (measExtendDev r)) s := rfl

theorem exec_atlIpi (r : Req) (mask : BitVec 4) (s : State) :
    exec (.atlIpi r mask) s = runDev true (Dev.live (atlIpi r mask)) s := rfl

theorem exec_clusterPointChange (r : Req) (cl : Nat) (point : Nat) (s : State) :
    exec (.clusterPointChange r cl point) s = runDev (isCluster cl && isPoint point) (Dev.live (clusterPointChange r cl point)) s := rfl

theorem exec_pointChangeDone (cl : Nat) (s : State) :
    exec (.pointChangeDone cl) s = runDev (isCluster cl) (pointChangeDone cl) s := rfl

theorem exec_clusterGate (r : Req) (cl : Nat) (s : State) :
    exec (.clusterGate r cl) s = runDev (isCluster cl) (Dev.live (clusterGate r cl)) s := rfl

theorem exec_gatingDone (cl : Nat) (s : State) :
    exec (.gatingDone cl) s = runDev (isCluster cl) (gatingDone cl) s := rfl

theorem exec_clusterWake (r : Req) (cl : Nat) (s : State) :
    exec (.clusterWake r cl) s = runDev (isCluster cl) (Dev.live (clusterWake r cl)) s := rfl

theorem exec_wakeDone (cl : Nat) (s : State) :
    exec (.wakeDone cl) s = runDev (isCluster cl) (wakeDone s.clk.count cl) s := rfl

theorem exec_nonSpeculativeConfirm (cl : Nat) (s : State) :
    exec (.nonSpeculativeConfirm cl) s = runDev (isCluster cl) (nonSpeculativeConfirm cl) s := rfl

theorem exec_errorWindowEnd (cl : Nat) (s : State) :
    exec (.errorWindowEnd cl) s = runDev (isCluster cl) (errorWindowEnd cl) s := rfl

theorem exec_thermalThreshold (sensor : Nat) (temp : Nat) (s : State) :
    exec (.thermalThreshold sensor temp) s = runDev (isSensor sensor && isTemp temp) (thermalThreshold sensor temp) s := rfl

theorem exec_faultReport (src : Nat) (detail : Word) (s : State) :
    exec (.faultReport src detail) s = runDev (isSource src) (faultReport s.clk.count src detail) s := rfl

theorem exec_drainTimeout (cl : Nat) (s : State) :
    exec (.drainTimeout cl) s = runDev (isCluster cl) (drainTimeout s.clk.count cl) s := rfl

theorem exec_faultInject (src : Nat) (s : State) :
    exec (.faultInject src) s = runDev (isSource src) (Dev.live (faultInject src)) s := rfl

theorem exec_istOut (kind : Nat) (n : Nat) (s : State) :
    exec (.istOut kind n) s = runDev (isUnitKind kind && isUnit n) (Dev.live (istOut s.clk.count kind n)) s := rfl

theorem exec_istBist (kind : Nat) (n : Nat) (s : State) :
    exec (.istBist kind n) s = runDev (isUnitKind kind && isUnit n) (Dev.live (istBist kind n)) s := rfl

theorem exec_istReturn (kind : Nat) (n : Nat) (s : State) :
    exec (.istReturn kind n) s = runDev (isUnitKind kind && isUnit n) (Dev.live (istReturn kind n)) s := rfl

theorem exec_bistDone (pass : Bool) (array : Nat) (s : State) :
    exec (.bistDone pass array) s = runDev (isArray array) (bistDone pass array) s := rfl

theorem exec_haltComplete (t : Nat) (s : State) :
    exec (.haltComplete t) s = runDev (isThread t) (haltComplete s.clk.count t) s := rfl

theorem exec_debugContextWrite (v : Word) (s : State) :
    exec (.debugContextWrite v) s = runDev true (Dev.live (debugContextWrite v)) s := rfl

theorem exec_dbgAccess (off : Nat) (acc : RegAcc) (s : State) :
    exec (.dbgAccess off acc) s = runAll (inRegs off) (fun c => dbgClock off acc s.dev c) (fun i => dbgIdent off acc s.dev i) (dbgAccess off acc s.clk s.idn) s := rfl

theorem exec_regPairAccess (r : Req) (size : Nat) (off : Nat) (acc : RegAcc) (s : State) :
    exec (.regPairAccess r size off acc) s = runDev (inRegs off) (Dev.live (regPairAccess r size off acc s.clk s.idn)) s := rfl

theorem exec_registerWrite (r : Req) (size : Nat) (off : Nat) (v : Word) (s : State) :
    exec (.registerWrite r size off v) s = runAll (inRegs off) (fun c => if s.dev.pins.resetN then sizedClock size off v s.dev c else c) (fun i => if s.dev.pins.resetN then sizedIdent r size off v s.dev i else i) (Dev.live (registerWrite r size off v s.clk s.idn)) s := rfl

theorem exec_pcieCompletionTimeout (g : Nat) (use : DmaUse) (s : State) :
    exec (.pcieCompletionTimeout g use) s = runDev (isGroup g) (pcieCompletionTimeout s.clk.count s.clk.sec s.clk.nsec g use) s := rfl

theorem exec_undefinedInstruction (t : Nat) (w : Word) (s : State) :
    exec (.undefinedInstruction t w) s = runDev (isThread t && (Machine.undefinedCause w).isSome) (undefinedCmd t w) s := rfl

theorem exec_stencilUndefinedInstruction (e : Nat) (j : Nat) (w : BitVec 16) (s : State) :
    exec (.stencilUndefinedInstruction e j w) s = runDev (isEngine e && isSlot j && Machine.stnUndefined w) (stnUndef e j w) s := rfl

theorem exec_vddIoGood (s : State) :
    exec .vddIoGood s = runDev true vddIoGood s := rfl

theorem exec_vddCoreGood (s : State) :
    exec .vddCoreGood s = runDev true vddCoreGood s := rfl

theorem exec_vddIoLoss (s : State) :
    exec .vddIoLoss s = runAll true (fun _ => Clock.reset) (fun i => Ident.cleared i) vddIoLoss s := rfl

theorem exec_resetNAssert (s : State) :
    exec .resetNAssert s = runAll true (fun _ => Clock.reset) (fun i => Ident.cleared i) resetAssert s := rfl

theorem exec_cacheInvalidationDone (s : State) :
    exec .cacheInvalidationDone s = runDev true cacheInvalidationDone s := rfl

theorem exec_hostBootGo (s : State) :
    exec .hostBootGo s = runDev true (Dev.live hostBootGo) s := rfl

theorem exec_pwrfailAssert (s : State) :
    exec .pwrfailAssert s = runDev true (pwrfailAssert s.clk.count) s := rfl

theorem exec_fixativeHeartbeatStop (s : State) :
    exec .fixativeHeartbeatStop s = runAll true (fun c => if s.dev.fixResets c.count then Clock.reset else c) (fun i => if s.dev.fixResets s.clk.count then Ident.cleared i else i) (fixativeEnd s.clk.count) s := rfl

theorem exec_pwrfailRelease (s : State) :
    exec .pwrfailRelease s = runDev true (pwrfailRelease s.clk.count) s := rfl

theorem exec_thermtrip (s : State) :
    exec .thermtrip s = runDev true thermtrip s := rfl

theorem exec_functionLevelReset (s : State) :
    exec .functionLevelReset s = runDev true (functionLevelReset) s := rfl

theorem exec_tclkPllLock (s : State) :
    exec .tclkPllLock s = runDev true tclkPllLock s := rfl

theorem exec_timRefLoss (s : State) :
    exec .timRefLoss s = runDev true timRefLoss s := rfl

theorem exec_refclkSysLoss (s : State) :
    exec .refclkSysLoss s = runDev true refclkSysLoss s := rfl

theorem exec_timePpsOutRise (s : State) :
    exec .timePpsOutRise s = runClk true (fun c => if s.dev.ppsRises c then ppsRiseClock s.dev c else c) (ppsRiseDev s.clk) s := rfl

theorem exec_timePpsOutFall (s : State) :
    exec .timePpsOutFall s = runDev true (ppsFallDev s.clk) s := rfl

theorem exec_timePpsInEdge (s : State) :
    exec .timePpsInEdge s = runDev true (ppsInEdge s.clk) s := rfl

theorem exec_timeCapture (s : State) :
    exec .timeCapture s = runDev true (Dev.live (timeCapture s.clk)) s := rfl

theorem exec_timeStep (s : State) :
    exec .timeStep s = runClk true (fun c => if s.dev.pins.resetN then timeStepClock s.dev c else c) id s := rfl

theorem exec_parsePacket (s : State) :
    exec .parsePacket s = runDev true (parsePacket s.clk.sec s.clk.nsec) s := rfl

theorem exec_distributePacket (s : State) :
    exec .distributePacket s = runDev true distributePacket s := rfl

theorem exec_learnPost (s : State) :
    exec .learnPost s = runDev true learnPost s := rfl

theorem exec_controlPlaneApply (s : State) :
    exec .controlPlaneApply s = runDev true (controlPlaneApply s.clk.count) s := rfl

theorem exec_controlPlaneRelease (s : State) :
    exec .controlPlaneRelease s = runDev true controlPlaneRelease s := rfl

theorem exec_profileCommit (s : State) :
    exec .profileCommit s = runIdn true (fun i => profileCommitIdent s.dev i) (profileCommitDev s.clk.count) s := rfl

theorem exec_quoteDone (s : State) :
    exec .quoteDone s = runDev true (quoteDone s.clk s.idn) s := rfl

theorem exec_commitBufferRetire (s : State) :
    exec .commitBufferRetire s = runDev true commitBufferRetire s := rfl

theorem exec_irrevocableGrant (s : State) :
    exec .irrevocableGrant s = runDev true irrevocableGrant s := rfl

theorem exec_vrnHoldStall (s : State) :
    exec .vrnHoldStall s = runDev true (vrnHoldStall s.clk.count) s := rfl

theorem exec_irrevHeaderCellGrant (s : State) :
    exec .irrevHeaderCellGrant s = runDev true irrevHeaderCellGrant s := rfl

theorem exec_swatchPass (s : State) :
    exec .swatchPass s = runDev true (swatchPass s.clk.count) s := rfl

theorem exec_tmgObjRead (s : State) :
    exec .tmgObjRead s = runDev true (Dev.live tmgObjRead) s := rfl

theorem exec_tmgObjWrite (s : State) :
    exec .tmgObjWrite s = runDev true (Dev.live (tmgObjWrite s.clk.count)) s := rfl

theorem exec_tmgQueueFlush (s : State) :
    exec .tmgQueueFlush s = runDev true (Dev.live (tmgQueueFlush s.clk.count)) s := rfl

theorem exec_tmgScheduleApply (s : State) :
    exec .tmgScheduleApply s = runDev true (Dev.live (tmgScheduleApply (s.clk.sec * 1000000000 + s.clk.nsec))) s := rfl

theorem exec_mtrRead (s : State) :
    exec .mtrRead s = runDev true (Dev.live mtrRead) s := rfl

theorem exec_mtrWrite (s : State) :
    exec .mtrWrite s = runDev true (Dev.live (mtrWrite s.clk.count)) s := rfl

theorem exec_mtrReadClear (s : State) :
    exec .mtrReadClear s = runDev true (Dev.live mtrReadClear) s := rfl

theorem exec_lockAcquire (s : State) :
    exec .lockAcquire s = runDev true (lockAcquireStep s.clk.count) s := rfl

theorem exec_lockRelease (s : State) :
    exec .lockRelease s = runDev true lockRelease s := rfl

theorem exec_semaphoreRelease (s : State) :
    exec .semaphoreRelease s = runDev true semaphoreRelease s := rfl

theorem exec_freqSwitch (s : State) :
    exec .freqSwitch s = runDev true (freqSwitch s.clk.count) s := rfl

theorem exec_freqSwitchDone (s : State) :
    exec .freqSwitchDone s = runDev true (freqSwitchDone s.clk.count) s := rfl

theorem exec_rangeInvalidate (s : State) :
    exec .rangeInvalidate s = runDev true (Dev.live (rangeInvalidate s.clk.count)) s := rfl

theorem exec_mergeSync (s : State) :
    exec .mergeSync s = runDev true (Dev.live mergeSync) s := rfl

theorem exec_rstdaa (s : State) :
    exec .rstdaa s = runDev true i3cRstdaa s := rfl

theorem exec_enec (s : State) :
    exec .enec s = runDev true i3cEnec s := rfl

theorem exec_disec (s : State) :
    exec .disec s = runDev true i3cDisec s := rfl

theorem exec_getpid (s : State) :
    exec .getpid s = runDev true i3cGetpid s := rfl

theorem exec_getbcr (s : State) :
    exec .getbcr s = runDev true i3cGetbcr s := rfl

theorem exec_getdcr (s : State) :
    exec .getdcr s = runDev true i3cGetdcr s := rfl

theorem exec_getstatus (s : State) :
    exec .getstatus s = runDev true i3cGetstatus s := rfl

theorem exec_getmwl (s : State) :
    exec .getmwl s = runDev true i3cGetmwl s := rfl

theorem exec_getmrl (s : State) :
    exec .getmrl s = runDev true i3cGetmrl s := rfl

theorem exec_vcoreSlewDone (s : State) :
    exec .vcoreSlewDone s = runDev true vcoreSlewDone s := rfl

theorem exec_throttleStep (s : State) :
    exec .throttleStep s = runDev true (throttleStep s.clk.count) s := rfl

theorem exec_gzVcoreOor (s : State) :
    exec .gzVcoreOor s = runDev true gzVcoreOor s := rfl

theorem exec_faultNPulseEnd (s : State) :
    exec .faultNPulseEnd s = runDev true (faultNPulseEnd s.clk.count) s := rfl

theorem exec_haltHold (s : State) :
    exec .haltHold s = runDev true (Dev.live (haltCmd false)) s := rfl

theorem exec_haltAbort (s : State) :
    exec .haltAbort s = runDev true (Dev.live (haltCmd true)) s := rfl

theorem exec_resume (s : State) :
    exec .resume s = runDev true (Dev.live (resumeCmd s.clk.sec s.clk.nsec)) s := rfl

theorem exec_step (s : State) :
    exec .step s = runDev true (Dev.live (stepCmd s.clk.sec s.clk.nsec)) s := rfl

theorem exec_kill (s : State) :
    exec .kill s = runDev true (Dev.live killCmd) s := rfl

theorem exec_laneTestClear (s : State) :
    exec .laneTestClear s = runDev true (Dev.live (laneTestClear s.clk.count)) s := rfl

theorem exec_jtagBypass (s : State) :
    exec .jtagBypass s = runDev true jtagBypass s := rfl

theorem exec_jtagIdcode (s : State) :
    exec .jtagIdcode s = runDev true jtagIdcode s := rfl

theorem exec_jtagClamp (s : State) :
    exec .jtagClamp s = runDev true jtagClamp s := rfl

theorem exec_jtagHighz (s : State) :
    exec .jtagHighz s = runDev true jtagHighz s := rfl

theorem exec_jtagExtestPulse (s : State) :
    exec .jtagExtestPulse s = runDev true jtagExtestPulse s := rfl

theorem exec_jtagExtestTrain (s : State) :
    exec .jtagExtestTrain s = runDev true jtagExtestTrain s := rfl

theorem exec_thermtripNRelease (s : State) :
    exec .thermtripNRelease s = runDev true thermtripRelease s := rfl

theorem exec_ibiAccepted (s : State) :
    exec .ibiAccepted s = runDev true ibiAccepted s := rfl

theorem exec_prsSliceIsolate (r : Req) (v : BitVec 8) (s : State) :
    exec (.prsSliceIsolate r v) s = runDev true (Dev.live (prsSliceIsolate r v.toNat)) s := rfl

theorem exec_completionArrival (cl : Nat) (s : State) :
    exec (.completionArrival cl) s = runDev (isCluster cl) (completionArrival cl) s := rfl

theorem exec_oldestReport (cl : Nat) (s : State) :
    exec (.oldestReport cl) s = runDev (isCluster cl) (oldestReport cl) s := rfl

theorem exec_atelierTimer (k : Nat) (s : State) :
    exec (.atelierTimer k) s = runDev (isAtlCore k) (atelierTimer s.clk.count k) s := rfl

theorem exec_mrecvDeadline (cl : Nat) (token : Nat) (s : State) :
    exec (.mrecvDeadline cl token) s = runDev (isCluster cl && isToken token) (mrecvDeadline s.clk.count cl token) s := rfl

theorem exec_canvasRestoreDone (key : Nat) (bad : Bool) (s : State) :
    exec (.canvasRestoreDone key bad) s = runDev (isTxn key) (canvasRestoreDone key bad) s := rfl

theorem exec_gatedPrefetchDone (p : Nat) (s : State) :
    exec (.gatedPrefetchDone p) s = runDev (isMac p) (gatedPrefetchDone s.clk.count (s.clk.sec * 1000000000 + s.clk.nsec) p) s := rfl

theorem exec_recoveryTimeout (n : Nat) (s : State) :
    exec (.recoveryTimeout n) s = runDev (isRecovery n) (recoveryTimeout s.clk.count n) s := rfl

theorem exec_lockWaitTimeout (t : Nat) (s : State) :
    exec (.lockWaitTimeout t) s = runDev (isThread t) (fun d => d.lockTimeout s.clk.count t) s := rfl

theorem exec_rxrunStop (e : Nat) (j : Nat) (s : State) :
    exec (.rxrunStop e j) s = runDev (isEngine e && isSlot j) (rxrunStop s.clk.sec s.clk.nsec e j) s := rfl

theorem exec_txrunDone (e : Nat) (j : Nat) (s : State) :
    exec (.txrunDone e j) s = runDev (isEngine e && isSlot j) (txrunDone s.clk.count s.clk.sec s.clk.nsec e j) s := rfl

theorem exec_txnextReady (e : Nat) (j : Nat) (s : State) :
    exec (.txnextReady e j) s = runDev (isEngine e && isSlot j) (txnextReady e j) s := rfl

theorem exec_waitcExpiry (e : Nat) (j : Nat) (s : State) :
    exec (.waitcExpiry e j) s = runDev (isEngine e && isSlot j) (waitcExpiry s.clk.count e j) s := rfl

theorem exec_waittExpiry (e : Nat) (j : Nat) (s : State) :
    exec (.waittExpiry e j) s = runDev (isEngine e && isSlot j) (waittExpiry s.clk.count e j) s := rfl

theorem exec_heartbeatToggle (hb : Nat) (s : State) :
    exec (.heartbeatToggle hb) s = runDev (isRing hb) (heartbeatToggle s.clk.count hb) s := rfl

theorem exec_heartbeatLapse (hb : Nat) (s : State) :
    exec (.heartbeatLapse hb) s = runDev (isRing hb) (heartbeatLapse s.clk.count hb) s := rfl

theorem exec_ringInsertDelayEnd (hb : Nat) (s : State) :
    exec (.ringInsertDelayEnd hb) s = runDev (isRing hb) (ringInsertDelayEnd s.clk.count hb) s := rfl

theorem exec_ringSettleEnd (hb : Nat) (s : State) :
    exec (.ringSettleEnd hb) s = runDev (isRing hb) (ringSettleEnd s.clk.count hb) s := rfl

theorem exec_periodicRetrain (ch : Nat) (s : State) :
    exec (.periodicRetrain ch) s = runDev (isChannel ch) (periodicRetrain s.clk.count ch) s := rfl

theorem exec_zeroFillDone (ch : Nat) (s : State) :
    exec (.zeroFillDone ch) s = runDev (isChannel ch) (zeroFillDone s.clk.count ch) s := rfl

theorem exec_rebuildDone (ch : Nat) (s : State) :
    exec (.rebuildDone ch) s = runDev (isChannel ch) (rebuildDone s.clk.count ch) s := rfl

theorem exec_staleRefetchDone (sl : Nat) (s : State) :
    exec (.staleRefetchDone sl) s = runDev (isTcaSlice sl) (staleRefetchDone sl) s := rfl

theorem exec_pollTimer (g : Nat) (s : State) :
    exec (.pollTimer g) s = runDev (isGroup g) (pollTimer s.clk.count g) s := rfl

theorem exec_msixHoldoffExpiry (g : Nat) (s : State) :
    exec (.msixHoldoffExpiry g) s = runDev (isGroup g) (msixHoldoffExpiry s.clk.count g) s := rfl

theorem exec_setdasa (static : BitVec 7) (a : BitVec 7) (s : State) :
    exec (.setdasa static a) s = runDev true (i3cSetdasa static a) s := rfl

theorem exec_setmwl (n : BitVec 16) (s : State) :
    exec (.setmwl n) s = runDev true (i3cSetmwl n) s := rfl

theorem exec_setmrl (n : BitVec 16) (s : State) :
    exec (.setmrl n) s = runDev true (i3cSetmrl n) s := rfl

theorem exec_rstact (a : BitVec 8) (s : State) :
    exec (.rstact a) s = runDev true (i3cRstact a) s := rfl

theorem exec_gzPhaseFault (n : Nat) (s : State) :
    exec (.gzPhaseFault n) s = runDev (isPhase n) (gzPhaseFault n) s := rfl

theorem exec_gzLdoFault (cl : Nat) (s : State) :
    exec (.gzLdoFault cl) s = runDev (isCluster cl) (gzLdoFault cl) s := rfl

theorem exec_laneTestEnable (lane : Nat) (pattern : Nat) (s : State) :
    exec (.laneTestEnable lane pattern) s = runDev (isTestLane lane && isPattern pattern) (Dev.live (laneTestEnable s.clk.count lane pattern)) s := rfl

theorem exec_jtagSamplePreload (v : Boundary) (s : State) :
    exec (.jtagSamplePreload v) s = runDev true (jtagSamplePreload v) s := rfl

theorem exec_jtagExtest (v : Boundary) (s : State) :
    exec (.jtagExtest v) s = runDev true (jtagExtest v) s := rfl

theorem exec_ddrAlertNAsserted (ch : Nat) (s : State) :
    exec (.ddrAlertNAsserted ch) s = runDev (isChannel ch) (ddrAlert ch) s := rfl

theorem exec_trainingStepDone (ch : Nat) (last : Bool) (ok : Bool) (s : State) :
    exec (.trainingStepDone ch last ok) s = runDev (isChannel ch) (trainingStepDone s.clk.count ch last ok) s := rfl

theorem exec_assemblyBufferFree (e : Nat) (j : Nat) (s : State) :
    exec (.assemblyBufferFree e j) s = runDev (isEngine e && isSlot j) (assemblyBufferFree e j) s := rfl

end Sys2Proof.Machine
end

