-- ==== Sys2Proof/Laws/Issue.lean ====
section
/-!
SUPPORT. What issuing a word does: a word of a ready thread has its own effect and nothing more, and a command that is
well formed answers the next state of its operation.
-/

namespace Sys2Proof.Machine

theorem runDev_ok {ok : Bool} {f : Dev → Dev} {s : State} (h : ok = true) : runDev ok f s = .next (s.withDev (f s.dev)) := by
  simp [runDev, h, State.withDev]

theorem Dev.stepped_of_running {d : Dev} {t : Nat} (h : (d.thr t).dbg = .none) : d.stepped t = d := by
  simp [Dev.stepped, h]

/-- A word of a ready thread whose effect leaves debug alone is its effect. -/
theorem Dev.issue_ready {d : Dev} {t : Nat} {body : Dev → Dev} (h : d.ready t) (hb : ((body d).thr t).dbg = .none) :
    d.issue t body = body d := by
  obtain ⟨h1, h2, _⟩ := h
  simp [Dev.issue, h1, h2, Dev.stepped_of_running hb]

@[simp] theorem Thread.advance_dbg (th : Thread) (a : Bool) : (th.advance a).dbg = th.dbg := by
  unfold Thread.advance
  split
  · rfl
  · split
    · rfl
    · cases th.slot with
      | none => rfl
      | branch x => rfl
      | eret => dsimp only; repeat' split
                all_goals rfl

@[simp] theorem Thread.setG_dbg (th : Thread) (r : Nat) (v : Word) : (th.setG r v).dbg = th.dbg := by
  unfold Thread.setG; split <;> rfl

@[simp] theorem Thread.result_dbg (th : Thread) (r : Nat) (v : Word) (w : FlagW) : (th.result r v w).dbg = th.dbg := by
  simp [Thread.result]

@[simp] theorem Thread.setFlags_dbg (th : Thread) (w : FlagW) : (th.setFlags w).dbg = th.dbg := (rfl)

/-- A word of a ready thread that only changes registers answers the state in which they have changed. -/
theorem issue_retired {s : State} {t : Nat} {f : Thread → Thread} (h : s.dev.ready t)
    (hf : (f (s.dev.thr t)).dbg = (s.dev.thr t).dbg) :
    s.withDev (s.dev.issue t fun d => d.retire t f) = s.retired t f := by
  rw [Dev.issue_ready h (by simp [Dev.retire, hf, h.2.2])]
  rfl

theorem applyFlags_keep (f : Word) : applyFlags f FlagW.keep = f := rfl

end Sys2Proof.Machine
end

