-- ==== Sys2Proof/Laws/Kroval.lean ====
section
/-!
SUPPORT. What the words of a thread do: issue, legality, branches, traps, and the loads and stores of a cluster thread's own
shared memory.
-/

namespace Sys2Proof.Machine

theorem run_issue {s : State} {t : Nat} {body : Dev → Dev} {f : Thread → Thread} (h : s.dev.ready t) (ht : isThread t = true)
   (hb : body s.dev = s.dev.retire t f) (hf : (f (s.dev.thr t)).dbg = (s.dev.thr t).dbg) :
   runDev (isThread t) (fun d => d.issue t body) s = .next (s.retired t f) := by
  rw [runDev_ok ht]
  rw [Dev.issue_ready h (by rw [hb]; simp [Dev.retire, hf, h.2.2])]
  rw [hb]; rfl

theorem pairEff_dbg {th th' : Thread} {w : Word} (h : th.pairEff w = some th') : th'.dbg = th.dbg := by
  unfold Thread.pairEff at h
  split at h
  · split at h
    · cases h
      rename_i a b _ _ _
      have key : ∀ (x : Thread) (e : ShortEff), (x.applyShort e).dbg = x.dbg := by
        intro x e; unfold Thread.applyShort; split <;> simp
      rw [key, key]
    · cases h
  · cases h

theorem retire_congr {d : Dev} {t : Nat} {f g : Thread → Thread} (h : f (d.thr t) = g (d.thr t)) : d.retire t f = d.retire t g := by
  simp only [Dev.retire, Dev.updThr, h]

theorem run_issue' {s : State} {t : Nat} {body : Dev → Dev} {d' : Dev} (h : s.dev.ready t) (ht : isThread t = true)
   (hb : body s.dev = d') (hf : (d'.thr t).dbg = .none) :
   runDev (isThread t) (fun d => d.issue t body) s = .next (s.withDev d') := by
  rw [runDev_ok ht, Dev.issue_ready h (by rw [hb]; exact hf), hb]

theorem branch_ok {d : Dev} {t : Nat} {w : Word} {f : Thread → Thread × Slot} (h : slotForbidden w = false) :
   branchTo t w f d = d.setThr t { (f (d.thr t)).1 with pc := (d.thr t).pc + 4, slot := (f (d.thr t)).2 } := by
  unfold branchTo; rw [h]; rfl

theorem legal_true (d : Dev) (t : Nat) {ok : Bool} (w : Word) (body : Dev → Dev) (h : ok = true) : d.legal t ok w body = body d := by subst h; rfl

theorem trap_ok {d : Dev} {t : Nat} {x : Trap} (h : d.trapsTo t) : d.takeTrap t x = d.setThr t
    (((d.thr t).enter (isAtl t) (wd x.cause) x.etval x.kind x.sys).settle
      (wd ((d.thr t).tvb.toNat / 2 ^ 11 * 2 ^ 11 + x.cause * 0x40))) := by
  unfold Dev.takeTrap; simp only [h.1]; rw [if_neg (by simp), if_pos h.2]

theorem enter_dbg (th a e v k sy) : (Thread.enter th a e v k sy).dbg = th.dbg := by unfold Thread.enter; cases th; rfl

theorem settle_dbg (th pc) : (Thread.settle th pc).dbg = th.dbg := by unfold Thread.settle; cases th; rfl

theorem setSup (w : Word) : bit (setBit w 0 true) 0 = true := bit_setFld_b2n w 0 true (by decide)

theorem setIe (w : Word) : bit (setBit (setBit w 1 false) 0 true) 1 = false := by
  have : bit (setBit w 1 false) 1 = false := bit_setFld_b2n w 1 false (by decide)
  unfold setBit at *
  rw [bit_eq_fld] at *
  rw [fld_setFld_apart _ _ _ _ _ _ (by decide) (by decide) (by decide)]
  exact this

theorem estat_tb (a k b c d : Nat) (ha : a ≤ 1) (hk : k < 4) (hb : b ≤ 1) (hc : c ≤ 1) (hd : d ≤ 1) (i : Nat) (hi : i < 32):
   bit (wd (a * 2 ^ 6 + k * 2 ^ 4 + b * 2 ^ 3 + c * 2 ^ 2 + d * 2 + 1)) i = (a * 2 ^ 6 + k * 2 ^ 4 + b * 2 ^ 3 + c * 2 ^ 2 + d * 2 + 1).testBit i := by
  unfold bit wd
  rw [BitVec.toNat_ofNat, Nat.mod_eq_of_lt (by omega)]

theorem entry_ok {d : Dev} {t : Nat} {x : Trap} (h : d.trapsTo t) (hk : x.kind < 4):
   trapEntry (d.thr t) ((d.takeTrap t x).thr t) (isAtl t) (wd x.cause) x.etval (x.cause * 0x40) ∧
   bit ((d.takeTrap t x).thr t).estat 6 = x.sys := by
  rw [trap_ok h, Dev.thr_setThr_self]
  have b2 : ∀ b, b2n b ≤ 1 := by intro b; cases b <;> decide
  have e0 := fun i hi => estat_tb (b2n x.sys) x.kind (b2n (isAtl t && (d.thr t).super)) (b2n (decide ((d.thr t).repLeft.toNat ≠ 0))) (b2n (d.thr t).slotDest.isSome) (b2 _) hk (b2 _) (b2 _) (b2 _) i hi
  refine ⟨⟨rfl, rfl, rfl, ?_, rfl, rfl, rfl, rfl, rfl, rfl, rfl, rfl, rfl, ?_, ?_⟩, ?_⟩
  · refine (e0 0 (by decide)).trans ?_
    rw [Nat.testBit_zero]; simp; omega
  · intro ha
    show (if isAtl t then _ else (d.thr t).sstatus) = _
    rw [ha]; rfl
  · intro ha
    have : (((d.thr t).enter (isAtl t) (wd x.cause) x.etval x.kind x.sys).settle (wd ((d.thr t).tvb.toNat / 2 ^ 11 * 2 ^ 11 + x.cause * 0x40))).sstatus
      = setBit (setBit (setBit (d.thr t).sstatus 3 (bit (d.thr t).sstatus 1)) 1 false) 0 true := by
      show (if isAtl t then _ else (d.thr t).sstatus) = _
      rw [ha]; rfl
    unfold Thread.super
    rw [this]
    exact ⟨setSup _, setIe _⟩
  · refine (e0 6 (by decide)).trans ?_
    have h1 := b2 (isAtl t && (d.thr t).super)
    have h2 := b2 (decide ((d.thr t).repLeft.toNat ≠ 0))
    have h3 := b2 (d.thr t).slotDest.isSome
    rw [Nat.testBit_eq_decide_div_mod_eq]
    generalize b2n (isAtl t && (d.thr t).super) = p at *
    generalize b2n (decide ((d.thr t).repLeft.toNat ≠ 0)) = q at *
    generalize b2n (d.thr t).slotDest.isSome = r at *
    cases x.sys <;> simp [b2n] <;> omega

theorem trap_dbg {d : Dev} {t x} (h : d.trapsTo t) : ((d.takeTrap t x).thr t).dbg = (d.thr t).dbg := by
  rw [trap_ok h, Dev.thr_setThr_self, settle_dbg, enter_dbg]

theorem trap_only {s : State} {t x} (h : s.dev.trapsTo t) : s.onlyThread (s.withDev (s.dev.takeTrap t x)) t := by
  unfold State.onlyThread; rw [trap_ok h]; simp [State.withDev]

theorem advance_eret {th : Thread} (h1 : th.slot = .eret) (h2 : th.repLeft = 0) (h3 : bit th.estat 1 = false) (h4 : bit th.estat 2 = false) :
    th.advance false = { th with estat := setBit th.estat 0 false, pc := th.epc, slot := .none } := by
  have q1 : bit (setBit th.estat 0 false) 1 = false := by
    unfold setBit; rw [bit_eq_fld, fld_setFld_apart _ _ _ _ _ _ (by decide) (by decide) (by decide), ← bit_eq_fld]; exact h3
  have q2 : bit (setBit th.estat 0 false) 2 = false := by
    unfold setBit; rw [bit_eq_fld, fld_setFld_apart _ _ _ _ _ _ (by decide) (by decide) (by decide), ← bit_eq_fld]; exact h4
  unfold Thread.advance
  simp [h1, h2, q1, q2]

theorem tlbFill_clu {d : Dev} {t va : Nat} (h : isAtl t = false) : d.tlbFill t va = d := by
  unfold Dev.tlbFill; simp [h]

theorem xl_own {d : Dev} {t va : Nat} {acc : Acc} (h : isAtl t = false) (hv : va < 0x80000) :
    d.xlate t acc va = .ok (cluBase (clusterOf t) + va) false := by
  unfold Dev.xlate Dev.xlClu; simp [h, hv]

theorem region_own {d : Dev} {t va : Nat} (h : isAtl t = false) (hv : va < 0x80000) (hd : d.fittedDram ≤ pmBase) (_ht : isThread t = true) :
    d.region (cluBase (clusterOf t) + va) = .cluster (clusterOf t) := by
  have hc : clusterOf t < 24 := by
    unfold clusterOf
    have : ¬ 1536 ≤ t := by simpa [isAtl] using h
    omega
  generalize hk : clusterOf t = c at *
  have eb : cluBase c = 1108101562368 + c * 1048576 := rfl
  have e0 : cluBase 0 = 1108101562368 := rfl
  have e24 : cluBase 24 = 1108126728192 := rfl
  have ep : pmBase = 1099511627776 := rfl
  have el : lookupBase = 1103806595072 := rfl
  have em : (cluBase c + va - cluBase 0) % 0x100000 = va := by rw [eb, e0]; omega
  have ed : (cluBase c + va - cluBase 0) / 0x100000 = c := by rw [eb, e0]; omega
  unfold Dev.region
  rw [em, ed, e0, e24, eb, el, ep]
  rw [ep] at hd
  rw [if_neg (by omega), if_neg (by omega), if_neg (by omega), if_pos (by omega), if_pos hv]

theorem advance_gpr (th : Thread) (a : Bool) : (th.advance a).gpr = th.gpr := by
  unfold Thread.advance
  split
  · rfl
  · split
    · rfl
    · cases th.slot with
      | none => rfl
      | branch x => rfl
      | eret => dsimp only; repeat' split
                all_goals rfl

theorem leBytes_length (n v : Nat) : (leBytes n v).length = n := by
  induction n generalizing v with
  | zero => rfl
  | succ n ih => simp [leBytes, ih]

theorem tget_putBytes (m : Tab Byte) (a : Nat) (bs : List Byte) (k : Nat) :
    tget 0 (putBytes m a bs) k = if a ≤ k ∧ k < a + bs.length then byteAt bs (k - a) else tget 0 m k := by
  induction bs generalizing m a with
  | nil =>
    have : ¬ (a ≤ k ∧ k < a + 0) := by omega
    simp [putBytes, this]
  | cons b r ih =>
    rw [putBytes, ih]
    by_cases h : k = a
    · subst h
      rw [if_neg (by omega), tget_tset_self, if_pos (by simp)]
      simp [byteAt]
    · rw [tget_tset_ne _ _ _ _ _ h]
      by_cases h2 : a + 1 ≤ k ∧ k < a + 1 + r.length
      · rw [if_pos h2, if_pos (by simp; omega)]
        have : k - a = k - (a + 1) + 1 := by omega
        rw [this]; simp [byteAt]
      · rw [if_neg h2, if_neg (by simp; omega)]

theorem plainLoad_ok {d : Dev} {t : Nat} {l : Load} {f : Word → Dev → Dev} (h : d.sramBad l.paddr l.size = false) :
    d.plainLoad t l f = f (loadVal l.size l.signed (d.memRead l.paddr l.size)) d := by
  unfold Dev.plainLoad; rw [h]; rfl

theorem startLoad_own {d : Dev} {now t : Nat} {idn : Ident} {l : Load} {va : Word} (hr : d.region l.paddr = .cluster (clusterOf t))
    (ha : isAtl t = false) (hb : d.sramBad l.paddr l.size = false) :
    d.startLoad now t idn l va = d.passed t (fun th => th.loaded l (loadVal l.size l.signed (d.memRead l.paddr l.size))) := by
  unfold Dev.startLoad
  dsimp only; rw [hr]
  simp only [ha, Bool.not_false, decide_true, Bool.and_self, if_true]
  exact plainLoad_ok hb

theorem checked_own {d : Dev} {t : Nat} {acc : Acc} {va : Word} {size : Nat} {body : Nat → Bool → Dev → Dev} (ha : isAtl t = false) (hv : va.toNat < 0x80000)
    (hm : va.toNat % size = 0) (hw : d.wpMatch t (decide (acc = .store)) va.toNat = none) :
    d.checked t acc va size body = body (cluBase (clusterOf t) + va.toNat) false d := by
  unfold Dev.checked
  rw [if_neg (by omega), tlbFill_clu ha]
  dsimp only
  rw [xl_own ha hv]
  dsimp only
  rw [hw]

theorem storeStart_own {d : Dev} {now t : Nat} {a : Nat} {cached : Bool} {bs : List Byte} {va : Word} {fin : Dev → Dev} {c : Nat}
   (hr : d.region a = .cluster c) :
    d.startStore now t a cached bs va fin = fin (d.memWrite a bs) := by
  unfold Dev.startStore
  rw [hr]

theorem leg_ok {post : Bool} {a b : BitVec 5} (hp : post = true → a ≠ b) : (!post || decide (a ≠ b)) = true := by cases post <;> simp_all

theorem passed_dbg {d : Dev} {t : Nat} {f : Thread → Thread} (h : (f (d.thr t)).dbg = (d.thr t).dbg) :
    ((d.passed t f).thr t).dbg = (d.thr t).dbg := by
  simp only [Dev.passed, Dev.thr_updThr_self, Thread.advance_dbg, h]

theorem loaded_dbg (th : Thread) (l : Load) (v : Word) : (th.loaded l v).dbg = th.dbg := by
  unfold Thread.loaded; cases l.post with
  | none => exact Thread.setG_dbg _ _ _
  | some p => exact (Thread.setG_dbg _ _ _).trans (Thread.setG_dbg _ _ _)

theorem setG_gpr_congr (a b : Thread) (r : Nat) (v : Word) (h : a.gpr = b.gpr) : (a.setG r v).gpr = (b.setG r v).gpr := by
  unfold Thread.setG; split <;> simp [h]

theorem loaded_gpr (th : Thread) (l : Load) (v : Word) : (th.loaded l v).gpr = (match l.post with
   | some (r, x) => (th.setG l.rd v).setG r x | none => th.setG l.rd v).gpr := by
  unfold Thread.loaded
  cases l.post with
  | none => rfl
  | some p => exact setG_gpr_congr _ _ _ _ rfl

theorem load_key {s : State} {t op size : Nat} {sg post : Bool} {f : IFmt} {idn : Ident} {now : Nat} {va : Word} {inc : Option (Nat × Word)} (hr : s.dev.ready t)
   (hp : post = true → f.rd ≠ f.ra) 
   (hva : (if post then (s.dev.thr t).g f.ra.toNat else (s.dev.thr t).g f.ra.toNat + sextN 15 f.imm.toNat) = va)
   (hinc : (if post then some (f.ra.toNat, (s.dev.thr t).g f.ra.toNat + sextN 15 f.imm.toNat) else none) = inc)
   (h : s.dev.ownAccess t false va.toNat size) :
   runDev (isThread t) (loadCmd op size sg post now t idn f) s = .next (s.withDev (s.dev.passed t (fun th => th.loaded ⟨f.rd.toNat, va, cluBase (clusterOf t) + va.toNat, size, sg, false, false, inc⟩
      (loadVal size sg (s.dev.memRead (cluBase (clusterOf t) + va.toNat) size))))) := by
  obtain ⟨ha, ht, hv, hm, hd, hw, hb⟩ := h
  have leg : (!post || decide (f.rd ≠ f.ra)) = true := leg_ok hp
  have hsg : IFmt.sext f = sextN 15 f.imm.toNat := by simp only [IFmt.sext]
  refine run_issue' hr ht ?_ (Eq.trans (passed_dbg (loaded_dbg _ _ _)) hr.2.2)
  dsimp only
  rw [legal_true _ _ _ _ leg, hsg, hva, hinc, checked_own (acc := .load) ha hv hm (show s.dev.wpMatch t (decide (Acc.load = Acc.store)) va.toNat = none from hw)]
  exact startLoad_own (l := ⟨f.rd.toNat, va, cluBase (clusterOf t) + va.toNat, size, sg, false, false, inc⟩) (region_own ha hv hd ht) ha hb

theorem load_own {s : State} {t op size : Nat} {sg post : Bool} {f : IFmt} {idn : Ident} {now : Nat} {va : Word} {inc : Option (Nat × Word)} (hr : s.dev.ready t)
   (hp : post = true → f.rd ≠ f.ra) 
   (hva : (if post then (s.dev.thr t).g f.ra.toNat else (s.dev.thr t).g f.ra.toNat + sextN 15 f.imm.toNat) = va)
   (hinc : (if post then some (f.ra.toNat, (s.dev.thr t).g f.ra.toNat + sextN 15 f.imm.toNat) else none) = inc)
   (h : s.dev.ownAccess t false va.toNat size) :
   ∃ u, runDev (isThread t) (loadCmd op size sg post now t idn f) s = .next u ∧ s.onlyThread u t ∧
    (u.dev.thr t).gpr = (match inc with
   | some (r, x) => ((s.dev.thr t).setG f.rd.toNat (loadVal size sg (s.dev.ownBytes t va.toNat size))).setG r x | none => (s.dev.thr t).setG f.rd.toNat (loadVal size sg (s.dev.ownBytes t va.toNat size))).gpr := by
  refine ⟨_, load_key hr hp hva hinc h, ?_, ?_⟩
  · simp only [State.onlyThread, State.withDev, Dev.passed, Dev.updThr, Dev.thr_setThr_self]
  · simp only [State.withDev, Dev.passed, Dev.thr_updThr_self, advance_gpr]
    exact loaded_gpr _ _ _

theorem loadVal_ld (size : Nat) (l : List Byte) (h : l.length = size) (sg : Bool) : loadVal size sg l = if sg then sextN (8 * size) (leVal l) else wd (leVal l) := by
  unfold loadVal; subst h; rw [List.take_length]

theorem ownBytes_length (d : Dev) (t va n : Nat) : (d.ownBytes t va n).length = n := by
  unfold Dev.ownBytes Dev.memRead; rw [List.length_map, List.length_range]

theorem putb {d : Dev} {base : Nat} {bs : List Byte} (hpo : d.drc.poison = []) (hmi : d.drc.mirrors = []) (hst : d.rf Reg.DRC_STATUS 23 16 = 0) :
   d.memWrite base bs = { d with mem := putBytes d.mem base bs } := by
  unfold Dev.memWrite; simp [hpo, hmi, hst]

theorem store_key {s : State} {t size : Nat} {post : Bool} {f : IFmt} {c : Clock} {va : Word} (hr : s.dev.ready t)
   (hpo : s.dev.drc.poison = []) (hmi : s.dev.drc.mirrors = []) (hst : s.dev.rf Reg.DRC_STATUS 23 16 = 0)
   (hva : (if post then (s.dev.thr t).g f.ra.toNat else (s.dev.thr t).g f.ra.toNat + sextN 15 f.imm.toNat) = va)
   (h : s.dev.ownAccess t true va.toNat size) :
   runDev (isThread t) (storeCmd size post t c f) s = .next (s.withDev (({ s.dev with mem := putBytes s.dev.mem (cluBase (clusterOf t) + va.toNat) (leBytes size ((s.dev.thr t).g f.rd.toNat).toNat) } : Dev).passed t (fun th => if post then th.setG f.ra.toNat (th.g f.ra.toNat + sextN 15 f.imm.toNat) else th))) := by
  obtain ⟨ha, ht, hv, hm, hd, hw, hb⟩ := h
  have hva' : storeVa post f (s.dev.thr t) = va := by rw [← hva]; unfold storeVa IFmt.sext; rfl
  refine run_issue' hr ht ?_ (Eq.trans (passed_dbg ?_) hr.2.2)
  · dsimp only
    have hsg : IFmt.sext f = sextN 15 f.imm.toNat := by simp only [IFmt.sext]
    rw [hva', checked_own (acc := .store) ha hv hm (show s.dev.wpMatch t (decide (Acc.store = Acc.store)) va.toNat = none from hw), storeStart_own (region_own ha hv hd ht), putb hpo hmi hst, hsg]
    rw [if_neg]
    intro hh
    have hh' : s.dev.region (cluBase (clusterOf t) + va.toNat) = Region.regs := hh
    rw [region_own ha hv hd ht] at hh'
    exact absurd hh' (by simp)
  · cases post
    · rfl
    · exact Thread.setG_dbg _ _ _

theorem memRead_put (d : Dev) (base : Nat) (bs : List Byte) : ({ d with mem := putBytes d.mem base bs } : Dev).memRead base bs.length = bs := by
  show (List.range bs.length).map (fun i => tget 0 (putBytes d.mem base bs) (base + i)) = bs
  apply List.ext_getElem
  · simp
  · intro i h1 h2
    simp only [List.getElem_map, List.getElem_range]
    rw [tget_putBytes, if_pos (by omega), Nat.add_sub_cancel_left]
    unfold byteAt
    rw [List.getD_eq_getElem?_getD, List.getElem?_eq_getElem h2]; rfl

theorem store_own {s : State} {t size : Nat} {post : Bool} {f : IFmt} {c : Clock} {va : Word} (hr : s.dev.ready t)
   (hpo : s.dev.drc.poison = []) (hmi : s.dev.drc.mirrors = []) (hst : s.dev.rf Reg.DRC_STATUS 23 16 = 0)
   (hva : (if post then (s.dev.thr t).g f.ra.toNat else (s.dev.thr t).g f.ra.toNat + sextN 15 f.imm.toNat) = va)
   (h : s.dev.ownAccess t true va.toNat size) :
   ∃ u, runDev (isThread t) (storeCmd size post t c f) s = .next u ∧ 
      ((∀ a, a < cluBase (clusterOf t) + va.toNat ∨ cluBase (clusterOf t) + va.toNat + size ≤ a → u.dev.memGet a = s.dev.memGet a) ∧
      u.dev.ownBytes t va.toNat size = leBytes size ((s.dev.thr t).g f.rd.toNat).toNat) ∧
      (u.dev.thr t).gpr = (if post then (s.dev.thr t).setG f.ra.toNat ((s.dev.thr t).g f.ra.toNat + sextN 15 f.imm.toNat) else s.dev.thr t).gpr := by
  refine ⟨_, store_key hr hpo hmi hst hva h, ⟨?_, ?_⟩, ?_⟩
  · intro a hh
    show tget 0 (putBytes s.dev.mem (cluBase (clusterOf t) + va.toNat) _) a = tget 0 s.dev.mem a
    rw [tget_putBytes, if_neg]
    simp only [leBytes_length]
    omega
  · have := memRead_put s.dev (cluBase (clusterOf t) + va.toNat) (leBytes size ((s.dev.thr t).g f.rd.toNat).toNat)
    rw [leBytes_length] at this
    exact this
  · simp only [State.withDev, Dev.passed, Dev.thr_updThr_self, advance_gpr]
    rfl

theorem storeReg_clu {post : Bool} {t : Nat} {f : IFmt} {d : Dev} (h : isAtl t = false) : storeReg post t f d = none := by
  unfold storeReg; simp [h]


end Sys2Proof.Machine
end

