-- ==== Sys2Proof/Laws/Cache.lean ====
section
/-!
SUPPORT. What the cache group, tlbinv and the lock words do, and the parts of the device that a write of memory leaves alone.
-/

namespace Sys2Proof.Machine

theorem cache_ok {s : State} {t fn : Nat} {f : R3} {addr : Bool} {body : Nat → Dev → Dev} {d' : Dev} (ht : isThread t = true) (hr : s.dev.ready t)
   (hf : (decide (f.rd.toNat = 0 ∧ f.rb.toNat = 0) && (addr || decide (f.ra.toNat = 0))) = true)
   (hb : body ((s.dev.thr t).g f.ra.toNat).toNat s.dev = d') (hd : d'.thr t = s.dev.thr t) :
   runDev (isThread t) (fun d => cacheCmd t f fn addr d body) s = .next (s.withDev (d'.retire t id)) := by
  refine run_issue' hr ht ?_ ?_
  · dsimp only
    rw [legal_true _ _ _ _ hf, hb]
  · rw [Dev.retire, Dev.thr_updThr_self, Thread.advance_dbg]
    exact (congrArg Thread.dbg hd).trans hr.2.2

theorem atl_ok {s : State} {t fn : Nat} {f : R3} {addr : Bool} {body : Nat → Dev → Dev} {d' : Dev} (ht : isThread t = true) (hr : s.dev.ready t)
   (ha : isAtl t = true) (hs : (s.dev.thr t).super = true)
   (hf : (decide (f.rd.toNat = 0 ∧ f.rb.toNat = 0) && (addr || decide (f.ra.toNat = 0))) = true)
   (hb : body ((s.dev.thr t).g f.ra.toNat).toNat s.dev = d') (hd : d'.thr t = s.dev.thr t) :
   runDev (isThread t) (fun d => l2Cmd t f fn addr d body) s = .next (s.withDev (d'.retire t id)) := by
  refine run_issue' hr ht ?_ ?_
  · dsimp only
    rw [ha, hf, hs]
    simp only [Bool.not_true, Bool.or_false, Bool.false_eq_true, if_false]
    rw [hb]
  · rw [Dev.retire, Dev.thr_updThr_self, Thread.advance_dbg]
    exact (congrArg Thread.dbg hd).trans hr.2.2

theorem retire_thr (d : Dev) (t : Nat) : (d.retire t id).thr t = (d.thr t).advance (isAtl t) := by
  rw [Dev.retire, Dev.thr_updThr_self]; rfl

theorem tget_tdrop {α : Type} (d0 : α) (p : Nat → Bool) (m : Tab α) (k : Nat) : tget d0 (tdrop p m) k = if p k then d0 else tget d0 m k := by
  unfold tget tdrop
  induction m with
  | nil => simp [Tab.get]
  | cons e r ih =>
    rw [List.filter_cons]
    by_cases h : p e.1 = true
    · simp only [h, Bool.not_true, Bool.false_eq_true, if_false, ih]
      by_cases hk : k = e.1
      · subst hk; simp [h]
      · simp [Tab.get, hk]
    · simp only [h, Bool.not_false, if_true]
      by_cases hk : k = e.1
      · subst hk; simp [Tab.get, h]
      · simp [Tab.get, hk, ih]

theorem wbuf_setWbuf (d : Dev) (c : Nat) (l : List WbEntry) : (d.setWbuf c l).wbuf c = l := by unfold Dev.wbuf Dev.setWbuf; exact tget_tset_self _ _ _ _

theorem dramCapture_krv (d : Dev) (k a : Nat) : (d.dramCapture k a).krv = d.krv := by
  unfold Dev.dramCapture; split
  · exact Dev.setRf_krv _ _ _ _ _
  · dsimp only; simp

theorem memWrite_krv (d : Dev) (a : Nat) (bs : List Byte) : (d.memWrite a bs).krv = d.krv := by
  unfold Dev.memWrite; split
  · rfl
  · unfold Dev.dramWrite
    dsimp only
    split
    · exact (Dev.raise_krv _ _ _).trans (dramCapture_krv _ _ _)
    · rfl

theorem memMask_krv (d : Dev) (b : Nat) (m : Tab (Option Byte)) : (d.memMask b m).krv = d.krv := by
  unfold Dev.memMask
  generalize byteRuns m [] = l
  induction l with
  | nil => rfl
  | cons r l ih => rw [List.foldr_cons, memWrite_krv, ih]

theorem thr_of_krv {d d' : Dev} (h : d.krv.threads = d'.krv.threads) (t : Nat) : d.thr t = d'.thr t := by
  unfold Dev.thr; rw [h]

theorem l2Clean_krv (d : Dev) (l : L2Line) : (d.l2Clean l).krv = d.krv := by
  unfold Dev.l2Clean; split
  · unfold Dev.markBad; exact memWrite_krv _ _ _
  · rfl

def keepWT (d0 d : Dev) : Prop := d.krv.wbuf = d0.krv.wbuf ∧ d.krv.threads = d0.krv.threads

theorem pick_krv (d : Dev) (n : Nat) : (d.pick n).2.krv = d.krv := rfl

theorem l2Room_keep (d : Dev) (a : Nat) : keepWT d (d.l2Room a) := by
  unfold Dev.l2Room
  dsimp only
  split
  · exact ⟨rfl, rfl⟩
  · split
    · unfold Dev.l2Drop keepWT
      dsimp only
      rw [l2Clean_krv, pick_krv]; exact ⟨rfl, rfl⟩
    · exact ⟨rfl, rfl⟩

theorem l2Fill_keep (d : Dev) (a : Nat) : keepWT d (d.l2Fill a) := by
  unfold Dev.l2Fill
  split
  · exact ⟨rfl, rfl⟩
  · obtain ⟨r, c, f, e⟩ := seeDram_only (d.l2Room a) (l2Base a) l2Size
    dsimp only
    rw [e]
    exact l2Room_keep d a

theorem l2Put_keep (d : Dev) (a : Nat) (bs : List Byte) : keepWT d (d.l2Put a bs) := l2Fill_keep d a

theorem drainWb_keep (d : Dev) (c : Nat) (e : WbEntry) : keepWT d (d.drainWb c e) := by
  unfold Dev.drainWb
  split
  · unfold keepWT; rw [memMask_krv]; exact ⟨rfl, rfl⟩
  · generalize byteRuns e.bytes [] = l
    induction l with
    | nil => exact ⟨rfl, rfl⟩
    | cons r l ih =>
      rw [List.foldr_cons]
      have := l2Put_keep (List.foldr (fun r d => d.l2Put (32 * e.line + r.1) r.2) d l) (32 * e.line + r.1) r.2
      exact ⟨this.1.trans ih.1, this.2.trans ih.2⟩

theorem drainCore_keep (d : Dev) (c : Nat) : (d.drainCore c).wbuf c = [] ∧ (d.drainCore c).krv.threads = d.krv.threads := by
  unfold Dev.drainCore
  have := foldl_inv (fun d e => Dev.drainWb d c e) (keepWT (d.setWbuf c [])) (fun b e hb => by
    have := drainWb_keep b c e
    exact ⟨this.1.trans hb.1, this.2.trans hb.2⟩) (d.wbuf c) (d.setWbuf c []) ⟨rfl, rfl⟩
  refine ⟨?_, this.2⟩
  exact (congrArg (fun m => tget [] m c) this.1).trans (wbuf_setWbuf d c [])

theorem setWbuf_nil (d : Dev) (c : Nat) : ∃ k, d.setWbuf c [] = { d with krv := { d.krv with wbuf := k } } := ⟨_, rfl⟩

theorem went_ok {s : State} {t : Nat} {k : Krv} {d : Dev} (h : d = { s.dev with krv := k }) (ht : k.threads = s.dev.krv.threads) :
    (s.withDev (d.retire t id)) = s.withDev { s.dev with krv := (s.withDev (d.retire t id)).dev.krv } ∧
    (s.withDev (d.retire t id)).dev.thr t = (s.dev.thr t).advance (isAtl t) := by
  subst h
  refine ⟨rfl, ?_⟩
  show (Dev.retire _ _ _).thr t = _
  rw [retire_thr, thr_of_krv (show ({ s.dev with krv := k } : Dev).krv.threads = s.dev.krv.threads from ht)]

theorem key_core {c l c' l' n : Nat} (hn : 0 < n) : c * n + l % n = c' * n + l' % n ↔ c = c' ∧ l % n = l' % n := by
  constructor
  · intro h
    have h1 : (c * n + l % n) / n = c := by rw [Nat.mul_comm, Nat.mul_add_div hn, Nat.div_eq_of_lt (Nat.mod_lt _ hn)]; omega
    have h2 : (c' * n + l' % n) / n = c' := by rw [Nat.mul_comm, Nat.mul_add_div hn, Nat.div_eq_of_lt (Nat.mod_lt _ hn)]; omega
    have : c = c' := by rw [← h1, h, h2]
    subst this; exact ⟨rfl, by omega⟩
  · rintro ⟨rfl, h⟩; rw [h]

theorem key_div (c l n : Nat) (hn : 0 < n) : (c * n + l % n) / n = c := by
  rw [Nat.mul_comm, Nat.mul_add_div hn, Nat.div_eq_of_lt (Nat.mod_lt _ hn)]; omega

theorem retire_dc (d : Dev) (t c l : Nat) : (d.retire t id).dline c l = d.dline c l := rfl

theorem dline_set (d : Dev) (core line c l : Nat) (h : (d.dline core line).isSome = true) :
    (d.setDline core line none).dline c l = if c = core ∧ l = line then none else d.dline c l := by
  unfold Dev.dline Dev.setDline
  dsimp only
  rw [tget_tset]
  by_cases hk : dcKey c l = dcKey core line
  · rw [if_pos hk]
    obtain ⟨e1, e2⟩ := (key_core (by decide)).mp hk
    subst e1
    by_cases hl : l = line
    · rw [if_pos ⟨rfl, hl⟩]; rfl
    · rw [if_neg (fun h => hl h.2), hk]
      unfold Dev.dline at h
      cases hx : tget none d.krv.dcache (dcKey c line) with
      | none => rfl
      | some x =>
        rw [hx] at h
        simp only [Option.filter] at h ⊢
        by_cases hh : x.line = line
        · rw [if_neg (by simp; omega)]
        · simp [hh] at h
  · rw [if_neg hk, if_neg]
    rintro ⟨rfl, rfl⟩; exact hk rfl

end Sys2Proof.Machine
end

