-- ==== Sys2Proof/Laws/Threads.lean ====
section
/-!
SUPPORT. Thread control, the special registers and the words that wait.
-/

namespace Sys2Proof.Machine

theorem th_ok {s : State} {t a : Nat} {w : Word} {ra : Nat} {ok : Bool} {body : Nat → Dev → Dev} {d' : Dev} (ht : isThread t = true) (ha : isAtl t = false) (hr : s.dev.ready t)
   (h0 : t % 8 = 0) (hra : ((s.dev.thr t).g ra).toNat = a) (h8 : a < 8) (hok : ok = true)
   (hb : body (t / 8 * 8 + a) s.dev = d') (hd : (d'.thr t).dbg = .none) :
   runDev (isThread t) (fun d => thCmd t w ra ok d body) s = .next (s.withDev d') := by
  refine run_issue' hr ht ?_ hd
  dsimp only
  rw [ha, hok, if_neg (by simp), if_neg (by simp), if_neg (by unfold thIdx; omega), if_neg (by rw [hra]; omega), hra, hb]

theorem setSel_dbg (th : Thread) (n : Nat) (v : Word) : (th.setSel n v).dbg = th.dbg := by
  unfold Thread.setSel
  split
  · exact Thread.setG_dbg _ _ _
  · split <;> rfl

theorem thr_set_dbg {d : Dev} {t u : Nat} {x : Thread} (h : x.dbg = (d.thr u).dbg) : ((d.setThr u x).thr t).dbg = (d.thr t).dbg := by
  by_cases e : t = u
  · subst e; rw [Dev.thr_setThr_self, h]
  · rw [Dev.thr_setThr_ne _ _ _ _ e]

theorem retire_dbg {d : Dev} {t : Nat} {f : Thread → Thread} (h : (f (d.thr t)).dbg = (d.thr t).dbg) : ((d.retire t f).thr t).dbg = (d.thr t).dbg := by
  unfold Dev.retire; rw [Dev.thr_updThr_self, Thread.advance_dbg, h]

theorem mfs_ok {s : State} {t : Nat} {r : BitVec 5} {fn : BitVec 10} {v : Word} {f : Thread → Thread} (ht : isThread t = true) (hr : s.dev.ready t)
   (h : (s.dev.thr t).spr t s.clk.count fn.toNat = .value v)
   (hf : f (s.dev.thr t) = (if fn.toNat = 0x00B then { s.dev.thr t with nowHi := some (wd (s.clk.count / 2 ^ 32)) }
            else if fn.toNat = 0x00C then { s.dev.thr t with nowHi := none } else s.dev.thr t).setG r.toNat v) :
   exec (.mfs t ⟨r, 0, 0, fn⟩) s = .next (s.retired t f) := by
  rw [exec_mfs]
  refine run_issue hr ht ?_ ?_
  · dsimp only
    rw [legal_true _ _ _ _ (by simp), h]
    dsimp only
    exact retire_congr hf.symm
  · rw [hf, Thread.setG_dbg]; split
    · rfl
    · split <;> rfl

theorem mts_ok {s : State} {t : Nat} {r : BitVec 5} {fn : BitVec 10} {x : Thread} (ht : isThread t = true) (hr : s.dev.ready t)
   (h : (s.dev.thr t).setSpr t fn.toNat ((s.dev.thr t).g r.toNat) = (x, none)) (hx : x.dbg = (s.dev.thr t).dbg) :
   exec (.mts t ⟨0, r, 0, fn⟩) s = .next (s.retired t fun _ => x) := by
  rw [exec_mts]
  refine run_issue hr ht ?_ ?_
  · dsimp only
    rw [legal_true _ _ _ _ (by simp), h]
  · exact hx

end Sys2Proof.Machine
end

