-- ==== Sys2Proof/Laws/Tasks.lean ====
section
/-!
SUPPORT. The ends of tasks, aborts, and what completes a thread's words.
-/

namespace Sys2Proof.Machine

/-- Only threads (debug's hold apart), the lock unit, registers and fault reports differ. -/

def lkuOnly (d d' : Dev) : Prop :=
  (∃ k l r f, d' = { d with krv := k, lku := l, regs := r, flt := f }) ∧ ∀ t, (d'.thr t).dbg = (d.thr t).dbg

theorem lkuOnly_refl (d : Dev) : lkuOnly d d := ⟨⟨_, _, _, _, rfl⟩, fun _ => rfl⟩

theorem lkuOnly_trans {a b c : Dev} (h : lkuOnly a b) (h2 : lkuOnly b c) : lkuOnly a c := by
  obtain ⟨⟨_, _, _, _, rfl⟩, g⟩ := h
  obtain ⟨⟨_, _, _, _, rfl⟩, g2⟩ := h2
  exact ⟨⟨_, _, _, _, rfl⟩, fun t => (g2 t).trans (g t)⟩

theorem lkuOnly_foldl {α : Type} (f : Dev → α → Dev) (h : ∀ d a, lkuOnly d (f d a)) (l : List α) (d : Dev) : lkuOnly d (l.foldl f d) :=
  foldl_inv f (lkuOnly d) (fun _ a hb => lkuOnly_trans hb (h _ a)) l d (lkuOnly_refl d)

theorem lkuOnly_setLock (d : Dev) (k : Nat) (l : Lock) : lkuOnly d (d.setLock k l) := ⟨⟨_, _, _, _, rfl⟩, fun _ => rfl⟩

theorem lkuOnly_setSem (d : Dev) (k : Nat) (l : Sem) : lkuOnly d (d.setSem k l) := ⟨⟨_, _, _, _, rfl⟩, fun _ => rfl⟩

theorem lkuOnly_setThr (d : Dev) (k : Nat) (l : Thread) (h : l.dbg = (d.thr k).dbg) : lkuOnly d (d.setThr k l) :=
  ⟨⟨_, _, _, _, rfl⟩, fun _ => thr_set_dbg h⟩

theorem lkuOnly_setReg (d : Dev) (k : Nat) (l : Word) : lkuOnly d (d.setReg k l) := ⟨⟨_, _, _, _, rfl⟩, fun _ => rfl⟩

theorem lkuOnly_bump (d : Dev) (k l : Nat) : lkuOnly d (d.bump k l) := ⟨⟨_, _, _, _, rfl⟩, fun _ => rfl⟩

theorem lkuOnly_raise (d : Dev) (k l : Nat) : lkuOnly d (d.raise k l) := ⟨⟨_, _, _, _, rfl⟩, fun _ => rfl⟩

theorem lkuOnly_lockReply (d : Dev) (t h c : Nat) : lkuOnly d (d.lockReply t h c) := by
  unfold Dev.lockReply; dsimp only; split
  · split
    · exact lkuOnly_setThr _ _ _ ((Thread.advance_dbg _ _).trans (Thread.setG_dbg _ _ _))
    · exact lkuOnly_refl _
  · exact lkuOnly_refl _

theorem lkuOnly_endWait (d : Dev) (t : Nat) (w : Word) : lkuOnly d (d.endWait t w) := by
  unfold Dev.endWait; dsimp only; split
  · exact lkuOnly_setThr _ _ _ ((Thread.advance_dbg _ _).trans (Thread.setG_dbg _ _ _))
  · exact lkuOnly_refl _

theorem lkuOnly_wakeLock (d : Dev) (a : Nat) : lkuOnly d (d.wakeLock a) := by
  unfold Dev.wakeLock
  refine lkuOnly_foldl _ (fun d t => ?_) _ _
  split
  · exact lkuOnly_endWait _ _ _
  · exact lkuOnly_refl _

theorem lkuOnly_lockAcquire (d : Dev) (k : Nat) (w : Waiter) : lkuOnly d (d.lockAcquire k w) := by
  unfold Dev.lockAcquire
  dsimp only
  split
  · split
    · exact lkuOnly_lockReply _ _ _ _
    · exact lkuOnly_setLock _ _ _
  · split
    · exact lkuOnly_trans (lkuOnly_setLock _ _ _) (lkuOnly_lockReply _ _ _ _)
    · split
      · exact ⟨⟨_, _, _, _, rfl⟩, fun _ => rfl⟩
      · exact lkuOnly_trans (lkuOnly_setLock _ _ _) (lkuOnly_lockReply _ _ _ _)

theorem lkuOnly_lku (d : Dev) (l : Lku) : lkuOnly d { d with lku := l } := ⟨⟨_, _, _, _, rfl⟩, fun _ => rfl⟩

theorem lkuOnly_lockEnter (d : Dev) (k : Nat) (w : Waiter) : lkuOnly d (d.lockEnter k w) := by
  unfold Dev.lockEnter
  dsimp only
  split
  · exact lkuOnly_setLock _ _ _
  · exact lkuOnly_trans (lkuOnly_setLock _ _ _) (lkuOnly_lockReply _ _ _ _)

theorem lkuOnly_serveEntry (d : Dev) (n : Nat) : lkuOnly d (d.serveEntry n) := by
  induction n generalizing d with
  | zero => exact lkuOnly_refl _
  | succ n ih =>
    unfold Dev.serveEntry
    split
    · exact lkuOnly_refl _
    · split
      · exact lkuOnly_trans (lkuOnly_trans (lkuOnly_lku _ _) (lkuOnly_lockEnter _ _ _)) (ih _)
      · exact lkuOnly_refl _

theorem lkuOnly_lockFree (d : Dev) (k : Nat) (b : Bool) : lkuOnly d (d.lockFree k b) := by
  unfold Dev.lockFree
  dsimp only
  split
  · exact lkuOnly_trans (lkuOnly_trans (lkuOnly_setLock _ _ _) (lkuOnly_lockReply _ _ _ _)) (lkuOnly_wakeLock _ _)
  · exact lkuOnly_trans (lkuOnly_trans (lkuOnly_setLock _ _ _) (lkuOnly_serveEntry _ _)) (lkuOnly_wakeLock _ _)

theorem lkuOnly_capture (d : Dev) (k a h : Nat) : lkuOnly d (d.lkuCapture k a h) := by
  unfold Dev.lkuCapture
  split
  · exact ⟨⟨_, _, _, _, rfl⟩, fun t => by simp⟩
  · exact lkuOnly_trans (lkuOnly_trans (lkuOnly_setReg _ _ _) (lkuOnly_setReg _ _ _)) (lkuOnly_setReg _ _ _)

theorem lkuOnly_broken (d : Dev) (a h : Nat) : lkuOnly d (d.brokenRelease a h) := by
  unfold Dev.brokenRelease
  refine lkuOnly_trans (b := (d.bump Reg.LKU_BROKEN_CNT 1).lkuCapture 2 a h) ?_ (lkuOnly_raise _ _ _)
  exact lkuOnly_trans (lkuOnly_bump _ _ _) (lkuOnly_capture _ _ _ _)

theorem lkuOnly_badRelease (d : Dev) (a h : Nat) : lkuOnly d (d.badRelease a h) := by
  unfold Dev.badRelease
  refine lkuOnly_trans (b := (d.bump Reg.LKU_BAD_REL_CNT 1).lkuCapture 1 a h) ?_ (lkuOnly_raise _ _ _)
  exact lkuOnly_trans (lkuOnly_bump _ _ _) (lkuOnly_capture _ _ _ _)

theorem lkuOnly_lockRelease (d : Dev) (k h : Nat) : lkuOnly d (d.lockRelease k h) := by
  unfold Dev.lockRelease
  split
  · exact lkuOnly_lockFree _ _ _
  · exact lkuOnly_badRelease _ _ _

theorem lkuOnly_semWrite (d : Dev) (h o : Nat) : lkuOnly d (d.semWrite h o) := by
  unfold Dev.semWrite Dev.semRelease
  split
  · split
    · exact lkuOnly_setSem _ _ _
    · exact lkuOnly_badRelease _ _ _
  · exact lkuOnly_refl _

theorem lkuOnly_flushReleases (d : Dev) (h : Nat) : lkuOnly d (d.flushReleases h) := by
  unfold Dev.flushReleases
  split
  · refine lkuOnly_trans (lkuOnly_lku _ _) (lkuOnly_foldl _ (fun d r => ?_) _ _)
    split
    · exact lkuOnly_semWrite _ _ _
    · exact lkuOnly_lockRelease _ _ _
  · exact lkuOnly_refl _

theorem lkuOnly_breakHeld (d : Dev) (h : Nat) : lkuOnly d (d.breakHeld h) := by
  unfold Dev.breakHeld
  dsimp only
  refine lkuOnly_trans (lkuOnly_foldl _ (fun d k => ?_) _ _) (lkuOnly_foldl _ (fun d k => ?_) _ _)
  · exact lkuOnly_trans (lkuOnly_broken _ _ _) (lkuOnly_lockFree _ _ _)
  · exact lkuOnly_trans (lkuOnly_broken _ _ _) (lkuOnly_setSem _ _ _)

/-- What the end of a holder changes: threads, the lock unit, its registers and reports. -/
theorem lkuOnly_breakHolder (d : Dev) (h : Nat) : lkuOnly d (d.breakHolder h) :=
  lkuOnly_trans (lkuOnly_flushReleases d h) (lkuOnly_breakHeld _ h)

theorem breakHolder_vrn (d : Dev) (h : Nat) : (d.breakHolder h).vrn = d.vrn := by
  obtain ⟨⟨_, _, _, _, e⟩, _⟩ := lkuOnly_breakHolder d h; rw [e]

theorem breakHolder_esl (d : Dev) (h : Nat) : (d.breakHolder h).esl = d.esl := by
  obtain ⟨⟨_, _, _, _, e⟩, _⟩ := lkuOnly_breakHolder d h; rw [e]

theorem cancelSave_vrn (d : Dev) (t : Nat) : (d.cancelSave t).vrn = d.vrn := by
  unfold Dev.cancelSave; dsimp only; split
  · rfl
  · dsimp only; split <;> rfl

theorem dropWait_is (d : Dev) (t : Nat) : ∃ l, d.dropWait t = { d with lku := l } := by
  unfold Dev.dropWait; split <;> exact ⟨_, rfl⟩

theorem stopThread_vrn (d : Dev) (t : Nat) : (d.stopThread t).vrn = d.vrn := by
  obtain ⟨l, e⟩ := dropWait_is d t
  refine (cancelSave_vrn (d.dropWait t) t).trans ?_
  rw [e]

theorem stopThread_thr (d : Dev) (t : Nat) : ((d.stopThread t).thr t).run = .stopped ∧ ((d.stopThread t).thr t).task = none ∧ ((d.stopThread t).thr t).dbg = (d.thr t).dbg := by
  obtain ⟨l, e⟩ := dropWait_is d t
  have h : ((d.dropWait t).cancelSave t).thr t = d.thr t := by
    refine thr_of_krv ?_ t
    rw [e]
    unfold Dev.cancelSave; dsimp only; split
    · rfl
    · dsimp only; split <;> rfl
  unfold Dev.stopThread
  rw [Dev.thr_updThr_self, h]
  exact ⟨rfl, rfl, rfl⟩

theorem foldl_setTok_vrn (d : Dev) (key : Nat) : (d.endTxnToks key).vrn = d.vrn ∧ (d.endTxnToks key).krv = d.krv := by
  unfold Dev.endTxnToks
  refine foldl_inv _ (fun e : Dev => e.vrn = d.vrn ∧ e.krv = d.krv) (fun b a hb => ?_) _ d ⟨rfl, rfl⟩
  exact hb

theorem end_ok {s : State} {t op : Nat} {need : Bool} {body : Dev → Dev} {d' : Dev} (ht : isThread t = true) (ha : isAtl t = false) (hr : s.dev.ready t)
   (hn : (s.dev.thr t).hasTxn = need) (hb : body s.dev = d') (hd : (d'.thr t).dbg = .none) :
   runDev (isThread t) (fun d => endCmd t op 0 need d body) s = .next (s.withDev d') := by
  refine run_issue' hr ht ?_ hd
  dsimp only
  rw [ha, if_neg (by simp), legal_true _ _ _ _ (by rw [hn]; simp), hb]
/-- A transaction's state after an abort for a cause. -/

def txnDead (x : Txn) (cause : Nat) : Txn :=
  { x with phase := .aborted cause, ws := [], sig := 0, newGran := 0, discard := 0, enqs := [], hdrCell := none,
           held := false, nonspec := false, counted := x.counted + b2n (countedCause cause) }

theorem abort_eq {d : Dev} {key cause : Nat} (h : (d.txn key).alive = true) : d.abortTxn key cause =
   (let d := ((d.setTxn key (txnDead (d.txn key) cause)).endTxnToks key).bump (Reg.VRN_ABORT_CNT (cause % 16)) 1
    { d with vrn := { d.vrn with aborts := d.vrn.aborts ++ [(key, cause)] } }) := by
  unfold Dev.abortTxn
  exact if_pos h

theorem abort_ok {d : Dev} {key cause : Nat} (h : (d.txn key).alive = true) :
   (d.abortTxn key cause).txn key = txnDead (d.txn key) cause ∧
   (d.abortTxn key cause).vrn.aborts = d.vrn.aborts ++ [(key, cause)] ∧ (d.abortTxn key cause).krv = d.krv := by
  rw [abort_eq h]
  obtain ⟨e1, e2⟩ := foldl_setTok_vrn (d.setTxn key (txnDead (d.txn key) cause)) key
  generalize (d.setTxn key (txnDead (d.txn key) cause)).endTxnToks key = q at *
  have b1 := Dev.bump_vrn q (Reg.VRN_ABORT_CNT (cause % 16)) 1
  have b2 := Dev.bump_krv q (Reg.VRN_ABORT_CNT (cause % 16)) 1
  generalize q.bump (Reg.VRN_ABORT_CNT (cause % 16)) 1 = r at *
  have e3 : r.vrn = (d.setTxn key (txnDead (d.txn key) cause)).vrn := b1.trans e1
  refine ⟨?_, ?_, ?_⟩
  · exact (congrArg (fun v : Vrn => tget Txn.reset v.txns key) e3).trans (Dev.txn_setTxn_self _ _ _)
  · show r.vrn.aborts ++ [(key, cause)] = _
    rw [e3]; rfl
  · exact b2.trans e2

theorem endTask_ok (d : Dev) (t : Nat) : ((d.endTask t).thr t).run = .stopped ∧ ((d.endTask t).thr t).task = none ∧
    ((d.endTask t).thr t).dbg = (d.thr t).dbg ∧ (d.endTask t).vrn = d.vrn := by
  unfold Dev.endTask
  dsimp only
  let d0 := d.endTaskToks (clusterOf t) (d.thr t).tid
  let d1 := d0.breakHolder (d0.holderId t)
  have k := stopThread_thr (d1.updThr t (fun th => th.advance false)) t
  refine ⟨k.1, k.2.1, ?_, ?_⟩
  · refine k.2.2.trans ?_
    rw [Dev.thr_updThr_self, Thread.advance_dbg]
    exact (lkuOnly_breakHolder d0 (d0.holderId t)).2 t
  · refine (stopThread_vrn _ _).trans ?_
    exact breakHolder_vrn d0 (d0.holderId t)

theorem slots_tokens (l : List (Option RSlot)) (f : RSlot → RSlot) (h : ∀ y, (f y).token = y.token) :
   (l.map (fun s => s.map f)).filterMap (fun s => s.map (·.token)) = l.filterMap (fun s => s.map (·.token)) := by
  rw [List.filterMap_map]
  congr 1
  funext s
  cases s with
  | none => rfl
  | some y => simp [h]

theorem rcd_store (d : Dev) (c i : Nat) (r : Rec) : (d.storeRcd c i r).rcd c i = some { r with ready := if r.isFull then some (d.nextSeq).1 else none } := by
  have key : ∀ (d : Dev) (x : Option Rec), (d.setRcd c i x).rcd c i = x := fun d x => tget_tset_self none d.esl.recs (1024 * c + i) x
  exact key _ _

theorem enter_ok (th : Thread) (a : Bool) (c v : Word) (k : Nat) (sy : Bool) {entry : Nat} (hk : k < 4) :
   trapEntry th ((th.enter a c v k sy).settle (wd (th.tvb.toNat / 2 ^ 11 * 2 ^ 11 + entry))) a c v entry := by
  have b2 : ∀ b, b2n b ≤ 1 := by intro b; cases b <;> decide
  have e0 := fun i hi => estat_tb (b2n sy) k (b2n (a && th.super)) (b2n (decide (th.repLeft.toNat ≠ 0))) (b2n th.slotDest.isSome) (b2 _) hk (b2 _) (b2 _) (b2 _) i hi
  refine ⟨rfl, rfl, rfl, ?_, rfl, rfl, rfl, rfl, rfl, rfl, rfl, rfl, rfl, ?_, ?_⟩
  · refine (e0 0 (by decide)).trans ?_
    rw [Nat.testBit_zero]; simp; omega
  · intro ha
    show (if a then _ else th.sstatus) = _
    rw [ha]; rfl
  · intro ha
    have : ((th.enter a c v k sy).settle (wd (th.tvb.toNat / 2 ^ 11 * 2 ^ 11 + entry))).sstatus
      = setBit (setBit (setBit th.sstatus 3 (bit th.sstatus 1)) 1 false) 0 true := by
      show (if a then _ else th.sstatus) = _
      rw [ha]; rfl
    unfold Thread.super
    rw [this]
    exact ⟨setSup _, setIe _⟩

end Sys2Proof.Machine
end

