-- ==== Sys2Proof/Laws/Brushes.lean ====
section
/-!
SUPPORT. Brush functions: issue and confirmation of one that is not refused, and the short functions.
-/

namespace Sys2Proof.Machine

/-- The device as a brush function is confirmed: its thread has gone on to the next word. -/

def brushBase (d : Dev) (t : Nat) (op : BrushOp) : Dev :=
  ((d.updThr t (fun th => { th with fly := th.fly ++ [.brush op] })).retire t id).updThr t (fun th => { th with fly := [] })

theorem advance_fly (th : Thread) (a : Bool) (l : List Fly) : ({ th with fly := l } : Thread).advance a = { th.advance a with fly := l } := by
  unfold Thread.advance
  split
  · rfl
  · split
    · rfl
    · cases th.slot with
      | none => rfl
      | branch x => rfl
      | eret => dsimp only; repeat' split
                all_goals rfl

theorem brushBase_is (d : Dev) (t : Nat) (op : BrushOp) (ha : isAtl t = false) (h : (d.thr t).fly = []) : ∃ T,
    brushBase d t op = { d with krv := { d.krv with threads := T } } ∧ tget Thread.reset T t = (d.thr t).advance false := by
  refine ⟨_, rfl, ?_⟩
  show (brushBase d t op).thr t = _
  unfold brushBase Dev.retire
  rw [Dev.thr_updThr_self, Dev.thr_updThr_self, Dev.thr_updThr_self]
  show ({ (({ d.thr t with fly := (d.thr t).fly ++ [.brush op] } : Thread).advance (isAtl t)) with fly := [] } : Thread) = _
  rw [advance_fly, ha, ← advance_fly]
  exact congrArg (fun x : Thread => x.advance false) (show ({ d.thr t with fly := [] } : Thread) = d.thr t by rw [← h])

theorem confirmHead_one {d : Dev} {now t : Nat} {op : BrushOp} {r : List Fly} (h : (d.thr t).fly = .brush op :: r) (hm : d.meterHeld t op = false) :
    d.confirmHead now t 1 = (d.updThr t (fun th => { th with fly := r })).confirm now t op := by
  unfold Dev.confirmHead
  rw [h]
  dsimp only
  rw [hm, if_neg (by simp)]
  rfl

/-- The function as its thread issues it. -/

def issuedOp (d : Dev) (now t b fn : Nat) (f : R3) : BrushOp :=
  { brush := b, fn := fn, rd := f.rd.toNat, ra := (d.thr t).g f.ra.toNat, rb := (d.thr t).g f.rb.toNat,
    word := R3.word f (0x38 + b) fn, blk := d.brushBlock t b fn ((d.thr t).g f.ra.toNat),
    tok := if (brushFn b fn).comp then d.assignTok (clusterOf t) ((txnKey t (d.thr t)).map (· % 256)) else none
    prov := d.mtrIssue now t b fn (d.brushBlock t b fn ((d.thr t).g f.ra.toNat)) }

theorem sound_krv {d : Dev} (h : d.sramSound) (k : Krv) : ({ d with krv := k } : Dev).sramSound := h

theorem any_sound {d : Dev} (h : d.sramSound) (l : List (Nat × Nat)) : l.any (fun r => d.sramBad r.1 r.2) = false := by
  rw [List.any_eq_false]
  intro r _
  rw [h r.1 r.2]; simp

/-- A brush instruction of a thread that can issue issues as any word does. -/
theorem brushCmd_ready {d : Dev} {t now b fn : Nat} {f : R3} (h : d.ready t) :
    brushCmd now t b fn f d = d.issue t (Dev.brushIssue now t b fn f) := by
  have hc : (d.thr t).clear = true := by
    have := h.1
    simp only [Dev.issuable, Bool.and_eq_true] at this
    exact this.1.1.1.1.2
  unfold brushCmd
  rw [if_neg]
  unfold Dev.runsAhead
  simp [hc]

/-- The operand block as `brushCmd` reads it. -/
theorem brushBlock_is (d : Dev) (t b fn : Nat) (ra : Word) :
    d.memRead (cluBase (clusterOf t) + (ownOff (clusterOf t) ra.toNat 4).getD 0)
      (if (brushFn b fn).blk = true then blkSize b fn (d.memLe (cluBase (clusterOf t) + (ownOff (clusterOf t) ra.toNat 4).getD 0) 4) else 0)
     = d.brushBlock t b fn ra := by
  unfold Dev.brushBlock
  split
  · rfl
  · rfl

theorem brush_core {s : State} {t b fn now : Nat} {f : R3} {d' : Dev} (h : s.dev.brushes t b fn f) (hb : b < 7)
    (hc : (brushFn b fn).comp = true → (s.dev.assignTok (clusterOf t) ((txnKey t (s.dev.thr t)).map (· % 256))).isSome = true)
    (hm : ((s.dev.updThr t (fun th => { th with fly := th.fly ++ [.brush (issuedOp s.dev now t b fn f)] })).retire t id).meterHeld t (issuedOp s.dev now t b fn f) = false)
    (hd : (brushBase s.dev t (issuedOp s.dev now t b fn f)).confirm now t (issuedOp s.dev now t b fn f) = d') (hg : (d'.thr t).dbg = .none) :
    runDev (isThread t) (brushCmd now t b fn f) s = .next (s.withDev d') := by
  obtain ⟨ht, ha, hr, hf, hrb, hra, hck, hen, hde, hil, hso⟩ := h
  refine (show _ = runDev (isThread t) (fun d => d.issue t (Dev.brushIssue now t b fn f)) s from by
    rw [runDev_ok ht, runDev_ok ht, brushCmd_ready hr]).trans ?_
  refine run_issue' (body := Dev.brushIssue now t b fn f) hr ht ?_ hg
  unfold Dev.brushIssue
  dsimp only
  rw [ha, if_neg (by simp), if_neg ?_, hck]
  · dsimp only
    rw [if_neg ?_, hil, if_neg (by simp)]
    · rw [hso, if_neg (by simp)]
      dsimp only
      rw [if_neg (by simp), if_neg (by simp), brushBlock_is]
      show ((s.dev.updThr t (fun th => { th with fly := th.fly ++ [.brush (issuedOp s.dev now t b fn f)] })).retire t id).confirmHead now t 1 = d'
      rw [confirmHead_one (op := issuedOp s.dev now t b fn f) (r := []) ?_ hm]
      · exact hd
      · rw [Dev.retire, Dev.thr_updThr_self, Dev.thr_updThr_self, id, advance_fly, hf]
        rfl
    · rw [hen]
      simp only [Bool.not_true, Bool.false_eq_true, false_or, not_or, not_and]
      refine ⟨by omega, by omega, ?_⟩
      intro h1
      rw [if_pos h1]
      have := hc h1
      rw [Option.isNone_iff_eq_none]
      intro h2; rw [h2] at this; cases this
  · simp only [not_or, not_and, Bool.not_eq_true', not_not]
    refine ⟨fun h1 => ?_, fun h1 => ?_⟩
    · rw [hrb h1]; rfl
    · rw [hra h1]; rfl

theorem base_of {s : State} {t b fn now : Nat} {f : R3} (h : s.dev.brushes t b fn f) : ∃ T,
   brushBase s.dev t (issuedOp s.dev now t b fn f) = { s.dev with krv := { s.dev.krv with threads := T } } ∧ tget Thread.reset T t = (s.dev.thr t).advance false :=
  brushBase_is s.dev t _ h.2.1 h.2.2.2.1

theorem sound_base {s : State} {t b fn now : Nat} {f : R3} (h : s.dev.brushes t b fn f) :
    (brushBase s.dev t (issuedOp s.dev now t b fn f)).sramSound := by
  obtain ⟨T, e, _⟩ := base_of (now := now) h
  rw [e]; exact sound_krv h.2.2.2.2.2.2.2.2.2.2 _

theorem brush_plain {s : State} {t b fn now : Nat} {f : R3} {v : Word} {d' : Dev} (h : s.dev.brushes t b fn f) (hb : b < 7)
    (hc : (brushFn b fn).comp = false)
    (hm : ¬ (b = 3 ∧ fn = 0) ∨ ((s.dev.updThr t (fun th => { th with fly := th.fly ++ [.brush (issuedOp s.dev now t b fn f)] })).retire t id).meterHeld t (issuedOp s.dev now t b fn f) = false)
    (hd : (brushBase s.dev t (issuedOp s.dev now t b fn f)).brushDo now t (issuedOp s.dev now t b fn f) 0 = (v, d')) (hg : (d'.thr t).dbg = .none) :
    runDev (isThread t) (brushCmd now t b fn f) s = .next (s.withDev (d'.updThr t fun th => th.setG f.rd.toNat v)) := by
  refine brush_core h hb (by rw [hc]; intro h; cases h) ?_ ?_ ?_
  · rcases hm with h1 | h1
    · unfold Dev.meterHeld issuedOp
      dsimp only
      rw [decide_eq_false h1]; rfl
    · exact h1
  · have ht : (issuedOp s.dev now t b fn f).tok = none := by unfold issuedOp; dsimp only; rw [hc]; rfl
    unfold Dev.confirm
    dsimp only
    rw [ht, if_neg (show ¬ ((none : Option Nat).isSome = true) by simp), any_sound (sound_base h), if_neg (by simp)]
    show (((brushBase s.dev t (issuedOp s.dev now t b fn f)).brushDo now t (issuedOp s.dev now t b fn f) 0).2.updThr t fun th => th.setG (issuedOp s.dev now t b fn f).rd ((brushBase s.dev t (issuedOp s.dev now t b fn f)).brushDo now t (issuedOp s.dev now t b fn f) 0).1) = _
    rw [hd]; rfl
  · rw [Dev.thr_updThr_self, Thread.setG_dbg, hg]

theorem advance_task (th : Thread) (a : Bool) : (th.advance a).task = th.task := by
  unfold Thread.advance
  split
  · rfl
  · split
    · rfl
    · cases th.slot with
      | none => rfl
      | branch x => rfl
      | eret => dsimp only; repeat' split
                all_goals rfl

theorem key_same {t : Nat} {a b : Thread} (h : a.task = b.task) : txnKey t a = txnKey t b := by unfold txnKey; rw [h]

theorem canvas_same {d d' : Dev} {t : Nat} (h : (d.thr t).task = (d'.thr t).task) : d.canvasAddr t = d'.canvasAddr t := by
  unfold Dev.canvasAddr; rw [h]
/-- A short function without token: what a thread and the memory hold after it. -/

theorem short_ok {s : State} {t b fn now : Nat} {f : R3} {v : Word} {M : Tab Byte} (h : s.dev.brushes t b fn f) (hb : b < 7)
    (hc : (brushFn b fn).comp = false) (hm : ¬ (b = 3 ∧ fn = 0))
    (hd : ∀ T, tget Thread.reset T t = (s.dev.thr t).advance false → ({ s.dev with krv := { s.dev.krv with threads := T } } : Dev).brushDo now t (issuedOp s.dev now t b fn f) 0
       = (v, { s.dev with krv := { s.dev.krv with threads := T }, mem := M })) :
    ∃ u, runDev (isThread t) (brushCmd now t b fn f) s = .next u ∧ (u.dev.thr t = ((s.dev.thr t).advance false).setG f.rd.toNat v ∧
      u = s.withDev { s.dev with krv := u.dev.krv, mem := u.dev.mem }) ∧ u.dev.mem = M := by
  obtain ⟨T, e, hT⟩ := base_of (now := now) h
  refine ⟨_, brush_plain (v := v) (d' := { s.dev with krv := { s.dev.krv with threads := T }, mem := M }) h hb hc (.inl hm) ?_ ?_, ⟨?_, rfl⟩, rfl⟩
  · rw [e]; exact hd T hT
  · show (tget Thread.reset T t).dbg = .none
    rw [hT, Thread.advance_dbg]; exact h.2.2.1.2.2
  · show ((Dev.updThr _ _ _).thr t) = _
    rw [Dev.thr_updThr_self]
    exact congrArg (fun x : Thread => x.setG f.rd.toNat v) hT

theorem plain_write {d d' : Dev} {a : Nat} {bs : List Byte} (hp : d.plainMem) (h : d'.drc = d.drc) (h2 : d'.regs = d.regs) :
   d'.memWrite a bs = { d' with mem := putBytes d'.mem a bs } := by
  refine putb ?_ ?_ ?_
  · rw [h]; exact hp.1
  · rw [h]; exact hp.2.1
  · have := hp.2.2
    unfold Dev.rf Dev.reg at this ⊢
    rw [h2]; exact this

end Sys2Proof.Machine
end

