-- ==== Sys2Proof/Laws/BrushEntries.lean ====
section
/-!
SUPPORT. Brush functions that make one write-set entry.
-/

namespace Sys2Proof.Machine

theorem push_ok {d : Dev} {now k : Nat} {e : WsEntry} (h : (d.txn k).irrev ≠ .granted) (h2 : (d.txn k).ws.length < 48) :
    d.txnEffect now k e = d.setTxn k { d.txn k with ws := (d.txn k).ws ++ [e] } := by
  unfold Dev.txnEffect
  dsimp only
  rw [if_neg h]
  unfold Dev.wsPush
  dsimp only
  rw [if_neg (by simp; omega)]

/-- With no control-plane transaction no function is held in front of the Meter brush (R185). -/
theorem meterHeld_none {d : Dev} {t : Nat} {op : BrushOp} (h : d.vrn.cps = []) : d.meterHeld t op = false := by
  unfold Dev.meterHeld Dev.meterWaits
  split
  · simp
  · rw [h]; simp

/-- A function that makes one write-set entry: what its thread and its transaction hold after it. -/

theorem entry_made {s : State} {t b fn now k : Nat} {f : R3} {v : Word} {x : Txn} (h : s.dev.brushes t b fn f) (hb : b < 7)
    (hc : (brushFn b fn).comp = false) (hm : s.dev.vrn.cps = [])
    (hd : ∀ T, tget Thread.reset T t = (s.dev.thr t).advance false → ({ s.dev with krv := { s.dev.krv with threads := T } } : Dev).brushDo now t (issuedOp s.dev now t b fn f) 0
       = (v, { s.dev with krv := { s.dev.krv with threads := T }, vrn := { s.dev.vrn with txns := tset Txn.reset s.dev.vrn.txns k x } })) :
    ∃ u, runDev (isThread t) (brushCmd now t b fn f) s = .next u ∧ u.dev.thr t = ((s.dev.thr t).advance false).setG f.rd.toNat v ∧
      u.dev.txn k = x ∧ u = s.withDev { s.dev with krv := u.dev.krv, vrn := u.dev.vrn } := by
  obtain ⟨T, e, hT⟩ := base_of (now := now) h
  refine ⟨_, brush_plain (v := v) (d' := { s.dev with krv := { s.dev.krv with threads := T }, vrn := { s.dev.vrn with txns := tset Txn.reset s.dev.vrn.txns k x } }) h hb hc (.inr ?_) ?_ ?_, ?_, ?_, rfl⟩
  · exact meterHeld_none hm
  · rw [e]; exact hd T hT
  · show (tget Thread.reset T t).dbg = .none
    rw [hT, Thread.advance_dbg]; exact h.2.2.1.2.2
  · show ((Dev.updThr _ _ _).thr t) = _
    rw [Dev.thr_updThr_self]
    exact congrArg (fun x : Thread => x.setG f.rd.toNat v) hT
  · show tget Txn.reset (tset Txn.reset s.dev.vrn.txns k x) k = x
    exact tget_tset_self _ _ _ _

end Sys2Proof.Machine
end

