-- ==== Sys2Proof/Laws/Chains.lean ====
section
/-!
SUPPORT. What the Palette's allocation and release, and writes of memory, leave alone.
-/

namespace Sys2Proof.Machine

/-- Only memory, the Palette, DRAM, registers, fault reports and the free-value counter differ. -/
def palOnly (d d' : Dev) : Prop := ∃ m p c r f n, d' = { d with mem := m, pal := p, drc := c, regs := r, flt := f, free := n }

theorem palOnly_refl (d : Dev) : palOnly d d := ⟨_, _, _, _, _, _, rfl⟩

theorem palOnly_trans {a b c : Dev} (h : palOnly a b) (h2 : palOnly b c) : palOnly a c := by
  obtain ⟨_, _, _, _, _, _, rfl⟩ := h
  obtain ⟨_, _, _, _, _, _, rfl⟩ := h2
  exact ⟨_, _, _, _, _, _, rfl⟩

theorem palOnly_foldl {α : Type} (f : Dev → α → Dev) (h : ∀ d a, palOnly d (f d a)) (l : List α) (d : Dev) : palOnly d (l.foldl f d) :=
  foldl_inv f (palOnly d) (fun _ a hb => palOnly_trans hb (h _ a)) l d (palOnly_refl d)

theorem palOnly_setReg (d : Dev) (k : Nat) (l : Word) : palOnly d (d.setReg k l) := ⟨_, _, _, _, _, _, rfl⟩

theorem palOnly_setRf (d : Dev) (k a b l : Nat) : palOnly d (d.setRf k a b l) := ⟨_, _, _, _, _, _, rfl⟩

theorem palOnly_bump (d : Dev) (k l : Nat) : palOnly d (d.bump k l) := ⟨_, _, _, _, _, _, rfl⟩

theorem palOnly_raise (d : Dev) (k l : Nat) : palOnly d (d.raise k l) := ⟨_, _, _, _, _, _, rfl⟩

theorem palOnly_capture (d : Dev) (k a : Nat) : palOnly d (d.dramCapture k a) := by
  unfold Dev.dramCapture
  split
  · exact palOnly_setRf _ _ _ _ _
  · dsimp only
    exact palOnly_trans (palOnly_trans (palOnly_setReg _ _ _) (palOnly_setReg _ _ _)) (palOnly_setReg _ _ _)

theorem palOnly_memWrite (d : Dev) (a : Nat) (bs : List Byte) : palOnly d (d.memWrite a bs) := by
  unfold Dev.memWrite
  split
  · exact ⟨_, _, _, _, _, _, rfl⟩
  · unfold Dev.dramWrite
    dsimp only
    split
    · refine palOnly_trans ?_ (palOnly_trans (palOnly_capture _ _ _) (palOnly_raise _ _ _))
      exact ⟨_, _, _, _, _, _, rfl⟩
    · exact ⟨_, _, _, _, _, _, rfl⟩

theorem palOnly_setDesc (d : Dev) (h : Word) (v : Nat) : palOnly d (d.setDesc h v) := by
  unfold Dev.setDesc
  split
  · exact palOnly_memWrite _ _ _
  · exact ⟨_, _, _, _, _, _, rfl⟩

theorem palOnly_setDs (d : Dev) (h : Word) (v : Desc) : palOnly d (d.setDs h v) := palOnly_setDesc _ _ _

theorem palOnly_setHead (d : Dev) (h : Word) (v : Bool) : palOnly d (d.setHead h v) := ⟨_, _, _, _, _, _, rfl⟩

theorem palOnly_setUsed (d : Dev) (o p : Nat) (c : Charge) (n : Nat) : palOnly d (d.setUsed o p c n) := ⟨_, _, _, _, _, _, rfl⟩

theorem palOnly_take {d : Dev} {o p : Nat} {c : Charge} {x : Word × Dev} (h : d.take o p c = some x) : palOnly d x.2 := by
  unfold Dev.take at h
  dsimp only at h
  split at h
  · cases h
  · cases h
    refine palOnly_trans ?_ (palOnly_setDs _ _ _)
    exact ⟨_, _, _, _, _, _, rfl⟩

theorem palOnly_pal (d : Dev) (p : Pal) : palOnly d { d with pal := p } := ⟨_, _, _, _, _, _, rfl⟩

theorem palOnly_ite {c : Prop} [Decidable c] {a b : Option (Word × Dev)} {x : Word × Dev} {P : Dev → Prop} (h : (if c then a else b) = some x)
   (ha : a = some x → P x.2) (hb : b = some x → P x.2) : P x.2 := by
  split at h
  · exact ha h
  · exact hb h

theorem palOnly_takePool {d : Dev} {b : Bool} {o p : Nat} {x : Word × Dev} (h : d.takePool b o p = some x) : palOnly d x.2 := by
  unfold Dev.takePool at h
  dsimp only at h
  split at h
  · rename_i y hy
    cases h
    exact palOnly_ite (P := palOnly d) hy palOnly_take (fun h => by cases h)
  · exact palOnly_ite (P := palOnly d) h palOnly_take (fun h => by cases h)

theorem palOnly_allocFrom {b : Bool} {o n p : Nat} {d : Dev} {x : Word × Dev} (h : d.allocFrom b o n p = some x) : palOnly d x.2 := by
  induction n generalizing p with
  | zero => cases h
  | succ n ih =>
    unfold Dev.allocFrom at h
    split at h
    · cases h
    · split at h
      · rename_i y hy; cases h; exact palOnly_takePool hy
      · split at h
        · exact ih h
        · cases h

theorem palOnly_alloc {b : Bool} {o p : Nat} {d : Dev} {x : Word × Dev} (h : d.alloc b o p = some x) : palOnly d x.2 := by
  unfold Dev.alloc at h
  split at h
  · exact palOnly_allocFrom h
  · cases h

theorem palOnly_allocBufs {o p f need : Nat} {got : List Word} {d : Dev} {x : List Word × Dev} (h : d.allocBufs o p f need got = some x) : palOnly d x.2 := by
  induction f generalizing d need got with
  | zero => cases h
  | succ f ih =>
    unfold Dev.allocBufs at h
    split at h
    · cases h; exact palOnly_refl _
    · split at h
      · cases h
      · rename_i y e hy
        exact palOnly_trans (palOnly_alloc hy) (ih h)

theorem palOnly_linkAll (l : List Word) (d : Dev) : palOnly d (d.linkAll l) := by
  induction l generalizing d with
  | nil => exact palOnly_refl _
  | cons a r ih =>
    cases r with
    | nil => exact palOnly_refl _
    | cons b r => exact palOnly_trans (palOnly_setDs _ _ _) (ih _)

theorem palOnly_allocChain {o p n : Nat} {d : Dev} {x : Word × Dev} (h : d.allocChain o p n = some x) : palOnly d x.2 := by
  unfold Dev.allocChain at h
  split at h
  · rename_i y r e hy
    cases h
    exact palOnly_trans (palOnly_allocBufs hy) (palOnly_trans (palOnly_linkAll _ _) (palOnly_setHead _ _ _))
  · cases h

theorem palOnly_fillBufs (l : List Word) (d : Dev) (bs : List Byte) : palOnly d (d.fillBufs l bs) := by
  induction l generalizing d bs with
  | nil => exact palOnly_refl _
  | cons a r ih => exact palOnly_trans (palOnly_memWrite _ _ _) (ih _ _)

theorem palOnly_settleBuf (d : Dev) (h : Word) (x : Desc) (f : Pal → Pal) : palOnly d (d.settleBuf h x f) :=
  palOnly_trans (palOnly_setDs d h x) (palOnly_trans (palOnly_setHead _ h false) (palOnly_pal _ _))

theorem palOnly_dram {d d' : Dev} (h : dramOnly d d') : palOnly d d' := by
  obtain ⟨_, _, _, rfl⟩ := h
  exact ⟨_, _, _, _, _, _, rfl⟩

theorem palOnly_meetLink (d : Dev) (h : Word) : palOnly d (d.meetLink h) := by
  unfold Dev.meetLink
  split
  · exact palOnly_refl d
  · refine palOnly_trans (b := if d.poolDram (hPool h) = true then d.seeDram (d.poolBase (hPool h) - 8 * hIdx h) 8 else d) ?_ ?_
    · split
      · exact palOnly_dram (seeDram_only _ _ _)
      · exact palOnly_refl d
    · generalize (if d.poolDram (hPool h) = true then d.seeDram (d.poolBase (hPool h) - 8 * hIdx h) 8 else d) = x
      dsimp only
      split
      · exact ⟨_, _, _, _, _, _, rfl⟩
      · exact palOnly_refl _

theorem palOnly_freeBuf (d : Dev) (h : Word) : palOnly d (d.freeBuf h) := by
  unfold Dev.freeBuf
  dsimp only
  split
  · exact palOnly_meetLink _ _
  · split
    · exact palOnly_trans (palOnly_setUsed d _ _ _ _) (palOnly_trans (palOnly_setUsed _ _ _ _ _) (palOnly_settleBuf _ _ _ _))
    · exact palOnly_trans (palOnly_setUsed d _ _ _ _) (palOnly_settleBuf _ _ _ _)

theorem palOnly_freeChain (d : Dev) (h : Word) : palOnly d (d.freeChain h) := palOnly_foldl _ palOnly_freeBuf _ _

end Sys2Proof.Machine
end

