-- ==== Sys2Proof/Laws/Tokens.lean ====
section
/-!
SUPPORT. Brush functions that report completion.
-/

namespace Sys2Proof.Machine

theorem palOnly_thr {d d' : Dev} (h : palOnly d d') (t : Nat) : d'.thr t = d.thr t := by
  obtain ⟨_, _, _, _, _, _, rfl⟩ := h; rfl

theorem palOnly_esl {d d' : Dev} (h : palOnly d d') : d'.esl = d.esl := by
  obtain ⟨_, _, _, _, _, _, rfl⟩ := h; rfl

theorem palOnly_brs {d d' : Dev} (h : palOnly d d') : d'.brs = d.brs := by
  obtain ⟨_, _, _, _, _, _, rfl⟩ := h; rfl
theorem sound_live {d : Dev} (h : d.sramSound) (c k tid : Nat) : (d.liveTok c k tid).sramSound := h

/-- A function that reports completion, as it is confirmed. -/

theorem brush_tok {s : State} {t b fn now i : Nat} {f : R3} {v : Word} {d' : Dev} (h : s.dev.brushes t b fn f) (hb : b < 7) (h3 : b ≠ 3)
    (hc : (brushFn b fn).comp = true)
    (ha : s.dev.assignTok (clusterOf t) ((txnKey t (s.dev.thr t)).map (· % 256)) = some i)
    (hd : ((brushBase s.dev t (issuedOp s.dev now t b fn f)).liveTok (clusterOf t) (s.dev.tokenOf (clusterOf t) i) ((brushBase s.dev t (issuedOp s.dev now t b fn f)).thr t).tid).brushDo now t (issuedOp s.dev now t b fn f) (s.dev.tokenOf (clusterOf t) i) = (v, d')) (hg : (d'.thr t).dbg = .none) :
    runDev (isThread t) (brushCmd now t b fn f) s = .next (s.withDev (d'.updThr t fun th => th.setG f.rd.toNat v)) := by
  refine brush_core h hb (by intro _; rw [ha]; rfl) ?_ ?_ ?_
  · unfold Dev.meterHeld issuedOp
    dsimp only
    rw [decide_eq_false (by rintro ⟨h, _⟩; exact h3 h)]; rfl
  · have ht : (issuedOp s.dev now t b fn f).tok = some i := by unfold issuedOp; dsimp only; rw [hc, if_pos rfl, ha]
    unfold Dev.confirm
    dsimp only
    rw [ht]
    have e : (brushBase s.dev t (issuedOp s.dev now t b fn f)).tokenOf (clusterOf t) i = s.dev.tokenOf (clusterOf t) i := by
      obtain ⟨T, e, _⟩ := base_of (now := now) h; rw [e]; rfl
    have hs : ((brushBase s.dev t (issuedOp s.dev now t b fn f)).liveTok (clusterOf t)
        (s.dev.tokenOf (clusterOf t) i) ((brushBase s.dev t (issuedOp s.dev now t b fn f)).thr t).tid).sramSound :=
      sound_live (sound_base h) _ _ _
    rw [if_pos (show (some i).isSome = true from rfl), show ((some i).map ((brushBase s.dev t (issuedOp s.dev now t b fn f)).tokenOf (clusterOf t))).getD 0
      = s.dev.tokenOf (clusterOf t) i from e, any_sound hs, if_neg (by simp)]
    exact congrArg (fun r : Word × Dev => r.2.updThr t fun th => th.setG f.rd.toNat r.1) hd
  · rw [Dev.thr_updThr_self, Thread.setG_dbg, hg]

theorem g_set_if (th : Thread) (r : BitVec 5) (v : Word) : (th.setG r.toNat v).g r.toNat = if r = 0 then 0 else v := by
  by_cases h : r = 0
  · subst h; rfl
  · rw [if_neg h, Thread.g_setG_self]
    intro h2; exact h (BitVec.eq_of_toNat_eq h2)

theorem cipherEnd_ok (d : Dev) (c token res st : Nat) (h : Word) (len : Nat) :
   (∀ t, (d.cipherEnd c token res st h len).thr t = d.thr t) ∧ (d.cipherEnd c token res st h len).esl.toks = d.esl.toks ∧
   (d.cipherEnd c token res st h len).esl.comps = d.esl.comps ++ [⟨c, token, wd st⟩] := by
  have k := palOnly_memWrite d res (leBytes 4 st ++ leBytes 4 h.toNat ++ leBytes 4 len ++ zeros 4)
  unfold Dev.cipherEnd Dev.complete
  refine ⟨fun t => ?_, ?_, ?_⟩
  · have := palOnly_thr k t; exact this
  · have := congrArg Esl.toks (palOnly_esl k); exact this
  · exact congrArg (fun e : Esl => e.comps ++ [⟨c, token, wd st⟩]) (palOnly_esl k)
/-- A Cipher function: its completion's status, and what it leaves alone. -/

theorem cipher_ok (d0 : Dev) (t fn token tid : Nat) (rb : Word) (blk : List Byte) (hfn : fn = 0 ∨ fn = 1) : ∃ D st,
   (d0.liveTok (clusterOf t) token tid).cipherDo t fn token rb blk = D ∧ D.thr t = d0.thr t ∧ D.esl.toks = (d0.liveTok (clusterOf t) token tid).esl.toks ∧
   D.esl.comps = d0.esl.comps ++ [⟨clusterOf t, token, st⟩] ∧ (d0.secAssoc (leAt blk 0 4 % 4096) = none → st = 2) ∧
   (d0.secAssoc (leAt blk 0 4 % 4096) ≠ none → ¬ ((d0.memGet (d0.canvasAddr t + 0xC3)).toNat ≤ leAt blk 0 4 / 2 ^ 16 % 256 ∧ leAt blk 0 4 / 2 ^ 16 % 256 < (d0.memGet (d0.canvasAddr t + 0xC4)).toNat ∧ (txnKey t (d0.thr t)).isSome = true) → st = 4) ∧
   (d0.secAssoc (leAt blk 0 4 % 4096) ≠ none → ((d0.memGet (d0.canvasAddr t + 0xC3)).toNat ≤ leAt blk 0 4 / 2 ^ 16 % 256 ∧ leAt blk 0 4 / 2 ^ 16 % 256 < (d0.memGet (d0.canvasAddr t + 0xC4)).toNat ∧ (txnKey t (d0.thr t)).isSome = true) → st = 0 ∨ st = 3 ∨ (fn = 1 ∧ st = 1)) := by
  have end_ : ∀ (D : Dev) (st : Nat) (h : Word) (len : Nat) (P : Word → Prop), D.thr t = d0.thr t → D.esl = (d0.liveTok (clusterOf t) token tid).esl → P (wd st) →
     ∃ E st', D.cipherEnd (clusterOf t) token (cluBase (clusterOf t) + (ownOff (clusterOf t) rb.toNat 16).getD 0) st h len = E ∧ E.thr t = d0.thr t ∧ E.esl.toks = (d0.liveTok (clusterOf t) token tid).esl.toks ∧
   E.esl.comps = d0.esl.comps ++ [⟨clusterOf t, token, st'⟩] ∧ P st' := by
    intro D st h len P h1 h2 h3
    obtain ⟨k1, k2, k3⟩ := cipherEnd_ok D (clusterOf t) token (cluBase (clusterOf t) + (ownOff (clusterOf t) rb.toNat 16).getD 0) st h len
    refine ⟨_, wd st, rfl, (k1 t).trans h1, k2.trans (congrArg Esl.toks h2), k3.trans ?_, h3⟩
    rw [h2]; rfl
  have ek : txnKey t ((d0.liveTok (clusterOf t) token tid).thr t) = txnKey t (d0.thr t) := rfl
  have es : (d0.liveTok (clusterOf t) token tid).secAssoc (leAt blk 0 4 % 4096) = d0.secAssoc (leAt blk 0 4 % 4096) := rfl
  have ec : (d0.liveTok (clusterOf t) token tid).canvasAddr t = d0.canvasAddr t := rfl
  have hb : ∀ n, n < 256 → byteAt ((d0.liveTok (clusterOf t) token tid).memRead (d0.canvasAddr t) 256) n = d0.memGet (d0.canvasAddr t + n) := by
    intro n hn
    unfold Dev.memRead byteAt
    rw [List.getD_eq_getElem?_getD, List.getElem?_map, List.getElem?_range hn]; rfl
  unfold Dev.cipherDo
  dsimp only
  rw [es, ek, ec, hb 0xC3 (by omega), hb 0xC4 (by omega)]
  cases hsa : d0.secAssoc (leAt blk 0 4 % 4096) with
  | none =>
    exact end_ _ _ _ _ (fun st => (_ → st = 2) ∧ (_ → _ → st = 4) ∧ (_ → _ → st = 0 ∨ st = 3 ∨ (fn = 1 ∧ st = 1))) rfl rfl ⟨fun _ => rfl, fun h => absurd rfl h, fun h => absurd rfl h⟩
  | some sa =>
    cases hk : txnKey t (d0.thr t) with
    | none =>
      exact end_ _ _ _ _ (fun st => (_ → st = 2) ∧ (_ → _ → st = 4) ∧ (_ → _ → st = 0 ∨ st = 3 ∨ (fn = 1 ∧ st = 1))) rfl rfl ⟨fun h => (by cases h), fun _ _ => rfl, fun _ h => (by cases h.2.2)⟩
    | some k =>
      dsimp only
      by_cases hout : leAt blk 0 4 / 2 ^ 16 % 256 < (d0.memGet (d0.canvasAddr t + 0xC3)).toNat ∨ (d0.memGet (d0.canvasAddr t + 0xC4)).toNat ≤ leAt blk 0 4 / 2 ^ 16 % 256
      · rw [if_pos hout]
        exact end_ _ _ _ _ (fun st => (_ → st = 2) ∧ (_ → _ → st = 4) ∧ (_ → _ → st = 0 ∨ st = 3 ∨ (fn = 1 ∧ st = 1))) rfl rfl ⟨fun h => (by cases h), fun _ _ => rfl, fun _ h => (by omega)⟩
      · rw [if_neg hout]
        have fin : ∀ (c : Bool) (X : Option (Word × Dev)) (Y : Word × Dev → Dev), (c = true → fn = 1) → (∀ y, X = some y → ∃ (D : Dev) (h : Word) (len : Nat), Y y = D.cipherEnd (clusterOf t) token (cluBase (clusterOf t) + (ownOff (clusterOf t) rb.toNat 16).getD 0) 0 h len ∧ D.thr t = d0.thr t ∧ D.esl = (d0.liveTok (clusterOf t) token tid).esl) →
           ∃ E st', (if c = true then (d0.liveTok (clusterOf t) token tid).cipherEnd (clusterOf t) token (cluBase (clusterOf t) + (ownOff (clusterOf t) rb.toNat 16).getD 0) 1 0 0
             else match X with
               | none => (d0.liveTok (clusterOf t) token tid).cipherEnd (clusterOf t) token (cluBase (clusterOf t) + (ownOff (clusterOf t) rb.toNat 16).getD 0) 3 0 0
               | some y => Y y) = E ∧ E.thr t = d0.thr t ∧ E.esl.toks = (d0.liveTok (clusterOf t) token tid).esl.toks ∧
             E.esl.comps = d0.esl.comps ++ [⟨clusterOf t, token, st'⟩] ∧ (some sa = none → st' = 2) ∧ (some sa ≠ none → ¬ ((d0.memGet (d0.canvasAddr t + 0xC3)).toNat ≤ leAt blk 0 4 / 2 ^ 16 % 256 ∧ leAt blk 0 4 / 2 ^ 16 % 256 < (d0.memGet (d0.canvasAddr t + 0xC4)).toNat ∧ (some k).isSome = true) → st' = 4) ∧
   (some sa ≠ none → ((d0.memGet (d0.canvasAddr t + 0xC3)).toNat ≤ leAt blk 0 4 / 2 ^ 16 % 256 ∧ leAt blk 0 4 / 2 ^ 16 % 256 < (d0.memGet (d0.canvasAddr t + 0xC4)).toNat ∧ (some k).isSome = true) → st' = 0 ∨ st' = 3 ∨ (fn = 1 ∧ st' = 1)) := by
          intro c X Y hc hX
          by_cases h1 : c = true
          · rw [if_pos h1]
            exact end_ _ _ _ _ (fun st => (_ → st = 2) ∧ (_ → _ → st = 4) ∧ (_ → _ → st = 0 ∨ st = 3 ∨ (fn = 1 ∧ st = 1))) rfl rfl ⟨fun h => (by cases h), fun _ h => absurd ⟨by omega, by omega, rfl⟩ h, fun _ _ => .inr (.inr ⟨hc h1, rfl⟩)⟩
          · rw [if_neg h1]
            cases X with
            | none => exact end_ _ _ _ _ (fun st => (_ → st = 2) ∧ (_ → _ → st = 4) ∧ (_ → _ → st = 0 ∨ st = 3 ∨ (fn = 1 ∧ st = 1))) rfl rfl ⟨fun h => (by cases h), fun _ h => absurd ⟨by omega, by omega, rfl⟩ h, fun _ _ => .inr (.inl rfl)⟩
            | some y =>
              obtain ⟨D, h, len, e1, e2, e3⟩ := hX y rfl
              dsimp only
              rw [e1]
              exact end_ _ _ _ _ (fun st => (_ → st = 2) ∧ (_ → _ → st = 4) ∧ (_ → _ → st = 0 ∨ st = 3 ∨ (fn = 1 ∧ st = 1))) e2 e3 ⟨fun h => (by cases h), fun _ h => absurd ⟨by omega, by omega, rfl⟩ h, fun _ _ => .inl rfl⟩
        refine fin _ _ (fun y => _) ?_ ?_
        · intro hic
          rcases hfn with rfl | rfl
          · exact absurd hic (fun h => (show ∀ b : Bool, (!true && b) = true → False by decide) _ h)
          · rfl
        · intro y hal
          have k1 := palOnly_allocChain hal
          refine ⟨_, _, _, rfl, ?_, ?_⟩
          · have k3 := fun a b c d => palOnly_thr (palOnly_trans (palOnly_trans k1 (palOnly_fillBufs a y.2 b)) (palOnly_memWrite _ c d)) t
            exact k3 _ _ _ _
          · have k3 := fun a b c d => palOnly_esl (palOnly_trans (palOnly_trans k1 (palOnly_fillBufs a y.2 b)) (palOnly_memWrite _ c d))
            exact k3 _ _ _ _

end Sys2Proof.Machine
end

