-- ==== Sys2Proof/Laws/Messages.lean ====
section
/-!
SUPPORT. The Message brush: functions that change a thread's open message.
-/

namespace Sys2Proof.Machine

/-- A function without token that may change its thread's open message. -/

theorem msg_ok {s : State} {t b fn now : Nat} {f : R3} {v : Word} {D : Tab Thread → Dev} {m : Option OpenMsg} (h : s.dev.brushes t b fn f) (hb : b < 7)
    (hc : (brushFn b fn).comp = false) (hm : ¬ (b = 3 ∧ fn = 0))
    (hD : ∀ T, tget Thread.reset T t = (s.dev.thr t).advance false → (D T).thr t = { (s.dev.thr t).advance false with msg := m })
    (hd : ∀ T, tget Thread.reset T t = (s.dev.thr t).advance false → ({ s.dev with krv := { s.dev.krv with threads := T } } : Dev).brushDo now t (issuedOp s.dev now t b fn f) 0
       = (v, D T)) :
    ∃ T, tget Thread.reset T t = (s.dev.thr t).advance false ∧ runDev (isThread t) (brushCmd now t b fn f) s = .next (s.withDev ((D T).updThr t fun th => th.setG f.rd.toNat v)) ∧
      ((D T).updThr t fun th => th.setG f.rd.toNat v).thr t = ({ (s.dev.thr t).advance false with msg := m } : Thread).setG f.rd.toNat v := by
  obtain ⟨T, e, hT⟩ := base_of h
  refine ⟨T, hT, brush_plain (v := v) (d' := D T) h hb hc (.inl hm) ?_ ?_, ?_⟩
  · rw [e]; exact hd T hT
  · rw [hD T hT]
    exact (Thread.advance_dbg _ _).trans h.2.2.1.2.2
  · rw [Dev.thr_updThr_self, hD T hT]

theorem advance_msg (th : Thread) (a : Bool) : (th.advance a).msg = th.msg := by
  unfold Thread.advance
  split
  · rfl
  · split
    · rfl
    · cases th.slot with
      | none => rfl
      | branch x => rfl
      | eret => dsimp only; repeat' split
                all_goals rfl

theorem withMsg (th : Thread) (a : Bool) : ({ th.advance a with msg := th.msg } : Thread) = th.advance a := by
  rw [← advance_msg th a]

end Sys2Proof.Machine
end

