-- ==== Sys2Proof/Laws/Startup.lean ====
section
/-!
SUPPORT. Fields of words written as numbers; the device after a reset; what a boot leaves.
-/

namespace Sys2Proof.Machine

theorem testBit_wd (n i : Nat) (h : i < 32) : bit (wd n) i = n.testBit i := by
  unfold bit wd
  rw [BitVec.toNat_ofNat, Nat.testBit_mod_two_pow]
  simp [h]

theorem fld_wd (n hi lo : Nat) (h : hi < 32) (hl : lo ≤ hi) : fld (wd n) hi lo = n / 2 ^ lo % 2 ^ (hi + 1 - lo) := by
  unfold fld wd
  rw [BitVec.toNat_ofNat]
  have e : (2 : Nat) ^ 32 = 2 ^ lo * 2 ^ (32 - lo) := by rw [← Nat.pow_add]; congr 1; omega
  rw [e, Nat.mod_mul_right_div_self]
  have e2 : (2 : Nat) ^ (32 - lo) = 2 ^ (hi + 1 - lo) * 2 ^ (31 - hi) := by rw [← Nat.pow_add]; congr 1; omega
  rw [e2, Nat.mod_mul_right_mod]

theorem vcoreGoal_lt (d : Dev) : d.vcoreGoal < 2 ^ 16 := by
  have h1 := fld_lt (d.reg Reg.PWR_RAIL) 9 0
  have h2 := fld_lt (d.reg Reg.PWR_RAIL) 23 16
  have h3 : ∀ p, vNom p < 2000 := by
    intro p
    by_cases hp : p < 10
    · have : p = 0 ∨ p = 1 ∨ p = 2 ∨ p = 3 ∨ p = 4 ∨ p = 5 ∨ p = 6 ∨ p = 7 ∨ p = 8 ∨ p = 9 := by omega
      rcases this with h | h | h | h | h | h | h | h | h | h <;> subst h <;> decide
    · unfold vNom
      rw [List.getD_eq_default _ _ (by simp; omega)]
      omega
  unfold Dev.vcoreGoal Dev.rf
  split
  · omega
  · split
    · split
      · have := h3 ‹_›; simp at *; omega
      · simp at *; omega
    · omega

theorem phasesOk_lt (d : Dev) : d.phasesOk < 2 ^ 15 := by
  have h1 := fld_lt (d.reg Reg.PWR_RAIL) 15 12
  have h2 : 2 ^ d.rf Reg.PWR_RAIL 15 12 ≤ 2 ^ 15 := Nat.pow_le_pow_right (by omega) (by unfold Dev.rf; omega)
  have h3 : 0 < 2 ^ d.rf Reg.PWR_RAIL 15 12 := Nat.two_pow_pos _
  unfold Dev.phasesOk
  dsimp only
  omega

theorem railUp_rb (d : Dev) : (d.railUp).rb Reg.PWR_RAIL_STATUS 31 = true := by
  have h1 := vcoreGoal_lt d
  have h2 := phasesOk_lt d
  unfold Dev.railUp Dev.rb
  rw [Dev.reg_setReg_self, testBit_wd _ _ (by omega), Nat.testBit_eq_decide_div_mod_eq]
  simp only [decide_eq_true_eq]
  omega

theorem railUp_rf (d : Dev) : (d.railUp).rf Reg.PWR_RAIL_STATUS 9 0 = d.vcoreGoal % 1024 := by
  unfold Dev.railUp Dev.rf
  rw [Dev.reg_setReg_self, fld_wd _ _ _ (by omega) (by omega)]
  omega

theorem foldl_setReg (l : List Nat) (f : Nat → Word) (r : Dev) (o : Nat) :
    (l.foldl (fun (r : Dev) o => r.setReg o (f o)) r).reg o = if o ∈ l then f o else r.reg o := by
  induction l generalizing r with
  | nil => simp
  | cons a l ih =>
    rw [List.foldl_cons, ih]
    by_cases h : o ∈ l
    · simp [h]
    · rw [if_neg h, Dev.reg_setReg]
      by_cases h2 : o = a <;> simp [h, h2]

theorem fld_setRf_self (d : Dev) (o hi lo v : Nat) (h : hi < 32) (hl : lo ≤ hi) : (d.setRf o hi lo v).rf o hi lo = v % 2 ^ (hi + 1 - lo) :=
  Dev.rf_setRf_self d o hi lo v h hl

theorem setRf_stage_if (d r : Dev) : ∃ R, (if d.stage = 4 then r.setRf Reg.GLB_RUN_STATE 3 0 4 else r) = { r with regs := R } := by
  split
  · exact ⟨_, rfl⟩
  · exact ⟨_, rfl⟩

theorem resetThreads_clu (t : Nat) (h : t < 1536) : tget Thread.reset resetThreads t = Thread.reset := by
  have : resetThreads = [(1536, atlReset), (1537, atlReset), (1538, atlReset), (1539, atlReset)] := rfl
  rw [this]
  simp only [tget, Tab.get]
  rw [if_neg (by omega), if_neg (by omega), if_neg (by omega), if_neg (by omega)]

theorem testBit_or_clocks (w : Word) (i : Nat) (h : i < 29) : bit (wd (w.toNat ||| clocksUp)) i = true := by
  rw [testBit_wd _ _ (by omega), Nat.testBit_or]
  have : clocksUp = 2 ^ 29 - 1 := rfl
  rw [this, Nat.testBit_two_pow_sub_one]
  simp [h]

def setUp (d d' : Dev) : Prop := ∃ r k p, d' = { d with regs := r, krv := k, pwr := p }

theorem setUp_refl (d : Dev) : setUp d d := ⟨_, _, _, rfl⟩

theorem setUp_trans {a b c : Dev} (h : setUp a b) (h2 : setUp b c) : setUp a c := by
  obtain ⟨_, _, _, rfl⟩ := h
  obtain ⟨_, _, _, rfl⟩ := h2
  exact ⟨_, _, _, rfl⟩

theorem setUp_reg {a b : Dev} (h : setUp a b) (o : Nat) (v : Word) : setUp a (b.setReg o v) := setUp_trans h ⟨_, _, _, rfl⟩

theorem setUp_rf {a b : Dev} (h : setUp a b) (o hi lo v : Nat) : setUp a (b.setRf o hi lo v) := setUp_reg h _ _

theorem setUp_rb {a b : Dev} (h : setUp a b) (o i : Nat) (v : Bool) : setUp a (b.setRb o i v) := setUp_reg h _ _

theorem setUp_gate {a b : Dev} (h : setUp a b) (c : Nat) : setUp a (b.gateNow c) := by
  have h1 : ∀ (d : Dev) (x : ClPwr), setUp d (d.setClp c x) := fun d x => ⟨_, _, _, rfl⟩
  have h2 : ∀ (d : Dev), setUp d (d.dropL1 c) := fun d => ⟨_, _, _, rfl⟩
  unfold Dev.gateNow
  exact setUp_trans (setUp_trans (setUp_rb (setUp_rb h _ _ _) _ _ _) (h2 _)) (h1 _ _)

theorem setUp_install (d : Dev) (p : Profile) : setUp { d with prf := { d.prf with inForce := some p } } (d.installProfile p) := by
  unfold Dev.installProfile
  refine setUp_gate (setUp_gate (setUp_reg ?_ _ _) _) _
  refine foldl_inv _ (fun x => setUp _ x) (fun b e h => setUp_reg h _ _) _ _ ?_
  refine foldl_inv _ (fun x => setUp _ x) (fun b e h => ?_) _ _ ?_
  · unfold Dev.installPool
    exact setUp_reg (setUp_reg (setUp_reg (setUp_reg h _ _) _ _) _ _) _ _
  refine foldl_inv _ (fun x => setUp _ x) (fun b e h => setUp_rb (setUp_rf h _ _ _ _) _ _ _) _ _ ?_
  refine foldl_inv _ (fun x => setUp _ x) (fun b e h => ?_) _ _ (setUp_reg (setUp_refl _) _ _)
  unfold Dev.installEntry
  split
  · unfold Dev.installPort
    dsimp only
    split
    · exact setUp_rf (setUp_rf (setUp_rf (setUp_rf h _ _ _ _) _ _ _ _) _ _ _ _) _ _ _ _
    · exact setUp_rf (setUp_rf (setUp_rf h _ _ _ _) _ _ _ _) _ _ _ _
  · unfold Dev.installLane
    exact setUp_rb (setUp_reg (setUp_reg h _ _) _ _) _ _ _

theorem sameFuses_boot (r : BootRes) (i : Ident) : (bootIdent r i).sameFuses i := by
  unfold bootIdent
  cases r <;> exact ⟨rfl, rfl, rfl, rfl, rfl, rfl, rfl, rfl, rfl, rfl⟩

theorem svnMin_boot (r : BootRes) (i : Ident) : i.svnMin ≤ (bootIdent r i).svnMin := by
  unfold bootIdent
  cases r with
  | boot img prf =>
    dsimp only
    split
    · exact Nat.le_max_left _ _
    · exact Nat.le_refl _
  | _ => exact Nat.le_refl _
theorem journalRead_prf (d : Dev) : d.journalRead.prf = d.prf := by
  unfold Dev.journalRead; dsimp only; split <;> rfl

/-- What a boot leaves. -/

theorem boot_ok (img : List Byte) (prf : PrfRes) (d : Dev) : (bootDev (.boot img prf) d).stage = 2 ∧
    ((bootDev (.boot img prf) d).thr 1536).pc = wd (leAt img 0x18 4) ∧ ((bootDev (.boot img prf) d).thr 1536).run = .running ∧
    ((bootDev (.boot img prf) d).thr 1536).sstatus = 1 ∧ (bootDev (.boot img prf) d).mgt.svn = leAt img 0xC 4 ∧
    (bootDev (.boot img prf) d).prf.inForce = (match prf with
        | .good p => some p
        | .bad _ _ => d.prf.inForce) := by
  have kj := journalRead_prf d
  unfold bootDev
  dsimp only
  rw [← kj]
  generalize d.journalRead = d at kj ⊢
  have k := palOnly_memWrite d atlSramBase (img.take (leAt img 8 4))
  generalize hM : d.memWrite atlSramBase (img.take (leAt img 8 4)) = M at k ⊢
  obtain ⟨_, _, _, _, _, _, rfl⟩ := k
  refine ⟨?_, ?_, ?_, ?_, ?_, ?_⟩
  · show (Dev.setRf _ Reg.GLB_RUN_STATE 3 0 2).stage = 2
    exact Dev.rf_setRf_self _ Reg.GLB_RUN_STATE 3 0 2 (by omega) (by omega)
  · unfold Dev.startAtl; rw [Dev.thr_setThr_self]
  · unfold Dev.startAtl; rw [Dev.thr_setThr_self]
  · unfold Dev.startAtl; rw [Dev.thr_setThr_self]
  · cases prf with
    | good p =>
      obtain ⟨r, k, w, e⟩ := setUp_install { d with mem := _, pal := _, drc := _, regs := _, flt := _, free := _, prf := { d.prf with owners := imageOwners img }, mgt := { d.mgt with svn := leAt img 0xC 4, entry := wd (leAt img 0x18 4) } } p
      dsimp only at e ⊢
      rw [e]
      rfl
    | bad c o => rfl
  · cases prf with
    | good p =>
      obtain ⟨r, k, w, e⟩ := setUp_install { d with mem := _, pal := _, drc := _, regs := _, flt := _, free := _, prf := { d.prf with owners := imageOwners img }, mgt := { d.mgt with svn := leAt img 0xC 4, entry := wd (leAt img 0x18 4) } } p
      dsimp only at e ⊢
      rw [e]
      rfl
    | bad c o => rfl

theorem reg_of_regs {a b : Dev} (h : a.regs = b.regs) (o : Nat) : a.reg o = b.reg o := by unfold Dev.reg; rw [h]

theorem stage_of_regs {a b : Dev} (h : a.regs = b.regs) : a.stage = b.stage := by unfold Dev.stage Dev.rf; rw [reg_of_regs h]

theorem meas1_boot (img : List Byte) (prf : PrfRes) (i : Ident) : (bootIdent (.boot img prf) i).meas[1]? = some (padTo 64 (phDigest (img.take (leAt img 8 4 - 128)))) := by
  unfold bootIdent
  exact List.getElem?_cons_succ

theorem meas3_boot (img : List Byte) (prf : PrfRes) (i : Ident) : (bootIdent (.boot img prf) i).meas[3]? = some (zeros 64) := by
  unfold bootIdent
  exact (List.getElem?_cons_succ.trans List.getElem?_cons_succ).trans List.getElem?_cons_succ

end Sys2Proof.Machine
end

