-- ==== Sys2Proof/Laws/Frames.lean ====
section
/-!
SUPPORT. Folds over units, registers of which only some change, heartbeats, lanes and ring groups.
-/

namespace Sys2Proof.Machine

theorem foldl_each {α β : Type} (f : β → α → β) (Q : α → β → Prop) (hs : ∀ b a, Q a (f b a)) (hk : ∀ b a a', Q a' b → Q a' (f b a))
    (l : List α) (b : β) (a : α) (h : a ∈ l) : Q a (l.foldl f b) := by
  induction l generalizing b with
  | nil => simp at h
  | cons x r ih =>
    rcases List.mem_cons.mp h with rfl | h
    · exact foldl_inv f (Q a) (fun b a' hb => hk b a' a hb) r _ (hs b a)
    · exact ih _ h
/-- As foldl_each, for elements of which something is known. -/

theorem foldl_each' {α β : Type} (f : β → α → β) (S : α → Prop) (Q : α → β → Prop) (hs : ∀ b a, S a → Q a (f b a)) (hk : ∀ b a a', S a → S a' → Q a' b → Q a' (f b a))
    (l : List α) (hl : ∀ a ∈ l, S a) (b : β) (a : α) (h : a ∈ l) : Q a (l.foldl f b) := by
  induction l generalizing b with
  | nil => simp at h
  | cons x r ih =>
    have hr : ∀ a ∈ r, S a := fun a ha => hl a (List.mem_cons_of_mem _ ha)
    rcases List.mem_cons.mp h with rfl | h
    · have ha := hl a List.mem_cons_self
      clear ih h hl
      rw [List.foldl_cons]
      have := hs b a ha
      revert this
      generalize f b a = c
      intro this
      induction r generalizing c with
      | nil => exact this
      | cons y r ih =>
        exact ih (fun z hz => hr z (List.mem_cons_of_mem _ hz)) _ (hk _ _ _ (hr y List.mem_cons_self) ha this)
    · exact ih hr _ h

theorem foldl_inv' {α β : Type} (f : β → α → β) (P : β → Prop) (l : List α) (h : ∀ b a, a ∈ l → P b → P (f b a)) (b : β) (hb : P b) : P (l.foldl f b) := by
  induction l generalizing b with
  | nil => exact hb
  | cons a r ih => exact ih (fun b a ha => h b a (List.mem_cons_of_mem _ ha)) _ (h b a List.mem_cons_self hb)
/-- Only registers, the heartbeats and the fault inbox differ. -/

def hbOnly (d d' : Dev) : Prop := ∃ r n f, d' = { d with regs := r, stn := n, flt := { d.flt with inbox := f } }

theorem hbStop_only (d : Dev) (k : Nat) (b : Bool) : hbOnly d (d.hbStop k b) := by
  have hr : ∀ (x : Dev) (c : Bool) (s v : Nat), hbOnly x (x.raiseIf c s v) := by
    intro x c s v
    unfold Dev.raiseIf
    split
    · exact ⟨_, _, _, rfl⟩
    · exact ⟨_, _, _, rfl⟩
  have ht : ∀ {a b c : Dev}, hbOnly a b → hbOnly b c → hbOnly a c := by
    intro a b c h h2
    obtain ⟨_, _, _, rfl⟩ := h
    obtain ⟨_, _, _, rfl⟩ := h2
    exact ⟨_, _, _, rfl⟩
  have hs : ∀ (x : Dev) (o : Nat) (v : Word), hbOnly x (x.setReg o v) := fun x o v => ⟨_, _, _, rfl⟩
  have hh : ∀ (x : Dev) (h : Hb), hbOnly x (x.setHb k h) := fun x h => ⟨_, _, _, rfl⟩
  unfold Dev.hbStop
  dsimp only
  refine ht ?_ (hr _ _ _ _)
  refine ht ?_ (hs _ _ _)
  have h3 : ∀ x, hbOnly d x → hbOnly d (if d.hbToggling k then x.setRf (Reg.STN_HB k) 15 0 (min (x.rf (Reg.STN_HB k) 15 0 + 1) 0xFFFF) else x) := by
    intro x hx
    split
    · exact ht hx (hs _ _ _)
    · exact hx
  exact h3 _ (ht (ht (hh _ _) (hs _ _ _)) (hs _ _ _))

theorem raiseIf_reg (d : Dev) (c : Bool) (s v o : Nat) : (d.raiseIf c s v).reg o = d.reg o := by
  unfold Dev.raiseIf; split <;> rfl

theorem raiseIf_stn (d : Dev) (c : Bool) (s v : Nat) : (d.raiseIf c s v).stn = d.stn := by
  unfold Dev.raiseIf; split <;> rfl

theorem hbStop_reg (d : Dev) (k : Nat) (b : Bool) (o : Nat) (h1 : o ≠ Reg.STN_HB k) (h2 : o ≠ Reg.PRT_RING_W1 k) : (d.hbStop k b).reg o = d.reg o := by
  unfold Dev.hbStop
  dsimp only
  rw [raiseIf_reg, Dev.reg_setRf_ne _ _ _ _ _ _ h2]
  split
  · rw [Dev.reg_setRf_ne _ _ _ _ _ _ h1, Dev.reg_setRb_ne _ _ _ _ _ h1, Dev.reg_setRb_ne _ _ _ _ _ h1]; rfl
  · rw [Dev.reg_setRb_ne _ _ _ _ _ h1, Dev.reg_setRb_ne _ _ _ _ _ h1]; rfl

theorem rb_of_reg {a b : Dev} {o : Nat} (h : a.reg o = b.reg o) (i : Nat) : a.rb o i = b.rb o i := by unfold Dev.rb; rw [h]

theorem rf_of_reg {a b : Dev} {o : Nat} (h : a.reg o = b.reg o) (hi lo : Nat) : a.rf o hi lo = b.rf o hi lo := by unfold Dev.rf; rw [h]

theorem hbStop_hb (d : Dev) (k : Nat) (b : Bool) : (d.hbStop k b).stn.hb = tset ⟨0, 0, 0, false, false⟩ d.stn.hb k { d.hb k with lapse := 0, stopped := (d.hb k).stopped || d.hbToggling k || d.hbArmed k, level := false } := by
  unfold Dev.hbStop
  dsimp only
  rw [raiseIf_stn]
  rw [Dev.setRf_stn]
  split <;> rfl

theorem hbStop_off (d : Dev) (k : Nat) (b : Bool) (hk : k < 2) : (d.hbStop k b).heartOff k := by
  have h1 : Reg.STN_HB k ≠ Reg.PRT_RING_W1 k := by unfold Reg.STN_HB Reg.PRT_RING_W1; omega
  have e : ∀ x : Dev, x.rb (Reg.STN_HB k) 31 = false → x.rb (Reg.STN_HB k) 30 = false → ∀ c : Bool, ∀ v s w,
      ((((if c then x.setRf (Reg.STN_HB k) 15 0 v else x).setRf (Reg.PRT_RING_W1 k) 1 0 0).raiseIf s w 0).rb (Reg.STN_HB k) 31 = false ∧
      (((if c then x.setRf (Reg.STN_HB k) 15 0 v else x).setRf (Reg.PRT_RING_W1 k) 1 0 0).raiseIf s w 0).rb (Reg.STN_HB k) 30 = false) := by
    intro x h31 h30 c v s w
    rw [rb_of_reg (raiseIf_reg _ _ _ _ _), rb_of_reg (Dev.reg_setRf_ne _ _ _ _ _ _ h1), rb_of_reg (raiseIf_reg _ _ _ _ _), rb_of_reg (Dev.reg_setRf_ne _ _ _ _ _ _ h1)]
    split
    · rw [Dev.rb_setRf_apart _ _ _ _ _ _ (by omega) (by omega) (by omega), Dev.rb_setRf_apart _ _ _ _ _ _ (by omega) (by omega) (by omega)]
      exact ⟨h31, h30⟩
    · exact ⟨h31, h30⟩
  have := e (((d.setHb k { d.hb k with lapse := 0, stopped := (d.hb k).stopped || d.hbToggling k || d.hbArmed k, level := false }).setRb (Reg.STN_HB k) 31 false).setRb (Reg.STN_HB k) 30 false)
    (by rw [Dev.rb_setRb_apart _ _ _ _ _ (by omega) (by omega)]; exact Dev.rb_setRb_self _ _ _ _ (by omega))
    (Dev.rb_setRb_self _ _ _ _ (by omega)) (d.hbToggling k)
  refine ⟨(this _ _ _).1, (this _ _ _).2, ?_⟩
  unfold Dev.hb
  rw [hbStop_hb, tget_tset_self]

theorem heartOff_of {d d' : Dev} {k : Nat} (h : d.heartOff k) (hr : d'.reg (Reg.STN_HB k) = d.reg (Reg.STN_HB k)) (hs : d'.hb k = d.hb k) : d'.heartOff k := by
  obtain ⟨a, b, c⟩ := h
  exact ⟨(rb_of_reg hr _).trans a, (rb_of_reg hr _).trans b, by rw [hs]; exact c⟩

theorem hbStop_keep {d : Dev} {j k : Nat} {b : Bool} (hj : j < 2) (hk : k < 2) (h : d.heartOff j) : (d.hbStop k b).heartOff j := by
  by_cases e : j = k
  · subst e; exact hbStop_off _ _ _ hj
  · refine heartOff_of h (hbStop_reg _ _ _ _ ?_ ?_) ?_
    · unfold Reg.STN_HB; omega
    · unfold Reg.STN_HB Reg.PRT_RING_W1; omega
    · unfold Dev.hb; rw [hbStop_hb, tget_tset_ne _ _ _ _ _ e]

theorem hbStopAll_off (d : Dev) : d.hbStopAll.heartsOff := by
  unfold Dev.hbStopAll
  exact ⟨hbStop_keep (by omega) (by omega) (hbStop_off _ _ _ (by omega)), hbStop_off _ _ _ (by omega)⟩

theorem hbOnly_trans {a b c : Dev} (h : hbOnly a b) (h2 : hbOnly b c) : hbOnly a c := by
    obtain ⟨_, _, _, rfl⟩ := h
    obtain ⟨_, _, _, rfl⟩ := h2
    exact ⟨_, _, _, rfl⟩

theorem hbStopAll_only (d : Dev) : hbOnly d d.hbStopAll := hbOnly_trans (hbStop_only _ _ _) (hbStop_only _ _ _)

theorem hbStopAll_reg (d : Dev) (o : Nat) (h : o ≠ Reg.STN_HB 0 ∧ o ≠ Reg.STN_HB 1 ∧ o ≠ Reg.PRT_RING_W1 0 ∧ o ≠ Reg.PRT_RING_W1 1) : d.hbStopAll.reg o = d.reg o := by
  unfold Dev.hbStopAll
  rw [hbStop_reg _ _ _ _ h.2.1 h.2.2.2, hbStop_reg _ _ _ _ h.1 h.2.2.1]

theorem heartsOff_of {d d' : Dev} (h : d.heartsOff) (hr : ∀ k, k < 2 → d'.reg (Reg.STN_HB k) = d.reg (Reg.STN_HB k)) (hs : d'.stn.hb = d.stn.hb) : d'.heartsOff :=
  ⟨heartOff_of h.1 (hr 0 (by omega)) (by unfold Dev.hb; rw [hs]), heartOff_of h.2 (hr 1 (by omega)) (by unfold Dev.hb; rw [hs])⟩
/-- What a register pulse leaves of a powered device (R508, R512). -/

theorem resetAssert_ok (d : Dev) : (∀ o, o ≠ Reg.GLB_RUN_STATE → (resetAssert d).reg o = if o ∈ keptRegs then d.reg o else regReset o) ∧
    (resetAssert d).pins = { d.pins with resetN := false, faultEnd := none } := by
  unfold resetAssert
  dsimp only
  generalize hr : keptRegs.foldl _ _ = r
  have hreg : ∀ o, r.reg o = if o ∈ keptRegs then d.reg o else regReset o := by
    intro o
    rw [← hr, foldl_setReg]
    rfl
  obtain ⟨R, e⟩ := setRf_stage_if d r
  refine ⟨?_, ?_⟩
  · intro o ho
    rw [← hreg]
    split
    · exact Dev.reg_setRf_ne _ _ _ _ _ _ ho
    · rfl
  · rw [e]
    subst hr
    rfl

theorem pulse_ok (d : Dev) (h1 : d.pins.vddIo = true) (h2 : d.pins.vddCore = true) : d.pulse.pins.resetN = true ∧ d.pulse.stage = 0 ∧
    ∀ o, o ≠ Reg.GLB_RUN_STATE → d.pulse.reg o = if o ∈ keptRegs then d.reg o else regReset o := by
  obtain ⟨a, b⟩ := resetAssert_ok d
  unfold Dev.pulse
  generalize resetAssert d = x at a b
  unfold resetRelease
  rw [if_neg (by rw [b]; simp [h1, h2])]
  refine ⟨rfl, Dev.rf_setRf_self x Reg.GLB_RUN_STATE 3 0 0 (by omega) (by omega), fun o ho => ?_⟩
  rw [← a o ho]
  exact Dev.reg_setRf_ne x _ _ _ _ _ ho

theorem gating_ok (d : Dev) (c : Nat) : setUp d (d.startGating c) ∧
    ∀ o, o ≠ Reg.PWR_CL_W0 c → (d.startGating c).reg o = d.reg o := by
  have h1 : ∀ (d : Dev) (x : ClPwr), setUp d (d.setClp c x) := fun d x => ⟨_, _, _, rfl⟩
  have h2 : ∀ (d : Dev) (x : ClPwr) (o : Nat), (d.setClp c x).reg o = d.reg o := fun d x o => rfl
  unfold Dev.startGating
  dsimp only
  split
  · exact ⟨setUp_trans (setUp_rb (setUp_refl d) _ _ _) (h1 _ _), fun o ho => (h2 _ _ _).trans (Dev.reg_setRb_ne d _ _ _ _ ho)⟩
  · exact ⟨setUp_trans (setUp_rb (setUp_refl d) _ _ _) (h1 _ _), fun o ho => (h2 _ _ _).trans (Dev.reg_setRb_ne d _ _ _ _ ho)⟩

def regsIn (S : Nat → Prop) (d d' : Dev) : Prop :=
  (∃ r f, d' = { d with regs := r, flt := { d.flt with inbox := f } }) ∧ ∀ o, ¬ S o → d'.reg o = d.reg o

theorem regsIn_refl (S : Nat → Prop) (d : Dev) : regsIn S d d := ⟨⟨_, _, rfl⟩, fun _ _ => rfl⟩

theorem regsIn_trans {S : Nat → Prop} {a b c : Dev} (h : regsIn S a b) (h2 : regsIn S b c) : regsIn S a c := by
  obtain ⟨⟨_, _, rfl⟩, g⟩ := h
  obtain ⟨⟨_, _, rfl⟩, g2⟩ := h2
  exact ⟨⟨_, _, rfl⟩, fun o ho => (g2 o ho).trans (g o ho)⟩

theorem regsIn_mono {S T : Nat → Prop} {a b : Dev} (h : regsIn S a b) (k : ∀ o, S o → T o) : regsIn T a b :=
  ⟨h.1, fun o ho => h.2 o (fun x => ho (k o x))⟩

theorem regsIn_reg {S : Nat → Prop} {a b : Dev} (h : regsIn S a b) (o : Nat) (v : Word) (ho : S o) : regsIn S a (b.setReg o v) :=
  regsIn_trans h ⟨⟨_, _, rfl⟩, fun p hp => Dev.reg_setReg_ne _ _ _ _ (fun e => hp (e ▸ ho))⟩

theorem regsIn_rf {S : Nat → Prop} {a b : Dev} (h : regsIn S a b) (o hi lo v : Nat) (ho : S o) : regsIn S a (b.setRf o hi lo v) := regsIn_reg h _ _ ho

theorem regsIn_rb {S : Nat → Prop} {a b : Dev} (h : regsIn S a b) (o i : Nat) (v : Bool) (ho : S o) : regsIn S a (b.setRb o i v) := regsIn_reg h _ _ ho

theorem regsIn_raise {S : Nat → Prop} {a b : Dev} (h : regsIn S a b) (s v : Nat) : regsIn S a (b.raise s v) :=
  regsIn_trans h ⟨⟨_, _, rfl⟩, fun _ _ => rfl⟩

theorem raise_reg (d : Dev) (c x o : Nat) : (d.raise c x).reg o = d.reg o := rfl

theorem setRb_regs (d : Dev) (o i : Nat) (b : Bool) : d.setRb o i b = { d with regs := (d.setRb o i b).regs } := rfl

theorem setPrtState_in (d : Dev) (p st : Nat) : regsIn (fun o => o = Reg.PRT_PORT_W2 p ∨ o = Reg.PRT_PORT_W3 p) d (d.setPrtState p st) := by
  unfold Dev.setPrtState
  dsimp only
  split
  · exact regsIn_raise (regsIn_rf (regsIn_rf (regsIn_refl _ _) _ _ _ _ (.inl rfl)) _ _ _ _ (.inr rfl)) _ _
  · exact regsIn_rf (regsIn_refl _ _) _ _ _ _ (.inl rfl)

theorem setPrtState_self (d : Dev) (p st : Nat) (h : st < 16) : (d.setPrtState p st).prtState p = st := by
  have e : (d.setRf (Reg.PRT_PORT_W2 p) 31 28 st).rf (Reg.PRT_PORT_W2 p) 31 28 = st := by
    rw [Dev.rf_setRf_self _ _ _ _ _ (by omega) (by omega)]
    exact Nat.mod_eq_of_lt (by omega)
  unfold Dev.setPrtState Dev.prtState
  dsimp only
  split
  · refine Eq.trans ?_ e
    exact rf_of_reg ((raise_reg _ _ _ _).trans (Dev.reg_setRf_ne _ _ _ _ _ _ (by unfold Reg.PRT_PORT_W2 Reg.PRT_PORT_W3; omega))) _ _
  · exact e

theorem setPrtState_ne (d : Dev) (p q st : Nat) (h : q ≠ p) : (d.setPrtState p st).prtState q = d.prtState q := by
  refine rf_of_reg ((setPrtState_in d p st).2 _ ?_) _ _
  unfold Reg.PRT_PORT_W2 Reg.PRT_PORT_W3; omega
/-- Registers of the lanes and ports. -/

def laneReg (o : Nat) : Prop := (∃ p, p < 80 ∧ (o = Reg.PRT_PORT_W2 p ∨ o = Reg.PRT_PORT_W3 p)) ∨ ∃ l, l < 32 ∧ o = Reg.STN_LANE_W0 l

theorem holdFab_ok (d : Dev) : let e := (List.range 80).foldl (fun (d : Dev) p => if d.prtState p ∈ [1, 2, 3, 4] then d.setPrtState p 0 else d) d
    regsIn laneReg d e ∧ ∀ p, p < 80 → e.prtState p ≠ 4 ∧ (d.prtState p ∈ [1, 2, 3, 4] → e.prtState p = 0) := by
  intro e
  refine ⟨?_, ?_⟩
  · refine foldl_inv' _ (fun x => regsIn laneReg d x) _ (fun b a ha h => ?_) _ (regsIn_refl _ _)
    split
    · exact regsIn_trans h (regsIn_mono (setPrtState_in b a 0) (fun o ho => .inl ⟨a, List.mem_range.mp ha, ho⟩))
    · exact h
  · intro p hp
    have key : ∀ (l : List Nat) (x : Dev), (x.prtState p ∈ [1, 2, 3, 4] → p ∈ l) → let y := l.foldl (fun (d : Dev) p => if d.prtState p ∈ [1, 2, 3, 4] then d.setPrtState p 0 else d) x
        y.prtState p ≠ 4 ∧ (x.prtState p ∈ [1, 2, 3, 4] → y.prtState p = 0) ∧ (x.prtState p = 0 → y.prtState p = 0) := by
      intro l
      induction l with
      | nil =>
        intro x hx
        refine ⟨fun h => ?_, fun h => ?_, fun h => h⟩
        · have := hx (by rw [show x.prtState p = 4 from h]; decide); simp at this
        · have := hx h; simp at this
      | cons a r ih =>
        intro x hx
        simp only [List.foldl_cons]
        by_cases hpa : p = a
        · subst hpa
          by_cases hm : x.prtState p ∈ [1, 2, 3, 4]
          · rw [if_pos hm]
            have hz := setPrtState_self x p 0 (by omega)
            obtain ⟨i1, i2, i3⟩ := ih (x.setPrtState p 0) (by rw [hz]; intro h; exact absurd h (by decide))
            exact ⟨i1, fun _ => i3 hz, fun _ => i3 hz⟩
          · rw [if_neg hm]
            obtain ⟨i1, i2, i3⟩ := ih x (fun h => absurd h hm)
            exact ⟨i1, fun h => absurd h hm, i3⟩
        · have hsame : (if x.prtState a ∈ [1, 2, 3, 4] then x.setPrtState a 0 else x).prtState p = x.prtState p := by
            split
            · exact setPrtState_ne _ _ _ _ hpa
            · rfl
          obtain ⟨i1, i2, i3⟩ := ih (if x.prtState a ∈ [1, 2, 3, 4] then x.setPrtState a 0 else x) (by
            rw [hsame]; intro h
            rcases List.mem_cons.mp (hx h) with h2 | h2
            · exact absurd h2 hpa
            · exact h2)
          rw [hsame] at i2 i3
          exact ⟨i1, i2, i3⟩
    obtain ⟨a, b, c⟩ := key (List.range 80) d (fun _ => List.mem_range.mpr hp)
    exact ⟨a, b⟩

theorem holdHer_ok (d : Dev) : let e := (List.range 32).foldl (fun (d : Dev) l => if d.laneUp l then d.setRb (Reg.STN_LANE_W0 l) 31 false else d) d
    regsIn (fun o => ∃ l, l < 32 ∧ o = Reg.STN_LANE_W0 l) d e ∧ ∀ l, l < 32 → e.laneUp l = false := by
  intro e
  refine ⟨?_, ?_⟩
  · refine foldl_inv' _ (fun x => regsIn _ d x) _ (fun b a ha h => ?_) _ (regsIn_refl _ _)
    split
    · exact regsIn_rb h _ _ _ ⟨a, List.mem_range.mp ha, rfl⟩
    · exact h
  · intro l hl
    refine foldl_each (fun (d : Dev) l => if d.laneUp l then d.setRb (Reg.STN_LANE_W0 l) 31 false else d) (fun l d => d.laneUp l = false) ?_ ?_ _ d l (List.mem_range.mpr hl)
    · intro b a
      split
      · exact Dev.rb_setRb_self _ _ _ _ (by omega)
      · rename_i h; simpa using h
    · intro b a a' h
      split
      · by_cases e : a' = a
        · subst e; exact Dev.rb_setRb_self _ _ _ _ (by omega)
        · refine (rb_of_reg (Dev.reg_setRb_ne _ _ _ _ _ ?_) 31).trans h
          unfold Reg.STN_LANE_W0; omega
      · exact h

theorem holdLanes_ok (d : Dev) : regsIn laneReg d (d.holdLanes true true) ∧
    (∀ p, p < 80 → (d.holdLanes true true).prtState p ≠ 4 ∧ (d.prtState p ∈ [1, 2, 3, 4] → (d.holdLanes true true).prtState p = 0)) ∧
    ∀ l, l < 32 → (d.holdLanes true true).laneUp l = false := by
  unfold Dev.holdLanes
  rw [if_pos rfl, if_pos rfl]
  obtain ⟨a, b⟩ := holdFab_ok d
  generalize (List.range 80).foldl _ d = X at a b
  obtain ⟨c, e⟩ := holdHer_ok X
  have hp : ∀ p, p < 80 → ((List.range 32).foldl (fun (d : Dev) l => if d.laneUp l then d.setRb (Reg.STN_LANE_W0 l) 31 false else d) X).prtState p = X.prtState p := by
    intro p hp
    refine rf_of_reg (c.2 _ ?_) _ _
    rintro ⟨l, hl, h⟩
    unfold Reg.PRT_PORT_W2 Reg.STN_LANE_W0 at h; omega
  refine ⟨regsIn_trans a (regsIn_mono c (fun o ho => .inr ho)), fun p h => ?_, e⟩
  rw [hp p h]
  exact b p h

def grpOnly (d d' : Dev) : Prop := ∃ r h f, d' = { d with regs := r, hst := { d.hst with grps := h }, flt := { d.flt with inbox := f } }

theorem grpOnly_refl (d : Dev) : grpOnly d d := ⟨_, _, _, rfl⟩

theorem grpOnly_trans {a b c : Dev} (h : grpOnly a b) (h2 : grpOnly b c) : grpOnly a c := by
  obtain ⟨_, _, _, rfl⟩ := h
  obtain ⟨_, _, _, rfl⟩ := h2
  exact ⟨_, _, _, rfl⟩

theorem grpOnly_reg {a b : Dev} (h : grpOnly a b) (o : Nat) (v : Word) : grpOnly a (b.setReg o v) := grpOnly_trans h ⟨_, _, _, rfl⟩

theorem grpOnly_grp {a b : Dev} (h : grpOnly a b) (g : Nat) (x : Grp) : grpOnly a (b.setGrp g x) := grpOnly_trans h ⟨_, _, _, rfl⟩

theorem grpOnly_raise {a b : Dev} (h : grpOnly a b) (s v : Nat) : grpOnly a (b.raise s v) := grpOnly_trans h ⟨_, _, _, rfl⟩

theorem grp_setGrp (d : Dev) (g : Nat) (x : Grp) : (d.setGrp g x).grp g = x := by unfold Dev.grp Dev.setGrp; simp

theorem grp_setGrp_ne (d : Dev) (g k : Nat) (x : Grp) (h : k ≠ g) : (d.setGrp g x).grp k = d.grp k := by
  unfold Dev.grp Dev.setGrp; exact tget_tset_ne _ _ _ _ _ h

theorem reg_setGrp (d : Dev) (g : Nat) (x : Grp) (o : Nat) : (d.setGrp g x).reg o = d.reg o := rfl

theorem grp_setReg (d : Dev) (o : Nat) (v : Word) (g : Nat) : (d.setReg o v).grp g = d.grp g := rfl

theorem grp_raise (d : Dev) (s v g : Nat) : (d.raise s v).grp g = d.grp g := rfl

theorem raise_inbox (d : Dev) (s v : Nat) : (d.raise s v).flt.inbox = d.flt.inbox ++ [⟨s, wd v, false⟩] := rfl

theorem setGrp_flt (d : Dev) (g : Nat) (x : Grp) : (d.setGrp g x).flt = d.flt := rfl

theorem grpCleared_of {d d' : Dev} {g : Nat} (h : d.grpCleared g)
    (h15 : d'.reg (Reg.HST_GRP_W15 g) = d.reg (Reg.HST_GRP_W15 g)) (hg : d'.grp g = d.grp g) : d'.grpCleared g := by
  unfold Dev.grpCleared at h ⊢
  rw [h15, hg]
  exact h

/-- One group of a Function Level Reset. -/
theorem flr_one (d : Dev) (g : Nat) : (d.grpReset g).grpCleared g ∧ grpOnly d (d.grpReset g) ∧
    (∀ o, o ≠ Reg.HST_GRP_W15 g → (d.grpReset g).reg o = d.reg o) ∧ ∀ k, k ≠ g → (d.grpReset g).grp k = d.grp k := by
  have hg : (d.grpReset g).grp g = { d.grp g with errNews := false, reading := false, kicked := false, inj := [], cmds := [], cpl := [], msgPend := false } :=
    grp_setGrp _ _ _
  refine ⟨⟨(reg_setGrp _ _ _ _).trans (Dev.reg_setReg_self _ _ _), ?_, ?_, ?_, ?_⟩, ?_, ?_, ?_⟩
  · rw [hg]
  · rw [hg]
  · rw [hg]
  · rw [hg]
  · exact grpOnly_grp (grpOnly_reg (grpOnly_refl d) _ _) _ _
  · intro o h; exact (reg_setGrp _ _ _ _).trans (Dev.reg_setReg_ne _ _ _ _ h)
  · intro k hk; exact (grp_setGrp_ne _ _ _ _ hk).trans (grp_setReg _ _ _ _)

theorem flr_fold (d : Dev) : let e := (List.range 15).foldl Dev.grpReset d
    (∀ g, g < 15 → e.grpCleared g) ∧ grpOnly d e ∧ (∀ o, (∀ g, g < 15 → o ≠ Reg.HST_GRP_W15 g) → e.reg o = d.reg o) ∧ e.grp 15 = d.grp 15 := by
  intro e
  refine ⟨?_, ?_, ?_, ?_⟩
  · intro g hg
    refine foldl_each' _ (· < 15) (fun g (d : Dev) => d.grpCleared g) (fun b a _ => (flr_one b a).1) ?_ _ (fun a ha => List.mem_range.mp ha) d g (List.mem_range.mpr hg)
    intro b a a' _ _ h
    by_cases hk : a' = a
    · subst hk; exact (flr_one b a').1
    · obtain ⟨-, -, f1, f2⟩ := flr_one b a
      have r1 : Reg.HST_GRP_W15 a' ≠ Reg.HST_GRP_W15 a := by unfold Reg.HST_GRP_W15; omega
      exact grpCleared_of h (f1 _ r1) (f2 _ hk)
  · exact foldl_inv' _ (fun x => grpOnly d x) _ (fun b a _ h => grpOnly_trans h (flr_one b a).2.1) _ (grpOnly_refl d)
  · intro o ho
    refine foldl_inv' _ (fun x : Dev => x.reg o = d.reg o) _ (fun b a ha h => ?_) _ rfl
    exact ((flr_one b a).2.2.1 o (ho a (List.mem_range.mp ha))).trans h
  · refine foldl_inv' _ (fun x : Dev => x.grp 15 = d.grp 15) _ (fun b a ha h => ?_) _ rfl
    have hr := List.mem_range.mp ha
    exact ((flr_one b a).2.2.2 15 (by omega)).trans h

theorem flr_ok (d : Dev) : d.flrDone (functionLevelReset d) ∧ grpOnly d (functionLevelReset d) := by
  unfold functionLevelReset
  obtain ⟨a, b, c, e⟩ := flr_fold d
  generalize (List.range 15).foldl _ d = X at a b c e ⊢
  have hX : ∀ o, o ≠ Reg.HST_BAR4 → (X.setRb Reg.HST_BAR4 31 false).reg o = X.reg o := fun o ho => Dev.reg_setRb_ne X _ _ _ _ ho
  refine ⟨⟨?_, Dev.rb_setRb_self _ _ _ _ (by omega), (grp_setReg _ _ _ _).trans e, ?_, ?_⟩, grpOnly_reg b _ _⟩
  · intro g hg
    exact grpCleared_of (a g hg) (hX _ (by unfold Reg.HST_GRP_W15 Reg.HST_BAR4; omega)) (grp_setReg _ _ _ _)
  · intro w hw
    refine (hX _ (by unfold Reg.HST_GRP_W0 Reg.HST_BAR4; omega)).trans (c _ (fun g hg => ?_))
    unfold Reg.HST_GRP_W0 Reg.HST_GRP_W15; omega
  · refine rf_of_reg ((hX _ (by decide)).trans (c _ (fun g hg => ?_))) _ _
    unfold Reg.HST_GRP_W15 Reg.GLB_RUN_STATE; omega

theorem grpError_ok (d : Dev) (g code : Nat) (hc : code < 256) : (d.grpError g code).rb (Reg.HST_GRP_W15 g) 31 = false ∧ (d.grpError g code).rb (Reg.HST_GRP_W15 g) 30 = true ∧
    (d.grpError g code).rf (Reg.HST_GRP_W15 g) 7 0 = code ∧ grpOnly d (d.grpError g code) ∧ (∀ o, o ≠ Reg.HST_GRP_W15 g → (d.grpError g code).reg o = d.reg o) ∧
    (∀ k, k ≠ g → (d.grpError g code).grp k = d.grp k) ∧ (d.grpError g code).flt.inbox = d.flt.inbox ++ [⟨Src.hstRingError, wd code, false⟩] := by
  unfold Dev.grpError
  have hb : b2n (d.rb (Reg.HST_GRP_W15 g) 29) < 2 := by cases d.rb (Reg.HST_GRP_W15 g) 29 <;> decide
  have hw : ∀ v : Word, ((d.setReg (Reg.HST_GRP_W15 g) v).setGrp g { d.grp g with errNews := true, reading := false, kicked := false }).reg (Reg.HST_GRP_W15 g) = v :=
    fun v => (reg_setGrp _ _ _ _).trans (Dev.reg_setReg_self _ _ _)
  generalize b2n (d.rb (Reg.HST_GRP_W15 g) 29) = x at hb ⊢
  refine ⟨?_, ?_, ?_, ?_, ?_, ?_, ?_⟩
  · rw [Dev.rb_raise]; unfold Dev.rb
    rw [reg_setGrp, Dev.reg_setReg_self, testBit_wd _ _ (by omega), Nat.testBit_eq_decide_div_mod_eq, decide_eq_false_iff_not]
    omega
  · rw [Dev.rb_raise]; unfold Dev.rb
    rw [reg_setGrp, Dev.reg_setReg_self, testBit_wd _ _ (by omega), Nat.testBit_eq_decide_div_mod_eq, decide_eq_true_eq]
    omega
  · rw [Dev.rf_raise]; unfold Dev.rf
    rw [reg_setGrp, Dev.reg_setReg_self, fld_wd _ _ _ (by omega) (by omega)]
    omega
  · exact grpOnly_raise (grpOnly_grp (grpOnly_reg (grpOnly_refl d) _ _) _ _) _ _
  · intro o ho
    rw [Dev.reg_raise, reg_setGrp, Dev.reg_setReg_ne _ _ _ _ ho]
  · intro k hk
    rw [grp_raise, grp_setGrp_ne _ _ _ _ hk, grp_setReg]
  · rw [raise_inbox, setGrp_flt, Dev.setReg_flt]

theorem link_fold (l : List Nat) (d : Dev) (hl : ∀ g ∈ l, g < 15) : let e := l.foldl (fun (d : Dev) g => d.grpError g 4) d
    (∀ g ∈ l, e.rb (Reg.HST_GRP_W15 g) 31 = false ∧ e.rb (Reg.HST_GRP_W15 g) 30 = true ∧ e.rf (Reg.HST_GRP_W15 g) 7 0 = 4) ∧ grpOnly d e ∧
    (∀ o, (∀ g, g < 15 → o ≠ Reg.HST_GRP_W15 g) → e.reg o = d.reg o) ∧ e.grp 15 = d.grp 15 ∧ e.flt.inbox = d.flt.inbox ++ l.map (fun _ => ⟨Src.hstRingError, 4, false⟩) := by
  intro e
  refine ⟨?_, ?_, ?_, ?_, ?_⟩
  · intro g hg
    refine foldl_each' _ (· < 15) (fun g (e : Dev) => e.rb (Reg.HST_GRP_W15 g) 31 = false ∧ e.rb (Reg.HST_GRP_W15 g) 30 = true ∧ e.rf (Reg.HST_GRP_W15 g) 7 0 = 4) ?_ ?_ _ hl d g hg
    · intro b a _
      obtain ⟨h1, h2, h3, -⟩ := grpError_ok b a 4 (by omega)
      exact ⟨h1, h2, h3⟩
    · intro b a a' _ _ h
      by_cases hk : a' = a
      · subst hk
        obtain ⟨h1, h2, h3, -⟩ := grpError_ok b a' 4 (by omega)
        exact ⟨h1, h2, h3⟩
      · obtain ⟨-, -, -, -, f, -⟩ := grpError_ok b a 4 (by omega)
        have := f (Reg.HST_GRP_W15 a') (by unfold Reg.HST_GRP_W15; omega)
        exact ⟨(rb_of_reg this _).trans h.1, (rb_of_reg this _).trans h.2.1, (rf_of_reg this _ _).trans h.2.2⟩
  · exact foldl_inv' _ (fun x => grpOnly d x) _ (fun b a ha h => grpOnly_trans h (grpError_ok b a 4 (by omega)).2.2.2.1) _ (grpOnly_refl d)
  · intro o ho
    refine foldl_inv' _ (fun x : Dev => x.reg o = d.reg o) _ (fun b a ha h => ?_) _ rfl
    exact ((grpError_ok b a 4 (by omega)).2.2.2.2.1 o (ho a (hl a ha))).trans h
  · refine foldl_inv' _ (fun x : Dev => x.grp 15 = d.grp 15) _ (fun b a ha h => ?_) _ rfl
    have := hl a ha
    exact ((grpError_ok b a 4 (by omega)).2.2.2.2.2.1 15 (by omega)).trans h
  · have : ∀ (l : List Nat) (d : Dev), (l.foldl (fun (d : Dev) g => d.grpError g 4) d).flt.inbox = d.flt.inbox ++ l.map (fun _ => ⟨Src.hstRingError, 4, false⟩) := by
      intro l
      induction l with
      | nil => intro d; simp
      | cons a r ih =>
        intro d
        rw [List.foldl_cons, ih, (grpError_ok d a 4 (by omega)).2.2.2.2.2.2, List.map_cons, List.append_assoc]
        rfl
    exact this l d

end Sys2Proof.Machine
end

