-- ==== Sys2Proof/Laws/Times.lean ====
section
/-!
SUPPORT. The time base: captures, moves and signed steps.
-/

namespace Sys2Proof.Machine

theorem wd_toNat (n : Nat) (h : n < 2 ^ 32) : (wd n).toNat = n := by
  unfold wd; rw [BitVec.toNat_ofNat]; exact Nat.mod_eq_of_lt h

theorem live_on {f : Dev → Dev} {d : Dev} (h : d.pins.resetN = true) : Dev.live f d = f d := by unfold Dev.live; rw [if_pos h]

theorem runClk_ok {ok : Bool} {c : Clock → Clock} {f : Dev → Dev} {s : State} (h : ok = true) :
    runClk ok c f s = .next { s with clk := c s.clk, dev := f s.dev } := by unfold runClk; rw [if_pos h]
/-- A capture's registers. -/

theorem capture_regs (c : Clock) (d : Dev) (o : Nat) : (timeCapture c d).reg o =
    if o = Reg.TIM_T_SEC_HI then wd (c.sec / 2 ^ 32) else if o = Reg.TIM_T_SEC_LO then wd c.sec else if o = Reg.TIM_T_NS then wd c.nsec
    else if o = Reg.TIM_T_FRAC then wd (c.frac / 2 ^ 16) else d.reg o := by
  unfold timeCapture
  rw [Dev.reg_setReg, Dev.reg_setReg, Dev.reg_setReg, Dev.reg_setReg]

theorem addNs_eq (sec nsec : Nat) (n m : Int) (hm : m = ((2 ^ 48 * 1000000000 : Nat) : Int)) :
    addNs sec nsec n = (((((sec * 1000000000 + nsec : Nat) : Int) + n) % m).toNat / 1000000000, ((((sec * 1000000000 + nsec : Nat) : Int) + n) % m).toNat % 1000000000) := by
  rw [hm]; rfl

theorem addNs_mod : (2 ^ 48 * 1000000000 : Nat) = 281474976710656000000000 := by norm_num

theorem addNs_ok (sec nsec : Nat) (n : Int) : (addNs sec nsec n).2 < 1000000000 ∧
    ((((addNs sec nsec n).1 * 1000000000 + (addNs sec nsec n).2 : Nat) : Int) - (sec * 1000000000 + nsec : Nat) - n) % (2 ^ 48 * 1000000000) = 0 := by
  obtain ⟨m, hm⟩ : ∃ m : Int, m = 281474976710656000000000 := ⟨_, rfl⟩
  have hm2 : m = ((2 ^ 48 * 1000000000 : Nat) : Int) := by rw [addNs_mod, hm]; exact Nat.cast_ofNat.symm
  have e1 : (2 ^ 48 * 1000000000 : Int) = m := by rw [hm]; norm_num
  rw [addNs_eq sec nsec n _ hm2, e1]
  obtain ⟨a, ha⟩ : ∃ a : Int, a = ((sec * 1000000000 + nsec : Nat) : Int) := ⟨_, rfl⟩
  rw [← ha]
  obtain ⟨r, hr⟩ : ∃ r : Int, r = (a + n) % m := ⟨_, rfl⟩
  rw [← hr]
  have h0 : 0 ≤ r := by rw [hr, hm]; exact Int.emod_nonneg _ (by norm_num)
  have e2 : ((r.toNat / 1000000000 * 1000000000 + r.toNat % 1000000000 : Nat) : Int) = r := by
    rw [Nat.div_add_mod', Int.toNat_of_nonneg h0]
  refine ⟨Nat.mod_lt _ (by omega), ?_⟩
  show (((r.toNat / 1000000000 * 1000000000 + r.toNat % 1000000000 : Nat) : Int) - a - n) % m = 0
  rw [e2, hr]
  clear hr h0 e2 ha hm2 e1
  subst hm
  omega

theorem moveTo_ok (c : Clock) (on : Bool) (f a b : Nat) : (({ c with frac := f } : Clock).moveTo on a b).nsec = b ∧
    (({ c with frac := f } : Clock).moveTo on a b).sec = a ∧
    (({ c with frac := f } : Clock).moveTo on a b).frac = f ∧ (({ c with frac := f } : Clock).moveTo on a b).count = c.count := ⟨rfl, rfl, rfl, rfl⟩

end Sys2Proof.Machine
end

