-- ==== Sys2Proof/Laws/Steps.lean ====
section
/-!
SUPPORT. What a step leaves of the time, the identity and the queue; writes of memory keep its canonical form.
-/

namespace Sys2Proof.Machine

theorem runDev_keeps {ok : Bool} {f : Dev → Dev} {s t : State} (h : runDev ok f s = .next t) :
    t.clk = s.clk ∧ t.idn = s.idn ∧ t.pending = s.pending := by
  unfold runDev at h
  split at h
  · cases h; exact ⟨rfl, rfl, rfl⟩
  · cases h

theorem runClk_keeps {ok : Bool} {c : Clock → Clock} {f : Dev → Dev} {s t : State} (h : runClk ok c f s = .next t) :
    t.clk = c s.clk ∧ t.idn = s.idn ∧ t.pending = s.pending := by
  unfold runClk at h
  split at h
  · cases h; exact ⟨rfl, rfl, rfl⟩
  · cases h

theorem runIdn_keeps {ok : Bool} {n : Ident → Ident} {f : Dev → Dev} {s t : State} (h : runIdn ok n f s = .next t) :
    t.clk = s.clk ∧ t.idn = n s.idn ∧ t.pending = s.pending := by
  unfold runIdn at h
  split at h
  · cases h; exact ⟨rfl, rfl, rfl⟩
  · cases h

theorem runAll_keeps {ok : Bool} {c : Clock → Clock} {n : Ident → Ident} {f : Dev → Dev} {s t : State} (h : runAll ok c n f s = .next t) :
    t.clk = c s.clk ∧ t.idn = n s.idn ∧ t.pending = s.pending := by
  unfold runAll at h
  split at h
  · cases h; exact ⟨rfl, rfl, rfl⟩
  · cases h

theorem runDev_ans (ok : Bool) (f : Dev → Dev) (s : State) : (ok = true → ∃ t, runDev ok f s = .next t ∧ t.pending = s.pending) ∧
    (ok = false → runDev ok f s = .fault .noSuchUnit) := by
  constructor <;> rintro rfl
  · exact ⟨_, rfl, rfl⟩
  · rfl

theorem runClk_ans (ok : Bool) (c : Clock → Clock) (f : Dev → Dev) (s : State) : (ok = true → ∃ t, runClk ok c f s = .next t ∧ t.pending = s.pending) ∧
    (ok = false → runClk ok c f s = .fault .noSuchUnit) := by
  constructor <;> rintro rfl
  · exact ⟨_, rfl, rfl⟩
  · rfl

theorem runIdn_ans (ok : Bool) (n : Ident → Ident) (f : Dev → Dev) (s : State) : (ok = true → ∃ t, runIdn ok n f s = .next t ∧ t.pending = s.pending) ∧
    (ok = false → runIdn ok n f s = .fault .noSuchUnit) := by
  constructor <;> rintro rfl
  · exact ⟨_, rfl, rfl⟩
  · rfl

theorem runAll_ans (ok : Bool) (c : Clock → Clock) (n : Ident → Ident) (f : Dev → Dev) (s : State) : (ok = true → ∃ t, runAll ok c n f s = .next t ∧ t.pending = s.pending) ∧
    (ok = false → runAll ok c n f s = .fault .noSuchUnit) := by
  constructor <;> rintro rfl
  · exact ⟨_, rfl, rfl⟩
  · rfl

theorem Clock.ok_iff (c : Clock) : c.ok = true ↔ c.sec < 2 ^ 48 ∧ c.nsec < 1000000000 ∧ c.frac < 2 ^ 32 ∧ c.count < 2 ^ 64 := by
  unfold Clock.ok
  simp [and_assoc]

theorem addNs_sec (sec nsec : Nat) (n : Int) : (addNs sec nsec n).1 < 2 ^ 48 := by
  obtain ⟨m, hm⟩ : ∃ m : Int, m = 281474976710656000000000 := ⟨_, rfl⟩
  have hm2 : m = ((2 ^ 48 * 1000000000 : Nat) : Int) := by rw [addNs_mod, hm]; exact Nat.cast_ofNat.symm
  rw [addNs_eq sec nsec n _ hm2]
  obtain ⟨a, ha⟩ : ∃ a : Int, a = ((sec * 1000000000 + nsec : Nat) : Int) + n := ⟨_, rfl⟩
  rw [← ha]
  clear ha hm2
  dsimp only
  have h2 : a % m < m := Int.emod_lt_of_pos _ (by rw [hm]; norm_num)
  rw [Nat.div_lt_iff_lt_mul (by norm_num)]
  generalize a % m = r at h2 ⊢
  subst hm
  norm_num
  omega

theorem rf_lt16 (d : Dev) (o : Nat) : d.rf o 15 0 < 2 ^ 16 := by unfold Dev.rf fld; exact Nat.mod_lt _ (by norm_num)

theorem mv_ok (c : Clock) (on : Bool) (f a b : Nat) (ha : a < 2 ^ 48) (hb : b < 1000000000) (hf : f < 2 ^ 32) (hc : c.count < 2 ^ 64) :
    (({ c with frac := f } : Clock).moveTo on a b).ok = true := by
  rw [Clock.ok_iff]; exact ⟨ha, hb, hf, hc⟩

theorem sec_lt (a b : Nat) (ha : a < 2 ^ 32) (hb : b < 2 ^ 16) : a + b * 2 ^ 32 < 2 ^ 48 := by omega

theorem frac_lt (a : Nat) (ha : a < 2 ^ 16) : a * 2 ^ 16 < 2 ^ 32 := by omega

theorem set_ok (d : Dev) (c : Clock) (h : c.ok = true) : (timeSetClock d c).ok = true := by
  cases hs : d.setRefused
  · have e : timeSetClock d c = _ := if_neg (by rw [hs]; decide)
    rw [e]
    unfold Dev.setRefused at hs
    rw [decide_eq_false_iff_not, not_le] at hs
    exact mv_ok _ _ _ _ _ (sec_lt _ _ (d.reg Reg.TIM_T_SEC_LO).isLt (rf_lt16 _ _)) hs (frac_lt _ (rf_lt16 _ _)) ((Clock.ok_iff c).1 h).2.2.2
  · have e : timeSetClock d c = c := if_pos hs
    rw [e]; exact h

theorem add_ok (c : Clock) (on : Bool) (n : Int) (h : c.ok = true) : (c.add on n).ok = true := by
  rw [Clock.ok_iff] at h ⊢
  unfold Clock.add Clock.moveTo
  exact ⟨addNs_sec _ _ _, (addNs_ok _ _ _).1, h.2.2.1, h.2.2.2⟩

theorem step_ok (d : Dev) (c : Clock) (h : c.ok = true) : (timeStepClock d c).ok = true := add_ok _ _ _ h

theorem regWriteClock_ok (off : Nat) (v : Word) (d : Dev) (c : Clock) (h : c.ok = true) : (regWriteClock off v d c).ok = true := by
  unfold regWriteClock
  split
  · split
    · exact set_ok _ _ h
    · exact step_ok _ _ h
    · exact h
  · exact h

theorem tick_ok (d : Dev) (c : Clock) (h : c.ok = true) : (clockTick d c).ok = true := by
  have hb := (Clock.ok_iff c).1 h
  unfold clockTick
  dsimp only
  split
  · exact h
  · split
    · rw [Clock.ok_iff]; exact ⟨hb.1, hb.2.1, hb.2.2.1, Nat.mod_lt _ (by norm_num)⟩
    · split
      · apply add_ok; rw [Clock.ok_iff]; exact ⟨hb.1, hb.2.1, hb.2.2.1, Nat.mod_lt _ (by norm_num)⟩
      · apply add_ok; rw [Clock.ok_iff]
        refine ⟨hb.1, hb.2.1, ?_, Nat.mod_lt _ (by norm_num)⟩
        show (((c.frac : Int) + sintN 32 (d.reg Reg.TIM_RATE).toNat) % ((2 ^ 32 : Nat) : Int)).toNat < 2 ^ 32
        generalize (c.frac : Int) + sintN 32 (d.reg Reg.TIM_RATE).toNat = x
        norm_num
        omega

/-- What a command may leave of the clock. -/

def Clock.may (d : Dev) (c k : Clock) : Prop := k = c ∨ k = Clock.reset ∨ (∃ off v, k = regWriteClock off v d c) ∨ k = timeSetClock d c ∨ k = timeStepClock d c ∨ k = ppsRiseClock d c

def Ident.may (d : Dev) (i j : Ident) : Prop := j = i ∨ j = i.cleared ∨ (∃ r, j = measExtendIdent r d i) ∨ (∃ r, d.stage = 1 ∧ j = bootIdent r i)

theorem clk_dbg (off : Nat) (acc : RegAcc) (d : Dev) (c : Clock) : Clock.may d c (dbgClock off acc d c) := by
  unfold dbgClock
  split
  · exact .inr (.inr (.inl ⟨_, _, rfl⟩))
  · exact .inl rfl

theorem clk_sized (size off : Nat) (v : Word) (d : Dev) (c : Clock) : Clock.may d c (sizedClock size off v d c) := by
  unfold sizedClock
  split
  · exact .inr (.inr (.inl ⟨_, _, rfl⟩))
  · exact .inl rfl

theorem clk_store (p : Bool) (t : Nat) (f : IFmt) (d : Dev) (c : Clock) : Clock.may d c (storeClock p t f d c) := by
  unfold storeClock
  split
  · exact .inr (.inr (.inl ⟨_, _, rfl⟩))
  · exact .inl rfl

theorem exec_clk (c : Instr) (s t : State) (h : exec c s = .next t) : Clock.may s.dev s.clk t.clk ∧ (setsTime c = false → t.clk = s.clk) := by
  cases c with
  | resetNRelease => rw [exec_resetNRelease] at h; exact ⟨.inl (runDev_keeps h).1, fun _ => (runDev_keeps h).1⟩
  | primerBoot => rw [exec_primerBoot] at h; exact ⟨.inl (runIdn_keeps h).1, fun _ => (runIdn_keeps h).1⟩
  | hostBootDmaDone => rw [exec_hostBootDmaDone] at h; exact ⟨.inl (runIdn_keeps h).1, fun _ => (runIdn_keeps h).1⟩
  | pciePerstNRelease => rw [exec_pciePerstNRelease] at h; exact ⟨.inl (runDev_keeps h).1, fun _ => (runDev_keeps h).1⟩
  | hostLinkLoss => rw [exec_hostLinkLoss] at h; exact ⟨.inl (runDev_keeps h).1, fun _ => (runDev_keeps h).1⟩
  | frameReceive => rw [exec_frameReceive] at h; exact ⟨.inl (runDev_keeps h).1, fun _ => (runDev_keeps h).1⟩
  | signalDetect => rw [exec_signalDetect] at h; exact ⟨.inl (runDev_keeps h).1, fun _ => (runDev_keeps h).1⟩
  | linkTrainingDone => rw [exec_linkTrainingDone] at h; exact ⟨.inl (runDev_keeps h).1, fun _ => (runDev_keeps h).1⟩
  | portUp => rw [exec_portUp] at h; exact ⟨.inl (runDev_keeps h).1, fun _ => (runDev_keeps h).1⟩
  | portBringupTimeout => rw [exec_portBringupTimeout] at h; exact ⟨.inl (runDev_keeps h).1, fun _ => (runDev_keeps h).1⟩
  | portLinkDown => rw [exec_portLinkDown] at h; exact ⟨.inl (runDev_keeps h).1, fun _ => (runDev_keeps h).1⟩
  | transmitFrame => rw [exec_transmitFrame] at h; exact ⟨.inl (runDev_keeps h).1, fun _ => (runDev_keeps h).1⟩
  | transmitDone => rw [exec_transmitDone] at h; exact ⟨.inl (runDev_keeps h).1, fun _ => (runDev_keeps h).1⟩
  | timeSet => rw [exec_timeSet] at h; exact ⟨by rw [(runClk_keeps h).1]; exact (by split <;> first | exact .inl rfl | exact .inr (.inr (.inr (.inl rfl)))), fun hc => by cases hc⟩
  | recirculationReentry => rw [exec_recirculationReentry] at h; exact ⟨.inl (runDev_keeps h).1, fun _ => (runDev_keeps h).1⟩
  | parserBankSwitch => rw [exec_parserBankSwitch] at h; exact ⟨.inl (runDev_keeps h).1, fun _ => (runDev_keeps h).1⟩
  | easelSelect => rw [exec_easelSelect] at h; exact ⟨.inl (runDev_keeps h).1, fun _ => (runDev_keeps h).1⟩
  | preemptSave => rw [exec_preemptSave] at h; exact ⟨.inl (runDev_keeps h).1, fun _ => (runDev_keeps h).1⟩
  | aluOp => rw [exec_aluOp] at h; exact ⟨.inl (runDev_keeps h).1, fun _ => (runDev_keeps h).1⟩
  | multiply => rw [exec_multiply] at h; exact ⟨.inl (runDev_keeps h).1, fun _ => (runDev_keeps h).1⟩
  | divide => rw [exec_divide] at h; exact ⟨.inl (runDev_keeps h).1, fun _ => (runDev_keeps h).1⟩
  | addi => rw [exec_addi] at h; exact ⟨.inl (runDev_keeps h).1, fun _ => (runDev_keeps h).1⟩
  | andi => rw [exec_andi] at h; exact ⟨.inl (runDev_keeps h).1, fun _ => (runDev_keeps h).1⟩
  | ori => rw [exec_ori] at h; exact ⟨.inl (runDev_keeps h).1, fun _ => (runDev_keeps h).1⟩
  | xori => rw [exec_xori] at h; exact ⟨.inl (runDev_keeps h).1, fun _ => (runDev_keeps h).1⟩
  | shifti => rw [exec_shifti] at h; exact ⟨.inl (runDev_keeps h).1, fun _ => (runDev_keeps h).1⟩
  | cmpi => rw [exec_cmpi] at h; exact ⟨.inl (runDev_keeps h).1, fun _ => (runDev_keeps h).1⟩
  | addis => rw [exec_addis] at h; exact ⟨.inl (runDev_keeps h).1, fun _ => (runDev_keeps h).1⟩
  | lui => rw [exec_lui] at h; exact ⟨.inl (runDev_keeps h).1, fun _ => (runDev_keeps h).1⟩
  | bcc => rw [exec_bcc] at h; exact ⟨.inl (runDev_keeps h).1, fun _ => (runDev_keeps h).1⟩
  | call => rw [exec_call] at h; exact ⟨.inl (runDev_keeps h).1, fun _ => (runDev_keeps h).1⟩
  | jr => rw [exec_jr] at h; exact ⟨.inl (runDev_keeps h).1, fun _ => (runDev_keeps h).1⟩
  | callr => rw [exec_callr] at h; exact ⟨.inl (runDev_keeps h).1, fun _ => (runDev_keeps h).1⟩
  | eret => rw [exec_eret] at h; exact ⟨.inl (runDev_keeps h).1, fun _ => (runDev_keeps h).1⟩
  | sys => rw [exec_sys] at h; exact ⟨.inl (runDev_keeps h).1, fun _ => (runDev_keeps h).1⟩
  | bkpt => rw [exec_bkpt] at h; exact ⟨.inl (runDev_keeps h).1, fun _ => (runDev_keeps h).1⟩
  | ldw => rw [exec_ldw] at h; exact ⟨.inl (runDev_keeps h).1, fun _ => (runDev_keeps h).1⟩
  | ldh => rw [exec_ldh] at h; exact ⟨.inl (runDev_keeps h).1, fun _ => (runDev_keeps h).1⟩
  | ldhu => rw [exec_ldhu] at h; exact ⟨.inl (runDev_keeps h).1, fun _ => (runDev_keeps h).1⟩
  | ldb => rw [exec_ldb] at h; exact ⟨.inl (runDev_keeps h).1, fun _ => (runDev_keeps h).1⟩
  | ldbu => rw [exec_ldbu] at h; exact ⟨.inl (runDev_keeps h).1, fun _ => (runDev_keeps h).1⟩
  | stw => rw [exec_stw] at h; exact ⟨by rw [(runAll_keeps h).1]; exact clk_store _ _ _ _ _, fun hc => by cases hc⟩
  | sth => rw [exec_sth] at h; exact ⟨.inl (runDev_keeps h).1, fun _ => (runDev_keeps h).1⟩
  | stb => rw [exec_stb] at h; exact ⟨.inl (runDev_keeps h).1, fun _ => (runDev_keeps h).1⟩
  | ldwPostinc => rw [exec_ldwPostinc] at h; exact ⟨.inl (runDev_keeps h).1, fun _ => (runDev_keeps h).1⟩
  | stwPostinc => rw [exec_stwPostinc] at h; exact ⟨by rw [(runAll_keeps h).1]; exact clk_store _ _ _ _ _, fun hc => by cases hc⟩
  | lkacq => rw [exec_lkacq] at h; exact ⟨.inl (runDev_keeps h).1, fun _ => (runDev_keeps h).1⟩
  | lkrel => rw [exec_lkrel] at h; exact ⟨.inl (runDev_keeps h).1, fun _ => (runDev_keeps h).1⟩
  | sync => rw [exec_sync] at h; exact ⟨.inl (runDev_keeps h).1, fun _ => (runDev_keeps h).1⟩
  | dinvl => rw [exec_dinvl] at h; exact ⟨.inl (runDev_keeps h).1, fun _ => (runDev_keeps h).1⟩
  | dinva => rw [exec_dinva] at h; exact ⟨.inl (runDev_keeps h).1, fun _ => (runDev_keeps h).1⟩
  | iinvl => rw [exec_iinvl] at h; exact ⟨.inl (runDev_keeps h).1, fun _ => (runDev_keeps h).1⟩
  | iinva => rw [exec_iinva] at h; exact ⟨.inl (runDev_keeps h).1, fun _ => (runDev_keeps h).1⟩
  | l2invl => rw [exec_l2invl] at h; exact ⟨.inl (runDev_keeps h).1, fun _ => (runDev_keeps h).1⟩
  | l2clnl => rw [exec_l2clnl] at h; exact ⟨.inl (runDev_keeps h).1, fun _ => (runDev_keeps h).1⟩
  | l2flush => rw [exec_l2flush] at h; exact ⟨.inl (runDev_keeps h).1, fun _ => (runDev_keeps h).1⟩
  | thset => rw [exec_thset] at h; exact ⟨.inl (runDev_keeps h).1, fun _ => (runDev_keeps h).1⟩
  | thget => rw [exec_thget] at h; exact ⟨.inl (runDev_keeps h).1, fun _ => (runDev_keeps h).1⟩
  | thgo => rw [exec_thgo] at h; exact ⟨.inl (runDev_keeps h).1, fun _ => (runDev_keeps h).1⟩
  | wt => rw [exec_wt] at h; exact ⟨.inl (runDev_keeps h).1, fun _ => (runDev_keeps h).1⟩
  | mfs => rw [exec_mfs] at h; exact ⟨.inl (runDev_keeps h).1, fun _ => (runDev_keeps h).1⟩
  | mts => rw [exec_mts] at h; exact ⟨.inl (runDev_keeps h).1, fun _ => (runDev_keeps h).1⟩
  | tcont => rw [exec_tcont] at h; exact ⟨.inl (runDev_keeps h).1, fun _ => (runDev_keeps h).1⟩
  | vcommit => rw [exec_vcommit] at h; exact ⟨.inl (runDev_keeps h).1, fun _ => (runDev_keeps h).1⟩
  | vabort => rw [exec_vabort] at h; exact ⟨.inl (runDev_keeps h).1, fun _ => (runDev_keeps h).1⟩
  | tend => rw [exec_tend] at h; exact ⟨.inl (runDev_keeps h).1, fun _ => (runDev_keeps h).1⟩
  | tlbinvAll => rw [exec_tlbinvAll] at h; exact ⟨.inl (runDev_keeps h).1, fun _ => (runDev_keeps h).1⟩
  | tlbinvPage => rw [exec_tlbinvPage] at h; exact ⟨.inl (runDev_keeps h).1, fun _ => (runDev_keeps h).1⟩
  | tlbinvAsid => rw [exec_tlbinvAsid] at h; exact ⟨.inl (runDev_keeps h).1, fun _ => (runDev_keeps h).1⟩
  | tlbinvPageAsid => rw [exec_tlbinvPageAsid] at h; exact ⟨.inl (runDev_keeps h).1, fun _ => (runDev_keeps h).1⟩
  | shortPair => rw [exec_shortPair] at h; exact ⟨.inl (runDev_keeps h).1, fun _ => (runDev_keeps h).1⟩
  | rep => rw [exec_rep] at h; exact ⟨.inl (runDev_keeps h).1, fun _ => (runDev_keeps h).1⟩
  | accessCheckComplete => rw [exec_accessCheckComplete] at h; exact ⟨.inl (runDev_keeps h).1, fun _ => (runDev_keeps h).1⟩
  | loadDataReturn => rw [exec_loadDataReturn] at h; exact ⟨.inl (runDev_keeps h).1, fun _ => (runDev_keeps h).1⟩
  | icacheFillDone => rw [exec_icacheFillDone] at h; exact ⟨.inl (runDev_keeps h).1, fun _ => (runDev_keeps h).1⟩
  | atelierInterrupt => rw [exec_atelierInterrupt] at h; exact ⟨.inl (runDev_keeps h).1, fun _ => (runDev_keeps h).1⟩
  | waitDeadline => rw [exec_waitDeadline] at h; exact ⟨.inl (runDev_keeps h).1, fun _ => (runDev_keeps h).1⟩
  | edpush => rw [exec_edpush] at h; exact ⟨.inl (runDev_keeps h).1, fun _ => (runDev_keeps h).1⟩
  | edpop => rw [exec_edpop] at h; exact ⟨.inl (runDev_keeps h).1, fun _ => (runDev_keeps h).1⟩
  | edrw => rw [exec_edrw] at h; exact ⟨.inl (runDev_keeps h).1, fun _ => (runDev_keeps h).1⟩
  | lkup => rw [exec_lkup] at h; exact ⟨.inl (runDev_keeps h).1, fun _ => (runDev_keeps h).1⟩
  | lkupl => rw [exec_lkupl] at h; exact ⟨.inl (runDev_keeps h).1, fun _ => (runDev_keeps h).1⟩
  | hcrc => rw [exec_hcrc] at h; exact ⟨.inl (runDev_keeps h).1, fun _ => (runDev_keeps h).1⟩
  | htpz => rw [exec_htpz] at h; exact ⟨.inl (runDev_keeps h).1, fun _ => (runDev_keeps h).1⟩
  | hsum => rw [exec_hsum] at h; exact ⟨.inl (runDev_keeps h).1, fun _ => (runDev_keeps h).1⟩
  | hsupd => rw [exec_hsupd] at h; exact ⟨.inl (runDev_keeps h).1, fun _ => (runDev_keeps h).1⟩
  | mtr => rw [exec_mtr] at h; exact ⟨.inl (runDev_keeps h).1, fun _ => (runDev_keeps h).1⟩
  | cnt => rw [exec_cnt] at h; exact ⟨.inl (runDev_keeps h).1, fun _ => (runDev_keeps h).1⟩
  | cenc => rw [exec_cenc] at h; exact ⟨.inl (runDev_keeps h).1, fun _ => (runDev_keeps h).1⟩
  | cdec => rw [exec_cdec] at h; exact ⟨.inl (runDev_keeps h).1, fun _ => (runDev_keeps h).1⟩
  | enq => rw [exec_enq] at h; exact ⟨.inl (runDev_keeps h).1, fun _ => (runDev_keeps h).1⟩
  | pshare => rw [exec_pshare] at h; exact ⟨.inl (runDev_keeps h).1, fun _ => (runDev_keeps h).1⟩
  | pdrop => rw [exec_pdrop] at h; exact ⟨.inl (runDev_keeps h).1, fun _ => (runDev_keeps h).1⟩
  | pfree => rw [exec_pfree] at h; exact ⟨.inl (runDev_keeps h).1, fun _ => (runDev_keeps h).1⟩
  | pswap => rw [exec_pswap] at h; exact ⟨.inl (runDev_keeps h).1, fun _ => (runDev_keeps h).1⟩
  | mopen => rw [exec_mopen] at h; exact ⟨.inl (runDev_keeps h).1, fun _ => (runDev_keeps h).1⟩
  | mput => rw [exec_mput] at h; exact ⟨.inl (runDev_keeps h).1, fun _ => (runDev_keeps h).1⟩
  | mclose => rw [exec_mclose] at h; exact ⟨.inl (runDev_keeps h).1, fun _ => (runDev_keeps h).1⟩
  | mrecv => rw [exec_mrecv] at h; exact ⟨.inl (runDev_keeps h).1, fun _ => (runDev_keeps h).1⟩
  | mpost => rw [exec_mpost] at h; exact ⟨.inl (runDev_keeps h).1, fun _ => (runDev_keeps h).1⟩
  | bsave => rw [exec_bsave] at h; exact ⟨.inl (runDev_keeps h).1, fun _ => (runDev_keeps h).1⟩
  | brest => rw [exec_brest] at h; exact ⟨.inl (runDev_keeps h).1, fun _ => (runDev_keeps h).1⟩
  | lookupEngineSearch => rw [exec_lookupEngineSearch] at h; exact ⟨.inl (runDev_keeps h).1, fun _ => (runDev_keeps h).1⟩
  | learnStart => rw [exec_learnStart] at h; exact ⟨.inl (runDev_keeps h).1, fun _ => (runDev_keeps h).1⟩
  | learnApply => rw [exec_learnApply] at h; exact ⟨.inl (runDev_keeps h).1, fun _ => (runDev_keeps h).1⟩
  | ageVisit => rw [exec_ageVisit] at h; exact ⟨.inl (runDev_keeps h).1, fun _ => (runDev_keeps h).1⟩
  | flushWalkVisit => rw [exec_flushWalkVisit] at h; exact ⟨.inl (runDev_keeps h).1, fun _ => (runDev_keeps h).1⟩
  | fwdTblEnable => rw [exec_fwdTblEnable] at h; exact ⟨.inl (runDev_keeps h).1, fun _ => (runDev_keeps h).1⟩
  | fwdTblDisable => rw [exec_fwdTblDisable] at h; exact ⟨.inl (runDev_keeps h).1, fun _ => (runDev_keeps h).1⟩
  | tableInitDone => rw [exec_tableInitDone] at h; exact ⟨.inl (runDev_keeps h).1, fun _ => (runDev_keeps h).1⟩
  | search => rw [exec_search] at h; exact ⟨.inl (runDev_keeps h).1, fun _ => (runDev_keeps h).1⟩
  | next => rw [exec_next] at h; exact ⟨.inl (runDev_keeps h).1, fun _ => (runDev_keeps h).1⟩
  | insert => rw [exec_insert] at h; exact ⟨.inl (runDev_keeps h).1, fun _ => (runDev_keeps h).1⟩
  | modify => rw [exec_modify] at h; exact ⟨.inl (runDev_keeps h).1, fun _ => (runDev_keeps h).1⟩
  | delete => rw [exec_delete] at h; exact ⟨.inl (runDev_keeps h).1, fun _ => (runDev_keeps h).1⟩
  | flushPort => rw [exec_flushPort] at h; exact ⟨.inl (runDev_keeps h).1, fun _ => (runDev_keeps h).1⟩
  | actWrite => rw [exec_actWrite] at h; exact ⟨.inl (runDev_keeps h).1, fun _ => (runDev_keeps h).1⟩
  | txn => rw [exec_txn] at h; exact ⟨.inl (runDev_keeps h).1, fun _ => (runDev_keeps h).1⟩
  | portRearm => rw [exec_portRearm] at h; exact ⟨.inl (runDev_keeps h).1, fun _ => (runDev_keeps h).1⟩
  | profileStage => rw [exec_profileStage] at h; exact ⟨.inl (runDev_keeps h).1, fun _ => (runDev_keeps h).1⟩
  | profileApply => rw [exec_profileApply] at h; exact ⟨.inl (runDev_keeps h).1, fun _ => (runDev_keeps h).1⟩
  | msgSend => rw [exec_msgSend] at h; exact ⟨.inl (runDev_keeps h).1, fun _ => (runDev_keeps h).1⟩
  | taskPost => rw [exec_taskPost] at h; exact ⟨.inl (runDev_keeps h).1, fun _ => (runDev_keeps h).1⟩
  | quote => rw [exec_quote] at h; exact ⟨.inl (runDev_keeps h).1, fun _ => (runDev_keeps h).1⟩
  | nop => rw [exec_nop] at h; exact ⟨.inl (runDev_keeps h).1, fun _ => (runDev_keeps h).1⟩
  | commitRequest => rw [exec_commitRequest] at h; exact ⟨.inl (runDev_keeps h).1, fun _ => (runDev_keeps h).1⟩
  | varnishCommit => rw [exec_varnishCommit] at h; exact ⟨.inl (runDev_keeps h).1, fun _ => (runDev_keeps h).1⟩
  | tmHandoff => rw [exec_tmHandoff] at h; exact ⟨.inl (runDev_keeps h).1, fun _ => (runDev_keeps h).1⟩
  | abortAtEasel => rw [exec_abortAtEasel] at h; exact ⟨.inl (runDev_keeps h).1, fun _ => (runDev_keeps h).1⟩
  | timingEvent => rw [exec_timingEvent] at h; exact ⟨.inl (runDev_keeps h).1, fun _ => (runDev_keeps h).1⟩
  | palPoolCountWrite => rw [exec_palPoolCountWrite] at h; exact ⟨.inl (runDev_keeps h).1, fun _ => (runDev_keeps h).1⟩
  | tmDequeue => rw [exec_tmDequeue] at h; exact ⟨.inl (runDev_keeps h).1, fun _ => (runDev_keeps h).1⟩
  | gateEntryChange => rw [exec_gateEntryChange] at h; exact ⟨.inl (runDev_keeps h).1, fun _ => (runDev_keeps h).1⟩
  | gateScheduleSwitch => rw [exec_gateScheduleSwitch] at h; exact ⟨.inl (runDev_keeps h).1, fun _ => (runDev_keeps h).1⟩
  | semaphoreAcquire => rw [exec_semaphoreAcquire] at h; exact ⟨.inl (runDev_keeps h).1, fun _ => (runDev_keeps h).1⟩
  | semaphoreStatus => rw [exec_semaphoreStatus] at h; exact ⟨.inl (runDev_keeps h).1, fun _ => (runDev_keeps h).1⟩
  | lockProbe => rw [exec_lockProbe] at h; exact ⟨.inl (runDev_keeps h).1, fun _ => (runDev_keeps h).1⟩
  | symbolReceive => rw [exec_symbolReceive] at h; exact ⟨.inl (runDev_keeps h).1, fun _ => (runDev_keeps h).1⟩
  | symbolTransmit => rw [exec_symbolTransmit] at h; exact ⟨.inl (runDev_keeps h).1, fun _ => (runDev_keeps h).1⟩
  | stnAlu => rw [exec_stnAlu] at h; exact ⟨.inl (runDev_keeps h).1, fun _ => (runDev_keeps h).1⟩
  | stnJr => rw [exec_stnJr] at h; exact ⟨.inl (runDev_keeps h).1, fun _ => (runDev_keeps h).1⟩
  | stnAddi => rw [exec_stnAddi] at h; exact ⟨.inl (runDev_keeps h).1, fun _ => (runDev_keeps h).1⟩
  | stnMovi => rw [exec_stnMovi] at h; exact ⟨.inl (runDev_keeps h).1, fun _ => (runDev_keeps h).1⟩
  | stnMovh => rw [exec_stnMovh] at h; exact ⟨.inl (runDev_keeps h).1, fun _ => (runDev_keeps h).1⟩
  | stnCmpi => rw [exec_stnCmpi] at h; exact ⟨.inl (runDev_keeps h).1, fun _ => (runDev_keeps h).1⟩
  | stnLd => rw [exec_stnLd] at h; exact ⟨.inl (runDev_keeps h).1, fun _ => (runDev_keeps h).1⟩
  | stnSt => rw [exec_stnSt] at h; exact ⟨.inl (runDev_keeps h).1, fun _ => (runDev_keeps h).1⟩
  | stnBcc => rw [exec_stnBcc] at h; exact ⟨.inl (runDev_keeps h).1, fun _ => (runDev_keeps h).1⟩
  | stnJmp => rw [exec_stnJmp] at h; exact ⟨.inl (runDev_keeps h).1, fun _ => (runDev_keeps h).1⟩
  | stnCall => rw [exec_stnCall] at h; exact ⟨.inl (runDev_keeps h).1, fun _ => (runDev_keeps h).1⟩
  | rx => rw [exec_rx] at h; exact ⟨.inl (runDev_keeps h).1, fun _ => (runDev_keeps h).1⟩
  | tx => rw [exec_tx] at h; exact ⟨.inl (runDev_keeps h).1, fun _ => (runDev_keeps h).1⟩
  | rxrun => rw [exec_rxrun] at h; exact ⟨.inl (runDev_keeps h).1, fun _ => (runDev_keeps h).1⟩
  | txrun => rw [exec_txrun] at h; exact ⟨.inl (runDev_keeps h).1, fun _ => (runDev_keeps h).1⟩
  | fput => rw [exec_fput] at h; exact ⟨.inl (runDev_keeps h).1, fun _ => (runDev_keeps h).1⟩
  | fend => rw [exec_fend] at h; exact ⟨.inl (runDev_keeps h).1, fun _ => (runDev_keeps h).1⟩
  | fdrop => rw [exec_fdrop] at h; exact ⟨.inl (runDev_keeps h).1, fun _ => (runDev_keeps h).1⟩
  | fopen => rw [exec_fopen] at h; exact ⟨.inl (runDev_keeps h).1, fun _ => (runDev_keeps h).1⟩
  | txnext => rw [exec_txnext] at h; exact ⟨.inl (runDev_keeps h).1, fun _ => (runDev_keeps h).1⟩
  | txget => rw [exec_txget] at h; exact ⟨.inl (runDev_keeps h).1, fun _ => (runDev_keeps h).1⟩
  | drive => rw [exec_drive] at h; exact ⟨.inl (runDev_keeps h).1, fun _ => (runDev_keeps h).1⟩
  | txusr => rw [exec_txusr] at h; exact ⟨.inl (runDev_keeps h).1, fun _ => (runDev_keeps h).1⟩
  | par => rw [exec_par] at h; exact ⟨.inl (runDev_keeps h).1, fun _ => (runDev_keeps h).1⟩
  | cinit => rw [exec_cinit] at h; exact ⟨.inl (runDev_keeps h).1, fun _ => (runDev_keeps h).1⟩
  | cupd => rw [exec_cupd] at h; exact ⟨.inl (runDev_keeps h).1, fun _ => (runDev_keeps h).1⟩
  | crdl => rw [exec_crdl] at h; exact ⟨.inl (runDev_keeps h).1, fun _ => (runDev_keeps h).1⟩
  | crdh => rw [exec_crdh] at h; exact ⟨.inl (runDev_keeps h).1, fun _ => (runDev_keeps h).1⟩
  | now => rw [exec_now] at h; exact ⟨.inl (runDev_keeps h).1, fun _ => (runDev_keeps h).1⟩
  | nowh => rw [exec_nowh] at h; exact ⟨.inl (runDev_keeps h).1, fun _ => (runDev_keeps h).1⟩
  | waitc => rw [exec_waitc] at h; exact ⟨.inl (runDev_keeps h).1, fun _ => (runDev_keeps h).1⟩
  | waitt => rw [exec_waitt] at h; exact ⟨.inl (runDev_keeps h).1, fun _ => (runDev_keeps h).1⟩
  | pps => rw [exec_pps] at h; exact ⟨.inl (runDev_keeps h).1, fun _ => (runDev_keeps h).1⟩
  | hbkick => rw [exec_hbkick] at h; exact ⟨.inl (runDev_keeps h).1, fun _ => (runDev_keeps h).1⟩
  | hbstat => rw [exec_hbstat] at h; exact ⟨.inl (runDev_keeps h).1, fun _ => (runDev_keeps h).1⟩
  | stnNop => rw [exec_stnNop] at h; exact ⟨.inl (runDev_keeps h).1, fun _ => (runDev_keeps h).1⟩
  | stnHalt => rw [exec_stnHalt] at h; exact ⟨.inl (runDev_keeps h).1, fun _ => (runDev_keeps h).1⟩
  | brk => rw [exec_brk] at h; exact ⟨.inl (runDev_keeps h).1, fun _ => (runDev_keeps h).1⟩
  | stnEngRun => rw [exec_stnEngRun] at h; exact ⟨.inl (runDev_keeps h).1, fun _ => (runDev_keeps h).1⟩
  | stnEngStop => rw [exec_stnEngStop] at h; exact ⟨.inl (runDev_keeps h).1, fun _ => (runDev_keeps h).1⟩
  | dramBringup => rw [exec_dramBringup] at h; exact ⟨.inl (runDev_keeps h).1, fun _ => (runDev_keeps h).1⟩
  | dramBringupDone => rw [exec_dramBringupDone] at h; exact ⟨.inl (runDev_keeps h).1, fun _ => (runDev_keeps h).1⟩
  | dramCommandIssue => rw [exec_dramCommandIssue] at h; exact ⟨.inl (runDev_keeps h).1, fun _ => (runDev_keeps h).1⟩
  | dramReadReturn => rw [exec_dramReadReturn] at h; exact ⟨.inl (runDev_keeps h).1, fun _ => (runDev_keeps h).1⟩
  | scrubVisit => rw [exec_scrubVisit] at h; exact ⟨.inl (runDev_keeps h).1, fun _ => (runDev_keeps h).1⟩
  | freqChangeGo => rw [exec_freqChangeGo] at h; exact ⟨.inl (runDev_keeps h).1, fun _ => (runDev_keeps h).1⟩
  | freqSwitch => rw [exec_freqSwitch] at h; exact ⟨.inl (runDev_keeps h).1, fun _ => (runDev_keeps h).1⟩
  | trainingStep => rw [exec_trainingStep] at h; exact ⟨.inl (runDev_keeps h).1, fun _ => (runDev_keeps h).1⟩
  | channelRetire => rw [exec_channelRetire] at h; exact ⟨.inl (runDev_keeps h).1, fun _ => (runDev_keeps h).1⟩
  | channelReturn => rw [exec_channelReturn] at h; exact ⟨.inl (runDev_keeps h).1, fun _ => (runDev_keeps h).1⟩
  | mergeBufferDrain => rw [exec_mergeBufferDrain] at h; exact ⟨.inl (runDev_keeps h).1, fun _ => (runDev_keeps h).1⟩
  | tableCacheFill => rw [exec_tableCacheFill] at h; exact ⟨.inl (runDev_keeps h).1, fun _ => (runDev_keeps h).1⟩
  | preload => rw [exec_preload] at h; exact ⟨.inl (runDev_keeps h).1, fun _ => (runDev_keeps h).1⟩
  | kick => rw [exec_kick] at h; exact ⟨.inl (runDev_keeps h).1, fun _ => (runDev_keeps h).1⟩
  | atelierKick => rw [exec_atelierKick] at h; exact ⟨.inl (runDev_keeps h).1, fun _ => (runDev_keeps h).1⟩
  | doorbellReadDone => rw [exec_doorbellReadDone] at h; exact ⟨.inl (runDev_keeps h).1, fun _ => (runDev_keeps h).1⟩
  | descriptorFetchDone => rw [exec_descriptorFetchDone] at h; exact ⟨.inl (runDev_keeps h).1, fun _ => (runDev_keeps h).1⟩
  | injPacket => rw [exec_injPacket] at h; exact ⟨.inl (runDev_keeps h).1, fun _ => (runDev_keeps h).1⟩
  | puntPacket => rw [exec_puntPacket] at h; exact ⟨.inl (runDev_keeps h).1, fun _ => (runDev_keeps h).1⟩
  | doorbellWriteback => rw [exec_doorbellWriteback] at h; exact ⟨.inl (runDev_keeps h).1, fun _ => (runDev_keeps h).1⟩
  | groupEnable => rw [exec_groupEnable] at h; exact ⟨.inl (runDev_keeps h).1, fun _ => (runDev_keeps h).1⟩
  | groupReset => rw [exec_groupReset] at h; exact ⟨.inl (runDev_keeps h).1, fun _ => (runDev_keeps h).1⟩
  | groupResetDone => rw [exec_groupResetDone] at h; exact ⟨.inl (runDev_keeps h).1, fun _ => (runDev_keeps h).1⟩
  | bar4Access => rw [exec_bar4Access] at h; exact ⟨.inl (runDev_keeps h).1, fun _ => (runDev_keeps h).1⟩
  | identity => rw [exec_identity] at h; exact ⟨.inl (runDev_keeps h).1, fun _ => (runDev_keeps h).1⟩
  | faultRead => rw [exec_faultRead] at h; exact ⟨.inl (runDev_keeps h).1, fun _ => (runDev_keeps h).1⟩
  | faultClear => rw [exec_faultClear] at h; exact ⟨.inl (runDev_keeps h).1, fun _ => (runDev_keeps h).1⟩
  | powerState => rw [exec_powerState] at h; exact ⟨.inl (runDev_keeps h).1, fun _ => (runDev_keeps h).1⟩
  | powerSet => rw [exec_powerSet] at h; exact ⟨.inl (runDev_keeps h).1, fun _ => (runDev_keeps h).1⟩
  | ringStatus => rw [exec_ringStatus] at h; exact ⟨.inl (runDev_keeps h).1, fun _ => (runDev_keeps h).1⟩
  | subunitReset => rw [exec_subunitReset] at h; exact ⟨by rw [(runAll_keeps h).1]; exact (by split <;> first | exact .inr (.inl rfl) | exact .inl rfl), fun hc => by cases hc⟩
  | quoteStart => rw [exec_quoteStart] at h; exact ⟨.inl (runDev_keeps h).1, fun _ => (runDev_keeps h).1⟩
  | quoteRead => rw [exec_quoteRead] at h; exact ⟨.inl (runDev_keeps h).1, fun _ => (runDev_keeps h).1⟩
  | certRead => rw [exec_certRead] at h; exact ⟨.inl (runDev_keeps h).1, fun _ => (runDev_keeps h).1⟩
  | regRead => rw [exec_regRead] at h; exact ⟨.inl (runDev_keeps h).1, fun _ => (runDev_keeps h).1⟩
  | entdaa => rw [exec_entdaa] at h; exact ⟨.inl (runDev_keeps h).1, fun _ => (runDev_keeps h).1⟩
  | atlCoreStart => rw [exec_atlCoreStart] at h; exact ⟨.inl (runDev_keeps h).1, fun _ => (runDev_keeps h).1⟩
  | atlRunGo => rw [exec_atlRunGo] at h; exact ⟨.inl (runDev_keeps h).1, fun _ => (runDev_keeps h).1⟩
  | measurementExtend => rw [exec_measurementExtend] at h; exact ⟨.inl (runIdn_keeps h).1, fun _ => (runIdn_keeps h).1⟩
  | atlIpi => rw [exec_atlIpi] at h; exact ⟨.inl (runDev_keeps h).1, fun _ => (runDev_keeps h).1⟩
  | clusterPointChange => rw [exec_clusterPointChange] at h; exact ⟨.inl (runDev_keeps h).1, fun _ => (runDev_keeps h).1⟩
  | pointChangeDone => rw [exec_pointChangeDone] at h; exact ⟨.inl (runDev_keeps h).1, fun _ => (runDev_keeps h).1⟩
  | clusterGate => rw [exec_clusterGate] at h; exact ⟨.inl (runDev_keeps h).1, fun _ => (runDev_keeps h).1⟩
  | gatingDone => rw [exec_gatingDone] at h; exact ⟨.inl (runDev_keeps h).1, fun _ => (runDev_keeps h).1⟩
  | clusterWake => rw [exec_clusterWake] at h; exact ⟨.inl (runDev_keeps h).1, fun _ => (runDev_keeps h).1⟩
  | wakeDone => rw [exec_wakeDone] at h; exact ⟨.inl (runDev_keeps h).1, fun _ => (runDev_keeps h).1⟩
  | nonSpeculativeConfirm => rw [exec_nonSpeculativeConfirm] at h; exact ⟨.inl (runDev_keeps h).1, fun _ => (runDev_keeps h).1⟩
  | errorWindowEnd => rw [exec_errorWindowEnd] at h; exact ⟨.inl (runDev_keeps h).1, fun _ => (runDev_keeps h).1⟩
  | thermalThreshold => rw [exec_thermalThreshold] at h; exact ⟨.inl (runDev_keeps h).1, fun _ => (runDev_keeps h).1⟩
  | faultReport => rw [exec_faultReport] at h; exact ⟨.inl (runDev_keeps h).1, fun _ => (runDev_keeps h).1⟩
  | drainTimeout => rw [exec_drainTimeout] at h; exact ⟨.inl (runDev_keeps h).1, fun _ => (runDev_keeps h).1⟩
  | faultInject => rw [exec_faultInject] at h; exact ⟨.inl (runDev_keeps h).1, fun _ => (runDev_keeps h).1⟩
  | istOut => rw [exec_istOut] at h; exact ⟨.inl (runDev_keeps h).1, fun _ => (runDev_keeps h).1⟩
  | istBist => rw [exec_istBist] at h; exact ⟨.inl (runDev_keeps h).1, fun _ => (runDev_keeps h).1⟩
  | istReturn => rw [exec_istReturn] at h; exact ⟨.inl (runDev_keeps h).1, fun _ => (runDev_keeps h).1⟩
  | bistDone => rw [exec_bistDone] at h; exact ⟨.inl (runDev_keeps h).1, fun _ => (runDev_keeps h).1⟩
  | haltComplete => rw [exec_haltComplete] at h; exact ⟨.inl (runDev_keeps h).1, fun _ => (runDev_keeps h).1⟩
  | debugContextWrite => rw [exec_debugContextWrite] at h; exact ⟨.inl (runDev_keeps h).1, fun _ => (runDev_keeps h).1⟩
  | dbgAccess => rw [exec_dbgAccess] at h; exact ⟨by rw [(runAll_keeps h).1]; exact clk_dbg _ _ _ _, fun hc => by cases hc⟩
  | regPairAccess => rw [exec_regPairAccess] at h; exact ⟨.inl (runDev_keeps h).1, fun _ => (runDev_keeps h).1⟩
  | registerWrite => rw [exec_registerWrite] at h; exact ⟨by rw [(runAll_keeps h).1]; exact (by split <;> first | exact clk_sized _ _ _ _ _ | exact .inl rfl), fun hc => by cases hc⟩
  | pcieCompletionTimeout => rw [exec_pcieCompletionTimeout] at h; exact ⟨.inl (runDev_keeps h).1, fun _ => (runDev_keeps h).1⟩
  | undefinedInstruction => rw [exec_undefinedInstruction] at h; exact ⟨.inl (runDev_keeps h).1, fun _ => (runDev_keeps h).1⟩
  | stencilUndefinedInstruction => rw [exec_stencilUndefinedInstruction] at h; exact ⟨.inl (runDev_keeps h).1, fun _ => (runDev_keeps h).1⟩
  | prsSliceIsolate => rw [exec_prsSliceIsolate] at h; exact ⟨.inl (runDev_keeps h).1, fun _ => (runDev_keeps h).1⟩
  | completionArrival => rw [exec_completionArrival] at h; exact ⟨.inl (runDev_keeps h).1, fun _ => (runDev_keeps h).1⟩
  | oldestReport => rw [exec_oldestReport] at h; exact ⟨.inl (runDev_keeps h).1, fun _ => (runDev_keeps h).1⟩
  | atelierTimer => rw [exec_atelierTimer] at h; exact ⟨.inl (runDev_keeps h).1, fun _ => (runDev_keeps h).1⟩
  | mrecvDeadline => rw [exec_mrecvDeadline] at h; exact ⟨.inl (runDev_keeps h).1, fun _ => (runDev_keeps h).1⟩
  | canvasRestoreDone => rw [exec_canvasRestoreDone] at h; exact ⟨.inl (runDev_keeps h).1, fun _ => (runDev_keeps h).1⟩
  | gatedPrefetchDone => rw [exec_gatedPrefetchDone] at h; exact ⟨.inl (runDev_keeps h).1, fun _ => (runDev_keeps h).1⟩
  | recoveryTimeout => rw [exec_recoveryTimeout] at h; exact ⟨.inl (runDev_keeps h).1, fun _ => (runDev_keeps h).1⟩
  | lockWaitTimeout => rw [exec_lockWaitTimeout] at h; exact ⟨.inl (runDev_keeps h).1, fun _ => (runDev_keeps h).1⟩
  | rxrunStop => rw [exec_rxrunStop] at h; exact ⟨.inl (runDev_keeps h).1, fun _ => (runDev_keeps h).1⟩
  | txrunDone => rw [exec_txrunDone] at h; exact ⟨.inl (runDev_keeps h).1, fun _ => (runDev_keeps h).1⟩
  | txnextReady => rw [exec_txnextReady] at h; exact ⟨.inl (runDev_keeps h).1, fun _ => (runDev_keeps h).1⟩
  | waitcExpiry => rw [exec_waitcExpiry] at h; exact ⟨.inl (runDev_keeps h).1, fun _ => (runDev_keeps h).1⟩
  | waittExpiry => rw [exec_waittExpiry] at h; exact ⟨.inl (runDev_keeps h).1, fun _ => (runDev_keeps h).1⟩
  | heartbeatToggle => rw [exec_heartbeatToggle] at h; exact ⟨.inl (runDev_keeps h).1, fun _ => (runDev_keeps h).1⟩
  | heartbeatLapse => rw [exec_heartbeatLapse] at h; exact ⟨.inl (runDev_keeps h).1, fun _ => (runDev_keeps h).1⟩
  | ringInsertDelayEnd => rw [exec_ringInsertDelayEnd] at h; exact ⟨.inl (runDev_keeps h).1, fun _ => (runDev_keeps h).1⟩
  | ringSettleEnd => rw [exec_ringSettleEnd] at h; exact ⟨.inl (runDev_keeps h).1, fun _ => (runDev_keeps h).1⟩
  | periodicRetrain => rw [exec_periodicRetrain] at h; exact ⟨.inl (runDev_keeps h).1, fun _ => (runDev_keeps h).1⟩
  | zeroFillDone => rw [exec_zeroFillDone] at h; exact ⟨.inl (runDev_keeps h).1, fun _ => (runDev_keeps h).1⟩
  | rebuildDone => rw [exec_rebuildDone] at h; exact ⟨.inl (runDev_keeps h).1, fun _ => (runDev_keeps h).1⟩
  | staleRefetchDone => rw [exec_staleRefetchDone] at h; exact ⟨.inl (runDev_keeps h).1, fun _ => (runDev_keeps h).1⟩
  | pollTimer => rw [exec_pollTimer] at h; exact ⟨.inl (runDev_keeps h).1, fun _ => (runDev_keeps h).1⟩
  | msixHoldoffExpiry => rw [exec_msixHoldoffExpiry] at h; exact ⟨.inl (runDev_keeps h).1, fun _ => (runDev_keeps h).1⟩
  | setdasa => rw [exec_setdasa] at h; exact ⟨.inl (runDev_keeps h).1, fun _ => (runDev_keeps h).1⟩
  | setmwl => rw [exec_setmwl] at h; exact ⟨.inl (runDev_keeps h).1, fun _ => (runDev_keeps h).1⟩
  | setmrl => rw [exec_setmrl] at h; exact ⟨.inl (runDev_keeps h).1, fun _ => (runDev_keeps h).1⟩
  | rstact => rw [exec_rstact] at h; exact ⟨.inl (runDev_keeps h).1, fun _ => (runDev_keeps h).1⟩
  | gzPhaseFault => rw [exec_gzPhaseFault] at h; exact ⟨.inl (runDev_keeps h).1, fun _ => (runDev_keeps h).1⟩
  | gzLdoFault => rw [exec_gzLdoFault] at h; exact ⟨.inl (runDev_keeps h).1, fun _ => (runDev_keeps h).1⟩
  | laneTestEnable => rw [exec_laneTestEnable] at h; exact ⟨.inl (runDev_keeps h).1, fun _ => (runDev_keeps h).1⟩
  | jtagSamplePreload => rw [exec_jtagSamplePreload] at h; exact ⟨.inl (runDev_keeps h).1, fun _ => (runDev_keeps h).1⟩
  | jtagExtest => rw [exec_jtagExtest] at h; exact ⟨.inl (runDev_keeps h).1, fun _ => (runDev_keeps h).1⟩
  | ddrAlertNAsserted => rw [exec_ddrAlertNAsserted] at h; exact ⟨.inl (runDev_keeps h).1, fun _ => (runDev_keeps h).1⟩
  | trainingStepDone => rw [exec_trainingStepDone] at h; exact ⟨.inl (runDev_keeps h).1, fun _ => (runDev_keeps h).1⟩
  | assemblyBufferFree => rw [exec_assemblyBufferFree] at h; exact ⟨.inl (runDev_keeps h).1, fun _ => (runDev_keeps h).1⟩
  | vddIoGood => rw [exec_vddIoGood] at h; exact ⟨.inl (runDev_keeps h).1, fun _ => (runDev_keeps h).1⟩
  | vddCoreGood => rw [exec_vddCoreGood] at h; exact ⟨.inl (runDev_keeps h).1, fun _ => (runDev_keeps h).1⟩
  | vddIoLoss => rw [exec_vddIoLoss] at h; exact ⟨by rw [(runAll_keeps h).1]; exact .inr (.inl rfl), fun hc => by cases hc⟩
  | resetNAssert => rw [exec_resetNAssert] at h; exact ⟨by rw [(runAll_keeps h).1]; exact .inr (.inl rfl), fun hc => by cases hc⟩
  | cacheInvalidationDone => rw [exec_cacheInvalidationDone] at h; exact ⟨.inl (runDev_keeps h).1, fun _ => (runDev_keeps h).1⟩
  | hostBootGo => rw [exec_hostBootGo] at h; exact ⟨.inl (runDev_keeps h).1, fun _ => (runDev_keeps h).1⟩
  | pwrfailAssert => rw [exec_pwrfailAssert] at h; exact ⟨.inl (runDev_keeps h).1, fun _ => (runDev_keeps h).1⟩
  | fixativeHeartbeatStop => rw [exec_fixativeHeartbeatStop] at h; exact ⟨by rw [(runAll_keeps h).1]; exact (by split <;> first | exact .inr (.inl rfl) | exact .inl rfl), fun hc => by cases hc⟩
  | pwrfailRelease => rw [exec_pwrfailRelease] at h; exact ⟨.inl (runDev_keeps h).1, fun _ => (runDev_keeps h).1⟩
  | thermtrip => rw [exec_thermtrip] at h; exact ⟨.inl (runDev_keeps h).1, fun _ => (runDev_keeps h).1⟩
  | functionLevelReset => rw [exec_functionLevelReset] at h; exact ⟨.inl (runDev_keeps h).1, fun _ => (runDev_keeps h).1⟩
  | tclkPllLock => rw [exec_tclkPllLock] at h; exact ⟨.inl (runDev_keeps h).1, fun _ => (runDev_keeps h).1⟩
  | timRefLoss => rw [exec_timRefLoss] at h; exact ⟨.inl (runDev_keeps h).1, fun _ => (runDev_keeps h).1⟩
  | refclkSysLoss => rw [exec_refclkSysLoss] at h; exact ⟨.inl (runDev_keeps h).1, fun _ => (runDev_keeps h).1⟩
  | timePpsOutRise => rw [exec_timePpsOutRise] at h; exact ⟨by rw [(runClk_keeps h).1]; exact (by split <;> first | exact .inl rfl | exact .inr (.inr (.inr (.inr (.inr rfl))))), fun hc => by cases hc⟩
  | timePpsOutFall => rw [exec_timePpsOutFall] at h; exact ⟨.inl (runDev_keeps h).1, fun _ => (runDev_keeps h).1⟩
  | timePpsInEdge => rw [exec_timePpsInEdge] at h; exact ⟨.inl (runDev_keeps h).1, fun _ => (runDev_keeps h).1⟩
  | timeCapture => rw [exec_timeCapture] at h; exact ⟨.inl (runDev_keeps h).1, fun _ => (runDev_keeps h).1⟩
  | timeStep => rw [exec_timeStep] at h; exact ⟨by rw [(runClk_keeps h).1]; exact (by split <;> first | exact .inl rfl | exact .inr (.inr (.inr (.inr (.inl rfl))))), fun hc => by cases hc⟩
  | parsePacket => rw [exec_parsePacket] at h; exact ⟨.inl (runDev_keeps h).1, fun _ => (runDev_keeps h).1⟩
  | distributePacket => rw [exec_distributePacket] at h; exact ⟨.inl (runDev_keeps h).1, fun _ => (runDev_keeps h).1⟩
  | learnPost => rw [exec_learnPost] at h; exact ⟨.inl (runDev_keeps h).1, fun _ => (runDev_keeps h).1⟩
  | controlPlaneApply => rw [exec_controlPlaneApply] at h; exact ⟨.inl (runDev_keeps h).1, fun _ => (runDev_keeps h).1⟩
  | controlPlaneRelease => rw [exec_controlPlaneRelease] at h; exact ⟨.inl (runDev_keeps h).1, fun _ => (runDev_keeps h).1⟩
  | profileCommit => rw [exec_profileCommit] at h; exact ⟨.inl (runIdn_keeps h).1, fun _ => (runIdn_keeps h).1⟩
  | quoteDone => rw [exec_quoteDone] at h; exact ⟨.inl (runDev_keeps h).1, fun _ => (runDev_keeps h).1⟩
  | commitBufferRetire => rw [exec_commitBufferRetire] at h; exact ⟨.inl (runDev_keeps h).1, fun _ => (runDev_keeps h).1⟩
  | irrevocableGrant => rw [exec_irrevocableGrant] at h; exact ⟨.inl (runDev_keeps h).1, fun _ => (runDev_keeps h).1⟩
  | vrnHoldStall => rw [exec_vrnHoldStall] at h; exact ⟨.inl (runDev_keeps h).1, fun _ => (runDev_keeps h).1⟩
  | irrevHeaderCellGrant => rw [exec_irrevHeaderCellGrant] at h; exact ⟨.inl (runDev_keeps h).1, fun _ => (runDev_keeps h).1⟩
  | swatchPass => rw [exec_swatchPass] at h; exact ⟨.inl (runDev_keeps h).1, fun _ => (runDev_keeps h).1⟩
  | tmgObjRead => rw [exec_tmgObjRead] at h; exact ⟨.inl (runDev_keeps h).1, fun _ => (runDev_keeps h).1⟩
  | tmgObjWrite => rw [exec_tmgObjWrite] at h; exact ⟨.inl (runDev_keeps h).1, fun _ => (runDev_keeps h).1⟩
  | tmgQueueFlush => rw [exec_tmgQueueFlush] at h; exact ⟨.inl (runDev_keeps h).1, fun _ => (runDev_keeps h).1⟩
  | tmgScheduleApply => rw [exec_tmgScheduleApply] at h; exact ⟨.inl (runDev_keeps h).1, fun _ => (runDev_keeps h).1⟩
  | mtrRead => rw [exec_mtrRead] at h; exact ⟨.inl (runDev_keeps h).1, fun _ => (runDev_keeps h).1⟩
  | mtrWrite => rw [exec_mtrWrite] at h; exact ⟨.inl (runDev_keeps h).1, fun _ => (runDev_keeps h).1⟩
  | mtrReadClear => rw [exec_mtrReadClear] at h; exact ⟨.inl (runDev_keeps h).1, fun _ => (runDev_keeps h).1⟩
  | lockAcquire => rw [exec_lockAcquire] at h; exact ⟨.inl (runDev_keeps h).1, fun _ => (runDev_keeps h).1⟩
  | lockRelease => rw [exec_lockRelease] at h; exact ⟨.inl (runDev_keeps h).1, fun _ => (runDev_keeps h).1⟩
  | semaphoreRelease => rw [exec_semaphoreRelease] at h; exact ⟨.inl (runDev_keeps h).1, fun _ => (runDev_keeps h).1⟩
  | freqSwitchDone => rw [exec_freqSwitchDone] at h; exact ⟨.inl (runDev_keeps h).1, fun _ => (runDev_keeps h).1⟩
  | rangeInvalidate => rw [exec_rangeInvalidate] at h; exact ⟨.inl (runDev_keeps h).1, fun _ => (runDev_keeps h).1⟩
  | mergeSync => rw [exec_mergeSync] at h; exact ⟨.inl (runDev_keeps h).1, fun _ => (runDev_keeps h).1⟩
  | rstdaa => rw [exec_rstdaa] at h; exact ⟨.inl (runDev_keeps h).1, fun _ => (runDev_keeps h).1⟩
  | enec => rw [exec_enec] at h; exact ⟨.inl (runDev_keeps h).1, fun _ => (runDev_keeps h).1⟩
  | disec => rw [exec_disec] at h; exact ⟨.inl (runDev_keeps h).1, fun _ => (runDev_keeps h).1⟩
  | getpid => rw [exec_getpid] at h; exact ⟨.inl (runDev_keeps h).1, fun _ => (runDev_keeps h).1⟩
  | getbcr => rw [exec_getbcr] at h; exact ⟨.inl (runDev_keeps h).1, fun _ => (runDev_keeps h).1⟩
  | getdcr => rw [exec_getdcr] at h; exact ⟨.inl (runDev_keeps h).1, fun _ => (runDev_keeps h).1⟩
  | getstatus => rw [exec_getstatus] at h; exact ⟨.inl (runDev_keeps h).1, fun _ => (runDev_keeps h).1⟩
  | getmwl => rw [exec_getmwl] at h; exact ⟨.inl (runDev_keeps h).1, fun _ => (runDev_keeps h).1⟩
  | getmrl => rw [exec_getmrl] at h; exact ⟨.inl (runDev_keeps h).1, fun _ => (runDev_keeps h).1⟩
  | vcoreSlewDone => rw [exec_vcoreSlewDone] at h; exact ⟨.inl (runDev_keeps h).1, fun _ => (runDev_keeps h).1⟩
  | throttleStep => rw [exec_throttleStep] at h; exact ⟨.inl (runDev_keeps h).1, fun _ => (runDev_keeps h).1⟩
  | gzVcoreOor => rw [exec_gzVcoreOor] at h; exact ⟨.inl (runDev_keeps h).1, fun _ => (runDev_keeps h).1⟩
  | faultNPulseEnd => rw [exec_faultNPulseEnd] at h; exact ⟨.inl (runDev_keeps h).1, fun _ => (runDev_keeps h).1⟩
  | haltHold => rw [exec_haltHold] at h; exact ⟨.inl (runDev_keeps h).1, fun _ => (runDev_keeps h).1⟩
  | haltAbort => rw [exec_haltAbort] at h; exact ⟨.inl (runDev_keeps h).1, fun _ => (runDev_keeps h).1⟩
  | resume => rw [exec_resume] at h; exact ⟨.inl (runDev_keeps h).1, fun _ => (runDev_keeps h).1⟩
  | step => rw [exec_step] at h; exact ⟨.inl (runDev_keeps h).1, fun _ => (runDev_keeps h).1⟩
  | kill => rw [exec_kill] at h; exact ⟨.inl (runDev_keeps h).1, fun _ => (runDev_keeps h).1⟩
  | laneTestClear => rw [exec_laneTestClear] at h; exact ⟨.inl (runDev_keeps h).1, fun _ => (runDev_keeps h).1⟩
  | jtagBypass => rw [exec_jtagBypass] at h; exact ⟨.inl (runDev_keeps h).1, fun _ => (runDev_keeps h).1⟩
  | jtagIdcode => rw [exec_jtagIdcode] at h; exact ⟨.inl (runDev_keeps h).1, fun _ => (runDev_keeps h).1⟩
  | jtagClamp => rw [exec_jtagClamp] at h; exact ⟨.inl (runDev_keeps h).1, fun _ => (runDev_keeps h).1⟩
  | jtagHighz => rw [exec_jtagHighz] at h; exact ⟨.inl (runDev_keeps h).1, fun _ => (runDev_keeps h).1⟩
  | jtagExtestPulse => rw [exec_jtagExtestPulse] at h; exact ⟨.inl (runDev_keeps h).1, fun _ => (runDev_keeps h).1⟩
  | jtagExtestTrain => rw [exec_jtagExtestTrain] at h; exact ⟨.inl (runDev_keeps h).1, fun _ => (runDev_keeps h).1⟩
  | thermtripNRelease => rw [exec_thermtripNRelease] at h; exact ⟨.inl (runDev_keeps h).1, fun _ => (runDev_keeps h).1⟩
  | ibiAccepted => rw [exec_ibiAccepted] at h; exact ⟨.inl (runDev_keeps h).1, fun _ => (runDev_keeps h).1⟩

theorem idn_reg (r : Req) (off : Nat) (v : Word) (d : Dev) (i : Ident) : Ident.may d i (regWriteIdent r off v d i) := by
  unfold regWriteIdent
  split
  · exact .inr (.inr (.inl ⟨_, rfl⟩))
  · exact .inl rfl

theorem idn_sized (r : Req) (size off : Nat) (v : Word) (d : Dev) (i : Ident) : Ident.may d i (sizedIdent r size off v d i) := by
  unfold sizedIdent
  split
  · exact idn_reg _ _ _ _ _
  · exact .inl rfl

theorem idn_dbg (off : Nat) (acc : RegAcc) (d : Dev) (i : Ident) : Ident.may d i (dbgIdent off acc d i) := by
  unfold dbgIdent
  split
  · exact idn_reg _ _ _ _ _
  · exact .inl rfl

theorem idn_store (p : Bool) (t : Nat) (f : IFmt) (d : Dev) (i : Ident) : Ident.may d i (storeIdent p t f d i) := by
  unfold storeIdent
  split
  · exact idn_reg _ _ _ _ _
  · exact .inl rfl

theorem runs_stage (d : Dev) (n : Nat) (h : d.primerRuns n = true) : d.stage = 1 := by
  unfold Dev.primerRuns at h
  simp at h
  exact h.1

theorem again_idn (r : BootRes) (i : Ident) : bootIdent r.again i = i := by cases r <;> rfl

theorem idn_does {d : Dev} {now : Nat} {r x : BootRes} (i : Ident) (h : d.primerDoes now r = some x) : Ident.may d i (bootIdent x i) := by
  unfold Dev.primerDoes at h
  split at h
  · next hh => exact .inr (.inr (.inr ⟨_, runs_stage d now hh, rfl⟩))
  · split at h
    · cases h; rw [again_idn]; exact .inl rfl
    · cases h

theorem idn_primer (now : Nat) (a b : List Byte) (p q : List Byte × Bool) (d : Dev) (i : Ident) : Ident.may d i (primerBootIdent now a b p q d i) := by
  unfold primerBootIdent
  split
  · next r hr =>
    unfold Dev.primerRes at hr
    split at hr
    · cases hr
    · exact idn_does i hr
  · exact .inl rfl

theorem idn_host (now : Nat) (x : Option (List Byte × List Byte)) (d : Dev) (i : Ident) : Ident.may d i (hostDmaIdent now x d i) := by
  unfold hostDmaIdent
  split
  · next r hr =>
    unfold Dev.hostRes at hr
    split at hr
    · exact idn_does i hr
    · cases hr
  · exact .inl rfl

theorem exec_idn (c : Instr) (s t : State) (h : exec c s = .next t) : Ident.may s.dev s.idn t.idn ∨ (c = .profileCommit ∧ t.idn = profileCommitIdent s.dev s.idn) := by
  cases c with
  | resetNRelease => rw [exec_resetNRelease] at h; exact .inl (.inl (runDev_keeps h).2.1)
  | primerBoot => rw [exec_primerBoot] at h; exact .inl (by rw [(runIdn_keeps h).2.1]; exact idn_primer _ _ _ _ _ _ _)
  | hostBootDmaDone => rw [exec_hostBootDmaDone] at h; exact .inl (by rw [(runIdn_keeps h).2.1]; exact idn_host _ _ _ _)
  | pciePerstNRelease => rw [exec_pciePerstNRelease] at h; exact .inl (.inl (runDev_keeps h).2.1)
  | hostLinkLoss => rw [exec_hostLinkLoss] at h; exact .inl (.inl (runDev_keeps h).2.1)
  | frameReceive => rw [exec_frameReceive] at h; exact .inl (.inl (runDev_keeps h).2.1)
  | signalDetect => rw [exec_signalDetect] at h; exact .inl (.inl (runDev_keeps h).2.1)
  | linkTrainingDone => rw [exec_linkTrainingDone] at h; exact .inl (.inl (runDev_keeps h).2.1)
  | portUp => rw [exec_portUp] at h; exact .inl (.inl (runDev_keeps h).2.1)
  | portBringupTimeout => rw [exec_portBringupTimeout] at h; exact .inl (.inl (runDev_keeps h).2.1)
  | portLinkDown => rw [exec_portLinkDown] at h; exact .inl (.inl (runDev_keeps h).2.1)
  | transmitFrame => rw [exec_transmitFrame] at h; exact .inl (.inl (runDev_keeps h).2.1)
  | transmitDone => rw [exec_transmitDone] at h; exact .inl (.inl (runDev_keeps h).2.1)
  | timeSet => rw [exec_timeSet] at h; exact .inl (.inl (runClk_keeps h).2.1)
  | recirculationReentry => rw [exec_recirculationReentry] at h; exact .inl (.inl (runDev_keeps h).2.1)
  | parserBankSwitch => rw [exec_parserBankSwitch] at h; exact .inl (.inl (runDev_keeps h).2.1)
  | easelSelect => rw [exec_easelSelect] at h; exact .inl (.inl (runDev_keeps h).2.1)
  | preemptSave => rw [exec_preemptSave] at h; exact .inl (.inl (runDev_keeps h).2.1)
  | aluOp => rw [exec_aluOp] at h; exact .inl (.inl (runDev_keeps h).2.1)
  | multiply => rw [exec_multiply] at h; exact .inl (.inl (runDev_keeps h).2.1)
  | divide => rw [exec_divide] at h; exact .inl (.inl (runDev_keeps h).2.1)
  | addi => rw [exec_addi] at h; exact .inl (.inl (runDev_keeps h).2.1)
  | andi => rw [exec_andi] at h; exact .inl (.inl (runDev_keeps h).2.1)
  | ori => rw [exec_ori] at h; exact .inl (.inl (runDev_keeps h).2.1)
  | xori => rw [exec_xori] at h; exact .inl (.inl (runDev_keeps h).2.1)
  | shifti => rw [exec_shifti] at h; exact .inl (.inl (runDev_keeps h).2.1)
  | cmpi => rw [exec_cmpi] at h; exact .inl (.inl (runDev_keeps h).2.1)
  | addis => rw [exec_addis] at h; exact .inl (.inl (runDev_keeps h).2.1)
  | lui => rw [exec_lui] at h; exact .inl (.inl (runDev_keeps h).2.1)
  | bcc => rw [exec_bcc] at h; exact .inl (.inl (runDev_keeps h).2.1)
  | call => rw [exec_call] at h; exact .inl (.inl (runDev_keeps h).2.1)
  | jr => rw [exec_jr] at h; exact .inl (.inl (runDev_keeps h).2.1)
  | callr => rw [exec_callr] at h; exact .inl (.inl (runDev_keeps h).2.1)
  | eret => rw [exec_eret] at h; exact .inl (.inl (runDev_keeps h).2.1)
  | sys => rw [exec_sys] at h; exact .inl (.inl (runDev_keeps h).2.1)
  | bkpt => rw [exec_bkpt] at h; exact .inl (.inl (runDev_keeps h).2.1)
  | ldw => rw [exec_ldw] at h; exact .inl (.inl (runDev_keeps h).2.1)
  | ldh => rw [exec_ldh] at h; exact .inl (.inl (runDev_keeps h).2.1)
  | ldhu => rw [exec_ldhu] at h; exact .inl (.inl (runDev_keeps h).2.1)
  | ldb => rw [exec_ldb] at h; exact .inl (.inl (runDev_keeps h).2.1)
  | ldbu => rw [exec_ldbu] at h; exact .inl (.inl (runDev_keeps h).2.1)
  | stw => rw [exec_stw] at h; exact .inl (by rw [(runAll_keeps h).2.1]; exact idn_store _ _ _ _ _)
  | sth => rw [exec_sth] at h; exact .inl (.inl (runDev_keeps h).2.1)
  | stb => rw [exec_stb] at h; exact .inl (.inl (runDev_keeps h).2.1)
  | ldwPostinc => rw [exec_ldwPostinc] at h; exact .inl (.inl (runDev_keeps h).2.1)
  | stwPostinc => rw [exec_stwPostinc] at h; exact .inl (by rw [(runAll_keeps h).2.1]; exact idn_store _ _ _ _ _)
  | lkacq => rw [exec_lkacq] at h; exact .inl (.inl (runDev_keeps h).2.1)
  | lkrel => rw [exec_lkrel] at h; exact .inl (.inl (runDev_keeps h).2.1)
  | sync => rw [exec_sync] at h; exact .inl (.inl (runDev_keeps h).2.1)
  | dinvl => rw [exec_dinvl] at h; exact .inl (.inl (runDev_keeps h).2.1)
  | dinva => rw [exec_dinva] at h; exact .inl (.inl (runDev_keeps h).2.1)
  | iinvl => rw [exec_iinvl] at h; exact .inl (.inl (runDev_keeps h).2.1)
  | iinva => rw [exec_iinva] at h; exact .inl (.inl (runDev_keeps h).2.1)
  | l2invl => rw [exec_l2invl] at h; exact .inl (.inl (runDev_keeps h).2.1)
  | l2clnl => rw [exec_l2clnl] at h; exact .inl (.inl (runDev_keeps h).2.1)
  | l2flush => rw [exec_l2flush] at h; exact .inl (.inl (runDev_keeps h).2.1)
  | thset => rw [exec_thset] at h; exact .inl (.inl (runDev_keeps h).2.1)
  | thget => rw [exec_thget] at h; exact .inl (.inl (runDev_keeps h).2.1)
  | thgo => rw [exec_thgo] at h; exact .inl (.inl (runDev_keeps h).2.1)
  | wt => rw [exec_wt] at h; exact .inl (.inl (runDev_keeps h).2.1)
  | mfs => rw [exec_mfs] at h; exact .inl (.inl (runDev_keeps h).2.1)
  | mts => rw [exec_mts] at h; exact .inl (.inl (runDev_keeps h).2.1)
  | tcont => rw [exec_tcont] at h; exact .inl (.inl (runDev_keeps h).2.1)
  | vcommit => rw [exec_vcommit] at h; exact .inl (.inl (runDev_keeps h).2.1)
  | vabort => rw [exec_vabort] at h; exact .inl (.inl (runDev_keeps h).2.1)
  | tend => rw [exec_tend] at h; exact .inl (.inl (runDev_keeps h).2.1)
  | tlbinvAll => rw [exec_tlbinvAll] at h; exact .inl (.inl (runDev_keeps h).2.1)
  | tlbinvPage => rw [exec_tlbinvPage] at h; exact .inl (.inl (runDev_keeps h).2.1)
  | tlbinvAsid => rw [exec_tlbinvAsid] at h; exact .inl (.inl (runDev_keeps h).2.1)
  | tlbinvPageAsid => rw [exec_tlbinvPageAsid] at h; exact .inl (.inl (runDev_keeps h).2.1)
  | shortPair => rw [exec_shortPair] at h; exact .inl (.inl (runDev_keeps h).2.1)
  | rep => rw [exec_rep] at h; exact .inl (.inl (runDev_keeps h).2.1)
  | accessCheckComplete => rw [exec_accessCheckComplete] at h; exact .inl (.inl (runDev_keeps h).2.1)
  | loadDataReturn => rw [exec_loadDataReturn] at h; exact .inl (.inl (runDev_keeps h).2.1)
  | icacheFillDone => rw [exec_icacheFillDone] at h; exact .inl (.inl (runDev_keeps h).2.1)
  | atelierInterrupt => rw [exec_atelierInterrupt] at h; exact .inl (.inl (runDev_keeps h).2.1)
  | waitDeadline => rw [exec_waitDeadline] at h; exact .inl (.inl (runDev_keeps h).2.1)
  | edpush => rw [exec_edpush] at h; exact .inl (.inl (runDev_keeps h).2.1)
  | edpop => rw [exec_edpop] at h; exact .inl (.inl (runDev_keeps h).2.1)
  | edrw => rw [exec_edrw] at h; exact .inl (.inl (runDev_keeps h).2.1)
  | lkup => rw [exec_lkup] at h; exact .inl (.inl (runDev_keeps h).2.1)
  | lkupl => rw [exec_lkupl] at h; exact .inl (.inl (runDev_keeps h).2.1)
  | hcrc => rw [exec_hcrc] at h; exact .inl (.inl (runDev_keeps h).2.1)
  | htpz => rw [exec_htpz] at h; exact .inl (.inl (runDev_keeps h).2.1)
  | hsum => rw [exec_hsum] at h; exact .inl (.inl (runDev_keeps h).2.1)
  | hsupd => rw [exec_hsupd] at h; exact .inl (.inl (runDev_keeps h).2.1)
  | mtr => rw [exec_mtr] at h; exact .inl (.inl (runDev_keeps h).2.1)
  | cnt => rw [exec_cnt] at h; exact .inl (.inl (runDev_keeps h).2.1)
  | cenc => rw [exec_cenc] at h; exact .inl (.inl (runDev_keeps h).2.1)
  | cdec => rw [exec_cdec] at h; exact .inl (.inl (runDev_keeps h).2.1)
  | enq => rw [exec_enq] at h; exact .inl (.inl (runDev_keeps h).2.1)
  | pshare => rw [exec_pshare] at h; exact .inl (.inl (runDev_keeps h).2.1)
  | pdrop => rw [exec_pdrop] at h; exact .inl (.inl (runDev_keeps h).2.1)
  | pfree => rw [exec_pfree] at h; exact .inl (.inl (runDev_keeps h).2.1)
  | pswap => rw [exec_pswap] at h; exact .inl (.inl (runDev_keeps h).2.1)
  | mopen => rw [exec_mopen] at h; exact .inl (.inl (runDev_keeps h).2.1)
  | mput => rw [exec_mput] at h; exact .inl (.inl (runDev_keeps h).2.1)
  | mclose => rw [exec_mclose] at h; exact .inl (.inl (runDev_keeps h).2.1)
  | mrecv => rw [exec_mrecv] at h; exact .inl (.inl (runDev_keeps h).2.1)
  | mpost => rw [exec_mpost] at h; exact .inl (.inl (runDev_keeps h).2.1)
  | bsave => rw [exec_bsave] at h; exact .inl (.inl (runDev_keeps h).2.1)
  | brest => rw [exec_brest] at h; exact .inl (.inl (runDev_keeps h).2.1)
  | lookupEngineSearch => rw [exec_lookupEngineSearch] at h; exact .inl (.inl (runDev_keeps h).2.1)
  | learnStart => rw [exec_learnStart] at h; exact .inl (.inl (runDev_keeps h).2.1)
  | learnApply => rw [exec_learnApply] at h; exact .inl (.inl (runDev_keeps h).2.1)
  | ageVisit => rw [exec_ageVisit] at h; exact .inl (.inl (runDev_keeps h).2.1)
  | flushWalkVisit => rw [exec_flushWalkVisit] at h; exact .inl (.inl (runDev_keeps h).2.1)
  | fwdTblEnable => rw [exec_fwdTblEnable] at h; exact .inl (.inl (runDev_keeps h).2.1)
  | fwdTblDisable => rw [exec_fwdTblDisable] at h; exact .inl (.inl (runDev_keeps h).2.1)
  | tableInitDone => rw [exec_tableInitDone] at h; exact .inl (.inl (runDev_keeps h).2.1)
  | search => rw [exec_search] at h; exact .inl (.inl (runDev_keeps h).2.1)
  | next => rw [exec_next] at h; exact .inl (.inl (runDev_keeps h).2.1)
  | insert => rw [exec_insert] at h; exact .inl (.inl (runDev_keeps h).2.1)
  | modify => rw [exec_modify] at h; exact .inl (.inl (runDev_keeps h).2.1)
  | delete => rw [exec_delete] at h; exact .inl (.inl (runDev_keeps h).2.1)
  | flushPort => rw [exec_flushPort] at h; exact .inl (.inl (runDev_keeps h).2.1)
  | actWrite => rw [exec_actWrite] at h; exact .inl (.inl (runDev_keeps h).2.1)
  | txn => rw [exec_txn] at h; exact .inl (.inl (runDev_keeps h).2.1)
  | portRearm => rw [exec_portRearm] at h; exact .inl (.inl (runDev_keeps h).2.1)
  | profileStage => rw [exec_profileStage] at h; exact .inl (.inl (runDev_keeps h).2.1)
  | profileApply => rw [exec_profileApply] at h; exact .inl (.inl (runDev_keeps h).2.1)
  | msgSend => rw [exec_msgSend] at h; exact .inl (.inl (runDev_keeps h).2.1)
  | taskPost => rw [exec_taskPost] at h; exact .inl (.inl (runDev_keeps h).2.1)
  | quote => rw [exec_quote] at h; exact .inl (.inl (runDev_keeps h).2.1)
  | nop => rw [exec_nop] at h; exact .inl (.inl (runDev_keeps h).2.1)
  | commitRequest => rw [exec_commitRequest] at h; exact .inl (.inl (runDev_keeps h).2.1)
  | varnishCommit => rw [exec_varnishCommit] at h; exact .inl (.inl (runDev_keeps h).2.1)
  | tmHandoff => rw [exec_tmHandoff] at h; exact .inl (.inl (runDev_keeps h).2.1)
  | abortAtEasel => rw [exec_abortAtEasel] at h; exact .inl (.inl (runDev_keeps h).2.1)
  | timingEvent => rw [exec_timingEvent] at h; exact .inl (.inl (runDev_keeps h).2.1)
  | palPoolCountWrite => rw [exec_palPoolCountWrite] at h; exact .inl (.inl (runDev_keeps h).2.1)
  | tmDequeue => rw [exec_tmDequeue] at h; exact .inl (.inl (runDev_keeps h).2.1)
  | gateEntryChange => rw [exec_gateEntryChange] at h; exact .inl (.inl (runDev_keeps h).2.1)
  | gateScheduleSwitch => rw [exec_gateScheduleSwitch] at h; exact .inl (.inl (runDev_keeps h).2.1)
  | semaphoreAcquire => rw [exec_semaphoreAcquire] at h; exact .inl (.inl (runDev_keeps h).2.1)
  | semaphoreStatus => rw [exec_semaphoreStatus] at h; exact .inl (.inl (runDev_keeps h).2.1)
  | lockProbe => rw [exec_lockProbe] at h; exact .inl (.inl (runDev_keeps h).2.1)
  | symbolReceive => rw [exec_symbolReceive] at h; exact .inl (.inl (runDev_keeps h).2.1)
  | symbolTransmit => rw [exec_symbolTransmit] at h; exact .inl (.inl (runDev_keeps h).2.1)
  | stnAlu => rw [exec_stnAlu] at h; exact .inl (.inl (runDev_keeps h).2.1)
  | stnJr => rw [exec_stnJr] at h; exact .inl (.inl (runDev_keeps h).2.1)
  | stnAddi => rw [exec_stnAddi] at h; exact .inl (.inl (runDev_keeps h).2.1)
  | stnMovi => rw [exec_stnMovi] at h; exact .inl (.inl (runDev_keeps h).2.1)
  | stnMovh => rw [exec_stnMovh] at h; exact .inl (.inl (runDev_keeps h).2.1)
  | stnCmpi => rw [exec_stnCmpi] at h; exact .inl (.inl (runDev_keeps h).2.1)
  | stnLd => rw [exec_stnLd] at h; exact .inl (.inl (runDev_keeps h).2.1)
  | stnSt => rw [exec_stnSt] at h; exact .inl (.inl (runDev_keeps h).2.1)
  | stnBcc => rw [exec_stnBcc] at h; exact .inl (.inl (runDev_keeps h).2.1)
  | stnJmp => rw [exec_stnJmp] at h; exact .inl (.inl (runDev_keeps h).2.1)
  | stnCall => rw [exec_stnCall] at h; exact .inl (.inl (runDev_keeps h).2.1)
  | rx => rw [exec_rx] at h; exact .inl (.inl (runDev_keeps h).2.1)
  | tx => rw [exec_tx] at h; exact .inl (.inl (runDev_keeps h).2.1)
  | rxrun => rw [exec_rxrun] at h; exact .inl (.inl (runDev_keeps h).2.1)
  | txrun => rw [exec_txrun] at h; exact .inl (.inl (runDev_keeps h).2.1)
  | fput => rw [exec_fput] at h; exact .inl (.inl (runDev_keeps h).2.1)
  | fend => rw [exec_fend] at h; exact .inl (.inl (runDev_keeps h).2.1)
  | fdrop => rw [exec_fdrop] at h; exact .inl (.inl (runDev_keeps h).2.1)
  | fopen => rw [exec_fopen] at h; exact .inl (.inl (runDev_keeps h).2.1)
  | txnext => rw [exec_txnext] at h; exact .inl (.inl (runDev_keeps h).2.1)
  | txget => rw [exec_txget] at h; exact .inl (.inl (runDev_keeps h).2.1)
  | drive => rw [exec_drive] at h; exact .inl (.inl (runDev_keeps h).2.1)
  | txusr => rw [exec_txusr] at h; exact .inl (.inl (runDev_keeps h).2.1)
  | par => rw [exec_par] at h; exact .inl (.inl (runDev_keeps h).2.1)
  | cinit => rw [exec_cinit] at h; exact .inl (.inl (runDev_keeps h).2.1)
  | cupd => rw [exec_cupd] at h; exact .inl (.inl (runDev_keeps h).2.1)
  | crdl => rw [exec_crdl] at h; exact .inl (.inl (runDev_keeps h).2.1)
  | crdh => rw [exec_crdh] at h; exact .inl (.inl (runDev_keeps h).2.1)
  | now => rw [exec_now] at h; exact .inl (.inl (runDev_keeps h).2.1)
  | nowh => rw [exec_nowh] at h; exact .inl (.inl (runDev_keeps h).2.1)
  | waitc => rw [exec_waitc] at h; exact .inl (.inl (runDev_keeps h).2.1)
  | waitt => rw [exec_waitt] at h; exact .inl (.inl (runDev_keeps h).2.1)
  | pps => rw [exec_pps] at h; exact .inl (.inl (runDev_keeps h).2.1)
  | hbkick => rw [exec_hbkick] at h; exact .inl (.inl (runDev_keeps h).2.1)
  | hbstat => rw [exec_hbstat] at h; exact .inl (.inl (runDev_keeps h).2.1)
  | stnNop => rw [exec_stnNop] at h; exact .inl (.inl (runDev_keeps h).2.1)
  | stnHalt => rw [exec_stnHalt] at h; exact .inl (.inl (runDev_keeps h).2.1)
  | brk => rw [exec_brk] at h; exact .inl (.inl (runDev_keeps h).2.1)
  | stnEngRun => rw [exec_stnEngRun] at h; exact .inl (.inl (runDev_keeps h).2.1)
  | stnEngStop => rw [exec_stnEngStop] at h; exact .inl (.inl (runDev_keeps h).2.1)
  | dramBringup => rw [exec_dramBringup] at h; exact .inl (.inl (runDev_keeps h).2.1)
  | dramBringupDone => rw [exec_dramBringupDone] at h; exact .inl (.inl (runDev_keeps h).2.1)
  | dramCommandIssue => rw [exec_dramCommandIssue] at h; exact .inl (.inl (runDev_keeps h).2.1)
  | dramReadReturn => rw [exec_dramReadReturn] at h; exact .inl (.inl (runDev_keeps h).2.1)
  | scrubVisit => rw [exec_scrubVisit] at h; exact .inl (.inl (runDev_keeps h).2.1)
  | freqChangeGo => rw [exec_freqChangeGo] at h; exact .inl (.inl (runDev_keeps h).2.1)
  | freqSwitch => rw [exec_freqSwitch] at h; exact .inl (.inl (runDev_keeps h).2.1)
  | trainingStep => rw [exec_trainingStep] at h; exact .inl (.inl (runDev_keeps h).2.1)
  | channelRetire => rw [exec_channelRetire] at h; exact .inl (.inl (runDev_keeps h).2.1)
  | channelReturn => rw [exec_channelReturn] at h; exact .inl (.inl (runDev_keeps h).2.1)
  | mergeBufferDrain => rw [exec_mergeBufferDrain] at h; exact .inl (.inl (runDev_keeps h).2.1)
  | tableCacheFill => rw [exec_tableCacheFill] at h; exact .inl (.inl (runDev_keeps h).2.1)
  | preload => rw [exec_preload] at h; exact .inl (.inl (runDev_keeps h).2.1)
  | kick => rw [exec_kick] at h; exact .inl (.inl (runDev_keeps h).2.1)
  | atelierKick => rw [exec_atelierKick] at h; exact .inl (.inl (runDev_keeps h).2.1)
  | doorbellReadDone => rw [exec_doorbellReadDone] at h; exact .inl (.inl (runDev_keeps h).2.1)
  | descriptorFetchDone => rw [exec_descriptorFetchDone] at h; exact .inl (.inl (runDev_keeps h).2.1)
  | injPacket => rw [exec_injPacket] at h; exact .inl (.inl (runDev_keeps h).2.1)
  | puntPacket => rw [exec_puntPacket] at h; exact .inl (.inl (runDev_keeps h).2.1)
  | doorbellWriteback => rw [exec_doorbellWriteback] at h; exact .inl (.inl (runDev_keeps h).2.1)
  | groupEnable => rw [exec_groupEnable] at h; exact .inl (.inl (runDev_keeps h).2.1)
  | groupReset => rw [exec_groupReset] at h; exact .inl (.inl (runDev_keeps h).2.1)
  | groupResetDone => rw [exec_groupResetDone] at h; exact .inl (.inl (runDev_keeps h).2.1)
  | bar4Access => rw [exec_bar4Access] at h; exact .inl (.inl (runDev_keeps h).2.1)
  | identity => rw [exec_identity] at h; exact .inl (.inl (runDev_keeps h).2.1)
  | faultRead => rw [exec_faultRead] at h; exact .inl (.inl (runDev_keeps h).2.1)
  | faultClear => rw [exec_faultClear] at h; exact .inl (.inl (runDev_keeps h).2.1)
  | powerState => rw [exec_powerState] at h; exact .inl (.inl (runDev_keeps h).2.1)
  | powerSet => rw [exec_powerSet] at h; exact .inl (.inl (runDev_keeps h).2.1)
  | ringStatus => rw [exec_ringStatus] at h; exact .inl (.inl (runDev_keeps h).2.1)
  | subunitReset => rw [exec_subunitReset] at h; exact .inl (by rw [(runAll_keeps h).2.1]; exact (by split <;> first | exact .inr (.inl rfl) | exact .inl rfl))
  | quoteStart => rw [exec_quoteStart] at h; exact .inl (.inl (runDev_keeps h).2.1)
  | quoteRead => rw [exec_quoteRead] at h; exact .inl (.inl (runDev_keeps h).2.1)
  | certRead => rw [exec_certRead] at h; exact .inl (.inl (runDev_keeps h).2.1)
  | regRead => rw [exec_regRead] at h; exact .inl (.inl (runDev_keeps h).2.1)
  | entdaa => rw [exec_entdaa] at h; exact .inl (.inl (runDev_keeps h).2.1)
  | atlCoreStart => rw [exec_atlCoreStart] at h; exact .inl (.inl (runDev_keeps h).2.1)
  | atlRunGo => rw [exec_atlRunGo] at h; exact .inl (.inl (runDev_keeps h).2.1)
  | measurementExtend => rw [exec_measurementExtend] at h; exact .inl (by rw [(runIdn_keeps h).2.1]; exact (by split <;> first | exact .inr (.inr (.inl ⟨_, rfl⟩)) | exact .inl rfl))
  | atlIpi => rw [exec_atlIpi] at h; exact .inl (.inl (runDev_keeps h).2.1)
  | clusterPointChange => rw [exec_clusterPointChange] at h; exact .inl (.inl (runDev_keeps h).2.1)
  | pointChangeDone => rw [exec_pointChangeDone] at h; exact .inl (.inl (runDev_keeps h).2.1)
  | clusterGate => rw [exec_clusterGate] at h; exact .inl (.inl (runDev_keeps h).2.1)
  | gatingDone => rw [exec_gatingDone] at h; exact .inl (.inl (runDev_keeps h).2.1)
  | clusterWake => rw [exec_clusterWake] at h; exact .inl (.inl (runDev_keeps h).2.1)
  | wakeDone => rw [exec_wakeDone] at h; exact .inl (.inl (runDev_keeps h).2.1)
  | nonSpeculativeConfirm => rw [exec_nonSpeculativeConfirm] at h; exact .inl (.inl (runDev_keeps h).2.1)
  | errorWindowEnd => rw [exec_errorWindowEnd] at h; exact .inl (.inl (runDev_keeps h).2.1)
  | thermalThreshold => rw [exec_thermalThreshold] at h; exact .inl (.inl (runDev_keeps h).2.1)
  | faultReport => rw [exec_faultReport] at h; exact .inl (.inl (runDev_keeps h).2.1)
  | drainTimeout => rw [exec_drainTimeout] at h; exact .inl (.inl (runDev_keeps h).2.1)
  | faultInject => rw [exec_faultInject] at h; exact .inl (.inl (runDev_keeps h).2.1)
  | istOut => rw [exec_istOut] at h; exact .inl (.inl (runDev_keeps h).2.1)
  | istBist => rw [exec_istBist] at h; exact .inl (.inl (runDev_keeps h).2.1)
  | istReturn => rw [exec_istReturn] at h; exact .inl (.inl (runDev_keeps h).2.1)
  | bistDone => rw [exec_bistDone] at h; exact .inl (.inl (runDev_keeps h).2.1)
  | haltComplete => rw [exec_haltComplete] at h; exact .inl (.inl (runDev_keeps h).2.1)
  | debugContextWrite => rw [exec_debugContextWrite] at h; exact .inl (.inl (runDev_keeps h).2.1)
  | dbgAccess => rw [exec_dbgAccess] at h; exact .inl (by rw [(runAll_keeps h).2.1]; exact idn_dbg _ _ _ _)
  | regPairAccess => rw [exec_regPairAccess] at h; exact .inl (.inl (runDev_keeps h).2.1)
  | registerWrite => rw [exec_registerWrite] at h; exact .inl (by rw [(runAll_keeps h).2.1]; exact (by split <;> first | exact idn_sized _ _ _ _ _ _ | exact .inl rfl))
  | pcieCompletionTimeout => rw [exec_pcieCompletionTimeout] at h; exact .inl (.inl (runDev_keeps h).2.1)
  | undefinedInstruction => rw [exec_undefinedInstruction] at h; exact .inl (.inl (runDev_keeps h).2.1)
  | stencilUndefinedInstruction => rw [exec_stencilUndefinedInstruction] at h; exact .inl (.inl (runDev_keeps h).2.1)
  | prsSliceIsolate => rw [exec_prsSliceIsolate] at h; exact .inl (.inl (runDev_keeps h).2.1)
  | completionArrival => rw [exec_completionArrival] at h; exact .inl (.inl (runDev_keeps h).2.1)
  | oldestReport => rw [exec_oldestReport] at h; exact .inl (.inl (runDev_keeps h).2.1)
  | atelierTimer => rw [exec_atelierTimer] at h; exact .inl (.inl (runDev_keeps h).2.1)
  | mrecvDeadline => rw [exec_mrecvDeadline] at h; exact .inl (.inl (runDev_keeps h).2.1)
  | canvasRestoreDone => rw [exec_canvasRestoreDone] at h; exact .inl (.inl (runDev_keeps h).2.1)
  | gatedPrefetchDone => rw [exec_gatedPrefetchDone] at h; exact .inl (.inl (runDev_keeps h).2.1)
  | recoveryTimeout => rw [exec_recoveryTimeout] at h; exact .inl (.inl (runDev_keeps h).2.1)
  | lockWaitTimeout => rw [exec_lockWaitTimeout] at h; exact .inl (.inl (runDev_keeps h).2.1)
  | rxrunStop => rw [exec_rxrunStop] at h; exact .inl (.inl (runDev_keeps h).2.1)
  | txrunDone => rw [exec_txrunDone] at h; exact .inl (.inl (runDev_keeps h).2.1)
  | txnextReady => rw [exec_txnextReady] at h; exact .inl (.inl (runDev_keeps h).2.1)
  | waitcExpiry => rw [exec_waitcExpiry] at h; exact .inl (.inl (runDev_keeps h).2.1)
  | waittExpiry => rw [exec_waittExpiry] at h; exact .inl (.inl (runDev_keeps h).2.1)
  | heartbeatToggle => rw [exec_heartbeatToggle] at h; exact .inl (.inl (runDev_keeps h).2.1)
  | heartbeatLapse => rw [exec_heartbeatLapse] at h; exact .inl (.inl (runDev_keeps h).2.1)
  | ringInsertDelayEnd => rw [exec_ringInsertDelayEnd] at h; exact .inl (.inl (runDev_keeps h).2.1)
  | ringSettleEnd => rw [exec_ringSettleEnd] at h; exact .inl (.inl (runDev_keeps h).2.1)
  | periodicRetrain => rw [exec_periodicRetrain] at h; exact .inl (.inl (runDev_keeps h).2.1)
  | zeroFillDone => rw [exec_zeroFillDone] at h; exact .inl (.inl (runDev_keeps h).2.1)
  | rebuildDone => rw [exec_rebuildDone] at h; exact .inl (.inl (runDev_keeps h).2.1)
  | staleRefetchDone => rw [exec_staleRefetchDone] at h; exact .inl (.inl (runDev_keeps h).2.1)
  | pollTimer => rw [exec_pollTimer] at h; exact .inl (.inl (runDev_keeps h).2.1)
  | msixHoldoffExpiry => rw [exec_msixHoldoffExpiry] at h; exact .inl (.inl (runDev_keeps h).2.1)
  | setdasa => rw [exec_setdasa] at h; exact .inl (.inl (runDev_keeps h).2.1)
  | setmwl => rw [exec_setmwl] at h; exact .inl (.inl (runDev_keeps h).2.1)
  | setmrl => rw [exec_setmrl] at h; exact .inl (.inl (runDev_keeps h).2.1)
  | rstact => rw [exec_rstact] at h; exact .inl (.inl (runDev_keeps h).2.1)
  | gzPhaseFault => rw [exec_gzPhaseFault] at h; exact .inl (.inl (runDev_keeps h).2.1)
  | gzLdoFault => rw [exec_gzLdoFault] at h; exact .inl (.inl (runDev_keeps h).2.1)
  | laneTestEnable => rw [exec_laneTestEnable] at h; exact .inl (.inl (runDev_keeps h).2.1)
  | jtagSamplePreload => rw [exec_jtagSamplePreload] at h; exact .inl (.inl (runDev_keeps h).2.1)
  | jtagExtest => rw [exec_jtagExtest] at h; exact .inl (.inl (runDev_keeps h).2.1)
  | ddrAlertNAsserted => rw [exec_ddrAlertNAsserted] at h; exact .inl (.inl (runDev_keeps h).2.1)
  | trainingStepDone => rw [exec_trainingStepDone] at h; exact .inl (.inl (runDev_keeps h).2.1)
  | assemblyBufferFree => rw [exec_assemblyBufferFree] at h; exact .inl (.inl (runDev_keeps h).2.1)
  | vddIoGood => rw [exec_vddIoGood] at h; exact .inl (.inl (runDev_keeps h).2.1)
  | vddCoreGood => rw [exec_vddCoreGood] at h; exact .inl (.inl (runDev_keeps h).2.1)
  | vddIoLoss => rw [exec_vddIoLoss] at h; exact .inl (by rw [(runAll_keeps h).2.1]; exact .inr (.inl rfl))
  | resetNAssert => rw [exec_resetNAssert] at h; exact .inl (by rw [(runAll_keeps h).2.1]; exact .inr (.inl rfl))
  | cacheInvalidationDone => rw [exec_cacheInvalidationDone] at h; exact .inl (.inl (runDev_keeps h).2.1)
  | hostBootGo => rw [exec_hostBootGo] at h; exact .inl (.inl (runDev_keeps h).2.1)
  | pwrfailAssert => rw [exec_pwrfailAssert] at h; exact .inl (.inl (runDev_keeps h).2.1)
  | fixativeHeartbeatStop => rw [exec_fixativeHeartbeatStop] at h; exact .inl (by rw [(runAll_keeps h).2.1]; exact (by split <;> first | exact .inr (.inl rfl) | exact .inl rfl))
  | pwrfailRelease => rw [exec_pwrfailRelease] at h; exact .inl (.inl (runDev_keeps h).2.1)
  | thermtrip => rw [exec_thermtrip] at h; exact .inl (.inl (runDev_keeps h).2.1)
  | functionLevelReset => rw [exec_functionLevelReset] at h; exact .inl (.inl (runDev_keeps h).2.1)
  | tclkPllLock => rw [exec_tclkPllLock] at h; exact .inl (.inl (runDev_keeps h).2.1)
  | timRefLoss => rw [exec_timRefLoss] at h; exact .inl (.inl (runDev_keeps h).2.1)
  | refclkSysLoss => rw [exec_refclkSysLoss] at h; exact .inl (.inl (runDev_keeps h).2.1)
  | timePpsOutRise => rw [exec_timePpsOutRise] at h; exact .inl (.inl (runClk_keeps h).2.1)
  | timePpsOutFall => rw [exec_timePpsOutFall] at h; exact .inl (.inl (runDev_keeps h).2.1)
  | timePpsInEdge => rw [exec_timePpsInEdge] at h; exact .inl (.inl (runDev_keeps h).2.1)
  | timeCapture => rw [exec_timeCapture] at h; exact .inl (.inl (runDev_keeps h).2.1)
  | timeStep => rw [exec_timeStep] at h; exact .inl (.inl (runClk_keeps h).2.1)
  | parsePacket => rw [exec_parsePacket] at h; exact .inl (.inl (runDev_keeps h).2.1)
  | distributePacket => rw [exec_distributePacket] at h; exact .inl (.inl (runDev_keeps h).2.1)
  | learnPost => rw [exec_learnPost] at h; exact .inl (.inl (runDev_keeps h).2.1)
  | controlPlaneApply => rw [exec_controlPlaneApply] at h; exact .inl (.inl (runDev_keeps h).2.1)
  | controlPlaneRelease => rw [exec_controlPlaneRelease] at h; exact .inl (.inl (runDev_keeps h).2.1)
  | profileCommit => rw [exec_profileCommit] at h; exact .inr ⟨rfl, (runIdn_keeps h).2.1⟩
  | quoteDone => rw [exec_quoteDone] at h; exact .inl (.inl (runDev_keeps h).2.1)
  | commitBufferRetire => rw [exec_commitBufferRetire] at h; exact .inl (.inl (runDev_keeps h).2.1)
  | irrevocableGrant => rw [exec_irrevocableGrant] at h; exact .inl (.inl (runDev_keeps h).2.1)
  | vrnHoldStall => rw [exec_vrnHoldStall] at h; exact .inl (.inl (runDev_keeps h).2.1)
  | irrevHeaderCellGrant => rw [exec_irrevHeaderCellGrant] at h; exact .inl (.inl (runDev_keeps h).2.1)
  | swatchPass => rw [exec_swatchPass] at h; exact .inl (.inl (runDev_keeps h).2.1)
  | tmgObjRead => rw [exec_tmgObjRead] at h; exact .inl (.inl (runDev_keeps h).2.1)
  | tmgObjWrite => rw [exec_tmgObjWrite] at h; exact .inl (.inl (runDev_keeps h).2.1)
  | tmgQueueFlush => rw [exec_tmgQueueFlush] at h; exact .inl (.inl (runDev_keeps h).2.1)
  | tmgScheduleApply => rw [exec_tmgScheduleApply] at h; exact .inl (.inl (runDev_keeps h).2.1)
  | mtrRead => rw [exec_mtrRead] at h; exact .inl (.inl (runDev_keeps h).2.1)
  | mtrWrite => rw [exec_mtrWrite] at h; exact .inl (.inl (runDev_keeps h).2.1)
  | mtrReadClear => rw [exec_mtrReadClear] at h; exact .inl (.inl (runDev_keeps h).2.1)
  | lockAcquire => rw [exec_lockAcquire] at h; exact .inl (.inl (runDev_keeps h).2.1)
  | lockRelease => rw [exec_lockRelease] at h; exact .inl (.inl (runDev_keeps h).2.1)
  | semaphoreRelease => rw [exec_semaphoreRelease] at h; exact .inl (.inl (runDev_keeps h).2.1)
  | freqSwitchDone => rw [exec_freqSwitchDone] at h; exact .inl (.inl (runDev_keeps h).2.1)
  | rangeInvalidate => rw [exec_rangeInvalidate] at h; exact .inl (.inl (runDev_keeps h).2.1)
  | mergeSync => rw [exec_mergeSync] at h; exact .inl (.inl (runDev_keeps h).2.1)
  | rstdaa => rw [exec_rstdaa] at h; exact .inl (.inl (runDev_keeps h).2.1)
  | enec => rw [exec_enec] at h; exact .inl (.inl (runDev_keeps h).2.1)
  | disec => rw [exec_disec] at h; exact .inl (.inl (runDev_keeps h).2.1)
  | getpid => rw [exec_getpid] at h; exact .inl (.inl (runDev_keeps h).2.1)
  | getbcr => rw [exec_getbcr] at h; exact .inl (.inl (runDev_keeps h).2.1)
  | getdcr => rw [exec_getdcr] at h; exact .inl (.inl (runDev_keeps h).2.1)
  | getstatus => rw [exec_getstatus] at h; exact .inl (.inl (runDev_keeps h).2.1)
  | getmwl => rw [exec_getmwl] at h; exact .inl (.inl (runDev_keeps h).2.1)
  | getmrl => rw [exec_getmrl] at h; exact .inl (.inl (runDev_keeps h).2.1)
  | vcoreSlewDone => rw [exec_vcoreSlewDone] at h; exact .inl (.inl (runDev_keeps h).2.1)
  | throttleStep => rw [exec_throttleStep] at h; exact .inl (.inl (runDev_keeps h).2.1)
  | gzVcoreOor => rw [exec_gzVcoreOor] at h; exact .inl (.inl (runDev_keeps h).2.1)
  | faultNPulseEnd => rw [exec_faultNPulseEnd] at h; exact .inl (.inl (runDev_keeps h).2.1)
  | haltHold => rw [exec_haltHold] at h; exact .inl (.inl (runDev_keeps h).2.1)
  | haltAbort => rw [exec_haltAbort] at h; exact .inl (.inl (runDev_keeps h).2.1)
  | resume => rw [exec_resume] at h; exact .inl (.inl (runDev_keeps h).2.1)
  | step => rw [exec_step] at h; exact .inl (.inl (runDev_keeps h).2.1)
  | kill => rw [exec_kill] at h; exact .inl (.inl (runDev_keeps h).2.1)
  | laneTestClear => rw [exec_laneTestClear] at h; exact .inl (.inl (runDev_keeps h).2.1)
  | jtagBypass => rw [exec_jtagBypass] at h; exact .inl (.inl (runDev_keeps h).2.1)
  | jtagIdcode => rw [exec_jtagIdcode] at h; exact .inl (.inl (runDev_keeps h).2.1)
  | jtagClamp => rw [exec_jtagClamp] at h; exact .inl (.inl (runDev_keeps h).2.1)
  | jtagHighz => rw [exec_jtagHighz] at h; exact .inl (.inl (runDev_keeps h).2.1)
  | jtagExtestPulse => rw [exec_jtagExtestPulse] at h; exact .inl (.inl (runDev_keeps h).2.1)
  | jtagExtestTrain => rw [exec_jtagExtestTrain] at h; exact .inl (.inl (runDev_keeps h).2.1)
  | thermtripNRelease => rw [exec_thermtripNRelease] at h; exact .inl (.inl (runDev_keeps h).2.1)
  | ibiAccepted => rw [exec_ibiAccepted] at h; exact .inl (.inl (runDev_keeps h).2.1)

theorem may_ok (d : Dev) (c k : Clock) (h : c.ok = true) (hk : Clock.may d c k) : k.ok = true := by
  rcases hk with rfl | rfl | ⟨_, _, rfl⟩ | rfl | rfl | rfl
  · exact h
  · decide
  · exact regWriteClock_ok _ _ _ _ h
  · exact set_ok _ _ h
  · exact step_ok _ _ h
  · exact h

theorem step_cases (s t : State) (h : step s = .next t) : (s.pending = [] ∧ t = s.tick) ∨
    ∃ c rest, s.pending = c :: rest ∧ exec c { s with pending := rest } = .next t := by
  unfold step at h
  split at h
  · next hp => cases h; exact .inl ⟨hp, rfl⟩
  · next c rest hp => exact .inr ⟨c, rest, hp, h⟩

theorem boot_idn (r : BootRes) (i : Ident) : (bootIdent r i).sameFuses i ∧ i.svnMin ≤ (bootIdent r i).svnMin ∧
    (bootIdent r i).revoked ||| i.revoked = (bootIdent r i).revoked := by
  unfold bootIdent
  split
  · refine ⟨⟨rfl, rfl, rfl, rfl, rfl, rfl, rfl, rfl, rfl, rfl⟩, ?_, ?_⟩
    · dsimp only; split <;> omega
    · dsimp only
      rw [Nat.lor_assoc, Nat.lor_comm _ i.revoked, ← Nat.lor_assoc, Nat.or_self]
  · exact ⟨⟨rfl, rfl, rfl, rfl, rfl, rfl, rfl, rfl, rfl, rfl⟩, le_rfl, Nat.or_self _⟩

theorem commit_idn (d : Dev) (i : Ident) : profileCommitIdent d i = i ∨ ∃ dg, profileCommitIdent d i = { i with meas := i.meas.set 2 (extended (i.meas.getD 2 []) dg) } := by
  unfold profileCommitIdent
  split
  · exact .inl rfl
  · exact .inr ⟨_, rfl⟩

theorem meas_idn (r : Req) (d : Dev) (i : Ident) : measExtendIdent r d i = i ∨ ∃ dg, measExtendIdent r d i = { i with meas := i.meas.set 3 (extended (i.meas.getD 3 []) dg) } := by
  unfold measExtendIdent
  split
  · exact .inl rfl
  · exact .inr ⟨_, rfl⟩

theorem idn_refl (i : Ident) (m : List (List Byte)) : ({ i with meas := m } : Ident).sameFuses i ∧ i.svnMin ≤ ({ i with meas := m } : Ident).svnMin ∧
   ({ i with meas := m } : Ident).revoked ||| i.revoked = ({ i with meas := m } : Ident).revoked :=
  ⟨⟨rfl, rfl, rfl, rfl, rfl, rfl, rfl, rfl, rfl, rfl⟩, le_rfl, Nat.or_self _⟩

theorem wf_same (m : List Host.Cell) : Memory.wf m = true ↔ Tab.wf (fun _ => (0 : Byte)) m = true := by
  rw [Tab.wf_iff]
  unfold Memory.wf
  simp only [Bool.and_eq_true, decide_eq_true_eq, List.all_eq_true]

theorem putBytes_wf (bs : List Byte) : ∀ (m : Tab Byte) (a : Nat), Tab.wf (fun _ => (0 : Byte)) m = true → Tab.wf (fun _ => (0 : Byte)) (putBytes m a bs) = true := by
  induction bs with
  | nil => intro m a h; exact h
  | cons b bs ih => intro m a h; exact ih _ _ (tset_wf _ _ _ _ h)

theorem foldl_keep {α β : Type} (P : α → Prop) (f : α → β → α) (l : List β) (hf : ∀ a b, P a → P (f a b)) : ∀ a, P a → P (l.foldl f a) := by
  induction l with
  | nil => intro a h; exact h
  | cons b l ih => intro a h; exact ih _ (hf _ _ h)

theorem dramMem_wf (dead mir : Nat → Bool) (a dl : Nat) (bs : List Byte) (l : List Nat) (m : Tab Byte) (h : Tab.wf (fun _ => (0 : Byte)) m = true) :
    Tab.wf (fun _ => (0 : Byte)) (l.foldl (fun m i => if dead i then m else
      let m := tset 0 m (a + i) (byteAt bs i)
      if mir (a + i) then tset 0 m (a + i + dl) (byteAt bs i) else m) m) = true := by
  refine foldl_keep (fun m => Tab.wf (fun _ => (0 : Byte)) m = true) _ _ ?_ _ h
  intro m i hm
  dsimp only
  split
  · exact hm
  · split
    · exact tset_wf _ _ _ _ (tset_wf _ _ _ _ hm)
    · exact tset_wf _ _ _ _ hm

theorem dramCapture_mem (d : Dev) (k a : Nat) : (d.dramCapture k a).mem = d.mem := by
  unfold Dev.dramCapture
  split
  · exact Dev.setRb_mem _ _ _ _
  · simp only [Dev.setReg_mem]

theorem dramWrite_mem (d : Dev) (a : Nat) (bs : List Byte) : (d.dramWrite a bs).mem = ((List.range bs.length).foldl
    (fun m i => if d.lost (a + i) then m else
      let m := tset 0 m (a + i) (byteAt bs i)
      if d.mirrored (a + i) then tset 0 m (a + i + d.mirrorDelta) (byteAt bs i) else m) d.mem) := by
  unfold Dev.dramWrite
  dsimp only
  split
  · rw [Dev.raise_mem, dramCapture_mem]
  · rfl
/-- A write of memory keeps its canonical form. -/

theorem memWrite_wf (d : Dev) (a : Nat) (bs : List Byte) (h : Memory.wf d.mem = true) : Memory.wf (d.memWrite a bs).mem = true := by
  rw [wf_same] at h ⊢
  unfold Dev.memWrite
  split
  · exact putBytes_wf _ _ _ h
  · rw [dramWrite_mem]; exact dramMem_wf _ _ _ _ _ _ _ h
/-- A write of one byte keeps the canonical form. -/

theorem memSet_wf (d : Dev) (a : Nat) (b : Byte) (h : Memory.wf d.mem = true) : Memory.wf (d.memSet a b).mem = true := by
  rw [wf_same] at h ⊢
  exact tset_wf _ _ _ _ h
/-- A write of a value keeps the canonical form. -/

theorem memPut_wf (d : Dev) (a n v : Nat) (h : Memory.wf d.mem = true) : Memory.wf (d.memPut a n v).mem = true := memWrite_wf _ _ _ h
/-- A masked write keeps the canonical form. -/

theorem memMask_wf (d : Dev) (base : Nat) (m : Tab (Option Byte)) (h : Memory.wf d.mem = true) : Memory.wf (d.memMask base m).mem = true := by
  unfold Dev.memMask
  generalize byteRuns m [] = l
  induction l with
  | nil => exact h
  | cons x l ih => exact memWrite_wf _ _ _ ih
/-- Memory at reset is in canonical form. -/

theorem reset_mem_wf : Memory.wf State.reset.dev.mem = true := by decide

end Sys2Proof.Machine
end

