-- ==== Sys2Proof/Tests/Slice0.lean ====
section
/-!
SUPPORT. Tests of this sitting: the checks of WellFormed, single steps on small states, and states that meet the hypotheses of
the statements.
-/

namespace Sys2Proof.Machine

/-! Each check of WellFormed refuses a command that names no unit of the device. -/

theorem test_inBar4_refused (x : Bar4) : Instr.wf (.bar4Access (2 ^ 30) x) = false := by simp [Instr.wf, inBar4]

theorem test_inRegs_refused (x : RegAcc) : Instr.wf (.dbgAccess (2 ^ 26) x) = false := by simp [Instr.wf, inRegs]

theorem test_isArray_refused : Instr.wf (.bistDone true 256) = false := by decide

theorem test_isAtlCore_refused : Instr.wf (.atelierInterrupt 4 0) = false := by decide

theorem test_isIntLine_refused : Instr.wf (.atelierInterrupt 0 8) = false := by decide

theorem test_isBank_refused : Instr.wf (.parserBankSwitch 2) = false := by decide

theorem test_isBootSel_refused : Instr.wf (.resetNRelease 4) = false := by decide

theorem test_isBrush_refused (f : R3) : Instr.wf (.bsave 0 7 f) = false := by simp [Instr.wf, isBrush]

theorem test_isChannel_refused : Instr.wf (.dramCommandIssue 8 0) = false := by decide

theorem test_isSub_refused : Instr.wf (.dramCommandIssue 0 2) = false := by decide

theorem test_isCluster_refused : Instr.wf (.easelSelect 24) = false := by decide

theorem test_isClusterThread_refused : Instr.wf (.preemptSave 1536) = false := by decide

theorem test_isCore_refused : Instr.wf (.timingEvent 0 8 0 []) = false := by decide

theorem test_isEngine_refused (f : SFmt) : Instr.wf (.stnAlu 32 0 f) = false := by simp [Instr.wf, isEngine]

theorem test_isSlot_refused (f : SFmt) : Instr.wf (.stnAlu 0 4 f) = false := by simp [Instr.wf, isSlot]

theorem test_isGroup_refused (x : Dma) : Instr.wf (.search 16 x) = false := by simp [Instr.wf, isGroup]

theorem test_isLane_refused : Instr.wf (.signalDetect 80) = false := by decide

theorem test_isLookupEngine_refused : Instr.wf (.lookupEngineSearch 16) = false := by decide

theorem test_isMac_refused (f : List Byte) : Instr.wf (.frameReceive 80 f) = false := by simp [Instr.wf, isMac]

theorem test_isTestLane_refused : Instr.wf (.laneTestEnable 128 0) = false := by decide

theorem test_isPattern_refused : Instr.wf (.laneTestEnable 0 16) = false := by decide

theorem test_isPhase_refused : Instr.wf (.gzPhaseFault 12) = false := by decide

theorem test_isPoint_refused (r : Req) : Instr.wf (.clusterPointChange r 0 16) = false := by simp [Instr.wf, isPoint]

theorem test_isPool_refused (r : Req) (v : Word) : Instr.wf (.palPoolCountWrite r 16 v) = false := by simp [Instr.wf, isPool]

theorem test_isPort_refused : Instr.wf (.transmitDone 136) = false := by decide

theorem test_isRecovery_refused : Instr.wf (.recoveryTimeout 4096) = false := by decide

theorem test_isRing_refused : Instr.wf (.heartbeatToggle 2) = false := by decide

theorem test_isSem_refused : Instr.wf (.semaphoreAcquire 0 256) = false := by decide

theorem test_isSensor_refused : Instr.wf (.thermalThreshold 32 0) = false := by decide

theorem test_isTemp_refused : Instr.wf (.thermalThreshold 0 256) = false := by decide

theorem test_isSource_refused (w : Word) : Instr.wf (.faultReport 256 w) = false := by simp [Instr.wf, isSource]

theorem test_isStnLane_refused : Instr.wf (.symbolReceive 32 []) = false := by decide

theorem test_isTable_refused : Instr.wf (.learnStart 256) = false := by decide

theorem test_isTcaSlice_refused : Instr.wf (.tableCacheFill 8) = false := by decide

theorem test_isThread_refused (f : RFmt) : Instr.wf (.aluOp 1540 f) = false := by simp [Instr.wf, isThread]

theorem test_isToken_refused : Instr.wf (.mrecvDeadline 0 65536) = false := by decide

theorem test_isTxn_refused : Instr.wf (.commitRequest 6144) = false := by decide

theorem test_isUnitKind_refused : Instr.wf (.istOut 4 0) = false := by decide

theorem test_isUnit_refused : Instr.wf (.istOut 0 32) = false := by decide

theorem test_multiplyFn_refused : Instr.wf (.multiply 0 ⟨0, 0, 0, 4⟩) = false := by decide

theorem test_divideFn_refused : Instr.wf (.divide 0 ⟨0, 0, 0, 3⟩) = false := by decide

theorem test_undefined_refused : Instr.wf (.undefinedInstruction 0 0) = false := by decide

-- One theorem at a time: each waits on a kernel evaluation, and a thread per waiting theorem would exhaust the memory limit.
set_option Elab.async false

/-! ## States that meet the hypotheses of the statements

Each theorem below shows a concrete state and operands that meet the hypotheses of the statement it is named after, clause by
clause. `wCore` runs thread 0 of cluster 0 without a transaction, `wTask` within transaction slot 0, `wAtl` runs Atelier core 0. -/

/-- A state with another device. -/
def wS (d : Dev) : State := { State.reset with dev := d }

/-- The lines at internal address 0 of cluster 0 that hold pc 0x100, and of the Primer, in the I-caches; every clock on. -/
def wIcache : Dev :=
  ({ Dev.reset with krv := { Dev.reset.krv with icache := [(icKey 0 (cluBase 0 / 32 + 8), some (cluBase 0 / 32 + 8))] } } : Dev).setReg
    Reg.GLB_CLK_STATUS 0x0FFFFFFF

def wThr : Thread := { Thread.reset with run := .running, pc := 0x100 }
def wCore : Dev := wIcache.setThr 0 wThr
def wJob : Task := { hasTxn := true, txn := 0, prio := 0, ticket := 0, canvas := 0, user := 0, entry := 0x100, seq := 0 }
def wTxn : Txn := { Txn.reset with phase := .active }
def wTask : Dev := (wIcache.setThr 0 { wThr with task := some wJob }).setTxn 0 wTxn
def wAtl : Dev :=
  let d := wIcache.setThr 1536 { atlReset with tvb := 0x08000800, run := .running }
  match d.fetchLine 1536 with
  | .ok l _ => { d with krv := { d.krv with icache := tset none d.krv.icache (icKey (coreOf 1536) l) (some l) } }
  | .bad _ _ => d

theorem witness_ready : wCore.ready 0 ∧ wTask.ready 0 ∧ wAtl.ready 1536 ∧ isThread 0 = true ∧ isThread 1536 = true ∧
    isAtl 0 = false ∧ isAtl 1536 = true ∧ (wAtl.thr 1536).super = true := by
  unfold Dev.ready; decide +kernel

/-- Words of each shape: add with rd 1, mul, divu, srli, cmpi and a pair without rep. -/
theorem witness_KrovalArithmetic : wCore.ready 0 ∧ (aluOp 0 0 0 false).isSome = true ∧ (mulOp 0 0 0).isSome = true ∧
    (63 : BitVec 15).toNat / 2 ^ 7 % 2 ^ 7 = 0 ∧ hasRep (pairWord 0) = false ∧ ((wCore.thr 0).pairEff (pairWord 0)).isSome = true := by
  unfold Dev.ready; decide +kernel

/-- The dividend 0x8000_0000 by 0 and by -1 are corners of R93. -/
theorem witness_DivisionNeverTraps : wCore.ready 0 ∧ wThr.g 0 = 0 ∧ (wThr.setG 1 0x80000000).g 1 = 0x80000000 := by
  unfold Dev.ready; decide +kernel

theorem witness_KrovalBranches : wCore.ready 0 ∧ slotForbidden 0 = false ∧
    (wCore.setThr 0 { wThr with slot := .eret, epc := 0x200, estat := 1 }).ready 0 ∧
    (∃ p : BitVec 31, hasRep (pairWord p) = true ∧ ((wCore.thr 0).pairEff (pairWord p)).isSome = true) := by
  refine ⟨?_, by decide +kernel, ?_, 0x1B * 2 ^ 26, ?_⟩
  · unfold Dev.ready; decide +kernel
  · unfold Dev.ready; decide +kernel
  · decide +kernel

theorem witness_KrovalTraps : let d := wCore.setThr 0 { wThr with tvb := 0x800 }
    d.ready 0 ∧ d.trapsTo 0 ∧ (∃ w, undefinedCause w = some 1 ∧ major w < 0x38) := by
  refine ⟨?_, ?_, ?_⟩
  · unfold Dev.ready; decide +kernel
  · unfold Dev.trapsTo; decide +kernel
  · exact ⟨0x12 * 2 ^ 25 + 2, by decide +kernel⟩

/-- A load and a store at the last word, halfword and byte below the 0x8_0000 boundary. -/
theorem witness_KrovalLoads_Stores : let d := wCore.setThr 0 (wThr.setG 1 0x7FFFC)
    d.ready 0 ∧ d.drc.poison = [] ∧ d.drc.mirrors = [] ∧ d.rf Reg.DRC_STATUS 23 16 = 0 ∧ ((d.thr 0).g 1).toNat = 0x7FFFC ∧
    d.ownAccess 0 false 0x7FFFC 4 ∧ d.ownAccess 0 true 0x7FFFC 4 ∧ d.ownAccess 0 true 0x7FFFE 2 ∧ d.ownAccess 0 false 0x7FFFF 1 := by
  unfold Dev.ready Dev.ownAccess; decide +kernel

theorem witness_KrovalCaches : wCore.ready 0 ∧ ((wCore.tlbFill 0 0x100).lineAddr 0 .load 0x100).isSome = true ∧
    ((wCore.tlbFill 0 0x100).lineAddr 0 .fetch 0x100).isSome = true ∧ wAtl.ready 1536 ∧ (wAtl.thr 1536).super = true ∧
    ((wAtl.tlbFill 1536 0x08000000).lineAddr 1536 .load 0x08000000).isSome = true := by
  unfold Dev.ready; decide +kernel

theorem witness_KrovalTlb : wAtl.ready 1536 ∧ isAtl 1536 = true ∧ (wAtl.thr 1536).super = true := by
  unfold Dev.ready; decide +kernel

/-- A word of private memory without a transaction, and one of the shared region within one. -/
theorem witness_KrovalLocks : wCore.ready 0 ∧ wCore.fittedDram ≤ pmBase ∧ wCore.inShared (cluBase 0) = false ∧
    (txnKey 0 (wTask.thr 0)).isSome = true ∧ wTask.ready 0 := by
  unfold Dev.ready; decide +kernel

/-- Thread 1, stopped and running, under thread 0 as master of its core; and a core that is no master's. -/
theorem witness_KrovalThreadControl : wCore.ready 0 ∧ ((wCore.thr 0).setG 1 1).g 1 = 1 ∧ wCore.masterManaged 1 = false ∧
    (let d := wCore.setReg (Reg.CLU_CORE_MODE 0) 0xFFFFFFFF
     d.masterManaged 1 = true ∧ (d.thr 1).run = .stopped ∧ ((d.setThr 1 wThr).thr 1).run ≠ .stopped) := by
  unfold Dev.ready; decide +kernel

theorem witness_KrovalSpecialRegisters : wCore.ready 0 ∧ isAtl 0 = false ∧ wAtl.ready 1536 ∧ (wAtl.thr 1536).super = true := by
  unfold Dev.ready; decide +kernel

/-- A word ready to wait, a wait at its deadline, and a timer that has reached its compare value. -/
theorem witness_KrovalWaits : wCore.ready 0 ∧ (let d := wCore.setThr 0 { wThr with run := .waiting 2 0 1 }
    (d.thr 0).run = .waiting 2 0 1 ∧ (d.thr 0).deadline.toNat ≤ State.reset.clk.count) ∧
    (let d := (Dev.reset.setReg (Reg.ATL_TIMER 3 0) 0).setReg (Reg.ATL_TIMER 3 1) 0
     (d.reg (Reg.ATL_TIMER 3 0)).toNat + 2 ^ 32 * (d.reg (Reg.ATL_TIMER 3 1)).toNat ≤ State.reset.clk.count ∧
     d.mgt.timerHit.testBit 3 = false) := by
  unfold Dev.ready; decide +kernel

/-- A task without and one with a transaction, and a record of zeros at the address in g1. -/
theorem witness_KrovalTaskEnds : wCore.ready 0 ∧ (wCore.thr 0).hasTxn = false ∧
    (let d := wTask.setThr 0 { (wThr.setG 1 0x7FFC0) with task := some wJob }
     d.ready 0 ∧ (d.thr 0).task = some wJob ∧ wJob.hasTxn = true ∧ ((d.thr 0).g 1).toNat = 0x7FFC0 ∧
     (parseRec (d.ownBytes 0 0x7FFC0 64)).2 = true ∧ (parseRec (d.ownBytes 0 0x7FFC0 64)).1.tokens = []) := by
  unfold Dev.ready; decide +kernel

theorem witness_KrovalEvents_checks : (let d := wCore.setThr 0 { wThr with fly := [.trap ⟨3, 3, false, 1⟩], tvb := 0x800 }
    d.txnRuns 0 = true ∧ d.trapsTo 0 ∧ (d.thr 0).fly = [.trap ⟨3, 3, false, 1⟩]) ∧
    (let d := wCore.setThr 0 { wThr with fly := [.ok] }
     d.txnRuns 0 = true ∧ (d.thr 0).fly = [.ok]) := by
  unfold Dev.trapsTo; decide +kernel

/-- A load of shared memory, a fetch that misses, and an enabled timer interrupt of Atelier core 0. -/
theorem witness_KrovalEvents : (let l : Load := ⟨1, 0, cluBase 0, 4, false, false, false, none⟩
    let d := wCore.setThr 0 { wThr with load := some l }
    d.txnRuns 0 = true ∧ d.fittedDram ≤ l.paddr ∧ d.sramBad l.paddr 4 = false ∧ (l.paddr < semBase ∨ semBase + 0x10000 ≤ l.paddr) ∧ d.drc.reqs = []) ∧
    (let l : Load := ⟨1, 0, 0x1000, 4, false, false, false, none⟩
     let d := wAtl.setThr 1536 { wAtl.thr 1536 with load := some l }
     d.txnRuns 1536 = true ∧ d.l2Bad l.paddr 4 = false ∧ d.sramBad l.paddr 4 = false ∧ l.paddr < semBase ∧ d.drc.reqs = []) ∧
    (let d := wCore.setThr 0 { wThr with pc := 0x200 }
     (d.thr 0).clear = true ∧ d.coreClocked 0 = true ∧ d.fetchHit 0 = false ∧
     (match d.fetchLine 0 with
      | .ok l _ => !d.poisoned (32 * l) 32 && !d.sramBad (32 * l) 32
      | .bad _ _ => false) = true) ∧
    (let d := ((wAtl.setReg (Reg.ATL_INT_EN) 0x10).setThr 1536 { wAtl.thr 1536 with sstatus := 3 })
     let d : Dev := { d with mgt := { d.mgt with timers := 1 } }
     (d.thr 1536).run = .running ∧ (d.thr 1536).slot = .none ∧ (d.thr 1536).clear = true ∧ (d.thr 1536).dbg = .none ∧
     bit (d.thr 1536).sstatus 1 = true ∧ d.intLine 0 4 = true ∧ d.rb Reg.ATL_INT_EN 4 = true ∧ d.coreClocked 1536 = true) := by
  decide +kernel

/-- A device whose brushes are all enabled, with thread 0's g1 at its operand block and g2 at its result block. -/
def wBr : Dev := ((List.range 7).foldl (fun (d : Dev) b => d.setRb (Reg.CLU_BRUSH_CTL 0) b true) wTask).setThr 0
  { ((wThr.setG 1 0x1000).setG 2 0x2000) with task := some wJob }
def wF : R3 := ⟨3, 1, 2⟩
def wF1 : R3 := ⟨3, 1, 0⟩

/-- `Dev.brushes` as a test. -/
def wBrushes (d : Dev) (t b fn : Nat) (f : R3) : Bool :=
  let th := d.thr t
  isThread t && !isAtl t && (d.issuable t && decide (d.bpMatch t = none) && decide (th.dbg = .none)) && decide (th.fly = []) &&
    decide ((brushFn b fn).res = 0 → f.rb = 0) && decide ((brushFn b fn).blk = false → f.ra = 0) &&
    decide (d.brushCheck t b fn (th.g f.ra.toNat) (th.g f.rb.toNat) = none) && d.rb (Reg.CLU_BRUSH_CTL (clusterOf t)) b &&
    decide (d.brushDepth (clusterOf t) b < brushEntries b) && !d.brushIllegal t b fn (th.g f.ra.toNat) &&
    d.drc.poison.isEmpty && decide (d.rf Reg.DRC_STATUS 23 16 = 0)

theorem sound_of_test {d : Dev} (h : d.drc.poison.isEmpty = true) (h' : d.rf Reg.DRC_STATUS 23 16 = 0) : d.sramSound := by
  intro a n
  simp [Dev.sramBad, Dev.poisoned, Dev.badWords, h, h']

theorem brushes_of_test {d : Dev} {t b fn : Nat} {f : R3} (h : wBrushes d t b fn f = true) : d.brushes t b fn f := by
  simp only [wBrushes, Bool.and_eq_true, decide_eq_true_eq, Bool.not_eq_true'] at h
  have hs := sound_of_test h.1.2 h.2
  simp only [Dev.brushes, Dev.ready]
  tauto

theorem witness_BrushEditHash : wBr.plainMem ∧ (∀ fn, fn < 3 → wBr.brushes 0 0 fn wF1) ∧
    (match editCanvas 0 (wBr.memRead (wBr.canvasAddr 0) 256) (wBr.brushBlock 0 0 0 0x1000) with
     | .ok _ => true
     | .error _ => false) = true ∧ ∀ fn, fn < 4 → wBr.brushes 0 2 fn wF := by
  refine ⟨?_, fun fn h => brushes_of_test ?_, ?_, fun fn h => brushes_of_test ?_⟩
  · unfold Dev.plainMem; decide +kernel
  · revert fn; decide +kernel
  · decide +kernel
  · revert fn; decide +kernel

/-- An Edit at the bottom of the header, with hdr_start 128 and hdr_end 200. -/
theorem witness_EditRules : let img := (List.replicate 256 (0 : Byte)).set 0xC3 128 |>.set 0xC4 200
    let blk := leBytes 4 (64 * 256 + 128) ++ zeros 64
    leAt blk 0 4 = 64 * 256 + 128 ∧ (byteAt img 0xC3).toNat = 128 ∧ (byteAt img 0xC4).toNat = 200 := by
  decide +kernel

def wMtr : Dev := (wBr.setRb Reg.MTR_CTL 0 true).setMeter 0 { wBr.meter 0 with cfg := [wd (2 ^ 31), 0, 0, 0] }

theorem witness_BrushEntries : (txnKey 0 (wMtr.thr 0) = some 0 ∧ (wMtr.txn 0).irrev ≠ .granted ∧ (wMtr.txn 0).ws.length < 48 ∧
    wMtr.vrn.cps = [] ∧ wMtr.meterOn 0 = true ∧ wMtr.rb Reg.MTR_CTL 0 = true) ∧ (∀ fn, fn < 2 → wMtr.brushes 0 3 fn wF1) ∧
    ∀ fn ∈ [0, 0x10, 0x11, 0x12, 0x13], wMtr.brushes 0 5 fn wF1 := by
  refine ⟨by decide +kernel, fun fn h => brushes_of_test ?_, fun fn h => brushes_of_test ?_⟩
  · revert fn; decide +kernel
  · revert fn; decide +kernel

theorem witness_BrushCompletions : (wBr.assignTok 0 (some 0)).isSome = true ∧ (∀ fn, fn < 2 → wBr.brushes 0 1 fn wF) ∧
    ∀ fn, fn < 2 → wBr.brushes 0 4 fn wF := by
  refine ⟨by decide +kernel, fun fn h => brushes_of_test ?_, fun fn h => brushes_of_test ?_⟩
  · revert fn; decide +kernel
  · revert fn; decide +kernel

/-- The thread of `wBr` one word earlier, with a load of 0x04 whose check fails (the worked example of R220). -/
def wAhead : Dev := wBr.setThr 0 { wBr.thr 0 with pc := (wBr.thr 0).pc - 4, fly := [.trap ⟨4, 1, false, 0⟩] }

theorem witness_BrushCompletions_ahead : (wAhead.thr 0).fly = [.trap ⟨4, 1, false, 0⟩] ∧ (wAhead.thr 0).slot = .none ∧
    (wAhead.thr 0).repLeft = 0 ∧ ((wAhead.updThr 0 (fun th => { th with pc := th.pc + 4, fly := [] })).assignTok 0 (some 0)).isSome = true ∧
    (wAhead.assignTok 0 (some 0)).isSome = true ∧
    ∀ fn, fn < 2 → (wAhead.updThr 0 (fun th => { th with pc := th.pc + 4, fly := [] })).brushes 0 1 fn wF := by
  refine ⟨by decide +kernel, by decide +kernel, by decide +kernel, by decide +kernel, by decide +kernel, fun fn h => brushes_of_test ?_⟩
  revert fn; decide +kernel

/-- The lookup holds its index until the load's trap squashes it (R220's worked example). -/
theorem test_lkup_ahead :
    ((brushCmd 0 0 1 0 wF wAhead).thr 0).fly.length = 2 ∧ ((brushCmd 0 0 1 0 wF wAhead).assignTok 0 (some 0)) ≠ wAhead.assignTok 0 (some 0) ∧
    ((accessCheckComplete 0 0 (brushCmd 0 0 1 0 wF wAhead)).assignTok 0 (some 0)) = wAhead.assignTok 0 (some 0) := by
  decide +kernel

/-- Channel 0 enabled with room; the open message holds 15 words and one more is to be put. -/
def wMsg (m : Option OpenMsg) : Dev :=
  let d := wBr.setReg (Reg.CLU_MSG_CFG 0 0) (wd (2 ^ 31))
  (d.memWrite (cluBase 0 + 0x1000) [1]).setThr 0 { d.thr 0 with msg := m }

theorem witness_BrushMessages : (wMsg none).brushes 0 6 0 wF1 ∧ ((wMsg none).thr 0).msg = none ∧ (wMsg none).chanEnabled 0 = true ∧
    (wMsg (some ⟨0, List.replicate 15 0⟩)).brushes 0 6 1 wF1 ∧ leAt ((wMsg none).brushBlock 0 6 1 0x1000) 0 1 % 32 = 1 ∧
    (wMsg (some ⟨0, []⟩)).brushes 0 6 2 ⟨3, 0, 0⟩ ∧ ((wMsg none).txn 0).ws = [] ∧
    (∀ b, b < 7 → (wMsg none).brushes 0 b 0x3FE ⟨3, 4, 0⟩) ∧ (∀ b, b < 7 → (wMsg none).brushes 0 b 0x3FF ⟨3, 4, 0⟩) ∧
    (readImage 6 (((wMsg none).memWrite (cluBase 0) (msgImage none)).brushBlock 0 6 0x3FF 0)).1 = true := by
  refine ⟨brushes_of_test (by decide +kernel), by decide +kernel, by decide +kernel, brushes_of_test (by decide +kernel), by decide +kernel,
    brushes_of_test (by decide +kernel), by decide +kernel, fun b h => brushes_of_test ?_, fun b h => brushes_of_test ?_, by decide +kernel⟩
  · revert b; decide +kernel
  · revert b; decide +kernel

/-- A receive on channel 0, which is empty, with a deadline of 5 ns, and one that has reached its deadline. -/
theorem witness_BrushReceive : let d := wMsg none
    let e := (d.memWrite (cluBase 0 + 0x1000) [0, 0, 0, 0, 5])
    e.brushes 0 6 3 wF ∧ (e.assignTok 0 (some 0)).isSome = true ∧ txnKey 0 (e.thr 0) = some 0 ∧
    leAt (e.brushBlock 0 6 3 0x1000) 0 2 % 2048 = 0 ∧ e.chanEnabled 0 = true ∧ e.chanRing 0 = false ∧ (e.chan 0).lens = [] ∧
    leAt (e.brushBlock 0 6 3 0x1000) 4 4 = 5 ∧
    (let r : Recv := { cluster := 23, token := 65535, channel := 0, result := 0, deadline := 0, txn := none, gone := false }
     [r].find? (fun r => decide (r.cluster = 23 ∧ r.token = 65535 ∧ r.deadline ≤ 0)) = some r) := by
  refine ⟨brushes_of_test (by decide +kernel), by decide +kernel⟩

/-! ### The whole machine -/

theorem witness_StepRunsFront : ({ State.reset with pending := [.thermtrip] } : State).pending = .thermtrip :: [] := rfl

theorem witness_IdleStepTicks : State.reset.pending = [] ∧ State.reset.clk.ok = true ∧ Dev.reset.pins.resetN = true ∧ (resetAssert Dev.reset).pins.resetN = false ∧
    (Dev.reset.setReg Reg.GLB_CLK_STATUS 0x2FFFFFFF).rb Reg.GLB_CLK_STATUS 29 = true ∧ Dev.reset.rb Reg.GLB_CLK_STATUS 29 = false ∧
    Dev.reset.pins.refclk = true := by decide +kernel

theorem witness_CommandsAnswer : Instr.wf .thermtrip = true ∧ Instr.wf (.istOut 4 0) = false := by decide

theorem witness_TimeStaysInRange : State.reset.clk.ok = true ∧ ∃ t, step State.reset = .next t := ⟨by decide +kernel, _, rfl⟩

theorem witness_TimeMovesOnlyByTime : setsTime .thermtrip = false ∧ ∃ t, exec .thermtrip State.reset = .next t := ⟨rfl, _, rfl⟩

theorem witness_FusesOnlyGain_MeasurementsKept : ∃ t, step { State.reset with pending := [.resetNAssert] } = .next t := ⟨_, rfl⟩

theorem witness_MemoryWrites : Memory.wf Dev.reset.mem = true ∧ Dev.reset.plainMem := by unfold Dev.plainMem; decide +kernel

theorem witness_NegCorners : wCore.ready 0 ∧ (0x19 : BitVec 10).toNat / 64 % 8 = 0 ∧ (0x19 : BitVec 10).toNat % 64 = 0x19 := by
  unfold Dev.ready; decide +kernel

/-! ### Supplies, boot, the link and time -/

theorem witness_SystemSupplies : let up := Dev.reset.pins
    (vddIoLoss Dev.reset).pins.vddIo = false ∧ (vddIoGood (vddIoLoss Dev.reset)).pins.vddIo = true ∧
    (vddIoGood (vddIoLoss Dev.reset)).pins.vddCore = false ∧ up.vddIo = true ∧ up.vddCore = true ∧
    (resetAssert Dev.reset).pins.resetN = false ∧ Dev.reset.stage = 0 ∧ up.resetN = true ∧ up.refclk = true := by decide +kernel

def wStage (n : Nat) : Dev := Dev.reset.setRf Reg.GLB_RUN_STATE 3 0 n

/-- Stage 0x1 with each BOOT_SEL, without an image that verifies, and with the host boot waiting. -/
theorem witness_SystemBoot : (wStage 1).primerRuns 0 = true ∧ (wStage 1).rb Reg.ATL_BOOT 30 = false ∧ (wStage 1).mgt.bootSel = 0 ∧
    (∀ n ∈ [1, 2, 3], (({ wStage 1 with mgt := { (wStage 1).mgt with bootSel := n } } : Dev).mgt.bootSel = n ∧
      ({ wStage 1 with mgt := { (wStage 1).mgt with bootSel := n } } : Dev).primerRuns 0 = true)) ∧
    chooseImage State.reset.idn [] [] = none ∧
    (let d := (wStage 1).setReg Reg.ATL_BOOT 0xC0000000
     d.primerRuns 0 = true ∧ d.rb Reg.ATL_BOOT 30 = true ∧ d.rb Reg.ATL_BOOT 31 = true) := by decide +kernel

/-- A reboot of the Atelier in stage 0x2; an image of no bytes does not verify. -/
theorem witness_BootCommands : (let d : Dev := { wStage 2 with mgt := { (wStage 2).mgt with reboot := true } }
    d.primerRuns 0 = false ∧ d.mgt.reboot = true ∧ d.rb Reg.ATL_BOOT 30 = false) ∧ imageOk State.reset.idn [] = false := by decide +kernel

theorem witness_PowerFailure : Dev.reset.pins.pwrfailN = true ∧ Dev.reset.mgt.fix = none ∧ 2 ≤ (wStage 2).stage ∧
    (let d : Dev := { wStage 2 with mgt := { (wStage 2).mgt with fix := some ⟨0, true, true⟩ }, pins := { pinsUp with pwrfailN := false } }
     d.mgt.fix = some ⟨0, true, true⟩ ∧ 0 + 2000000 ≤ 2000000 ∧ d.stage ≠ 4 ∧ d.pins.vddIo = true ∧ d.pins.vddCore = true ∧
     d.pins.pwrfailN = false) := by decide +kernel

theorem witness_ThermtripAndClocks : (Dev.reset.setReg Reg.GLB_CLK_STATUS 0x20000000).rb Reg.GLB_CLK_STATUS 29 = true := by decide +kernel

theorem witness_HostLink : (Dev.reset.setReg (Reg.HST_GRP_W15 3) 0x80000000).grpRuns 3 = true := by decide +kernel

theorem witness_TimeCommands : Dev.reset.pins.resetN = true ∧ State.reset.clk.ok = true ∧ (Dev.reset.reg Reg.TIM_T_NS).toNat < 1000000000 ∧
    1000000000 ≤ ((Dev.reset.setReg Reg.TIM_T_NS 1000000000).reg Reg.TIM_T_NS).toNat ∧
    (let d := Dev.reset.setReg Reg.TIM_PPS_OUT 0x80000000
     d.ppsRises { State.reset.clk with edge := true } = true ∧ d.ppsByTime = true ∧
     ({ d with prt := { d.prt with pps := true } } : Dev).prt.ppsFall ≤ 0) ∧
    (let d := Dev.reset.setReg Reg.TIM_CTL 2
     d.rb Reg.TIM_CTL 1 = true ∧ d.rb Reg.TIM_PPS_IN_STATUS 31 = false ∧
     (d.setReg Reg.TIM_PPS_IN_STATUS 0x80000000).rb Reg.TIM_PPS_IN_STATUS 31 = true) := by decide +kernel

/-! ### Ports -/

/-- Port 31 (the last fabric port) and port 32 (the first slot port) with one lane each, in a state. -/
def wPort (p kind st : Nat) : Dev := Dev.reset.setReg (Reg.PRT_PORT_W2 p) (wd (st * 2 ^ 28 + kind * 2 ^ 16 + 1))
def wEnt (p kind : Nat) : PortEnt := { port := p, kind := kind, code := 1, engine := 0, maxFrame := 9216, preset := 0, flags := 1, rate := 0 }
def wProf (ps : List PortEnt) (rs : List RingEnt) (ls : List LineEnt) : Profile :=
  { seq := 1, devNum := 0, sysSize := 0, spareA := 255, spareB := 255, pps := 0x80, ports := ps, rings := rs, drams := [], pools := [], resvs := [],
    lines := ls, digest := [] }
def wHas (p : Profile) (d : Dev) : Dev := { d with prf := { d.prf with inForce := some p } }

theorem witness_PortBringUp : (∀ p ∈ [31, 32], (wPort p 1 1).lanePort p = some p ∧ (wPort p 1 1).prtState p = 1 ∧
      (wPort p 1 3).prtState p = 3 ∧ tget 0 (wPort p 1 3).prt.align_ p + 1000000 ≤ 1000000 ∧ (wPort p 1 4).prtState p = 4 ∧
      (∀ k ∈ (wPort p 1 1).prtLanes p, k ≠ p → (wPort p 1 1).rb (Reg.PRT_LANE_W1 k) 31 = true) ∧
      (wHas (wProf [wEnt p 1] [] []) ((wPort p 1 1).setReg Reg.PRT_CTL 1)).mayBringUp p = true) ∧ (wPort 31 1 2).prtState 31 = 2 ∧
    (∀ p ∈ [31, 32], tget 0 (wPort p 1 3).prt.detect p + (if p < 32 then 1000000000 else 100000000) ≤ 1000000000) := by
  decide +kernel

/-- A 64-byte Ethernet frame with its FCS, and one whose FCS is wrong. -/
theorem witness_FrameReceive : let body := zeros 60
    let frame := body ++ fcsBytes body
    let d := (wPort 31 1 4)
    d.prtState 31 = 4 ∧ d.portChanging 31 = false ∧ frame.length = 64 ∧ 64 ≤ d.maxFrame 31 ∧ d.prtKind 31 = 1 ∧ d.fifoRoom 31 60 = true ∧
    (wPort 31 1 5).prtState 31 = 5 ∧ fcsBytes (zeros 60) ≠ zeros 4 := by decide +kernel

/-- A frame of 20 header bytes at the head of a port's egress FIFO, in buffer 1 of a packet-memory pool. -/
def wItem (n : Nat) : TmItem := { handle := 1, head := 1, len := n, pktLen := 0, at_ := 0, staged := true, recircs := 0, recirc := 0 }
def wPool (d : Dev) : Dev :=
  let d := (d.setReg (Reg.PAL_POOL_W0 0) (wd (2 ^ 31 + 8))).setReg (Reg.PAL_POOL_W1 0) (wd (pmBase % 2 ^ 32))
  ((d.setReg (Reg.PAL_POOL_W2 0) (wd (pmBase / 2 ^ 32))).setReg (Reg.PAL_POOL_W3 0) 4).memWrite (pmBase + 0xF8) [20]
def wOut (p : Nat) (sent : Bool) (d : Dev) : Dev :=
  let d := wPool d
  { d with tmg := { d.tmg with egress := tset [] d.tmg.egress p [⟨wItem 20, 0, sent, 0⟩] } }

theorem witness_FrameTransmit : let x : Egress := ⟨wItem 20, 0, false, 0⟩
    let d := wOut 31 false (wPort 31 1 4)
    d.nextEgress 31 = some x ∧ d.mayLeave 31 0 x = true ∧ (d.frameBytes x.item).length = 20 ∧ 20 + 4 ≤ d.maxFrame 31 ∧
    d.frameBad x.item = false ∧ d.prtState 31 = 4 ∧ ((wPort 31 1 4).frameBytes x.item).length = 0 ∧
    tget [] (wOut 31 true Dev.reset).tmg.egress 31 = [{ x with sent := true }] := by decide +kernel

/-! ### The Stencil -/

/-- Lane 0 (port 80) of slot 0 of engine 0, in service with a code whose words are free characters; the engine runs. -/
def wLine : LineEnt := { port := 80, w1 := 0, w2 := 0, w3 := 0 }
def wRing : RingEnt := { pair := 0, engine := 0, west := 80, east := 81, half := 1, westSlot := 0, eastSlot := 1 }
def wStnOn (rs : List RingEnt) : Dev :=
  let d := wHas (wProf [wEnt 80 5, wEnt 81 5] rs [wLine]) Dev.reset
  let d := ((d.setReg Reg.STN_CTL 1).setReg (Reg.STN_ENG_W3 0) (wd (2 ^ 30 + 2 ^ 20))).setReg Reg.GLB_CLK_STATUS 0x3FFFFFFF
  (d.setReg (Reg.STN_LANE_W0 0) (wd (2 ^ 31 + 0x3F * 2 ^ 16))).setReg (Reg.STN_LANE_W0 1) (wd (2 ^ 31 + 0x3F * 2 ^ 16 + 2 ^ 12))
def wStn : Dev := wStnOn []

theorem witness_StencilAlu_Words : wStn.nextSlot 0 = some 0 ∧ wStn.slotLane 0 0 = some 0 ∧ wStn.engineRuns 0 = true ∧
    stnUndefined 0xFFFF = true := by decide +kernel

theorem witness_StencilWords_staged : let d := wStn.setSlot 0 0 { Slot2.reset with staged := some ⟨2, [1], [2], 5, false⟩ }
    d.nextSlot 0 = some 0 ∧ (d.slot 0 0).staged = some ⟨2, [1], [2], 5, false⟩ := by decide +kernel

theorem witness_StencilReceive : let sym : Sym := ⟨1, 0, 0⟩
    let fr : HFrame := ⟨[], 0, 0, 0, 0, false, false⟩
    let has := fun (x : Slot2) => wStn.setSlot 0 0 x
    wStn.laneUp 0 = true ∧ wStn.laneUp 31 = false ∧ wStn.stage ≠ 4 ∧ wStn.loops 0 = false ∧ wStn.portChanging 80 = false ∧
    wStn.laneEngine 0 = 0 ∧ wStn.laneSlot 0 = 0 ∧ wStn.notInserted 80 = false ∧ wStn.portPair 80 = none ∧
    ((has { Slot2.reset with rxf := List.replicate 63 sym }).slot 0 0).rxf.length < 64 ∧
    64 ≤ ((has { Slot2.reset with rxf := List.replicate 64 sym }).slot 0 0).rxf.length ∧
    ((has { Slot2.reset with moving := 2 }).slot 0 0).moving = 1 + 1 ∧
    (let d := has { Slot2.reset with wait := .rxrun 3, rxf := [⟨0x8000, 0, 0⟩], frame := some fr }
     d.engineRuns 0 = true ∧ (d.slot 0 0).wait = .rxrun 3 ∧ (⟨0x8000, 0, 0⟩ : Sym).clean = false) ∧
    (∀ x ∈ [{ Slot2.reset with rxf := [sym] }, { Slot2.reset with frame := some fr }, { Slot2.reset with frame := some fr, rxf := [sym] },
      { Slot2.reset with moving := 2 }, { Slot2.reset with frame := some { fr with long := true } }], (has x).nextSlot 0 = some 0) ∧
    sym.clean = true ∧ (wStn.slotChars 0 0).1 = false ∧ ([] : List Byte).length < (wStn.slotChars 0 0).2 := by decide +kernel

/-- Cells of an asynchronous lane that give nothing and a symbol, and of an HDLC lane that give an edge violation. -/
theorem witness_StencilReceive_cells : let s : LaneSet := ⟨0x30, 0x30, false, false, 8, 0, 0, 0⟩
    let r1 := ({ RxLine.reset with n := 1 } : RxLine).cell s ⟨7, none⟩
    let r2 := ({ RxLine.reset with n := 9 } : RxLine).cell s ⟨7, none⟩
    let r3 := RxLine.reset.cell { s with code := 0x31, codec := 0x31 } ⟨7, some (100, 0)⟩
    r1.syms = [] ∧ r1.viol = 0 ∧ r2.syms.length = 1 ∧ r2.viol = 0 ∧ r3.syms = [] ∧ r3.viol = 1 := by decide +kernel

theorem witness_StencilTransmit : let g : Staged := ⟨1, [], [], 5, true⟩
    let has := fun (x : Slot2) => wStn.setSlot 0 0 x
    wStn.laneUp 0 = true ∧ wStn.loops 0 = false ∧ wStn.stage ≠ 4 ∧ wStn.notInserted 80 = false ∧ (wStnOn [wRing]).notInserted 80 = true ∧
    symItem 0x41 = some (.data 0x41) ∧ wStn.turning 0 .idle = false ∧ wStn.turning 0 .opening = false ∧
    (let d := has { Slot2.reset with wait := .txrun 1, staged := some g, opened := true }
     d.engineRuns 0 = true ∧ (d.slot 0 0).staged = some g ∧ d.slotLane 0 0 = some 0) ∧
    (let d := wOut 80 false wStn
     tget [] d.tmg.egress 80 = [⟨wItem 20, 0, false, 0⟩] ∧ d.spillWaits 80 1 = false ∧ d.frameBad (wItem 20) = false ∧
     16 ≤ (d.frameBytes (wItem 20)).length) ∧
    ((has { Slot2.reset with wait := .waitc 0 }).slot 0 0).free = true ∧ ((has { Slot2.reset with wait := .waitt 0 }).slot 0 0).free = true ∧
    (has { Slot2.reset with txf := List.replicate 63 0 }).nextSlot 0 = some 0 ∧
    (has { Slot2.reset with txf := List.replicate 64 0 }).nextSlot 0 = some 0 ∧
    wStn.rf (Reg.STN_LANE_W0 0) 23 16 = 0x3F := by decide +kernel

theorem witness_StencilEngines : let d := wStnOn [wRing]
    d.nextSlot 0 = some 0 ∧ wStn.enginePair 0 = none ∧ d.enginePair 0 = some 0 ∧ (d.hb 0).stopped = false ∧
    wStn.rb Reg.DBG_CTL 1 = false ∧ (wStn.setReg Reg.DBG_CTL 2).rb Reg.DBG_CTL 1 = true ∧ (wProf [] [] []).pps = 0x80 + 0 ∧
    (let u := wStn.setReg (Reg.STN_ENG_W3 0) 0
     u.pins.resetN = true ∧ u.rb (Reg.STN_ENG_W0 0) 31 = false ∧ u.rb Reg.STN_CTL 0 = true) ∧ wStn.rb (Reg.STN_ENG_W3 0) 30 = true ∧
    (let u := d.setReg (Reg.STN_HB 1) 0xC0000000
     u.hbToggling 1 = true ∧ u.hbArmed 1 = true ∧ (u.hb 1).next ≤ 0 ∧ (u.hb 1).lapse ≤ 0 ∧ u.rb Reg.GLB_CLK_STATUS 28 = true ∧
     u.tapFree = true) ∧
    (d.setReg (Reg.PRT_RING_W1 0) 1).ringState 0 = 1 ∧ (d.setReg (Reg.PRT_RING_W1 0) 2).ringState 0 = 2 := by decide +kernel

/-! ### Locks and the traffic manager -/

def wReq (a : Nat) (acq : Bool) : LockReq := ⟨0, 5, a, acq⟩
def wLku (l : Lock) (rs : List LockReq) : Dev :=
  let d := wCore.setReg Reg.LKU_CTL 0x10000
  ({ d with lku := { d.lku with reqs := rs } } : Dev).setLock 0 l

theorem witness_LockUnit : (wLku ⟨some 5, false, []⟩ [wReq 0 true]).lku.reqs = [wReq 0 true] ∧
    (∀ l ∈ [Lock.free, ⟨none, true, []⟩, ⟨some 5, false, []⟩, ⟨some 6, false, []⟩, ⟨some 5, false, [⟨0, 6, 0⟩]⟩], (wLku l []).lock 0 = l) ∧
    (wLku Lock.free []).lku.locks.length < 8192 ∧ (wLku Lock.free []).rb Reg.LKU_CTL 16 = true ∧ wCore.rb Reg.LKU_CTL 16 = false ∧
    ((wLku ⟨some 5, false, [⟨0, 6, 0⟩]⟩ []).lku.locks.find? (fun e => e.2.waiters.any (fun x => decide (x.thread = 0 ∧ x.until_ ≤ 0)))).isSome = true ∧
    (let l : Load := ⟨1, 0, semBase + 0x100 * 255, 4, false, false, false, none⟩
     let d := (wLku Lock.free []).setThr 0 { wThr with load := some l }
     d.txnRuns 0 = true ∧ d.lku.reqs = [] ∧ (d.thr 0).load = some l) ∧
    ((wReq (semBase + 0x100 * 255 + 4) false).addr = semBase + 0x100 * 255 + 4) ∧
    ((wLku Lock.free []).lock 0).holder.getD 0 < 2 ^ 16 := by decide +kernel

/-- Queue 0 of subscriber 0, service 0 and heritage port 80, enabled, with one packet. -/
def wTm : Dev :=
  let w : List Word := [wd (2 ^ 31), 0, 0, 0, 0, 100, 100, 100]
  let d := (wStn.setReg Reg.TMG_CTL 1).setObj 0 0 w
  let d := ((d.setObj 1 0 w).setObj 2 0 (w.set 0 (wd (2 ^ 31 + 80)))).setObj 3 80 (w.set 5 0)
  d.setQueue 0 { TmQueue.empty with items := [wItem 20], bytes := 20, cells := 1 }

theorem witness_TrafficQueues : (let e := ((wTm.examine 0 80).dropNofit 0 80 65536).gateTend 0 80
     wTm.rb Reg.TMG_CTL 0 = true ∧ e.portReady 0 80 = true ∧ (e.choose 0 0 80).isSome = true ∧ e.portUp 80 = true) ∧
    (let d := (wTm.setObj 7 4095 [5, 0, 0, 0, 0, 0, 0, 0]).setRecov 4095 { Recov.init with reset := false }
     fld (d.ow 7 4095 0) 19 0 ≠ 0 ∧ (d.recov 4095).reset = false ∧ (d.recov 4095).last + 1000 * 5 ≤ 5000) ∧
    (let d := wTm.setTxn 6143 { wTxn with phase := .committing, enqs := [.enq 0 1 0] }
     (d.txn 6143).phase = .committing ∧ d.oldestHandoff 6143 = true ∧ d.pathOn 0 = true ∧ fld (d.ow 0 0 5) 19 0 ≠ 0 ∧
     (d.queue 0).bytes + d.frameLen 0 0 ≤ 256 * fld (d.ow 0 0 5) 19 0) ∧
    wTm.rf Reg.DRC_FREQ_STATUS 31 28 ≠ 4 ∧ wTm.drc.reqs = [] ∧
    (let d := (((wTm.setReg Reg.TMG_SWATCH_CTL 0x80000001).setReg Reg.TMG_SWATCH_SIZE 4).setReg Reg.TMG_SWATCH_RANGE 0)
     d.rb Reg.TMG_SWATCH_CTL 31 = true ∧ d.rf Reg.TMG_SWATCH_CTL 19 0 ≠ 0 ∧ d.tmg.swatchEnd ≤ 0 ∧ d.rb Reg.TMG_SWATCH_CTL 30 = false ∧
     d.rf Reg.TMG_SWATCH_WIDX 23 0 + 1 < d.rf Reg.TMG_SWATCH_SIZE 23 0) := by decide +kernel

theorem witness_TrafficObjects : (let d := Dev.reset.setReg Reg.TMG_OBJ_SEL 65535
     d.pins.resetN = true ∧ d.rf Reg.TMG_OBJ_SEL 31 28 = 0 ∧ d.rf Reg.TMG_OBJ_SEL 16 0 < objCount 0 ∧ d.objOn 0 65535 = false ∧
     d.objRefused 0 65535 ((List.range 8).map (fun w => d.reg (Reg.TMG_OBJ_DATA w))) = false ∧
     (d.setObj 0 65535 [wd (2 ^ 31)]).objOn 0 65535 = true) ∧
    (let d := (wPort 79 3 4).setObj 5 79 [1, 1000, 0, 0, 0, 0, 0, 0] |>.setReg Reg.TMG_OBJ_SEL (wd (5 * 2 ^ 28 + 79))
     d.rf Reg.TMG_OBJ_SEL 31 28 = 5 ∧ d.rf Reg.TMG_OBJ_SEL 16 0 = 79 ∧ d.portEthernet 79 = true ∧ fld (d.ow 5 79 1) 29 0 = 1000) ∧
    (Dev.reset.setReg Reg.MTR_SEL 0x80000000).rb Reg.MTR_SEL 31 = true ∧ Dev.reset.rf Reg.MTR_SEL 20 0 < 2 ^ 20 ∧ Dev.reset.stage ≠ 3 ∧
    meterBad [0, 0, 0, 0] = false ∧
    (let g : GateRun := { GateRun.off with pending := some 0, oper := [(255, 16)], cycle := 1000 }
     ((Dev.reset.setGate 79 g).gate 79).pending = some 0 ∧ ((Dev.reset.setGate 79 g).gate 79).oper ≠ []) := by decide +kernel

/-! ### Management, power, service and debug -/

theorem witness_GmpRequests : Dev.reset.targetUp = true ∧ Dev.reset.answersTo 0x4C = true ∧ Dev.reset.answersTo 0x4D = false ∧ (∀ code, code < 12 → crc8 0 (leBytes 1 code ++ leBytes 1 0 ++ []) < 256) ∧
    Dev.reset.pins.resetN = true ∧ (resetAssert Dev.reset).targetUp = true ∧ (resetAssert Dev.reset).pins.resetN = false ∧
    Dev.reset.mgt.quotes.any (fun q => q.ring.isNone) = false ∧ leAt [0xEF, 1] 0 2 < 496 ∧ leVal [0xFF, 0xFF, 0xFF, 3] < 2 ^ 26 := by
  decide +kernel

theorem witness_I3cAndAtelier : Dev.reset.targetUp = true ∧ (vddIoLoss Dev.reset).targetUp = false ∧ Dev.reset.rb Reg.MGT_I3C_STATUS 8 = false ∧
    (Dev.reset.setReg Reg.MGT_I3C_STATUS 0x180).rb Reg.MGT_I3C_STATUS 8 = true ∧
    (let d : Dev := { Dev.reset.setReg Reg.MGT_I3C_STATUS 0x180 with mgt := { Dev.reset.mgt with ibi := some (3, 1) } }
     d.mgt.ibi = some (3, 1) ∧ d.rb Reg.MGT_I3C_STATUS 7 = true) ∧ Dev.reset.pins.resetN = true ∧
    (let d := (wHas (wProf [] [] []) (wStage 2)).setReg Reg.DRC_STATUS 0x01000001
     d.stage = 2 ∧ d.prf.inForce ≠ none ∧ d.rb Reg.DRC_STATUS 0 = true ∧ d.rf Reg.DRC_STATUS 31 24 ≠ 0) := by decide +kernel

/-- Cluster 23 clocked at point 5, gated, and with an error window that is full. -/
def wClp (x : ClPwr) : Dev :=
  let d := (wIcache.setReg (Reg.PWR_CL_W0 23) 0x95)
  { d with pwr := { d.pwr with cl := [(23, x)] } }

theorem witness_PowerUnit : (let x := Dev.reset.clp 23
    let d := wClp { x with cur := 5, maxOk := 9 }
    d.pins.resetN = true ∧ d.inBist 23 = false ∧ 4 ≠ d.rf (Reg.PWR_CL_W0 23) 3 0 ∧ (d.clp 23).next = none ∧ d.pwrfailOn = false ∧ d.cluClocked 23 = true ∧
    d.rb (Reg.PWR_CL_W0 23) 30 = false ∧ 4 ≤ min (min (min 9 (d.rf (Reg.PWR_CL_W0 23) 7 4)) (d.clp 23).maxOk) d.lpCap) ∧
    (let x := Dev.reset.clp 23
     ((wClp { x with next := some 4 }).clp 23).next = some 4 ∧ ((wClp { x with gating := true }).clp 23).gating = true ∧
     (wClp { x with gating := true }).cluEmpty 23 = true ∧ ((wClp { x with waking := true }).clp 23).waking = true ∧
     ((wClp x).setReg (Reg.PWR_CL_W0 23) 0x40000095).rb (Reg.PWR_CL_W0 23) 30 = true) ∧
    Dev.reset.vcoreGoal < 1024 ∧ Tab.wf (fun _ => Txn.reset) Dev.reset.vrn.txns = true ∧
    (let d := (((wClp { Dev.reset.clp 23 with commits := 2 ^ 31, cur := 2, maxOk := 9 }).setReg Reg.PWR_CTL 0x3).setReg (Reg.PWR_CL_W0 23) 0x80000092).setReg (Reg.CLU_FREE_LIMIT 23) 0
     d.speculates 23 = true ∧ (d.clp 23).winAt + 2 ^ d.rf Reg.PWR_LOOP 28 24 ≤ (d.clp 23).commits) ∧
    (let d := (Dev.reset.setReg Reg.PWR_CTL 4)
     d.rb Reg.PWR_STATUS 30 = false ∧ d.rb Reg.PWR_CTL 2 = true ∧ d.rf Reg.PWR_THERM 23 16 < 255 ∧
     (d.setReg Reg.PWR_STATUS 0x40000000).rb Reg.PWR_STATUS 30 = true ∧ 0 + 3 < d.rf Reg.PWR_THERM 23 16 ∧ d.pwr.lastStep = none) ∧
    (Dev.reset.setReg Reg.PWR_RAIL_STATUS 0x0FFF0000).rb Reg.PWR_RAIL_STATUS (16 + 11) = true ∧ (resetAssert Dev.reset).pins.resetN = false := by
  decide +kernel

theorem witness_ServiceAndDebug : (let d : Dev := { Dev.reset with flt := { Dev.reset.flt with inbox := [⟨Src.pwrfail, 0, false⟩] } }
    d.flt.inbox = [⟨Src.pwrfail, 0, false⟩] ∧ srcListed Src.pwrfail = true ∧ Src.pwrfail < 256 ∧
    (∀ v, v < 6 → (d.setReg (Reg.FLT_SEV Src.pwrfail) (wd v)).rf (Reg.FLT_SEV Src.pwrfail) 2 0 = v) ∧ d.rb Reg.FLT_FIRST_STATUS 31 = false) ∧
    (let d : Dev := { wCore with flt := { Dev.reset.flt with drains := [⟨23, some 0, none⟩], bist := some (1, 1) } }
     (d.flt.drains.find? (fun y => decide (y.cluster = 23))).isSome = true ∧ 0 + 1000 * d.rf Reg.FLT_CTL 15 0 ≤ 65535000 ∧
     d.vrn.txns = [] ∧ d.flt.bist = some (1, 1) ∧ istUnit 1 1 = true) ∧
    (let d := wCore
     d.pins.resetN = true ∧ istUnit 0 21 = true ∧ d.rb Reg.FLT_IST_STATUS 31 = false ∧ d.unitFailed 0 21 = false ∧
     (let e := d
      e.lastUnit 0 21 = false ∧ e.cluServes 21 = true ∧ e.unitFailed 0 21 = false) ∧
     (let e := d.setReg (Reg.FLT_UNITS 0) 0x00200000
      e.unitFailed 0 21 = false ∧ e.unitIn 0 21 = false) ∧
     (d.setReg (Reg.FLT_UNITS 2) 0x00200000).unitFailed 0 21 = true) ∧
    (let d := wTask
     d.tgt = some (.cluster 0) ∧ d.tgtOff (.cluster 0) = false ∧ d.tgtRuns (.cluster 0) = true ∧ d.tgtDbg (.cluster 0) = .none ∧
     txnKey 0 (d.thr 0) = some 0 ∧ (d.txn 0).phase = .active ∧ (wCore.thr 0).hasTxn = false) ∧
    (let d := wTask.setThr 0 { wThr with dbg := .halted true } |>.setReg Reg.DBG_CTX_IDX 15
     d.tgtDbg (.cluster 0) = .halted true ∧ d.tgtRuns (.cluster 0) = true ∧ d.rf Reg.DBG_CTX_IDX 5 0 = 15) ∧
    Dev.reset.rb Reg.DBG_LANE_TEST 31 = false ∧
    (let d := wTask.setThr 0 { wThr with dbg := .pending true, task := some wJob }
     let p := d.setThr 0 { d.thr 0 with dbg := .pending false }
     let q := d.setThr 0 { d.thr 0 with fly := [.trap ⟨3, 3, false, 1⟩] }
     (d.thr 0).dbg = .pending true ∧ (d.thr 0).slot = .none ∧ (d.thr 0).clear = true ∧ (txnKey 0 (d.thr 0)).isSome = true ∧
     (d.thr 0).run = .running ∧ (p.thr 0).clear = true ∧ (p.thr 0).dbg = .pending false ∧ (q.thr 0).clear = false ∧
     (q.thr 0).dbg = .pending true) ∧
    (let d : Dev := { Dev.reset with pins := { Dev.reset.pins with faultEnd := some 0 } }
     d.pins.faultEnd = some 0) := by decide +kernel

theorem witness_AccessCommands : Dev.reset.rb Reg.DBG_CTL 0 = false ∧ (Dev.reset.setReg Reg.DBG_CTL 1).rb Reg.DBG_CTL 0 = true ∧
    Dev.reset.pins.resetN = true ∧ (wStage 3).forwarding = true ∧
    regDesc 0x3FFFFFC = none ∧ Dev.reset.pairLow 0x3FFFFFC = false ∧ Dev.reset.pairHigh 0x3FFFFFC = false ∧
    Dev.reset.pairLow Reg.VRN_COMMIT_CNT_LO = true ∧ (regDesc Reg.VRN_COMMIT_CNT_LO).isSome = true ∧
    Dev.reset.pairHigh (Reg.VRN_COMMIT_CNT_LO + 4) = true ∧ Dev.reset.pairLow (Reg.VRN_COMMIT_CNT_LO + 4) = false ∧
    (let d := { Dev.reset with hold := tset none Dev.reset.hold (holdKey .host false Reg.VRN_COMMIT_CNT_LO) (some 7) }
     tget none d.hold (holdKey .host false Reg.VRN_COMMIT_CNT_LO) = some 7) ∧
    (Dev.reset.setReg Reg.DRC_STATUS 0x80000001).usable 7 = true ∧
    (let d := (Dev.reset.setReg (Reg.HST_GRP_W15 14) 0x80000000).setGrp 14 { Grp.reset with reading := true }
     d.grpRuns 14 = true ∧ (d.grp 14).reading = true) := by decide +kernel

/-! Allocation from a pool of one buffer. -/

theorem take_one {d : Dev} {o p : Nat} (c : Charge) (hn : d.poolCount p = 1) (hf : d.bufFree (mkHandle p 1) = true)
    (hd : d.poolDram (hPool (mkHandle p 1)) = false) : ∃ e, d.take o p c = some (mkHandle p 1, e) ∧ e.regs = d.regs := by
  have hf' : ({ d with free := d.free + 1 } : Dev).bufFree (mkHandle p 1) = true := hf
  refine ⟨_, by simp [Dev.take, Dev.pick, hn, findCyclic, findNat, Nat.mod_one, hf']; rfl, ?_⟩
  simp only [Dev.setDs, Dev.setDesc]
  split
  · rename_i h
    have h' : d.poolDram (hPool (mkHandle p 1)) = true := h
    rw [hd] at h'
    cases h'
  · rfl

theorem alloc_one {d : Dev} {o p : Nat} (hc : d.rb Reg.PAL_CTL 0 = true) (hv : d.poolValid p = true) (hn : d.poolCount p = 1)
    (hf : d.bufFree (mkHandle p 1) = true) (hs : d.used o p .shared < d.ownCap o p ∧ d.shFree p)
    (hd : d.poolDram (hPool (mkHandle p 1)) = false) : ∃ e, d.alloc false o p = some (mkHandle p 1, e) ∧ e.regs = d.regs := by
  have ht : ∃ e, d.takePool false o p = some (mkHandle p 1, e) ∧ e.regs = d.regs := by
    obtain ⟨e, he, hr⟩ := take_one (o := o) .shared hn hf hd
    obtain ⟨r, hr', hq⟩ := take_one (o := o) .reserve hn hf hd
    by_cases hu : d.used o p .reserve < d.ownMin o p
    · exact ⟨r, by simp [Dev.takePool, hu, hr'], hq⟩
    · exact ⟨e, by simp [Dev.takePool, hu, hs, he], hr⟩
  obtain ⟨e, he, hr⟩ := ht
  exact ⟨e, by simp [Dev.alloc, hc, Dev.allocFrom, hv, he], hr⟩

theorem allocChain_one {d : Dev} {o p n : Nat} (hc : d.rb Reg.PAL_CTL 0 = true) (hv : d.poolValid p = true) (hn : d.poolCount p = 1)
    (hf : d.bufFree (mkHandle p 1) = true) (hs : d.used o p .shared < d.ownCap o p ∧ d.shFree p)
    (hd : d.poolDram (hPool (mkHandle p 1)) = false) (hz : n ≤ 2 ^ d.poolSize (hPool (mkHandle p 1)) ∧ 0 < n) : d.allocChain o p n ≠ none := by
  obtain ⟨e, he, hr⟩ := alloc_one hc hv hn hf hs hd
  have hm : max n 1 - 2 ^ e.poolSize (hPool (mkHandle p 1)) = 0 := by
    rw [show e.poolSize (hPool (mkHandle p 1)) = d.poolSize (hPool (mkHandle p 1)) by simp [Dev.poolSize, Dev.rf, Dev.reg, hr]]
    omega
  have h0 : max n 1 ≠ 0 := by omega
  simp [Dev.allocChain, Dev.allocBufs, he, hm, h0]

/-- The pool of `wPool` with one buffer, of which every owner may take. -/
def wAlloc (o : Nat) (d : Dev) : Dev := (((wPool d).setReg (Reg.PAL_POOL_W3 0) 1).setReg Reg.PAL_CTL 1).setReg (Reg.PAL_OWN_W2 o 0) 4

theorem witness_allocChain : (let d := wAlloc (Dev.reset.portOwner 31) (wPort 31 1 4)
     d.allocChain (d.portOwner 31) (d.rf (Reg.PAL_OWNER (d.portOwner 31)) 3 0) 60 ≠ none) ∧
    (let d := wAlloc 50 (wStage 2)
     d.allocChain 50 (d.rf (Reg.PAL_OWNER 50) 3 0) 64 ≠ none) ∧
    (let d := wAlloc (Dev.reset.portOwner 135) (wStage 2)
     d.allocChain (d.portOwner 135) (d.rf (Reg.PAL_OWNER (d.portOwner 135)) 3 0) 20 ≠ none) := by
  refine ⟨allocChain_one ?_ ?_ ?_ ?_ ?_ ?_ ?_, allocChain_one ?_ ?_ ?_ ?_ ?_ ?_ ?_, allocChain_one ?_ ?_ ?_ ?_ ?_ ?_ ?_⟩ <;> decide +kernel

/-! ### The host, DRAM and the table cache -/

/-- A running group 14 with a CMD entry in front. -/
def wGrp (y : Grp) : Dev := ((wStage 2).setReg (Reg.HST_GRP_W15 14) 0x80000000).setGrp 14 y
def wCmdBytes (op lenA lenB param0 : Nat) : List Byte :=
  leBytes 4 op ++ zeros 12 ++ leBytes 4 lenA ++ zeros 12 ++ leBytes 4 lenB ++ zeros 4 ++ leBytes 4 param0 ++ zeros 20
def wCmd (op lenA lenB param0 : Nat) : Dev := wGrp { Grp.reset with cmds := [⟨0, wCmdBytes op lenA lenB param0⟩] }

theorem witness_HostRingGroups : (let d := (wGrp { Grp.reset with reading := true }).setReg (Reg.HST_GRP_W0 14) 0xA0000000
    d.grpRuns 14 = true ∧ d.bar0Only = false ∧ (d.grp 14).polled + 1000 * d.rf (Reg.HST_GRP_W0 14) 25 16 ≤ 0 ∧ (d.grp 14).reading = true ∧ d.rb (Reg.HST_GRP_W0 14) 29 = true ∧ (d.grp 14).cpl = [] ∧
    d.indexBad 14 (zeros 32) = false ∧ d.indexBad 14 (leBytes 4 0x80000000 ++ zeros 28) = true) ∧
    (let e : Nat × List Byte := (0, zeros 8 ++ [64] ++ zeros 23)
     let d := wGrp { Grp.reset with inj := [e] }
     let u := wAlloc 50 d
     ((match u.injData 14 [e] [.ok (zeros 64)] with
       | .ok bs => bs.length
       | .error _ => 0) = 64 ∧
       ((u.prs.inq.filter (fun q => decide (q.port = 126))).map (·.len)).sum + 64 ≤ 16384) ∧ (u.grp 14).inj = [e] ∧
     (d.grp 14).inj = [e] ∧ injSplit [e] = ([e], true) ∧ injStatus [e] true = 0 ∧ injStatus [(0, zeros 32)] true ≠ 0) ∧
    (let x : GrpIx := { GrpIx.zero with injProd := 16 }
     min 16 (({ Grp.reset with ix := x } : Grp).fetchAt .inj).2 ≠ 0) := by decide +kernel

theorem witness_HostRingGroups_more : (let e : Nat × List Byte := (0, zeros 8 ++ [64] ++ zeros 23)
     let d := (wOut 126 false (wGrp { Grp.reset with punt := [e] })).setReg (Reg.HST_GRP_W3 14) 0x1084210
     tget [] d.tmg.egress 126 = [⟨wItem 20, 0, false, 0⟩] ∧ d.spillWaits 126 1 = false ∧ d.frameBad (wItem 20) = false ∧
     d.puntTooLong 14 (d.frameBytes (wItem 20)).length = false ∧ puntTake [e] (d.frameBytes (wItem 20)).length = some [e] ∧ d.bar0Only = false) ∧
    (let x : GrpIx := { GrpIx.zero with injCons := 16 }
     let y : GrpIx := { GrpIx.zero with evtProd := 1 }
     let d := (wGrp { Grp.reset with ix := y, newsAt := some 0 }).setReg (Reg.HST_GRP_W14 14) 500
     (∃ n ∈ ({ Grp.reset with ix := x } : Grp).news, 16 ≤ n) ∧ (∃ n ∈ (d.grp 14).news, n ≠ 0) ∧
     (d.grp 14).newsAt.getD 0 + d.rf (Reg.HST_GRP_W14 14) 15 0 ≤ 500 ∧ d.rb (Reg.HST_GRP_W15 14) 31 = true) ∧
    (let d := wGrp { Grp.reset with errNews := true, msgPend := true, lastMsg := some 0 }
     d.rb (Reg.HST_GRP_W15 14) 31 = true ∧ (d.grp 14).errNews = true ∧ (d.grp 14).msgPend = true ∧
     0 + 1000 * d.rf (Reg.HST_GRP_W14 14) 25 16 ≤ 1023000) ∧
    (let d := Dev.reset.setReg (Reg.HST_GRP_W15 14) 0x20000000
     d.rb (Reg.HST_GRP_W15 14) 29 = true ∧ (d.grp 14).running = []) ∧
    (let d := Dev.reset.setReg (Reg.HST_GRP_W3 14) 0x1084210
     d.rb (Reg.HST_GRP_W0 14) 31 = false ∧ d.rb (Reg.HST_GRP_W15 14) 29 = false ∧ d.pins.resetN = true ∧
     ∀ k, k < 5 → 4 ≤ d.rf (Reg.HST_GRP_W3 14) (5 * k + 4) (5 * k) ∧ d.rf (Reg.HST_GRP_W3 14) (5 * k + 4) (5 * k) ≤ 16) ∧
    (let d := (((wStage 2).setReg Reg.HST_BAR4 0x80000400).setReg Reg.HST_BAR4 (wd (2 ^ 31 + pmBase / 2 ^ 30)))
     d.rb Reg.HST_BAR4 31 = true ∧ d.bar0Only = false ∧ d.drc.ueNew = [] ∧ (wStage 1).bar0Only = true ∧ bar4Region false (d.region (d.bar4Addr 0)) = true ∧ d.region (d.bar4Addr 0) ≠ .unmapped ∧
     bar4Region true (d.region (d.bar4Addr 0)) = true ∧ d.poisoned (d.bar4Addr 0) 4 = false) ∧
    Dev.reset.rb Reg.HST_BAR4 31 = false := by decide +kernel

/-- One usable channel of 2^30 bytes with a request for line 0. -/
def wDram (q : List DramReq) : Dev :=
  let d := Dev.reset.setReg Reg.DRC_STATUS 0x81000001
  { d with drc := { d.drc with chans := [(0, 2 ^ 30)], reqs := q, rows := [] } }
def wQ (issued : Bool) : DramReq := ⟨.load 0, 1, 0, 0, issued, none⟩

theorem witness_DramController : (let d := wDram [wQ false]
    d.chanOpen 0 = true ∧ (d.dramLoc (d.servingAddr 0)).1 = 0 ∧ (dramBank (d.rankLog 0) (d.dramLoc (d.servingAddr 0)).2).sub = 0 ∧
    d.reqClass 0 (wQ false) < 5) ∧
    (let d := wDram [wQ true]
     findIx (fun (q : DramReq) => q.issued && q.done.isNone && decide ((d.dramLoc (d.servingAddr q.addr)).1 = 0) &&
       decide ((d.dramLoc (d.servingAddr q.addr)).2 / 64 % 2 = 0)) d.drc.reqs = some 0 ∧ d.poisoned 0 64 = false) ∧
    ({ Dev.reset with drc := { Dev.reset.drc with bringing := true } } : Dev).drc.bringing = true ∧ Dev.reset.forwarding = false ∧
    (wStage 3).forwarding = true ∧ Dev.reset.rb Reg.DRC_CTL 0 = false ∧
    ((wDram []).setReg Reg.DRC_SCRUB 0x80000000).rb Reg.DRC_SCRUB 31 = true ∧ (wDram []).fittedDram ≠ 0 ∧
    (∀ n, n < 6 → (Dev.reset.setReg Reg.DRC_FREQ_STATUS (wd (n * 2 ^ 28))).freqState = n) ∧ Dev.reset.anyStopped = false ∧
    Dev.reset.anyPanic = false ∧ ({ Dev.reset with drc := { Dev.reset.drc with panics := [(0, true)] } } : Dev).anyPanic = true ∧
    (let d : Dev := { wDram [] with drc := { (wDram []).drc with ret := [(7, 1)] } }
     d.wantsTraining 7 = true ∧ d.mayStep 0 = true ∧ d.usable 7 = true ∧ tget 0 d.drc.retrain 7 + 100000000 ≤ 100000000) ∧
    ((wDram []).setRb (Reg.DRC_CHAN_W0 7) 28 true).rb (Reg.DRC_CHAN_W0 7) 28 = true ∧ (wDram []).rb Reg.DRC_RETIRE 7 = false ∧
    (wDram []).rf Reg.DRC_STATUS 31 24 ≠ 2 ^ 7 ∧ (wDram []).retired 7 = false ∧
    ((wDram []).setReg Reg.DRC_STATUS 0x80000001).rf Reg.DRC_STATUS 31 24 = 2 ^ 7 ∧
    (let d := ((wDram []).setReg Reg.DRC_RETIRE 0x80).setReg Reg.DRC_STATUS 0x01800001
     d.rb Reg.DRC_RETIRE 7 = true ∧ tget 0 d.drc.ret 7 ≠ 9 ∧ d.retired 7 = true) := by decide +kernel

theorem dramBeat_tag (x b : Nat) (w : Word) : (dramBeat x b w).getLsbD 39 = (tagBits x).testBit b := by
  rw [dramBeat, BitVec.getLsbD_append]
  simp [BitVec.getLsbD, Nat.testBit_eq_decide_div_mod_eq]

theorem tag_sound {d : Dev} {a : Nat} {r : BurstRead} (h : r.flips = []) (h' : tagBits (64 * r.line) = tagBits (d.dramLoc a).2) :
    d.tagMatches a r = true := by
  simp only [Dev.tagMatches, Dev.arrived, burstMask, h, List.foldl_nil, List.all_eq_true, List.mem_range, beq_iff_eq]
  intro b hb
  simp only [List.getD_eq_getElem?_getD, List.getElem?_map, List.getElem?_range hb, Option.map_some, Option.getD_some]
  rw [show ∀ v : BitVec 40, v ^^^ 0 = v from fun v => BitVec.xor_zero, dramBeat_tag, h']

/-- A second bring-up over a fixed map; what may issue; a burst that arrives sound, and one of a retired channel; the walker
at the start of a pass that is not due; the answers to DRC_FREQ_CMD; a channel retired in mid-return. -/
theorem witness_DramController_more : (let x : DramEnt := { channel := 0, dimms := 1, ranks := 1, speed := 0, cap := 16 }
    let d := wHas { wProf [] [] [] with drams := [x] } (wDram [])
    let e : Dev := { d with drc := { d.drc with bringing := true, map := [(0, 2 ^ 30)] } }
    x ∈ d.dramEnts ∧ spdFits ⟨true, 1, 1, 16⟩ x = true ∧ d.drc.map = [] ∧ e.drc.map ≠ [] ∧ 0 ∈ e.drc.map.map (·.1) ∧
    d.rb Reg.DRC_RETIRE 0 = false ∧ (1 : BitVec 8).toNat.testBit 0 = true ∧ d.forwarding = false ∧ d.rb Reg.DRC_CTL 0 = false) ∧
    (let d := wDram [wQ false]
     let b := dramBank (d.rankLog 0) (d.dramLoc (d.servingAddr 0)).2
     let e : Dev := { d with drc := { d.drc with rows := tset none d.drc.rows (bankKey 0 b) (some b.row) } }
     d.readQueue 0 0 = [(0, wQ false)] ∧ d.spillRoom (wQ false) = true ∧ d.mayActivate 0 0 b = true ∧
     tget none d.drc.rows (bankKey 0 b) ≠ some b.row ∧ tget none e.drc.rows (bankKey 0 b) = some b.row ∧ e.chanOpen 0 = true) ∧
    (let first : BurstRead := ⟨0, []⟩
     let d := wDram [wQ true]
     let p : Dev := { d with drc := { d.drc with poison := [(0, true)] } }
     let r := d.setReg Reg.DRC_STATUS 0x00010001
     first.flips = [] ∧ tagBits (64 * first.line) = tagBits (d.dramLoc 0).2 ∧ d.poisoned 0 64 = false ∧ d.lost 0 = false ∧ tagBits 0 = tagBits (p.dramLoc 0).2 ∧ p.poisoned 0 64 = true ∧
     p.recoverable 0 = false ∧ tagBits 0 = tagBits (r.dramLoc 0).2 ∧ r.poisoned 0 64 = true ∧ r.recoverable 0 = false) ∧
    (let d : Dev := { wDram [wQ true] with drc := { (wDram [wQ true]).drc with chans := (List.range 8).map (fun c => (c, 2 ^ 30)) } }
     let d := ((d.setReg Reg.DRC_PAR_BASE 0x80000000).setReg Reg.DRC_PAR_STRIPES 1).setReg Reg.DRC_STATUS 0xDE210001
     let a := d.servingAddr 0
     findIx (fun (q : DramReq) => q.issued && q.done.isNone && decide ((d.dramLoc (d.servingAddr q.addr)).1 = 1) &&
       decide ((d.dramLoc (d.servingAddr q.addr)).2 / 64 % 2 = 0)) d.drc.reqs = some 0 ∧
     tagBits 0 = tagBits (d.dramLoc a).2 ∧ d.poisoned (a / 64 * 64) 64 = false ∧ d.lost 0 = true) ∧
    (let d : Dev := { (wDram []).setReg Reg.DRC_SCRUB 0x80000001 with drc := { (wDram []).drc with scrubFrom := 1 } }
     d.drc.scrubAt = 0 ∧ ¬ (1 + d.rf Reg.DRC_SCRUB 19 0 * 1000000000 ≤ 2) ∧ d.rf Reg.DRC_SCRUB 19 0 = 1) ∧
    (bit (2 : Word) 0 = false ∧ bit (3 : Word) 0 = true ∧ fld (3 : Word) 1 1 ≠ Dev.reset.activeSet ∧ fld (1 : Word) 1 1 = Dev.reset.activeSet ∧
     fld (3 : Word) 31 16 = 0 ∧ Dev.reset.freqState = 0 ∧ (Dev.reset.setReg Reg.DRC_FREQ_STATUS 0x50000000).freqState = 5) ∧
    (let d : Dev := (Dev.reset.setRb (Reg.DRC_CHAN_W0 7) 28 true).setReg Reg.DRC_FREQ_STATUS 0x10000000
     d.freqState = 1 ∧ (∀ k, k < 8 → k ≠ 7 → d.rb (Reg.DRC_CHAN_W0 k) 28 = false) ∧ d.rb (Reg.DRC_CHAN_W0 7) 28 = true) ∧
    (let d : Dev := { wDram [] with drc := { (wDram []).drc with ret := [(5, 1), (6, 2)] } }
     (∀ c ∈ [5, 6], d.rb Reg.DRC_RETIRE c = false ∧ d.usable c = false ∧ tget 0 d.drc.ret c ∈ [1, 2]) ∧ tget 0 d.drc.ret 4 = 0 ∧
     d.usable 4 = false) := by decide +kernel

/-- Table 255: a filter of 8-byte keys in DRAM or lookup memory. -/
def wTbl (dram : Bool) : Dev :=
  let d := (wDram []).setReg (Reg.FWD_TBL_W0 255) (wd (2 ^ 31 + b2n dram * 2 ^ 30 + 5 * 2 ^ 27 + 8 * 2 ^ 20))
  (d.setReg (Reg.FWD_TBL_W0 255 + 8) 4).setReg (Reg.FWD_TBL_STAT_W0 255) 0

theorem witness_TableCache : (let d : Dev := { wDram [] with drc := { (wDram []).drc with ret := [(7, 3)] } }
    tget 0 d.drc.ret 7 = 3 ∧ tget 0 ([(7, 2)] : Tab Nat) 7 = 2) ∧
    (let d : Dev := { wDram [] with tca := { (wDram []).tca with mbs := [(0, [⟨0, [(3, some 7)], 0⟩])] } }
     tget [] d.tca.mbs 0 = [⟨0, [(3, some 7)], 0⟩] ∧ 0 + 1000 ≤ 1000 ∧ d.drc.poison = [] ∧ d.drc.mirrors = [] ∧
     d.rf Reg.DRC_STATUS 23 16 = 0 ∧ d.chanOpen 0 = true ∧ (d.setReg Reg.DRC_STATUS 0x00010001).retired 0 = true) ∧
    (let f : TcaFill := ⟨0, 255, false, false⟩
     let d := wDram [⟨.fill 0, 4, 0, 0, true, some false⟩]
     let d : Dev := { d.setReg Reg.TCA_CTL 1 with tca := { d.tca with fills := [f] } }
     d.tca.fills.find? (fun f => decide (tcaSlice f.line = tcaSlice 0) && (d.dramDone (.fill f.line)).isSome) = some f ∧
     let l := d.setReg (Reg.TCA_WAYS 255) 1
     d.dramDone (.fill 0) = some false ∧ d.dead 0 64 = false ∧ d.rb Reg.TCA_CTL 0 = true ∧ (d.setReg Reg.TCA_CTL 0).rb Reg.TCA_CTL 0 = false ∧
     d.rf (Reg.TCA_WAYS 255) 15 0 = 0 ∧ l.rf (Reg.TCA_WAYS 255) 15 0 ≠ 0 ∧ d.tableWays 255 ≠ 0 ∧ d.tca.preload = none ∧
     (let e : Dev := { l with tca := { l.tca with fills := [{ f with drop := true }] } }
      e.tca.fills.find? (fun f => decide (tcaSlice f.line = tcaSlice 0) && (e.dramDone (.fill f.line)).isSome) = some { f with drop := true }) ∧
     (let e : Dev := { d with drc := { d.drc with reqs := [⟨.fill 0, 4, 0, 0, true, some true⟩] } }
      e.dramDone (.fill 0) = some true)) ∧
    (let d : Dev := { (wDram []).setReg (Reg.TCA_WAYS 255) 1 with tca := { (wDram []).tca with lines := [(0, some ⟨0, zeros 64, false⟩)] } }
     tget none d.tca.lines 0 = some ⟨0, zeros 64, false⟩ ∧ d.wayLocked 0 = true ∧ (wDram []).wayLocked 0 = false ∧
     (d.setReg Reg.TCA_RANGE_SIZE 1).reg Reg.TCA_RANGE_SIZE = 1) ∧
    (let l := (wTbl true).tBase 255 / 64
     let n : Dev := { wTbl true with tca := { (wTbl true).tca with fills := [⟨l, 255, false, true⟩] } }
     let j : Dev := { wTbl true with tca := { (wTbl true).tca with fills := [⟨l, 255, false, false⟩] } }
     let u : Dev := { wTbl true with tca := { (wTbl true).tca with fills := (List.range 32).map (fun i => ⟨l + 8 * (i + 1), 255, false, false⟩) } }
     (wTbl true).filling l = false ∧ (wTbl true).sliceFull l = false ∧ n.tca.fills.any (fun f => f.pre) = true ∧
     j.filling l = true ∧ j.tca.fills.any (fun f => f.pre) = false ∧ u.filling l = false ∧ u.sliceFull l = true) ∧
    (let d := wDram [⟨.stale 0, 4, 0, 0, true, some false⟩]
     let d : Dev := { d with tca := { d.tca with lines := [(0, some ⟨0, zeros 64, true⟩)] } }
     (d.tca.lines.find? (fun e => match e.2 with
        | some x => x.stale && decide (tcaSlice x.line = tcaSlice 0) && (d.dramDone (.stale x.line)).isSome
        | none => false)).isSome = true) ∧
    Dev.reset.rb Reg.TCA_CMD_STATUS 31 = false ∧ (Dev.reset.setReg Reg.TCA_CMD_STATUS 0x80000000).rb Reg.TCA_CMD_STATUS 31 = true ∧
    Tab.wf (fun _ => (none : Option TcaLine)) Dev.reset.tca.lines = true ∧ (wTbl true).tOn 255 = true ∧ (wTbl true).tDram 255 = true ∧
    (wTbl true).tBytes 255 / 64 ≠ 0 ∧ (wTbl false).tDram 255 = false := by decide +kernel

/-! ### Transactions, tasks, lookups and commands -/

/-- Transaction slot 6143 at the head of its domain 0, with a header cell. -/
def wTx (x : Txn) : Dev := (wCore.setTxn 6143 x).setDom 0 ⟨1, [0]⟩
def wCom : Txn := { wTxn with phase := .commitWait, hdrCell := some 1, handle := 1 }

theorem witness_TransactionsComplete : ((wTx { wTxn with phase := .ending }).txn 6143).phase = .ending ∧
    (let d := wTx wCom
     (d.txn 6143).phase = .commitWait ∧ (d.dom 0).flight.head? = some 0 ∧ d.commitHeld wCom = false ∧
     d.vrn.cbuf.length + wsStores wCom.entries ≤ 1024 ∧ d.metersHold 0 wCom.entries = true ∧ d.conflicting 6143 (wsGrans wCom.entries) = [] ∧
     d.sramBad (cluBase 23 + canvasVa 255 wCom.work) 256 = false ∧ wCom.discard = 0 ∧ d.quarantined 1 = false ∧ 6143 ∉ d.pal.irrevWait ∧ (d.headerCell wCom).isSome = true ∧ wCom.skip = 0 ∧
     leAt (d.memRead (cluBase 23 + canvasVa 255 wCom.work) 256) 0xC0 2 = 0) ∧
    (∀ cause ∈ [1, 0xA, 0xC], ((wTx { wTxn with phase := .aborted cause }).txn 6143).phase = .aborted cause) ∧
    ((wTx { wTxn with copying := true }).txn 6143).copying = true ∧
    (let x := { wTxn with irrev := .waits, nonspec := true }
     let d : Dev := { wTx x with vrn := { (wTx x).vrn with waiters := [6143] } }
     d.vrn.grant = none ∧ d.vrn.waiters = [6143] ∧ d.eligible x = true) ∧
    (let d := (wTx wTxn).setThr 1535 { wThr with task := some { wJob with txn := 255 } }
     d.cluClocked 23 = true ∧ txnKey 1535 (d.thr 1535) = some 6143 ∧ (d.txn 6143).phase = .active ∧ (d.txn 6143).irrev ≠ .granted) ∧
    (let d := wPool Dev.reset
     d.reserves 0 ≤ 4 ∧ 4 ≤ d.poolCount 0) ∧
    (let d : Dev := { wTx wCom with pal := { (wTx wCom).pal with irrevWait := [6143], withheld := [(1, .shared)] } }
     d.pal.irrevWait = [6143] ∧ d.pal.withheld = [(1, .shared)]) := by decide +kernel

/-- A transaction held in hold mode, for which a positioned control-plane transaction waits, before 1 ms and at it, and one
whose signature holds the granule that an irrevocable store waits to write. -/
theorem witness_HoldStall : (let x := { wTxn with held := true }
    let c : Cp := { id := 0, ops := [], ring := none, stage := .positioned, before := [(0, 1)], since := 0, status := 0, result := 0 }
    let e : Dev := { wTx x with vrn := { (wTx x).vrn with cps := [c] } }
    e.holdsUp 1000000 6143 x = true ∧ e.holdsUp 999999 6143 x = false) ∧
    (let d : Dev := { wTx wTxn with vrn := { (wTx wTxn).vrn with grant := some 5, holdWait := some (0, 7) } }
     d.holdsUp 1000000 6143 { wTxn with held := true, sig := d.sigMask 7 } = true) := by
  refine ⟨by decide +kernel, ?_⟩
  simp [Dev.holdsUp, Dev.sigHas, Dev.sigMask, Dev.reg, wTxn, wTx]
  decide +kernel

def wPkt : Pkt := { handle := 1, owner := 0, len := 20, port := 0, tsNs := 0, tsSec := 0, recircs := 0, recirc := none }
def wParsed : Parsed := { pkt := wPkt, image := zeros 256, entry := 0x100, prio := 0, domain := 0, ticket := 0, counted := 0, irrev := false, winOff := 0, hdrEnd := 0x40, bank := 0, migrated := false }
def wPrs (inq : List Pkt) (out : List Parsed) (re : List (Nat × Txn)) : Dev :=
  let d := ((wPool wCore).setReg Reg.PRS_CTL 1).setReg Reg.VRN_CTL 1
  { d with prs := { d.prs with inq := inq, out := out, rereads := re } }
def wRec (resume : Bool) : Rec := { entry := 0x100, prio := 7, ticket := 0, canvas := 0, user := 0, hasTxn := false, txn := 0, resume := resume, save := 0, slots := [], ready := some 0, tid := 0, taken := false }
def wEasel (r : Rec) : Dev :=
  let d := wCore.setReg (Reg.CLU_EASEL_CTL 0) 0x101
  { d with esl := { d.esl with recs := [(3, some r)] } }

theorem witness_PacketsAndTasks_parser : (let d := wPrs [wPkt] [] [(5, wTxn)]
    d.slicesIn ≠ 0 ∧ d.stage ≠ 4 ∧ d.prs.out.length < d.placesFree ∧ d.prs.rereads = [(5, wTxn)] ∧ d.rb Reg.PRS_CTL 0 = true ∧
    d.quarantined wPkt.handle = false) ∧
    (let y : Egress := ⟨wItem 20, 0, false, 0⟩
     let d := wOut 135 false wCore
     tget [] d.tmg.egress 135 = [y] ∧ d.spillWaits 135 1 = false ∧ d.frameBad y.item = false) ∧
    (let d := wPrs [] [wParsed] []
     d.prs.out = [wParsed] ∧ d.placeCluster = some 0 ∧ d.rb Reg.VRN_CTL 0 = true ∧
     findNat (fun i => decide ((d.txn (256 * 0 + i)).phase = .free)) 0 256 = some 0 ∧ wParsed.image.length = 256) := by decide +kernel

theorem witness_PacketsAndTasks_tasks : (let d := wEasel (wRec false)
    d.rb (Reg.CLU_EASEL_CTL 0) 8 = true ∧ d.cluRuns 0 = true ∧ d.firstRec 0 (d.candidates 0) = some (3, wRec false) ∧
    (d.idleThread 0 false).isSome = true) ∧
    (let th := { wThr with saving := some (64 * 3), task := some { wJob with hasTxn := false } }
     let d := (wEasel (wRec false)).setThr 0 th
     (d.thr 0).saving = some (64 * 3) ∧ d.rcd 0 3 = some (wRec false) ∧ (d.freeRcd 0).isSome = true ∧ d.freeRcd 0 ≠ some 3 ∧
     th.load = none ∧ th.slot = .none ∧ d.txnRuns 0 = true) ∧
    (let x : Comp := ⟨23, 4096, 0⟩
     let d : Dev := { Dev.reset with esl := { Dev.reset.esl with comps := [x] } }
     d.esl.comps.find? (fun x => decide (x.cluster = 23)) = some x ∧
     (let u := d.setTok (tokKey 23 4096) { Tok.reset with gen := 1, live := true }
      (u.tok (tokKey 23 4096)).live = true ∧ (u.tok (tokKey 23 4096)).gen = 4096 / 4096)) ∧
    ([(23, 5)] : List (Nat × Nat)).find? (fun x => decide (x.1 = 23)) = some (23, 5) := by decide +kernel

def wLearn : Learn := { table := 255, key := zeros 8, port := 1, b0 := 0 }
def wLk : LkReq := { cluster := 0, token := 5, txn := none, under := none, table := 255, key := zeros 8, learn := none, bad := false, result := cluBase 0, canvas := 0, engine := 15, missed := [] }
def wFwd (f : Fwd → Fwd) : Dev :=
  let d := (wTbl false).setReg Reg.FWD_CTL 7
  { d with fwd := f d.fwd }

theorem witness_LookupEvents : (let d : Dev := { wFwd id with brs := { (wFwd id).brs with lookups := [wLk] } }
    (d.brs.lookups.filter (fun r => decide (r.engine = 15) && !d.lookupHeld r)).find?
      (fun r => (d.lookupLines r.table r.key).all d.lineReady) = some wLk) ∧
    (wFwd fun f => { f with posts := [wLearn] }).fwd.posts = [wLearn] ∧
    (let d := wFwd fun f => { f with queues := tset [] f.queues 255 [wLearn] }
     tget [] d.fwd.queues 255 = [wLearn] ∧ d.rb Reg.FWD_CTL 1 = true ∧ d.fwd.learning = [] ∧ d.flushHolds wLearn = false ∧ d.fwd.lastStart = none) ∧
    (let d := wFwd fun f => { f with learning := [(wLearn, 0)] }
     d.fwd.learning[0]? = some (wLearn, 0) ∧ d.tReady 255 = true ∧ d.tType 255 = 5 ∧ d.tDram 255 = false ∧ d.pinned 255 0 wLearn.key = false ∧
     d.findSlot 255 0 wLearn.key false = .miss ∧ (d.freeSlot4 255 (d.buckets 255 0 wLearn.key).1).isSome = true ∧
     fld (d.tw 255 4) 30 27 ≠ 15 ∧ wLearn.key.length = 8) ∧
    (let d := (wFwd id).setReg (Reg.FWD_TBL_W0 255 + 16) 0x80000001
     d.swept 255 = true ∧ (tget (0, 0, 0) d.fwd.sweep 255) = (0, 0, 0)) ∧
    (let g : FlushRun := ⟨0, false, 15, 0, 0, 0, 0⟩
     let d := wFwd fun f => { f with flushes := tset none f.flushes 255 (some g) }
     tget none d.fwd.flushes 255 = some g ∧ d.tN 255 ≤ g.next + 1 ∧ d.tReady 255 = true ∧
     (d.touch [d.bucketSpan 255 0]).bucketBad 255 0 = false ∧
     (let u := ({ d with fwd := { d.fwd with badRows := [((d.tBase 255 - lookupBase) / 256, 1)] } } : Dev)
      (u.touch [u.bucketSpan 255 0]).bucketBad 255 0 = true)) ∧
    Dev.reset.tOn 255 = false ∧ (wTbl false).tOn 255 = true ∧
    (let d := (wTbl false).setReg (Reg.FWD_TBL_STAT_W0 255) 0x80000000
     d.tOn 255 = true ∧ d.tInit 255 = true) := by decide +kernel

theorem witness_LookupEvents_enable : (let v : Word := wd (5 * 2 ^ 27 + 8 * 2 ^ 20 + 8 * 2 ^ 14)
    let d := Dev.reset.setReg (Reg.FWD_TBL_W0 255 + 8) 4
    let n := d.setReg (Reg.FWD_TBL_W0 255) (setFld (setBit v 31 true) 13 12 0)
    d.tOn 255 = false ∧ d.tableFits 255 v = true ∧ n.tBase 255 + n.tBytes 255 ≤ lookupBase + 0x3000000 ∧ n.tDram 255 = false ∧
    ∀ j, j < 256 → j ≠ 255 → d.tOn j = true → n.regionsMeet 255 j = false) := by decide +kernel

theorem witness_RingCommands : (∀ op, op < 11 → ((wCmd op 0 0 0).cmdNext 14).map HCmd.opcode = some op) ∧
    (let d := wGrp { Grp.reset with running := [⟨7, wCmdBytes 9 0 0 0⟩] }
     (d.grp 14).running.find? (fun c => decide (c.index = 7)) = some ⟨7, wCmdBytes 9 0 0 0⟩ ∧ d.rb (Reg.HST_GRP_W15 14) 29 = false ∧
     (d.grp 14).cpl = [] ∧ d.grpRuns 14 = true ∧ ixDiff 0 0 < 2 ^ d.ringLog 14 .cpl) ∧
    (⟨0, wCmdBytes 3 0 0 111⟩ : HCmd).fieldBad 1 = false ∧ (⟨0, wCmdBytes 3 0 0 111⟩ : HCmd).param 0 = 111 ∧
    (⟨0, wCmdBytes 4 262144 0 1⟩ : HCmd).lenA = 262144 ∧ (⟨0, wCmdBytes 2 786432 0 4096⟩ : HCmd).lenA = 192 * 4096 ∧
    (⟨0, wCmdBytes 8 64 496 0⟩ : HCmd).lenB = 496 ∧ (⟨0, wCmdBytes 1 192 768 0⟩ : HCmd).fieldBad 0 = false ∧
    (wCmd 5 0 0 0).cpFull = false ∧ (wCmd 5 0 0 0).cpStops = false ∧ ((wCmd 5 0 0 0).startFix 0 true).cpStops = true ∧
    (((wCmd 5 0 0 0).startFix 0 true).cmdNext 14).map HCmd.opcode = some 5 ∧ (wCmd 1 192 768 0).applying = false ∧
    ((List.range 8).all fun op => decide (leAt ([BitVec.ofNat 8 op] ++ zeros 191) 0 1 = op)) = true ∧
    (let q : QuoteReq := ⟨some (14, 7), zeros 16, some (zeros 368)⟩
     let d : Dev := { Dev.reset with mgt := { Dev.reset.mgt with quotes := [q] } }
     d.mgt.quotes = [q] ∧ q.body = some (zeros 368)) ∧
    (let u : Dev := { (wCmd 5 0 0 0) with prf := { (wCmd 5 0 0 0).prf with staged := some (wProf [] [] []) } }
     u.prf.applying = none ∧ u.prf.staged = some (wProf [] [] []) ∧ (wCmd 5 0 0 0).prf.staged = none ∧ u.cpFull = false ∧ u.cpStops = false ∧
     (({ u with prt := { u.prt with held := [31] } } : Dev).portHeld 31 = true ∧ (wCmd 3 0 0 31).portHeld 31 = false ∧
      (wPort 31 1 5).laneTested 31 = false)) ∧
    (let p := wProf [] [] []
     let a : Apply := { prof := p, grp := 0, cmd := 0, cp := none }
     let d : Dev := { wHas p Dev.reset with prf := { (wHas p Dev.reset).prf with applying := some a } }
     d.commitReady.isSome = true) ∧
    (let c : Cp := { id := 0, ops := [.actWrite 0 [1]], ring := none, stage := .positioned, before := [], since := 0, status := 0, result := 0 }
     let d : Dev := { Dev.reset with vrn := { Dev.reset.vrn with cps := [c, { c with id := 1, stage := .applied }] } }
     d.firstCp .positioned = some c ∧ d.drained c = true ∧ d.vrn.cbuf.length + min 1024 (c.ops.map CpOp.grans).sum ≤ 1024 ∧ (d.firstCp .applied).isSome = true) := by decide +kernel

/-! ## Single steps

Expected results are the rules' own; `wStep` is a test of the state that a command answers. -/

def wStep (i : Instr) (d : Dev) (p : Dev → Bool) : Bool := match exec i { State.reset with dev := d } with
  | .next t => p t.dev
  | _ => false

/-- divu by g0: quotient 0xFFFF_FFFF, D set (R93). -/
theorem test_divu_by_zero : wStep (.divide 0 ⟨3, 1, 0, 4⟩) wCore (fun d => decide ((d.thr 0).g 3 = 0xFFFFFFFF) && flagD (d.thr 0).flags) = true := by
  decide +kernel

/-- neg of 0x8000_0000 returns it and sets V (R94). -/
theorem test_neg_corner : wStep (.aluOp 0 ⟨3, 1, 0, 0x219⟩) (wCore.setThr 0 (wThr.setG 1 0x80000000))
    (fun d => decide ((d.thr 0).g 3 = 0x80000000) && flagV (d.thr 0).flags) = true := by decide +kernel

/-- g0 discards a write and the thread goes on (R81). -/
theorem test_addi_g0 : wStep (.addi 0 ⟨0, 0, 5⟩) wCore (fun d => decide ((d.thr 0).g 0 = 0) && decide ((d.thr 0).pc = 0x104)) = true := by
  decide +kernel

/-- addi sign-extends imm15 (R85). -/
theorem test_addi_negative : wStep (.addi 0 ⟨3, 0, 0x7FFF⟩) wCore (fun d => decide ((d.thr 0).g 3 = 0xFFFFFFFF)) = true := by decide +kernel

/-- sys traps with cause 0x05 at tvb + 0x140 (R112, R113). -/
theorem test_sys_enters : wStep (.sys 0 ⟨0, 0, 7⟩) (wCore.setThr 0 { wThr with tvb := 0x800 })
    (fun d => decide ((d.thr 0).pc = 0x940) && decide ((d.thr 0).ecause = 5) && decide ((d.thr 0).epc = 0x100) && decide ((d.thr 0).etval = 7)) = true := by
  decide +kernel

/-- A word stored at 0x1000 lies least significant byte first (R9, R85). -/
theorem test_stw_little_endian : wStep (.stw 0 ⟨1, 2, 0⟩) (wCore.setThr 0 ((wThr.setG 1 0x11223344).setG 2 0x1000))
    (fun d => decide (d.memRead (cluBase 0 + 0x1000) 4 = [0x44, 0x33, 0x22, 0x11])) = true := by decide +kernel

/-- A register write that names another size is Unsupported Request (R10). -/
theorem test_registerWrite_size : wStep (.registerWrite .host 2 Reg.TIM_CTL 1) Dev.reset
    (fun d => decide (d.resp = [1]) && decide (d.reg Reg.TIM_CTL = regReset Reg.TIM_CTL)) = true := by decide +kernel

/-- PWRFAIL_N falling is recorded and pends Atelier line 1 (R510). -/
theorem test_pwrfail : wStep .pwrfailAssert Dev.reset (fun d => d.rb Reg.PWR_STATUS 31 && d.rb Reg.ATL_INT_PEND 1) = true := by decide +kernel

/-- A frame with a wrong FCS counts in counter 1 and nowhere else (R405, R409). -/
theorem test_frame_bad_fcs : wStep (.frameReceive 31 (zeros 64)) (wPort 31 1 4)
    (fun d => decide (d.reg (Reg.PRT_CNT 31 1) = 1) && decide (d.reg (Reg.PRT_CNT 31 0) = 0) && decide (d.prs.inq = [])) = true := by decide +kernel

/-- Stencil sub of equal values sets Z and C (R383). -/
theorem test_stencil_sub_equal : wStep (.stnAlu 0 0 ⟨1, 2, 2⟩) (wStn.setSlot 0 0 (((Slot2.reset).setR 1 9).setR 2 9))
    (fun d => decide ((d.slot 0 0).r 1 = 0) && decide ((d.slot 0 0).flags = 0b0110)) = true := by decide +kernel

/-- An acquire of a lock held by another queues behind it (R359). -/
theorem test_lock_waits : wStep .lockAcquire (wLku ⟨some 6, false, []⟩ [wReq 0 true])
    (fun d => decide ((d.lock 0).holder = some 6) && decide ((d.lock 0).waiters.length = 1)) = true := by decide +kernel

/-- NOP completes with r0 = 0 and status OK (R477, R478). -/
theorem test_nop_completes : wStep (.nop 14) (wCmd 9 0 0 0) (fun d => decide (d.hst.posted.length = 1) && decide ((d.grp 14).ix.cplProd = 1)) = true := by
  decide +kernel

/-! ## Decoding

Words written out from the encodings of R75, R76 and R85 (major, rd, ra, rb and fn or an immediate) and of R383 and R386 (op, rd, rs and
fn or an immediate), and the commands that they stand for. -/

theorem test_decode_kroval : krovalInstr 5 0b0000000_00011_00001_00010_0000000000 0 = .aluOp 5 ⟨3, 1, 2, 0⟩ ∧
    krovalInstr 5 0b0001000_00011_00001_111111111111111 0 = .addi 5 ⟨3, 1, 0x7FFF⟩ ∧
    krovalInstr 5 0b0001111_00011_00000000000000000001 0 = .lui 5 3 1 ∧
    krovalInstr 5 0b0010000_0_0101_00000000000000000111 9 = .bcc 5 false 5 7 9 ∧
    krovalInstr 5 0b0010010_00000_00001_00000_0000000000 9 = .jr 5 ⟨0, 1, 0⟩ 9 ∧
    krovalInstr 5 0b0010100_00000_00000_000000000000111 0 = .sys 5 ⟨0, 0, 7⟩ ∧
    krovalInstr 5 0b0010010_00000_00001_00000_0000000010 0 = .undefinedInstruction 5 0b0010010_00000_00001_00000_0000000010 := by
  decide +kernel

theorem test_decode_stencil : stencilInstr 31 3 0b0000_0001_0010_0001 = .stnAlu 31 3 ⟨1, 2, 1⟩ ∧
    stencilInstr 31 3 0b0010_0001_01000001 = .stnMovi 31 3 1 0x41 ∧ stencilInstr 31 3 0b0111_0010_11111110 = .stnBcc 31 3 2 0xFE ∧
    stencilInstr 31 3 0b1000_000000000111 = .stnJmp 31 3 7 ∧ stencilInstr 31 3 0xFFFF = .stencilUndefinedInstruction 31 3 0xFFFF := by
  decide +kernel

end Sys2Proof.Machine
end

section
/-!
SUPPORT. What reset leaves of the threads and the registers.
-/

namespace Sys2Proof.Machine

@[simp] theorem reset_reg (o : Nat) : Dev.reset.reg o = regReset o := (rfl)

theorem reset_stage : Dev.reset.stage = 0 := by
  unfold Dev.stage Dev.rf
  rw [reset_reg]
  decide

/-- An Atelier core at reset, by its thread number. -/
theorem resetThreads_atl (k : Nat) (h : k < 4) : tget Thread.reset resetThreads (1536 + k) = atlReset := by
  interval_cases k <;> rfl

theorem reset_thr_clu (t : Nat) (h : t < 1536) : Dev.reset.thr t = Thread.reset := resetThreads_clu t h

theorem reset_thr_atl (k : Nat) (h : k < 4) : Dev.reset.thr (1536 + k) = atlReset := resetThreads_atl k h

theorem reset_clk_ok : Clock.reset.ok = true := by decide

/-- Settles O3: each part of the state after reset by its own lemma. -/
theorem resetState : Obligations.ResetState := by
  unfold Obligations.ResetState
  refine ⟨reset_reg, reset_stage, reset_thr_clu, fun k hk => ?_, reset_clk_ok, reset_mem_wf, rfl⟩
  rw [show State.reset.dev.thr (1536 + k) = atlReset from reset_thr_atl k hk]
  exact ⟨rfl, rfl⟩

end Sys2Proof.Machine
end

section
/-!
SUPPORT. Bytes and bits of what the test port shifts out (R556).
-/

namespace Sys2Proof.Machine

/-- The low n bytes of a number, read back. -/
theorem leVal_leBytes (n v : Nat) : leVal (leBytes n v) = v % 256 ^ n := by
  induction n generalizing v with
  | zero => simp [leBytes, leVal, Nat.mod_one]
  | succ n ih =>
    rw [leBytes, leVal, ih, Nat.pow_succ', Nat.mod_mul, BitVec.toNat_ofNat]

/-- A number summed up bit by bit is the number with those bits. -/
theorem foldl_bits (f : Nat → Bool) (n : Nat) :
    (List.range n).foldl (fun a i => a + b2n (f i) * 2 ^ i) 0 = Nat.ofBits (fun i : Fin n => f i) := by
  induction n with
  | zero => rfl
  | succ n ih =>
    rw [List.range_succ, List.foldl_append, ih, List.foldl_cons, List.foldl_nil]
    refine Nat.eq_of_testBit_eq fun i => ?_
    rw [Nat.add_comm, Nat.mul_comm, Nat.testBit_two_pow_mul_add _ (Nat.ofBits_lt_two_pow _)]
    simp only [Nat.testBit_ofBits]
    rcases Nat.lt_trichotomy i n with h | rfl | h
    · rw [if_pos h, dif_pos h, dif_pos (by omega)]
    · rw [if_neg (by omega), dif_pos (by omega), Nat.sub_self]
      cases f i <;> rfl
    · rw [if_neg (by omega), dif_neg (by omega)]
      have hb : b2n (f n) < 2 := by cases f n <;> decide
      exact Nat.testBit_lt_two_pow (hb.trans_le (Nat.le_self_pow (by omega) 2))

end Sys2Proof.Machine
end

section
/-!
SUPPORT. The test port (R420, R556): the instructions that leave the pins alone and those that take them.
-/

namespace Sys2Proof.Machine

/-- The device with a TAP instruction loaded and nothing else changed. -/
def Dev.tapped (d : Dev) (x : Tap) : Dev := { d with dbg := { d.dbg with tap := x } }

/-- An instruction that leaves the pins to the device is loaded and nothing more. -/
theorem tapLoad_free {d : Dev} {x : Tap} (h : (d.tapped x).tapFree = true) : d.tapLoad x = d.tapped x := if_pos h

/-- An instruction that takes the pins is loaded and stops both heartbeats. -/
theorem tapLoad_takes {d : Dev} {x : Tap} (h : (d.tapped x).tapFree = false) : d.tapLoad x = (d.tapped x).hbStopAll :=
  if_neg (ne_of_eq_of_ne h Bool.false_ne_true)

theorem hbStopAll_dbg (d : Dev) : d.hbStopAll.dbg = d.dbg := by
  obtain ⟨r, n, f, e⟩ := hbStopAll_only d
  rw [e]

theorem hbStopAll_pins (d : Dev) : d.hbStopAll.pins = d.pins := by
  obtain ⟨r, n, f, e⟩ := hbStopAll_only d
  rw [e]

/-- The cells captured hold the levels of the pins that the model has. -/
theorem captured_eq (d : Dev) : d.captured = Nat.ofBits (fun i : Fin 122 =>
    (d.pinLevel i).getD ((Config.freeWord (d.free + i / 32)).getLsbD (i % 32))) :=
  foldl_bits (fun i => (d.pinLevel i).getD ((Config.freeWord (d.free + i / 32)).getLsbD (i % 32))) 122

theorem captured_shifted (d : Dev) : leVal (leBytes 16 d.captured) = d.captured := by
  rw [leVal_leBytes, captured_eq]
  exact Nat.mod_eq_of_lt ((Nat.ofBits_lt_two_pow _).trans (by norm_num))

theorem captured_pin {d : Dev} {cell : Nat} {level : Bool} (hc : cell < 122) (hl : d.pinLevel cell = some level) :
    (leVal (leBytes 16 d.captured)).testBit cell = level := by
  rw [captured_shifted, captured_eq, Nat.testBit_ofBits_lt _ _ hc]
  simp [hl]

end Sys2Proof.Machine
end

section
/-!
SUPPORT. Register accesses (R10 to R12, R45, R48): which of its branches an access takes, and what it leaves.
-/

namespace Sys2Proof.Machine

/-- A command that may change the time and the identity, and changes neither. -/
theorem runAll_kept {ok : Bool} {c : Clock → Clock} {n : Ident → Ident} {f : Dev → Dev} {s : State} (h : ok = true)
    (hc : c s.clk = s.clk) (hn : n s.idn = s.idn) : runAll ok c n f s = .next (s.withDev (f s.dev)) := by
  unfold runAll
  rw [if_pos h, hc, hn]
  rfl

theorem runAll_dev {ok : Bool} {c : Clock → Clock} {n : Ident → Ident} {f : Dev → Dev} {s : State} (h : ok = true) :
    ∃ u, runAll ok c n f s = .next u ∧ u.dev = f s.dev := ⟨_, if_pos h, rfl⟩

theorem inRegs_of_lt {off : Nat} (h : off < 2 ^ 26) : inRegs off = true := decide_eq_true h

theorem regWriteClock_ne {off : Nat} (h : off ≠ Reg.TIM_CMD) (v : Word) (d : Dev) (c : Clock) : regWriteClock off v d c = c :=
  if_neg (fun hc => h hc.1)

theorem regWriteIdent_ne {off : Nat} (h : off ≠ Reg.ATL_MEAS) (r : Req) (v : Word) (d : Dev) (i : Ident) :
    regWriteIdent r off v d i = i := if_neg (fun hc => h hc.1)

/-! Unmapped offsets (R11, R45). -/

@[simp] theorem captureUnmapped_flt (d : Dev) (q a : Nat) : (d.captureUnmapped q a).flt = d.flt := by
  unfold Dev.captureUnmapped
  split <;> rfl

/-- The record of an unmapped access is valid once one is captured. -/
theorem captureUnmapped_valid (d : Dev) (q a : Nat) : (d.captureUnmapped q a).rb Reg.GLB_UNMAP_STATUS 0 = true := by
  unfold Dev.captureUnmapped
  split
  · rename_i h
    rw [Dev.rb_setRb_apart _ _ _ _ _ (by omega) (by omega), h]
  · exact Dev.rb_setRb_self _ _ _ _ (by omega)

theorem unmapped_inbox (d : Dev) (r : Req) (off : Nat) :
    (d.unmapped r off).flt.inbox = d.flt.inbox ++ [⟨Src.regUnmapped, wd (reqCode r * 2 ^ 28 + off), false⟩] := by
  unfold Dev.unmapped
  rw [raise_inbox, captureUnmapped_flt]

theorem unmapped_valid (d : Dev) (r : Req) (off : Nat) : (d.unmapped r off).rb Reg.GLB_UNMAP_STATUS 0 = true := by
  unfold Dev.unmapped
  rw [Dev.rb_raise, captureUnmapped_valid]

/-! The branches of an access. -/

section
variable {d : Dev} {r : Req} {c : Clock} {off : Nat} {v : Word}

theorem regAccess_read (h : d.pins.resetN = true) (idn : Ident) : d.regAccess r c idn off .read =
    { (d.readReg r c.count idn off).2 with resp := leBytes 4 (d.readReg r c.count idn off).1.toNat } := by
  unfold Dev.regAccess
  rw [h]
  rfl

theorem regAccess_write (h : d.pins.resetN = true) (idn : Ident) : d.regAccess r c idn off (.write v) = d.regWrite r c off v := by
  unfold Dev.regAccess
  rw [h]
  rfl

theorem not_isNone_of_occupied (hs : (regDesc off).isSome = true) : ¬ (regDesc off).isNone = true := by
  rw [← Option.not_isSome, hs]
  decide

/-- A read of the lower register of a pair captures the upper one. -/
theorem readReg_low (hp : d.pairLow off = true) (hs : (regDesc off).isSome = true) (now : Nat) (idn : Ident) : d.readReg r now idn off =
    (d.peek r now idn off, d.setHold (holdKey r false off) (some (d.peek r now idn (off + 4)))) := by
  unfold Dev.readReg
  rw [if_neg (not_isNone_of_occupied hs), if_pos hp]

/-- A read of the upper register of a pair takes what its requester captured. -/
theorem readReg_captured {w : Word} (hp : d.pairHigh off = true) (hl : d.pairLow off = false) (hs : (regDesc off).isSome = true)
    (hw : tget none d.hold (holdKey r false (off - 4)) = some w) (now : Nat) (idn : Ident) :
    d.readReg r now idn off = (w, d.setHold (holdKey r false (off - 4)) none) := by
  unfold Dev.readReg
  rw [if_neg (not_isNone_of_occupied hs), if_neg (by simp [hl]), if_pos hp, hw]

/-- A read of a register that is no half of a pair changes nothing. -/
theorem readReg_single (hl : d.pairLow off = false) (hp : d.pairHigh off = false) (hs : (regDesc off).isSome = true) (now : Nat)
    (idn : Ident) : d.readReg r now idn off = (d.peek r now idn off, d) := by
  unfold Dev.readReg
  rw [if_neg (not_isNone_of_occupied hs), if_neg (by simp [hl]), if_neg (by simp [hp])]

theorem regWrite_low_refused (hp : d.pairLow off = true) (h : d.lowRefused r off = true) : d.regWrite r c off v = d.refuse r off := by
  unfold Dev.regWrite
  rw [if_pos hp, if_pos h]

/-- A write of the lower register of a pair is held. -/
theorem regWrite_low_held (hp : d.pairLow off = true) (h : d.lowRefused r off = false) :
    d.regWrite r c off v = d.setHold (holdKey r true off) (some v) := by
  unfold Dev.regWrite
  rw [if_pos hp, if_neg (by simp [h])]

theorem regWrite_single (hl : d.pairLow off = false) (hp : d.pairHigh off = false) : d.regWrite r c off v = d.writeReg r c off v := by
  unfold Dev.regWrite
  rw [if_neg (by simp [hl]), if_neg (by simp [hp])]

theorem writeReg_unmapped (h : regDesc off = none) : d.writeReg r c off v = d.unmapped r off := by
  unfold Dev.writeReg
  rw [h]

/-- Outside the clusters forwarding refuses a write of every register so marked (R48). -/
theorem writeReg_forwarding {x : RegDesc} (hf : d.forwarding = true) (hx : regDesc off = some x) (hw : x.fwd = true)
    (ho : off / 0x100000 < 32) : d.writeReg r c off v = d.refuse r off := by
  have hr : d.fwdRefuses x off = true := by
    unfold Dev.fwdRefuses
    simp [hf, hw, Nat.not_le.mpr ho]
  unfold Dev.writeReg
  rw [hx]
  exact if_pos hr

end

theorem setHold_get (d : Dev) (k : Nat) (v : Option Word) : tget none (d.setHold k v).hold k = v := tget_tset_self none d.hold k v

/-! A register that stores every bit written to it: FLT_INJECT_DETAIL (R558). -/

/-- The row of FLT_INJECT_DETAIL in the register map. -/
def injectDetailRow : RegDesc := ⟨0x200018, 0, 1, 0, 1, 0xffffffff, 0, 0, 0, 0, 0, false⟩

theorem injectDetail_row : regDesc Reg.FLT_INJECT_DETAIL = some injectDetailRow := by decide

/-- Outside MTR_DATA and TMG_OBJ_DATA the pairs do not depend on the device (R12). -/
theorem pairLow_fixed {off : Nat} (hm : ¬ (off = Reg.MTR_DATA 0 ∨ off = Reg.MTR_DATA 2))
    (ht : ¬ (off = Reg.TMG_OBJ_DATA 2 ∨ off = Reg.TMG_OBJ_DATA 4)) (d : Dev) : d.pairLow off = Machine.pairLow off := by
  unfold Dev.pairLow
  rw [decide_eq_false hm, decide_eq_false ht, Bool.and_false, Bool.and_false, Bool.or_false, Bool.or_false]

theorem injectDetail_not_low (d : Dev) : d.pairLow Reg.FLT_INJECT_DETAIL = false := by
  rw [pairLow_fixed (by decide) (by decide)]
  decide

theorem injectDetail_not_high (d : Dev) : d.pairHigh Reg.FLT_INJECT_DETAIL = false := by
  unfold Dev.pairHigh
  rw [pairLow_fixed (by decide) (by decide)]
  decide

theorem injectDetail_store (w v : Word) : injectDetailRow.store w v = v := by
  have h1 : wd injectDetailRow.rw = BitVec.allOnes 32 := by decide
  have h2 : wd injectDetailRow.w1c = 0#32 ∧ wd injectDetailRow.w1s = 0#32 := by decide
  unfold RegDesc.store
  rw [h1, h2.1, h2.2]
  simp only [BitVec.not_allOnes, BitVec.and_zero, BitVec.zero_or, BitVec.and_allOnes, BitVec.not_zero, BitVec.or_zero]

theorem writeReg_injectDetail (d : Dev) (r : Req) (c : Clock) (v : Word) :
    d.writeReg r c Reg.FLT_INJECT_DETAIL v = d.setReg Reg.FLT_INJECT_DETAIL v := by
  have hp : d.plain Reg.FLT_INJECT_DETAIL v = d.setReg Reg.FLT_INJECT_DETAIL v := by
    unfold Dev.plain
    rw [injectDetail_row]
    dsimp only
    rw [injectDetail_store]
  have hb : d.writeBlock r c Reg.FLT_INJECT_DETAIL v = writeFlt c.count Reg.FLT_INJECT_DETAIL v d := rfl
  unfold Dev.writeReg
  rw [injectDetail_row]
  dsimp only
  rw [if_neg (show ¬ d.fwdRefuses injectDetailRow _ = true from Bool.false_ne_true), hb, ← hp]
  unfold writeFlt
  rw [if_neg (by decide), if_neg (by decide), if_neg (by decide), if_neg (by decide), if_neg (by decide)]

theorem regWrite_injectDetail (d : Dev) (r : Req) (c : Clock) (v : Word) :
    d.regWrite r c Reg.FLT_INJECT_DETAIL v = d.setReg Reg.FLT_INJECT_DETAIL v := by
  rw [regWrite_single (injectDetail_not_low d) (injectDetail_not_high d), writeReg_injectDetail]

theorem peek_injectDetail (d : Dev) (r : Req) (now : Nat) (idn : Ident) :
    d.peek r now idn Reg.FLT_INJECT_DETAIL = d.reg Reg.FLT_INJECT_DETAIL := by
  have hv : d.view r now idn Reg.FLT_INJECT_DETAIL = none := rfl
  have hm : wd (injectDetailRow.rw ||| injectDetailRow.ro ||| injectDetailRow.w1c ||| injectDetailRow.w1s) = BitVec.allOnes 32 := by
    decide
  unfold Dev.peek
  rw [injectDetail_row]
  dsimp only
  rw [hv, if_neg (by decide), hm, Nat.zero_mul, Nat.add_zero, BitVec.and_allOnes]

end Sys2Proof.Machine
end

section
/-!
SUPPORT. What each command of the family answers: the test port (R556), register accesses (R10 to R12, R48), an alert (R459)
and a DMA timeout (R485, R487).
-/

namespace Sys2Proof.Machine

/-! The test port. -/

/-- The IDCODE word: revision 1, part number 0x3200, the manufacturer's code and a 1 (R556). -/
theorem idcode_fields {n : Nat} (h : n < 2 ^ 11) : let w := leVal (leBytes 4 (2 ^ 28 + 0x3200 * 2 ^ 12 + n * 2 + 1))
    w % 2 = 1 ∧ w / 2 ^ 12 = 0x13200 := by
  dsimp only
  rw [leVal_leBytes]
  norm_num
  omega

theorem boundaryScan_sample (d : Dev) (v : Boundary) : d.boundaryScan .sample v =
    { d with dbg := { d.dbg with tap := .sample, boundary := v }, resp := leBytes 16 (d.tapped .sample).captured,
             free := d.free + 4 } := by
  unfold Dev.boundaryScan
  rw [tapLoad_free rfl]
  rfl

/-- An instruction that takes the pins stops both heartbeats (R420). -/
theorem tapLoad_stops {d : Dev} {x : Tap} (h : (d.tapped x).tapFree = false) :
    (d.tapLoad x).dbg = { d.dbg with tap := x } ∧ (d.tapLoad x).heartsOff ∧ (d.tapLoad x).pins = d.pins := by
  rw [tapLoad_takes h, hbStopAll_dbg, hbStopAll_pins]
  exact ⟨rfl, hbStopAll_off _, rfl⟩

theorem tapLoad_stops_tap {d : Dev} {x : Tap} (h : (d.tapped x).tapFree = false) :
    (d.tapLoad x).dbg.tap = x ∧ (d.tapLoad x).heartsOff ∧ (d.tapLoad x).pins = d.pins := by
  obtain ⟨hd, hs⟩ := tapLoad_stops h
  exact ⟨congrArg Dbg.tap hd, hs⟩

theorem boundaryScan_extest (d : Dev) (v : Boundary) : (d.boundaryScan .extest v).dbg = { d.dbg with tap := .extest, boundary := v } ∧
    (d.boundaryScan .extest v).heartsOff ∧ (d.boundaryScan .extest v).resp.length = 16 := by
  obtain ⟨hd, ho, -⟩ := tapLoad_stops (d := d) (x := .extest) rfl
  refine ⟨?_, heartsOff_of ho (fun _ _ => rfl) rfl, leBytes_length _ _⟩
  show ({ (d.tapLoad .extest).dbg with boundary := v } : Dbg) = _
  rw [hd]

theorem readReg_injectDetail (d : Dev) (r : Req) (now : Nat) (idn : Ident) :
    d.readReg r now idn Reg.FLT_INJECT_DETAIL = (d.reg Reg.FLT_INJECT_DETAIL, d) := by
  rw [readReg_single (injectDetail_not_low d) (injectDetail_not_high d) (by rw [injectDetail_row]; rfl), peek_injectDetail]

theorem tapLoad_dbgAccess (d : Dev) : d.tapLoad .dbgAccess = d.tapped .dbgAccess := tapLoad_free rfl

/-- While jtag_en is 0, DBG_ACCESS loads its instruction and reaches no register (R556). -/
theorem exec_dbgAccess_off {s : State} {off : Nat} (h : s.dev.rb Reg.DBG_CTL 0 = false) (ho : off < 2 ^ 26) (a : RegAcc) :
    exec (.dbgAccess off a) s = .next (s.withDev (s.dev.tapped .dbgAccess)) := by
  have hf : dbgAccess off a s.clk s.idn s.dev = s.dev.tapped .dbgAccess := by
    unfold dbgAccess
    rw [if_neg (by simp [h]), tapLoad_dbgAccess]
  rw [exec_dbgAccess, runAll_kept (inRegs_of_lt ho) (by unfold dbgClock; rw [h]) (by unfold dbgIdent; rw [h]), hf]

/-- While jtag_en is 1, DBG_ACCESS makes the host's access; one that writes neither TIM_CMD nor ATL_MEAS moves neither the
time nor a measurement. -/
theorem exec_dbgAccess_on {s : State} {off : Nat} (h : s.dev.rb Reg.DBG_CTL 0 = true) (ho : off < 2 ^ 26) (ht : off ≠ Reg.TIM_CMD)
    (hm : off ≠ Reg.ATL_MEAS) (a : RegAcc) :
    exec (.dbgAccess off a) s = .next (s.withDev ((s.dev.tapped .dbgAccess).regAccess .host s.clk s.idn off a)) := by
  have hc : dbgClock off a s.dev s.clk = s.clk := by
    unfold dbgClock
    rw [h]
    cases a with
    | read => rfl
    | write v => exact regWriteClock_ne ht _ _ _
  have hi : dbgIdent off a s.dev s.idn = s.idn := by
    unfold dbgIdent
    rw [h]
    cases a with
    | read => rfl
    | write v => exact regWriteIdent_ne hm _ _ _ _
  have hf : dbgAccess off a s.clk s.idn s.dev = (s.dev.tapped .dbgAccess).regAccess .host s.clk s.idn off a := by
    unfold dbgAccess
    rw [if_pos h, tapLoad_dbgAccess]
  rw [exec_dbgAccess, runAll_kept (inRegs_of_lt ho) hc hi, hf]

/-! Register accesses. -/

theorem registerWrite_word {d : Dev} (h : d.pins.resetN = true) (r : Req) (off : Nat) (v : Word) (c : Clock) (idn : Ident) :
    Dev.live (registerWrite r 4 off v c idn) d = d.regWrite r c off v := by
  rw [live_on h]
  exact regAccess_write h idn

/-- A register write of four bytes is the requester's write. -/
theorem exec_registerWrite_word {s : State} (h : s.dev.pins.resetN = true) {off : Nat} (ho : off < 2 ^ 26) (r : Req) (v : Word) :
    ∃ u, exec (.registerWrite r 4 off v) s = .next u ∧ u.dev = s.dev.regWrite r s.clk off v := by
  rw [exec_registerWrite, ← registerWrite_word h r off v s.clk s.idn]
  exact runAll_dev (inRegs_of_lt ho)

/-- A write of FLT_INJECT_DETAIL stores the word. -/
theorem exec_registerWrite_injectDetail {s : State} (h : s.dev.pins.resetN = true) (r : Req) (v : Word) :
    exec (.registerWrite r 4 Reg.FLT_INJECT_DETAIL v) s = .next (s.withDev (s.dev.setReg Reg.FLT_INJECT_DETAIL v)) := by
  rw [exec_registerWrite, runAll_kept (by decide) ?clk ?idn, registerWrite_word h, regWrite_injectDetail]
  case clk => exact (if_pos h).trans ((if_pos rfl).trans (regWriteClock_ne (by decide) v s.dev s.clk))
  case idn => exact (if_pos h).trans ((if_pos rfl).trans (regWriteIdent_ne (by decide) r v s.dev s.idn))

/-- A host write of another size completes with Unsupported Request (R10). -/
theorem exec_registerWrite_size {s : State} (h : s.dev.pins.resetN = true) {off n : Nat} (ho : off < 2 ^ 26) (hn : n ≠ 4) (v : Word) :
    exec (.registerWrite .host n off v) s = .next (s.withDev { s.dev with resp := [1] }) := by
  have hf : Dev.live (registerWrite .host n off v s.clk s.idn) s.dev = { s.dev with resp := [1] } := by
    rw [live_on h]
    unfold registerWrite Dev.regSized
    rw [if_neg hn, if_pos rfl]
  rw [exec_registerWrite, runAll_kept (inRegs_of_lt ho) ?clk ?idn, hf]
  case clk => exact (if_pos h).trans (if_neg hn)
  case idn => exact (if_pos h).trans (if_neg hn)

/-- An access to a half of a pair is the requester's access (R12). -/
theorem exec_regPairAccess_half {s : State} (h : s.dev.pins.resetN = true) {off : Nat} (ho : off < 2 ^ 26)
    (hp : (s.dev.pairLow off || s.dev.pairHigh off) = true) (r : Req) (a : RegAcc) :
    exec (.regPairAccess r 4 off a) s = .next (s.withDev (s.dev.regAccess r s.clk s.idn off a)) := by
  rw [exec_regPairAccess, runDev_ok (inRegs_of_lt ho), live_on h]
  unfold regPairAccess
  rw [if_pos hp]
  rfl

section
variable {s : State} {off : Nat} {r : Req}

/-- A read of the lower register answers it and captures the upper one for its requester. -/
theorem exec_read_low (h : s.dev.pins.resetN = true) (ho : off < 2 ^ 26) (hp : s.dev.pairLow off = true)
    (hs : (regDesc off).isSome = true) : ∃ e, exec (.regPairAccess r 4 off .read) s = .next (s.withDev e) ∧
      e = { s.dev with resp := e.resp, hold := e.hold } ∧ e.resp = leBytes 4 (s.dev.peek r s.clk.count s.idn off).toNat ∧
      tget none e.hold (holdKey r false off) = some (s.dev.peek r s.clk.count s.idn (off + 4)) := by
  refine ⟨{ s.dev.setHold (holdKey r false off) (some (s.dev.peek r s.clk.count s.idn (off + 4))) with
    resp := leBytes 4 (s.dev.peek r s.clk.count s.idn off).toNat }, ?_, rfl, rfl, setHold_get s.dev _ (some _)⟩
  rw [exec_regPairAccess_half h ho (by rw [hp]; rfl), regAccess_read h, readReg_low hp hs]

/-- A read of the upper register answers what its requester captured, once. -/
theorem exec_read_captured {w : Word} (h : s.dev.pins.resetN = true) (ho : off < 2 ^ 26) (hp : s.dev.pairHigh off = true)
    (hl : s.dev.pairLow off = false) (hs : (regDesc off).isSome = true)
    (hw : tget none s.dev.hold (holdKey r false (off - 4)) = some w) :
    ∃ e, exec (.regPairAccess r 4 off .read) s = .next (s.withDev e) ∧ e = { s.dev with resp := e.resp, hold := e.hold } ∧
      e.resp = leBytes 4 w.toNat ∧ tget none e.hold (holdKey r false (off - 4)) = none := by
  refine ⟨{ s.dev.setHold (holdKey r false (off - 4)) none with resp := leBytes 4 w.toNat }, ?_, rfl, rfl,
    setHold_get s.dev _ none⟩
  rw [exec_regPairAccess_half h ho (by rw [hp, hl]; rfl), regAccess_read h, readReg_captured hp hl hs hw]

theorem exec_write_half (h : s.dev.pins.resetN = true) (ho : off < 2 ^ 26) (hp : s.dev.pairLow off = true) (v : Word) :
    exec (.regPairAccess r 4 off (.write v)) s = .next (s.withDev (s.dev.regWrite r s.clk off v)) := by
  rw [exec_regPairAccess_half h ho (by rw [hp]; rfl), regAccess_write h]

end

/-! An alert and a DMA timeout. -/

theorem ddrAlert_usable {d : Dev} {c : Nat} (h : d.usable c = true) : ddrAlert c d = d.raise Src.drcChanFail c := by
  unfold ddrAlert
  rw [h]
  rfl

theorem isChannel_of_lt {c : Nat} (h : c < 8) : isChannel c = true := decide_eq_true h

theorem isGroup_of_lt {g : Nat} (h : g < 15) : isGroup g = true := decide_eq_true (by omega)

theorem ringSee_host {g : Nat} (h : g < 15) (d : Dev) (now a n : Nat) : d.ringSee now g a n = d := if_neg (by omega)

theorem dmaRead_timeout {g : Nat} (h : g < 15) (d : Dev) (a n : Nat) : d.dmaRead g a n (.fail .timeout) = .error 4 :=
  if_neg (by omega)

section
variable {d : Dev} {g : Nat}

/-- A doorbell-block read that times out puts its group in error with code 2 (R485). -/
theorem timeout_doorbell (hg : g < 15) (hr : d.grpRuns g = true) (h : (d.grp g).reading = true) (now sec nsec : Nat) :
    pcieCompletionTimeout now sec nsec g .doorbell d = d.grpError g 2 := by
  unfold pcieCompletionTimeout
  rw [if_neg (by omega)]
  dsimp only
  unfold doorbellReadDone
  dsimp only
  rw [if_neg (by simp [hr, h]), dmaRead_timeout hg, ringSee_host hg]
  dsimp only
  rw [if_neg (by omega)]

/-- A descriptor read of INJ or PUNT that times out puts its group in error with code 3 (R485). -/
theorem timeout_descriptors {r : FetchRing} (hg : g < 15) (hr : d.grpRuns g = true) (hc : r ≠ .cmd) (h : ((d.grp g).fetchAt r).2 ≠ 0)
    (now sec nsec : Nat) : pcieCompletionTimeout now sec nsec g (.descriptors r) d = d.grpError g 3 := by
  unfold pcieCompletionTimeout
  rw [if_neg (by omega)]
  dsimp only
  unfold descriptorFetchDone
  dsimp only
  rw [if_neg (by simp [hr, h, hc]), if_neg (by omega), dmaRead_timeout hg]
  simp only [ringSee_host hg, List.foldl_fixed, Except.map]
  rw [if_neg (by omega)]

/-- What a timeout that puts its group in error answers. -/
theorem exec_timeout_error {s : State} {use : DmaUse} {code : Nat} (hg : g < 15) (hc : code < 256)
    (h : pcieCompletionTimeout s.clk.count s.clk.sec s.clk.nsec g use s.dev = s.dev.grpError g code) :
    ∃ e, exec (.pcieCompletionTimeout g use) s = .next (s.withDev e) ∧ e.rb (Reg.HST_GRP_W15 g) 31 = false ∧
      e.rb (Reg.HST_GRP_W15 g) 30 = true ∧ e.rf (Reg.HST_GRP_W15 g) 7 0 = code ∧
      e.flt.inbox = s.dev.flt.inbox ++ [⟨Src.hstRingError, wd code, false⟩] := by
  obtain ⟨hstop, herr, hcode, -, -, -, hinbox⟩ := grpError_ok s.dev g code hc
  refine ⟨_, ?_, hstop, herr, hcode, hinbox⟩
  rw [exec_pcieCompletionTimeout, runDev_ok (isGroup_of_lt hg), h]

end

/-- Settles O53: each command by the lemma about what it answers. -/
theorem accessCommands : Obligations.AccessCommands := by
  unfold Obligations.AccessCommands
  intro s
  dsimp only
  refine ⟨?bypass, ?pulse, ?train, ?idcode, ?sample, ?extest, ?clamp, ?highz, ?accessOff, ?accessOn, ?registers, ?alert, ?timeout⟩
  case bypass => rw [exec_jtagBypass, runDev_ok rfl]; rfl
  case pulse => rw [exec_jtagExtestPulse, runDev_ok rfl]; rfl
  case train => rw [exec_jtagExtestTrain, runDev_ok rfl]; rfl
  case idcode =>
    refine ⟨leBytes 4 (2 ^ 28 + 0x3200 * 2 ^ 12 + Config.zwiliaCode % 2 ^ 11 * 2 + 1), ?_, ?_⟩
    · rw [exec_jtagIdcode, runDev_ok rfl]; rfl
    · obtain ⟨hone, hpart⟩ := idcode_fields (Nat.mod_lt Config.zwiliaCode (Nat.two_pow_pos 11))
      exact ⟨hone, hpart, leBytes_length _ _⟩
  case sample =>
    intro v
    refine ⟨leBytes 16 (s.dev.tapped .sample).captured, ?_, leBytes_length _ _, fun cell level hc hl => captured_pin hc hl⟩
    rw [exec_jtagSamplePreload, runDev_ok rfl, jtagSamplePreload, boundaryScan_sample]
  case extest =>
    intro v
    exact ⟨_, (exec_jtagExtest v s).trans (runDev_ok rfl), boundaryScan_extest s.dev v⟩
  case clamp => exact ⟨_, (exec_jtagClamp s).trans (runDev_ok rfl), tapLoad_stops_tap rfl⟩
  case highz => exact ⟨_, (exec_jtagHighz s).trans (runDev_ok rfl), tapLoad_stops_tap rfl⟩
  case accessOff => exact fun h off a ho => exec_dbgAccess_off h ho a
  case accessOn =>
    refine fun h hr => ⟨fun v => ?_, ?_⟩
    · rw [exec_dbgAccess_on h (by decide) (by decide) (by decide), regAccess_write (d := s.dev.tapped .dbgAccess) hr, regWrite_injectDetail]; rfl
    · rw [exec_dbgAccess_on h (by decide) (by decide) (by decide), regAccess_read (d := s.dev.tapped .dbgAccess) hr, readReg_injectDetail]; rfl
  case registers =>
    intro hr r off ho
    refine ⟨fun v => exec_registerWrite_injectDetail hr r v, fun v n hn => exec_registerWrite_size hr ho hn v, ?refused, ?unmapped,
      ?low, ?high⟩
    case refused =>
      intro v x hf hx hw hb hl hp
      rw [← writeReg_forwarding hf hx hw hb, ← regWrite_single hl hp]
      exact exec_registerWrite_word hr ho r v
    case unmapped =>
      intro v hx hl hp
      obtain ⟨u, hu, hd⟩ := exec_registerWrite_word hr ho r v
      rw [regWrite_single hl hp, writeReg_unmapped hx] at hd
      exact ⟨u, hu, by rw [hd, unmapped_inbox], by rw [hd, unmapped_valid]⟩
    case low =>
      refine fun hp hs => ⟨exec_read_low hr ho hp hs, fun v hl => ?_, fun v hl => ?_⟩
      · exact ⟨_, exec_write_half hr ho hp v, regWrite_low_refused hp hl⟩
      · refine ⟨_, exec_write_half hr ho hp v, ?_⟩
        rw [regWrite_low_held hp hl]
        exact ⟨rfl, setHold_get s.dev _ _⟩
    case high =>
      exact fun w hp hl hs hw => exec_read_captured hr ho hp hl hs hw
  case alert =>
    intro c hc hu
    rw [exec_ddrAlertNAsserted, runDev_ok (isChannel_of_lt hc), ddrAlert_usable hu]
  case timeout =>
    refine fun g hg hr => ⟨fun h => ?_, fun r hc h => ?_⟩
    · exact exec_timeout_error hg (by omega) (timeout_doorbell hg hr h _ _ _)
    · exact exec_timeout_error hg (by omega) (timeout_descriptors hg hr hc h _ _ _)

end Sys2Proof.Machine
end

section
/-!
SUPPORT. What a plain write of memory reads back (R39, R8).
-/

namespace Sys2Proof.Machine

/-- Where nothing is poisoned, mirrored or retired, a write of memory only writes the bytes (R432, R443, R446). -/
theorem memWrite_plain {d : Dev} (h : d.plainMem) (a : Nat) (bs : List Byte) : d.memWrite a bs = { d with mem := putBytes d.mem a bs } := by
  obtain ⟨hpoison, hmirrors, hretired⟩ := h
  exact putb hpoison hmirrors hretired

theorem memGet_memWrite_plain {d : Dev} (h : d.plainMem) (a : Nat) (bs : List Byte) (x : Nat) :
    (d.memWrite a bs).memGet x = if a ≤ x ∧ x < a + bs.length then bs.getD (x - a) 0 else d.memGet x := by
  rw [memWrite_plain h]
  exact tget_putBytes d.mem a bs x

/-- Settles O9: the canonical form by the lemma about writes, the bytes by what a plain write reads back. -/
theorem memoryWrites : Obligations.MemoryWrites := by
  unfold Obligations.MemoryWrites
  intro d a bs hwf
  exact ⟨memWrite_wf d a bs hwf, fun hplain => memGet_memWrite_plain hplain a bs⟩

end Sys2Proof.Machine
end

section
/-!
SUPPORT. The supplies and RESET_N (R29, R46, R493, R518, R566, R569): what each of their events leaves.
-/

namespace Sys2Proof.Machine

theorem vddIoGood_low {d : Dev} (h : d.pins.vddIo = false) : vddIoGood d = { Dev.reset with
    free := d.free, mgt := d.keptMgt
    pins := { pinsUp with vddCore := false, resetN := false, pwrfailN := false, refclk := d.pins.refclk } } := by
  unfold vddIoGood
  rw [if_neg (by simp [h])]

theorem vddCoreGood_rises {d : Dev} (hio : d.pins.vddIo = true) (hcore : d.pins.vddCore = false) :
    vddCoreGood d = { d with pins := { d.pins with vddCore := true } } := by
  unfold vddCoreGood
  rw [if_neg (by simp [hio, hcore])]

/-- The memories survive RESET_N and every other structure is as it is at reset (log entry 16). -/
theorem resetAssert_cleared (d : Dev) : ∃ regs, resetAssert d = { Dev.reset with
    regs := regs, mem := d.mem, free := d.free, pins := { d.pins with resetN := false, faultEnd := none }
    hst := { grps := [], posted := d.hst.posted }, prt := { Dev.reset.prt with sent := d.prt.sent }
    flt := (resetAssert d).flt, mgt := d.keptMgt } := by
  unfold resetAssert
  dsimp only
  split <;> exact ⟨_, rfl⟩

/-- A stop in stage 0x4 outlives RESET_N; every other stage does not (R544). -/
theorem resetAssert_stage (d : Dev) : (resetAssert d).stage = if d.stage = 4 then 4 else 0 := by
  unfold resetAssert
  dsimp only
  split
  · exact Dev.rf_setRf_self _ Reg.GLB_RUN_STATE 3 0 4 (by omega) (by omega)
  · refine Eq.trans ?_ reset_stage
    unfold Dev.stage Dev.rf
    rw [foldl_setReg, if_neg (by decide)]
    rfl

theorem resetRelease_begins {d : Dev} (hio : d.pins.vddIo = true) (hcore : d.pins.vddCore = true) (hlow : d.pins.resetN = false)
    (boot : Nat) : resetRelease boot d = { d.setRf Reg.GLB_RUN_STATE 3 0 0 with
      pins := { d.pins with resetN := true, bootSel := boot, pfLow := !d.pins.pwrfailN, pfUp := none }, mgt := { d.mgt with bootSel := boot } } := by
  unfold resetRelease
  rw [if_neg (by simp [hio, hcore, hlow])]
  rfl

/-- The end of the cache invalidation (R46), written out. -/
theorem cacheInvalidationDone_starts {d : Dev} (hstage : d.stage = 0) (hreset : d.pins.resetN = true) (href : d.pins.refclk = true) :
    cacheInvalidationDone d = ((((d.setReg Reg.GLB_CLK_STATUS (wd ((d.reg Reg.GLB_CLK_STATUS).toNat ||| clocksUp))).setReg
      Reg.GLB_PCLK_STATUS 0xFFFFF).setRb Reg.TCA_STATUS 31 false).setRf Reg.GLB_RUN_STATE 3 0 1).railUp := by
  unfold cacheInvalidationDone
  rw [if_neg (by simp [hstage, hreset, href])]

theorem railUp_reg_ne {o : Nat} (h : o ≠ Reg.PWR_RAIL_STATUS) (d : Dev) : d.railUp.reg o = d.reg o := d.reg_setReg_ne _ _ _ h

theorem railUp_pins (d : Dev) : d.railUp.pins = d.pins := rfl

/-- Before forwarding the rail's target is 750 mV (R518). -/
theorem vcoreGoal_of_stage_one {d : Dev} (h : d.stage = 1) : d.vcoreGoal = 750 := by
  unfold Dev.vcoreGoal
  rw [if_neg (by omega), if_neg (by omega)]

/-- Once the invalidation of the caches has ended: stage 0x1, the clocks, the table cache and the rail (R46, R518). -/
theorem cacheInvalidationDone_ok {d : Dev} (hstage : d.stage = 0) (hreset : d.pins.resetN = true) (href : d.pins.refclk = true) :
    let e := cacheInvalidationDone d
    e.stage = 1 ∧ (∀ i, i < 29 → e.rb Reg.GLB_CLK_STATUS i = true) ∧ e.rb Reg.TCA_STATUS 31 = false ∧
      e.rb Reg.PWR_RAIL_STATUS 31 = true ∧ e.rf Reg.PWR_RAIL_STATUS 9 0 = 750 ∧ e.pins = d.pins := by
  rw [cacheInvalidationDone_starts hstage hreset href]
  dsimp only
  generalize hc : d.setReg Reg.GLB_CLK_STATUS _ = c
  generalize ht : (c.setReg Reg.GLB_PCLK_STATUS 0xFFFFF).setRb Reg.TCA_STATUS 31 false = t
  have hs : (t.setRf Reg.GLB_RUN_STATE 3 0 1).stage = 1 := Dev.rf_setRf_self t Reg.GLB_RUN_STATE 3 0 1 (by omega) (by omega)
  refine ⟨?stage, fun i hi => ?clocks, ?cache, railUp_rb _, ?target, ?pins⟩
  case stage => exact (rf_of_reg (railUp_reg_ne (by decide) _) 3 0).trans hs
  case clocks =>
    rw [rb_of_reg (railUp_reg_ne (by decide) _), rb_of_reg (t.reg_setRf_ne _ _ _ _ _ (by decide)), ← ht,
      rb_of_reg (Dev.reg_setRb_ne _ _ _ _ _ (by decide)), c.rb_setReg_ne _ _ _ _ (by decide), ← hc]
    unfold Dev.rb
    rw [Dev.reg_setReg_self]
    exact testBit_or_clocks _ i hi
  case cache =>
    rw [rb_of_reg (railUp_reg_ne (by decide) _), rb_of_reg (t.reg_setRf_ne _ _ _ _ _ (by decide)), ← ht]
    exact Dev.rb_setRb_self _ _ _ _ (by omega)
  case target => rw [railUp_rf, vcoreGoal_of_stage_one hs]
  case pins => rw [railUp_pins, Dev.setRf_pins, ← ht, Dev.setRb_pins, Dev.setReg_pins, ← hc, Dev.setReg_pins]

/-- Settles O31: each event by the lemma about what it leaves. -/
theorem systemSupplies : Obligations.SystemSupplies := by
  unfold Obligations.SystemSupplies
  intro s
  dsimp only
  refine ⟨fun hio => ?ioGood, fun hio hcore => ?coreGood, ?assert, fun boot hb hio hcore hlow => ?release,
    fun hstage hreset href => ?invalidated, ?ioLoss⟩
  case ioGood =>
    refine ⟨_, (exec_vddIoGood s).trans (runDev_ok rfl), ?_⟩
    rw [vddIoGood_low hio]
    exact ⟨reset_reg, rfl, rfl, rfl, rfl⟩
  case coreGood => rw [exec_vddCoreGood, runDev_ok rfl, vddCoreGood_rises hio hcore]
  case assert =>
    obtain ⟨hregs, hpins⟩ := resetAssert_ok s.dev
    obtain ⟨regs, hcleared⟩ := resetAssert_cleared s.dev
    refine ⟨resetAssert s.dev, exec_resetNAssert s, hregs, resetAssert_stage s.dev, by rw [hpins], ?_⟩
    rw [hcleared]
    exact ⟨rfl, fun t ht => reset_thr_clu t ht, rfl, rfl, rfl, rfl⟩
  case release =>
    refine ⟨_, (exec_resetNRelease boot s).trans (runDev_ok (decide_eq_true hb)), ?_⟩
    rw [resetRelease_begins hio hcore hlow]
    exact ⟨rfl, rfl, s.dev.rf_setRf_self Reg.GLB_RUN_STATE 3 0 0 (by omega) (by omega), rfl,
      fun o ho => s.dev.reg_setRf_ne _ _ _ _ _ ho⟩
  case invalidated =>
    exact ⟨_, (exec_cacheInvalidationDone s).trans (runDev_ok rfl), cacheInvalidationDone_ok hstage hreset href⟩
  case ioLoss => exact ⟨vddIoLoss s.dev, exec_vddIoLoss s, reset_reg, rfl, rfl, rfl, rfl⟩

end Sys2Proof.Machine
end

section
/-!
SUPPORT. What the Palette's allocation and the parser read: memory, the Palette, DRAM, the free-value counter and the registers
from STN_CTL on. Devices that agree there allocate, walk chains and parse alike.
-/

namespace Sys2Proof.Machine

/-- Two devices agree in what allocation and parsing read. -/
structure palSame (a b : Dev) : Prop where
  mem : a.mem = b.mem
  pal : a.pal = b.pal
  drc : a.drc = b.drc
  free : a.free = b.free
  reg : ∀ {o}, Reg.STN_CTL ≤ o → a.reg o = b.reg o

/-- A register below those that allocation reads. -/
theorem palSame_setReg_low {o : Nat} (h : o < Reg.STN_CTL) (d : Dev) (v : Word) : palSame d (d.setReg o v) :=
  ⟨rfl, rfl, rfl, rfl, fun ho => (d.reg_setReg_ne _ _ _ (by omega)).symm⟩

namespace palSame

variable {a b : Dev}

theorem rf (h : palSame a b) {o : Nat} (ho : Reg.STN_CTL ≤ o) (hi lo : Nat) : a.rf o hi lo = b.rf o hi lo := rf_of_reg (h.reg ho) hi lo

theorem rb (h : palSame a b) {o : Nat} (ho : Reg.STN_CTL ≤ o) (i : Nat) : a.rb o i = b.rb o i := rb_of_reg (h.reg ho) i

theorem setReg (h : palSame a b) (o : Nat) (v : Word) : palSame (a.setReg o v) (b.setReg o v) :=
  ⟨h.mem, h.pal, h.drc, h.free, fun {k} hk => by rw [Dev.reg_setReg, Dev.reg_setReg, h.reg hk]⟩

theorem setPal (h : palSame a b) (p : Pal) : palSame { a with pal := p } { b with pal := p } :=
  ⟨h.mem, rfl, h.drc, h.free, h.reg⟩

theorem raise (h : palSame a b) (src x : Nat) : palSame (a.raise src x) (b.raise src x) :=
  ⟨h.mem, h.pal, h.drc, h.free, h.reg⟩

/-! The DRAM map and its errors (R429, R432, R443 to R446). -/

theorem grain (h : palSame a b) : a.grain = b.grain := by
  simp only [Dev.grain, h.drc, h.rf (o := Reg.DRC_ILV) (by decide)]

theorem parBase (h : palSame a b) : a.parBase = b.parBase := by
  unfold Dev.parBase
  rw [h.rf (by decide)]

theorem parWg (h : palSame a b) : a.parWg = b.parWg := by
  unfold Dev.parWg
  rw [h.rf (by decide), h.grain]

theorem inParity (h : palSame a b) (x : Nat) : a.inParity x = b.inParity x := by
  unfold Dev.inParity
  rw [h.parBase, h.parWg, h.rb (by decide)]

theorem parityHole (h : palSame a b) (x : Nat) : a.parityHole x = b.parityHole x := by
  unfold Dev.parityHole
  rw [h.parBase, h.parWg, h.rb (by decide)]

theorem stripe (h : palSame a b) (x : Nat) : a.stripe x = b.stripe x := by
  unfold Dev.stripe
  rw [h.parBase, h.parWg, h.grain, h.parityHole]

theorem stripeUnits (h : palSame a b) (x : Nat) : a.stripeUnits x = b.stripeUnits x := by
  unfold Dev.stripeUnits
  rw [h.parBase, h.parWg, h.grain, h.stripe]

theorem dramLoc (h : palSame a b) (x : Nat) : a.dramLoc x = b.dramLoc x := by
  unfold Dev.dramLoc Dev.dramK Dev.dramCmin
  rw [h.drc, h.grain, h.inParity, h.parityHole, h.stripe, h.parBase]

theorem mirrorDelta (h : palSame a b) : a.mirrorDelta = b.mirrorDelta := by
  simp only [Dev.mirrorDelta, h.rf (o := Reg.DRC_MIRROR_DELTA_LO) (by decide), h.rf (o := Reg.DRC_MIRROR_DELTA_HI) (by decide)]

theorem mirrored (h : palSame a b) (x : Nat) : a.mirrored x = b.mirrored x := by simp only [Dev.mirrored, h.drc]

theorem retired (h : palSame a b) (c : Nat) : a.retired c = b.retired c := h.rb (by decide) _

theorem badWords (h : palSame a b) (x n : Nat) : a.badWords x n = b.badWords x n := by simp only [Dev.badWords, h.drc]

theorem burstSound (h : palSame a b) (x : Nat) : a.burstSound x = b.burstSound x := by
  simp only [Dev.burstSound, Dev.chanGood, h.drc, h.dramLoc, h.retired, h.badWords]

theorem recoverable (h : palSame a b) (x : Nat) : a.recoverable x = b.recoverable x := by
  simp only [Dev.recoverable, Dev.mirrorCopy, h.mirrorDelta, h.mirrored, h.burstSound, h.inParity, h.parityHole, h.stripeUnits]

theorem lost (h : palSame a b) (x : Nat) : a.lost x = b.lost x := by
  unfold Dev.lost Dev.fittedDram
  rw [h.drc, h.dramLoc, h.retired, h.recoverable]

theorem poisoned (h : palSame a b) (x n : Nat) : a.poisoned x n = b.poisoned x n := by
  simp only [Dev.poisoned, h.badWords, h.lost, h.rf (o := Reg.DRC_STATUS) (by decide)]

theorem dead (h : palSame a b) (x n : Nat) : a.dead x n = b.dead x n := by
  simp only [Dev.dead, h.poisoned, h.recoverable]

/-! Memory (R39). -/

theorem memRead (h : palSame a b) (x n : Nat) : a.memRead x n = b.memRead x n := by
  simp only [Dev.memRead, Dev.memGet, h.mem]

/-- The same bytes and poison stored in both. -/
theorem setMem (h : palSame a b) (m : Tab Byte) (x : Drc) : palSame { a with mem := m, drc := x } { b with mem := m, drc := x } :=
  ⟨rfl, h.pal, rfl, h.free, h.reg⟩

theorem dramCapture (h : palSame a b) (kind x : Nat) : palSame (a.dramCapture kind x) (b.dramCapture kind x) := by
  unfold Dev.dramCapture Dev.setRb Dev.setRf
  dsimp only
  rw [h.rb (by decide), h.rb (by decide), h.reg (by decide), h.dramLoc]
  split
  · exact h.setReg _ _
  · exact ((h.setReg _ _).setReg _ _).setReg _ _

theorem memWrite (h : palSame a b) (x : Nat) (bs : List Byte) : palSame (a.memWrite x bs) (b.memWrite x bs) := by
  unfold Dev.memWrite
  rw [h.drc, h.rf (by decide), h.mem]
  split
  · exact ⟨rfl, h.pal, rfl, h.free, h.reg⟩
  · unfold Dev.dramWrite
    simp only [h.drc, h.mem, h.lost, h.mirrored, h.mirrorDelta, h.dramLoc]
    split
    · exact (dramCapture (h.setMem _ _) _ _).raise _ _
    · exact h.setMem _ _

/-! The Palette's pools, buffers and counts (R299 to R306). -/

theorem poolValid (h : palSame a b) (p : Nat) : a.poolValid p = b.poolValid p := h.rb (by simp only [Reg.STN_CTL, Reg.PAL_POOL_W0]; omega) _

theorem poolDram (h : palSame a b) (p : Nat) : a.poolDram p = b.poolDram p := h.rb (by simp only [Reg.STN_CTL, Reg.PAL_POOL_W0]; omega) _

theorem poolSize (h : palSame a b) (p : Nat) : a.poolSize p = b.poolSize p := h.rf (by simp only [Reg.STN_CTL, Reg.PAL_POOL_W0]; omega) _ _

theorem poolCount (h : palSame a b) (p : Nat) : a.poolCount p = b.poolCount p := h.rf (by simp only [Reg.STN_CTL, Reg.PAL_POOL_W3]; omega) _ _

theorem poolBase (h : palSame a b) (p : Nat) : a.poolBase p = b.poolBase p := by
  unfold Dev.poolBase
  rw [h.rf (o := Reg.PAL_POOL_W1 p) (by simp only [Reg.STN_CTL, Reg.PAL_POOL_W1]; omega),
    h.rf (o := Reg.PAL_POOL_W2 p) (by simp only [Reg.STN_CTL, Reg.PAL_POOL_W2]; omega)]

theorem poolNext (h : palSame a b) (p : Nat) : a.poolNext p = b.poolNext p := by
  unfold Dev.poolNext
  rw [h.rb (by simp only [Reg.STN_CTL, Reg.PAL_POOL_W0]; omega), h.rf (by simp only [Reg.STN_CTL, Reg.PAL_POOL_W0]; omega)]

theorem charge (h : palSame a b) (x : Word) : a.charge x = b.charge x := by unfold Dev.charge; rw [h.pal]

theorem bufAddr (h : palSame a b) (x : Word) : a.bufAddr x = b.bufAddr x := by
  unfold Dev.bufAddr
  rw [h.poolBase, h.poolSize]

theorem desc (h : palSame a b) (x : Word) : a.desc x = b.desc x := by
  unfold Dev.desc Dev.linkKey Dev.memLe
  rw [h.poolDram, h.poolBase, h.memRead, h.pal, h.bufAddr]

theorem soundBuf (h : palSame a b) (x : Word) : a.soundBuf x = b.soundBuf x := by
  unfold Dev.soundBuf Dev.linkPoisoned
  rw [h.pal, h.poolDram, h.poolBase, h.dead]

theorem ds (h : palSame a b) (x : Word) : a.ds x = b.ds x := by
  unfold Dev.ds
  rw [h.desc, h.soundBuf]

theorem isHead (h : palSame a b) (x : Word) : a.isHead x = b.isHead x := by unfold Dev.isHead; rw [h.pal]

theorem used (h : palSame a b) (o p : Nat) (c : Charge) : a.used o p c = b.used o p c := by unfold Dev.used; rw [h.pal]

theorem ownMin (h : palSame a b) (o p : Nat) : a.ownMin o p = b.ownMin o p := h.rf (by simp only [Reg.STN_CTL, Reg.PAL_OWN_W0]; omega) _ _

theorem ownRepl (h : palSame a b) (o p : Nat) : a.ownRepl o p = b.ownRepl o p := h.rf (by simp only [Reg.STN_CTL, Reg.PAL_OWN_W1]; omega) _ _

theorem ownCap (h : palSame a b) (o p : Nat) : a.ownCap o p = b.ownCap o p := h.rf (by simp only [Reg.STN_CTL, Reg.PAL_OWN_W2]; omega) _ _

theorem remainder (h : palSame a b) (p : Nat) : a.remainder p = b.remainder p := by
  simp only [Dev.remainder, Dev.reserves, h.poolCount, h.ownMin, h.ownRepl]

theorem shFree (h : palSame a b) (p : Nat) : a.shFree p = b.shFree p := by
  have hused : (fun o => a.used o p .shared) = fun o => b.used o p .shared := funext fun o => h.used o p _
  unfold Dev.shFree
  rw [hused, h.remainder]

theorem bufFree (h : palSame a b) (x : Word) : a.bufFree x = b.bufFree x := by
  unfold Dev.bufFree
  rw [h.charge, h.soundBuf, h.pal]

theorem setDesc (h : palSame a b) (x : Word) (v : Nat) : palSame (a.setDesc x v) (b.setDesc x v) := by
  unfold Dev.setDesc Dev.linkKey
  rw [h.poolDram, h.poolBase, h.pal, h.bufAddr]
  split
  · exact h.memWrite _ _
  · exact h.setPal _

theorem setUsed (h : palSame a b) (o p : Nat) (c : Charge) (n : Nat) : palSame (a.setUsed o p c n) (b.setUsed o p c n) := by
  unfold Dev.setUsed
  rw [h.pal]
  exact h.setPal _

theorem setHead (h : palSame a b) (x : Word) (v : Bool) : palSame (a.setHead x v) (b.setHead x v) := by
  unfold Dev.setHead
  rw [h.pal]
  exact h.setPal _

theorem linkAll (h : palSame a b) (l : List Word) : palSame (a.linkAll l) (b.linkAll l) := by
  induction l generalizing a b with
  | nil => exact h
  | cons x r ih =>
    cases r with
    | nil => exact h
    | cons y r =>
      unfold Dev.linkAll
      rw [h.ds]
      exact ih (h.setDesc _ _)

/-! Allocation (R307 to R311). -/

/-- Two allocations from devices that agree: both failed, or both took the same and the devices agree again. -/
inductive took {β : Type} : Option (β × Dev) → Option (β × Dev) → Prop
  | failed : took none none
  | same {x : β} {a b : Dev} (h : palSame a b) : took (some (x, a)) (some (x, b))

theorem pick (h : palSame a b) (n : Nat) : (a.pick n).1 = (b.pick n).1 ∧ palSame (a.pick n).2 (b.pick n).2 := by
  refine ⟨by unfold Dev.pick; rw [h.free], h.mem, h.pal, h.drc, congrArg (· + 1) h.free, h.reg⟩

theorem setCharge (h : palSame a b) (x : Word) (c : Charge) : palSame { a with pal := { a.pal with charge := tset .free a.pal.charge x.toNat c } }
    { b with pal := { b.pal with charge := tset .free b.pal.charge x.toNat c } } := by
  rw [h.pal]
  exact h.setPal _

theorem take (h : palSame a b) (o p : Nat) (c : Charge) : took (a.take o p c) (b.take o p c) := by
  obtain ⟨hfrom, hpick⟩ := h.pick (b.poolCount p)
  unfold Dev.take
  rw [h.poolCount]
  dsimp only
  generalize b.pick (b.poolCount p) = y at hfrom hpick
  generalize a.pick (b.poolCount p) = x at hfrom hpick
  rw [hfrom, show (fun i => x.2.bufFree (mkHandle p (i + 1))) = fun i => y.2.bufFree (mkHandle p (i + 1)) from funext fun i => hpick.bufFree _]
  cases findCyclic (fun i => y.2.bufFree (mkHandle p (i + 1))) y.1 (b.poolCount p) with
  | none => exact .failed
  | some i =>
    dsimp only
    rw [(hpick.setCharge _ _).used]
    exact .same (((hpick.setCharge _ _).setUsed _ _ _ _).setDesc _ _)

theorem took_ite {β : Type} {c : Prop} [Decidable c] {x y x' y' : Option (β × Dev)} (h : took x y) (h' : took x' y') :
    took (if c then x else x') (if c then y else y') := by
  split
  · exact h
  · exact h'

theorem took_iff {β : Type} {x y : Option (β × Dev)} : took x y ↔
    (x = none ∧ y = none) ∨ ∃ r u v, x = some (r, u) ∧ y = some (r, v) ∧ palSame u v := by
  constructor
  · rintro (_ | h)
    · exact .inl ⟨rfl, rfl⟩
    · exact .inr ⟨_, _, _, rfl, rfl, h⟩
  · rintro (⟨rfl, rfl⟩ | ⟨r, u, v, rfl, rfl, h⟩)
    · exact .failed
    · exact .same h

/-- The pool's own part of a buffer: the reserve, while it has room. -/
theorem takeReserve (h : palSame a b) (o p n : Nat) (c : Charge) :
    took (if b.used o p c < n then a.take o p c else none) (if b.used o p c < n then b.take o p c else none) :=
  took_ite (h.take o p c) .failed

theorem takePool (h : palSame a b) (repl : Bool) (o p : Nat) : took (a.takePool repl o p) (b.takePool repl o p) := by
  unfold Dev.takePool
  dsimp only
  rw [h.used, h.used, h.ownRepl, h.ownMin, h.ownCap, h.shFree]
  obtain ⟨hx, hy⟩ | ⟨r, u, v, hx, hy, hsame⟩ := took_iff.mp (h.takeReserve o p (if repl = true then b.ownRepl o p else b.ownMin o p)
    (if repl = true then .repl else .reserve))
  · rw [hx, hy]
    exact took_ite (h.take _ _ _) .failed
  · rw [hx, hy]
    exact .same hsame

theorem allocFrom (h : palSame a b) (repl : Bool) (o n p : Nat) : took (a.allocFrom repl o n p) (b.allocFrom repl o n p) := by
  induction n generalizing p with
  | zero => exact .failed
  | succ n ih =>
    unfold Dev.allocFrom
    rw [h.poolValid, h.poolNext]
    refine took_ite .failed ?_
    obtain ⟨hx, hy⟩ | ⟨r, u, v, hx, hy, hsame⟩ := took_iff.mp (h.takePool repl o p)
    · rw [hx, hy]
      cases b.poolNext p with
      | none => exact .failed
      | some q => exact ih q
    · rw [hx, hy]
      exact .same hsame

theorem alloc (h : palSame a b) (repl : Bool) (o p : Nat) : took (a.alloc repl o p) (b.alloc repl o p) := by
  unfold Dev.alloc
  rw [h.rb (by decide)]
  exact took_ite (h.allocFrom repl o 4 p) .failed

theorem allocBufs (h : palSame a b) (o p n need : Nat) (got : List Word) : took (a.allocBufs o p n need got) (b.allocBufs o p n need got) := by
  induction n generalizing a b need got with
  | zero => exact .failed
  | succ n ih =>
    unfold Dev.allocBufs
    refine took_ite (.same h) ?_
    obtain ⟨hx, hy⟩ | ⟨r, u, v, hx, hy, hsame⟩ := took_iff.mp (h.alloc false o p)
    · rw [hx, hy]
      exact .failed
    · rw [hx, hy]
      dsimp only
      rw [hsame.poolSize]
      exact ih hsame _ _

theorem allocChain (h : palSame a b) (o p n : Nat) : took (a.allocChain o p n) (b.allocChain o p n) := by
  unfold Dev.allocChain
  obtain ⟨hx, hy⟩ | ⟨l, u, v, hx, hy, hsame⟩ := took_iff.mp (h.allocBufs o p 260 (max n 1) [])
  · rw [hx, hy]
    exact .failed
  · rw [hx, hy]
    cases l with
    | nil => exact .failed
    | cons x r => exact .same ((hsame.linkAll _).setHead _ _)

theorem allocChain_eq_none (h : palSame a b) (o p n : Nat) : a.allocChain o p n = none ↔ b.allocChain o p n = none := by
  obtain ⟨hx, hy⟩ | ⟨l, u, v, hx, hy, -⟩ := took_iff.mp (h.allocChain o p n)
  · simp only [hx, hy]
  · simp only [hx, hy, reduceCtorEq]

/-! Chains (R302, R303, R317). -/

theorem chainFrom (h : palSame a b) (n : Nat) (x : Word) : a.chainFrom n x = b.chainFrom n x := by
  induction n generalizing x with
  | zero => rfl
  | succ n ih =>
    unfold Dev.chainFrom
    dsimp only
    rw [h.ds, h.isHead, ih]

theorem chain (h : palSame a b) (x : Word) : a.chain x = b.chain x := by
  unfold Dev.chain
  rw [h.chainFrom]

theorem quarantined (h : palSame a b) (x : Word) : a.quarantined x = b.quarantined x := by
  unfold Dev.quarantined
  simp only [h.chain, h.ds]

theorem frameBad (h : palSame a b) (x : TmItem) : a.frameBad x = b.frameBad x := by
  unfold Dev.frameBad Dev.poisonedBuf
  simp only [h.chain, h.dead, h.bufAddr, h.poolSize, h.quarantined, h.soundBuf]

theorem bufBytes (h : palSame a b) (l : List Word) : a.bufBytes l = b.bufBytes l := by
  induction l with
  | nil => rfl
  | cons x r ih =>
    unfold Dev.bufBytes
    rw [h.memRead, h.bufAddr, h.poolSize, ih]

theorem payload (h : palSame a b) (x : Word) (n : Nat) : a.payload x n = b.payload x n := by
  unfold Dev.payload
  simp only [h.chain, h.ds, h.bufBytes]

/-! The parse (R194 to R200). -/

theorem prsReg (h : palSame a b) (bank : Nat) {off : Nat} (ho : Reg.STN_CTL ≤ off) : a.prsReg bank off = b.prsReg bank off :=
  h.reg (by omega)

theorem ttMatch (h : palSame a b) (bank sel mask i n : Nat) : a.ttMatch bank sel mask i n = b.ttMatch bank sel mask i n := by
  induction n generalizing i with
  | zero => rfl
  | succ n ih =>
    unfold Dev.ttMatch
    rw [h.prsReg bank (off := Reg.PRS_TT_W0 i) (by simp only [Reg.STN_CTL, Reg.PRS_TT_W0]; omega),
      h.prsReg bank (off := Reg.PRS_TT_W1 i) (by simp only [Reg.STN_CTL, Reg.PRS_TT_W1]; omega),
      h.prsReg bank (off := Reg.PRS_TT_W2 i) (by simp only [Reg.STN_CTL, Reg.PRS_TT_W2]; omega), ih]

theorem parseStep (h : palSame a b) (bank : Nat) (win : List Byte) (avail exEnd st : Nat) (x : ParseSt) :
    a.parseStep bank win avail exEnd st x = b.parseStep bank win avail exEnd st x := by
  have hentry : ∀ i, a.prsReg bank (Reg.PRS_TT_W2 i) = b.prsReg bank (Reg.PRS_TT_W2 i) :=
    fun i => h.prsReg bank (by simp only [Reg.STN_CTL, Reg.PRS_TT_W2]; omega)
  unfold Dev.parseStep
  rw [h.prsReg bank (off := Reg.PRS_STATE_W0 st) (by simp only [Reg.STN_CTL, Reg.PRS_STATE_W0]; omega),
    h.prsReg bank (off := Reg.PRS_STATE_W1 st) (by simp only [Reg.STN_CTL, Reg.PRS_STATE_W1]; omega),
    h.prsReg bank (off := Reg.PRS_STATE_W2 st) (by simp only [Reg.STN_CTL, Reg.PRS_STATE_W2]; omega),
    h.prsReg bank (off := Reg.PRS_STATE_W3 st) (by simp only [Reg.STN_CTL, Reg.PRS_STATE_W3]; omega)]
  simp only [h.ttMatch, hentry]

theorem parseGo (h : palSame a b) (bank : Nat) (win : List Byte) (avail exEnd limEnd n st : Nat) (x : ParseSt) :
    a.parseGo bank win avail exEnd limEnd n st x = b.parseGo bank win avail exEnd limEnd n st x := by
  induction n generalizing st x with
  | zero => rfl
  | succ n ih =>
    unfold Dev.parseGo
    simp only [h.parseStep, ih]

theorem parsePkt (h : palSame a b) (p : Pkt) : a.parsePkt p = b.parsePkt p := by
  unfold Dev.parsePkt
  simp only [h.rf (o := Reg.PRS_CTL) (by decide), h.payload, h.parseGo,
    h.prsReg _ (off := Reg.PRS_PORT_START p.port) (by simp only [Reg.STN_CTL, Reg.PRS_PORT_START]; omega)]

end palSame

end Sys2Proof.Machine
end

section
/-!
SUPPORT. What the Palette's allocation and release leave alone: everything but memory, the Palette, DRAM, fault reports, the
free-value counter and the registers from PAL_CTL on.
-/

namespace Sys2Proof.Machine

/-- A property of devices that no write of the Palette, of memory or of the DRAM controller ends. -/
structure PalClosed (P : Dev → Prop) : Prop where
  store : ∀ {d} (m : Tab Byte) (x : Drc), P d → P { d with mem := m, drc := x }
  pal : ∀ {d} (x : Pal), P d → P { d with pal := x }
  free : ∀ {d} (n : Nat), P d → P { d with free := n }
  raise : ∀ {d} (src x : Nat), P d → P (d.raise src x)
  reg : ∀ {d o} (v : Word), Reg.PAL_CTL ≤ o → P d → P (d.setReg o v)

namespace PalClosed

variable {P : Dev → Prop} {d : Dev}

theorem dramCapture (hP : PalClosed P) (kind a : Nat) (h : P d) : P (d.dramCapture kind a) := by
  unfold Dev.dramCapture
  split
  · exact hP.reg _ (by decide) h
  · exact hP.reg _ (by decide) (hP.reg _ (by decide) (hP.reg _ (by decide) h))

theorem memWrite (hP : PalClosed P) (a : Nat) (bs : List Byte) (h : P d) : P (d.memWrite a bs) := by
  unfold Dev.memWrite
  split
  · exact hP.store _ _ h
  · unfold Dev.dramWrite
    dsimp only
    split
    · exact hP.raise _ _ (hP.dramCapture _ _ (hP.store _ _ h))
    · exact hP.store _ _ h

theorem dramPoison (hP : PalClosed P) (kind a : Nat) (h : P d) : P (d.dramPoison kind a) := by
  unfold Dev.dramPoison
  refine hP.store _ _ (hP.raise _ _ (hP.dramCapture _ _ (hP.reg _ ?_ (hP.reg _ (by decide) h))))
  simp only [Reg.PAL_CTL, Reg.DRC_CHAN_W2]
  omega

theorem dramRecover (hP : PalClosed P) (a : Nat) (h : P d) : P (d.dramRecover a) := by
  unfold Dev.dramRecover
  refine hP.raise _ _ (hP.reg _ ?_ (hP.store _ _ h))
  simp only [Reg.PAL_CTL, Reg.DRC_CHAN_W2]
  omega

theorem seeDram (hP : PalClosed P) (a n : Nat) (h : P d) : P (d.seeDram a n) := by
  unfold Dev.seeDram
  split
  · exact h
  · refine foldl_inv _ P (fun x e hx => ?_) _ _ h
    split
    · exact hx
    · split
      · exact hP.dramRecover _ hx
      · exact hP.dramPoison _ _ hx

theorem setDesc (hP : PalClosed P) (x : Word) (v : Nat) (h : P d) : P (d.setDesc x v) := by
  unfold Dev.setDesc
  split
  · exact hP.memWrite _ _ h
  · exact hP.pal _ h

theorem setDs (hP : PalClosed P) (x : Word) (v : Desc) (h : P d) : P (d.setDs x v) := hP.setDesc _ _ h

/-! Allocation (R307 to R311). -/

theorem take (hP : PalClosed P) {o p : Nat} {c : Charge} {x : Word × Dev} (h : P d) (hx : d.take o p c = some x) : P x.2 := by
  unfold Dev.take at hx
  dsimp only at hx
  split at hx
  · cases hx
  · cases hx
    exact hP.setDs _ _ (hP.pal _ (hP.pal _ (hP.free _ h)))

theorem takePool (hP : PalClosed P) {b : Bool} {o p : Nat} {x : Word × Dev} (h : P d) (hx : d.takePool b o p = some x) : P x.2 := by
  unfold Dev.takePool at hx
  dsimp only at hx
  split at hx
  · next y hy =>
    cases hx
    exact palOnly_ite hy (hP.take h) (fun hnone => by cases hnone)
  · exact palOnly_ite hx (hP.take h) (fun hnone => by cases hnone)

theorem allocFrom (hP : PalClosed P) {b : Bool} {o n p : Nat} {x : Word × Dev} (h : P d) (hx : d.allocFrom b o n p = some x) : P x.2 := by
  induction n generalizing p with
  | zero => cases hx
  | succ n ih =>
    unfold Dev.allocFrom at hx
    split at hx
    · cases hx
    · split at hx
      · next y hy =>
        cases hx
        exact hP.takePool h hy
      · split at hx
        · exact ih hx
        · cases hx

theorem alloc (hP : PalClosed P) {b : Bool} {o p : Nat} {x : Word × Dev} (h : P d) (hx : d.alloc b o p = some x) : P x.2 :=
  palOnly_ite hx (hP.allocFrom h) (fun hnone => by cases hnone)

theorem allocBufs (hP : PalClosed P) {o p n need : Nat} {got : List Word} {x : List Word × Dev} (h : P d)
    (hx : d.allocBufs o p n need got = some x) : P x.2 := by
  induction n generalizing d need got with
  | zero => cases hx
  | succ n ih =>
    unfold Dev.allocBufs at hx
    split at hx
    · cases hx
      exact h
    · split at hx
      · cases hx
      · next y e hy => exact ih (hP.alloc h hy) hx

theorem linkAll (hP : PalClosed P) (l : List Word) (h : P d) : P (d.linkAll l) := by
  induction l generalizing d with
  | nil => exact h
  | cons a r ih =>
    cases r with
    | nil => exact h
    | cons b r => exact ih (hP.setDs _ _ h)

theorem allocChain (hP : PalClosed P) {o p n : Nat} {x : Word × Dev} (h : P d) (hx : d.allocChain o p n = some x) : P x.2 := by
  unfold Dev.allocChain at hx
  split at hx
  · next y r e hy =>
    cases hx
    exact hP.pal _ (hP.linkAll _ (hP.allocBufs h hy))
  · cases hx

theorem fillBufs (hP : PalClosed P) (l : List Word) (bs : List Byte) (h : P d) : P (d.fillBufs l bs) := by
  induction l generalizing d bs with
  | nil => exact h
  | cons a r ih => exact ih _ (hP.memWrite _ _ h)

/-! Release (R309, R312 to R314). -/

theorem meetLink (hP : PalClosed P) (x : Word) (h : P d) : P (d.meetLink x) := by
  have hseen : P (if d.poolDram (hPool x) = true then d.seeDram (d.poolBase (hPool x) - 8 * hIdx x) 8 else d) := by
    split
    · exact hP.seeDram _ _ h
    · exact h
  unfold Dev.meetLink
  split
  · exact h
  · dsimp only
    split
    · exact hP.raise _ _ (hP.pal _ hseen)
    · exact hseen

theorem meetLinks (hP : PalClosed P) (x : Word) (h : P d) : P (d.meetLinks x) :=
  foldl_inv _ P (fun _ a hb => hP.meetLink a hb) _ _ h

theorem settleBuf (hP : PalClosed P) (x : Word) (v : Desc) (f : Pal → Pal) (h : P d) : P (d.settleBuf x v f) :=
  hP.pal _ (hP.pal _ (hP.setDs _ _ h))

theorem freeBuf (hP : PalClosed P) (x : Word) (h : P d) : P (d.freeBuf x) := by
  unfold Dev.freeBuf
  dsimp only
  split
  · exact hP.meetLink _ h
  · split
    · exact hP.settleBuf _ _ _ (hP.pal _ (hP.pal _ h))
    · exact hP.settleBuf _ _ _ (hP.pal _ h)

theorem freeBufs (hP : PalClosed P) (l : List Word) (h : P d) : P (l.foldl Dev.freeBuf d) :=
  foldl_inv _ P (fun _ a hb => hP.freeBuf a hb) _ _ h

theorem palReject (hP : PalClosed P) (f : PalFn) (o : Nat) (x : Word) (r : Nat) (h : P d) : P (d.palReject f o x r) := by
  have hcount : P (d.bump Reg.PAL_REJECT_CNT 1) := hP.reg _ (by decide) h
  unfold Dev.palReject
  refine hP.raise _ _ ?_
  split
  · exact hP.reg _ (by decide) hcount
  · exact hP.reg _ (by decide) (hP.reg _ (by decide) hcount)

/-- The head's own descriptor is met first. -/
theorem meetHead (hP : PalClosed P) (x : Word) (h : P d) : P (if d.hValid x = true then d.meetLink x else d) := by
  split
  · exact hP.meetLink _ h
  · exact h

theorem pdropAs (hP : PalClosed P) (f : PalFn) (o : Nat) (x : Word) (h : P d) : P (d.pdropAs f o x) := by
  have hmet := hP.meetHead x h
  unfold Dev.pdropAs
  generalize (if d.hValid x = true then d.meetLink x else d) = e at hmet
  dsimp only
  split
  · exact hP.palReject _ _ _ _ hmet
  · split
    · exact hP.palReject _ _ _ _ hmet
    · split
      · exact hP.freeBufs _ hmet
      · exact hP.setDs _ _ hmet

theorem pfreeAs (hP : PalClosed P) (f : PalFn) (o : Nat) (x : Word) (h : P d) : P (d.pfreeAs f o x) := by
  have hmet := hP.meetHead x h
  unfold Dev.pfreeAs
  generalize (if d.hValid x = true then d.meetLink x else d) = e at hmet
  dsimp only
  split
  · exact hP.palReject _ _ _ _ hmet
  · split
    · exact hP.freeBufs _ hmet
    · split
      · exact hP.palReject _ _ _ _ hmet
      · split
        · exact hP.freeBufs _ hmet
        · exact hP.setDs _ _ hmet

theorem release (hP : PalClosed P) (o : Nat) (x : Word) (h : P d) : P (d.release o x) := by
  have hmet : P (if d.hValid x = true then d.meetLinks x else d) := by
    split
    · exact hP.meetLinks _ h
    · exact h
  unfold Dev.release
  generalize (if d.hValid x = true then d.meetLinks x else d) = e at hmet
  dsimp only
  split
  · exact hP.setDs _ _ (hP.freeBufs _ hmet)
  · split
    · exact hP.pfreeAs _ _ _ hmet
    · split
      · exact hP.pfreeAs _ _ _ hmet
      · exact hP.pdropAs _ _ _ hmet

theorem releaseCopy (hP : PalClosed P) (o : Nat) (x : TmItem) (h : P d) : P (d.releaseCopy o x) := by
  have hreads : P (d.endReads x.handle) := hP.store _ _ h
  unfold Dev.releaseCopy
  refine hP.release _ _ ?_
  split
  · exact hreads
  · exact hP.freeBuf _ hreads

end PalClosed

/-- Only what the Palette may write differs, and of the registers only those from PAL_CTL on. -/
def palKeeps (d d' : Dev) : Prop := palOnly d d' ∧ ∀ o, o < Reg.PAL_CTL → d'.reg o = d.reg o

theorem palKeeps_refl (d : Dev) : palKeeps d d := ⟨palOnly_refl d, fun _ _ => rfl⟩

theorem palKeeps_trans {a b c : Dev} (h : palKeeps a b) (h' : palKeeps b c) : palKeeps a c :=
  ⟨palOnly_trans h.1 h'.1, fun o ho => (h'.2 o ho).trans (h.2 o ho)⟩

theorem palKeeps_closed (d : Dev) : PalClosed (palKeeps d) where
  store _ _ h := palKeeps_trans h ⟨⟨_, _, _, _, _, _, rfl⟩, fun _ _ => rfl⟩
  pal _ h := palKeeps_trans h ⟨⟨_, _, _, _, _, _, rfl⟩, fun _ _ => rfl⟩
  free _ h := palKeeps_trans h ⟨⟨_, _, _, _, _, _, rfl⟩, fun _ _ => rfl⟩
  raise _ _ h := palKeeps_trans h ⟨palOnly_raise _ _ _, fun _ _ => rfl⟩
  reg _ ho h := palKeeps_trans h ⟨palOnly_setReg _ _ _, fun _ hk => Dev.reg_setReg_ne _ _ _ _ (by omega)⟩

/-- A chain taken and filled with a frame. -/
theorem palKeeps_stored {d u : Dev} {o p n : Nat} {h : Word} (hchain : d.allocChain o p n = some (h, u)) (l : List Word) (bs : List Byte) :
    palKeeps d (u.fillBufs l bs) :=
  (palKeeps_closed d).fillBufs l bs ((palKeeps_closed d).allocChain (palKeeps_refl d) hchain)

theorem palKeeps_release (d : Dev) (o : Nat) (x : Word) : palKeeps d (d.release o x) := (palKeeps_closed d).release o x (palKeeps_refl d)

theorem palKeeps_releaseCopy (d : Dev) (o : Nat) (x : TmItem) : palKeeps d (d.releaseCopy o x) :=
  (palKeeps_closed d).releaseCopy o x (palKeeps_refl d)

end Sys2Proof.Machine
end

section
/-!
SUPPORT. The order of the packets that wait for the parser (R34), and what the ingress cell writer leaves (R22, R309).
-/

namespace Sys2Proof.Machine

theorem dropWhile_head {α : Type} (f : α → Bool) (l : List α) : ∀ x ∈ (l.dropWhile f).head?, f x = false := by
  intro x hx
  have h := List.head?_dropWhile_not f l
  simpa [hx, Option.mem_def.mp hx] using h

/-- A packet stands behind those of earlier cycles and, within its cycle, of lower ports (R34, log entry 119). -/
theorem enqueueIn_place (d : Dev) (p : Pkt) : ∃ pre post, d.prs.inq = pre ++ post ∧ (d.enqueueIn p).prs.inq = pre ++ p :: post ∧
    post.length ≤ d.prs.fresh ∧ ∀ q ∈ post.head?, p.port < q.port := by
  have hnew : (d.prs.inq.drop (d.prs.inq.length - min d.prs.fresh d.prs.inq.length)).length ≤ d.prs.fresh := by
    rw [List.length_drop]
    omega
  refine ⟨_, _, ?_, rfl, ?_, fun q hq => ?_⟩
  · rw [List.append_assoc, List.takeWhile_append_dropWhile, List.take_append_drop]
  · exact (List.dropWhile_sublist _).length_le.trans hnew
  · simpa using dropWhile_head _ _ q hq

/-- What waits for the parser of a frame that the ingress cell writer has put into a chain. -/
def ingressPkt (d : Dev) (p : Nat) (h : Word) (bs : List Byte) (sec ns : Nat) : Pkt :=
  { handle := h, owner := d.portOwner p, len := bs.length, port := p, tsNs := ns, tsSec := sec % 2 ^ 32, recircs := 0, recirc := none }

theorem ingress_stored {d u : Dev} {p : Nat} {h : Word} {bs : List Byte} (hroom : d.fifoRoom p bs.length = true)
    (hchain : d.allocChain (d.portOwner p) (d.rf (Reg.PAL_OWNER (d.portOwner p)) 3 0) bs.length = some (h, u)) (sec ns : Nat) :
    d.ingress p bs sec ns = (u.fillBufs (u.chain h) bs).enqueueIn (ingressPkt d p h bs sec ns) := by
  unfold Dev.ingress
  rw [if_neg (by simp [hroom])]
  dsimp only
  rw [hchain]
  rfl

theorem stored_prs {d u : Dev} {o p n : Nat} {h : Word} (hchain : d.allocChain o p n = some (h, u)) (l : List Word) (bs : List Byte) :
    (u.fillBufs l bs).prs = d.prs := by
  obtain ⟨_, _, _, _, _, _, hkeep⟩ := (palKeeps_stored hchain l bs).1
  rw [hkeep]

/-- A frame that the ingress cell writer takes waits for the parser. -/
theorem ingress_taken {d : Dev} {p : Nat} {bs : List Byte} (hroom : d.fifoRoom p bs.length = true)
    (hchain : d.allocChain (d.portOwner p) (d.rf (Reg.PAL_OWNER (d.portOwner p)) 3 0) bs.length ≠ none) (sec ns : Nat) :
    ∃ h pre post, d.prs.inq = pre ++ post ∧ (d.ingress p bs sec ns).prs.inq = pre ++ ingressPkt d p h bs sec ns :: post ∧
      post.length ≤ d.prs.fresh ∧ ∀ q ∈ post.head?, p < q.port := by
  obtain ⟨⟨h, u⟩, hu⟩ := Option.ne_none_iff_exists'.mp hchain
  have hplace := enqueueIn_place (u.fillBufs (u.chain h) bs) (ingressPkt d p h bs sec ns)
  rw [stored_prs hu, ← ingress_stored hroom hu] at hplace
  exact ⟨h, hplace⟩

end Sys2Proof.Machine
end

section
/-!
SUPPORT. The receive MAC (R21, R65, R405, R409): the checks in their order, and what each leaves.
-/

namespace Sys2Proof.Machine

/-- The frame does not end with the FCS of what stands before it. -/
abbrev fcsBad (frame : List Byte) : Prop :=
  frame.length < 4 ∨ fcsBytes (frame.take (frame.length - 4)) ≠ frame.drop (frame.length - 4)

theorem not_fcsBad {frame : List Byte} : ¬ fcsBad frame ↔
    4 ≤ frame.length ∧ fcsBytes (frame.take (frame.length - 4)) = frame.drop (frame.length - 4) := by
  rw [not_or, Nat.not_lt, not_not]

/-- The header of an Unnova frame of n bytes without its FCS is of another type or subtype, or its length goes beyond the
frame (R409). -/
abbrev unnovaBad (body : List Byte) (n : Nat) : Prop :=
  (byteAt body 0).toNat / 16 ≠ 1 ∨ 1 < (byteAt body 0).toNat % 16 ∨ n < 16 + beVal (slice body 10 2)

theorem not_unnovaBad {body : List Byte} {n : Nat} : ¬ unnovaBad body n ↔
    (byteAt body 0).toNat / 16 = 1 ∧ (byteAt body 0).toNat % 16 ≤ 1 ∧ 16 + beVal (slice body 10 2) ≤ n := by
  rw [not_or, not_or, Nat.not_lt, Nat.not_lt, not_not]

/-- What a port of a kind hands on of a frame without its FCS: an Unnova frame without its padding (R409). -/
def macBody (kind : Nat) (body : List Byte) : List Byte := if kind = 2 then body.take (16 + beVal (slice body 10 2)) else body

/-- The time of a frame's start, with the port's rx_delay added (R414). -/
def Dev.rxTime (d : Dev) (p sec nsec : Nat) : Nat × Nat := addNs sec nsec (sintN 16 (d.rf (Reg.PRT_PORT_W1 p) 31 16))

/-- A held port counts and drops every frame (R65). -/
theorem frameReceive_held {d : Dev} {p : Nat} (h : d.prtState p = 5) (sec nsec : Nat) (frame : List Byte) :
    frameReceive sec nsec p frame d = d.bump (Reg.PRT_CNT p 6) 1 := by
  unfold frameReceive
  rw [if_pos h]
  rfl

section

variable {d : Dev} {p : Nat} {frame : List Byte} (hup : d.prtState p = 4) (hrun : d.portChanging p = false) (sec nsec : Nat)
include hup hrun

theorem frameReceive_fcs (h : fcsBad frame) : frameReceive sec nsec p frame d = d.bump (Reg.PRT_CNT p 1) 1 := by
  unfold frameReceive
  rw [if_neg (by omega), if_neg (by simp [hup, hrun])]
  dsimp only
  rw [if_pos h]
  rfl

/-- The receive MAC behind the FCS check. -/
theorem frameReceive_checked (h : ¬ fcsBad frame) : frameReceive sec nsec p frame d =
    if frame.length < (if d.prtKind p = 4 then 5 else 64) then d.bump (Reg.PRT_CNT p 2) 1
    else if d.maxFrame p < frame.length then d.bump (Reg.PRT_CNT p 3) 1
    else if d.prtKind p = 2 ∧ unnovaBad (frame.take (frame.length - 4)) (frame.length - 4) then d.bump (Reg.PRT_CNT p 4) 1
    else (d.bump (Reg.PRT_CNT p 0) 1).ingress p (macBody (d.prtKind p) (frame.take (frame.length - 4)))
      (d.rxTime p sec nsec).1 (d.rxTime p sec nsec).2 := by
  have hbody : (frame.take (frame.length - 4)).length = frame.length - 4 := by
    rw [List.length_take]
    omega
  unfold frameReceive
  rw [if_neg (by omega), if_neg (by simp [hup, hrun])]
  dsimp only
  rw [if_neg h, hbody]
  rfl

theorem frameReceive_passes (h : ¬ fcsBad frame) (hleast : (if d.prtKind p = 4 then 5 else 64) ≤ frame.length)
    (hmax : frame.length ≤ d.maxFrame p) (hhdr : d.prtKind p = 2 → ¬ unnovaBad (frame.take (frame.length - 4)) (frame.length - 4)) :
    frameReceive sec nsec p frame d = (d.bump (Reg.PRT_CNT p 0) 1).ingress p (macBody (d.prtKind p) (frame.take (frame.length - 4)))
      (d.rxTime p sec nsec).1 (d.rxTime p sec nsec).2 := by
  rw [frameReceive_checked hup hrun _ _ h, if_neg (by omega), if_neg (by omega), if_neg (fun hbad => hhdr hbad.1 hbad.2)]

end

/-- The ports' counters are below the registers that the ingress cell writer reads. -/
theorem palSame_prtCount {p c : Nat} (hp : p < 80) (hc : c < 16) (d : Dev) (n : Nat) : palSame d (d.bump (Reg.PRT_CNT p c) n) :=
  palSame_setReg_low (by simp only [Reg.PRT_CNT, Reg.STN_CTL]; omega) d _

theorem fifoRoom_bump {p : Nat} (hp : p < 80) (d : Dev) (o n len : Nat) : (d.bump o n).fifoRoom p len = d.fifoRoom p len := by
  unfold Dev.fifoRoom
  simp only [if_pos hp, Dev.bump_prs]

theorem portOwner_mac {p : Nat} (hp : p < 80) (d e : Dev) : d.portOwner p = e.portOwner p := by
  unfold Dev.portOwner
  simp only [if_pos hp]

/-- A frame that passed the checks and finds room is counted and waits for the parser. -/
theorem ingress_counted {d : Dev} {p : Nat} {bs : List Byte} (hp : p < 80) (hroom : d.fifoRoom p bs.length = true)
    (hchain : d.allocChain (d.portOwner p) (d.rf (Reg.PAL_OWNER (d.portOwner p)) 3 0) bs.length ≠ none) (sec ns : Nat) :
    ∃ h pre post, d.prs.inq = pre ++ post ∧
      ((d.bump (Reg.PRT_CNT p 0) 1).ingress p bs sec ns).prs.inq = pre ++ ingressPkt d p h bs sec ns :: post ∧
      post.length ≤ d.prs.fresh ∧ ∀ q ∈ post.head?, p < q.port := by
  have hsame := palSame_prtCount (c := 0) hp (by omega) d 1
  have howner := portOwner_mac hp (d.bump (Reg.PRT_CNT p 0) 1) d
  have htaken := ingress_taken (d := d.bump (Reg.PRT_CNT p 0) 1) (bs := bs) ((fifoRoom_bump hp d _ _ _).trans hroom) (by
    rw [howner, ← hsame.rf (by simp only [Reg.STN_CTL, Reg.PAL_OWNER]; omega)]
    exact (hsame.allocChain_eq_none _ _ _).not.mp hchain) sec ns
  unfold ingressPkt at htaken ⊢
  rw [howner] at htaken
  exact htaken

end Sys2Proof.Machine

namespace Sys2Proof

open Machine

/-- Settles O39: each outcome by the check that decides it, and a frame that passes by what the ingress cell writer leaves. -/
theorem frameReceive : Obligations.FrameReceive := by
  unfold Obligations.FrameReceive
  intro s p frame hp
  dsimp only
  have hexec : exec (.frameReceive p frame) s = .next (s.withDev (Machine.frameReceive s.clk.sec s.clk.nsec p frame s.dev)) :=
    (exec_frameReceive p frame s).trans (runDev_ok (decide_eq_true hp))
  rw [hexec]
  refine ⟨fun hheld => by rw [frameReceive_held hheld], fun hup hrun => ⟨fun hfcs => ?fcs, fun hfcs hshort => ?short,
    fun hfcs hleast hlong => ?long, fun hfcs hleast hmax hkind hhdr => ?header, fun hfcs hleast hmax hhdr => ?passes⟩⟩
  case fcs => rw [frameReceive_fcs hup hrun _ _ (not_not.mp (not_fcsBad.not.mpr hfcs))]
  case short => rw [frameReceive_checked hup hrun _ _ (not_fcsBad.mpr hfcs), if_pos hshort]
  case long => rw [frameReceive_checked hup hrun _ _ (not_fcsBad.mpr hfcs), if_neg (by omega), if_pos hlong]
  case header =>
    rw [frameReceive_checked hup hrun _ _ (not_fcsBad.mpr hfcs), if_neg (by omega), if_neg (by omega),
      if_pos ⟨hkind, not_not.mp (not_unnovaBad.not.mpr hhdr)⟩]
  case passes =>
    rw [frameReceive_passes hup hrun _ _ (not_fcsBad.mpr hfcs) hleast hmax fun hkind => not_unnovaBad.mpr (hhdr hkind)]
    refine ⟨rfl, fun hroom hchain => ?_⟩
    obtain ⟨h, pre, post, hsplit, hinq, hfresh, hhead⟩ := ingress_counted hp hroom hchain
      (s.dev.rxTime p s.clk.sec s.clk.nsec).1 (s.dev.rxTime p s.clk.sec s.clk.nsec).2
    exact ⟨_, _, pre, post, rfl, hsplit, hinq, hfresh, hhead, rfl, rfl, rfl, rfl, rfl, rfl⟩

end Sys2Proof
end

section
/-!
SUPPORT. Ring groups: what a kick, a poll, a block and descriptors leave of a group (R464 to R470), for the groups in host memory.
-/

namespace Sys2Proof.Machine

theorem padTo_length (bs : List Byte) : padTo bs.length bs = bs := by
  refine List.ext_getElem (by simp [padTo, slice]) fun i h h' => ?_
  simp [padTo, slice, byteAt, h']

/-- Only the host interface differs, and of the groups only one, which has become y. -/
def grpBecomes (d e : Dev) (g : Nat) (y : Grp) : Prop := e = { d with hst := e.hst } ∧ e.grp g = y ∧ ∀ k, k ≠ g → e.grp k = d.grp k

theorem grpBecomes_setGrp (d : Dev) (g : Nat) (y : Grp) : grpBecomes d (d.setGrp g y) g y :=
  ⟨rfl, grp_setGrp d g y, fun k hk => grp_setGrp_ne d g k y hk⟩

theorem grpBecomes_again (d : Dev) (g : Nat) (x y : Grp) : grpBecomes d ((d.setGrp g x).setGrp g y) g y :=
  ⟨rfl, grp_setGrp _ g y, fun k hk => (grp_setGrp_ne _ g k y hk).trans (grp_setGrp_ne d g k x hk)⟩

/-- A group that has been kicked: a read of its doorbell block begins, or is to follow the one outstanding (R468). -/
def Grp.kickedAt (x : Grp) : Grp := if x.reading then { x with kicked := true } else { x with reading := true }

theorem kicked_running {d : Dev} {g : Nat} (h : d.grpRuns g = true) : d.kicked g = d.setGrp g (d.grp g).kickedAt := by
  unfold Dev.kicked
  rw [if_neg (by simp [h])]
  rfl

theorem kick_write {d : Dev} {g : Nat} (hg : g < 15) (hrun : d.grpRuns g = true) (hbar : d.bar0Only = false) (bs : List Byte) :
    kick g (.write bs) d = d.setGrp g (d.grp g).kickedAt := by
  unfold kick
  dsimp only
  rw [if_neg (by simp [hbar]; omega), kicked_running hrun]

/-- A poll whose time has come kicks (R469). -/
theorem pollTimer_due {d : Dev} {g now : Nat} (hrun : d.grpRuns g = true) (hmode : d.rb (Reg.HST_GRP_W0 g) 29 = true)
    (hdue : (d.grp g).polled + 1000 * d.rf (Reg.HST_GRP_W0 g) 25 16 ≤ now) :
    grpBecomes d (pollTimer now g d) g { (d.grp g).kickedAt with polled := now } := by
  unfold pollTimer
  rw [if_pos (by simp [hmode, hdue]), kicked_running (d := d.setGrp g _) hrun, grp_setGrp]
  have hcomm : ({ d.grp g with polled := now } : Grp).kickedAt = { (d.grp g).kickedAt with polled := now } := by
    unfold Grp.kickedAt
    dsimp only
    split <;> rfl
  rw [hcomm]
  exact grpBecomes_again _ _ _ _

theorem dmaRead_host {g n : Nat} (h : g < 15) (d : Dev) (a : Nat) {bs : List Byte} (hn : bs.length = n) : d.dmaRead g a n (.ok bs) = .ok bs := by
  subst hn
  unfold Dev.dmaRead
  rw [if_neg (by omega)]
  dsimp only
  rw [padTo_length]

/-- The indices of the host's half of a doorbell block (R467). -/
def GrpIx.hostHalf (x : GrpIx) (bs : List Byte) : GrpIx :=
  { x with injProd := leAt bs 0 4, puntProd := leAt bs 4 4, cmdProd := leAt bs 8 4, cplCons := leAt bs 12 4, evtCons := leAt bs 16 4 }

section

variable {d : Dev} {g : Nat} (hg : g < 15) (hrun : d.grpRuns g = true)
include hg hrun

/-- A doorbell block that arrives gives its indices (R468). -/
theorem doorbellReadDone_good {bs : List Byte} (hread : (d.grp g).reading = true) (hcpl : (d.grp g).cpl = []) (hlen : bs.length = 32)
    (hix : d.indexBad g bs = false) (now : Nat) : doorbellReadDone now g (.ok bs) d =
      d.setGrp g { d.grp g with ix := (d.grp g).ix.hostHalf bs, reading := (d.grp g).kicked, kicked := false } := by
  unfold doorbellReadDone
  dsimp only
  rw [if_neg (by simp [hrun, hread]), dmaRead_host hg d _ hlen, ringSee_host hg]
  dsimp only
  rw [if_neg (by simp [hix]), hcpl]
  rfl

/-- Indices out of range put the group in error (R485). -/
theorem doorbellReadDone_bad {bs : List Byte} (hread : (d.grp g).reading = true) (hlen : bs.length = 32)
    (hix : d.indexBad g bs = true) (now : Nat) : doorbellReadDone now g (.ok bs) d = d.grpError g 1 := by
  unfold doorbellReadDone
  dsimp only
  rw [if_neg (by simp [hrun, hread]), dmaRead_host hg d _ hlen, ringSee_host hg]
  dsimp only
  rw [if_pos hix]

end

/-- The entries of a read of n descriptors, with their indices. -/
def fetched (at_ n size : Nat) (bs : List Byte) : List (Nat × List Byte) :=
  ((List.range n).zip ((List.range n).map (fun k => slice bs (k * size) size))).map (fun e => (ixAdd at_ e.1, e.2))

theorem fetched_length (at_ n size : Nat) (bs : List Byte) : (fetched at_ n size bs).length = n := by
  simp [fetched]

/-- A group with more entries of a ring fetched; commands count as consumed at once (R464). -/
def Grp.fetches (x : Grp) (es : List (Nat × List Byte)) : FetchRing → Grp
  | .inj => { x with inj := x.inj ++ es }
  | .punt => { x with punt := x.punt ++ es }
  | .cmd => { x with cmds := x.cmds ++ es.map (fun e => HCmd.mk e.1 e.2), ix := { x.ix with cmdCons := ixAdd x.ix.cmdCons es.length } }

/-- Descriptors that arrive are kept (R470). -/
theorem descriptorFetchDone_ok {d : Dev} {g n : Nat} {r : FetchRing} {bs : List Byte} (hg : g < 15) (hrun : d.grpRuns g = true)
    (hn : min 16 ((d.grp g).fetchAt r).2 = n) (hpos : n ≠ 0) (hlen : bs.length = n * fetchSize r)
    (hcmd : r = .cmd → d.mgt.fix = none ∧ d.pwrfailOn = false ∧ d.stage ≠ 4) (now : Nat) :
    descriptorFetchDone now g r (.ok bs) d = d.setGrp g ((d.grp g).fetches (fetched ((d.grp g).fetchAt r).1 n (fetchSize r) bs) r) := by
  have hgo : ¬ ((!d.grpRuns g) = true ∨ n = 0 ∨ (r = .cmd ∧ (d.mgt.fix.isSome = true ∨ d.pwrfailOn = true ∨ d.stage = 4))) := by
    rintro (h | h | ⟨h, h'⟩)
    · simp [hrun] at h
    · exact hpos h
    · obtain ⟨hfix, hpwr, hstage⟩ := hcmd h
      simp [hfix, hpwr, hstage] at h'
  unfold descriptorFetchDone
  dsimp only
  rw [hn, if_neg hgo, if_neg (by omega), dmaRead_host hg d _ hlen]
  simp only [ringSee_host hg, List.foldl_fixed, Except.map]
  cases r with
  | inj => rfl
  | punt => rfl
  | cmd =>
    unfold Grp.fetches
    dsimp only
    rw [fetched_length]
    rfl

end Sys2Proof.Machine
end

section
/-!
SUPPORT. INJ and PUNT packets (R471 to R474): what the writes to host memory leave, and what a packet taken in or given out leaves.
-/

namespace Sys2Proof.Machine

/-- Only what has left for host memory differs. -/
def postsOnly (d d' : Dev) : Prop := ∃ p, d' = { d with hst := { d.hst with posted := p } }

theorem postsOnly_refl (d : Dev) : postsOnly d d := ⟨_, rfl⟩

theorem postsOnly_trans {a b c : Dev} (h : postsOnly a b) (h' : postsOnly b c) : postsOnly a c := by
  obtain ⟨_, rfl⟩ := h
  obtain ⟨_, rfl⟩ := h'
  exact ⟨_, rfl⟩

theorem postsOnly_grp {d d' : Dev} (h : postsOnly d d') (g : Nat) : d'.grp g = d.grp g := by
  obtain ⟨_, rfl⟩ := h
  rfl

theorem postsOnly_dmaWrite {g : Nat} (hg : g < 15) (d : Dev) (ring a : Nat) (bs : List Byte) : postsOnly d (d.dmaWrite g ring a bs) := by
  unfold Dev.dmaWrite
  rw [if_pos (by omega)]
  exact ⟨_, rfl⟩

theorem postsOnly_dataWrite {g : Nat} (hg : g < 15) (d : Dev) (a : Nat) (bs : List Byte) : postsOnly d (d.dataWrite g a bs) := by
  unfold Dev.dataWrite
  rw [if_pos (by omega)]
  exact ⟨_, rfl⟩

/-- The data and the descriptors of a PUNT packet go to host memory (R473). -/
theorem postsOnly_puntData {g : Nat} (hg : g < 15) (ts queue : Nat) (es : List (Nat × List Byte)) (d : Dev) (first : Bool) (bs : List Byte) :
    postsOnly d (d.puntData g ts queue es first bs) := by
  induction es generalizing d first bs with
  | nil => exact postsOnly_refl d
  | cons e r ih =>
    unfold Dev.puntData
    dsimp only
    split
    · exact postsOnly_trans (postsOnly_dmaWrite hg _ _ _ _) (ih _ _ _)
    · exact postsOnly_trans (postsOnly_dataWrite hg _ _ _) (postsOnly_trans (postsOnly_dmaWrite hg _ _ _ _) (ih _ _ _))

/-- A group past the n oldest INJ descriptors. -/
def Grp.injPast (x : Grp) (n : Nat) : Grp := { x with inj := x.inj.drop n, ix := { x.ix with injCons := ixAdd x.ix.injCons n } }

/-- An INJ packet that ends writes its status into host memory and leaves the ring (R472). -/
theorem injEnd_host {g : Nat} (hg : g < 15) (d : Dev) (es : List (Nat × List Byte)) (status : Nat) :
    ∃ u, postsOnly d u ∧ d.injEnd g es status = u.setGrp g ((d.grp g).injPast es.length) := by
  have hposts : postsOnly d (es.foldl (fun d e =>
      d.dmaWrite g 0 (d.ringEntry g .inj 32 e.1 + 0x1C) (leBytes 4 (d.phase g .inj e.1 * 2 ^ 31 + status))) d) :=
    foldl_inv _ (postsOnly d) (fun _ _ hb => postsOnly_trans hb (postsOnly_dmaWrite hg _ _ _ _)) _ _ (postsOnly_refl d)
  refine ⟨_, hposts, ?_⟩
  rw [← postsOnly_grp hposts]
  rfl

/-- What waits for the parser of an INJ packet that has been written into a chain (R472). -/
def injPkt (g : Nat) (h : Word) (bs : List Byte) (sec nsec : Nat) : Pkt :=
  { handle := h, owner := 36 + g, len := bs.length, port := 112 + g, tsNs := nsec, tsSec := sec % 2 ^ 32, recircs := 0, recirc := none }

section

variable {d : Dev} {g : Nat} (hg : g < 15) (hrun : d.grpRuns g = true) (hsome : (d.grp g).inj ≠ []) (hend : (injSplit (d.grp g).inj).2 = true)
  (now sec nsec : Nat) (xs : List Dma)
include hrun hsome hend

theorem injPacket_refused (hst : injStatus (injSplit (d.grp g).inj).1 true ≠ 0) :
    injPacket now sec nsec g xs d = d.injEnd g (injSplit (d.grp g).inj).1 (injStatus (injSplit (d.grp g).inj).1 true) := by
  unfold injPacket
  dsimp only
  rw [if_neg (by simp [hrun, hsome, hend]), hend, if_pos hst]

include hg

theorem injPacket_taken {bs : List Byte} {h : Word} {u : Dev} (hst : injStatus (injSplit (d.grp g).inj).1 true = 0)
    (hroom : ((d.prs.inq.filter (fun q => decide (q.port = 112 + g))).map (·.len)).sum +
      ((injSplit (d.grp g).inj).1.map (fun q => leAt q.2 8 2)).sum ≤ 16384)
    (hdata : d.injData g (injSplit (d.grp g).inj).1 xs = .ok bs)
    (hchain : d.allocChain (36 + g) (d.rf (Reg.PAL_OWNER (36 + g)) 3 0) bs.length = some (h, u)) :
    injPacket now sec nsec g xs d = (((u.fillBufs (u.chain h) bs).enqueueIn (injPkt g h bs sec nsec)).bump
      (Reg.HST_GRP_CNT g 0) 1).injEnd g (injSplit (d.grp g).inj).1 0 := by
  unfold injPacket
  dsimp only
  rw [if_neg (by simp [hrun, hsome, hend]), hend, if_neg (by simp [hst]), if_neg (by omega), hdata]
  simp only [ringSee_host hg, List.foldl_fixed, hchain, injPkt]

end

theorem reg_bump_one (d : Dev) (o : Nat) : (d.bump o 1).reg o = d.reg o + 1 := by
  unfold Dev.bump
  rw [Dev.reg_setReg_self]
  exact BitVec.eq_of_toNat_eq (by simp [wd])

/-- A group's counters are below the registers that the Palette writes. -/
theorem grpCnt_lt {g : Nat} (hg : g < 15) {c : Nat} (hc : c < 4) : Reg.HST_GRP_CNT g c < Reg.PAL_CTL := by
  simp only [Reg.HST_GRP_CNT, Reg.PAL_CTL]
  omega

/-- An INJ packet that was taken is counted, waits for the parser and has left its ring (R472). -/
theorem injected_ok {d u : Dev} {g : Nat} {h : Word} {bs : List Byte} (hg : g < 15)
    (hchain : d.allocChain (36 + g) (d.rf (Reg.PAL_OWNER (36 + g)) 3 0) bs.length = some (h, u)) (es : List (Nat × List Byte)) (sec nsec : Nat) :
    let e := (((u.fillBufs (u.chain h) bs).enqueueIn (injPkt g h bs sec nsec)).bump (Reg.HST_GRP_CNT g 0) 1).injEnd g es 0
    (∃ pre post, d.prs.inq = pre ++ post ∧ e.prs.inq = pre ++ injPkt g h bs sec nsec :: post ∧ post.length ≤ d.prs.fresh ∧
      ∀ q ∈ post.head?, 112 + g < q.port) ∧
    e.grp g = (d.grp g).injPast es.length ∧ e.reg (Reg.HST_GRP_CNT g 0) = d.reg (Reg.HST_GRP_CNT g 0) + 1 := by
  have hkeeps := palKeeps_stored hchain (u.chain h) bs
  generalize u.fillBufs (u.chain h) bs = w at hkeeps ⊢
  obtain ⟨honly, hreg⟩ := hkeeps
  have hgrp : w.grp g = d.grp g := by
    obtain ⟨_, _, _, _, _, _, rfl⟩ := honly
    rfl
  have hprs : w.prs = d.prs := by
    obtain ⟨_, _, _, _, _, _, rfl⟩ := honly
    rfl
  obtain ⟨x, ⟨posted, hx⟩, hend⟩ := injEnd_host hg ((w.enqueueIn (injPkt g h bs sec nsec)).bump (Reg.HST_GRP_CNT g 0) 1) es 0
  have hplace := enqueueIn_place w (injPkt g h bs sec nsec)
  rw [hprs] at hplace
  dsimp only
  rw [hend, hx]
  refine ⟨hplace, (grp_setGrp _ _ _).trans (congrArg (Grp.injPast · es.length) hgrp), ?_⟩
  exact (reg_bump_one (w.enqueueIn _) _).trans (congrArg (· + 1) (hreg _ (grpCnt_lt hg (by omega))))

/-- A group past the n oldest PUNT descriptors. -/
def Grp.puntPast (x : Grp) (n : Nat) : Grp := { x with punt := x.punt.drop n, ix := { x.ix with puntCons := ixAdd x.ix.puntCons n } }

/-- A packet given to its group leaves the port's queue and the Palette (R473). -/
theorem puntPacket_given {d : Dev} {g : Nat} {y : Egress} {rest : List Egress} {es : List (Nat × List Byte)} (hg : g < 15)
    (hegress : tget [] d.tmg.egress (112 + g) = y :: rest) (hspill : d.spillWaits (112 + g) y.item.handle = false) (hsent : y.sent = false)
    (hbad : d.frameBad y.item = false) (hlong : d.puntTooLong g (d.frameBytes y.item).length = false)
    (htake : puntTake (d.grp g).punt (d.frameBytes y.item).length = some es) :
    ∃ u, postsOnly d u ∧ palKeeps ({ (u.setGrp g ((d.grp g).puntPast es.length)).bump (Reg.HST_GRP_CNT g 1) 1 with
      tmg := { d.tmg with egress := tset [] d.tmg.egress (112 + g) rest } } : Dev) (puntPacket g none d) := by
  have hposts := postsOnly_puntData hg y.ts y.queue es d true (d.frameBytes y.item)
  refine ⟨_, hposts, ?_⟩
  have hgone : (d.puntData g y.ts y.queue es true (d.frameBytes y.item)).puntGone g es.length =
      (d.puntData g y.ts y.queue es true (d.frameBytes y.item)).setGrp g ((d.grp g).puntPast es.length) := by
    rw [← postsOnly_grp hposts]
    rfl
  have htmg : (d.puntData g y.ts y.queue es true (d.frameBytes y.item)).tmg = d.tmg := by
    obtain ⟨_, hp⟩ := hposts
    rw [hp]
  unfold puntPacket
  dsimp only
  rw [hegress]
  dsimp only
  rw [if_neg (by simp [hspill]), if_neg (by simp [hsent]), if_neg (by simp [hbad]), if_neg (by simp [hlong]), htake]
  dsimp only
  rw [show d.puntBadAddr g es = none from if_pos (by omega)]
  dsimp only [Option.map_none]
  rw [hgone, ← htmg]
  exact palKeeps_releaseCopy _ _ _

end Sys2Proof.Machine
end

section
/-!
SUPPORT. The device's half of a doorbell block and its messages (R467, R470, R483): what they leave of a group, and what leaves for the host.
-/

namespace Sys2Proof.Machine

theorem sendVec_masked {d : Dev} {v : Nat} (h : d.rb (Reg.HST_MSIX_TABLE v 3) 0 = true) :
    d.sendVec v = d.setRb (Reg.HST_MSIX_PBA (v / 32)) (v % 32) true := if_pos h

theorem sendVec_open {d : Dev} {v : Nat} (h : d.rb (Reg.HST_MSIX_TABLE v 3) 0 = false) :
    ∃ m, (d.sendVec v).hst.posted = d.hst.posted ++ [m] := by
  unfold Dev.sendVec
  rw [if_neg (by simp [h])]
  exact ⟨_, rfl⟩

theorem grp_sendVec (d : Dev) (v g : Nat) : (d.sendVec v).grp g = d.grp g := by
  unfold Dev.sendVec
  split <;> rfl

theorem sendVec_posted (d : Dev) (v : Nat) : d.hst.posted <+: (d.sendVec v).hst.posted := by
  unfold Dev.sendVec
  split
  · exact List.prefix_rfl
  · exact List.prefix_append _ _

/-- A group's message leaves the indices and what was told, and takes nothing back that has left (R483). -/
theorem grpMsg_keeps (d : Dev) (now g : Nat) : ((d.grpMsg now g).grp g).ix = (d.grp g).ix ∧ ((d.grpMsg now g).grp g).told = (d.grp g).told ∧
    ((d.grpMsg now g).grp g).errNews = (d.grp g).errNews ∧ d.hst.posted <+: (d.grpMsg now g).hst.posted := by
  unfold Dev.grpMsg
  dsimp only
  split_ifs
  · exact ⟨rfl, rfl, rfl, List.prefix_rfl⟩
  · rw [grp_sendVec, grp_setGrp]
    exact ⟨rfl, rfl, rfl, sendVec_posted (d.setGrp g _) _⟩
  · rw [grp_setGrp]
    exact ⟨rfl, rfl, rfl, List.prefix_rfl⟩

/-- The device's half of a doorbell block, with the state word (R467). -/
def GrpIx.deviceHalf (x : GrpIx) (state : Nat) : List Byte :=
  [x.injCons, x.puntCons, x.cmdCons, x.cplProd, x.evtProd, x.evtSeq, state, x.writes].flatMap (leBytes 4)

theorem wbDue_of {d : Dev} {now g : Nat} (h : (d.grp g).errNews = true ∨ (∃ n ∈ (d.grp g).news, 16 ≤ n) ∨
    ((∃ n ∈ (d.grp g).news, n ≠ 0) ∧ (d.grp g).newsAt.getD now + d.rf (Reg.HST_GRP_W14 g) 15 0 ≤ now)) : d.wbDue now g = true := by
  unfold Dev.wbDue
  simpa [or_assoc] using h

theorem dmaWrite_host {g : Nat} (hg : g < 15) (d : Dev) (ring a : Nat) (bs : List Byte) :
    d.dmaWrite g ring a bs = { d with hst := { d.hst with posted := d.hst.posted ++ [⟨g, a, bs, false⟩] } } := if_pos (by omega)

/-- A half that is due is written, and the group has told all its indices (R470). -/
theorem doorbellWriteback_due {d : Dev} {g now : Nat} (hg : g < 15) (hstate : d.rb (Reg.HST_GRP_W15 g) 31 = true ∨ d.rb (Reg.HST_GRP_W15 g) 30 = true)
    (hdue : d.wbDue now g = true) : let x := { (d.grp g).ix with writes := ixAdd (d.grp g).ix.writes 1 }
    let e := doorbellWriteback now g d
    (e.grp g).ix = x ∧ (e.grp g).told = x ∧ (e.grp g).errNews = false ∧
      d.hst.posted ++ [⟨g, d.dbAddr g + 0x20, x.deviceHalf (b2n (d.rb (Reg.HST_GRP_W15 g) 30) * 2 ^ 31 +
        d.rf (Reg.HST_GRP_W15 g) 7 0 * 2 ^ 16 + b2n (d.rb (Reg.HST_GRP_W15 g) 31)), false⟩] <+: e.hst.posted := by
  have hon : (bit (d.reg (Reg.HST_GRP_W15 g)) 31 || bit (d.reg (Reg.HST_GRP_W15 g)) 30) = true := by simpa [Dev.rb] using hstate
  unfold doorbellWriteback
  dsimp only
  rw [if_neg (by simp [hon, hdue]), if_neg (fun h => absurd h.1 (by omega) : ¬ (g = 15 ∧ _)), dmaWrite_host hg]
  generalize hw : Dev.setGrp _ g _ = w
  have hgrp := congrArg (Dev.grp · g) hw
  have hposted := congrArg (·.hst.posted) hw
  dsimp only at hgrp hposted
  rw [grp_setGrp] at hgrp
  split
  · obtain ⟨hix, htold, herr, hpre⟩ := grpMsg_keeps w now g
    rw [hix, htold, herr, ← hgrp]
    refine ⟨rfl, rfl, rfl, List.IsPrefix.trans ?_ hpre⟩
    rw [← hposted]
    exact List.prefix_rfl
  · rw [← hgrp]
    refine ⟨rfl, rfl, rfl, ?_⟩
    rw [← hposted]
    exact List.prefix_rfl

/-- A held message whose hold-off has passed (R483). -/
theorem msixHoldoffExpiry_due {d : Dev} {g t now : Nat} (hpend : (d.grp g).msgPend = true) (hlast : (d.grp g).lastMsg = some t)
    (hdue : t + 1000 * d.rf (Reg.HST_GRP_W14 g) 25 16 ≤ now) : msixHoldoffExpiry now g d =
      (d.setGrp g { d.grp g with msgPend := false, lastMsg := some now }).sendVec (d.rf (Reg.HST_GRP_W0 g) 13 6) := by
  unfold msixHoldoffExpiry
  dsimp only
  rw [hpend, hlast]
  exact if_pos hdue

end Sys2Proof.Machine
end

section
/-!
SUPPORT. Enabling a group, its reset and the end of that (R486, R488).
-/

namespace Sys2Proof.Machine

theorem bit_setBit (w : Word) {i : Nat} (b : Bool) (h : i < 32) : bit (setBit w i b) i = b := by
  cases b
  · exact bit_setFld_b2n w i false h
  · exact bit_setFld_b2n w i true h

theorem bit_setFld_apart (w : Word) {hi lo v i : Nat} (h : hi < 32) (hl : lo ≤ hi) (ha : hi < i ∨ i < lo) : bit (setFld w hi lo v) i = bit w i := by
  rw [bit_eq_fld, fld_setFld_apart w hi lo v i i h hl ha, ← bit_eq_fld]

theorem bit_setBit_ne (w : Word) {i j : Nat} (b : Bool) (h : i < 32) (hne : j ≠ i) : bit (setBit w i b) j = bit w j :=
  bit_setFld_apart w h (Nat.le_refl _) (by omega)

/-- A write of word 0 stores enable. -/
theorem bit_grpWord_enable (v : Word) : bit (grpWord v) 31 = bit v 31 := by
  unfold grpWord
  rw [testBit_wd _ _ (by omega), Nat.testBit_and, show Nat.testBit 0xA3FF3FFF 31 = true by decide, Bool.and_true]
  exact bit_setFld_apart v (by omega) (by omega) (by omega)

/-- A reset that ends disables the group, and its indices read 0 (R486). -/
theorem groupResetDone_idle {d : Dev} {g : Nat} (hbusy : d.rb (Reg.HST_GRP_W15 g) 29 = true) (hidle : (d.grp g).running = []) :
    let e := groupResetDone g d
    e.grp g = Grp.reset ∧ e.reg (Reg.HST_GRP_W15 g) = 0 ∧ e.rb (Reg.HST_GRP_W0 g) 31 = false := by
  unfold groupResetDone
  rw [if_pos (by simp [hbusy, hidle])]
  refine ⟨grp_setGrp _ _ _, (reg_setGrp _ _ _ _).trans (Dev.reg_setReg_self _ _ _), ?_⟩
  refine (rb_of_reg (reg_setGrp _ _ _ _) _).trans ?_
  rw [Dev.rb_setReg_ne _ _ _ _ _ (by unfold Reg.HST_GRP_W15 Reg.HST_GRP_W0; omega)]
  exact Dev.rb_setRb_self _ _ _ _ (by omega)

/-- A write of reset stops the group at once and keeps its enable (R486). -/
theorem groupReset_stops {g : Nat} (hg : g < 15) (r : Req) (v : Word) (d : Dev) : let e := groupReset r g v d
    e.reg (Reg.HST_GRP_W15 g) = wd (2 ^ 29) ∧ e.rb (Reg.HST_GRP_W0 g) 31 = d.rb (Reg.HST_GRP_W0 g) 31 ∧
      e.grp g = { d.grp g with errNews := false, reading := false, kicked := false, inj := [], cmds := [], cpl := [], msgPend := false } := by
  unfold groupReset grpWrite
  dsimp only
  rw [if_neg (by omega), if_pos (bit_setBit v true (by omega))]
  generalize hu : d.setReg (Reg.HST_GRP_W0 g) _ = u
  obtain ⟨⟨hbusy, -⟩, -, hreg, -⟩ := flr_one u g
  have hgrp : u.grp g = d.grp g := by rw [← hu, grp_setReg]
  have hword : u.rb (Reg.HST_GRP_W0 g) 31 = d.rb (Reg.HST_GRP_W0 g) 31 := by
    rw [← hu, Dev.rb, Dev.reg_setReg_self]
    exact bit_setBit _ _ (by omega)
  refine ⟨hbusy, (rb_of_reg (hreg _ ?_) 31).trans hword, ?_⟩
  · unfold Reg.HST_GRP_W15 Reg.HST_GRP_W0
    omega
  · rw [← hgrp]
    exact grp_setGrp _ _ _

/-- A group's four counters cleared. -/
def Dev.clearGrpCnts (d : Dev) (g : Nat) : Dev := (List.range 4).foldl (fun d c => d.setReg (Reg.HST_GRP_CNT g c) 0) d

theorem reg_clearGrpCnts (d : Dev) (g o : Nat) :
    (d.clearGrpCnts g).reg o = if o ∈ (List.range 4).map (Reg.HST_GRP_CNT g) then 0 else d.reg o := by
  unfold Dev.clearGrpCnts
  rw [← foldl_setReg ((List.range 4).map (Reg.HST_GRP_CNT g)) (fun _ => 0) d o, List.foldl_map]

theorem grp_clearGrpCnts (d : Dev) (g k : Nat) : (d.clearGrpCnts g).grp k = d.grp k :=
  foldl_inv (fun (d : Dev) c => d.setReg (Reg.HST_GRP_CNT g c) 0) (fun e => e.grp k = d.grp k) (fun _ _ h => h) _ d rfl

/-- A group that is not enabled starts with zeroed indices and counters (R488). -/
theorem groupEnable_starts {d : Dev} {g : Nat} (hg : g < 15) (hoff : d.rb (Reg.HST_GRP_W0 g) 31 = false) (hbusy : d.rb (Reg.HST_GRP_W15 g) 29 = false)
    (hsizes : ∀ k, k < 5 → 4 ≤ d.rf (Reg.HST_GRP_W3 g) (5 * k + 4) (5 * k) ∧ d.rf (Reg.HST_GRP_W3 g) (5 * k + 4) (5 * k) ≤ 16) (r : Req) (v : Word) :
    groupEnable r g v d = (((d.setReg (Reg.HST_GRP_W0 g) (grpWord (setBit (setBit v 31 true) 30 false))).setGrp g Grp.reset).clearGrpCnts g).setReg
      (Reg.HST_GRP_W15 g) (wd (2 ^ 31)) := by
  have hreset : bit (setBit (setBit v 31 true) 30 false) 30 = false := bit_setBit _ false (by omega)
  have henable : bit (setBit (setBit v 31 true) 30 false) 31 = true :=
    (bit_setBit_ne _ false (by omega) (by omega)).trans (bit_setBit v true (by omega))
  have hbad : ((List.range 5).any fun k => decide (d.rf (Reg.HST_GRP_W3 g) (5 * k + 4) (5 * k) < 4 ∨
      16 < d.rf (Reg.HST_GRP_W3 g) (5 * k + 4) (5 * k))) = false := by
    rw [List.any_eq_false]
    intro k hk
    have := hsizes k (List.mem_range.mp hk)
    simp only [decide_eq_true_eq]
    omega
  unfold groupEnable grpWrite
  dsimp only
  rw [if_neg (by omega), if_neg (by simp [hreset]), if_pos henable, if_neg (by rw [hbad]; simp [hbusy]), if_neg (by simp [hoff])]
  rfl

theorem groupEnable_runs {d : Dev} {g : Nat} (hg : g < 15) (hoff : d.rb (Reg.HST_GRP_W0 g) 31 = false) (hbusy : d.rb (Reg.HST_GRP_W15 g) 29 = false)
    (hsizes : ∀ k, k < 5 → 4 ≤ d.rf (Reg.HST_GRP_W3 g) (5 * k + 4) (5 * k) ∧ d.rf (Reg.HST_GRP_W3 g) (5 * k + 4) (5 * k) ≤ 16) (r : Req) (v : Word) :
    let e := groupEnable r g v d
    e.grpRuns g = true ∧ e.grp g = Grp.reset ∧ e.rb (Reg.HST_GRP_W0 g) 31 = true ∧ ∀ c, c < 4 → e.reg (Reg.HST_GRP_CNT g c) = 0 := by
  dsimp only
  rw [groupEnable_starts hg hoff hbusy hsizes r v]
  generalize hu : (d.setReg (Reg.HST_GRP_W0 g) (grpWord (setBit (setBit v 31 true) 30 false))).setGrp g Grp.reset = u
  refine ⟨?runs, ?group, ?word0, fun c hc => ?counts⟩
  case runs =>
    unfold Dev.grpRuns Dev.rb
    rw [Dev.reg_setReg_self, testBit_wd _ _ (by omega)]
    exact Nat.testBit_two_pow_self
  case group =>
    refine (grp_setReg _ _ _ _).trans ((grp_clearGrpCnts u g g).trans ?_)
    rw [← hu]
    exact grp_setGrp _ _ _
  case word0 =>
    have hapart : Reg.HST_GRP_W0 g ∉ (List.range 4).map (Reg.HST_GRP_CNT g) := by
      simp only [List.mem_map, List.mem_range, not_exists, not_and, Reg.HST_GRP_W0, Reg.HST_GRP_CNT]
      omega
    rw [Dev.rb_setReg_ne _ _ _ _ _ (by unfold Reg.HST_GRP_W15 Reg.HST_GRP_W0; omega)]
    unfold Dev.rb
    rw [reg_clearGrpCnts, if_neg hapart, ← hu, reg_setGrp, Dev.reg_setReg_self, bit_grpWord_enable]
    exact (bit_setBit_ne _ false (by omega) (by omega)).trans (bit_setBit v true (by omega))
  case counts =>
    rw [Dev.reg_setReg_ne _ _ _ _ (by unfold Reg.HST_GRP_W15 Reg.HST_GRP_CNT; omega), reg_clearGrpCnts]
    exact if_pos (List.mem_map_of_mem (List.mem_range.mpr hc))

end Sys2Proof.Machine
end

section
/-!
SUPPORT. Accesses through BAR4 (R41, R461).
-/

namespace Sys2Proof.Machine

theorem bar4Access_closed {d : Dev} (h : d.rb Reg.HST_BAR4 31 = false ∨ d.bar0Only = true) (now off : Nat) (acc : Bar4) :
    bar4Access now off acc d = { d with resp := [1] } := by
  unfold bar4Access
  exact if_pos (by simpa using h)

section

variable {d : Dev} {now off n : Nat} {wr : Bool}
  (hall : ∀ i, i < n → bar4Region wr (d.region (d.bar4Addr off + i)) = true ∧ d.region (d.bar4Addr off + i) ≠ .unmapped)
include hall

theorem bar4_mapped : (List.range n).find? (fun i => decide (d.region (d.bar4Addr off + i) = .unmapped)) = none := by
  rw [List.find?_eq_none]
  intro i hi
  simpa using (hall i (List.mem_range.mp hi)).2

theorem bar4_answers : (List.range n).all (fun i => bar4Region wr (d.region (d.bar4Addr off + i))) = true := by
  rw [List.all_eq_true]
  exact fun i hi => (hall i (List.mem_range.mp hi)).1

end

section

variable {d : Dev} {off : Nat} (hopen : d.rb Reg.HST_BAR4 31 = true) (hbar : d.bar0Only = false)
include hopen hbar

/-- A read of bytes none of which is poisoned (R432). -/
theorem bar4Access_read {n : Nat} (hall : ∀ i, i < n → bar4Region false (d.region (d.bar4Addr off + i)) = true ∧
    d.region (d.bar4Addr off + i) ≠ .unmapped) (hue : d.drc.ueNew = []) (hsound : d.poisoned (d.bar4Addr off) n = false) (now : Nat) :
    bar4Access now off (.read n) d = { d with resp := 0 :: d.memRead (d.bar4Addr off) n } := by
  have hsee : d.seeDram (d.bar4Addr off) n = d := if_pos (by simp [hsound])
  have hdate : d.dateUes now = d := if_pos hue
  have hdead : d.dead (d.bar4Addr off) n = false := by simp [Dev.dead, hsound]
  unfold bar4Access
  dsimp only
  rw [if_neg (by simp [hopen, hbar]), bar4_mapped hall]
  dsimp only
  rw [if_neg (by simp [bar4_answers hall]), hsee, hdate, hdead]
  rfl

theorem bar4Access_write {bs : List Byte} (hall : ∀ i, i < bs.length → bar4Region true (d.region (d.bar4Addr off + i)) = true ∧
    d.region (d.bar4Addr off + i) ≠ .unmapped) (now : Nat) :
    bar4Access now off (.write bs) d = { d.memWrite (d.bar4Addr off) bs with resp := [0] } := by
  unfold bar4Access
  dsimp only
  rw [if_neg (by simp [hopen, hbar]), bar4_mapped hall]
  dsimp only
  rw [if_neg (by simp [bar4_answers hall])]

end

end Sys2Proof.Machine
end

section
/-!
PROOF. The commands of the host ring groups.
-/

namespace Sys2Proof.Machine

/-- A running group stands still once it is in error. -/
theorem grpError_stops (d : Dev) (g : Nat) : (d.grpError g 1).grpRuns g = false ∧ (d.grpError g 1).rf (Reg.HST_GRP_W15 g) 7 0 = 1 := by
  obtain ⟨hstopped, -, hcode, -⟩ := grpError_ok d g 1 (by omega)
  exact ⟨hstopped, hcode⟩

/-- A kick for group 15 begins a read of its block (R466). -/
theorem atelierKick_idle {d : Dev} (hrun : d.grpRuns 15 = true) (hidle : (d.grp 15).reading = false) :
    atelierKick d = d.setGrp 15 { d.grp 15 with reading := true } := by
  unfold atelierKick
  rw [kicked_running hrun, Grp.kickedAt, if_neg (by simp [hidle])]

/-- What descriptors that arrive leave in each ring (R470). -/
theorem fetches_ok (x : Grp) (at_ n size : Nat) (bs : List Byte) (r : FetchRing) : let y := x.fetches (fetched at_ n size bs) r
    (r = .inj → y.inj.length = x.inj.length + n ∧ x.inj <+: y.inj) ∧ (r = .punt → y.punt.length = x.punt.length + n ∧ x.punt <+: y.punt) ∧
      (r = .cmd → y.cmds.length = x.cmds.length + n ∧ y.ix.cmdCons = ixAdd x.ix.cmdCons n) := by
  refine ⟨?_, ?_, ?_⟩
  · rintro rfl
    exact ⟨by simp [Grp.fetches, fetched_length], List.prefix_append _ _⟩
  · rintro rfl
    exact ⟨by simp [Grp.fetches, fetched_length], List.prefix_append _ _⟩
  · rintro rfl
    exact ⟨by simp [Grp.fetches, fetched_length], by simp [Grp.fetches, fetched_length]⟩

/-- A write through BAR4 where memory is plain reads back and leaves the rest (R41). -/
theorem bar4Access_wrote {d : Dev} {off : Nat} (hopen : d.rb Reg.HST_BAR4 31 = true) (hbar : d.bar0Only = false) {bs : List Byte}
    (hall : ∀ i, i < bs.length → bar4Region true (d.region (d.bar4Addr off + i)) = true ∧ d.region (d.bar4Addr off + i) ≠ .unmapped)
    (hplain : d.plainMem) (now : Nat) : let e := bar4Access now off (.write bs) d
    e = { d with mem := e.mem, resp := [0] } ∧ e.memRead (d.bar4Addr off) bs.length = bs ∧
      ∀ b, b < d.bar4Addr off ∨ d.bar4Addr off + bs.length ≤ b → e.memGet b = d.memGet b := by
  rw [bar4Access_write hopen hbar hall]
  refine ⟨?_, ?_, fun b hb => ?_⟩
  · rw [memWrite_plain hplain]
  · rw [memWrite_plain hplain]
    exact memRead_put d (d.bar4Addr off) bs
  · exact (memGet_memWrite_plain hplain (d.bar4Addr off) bs b).trans (if_neg (by omega))

/-- A packet given to its group has left the port, its buffers have left the ring, and it is counted (R473). -/
theorem puntPacket_ok {d : Dev} {g : Nat} {y : Egress} {rest : List Egress} {es : List (Nat × List Byte)} (hg : g < 15)
    (hegress : tget [] d.tmg.egress (112 + g) = y :: rest) (hspill : d.spillWaits (112 + g) y.item.handle = false) (hsent : y.sent = false)
    (hbad : d.frameBad y.item = false) (hlong : d.puntTooLong g (d.frameBytes y.item).length = false)
    (htake : puntTake (d.grp g).punt (d.frameBytes y.item).length = some es) : let e := puntPacket g none d
    tget [] e.tmg.egress (112 + g) = rest ∧ (e.grp g).punt = (d.grp g).punt.drop es.length ∧
      (e.grp g).ix.puntCons = ixAdd (d.grp g).ix.puntCons es.length ∧ e.reg (Reg.HST_GRP_CNT g 1) = d.reg (Reg.HST_GRP_CNT g 1) + 1 := by
  obtain ⟨u, hposts, honly, hreg⟩ := puntPacket_given hg hegress hspill hsent hbad hlong htake
  have hgrp : (puntPacket g none d).grp g = (d.grp g).puntPast es.length := by
    obtain ⟨_, _, _, _, _, _, he⟩ := honly
    rw [he]
    exact grp_setGrp u g _
  have hegr : tget [] (puntPacket g none d).tmg.egress (112 + g) = rest := by
    obtain ⟨_, _, _, _, _, _, he⟩ := honly
    rw [he]
    exact tget_tset_self _ _ _ _
  have hcount : u.reg (Reg.HST_GRP_CNT g 1) = d.reg (Reg.HST_GRP_CNT g 1) := by
    obtain ⟨_, rfl⟩ := hposts
    rfl
  refine ⟨hegr, by rw [hgrp]; rfl, by rw [hgrp]; rfl, (hreg _ (grpCnt_lt hg (by omega))).trans ?_⟩
  exact (reg_bump_one (u.setGrp g _) _).trans (congrArg (· + 1) hcount)

/-- Settles O54: each command by the lemma about what it leaves. -/
theorem hostRingGroups : Obligations.HostRingGroups := by
  unfold Obligations.HostRingGroups
  intro s g hg
  have hgrp : isGroup g = true := isGroup_of_lt hg
  have hbar4 : ∀ {off : Nat}, off < 2 ^ 30 → inBar4 off = true := fun h => decide_eq_true h
  dsimp only
  refine ⟨fun hrun => ⟨fun bs hbar => ?kick, fun hmode hdue => ?poll, fun bs hread hcpl hlen hix => ?block,
      fun bs hread hlen hix => ?badBlock, fun r bs hpos hlen hcmd => ?fetch, fun hsome hend =>
        ⟨fun hst xs => ?refused, fun xs bs hst hroom hdata hchain => ?taken⟩⟩,
    fun y rest es hegress hspill hsent hbad hlong htake => ?punt, fun n => (exec_kick g _ s).trans (runDev_ok hgrp),
    fun hstate hdue => ?writeback, fun t hpend hlast hdue => ?holdoff, fun hbusy hidle => ?resetDone,
    fun hlive => ⟨?atelierHost, fun r hr hrun hidle => ?atelier, fun r v hoff hbusy hsizes => ?enable, fun r v => ?reset⟩,
    fun off hoff => ⟨fun hclosed acc => ?closed, fun n hopen hbar hue hall hsound => ?read, fun bs hopen hbar hall hpoison hmirrors hretired => ?write⟩⟩
  case kick =>
    refine ⟨_, (exec_kick g _ s).trans (runDev_ok hgrp), ?_⟩
    rw [kick_write hg hrun hbar]
    exact grpBecomes_setGrp _ _ _
  case poll => exact ⟨_, (exec_pollTimer g s).trans (runDev_ok hgrp), pollTimer_due hrun hmode hdue⟩
  case block =>
    refine ⟨_, (exec_doorbellReadDone g _ s).trans (runDev_ok hgrp), ?_⟩
    rw [doorbellReadDone_good hg hrun hread hcpl hlen hix]
    exact grpBecomes_setGrp _ _ _
  case badBlock =>
    refine ⟨_, (exec_doorbellReadDone g _ s).trans (runDev_ok hgrp), ?_⟩
    rw [doorbellReadDone_bad hg hrun hread hlen hix]
    exact grpError_stops _ g
  case fetch =>
    refine ⟨_, (exec_descriptorFetchDone g r _ s).trans (runDev_ok hgrp), ?_⟩
    rw [descriptorFetchDone_ok hg hrun rfl hpos hlen hcmd, grp_setGrp]
    exact ⟨rfl, fetches_ok _ _ _ _ _ r⟩
  case refused =>
    obtain ⟨u, hposts, heq⟩ := injEnd_host hg s.dev (injSplit (s.dev.grp g).inj).1 (injStatus (injSplit (s.dev.grp g).inj).1 true)
    refine ⟨_, (exec_injPacket g xs s).trans (runDev_ok hgrp), ?_⟩
    rw [injPacket_refused hrun hsome hend _ _ _ xs hst, heq, grp_setGrp]
    obtain ⟨_, rfl⟩ := hposts
    exact ⟨rfl, rfl, rfl⟩
  case taken =>
    obtain ⟨⟨h, u⟩, hchain⟩ := Option.ne_none_iff_exists'.mp hchain
    obtain ⟨⟨pre, post, hinq, hput, hfresh, hport⟩, hleft, hcount⟩ :=
      injected_ok hg hchain (injSplit (s.dev.grp g).inj).1 s.clk.sec s.clk.nsec
    refine ⟨_, injPkt g h bs s.clk.sec s.clk.nsec, pre, post, (exec_injPacket g xs s).trans (runDev_ok hgrp), ?_⟩
    rw [injPacket_taken hg hrun hsome hend _ _ _ xs hst hroom hdata hchain, hleft]
    exact ⟨hinq, hput, hfresh, hport, rfl, rfl, rfl, rfl, rfl, rfl, hcount⟩
  case punt =>
    exact ⟨_, (exec_puntPacket g none s).trans (runDev_ok hgrp), puntPacket_ok hg hegress hspill hsent hbad hlong htake⟩
  case writeback =>
    obtain ⟨hix, htold, herr, more, hmore⟩ := doorbellWriteback_due hg hstate (wbDue_of hdue)
    refine ⟨_, more, (exec_doorbellWriteback g s).trans (runDev_ok hgrp), hix, htold, herr, ?_⟩
    rw [← hmore, List.append_assoc]
    rfl
  case holdoff =>
    refine ⟨_, (exec_msixHoldoffExpiry g s).trans (runDev_ok hgrp), ?_⟩
    rw [msixHoldoffExpiry_due hpend hlast hdue]
    refine ⟨(grp_sendVec _ _ _).trans (grp_setGrp _ _ _), fun hmasked => ?_, fun hopen => ?_⟩
    · rw [sendVec_masked (d := s.dev.setGrp g _) hmasked]
      exact ⟨Dev.rb_setRb_self _ _ _ _ (Nat.mod_lt _ (by omega)), rfl⟩
    · obtain ⟨m, hm⟩ := sendVec_open (d := s.dev.setGrp g { s.dev.grp g with msgPend := false, lastMsg := some s.clk.count }) hopen
      rw [hm, List.length_append]
      rfl
  case resetDone => exact ⟨_, (exec_groupResetDone g s).trans (runDev_ok hgrp), groupResetDone_idle hbusy hidle⟩
  case atelierHost =>
    rw [exec_atelierKick, runDev_ok rfl, live_on hlive, if_pos rfl]
  case atelier =>
    refine ⟨_, (exec_atelierKick r s).trans (runDev_ok rfl), ?_⟩
    rw [live_on hlive, if_neg hr, atelierKick_idle hrun hidle]
    exact ⟨rfl, grp_setGrp _ _ _⟩
  case enable =>
    refine ⟨_, (exec_groupEnable r g v s).trans (runDev_ok hgrp), ?_⟩
    rw [live_on hlive]
    exact groupEnable_runs hg hoff hbusy hsizes r v
  case reset =>
    refine ⟨_, (exec_groupReset r g v s).trans (runDev_ok hgrp), ?_⟩
    rw [live_on hlive]
    exact groupReset_stops hg r v s.dev
  case closed => rw [exec_bar4Access, runDev_ok (hbar4 hoff), bar4Access_closed hclosed]
  case read => rw [exec_bar4Access, runDev_ok (hbar4 hoff), bar4Access_read hopen hbar hall hue hsound]
  case write =>
    exact ⟨_, (exec_bar4Access off _ s).trans (runDev_ok (hbar4 hoff)),
      bar4Access_wrote hopen hbar hall ⟨hpoison, hmirrors, hretired⟩ _⟩

end Sys2Proof.Machine
end

section
/-!
SUPPORT. The parser (R195 to R203): what parsing a packet leaves of it, of the counters and of its domain.
-/

namespace Sys2Proof.Machine

/-- A packet that no port's MAC has timed takes the time of its parse (R23). -/
def Pkt.stamped (p : Pkt) (sec nsec : Nat) : Pkt := if 112 ≤ p.port then { p with tsNs := nsec, tsSec := sec % 2 ^ 32 } else p

theorem stamped_same (p : Pkt) (sec nsec : Nat) : (p.stamped sec nsec).recirc = p.recirc ∧ (p.stamped sec nsec).recircs = p.recircs ∧
    (p.stamped sec nsec).len = p.len ∧ (p.stamped sec nsec).handle = p.handle ∧ (p.stamped sec nsec).winOff = p.winOff := by
  unfold Pkt.stamped
  split <;> exact ⟨rfl, rfl, rfl, rfl, rfl⟩

/-- Whether a packet has recirculated too often or has no byte left in its window (R203). -/
def Dev.parseLoses (d : Dev) (p : Pkt) : Prop := p.recirc.isSome = true ∧ (d.rf Reg.PRS_CTL 27 24 < p.recircs ∨ p.len ≤ p.winOff)

theorem parseLoses_iff (d : Dev) (p : Pkt) : d.parseLoses p ↔
    (p.recirc.isSome && decide (d.rf Reg.PRS_CTL 27 24 < p.recircs) || p.recirc.isSome && decide (p.len ≤ p.winOff)) = true := by
  unfold Dev.parseLoses
  cases p.recirc.isSome <;> simp

theorem palKeeps_bump {d e : Dev} (h : palKeeps d e) {o : Nat} (ho : o < Reg.PAL_CTL) (n : Nat) : (e.bump o n).reg o = (d.bump o n).reg o := by
  unfold Dev.bump
  rw [Dev.reg_setReg_self, Dev.reg_setReg_self, h.2 o ho]

theorem palKeeps_prs {d e : Dev} (h : palKeeps d e) : e.prs = d.prs := by
  obtain ⟨⟨_, _, _, _, _, _, rfl⟩, _⟩ := h
  rfl

theorem prs_bump (d : Dev) (o n : Nat) : (d.bump o n).prs = d.prs := rfl

theorem raiseIf_prs (d : Dev) (b : Bool) (src v : Nat) : (d.raiseIf b src v).prs = d.prs := by
  unfold Dev.raiseIf
  split <;> rfl

theorem countParse_reg (d : Dev) (x : ParseSt) {o : Nat} (he : o ≠ Reg.PRS_EXHAUST_CNT) (hl : o ≠ Reg.PRS_LIMIT_CNT) : (d.countParse x).reg o = d.reg o :=
  (Dev.reg_setReg_ne _ _ _ _ hl).trans (Dev.reg_setReg_ne _ _ _ _ he)

/-- Word 1 of the end profile that a packet's parse reaches (R199). -/
def Dev.endWord (d : Dev) (p : Pkt) : Word := d.prsReg (d.rf Reg.PRS_CTL 1 1) (Reg.PRS_END_W1 ((d.parsePkt p).1.done.getD 0))

/-- What a parsed packet that migrates keeps of its transaction (R205). -/
theorem reparse_keeps (d : Dev) (x : Txn) : ∃ y : Parsed, (d.reparse x).prs = { d.prs with out := d.prs.out ++ [y] } ∧ (d.reparse x).vrn = d.vrn ∧
    y.ticket = x.ticket ∧ y.domain = x.domain ∧ y.entry = x.entry ∧ y.counted = x.counted ∧ y.pkt.handle = x.handle ∧ y.migrated = true := by
  unfold Dev.reparse
  exact ⟨_, rfl, rfl, rfl, rfl, rfl, rfl, rfl, rfl⟩

section

variable {d : Dev} {p : Pkt} (sec nsec : Nat)

/-- The time of its parse does not decide whether a packet is lost. -/
theorem stamped_loses : ((p.stamped sec nsec).recirc.isSome && decide (d.rf Reg.PRS_CTL 27 24 < (p.stamped sec nsec).recircs) ||
    (p.stamped sec nsec).recirc.isSome && decide ((p.stamped sec nsec).len ≤ (p.stamped sec nsec).winOff)) = true ↔ d.parseLoses p := by
  obtain ⟨hrecirc, hrecircs, hlen, -, hoff⟩ := stamped_same p sec nsec
  rw [hrecirc, hrecircs, hlen, hoff]
  exact (parseLoses_iff d p).symm

/-- A packet that is lost is released and counted (R203). -/
theorem parseNew_lost (hlost : d.parseLoses p) : (d.parseNew sec nsec p).prs = d.prs ∧
    (d.parseNew sec nsec p).reg Reg.PRS_DISCARD_CNT = d.reg Reg.PRS_DISCARD_CNT + 1 := by
  unfold Dev.parseNew
  dsimp only
  rw [← Pkt.stamped, if_pos ((stamped_loses sec nsec).mpr hlost)]
  generalize p.stamped sec nsec = q
  have hkeeps := palKeeps_release d q.owner q.handle
  rw [raiseIf_prs, raiseIf_prs, raiseIf_reg, raiseIf_reg, prs_bump, palKeeps_prs hkeeps, palKeeps_bump hkeeps (by decide)]
  exact ⟨rfl, reg_bump_one d _⟩

variable (hkept : ¬ d.parseLoses p)
include hkept

/-- One with a quarantined buffer is released (R317). -/
theorem parseNew_quarantined (hbad : d.quarantined p.handle = true) : (d.parseNew sec nsec p).prs = d.prs := by
  obtain ⟨-, -, -, hhandle, -⟩ := stamped_same p sec nsec
  unfold Dev.parseNew
  dsimp only
  rw [← Pkt.stamped, if_neg (mt (stamped_loses sec nsec).mp hkept), if_pos (by rw [hhandle, hbad])]
  exact palKeeps_prs (palKeeps_release _ _ _)

variable (hsound : d.quarantined p.handle = false)
include hsound

/-- One that its end profile drops is released and counted (R199). -/
theorem parseNew_dropped (hdrop : bit (d.endWord (p.stamped sec nsec)) 20 = true) : (d.parseNew sec nsec p).prs = d.prs ∧
    (d.parseNew sec nsec p).reg Reg.PRS_DROP_CNT = d.reg Reg.PRS_DROP_CNT + 1 := by
  obtain ⟨-, -, -, hhandle, -⟩ := stamped_same p sec nsec
  unfold Dev.parseNew
  dsimp only
  rw [← Pkt.stamped, if_neg (mt (stamped_loses sec nsec).mp hkept), if_neg (by rw [hhandle, hsound]; decide), ← Dev.endWord, if_pos hdrop]
  generalize hc : d.countParse _ = c
  have hprs : c.prs = d.prs := by
    rw [← hc]
    rfl
  have hcount : c.reg Reg.PRS_DROP_CNT = d.reg Reg.PRS_DROP_CNT := by
    rw [← hc]
    exact countParse_reg _ _ (by decide) (by decide)
  have hkeeps := palKeeps_release c (p.stamped sec nsec).owner (p.stamped sec nsec).handle
  rw [prs_bump, palKeeps_prs hkeeps, palKeeps_bump hkeeps (by decide), hprs, reg_bump_one, hcount]
  exact ⟨rfl, rfl⟩

/-- One that goes on takes the next ticket of its domain (R200). -/
theorem parseNew_ticketed (hdrop : bit (d.endWord (p.stamped sec nsec)) 20 = false) : let e := d.parseNew sec nsec p
    ∃ y : Parsed, e.prs = { d.prs with out := d.prs.out ++ [y] } ∧ y.pkt = p.stamped sec nsec ∧ y.prio = fld (d.endWord (p.stamped sec nsec)) 19 17 ∧
      y.ticket = (d.dom y.domain).next ∧ y.migrated = false ∧
      e.dom y.domain = ⟨(y.ticket + 1) % 2 ^ 32, (d.dom y.domain).flight ++ [y.ticket]⟩ := by
  obtain ⟨-, -, -, hhandle, -⟩ := stamped_same p sec nsec
  unfold Dev.parseNew
  dsimp only
  rw [← Pkt.stamped, if_neg (mt (stamped_loses sec nsec).mp hkept), if_neg (by rw [hhandle, hsound]; decide), ← Dev.endWord, if_neg (by simp [hdrop])]
  exact ⟨_, rfl, rfl, rfl, rfl, rfl, Dev.dom_setDom_self _ _ _⟩

end

/-! A packet taken from those that wait (R24, R195). -/

section

variable {d : Dev} (hslices : d.slicesIn ≠ 0) (hstage : d.stage ≠ 4) (hplaces : d.prs.out.length < d.placesFree) (sec nsec : Nat)
include hslices hstage hplaces

theorem parsePacket_reread {k : Nat} {x : Txn} {r : List (Nat × Txn)} (hre : d.prs.rereads = (k, x) :: r) :
    parsePacket sec nsec d = ({ d with prs := { d.prs with rereads := r } } : Dev).reparse x := by
  unfold parsePacket
  rw [if_neg (by simp [hslices, hstage]; omega), hre]

theorem parsePacket_new {p : Pkt} {r : List Pkt} (hre : d.prs.rereads = []) (hon : d.rb Reg.PRS_CTL 0 = true) (hinq : d.prs.inq = p :: r) :
    parsePacket sec nsec d = ({ d with prs := { d.prs with inq := r } } : Dev).parseNew sec nsec p := by
  unfold parsePacket
  rw [if_neg (by simp [hslices, hstage]; omega), hre]
  dsimp only
  rw [if_pos hon, hinq]

end

theorem palSame_prs (d : Dev) (x : Prs) : palSame ({ d with prs := x } : Dev) d := ⟨rfl, rfl, rfl, rfl, fun _ => rfl⟩

theorem palSame_tmg (d : Dev) (x : Tmg) : palSame ({ d with tmg := x } : Dev) d := ⟨rfl, rfl, rfl, rfl, fun _ => rfl⟩

theorem endWord_prs (d : Dev) (x : Prs) (p : Pkt) : ({ d with prs := x } : Dev).endWord p = d.endWord p := by
  unfold Dev.endWord
  rw [(palSame_prs d x).parsePkt]
  rfl

/-! Recirculation (R26, R202). -/

/-- What waits for the parser of a frame that recirculates. -/
def recircPkt (d : Dev) (port : Nat) (y : TmItem) (h : Word) : Pkt :=
  { handle := h, owner := d.portOwner port, len := (d.frameBytes y).length, port := port, tsNs := 0, tsSec := 0,
    recircs := y.recircs + 1, recirc := some y.recirc }

/-- The device once a port's first egress frame is taken. -/
def Dev.egressLeft (d : Dev) (port : Nat) (r : List Egress) : Dev := { d with tmg := { d.tmg with egress := tset [] d.tmg.egress port r } }

theorem egressLeft_self (d : Dev) (port : Nat) (r : List Egress) : tget [] (d.egressLeft port r).tmg.egress port = r := tget_tset_self _ _ _ _

section

variable {d : Dev} {port : Nat} {y : Egress} {r : List Egress} (hegress : tget [] d.tmg.egress port = y :: r)
  (hspill : d.spillWaits port y.item.handle = false) (hsent : y.sent = false) (hsound : d.frameBad y.item = false)
include hegress hspill hsent hsound

/-- A frame that finds no chain leaves its own (R304). -/
theorem recirculationReentry_full (hchain : (d.egressLeft port r).allocChain (d.portOwner port)
    ((d.egressLeft port r).rf (Reg.PAL_OWNER (d.portOwner port)) 3 0) (d.frameBytes y.item).length = none) : recirculationReentry port d =
      (((d.egressLeft port r).releaseCopy (d.portOwner port) y.item).bump (Reg.PAL_OWNER_DROP (d.portOwner port)) 1).raise
        Src.palOwnerDrop (d.portOwner port) := by
  have hbad : (d.egressLeft port r).frameBad y.item = false := ((palSame_tmg d _).frameBad y.item).trans hsound
  unfold recirculationReentry
  rw [hegress]
  dsimp only
  rw [if_neg (by simp [hspill]), ← Dev.egressLeft, if_neg (by simp [hsent, hbad]), hchain]

/-- A frame that finds one is written into it and waits for the parser (log entry 24). -/
theorem recirculationReentry_copied {h : Word} {u : Dev} (hchain : (d.egressLeft port r).allocChain (d.portOwner port)
    ((d.egressLeft port r).rf (Reg.PAL_OWNER (d.portOwner port)) 3 0) (d.frameBytes y.item).length = some (h, u)) :
    recirculationReentry port d = ((u.fillBufs (u.chain h) (d.frameBytes y.item)).releaseCopy (d.portOwner port) y.item).enqueueIn
      (recircPkt d port y.item h) := by
  have hbad : (d.egressLeft port r).frameBad y.item = false := ((palSame_tmg d _).frameBad y.item).trans hsound
  unfold recirculationReentry
  rw [hegress]
  dsimp only
  rw [if_neg (by simp [hspill]), ← Dev.egressLeft, if_neg (by simp [hsent, hbad]), hchain]
  rfl

end

/-- Of the queues in front of a port and the parser the Palette changes none. -/
theorem palKeeps_queues {d e : Dev} (h : palKeeps d e) : e.tmg = d.tmg ∧ e.prs = d.prs := by
  obtain ⟨⟨_, _, _, _, _, _, rfl⟩, _⟩ := h
  exact ⟨rfl, rfl⟩

theorem recirculationReentry_ok {d : Dev} {port : Nat} {y : Egress} {r : List Egress} (hegress : tget [] d.tmg.egress port = y :: r)
    (hspill : d.spillWaits port y.item.handle = false) (hsent : y.sent = false) (hsound : d.frameBad y.item = false) :
    let got := (d.egressLeft port r).allocChain (d.portOwner port) (d.rf (Reg.PAL_OWNER (d.portOwner port)) 3 0) (d.frameBytes y.item).length
    let e := recirculationReentry port d
    (got = none → tget [] e.tmg.egress port = r ∧ e.prs = d.prs ∧ ⟨Src.palOwnerDrop, wd (d.portOwner port), false⟩ ∈ e.flt.inbox) ∧
    (got ≠ none → tget [] e.tmg.egress port = r ∧ ∃ h pre post, d.prs.inq = pre ++ post ∧ e.prs.inq = pre ++ recircPkt d port y.item h :: post ∧
      post.length ≤ d.prs.fresh ∧ ∀ q ∈ post.head?, port < q.port) := by
  refine ⟨fun hnone => ?full, fun hsome => ?copied⟩
  case full =>
    obtain ⟨htmg, hprs⟩ := palKeeps_queues (palKeeps_releaseCopy (d.egressLeft port r) (d.portOwner port) y.item)
    rw [recirculationReentry_full hegress hspill hsent hsound hnone]
    refine ⟨?_, hprs, List.mem_append_right _ (List.mem_singleton.mpr rfl)⟩
    exact (congrArg (fun x : Tmg => tget [] x.egress port) htmg).trans (egressLeft_self d port r)
  case copied =>
    obtain ⟨⟨h, u⟩, hchain⟩ := Option.ne_none_iff_exists'.mp hsome
    have hkeeps := palKeeps_trans (palKeeps_stored hchain (u.chain h) (d.frameBytes y.item)) (palKeeps_releaseCopy _ (d.portOwner port) y.item)
    rw [recirculationReentry_copied hegress hspill hsent hsound hchain]
    generalize (u.fillBufs (u.chain h) (d.frameBytes y.item)).releaseCopy (d.portOwner port) y.item = w at hkeeps ⊢
    obtain ⟨htmg, hprs⟩ := palKeeps_queues hkeeps
    obtain ⟨pre, post, hinq, hput, hfresh, hport⟩ := enqueueIn_place w (recircPkt d port y.item h)
    rw [hprs] at hinq hfresh
    exact ⟨(congrArg (fun x : Tmg => tget [] x.egress port) htmg).trans (egressLeft_self d port r), h, pre, post, hinq, hput, hfresh, hport⟩

end Sys2Proof.Machine
end

section
/-!
SUPPORT. The distributor, the parser's banks and slices, and what completions and reports leave (R24, R130, R135, R155, R212, R213).
-/

namespace Sys2Proof.Machine

theorem plainMem_memWrite {d : Dev} (h : d.plainMem) (a : Nat) (bs : List Byte) : (d.memWrite a bs).plainMem := by
  rw [memWrite_plain h]
  exact h

theorem memRead_memWrite_self {d : Dev} (h : d.plainMem) (a : Nat) (bs : List Byte) : (d.memWrite a bs).memRead a bs.length = bs := by
  rw [memWrite_plain h]
  exact memRead_put d a bs

theorem memRead_memWrite_apart {d : Dev} (h : d.plainMem) {a b n : Nat} (bs : List Byte) (hapart : b + n ≤ a ∨ a + bs.length ≤ b) :
    (d.memWrite a bs).memRead b n = d.memRead b n := by
  refine List.map_congr_left fun i hi => ?_
  have hlt := List.mem_range.mp hi
  rw [memGet_memWrite_plain h, if_neg (by omega)]

/-- The device with a packet's image in both Canvas buffers of a slot (R155). -/
def Dev.withImages (d : Dev) (c i : Nat) (bs : List Byte) : Dev :=
  (d.memWrite (cluBase c + canvasVa i 0) bs).memWrite (cluBase c + canvasVa i 1) bs

theorem withImages_read {d : Dev} (h : d.plainMem) (c i : Nat) {bs : List Byte} (hlen : bs.length = 256) {b : Nat} (hb : b < 2) :
    (d.withImages c i bs).memRead (cluBase c + canvasVa i b) 256 = bs := by
  have hfirst := plainMem_memWrite h (cluBase c + canvasVa i 0) bs
  unfold Dev.withImages
  rw [← hlen]
  interval_cases b
  · rw [memRead_memWrite_apart hfirst bs (by unfold canvasVa; omega)]
    exact memRead_memWrite_self h _ bs
  · exact memRead_memWrite_self hfirst _ bs

/-- A plain write or one into DRAM changes no structure but memory's own. -/
theorem withImages_keeps (d : Dev) (c i : Nat) (bs : List Byte) : palKeeps d (d.withImages c i bs) :=
  (palKeeps_closed d).memWrite _ _ ((palKeeps_closed d).memWrite _ _ (palKeeps_refl d))

/-- The transaction of a placed packet (R155, R162). -/
def placedTxn (p : Parsed) (owner : Nat) : Txn :=
  { Txn.reset with
    phase := .active, domain := p.domain, ticket := p.ticket, entry := p.entry, prio := p.prio, work := 0,
    handle := p.pkt.handle, owner := owner, inPort := p.pkt.port, winOff := p.winOff,
    hdrEnd0 := p.hdrEnd, pktLen := p.pkt.len, d := p.pkt.len - (p.winOff + (p.hdrEnd - 0x40)), recircs := p.pkt.recircs,
    counted := p.counted, irrev := if p.irrev then .waits else .spec,
    recirc := p.pkt.recirc.getD 0, tsNs := p.pkt.tsNs, tsSec := p.pkt.tsSec }

/-- Its task record (R132). -/
def placedRec (p : Parsed) (i : Nat) : Rec :=
  { entry := p.entry, prio := p.prio, ticket := wd p.ticket, canvas := wd (canvasVa i 0),
    user := 0, hasTxn := true, txn := i, resume := false, save := 0, slots := [],
    ready := none, tid := 0, taken := false }

/-- The device with the oldest parsed packet taken to a cluster. -/
def Dev.outLeft (d : Dev) (r : List Parsed) : Dev := { d with prs := { d.prs with out := r, rot := (d.prs.rot + 1) % 24 } }

/-- A packet placed in a slot: its images, its transaction and its record; a report may follow (R24, R162). -/
theorem distributePacket_places {d : Dev} {p : Parsed} {r : List Parsed} {c i : Nat} (hout : d.prs.out = p :: r) (hplace : d.placeCluster = some c)
    (hon : d.rb Reg.VRN_CTL 0 = true) (hstage : d.stage ≠ 4)
    (hfree : findNat (fun i => decide ((d.txn (256 * c + i)).phase = .free)) 0 256 = some i) :
    let u := (d.outLeft r).withImages c i p.image
    let v := (u.setTxn (256 * c + i) (placedTxn p (u.ds p.pkt.handle).owner)).storeRcd c i (placedRec p i)
    ∃ q, distributePacket d = { v with esl := { v.esl with reports := q } } := by
  unfold distributePacket
  rw [hout, hplace]
  dsimp only
  rw [if_neg (by simp [hon, hstage]), hfree]
  dsimp only
  rw [← Dev.outLeft, ← Dev.withImages, ← placedTxn, ← placedRec]
  split <;> exact ⟨_, rfl⟩

/-- What a placed packet leaves (R24, R132, R155). -/
theorem distributePacket_ok {d : Dev} {p : Parsed} {r : List Parsed} {c i : Nat} (hout : d.prs.out = p :: r) (hplace : d.placeCluster = some c)
    (hon : d.rb Reg.VRN_CTL 0 = true) (hstage : d.stage ≠ 4)
    (hfree : findNat (fun i => decide ((d.txn (256 * c + i)).phase = .free)) 0 256 = some i) : let e := distributePacket d
    e.prs = (d.outLeft r).prs ∧ (∃ n, e.rcd c i = some { placedRec p i with ready := n }) ∧ (∃ o, e.txn (256 * c + i) = placedTxn p o) ∧
      (d.plainMem → p.image.length = 256 → ∀ b, b < 2 → e.memRead (cluBase c + canvasVa i b) 256 = p.image) := by
  obtain ⟨q, heq⟩ := distributePacket_places hout hplace hon hstage hfree
  have hprs : ((d.outLeft r).withImages c i p.image).prs = (d.outLeft r).prs := palKeeps_prs (withImages_keeps _ c i p.image)
  dsimp only
  rw [heq]
  refine ⟨hprs, ⟨_, rcd_store _ _ _ _⟩, ⟨_, Dev.txn_setTxn_self _ _ _⟩, fun hplain hlen b hb => ?_⟩
  exact withImages_read (d := d.outLeft r) hplain c i hlen hb

/-! Completions and reports (R130, R135). -/

/-- Whether a stored record of a cluster names a token. -/
def namesToken (c token : Nat) (e : Nat × Option Rec) : Bool := decide (e.1 / 1024 = c) && match e.2 with
  | some r => decide (token ∈ r.tokens)
  | none => false

/-- A record whose slots that name a token are filled with a status (R130). -/
def Rec.filledWith (r : Rec) (token : Nat) (status : Word) : Rec :=
  { r with slots := r.slots.map (fun s => s.map (fun y => if y.token = token then { y with filled := true, status := status } else y)) }

theorem filledWith_slots (r : Rec) (token : Nat) (status : Word) (y : RSlot) (hy : some y ∈ (r.filledWith token status).slots)
    (htok : y.token = token) : y.filled = true ∧ y.status = status := by
  obtain ⟨s, -, hs⟩ := List.mem_map.mp hy
  obtain ⟨z, -, rfl⟩ := Option.map_eq_some_iff.mp hs
  split at htok
  · rw [if_pos (by assumption)]
    exact ⟨rfl, rfl⟩
  · contradiction

section

variable {d : Dev} {x : Comp}

theorem fillToken_dead (h : ¬ ((d.tok (tokKey x.cluster x.token)).live = true ∧ (d.tok (tokKey x.cluster x.token)).gen = x.token / 4096)) :
    d.fillToken x = d := by
  unfold Dev.fillToken
  exact if_pos (by simpa [imp_iff_not_or] using h)

variable (hlive : (d.tok (tokKey x.cluster x.token)).live = true ∧ (d.tok (tokKey x.cluster x.token)).gen = x.token / 4096)
include hlive

theorem fillToken_held (hnamed : (d.tok (tokKey x.cluster x.token)).named = false) (hended : (d.tok (tokKey x.cluster x.token)).ended = false) :
    d.fillToken x = d.setTok (tokKey x.cluster x.token) { d.tok (tokKey x.cluster x.token) with done := some x.status } := by
  obtain ⟨hlive, hgen⟩ := hlive
  unfold Dev.fillToken
  dsimp only
  rw [if_neg (by simp [hlive, hgen]), if_neg (by simp [hnamed]), if_neg (by simp [hended])]

theorem fillToken_ends (hnamed : (d.tok (tokKey x.cluster x.token)).named = false) (hended : (d.tok (tokKey x.cluster x.token)).ended = true) :
    d.fillToken x = d.setTok (tokKey x.cluster x.token) { d.tok (tokKey x.cluster x.token) with live := false, ended := false } := by
  obtain ⟨hlive, hgen⟩ := hlive
  unfold Dev.fillToken
  dsimp only
  rw [if_neg (by simp [hlive, hgen]), if_neg (by simp [hnamed]), if_pos hended]

theorem fillToken_fills (hnamed : (d.tok (tokKey x.cluster x.token)).named = true) {i : Nat} {r : Rec}
    (hrec : d.esl.recs.find? (namesToken x.cluster x.token) = some (i, some r)) :
    d.fillToken x = d.storeRcd (i / 1024) (i % 1024) (r.filledWith x.token x.status) := by
  obtain ⟨hlive, hgen⟩ := hlive
  unfold Dev.fillToken
  dsimp only
  rw [if_neg (by simp [hlive, hgen]), if_pos hnamed]
  split
  · rename_i j q hfind
    obtain ⟨rfl, rfl⟩ : j = i ∧ q = r := by simpa using hfind.symm.trans hrec
    rfl
  · rename_i hnone
    exact absurd hrec (hnone i r)

end

theorem comp_cluster {d : Dev} {c : Nat} {x : Comp} (h : d.esl.comps.find? (fun x => decide (x.cluster = c)) = some x) : x.cluster = c := by
  simpa using List.find?_some h

/-- The device with a completion taken from those on their way. -/
def Dev.compTaken (d : Dev) (x : Comp) : Dev := { d with esl := { d.esl with comps := d.esl.comps.erase x } }

theorem completionArrival_found {d : Dev} {c : Nat} {x : Comp} (h : d.esl.comps.find? (fun x => decide (x.cluster = c)) = some x) :
    completionArrival c d = (d.compTaken x).fillToken x := by
  unfold completionArrival
  rw [h]
  rfl

theorem oldestReport_found {d : Dev} {c : Nat} {x : Nat × Nat} (h : d.esl.reports.find? (fun x => decide (x.1 = c)) = some x) :
    oldestReport c d = { d with esl := { d.esl with
      reports := d.esl.reports.erase x, boosted := tset false d.esl.boosted (256 * c + x.2) true } } := by
  unfold oldestReport
  rw [h]

end Sys2Proof.Machine
end

section
/-!
SUPPORT. The Easel (R138 to R146): what a record leaves that starts, afresh or resumed, that pre-empts, and what a saved task leaves.
-/

namespace Sys2Proof.Machine

/-- The tokens of a record that starts end (R129). -/
def Dev.tokensEnd (d : Dev) (c : Nat) (l : List Nat) : Dev := l.foldl (fun d tk =>
  let x := d.tok (tokKey c tk)
  d.setTok (tokKey c tk) { x with live := false, done := none, named := false }) d

theorem tokensEnd_toks (d : Dev) (c : Nat) (l : List Nat) : ∃ q, d.tokensEnd c l = { d with esl := { d.esl with toks := q } } := by
  refine foldl_inv _ (fun e : Dev => ∃ q, e = { d with esl := { d.esl with toks := q } }) ?_ l d ⟨_, rfl⟩
  rintro _ k ⟨q, rfl⟩
  exact ⟨_, rfl⟩

/-- The device once a record has left the store to start (R138). -/
def Dev.recTaken (d : Dev) (c i : Nat) (r : Rec) : Dev :=
  ((d.nextSeq.2.tokensEnd c r.tokens).setRcd c i none).bump64 (Reg.CLU_DISPATCH_CNT_LO c) 1

/-- Of the matching store only that record differs; the rest of the device keeps all but the Easel and the dispatch count. -/
theorem recTaken_keeps (d : Dev) (c i : Nat) (r : Rec) : ∃ n q, d.recTaken c i r = ({ d with esl := { d.esl with
    seq := n, toks := q, recs := tset none d.esl.recs (1024 * c + i) none } } : Dev).bump64 (Reg.CLU_DISPATCH_CNT_LO c) 1 := by
  obtain ⟨q, hq⟩ := tokensEnd_toks d.nextSeq.2 c r.tokens
  unfold Dev.recTaken
  rw [hq]
  exact ⟨_, _, rfl⟩

theorem recTaken_rcd (d : Dev) (c i : Nat) (r : Rec) : (d.recTaken c i r).rcd c i = none := by
  obtain ⟨n, q, h⟩ := recTaken_keeps d c i r
  rw [h]
  exact tget_tset_self none d.esl.recs (1024 * c + i) none

theorem recTaken_rcd_ne (d : Dev) {c i j : Nat} (r : Rec) (hne : j ≠ i) : (d.recTaken c i r).rcd c j = d.rcd c j := by
  obtain ⟨n, q, h⟩ := recTaken_keeps d c i r
  rw [h]
  exact tget_tset_ne none d.esl.recs (1024 * c + i) (1024 * c + j) none (by omega)

theorem reg_bump64_low (d : Dev) (o : Nat) : (d.bump64 o 1).reg o = d.reg o + 1 := by
  unfold Dev.bump64
  dsimp only
  rw [Dev.reg_setReg_ne _ _ _ _ (by omega), Dev.reg_setReg_self]
  refine BitVec.eq_of_toNat_eq ?_
  have hone : (1 : Word).toNat = 1 := rfl
  simp only [wd, BitVec.toNat_ofNat, BitVec.toNat_add, hone]
  omega

theorem reg_bump64_ne (d : Dev) {o p n : Nat} (hlow : p ≠ o) (hhigh : p ≠ o + 4) : (d.bump64 o n).reg p = d.reg p :=
  (Dev.reg_setReg_ne _ _ _ _ hhigh).trans (Dev.reg_setReg_ne _ _ _ _ hlow)

theorem recTaken_count (d : Dev) (c i : Nat) (r : Rec) :
    (d.recTaken c i r).reg (Reg.CLU_DISPATCH_CNT_LO c) = d.reg (Reg.CLU_DISPATCH_CNT_LO c) + 1 := by
  obtain ⟨n, q, h⟩ := recTaken_keeps d c i r
  rw [h]
  exact reg_bump64_low _ _

theorem recTaken_txn (d : Dev) (c i k : Nat) (r : Rec) : (d.recTaken c i r).txn k = d.txn k := by
  obtain ⟨n, q, h⟩ := recTaken_keeps d c i r
  rw [h]
  rfl

theorem recTaken_stackTop (d : Dev) (c i t : Nat) (r : Rec) : (d.recTaken c i r).stackTop t = d.stackTop t := by
  obtain ⟨n, q, h⟩ := recTaken_keeps d c i r
  have hreg : (d.recTaken c i r).reg (Reg.CLU_STACK_CFG (clusterOf t)) = d.reg (Reg.CLU_STACK_CFG (clusterOf t)) := by
    rw [h]
    exact reg_bump64_ne _ (by unfold Reg.CLU_STACK_CFG Reg.CLU_DISPATCH_CNT_LO; omega) (by unfold Reg.CLU_STACK_CFG Reg.CLU_DISPATCH_CNT_LO; omega)
  unfold Dev.stackTop
  dsimp only
  rw [rf_of_reg hreg, rf_of_reg hreg]

/-- The task of a record that starts. -/
def Rec.task (r : Rec) (n : Nat) : Task :=
  { hasTxn := r.hasTxn, txn := r.txn, prio := r.prio, ticket := r.ticket, canvas := r.canvas, user := r.user, entry := r.entry, seq := n }

/-- A thread on which a record starts afresh (R138). -/
def Dev.startedThr (d : Dev) (t : Nat) (r : Rec) (n : Nat) : Thread :=
  { (d.thr t).start r (d.stackTop t) (d.reg (Reg.CLU_TVB (clusterOf t)) &&& tvbMask) (wd (d.rf (Reg.CLU_DWIN (clusterOf t)) 8 0))
      (r.hasTxn && decide ((d.txn (256 * clusterOf t + r.txn)).irrev = .waits)) with task := some (r.task n), tid := n }

theorem startRec_fresh {r : Rec} (h : r.resume = false) (d : Dev) (now t i : Nat) : d.startRec now t i r =
    (d.recTaken (clusterOf t) i r).setThr t ((d.recTaken (clusterOf t) i r).startedThr t r d.nextSeq.1) := by
  unfold Dev.startRec
  dsimp only
  rw [if_neg (by simp [h])]
  rfl

/-- What a thread holds that starts afresh (R138, R139). -/
theorem startedThr_fields (d : Dev) (t : Nat) (r : Rec) (n : Nat) : let x := d.startedThr t r n
    x.pc = r.entry ∧ x.g 1 = r.canvas ∧ x.g 2 = r.user ∧ x.g 29 = d.stackTop t ∧ x.saving = none ∧ x.task.isSome = true ∧
      x.run = if r.hasTxn = true ∧ (d.txn (256 * clusterOf t + r.txn)).irrev = .waits then .starting else .running := by
  refine ⟨rfl, ?_, ?_, ?_, rfl, rfl, ?_⟩
  · refine Eq.trans (b := (Thread.setG _ 29 _).g 1) rfl ?_
    repeat rw [Thread.g_setG_ne _ _ _ _ (by decide)]
    exact Thread.g_setG_self _ _ _ (by decide)
  · refine Eq.trans (b := (Thread.setG _ 29 _).g 2) rfl ?_
    repeat rw [Thread.g_setG_ne _ _ _ _ (by decide)]
    exact Thread.g_setG_self _ _ _ (by decide)
  · exact Thread.g_setG_self _ 29 _ (by decide)
  · unfold Dev.startedThr Thread.start
    dsimp only
    simp only [Bool.and_eq_true, decide_eq_true_eq]

theorem setG_task (th : Thread) (r : Nat) (v : Word) : (th.setG r v).task = th.task ∧ (th.setG r v).tid = th.tid := by
  unfold Thread.setG
  split <;> exact ⟨rfl, rfl⟩

theorem advance_tid (th : Thread) (a : Bool) : (th.advance a).tid = th.tid := by
  unfold Thread.advance
  split
  · rfl
  · split
    · rfl
    · split
      · rfl
      · rfl
      · simp only [apply_ite Thread.tid, ite_self]

/-- The end of a wait leaves a thread its task. -/
theorem endWait_keeps (d : Dev) (t : Nat) (w : Word) : (∃ k, d.endWait t w = { d with krv := k }) ∧
    ((d.endWait t w).thr t).task = (d.thr t).task ∧ ((d.endWait t w).thr t).tid = (d.thr t).tid := by
  unfold Dev.endWait
  dsimp only
  split
  · rename_i kind op rd hrun
    obtain ⟨htask, htid⟩ := setG_task ({ d.thr t with run := .running } : Thread) rd w
    rw [Dev.thr_setThr_self, advance_task, advance_tid, htask, htid]
    exact ⟨⟨_, rfl⟩, rfl, rfl⟩
  · exact ⟨⟨_, rfl⟩, rfl, rfl⟩

/-- A record that resumes: the thread has its task and task number again, and its save slot is free (R144). -/
theorem startRec_resumed {r : Rec} (h : r.resume = true) (d : Dev) (now t i : Nat) : let e := d.startRec now t i r
    (∃ k sv, e = { d.recTaken (clusterOf t) i r with krv := k, esl := { (d.recTaken (clusterOf t) i r).esl with saves := sv } }) ∧
      (e.thr t).task = some (r.task d.nextSeq.1) ∧ (e.thr t).tid = r.tid := by
  unfold Dev.startRec
  dsimp only
  rw [if_pos h]
  generalize hu : Dev.setThr _ t _ = u
  have hkrv : ∃ k sv, u = { d.recTaken (clusterOf t) i r with krv := k, esl := { (d.recTaken (clusterOf t) i r).esl with saves := sv } } := by
    rw [← hu]
    exact ⟨_, _, rfl⟩
  have htask : (u.thr t).task = some (r.task d.nextSeq.1) ∧ (u.thr t).tid = r.tid := by
    rw [← hu, Dev.thr_setThr_self]
    exact ⟨rfl, rfl⟩
  have hwait : ∀ w, (∃ k sv, u.endWait t w = { d.recTaken (clusterOf t) i r with
      krv := k, esl := { (d.recTaken (clusterOf t) i r).esl with saves := sv } }) ∧
      ((u.endWait t w).thr t).task = some (r.task d.nextSeq.1) ∧ ((u.endWait t w).thr t).tid = r.tid := by
    intro w
    obtain ⟨⟨k, hk⟩, hktask, hktid⟩ := endWait_keeps u t w
    obtain ⟨k', sv, rfl⟩ := hkrv
    exact ⟨⟨k, sv, hk⟩, hktask.trans htask.1, hktid.trans htask.2⟩
  split
  · split
    · exact hwait 1
    · split
      · exact hwait 0
      · exact ⟨hkrv, htask⟩
  · exact ⟨hkrv, htask⟩

/-! Selection and pre-emption (R135 to R143). -/

section

variable {d : Dev} {c i : Nat} {r : Rec} (hon : d.rb (Reg.CLU_EASEL_CTL c) 8 = true) (hruns : d.cluRuns c = true)
  (hfirst : d.firstRec c (d.candidates c) = some (i, r)) (now : Nat)
include hon hruns hfirst

theorem easelSelect_starts {t : Nat} (hidle : d.idleThread c r.hasTxn = some t) : easelSelect now c d = d.startRec now t i r := by
  unfold easelSelect
  rw [if_pos (by simp [hon, hruns]), hfirst]
  dsimp only
  rw [hidle]

theorem easelSelect_preempts {v n : Nat} (hidle : d.idleThread c r.hasTxn = none) (hpre : d.preempts c r = some (v, n)) : let e := easelSelect now c d
    e.rcd c i = some { r with taken := true } ∧ e.thr v = { d.thr v with saving := some (64 * i + n) } ∧ tget false e.esl.saves (64 * c + n) = true := by
  unfold easelSelect
  rw [if_pos (by simp [hon, hruns]), hfirst]
  dsimp only
  rw [hidle]
  dsimp only
  rw [hpre]
  dsimp only
  exact ⟨tget_tset_self none d.esl.recs (1024 * c + i) (some { r with taken := true }), Dev.thr_updThr_self _ _ _,
    tget_tset_self false d.esl.saves (64 * c + n) true⟩

end

/-- A record that starts has left the store, and its thread holds its task (R138, R144). -/
theorem startRec_ok (d : Dev) (now t i : Nat) (r : Rec) : let e := d.startRec now t i r
    (∀ j, e.rcd (clusterOf t) j = (d.recTaken (clusterOf t) i r).rcd (clusterOf t) j) ∧ (e.thr t).task.isSome = true ∧
      e.reg (Reg.CLU_DISPATCH_CNT_LO (clusterOf t)) = d.reg (Reg.CLU_DISPATCH_CNT_LO (clusterOf t)) + 1 ∧ (r.resume = true → (e.thr t).tid = r.tid) ∧
      (r.resume = false → e.thr t = (d.recTaken (clusterOf t) i r).startedThr t r d.nextSeq.1) := by
  dsimp only
  cases hres : r.resume with
  | true =>
    obtain ⟨⟨k, sv, heq⟩, htask, htid⟩ := startRec_resumed hres d now t i
    refine ⟨fun j => by rw [heq]; rfl, by rw [htask]; rfl, ?_, fun _ => htid, nofun⟩
    rw [heq]
    exact recTaken_count d (clusterOf t) i r
  | false =>
    rw [startRec_fresh hres, Dev.thr_setThr_self]
    exact ⟨fun _ => rfl, rfl, recTaken_count d (clusterOf t) i r, nofun, fun _ => rfl⟩

/-- The resume record of a task that is saved (R142, R143). -/
def resumeRec (d : Dev) (c s : Nat) (k : Task) (tid : Nat) : Rec :=
  { entry := k.entry, prio := d.effPrio c k.hasTxn k.txn k.prio, ticket := k.ticket, canvas := k.canvas, user := k.user, hasTxn := k.hasTxn,
    txn := k.txn, resume := true, save := s, slots := [], ready := none, tid := tid, taken := false }

/-- The device with a task's context and resume record stored and its thread idle (R142, R146). -/
def Dev.taskSaved (d : Dev) (t s ri : Nat) (k : Task) : Dev :=
  (((d.memWrite (d.saveAddr (clusterOf t) s) (saveImage (d.thr t))).storeRcd (clusterOf t) ri (resumeRec d (clusterOf t) s k (d.thr t).tid)).bump64
    (Reg.CLU_PREEMPT_CNT_LO (clusterOf t)) 1).updThr t (fun th => { th.idle with saving := none })

/-- A victim at its word boundary is saved, and the record that waited starts (R143). -/
theorem preemptSave_saves {d : Dev} {t n ri : Nat} {k : Task} {p : Rec} (hsaving : (d.thr t).saving = some n) (htask : (d.thr t).task = some k)
    (hrec : d.rcd (clusterOf t) (n / 64) = some p) (hri : (if k.hasTxn = true then some k.txn else d.freeRcd (clusterOf t)) = some ri)
    (hload : (d.thr t).load = none) (hfly : ∀ f ∈ (d.thr t).fly, f = .ok) (hslot : (d.thr t).slot = .none) (hruns : d.txnRuns t = true) (now : Nat) :
    preemptSave now t d = (d.taskSaved t (n % 64) ri k).startRec now t (n / 64) p := by
  unfold preemptSave
  dsimp only
  rw [hsaving, htask]
  dsimp only
  rw [hrec, hri]
  dsimp only
  rw [if_pos (by simpa [hload, hslot, hruns] using hfly), ← resumeRec, ← Dev.taskSaved]

/-- What a saved task and the record that starts in its place leave (R143). -/
theorem taskSaved_starts (d : Dev) (now t s ri i : Nat) (k : Task) {p : Rec} (hfresh : p.resume = false) (hne : ri ≠ i) :
    let e := (d.taskSaved t s ri k).startRec now t i p
    e.rcd (clusterOf t) i = none ∧ (e.thr t).pc = p.entry ∧ (e.thr t).saving = none ∧
      ∃ a, e.rcd (clusterOf t) ri = some { resumeRec d (clusterOf t) s k (d.thr t).tid with ready := a } := by
  obtain ⟨hrcd, -, -, -, hthr⟩ := startRec_ok (d.taskSaved t s ri k) now t i p
  obtain ⟨hpc, -, -, -, hsaving, -⟩ := startedThr_fields ((d.taskSaved t s ri k).recTaken (clusterOf t) i p) t p (d.taskSaved t s ri k).nextSeq.1
  dsimp only
  rw [hthr hfresh, hrcd, hrcd, recTaken_rcd, recTaken_rcd_ne _ _ hne]
  exact ⟨rfl, hpc, hsaving, _, rcd_store (d.memWrite _ _) _ _ _⟩

end Sys2Proof.Machine
end

section
/-!
PROOF. The commands of packets and tasks.
-/

namespace Sys2Proof.Machine

/-- Settles O58: each command by the lemma about what it leaves. -/
theorem packetsAndTasks : Obligations.PacketsAndTasks := by
  unfold Obligations.PacketsAndTasks
  intro s
  have hcluster : ∀ {c : Nat}, c < 24 → isCluster c = true := fun h => decide_eq_true h
  dsimp only
  refine ⟨fun hslices hstage hplaces => ⟨fun k x r hre => ?reread, fun p r hre hon hinq =>
      ⟨fun hlost => ?lost, fun hkept hbad => ?quarantined, fun hkept hsound hdrop => ?dropped, fun hkept hsound hdrop => ?ticketed⟩⟩,
    fun port y r hport hegress hspill hsent hsound => ⟨fun hnone => ?full, fun hsome => ?copied⟩,
    fun p r c i hout hplace hon hstage hfree => ?placed,
    fun hlive => ⟨fun b hb => ?bank, fun r => ?noSlice, fun r v hv => ?slices⟩,
    fun c i r hc hon hruns hfirst => ⟨fun t ht hidle => ?starts, fun v n hidle hpre => ?preempts⟩,
    fun t n k p ri ht hsaving htask hrec hri hne hload hfly hslot hruns hfresh => ?saved,
    fun c x hc hfind => ⟨fun hdead => ?dead, fun hlive hnamed hended => ?held, fun hlive hnamed hended => ?ends, fun i r hlive hnamed hrec => ?fills⟩,
    fun c x hc hfind => ?report⟩
  case reread =>
    obtain ⟨y, hprs, hvrn, hticket, hdomain, hentry, hcounted, hhandle, hmigrated⟩ := reparse_keeps { s.dev with prs := { s.dev.prs with rereads := r } } x
    refine ⟨_, (exec_parsePacket s).trans (runDev_ok rfl), ?_⟩
    rw [parsePacket_reread hslices hstage hplaces _ _ hre, hprs, hvrn]
    exact ⟨rfl, rfl, rfl, y, rfl, hticket, hdomain, hentry, hcounted, hhandle, hmigrated⟩
  case lost =>
    refine ⟨_, (exec_parsePacket s).trans (runDev_ok rfl), ?_⟩
    rw [parsePacket_new hslices hstage hplaces _ _ hre hon hinq]
    exact parseNew_lost (d := { s.dev with prs := { s.dev.prs with inq := r } }) _ _ hlost
  case quarantined =>
    refine ⟨_, (exec_parsePacket s).trans (runDev_ok rfl), ?_⟩
    rw [parsePacket_new hslices hstage hplaces _ _ hre hon hinq]
    exact parseNew_quarantined (d := { s.dev with prs := { s.dev.prs with inq := r } }) _ _ hkept (((palSame_prs _ _).quarantined _).trans hbad)
  case dropped =>
    refine ⟨_, (exec_parsePacket s).trans (runDev_ok rfl), ?_⟩
    rw [parsePacket_new hslices hstage hplaces _ _ hre hon hinq]
    refine parseNew_dropped (d := { s.dev with prs := { s.dev.prs with inq := r } }) _ _ hkept (((palSame_prs _ _).quarantined _).trans hsound) ?_
    rw [endWord_prs]
    exact hdrop
  case ticketed =>
    have hword := endWord_prs s.dev { s.dev.prs with inq := r } (p.stamped s.clk.sec s.clk.nsec)
    obtain ⟨y, hprs, hpkt, hprio, hticket, hmigrated, hdom⟩ := parseNew_ticketed (d := { s.dev with prs := { s.dev.prs with inq := r } })
      s.clk.sec s.clk.nsec hkept (((palSame_prs _ _).quarantined _).trans hsound) (by rw [hword]; exact hdrop)
    rw [hword] at hprio
    refine ⟨_, (exec_parsePacket s).trans (runDev_ok rfl), ?_⟩
    rw [parsePacket_new hslices hstage hplaces _ _ hre hon hinq, hprs]
    exact ⟨rfl, y, rfl, hpkt, hprio, hticket, hmigrated, hdom⟩
  case full =>
    obtain ⟨hfull, -⟩ := recirculationReentry_ok hegress hspill hsent hsound
    exact ⟨_, (exec_recirculationReentry port s).trans (runDev_ok (decide_eq_true hport)), hfull hnone⟩
  case copied =>
    obtain ⟨-, hcopied⟩ := recirculationReentry_ok hegress hspill hsent hsound
    obtain ⟨hleft, h, pre, post, hinq, hput, hfresh, -⟩ := hcopied hsome
    exact ⟨_, (exec_recirculationReentry port s).trans (runDev_ok (decide_eq_true hport)), hleft, recircPkt s.dev port y.item h, pre, post,
      hinq, hput, hfresh, rfl, rfl, rfl, rfl, rfl⟩
  case placed =>
    obtain ⟨hprs, ⟨a, hrec⟩, ⟨o, htxn⟩, hread⟩ := distributePacket_ok hout hplace hon hstage hfree
    refine ⟨_, (exec_distributePacket s).trans (runDev_ok rfl), ?_⟩
    rw [hprs]
    exact ⟨rfl, rfl, ⟨_, hrec, rfl, rfl, rfl, rfl, rfl, rfl⟩, ⟨_, htxn, rfl, rfl, rfl, rfl, rfl, rfl⟩, hread⟩
  case bank =>
    refine ⟨_, (exec_parserBankSwitch b s).trans (runDev_ok (decide_eq_true hb)), ?_⟩
    rw [live_on hlive]
    exact ⟨(Dev.rf_setRf_self _ _ 1 1 b (by omega) (by omega)).trans (Nat.mod_eq_of_lt hb), fun o ho => Dev.reg_setRf_ne _ _ _ _ _ _ ho⟩
  case noSlice =>
    rw [exec_prsSliceIsolate, runDev_ok rfl, live_on hlive]
    rfl
  case slices =>
    have hval : v.toNat % 256 = v.toNat := Nat.mod_eq_of_lt v.isLt
    have hne : v.toNat ≠ 255 := fun h => hv (BitVec.eq_of_toNat_eq h)
    rw [exec_prsSliceIsolate, runDev_ok rfl, live_on hlive, prsSliceIsolate, hval, if_neg hne]
  case starts =>
    subst ht
    obtain ⟨hrcd, htask, hcount, htid, hthr⟩ := startRec_ok s.dev s.clk.count t i r
    refine ⟨_, (exec_easelSelect (clusterOf t) s).trans (runDev_ok (hcluster hc)), ?_⟩
    rw [easelSelect_starts hon hruns hfirst _ hidle, hrcd, recTaken_rcd]
    refine ⟨rfl, htask, hcount, htid, fun hfresh => ?_⟩
    obtain ⟨hpc, hcanvas, huser, hstack, -, -, hrun⟩ := startedThr_fields (s.dev.recTaken (clusterOf t) i r) t r s.dev.nextSeq.1
    rw [recTaken_stackTop] at hstack
    rw [recTaken_txn] at hrun
    rw [hthr hfresh]
    exact ⟨hpc, hcanvas, huser, hstack, hrun⟩
  case preempts =>
    exact ⟨_, (exec_easelSelect c s).trans (runDev_ok (hcluster hc)), easelSelect_preempts hon hruns hfirst _ hidle hpre⟩
  case saved =>
    obtain ⟨hgone, hpc, hnone, a, hkept⟩ := taskSaved_starts s.dev s.clk.count t (n % 64) ri (n / 64) k hfresh hne
    refine ⟨_, (exec_preemptSave t s).trans (runDev_ok (decide_eq_true ht)), ?_⟩
    rw [preemptSave_saves hsaving htask hrec hri hload hfly hslot hruns]
    exact ⟨hgone, hpc, hnone, _, hkept, rfl, rfl, rfl, rfl, rfl⟩
  case dead =>
    obtain rfl : x.cluster = c := comp_cluster hfind
    rw [exec_completionArrival, runDev_ok (hcluster hc), completionArrival_found hfind, fillToken_dead (d := s.dev.compTaken x) hdead]
    rfl
  case held =>
    obtain rfl : x.cluster = c := comp_cluster hfind
    rw [exec_completionArrival, runDev_ok (hcluster hc), completionArrival_found hfind, fillToken_held (d := s.dev.compTaken x) hlive hnamed hended]
    rfl
  case ends =>
    obtain rfl : x.cluster = c := comp_cluster hfind
    rw [exec_completionArrival, runDev_ok (hcluster hc), completionArrival_found hfind, fillToken_ends (d := s.dev.compTaken x) hlive hnamed hended]
    rfl
  case fills =>
    obtain rfl : x.cluster = c := comp_cluster hfind
    refine ⟨_, (exec_completionArrival _ s).trans (runDev_ok (hcluster hc)), ?_⟩
    rw [completionArrival_found hfind, fillToken_fills (d := s.dev.compTaken x) hlive hnamed hrec]
    exact ⟨rfl, _, rcd_store _ _ _ _, rfl, filledWith_slots r x.token x.status⟩
  case report =>
    refine ⟨_, (exec_oldestReport c s).trans (runDev_ok (hcluster hc)), ?_⟩
    rw [oldestReport_found hfind]
    exact ⟨rfl, tget_tset_self false s.dev.esl.boosted _ true, rfl⟩

end Sys2Proof.Machine
end

section
/-!
SUPPORT. What the writes of a ring group leave alone (R477 to R482, R484, R487): everything but memory, DRAM, the host interface,
fault reports, and the registers outside the ports'.
-/

namespace Sys2Proof.Machine

/-- A property of devices that no write of a ring group ends: neither what PalClosed lists, nor a change of the host interface or
of a register below the ports'. -/
structure HostClosed (P : Dev → Prop) : Prop extends PalClosed P where
  host : ∀ {d} (x : Hst), P d → P { d with hst := x }
  low : ∀ {d o} (v : Word), o < Reg.PRT_CTL → P d → P (d.setReg o v)

namespace HostClosed

variable {P : Dev → Prop} {d : Dev}

theorem captureIn (hP : HostClosed P) (q a n : Nat) (h : P d) : P (d.captureIn q a n) := by
  unfold Dev.captureIn
  split
  · unfold Dev.captureUnmapped
    split
    · exact hP.low _ (by decide) h
    · exact hP.low _ (by decide) (hP.low _ (by decide) (hP.low _ (by decide) h))
  · exact h

theorem dmaFault (hP : HostClosed P) (g ring cause a n : Nat) (h : P d) : P (d.dmaFault g ring cause a n) := by
  have hcap : P (if cause = 5 then d.captureIn 1 a n else d) := by
    split
    · exact hP.captureIn _ _ _ h
    · exact h
  unfold Dev.dmaFault
  dsimp only
  generalize (if cause = 5 then d.captureIn 1 a n else d) = e at hcap
  refine hP.raise _ _ ?_
  split
  · exact hP.low _ (by decide) hcap
  · exact hP.low _ (by decide) (hP.low _ (by decide) (hP.low _ (by decide) hcap))

theorem dmaWrite (hP : HostClosed P) (g ring a : Nat) (bs : List Byte) (h : P d) : P (d.dmaWrite g ring a bs) := by
  unfold Dev.dmaWrite
  split
  · exact hP.host _ h
  · split
    · exact hP.memWrite _ _ h
    · exact hP.dmaFault _ _ _ _ _ h

theorem writeEvts (hP : HostClosed P) (g : Nat) (ps : List (List Byte)) (h : P d) : P (d.writeEvts g ps) := by
  induction ps generalizing d with
  | nil => exact h
  | cons x r ih => exact ih (hP.host _ (hP.dmaWrite _ _ _ _ h))

theorem postEvts (hP : HostClosed P) {g : Nat} (hg : g < 16) (ps : List (List Byte)) (h : P d) : P (d.postEvts g ps) := by
  unfold Dev.postEvts
  dsimp only
  split
  · exact h
  · split
    · exact hP.writeEvts _ _ h
    · refine hP.raise _ _ (hP.low _ ?_ (hP.host _ h))
      simp only [Reg.HST_GRP_CNT, Reg.PRT_CTL]
      omega

/-- A link event of a port (R424). -/
theorem linkEvent (hP : HostClosed P) (now p state cause : Nat) (h : P d) : P (d.linkEvent now p state cause) := by
  unfold Dev.linkEvent
  split
  · exact hP.postEvts (fld_lt _ 27 24) _ h
  · exact h

end HostClosed

end Sys2Proof.Machine
end

section
/-!
SUPPORT. The bring-up of a port (R401): which registers of the ports and lanes each of its steps writes, and the state it leaves.
-/

namespace Sys2Proof.Machine

/-- Of the registers of the ports and lanes only those of S differ, and reports are only added. -/
structure portRegs (S : Nat → Prop) (d d' : Dev) : Prop where
  inbox : d.flt.inbox <+: d'.flt.inbox
  reg : ∀ {o}, Reg.PRT_CTL ≤ o → o < Reg.STN_CTL → ¬ S o → d'.reg o = d.reg o

/-- A status word of a lane. -/
def laneWord (o : Nat) : Prop := ∃ l, o = Reg.PRT_LANE_W1 l

/-- A status word of a port. -/
def portWord (p o : Nat) : Prop := o = Reg.PRT_PORT_W2 p ∨ o = Reg.PRT_PORT_W3 p

theorem portRegs_refl (S : Nat → Prop) (d : Dev) : portRegs S d d := ⟨List.prefix_refl _, fun _ _ _ => rfl⟩

section

variable {S : Nat → Prop} {a b c : Dev}

theorem portRegs_trans (h : portRegs S a b) (h' : portRegs S b c) : portRegs S a c :=
  ⟨h.inbox.trans h'.inbox, fun hl hu hS => (h'.reg hl hu hS).trans (h.reg hl hu hS)⟩

theorem portRegs_mono {T : Nat → Prop} (h : portRegs S a b) (hST : ∀ o, S o → T o) : portRegs T a b :=
  ⟨h.inbox, fun hl hu hT => h.reg hl hu fun hS => hT (hST _ hS)⟩

theorem portRegs_setReg (h : portRegs S a b) {o : Nat} (ho : S o) (v : Word) : portRegs S a (b.setReg o v) :=
  ⟨h.inbox, fun {k} hl hu hS => (b.reg_setReg_ne o k v fun e => hS (e ▸ ho)).trans (h.reg hl hu hS)⟩

theorem portRegs_raise (h : portRegs S a b) (src x : Nat) : portRegs S a (b.raise src x) :=
  ⟨h.inbox.trans (List.prefix_append _ _), h.reg⟩

theorem portRegs_prt (h : portRegs S a b) (x : Prt) : portRegs S a { b with prt := x } := ⟨h.inbox, h.reg⟩

/-- A port whose status word is not written keeps its state. -/
theorem portRegs_state (h : portRegs S a b) {q : Nat} (hq : q < 80) (hS : ¬ S (Reg.PRT_PORT_W2 q)) : b.prtState q = a.prtState q :=
  rf_of_reg (h.reg (by simp only [Reg.PRT_CTL, Reg.PRT_PORT_W2]; omega) (by simp only [Reg.STN_CTL, Reg.PRT_PORT_W2]; omega) hS) _ _

end

theorem portRegs_closed (S : Nat → Prop) (d : Dev) : HostClosed (portRegs S d) where
  store _ _ h := ⟨h.inbox, h.reg⟩
  pal _ h := ⟨h.inbox, h.reg⟩
  free _ h := ⟨h.inbox, h.reg⟩
  raise _ _ h := portRegs_raise h _ _
  reg _ ho h := ⟨h.inbox, fun hl hu hS => (Dev.reg_setReg_ne _ _ _ _ (by simp only [Reg.PAL_CTL, Reg.STN_CTL] at *; omega)).trans (h.reg hl hu hS)⟩
  host _ h := ⟨h.inbox, h.reg⟩
  low _ ho h := ⟨h.inbox, fun hl hu hS => (Dev.reg_setReg_ne _ _ _ _ (by omega)).trans (h.reg hl hu hS)⟩

theorem linkEvent_regs (S : Nat → Prop) (d : Dev) (now p state cause : Nat) : portRegs S d (d.linkEvent now p state cause) :=
  (portRegs_closed S d).linkEvent now p state cause (portRegs_refl S d)

theorem linkEvent_state {q : Nat} (hq : q < 80) (d : Dev) (now p state cause : Nat) : (d.linkEvent now p state cause).prtState q = d.prtState q :=
  portRegs_state (linkEvent_regs (fun _ => False) d now p state cause) hq id

/-! Lanes. -/

theorem portW2_not_lane (q : Nat) : ¬ laneWord (Reg.PRT_PORT_W2 q) := by
  rintro ⟨l, hl⟩
  simp only [Reg.PRT_PORT_W2, Reg.PRT_LANE_W1] at hl
  omega

theorem portW2_not_port {p q : Nat} (hne : q ≠ p) : ¬ portWord p (Reg.PRT_PORT_W2 q) := by
  rintro (h | h) <;> simp only [Reg.PRT_PORT_W2, Reg.PRT_PORT_W3] at h <;> omega

theorem laneW1_not_port {p l : Nat} (hp : p < 80) : ¬ portWord p (Reg.PRT_LANE_W1 l) := by
  rintro (h | h) <;> simp only [Reg.PRT_PORT_W2, Reg.PRT_PORT_W3, Reg.PRT_LANE_W1] at h <;> omega

theorem portRegs_lane {p l : Nat} {a b : Dev} (h : portRegs (portWord p) a b) (hp : p < 80) (hl : l < 100) :
    b.reg (Reg.PRT_LANE_W1 l) = a.reg (Reg.PRT_LANE_W1 l) :=
  h.reg (by simp only [Reg.PRT_CTL, Reg.PRT_LANE_W1]; omega) (by simp only [Reg.STN_CTL, Reg.PRT_LANE_W1]; omega) (laneW1_not_port hp)

/-- The lanes of a port lie close behind it. -/
theorem prtLanes_lt {d : Dev} {p l : Nat} (hp : p < 80) (h : l ∈ d.prtLanes p) : l < 100 := by
  obtain ⟨k, hk, rfl⟩ := List.mem_map.mp h
  have hlt : k < d.rf (Reg.PRT_PORT_W2 p) 2 0 := List.mem_range.mp hk
  have hmax : d.rf (Reg.PRT_PORT_W2 p) 2 0 < 2 ^ (2 + 1 - 0) := fld_lt _ 2 0
  omega

/-- A step of a walk over lanes writes status words of lanes and nothing of the ports' state. -/
def laneStep (f : Dev → Nat → Dev) : Prop := ∀ d l, portRegs laneWord d (f d l) ∧ (f d l).prt = d.prt

theorem laneStep_setRf (hi lo v : Nat) : laneStep (fun d l => d.setRf (Reg.PRT_LANE_W1 l) hi lo v) :=
  fun d l => ⟨portRegs_setReg (portRegs_refl _ d) ⟨l, rfl⟩ _, rfl⟩

theorem laneStep_setRb (i : Nat) (b : Bool) : laneStep (fun d l => d.setRb (Reg.PRT_LANE_W1 l) i b) := laneStep_setRf i i _

theorem laneStep_comp {f k : Dev → Nat → Dev} (hf : laneStep f) (hk : laneStep k) : laneStep (fun d l => k (f d l) l) :=
  fun d l => ⟨portRegs_trans (hf d l).1 (hk (f d l) l).1, (hk (f d l) l).2.trans (hf d l).2⟩

theorem lanes_ok {f : Dev → Nat → Dev} (hf : laneStep f) (ls : List Nat) (d : Dev) :
    portRegs laneWord d (ls.foldl f d) ∧ (ls.foldl f d).prt = d.prt :=
  foldl_inv f (fun e => portRegs laneWord d e ∧ e.prt = d.prt)
    (fun e l h => ⟨portRegs_trans h.1 (hf e l).1, (hf e l).2.trans h.2⟩) ls d ⟨portRegs_refl _ d, rfl⟩

theorem lanes_state {f : Dev → Nat → Dev} (hf : laneStep f) (ls : List Nat) (d : Dev) {q : Nat} (hq : q < 80) :
    (ls.foldl f d).prtState q = d.prtState q := portRegs_state (lanes_ok hf ls d).1 hq (portW2_not_lane q)

theorem laneW1_inj {k l : Nat} (h : Reg.PRT_LANE_W1 k = Reg.PRT_LANE_W1 l) : k = l := by
  simp only [Reg.PRT_LANE_W1] at h
  omega

/-! A port's state. -/

theorem setPrtState_regs (d : Dev) (p st : Nat) : portRegs (portWord p) d (d.setPrtState p st) := by
  have hset := portRegs_setReg (portRegs_refl (portWord p) d) (.inl rfl) (setFld (d.reg (Reg.PRT_PORT_W2 p)) 31 28 st)
  unfold Dev.setPrtState
  dsimp only
  split
  · exact portRegs_raise (portRegs_setReg hset (.inr rfl) _) _ _
  · exact hset

theorem setPrtState_prt (d : Dev) (p st : Nat) : (d.setPrtState p st).prt = d.prt := by
  obtain ⟨⟨_, _, h⟩, -⟩ := setPrtState_in d p st
  rw [h]

/-- Leaving state 4 is recorded (R424, R426). -/
theorem setPrtState_records {d : Dev} {p st : Nat} (hup : d.prtState p = 4) (hst : st ≠ 4) :
    ⟨Src.portLinkDown, wd p, false⟩ ∈ (d.setPrtState p st).flt.inbox := by
  unfold Dev.setPrtState
  dsimp only
  rw [if_pos ⟨hup, hst⟩, raise_inbox]
  exact List.mem_append_right _ (List.mem_singleton_self _)

/-- What a bring-up leaves (R401): the port trains or aligns from now on if every lane has a signal. -/
theorem bringUp_signals {d : Dev} {p : Nat} (hmay : d.mayBringUp p = true) (hall : ∀ l ∈ d.prtLanes p, d.rb (Reg.PRT_LANE_W1 l) 31 = true) (now : Nat) :
    (d.bringUp now p).prtState p = (if p < 32 then 2 else 3) ∧ tget 0 (d.bringUp now p).prt.detect p = now := by
  unfold Dev.bringUp
  dsimp only
  rw [if_pos hmay, if_pos (List.all_eq_true.mpr hall), setPrtState_prt]
  exact ⟨setPrtState_self _ _ _ (by split <;> omega), tget_tset_self _ _ _ _⟩

theorem bringUp_regs (d : Dev) (now p : Nat) : portRegs (portWord p) d (d.bringUp now p) := by
  unfold Dev.bringUp
  dsimp only
  split
  · split
    · exact portRegs_trans (portRegs_prt (portRegs_refl _ d) _) (setPrtState_regs _ p _)
    · exact setPrtState_regs d p 1
  · exact portRegs_refl _ d

/-- A bring-up leaves its port waiting, training or aligning, or where it was. -/
theorem bringUp_state (d : Dev) (now p : Nat) :
    (d.bringUp now p).prtState p ∈ [1, 2, 3] ∨ (d.bringUp now p).prtState p = d.prtState p := by
  unfold Dev.bringUp
  dsimp only
  split
  · refine .inl ?_
    split
    · rw [setPrtState_self _ _ _ (by split <;> omega)]
      split <;> decide
    · rw [setPrtState_self _ _ _ (by omega)]
      decide
  · exact .inr rfl

end Sys2Proof.Machine
end

section
/-!
SUPPORT. The events of a port's bring-up (R64, R65, R401): what each leaves.
-/

namespace Sys2Proof.Machine

/-- What a step of a port's bring-up leaves of the other ports. -/
def othersKept (p : Nat) (d e : Dev) : Prop := ∀ q, q < 80 → q ≠ p → e.prtState q = d.prtState q

theorem othersKept_trans {p : Nat} {a b c : Dev} (h : othersKept p a b) (h' : othersKept p b c) : othersKept p a c :=
  fun q hq hne => (h' q hq hne).trans (h q hq hne)

theorem portRegs_others {p : Nat} {d e : Dev} (h : portRegs (portWord p) d e) : othersKept p d e :=
  fun _ hq hne => portRegs_state h hq (portW2_not_port hne)

theorem lanes_others {f : Dev → Nat → Dev} (hf : laneStep f) (p : Nat) (ls : List Nat) (d : Dev) : othersKept p d (ls.foldl f d) :=
  fun _ hq _ => lanes_state hf ls d hq

/-! A signal on a lane. -/

section

variable (d : Dev) (l : Nat) (b : Bool)

theorem rf_lane {o : Nat} (h : o ≠ Reg.PRT_LANE_W1 l) (hi lo : Nat) : (d.setRb (Reg.PRT_LANE_W1 l) 31 b).rf o hi lo = d.rf o hi lo :=
  d.rf_setReg_ne _ _ _ _ _ h

theorem rb_lane {o : Nat} (h : o ≠ Reg.PRT_LANE_W1 l) (i : Nat) : (d.setRb (Reg.PRT_LANE_W1 l) 31 b).rb o i = d.rb o i :=
  d.rb_setReg_ne _ _ _ _ h

theorem portW2_ne_lane (q : Nat) : Reg.PRT_PORT_W2 q ≠ Reg.PRT_LANE_W1 l := fun h => portW2_not_lane q ⟨l, h⟩

theorem prtState_lane (q : Nat) : (d.setRb (Reg.PRT_LANE_W1 l) 31 b).prtState q = d.prtState q := rf_lane d l b (portW2_ne_lane l q) _ _

theorem prtLanes_lane (q : Nat) : (d.setRb (Reg.PRT_LANE_W1 l) 31 b).prtLanes q = d.prtLanes q := by
  unfold Dev.prtLanes
  rw [rf_lane d l b (portW2_ne_lane l q)]

theorem lanePort_lane (k : Nat) : (d.setRb (Reg.PRT_LANE_W1 l) 31 b).lanePort k = d.lanePort k := by
  unfold Dev.lanePort
  simp only [rf_lane d l b (portW2_ne_lane l _)]

theorem portEnabled_setRb (o i q : Nat) : (d.setRb o i b).portEnabled q = d.portEnabled q := rfl

theorem portHeld_setRb (o i q : Nat) : (d.setRb o i b).portHeld q = d.portHeld q := rfl

/-- Whether a port may be brought up does not depend on its lanes' signals. -/
theorem mayBringUp_lane (q : Nat) : (d.setRb (Reg.PRT_LANE_W1 l) 31 b).mayBringUp q = d.mayBringUp q := by
  have hctl : Reg.PRT_CTL ≠ Reg.PRT_LANE_W1 l := by simp only [Reg.PRT_CTL, Reg.PRT_LANE_W1]; omega
  have hport : Reg.PRT_PORT_W0 q ≠ Reg.PRT_LANE_W1 l := by simp only [Reg.PRT_PORT_W0, Reg.PRT_LANE_W1]; omega
  have htest : Reg.DBG_LANE_TEST ≠ Reg.PRT_LANE_W1 l := by simp only [Reg.DBG_LANE_TEST, Reg.PRT_LANE_W1]; omega
  have hrun : Reg.GLB_RUN_STATE ≠ Reg.PRT_LANE_W1 l := by simp only [Reg.GLB_RUN_STATE, Reg.PRT_LANE_W1]; omega
  unfold Dev.mayBringUp Dev.laneTested Dev.stage
  rw [portEnabled_setRb, portHeld_setRb, Dev.setRb_pins, rb_lane d l b hctl, rb_lane d l b hport, rb_lane d l b htest, rf_lane d l b htest, rf_lane d l b hrun, prtLanes_lane]

end

/-- A signal on a lane of a port: its bring-up, if it waits. The definition is unfolded as a function, not at its arguments: the kernel
would otherwise evaluate the lane's port, and with it the reset value of a register whose number is not closed. -/
theorem signalDetect_port {d : Dev} {l p : Nat} (h : d.lanePort l = some p) (now : Nat) :
    signalDetect now l d = if d.prtState p = 1 then (d.setRb (Reg.PRT_LANE_W1 l) 31 true).bringUp now p else d.setRb (Reg.PRT_LANE_W1 l) 31 true := by
  have hport := (lanePort_lane d l true l).trans h
  have hst := prtState_lane d l true p
  have hdef : signalDetect = signalDetect := rfl
  conv_rhs at hdef => delta signalDetect
  generalize hx : d.setRb (Reg.PRT_LANE_W1 l) 31 true = x at hport hst ⊢
  simp only [hdef, hx, hport, hst]

/-- What a signal on a lane of a port leaves (R401). -/
theorem signalDetect_ok {d : Dev} {l p : Nat} (hp : p < 80) (hl : l < 80) (h : d.lanePort l = some p) (now : Nat) : let e := signalDetect now l d
    e.rb (Reg.PRT_LANE_W1 l) 31 = true ∧ othersKept p d e ∧ (d.prtState p ≠ 1 → e.prtState p = d.prtState p) ∧
    (d.prtState p = 1 → d.mayBringUp p = true → (∀ k ∈ d.prtLanes p, k ≠ l → d.rb (Reg.PRT_LANE_W1 k) 31 = true) →
      e.prtState p = (if p < 32 then 2 else 3) ∧ tget 0 e.prt.detect p = now) := by
  have hset : othersKept p d (d.setRb (Reg.PRT_LANE_W1 l) 31 true) := fun q _ _ => prtState_lane d l true q
  have hbit : (d.setRb (Reg.PRT_LANE_W1 l) 31 true).rb (Reg.PRT_LANE_W1 l) 31 = true := d.rb_setRb_self _ _ _ (by omega)
  dsimp only
  rw [signalDetect_port h]
  by_cases hwait : d.prtState p = 1
  · rw [if_pos hwait]
    have hup := bringUp_regs (d.setRb (Reg.PRT_LANE_W1 l) 31 true) now p
    refine ⟨(rb_of_reg (portRegs_lane hup hp (by omega)) 31).trans hbit, othersKept_trans hset (portRegs_others hup), fun hne => absurd hwait hne,
      fun _ hmay hall => bringUp_signals ((mayBringUp_lane d l true p).trans hmay) (fun k hk => ?_) now⟩
    rw [prtLanes_lane] at hk
    by_cases hkl : k = l
    · rw [hkl, hbit]
    · rw [rb_lane d l true fun e => hkl (laneW1_inj e)]
      exact hall k hk hkl
  · rw [if_neg hwait]
    exact ⟨hbit, hset, fun _ => prtState_lane d l true p, fun h => absurd h hwait⟩

/-! Training, alignment and the limits. -/

/-- Both status bits of a lane of a trained port. -/
def laneTrained (d : Dev) (l : Nat) : Dev := (d.setRb (Reg.PRT_LANE_W1 l) 30 true).setRb (Reg.PRT_LANE_W1 l) 29 true

theorem laneTrained_step : laneStep laneTrained :=
  fun d l => laneStep_comp (laneStep_setRb 30 true) (laneStep_setRb 29 true) d l

theorem laneTrained_bits (d : Dev) (k l : Nat) (h : k = l ∨ d.rb (Reg.PRT_LANE_W1 l) 30 = true ∧ d.rb (Reg.PRT_LANE_W1 l) 29 = true) :
    (laneTrained d k).rb (Reg.PRT_LANE_W1 l) 30 = true ∧ (laneTrained d k).rb (Reg.PRT_LANE_W1 l) 29 = true := by
  by_cases hkl : k = l
  · subst hkl
    exact ⟨(Dev.rb_setRb_apart _ _ _ _ _ (by omega) (by omega)).trans (Dev.rb_setRb_self _ _ _ _ (by omega)), Dev.rb_setRb_self _ _ _ _ (by omega)⟩
  · have hreg : (laneTrained d k).reg (Reg.PRT_LANE_W1 l) = d.reg (Reg.PRT_LANE_W1 l) :=
      (Dev.reg_setRb_ne _ _ _ _ _ fun e => hkl (laneW1_inj e).symm).trans (Dev.reg_setRb_ne _ _ _ _ _ fun e => hkl (laneW1_inj e).symm)
    obtain ⟨h30, h29⟩ := h.resolve_left hkl
    exact ⟨(rb_of_reg hreg 30).trans h30, (rb_of_reg hreg 29).trans h29⟩

theorem alignFrom_align (d : Dev) (now p : Nat) :
    tget 0 (d.alignFrom now p).prt.align_ p = max now (max (d.faultEnds p).1 (d.faultEnds p).2) := tget_tset_self _ _ _ _

theorem alignFrom_regs (S : Nat → Prop) (d : Dev) (now p : Nat) : portRegs S d (d.alignFrom now p) := portRegs_prt (portRegs_refl S d) _

/-- Training done begins alignment (R401). -/
theorem linkTrainingDone_ok {d : Dev} {p : Nat} (hp : p < 80) (h : d.prtState p = 2) (now : Nat) : let e := linkTrainingDone now p d
    e.prtState p = 3 ∧ tget 0 e.prt.align_ p = max now (max (d.faultEnds p).1 (d.faultEnds p).2) ∧ othersKept p d e ∧
    ∀ l ∈ d.prtLanes p, e.rb (Reg.PRT_LANE_W1 l) 30 = true ∧ e.rb (Reg.PRT_LANE_W1 l) 29 = true := by
  have htrain : linkTrainingDone now p d = (((d.prtLanes p).foldl laneTrained d).alignFrom now p).setPrtState p 3 := if_pos h
  obtain ⟨-, hprt⟩ := lanes_ok laneTrained_step (d.prtLanes p) d
  have hlanes := lanes_others laneTrained_step p (d.prtLanes p) d
  have hbits := foldl_each laneTrained (fun l (x : Dev) => x.rb (Reg.PRT_LANE_W1 l) 30 = true ∧ x.rb (Reg.PRT_LANE_W1 l) 29 = true)
    (fun b a => laneTrained_bits b a a (.inl rfl)) (fun b a a' hb => laneTrained_bits b a a' (.inr hb)) (d.prtLanes p) d
  dsimp only
  rw [htrain]
  generalize (d.prtLanes p).foldl laneTrained d = x at hprt hlanes hbits
  have hset := portRegs_trans (alignFrom_regs (portWord p) x now p) (setPrtState_regs (x.alignFrom now p) p 3)
  refine ⟨setPrtState_self _ _ _ (by omega), ?_, othersKept_trans hlanes (portRegs_others hset), fun l hl => ?_⟩
  · rw [setPrtState_prt, alignFrom_align]
    unfold Dev.faultEnds
    rw [hprt]
  · have hreg := portRegs_lane hset hp (prtLanes_lt hp hl)
    exact ⟨(rb_of_reg hreg 30).trans (hbits l hl).1, (rb_of_reg hreg 29).trans (hbits l hl).2⟩

/-- 1 ms of alignment brings the port up (R401). -/
theorem portUpEvent_ok {d : Dev} {p now : Nat} (hp : p < 80) (h : d.prtState p = 3) (hms : tget 0 d.prt.align_ p + 1000000 ≤ now) :
    (portUpEvent now p d).prtState p = 4 ∧ othersKept p d (portUpEvent now p d) := by
  have hlanes := lanes_others (laneStep_setRb 30 true) p (d.prtLanes p) d
  unfold portUpEvent
  dsimp only
  rw [if_pos ⟨h, hms⟩]
  exact ⟨(linkEvent_state hp _ _ _ _ _).trans (setPrtState_self _ _ _ (by omega)), othersKept_trans hlanes (portRegs_others
    (portRegs_trans (setPrtState_regs _ p 4) (linkEvent_regs _ _ _ _ _ _)))⟩

/-- A port held as a disagreement, recorded (R64, R65). -/
theorem holdPort_ok {d : Dev} {p : Nat} (hp : p < 80) (now : Nat) : let e := d.holdPort now p
    e.prtState p = 5 ∧ othersKept p d e ∧ ∃ x ∈ e.flt.inbox, x.src = Src.portProfileMismatch := by
  refine ⟨?_, portRegs_others (portRegs_raise (portRegs_trans (portRegs_trans (portRegs_prt (portRegs_refl _ d) _) (setPrtState_regs _ p 5))
    (linkEvent_regs _ _ _ _ _ _)) _ _), _, List.mem_append_right _ (List.mem_singleton_self _), rfl⟩
  exact (linkEvent_state hp _ _ _ _ _).trans (setPrtState_self _ _ _ (by omega))

/-! Losses and faults (R401, R424). -/

theorem linkLoss_state {q : Nat} (hq : q < 80) (d : Dev) (now p : Nat) (why : LinkWhy) : (d.linkLoss now p why).prtState q = d.prtState q := by
  unfold Dev.linkLoss
  cases why with
  | signal => exact lanes_state (laneStep_setRf 31 29 0) _ _ hq
  | alignment => exact lanes_state (laneStep_setRb 30 false) _ _ hq
  | localFault => rfl
  | remoteFault => rfl

/-- A lost signal clears the status of every lane of the port. -/
theorem linkLoss_signal {d : Dev} {p l : Nat} (hl : l ∈ d.prtLanes p) (now : Nat) : (d.linkLoss now p .signal).rf (Reg.PRT_LANE_W1 l) 31 29 = 0 := by
  refine foldl_each (fun (d : Dev) l => d.setRf (Reg.PRT_LANE_W1 l) 31 29 0) (fun l (x : Dev) => x.rf (Reg.PRT_LANE_W1 l) 31 29 = 0)
    (fun b a => ?_) (fun b a a' hb => ?_) (d.prtLanes p) _ l hl
  · rw [Dev.rf_setRf_self _ _ _ _ _ (by omega) (by omega), Nat.zero_mod]
  · by_cases haa : a' = a
    · rw [haa, Dev.rf_setRf_self _ _ _ _ _ (by omega) (by omega), Nat.zero_mod]
    · exact (Dev.rf_setReg_ne _ _ _ _ _ _ fun e => haa (laneW1_inj e)).trans hb

/-- An up port that loses its link goes down, recorded, and repeats its bring-up (R401). -/
theorem portLinkDown_up {d : Dev} {p : Nat} (hp : p < 80) (h : d.prtState p = 4) (now : Nat) (why : LinkWhy) : let e := portLinkDownEvent now p why d
    e.prtState p ≠ 4 ∧ othersKept p d e ∧ ∃ x ∈ e.flt.inbox, x.src = Src.portLinkDown ∧ x.detail = wd p := by
  have hloss : othersKept p d (d.linkLoss now p why) := fun _ hq _ => linkLoss_state hq d now p why
  have hrec := setPrtState_records ((linkLoss_state hp d now p why).trans h) (by omega : 1 ≠ 4)
  have hdown := setPrtState_regs (d.linkLoss now p why) p 1
  have hone := setPrtState_self (d.linkLoss now p why) p 1 (by omega)
  unfold portLinkDownEvent
  dsimp only
  rw [if_pos h]
  generalize (d.linkLoss now p why).setPrtState p 1 = x at hrec hdown hone
  have hevt := linkEvent_regs (portWord p) x now p 1 (if why = LinkWhy.signal then 0 else 1)
  have hevtSt := linkEvent_state hp x now p 1 (if why = LinkWhy.signal then 0 else 1)
  generalize x.linkEvent now p 1 (if why = LinkWhy.signal then 0 else 1) = y at hevt hevtSt
  have hlanes := lanes_ok (laneStep_setRb 29 false) (y.prtLanes p) y
  have hlanesSt := lanes_others (laneStep_setRb 29 false) p (y.prtLanes p) y
  have hlanesOwn := lanes_state (laneStep_setRb 29 false) (y.prtLanes p) y hp
  generalize (y.prtLanes p).foldl _ y = z at hlanes hlanesSt hlanesOwn
  have hup := bringUp_regs z now p
  refine ⟨fun hfour => ?_, othersKept_trans hloss (othersKept_trans (portRegs_others (portRegs_trans hdown hevt))
    (othersKept_trans hlanesSt (portRegs_others hup))), _, (hevt.inbox.trans (hlanes.1.inbox.trans hup.inbox)).subset hrec, rfl, rfl⟩
  rcases bringUp_state z now p with hin | heq
  · rw [hfour] at hin
    exact absurd hin (by decide)
  · omega

/-- In bring-up a lost signal ends it, and anything else begins the 1 ms anew (R401). -/
theorem portLinkDown_bringUp {d : Dev} {p : Nat} (hp : p < 80) (h : d.prtState p = 2 ∨ d.prtState p = 3) (now : Nat) (why : LinkWhy) :
    let e := portLinkDownEvent now p why d
    othersKept p d e ∧ (why = .signal → e.prtState p = 1 ∧ ∀ l ∈ d.prtLanes p, e.rf (Reg.PRT_LANE_W1 l) 31 29 = 0) ∧
    (why ≠ .signal → e.prtState p = d.prtState p ∧ now ≤ tget 0 e.prt.align_ p) := by
  have hloss : othersKept p d (d.linkLoss now p why) := fun _ hq _ => linkLoss_state hq d now p why
  unfold portLinkDownEvent
  dsimp only
  rw [if_neg (by omega), if_pos h]
  by_cases hwhy : why = .signal
  · subst hwhy
    rw [if_pos rfl]
    have hset := setPrtState_regs (d.linkLoss now p .signal) p 1
    exact ⟨othersKept_trans hloss (portRegs_others hset), fun _ => ⟨setPrtState_self _ _ _ (by omega), fun l hl =>
      (rf_of_reg (portRegs_lane hset hp (prtLanes_lt hp hl)) 31 29).trans (linkLoss_signal hl now)⟩, fun hne => absurd rfl hne⟩
  · rw [if_neg hwhy]
    exact ⟨othersKept_trans hloss (portRegs_others (alignFrom_regs _ _ _ _)), fun h => absurd h hwhy, fun _ => ⟨linkLoss_state hp d now p why,
      (le_max_left _ _).trans (alignFrom_align _ _ _).ge⟩⟩

/-- Settles O38: each event by the lemma about what it leaves. -/
theorem portBringUp : Obligations.PortBringUp := by
  unfold Obligations.PortBringUp
  intro s p hp
  dsimp only
  have hmac : isMac p = true := decide_eq_true hp
  refine ⟨fun l hl hport => ⟨_, (exec_signalDetect l s).trans (runDev_ok (decide_eq_true hl)), signalDetect_ok hp hl hport _⟩,
    fun htrain => ⟨_, (exec_linkTrainingDone p s).trans (runDev_ok hmac), linkTrainingDone_ok hp htrain _⟩,
    fun halign hms => ⟨_, (exec_portUp p s).trans (runDev_ok hmac), portUpEvent_ok hp halign hms⟩,
    fun hst hlimit => ⟨_, (exec_portBringupTimeout p s).trans (runDev_ok hmac), ?limit⟩,
    fun hup why => ⟨_, (exec_portLinkDown p why s).trans (runDev_ok hmac), portLinkDown_up hp hup _ why⟩,
    fun hst why => ⟨_, (exec_portLinkDown p why s).trans (runDev_ok hmac), portLinkDown_bringUp hp hst _ why⟩⟩
  case limit =>
    unfold Machine.portBringupTimeout
    dsimp only
    rw [if_pos ⟨hst, hlimit⟩]
    exact holdPort_ok hp _

end Sys2Proof.Machine
end

section
/-!
SUPPORT. The commands of a ring group in host memory (R475 to R478): how one starts, what its checks make of it, and what its
completion and its response leave.
-/

namespace Sys2Proof.Machine

namespace HostClosed

variable {P : Dev → Prop} {d : Dev}

theorem flushCpl (hP : HostClosed P) (g n : Nat) (h : P d) : P (d.flushCpl g n) := by
  induction n generalizing d with
  | zero => exact h
  | succ n ih =>
    unfold Dev.flushCpl
    dsimp only
    split
    · exact h
    · split
      · exact h
      · exact ih (hP.host _ (hP.dmaWrite _ _ _ _ h))

/-- The end of a command of any group. -/
theorem cmdEnd (hP : HostClosed P) (g k st : Nat) (rs : List Nat) (h : P d) : P (d.cmdEnd g k st rs) := by
  unfold Dev.cmdEnd
  dsimp only
  split
  · exact h
  · split
    · exact hP.host _ h
    · exact hP.flushCpl _ _ (hP.host _ h)

end HostClosed

/-! A group in host memory. -/

/-- Only the host interface differs, and what has left for host memory is only added to. -/
def hostAdds (d e : Dev) : Prop := e = { d with hst := e.hst } ∧ d.hst.posted <+: e.hst.posted

theorem hostAdds_refl (d : Dev) : hostAdds d d := ⟨rfl, List.prefix_refl _⟩

theorem hostAdds_trans {a b c : Dev} (h : hostAdds a b) (h' : hostAdds b c) : hostAdds a c := by
  obtain ⟨hb, hpost⟩ := h
  obtain ⟨hc, hpost'⟩ := h'
  exact ⟨hc.trans (by rw [hb]), hpost.trans hpost'⟩

theorem hostAdds_setGrp (d : Dev) (g : Nat) (x : Grp) : hostAdds d (d.setGrp g x) := ⟨rfl, List.prefix_refl _⟩

theorem hostAdds_dmaWrite {g : Nat} (hg : g < 15) (d : Dev) (ring a : Nat) (bs : List Byte) : hostAdds d (d.dmaWrite g ring a bs) := by
  rw [dmaWrite_host hg]
  exact ⟨rfl, List.prefix_append _ _⟩

section

variable {g : Nat} (hg : g < 15)
include hg

theorem hostAdds_flushCpl (d : Dev) (n : Nat) : hostAdds d (d.flushCpl g n) := by
  induction n generalizing d with
  | zero => exact hostAdds_refl d
  | succ n ih =>
    unfold Dev.flushCpl
    dsimp only
    split
    · exact hostAdds_refl d
    · split
      · exact hostAdds_refl d
      · exact hostAdds_trans (hostAdds_trans (hostAdds_dmaWrite hg _ _ _ _) (hostAdds_setGrp _ _ _)) (ih _)

theorem hostAdds_cmdEnd (d : Dev) (k st : Nat) (rs : List Nat) : hostAdds d (d.cmdEnd g k st rs) := by
  unfold Dev.cmdEnd
  dsimp only
  split
  · exact hostAdds_refl d
  · split
    · exact hostAdds_setGrp _ _ _
    · exact hostAdds_trans (hostAdds_setGrp _ _ _) (hostAdds_flushCpl hg _ _)

/-- A response leaves for the command's buffer before its completion (R477). -/
theorem respond_posts (d : Dev) (c : HCmd) (bs : List Byte) (rs : List Nat) : let e := d.respond g c bs rs
    e = { d with hst := e.hst } ∧ ∃ more, e.hst.posted = d.hst.posted ++ ⟨g, c.addrB, bs, false⟩ :: more := by
  have hresp : d.respond g c bs rs = (d.dmaWrite g 2 c.addrB bs).cmdEnd g c.index 0 rs := by
    unfold Dev.respond
    rw [if_neg (by omega)]
  obtain ⟨hkeep, more, hmore⟩ := hostAdds_cmdEnd hg (d.dmaWrite g 2 c.addrB bs) c.index 0 rs
  dsimp only
  rw [hresp]
  rw [dmaWrite_host hg] at hkeep hmore ⊢
  exact ⟨hkeep, more, by rw [← hmore, List.append_assoc]; rfl⟩

end

/-! Completions (R477). -/

theorem leAt_head (n v : Nat) (r : List Byte) : leAt (leBytes n v ++ r) 0 n = v % 256 ^ n := by
  have hhead : slice (leBytes n v ++ r) 0 n = leBytes n v := by
    refine List.ext_getElem (by simp [slice, leBytes_length]) fun i h h' => ?_
    simp [slice, byteAt, List.getElem?_append_left h', List.getElem?_eq_getElem h']
  unfold leAt
  rw [hhead, leVal_leBytes]

theorem opcode_lt (c : HCmd) : c.opcode < 256 := by
  have hbyte := (byteAt c.bytes (0 + 0)).isLt
  have hval : c.opcode = (byteAt c.bytes (0 + 0)).toNat + 256 * 0 := rfl
  omega

/-- The bytes of a completion that waits, but for its phase (R477). -/
def cplBytes (c : HCmd) (k st : Nat) (rs : List Nat) : List Byte :=
  leBytes 4 (st * 2 ^ 8 + c.opcode) ++ leBytes 4 c.tag ++ leBytes 4 k ++ zeros 4 ++ padTo 48 (rs.flatMap (leBytes 4))

theorem cplBytes_head (c : HCmd) (k : Nat) {st : Nat} (hst : st < 2 ^ 16) (rs : List Nat) : leAt (cplBytes c k st rs) 0 4 = st * 2 ^ 8 + c.opcode := by
  have hop := opcode_lt c
  unfold cplBytes
  simp only [List.append_assoc]
  rw [leAt_head, Nat.mod_eq_of_lt (by omega)]

theorem cplBytes_tail (c : HCmd) (k st : Nat) (rs : List Nat) :
    (cplBytes c k st rs).drop 4 = leBytes 4 c.tag ++ leBytes 4 k ++ zeros 4 ++ padTo 48 (rs.flatMap (leBytes 4)) := by
  have hlen : (leBytes 4 (st * 2 ^ 8 + c.opcode)).length = 4 := leBytes_length 4 _
  unfold cplBytes
  simp only [List.append_assoc]
  exact List.drop_left' hlen

/-- The only completion that waits leaves, with its phase (R465, R477). -/
theorem flushCpl_one {d : Dev} {g : Nat} (hg : g < 15) {b : List Byte} (hcpl : (d.grp g).cpl = [b]) (hon : d.grpRuns g = true)
    (hroom : ixDiff (d.grp g).ix.cplProd (d.grp g).ix.cplCons < 2 ^ d.ringLog g .cpl) : let n := (d.grp g).ix.cplProd
    let e := d.flushCpl g 1
    e.hst.posted = d.hst.posted ++ [⟨g, d.ringEntry g .cpl 64 n, leBytes 4 (leAt b 0 4 + d.phase g .cpl n * 2 ^ 31) ++ b.drop 4, false⟩] ∧
    (e.grp g).ix.cplProd = ixAdd n 1 ∧ (e.grp g).running = (d.grp g).running := by
  have hgo : ¬ ((!d.grpRuns g) = true ∨ 2 ^ d.ringLog g .cpl ≤ ixDiff (d.grp g).ix.cplProd (d.grp g).ix.cplCons) := by
    simp [hon, hroom]
  have hone : d.flushCpl g 1 = (d.dmaWrite g 3 (d.ringEntry g .cpl 64 (d.grp g).ix.cplProd)
      (leBytes 4 (leAt b 0 4 + d.phase g .cpl (d.grp g).ix.cplProd * 2 ^ 31) ++ b.drop 4)).setGrp g
      { d.grp g with cpl := [], ix := { (d.grp g).ix with cplProd := ixAdd (d.grp g).ix.cplProd 1 } } := by
    simp only [Dev.flushCpl, hcpl]
    rw [if_neg hgo]
  dsimp only
  rw [hone, dmaWrite_host hg]
  refine ⟨rfl, ?_, ?_⟩ <;> rw [grp_setGrp]

/-- A running command of a group whose completions have room: its completion leaves, and it runs no more. -/
theorem cmdEnd_posts {u : Dev} {g k st : Nat} {c : HCmd} (hg : g < 15) (hrun : (u.grp g).running.find? (fun c => decide (c.index = k)) = some c)
    (hbusy : u.rb (Reg.HST_GRP_W15 g) 29 = false) (hcpl : (u.grp g).cpl = []) (hon : u.grpRuns g = true)
    (hroom : ixDiff (u.grp g).ix.cplProd (u.grp g).ix.cplCons < 2 ^ u.ringLog g .cpl) (hst : st < 2 ^ 16) (rs : List Nat) :
    let n := (u.grp g).ix.cplProd
    let e := u.cmdEnd g k st rs
    e.hst.posted = u.hst.posted ++ [⟨g, u.ringEntry g .cpl 64 n, leBytes 4 (u.phase g .cpl n * 2 ^ 31 + st * 2 ^ 8 + c.opcode) ++
      leBytes 4 c.tag ++ leBytes 4 k ++ zeros 4 ++ padTo 48 (rs.flatMap (leBytes 4)), false⟩] ∧
    (e.grp g).ix.cplProd = ixAdd n 1 ∧ (e.grp g).running = (u.grp g).running.filter (fun x => decide (x.index ≠ k)) := by
  have hend : u.cmdEnd g k st rs = (u.setGrp g { u.grp g with
      running := (u.grp g).running.filter (fun x => decide (x.index ≠ k)), cpl := [cplBytes c k st rs] }).flushCpl g 1 := by
    simp only [Dev.cmdEnd, hrun, hbusy, hcpl]
    rfl
  have hflush := flushCpl_one (d := u.setGrp g { u.grp g with
      running := (u.grp g).running.filter (fun x => decide (x.index ≠ k)), cpl := [cplBytes c k st rs] }) (b := cplBytes c k st rs) hg
    (by rw [grp_setGrp]) hon (by rw [grp_setGrp]; exact hroom)
  rw [← hend] at hflush
  simp only [grp_setGrp, cplBytes_head c k hst, cplBytes_tail] at hflush
  dsimp only
  rw [Nat.add_assoc, Nat.add_comm _ (st * 2 ^ 8 + c.opcode)]
  simp only [List.append_assoc] at hflush ⊢
  exact hflush

/-! The start of a command and its checks (R475, R477). -/

section

variable {d : Dev} {g : Nat} {c : HCmd} (hnext : d.cmdNext g = some c) {op used : Nat} (hop : c.opcode = op) {bad len : HCmd → Bool}
  (hbad : (c.fieldBad used || bad c) = false) (hlen : len c = true) {n : HCmd → Nat}
include hnext hop hbad hlen

/-- A command without an operand. -/
theorem runCmd_plain (hn : n c = 0) (now : Nat) (x : Dma) (body : HCmd → List Byte → Dev → Dev) :
    d.runCmd now g op used bad len n x body = body c [] (d.cmdStart g c) := by
  unfold Dev.runCmd
  rw [hnext]
  dsimp only
  rw [if_neg (by simp [hop]), if_neg (by simp [hbad]), if_neg (by simp [hlen]), if_pos hn]

/-- A command whose operand arrives. -/
theorem runCmd_operand (hg : g < 15) {bs : List Byte} (hbs : bs.length = n c) (now : Nat) (body : HCmd → List Byte → Dev → Dev) :
    d.runCmd now g op used bad len n (.ok bs) body = body c bs (d.cmdStart g c) := by
  by_cases hn : n c = 0
  · rw [runCmd_plain hnext hop hbad hlen hn, List.eq_nil_of_length_eq_zero (hbs.trans hn)]
  · unfold Dev.runCmd
    rw [hnext]
    dsimp only
    rw [if_neg (by simp [hop]), if_neg (by simp [hbad]), if_neg (by simp [hlen]), if_neg hn, dmaRead_host hg _ _ hbs, ringSee_host hg]

end

section

variable {d : Dev} {g : Nat} {c : HCmd} (hg : g < 15) (hnext : d.cmdNext g = some c) (hop : c.opcode = 1) (hfield : c.fieldBad 0 = false)
  (hlenA : c.lenA = 192) {b : List Byte} (hb : b.length = 192) {mine : Nat → Bool} (hmine : mine (leAt b 0 1) = true)
  (hlenB : leAt b 0 1 = 1 ∨ leAt b 0 1 = 2 → 768 ≤ c.lenB)
include hg hnext hop hfield hlenA hb hmine hlenB

/-- A table operation that fails its checks ends with their status (R280). -/
theorem tableCmd_fails {st : Nat} (hcheck : (d.cmdStart g c).opCheck b = some st) (now : Nat) (body : HCmd → List Byte → Dev → Dev) :
    d.tableCmd now g mine (.ok b) body = (d.cmdStart g c).cmdEnd g c.index 0 [st] := by
  unfold Dev.tableCmd
  rw [hnext]
  dsimp only
  rw [if_neg (by simp [hop]), if_neg (by simp [hfield]), if_neg (by simp [hlenA]), dmaRead_host hg _ _ hb, ringSee_host hg]
  dsimp only
  rw [if_neg (by simp [hmine]), if_neg (by omega), hcheck]

/-- A table operation that passes its checks. -/
theorem tableCmd_runs (hcheck : (d.cmdStart g c).opCheck b = none) (now : Nat) (body : HCmd → List Byte → Dev → Dev) :
    d.tableCmd now g mine (.ok b) body = body c b (d.cmdStart g c) := by
  unfold Dev.tableCmd
  rw [hnext]
  dsimp only
  rw [if_neg (by simp [hop]), if_neg (by simp [hfield]), if_neg (by simp [hlenA]), dmaRead_host hg _ _ hb, ringSee_host hg]
  dsimp only
  rw [if_neg (by simp [hmine]), if_neg (by omega), hcheck]

end

end Sys2Proof.Machine
end

section
/-!
SUPPORT. The commands of a ring that concern ports, messages and quotes (R65, R233, R478, R505): what their effects leave.
-/

namespace Sys2Proof.Machine

/-! PORT_REARM (R65). -/

theorem unhold_released (d : Dev) (p : Nat) : (d.unhold p).portHeld p = false := by
  simp [Dev.portHeld, Dev.unhold]

theorem setPrtState_held (d : Dev) (p st q : Nat) : (d.setPrtState p st).portHeld q = d.portHeld q := by
  unfold Dev.portHeld
  rw [setPrtState_prt]

theorem bringUp_held (d : Dev) (now p q : Nat) : (d.bringUp now p).portHeld q = d.portHeld q := by
  unfold Dev.bringUp
  dsimp only
  split
  · split
    · exact setPrtState_held _ _ _ _
    · exact setPrtState_held _ _ _ _
  · rfl

/-- Only registers, the Stencil and reports differ. -/
def stnOnly (d e : Dev) : Prop := ∃ r x f, e = { d with regs := r, stn := x, flt := f }

theorem stnOnly_refl (d : Dev) : stnOnly d d := ⟨_, _, _, rfl⟩

theorem stnOnly_raise (d : Dev) (src x : Nat) : stnOnly d (d.raise src x) := ⟨_, _, _, rfl⟩

theorem stnOnly_started (d : Dev) (o l : Nat) (v : Word) (x : RxLine) (y : TxLine) : stnOnly d (((d.setReg o v).setRx l x).setTx l y) :=
  ⟨_, _, _, rfl⟩

/-- What a lane that enters service may change (R393). -/
theorem laneStart_only (d : Dev) (l : Nat) : stnOnly d (d.laneStart l) := by
  unfold Dev.laneStart
  dsimp only
  split
  · exact stnOnly_refl d
  · split <;> split
    any_goals exact stnOnly_raise d _ _
    all_goals split
    any_goals exact stnOnly_started d _ l _ _ _
    all_goals exact stnOnly_refl d

theorem laneStart_held (d : Dev) (l q : Nat) : (d.laneStart l).portHeld q = d.portHeld q := by
  obtain ⟨_, _, _, h⟩ := laneStart_only d l
  rw [h]
  rfl

/-- A port that is re-armed is held no more. -/
theorem rearm_released (d : Dev) (now p : Nat) : (d.rearm now p).portHeld p = false := by
  have hfree := unhold_released d p
  unfold Dev.rearm
  dsimp only
  generalize d.unhold p = x at hfree ⊢
  split
  · split
    · rw [bringUp_held, setPrtState_held]
      exact hfree
    · exact hfree
  · split
    · rw [laneStart_held]
      exact hfree
    · exact hfree

/-- What a port does that is neither held nor in a lane test. -/
theorem prtRest_of_free {d : Dev} {p : Nat} (hheld : d.portHeld p = false) (htest : d.laneTested p = false) : d.prtRest p ∈ [0, 1, 6] := by
  unfold Dev.prtRest
  rw [if_neg (by simp [hheld, htest] : ¬ (d.portHeld p || d.laneTested p) = true)]
  split
  · decide
  · split
    · decide
    · split <;> decide

/-- A held port leaves state 5 as it is re-armed, unless a lane test keeps it there. -/
theorem rearm_state {d : Dev} {p : Nat} (hp : p < 80) (hst : d.prtState p = 5) (htest : d.laneTested p = false) (now : Nat) :
    (d.rearm now p).prtState p ≠ 5 := by
  have hrest : (d.unhold p).prtRest p ∈ [0, 1, 6] := prtRest_of_free (unhold_released d p) htest
  have hne : (d.unhold p).prtRest p < 16 ∧ (d.unhold p).prtRest p ≠ 5 := by
    simp only [List.mem_cons, List.not_mem_nil, or_false] at hrest
    omega
  have hrearm : d.rearm now p = ((d.unhold p).setPrtState p ((d.unhold p).prtRest p)).bringUp now p := by
    unfold Dev.rearm
    dsimp only
    rw [if_pos hp, if_pos (show (d.unhold p).prtState p = 5 from hst)]
  have hset := setPrtState_self (d.unhold p) p _ hne.1
  rw [hrearm]
  rcases bringUp_state ((d.unhold p).setPrtState p ((d.unhold p).prtRest p)) now p with h | h
  · intro hfive
    rw [hfive] at h
    exact absurd h (by decide)
  · rw [h, hset]
    exact hne.2

/-! PROFILE_APPLY (R70). -/

theorem hbStops_prf (ks : List Nat) (d : Dev) : (ks.foldl (fun (d : Dev) k => d.hbStop k false) d).prf = d.prf :=
  foldl_inv _ (fun e => e.prf = d.prf) (fun e k h => by
    obtain ⟨_, _, _, hstop⟩ := hbStop_only e k false
    rw [hstop]
    exact h) ks d rfl

/-- An apply that starts is under way, and nothing else of the profiles differs. -/
theorem startApply_prf (d : Dev) (now g k : Nat) (old new : Profile) :
    ∃ cp, (d.startApply now g k old new).prf = { d.prf with applying := some ⟨new, g, k, cp⟩ } := by
  have hstop := hbStops_prf (changedPairs old new) d
  unfold Dev.startApply
  dsimp only
  generalize (changedPairs old new).foldl _ d = x at hstop
  split
  · exact ⟨none, by rw [hstop]⟩
  · refine ⟨some (x.cpSubmit now none (resvOps old new)).1, ?_⟩
    rw [← hstop]
    rfl

/-! MSG_SEND (R233). -/

theorem bytesWords_length (n : Nat) (bs : List Byte) : (bytesWords n bs).length = n := by
  induction n generalizing bs with
  | zero => rfl
  | succ n ih => simp [bytesWords, ih]

theorem memWrite_brs (d : Dev) (a : Nat) (bs : List Byte) : (d.memWrite a bs).brs = d.brs := by
  obtain ⟨_, _, _, _, _, _, h⟩ := palOnly_memWrite d a bs
  rw [h]

theorem chan_setChan (d : Dev) (ch : Nat) (x : Chan) : (d.setChan ch x).chan ch = x := tget_tset_self _ _ _ _

theorem wakeChan_brs (d : Dev) (ch : Nat) : (d.wakeChan ch).brs = d.brs :=
  foldl_inv _ (fun e => e.brs = d.brs) (fun e t h => by
    obtain ⟨⟨_, hwait⟩, -⟩ := endWait_keeps e t 1
    rw [hwait]
    exact h) _ d rfl

/-- No receive of a channel waits: serving it changes nothing. -/
theorem serveRecvs_none {d : Dev} {ch : Nat} (h : ∀ r ∈ d.brs.recvs, r.channel ≠ ch) : d.serveRecvs ch = d := by
  unfold Dev.serveRecvs
  refine foldl_inv' _ (fun e => e = d) _ (fun e r hr he => ?_) d rfl
  dsimp only
  rw [if_neg (h r hr), he]

/-- A message delivered to a channel that no receive waits on stays in it. -/
theorem deliver_lens {d : Dev} {ch : Nat} (hring : d.chanRing ch = false) (hrecv : ∀ r ∈ d.brs.recvs, r.channel ≠ ch) (ws : List Word) :
    ((d.deliver ch ws).chan ch).lens = (d.chan ch).lens ++ [ws.length] := by
  have hpush : d.chanPush ch ws = (d.memWrite (d.slotAddr ch ((d.chan ch).head + (d.chan ch).lens.length)) (wordsBytes ws)).setChan ch
      { d.chan ch with lens := (d.chan ch).lens ++ [ws.length] } := by
    unfold Dev.chanPush
    dsimp only
    rw [if_neg (by simp [hring])]
  have hrecvs : (d.chanPush ch ws).brs.recvs = d.brs.recvs := by
    rw [hpush]
    show (d.memWrite _ _).brs.recvs = d.brs.recvs
    rw [memWrite_brs]
  have hchan : (d.chanPush ch ws).chan ch = { d.chan ch with lens := (d.chan ch).lens ++ [ws.length] } := by
    rw [hpush, chan_setChan]
  have hwoken : ((d.chanPush ch ws).wakeChan ch).chan ch = (d.chanPush ch ws).chan ch := by
    unfold Dev.chan
    rw [wakeChan_brs]
  unfold Dev.deliver
  dsimp only
  split
  · rw [hchan]
  · rw [serveRecvs_none (by rw [wakeChan_brs, hrecvs]; exact hrecv), hwoken, hchan]

/-! Quotes (R505). -/

/-- The quote engine takes at most the oldest quote (R505), whose nonce and asker stay. -/
theorem startQuote_ok (d : Dev) (c : Clock) (i : Ident) : let e := d.startQuote c i
    e = { d with mgt := { d.mgt with quotes := e.mgt.quotes } } ∧ e.mgt.quotes.length = d.mgt.quotes.length ∧
    ∀ q ∈ d.mgt.quotes, ∃ q' ∈ e.mgt.quotes, q'.nonce = q.nonce ∧ q'.ring = q.ring := by
  have hself : ∀ q ∈ d.mgt.quotes, ∃ q' ∈ d.mgt.quotes, q'.nonce = q.nonce ∧ q'.ring = q.ring := fun q hq => ⟨q, hq, rfl, rfl⟩
  dsimp only
  unfold Dev.startQuote
  split
  · next q r hq =>
    split
    · refine ⟨rfl, by rw [hq]; rfl, fun q' hq' => ?_⟩
      rw [hq] at hq'
      rcases List.mem_cons.mp hq' with rfl | hr
      · exact ⟨_, List.mem_cons_self, rfl, rfl⟩
      · exact ⟨q', List.mem_cons_of_mem _ hr, rfl, rfl⟩
    · exact ⟨rfl, rfl, hself⟩
  · exact ⟨rfl, rfl, hself⟩

/-- A quote asked for waits. -/
theorem askQuote_ok (d : Dev) (c : Clock) (i : Ident) (q : QuoteReq) : let e := d.askQuote c i q
    e.mgt.quotes.length = d.mgt.quotes.length + 1 ∧ ∃ q' ∈ e.mgt.quotes, q'.nonce = q.nonce ∧ q'.ring = q.ring := by
  obtain ⟨-, hlen, hsame⟩ := startQuote_ok { d with mgt := { d.mgt with quotes := d.mgt.quotes ++ [q] } } c i
  exact ⟨hlen.trans (List.length_append ..), hsame q (List.mem_append_right _ (List.mem_singleton_self q))⟩

/-- A quote that waits is taken (R505). -/
theorem quoteDone_takes {d : Dev} {q : QuoteReq} {r : List QuoteReq} (hq : d.mgt.quotes = q :: r) (hbody : q.body = none) (c : Clock) (i : Ident) :
    quoteDone c i d = { d with mgt := { d.mgt with quotes := { q with body := some (d.quoteBody c i q.nonce) } :: r } } := by
  simp only [quoteDone, Dev.startQuote, hq, hbody]

/-- The bytes of a finished quote (R504): its body, the signature under the device key, and padding. -/
def quoteBytes (i : Ident) (b : List Byte) : List Byte := b ++ padTo 114 (ed448Sign (leBytes 57 i.devKey) ctxQuote (phDigest b)) ++ zeros 14

/-- The device without its oldest quote. -/
def Dev.quoteLeft (d : Dev) (r : List QuoteReq) : Dev := { d with mgt := { d.mgt with quotes := r } }

section

variable {d : Dev} {q : QuoteReq} {r : List QuoteReq} (hq : d.mgt.quotes = q :: r) {b : List Byte} (hbody : q.body = some b) (c : Clock) (i : Ident)
include hq hbody

/-- A finished quote of GMP is kept for it. -/
theorem quoteDone_gmp (hring : q.ring = none) : let e := quoteDone c i d
    e.mgt.gmpQuote = some (quoteBytes i b) ∧ e.mgt.quotes.length = r.length := by
  have hdone : quoteDone c i d = { d with mgt := { d.mgt with quotes := r, gmpQuote := some (quoteBytes i b) } }.startQuote c i := by
    simp only [quoteDone, hq, hbody, hring]
    rfl
  obtain ⟨hkeep, hlen, -⟩ := startQuote_ok { d with mgt := { d.mgt with quotes := r, gmpQuote := some (quoteBytes i b) } } c i
  rw [← hdone] at hkeep hlen
  exact ⟨by rw [hkeep], hlen⟩

/-- A finished quote of a command leaves for its buffer. -/
theorem quoteDone_ring {g k : Nat} {x : HCmd} (hg : g < 15) (hring : q.ring = some (g, k))
    (hrun : (d.grp g).running.find? (fun x => decide (x.index = k)) = some x) : let e := quoteDone c i d
    e.mgt.quotes.length = r.length ∧ ∃ more, e.hst.posted = d.hst.posted ++ ⟨g, x.addrB, quoteBytes i b, false⟩ :: more := by
  have hdone : quoteDone c i d = ((d.quoteLeft r).respond g x (quoteBytes i b) [496, 496]).startQuote c i := by
    have hrun' : ((d.quoteLeft r).grp g).running.find? (fun x => decide (x.index = k)) = some x := hrun
    unfold Dev.quoteLeft at hrun'
    simp only [quoteDone, hq, hbody, hring, hrun']
    rfl
  obtain ⟨hresp, more, hmore⟩ := respond_posts hg (d.quoteLeft r) x (quoteBytes i b) [496, 496]
  obtain ⟨hkeep, hlen, -⟩ := startQuote_ok ((d.quoteLeft r).respond g x (quoteBytes i b) [496, 496]) c i
  rw [← hdone] at hkeep hlen
  refine ⟨hlen.trans (by rw [hresp]; rfl), more, ?_⟩
  rw [hkeep]
  exact hmore

end

end Sys2Proof.Machine
end

section
/-!
SUPPORT. Table operations and control-plane transactions (R184 to R186, R279 to R284): what a command's access to its rows leaves, what
staging, apply and release leave.
-/

namespace Sys2Proof.Machine

/-! A command's access to rows (R288, R450). -/

/-- Neither memory nor the host interface differs. -/
def keepsMemHst (d e : Dev) : Prop := e.mem = d.mem ∧ e.hst = d.hst

theorem keepsMemHst_refl (d : Dev) : keepsMemHst d d := ⟨rfl, rfl⟩

theorem keepsMemHst_trans {a b c : Dev} (h : keepsMemHst a b) (h' : keepsMemHst b c) : keepsMemHst a c :=
  ⟨h'.1.trans h.1, h'.2.trans h.2⟩

theorem keepsMemHst_dram {d e : Dev} (h : dramOnly d e) : keepsMemHst d e := by
  obtain ⟨_, _, _, rfl⟩ := h
  exact ⟨rfl, rfl⟩

theorem keepsMemHst_bump64 (d : Dev) (o n : Nat) : keepsMemHst d (d.bump64 o n) := ⟨rfl, rfl⟩

theorem tcaInstall_keeps (d : Dev) (id : Nat) (x : TcaLine) : keepsMemHst d (d.tcaInstall id x) := by
  unfold Dev.tcaInstall
  dsimp only
  split
  · exact ⟨rfl, rfl⟩
  · split
    · exact ⟨rfl, rfl⟩
    · split <;> exact ⟨rfl, rfl⟩

theorem hitLine_keeps (d : Dev) (missed : Bool) (l : Nat) : keepsMemHst d (d.hitLine missed l) := by
  have hcount : keepsMemHst d (if missed then d else d.bump64 Reg.TCA_HIT_CNT_LO 1) := by
    split
    · exact keepsMemHst_refl d
    · exact keepsMemHst_bump64 _ _ _
  unfold Dev.hitLine
  dsimp only
  generalize (if missed then d else d.bump64 Reg.TCA_HIT_CNT_LO 1) = e at hcount
  split
  · exact keepsMemHst_trans hcount ⟨rfl, rfl⟩
  · exact hcount

theorem maintLine_keeps (d : Dev) (id l : Nat) : keepsMemHst d (d.maintLine id l) := by
  unfold Dev.maintLine
  split
  · refine keepsMemHst_trans ?_ (hitLine_keeps _ _ _)
    split
    · exact keepsMemHst_refl d
    · exact keepsMemHst_dram (seeDram_only _ _ _)
  · have hread : keepsMemHst d ((d.bump64 Reg.TCA_MISS_CNT_LO 1).seeDram (64 * l) 64) :=
      keepsMemHst_trans (keepsMemHst_bump64 _ _ _) (keepsMemHst_dram (seeDram_only _ _ _))
    dsimp only
    generalize (d.bump64 Reg.TCA_MISS_CNT_LO 1).seeDram (64 * l) 64 = e at hread
    split
    · exact keepsMemHst_trans hread (tcaInstall_keeps _ _ _)
    · exact hread

theorem meetRow_keeps (d : Dev) (r : Nat) : keepsMemHst d (d.meetRow r) := by
  unfold Dev.meetRow
  dsimp only
  split <;> exact ⟨rfl, rfl⟩

/-- A command's access to rows leaves memory and the host interface. -/
theorem touch_keeps (d : Dev) (ss : List Span) : keepsMemHst d (d.touch ss) := by
  have hrows : keepsMemHst d (d.meetRows ss) :=
    foldl_inv _ (keepsMemHst d) (fun e r h => keepsMemHst_trans h (meetRow_keeps e r)) _ _ (keepsMemHst_refl d)
  exact foldl_inv _ (keepsMemHst d) (fun e s h => foldl_inv _ (keepsMemHst d)
    (fun x l hx => keepsMemHst_trans hx (maintLine_keeps x s.table l)) _ _ h) _ _ hrows

/-! SEARCH and NEXT (R281, R282). -/

/-- The answer of a search that succeeds leaves for the command's buffer. -/
theorem answer_posts {g : Nat} (hg : g < 15) {d e : Dev} (h : keepsMemHst d e) (c : HCmd) {r : Nat × List Byte} (hr : r.1 = 0) :
    (e.answer g c r).mem = d.mem ∧ ∃ more, (e.answer g c r).hst.posted = d.hst.posted ++ ⟨g, c.addrB, r.2, false⟩ :: more := by
  obtain ⟨hkeep, more, hmore⟩ := respond_posts hg e c r.2 [0]
  have hans : e.answer g c r = e.respond g c r.2 [0] := if_neg (by simp [hr])
  rw [hans]
  refine ⟨?_, more, ?_⟩
  · rw [hkeep]
    exact h.1
  · rw [hmore, h.2]

/-- One that fails ends with its status. -/
theorem answer_fails {g : Nat} (hg : g < 15) {d e : Dev} (h : keepsMemHst d e) (c : HCmd) {r : Nat × List Byte} (hr : r.1 ≠ 0) :
    (e.answer g c r).mem = d.mem ∧ e.answer g c r = e.cmdEnd g c.index 0 [r.1] := by
  have hans : e.answer g c r = e.cmdEnd g c.index 0 [r.1] := if_pos hr
  rw [hans]
  obtain ⟨hkeep, -⟩ := hostAdds_cmdEnd hg e c.index 0 [r.1]
  refine ⟨?_, rfl⟩
  rw [hkeep]
  exact h.1

/-! Control-plane transactions (R184 to R186). -/

theorem cpSubmit_cps (d : Dev) (now : Nat) (ring : Option (Nat × Nat)) (ops : List CpOp) : ∃ cp,
    (d.cpSubmit now ring ops).2.vrn.cps = d.vrn.cps ++ [cp] ∧ cp.id = (d.cpSubmit now ring ops).1 ∧ cp.ops = ops ∧ cp.stage = .positioned ∧
    cp.ring = ring := ⟨_, rfl, rfl, rfl, rfl, rfl⟩

/-- A transaction of a TXN list takes its position (R184). -/
theorem txnSubmit_cps (d : Dev) (now : Nat) (ring : Option (Nat × Nat)) (ops : List CpOp) (result : Word) :
    let r := d.cpSubmit now ring ops
    let cps := r.2.vrn.cps.map (fun x => if x.id = r.1 then { x with result := result } else x)
    cps.length = d.vrn.cps.length + 1 ∧ ∃ cp ∈ cps, cp.ops = ops ∧ cp.stage = .positioned ∧ cp.ring = ring := by
  obtain ⟨cp, hcps, hid, hops, hstage, hring⟩ := cpSubmit_cps d now ring ops
  dsimp only
  rw [hcps]
  refine ⟨by simp, { cp with result := result }, List.mem_map.mpr ⟨cp, List.mem_append_right _ (List.mem_singleton_self cp), if_pos hid⟩,
    hops, hstage, hring⟩

/-- What an apply leaves once its operations have taken effect: the transaction is applied, and its group's index is noted. -/
theorem controlPlaneApply_ok {d : Dev} {c : Cp} (hfirst : d.firstCp .positioned = some c) (hdrained : d.drained c = true)
    (hroom : d.vrn.cbuf.length + min 1024 (c.ops.map CpOp.grans).sum ≤ 1024) (now : Nat) : let e := controlPlaneApply now d
    let x := c.ops.foldl (fun d o => d.cpApply now o) d
    (∀ y ∈ e.vrn.cps, y.id = c.id → y.stage = .applied) ∧ e.fwd = x.fwd ∧ e.mem = x.mem := by
  have happlied : ∀ l : List Cp, ∀ y ∈ l.map (fun x => if x.id = c.id then { x with stage := .applied } else x), y.id = c.id → y.stage = .applied := by
    intro l y hy hid
    obtain ⟨x, -, rfl⟩ := List.mem_map.mp hy
    by_cases h : x.id = c.id
    · rw [if_pos h]
    · rw [if_neg h] at hid
      exact absurd hid h
  dsimp only
  unfold controlPlaneApply
  rw [hfirst]
  dsimp only
  rw [if_neg (by simp [hdrained, hroom])]
  refine ⟨happlied _, ?_, ?_⟩ <;> cases c.ring <;> rfl

/-- A release lifts the transaction (R184). -/
theorem controlPlaneRelease_cps {d : Dev} {c : Cp} (hfirst : d.firstCp .applied = some c) :
    (controlPlaneRelease d).vrn.cps = d.vrn.cps.filter (fun x => decide (x.id ≠ c.id)) := by
  have hclosed : HostClosed (fun e : Dev => e.vrn.cps = d.vrn.cps.filter (fun x => decide (x.id ≠ c.id))) :=
    { store := fun _ _ h => h, pal := fun _ h => h, free := fun _ h => h, raise := fun _ _ h => h, reg := fun _ _ h => h
      host := fun _ h => h, low := fun _ _ h => h }
  unfold controlPlaneRelease
  rw [hfirst]
  dsimp only
  split
  · exact hclosed.cmdEnd _ _ _ _ rfl
  · rfl

end Sys2Proof.Machine
end

section
/-!
SUPPORT. PROFILE_COMMIT (R70, R71): after the profile is in force, nothing that reconfigures ports, pairs and clusters changes it.
-/

namespace Sys2Proof.Machine

/-- The profiles are as they were. -/
def prfSame (d e : Dev) : Prop := e.prf = d.prf

theorem prfSame_refl (d : Dev) : prfSame d d := rfl

theorem prfSame_trans {a b c : Dev} (h : prfSame a b) (h' : prfSame b c) : prfSame a c := Eq.trans h' h

theorem prfSame_foldl {α : Type} {f : Dev → α → Dev} (h : ∀ d a, prfSame d (f d a)) (l : List α) (d : Dev) : prfSame d (l.foldl f d) :=
  foldl_inv f (prfSame d) (fun e a he => prfSame_trans he (h e a)) l d (prfSame_refl d)

theorem prfSame_setReg (d : Dev) (o : Nat) (v : Word) : prfSame d (d.setReg o v) := rfl

theorem prfSame_setRf (d : Dev) (o hi lo v : Nat) : prfSame d (d.setRf o hi lo v) := rfl

theorem prfSame_setRb (d : Dev) (o i : Nat) (b : Bool) : prfSame d (d.setRb o i b) := rfl

theorem prfSame_setSlot (d : Dev) (e s : Nat) (x : Slot2) : prfSame d (d.setSlot e s x) := rfl

theorem prfSame_setHb (d : Dev) (k : Nat) (h : Hb) : prfSame d (d.setHb k h) := rfl

theorem prfSame_unhold (d : Dev) (p : Nat) : prfSame d (d.unhold p) := rfl

theorem prfSame_setPrtState (d : Dev) (p st : Nat) : prfSame d (d.setPrtState p st) := by
  obtain ⟨⟨_, _, h⟩, -⟩ := setPrtState_in d p st
  rw [h]
  rfl

theorem prfSame_bringUp (d : Dev) (now p : Nat) : prfSame d (d.bringUp now p) := by
  unfold Dev.bringUp
  dsimp only
  split
  · split
    · exact prfSame_trans (b := Dev.alignFrom _ now p) rfl (prfSame_setPrtState _ _ _)
    · exact prfSame_setPrtState _ _ _
  · exact prfSame_refl d

theorem prfSame_laneStart (d : Dev) (l : Nat) : prfSame d (d.laneStart l) := by
  obtain ⟨_, _, _, h⟩ := laneStart_only d l
  rw [h]
  rfl

theorem prfSame_freeSlotsUsed (d : Dev) (p : Profile) (e : Nat) : prfSame d (d.freeSlotsUsed p e) := by
  unfold Dev.freeSlotsUsed
  dsimp only
  split
  · exact prfSame_setRf _ _ _ _ _
  · exact prfSame_trans (prfSame_setRf _ _ _ _ _) (prfSame_setRb _ _ _ _)

theorem prfSame_installEntry (d : Dev) (ps : List PortEnt) (e : PortEnt) : prfSame d (d.installEntry ps e) := by
  unfold Dev.installEntry
  split
  · have hwords : prfSame d (((d.setRf (Reg.PRT_PORT_W2 e.port) 23 16 e.kind).setRf (Reg.PRT_PORT_W2 e.port) 15 8 e.code).setRf
        (Reg.PRT_PORT_W2 e.port) 2 0 e.lanes) :=
      prfSame_trans (prfSame_trans (prfSame_setRf _ _ _ _ _) (prfSame_setRf _ _ _ _ _)) (prfSame_setRf _ _ _ _ _)
    unfold Dev.installPort
    dsimp only
    split
    · exact prfSame_trans hwords (prfSame_setRf _ _ _ _ _)
    · exact hwords
  · exact prfSame_trans (prfSame_trans (prfSame_setReg _ _ _) (prfSame_setReg _ _ _)) (prfSame_setRb _ _ _ _)

theorem prfSame_freshSlot (d : Dev) (ps : List PortEnt) (e : PortEnt) : prfSame d (d.freshSlot ps e) := by
  unfold Dev.freshSlot
  split
  · exact prfSame_setSlot _ _ _ _
  · exact prfSame_refl d

theorem prfSame_reslot (d : Dev) (ps : List PortEnt) (e : PortEnt) (x : Slot2) : prfSame d (d.reslot ps e x) :=
  prfSame_trans (prfSame_trans (prfSame_setRf _ _ _ _ _) (prfSame_setRb _ _ _ _)) (prfSame_setSlot _ _ _ _)

theorem prfSame_installRing (d : Dev) (r : RingEnt) : prfSame d (d.installRing r) :=
  prfSame_trans (prfSame_setRf _ _ _ _ _) (prfSame_setRb _ _ _ _)

theorem prfSame_setClp (d : Dev) (c : Nat) (x : ClPwr) : prfSame d (d.setClp c x) := rfl

/-- A cluster that wakes. The definition is unfolded as a function, as in signalDetect_port. -/
theorem prfSame_startWaking (d : Dev) (c : Nat) : prfSame d (d.startWaking c) := by
  have hset := prfSame_setRb d (Reg.PWR_CL_W0 c) 30 false
  have hdef : Dev.startWaking = Dev.startWaking := rfl
  conv_rhs at hdef => delta Dev.startWaking
  rw [hdef]
  beta_reduce
  generalize d.setRb (Reg.PWR_CL_W0 c) 30 false = x at hset ⊢
  dsimp only
  split
  · exact prfSame_trans hset (prfSame_setClp _ _ _)
  · exact prfSame_trans hset (prfSame_setClp _ _ _)

theorem prfSame_cmdEnd (d : Dev) (g k st : Nat) (rs : List Nat) : prfSame d (d.cmdEnd g k st rs) :=
  have hclosed : HostClosed (prfSame d) :=
    { store := fun _ _ h => h, pal := fun _ h => h, free := fun _ h => h, raise := fun _ _ h => h, reg := fun _ _ h => h
      host := fun _ h => h, low := fun _ _ h => h }
  hclosed.cmdEnd g k st rs (prfSame_refl d)

/-- A device as a commit leaves its profiles, whatever else it changes. -/
theorem profileCommitDev_leaves {d : Dev} {a : Apply} {old : Profile} (hready : d.commitReady = some (a, old)) (now : Nat) {Q : Dev → Prop}
    (hQ : ∀ x e : Dev, x.prf.inForce = some (old.merged a.prof) → x.prf.applying = none → prfSame x e → Q e) : Q (profileCommitDev now d) := by
  unfold profileCommitDev
  rw [hready]
  dsimp only
  refine hQ _ _ rfl rfl (prfSame_trans (prfSame_trans (prfSame_trans (prfSame_trans (prfSame_trans (prfSame_trans (prfSame_trans (prfSame_trans
    (prfSame_trans (prfSame_foldl prfSame_unhold _ _) (prfSame_foldl ?frees _ _)) (prfSame_foldl ?comes _ _)) (prfSame_foldl ?stays _ _))
    (prfSame_foldl prfSame_installRing _ _)) (prfSame_foldl ?starts _ _)) (prfSame_foldl ?hearts _ _)) (prfSame_foldl ?spares _ _))
    (prfSame_foldl ?wakes _ _)) (prfSame_cmdEnd _ _ _ _ _))
  case wakes => exact fun _ _ => prfSame_trans (prfSame_setRb _ _ _ _) (prfSame_startWaking _ _)
  case spares =>
    intro d c
    split
    · exact prfSame_refl d
    · exact prfSame_trans (prfSame_setRb _ _ _ _) (prfSame_setRb _ _ _ _)
  case hearts => exact fun _ _ => prfSame_setHb _ _ _
  case starts =>
    intro d e
    split
    · exact prfSame_trans (prfSame_setPrtState _ _ _) (prfSame_bringUp _ _ _)
    · split
      · exact prfSame_laneStart _ _
      · exact prfSame_refl d
  case stays => exact fun _ _ => prfSame_reslot _ _ _ _
  case comes => exact fun _ _ => prfSame_trans (prfSame_installEntry _ _ _) (prfSame_freshSlot _ _ _)
  case frees => exact fun _ _ => prfSame_freeSlotsUsed _ _ _

/-- A commit puts the merged profile in force, and the apply is over (R71). -/
theorem profileCommitDev_prf {d : Dev} {a : Apply} {old : Profile} (hready : d.commitReady = some (a, old)) (now : Nat) :
    (profileCommitDev now d).prf.inForce = some (old.merged a.prof) ∧ (profileCommitDev now d).prf.applying = none :=
  profileCommitDev_leaves (Q := fun e => e.prf.inForce = some (old.merged a.prof) ∧ e.prf.applying = none) hready now fun x e hin hap h => by
    rw [show e.prf = x.prf from h]
    exact ⟨hin, hap⟩

end Sys2Proof.Machine
end

section
/-!
SUPPORT. Each command of a ring group in host memory that its checks let through (R477, R478): what it runs.
-/

namespace Sys2Proof.Machine

theorem cmdStart_prf (d : Dev) (g : Nat) (c : HCmd) : (d.cmdStart g c).prf = d.prf := rfl

/-! Commands without an operand. -/

section

variable {d : Dev} {g : Nat} {c : HCmd} (hnext : d.cmdNext g = some c)
include hnext

/-- NOP, and the opcodes that name no command (R478). -/
theorem nopCmd_next (hop : ¬ (1 ≤ c.opcode ∧ c.opcode ≤ 8)) : nopCmd g d =
    if c.opcode ≠ 9 then (d.cmdStart g c).cmdEnd g c.index 3 []
    else if c.fieldBad 0 then (d.cmdStart g c).cmdEnd g c.index 4 [] else (d.cmdStart g c).cmdEnd g c.index 0 [0] := by
  unfold nopCmd
  rw [hnext]
  exact if_neg hop

theorem portRearmCmd_next (hop : c.opcode = 3) (hfield : c.fieldBad 1 = false) (hport : c.param 0 ≤ 111) (now : Nat) : portRearmCmd now g d =
    if d.portHeld (c.param 0) then ((d.cmdStart g c).rearm now (c.param 0)).cmdEnd g c.index 0 [0]
    else (d.cmdStart g c).cmdEnd g c.index 0 [1] :=
  runCmd_plain hnext hop (by simp [hfield, hport]) rfl rfl now _ _

section

variable (hop : c.opcode = 5) (hfield : c.fieldBad 0 = false) (now : Nat)
include hop hfield

theorem profileApplyCmd_busy (happ : d.prf.applying ≠ none) : profileApplyCmd now g d = (d.cmdStart g c).cmdEnd g c.index 5 [] := by
  obtain ⟨a, ha⟩ := Option.ne_none_iff_exists'.mp happ
  simp only [profileApplyCmd, ha]
  rw [if_neg (by simp), runCmd_plain hnext hop (by simp [hfield]) rfl rfl]
  simp only [cmdStart_prf, ha]

theorem profileApplyCmd_unstaged (happ : d.prf.applying = none) (hstaged : d.prf.staged = none) :
    profileApplyCmd now g d = (d.cmdStart g c).cmdEnd g c.index 0 [2] := by
  simp only [profileApplyCmd, happ, hstaged]
  rw [if_neg (by simp), runCmd_plain hnext hop (by simp [hfield]) rfl rfl]
  simp only [cmdStart_prf, happ, hstaged]

theorem profileApplyCmd_staged {p : Profile} (happ : d.prf.applying = none) (hstaged : d.prf.staged = some p)
    (hroom : d.cpFull = false ∨ resvOps d.oldProfile p = []) : profileApplyCmd now g d =
      if d.cpStops then (d.cmdStart g c).cmdEnd g c.index 0 [1] else (d.cmdStart g c).startApply now g c.index d.oldProfile p := by
  simp only [profileApplyCmd, happ, hstaged]
  rw [if_neg (by rcases hroom with h | h <;> simp [h]), runCmd_plain hnext hop (by simp [hfield]) rfl rfl]
  simp only [cmdStart_prf, happ, hstaged]
  rfl

end

/-- A quote with too short a response buffer (R505). -/
theorem quoteCmd_short (hop : c.opcode = 8) (hfield : c.fieldBad 0 = false) (hmin : 16 ≤ c.lenA) (hmax : c.lenA ≤ 64) (hbuf : c.lenB < 496)
    (k : Clock) (i : Ident) (x : Dma) : quoteCmd k i g x d = (d.cmdStart g c).cmdEnd g c.index 2 [0, 496] := by
  unfold quoteCmd
  rw [hnext]
  exact if_pos ⟨hop, by simp [hfield], hmin, hmax, hbuf⟩

end

/-! Commands with an operand, which has arrived. -/

section

variable {d : Dev} {g : Nat} {c : HCmd} (hg : g < 15) (hnext : d.cmdNext g = some c)
include hg hnext

/-- PROFILE_STAGE validates its operand, or the profile in flash (R69). -/
theorem profileStageCmd_next (hop : c.opcode = 4) (hfield : c.fieldBad 1 = false) (hparam : c.param 0 ≤ 1) {bs : List Byte}
    (hbs : c.param 0 = 1 → 336 ≤ c.lenA ∧ c.lenA ≤ 262144 ∧ bs.length = c.lenA) (now : Nat) (flash : List Byte) :
    profileStageCmd now g (.ok bs) flash d =
      match validateProfile (if c.param 0 = 1 then bs else flash) d.prf.owners (d.prf.inForce.map (·.seq)) with
      | .bad code off => (d.cmdStart g c).cmdEnd g c.index 0 [code, off]
      | .good p => ({ d.cmdStart g c with prf := { d.prf with staged := some p } } : Dev).cmdEnd g c.index 0 [0, 0] := by
  have hbad : (c.fieldBad 1 || decide (1 < c.param 0)) = false := by simp [hfield, hparam]
  unfold profileStageCmd
  by_cases hhost : c.param 0 = 1
  · obtain ⟨hmin, hmax, hlen⟩ := hbs hhost
    rw [runCmd_operand hnext hop hbad (by simp [hmin, hmax]) hg (by simp [hhost, hlen])]
    simp only [hhost, decide_true, if_true]
    rfl
  · rw [runCmd_plain hnext hop hbad (by simp [hhost]) (by simp [hhost])]
    simp only [hhost, decide_false, if_false, Bool.false_eq_true]
    rfl

theorem msgSendCmd_next (hop : c.opcode = 6) (hfield : c.fieldBad 1 = false) (hchan : c.param 0 < 2048) (halign : c.lenA % 4 = 0)
    (hmax : c.lenA ≤ 64) {bs : List Byte} (hbs : bs.length = c.lenA) (now : Nat) : msgSendCmd now g (.ok bs) d =
      if !d.chanEnabled (c.param 0) || d.chanRing (c.param 0) then (d.cmdStart g c).cmdEnd g c.index 0 [1]
      else if !d.chanRoom (c.param 0) then (d.cmdStart g c).cmdEnd g c.index 0 [2]
      else ((d.cmdStart g c).deliver (c.param 0) (bytesWords (bs.length / 4) bs)).cmdEnd g c.index 0 [0] :=
  runCmd_operand hnext hop (by simp [hfield, hchan]) (by simp [halign, hmax]) hg hbs now _

theorem taskPostCmd_next (hop : c.opcode = 7) (hfield : c.fieldBad 0 = false) (hlenA : c.lenA = 64) {bs : List Byte} (hbs : bs.length = 64)
    (now : Nat) : taskPostCmd now g (.ok bs) d =
      if (parseRec bs).1.hasTxn || !postable bs then (d.cmdStart g c).cmdEnd g c.index 4 []
      else ((d.cmdStart g c).postRec (parseRec bs).1).2.cmdEnd g c.index 0 [((d.cmdStart g c).postRec (parseRec bs).1).1] :=
  runCmd_operand hnext hop (by simp [hfield]) (by simp [hlenA]) hg (hbs.trans hlenA.symm) now _

theorem quoteCmd_asks (hop : c.opcode = 8) (hfield : c.fieldBad 0 = false) (hmin : 16 ≤ c.lenA) (hmax : c.lenA ≤ 64) {bs : List Byte}
    (hbs : bs.length = c.lenA) (hbuf : 496 ≤ c.lenB) (k : Clock) (i : Ident) :
    quoteCmd k i g (.ok bs) d = (d.cmdStart g c).askQuote k i ⟨some (g, c.index), bs, none⟩ := by
  unfold quoteCmd
  rw [hnext]
  dsimp only
  rw [if_neg (by omega)]
  exact runCmd_operand hnext hop (by simp [hfield]) (by simp [hmin, hmax]) hg hbs k.count _

/-- TXN stages its list, which becomes one transaction (R184, R279). -/
theorem txnCmd_next (hop : c.opcode = 2) (hfield : c.fieldBad 1 = false) (hmin : 1 ≤ c.param 0) (hmax : c.param 0 ≤ 4096)
    (hlenA : c.lenA = 192 * c.param 0) (hfull : d.cpFull = false) {bs : List Byte} (hbs : bs.length = c.lenA) (now : Nat) :
    let s := (d.cmdStart g c).stageList now 0 ((List.range (c.param 0)).map (fun i => slice bs (192 * i) 192)) []
    let r := s.dev.cpSubmit now (some (g, c.index)) s.ops
    txnCmd now g (.ok bs) d =
      if d.cpStops then (d.cmdStart g c).cmdEnd g c.index 0 failedWords
      else if s.st = 0 then
        { r.2 with vrn := { r.2.vrn with cps := r.2.vrn.cps.map (fun x => if x.id = r.1 then { x with result := 0xFFFFFFFF } else x) } }
      else s.dev.cmdEnd g c.index 0 [s.st, s.index] := by
  dsimp only
  unfold txnCmd
  rw [if_neg (by simp [hfull]), runCmd_operand hnext hop (by simp only [hfield]; simp; omega) (by simp [hlenA]) hg hbs]
  rfl

end

/-! Table operations. -/

/-- The flush that FLUSH_PORT starts (R279). -/
def startedFlush (b : List Byte) (g k : Nat) : FlushRun :=
  { ports := leVal (slice b 0x10 17), statics := (byteAt b 2).toNat.testBit 4, next := 0, removed := 0, pinned := 0, grp := g, cmd := k }

section

variable {d : Dev} {g : Nat} {c : HCmd} (hg : g < 15) (hnext : d.cmdNext g = some c) (hop : c.opcode = 1) (hfield : c.fieldBad 0 = false)
  (hlenA : c.lenA = 192) {b : List Byte} (hb : b.length = 192) (now : Nat)
include hg hnext hop hfield hlenA hb

/-! SEARCH and NEXT. -/

section

variable (happ : d.applying = false) (hlenB : 768 ≤ c.lenB)
include happ hlenB

theorem searchCmd_fails (hmine : leAt b 0 1 = 1) {st : Nat} (hcheck : (d.cmdStart g c).opCheck b = some st) :
    searchCmd now g (.ok b) d = (d.cmdStart g c).cmdEnd g c.index 0 [st] := by
  unfold searchCmd
  rw [if_neg (by simp [happ])]
  exact tableCmd_fails hg hnext hop hfield hlenA hb (by simp [hmine]) (fun _ => hlenB) hcheck now _

theorem searchCmd_runs (hmine : leAt b 0 1 = 1) (hcheck : (d.cmdStart g c).opCheck b = none) : let x := (d.cmdStart g c).opTouch b
    searchCmd now g (.ok b) d = x.answer g c (x.opSearch b) := by
  unfold searchCmd
  rw [if_neg (by simp [happ])]
  exact tableCmd_runs hg hnext hop hfield hlenA hb (by simp [hmine]) (fun _ => hlenB) hcheck now _

theorem nextCmd_fails (hmine : leAt b 0 1 = 2) {st : Nat} (hcheck : (d.cmdStart g c).opCheck b = some st) :
    nextCmd now g (.ok b) d = (d.cmdStart g c).cmdEnd g c.index 0 [st] := by
  unfold nextCmd
  rw [if_neg (by simp [happ])]
  exact tableCmd_fails hg hnext hop hfield hlenA hb (by simp [hmine]) (fun _ => hlenB) hcheck now _

theorem nextCmd_runs (hmine : leAt b 0 1 = 2) (hcheck : (d.cmdStart g c).opCheck b = none) : let u := d.cmdStart g c
    nextCmd now g (.ok b) d = (u.touch ((u.nextSeen (leAt b 1 1) 256 (leAt b 8 4)).flatMap (u.cursorSpan (leAt b 1 1)))).answer g c
      (u.opNext b) := by
  unfold nextCmd
  rw [if_neg (by simp [happ])]
  exact tableCmd_runs hg hnext hop hfield hlenA hb (by simp [hmine]) (fun _ => hlenB) hcheck now _

end

/-! An operation that becomes a transaction of its own: INSERT, MODIFY, DELETE, ACT_WRITE. -/

section

variable (hfull : d.cpFull = false) {op : Nat} (hmine : leAt b 0 1 = op) (hread : 2 < op)
include hfull hmine hread

theorem aloneCmd_fails {st : Nat} (hcheck : (d.cmdStart g c).opCheck b = some st) :
    d.aloneCmd now g op (.ok b) = (d.cmdStart g c).cmdEnd g c.index 0 [st] := by
  unfold Dev.aloneCmd
  rw [if_neg (by simp [hfull])]
  exact tableCmd_fails hg hnext hop hfield hlenA hb (by simp [hmine]) (by omega) hcheck now _

theorem aloneCmd_runs (hcheck : (d.cmdStart g c).opCheck b = none) : d.aloneCmd now g op (.ok b) =
    if d.cpStops then (d.cmdStart g c).cmdEnd g c.index 0 (failedWords.take 1)
    else match ((d.cmdStart g c).stageElem now [] b).op with
      | some o => (((d.cmdStart g c).stageElem now [] b).dev.cpSubmit now (some (g, c.index)) [o]).2
      | none => ((d.cmdStart g c).stageElem now [] b).dev.cmdEnd g c.index 0 [((d.cmdStart g c).stageElem now [] b).st] := by
  unfold Dev.aloneCmd
  rw [if_neg (by simp [hfull]), tableCmd_runs hg hnext hop hfield hlenA hb (by simp [hmine]) (by omega) hcheck]
  rfl

end

/-- FLUSH_PORT starts the flush of its operand for its table, unless one is under way. -/
theorem flushPortCmd_next (hmine : leAt b 0 1 = 6) (hcheck : (d.cmdStart g c).opCheck b = none) : flushPortCmd now g (.ok b) d =
    if (tget none d.fwd.flushes (leAt b 1 1)).isSome then (d.cmdStart g c).cmdEnd g c.index 0 [TSt.busy]
    else { d.cmdStart g c with fwd := { d.fwd with flushes := tset none d.fwd.flushes (leAt b 1 1) (some (startedFlush b g c.index)) } } :=
  tableCmd_runs hg hnext hop hfield hlenA hb (by simp [hmine]) (by omega) hcheck now _

end

end Sys2Proof.Machine
end

section
/-!
O60: the commands of a CMD ring complete, with their effects (R65, R69 to R71, R184 to R187, R233, R236, R279 to R284, R477 to R479, R505).
-/

namespace Sys2Proof.Machine

/-! What a command leaves, its completion included. -/

section

variable {g : Nat} (hg : g < 15)
include hg

theorem cmdEnd_held (d : Dev) (k st : Nat) (rs : List Nat) (p : Nat) : (d.cmdEnd g k st rs).portHeld p = d.portHeld p := by
  obtain ⟨hkeep, -⟩ := hostAdds_cmdEnd hg d k st rs
  rw [hkeep]
  rfl

theorem cmdEnd_prtState (d : Dev) (k st : Nat) (rs : List Nat) (p : Nat) : (d.cmdEnd g k st rs).prtState p = d.prtState p := by
  obtain ⟨hkeep, -⟩ := hostAdds_cmdEnd hg d k st rs
  rw [hkeep]
  rfl

theorem cmdEnd_chan (d : Dev) (k st : Nat) (rs : List Nat) (ch : Nat) : (d.cmdEnd g k st rs).chan ch = d.chan ch := by
  obtain ⟨hkeep, -⟩ := hostAdds_cmdEnd hg d k st rs
  rw [hkeep]
  rfl

end

theorem keepsMemHst_grp {d e : Dev} (h : keepsMemHst d e) (g : Nat) : e.grp g = d.grp g := by
  unfold Dev.grp
  rw [h.2]

/-- A finished search or scan answers: its bytes leave for the command's buffer, or its status does (R281, R282). -/
theorem answer_ok {g : Nat} (hg : g < 15) {d e : Dev} (h : keepsMemHst d e) (c : HCmd) (r : Nat × List Byte) :
    (r.1 = 0 → (e.answer g c r).mem = d.mem ∧ ∃ more, (e.answer g c r).hst.posted = d.hst.posted ++ ⟨g, c.addrB, r.2, false⟩ :: more) ∧
    (r.1 ≠ 0 → (e.answer g c r).mem = d.mem ∧ ∃ v : Dev, e.answer g c r = v.cmdEnd g c.index 0 [r.1] ∧ v.grp g = d.grp g) := by
  refine ⟨answer_posts hg h c, fun hr => ?_⟩
  obtain ⟨hmem, hans⟩ := answer_fails hg h c hr
  exact ⟨hmem, e, hans, keepsMemHst_grp h g⟩

/-- An apply of one record writes it, and nothing else of memory or of the records (R186, R267). -/
theorem controlPlaneApply_actWrite {d : Dev} {c : Cp} (hfirst : d.firstCp .positioned = some c) (hdrained : d.drained c = true)
    (hroom : d.vrn.cbuf.length + min 1024 (c.ops.map CpOp.grans).sum ≤ 1024) {i : Nat} {bs : List Byte} (hops : c.ops = [.actWrite i bs])
    (now : Nat) : let e := controlPlaneApply now d
    tget [] e.fwd.acts i = bs ∧ e.mem = d.mem ∧ ∀ j, j ≠ i → tget [] e.fwd.acts j = tget [] d.fwd.acts j := by
  obtain ⟨-, hfwd, hmem⟩ := controlPlaneApply_ok hfirst hdrained hroom now
  rw [hops] at hfwd hmem
  dsimp only
  rw [hfwd, hmem]
  exact ⟨tget_tset_self _ _ _ _, rfl, fun j hj => tget_tset_ne _ _ _ _ _ hj⟩

/-! The effect of each command, its completion included. -/

section

variable {d : Dev} {g : Nat} {c : HCmd} (hg : g < 15) (hnext : d.cmdNext g = some c)
include hg hnext

/-- A held port is released, and is not held by its state either unless a lane test holds it (R65). -/
theorem portRearmCmd_frees (hop : c.opcode = 3) (hfield : c.fieldBad 1 = false) (hport : c.param 0 ≤ 111)
    (hheld : d.portHeld (c.param 0) = true) (now : Nat) : let e := portRearmCmd now g d
    e.portHeld (c.param 0) = false ∧
    (c.param 0 < 80 → d.prtState (c.param 0) = 5 → d.laneTested (c.param 0) = false → e.prtState (c.param 0) ≠ 5) := by
  dsimp only
  rw [portRearmCmd_next hnext hop hfield hport, if_pos hheld, cmdEnd_held hg, cmdEnd_prtState hg]
  exact ⟨rearm_released _ _ _, fun hp hst htest => rearm_state (d := d.cmdStart g c) hp hst htest now⟩

theorem profileStageCmd_stages (hop : c.opcode = 4) (hfield : c.fieldBad 1 = false) (hparam : c.param 0 ≤ 1) {bs flash : List Byte}
    (hbs : c.param 0 = 1 → 336 ≤ c.lenA ∧ c.lenA ≤ 262144 ∧ bs.length = c.lenA) {p : Profile}
    (hgood : validateProfile (if c.param 0 = 1 then bs else flash) d.prf.owners (d.prf.inForce.map (·.seq)) = .good p) (now : Nat) :
    (profileStageCmd now g (.ok bs) flash d).prf = { d.prf with staged := some p } := by
  rw [profileStageCmd_next hg hnext hop hfield hparam hbs, hgood]
  exact prfSame_cmdEnd _ _ _ _ _

omit hg in
theorem profileApplyCmd_starts (hop : c.opcode = 5) (hfield : c.fieldBad 0 = false) {p : Profile} (happ : d.prf.applying = none)
    (hstaged : d.prf.staged = some p) (hroom : d.cpFull = false ∨ resvOps d.oldProfile p = []) (hstops : d.cpStops = false) (now : Nat) :
    let e := profileApplyCmd now g d
    e.prf.inForce = d.prf.inForce ∧ e.prf.applying.map (fun a => (a.prof, a.grp, a.cmd)) = some (p, g, c.index) := by
  obtain ⟨cp, hprf⟩ := startApply_prf (d.cmdStart g c) now g c.index d.oldProfile p
  dsimp only
  rw [profileApplyCmd_staged hnext hop hfield _ happ hstaged hroom, if_neg (by simp [hstops]), hprf]
  exact ⟨rfl, rfl⟩

theorem msgSendCmd_delivers (hop : c.opcode = 6) (hfield : c.fieldBad 1 = false) (hchan : c.param 0 < 2048) (halign : c.lenA % 4 = 0)
    (hmax : c.lenA ≤ 64) {bs : List Byte} (hbs : bs.length = c.lenA) (hon : d.chanEnabled (c.param 0) = true)
    (hring : d.chanRing (c.param 0) = false) (hroom : d.chanRoom (c.param 0) = true) (hrecv : ∀ r ∈ d.brs.recvs, r.channel ≠ c.param 0)
    (now : Nat) : ((msgSendCmd now g (.ok bs) d).chan (c.param 0)).lens = (d.chan (c.param 0)).lens ++ [bs.length / 4] := by
  rw [msgSendCmd_next hg hnext hop hfield hchan halign hmax hbs, if_neg (by simp [hon, hring]), if_neg (by simp [hroom]), cmdEnd_chan hg,
    deliver_lens (d := d.cmdStart g c) hring hrecv, bytesWords_length]
  rfl

theorem quoteCmd_waits (hop : c.opcode = 8) (hfield : c.fieldBad 0 = false) (hmin : 16 ≤ c.lenA) (hmax : c.lenA ≤ 64) {bs : List Byte}
    (hbs : bs.length = c.lenA) (hbuf : 496 ≤ c.lenB) (k : Clock) (i : Ident) : let e := quoteCmd k i g (.ok bs) d
    e.mgt.quotes.length = d.mgt.quotes.length + 1 ∧ ∃ q ∈ e.mgt.quotes, q.nonce = bs ∧ q.ring = some (g, c.index) := by
  dsimp only
  rw [quoteCmd_asks hg hnext hop hfield hmin hmax hbs hbuf]
  exact askQuote_ok _ _ _ _

/-- A list that stages becomes one transaction of all its operations (R184). -/
theorem txnCmd_submits (hop : c.opcode = 2) (hfield : c.fieldBad 1 = false) (hmin : 1 ≤ c.param 0) (hmax : c.param 0 ≤ 4096)
    (hlenA : c.lenA = 192 * c.param 0) (hfull : d.cpFull = false) {bs : List Byte} (hbs : bs.length = c.lenA) (hstops : d.cpStops = false)
    (now : Nat) : let r := (d.cmdStart g c).stageList now 0 ((List.range (c.param 0)).map (fun i => slice bs (192 * i) 192)) []
    let e := txnCmd now g (.ok bs) d
    r.st = 0 → e.vrn.cps.length = r.dev.vrn.cps.length + 1 ∧
      ∃ cp ∈ e.vrn.cps, cp.ops = r.ops ∧ cp.stage = .positioned ∧ cp.ring = some (g, c.index) := by
  intro r e hst
  have he : e = _ := (txnCmd_next hg hnext hop hfield hmin hmax hlenA hfull hbs now).trans
    ((if_neg (by simp [hstops])).trans (if_pos hst))
  rw [he]
  exact txnSubmit_cps _ _ _ _ _

section

variable (hop : c.opcode = 1) (hfield : c.fieldBad 0 = false) (hlenA : c.lenA = 192) {b : List Byte} (hb : b.length = 192)
  (hcheck : (d.cmdStart g c).opCheck b = none) (now : Nat)
include hop hfield hlenA hb hcheck

section

variable (happ : d.applying = false) (hlenB : 768 ≤ c.lenB)
include happ hlenB

theorem searchCmd_answers (hmine : leAt b 0 1 = 1) : let u := d.cmdStart g c
    let r := (u.opTouch b).opSearch b
    let e := searchCmd now g (.ok b) d
    (r.1 = 0 → e.mem = d.mem ∧ ∃ more, e.hst.posted = d.hst.posted ++ ⟨g, c.addrB, r.2, false⟩ :: more) ∧
    (r.1 ≠ 0 → e.mem = d.mem ∧ ∃ v : Dev, e = v.cmdEnd g c.index 0 [r.1] ∧ v.grp g = u.grp g) := by
  dsimp only
  rw [searchCmd_runs hg hnext hop hfield hlenA hb now happ hlenB hmine hcheck]
  exact answer_ok hg (touch_keeps (d.cmdStart g c) _) c _

theorem nextCmd_answers (hmine : leAt b 0 1 = 2) : let u := d.cmdStart g c
    let r := u.opNext b
    let e := nextCmd now g (.ok b) d
    (r.1 = 0 → e.mem = d.mem ∧ ∃ more, e.hst.posted = d.hst.posted ++ ⟨g, c.addrB, r.2, false⟩ :: more) ∧
    (r.1 ≠ 0 → e.mem = d.mem ∧ ∃ v : Dev, e = v.cmdEnd g c.index 0 [r.1] ∧ v.grp g = u.grp g) := by
  dsimp only
  rw [nextCmd_runs hg hnext hop hfield hlenA hb now happ hlenB hmine hcheck]
  exact answer_ok hg (touch_keeps (d.cmdStart g c) _) c _

end

/-- An operation that stages becomes a transaction of its own (R184, R283). -/
theorem aloneCmd_submits (hfull : d.cpFull = false) (hstops : d.cpStops = false) {op : Nat} (hmine : leAt b 0 1 = op) (hread : 2 < op) :
    let r := (d.cmdStart g c).stageElem now [] b
    ∀ o, r.op = some o → ∃ cp, (d.aloneCmd now g op (.ok b)).vrn.cps = r.dev.vrn.cps ++ [cp] ∧ cp.ops = [o] ∧ cp.stage = .positioned ∧
      cp.ring = some (g, c.index) := by
  intro r o hsome
  obtain ⟨cp, hcps, -, hops, hstage, hring⟩ := cpSubmit_cps r.dev now (some (g, c.index)) [o]
  rw [aloneCmd_runs hg hnext hop hfield hlenA hb now hfull hmine hread hcheck, if_neg (by simp [hstops]), hsome]
  exact ⟨cp, hcps, hops, hstage, hring⟩

theorem flushPortCmd_starts (hmine : leAt b 0 1 = 6) (hnone : tget none d.fwd.flushes (leAt b 1 1) = none) :
    ∃ f, tget none (flushPortCmd now g (.ok b) d).fwd.flushes (leAt b 1 1) = some f ∧ f.next = 0 ∧ f.removed = 0 ∧ f.pinned = 0 ∧
      f.ports = leVal (slice b 0x10 17) := by
  rw [flushPortCmd_next hg hnext hop hfield hlenA hb now hmine hcheck, if_neg (by simp [hnone])]
  exact ⟨startedFlush b g c.index, tget_tset_self none d.fwd.flushes (leAt b 1 1) (some (startedFlush b g c.index)), rfl, rfl, rfl, rfl⟩

end

end

/-- A command of a ring group answers with the device its function gives. -/
theorem exec_command {i : Instr} {f : Dev → Dev} {s : State} {g : Nat} (hg : g < 15) (hexec : exec i s = runDev (isGroup g) f s) {e : Dev}
    (h : f s.dev = e) : exec i s = .next (s.withDev e) := by
  rw [hexec, runDev_ok (isGroup_of_lt hg), h]

/-- INSERT, MODIFY, DELETE and ACT_WRITE are one function of their operation (R279). -/
theorem exec_alone {g : Nat} (b : List Byte) (s : State) {i : Instr} (hi : (leAt b 0 1 = 3 ∧ i = .insert g (.ok b)) ∨
    (leAt b 0 1 = 4 ∧ i = .modify g (.ok b)) ∨ (leAt b 0 1 = 5 ∧ i = .delete g (.ok b)) ∨ (leAt b 0 1 = 7 ∧ i = .actWrite g (.ok b))) :
    ∃ op, leAt b 0 1 = op ∧ 2 < op ∧ exec i s = runDev (isGroup g) (fun d => d.aloneCmd s.clk.count g op (.ok b)) s := by
  rcases hi with ⟨h, rfl⟩ | ⟨h, rfl⟩ | ⟨h, rfl⟩ | ⟨h, rfl⟩
  · exact ⟨3, h, by omega, exec_insert g _ s⟩
  · exact ⟨4, h, by omega, exec_modify g _ s⟩
  · exact ⟨5, h, by omega, exec_delete g _ s⟩
  · exact ⟨7, h, by omega, exec_actWrite g _ s⟩

/-- Settles O60: each command by what it runs once its checks let it through (the lemmas _next, _runs and _fails of its function). -/
theorem ringCommands : Obligations.RingCommands := by
  unfold Obligations.RingCommands
  intro s g hg
  dsimp only
  refine ⟨?completion, fun c hnext => ⟨?nop, ?nopField, ?noCommand, ?rearm, ?stage, ?apply, ?message, ?task, ?quote, ?table, ?txn⟩, ?commit,
    ?quoteDone, ?cpApply, ?cpRelease⟩
  case completion => exact fun u k st rs c hrun hbusy hcpl hon hroom hst => cmdEnd_posts hg hrun hbusy hcpl hon hroom hst rs
  case nop =>
    exact fun hop hfield => exec_command hg (exec_nop g s)
      ((nopCmd_next hnext (by omega)).trans ((if_neg (by omega)).trans (if_neg (by simp [hfield]))))
  case nopField =>
    exact fun hop hfield => exec_command hg (exec_nop g s) ((nopCmd_next hnext (by omega)).trans ((if_neg (by omega)).trans (if_pos hfield)))
  case noCommand => exact fun hop => exec_command hg (exec_nop g s) ((nopCmd_next hnext (by omega)).trans (if_pos (by omega)))
  case rearm =>
    intro hop hfield hport
    have hexec := fun {e} => exec_command (e := e) hg (exec_portRearm g s)
    exact ⟨fun hheld => hexec ((portRearmCmd_next hnext hop hfield hport _).trans (if_neg (by simp [hheld]))),
      fun hheld => ⟨_, hexec rfl, portRearmCmd_frees hg hnext hop hfield hport hheld _⟩⟩
  case stage =>
    intro hop hfield hparam bs flash hbs
    have hexec := fun {e} => exec_command (e := e) hg (exec_profileStage g (.ok bs) flash s)
    refine ⟨fun code off hbad => hexec ?_, fun p hgood => ⟨_, hexec rfl, profileStageCmd_stages hg hnext hop hfield hparam hbs hgood _⟩⟩
    rw [profileStageCmd_next hg hnext hop hfield hparam hbs, hbad]
  case apply =>
    intro hop hfield
    have hexec := fun {e} => exec_command (e := e) hg (exec_profileApply g s)
    refine ⟨fun happ => hexec (profileApplyCmd_busy hnext hop hfield _ happ),
      fun happ hstaged => hexec (profileApplyCmd_unstaged hnext hop hfield _ happ hstaged), fun p happ hstaged hroom => ⟨fun hstops => ?_,
      fun hstops => ⟨_, hexec rfl, profileApplyCmd_starts hnext hop hfield happ hstaged hroom hstops _⟩⟩⟩
    exact hexec ((profileApplyCmd_staged hnext hop hfield _ happ hstaged hroom).trans (if_pos hstops))
  case message =>
    intro hop hfield hchan halign hmax bs hbs
    have hexec := fun {e} => exec_command (e := e) hg (exec_msgSend g (.ok bs) s)
    have hsend := msgSendCmd_next hg hnext hop hfield hchan halign hmax hbs s.clk.count
    exact ⟨fun hoff => hexec (hsend.trans (if_pos (by rcases hoff with h | h <;> simp [h]))),
      fun hon hring hroom => hexec (hsend.trans ((if_neg (by simp [hon, hring])).trans (if_pos (by simp [hroom])))),
      fun hon hring hroom hrecv => ⟨_, hexec rfl, msgSendCmd_delivers hg hnext hop hfield hchan halign hmax hbs hon hring hroom hrecv _⟩⟩
  case task =>
    intro hop hfield hlenA bs hbs
    have hexec := fun {e} => exec_command (e := e) hg (exec_taskPost g (.ok bs) s)
    have hpost := taskPostCmd_next hg hnext hop hfield hlenA hbs s.clk.count
    exact ⟨fun hbad => hexec (hpost.trans (if_pos (by simpa using hbad))),
      fun htxn hgood => hexec (hpost.trans (if_neg (by simp [htxn, hgood])))⟩
  case quote =>
    intro hop hfield hmin hmax bs hbs
    have hexec := fun {e} => exec_command (e := e) hg (exec_quote g (.ok bs) s)
    exact ⟨fun hbuf => hexec (quoteCmd_short hnext hop hfield hmin hmax hbuf _ _ _),
      fun hbuf => ⟨_, hexec rfl, quoteCmd_waits hg hnext hop hfield hmin hmax hbs hbuf _ _⟩⟩
  case table =>
    intro hop hfield hlenA b hb
    refine ⟨?reads, ?alone, ?flush⟩
    case reads =>
      rintro i happ hlenB (⟨hmine, rfl⟩ | ⟨hmine, rfl⟩)
      · have hexec := fun {e} => exec_command (e := e) hg (exec_search g (.ok b) s)
        refine ⟨fun st hcheck => hexec (searchCmd_fails hg hnext hop hfield hlenA hb _ happ hlenB hmine hcheck), fun hcheck => ?_⟩
        obtain ⟨hok, hbad⟩ := searchCmd_answers hg hnext hop hfield hlenA hb hcheck s.clk.count happ hlenB hmine
        rw [if_pos hmine]
        exact ⟨fun hr => ⟨_, hexec rfl, hok hr⟩, fun hr => ⟨_, hexec rfl, hbad hr⟩⟩
      · have hexec := fun {e} => exec_command (e := e) hg (exec_next g (.ok b) s)
        refine ⟨fun st hcheck => hexec (nextCmd_fails hg hnext hop hfield hlenA hb _ happ hlenB hmine hcheck), fun hcheck => ?_⟩
        obtain ⟨hok, hbad⟩ := nextCmd_answers hg hnext hop hfield hlenA hb hcheck s.clk.count happ hlenB hmine
        rw [if_neg (by omega)]
        exact ⟨fun hr => ⟨_, hexec rfl, hok hr⟩, fun hr => ⟨_, hexec rfl, hbad hr⟩⟩
    case alone =>
      intro i hfull hi
      obtain ⟨op, hmine, hread, hrun⟩ := exec_alone b s hi
      have hexec := fun {e} => exec_command (e := e) hg hrun
      refine ⟨fun st hcheck => hexec (aloneCmd_fails hg hnext hop hfield hlenA hb _ hfull hmine hread hcheck), fun hcheck hstops => hexec ?_,
        fun hcheck hstops => ⟨fun hnone => hexec ?_,
        fun o hsome => ⟨_, hexec rfl, aloneCmd_submits hg hnext hop hfield hlenA hb hcheck _ hfull hstops hmine hread o hsome⟩⟩⟩
      all_goals refine (aloneCmd_runs hg hnext hop hfield hlenA hb _ hfull hmine hread hcheck).trans ?_
      · exact if_pos hstops
      · rw [if_neg (by simp [hstops]), hnone]
    case flush =>
      intro hmine hcheck
      have hexec := fun {e} => exec_command (e := e) hg (exec_flushPort g (.ok b) s)
      exact ⟨fun hbusy => hexec ((flushPortCmd_next hg hnext hop hfield hlenA hb _ hmine hcheck).trans
          (if_pos (Option.isSome_iff_ne_none.mpr hbusy))),
        fun hnone => ⟨_, hexec rfl, flushPortCmd_starts hg hnext hop hfield hlenA hb hcheck _ hmine hnone⟩⟩
  case txn =>
    intro hop hfield hmin hmax hlenA hfull bs hbs
    have hexec := fun {e} => exec_command (e := e) hg (exec_txn g (.ok bs) s)
    have htxn := txnCmd_next hg hnext hop hfield hmin hmax hlenA hfull hbs s.clk.count
    exact ⟨fun hstops => hexec (htxn.trans (if_pos hstops)),
      fun hstops hst => hexec (htxn.trans ((if_neg (by simp [hstops])).trans (if_neg hst))),
      fun hstops hst => ⟨_, hexec rfl, txnCmd_submits hg hnext hop hfield hmin hmax hlenA hfull hbs hstops _ hst⟩⟩
  case commit =>
    intro a old hready
    obtain ⟨hforce, hover⟩ := profileCommitDev_prf hready s.clk.count
    refine ⟨{ s with idn := profileCommitIdent s.dev s.idn, dev := profileCommitDev s.clk.count s.dev }, exec_profileCommit s, hforce, hover,
      ?_, rfl, rfl⟩
    simp only [profileCommitIdent, hready]
  case quoteDone =>
    intro q r hq
    have hexec : exec .quoteDone s = .next (s.withDev (quoteDone s.clk s.idn s.dev)) := exec_quoteDone s
    refine ⟨fun hbody => ⟨_, hexec, ?_⟩, fun b hbody => ⟨fun hring => ⟨_, hexec, quoteDone_gmp hq hbody _ _ hring⟩,
      fun k x hring hrun => ⟨_, hexec, quoteDone_ring hq hbody _ _ hg hring hrun⟩⟩⟩
    rw [quoteDone_takes hq hbody]
    exact ⟨rfl, rfl⟩
  case cpApply =>
    intro c hfirst hdrained hroom
    have hexec : exec .controlPlaneApply s = .next (s.withDev (controlPlaneApply s.clk.count s.dev)) := exec_controlPlaneApply s
    obtain ⟨happlied, -⟩ := controlPlaneApply_ok hfirst hdrained hroom s.clk.count
    exact ⟨⟨_, hexec, happlied⟩, fun i bs hops => ⟨_, hexec, controlPlaneApply_actWrite hfirst hdrained hroom hops _⟩⟩
  case cpRelease => exact fun c hfirst => ⟨_, exec_controlPlaneRelease s, controlPlaneRelease_cps hfirst⟩

end Sys2Proof.Machine
end

section
/-!
SUPPORT. Registers and flags of a thread after a write: what setG and result leave of it, and the flags that a word writes (R81 to R84).
-/

namespace Sys2Proof.Machine

/-- A write of a general register leaves everything else of a thread. -/
theorem setG_only (th : Thread) (r : Nat) (v : Word) : ∃ x, th.setG r v = { th with gpr := x } := by
  unfold Thread.setG
  split
  · exact ⟨th.gpr, rfl⟩
  · exact ⟨_, rfl⟩

theorem result_g {r : Nat} (h : r ≠ 0) (th : Thread) (v : Word) (w : FlagW) : (th.result r v w).g r = v :=
  Thread.g_setG_self th r v h

theorem result_ecause (th : Thread) (r : Nat) (v : Word) (w : FlagW) : (th.result r v w).ecause = th.ecause := by
  obtain ⟨x, hx⟩ := setG_only th r v
  unfold Thread.result
  rw [hx]

theorem result_flags (th : Thread) (r : Nat) (v : Word) (w : FlagW) : (th.result r v w).flags = applyFlags th.flags w := rfl

theorem setG_flags (th : Thread) (r : Nat) (v : Word) : (th.setG r v).flags = th.flags := by
  obtain ⟨x, hx⟩ := setG_only th r v
  rw [hx]

theorem setFlags_flags (th : Thread) (w : FlagW) : (th.setFlags w).flags = applyFlags th.flags w := rfl

theorem result_keep (th : Thread) (r : Nat) (v : Word) : th.result r v .keep = th.setG r v := by
  obtain ⟨x, hx⟩ := setG_only th r v
  unfold Thread.result
  rw [hx, applyFlags_keep]

/-- A flags word with one flag written, or kept. -/
def putFlag (f : Word) (i : Nat) (o : Option Bool) : Word := match o with
  | some b => setBit f i b
  | none => f

theorem applyFlags_eq (f : Word) (w : FlagW) : applyFlags f w =
    putFlag (putFlag (putFlag (putFlag (putFlag f 31 w.n) 30 w.z) 29 w.c) 28 w.v) 0 w.d := rfl

theorem bit_putFlag_self (f : Word) {i : Nat} (o : Option Bool) (h : i < 32) : bit (putFlag f i o) i = o.getD (bit f i) := by
  cases o with
  | none => rfl
  | some b => exact bit_setBit f b h

theorem bit_putFlag_ne (f : Word) {i j : Nat} (o : Option Bool) (h : i < 32) (hne : j ≠ i) : bit (putFlag f i o) j = bit f j := by
  cases o with
  | none => rfl
  | some b => exact bit_setBit_ne f b h hne

theorem flagC_applyFlags (f : Word) (w : FlagW) : flagC (applyFlags f w) = w.c.getD (flagC f) := by
  unfold flagC
  rw [applyFlags_eq, bit_putFlag_ne _ _ (by omega) (by omega), bit_putFlag_ne _ _ (by omega) (by omega), bit_putFlag_self _ _ (by omega),
    bit_putFlag_ne _ _ (by omega) (by omega), bit_putFlag_ne _ _ (by omega) (by omega)]

theorem flagV_applyFlags (f : Word) (w : FlagW) : flagV (applyFlags f w) = w.v.getD (flagV f) := by
  unfold flagV
  rw [applyFlags_eq, bit_putFlag_ne _ _ (by omega) (by omega), bit_putFlag_self _ _ (by omega), bit_putFlag_ne _ _ (by omega) (by omega),
    bit_putFlag_ne _ _ (by omega) (by omega), bit_putFlag_ne _ _ (by omega) (by omega)]

theorem flagD_applyFlags (f : Word) (w : FlagW) : flagD (applyFlags f w) = w.d.getD (flagD f) := by
  unfold flagD
  rw [applyFlags_eq, bit_putFlag_self _ _ (by omega), bit_putFlag_ne _ _ (by omega) (by omega), bit_putFlag_ne _ _ (by omega) (by omega),
    bit_putFlag_ne _ _ (by omega) (by omega), bit_putFlag_ne _ _ (by omega) (by omega)]

/-- No borrow out of 0 − a (R83, R94) leaves only a = 0. -/
theorem subW_zero_carry {a : Word} (h : (subW 0 a true).2.c = some true) : a = 0 := by
  unfold subW addW at h
  simp only [Option.some.injEq, decide_eq_true_eq] at h
  have hnot : (~~~a).toNat = 2 ^ 32 - 1 - a.toNat := BitVec.toNat_not
  have hone : b2n true = 1 := rfl
  have hzero : (0 : Word).toNat = 0 := rfl
  have := a.isLt
  exact BitVec.eq_of_toNat_eq (by rw [hzero] at h ⊢; omega)

/-- A division by 0 (R93). -/
theorem divOp_zero (sel : Nat) (a : Word) : divOp sel a 0 =
    (if sel = 0 ∨ sel = 1 then wd 0xFFFFFFFF else a, ⟨none, none, none, some false, some true⟩) := by
  unfold divOp
  exact if_pos rfl

/-- The signed quotient that does not fit (R93). -/
theorem divOp_overflow {sel : Nat} (h : sel = 1 ∨ sel = 3) : divOp sel 0x80000000 0xFFFFFFFF =
    (if sel = 1 then 0x80000000 else 0, ⟨none, none, none, some true, none⟩) := by
  unfold divOp
  dsimp only
  rw [if_neg (by decide), if_pos ⟨h, rfl, rfl⟩]
  rfl

end Sys2Proof.Machine
end

section
/-!
SUPPORT. The words that compute on a thread's registers (R84 to R87, R91 to R95): the state in which each has run, and what holds of divisions and
negations.
-/

namespace Sys2Proof.Machine

/-- What an ALU-group word leaves of its thread (R86). -/
def Thread.aluResult (th : Thread) (f : RFmt) (r : Option Word) (w : FlagW) : Thread :=
  let th := if aluAlways (f.fn.toNat % 64) || f.fn.toNat.testBit 9 then th.setFlags w else th
  match r with
  | some v => th.setG f.rd.toNat v
  | none => th

theorem aluResult_dbg (th : Thread) (f : RFmt) (r : Option Word) (w : FlagW) : (th.aluResult f r w).dbg = th.dbg := by
  have hflags : (if aluAlways (f.fn.toNat % 64) || f.fn.toNat.testBit 9 then th.setFlags w else th).dbg = th.dbg := by
    split <;> rfl
  cases r with
  | none => exact hflags
  | some v => exact (Thread.setG_dbg _ _ _).trans hflags

/-- neg, cmp and tst set their flags whatever fn says. -/
theorem aluResult_always {f : RFmt} (h : aluAlways (f.fn.toNat % 64) = true) (th : Thread) (v : Word) (w : FlagW) :
    th.aluResult f (some v) w = (th.setFlags w).setG f.rd.toNat v := by
  unfold Thread.aluResult
  rw [h]
  rfl

theorem retired_const (s : State) (t : Nat) (f : Thread → Thread) : s.retired t f = s.retired t fun _ => f (s.dev.thr t) := rfl

section

variable {s : State} {t : Nat} (ht : isThread t = true) (hr : s.dev.ready t)
include ht hr

theorem exec_aluOp_retired {f : RFmt} {r : Option Word} {w : FlagW} (hfn : f.fn.toNat / 64 % 8 = 0)
    (hun : aluUnary (f.fn.toNat % 64) = true → f.rb = 0) (hno : aluNoDest (f.fn.toNat % 64) = true → f.rd = 0)
    (hop : aluOp (f.fn.toNat % 64) ((s.dev.thr t).g f.ra.toNat) ((s.dev.thr t).g f.rb.toNat) (flagC (s.dev.thr t).flags) = some (r, w)) :
    exec (.aluOp t f) s = .next (s.retired t (·.aluResult f r w)) := by
  rw [exec_aluOp]
  refine run_issue hr ht ?effect ?debug
  case effect =>
    dsimp only
    rw [hop]
    refine legal_true _ _ _ _ ?_
    rw [Bool.and_eq_true, Bool.and_eq_true, decide_eq_true_eq, Bool.or_eq_true, Bool.or_eq_true, Bool.not_eq_true', Bool.not_eq_true',
      decide_eq_true_eq, decide_eq_true_eq]
    exact ⟨⟨hfn, (Bool.eq_false_or_eq_true _).symm.imp_right fun h => by rw [hun h]; rfl⟩,
      (Bool.eq_false_or_eq_true _).symm.imp_right fun h => by rw [hno h]; rfl⟩
  case debug => exact aluResult_dbg _ f r w

theorem exec_multiply_retired {f : RFmt} {r : Word} {w : FlagW} (hfn : f.fn.toNat < 4)
    (hop : mulOp f.fn.toNat ((s.dev.thr t).g f.ra.toNat) ((s.dev.thr t).g f.rb.toNat) = some (r, w)) :
    exec (.multiply t f) s = .next (s.retired t fun th => th.result f.rd.toNat r w) := by
  have hwf : (isThread t && decide (f.fn.toNat % 8 < 4)) = isThread t := by
    rw [decide_eq_true (by omega), Bool.and_true]
  rw [exec_multiply, hwf]
  refine run_issue hr ht ?_ (Thread.result_dbg _ _ _ _)
  dsimp only
  rw [Nat.mod_eq_of_lt hfn, hop]
  exact legal_true _ _ _ _ (decide_eq_true (by omega))

theorem exec_divide_retired {f : RFmt} (hlo : 4 ≤ f.fn.toNat) (hhi : f.fn.toNat < 8) :
    exec (.divide t f) s = .next (s.retired t fun th =>
      let x := divOp (f.fn.toNat - 4) (th.g f.ra.toNat) (th.g f.rb.toNat)
      th.result f.rd.toNat x.1 x.2) := by
  have hwf : (isThread t && decide (4 ≤ f.fn.toNat % 8)) = isThread t := by
    rw [decide_eq_true (by omega), Bool.and_true]
  rw [exec_divide, hwf]
  refine run_issue hr ht ?_ (Thread.result_dbg _ _ _ _)
  dsimp only
  rw [show f.fn.toNat % 4 = f.fn.toNat - 4 by omega, legal_true _ _ _ _ (decide_eq_true (by omega))]
  exact retire_congr rfl

theorem immCmd_retired (f : IFmt) (op : Word → Word × FlagW) : runDev (isThread t) (immCmd t f op) s =
    .next (s.retired t fun th => th.result f.rd.toNat (op (th.g f.ra.toNat)).1 (op (th.g f.ra.toNat)).2) :=
  run_issue hr ht rfl (Thread.result_dbg _ _ _ _)

/-- An immediate word that sets no flag. -/
theorem immCmd_keep_retired (f : IFmt) (op : Word → Word) : runDev (isThread t) (immCmd t f fun a => (op a, FlagW.keep)) s =
    .next (s.retired t fun th => th.setG f.rd.toNat (op (th.g f.ra.toNat))) := by
  rw [immCmd_retired ht hr]
  simp only [result_keep]

theorem exec_shifti_retired {f : IFmt} (hunused : f.imm.toNat / 2 ^ 7 % 2 ^ 7 = 0) :
    exec (.shifti t f) s = .next (s.retired t fun th =>
      let k := match f.imm.toNat / 2 ^ 5 % 4 with
        | 0 => Sh.sll
        | 1 => Sh.srl
        | 2 => Sh.sra
        | _ => Sh.ror
      let x := shiftW k (th.g f.ra.toNat) (f.imm.toNat % 32)
      th.result f.rd.toNat x.1 (if f.imm.toNat.testBit 14 then x.2 else .keep)) := by
  rw [exec_shifti]
  exact run_issue hr ht (legal_true _ _ _ _ (decide_eq_true hunused)) (Thread.result_dbg _ _ _ _)

theorem exec_cmpi_retired {f : IFmt} (hrd : f.rd = 0) : exec (.cmpi t f) s = .next (s.retired t fun th =>
    th.setFlags (subW (th.g f.ra.toNat) (sextN 15 f.imm.toNat) true).2) := by
  rw [exec_cmpi]
  exact run_issue hr ht (legal_true _ _ _ _ (decide_eq_true (by rw [hrd]; rfl))) (Thread.setFlags_dbg _ _)

theorem exec_lui_retired (rd : BitVec 5) (imm : BitVec 20) : exec (.lui t rd imm) s = .next (s.retired t fun th =>
    th.setG rd.toNat (wd (imm.toNat * 2 ^ 12))) := by
  rw [exec_lui]
  exact run_issue hr ht rfl (Thread.setG_dbg _ _ _)

theorem exec_shortPair_retired {p : BitVec 31} {th' : Thread} (hrep : hasRep (pairWord p) = false)
    (heff : (s.dev.thr t).pairEff (pairWord p) = some th') : exec (.shortPair t p) s = .next (s.retired t fun _ => th') := by
  rw [exec_shortPair, hrep, Bool.not_false, Bool.and_true]
  refine run_issue hr ht ?_ (pairEff_dbg heff)
  dsimp only
  rw [heff]

end

/-- Settles O12: each word by the state in which it has run. -/
theorem krovalArithmetic : Obligations.KrovalArithmetic := by
  unfold Obligations.KrovalArithmetic
  intro s t ht hr
  refine ⟨?alu, ?multiply, ?divide, ?addi, ?addis, ?andi, ?ori, ?xori, ?shifti, ?cmpi, ?lui, ?pair⟩
  case alu => exact fun f r w => exec_aluOp_retired ht hr
  case multiply => exact fun f r w => exec_multiply_retired ht hr
  case divide => exact fun f => exec_divide_retired ht hr
  case addi => exact fun f => (exec_addi t f s).trans (immCmd_keep_retired ht hr f _)
  case addis => exact fun f => (exec_addis t f s).trans (immCmd_retired ht hr f _)
  case andi => exact fun f => (exec_andi t f s).trans (immCmd_retired ht hr f _)
  case ori => exact fun f => (exec_ori t f s).trans (immCmd_keep_retired ht hr f _)
  case xori => exact fun f => (exec_xori t f s).trans (immCmd_keep_retired ht hr f _)
  case shifti => exact fun f => exec_shifti_retired ht hr
  case cmpi => exact fun f => exec_cmpi_retired ht hr
  case lui => exact exec_lui_retired ht hr
  case pair => exact fun p th' => exec_shortPair_retired ht hr

/-- Settles O10: the word runs as R93 states, and the results and flags are those of divOp at its corners. -/
theorem divisionNeverTraps : Obligations.DivisionNeverTraps := by
  unfold Obligations.DivisionNeverTraps
  intro s t f ht hr hlo hhi
  refine ⟨_, (exec_divide_retired ht hr hlo hhi).trans (congrArg _ (retired_const s t _)), result_ecause _ _ _ _, ?_⟩
  dsimp only
  rw [result_flags, flagD_applyFlags, flagV_applyFlags]
  refine ⟨fun hzero => ?_, fun ha hb hfn => ?_⟩
  · rw [hzero, divOp_zero]
    refine ⟨rfl, rfl, fun hrd => ?_⟩
    rw [result_g (BitVec.toNat_ne.mp hrd)]
    exact ⟨fun hfn => if_pos (by omega), fun hfn => if_neg (by omega)⟩
  · rw [ha, hb, divOp_overflow (by omega)]
    refine ⟨rfl, fun hrd => ?_⟩
    rw [result_g (BitVec.toNat_ne.mp hrd)]
    exact if_congr (by omega) rfl rfl

/-- neg of 0x8000_0000 (R94). -/
theorem subW_zero_min : subW 0 0x80000000 true = (0x80000000, ⟨some true, some false, some false, some true, none⟩) := by decide

/-- Settles O11: neg is 0 − a, whose flags are those of subW. -/
theorem negCorners : Obligations.NegCorners := by
  unfold Obligations.NegCorners
  intro s t f ht hr hrb hfn hsel
  have halways : aluAlways (f.fn.toNat % 64) = true := by rw [hsel]; rfl
  have hdest : aluNoDest (f.fn.toNat % 64) = true → f.rd = 0 := by rw [hsel]; exact fun h => absurd h (by decide)
  refine ⟨_, (exec_aluOp_retired (f := f) ht hr hfn (fun _ => hrb) hdest (by rw [hsel]; rfl)).trans (congrArg _ (retired_const s t _)), ?_⟩
  dsimp only
  rw [aluResult_always halways, setG_flags, setFlags_flags, flagV_applyFlags, flagC_applyFlags]
  refine ⟨fun ha => ?_, fun hc => subW_zero_carry (congrArg some hc)⟩
  rw [ha, subW_zero_min]
  exact ⟨rfl, fun hrd => Thread.g_setG_self _ _ _ (BitVec.toNat_ne.mp hrd)⟩

/-- Settles O6: what exec_clk says of the commands that setsTime does not list. -/
theorem timeMovesOnlyByTime : Obligations.TimeMovesOnlyByTime := by
  unfold Obligations.TimeMovesOnlyByTime
  exact fun c s t hrun => (exec_clk c s t hrun).2

end Sys2Proof.Machine
end

section
/-!
SUPPORT. Branches, traps, and the loads and stores of a cluster thread's own shared memory (R85, R89, R96 to R99, R103, R112 to R114).
-/

namespace Sys2Proof.Machine

theorem ready_dbg {d : Dev} {t : Nat} (h : d.ready t) : (d.thr t).dbg = .none := by
  obtain ⟨-, -, hdbg⟩ := h
  exact hdbg

theorem onlyThread_setThr (s : State) (t : Nat) (th : Thread) : s.onlyThread (s.withDev (s.dev.setThr t th)) t :=
  congrArg (fun x => s.withDev (s.dev.setThr t x)) (Dev.thr_setThr_self s.dev t th).symm

section

variable {s : State} {t : Nat} (ht : isThread t = true) (hr : s.dev.ready t)
include ht hr

/-- A word that replaces its thread's state. -/
theorem setThr_runs {body : Dev → Dev} {th : Thread} (hbody : body s.dev = s.dev.setThr t th) (hdbg : th.dbg = (s.dev.thr t).dbg) :
    runDev (isThread t) (fun d => d.issue t body) s = .next (s.withDev (s.dev.setThr t th)) :=
  run_issue' hr ht hbody (by rw [Dev.thr_setThr_self, hdbg, ready_dbg hr])

theorem branch_runs {body : Dev → Dev} {w : Word} {f : Thread → Thread} {dest : Thread → Word} (hslot : slotForbidden w = false)
    (hbody : body s.dev = branchTo t w (fun th => (f th, .branch (dest th))) s.dev) (hf : (f (s.dev.thr t)).dbg = (s.dev.thr t).dbg) :
    runDev (isThread t) (fun d => d.issue t body) s = .next (s.branched t f dest) :=
  setThr_runs ht hr (hbody.trans (branch_ok hslot)) hf

theorem jumpCmd_branched {ra : BitVec 5} {link : Bool} {w : Word} (hslot : slotForbidden w = false) :
    runDev (isThread t) (jumpCmd t ⟨0, ra, 0⟩ link w) s =
      .next (s.branched t (fun th => if link then th.setG 31 (th.pc + 8) else th) fun th => th.g ra.toNat) := by
  refine branch_runs ht hr hslot (legal_true _ _ _ _ rfl) ?_
  split
  · exact Thread.setG_dbg _ _ _
  · rfl

theorem exec_eret_slot {w : Word} (hslot : slotForbidden w = false) (hsuper : isAtl t = true → (s.dev.thr t).super = true) :
    exec (.eret t 0 w) s = .next (s.withDev (s.dev.setThr t { s.dev.thr t with pc := (s.dev.thr t).pc + 4, slot := .eret })) := by
  have hpriv : (isAtl t && !(s.dev.thr t).super) = false := by
    cases ha : isAtl t with
    | false => rfl
    | true => rw [hsuper ha]; rfl
  rw [exec_eret]
  refine setThr_runs ht hr ((legal_true _ _ _ _ rfl).trans ?_) rfl
  dsimp only
  rw [hpriv]
  exact branch_ok hslot

theorem exec_rep_runs {p : BitVec 31} {w : Word} {th' : Thread} (hslot : slotForbidden w = false) (hrep : hasRep (pairWord p) = true)
    (heff : (s.dev.thr t).pairEff (pairWord p) = some th') :
    exec (.rep t p w) s = .next (s.withDev (s.dev.setThr t (if (s.dev.thr t).lc = 0 then { th' with pc := (s.dev.thr t).pc + 8 }
      else { th' with pc := (s.dev.thr t).pc + 4, repLeft := (s.dev.thr t).lc, repAddr := (s.dev.thr t).pc + 4 }))) := by
  rw [exec_rep, hrep, Bool.and_true]
  refine setThr_runs ht hr ?effect ?debug
  case effect =>
    dsimp only
    rw [heff]
    dsimp only
    rw [hslot, if_neg Bool.false_ne_true, apply_ite (s.dev.setThr t)]
    exact if_congr (BitVec.toNat_inj (y := 0)) rfl rfl
  case debug =>
    refine Eq.trans ?_ (pairEff_dbg heff)
    split <;> rfl

/-- A word of which the whole effect is a trap that its thread takes (R113). -/
theorem trap_runs (hh : s.dev.trapsTo t) {body : Dev → Dev} {x : Trap} (hbody : body s.dev = s.dev.takeTrap t x) (hkind : x.kind < 4) :
    ∃ u, runDev (isThread t) (fun d => d.issue t body) s = .next u ∧ s.onlyThread u t ∧
      trapEntry (s.dev.thr t) (u.dev.thr t) (isAtl t) (wd x.cause) x.etval (x.cause * 0x40) ∧ bit (u.dev.thr t).estat 6 = x.sys :=
  ⟨_, run_issue' hr ht hbody ((trap_dbg hh).trans (ready_dbg hr)), trap_only hh, entry_ok hh hkind⟩

/-- A word that is no brush's raises the cause that R89 gives it. -/
theorem undefinedCmd_traps (hh : s.dev.trapsTo t) {w : Word} {c : Nat} (hc : undefinedCause w = some c) (hmajor : major w < 0x38) :
    ∃ u, runDev (isThread t) (undefinedCmd t w) s = .next u ∧ s.onlyThread u t ∧
      trapEntry (s.dev.thr t) (u.dev.thr t) (isAtl t) (wd c) w (c * 0x40) ∧ bit (u.dev.thr t).estat 6 = false := by
  refine trap_runs ht hr hh (x := ⟨c, 0, false, w⟩) ?_ (Nat.succ_pos 3)
  dsimp only
  rw [hc]
  dsimp only
  rw [if_neg (by omega), if_neg (by omega)]
  rfl

end

/-- A word in the delay slot of an eret that neither resumes a slot nor a repeat (R114). -/
theorem advance_setG_eret {th : Thread} {r : Nat} {v : Word} (hslot : th.slot = .eret) (hrep : th.repLeft = 0) (hnoslot : bit th.estat 1 = false)
    (hnorep : bit th.estat 2 = false) : let y := (th.setG r v).advance false
    y.pc = th.epc ∧ y.slot = .none ∧ y.intrap = false := by
  obtain ⟨x, hx⟩ := setG_only th r v
  rw [hx, advance_eret (th := { th with gpr := x }) hslot hrep hnoslot hnorep]
  exact ⟨rfl, rfl, bit_setBit _ false (by omega)⟩

/-- Settles O13: each branch by the state at its delay slot, eret's return by the word in its slot. -/
theorem krovalBranches : Obligations.KrovalBranches := by
  unfold Obligations.KrovalBranches
  intro s t ht hr
  refine ⟨?bcc, ?call, ?jr, ?callr, ?eret, ?goesBack, ?rep⟩
  case bcc => exact fun cond off w hslot => (exec_bcc _ _ _ _ _ _).trans (branch_runs ht hr hslot (legal_true _ _ _ _ rfl) rfl)
  case call => exact fun off w hslot => (exec_call _ _ _ _).trans (branch_runs ht hr hslot rfl (Thread.setG_dbg _ _ _))
  case jr => exact fun ra w hslot => (exec_jr _ _ _ _).trans (jumpCmd_branched ht hr hslot)
  case callr => exact fun ra w hslot => (exec_callr _ _ _ _).trans (jumpCmd_branched ht hr hslot)
  case eret => exact fun w => exec_eret_slot ht hr
  case goesBack =>
    intro rd imm ha hslot hrep hnoslot hnorep
    obtain ⟨hpc, hnone, hintrap⟩ := advance_setG_eret (r := rd.toNat) (v := wd (imm.toNat * 2 ^ 12)) hslot hrep hnoslot hnorep
    have hthr : (s.retired t fun th => th.setG rd.toNat (wd (imm.toNat * 2 ^ 12))).dev.thr t =
        ((s.dev.thr t).setG rd.toNat (wd (imm.toNat * 2 ^ 12))).advance false :=
      (Dev.thr_setThr_self _ _ _).trans (by rw [ha])
    exact ⟨_, exec_lui_retired ht hr rd imm, by rw [hthr, hpc], by rw [hthr, hnone], by rw [hthr, hintrap], onlyThread_setThr _ _ _⟩
  case rep => exact fun p w th' => exec_rep_runs ht hr

/-- Settles O14: each word issues and takes the trap of its cause. -/
theorem krovalTraps : Obligations.KrovalTraps := by
  unfold Obligations.KrovalTraps
  intro s t ht hr hh
  refine ⟨fun imm => ?sys, ?bkpt, fun w hcause hmajor => ?undefined⟩
  case sys => exact trap_runs ht hr hh (x := ⟨5, 0, true, wd imm.toNat⟩) (legal_true _ _ _ _ rfl) (Nat.succ_pos 3)
  case bkpt => exact trap_runs ht hr hh (x := ⟨7, 0, false, (s.dev.thr t).pc⟩) (legal_true _ _ _ _ rfl) (Nat.succ_pos 3)
  case undefined =>
    obtain ⟨c, hc⟩ : ∃ c, undefinedCause w = some c := hcause.elim (⟨1, ·⟩) fun h => ⟨2, h.1⟩
    obtain ⟨u, hrun, honly, hentry, -⟩ := undefinedCmd_traps ht hr hh hc hmajor
    refine ⟨u, ?_, honly, fun c' hc' => ?_⟩
    · rw [exec_undefinedInstruction, hc, Option.isSome_some, Bool.and_true]
      exact hrun
    · rw [hc, Option.some.injEq] at hc'
      rw [← hc']
      exact hentry

theorem loadVal_signed (d : Dev) (t va n : Nat) : loadVal n true (d.ownBytes t va n) = sextN (8 * n) (leVal (d.ownBytes t va n)) :=
  (loadVal_ld n _ (ownBytes_length d t va n) true).trans (if_pos rfl)

theorem loadVal_unsigned (d : Dev) (t va n : Nat) : loadVal n false (d.ownBytes t va n) = wd (leVal (d.ownBytes t va n)) :=
  (loadVal_ld n _ (ownBytes_length d t va n) false).trans (if_neg Bool.false_ne_true)

/-- A load at ra + sext(imm15), by the lemma about loads of own shared memory. -/
theorem loadCmd_at {s : State} {t op size now : Nat} {sg : Bool} {f : IFmt} {idn : Ident} {v : Word} (hr : s.dev.ready t)
    (hv : loadVal size sg (s.dev.ownBytes t ((s.dev.thr t).g f.ra.toNat + sextN 15 f.imm.toNat).toNat size) = v)
    (h : s.dev.ownAccess t false ((s.dev.thr t).g f.ra.toNat + sextN 15 f.imm.toNat).toNat size) :
    ∃ u, runDev (isThread t) (loadCmd op size sg false now t idn f) s = .next u ∧ s.onlyThread u t ∧
      (u.dev.thr t).gpr = ((s.dev.thr t).setG f.rd.toNat v).gpr := by
  rw [← hv]
  exact load_own (post := false) (inc := none) hr (fun h => absurd h Bool.false_ne_true) rfl rfl h

/-- Settles O15: ldw+ by the lemma about loads of own shared memory too. -/
theorem krovalLoads : Obligations.KrovalLoads := by
  unfold Obligations.KrovalLoads
  intro s t f hr
  refine ⟨?word, ?half, ?halfUnsigned, ?byte, ?byteUnsigned, fun hown hne => ?wordPost⟩
  case word => exact loadCmd_at hr (loadVal_unsigned _ _ _ 4)
  case half => exact loadCmd_at hr (loadVal_signed _ _ _ 2)
  case halfUnsigned => exact loadCmd_at hr (loadVal_unsigned _ _ _ 2)
  case byte => exact loadCmd_at hr (loadVal_signed _ _ _ 1)
  case byteUnsigned => exact loadCmd_at hr (loadVal_unsigned _ _ _ 1)
  case wordPost =>
    rw [← loadVal_unsigned]
    exact load_own (post := true) hr (fun _ => hne) rfl rfl hown

/-- A cluster thread's store leaves time and identity alone. -/
theorem runAll_store {s : State} {t : Nat} (h : isAtl t = false) (post : Bool) (f : IFmt) (e : Dev → Dev) :
    runAll (isThread t) (fun c => storeClock post t f s.dev c) (fun i => storeIdent post t f s.dev i) e s = runDev (isThread t) e s := by
  unfold runAll runDev storeClock storeIdent
  rw [storeReg_clu h]

/-- Settles O16: each store by the lemma about stores to own shared memory. -/
theorem krovalStores : Obligations.KrovalStores := by
  unfold Obligations.KrovalStores
  intro s t f hr hpoison hmirrors hstatus
  refine ⟨fun hown => ?word, ?half, ?byte, fun hown => ?wordPost⟩
  case word =>
    rw [exec_stw, runAll_store hown.1]
    exact store_own (post := false) hr hpoison hmirrors hstatus rfl hown
  case half => exact store_own (post := false) hr hpoison hmirrors hstatus rfl
  case byte => exact store_own (post := false) hr hpoison hmirrors hstatus rfl
  case wordPost =>
    rw [exec_stwPostinc, runAll_store hown.1]
    exact store_own (post := true) hr hpoison hmirrors hstatus rfl hown

end Sys2Proof.Machine
end

section
/-!
SUPPORT. The cache group and tlbinv (R102, R106, R118, R122): what a TLB refill leaves alone, and the state in which each word has run.
-/

namespace Sys2Proof.Machine

theorem walkSee_only (d : Dev) (ptbr : Word) (va : Nat) : dramOnly d (d.walkSee ptbr va) := by
  have hsee : ∀ (e : Dev) (a : Nat), dramOnly e (if e.l2Holds a then e else e.seeDram a 8) := by
    intro e a
    split
    · exact dramOnly_refl e
    · exact seeDram_only e a 8
  unfold Dev.walkSee
  dsimp only
  split
  · exact hsee _ _
  · exact dramOnly_trans (hsee _ _) (hsee _ _)

/-- A TLB refill changes the TLB, what reading the page table shows of DRAM, and a free choice. -/
theorem tlbFill_only (d : Dev) (t va : Nat) : ∃ r c f n x, d.tlbFill t va =
    { d with regs := r, drc := c, flt := { d.flt with inbox := f }, free := n, krv := { d.krv with tlb := x } } := by
  unfold Dev.tlbFill
  dsimp only
  split
  · obtain ⟨r, c, f, hsee⟩ := walkSee_only d (d.thr t).ptbr va
    rw [hsee]
    split
    · exact ⟨r, c, f, _, _, rfl⟩
    · split
      · exact ⟨r, c, f, _, _, rfl⟩
      · exact ⟨r, c, f, _, _, rfl⟩
  · exact ⟨_, _, _, _, _, rfl⟩

theorem tlbFill_krv (d : Dev) (t va : Nat) : ∃ x, (d.tlbFill t va).krv = { d.krv with tlb := x } := by
  obtain ⟨_, _, _, _, x, h⟩ := tlbFill_only d t va
  exact ⟨x, by rw [h]⟩

theorem tlbFill_threads (d : Dev) (t va : Nat) : (d.tlbFill t va).krv.threads = d.krv.threads := by
  obtain ⟨x, h⟩ := tlbFill_krv d t va
  rw [h]

theorem tlbFill_thr (d : Dev) (t va u : Nat) : (d.tlbFill t va).thr u = d.thr u := thr_of_krv (tlbFill_threads d t va) u

theorem tlbFill_icache (d : Dev) (t va : Nat) : (d.tlbFill t va).krv.icache = d.krv.icache := by
  obtain ⟨x, h⟩ := tlbFill_krv d t va
  rw [h]

theorem tlbFill_dline (d : Dev) (t va c l : Nat) : (d.tlbFill t va).dline c l = d.dline c l := by
  obtain ⟨x, h⟩ := tlbFill_krv d t va
  unfold Dev.dline
  rw [h]

theorem tlbFill_l2 (d : Dev) (t va : Nat) : (d.tlbFill t va).krv.l2 = d.krv.l2 := by
  obtain ⟨x, h⟩ := tlbFill_krv d t va
  rw [h]

/-- The state after a word of the caches differs from the device the word worked on in the caches and its thread alone. -/
theorem retired_went {s : State} {t : Nat} {d e : Dev} {k : Krv} (h : d = { e with krv := k }) (hthr : k.threads = s.dev.krv.threads) :
    s.withDev (d.retire t id) = s.withDev { e with krv := (s.withDev (d.retire t id)).dev.krv } ∧
      (s.withDev (d.retire t id)).dev.thr t = (s.dev.thr t).advance (isAtl t) := by
  subst h
  exact ⟨rfl, (retire_thr _ _).trans (by rw [thr_of_krv (d := { e with krv := k }) (d' := s.dev) hthr])⟩

theorem drainCore_empty {d : Dev} {c : Nat} (h : d.wbuf c = []) : d.drainCore c = d.setWbuf c [] := by
  unfold Dev.drainCore
  rw [h]
  rfl

theorem dline_dropCore (d : Dev) (core c line : Nat) :
    ({ d with krv := { d.krv with dcache := tdrop (fun k => decide (k / 256 = core)) d.krv.dcache } } : Dev).dline c line =
      if c = core then none else d.dline c line := by
  unfold Dev.dline
  dsimp only
  rw [tget_tdrop, show dcKey c line / 256 = c from key_div c line 256 (by omega)]
  by_cases hc : c = core
  · rw [if_pos (decide_eq_true hc), if_pos hc]
    rfl
  · rw [if_neg (by rwa [decide_eq_true_eq]), if_neg hc]

/-- The device without a line of a core's D-cache, where it holds it (R102). -/
def Dev.dropDline (d : Dev) (core line : Nat) : Dev := if (d.dline core line).isSome then d.setDline core line none else d

theorem dline_dropDline (d : Dev) (core line c l : Nat) :
    (d.dropDline core line).dline c l = if c = core ∧ l = line then none else d.dline c l := by
  unfold Dev.dropDline
  split
  · rename_i hsome
    exact dline_set d core line c l hsome
  · rename_i hnone
    split
    · rename_i hsame
      obtain ⟨rfl, rfl⟩ := hsame
      exact Option.not_isSome_iff_eq_none.mp hnone
    · rfl

theorem dropDline_krv (d : Dev) (core line : Nat) : ∃ k, d.dropDline core line = { d with krv := k } ∧ k.threads = d.krv.threads := by
  unfold Dev.dropDline
  split
  · exact ⟨_, rfl, rfl⟩
  · exact ⟨d.krv, rfl, rfl⟩

/-- A core's I-cache without a line, where it holds it (R102). -/
def icacheWithout (m : Tab (Option Nat)) (core line : Nat) : Tab (Option Nat) :=
  if tget none m (icKey core line) = some line then tset none m (icKey core line) none else m

theorem icacheWithout_self (m : Tab (Option Nat)) (core line : Nat) : tget none (icacheWithout m core line) (icKey core line) ≠ some line := by
  unfold icacheWithout
  split
  · rw [tget_tset_self]
    exact (Option.some_ne_none line).symm
  · assumption

theorem icacheWithout_other {m : Tab (Option Nat)} {core line k : Nat} (h : tget none m k ≠ some line) :
    tget none (icacheWithout m core line) k = tget none m k := by
  unfold icacheWithout
  split
  · rename_i hin
    exact tget_tset_ne _ _ _ _ _ fun hk => h (hk ▸ hin)
  · rfl

theorem foldl_l2Clean_krv (ls : List L2Line) (d : Dev) : (ls.foldl Dev.l2Clean d).krv = d.krv :=
  foldl_inv Dev.l2Clean (fun e => e.krv = d.krv) (fun e l h => (l2Clean_krv e l).trans h) ls d rfl

/-- The device without a line of a core's I-cache. -/
def Dev.dropIline (d : Dev) (core line : Nat) : Dev := { d with krv := { d.krv with icache := icacheWithout d.krv.icache core line } }

theorem dropIline_eq (d : Dev) (core line : Nat) : (if tget none d.krv.icache (icKey core line) = some line then
    { d with krv := { d.krv with icache := tset none d.krv.icache (icKey core line) none } } else d) = d.dropIline core line := by
  unfold Dev.dropIline icacheWithout
  split <;> rfl

/-- The device with the L2 line of a base written back and kept. -/
def Dev.l2CleanLine (d : Dev) (base : Nat) : Dev :=
  let e := (d.krv.l2.filter (fun l => decide (l.base = base))).foldl Dev.l2Clean d
  { e with krv := { e.krv with l2 := e.krv.l2.map (fun l => if l.base = base then { l with dirty := false } else l) } }

theorem l2CleanLine_keeps (d : Dev) (base t : Nat) :
    (d.l2CleanLine base).krv.l2 = d.krv.l2.map (fun l => if l.base = base then { l with dirty := false } else l) ∧
      (d.l2CleanLine base).thr t = d.thr t := by
  have hkrv := foldl_l2Clean_krv (d.krv.l2.filter (fun l => decide (l.base = base))) d
  unfold Dev.l2CleanLine
  dsimp only
  rw [hkrv]
  exact ⟨rfl, rfl⟩

section

variable {s : State} {t : Nat} (ht : isThread t = true) (hr : s.dev.ready t)
include ht hr

theorem exec_sync_drains : ∃ u, exec (.sync t ⟨0, 0, 0⟩) s = .next u ∧ u.dev.wbuf (coreOf t) = [] ∧
    u.dev.thr t = (s.dev.thr t).advance (isAtl t) ∧
      (s.dev.wbuf (coreOf t) = [] → u = s.withDev { s.dev with krv := u.dev.krv } ∧ u.dev.thr t = (s.dev.thr t).advance (isAtl t)) := by
  obtain ⟨hempty, hthreads⟩ := drainCore_keep s.dev (coreOf t)
  have hthr : (s.dev.drainCore (coreOf t)).thr t = s.dev.thr t := thr_of_krv hthreads t
  rw [exec_sync]
  refine ⟨_, cache_ok ht hr rfl rfl hthr, hempty, (retire_thr _ _).trans (by rw [hthr]), fun hnone => ?_⟩
  exact retired_went (drainCore_empty hnone) rfl

theorem exec_dinva_drops : ∃ u, exec (.dinva t ⟨0, 0, 0⟩) s = .next u ∧
    (u = s.withDev { s.dev with krv := u.dev.krv } ∧ u.dev.thr t = (s.dev.thr t).advance (isAtl t)) ∧
      (∀ line, u.dev.dline (coreOf t) line = none) ∧ ∀ c line, c ≠ coreOf t → u.dev.dline c line = s.dev.dline c line := by
  rw [exec_dinva]
  refine ⟨_, cache_ok ht hr rfl rfl rfl, retired_went rfl rfl, fun line => ?_, fun c line hc => ?_⟩
  · exact (dline_dropCore s.dev _ _ _).trans (if_pos rfl)
  · exact (dline_dropCore s.dev _ _ _).trans (if_neg hc)

theorem exec_iinva_drops : ∃ u, exec (.iinva t ⟨0, 0, 0⟩) s = .next u ∧
    (u = s.withDev { s.dev with krv := u.dev.krv } ∧ u.dev.thr t = (s.dev.thr t).advance (isAtl t)) ∧ ∀ c line,
      tget none u.dev.krv.icache (icKey c line) = if c = coreOf t then none else tget none s.dev.krv.icache (icKey c line) := by
  rw [exec_iinva]
  refine ⟨_, cache_ok ht hr rfl rfl rfl, retired_went rfl rfl, fun c line => ?_⟩
  refine (tget_tdrop none (fun k => decide (k / 512 = coreOf t)) s.dev.krv.icache (icKey c line)).trans ?_
  rw [show icKey c line / 512 = c from key_div c line 512 (by omega)]
  simp only [decide_eq_true_eq]

section

variable {ra : BitVec 5} {va a : Nat} {e : Dev} (hva : ((s.dev.thr t).g ra.toNat).toNat = va) (hfill : s.dev.tlbFill t va = e)
include hva hfill

theorem exec_dinvl_drops (ha : e.lineAddr t .load va = some a) : ∃ u, exec (.dinvl t ⟨0, ra, 0⟩) s = .next u ∧
    (u = s.withDev { e with krv := u.dev.krv } ∧ u.dev.thr t = (s.dev.thr t).advance (isAtl t)) ∧
      ∀ c line, u.dev.dline c line = if c = coreOf t ∧ line = a / 32 then none else s.dev.dline c line := by
  obtain ⟨k, hk, hthreads⟩ := dropDline_krv e (coreOf t) (a / 32)
  rw [← hfill, tlbFill_threads] at hthreads
  rw [exec_dinvl]
  refine ⟨_, cache_ok ht hr rfl (d' := e.dropDline (coreOf t) (a / 32)) (by dsimp only; rw [hva, hfill, ha]; rfl)
    (by rw [hk]; exact thr_of_krv hthreads t), retired_went hk hthreads, fun c line => ?_⟩
  refine (dline_dropDline _ _ _ _ _).trans ?_
  rw [← hfill, tlbFill_dline]

theorem exec_iinvl_drops (ha : e.lineAddr t .fetch va = some a) : ∃ u, exec (.iinvl t ⟨0, ra, 0⟩) s = .next u ∧
    (u = s.withDev { e with krv := u.dev.krv } ∧ u.dev.thr t = (s.dev.thr t).advance (isAtl t)) ∧
      tget none u.dev.krv.icache (icKey (coreOf t) (a / 32)) ≠ some (a / 32) ∧
      ∀ k, tget none s.dev.krv.icache k ≠ some (a / 32) → tget none u.dev.krv.icache k = tget none s.dev.krv.icache k := by
  have hthreads := tlbFill_threads s.dev t va
  have hicache := tlbFill_icache s.dev t va
  rw [hfill] at hthreads hicache
  rw [exec_iinvl, ← hicache]
  exact ⟨_, cache_ok ht hr rfl (d' := e.dropIline (coreOf t) (a / 32)) (by dsimp only; rw [hva, hfill, ha]; exact dropIline_eq _ _ _)
    (thr_of_krv hthreads t), retired_went rfl hthreads, icacheWithout_self _ _ _, fun _ hk => icacheWithout_other hk⟩

variable (hatl : isAtl t = true) (hsuper : (s.dev.thr t).super = true)
include hatl hsuper

theorem exec_l2invl_drops (ha : e.lineAddr t .load va = some a) : ∃ u, exec (.l2invl t ⟨0, ra, 0⟩) s = .next u ∧
    (u = s.withDev { e with krv := u.dev.krv } ∧ u.dev.thr t = (s.dev.thr t).advance (isAtl t)) ∧
      u.dev.krv.l2 = s.dev.krv.l2.filter (fun l => decide (l.base ≠ l2Base a)) := by
  have hthreads := tlbFill_threads s.dev t va
  have hl2 := tlbFill_l2 s.dev t va
  rw [hfill] at hthreads hl2
  rw [exec_l2invl, ← hl2]
  exact ⟨_, atl_ok ht hr hatl hsuper rfl (d' := e.l2Drop (fun l => decide (l.base = l2Base a))) (by dsimp only; rw [hva, hfill, ha])
    (thr_of_krv hthreads t), retired_went rfl hthreads, List.filter_congr fun l _ => decide_not.symm⟩

theorem exec_l2clnl_cleans (ha : e.lineAddr t .load va = some a) : ∃ u, exec (.l2clnl t ⟨0, ra, 0⟩) s = .next u ∧
    u.dev.thr t = (s.dev.thr t).advance true ∧
      u.dev.krv.l2 = s.dev.krv.l2.map (fun l => if l.base = l2Base a then { l with dirty := false } else l) := by
  obtain ⟨hl2, hthr⟩ := l2CleanLine_keeps e (l2Base a) t
  rw [← hfill, tlbFill_l2, hfill] at hl2
  rw [← hfill, tlbFill_thr, hfill] at hthr
  rw [exec_l2clnl]
  exact ⟨_, atl_ok ht hr hatl hsuper rfl (d' := e.l2CleanLine (l2Base a)) (by dsimp only; rw [hva, hfill, ha]; rfl) hthr,
    (retire_thr _ _).trans (by rw [hthr, hatl]), hl2⟩

end

section

variable (hatl : isAtl t = true) (hsuper : (s.dev.thr t).super = true)
include hatl hsuper

theorem exec_l2flush_empties : ∃ u, exec (.l2flush t ⟨0, 0, 0⟩) s = .next u ∧ u.dev.thr t = (s.dev.thr t).advance true ∧ u.dev.krv.l2 = [] := by
  have hthr : s.dev.l2FlushAll.thr t = s.dev.thr t :=
    thr_of_krv (congrArg Krv.threads (foldl_l2Clean_krv s.dev.krv.l2 s.dev)) t
  rw [exec_l2flush]
  refine ⟨_, atl_ok ht hr hatl hsuper rfl rfl hthr, (retire_thr _ _).trans (by rw [hthr, hatl]), ?_⟩
  exact List.filter_eq_nil_iff.mpr fun l _ => Bool.false_ne_true

/-- tlbinv leaves the entries that its fn does not name. -/
theorem tlbinvCmd_left {f : R3} {fn : Nat} {gone : Nat → Nat → TlbEntry → Bool} {keep : TlbEntry → Bool}
    (hf : (decide (f.rd.toNat = 0 ∧ f.rb.toNat = 0) && (decide (fn ≠ 0) || decide (f.ra.toNat = 0))) = true)
    (hkeep : ∀ e, (!gone ((s.dev.thr t).g f.ra.toNat).toNat (fld (s.dev.thr t).asid 7 0) e) = keep e) :
    runDev (isThread t) (tlbinvCmd t f fn gone) s = .next (s.withDev (({ s.dev with krv := { s.dev.krv with
      tlb := tset [] s.dev.krv.tlb t ((s.dev.tlb t).filter keep) } } : Dev).retire t id)) := by
  refine run_issue' hr ht ?effect ?debug
  case effect =>
    dsimp only
    rw [hatl, hf, hsuper, if_neg (by simp), if_neg (by simp), funext hkeep]
  case debug =>
    have hdbg := ready_dbg hr
    exact (retire_dbg rfl).trans hdbg

end

end

/-- Settles O17: each word by the state in which it has run. -/
theorem krovalCaches : Obligations.KrovalCaches := by
  unfold Obligations.KrovalCaches
  intro s t ra ht hr
  refine ⟨?sync, ?dinva, ?iinva, ?dinvl, ?iinvl, ?l2invl, ?l2clnl, ?l2flush⟩
  case sync => exact exec_sync_drains ht hr
  case dinva => exact exec_dinva_drops ht hr
  case iinva => exact exec_iinva_drops ht hr
  case dinvl => exact fun a => exec_dinvl_drops ht hr rfl rfl
  case iinvl => exact fun a => exec_iinvl_drops ht hr rfl rfl
  case l2invl => exact fun ⟨hatl, hsuper⟩ a => exec_l2invl_drops ht hr rfl rfl hatl hsuper
  case l2clnl => exact fun ⟨hatl, hsuper⟩ a => exec_l2clnl_cleans ht hr rfl rfl hatl hsuper
  case l2flush => exact fun ⟨hatl, hsuper⟩ => exec_l2flush_empties ht hr hatl hsuper

/-- Settles O18: each fn by the entries it names. -/
theorem krovalTlb : Obligations.KrovalTlb := by
  unfold Obligations.KrovalTlb
  intro s t ra ht hr hatl hsuper
  refine ⟨?all, ?page, ?asid, ?pageAsid⟩
  case all =>
    rw [exec_tlbinvAll]
    unfold tlbinvAll
    exact tlbinvCmd_left ht hr hatl hsuper rfl fun e => rfl
  case page =>
    rw [exec_tlbinvPage]
    unfold tlbinvPage
    refine tlbinvCmd_left ht hr hatl hsuper rfl fun e => ?_
    simp only [TlbEntry.page, decide_not]
  case asid =>
    rw [exec_tlbinvAsid]
    unfold tlbinvAsid
    refine tlbinvCmd_left ht hr hatl hsuper rfl fun e => ?_
    simp only [decide_not, Bool.decide_and, Bool.decide_eq_false]
  case pageAsid =>
    rw [exec_tlbinvPageAsid]
    unfold tlbinvPageAsid
    refine tlbinvCmd_left ht hr hatl hsuper rfl fun e => ?_
    simp only [TlbEntry.page, decide_not, Bool.decide_and, Bool.decide_or, Bool.decide_eq_true]

end Sys2Proof.Machine
end

section
/-!
SUPPORT. Thread control and the special registers (R82, R109, R119): the state in which each word has run.
-/

namespace Sys2Proof.Machine

/-! Thread control. -/

/-- The registers that thset writes by their sel codes (R109). -/
theorem setSel_written {n : Nat} (h : n ≤ 36) (th : Thread) (v : Word) : th.setSel n v =
    if n < 32 then th.setG n v
    else if n = 32 then { th with pc := v }
    else if n = 33 then { th with flags := v &&& 0xF0000001#32 }
    else if n = 34 then { th with lc := v }
    else if n = 35 then { th with tvb := v &&& 0xFFFFF800#32 }
    else { th with dwin := v &&& 0x1FF#32 } := by
  unfold Thread.setSel
  split
  · rfl
  · interval_cases n <;> rfl

/-- The registers that thget reads by their sel codes (R109). -/
theorem sel_selected {n : Nat} (h : n ≤ 36) (th : Thread) : (th.sel n).getD 0 =
    if n < 32 then th.g n
    else if n = 32 then th.pc
    else if n = 33 then th.flags
    else if n = 34 then th.lc
    else if n = 35 then th.tvb
    else th.dwin := by
  unfold Thread.sel
  split
  · rfl
  · interval_cases n <;> rfl

theorem thStatus_stopped {d : Dev} {u : Nat} (hmine : d.masterManaged u = true) (hrun : (d.thr u).run = .stopped) : d.thStatus u = 0 := by
  unfold Dev.thStatus
  rw [hmine, hrun]
  rfl

/-- A target that runs, or that the Easel manages, is not written, and its status says which it is (R109). -/
theorem thStatus_other {d : Dev} {u : Nat} {st : Word} (h : (d.masterManaged u = false ∧ st = 2) ∨
    (d.masterManaged u = true ∧ (d.thr u).run ≠ .stopped ∧ st = 1)) : d.thStatus u ≠ 0 ∧ wd (d.thStatus u) = st := by
  unfold Dev.thStatus
  rcases h with ⟨hmine, rfl⟩ | ⟨hmine, hrun, rfl⟩
  · rw [hmine]
    exact ⟨(by decide : (2 : Nat) ≠ 0), rfl⟩
  · rw [hmine, Bool.not_true, if_neg Bool.false_ne_true, if_neg hrun]
    exact ⟨by decide, rfl⟩

/-- A master-managed thread is no core's t0. -/
theorem masterManaged_ne {d : Dev} {t u : Nat} (h0 : t % 8 = 0) (h : d.masterManaged u = true) : u ≠ t := by
  unfold Dev.masterManaged thIdx at h
  rw [Bool.and_eq_true, decide_eq_true_eq] at h
  omega

/-- A thread that thgo releases at its pc, under a new task number (R109). -/
def Thread.released (th : Thread) (n : Nat) : Thread := { th.settle th.pc with estat := setBit th.estat 0 false, tid := n }

theorem released_intrap (th : Thread) (n : Nat) : (th.released n).intrap = false := bit_setBit th.estat false (by omega)

section

variable {s : State} {t a : Nat} {rd ra rb : BitVec 5} {fn : BitVec 10} (ht : isThread t = true) (hclu : isAtl t = false) (hr : s.dev.ready t)
  (h0 : t % 8 = 0) (hra : ((s.dev.thr t).g ra.toNat).toNat = a) (ha : a < 8)
include ht hclu hr h0 hra ha

/-- A thread-control word whose effect on the target leaves its own thread's debug state alone, and its answer. -/
theorem thCmd_answers {w : Word} {ok : Bool} {body : Nat → Dev → Dev} {d : Dev} {x : Word} (hok : ok = true)
    (hbody : body (t / 8 * 8 + a) s.dev = d.retire t fun th => th.setG rd.toNat x) (hdbg : (d.thr t).dbg = (s.dev.thr t).dbg) :
    runDev (isThread t) (fun d => thCmd t w ra.toNat ok d body) s = .next (s.withDev (d.retire t fun th => th.setG rd.toNat x)) :=
  th_ok ht hclu hr h0 hra ha hok hbody ((retire_dbg (Thread.setG_dbg _ _ _)).trans (hdbg.trans (ready_dbg hr)))

theorem exec_thset_stopped (hfn : fn.toNat ≤ 36) (hst : s.dev.thStatus (t / 8 * 8 + a) = 0) :
    exec (.thset t ⟨rd, ra, rb, fn⟩) s = .next (s.withDev ((s.dev.setThr (t / 8 * 8 + a)
      ((s.dev.thr (t / 8 * 8 + a)).setSel fn.toNat ((s.dev.thr t).g rb.toNat))).retire t fun th => th.setG rd.toNat 0)) := by
  rw [exec_thset]
  refine thCmd_answers ht hclu hr h0 hra ha (decide_eq_true hfn) ?_ (thr_set_dbg (setSel_dbg _ _ _))
  dsimp only
  rw [hst, if_pos rfl]
  rfl

theorem exec_thset_other (hfn : fn.toNat ≤ 36) (hst : s.dev.thStatus (t / 8 * 8 + a) ≠ 0) : exec (.thset t ⟨rd, ra, rb, fn⟩) s =
    .next (s.withDev (s.dev.retire t fun th => th.setG rd.toNat (wd (s.dev.thStatus (t / 8 * 8 + a))))) := by
  rw [exec_thset]
  refine thCmd_answers ht hclu hr h0 hra ha (decide_eq_true hfn) ?_ rfl
  dsimp only
  rw [if_neg hst]

theorem exec_thget_reads (hfn : fn.toNat ≤ 36) : exec (.thget t ⟨rd, ra, 0, fn⟩) s = .next (s.withDev (s.dev.retire t fun th =>
    th.setG rd.toNat (if s.dev.thStatus (t / 8 * 8 + a) = 0 then ((s.dev.thr (t / 8 * 8 + a)).sel fn.toNat).getD 0 else 0))) := by
  rw [exec_thget]
  exact thCmd_answers ht hclu hr h0 hra ha (decide_eq_true ⟨hfn, rfl⟩) rfl rfl

theorem exec_thgo_releases (hst : s.dev.thStatus (t / 8 * 8 + a) = 0) (hne : t / 8 * 8 + a ≠ t) : ∃ w, exec (.thgo t ⟨rd, ra, 0, 0⟩) s = .next w ∧
    w.dev.thr (t / 8 * 8 + a) = (s.dev.thr (t / 8 * 8 + a)).released s.dev.nextSeq.1 ∧
    w.dev.thr t = ((s.dev.thr t).setG rd.toNat 0).advance false := by
  have hthr := Dev.thr_setThr_ne s.dev.nextSeq.2 (t / 8 * 8 + a) t ((s.dev.thr (t / 8 * 8 + a)).released s.dev.nextSeq.1) hne.symm
  rw [exec_thgo]
  refine ⟨_, thCmd_answers (rd := rd) (x := 0) ht hclu hr h0 hra ha
    (d := s.dev.nextSeq.2.setThr (t / 8 * 8 + a) ((s.dev.thr (t / 8 * 8 + a)).released s.dev.nextSeq.1))
    (decide_eq_true ⟨rfl, rfl⟩) ?effect (congrArg Thread.dbg hthr), ?target, ?self⟩
  case effect =>
    dsimp only
    rw [hst, if_pos rfl]
    rfl
  case target => exact (Dev.thr_updThr_ne _ _ _ _ hne).trans (Dev.thr_setThr_self _ _ _)
  case self => exact (Dev.thr_updThr_self _ _ _).trans (by rw [hthr, hclu]; rfl)

end

/-- Settles O20: a stopped master-managed target by each word's effect on it, another by its status. -/
theorem krovalThreadControl : Obligations.KrovalThreadControl := by
  unfold Obligations.KrovalThreadControl
  intro s t a rd ra rb fn ht hclu hr h0 hra ha hfn
  dsimp only
  refine ⟨fun hmine hrun => ⟨?write, ?read, ?go⟩, fun st hother => ⟨?noWrite, ?noRead⟩⟩
  case write =>
    rw [exec_thset_stopped ht hclu hr h0 hra ha hfn (thStatus_stopped hmine hrun), setSel_written hfn]
  case read =>
    rw [exec_thget_reads ht hclu hr h0 hra ha hfn, if_pos (thStatus_stopped hmine hrun), sel_selected hfn]
  case go =>
    obtain ⟨w, hw, htarget, hself⟩ := exec_thgo_releases (rd := rd) ht hclu hr h0 hra ha (thStatus_stopped hmine hrun) (masterManaged_ne h0 hmine)
    exact ⟨w, hw, by rw [htarget]; rfl, by rw [htarget]; rfl, by rw [htarget]; rfl, by rw [htarget]; exact released_intrap _ _, hself⟩
  case noWrite =>
    obtain ⟨hst, hanswer⟩ := thStatus_other hother
    rw [exec_thset_other ht hclu hr h0 hra ha hfn hst, hanswer]
  case noRead =>
    obtain ⟨hst, -⟩ := thStatus_other hother
    rw [exec_thget_reads ht hclu hr h0 hra ha hfn, if_neg hst]

/-! Special registers. -/

section

variable {s : State} {t : Nat} (ht : isThread t = true) (hr : s.dev.ready t) {r : BitVec 5}
include ht hr

/-- mfs of a register other than now_lo and now_hi. -/
theorem exec_mfs_reads {fn : BitVec 10} {v : Word} (hlo : fn.toNat ≠ 0x00B) (hhi : fn.toNat ≠ 0x00C)
    (h : (s.dev.thr t).spr t s.clk.count fn.toNat = .value v) :
    exec (.mfs t ⟨r, 0, 0, fn⟩) s = .next (s.retired t fun th => th.setG r.toNat v) :=
  mfs_ok ht hr h (by rw [if_neg hlo, if_neg hhi])

end

theorem spr_super {th : Thread} {t now fn : Nat} {v : Word} (hatl : isAtl t = true) (hsuper : th.super = true)
    (h : th.spr t now fn = if !isAtl t then .fault 1 else if th.super then .value v else .fault 5) : th.spr t now fn = .value v := by
  rw [h, hatl, hsuper]
  rfl

theorem setSpr_super {th x : Thread} {t fn : Nat} {v : Word} (hatl : isAtl t = true) (hsuper : th.super = true)
    (h : th.setSpr t fn v = if !isAtl t then (th, some 1) else if th.super then (x, none) else (th, some 5)) : th.setSpr t fn v = (x, none) := by
  rw [h, hatl, hsuper]
  rfl

/-- tvb is written on a cluster core, or in supervisor mode (R82). -/
theorem setSpr_tvb {th : Thread} {t : Nat} (h : isAtl t = false ∨ isAtl t = true ∧ th.super = true) (v : Word) :
    th.setSpr t 3 v = ({ th with tvb := v &&& 0xFFFFF800#32 }, none) := by
  have hpriv : (isAtl t && !th.super) = false := by
    rcases h with hclu | ⟨-, hsuper⟩
    · rw [hclu]
      rfl
    · rw [hsuper]
      exact Bool.and_false _
  exact if_neg (by rw [hpriv]; exact Bool.false_ne_true)

/-- sstatus keeps s set in supervisor mode, and of the rest its low bits are written (R119). -/
theorem setSpr_sstatus {th : Thread} {t : Nat} (hatl : isAtl t = true) (hsuper : th.super = true) (v : Word) :
    th.setSpr t 0x100 v = ({ th with sstatus := wd (v.toNat % 16 / 2 * 2 + 1) }, none) := by
  refine (setSpr_super (x := { th with sstatus := wd (v.toNat % 16 / 2 * 2 + b2n th.super) }) hatl hsuper rfl).trans ?_
  rw [hsuper]
  rfl

/-- The id register's fields (R82). -/
theorem idWord_fields (t : Nat) : idWord t = if isAtl t then wd (0x1F00 + (t - 1536) * 8) else wd (t / 64 * 256 + t / 8 % 8 * 8 + t % 8) := rfl

/-- Settles O21: each register by what spr reads of it and setSpr writes. -/
theorem krovalSpecialRegisters : Obligations.KrovalSpecialRegisters := by
  unfold Obligations.KrovalSpecialRegisters
  intro s t r ht hr
  dsimp only
  refine ⟨⟨?flags, ?lc, ?tcmp, ?tvb, ?epc, ?ecause, ?etval, ?estat, ?ebta, ?rcnt, ?id, fun hclu => ?dwin,
    fun ⟨hatl, hsuper⟩ => ⟨?sstatus, ?ptbr, ?asid⟩, ?nowLo, ?nowHi⟩, ⟨?flagsW, ?lcW, ?tcmpW, fun hpriv => ?tvbW, ?epcW, ?ecauseW, ?etvalW,
    ?estatW, ?ebtaW, ?rcntW, fun hclu => ?dwinW, fun ⟨hatl, hsuper⟩ => ⟨?sstatusW, ?ptbrW, ?asidW⟩⟩⟩
  case flags | lc | tcmp | tvb | epc | ecause | etval | estat | ebta | rcnt => exact exec_mfs_reads ht hr (by decide) (by decide) rfl
  case id => exact exec_mfs_reads ht hr (by decide) (by decide) (congrArg SprAcc.value (idWord_fields t))
  case dwin => exact exec_mfs_reads ht hr (by decide) (by decide) (if_neg (by rw [hclu]; exact Bool.false_ne_true))
  case sstatus | ptbr | asid => exact exec_mfs_reads ht hr (by decide) (by decide) (spr_super hatl hsuper rfl)
  case nowLo => exact mfs_ok ht hr rfl rfl
  case nowHi => exact mfs_ok ht hr rfl rfl
  case flagsW | lcW | tcmpW | epcW | ecauseW | etvalW | estatW | ebtaW | rcntW => exact mts_ok ht hr rfl rfl
  case tvbW => exact mts_ok ht hr (setSpr_tvb hpriv _) rfl
  case dwinW => exact mts_ok ht hr (if_neg (by rw [hclu]; exact Bool.false_ne_true)) rfl
  case sstatusW => exact mts_ok ht hr (setSpr_sstatus hatl hsuper _) rfl
  case ptbrW | asidW => exact mts_ok ht hr (setSpr_super hatl hsuper rfl) rfl

end Sys2Proof.Machine
end

section
/-!
SUPPORT. Waits and the Atelier timers (R110, R122, R502).
-/

namespace Sys2Proof.Machine

/-- What wt leaves once its lock address is in the TLB: the deadline is set, and the wait ends at once with the reason or lasts. -/
def Dev.wtLeft (d : Dev) (now t : Nat) (f : RFmt) : Dev :=
  let th := d.thr t
  let ra := (th.g f.ra.toNat).toNat
  let op := th.g f.rb.toNat
  let th := { th with deadline := BitVec.ofNat 64 (now + ra) }
  let ended := fun (reason : Word) => d.setThr t ((th.setG f.rd.toNat reason).advance (isAtl t))
  if d.waitEvent t f.fn.toNat op then ended 1
  else if ra = 0 then ended 0
  else d.setThr t { th with run := .waiting f.fn.toNat op f.rd.toNat }

theorem wtLeft_dbg (d : Dev) (now t : Nat) (f : RFmt) : ((d.wtLeft now t f).thr t).dbg = (d.thr t).dbg := by
  unfold Dev.wtLeft
  dsimp only
  split_ifs
  · rw [Dev.thr_setThr_self, Thread.advance_dbg, Thread.setG_dbg]
  · rw [Dev.thr_setThr_self, Thread.advance_dbg, Thread.setG_dbg]
  · rw [Dev.thr_setThr_self]

theorem exec_wt_left {s : State} {t : Nat} {f : RFmt} (ht : isThread t = true) (hr : s.dev.ready t) (hkind : f.fn.toNat < 3)
    (hrb : f.fn.toNat = 0 → f.rb.toNat = 0) :
    exec (.wt t f) s = .next (s.withDev
      ((if f.fn.toNat = 1 then s.dev.tlbFill t ((s.dev.thr t).g f.rb.toNat).toNat else s.dev).wtLeft s.clk.count t f)) := by
  rw [exec_wt]
  refine run_issue' hr ht (legal_true _ _ _ _ (decide_eq_true ⟨hkind, hrb⟩)) ((wtLeft_dbg _ _ _ _).trans ?_)
  rw [apply_ite (fun d => Dev.thr d t), tlbFill_thr, ite_self, ready_dbg hr]

theorem waitDeadline_ends {d : Dev} {now t k rd : Nat} {op : Word} (hrun : (d.thr t).run = .waiting k op rd) (hdue : (d.thr t).deadline.toNat ≤ now) :
    waitDeadline now t d = d.setThr t
      ((({ d.thr t with run := .running } : Thread).setG rd (if d.waitEvent t k op then 1 else 0)).advance (isAtl t)) := by
  unfold waitDeadline Dev.endWait
  dsimp only
  rw [hrun]
  exact if_pos hdue

/-- A timer that is reached, and has not been, makes its core's line 4 pending (R502). -/
theorem atelierTimer_hits {d : Dev} {count k : Nat}
    (hdue : (d.reg (Reg.ATL_TIMER k 0)).toNat + 2 ^ 32 * (d.reg (Reg.ATL_TIMER k 1)).toNat ≤ count) (hnew : d.mgt.timerHit.testBit k = false) :
    (atelierTimer count k d).intLine k 4 = true ∧ atelierTimer count k d = { d with mgt := (atelierTimer count k d).mgt } := by
  have hhit : atelierTimer count k d =
      { d with mgt := { d.mgt with timers := d.mgt.timers ||| 2 ^ k, timerHit := d.mgt.timerHit ||| 2 ^ k } } :=
    if_pos ⟨hdue, by rw [hnew]; rfl⟩
  rw [hhit]
  refine ⟨?_, rfl⟩
  show (d.mgt.timers ||| 2 ^ k).testBit k = true
  rw [Nat.testBit_or, Nat.testBit_two_pow_self, Bool.or_true]

/-- Settles O22: wt by what it leaves, and the two ends of time by theirs. -/
theorem krovalWaits : Obligations.KrovalWaits := by
  unfold Obligations.KrovalWaits
  intro s t rd ra rb kind ht
  dsimp only
  refine ⟨fun hr hkind hrb => ?wt, fun hrun hdue => ?deadline, fun k hk hdue hnew => ?timer⟩
  case wt =>
    rw [exec_wt_left ht hr hkind hrb]
    unfold Dev.wtLeft
    dsimp only
    rw [apply_ite (fun d => Dev.thr d t), tlbFill_thr, ite_self, apply_ite s.withDev, apply_ite s.withDev]
  case deadline =>
    rw [exec_waitDeadline, runDev_ok ht, waitDeadline_ends hrun hdue]
  case timer =>
    obtain ⟨hline, honly⟩ := atelierTimer_hits hdue hnew
    exact ⟨_, (exec_atelierTimer k s).trans (runDev_ok (decide_eq_true hk)), hline, congrArg s.withDev honly⟩

end Sys2Proof.Machine
end

section
/-!
SUPPORT. What completes a thread's words (R73, R74, R98, R113, R123): checks, load data, I-cache fills and interrupts.
-/

namespace Sys2Proof.Machine

section

variable {d : Dev} {t now : Nat}

theorem accessCheckComplete_trap {x : Trap} {r : List Fly} (htxn : d.txnRuns t = true) (hfly : (d.thr t).fly = .trap x :: r) :
    accessCheckComplete now t d = d.takeTrap t x := by
  unfold accessCheckComplete
  rw [htxn, hfly]
  rfl

theorem confirmHead_none (h : ∀ op, (d.thr t).fly.head? ≠ some (.brush op)) (n : Nat) : d.confirmHead now t n = d := by
  cases n with
  | zero => rfl
  | succ n =>
    unfold Dev.confirmHead
    split
    · rename_i op r hfly
      exact absurd (congrArg List.head? hfly) (h op)
    · rfl

/-- A check that passes leaves the words behind it, none of them a brush function that it held back. -/
theorem accessCheckComplete_ok {r : List Fly} (htxn : d.txnRuns t = true) (hfly : (d.thr t).fly = .ok :: r)
    (hhead : ∀ op, r.head? ≠ some (.brush op)) : accessCheckComplete now t d = d.setThr t { d.thr t with fly := r } := by
  unfold accessCheckComplete
  rw [htxn, hfly]
  refine confirmHead_none (d := d.setThr t { d.thr t with fly := r }) (fun op => ?_) (r.length + 1)
  rw [Dev.thr_setThr_self]
  exact hhead op

/-! Load data. -/

theorem ncSync_thr (d : Dev) (t a u : Nat) : (d.ncSync t a).thr u = d.thr u := by
  have hdrain := (drainCore_keep d (coreOf t)).2
  obtain ⟨k, hk, hthreads⟩ := dropDline_krv (d.drainCore (coreOf t)) (coreOf t) (a / 32)
  unfold Dev.dropDline at hk
  refine thr_of_krv ?_ u
  unfold Dev.ncSync
  dsimp only
  rw [hk]
  split
  · exact (congrArg Krv.threads (foldl_l2Clean_krv _ _)).trans (hthreads.trans hdrain)
  · exact hthreads.trans hdrain

theorem semWord_outside {l : Load} (h : l.paddr < semBase ∨ semBase + 0x10000 ≤ l.paddr) : semWord l = false :=
  decide_eq_false (by omega)

/-- The data of a sound uncached load return (R73). -/
theorem loadDataReturn_loads {l : Load} (hload : (d.thr t).load = some l) (hcached : l.cached = false) (htxn : d.txnRuns t = true)
    (hl2 : isAtl t = true → d.l2Bad l.paddr l.size = false) (hsem : l.paddr < semBase ∨ semBase + 0x10000 ≤ l.paddr)
    (hread : d.dramDone (.load t) = some false ∨ d.drc.reqs.any (fun q => decide (q.who = .load t)) = false) :
    loadDataReturn t d = d.loadData t l := by
  have hsound : (isAtl t && d.l2Bad l.paddr l.size) = false := by
    cases hatl : isAtl t with
    | false => rfl
    | true => exact hl2 hatl
  have hgoes : (if isAtl t && d.l2Bad (if false = true then l.paddr / 32 * 32 else l.paddr) (if false = true then 32 else l.size) then
      (d.dramDrop (.load t)).takeTrap t ⟨4, Acc.load.kind, false, l.vaddr⟩ else d.loadData t l) = d.loadData t l := by
    rw [if_neg Bool.false_ne_true, if_neg Bool.false_ne_true, hsound, if_neg Bool.false_ne_true]
  unfold loadDataReturn
  rw [hload]
  dsimp only
  rw [semWord_outside hsem, htxn, if_neg (by decide), hcached]
  rcases hread with hdone | hasked
  · rw [hdone]
    cases d.drc.reqs.any (fun q => decide (q.who = .load t)) <;> exact hgoes
  · rw [hasked]
    exact hgoes

/-- An uncached load of other memory than the semaphores ends with its bytes, DRAM's after the core's earlier stores. -/
theorem loadData_plain {l : Load} (htracked : l.tracked = false) (hcached : l.cached = false)
    (hsem : l.paddr < semBase ∨ semBase + 0x10000 ≤ l.paddr) : let synced := if l.paddr < d.fittedDram then d.ncSync t l.paddr else d
    synced.sramBad l.paddr l.size = false →
      d.loadData t l = synced.endLoad t l (loadVal l.size l.signed (synced.memRead l.paddr l.size)) := by
  intro synced hsound
  unfold Dev.loadData
  dsimp only
  rw [htracked, hcached, if_neg Bool.false_ne_true, if_neg Bool.false_ne_true, if_neg (by omega)]
  exact plainLoad_ok hsound

theorem endLoad_thr (d : Dev) (t : Nat) (l : Load) (v : Word) : (d.endLoad t l v).thr t = ((d.thr t).loaded l v).advance (isAtl t) :=
  Dev.thr_updThr_self _ _ _

/-! I-cache fills. -/

/-- Dating poisoned reads changes nothing that a read of memory looks at. -/
theorem dateUes_reads (d : Dev) (now : Nat) : ∃ n ts f, d.dateUes now =
    { d with drc := { d.drc with ueNew := n, ueTimes := ts }, flt := { d.flt with inbox := f } } := by
  unfold Dev.dateUes
  split
  · exact ⟨_, _, _, rfl⟩
  · refine foldl_inv _ (fun e : Dev => ∃ n ts f, e = { d with drc := { d.drc with ueNew := n, ueTimes := ts }, flt := { d.flt with inbox := f } })
      (fun e c ⟨n, ts, f, he⟩ => ?_) _ _ ⟨_, _, _, rfl⟩
    subst he
    unfold Dev.raiseIf
    dsimp only
    split <;> exact ⟨_, _, _, rfl⟩

theorem sramBad_dateUes (d : Dev) (now a n : Nat) : (d.dateUes now).sramBad a n = d.sramBad a n := by
  obtain ⟨_, _, _, h⟩ := dateUes_reads d now
  rw [h]
  rfl

theorem seeDram_sound {a n : Nat} (h : d.poisoned a n = false) : d.seeDram a n = d := if_pos (.inr (by rw [h]; rfl))

theorem dead_sound {a n : Nat} (h : d.poisoned a n = false) : d.dead a n = false := by
  unfold Dev.dead
  rw [h]
  rfl

/-- A fill of sound memory installs its line (R74). -/
theorem icacheFillDone_installs {l : Nat} {b : Bool} (hclu : isAtl t = false) (hrun : (d.thr t).run = .running) (hclk : d.coreClocked t = true)
    (htxn : d.txnRuns t = true) (hclear : (d.thr t).clear = true) (hmiss : d.fetchHit t = false) (hpc : (d.thr t).pc.toNat % 4 = 0)
    (hline : d.fetchLine t = .ok l b) (hpoison : d.poisoned (32 * l) 32 = false) (hsram : d.sramBad (32 * l) 32 = false) :
    icacheFillDone now t d = { d.dateUes now with krv :=
      { (d.dateUes now).krv with icache := tset none (d.dateUes now).krv.icache (icKey (coreOf t) l) (some l) } } := by
  unfold icacheFillDone
  dsimp only
  rw [if_neg (by simp [hrun, hclk, htxn, hclear, hmiss]), if_neg (by omega), tlbFill_clu hclu, hline]
  dsimp only
  rw [dead_sound hpoison, Bool.and_false, if_neg Bool.false_ne_true, seeDram_sound hpoison, sramBad_dateUes, hsram, if_neg Bool.false_ne_true]

/-! Interrupts. -/

theorem b2n_le (b : Bool) : b2n b ≤ 1 := by cases b <;> decide

/-- What an entry to a handler of an Atelier core saves (R113, R119). -/
theorem trapEntry_settle (th : Thread) (ecause etval : Word) (entry : Nat) : trapEntry th
    ((th.enter true ecause etval 0 false).settle (wd (th.tvb.toNat / 2 ^ 11 * 2 ^ 11 + entry))) true ecause etval entry := by
  have hintrap := estat_tb (b2n false) 0 (b2n (true && th.super)) (b2n (decide (th.repLeft.toNat ≠ 0))) (b2n th.slotDest.isSome)
    (b2n_le _) (by omega) (b2n_le _) (b2n_le _) (b2n_le _) 0 (by omega)
  refine ⟨rfl, rfl, rfl, hintrap.trans ?_, rfl, rfl, rfl, rfl, rfl, rfl, rfl, rfl, rfl, Bool.noConfusion, fun _ => ⟨setSup _, setIe _⟩⟩
  rw [Nat.testBit_zero]
  exact decide_eq_true (by omega)

theorem takeInterrupt_entry (d : Dev) (t n : Nat) :
    trapEntry (d.thr t) ((d.takeInterrupt t n).thr t) true (wd (2 ^ 31 + n % 32)) 0 0x400 := by
  unfold Dev.takeInterrupt
  rw [Dev.thr_setThr_self]
  exact trapEntry_settle _ _ _ _

theorem atelierInterrupt_enters {k n : Nat} (hrun : (d.thr (1536 + k)).run = .running) (hslot : (d.thr (1536 + k)).slot = .none)
    (hclear : (d.thr (1536 + k)).clear = true) (hdbg : (d.thr (1536 + k)).dbg = .none) (hie : bit (d.thr (1536 + k)).sstatus 1 = true)
    (hpend : d.intLine k n = true) (hen : d.rb Reg.ATL_INT_EN n = true) (hclk : d.coreClocked (1536 + k) = true) :
    atelierInterrupt k n d = d.takeInterrupt (1536 + k) n :=
  if_pos (by simp [hrun, hslot, hclear, hdbg, hie, hpend, hen, hclk])

end

/-- Settles O24: each event by the lemma about what it leaves. -/
theorem krovalEvents : Obligations.KrovalEvents := by
  unfold Obligations.KrovalEvents
  intro s t ht htxn
  dsimp only
  refine ⟨fun x r hfly hkind hh => ?trap, fun r hfly hhead => ?passes, fun l hload htracked hcached hsound hl2 hsem hread => ?load,
    fun l b hclu hrun hclk hclear hmiss hpc hline hpoison hsram => ?fill, ?interrupt⟩
  case trap =>
    obtain ⟨hentry, -⟩ := entry_ok hh hkind
    rw [exec_accessCheckComplete, runDev_ok ht, accessCheckComplete_trap htxn hfly]
    exact ⟨_, rfl, trap_only hh, hentry⟩
  case passes =>
    rw [exec_accessCheckComplete, runDev_ok ht, accessCheckComplete_ok htxn hfly hhead]
  case load =>
    rw [exec_loadDataReturn, runDev_ok ht, loadDataReturn_loads hload hcached htxn hl2 hsem hread, loadData_plain htracked hcached hsem hsound]
    refine ⟨_, rfl, rfl, (endLoad_thr _ _ _ _).trans ?_⟩
    rw [apply_ite (fun d => Dev.thr d t), ncSync_thr, ite_self]
  case fill =>
    obtain ⟨_, _, _, hdate⟩ := dateUes_reads s.dev s.clk.count
    rw [exec_icacheFillDone, runDev_ok ht, icacheFillDone_installs hclu hrun hclk htxn hclear hmiss hpc hline hpoison hsram]
    exact ⟨_, rfl, rfl, thr_of_krv (congrArg (·.krv.threads) hdate) t,
      tget_tset_self none (s.dev.dateUes s.clk.count).krv.icache (icKey (coreOf t) l) (some l)⟩
  case interrupt =>
    rintro k n rfl hk hn hrun hslot hclear hdbg hie hpend hen hclk
    have hwf : (isAtlCore k && isIntLine n) = true := Bool.and_eq_true_iff.mpr ⟨decide_eq_true hk, decide_eq_true (by omega)⟩
    have hentry := takeInterrupt_entry s.dev (1536 + k) n
    rw [Nat.mod_eq_of_lt (by omega : n < 32)] at hentry
    rw [exec_atelierInterrupt, runDev_ok hwf, atelierInterrupt_enters hrun hslot hclear hdbg hie hpend hen hclk]
    exact ⟨_, rfl, onlyThread_setThr _ _ _, hentry⟩

end Sys2Proof.Machine
end

section
/-!
SUPPORT. The words that end a task (R127, R148, R159, R168): what vcommit, vabort and tcont leave of a task with a transaction.
-/

namespace Sys2Proof.Machine

theorem hasTxn_of_task {th : Thread} {k : Task} (htask : th.task = some k) : th.hasTxn = k.hasTxn := by
  unfold Thread.hasTxn
  rw [htask]

theorem txnKey_of_task {th : Thread} {k : Task} (t : Nat) (htask : th.task = some k) (hk : k.hasTxn = true) :
    txnKey t th = some (256 * (t / 64) + k.txn) := by
  unfold txnKey
  rw [htask]
  exact if_pos hk

/-- The transaction of a task whose next word issues is in flight (R108, R149). -/
theorem ready_txn_active {d : Dev} {t n : Nat} (hr : d.ready t) (hkey : txnKey t (d.thr t) = some n) : (d.txn n).phase = .active := by
  obtain ⟨hissue, -, -⟩ := hr
  unfold Dev.issuable Dev.txnRuns at hissue
  rw [hkey] at hissue
  simp only [Bool.and_eq_true, decide_eq_true_eq] at hissue
  obtain ⟨⟨-, hactive⟩, -⟩ := hissue
  exact hactive

theorem active_alive {x : Txn} (h : x.phase = .active) : x.alive = true := by
  unfold Txn.alive
  rw [h]

theorem txn_of_vrn {d e : Dev} (h : d.vrn = e.vrn) (n : Nat) : d.txn n = e.txn n := congrArg (fun v : Vrn => tget Txn.reset v.txns n) h

/-- The device in which a thread has run the last word of its task, and holds no task any more. -/
def Dev.taskOver (d : Dev) (t : Nat) : Dev := (d.updThr t fun th => th.advance false).stopThread t

theorem taskOver_thr (d : Dev) (t : Nat) : ((d.taskOver t).thr t).run = .stopped ∧ ((d.taskOver t).thr t).task = none ∧
    ((d.taskOver t).thr t).dbg = (d.thr t).dbg := by
  obtain ⟨hrun, htask, hdbg⟩ := stopThread_thr (d.updThr t fun th => th.advance false) t
  rw [Dev.thr_updThr_self, Thread.advance_dbg] at hdbg
  exact ⟨hrun, htask, hdbg⟩

theorem taskOver_vrn (d : Dev) (t : Nat) : (d.taskOver t).vrn = d.vrn := stopThread_vrn _ t

/-- What vcommit leaves (R159, R367). -/
def Dev.commitEnds (d : Dev) (t key : Nat) : Dev :=
  ((d.breakHolder (d.holderId t)).updTxn key fun x => { x with phase := .ending }).taskOver t

theorem commitEnds_txn (d : Dev) (t key j : Nat) :
    (d.commitEnds t key).txn j = if j = key then { d.txn key with phase := .ending } else d.txn j := by
  have hkept (i : Nat) : (d.breakHolder (d.holderId t)).txn i = d.txn i := txn_of_vrn (breakHolder_vrn d _) i
  have hset := tget_tset Txn.reset (d.breakHolder (d.holderId t)).vrn.txns key j
    { (d.breakHolder (d.holderId t)).txn key with phase := .ending }
  refine (txn_of_vrn (taskOver_vrn _ t) j).trans (hset.trans ?_)
  rw [hkept]
  exact if_congr Iff.rfl rfl (hkept j)

theorem commitEnds_thr (d : Dev) (t key : Nat) : ((d.commitEnds t key).thr t).run = .stopped ∧ ((d.commitEnds t key).thr t).task = none ∧
    ((d.commitEnds t key).thr t).dbg = (d.thr t).dbg := by
  obtain ⟨hrun, htask, hdbg⟩ := taskOver_thr ((d.breakHolder (d.holderId t)).updTxn key fun x => { x with phase := .ending }) t
  obtain ⟨-, hbreak⟩ := lkuOnly_breakHolder d (d.holderId t)
  exact ⟨hrun, htask, hdbg.trans (hbreak t)⟩

/-- The cause with which vabort aborts a transaction (R168, R176). -/
def vabortCause (x : Txn) : Nat := if x.irrev = .granted then 0xC else 9

/-- The record that tcont of a task with a transaction stores (R127): the fields of the software's record r, the task's own, and
each slot whose completion has arrived filled with its status (R130). -/
def Dev.contRec (d : Dev) (t : Nat) (k : Task) (r : Rec) : Rec :=
  { r with
    ticket := k.ticket, canvas := k.canvas, hasTxn := true, txn := k.txn, tid := (d.thr t).tid
    slots := r.slots.map (fun s => s.map fun y => match (d.tok (tokKey (clusterOf t) y.token)).done with
      | some st => { y with filled := true, status := st }
      | none => y) }

theorem contRec_tokens (d : Dev) (t : Nat) (k : Task) (r : Rec) : (d.contRec t k r).tokens = r.tokens :=
  slots_tokens r.slots _ fun y => by split <;> rfl

/-- The fields of a parsed record that software writes as words, and the one that tells a resume record apart (R126). -/
theorem parseRec_fields {bs : List Byte} {r : Rec} (h : parseRec bs = (r, true)) : r.entry = wd (leAt bs 0 4) ∧
    r.prio = fld (wd (leAt bs 4 4)) 2 0 ∧ r.user = wd (leAt bs 16 4) ∧ r.resume = false := by
  obtain rfl : (parseRec bs).1 = r := congrArg Prod.fst h
  exact ⟨rfl, rfl, rfl, rfl⟩

section

variable {s : State} {t : Nat} (ht : isThread t = true) (hclu : isAtl t = false) (hr : s.dev.ready t)
include ht hclu hr

theorem exec_tend_ends (hno : (s.dev.thr t).hasTxn = false) : exec (.tend t 0) s = .next (s.withDev (s.dev.endTask t)) := by
  obtain ⟨-, -, hdbg, -⟩ := endTask_ok s.dev t
  rw [exec_tend]
  exact end_ok ht hclu hr hno rfl (hdbg.trans (ready_dbg hr))

variable {k : Task} (htask : (s.dev.thr t).task = some k) (hk : k.hasTxn = true)
include htask hk

theorem exec_vcommit_commits : exec (.vcommit t 0) s = .next (s.withDev (s.dev.commitEnds t (256 * (t / 64) + k.txn))) := by
  obtain ⟨-, -, hdbg⟩ := commitEnds_thr s.dev t (256 * (t / 64) + k.txn)
  rw [exec_vcommit]
  refine end_ok ht hclu hr ((hasTxn_of_task htask).trans hk) ?_ (hdbg.trans (ready_dbg hr))
  rw [txnKey_of_task t htask hk]
  rfl

theorem exec_vabort_aborts : exec (.vabort t 0) s = .next (s.withDev (s.dev.abortTxn (256 * (t / 64) + k.txn)
    (vabortCause (s.dev.txn (256 * (t / 64) + k.txn))))) := by
  have hkey := txnKey_of_task t htask hk
  obtain ⟨-, -, hkrv⟩ := abort_ok (cause := vabortCause (s.dev.txn (256 * (t / 64) + k.txn))) (active_alive (ready_txn_active hr hkey))
  rw [exec_vabort]
  refine end_ok ht hclu hr ((hasTxn_of_task htask).trans hk) ?_ ?_
  · rw [hkey]
    rfl
  · rw [thr_of_krv (congrArg Krv.threads hkrv)]
    exact ready_dbg hr

/-- tcont of a sound record that names no token, at an aligned address of the cluster's shared memory. -/
theorem exec_tcont_stores {ra : BitVec 5} {r : Rec} (halign : ((s.dev.thr t).g ra.toNat).toNat % 64 = 0)
    (hown : ((s.dev.thr t).g ra.toNat).toNat < 0x80000)
    (hparse : parseRec (s.dev.ownBytes t ((s.dev.thr t).g ra.toNat).toNat 64) = (r, true)) (htokens : r.tokens = []) :
    exec (.tcont t ⟨0, ra, 0, 0⟩) s = .next (s.withDev ((s.dev.taskOver t).storeRcd (t / 64) k.txn (s.dev.contRec t k r))) := by
  obtain ⟨-, -, hdbg⟩ := taskOver_thr s.dev t
  rw [exec_tcont]
  refine run_issue' hr ht ?_ (hdbg.trans (ready_dbg hr))
  have hread : parseRec (s.dev.memRead (cluBase (clusterOf t) + ((s.dev.thr t).g ra.toNat).toNat) 64) = (r, true) := hparse
  have hstored : (s.dev.contRec t k r).tokens = [] := (contRec_tokens s.dev t k r).trans htokens
  dsimp only
  rw [hclu, if_neg Bool.false_ne_true, if_neg (by simp), if_neg (by simp [halign]), if_pos hown]
  dsimp only
  rw [hread, htask]
  simp only [hk, if_true]
  rw [if_neg (by simp [htokens, distinct])]
  show ((List.foldl _ s.dev (s.dev.contRec t k r).tokens).taskOver t).storeRcd _ _ _ = _
  rw [hstored]
  rfl

end

/-- Settles O23: each word by what it leaves of the thread, its transaction and its record. -/
theorem krovalTaskEnds : Obligations.KrovalTaskEnds := by
  unfold Obligations.KrovalTaskEnds
  intro s t ht hclu hr
  refine ⟨fun hno => ?tend, fun k htask hk => ⟨?vcommit, ?vabort, fun ra r halign hown hparse htokens => ?tcont⟩⟩
  case tend =>
    obtain ⟨hrun, hnone, -, hvrn⟩ := endTask_ok s.dev t
    exact ⟨_, exec_tend_ends ht hclu hr hno, ⟨hrun, hnone⟩, hvrn⟩
  case vcommit =>
    obtain ⟨hrun, hnone, -⟩ := commitEnds_thr s.dev t (256 * (t / 64) + k.txn)
    exact ⟨_, exec_vcommit_commits ht hclu hr htask hk, ⟨hrun, hnone⟩, (commitEnds_txn _ _ _ _).trans (if_pos rfl),
      fun j hj => (commitEnds_txn _ _ _ j).trans (if_neg hj)⟩
  case vabort =>
    have hactive := ready_txn_active hr (txnKey_of_task t htask hk)
    obtain ⟨htxn, haborts, hkrv⟩ := abort_ok (active_alive hactive)
    exact ⟨_, exec_vabort_aborts ht hclu hr htask hk, thr_of_krv (congrArg Krv.threads hkrv) t, congrArg Txn.phase htxn,
      congrArg Txn.ws htxn, congrArg Txn.sig htxn, haborts⟩
  case tcont =>
    obtain ⟨hrun, hnone, -⟩ := taskOver_thr s.dev t
    obtain ⟨hentry, hprio, huser, hresume⟩ := parseRec_fields hparse
    exact ⟨_, _, exec_tcont_stores ht hclu hr htask hk halign hown hparse htokens, ⟨hrun, hnone⟩, rcd_store _ _ _ _,
      hentry, hprio, huser, rfl, rfl, rfl, rfl, hresume⟩

end Sys2Proof.Machine
end

section
/-!
SUPPORT. Brush functions that make one write-set entry in a speculative transaction (R157, R217, R228, R232).
-/

namespace Sys2Proof.Machine

/-- The device with other threads. -/
abbrev Dev.withThreads (d : Dev) (T : Tab Thread) : Dev := { d with krv := { d.krv with threads := T } }

theorem specTxn_of_key {d : Dev} {t k : Nat} (hkey : txnKey t (d.thr t) = some k) (hspec : (d.txn k).irrev ≠ .granted) :
    d.specTxn t = some k := by
  unfold Dev.specTxn
  rw [hkey]
  exact if_neg hspec

theorem meterWaits_none {d : Dev} (hcps : d.vrn.cps = []) (t : Nat) (blk : List Byte) : d.meterWaits t blk = false := by
  unfold Dev.meterWaits
  rw [hcps]
  split <;> rfl

/-- An mtr of a speculative run evaluates its colour at its issue (R337). -/
theorem mtrIssue_speculative {d : Dev} {t k : Nat} (hkey : txnKey t (d.thr t) = some k) (hspec : (d.txn k).irrev ≠ .granted)
    (hcps : d.vrn.cps = []) (now : Nat) (blk : List Byte) : d.mtrIssue now t 3 0 blk = some (d.mtrColour now blk) :=
  if_pos ⟨rfl, rfl, by rw [specTxn_of_key hkey hspec]; rfl, by rw [meterWaits_none hcps]; exact Bool.false_ne_true⟩

theorem mtrColour_on {d : Dev} {blk : List Byte} (now : Nat) (hon : d.meterOn (mtrArgs blk).1 = true) :
    d.mtrColour now blk = some ((d.meter (mtrArgs blk).1).eval now (mtrArgs blk).2.2 (mtrArgs blk).2.1).1 := if_pos hon

/-! What each function does as it is confirmed. -/

section

variable {d : Dev} {t k : Nat} (hkey : txnKey t (d.thr t) = some k) (now : Nat) (blk : List Byte)
include hkey

theorem mtrDo_speculative (hspec : (d.txn k).irrev ≠ .granted) (colour : Nat) : d.mtrDo now t (some (some colour)) blk =
    (wd colour, d.txnEffect now k (.meter (mtrArgs blk).1 (mtrArgs blk).2.2 (mtrArgs blk).2.1 colour)) := by
  unfold Dev.mtrDo Dev.txnEffect
  rw [specTxn_of_key hkey hspec, if_neg hspec]
  rfl

theorem cntDo_txn (hon : d.rb Reg.MTR_CTL 0 = true) :
    d.cntDo now t blk = d.txnEffect now k (.counter (leAt blk 0 4 % 2 ^ 21) (leAt blk 4 4) (leAt blk 8 2)) := by
  unfold Dev.cntDo
  rw [hkey, hon]
  rfl

theorem enqDo_txn : d.enqDo now t blk = d.txnEffect now k (.enq (leAt blk 0 2) (wd (leAt blk 4 4)) (leAt blk 8 1 % 4)) := by
  unfold Dev.enqDo
  rw [hkey]

theorem palDo_txn {fn : Nat} (hargs : fn = 0x10 → let arg := wd (leAt blk 4 4)
      fld arg 7 0 ≠ 0 ∧ fld arg 15 8 < 64 ∧ fld arg 31 16 = 0) :
    d.palDo now t fn blk = (0, d.txnEffect now k (.pal fn (wd (leAt blk 0 4)) (wd (leAt blk 4 4)))) := by
  have hgood : ¬ (fn = 0x10 ∧ (fld (wd (leAt blk 4 4)) 7 0 = 0 ∨ 63 < fld (wd (leAt blk 4 4)) 15 8 ∨ fld (wd (leAt blk 4 4)) 31 16 ≠ 0)) := by
    rintro ⟨hfn, hbad⟩
    obtain ⟨hshares, howner, hrest⟩ := hargs hfn
    omega
  unfold Dev.palDo
  dsimp only
  rw [if_neg hgood, hkey]

end

section

variable {s : State} {t k b fn : Nat} {f : R3} (hkey : txnKey t (s.dev.thr t) = some k) (hspec : (s.dev.txn k).irrev ≠ .granted)
  (hroom : (s.dev.txn k).ws.length < 48) (hcps : s.dev.vrn.cps = [])
include hkey hspec hroom hcps

/-- A function whose effect at its confirmation is one of its transaction's makes that entry (R157). -/
theorem brush_makes_entry {v : Word} {e : WsEntry} (hissues : s.dev.brushes t b fn f) (hb : b < 7) (hc : (brushFn b fn).comp = false)
    (heff : ∀ T, txnKey t ((s.dev.withThreads T).thr t) = some k →
      (s.dev.withThreads T).brushDo s.clk.count t (issuedOp s.dev s.clk.count t b fn f) 0 =
        (v, (s.dev.withThreads T).txnEffect s.clk.count k e)) :
    ∃ u, runDev (isThread t) (brushCmd s.clk.count t b fn f) s = .next u ∧ u.dev.thr t = ((s.dev.thr t).advance false).setG f.rd.toNat v ∧
      u.dev.txn k = { s.dev.txn k with ws := (s.dev.txn k).ws ++ [e] } ∧
      u = s.withDev { s.dev with krv := u.dev.krv, vrn := u.dev.vrn } := by
  refine entry_made hissues hb hc hcps fun T hT => ?_
  have hkeyT : txnKey t ((s.dev.withThreads T).thr t) = some k :=
    (key_same ((congrArg Thread.task hT).trans (advance_task _ _))).trans hkey
  exact (heff T hkeyT).trans (congrArg (Prod.mk v) (push_ok (d := s.dev.withThreads T) hspec hroom))

/-- The Palette functions share one argument: an entry, and 0 in rd. -/
theorem pal_makes_entry (hissues : s.dev.brushes t 5 fn f) (hfn : fn = 0x10 ∨ fn = 0x11 ∨ fn = 0x12 ∨ fn = 0x13)
    (hargs : fn = 0x10 → let arg := wd (leAt (s.dev.brushBlock t 5 fn ((s.dev.thr t).g f.ra.toNat)) 4 4)
      fld arg 7 0 ≠ 0 ∧ fld arg 15 8 < 64 ∧ fld arg 31 16 = 0) : let blk := s.dev.brushBlock t 5 fn ((s.dev.thr t).g f.ra.toNat)
    ∃ u, runDev (isThread t) (brushCmd s.clk.count t 5 fn f) s = .next u ∧ u.dev.thr t = ((s.dev.thr t).advance false).setG f.rd.toNat 0 ∧
      u.dev.txn k = { s.dev.txn k with ws := (s.dev.txn k).ws ++ [.pal fn (wd (leAt blk 0 4)) (wd (leAt blk 4 4))] } ∧
      u = s.withDev { s.dev with krv := u.dev.krv, vrn := u.dev.vrn } := by
  refine brush_makes_entry hkey hspec hroom hcps hissues (by decide) ?_ fun T hkeyT => ?_
  · rcases hfn with rfl | rfl | rfl | rfl <;> rfl
  · refine Eq.trans ?_ (palDo_txn hkeyT s.clk.count _ hargs)
    rcases hfn with rfl | rfl | rfl | rfl <;> rfl

end

/-- Settles O27: each function by what it does as it is confirmed, and the entry that this makes. (`brushEntries` names a
definition of the model.) -/
theorem brushEntriesMade : Obligations.BrushEntries := by
  unfold Obligations.BrushEntries
  intro s t k f hkey hspec hroom hcps
  dsimp only
  refine ⟨fun hissues hon => ?mtr, fun hissues hon => ?cnt, fun hissues => ?enq,
    fun fn hissues => ⟨fun hfn hshares howner hrest => ?pshare, fun hfn => ?pdrop, fun hfn => ?pfree, fun hfn => ?pswap⟩⟩
  case mtr =>
    refine brush_makes_entry hkey hspec hroom hcps hissues (by decide) rfl fun T hkeyT => ?_
    refine Eq.trans ?_ (mtrDo_speculative hkeyT s.clk.count _ hspec _)
    exact congrArg (fun prov => (s.dev.withThreads T).mtrDo s.clk.count t prov _)
      ((mtrIssue_speculative hkey hspec hcps _ _).trans (congrArg some (mtrColour_on _ hon)))
  case cnt =>
    exact brush_makes_entry hkey hspec hroom hcps hissues (by decide) rfl fun T hkeyT =>
      congrArg (Prod.mk 0) (cntDo_txn hkeyT s.clk.count _ hon)
  case enq =>
    exact brush_makes_entry hkey hspec hroom hcps hissues (by decide) rfl fun T hkeyT =>
      congrArg (Prod.mk 0) (enqDo_txn hkeyT s.clk.count _)
  case pshare =>
    subst hfn
    exact pal_makes_entry hkey hspec hroom hcps hissues (by decide) fun _ => ⟨hshares, howner, hrest⟩
  case pdrop | pfree | pswap =>
    subst hfn
    exact pal_makes_entry hkey hspec hroom hcps hissues (by decide) fun hshare => absurd hshare (by decide)

end Sys2Proof.Machine
end

section
/-!
SUPPORT. What the end of a transaction leaves alone (R149, R161, R169, R170, R176): the other transactions, the packets at the
parser, the registers up to VRN_CTL and the fault reports that wait.
-/

namespace Sys2Proof.Machine

/-- Of the transactions only one's slot differs, no register up to VRN_CTL and no packet at the parser does, and reports are only
added. -/
structure endsOnly (key : Nat) (d d' : Dev) : Prop where
  txn : ∀ {j}, j ≠ key → d'.txn j = d.txn j
  reg : ∀ {o}, o ≤ Reg.VRN_CTL → d'.reg o = d.reg o
  inbox : d.flt.inbox <+: d'.flt.inbox
  prs : d'.prs = d.prs

/-- The record of a task that is removed leaves the matching store, with its save slot; where it had taken a victim's thread,
the victim runs on (R149, log entry 143). -/
def Dev.dropRecord (d : Dev) (key : Nat) : Dev :=
  match d.rcd (key / 256) (key % 256) with
  | some r =>
    let d := if r.resume then { d with esl := { d.esl with saves := tset false d.esl.saves (64 * (key / 256) + r.save) false } } else d
    let d := d.setRcd (key / 256) (key % 256) none
    if r.taken then
      (tkeys (fun t (th : Thread) => decide (clusterOf t = key / 256) && !isAtl t && match th.saving with
          | some n => decide (n / 64 = key % 256)
          | none => false) d.krv.threads).foldl
        (fun d t => (d.cancelSave t).updThr t (fun th => { th with saving := none })) d
    else d
  | none => d

theorem removeTask_some {d : Dev} {key t : Nat} (hthread : d.txnThread key = some t) :
    d.removeTask key = ((d.endSave t).stopThread t).dropRecord key := by
  unfold Dev.removeTask
  rw [hthread]
  rfl

theorem removeTask_none {d : Dev} {key : Nat} (hthread : d.txnThread key = none) : d.removeTask key = d.dropRecord key := by
  unfold Dev.removeTask
  rw [hthread]
  rfl

theorem abort_dead {d : Dev} {key cause : Nat} (h : ¬ (d.txn key).alive = true) : d.abortTxn key cause = d := if_neg h

namespace endsOnly

variable {key : Nat} {a b c : Dev}

theorem refl (key : Nat) (d : Dev) : endsOnly key d d := ⟨fun _ => rfl, fun _ => rfl, List.prefix_refl _, rfl⟩

theorem trans (h : endsOnly key a b) (h' : endsOnly key b c) : endsOnly key a c :=
  ⟨fun hj => (h'.txn hj).trans (h.txn hj), fun ho => (h'.reg ho).trans (h.reg ho), h.inbox.trans h'.inbox, h'.prs.trans h.prs⟩

/-- Whatever stands outside the slots, the registers, the reports and the parser is free to differ. -/
theorem same (h : endsOnly key a b) (htxns : c.vrn.txns = b.vrn.txns := by rfl) (hregs : c.regs = b.regs := by rfl)
    (hinbox : c.flt.inbox = b.flt.inbox := by rfl) (hprs : c.prs = b.prs := by rfl) : endsOnly key a c :=
  ⟨fun {j} hj => (congrArg (fun m => tget Txn.reset m j) htxns).trans (h.txn hj),
    fun {o} ho => (congrArg (fun m => Tab.get regReset m o) hregs).trans (h.reg ho), hinbox ▸ h.inbox, hprs.trans h.prs⟩

theorem aborts (h : endsOnly key a b) (l : List (Nat × Nat)) : endsOnly key a { b with vrn := { b.vrn with aborts := l } } := h.same

theorem setTxn (h : endsOnly key a b) (x : Txn) : endsOnly key a (b.setTxn key x) :=
  ⟨fun hj => (b.txn_setTxn_ne _ _ _ hj).trans (h.txn hj), h.reg, h.inbox, h.prs⟩

theorem setReg (h : endsOnly key a b) {o : Nat} (ho : Reg.VRN_CTL < o) (v : Word) : endsOnly key a (b.setReg o v) :=
  ⟨h.txn, fun hp => (b.reg_setReg_ne _ _ _ (by omega)).trans (h.reg hp), h.inbox, h.prs⟩

theorem bump (h : endsOnly key a b) {o : Nat} (ho : Reg.VRN_CTL < o) (n : Nat) : endsOnly key a (b.bump o n) := h.setReg ho _

theorem raise (h : endsOnly key a b) (src x : Nat) : endsOnly key a (b.raise src x) :=
  ⟨h.txn, h.reg, h.inbox.trans (List.prefix_append _ _), h.prs⟩

theorem closed (key : Nat) (d : Dev) : PalClosed (endsOnly key d) where
  store _ _ h := ⟨h.txn, h.reg, h.inbox, h.prs⟩
  pal _ h := ⟨h.txn, h.reg, h.inbox, h.prs⟩
  free _ h := ⟨h.txn, h.reg, h.inbox, h.prs⟩
  raise _ _ h := h.raise _ _
  reg _ ho h := h.setReg (Nat.lt_of_lt_of_le (by decide) ho) _

/-! The lock unit (R359 to R367). -/

theorem endWait (h : endsOnly key a b) (t : Nat) (w : Word) : endsOnly key a (b.endWait t w) := by
  unfold Dev.endWait
  dsimp only
  split
  · exact h.same
  · exact h

theorem wakeLock (h : endsOnly key a b) (addr : Nat) : endsOnly key a (b.wakeLock addr) := by
  refine foldl_inv _ (endsOnly key a) (fun d t hd => ?_) _ _ h
  split
  · exact hd.endWait _ _
  · exact hd

theorem lockReply (h : endsOnly key a b) (t holder code : Nat) : endsOnly key a (b.lockReply t holder code) := by
  unfold Dev.lockReply
  dsimp only
  split
  · split
    · exact h.same
    · exact h
  · exact h

theorem setLock (h : endsOnly key a b) (n : Nat) (l : Lock) : endsOnly key a (b.setLock n l) := h.same

theorem setSem (h : endsOnly key a b) (n : Nat) (l : Sem) : endsOnly key a (b.setSem n l) := h.same

theorem lockEnter (h : endsOnly key a b) (n : Nat) (w : Waiter) : endsOnly key a (b.lockEnter n w) := by
  unfold Dev.lockEnter
  dsimp only
  split
  · exact h.setLock _ _
  · exact (h.setLock _ _).lockReply _ _ _

theorem serveEntry (h : endsOnly key a b) (n : Nat) : endsOnly key a (b.serveEntry n) := by
  induction n generalizing b with
  | zero => exact h
  | succ n ih =>
    unfold Dev.serveEntry
    split
    · exact h
    · split
      · exact ih (h.same.lockEnter _ _)
      · exact h

theorem lockFree (h : endsOnly key a b) (n : Nat) (broken : Bool) : endsOnly key a (b.lockFree n broken) := by
  unfold Dev.lockFree
  dsimp only
  split
  · exact ((h.setLock _ _).lockReply _ _ _).wakeLock _
  · exact ((h.setLock _ _).serveEntry _).wakeLock _

theorem lkuCapture (h : endsOnly key a b) (kind addr holder : Nat) : endsOnly key a (b.lkuCapture kind addr holder) := by
  unfold Dev.lkuCapture
  split
  · exact h.setReg (by decide) _
  · exact ((h.setReg (by decide) _).setReg (by decide) _).setReg (by decide) _

theorem badRelease (h : endsOnly key a b) (addr holder : Nat) : endsOnly key a (b.badRelease addr holder) :=
  ((h.setReg (by decide) _).lkuCapture _ _ _).raise _ _

theorem brokenRelease (h : endsOnly key a b) (addr holder : Nat) : endsOnly key a (b.brokenRelease addr holder) :=
  ((h.setReg (by decide) _).lkuCapture _ _ _).raise _ _

theorem lockRelease (h : endsOnly key a b) (n holder : Nat) : endsOnly key a (b.lockRelease n holder) := by
  unfold Dev.lockRelease
  split
  · exact h.lockFree _ _
  · exact h.badRelease _ _

theorem semWrite (h : endsOnly key a b) (holder off : Nat) : endsOnly key a (b.semWrite holder off) := by
  unfold Dev.semWrite Dev.semRelease
  split
  · split
    · exact h.setSem _ _
    · exact h.badRelease _ _
  · exact h

theorem flushReleases (h : endsOnly key a b) (holder : Nat) : endsOnly key a (b.flushReleases holder) := by
  unfold Dev.flushReleases
  split
  · refine foldl_inv _ (endsOnly key a) (fun d r hd => ?_) _ _ h.same
    split
    · exact hd.semWrite _ _
    · exact hd.lockRelease _ _
  · exact h

theorem breakHeld (h : endsOnly key a b) (holder : Nat) : endsOnly key a (b.breakHeld holder) :=
  foldl_inv _ (endsOnly key a) (fun _ _ hd => (hd.brokenRelease _ _).setSem _ _) _ _
    (foldl_inv _ (endsOnly key a) (fun _ _ hd => (hd.brokenRelease _ _).lockFree _ _) _ _ h)

theorem breakHolder (h : endsOnly key a b) (holder : Nat) : endsOnly key a (b.breakHolder holder) :=
  (h.flushReleases holder).breakHeld holder

/-! The task and its requests (R129, R149, R169). -/

theorem setRcd (h : endsOnly key a b) (n i : Nat) (r : Option Rec) : endsOnly key a (b.setRcd n i r) := h.same

theorem cancelSave (h : endsOnly key a b) (t : Nat) : endsOnly key a (b.cancelSave t) := by
  unfold Dev.cancelSave
  dsimp only
  split
  · exact h
  · split
    · exact h.same
    · exact h.same

theorem stopThread (h : endsOnly key a b) (t : Nat) : endsOnly key a (b.stopThread t) := by
  obtain ⟨l, hwait⟩ := dropWait_is b t
  have hfree : endsOnly key a { b with lku := l } := h.same
  unfold Dev.stopThread
  rw [hwait]
  exact (hfree.cancelSave t).same

theorem endSave (h : endsOnly key a b) (t : Nat) : endsOnly key a (b.endSave t) := by
  unfold Dev.endSave
  split
  · exact (closed key a).memWrite _ _ h
  · exact h

theorem dropRecord (h : endsOnly key a b) (n : Nat) : endsOnly key a (b.dropRecord n) := by
  unfold Dev.dropRecord
  dsimp only
  split
  · next r _ =>
    have hsaves : endsOnly key a (if r.resume then
        { b with esl := { b.esl with saves := tset false b.esl.saves (64 * (n / 256) + r.save) false } } else b) := by
      split
      · exact h.same
      · exact h
    have hrecord := hsaves.setRcd (n / 256) (n % 256) none
    split
    · exact foldl_inv _ (endsOnly key a) (fun _ _ hd => (hd.cancelSave _).same) _ _ hrecord
    · exact hrecord
  · exact h

theorem removeTask (h : endsOnly key a b) (n : Nat) : endsOnly key a (b.removeTask n) := by
  cases hthread : b.txnThread n with
  | none => exact removeTask_none hthread ▸ h.dropRecord n
  | some t => exact removeTask_some hthread ▸ ((h.endSave t).stopThread t).dropRecord n

theorem dropRequests (h : endsOnly key a b) (n : Nat) : endsOnly key a (b.dropRequests n) := h.same

theorem endTxnToks (h : endsOnly key a b) (n : Nat) : endsOnly key a (b.endTxnToks n) :=
  foldl_inv _ (endsOnly key a) (fun _ _ hd => hd.same) _ _ h

/-! Its buffers (R230, R310, R314). -/

theorem freeCiphers (h : endsOnly key a b) (n : Nat) : endsOnly key a (b.freeCiphers n) := by
  refine foldl_inv _ (endsOnly key a) (fun d x hd => ?_) _ _ h.same
  split
  · exact (closed key a).freeBufs _ hd
  · exact hd

theorem release (h : endsOnly key a b) (o : Nat) (x : Word) : endsOnly key a (b.release o x) := (closed key a).release o x h

theorem endIrrevWait (h : endsOnly key a b) (n : Nat) : endsOnly key a (b.endIrrevWait n) := by
  unfold Dev.endIrrevWait
  dsimp only
  split
  · exact (closed key a).freeBuf _ ((closed key a).pal _ ((closed key a).pal _ h))
  · exact (closed key a).pal _ h

theorem dropHdrCell (h : endsOnly key a b) : endsOnly key a (b.dropHdrCell key) := by
  unfold Dev.dropHdrCell
  dsimp only
  split
  · exact ((closed key a).freeBuf _ (h.endIrrevWait key)).setTxn _
  · exact h.endIrrevWait key

/-! Its ticket and its slot (R154, R160, R529). -/

theorem reportHead (h : endsOnly key a b) (n : Nat) : endsOnly key a (b.reportHead n) := by
  unfold Dev.reportHead
  split
  · dsimp only
    split
    · exact h
    · split
      · exact h.same
      · exact h
  · exact h

theorem passTicket (h : endsOnly key a b) (dn ticket : Nat) : endsOnly key a (b.passTicket dn ticket) := by
  have hdom : endsOnly key a (b.setDom dn { b.dom dn with flight := (b.dom dn).flight.erase ticket }) := h.same
  unfold Dev.passTicket
  dsimp only
  split
  · exact (hdom.reportHead dn).same
  · exact hdom

theorem noteNominal (h : endsOnly key a b) (n : Nat) : endsOnly key a (b.noteNominal n) := by
  unfold Dev.noteNominal
  split
  · exact h
  · exact h.same

theorem freeSlot (h : endsOnly key a b) : endsOnly key a (b.freeSlot key) := by
  have hslot := ((h.noteNominal (key / 256)).setTxn Txn.reset)
  unfold Dev.freeSlot
  dsimp only
  refine noteNominal ?_ _
  split
  · exact hslot.same
  · exact hslot.same

/-! The ends themselves. -/

theorem irrevError (h : endsOnly key a b) : endsOnly key a (b.irrevError key) :=
  have hbuffers := ((((h.removeTask key).dropRequests key).endTxnToks key).freeCiphers key).release _ _
  (((hbuffers.dropHdrCell.passTicket _ _).raise _ _).breakHolder _).freeSlot

theorem abortTxn (h : endsOnly key a b) (cause : Nat) : endsOnly key a (b.abortTxn key cause) := by
  by_cases halive : (b.txn key).alive = true
  · have hcounted := ((h.setTxn (txnDead (b.txn key) cause)).endTxnToks key).bump (o := Reg.VRN_ABORT_CNT (cause % 16))
      (by simp only [Reg.VRN_CTL, Reg.VRN_ABORT_CNT]; omega) 1
    rw [abort_eq halive]
    exact hcounted.aborts _
  · rw [abort_dead halive]
    exact h

end endsOnly

end Sys2Proof.Machine
end

section
/-!
SUPPORT. The slot of a transaction when it ends, and the record of its void (R154, R169, R170).
-/

namespace Sys2Proof.Machine

variable {d : Dev} {k : Nat}

theorem noteNominal_vrn (d : Dev) (c : Nat) : (d.noteNominal c).vrn = d.vrn := by
  unfold Dev.noteNominal
  split
  · rfl
  · rfl

theorem freeSlot_txn (d : Dev) (k : Nat) : (d.freeSlot k).txn k = Txn.reset := by
  have hreset := Dev.txn_setTxn_self (d.noteNominal (k / 256)) k Txn.reset
  unfold Dev.freeSlot
  dsimp only
  refine (txn_of_vrn (noteNominal_vrn _ _) k).trans ?_
  split
  · exact hreset
  · exact hreset

/-- What VRN_VOID reports of a transaction and the cause of its void (R170). -/
def voidReport (key cause : Nat) : Report := ⟨Src.vrnVoid, wd (cause * 2 ^ 16 + key % 256 * 2 ^ 8 + key / 256), false⟩

theorem voidTxn_reports (d : Dev) (k cause : Nat) : voidReport k cause ∈ (d.voidTxn k cause).flt.inbox := by
  unfold Dev.voidTxn
  dsimp only
  refine ((((endsOnly.refl k _).breakHolder _).freeSlot).inbox).subset ?_
  rw [raise_inbox]
  exact List.mem_append_right _ (List.mem_singleton_self (voidReport k cause))

theorem voidTxn_txn (d : Dev) (k cause : Nat) : (d.voidTxn k cause).txn k = Txn.reset := freeSlot_txn _ k

theorem abortTxn_phase (halive : (d.txn k).alive = true) (cause : Nat) : ((d.abortTxn k cause).txn k).phase = .aborted cause := by
  obtain ⟨htxn, -⟩ := abort_ok (cause := cause) halive
  rw [htxn]
  rfl

/-! Aborts of the transactions in conflict leave the one that commits (R165). -/

theorem conflicting_ne {gs : List Nat} {u : Nat} (h : u ∈ d.conflicting k gs) : u ≠ k := by
  simp only [Dev.conflicting, tkeys, List.mem_map, List.mem_filter, Bool.and_eq_true, decide_eq_true_eq] at h
  obtain ⟨e, ⟨-, ⟨hne, -⟩, -⟩, rfl⟩ := h
  exact hne

theorem abortConflicts_txn (d : Dev) (k cause : Nat) (gs : List Nat) : (d.abortConflicts k cause gs).txn k = d.txn k := by
  refine List.foldlRecOn (motive := fun e : Dev => e.txn k = d.txn k) _ _ rfl fun e he u hu => ?_
  split
  · exact he
  · exact (((endsOnly.refl u e).abortTxn cause).txn (conflicting_ne hu).symm).trans he

end Sys2Proof.Machine
end

section
/-!
SUPPORT. The commit of the transaction at its domain's head (R160 to R166, R210, R310, R541): which of its checks decides, and
what each outcome leaves of its slot.
-/

namespace Sys2Proof.Machine

/-! What a commit leaves of its slot. -/

theorem commitDiscard_txn (d : Dev) (now k : Nat) (bounds : Bool) : (d.commitDiscard now k bounds).txn k = Txn.reset := freeSlot_txn _ k

theorem commitApply_txn (d : Dev) (now k : Nat) (cell : Word) (img : List Byte) :
    let x := d.txn k
    let own := x.entries.filter (fun e => e.enqOf x.handle)
    (own = [] → (d.commitApply now k cell img).txn k = Txn.reset) ∧
    (own ≠ [] → (d.commitApply now k cell img).txn k = { x with
      phase := .committing, ws := [], sig := 0, handle := cell, pktLen := leAt img 0xC0 2, recirc := wd (leAt img 0xFC 4),
      enqs := own, hdrCell := none }) := by
  intro x own
  unfold Dev.commitApply
  dsimp only
  refine ⟨fun hown => ?_, fun hown => ?_⟩
  · rw [if_pos hown]
    exact freeSlot_txn _ k
  · rw [if_neg hown]
    exact Dev.txn_setTxn_self _ _ _

theorem headerCell_vrn {d e : Dev} {x : Txn} {cell : Word} (h : d.headerCell x = some (cell, e)) : e.vrn = d.vrn := by
  unfold Dev.headerCell at h
  split at h
  · cases h
    rfl
  · obtain ⟨_, _, _, _, _, _, hkeep⟩ := palOnly_alloc h
    rw [show e = _ from hkeep]

/-! Its checks. -/

/-- A transaction in commit wait at its domain's head, neither held nor in front of a full commit buffer (R160, R161, R185). -/
structure atCommit (d : Dev) (k : Nat) : Prop where
  waits : (d.txn k).phase = .commitWait
  head : (d.dom (d.txn k).domain).flight.head? = some (d.txn k).ticket
  free : d.commitHeld (d.txn k) = false
  fits : d.vrn.cbuf.length + wsStores (d.txn k).entries ≤ 1024

/-- Where the working Canvas of a transaction lies (R190). -/
abbrev Dev.commitAddr (d : Dev) (k : Nat) : Nat := cluBase (k / 256) + canvasVa (k % 256) (d.txn k).work

/-- The working Canvas of a transaction. -/
abbrev Dev.commitImg (d : Dev) (k : Nat) : List Byte := d.memRead (d.commitAddr k) 256

/-- A Canvas's header and length lie within what the packet has (R210). -/
abbrev Dev.inBounds (d : Dev) (k : Nat) : Prop :=
  (byteAt (d.commitImg k) 0xC3).toNat ≤ (byteAt (d.commitImg k) 0xC4).toNat ∧ (byteAt (d.commitImg k) 0xC4).toNat ≤ 0xC0 ∧
    (d.txn k).skip ≤ leAt (d.commitImg k) 0xC0 2 ∧ leAt (d.commitImg k) 0xC0 2 ≤ (d.txn k).skip + d.payloadLen k

/-- A protected transaction stands in the way of a commit's stores (R165). -/
abbrev Dev.clashes (d : Dev) (k : Nat) : Prop := ∃ u ∈ d.conflicting k (wsGrans (d.txn k).entries), (d.txn u).guarded = true

/-- What a commit that neither aborts nor discards its packet does, by its header cell (R163, R310). -/
def Dev.commitByCell (d : Dev) (now k : Nat) : Dev :=
  if d.pal.irrevWait.contains k && (d.txn k).hdrCell.isNone then d
  else match d.headerCell (d.txn k) with
    | some (cell, e) => (e.abortConflicts k 1 (wsGrans (d.txn k).entries)).commitApply now k cell (d.commitImg k)
    | none =>
      if (d.txn k).irrev = .granted then { d with pal := { d.pal with irrevWait := d.pal.irrevWait ++ [k] } }
      else d.abortTxn k 8

section

variable {d : Dev} {k now : Nat} (hready : atCommit d k)
include hready

theorem atCommit_goes : ¬ ((d.txn k).phase ≠ .commitWait ∨ (d.dom (d.txn k).domain).flight.head? ≠ some (d.txn k).ticket ∨
    d.commitHeld (d.txn k) = true ∨ 1024 < d.vrn.cbuf.length + wsStores (d.txn k).entries) := by
  obtain ⟨hwaits, hhead, hfree, hfits⟩ := hready
  simp [hwaits, hhead, hfree, hfits]

theorem atCommit_alive : (d.txn k).alive = true := by
  unfold Txn.alive
  rw [hready.waits]

theorem atCommit_aborts (cause : Nat) : ((d.abortTxn k cause).txn k).phase = .aborted cause :=
  abortTxn_phase (atCommit_alive hready) cause

/-- An uncorrectable Canvas of a speculative run (R541). -/
theorem varnishCommit_bad (hbad : d.sramBad (d.commitAddr k) 256 = true) (hspec : (d.txn k).irrev ≠ .granted) :
    varnishCommit now k d = d.abortTxn k 5 := by
  unfold varnishCommit
  dsimp only
  rw [if_neg (atCommit_goes hready), if_pos hbad]
  exact if_neg hspec

variable (hsound : d.sramBad (d.commitAddr k) 256 = false)
include hsound

theorem varnishCommit_recoloured (hmeters : d.metersHold now (d.txn k).entries = false) : varnishCommit now k d = d.abortTxn k 3 := by
  unfold varnishCommit
  dsimp only
  rw [if_neg (atCommit_goes hready), hsound, hmeters]
  rfl

variable (hmeters : d.metersHold now (d.txn k).entries = true)
include hmeters

theorem varnishCommit_clashes (hclash : d.clashes k) : varnishCommit now k d = d.abortTxn k 1 := by
  unfold varnishCommit
  dsimp only
  rw [if_neg (atCommit_goes hready), hsound, hmeters, List.any_eq_true.mpr hclash]
  rfl

variable (hclear : ¬ d.clashes k)
include hclear

theorem varnishCommit_discards (hwhy : (d.txn k).discard ≠ 0 ∨ ¬ d.inBounds k ∨ d.quarantined (d.txn k).handle = true) :
    varnishCommit now k d = (d.abortConflicts k 1 (wsGrans (d.txn k).entries)).commitDiscard now k (!decide (d.inBounds k)) := by
  unfold varnishCommit
  dsimp only
  rw [if_neg (atCommit_goes hready), hsound, hmeters, if_neg Bool.false_ne_true, if_neg (by decide),
    if_neg (mt List.any_eq_true.mp hclear), if_pos]
  simpa only [Bool.not_eq_true', decide_eq_false_iff_not] using hwhy

variable (hkept : (d.txn k).discard = 0) (hin : d.inBounds k) (hwhole : d.quarantined (d.txn k).handle = false)
include hkept hin hwhole

theorem varnishCommit_kept : varnishCommit now k d = d.commitByCell now k := by
  unfold varnishCommit
  dsimp only
  rw [if_neg (atCommit_goes hready), hsound, hmeters, if_neg Bool.false_ne_true, if_neg (by decide),
    if_neg (mt List.any_eq_true.mp hclear), if_neg]
  · rfl
  · simp [hkept, hin, hwhole]

theorem varnishCommit_keeps_waiting (hwaits : k ∈ d.pal.irrevWait) (hnone : (d.txn k).hdrCell = none) : varnishCommit now k d = d := by
  rw [varnishCommit_kept hready hsound hmeters hclear hkept hin hwhole]
  unfold Dev.commitByCell
  rw [hnone, List.contains_iff_mem.mpr hwaits]
  rfl

theorem varnishCommit_waits (hnew : k ∉ d.pal.irrevWait) (hcell : d.headerCell (d.txn k) = none) (hgrant : (d.txn k).irrev = .granted) :
    varnishCommit now k d = { d with pal := { d.pal with irrevWait := d.pal.irrevWait ++ [k] } } := by
  rw [varnishCommit_kept hready hsound hmeters hclear hkept hin hwhole]
  unfold Dev.commitByCell
  rw [if_neg (by simp [hnew]), hcell]
  exact if_pos hgrant

theorem varnishCommit_noCell (hnew : k ∉ d.pal.irrevWait) (hcell : d.headerCell (d.txn k) = none) (hspec : (d.txn k).irrev ≠ .granted) :
    varnishCommit now k d = d.abortTxn k 8 := by
  rw [varnishCommit_kept hready hsound hmeters hclear hkept hin hwhole]
  unfold Dev.commitByCell
  rw [if_neg (by simp [hnew]), hcell]
  exact if_neg hspec

theorem varnishCommit_applies {cell : Word} {e : Dev} (hfree : k ∉ d.pal.irrevWait ∨ (d.txn k).hdrCell ≠ none)
    (hcell : d.headerCell (d.txn k) = some (cell, e)) :
    varnishCommit now k d = (e.abortConflicts k 1 (wsGrans (d.txn k).entries)).commitApply now k cell (d.commitImg k) := by
  have hgoes : ¬ (d.pal.irrevWait.contains k && (d.txn k).hdrCell.isNone) = true := by
    simpa [← imp_iff_not_or] using hfree
  rw [varnishCommit_kept hready hsound hmeters hclear hkept hin hwhole]
  unfold Dev.commitByCell
  rw [if_neg hgoes, hcell]

/-- What a commit whose header cell is there leaves of its slot: enqueues of the packet's handle wait for their hand-off, and
without one the slot is free (R161). -/
theorem varnishCommit_applies_txn {cell : Word} {e : Dev} (hfree : k ∉ d.pal.irrevWait ∨ (d.txn k).hdrCell ≠ none)
    (hcell : d.headerCell (d.txn k) = some (cell, e)) :
    let x := d.txn k
    let own := x.entries.filter (fun e => e.enqOf x.handle)
    (own = [] → (varnishCommit now k d).txn k = Txn.reset) ∧
    (own ≠ [] → (varnishCommit now k d).txn k = { x with
      phase := .committing, ws := [], sig := 0, handle := cell, pktLen := leAt (d.commitImg k) 0xC0 2,
      recirc := wd (leAt (d.commitImg k) 0xFC 4), enqs := own, hdrCell := none }) := by
  have hsame : (e.abortConflicts k 1 (wsGrans (d.txn k).entries)).txn k = d.txn k :=
    (abortConflicts_txn _ _ _ _).trans (txn_of_vrn (headerCell_vrn hcell) k)
  have happly := commitApply_txn (e.abortConflicts k 1 (wsGrans (d.txn k).entries)) now k cell (d.commitImg k)
  rw [hsame] at happly
  rw [varnishCommit_applies hready hsound hmeters hclear hkept hin hwhole hfree hcell]
  exact happly

end

end Sys2Proof.Machine
end

section
/-!
SUPPORT. Aborts at the Easel (R149, R170 to R174) and the end of the Canvas's background copy (R171).
-/

namespace Sys2Proof.Machine

/-- The device once an abort has reached the Easel and ended the task and its requests, before the void, the rerun or the second
parse that its cause asks for (R149). -/
def Dev.abortClears (d : Dev) (now key cause : Nat) : Dev :=
  let d := if cause = 5 then d.countErr now (256 * 256 + key / 256) Src.cluErrLimit (key / 256) else d
  (({ d with vrn := { d.vrn with aborts := d.vrn.aborts.filter (fun e => decide (e.1 ≠ key)) } } : Dev).removeTask key).dropRequests key

/-- What a transaction's rerun makes of its slot (R171, R172). -/
def Txn.rerun (x : Txn) (irrev : Irrev) : Txn :=
  { x with phase := .active, work := 1 - x.work, copying := true, ws := [], sig := 0, newGran := 0, irrev := irrev }

variable {d e : Dev} {k now cause : Nat}

theorem countErr_ends (h : endsOnly k d e) (key limit unit : Nat) : endsOnly k d (e.countErr now key limit unit) := by
  unfold Dev.countErr Dev.raiseIf
  dsimp only
  split
  · exact h.same.raise _ _
  · exact h.same

theorem abortClears_ends (d : Dev) (now k cause : Nat) : endsOnly k d (d.abortClears now k cause) := by
  have hcounted : endsOnly k d (if cause = 5 then d.countErr now (256 * 256 + k / 256) Src.cluErrLimit (k / 256) else d) := by
    split
    · exact countErr_ends (endsOnly.refl k d) _ _ _
    · exact endsOnly.refl k d
  exact ((hcounted.aborts _).removeTask k).dropRequests k

theorem rerunIrrev_of_ends (h : endsOnly k d e) (x : Txn) (cause : Nat) : e.rerunIrrev x cause = d.rerunIrrev x cause := by
  unfold Dev.rerunIrrev
  rw [rf_of_reg (h.reg (Nat.le_refl _))]

theorem noteEligible_txn (d : Dev) (k : Nat) : d.noteEligible.txn k = d.txn k := rfl

section

variable (hphase : (d.txn k).phase = .aborted cause) (hcopied : (d.txn k).copying = false)
include hphase hcopied

theorem abortAtEasel_voids (hcause : cause = 0xC) : abortAtEasel now k d = (d.abortClears now k cause).voidTxn k cause := by
  unfold abortAtEasel
  dsimp only
  rw [hphase]
  dsimp only
  rw [hcopied, if_neg Bool.false_ne_true, if_pos hcause]
  rfl

theorem abortAtEasel_rereads (hcause : cause = 0xA) : abortAtEasel now k d =
    let e := (d.abortClears now k cause).freeCiphers k
    let u := e.breakHolder (0x8000 + k / 256 * 256 + k % 256)
    ({ u with prs := { u.prs with rereads := u.prs.rereads ++
      [(k, { d.txn k with irrev := if e.rerunIrrev (d.txn k) cause = true then .waits else .spec })] } } : Dev).freeSlot k := by
  unfold abortAtEasel
  dsimp only
  rw [hphase]
  dsimp only
  rw [hcopied, if_neg Bool.false_ne_true, if_neg (by omega : ¬ cause = 0xC), if_pos hcause]
  unfold Dev.abortClears
  dsimp only

theorem abortAtEasel_leaves (hcause : cause = 0xA) : (abortAtEasel now k d).txn k = Txn.reset ∧
    (abortAtEasel now k d).prs.rereads = d.prs.rereads ++
      [(k, { d.txn k with irrev := if d.rerunIrrev (d.txn k) cause = true then .waits else .spec })] := by
  have hends := (abortClears_ends d now k cause).freeCiphers k
  rw [abortAtEasel_rereads hphase hcopied hcause]
  dsimp only
  generalize (d.abortClears now k cause).freeCiphers k = e at hends
  refine ⟨freeSlot_txn _ k, ?_⟩
  rw [((endsOnly.refl k _).freeSlot).prs, (hends.breakHolder _).prs, rerunIrrev_of_ends hends]

/-- The record that a rerun leaves in the matching store (R171). -/
def rerunRec (x : Txn) (k : Nat) : Rec :=
  { entry := x.entry, prio := x.prio, ticket := wd x.ticket, canvas := wd (canvasVa (k % 256) (1 - x.work)), user := 0, hasTxn := true,
    txn := k % 256, resume := false, save := 0, slots := [], ready := none, tid := 0, taken := false }

theorem abortAtEasel_restarts (hparse : cause ≠ 0xA) (hvoid : cause ≠ 0xC) : abortAtEasel now k d =
    let e := (d.abortClears now k cause).freeCiphers k
    let img := e.memRead (cluBase (k / 256) + canvasVa (k % 256) (1 - (d.txn k).work)) 256
    let u := (e.memWrite (cluBase (k / 256) + canvasVa (k % 256) (d.txn k).work) img).noteNominal (k / 256)
    ((u.setTxn k ((d.txn k).rerun (if e.rerunIrrev (d.txn k) cause = true then .waits else .spec))).noteEligible.noteNominal
      (k / 256)).storeRcd (k / 256) (k % 256) (rerunRec (d.txn k) k) := by
  unfold abortAtEasel
  dsimp only
  rw [hphase]
  dsimp only
  rw [hcopied, if_neg Bool.false_ne_true, if_neg hvoid, if_neg hparse]
  rfl

theorem abortAtEasel_reruns (hparse : cause ≠ 0xA) (hvoid : cause ≠ 0xC) :
    (abortAtEasel now k d).txn k = (d.txn k).rerun (if d.rerunIrrev (d.txn k) cause = true then .waits else .spec) ∧
    ∃ r, (abortAtEasel now k d).rcd (k / 256) (k % 256) = some r ∧ r.entry = (d.txn k).entry ∧ r.hasTxn = true ∧ r.txn = k % 256 ∧
      r.resume = false := by
  have hends := (abortClears_ends d now k cause).freeCiphers k
  rw [abortAtEasel_restarts hphase hcopied hparse hvoid]
  dsimp only
  generalize (d.abortClears now k cause).freeCiphers k = e at hends
  rw [rerunIrrev_of_ends hends]
  exact ⟨(txn_of_vrn (noteNominal_vrn _ _) k).trans ((noteEligible_txn _ k).trans (Dev.txn_setTxn_self _ _ _)), _,
    rcd_store _ _ _ _, rfl, rfl, rfl, rfl⟩

end

theorem canvasRestoreDone_ends (hcopying : (d.txn k).copying = true) :
    canvasRestoreDone k false d = d.setTxn k { d.txn k with copying := false } := by
  unfold canvasRestoreDone
  dsimp only
  rw [hcopying]
  rfl

theorem canvasRestoreDone_voids (hcopying : (d.txn k).copying = true) (hphase : (d.txn k).phase ≠ .committing) :
    ∃ e : Dev, canvasRestoreDone k true d = e.voidTxn k 5 := by
  unfold canvasRestoreDone
  dsimp only
  rw [hcopying, if_neg (by decide), if_pos (by simpa using hphase)]
  exact ⟨_, rfl⟩

end Sys2Proof.Machine
end

section
/-!
SUPPORT. The irrevocable grant (R173), timing events (R175, R527) and a pool's new count (R316).
-/

namespace Sys2Proof.Machine

variable {d : Dev} {k : Nat}

/-- A transaction first in the queue and eligible stays first. -/
theorem noteEligible_head {r : List Nat} (hwaiters : d.vrn.waiters = k :: r) (heligible : d.eligible (d.txn k) = true) :
    ∃ l, d.noteEligible = { d with vrn := { d.vrn with waiters := k :: l } } := by
  have hfirst : (k :: r).filter (fun k => d.eligible (d.txn k)) = k :: r.filter (fun k => d.eligible (d.txn k)) :=
    List.filter_cons_of_pos heligible
  unfold Dev.noteEligible
  dsimp only
  rw [hwaiters, hfirst]
  exact ⟨_, rfl⟩

theorem irrevocableGrant_given {r : List Nat} (hfree : d.vrn.grant = none) (hwaiters : d.vrn.waiters = k :: r)
    (heligible : d.eligible (d.txn k) = true) : (irrevocableGrant d).vrn.grant = some k ∧
    (irrevocableGrant d).txn k = { d.txn k with irrev := .granted } ∧
    ∀ t, d.txnThread k = some t → (d.thr t).run = .starting → ((irrevocableGrant d).thr t).run = .running := by
  obtain ⟨l, hnote⟩ := noteEligible_head hwaiters heligible
  unfold irrevocableGrant
  rw [hfree, if_neg (by decide), hnote]
  dsimp only
  have hthread : (((({ d with vrn := { d.vrn with grant := some k, waiters := l, holdWait := none } } : Dev).updTxn k
      (fun x => { x with irrev := .granted })).bump64 Reg.VRN_IRREV_CNT_LO 1)).txnThread k = d.txnThread k := rfl
  cases ht : d.txnThread k with
  | none =>
    rw [hthread, ht]
    exact ⟨rfl, Dev.txn_setTxn_self _ _ _, fun t h => by cases h⟩
  | some t =>
    rw [hthread, ht]
    refine ⟨rfl, Dev.txn_setTxn_self _ _ _, fun u hu hstart => ?_⟩
    cases hu
    rw [Dev.thr_updThr_self]
    exact congrArg Thread.run (if_pos hstart)

/-! Timing events. -/

/-- What a timing event does to a transaction in its window (R176, R527). -/
def Dev.lateTxn (d : Dev) (key : Nat) : Dev := if (d.txn key).irrev = .granted then d.irrevError key else d.abortTxn key 4

theorem lateTxn_ends (d : Dev) (k : Nat) : endsOnly k d (d.lateTxn k) := by
  unfold Dev.lateTxn
  split
  · exact (endsOnly.refl k d).irrevError
  · exact (endsOnly.refl k d).abortTxn 4

/-- A transaction whose speculative run a timing event has aborted. -/
def lateAborted (x : Txn) : Prop := x.phase = .aborted 4 ∧ x.irrev ≠ .granted

theorem lateTxn_aborts (hphase : (d.txn k).phase = .active) (hspec : (d.txn k).irrev ≠ .granted) :
    lateAborted ((d.lateTxn k).txn k) := by
  obtain ⟨htxn, -⟩ := abort_ok (cause := 4) (active_alive hphase)
  unfold Dev.lateTxn
  rw [if_neg hspec, htxn]
  exact ⟨rfl, hspec⟩

theorem lateTxn_aborted (h : lateAborted (d.txn k)) (u : Nat) : lateAborted ((d.lateTxn u).txn k) := by
  obtain ⟨hphase, hspec⟩ := h
  by_cases hu : k = u
  · subst hu
    unfold Dev.lateTxn
    rw [if_neg hspec, abort_dead (by unfold Txn.alive; rw [hphase]; exact Bool.false_ne_true)]
    exact ⟨hphase, hspec⟩
  · rw [(lateTxn_ends d u).txn hu]
    exact ⟨hphase, hspec⟩

theorem lateTxns_abort {l : List Nat} (hmem : k ∈ l) (hphase : (d.txn k).phase = .active) (hspec : (d.txn k).irrev ≠ .granted) :
    lateAborted ((l.foldl Dev.lateTxn d).txn k) := by
  induction l generalizing d with
  | nil => cases hmem
  | cons u r ih =>
    by_cases hu : k = u
    · subst hu
      exact foldl_inv _ (fun e : Dev => lateAborted (e.txn k)) (fun _ u he => lateTxn_aborted he u) r _ (lateTxn_aborts hphase hspec)
    · have hsame := (lateTxn_ends d u).txn hu
      exact ih ((List.mem_cons.mp hmem).resolve_left hu) (hsame ▸ hphase) (hsame ▸ hspec)

theorem lateTxns_reg (l : List Nat) {o : Nat} (ho : o ≤ Reg.VRN_CTL) : (l.foldl Dev.lateTxn d).reg o = d.reg o :=
  foldl_inv _ (fun e : Dev => e.reg o = d.reg o) (fun e u he => ((lateTxn_ends e u).reg ho).trans he) l d rfl

/-- The transactions stand, and so does a cluster's count of timing events. -/
def countStands (c : Nat) (d d' : Dev) : Prop := d'.vrn = d.vrn ∧ d'.reg (Reg.PWR_CL_W2 c) = d.reg (Reg.PWR_CL_W2 c)

theorem countStands_setReg {e : Dev} {c o : Nat} (h : countStands c d e) (ho : Reg.PWR_CL_W2 c ≠ o) (v : Word) :
    countStands c d (e.setReg o v) := ⟨h.1, (Dev.reg_setReg_ne _ _ _ _ ho).trans h.2⟩

theorem countStands_glaze {e : Dev} {c : Nat} (h : countStands c d e) (hc : c < 24) (src x : Nat) : countStands c d (e.glaze src x) :=
  countStands_setReg (e := e.raise src x) h (by simp only [Reg.PWR_CL_W2, Reg.ATL_INT_PEND]; omega) _

theorem countStands_setClp {e : Dev} {c : Nat} (h : countStands c d e) (x : ClPwr) : countStands c d (e.setClp c x) := h

theorem clW2_ne_clW3 (c : Nat) : Reg.PWR_CL_W2 c ≠ Reg.PWR_CL_W3 c := by
  simp only [Reg.PWR_CL_W2, Reg.PWR_CL_W3]
  omega

theorem countStands_newWindow {e : Dev} {c : Nat} (h : countStands c d e) : countStands c d (e.newWindow c) :=
  countStands_setReg (countStands_setClp h _) (clW2_ne_clW3 c) _

theorem countStands_loopEvent {e : Dev} {c : Nat} (h : countStands c d e) (hc : c < 24) : countStands c d (e.loopEvent c) := by
  have hcounted : countStands c d (e.bump (Reg.PWR_CL_W3 c) 1) := countStands_setReg h (clW2_ne_clW3 c) _
  unfold Dev.loopEvent
  dsimp only
  split
  · exact countStands_glaze (countStands_newWindow (countStands_setClp hcounted _)) hc _ _
  · exact countStands_setClp hcounted _

/-- A timing event makes the halts of its threads in hold mode ones in abort mode (R553): only threads differ. -/
theorem lateHalts_threads (d : Dev) (ts : List Nat) : ∃ T, ts.foldl (fun (d : Dev) t => d.updThr t (fun th =>
    if th.dbg = .pending false then { th with dbg := .pending true } else th)) d = d.withThreads T :=
  foldl_inv _ (fun e : Dev => ∃ T, e = d.withThreads T) (fun _ _ ⟨_, he⟩ => he ▸ ⟨_, rfl⟩) ts d ⟨_, rfl⟩

/-- The transactions of the threads that a timing event names. -/
def Dev.lateKeys (d : Dev) (c core : Nat) (threads : BitVec 8) : List Nat :=
  (((List.range 8).filter (fun i => threads.getLsbD i)).map (fun i => 64 * c + 8 * core + i)).filterMap (fun t => txnKey t (d.thr t))

theorem mem_lateKeys {c core i : Nat} {threads : BitVec 8} (hi : i < 8) (hbit : threads.getLsbD i = true)
    (hkey : txnKey (64 * c + 8 * core + i) (d.thr (64 * c + 8 * core + i)) = some k) : k ∈ d.lateKeys c core threads :=
  List.mem_filterMap.mpr ⟨_, List.mem_map.mpr ⟨i, List.mem_filter.mpr ⟨List.mem_range.mpr hi, hbit⟩, rfl⟩, hkey⟩

/-- What a timing event leaves once the transactions of its window have ended: its count, and where they apply the cluster's loop and
the report of an event at V_nom (R527, R528, R530). -/
def Dev.countEvent (d : Dev) (c : Nat) (low atNom : Bool) : Dev :=
  let d := d.bump (Reg.PWR_CL_W2 c) 1
  let d : Dev := if low then d.loopEvent c else d
  if atNom then d.glaze Src.gzNominalErr c else d

theorem countEvent_counts (d : Dev) {c : Nat} (hc : c < 24) (low atNom : Bool) : (d.countEvent c low atNom).vrn = d.vrn ∧
    (d.countEvent c low atNom).reg (Reg.PWR_CL_W2 c) = d.reg (Reg.PWR_CL_W2 c) + 1 := by
  have hbumped : countStands c (d.bump (Reg.PWR_CL_W2 c) 1) (d.bump (Reg.PWR_CL_W2 c) 1) := ⟨rfl, rfl⟩
  obtain ⟨hvrn, hreg⟩ : countStands c (d.bump (Reg.PWR_CL_W2 c) 1) (d.countEvent c low atNom) := by
    unfold Dev.countEvent
    cases low with
    | false =>
      cases atNom with
      | false => exact hbumped
      | true => exact countStands_glaze hbumped hc _ _
    | true =>
      cases atNom with
      | false => exact countStands_loopEvent hbumped hc
      | true => exact countStands_glaze (countStands_loopEvent hbumped hc) hc _ _
  exact ⟨hvrn, hreg.trans (reg_bump_one d _)⟩

theorem timingEvent_is {c : Nat} (hclk : d.cluClocked c = true) (core : Nat) (threads : BitVec 8) (ended : List Nat) :
    ∃ T l low atNom, timingEvent c core threads ended d =
      ((d.lateKeys c core threads ++ l).foldl Dev.lateTxn (d.withThreads T)).countEvent c low atNom := by
  obtain ⟨T, hT⟩ := lateHalts_threads d (((List.range 8).filter (fun i => threads.getLsbD i)).map (fun i => 64 * c + 8 * core + i))
  unfold timingEvent
  dsimp only
  rw [hclk, if_neg (by decide), hT]
  exact ⟨T, _, _, _, rfl⟩

theorem timingEvent_aborts {c core i : Nat} {threads : BitVec 8} (ended : List Nat) (hc : c < 24) (hi : i < 8)
    (hclk : d.cluClocked c = true) (hbit : threads.getLsbD i = true)
    (hkey : txnKey (64 * c + 8 * core + i) (d.thr (64 * c + 8 * core + i)) = some k) (hphase : (d.txn k).phase = .active) (hspec : (d.txn k).irrev ≠ .granted) :
    ((timingEvent c core threads ended d).txn k).phase = .aborted 4 ∧
    (timingEvent c core threads ended d).reg (Reg.PWR_CL_W2 c) = d.reg (Reg.PWR_CL_W2 c) + 1 := by
  obtain ⟨T, l, low, atNom, hevent⟩ := timingEvent_is hclk core threads ended
  obtain ⟨hvrn, hreg⟩ := countEvent_counts ((d.lateKeys c core threads ++ l).foldl Dev.lateTxn (d.withThreads T)) hc low atNom
  have hmem : k ∈ d.lateKeys c core threads ++ l := List.mem_append_left _ (mem_lateKeys hi hbit hkey)
  obtain ⟨haborted, -⟩ := lateTxns_abort (d := d.withThreads T) hmem hphase hspec
  have hcount := lateTxns_reg (d := d.withThreads T) (d.lateKeys c core threads ++ l) (o := Reg.PWR_CL_W2 c)
    (by simp only [Reg.PWR_CL_W2, Reg.VRN_CTL]; omega)
  rw [hevent]
  exact ⟨(congrArg Txn.phase (txn_of_vrn hvrn k)).trans haborted, hreg.trans (congrArg (· + 1) hcount)⟩

/-! A pool's new count. -/

theorem palPoolCountWrite_lowers {p : Nat} {v : Word} (r : Req) (hreserves : d.reserves p ≤ fld v 27 0)
    (hcount : fld v 27 0 ≤ d.poolCount p) : palPoolCountWrite r p v d = d.setRf (Reg.PAL_POOL_W3 p) 27 0 (fld v 27 0) := by
  unfold palPoolCountWrite
  dsimp only
  rw [if_neg (Nat.not_lt.mpr hcount), decide_eq_false (Nat.not_lt.mpr hreserves), Bool.and_false, if_neg Bool.false_ne_true]
  unfold Dev.setPoolCount
  dsimp only
  rw [Nat.sub_eq_zero_of_le hcount]
  rfl

end Sys2Proof.Machine
end

section
/-!
SUPPORT. Each command of a transaction by what it leaves.
-/

namespace Sys2Proof.Machine

/-- A command of a transaction slot that runs an operation on it. -/
theorem txn_gives {s : State} {k : Nat} {f : Dev → Dev} {p : Dev → Prop} (htxn : isTxn k = true) (h : p (f s.dev)) :
    ∃ e, runDev (isTxn k) f s = .next (s.withDev e) ∧ p e :=
  ⟨_, runDev_ok htxn, h⟩

theorem commitRequest_enters {d : Dev} {k : Nat} (hending : (d.txn k).phase = .ending) :
    commitRequest k d = d.setTxn k { d.txn k with phase := .commitWait } := if_pos hending

theorem vrnHoldStall_reports {d : Dev} {now : Nat} (h : ∃ y ∈ d.vrn.txns, d.holdsUp now y.1 y.2 = true) :
    vrnHoldStall now d = d.raise Src.vrnHoldStall 0 := if_pos (List.any_eq_true.mpr h)

theorem irrevHeaderCellGrant_grants {d : Dev} {k : Nat} {r : List Nat} {h : Word} {o : Charge} {w : List (Word × Charge)}
    (hwait : d.pal.irrevWait = k :: r) (hcell : d.pal.withheld = (h, o) :: w) : irrevHeaderCellGrant d =
      ({ d with pal := { d.pal with irrevWait := r, withheld := w } } : Dev).setTxn k { d.txn k with hdrCell := some h } := by
  unfold irrevHeaderCellGrant
  rw [hwait, hcell]
  rfl

theorem poolCount_lowered (d : Dev) (p : Nat) (v : Word) : (d.setRf (Reg.PAL_POOL_W3 p) 27 0 (fld v 27 0)).poolCount p = fld v 27 0 :=
  (Dev.rf_setRf_self _ _ _ _ _ (by decide) (by decide)).trans (Nat.mod_eq_of_lt (fld_lt v 27 0))

/-- Settles O57: each event by the lemma about what it leaves of its transaction. -/
theorem transactionsComplete : Obligations.TransactionsComplete := by
  unfold Obligations.TransactionsComplete
  intro s k hk
  have htxn : isTxn k = true := decide_eq_true hk
  dsimp only
  refine ⟨fun hending => ?request, fun hwaits hhead hfree hfits => ?commit, rfl,
    fun cause hphase hcopied => ⟨fun hcause => ?voids, fun hcause => ?rereads, fun hparse hvoid => ?reruns⟩,
    fun hcopying => ⟨?copied, fun hphase => ?copyBad⟩, fun r hfree hwaiters heligible => ?grant,
    fun c core i threads ended hc hcore hi hclk hbit hkey hphase hspec => ?timing, fun hstalls => ?stall,
    fun r p v hp hreset hreserves hcount => ?count, fun r h o w hwait hcell => ?cell⟩
  case request =>
    refine txn_gives htxn ?_
    rw [commitRequest_enters hending]
    exact ⟨Dev.txn_setTxn_self _ _ _, rfl⟩
  case commit =>
    have hready : atCommit s.dev k := ⟨hwaits, hhead, hfree, hfits⟩
    refine ⟨fun hbad hspec => ?bad, fun hsound => ⟨fun hmeters => ?recoloured, fun hmeters =>
      ⟨fun hclash => ?clashes, fun hclear hwhy => ?discards, fun hclear hkept hin hwhole => ⟨fun hwaiting hnone => ?keepsWaiting,
        fun hnew hcell hgrant => ?waits, fun hnew hcell hspec => ?noCell, fun cell u hgoes hcell => ?applies⟩⟩⟩⟩
    case bad =>
      refine txn_gives htxn ?_
      rw [varnishCommit_bad hready hbad hspec]
      exact atCommit_aborts hready 5
    case recoloured =>
      refine txn_gives htxn ?_
      rw [varnishCommit_recoloured hready hsound hmeters]
      exact atCommit_aborts hready 3
    case clashes =>
      refine txn_gives htxn ?_
      rw [varnishCommit_clashes hready hsound hmeters hclash]
      exact atCommit_aborts hready 1
    case discards =>
      refine txn_gives htxn ?_
      rw [varnishCommit_discards hready hsound hmeters hclear hwhy]
      exact commitDiscard_txn _ _ _ _
    case keepsWaiting =>
      rw [exec_varnishCommit, runDev_ok htxn, varnishCommit_keeps_waiting hready hsound hmeters hclear hkept hin hwhole hwaiting hnone]
    case waits =>
      rw [exec_varnishCommit, runDev_ok htxn, varnishCommit_waits hready hsound hmeters hclear hkept hin hwhole hnew hcell hgrant]
    case noCell =>
      refine txn_gives htxn ?_
      rw [varnishCommit_noCell hready hsound hmeters hclear hkept hin hwhole hnew hcell hspec]
      exact atCommit_aborts hready 8
    case applies =>
      refine txn_gives htxn ?_
      obtain ⟨hnone, hsome⟩ := varnishCommit_applies_txn hready hsound hmeters hclear hkept hin hwhole hgoes hcell
      exact ⟨hnone, fun hown => by rw [hsome hown]; exact ⟨rfl, rfl, rfl⟩⟩
  case voids =>
    refine txn_gives htxn ?_
    rw [abortAtEasel_voids hphase hcopied hcause]
    exact ⟨voidTxn_txn _ _ _, voidTxn_reports _ _ _⟩
  case rereads => exact txn_gives htxn (abortAtEasel_leaves hphase hcopied hcause)
  case reruns => exact txn_gives htxn (abortAtEasel_reruns hphase hcopied hparse hvoid)
  case copied =>
    refine txn_gives htxn ?_
    rw [canvasRestoreDone_ends hcopying]
    exact ⟨Dev.txn_setTxn_self _ _ _, rfl⟩
  case copyBad =>
    obtain ⟨e, he⟩ := canvasRestoreDone_voids hcopying hphase
    refine txn_gives htxn ?_
    rw [he]
    exact ⟨voidTxn_txn _ _ _, voidTxn_reports _ _ _⟩
  case grant => exact ⟨_, rfl, irrevocableGrant_given hfree hwaiters heligible⟩
  case timing =>
    exact ⟨_, runDev_ok (Bool.and_eq_true_iff.mpr ⟨decide_eq_true hc, decide_eq_true hcore⟩),
      timingEvent_aborts ended hc hi hclk hbit hkey hphase hspec⟩
  case stall => rw [exec_vrnHoldStall, runDev_ok rfl, vrnHoldStall_reports hstalls]
  case count =>
    refine ⟨_, (exec_palPoolCountWrite r p v s).trans (runDev_ok (decide_eq_true hp)), ?_⟩
    rw [live_on hreset, palPoolCountWrite_lowers r hreserves hcount]
    exact ⟨poolCount_lowered _ _ _, rfl⟩
  case cell =>
    refine ⟨_, (exec_irrevHeaderCellGrant s).trans (runDev_ok rfl), ?_⟩
    rw [irrevHeaderCellGrant_grants hwait hcell]
    exact ⟨Dev.txn_setTxn_self _ _ _, rfl⟩

end Sys2Proof.Machine
end

section
/-!
SUPPORT. Edit and Hash functions (R206 to R208, R224, R227): what each does as it is confirmed, for whatever threads the device
then holds.
-/

namespace Sys2Proof.Machine

/-! Below bsave (0x3FE) and brest (0x3FF) a function is its brush's own (R223). -/

theorem brushDo_edit {d : Dev} {op : BrushOp} (hbrush : op.brush = 0) (hfn : op.fn < 3) (now t token : Nat) :
    d.brushDo now t op token = d.editDo t op.fn op.blk := by
  unfold Dev.brushDo
  dsimp only
  rw [if_neg (by omega), if_neg (by omega), hbrush]
  rfl

theorem brushDo_hash {d : Dev} {op : BrushOp} (hbrush : op.brush = 2) (hfn : op.fn < 4) (now t token : Nat) :
    let r := d.hashDo (clusterOf t) op.fn op.blk
    d.brushDo now t op token = (r.1, d.memWrite (ownAddr t op.rb 8) (leBytes 4 r.1.toNat ++ leBytes 4 r.2)) := by
  unfold Dev.brushDo
  dsimp only
  rw [if_neg (by omega), if_neg (by omega), hbrush]
  rfl

/-- An accepted edit writes the new image at the Canvas and returns 0 (R207, R224). -/
theorem editAt_accepted {d : Dev} {a fn : Nat} {blk m : List Byte} (txn : Option Nat)
    (haccept : editCanvas fn (d.memRead a 256) blk = .ok m) : d.editAt txn a fn blk = (0, d.memWrite a m) := by
  unfold Dev.editAt
  dsimp only
  rw [haccept]

theorem memWrite_withThreads {d : Dev} (hplain : d.plainMem) (T : Tab Thread) (a : Nat) (bs : List Byte) :
    (d.withThreads T).memWrite a bs = { d.withThreads T with mem := putBytes d.mem a bs } :=
  plain_write hplain rfl rfl

/-- Going on to its next word keeps a thread's working Canvas (R155). -/
theorem canvasAddr_advanced {d : Dev} {t : Nat} {T : Tab Thread} (hT : tget Thread.reset T t = (d.thr t).advance false) :
    (d.withThreads T).canvasAddr t = d.canvasAddr t :=
  canvas_same ((congrArg Thread.task hT).trans (advance_task _ _))

section

variable {s : State} {t fn : Nat} {f : R3} (hplain : s.dev.plainMem)
include hplain

/-- An accepted Edit function changes the working Canvas alone and returns 0 (R207, R208, R224). -/
theorem edit_changes_canvas {m : List Byte} (hissues : s.dev.brushes t 0 fn f) (hfn : fn < 3)
    (haccept : editCanvas fn (s.dev.memRead (s.dev.canvasAddr t) 256) (s.dev.brushBlock t 0 fn ((s.dev.thr t).g f.ra.toNat)) = .ok m) :
    ∃ u, runDev (isThread t) (brushCmd s.clk.count t 0 fn f) s = .next u ∧
      (u.dev.thr t = ((s.dev.thr t).advance false).setG f.rd.toNat 0 ∧ u = s.withDev { s.dev with krv := u.dev.krv, mem := u.dev.mem }) ∧
      u.dev.mem = putBytes s.dev.mem (s.dev.canvasAddr t) m := by
  have hshort : (brushFn 0 fn).comp = false := by interval_cases fn <;> rfl
  refine short_ok hissues (by decide) hshort (fun h => absurd h.1 (by decide)) fun T hT => ?_
  have hedit := editAt_accepted (d := s.dev.withThreads T) (txnKey t ((s.dev.withThreads T).thr t)) haccept
  rw [brushDo_edit rfl hfn, Dev.editDo, canvasAddr_advanced hT]
  exact hedit.trans (congrArg (Prod.mk 0) (memWrite_withThreads hplain T _ m))

/-- A Hash function writes its value and status to the result block and returns the value (R227). -/
theorem hash_writes_result (hissues : s.dev.brushes t 2 fn f) (hfn : fn < 4) :
    let r := s.dev.hashDo (clusterOf t) fn (s.dev.brushBlock t 2 fn ((s.dev.thr t).g f.ra.toNat))
    ∃ u, runDev (isThread t) (brushCmd s.clk.count t 2 fn f) s = .next u ∧
      (u.dev.thr t = ((s.dev.thr t).advance false).setG f.rd.toNat r.1 ∧ u = s.withDev { s.dev with krv := u.dev.krv, mem := u.dev.mem }) ∧
      u.dev.mem = putBytes s.dev.mem (ownAddr t ((s.dev.thr t).g f.rb.toNat) 8) (leBytes 4 r.1.toNat ++ leBytes 4 r.2) := by
  intro r
  have hshort : (brushFn 2 fn).comp = false := by interval_cases fn <;> rfl
  refine short_ok hissues (by decide) hshort (fun h => absurd h.1 (by decide)) fun T _ => ?_
  rw [brushDo_hash rfl hfn]
  exact congrArg (Prod.mk r.1) (memWrite_withThreads hplain T _ _)

end

/-- Settles O25: the words of each brush are one function of the brush, which the lemma about that brush covers. -/
theorem brushEditHash : Obligations.BrushEditHash := by
  unfold Obligations.BrushEditHash
  intro s t f hplain
  refine ⟨fun fn m hissues haccept => ⟨?edpush, ?edpop, ?edrw⟩, fun fn hissues => ⟨?hcrc, ?htpz, ?hsum, ?hsupd⟩⟩
  case edpush | edpop | edrw =>
    rintro rfl
    exact edit_changes_canvas hplain hissues (by decide) haccept
  case hcrc | htpz | hsum | hsupd =>
    rintro rfl
    exact hash_writes_result hplain hissues (by decide)

end Sys2Proof.Machine
end

section
/-!
SUPPORT. Brush functions that report completion (R217, R220, R225, R230): their confirmation, and their issue behind a check
that fails.
-/

namespace Sys2Proof.Machine

/-- The device in which a function that reports completion takes effect: its thread has gone on, among the threads T, and its
token is live (R129, R219). -/
abbrev Dev.confirming (d : Dev) (T : Tab Thread) (t token : Nat) : Dev :=
  (d.withThreads T).liveTok (clusterOf t) token ((d.withThreads T).thr t).tid

/-- A thread's rd has a token, which is live (R129, R217); g0 takes no value (R81). -/
def State.tookToken (u : State) (t : Nat) (rd : BitVec 5) (token : Nat) : Prop :=
  (u.dev.thr t).g rd.toNat = (if rd = 0 then 0 else wd token) ∧ (u.dev.tok (tokKey (clusterOf t) token)).live = true ∧
    (u.dev.tok (tokKey (clusterOf t) token)).gen = token / 4096

section

variable {s : State} {t b fn i : Nat} {f : R3}

/-- A function that reports completion, confirmed as it issues: the token is live and in rd, and all else is as its effect
leaves it (R217, R219). -/
theorem completion_issues (hissues : s.dev.brushes t b fn f) (hb : b < 7) (hmeter : b ≠ 3) (hcomp : (brushFn b fn).comp = true)
    (htok : s.dev.assignTok (clusterOf t) ((txnKey t (s.dev.thr t)).map (· % 256)) = some i) {F : Dev → Dev}
    (hdo : ∀ D : Dev, D.brushDo s.clk.count t (issuedOp s.dev s.clk.count t b fn f) (s.dev.tokenOf (clusterOf t) i) =
      (wd (s.dev.tokenOf (clusterOf t) i), F D))
    (hkeeps : ∀ T, tget Thread.reset T t = (s.dev.thr t).advance false →
      let D := s.dev.confirming T t (s.dev.tokenOf (clusterOf t) i)
      (F D).thr t = D.thr t ∧ (F D).esl.toks = D.esl.toks) :
    let token := s.dev.tokenOf (clusterOf t) i
    ∃ T u, tget Thread.reset T t = (s.dev.thr t).advance false ∧
      runDev (isThread t) (brushCmd s.clk.count t b fn f) s = .next u ∧
      (let D := F (s.dev.confirming T t token)
       u.dev.brs = D.brs ∧ u.dev.esl = D.esl ∧ u.dev.mem = D.mem) ∧
      u.dev.thr t = ((s.dev.thr t).advance false).setG f.rd.toNat (wd token) ∧
      (u.dev.tok (tokKey (clusterOf t) token)).live = true ∧ (u.dev.tok (tokKey (clusterOf t) token)).gen = token / 4096 := by
  intro token
  obtain ⟨T, hbase, hT⟩ := base_of (now := s.clk.count) hissues
  have ⟨_, _, hready, _⟩ := hissues
  obtain ⟨hthr, htoks⟩ := hkeeps T hT
  have hthread : (F (s.dev.confirming T t token)).thr t = (s.dev.thr t).advance false := hthr.trans hT
  have htoken : (F (s.dev.confirming T t token)).tok (tokKey (clusterOf t) token) =
      (s.dev.confirming T t token).tok (tokKey (clusterOf t) token) :=
    congrArg (fun m => tget Tok.reset m (tokKey (clusterOf t) token)) htoks
  refine ⟨T, _, hT, brush_tok hissues hb hmeter hcomp htok (v := wd token) (d' := F (s.dev.confirming T t token)) ?_ ?_,
    ⟨rfl, rfl, rfl⟩, ?_, ?_, ?_⟩
  · rw [hbase]
    exact hdo _
  · rw [hthread, Thread.advance_dbg]
    exact ready_dbg hready
  · exact (Dev.thr_updThr_self _ _ _).trans (congrArg (fun th : Thread => th.setG f.rd.toNat (wd token)) hthread)
  · exact (congrArg Tok.live htoken).trans (congrArg Tok.live (Dev.tok_setTok_self _ _ _))
  · exact (congrArg Tok.gen htoken).trans (congrArg Tok.gen (Dev.tok_setTok_self _ _ _))

/-! Below bsave (0x3FE) and brest (0x3FF) a function is its brush's own (R223). -/

theorem brushDo_lookup {d : Dev} {op : BrushOp} (hbrush : op.brush = 1) (hfn : op.fn < 2) (now t token : Nat) :
    d.brushDo now t op token = (wd token, d.lookupDo t op.fn token op.rb op.blk) := by
  unfold Dev.brushDo
  dsimp only
  rw [if_neg (by omega), if_neg (by omega), hbrush]
  rfl

theorem brushDo_cipher {d : Dev} {op : BrushOp} (hbrush : op.brush = 4) (hfn : op.fn < 2) (now t token : Nat) :
    d.brushDo now t op token = (wd token, d.cipherDo t op.fn token op.rb op.blk) := by
  unfold Dev.brushDo
  dsimp only
  rw [if_neg (by omega), if_neg (by omega), hbrush]
  rfl

theorem took_of_thr {u : State} {token : Nat} {th : Thread} (hthr : u.dev.thr t = th.setG f.rd.toNat (wd token))
    (hlive : (u.dev.tok (tokKey (clusterOf t) token)).live = true) (hgen : (u.dev.tok (tokKey (clusterOf t) token)).gen = token / 4096) :
    u.tookToken t f.rd token := ⟨by rw [hthr, g_set_if], hlive, hgen⟩

/-- Going on to its next word keeps a thread's transaction. -/
theorem txnKey_advanced (d : Dev) (t : Nat) : txnKey t ((d.thr t).advance false) = txnKey t (d.thr t) := key_same (advance_task _ _)

/-- A lookup queues at the least loaded engine (R225, R241). -/
theorem lookup_queued (hissues : s.dev.brushes t 1 fn f) (hfn : fn < 2)
    (htok : s.dev.assignTok (clusterOf t) ((txnKey t (s.dev.thr t)).map (· % 256)) = some i) :
    let token := s.dev.tokenOf (clusterOf t) i
    let blk := s.dev.brushBlock t 1 fn ((s.dev.thr t).g f.ra.toNat)
    ∃ u r, runDev (isThread t) (brushCmd s.clk.count t 1 fn f) s = .next u ∧
      u.tookToken t f.rd token ∧
      u.dev.brs.lookups = s.dev.brs.lookups ++ [r] ∧ r.cluster = clusterOf t ∧ r.token = token ∧ r.txn = txnKey t (s.dev.thr t) ∧
      r.table = leAt blk 0 4 % 256 ∧ r.key = slice blk 4 (leAt blk 0 4 / 256 % 128) ∧
      r.result = ownAddr t ((s.dev.thr t).g f.rb.toNat) 48 ∧ r.engine = s.dev.leastEngine ∧
      r.learn = (if fn = 1 then some (leAt blk 0 4 / 65536 % 256) else none) ∧ u.dev.mem = s.dev.mem := by
  intro token blk
  have hcomp : (brushFn 1 fn).comp = true := by interval_cases fn <;> rfl
  obtain ⟨T, u, hT, hrun, ⟨hbrs, hesl, hmem⟩, hthr, hlive, hgen⟩ := completion_issues hissues (by decide) (by decide) hcomp htok
    (fun _ => brushDo_lookup rfl hfn _ _ _) (fun _ _ => ⟨rfl, rfl⟩)
  refine ⟨u, _, hrun, took_of_thr hthr hlive hgen, congrArg Brs.lookups hbrs, rfl, rfl, ?txn, rfl, rfl, rfl, rfl, rfl, hmem⟩
  exact (congrArg (txnKey t) hT).trans (txnKey_advanced s.dev t)

/-- A Cipher function's completion bears one of the statuses of R230. -/
theorem cipher_completes (hissues : s.dev.brushes t 4 fn f) (hfn : fn < 2)
    (htok : s.dev.assignTok (clusterOf t) ((txnKey t (s.dev.thr t)).map (· % 256)) = some i) :
    let token := s.dev.tokenOf (clusterOf t) i
    let w0 := leAt (s.dev.brushBlock t 4 fn ((s.dev.thr t).g f.ra.toNat)) 0 4
    let hdr := fun n => (s.dev.memGet (s.dev.canvasAddr t + n)).toNat
    let inside := hdr 0xC3 ≤ w0 / 2 ^ 16 % 256 ∧ w0 / 2 ^ 16 % 256 < hdr 0xC4 ∧ (txnKey t (s.dev.thr t)).isSome = true
    let sa := s.dev.secAssoc (w0 % 4096)
    ∃ u st, runDev (isThread t) (brushCmd s.clk.count t 4 fn f) s = .next u ∧
      u.tookToken t f.rd token ∧
      u.dev.esl.comps = s.dev.esl.comps ++ [⟨clusterOf t, token, st⟩] ∧
      (sa = none → st = 2) ∧ (sa ≠ none → ¬ inside → st = 4) ∧ (sa ≠ none → inside → st = 0 ∨ st = 3 ∨ (fn = 1 ∧ st = 1)) := by
  intro token w0 hdr inside sa
  have hcomp : (brushFn 4 fn).comp = true := by interval_cases fn <;> rfl
  have hends (T : Tab Thread) := cipher_ok (s.dev.withThreads T) t fn token ((s.dev.withThreads T).thr t).tid
    ((s.dev.thr t).g f.rb.toNat) (s.dev.brushBlock t 4 fn ((s.dev.thr t).g f.ra.toNat)) (by omega)
  obtain ⟨T, u, hT, hrun, ⟨hbrs, hesl, hmem⟩, hthr, hlive, hgen⟩ := completion_issues hissues (by decide) (by decide) hcomp htok
    (fun _ => brushDo_cipher rfl hfn _ _ _) (fun T _ => by
      obtain ⟨D, st, rfl, hD, htoks, -⟩ := hends T
      exact ⟨hD, htoks⟩)
  obtain ⟨D, st, hD, -, -, hcomps, hnone, hout, hin⟩ := hends T
  have hkey : txnKey t ((s.dev.withThreads T).thr t) = txnKey t (s.dev.thr t) := (congrArg (txnKey t) hT).trans (txnKey_advanced s.dev t)
  rw [hkey, canvasAddr_advanced hT] at hout hin
  refine ⟨u, st, hrun, took_of_thr hthr hlive hgen, ?_, hnone, hout, hin⟩
  exact ((congrArg Esl.comps hesl).trans (congrArg (fun d : Dev => d.esl.comps) hD)).trans hcomps

end

end Sys2Proof.Machine
end

section
/-!
SUPPORT. A brush function that issues behind a check that fails (R108, R219, R220): it is queued on its thread and waits.
-/

namespace Sys2Proof.Machine

/-! A table of threads in which one entry is written. -/

theorem tset_of_ne {α : Type} [DecidableEq α] {d : α} {m : Tab α} {k : Nat} {v : α} (h : v ≠ d) : tset d m k v = Tab.put m k v := if_neg h

/-- A count over a table does not tell two values of an entry apart that it counts alike. -/
theorem Tab.foldl_put_congr {α β : Type} {f : β → Nat × α → β} {k : Nat} {v w : α} (h : ∀ n, f n (k, v) = f n (k, w)) (m : Tab α) (n : β) :
    (Tab.put m k v).foldl f n = (Tab.put m k w).foldl f n := by
  induction m generalizing n with
  | nil => exact h n
  | cons e r ih =>
    unfold Tab.put
    split
    · exact congrArg (fun n => r.foldl f n) (h n)
    · split
      · exact congrArg (fun n => (e :: r).foldl f n) (h n)
      · exact ih _

theorem Tab.any_put_congr {α : Type} {p : Nat × α → Bool} {k : Nat} {v w : α} (h : p (k, v) = p (k, w)) (m : Tab α) :
    (Tab.put m k v).any p = (Tab.put m k w).any p := by
  induction m with
  | nil => exact congrArg (· || false) h
  | cons e r ih =>
    unfold Tab.put
    split
    · exact congrArg (· || r.any p) h
    · split
      · exact congrArg (· || (e :: r).any p) h
      · exact congrArg (p e || ·) ih

theorem running_ne_reset {th : Thread} (h : th.run = .running) : th ≠ Thread.reset := by
  rintro rfl
  cases h

/-- A thread one word on, with the words it has issued. -/
def Thread.wordOn (th : Thread) (issued : List Fly) : Thread := { th with pc := th.pc + 4, fly := issued }

section

variable {th : Thread} (hrunning : th.run = .running) (d : Dev) (t : Nat)
include hrunning

theorem tset_wordOn (issued : List Fly) (T : Tab Thread) : tset Thread.reset T t (th.wordOn issued) = Tab.put T t (th.wordOn issued) :=
  tset_of_ne (running_ne_reset (th := th.wordOn issued) hrunning)

/-- Words that are no brush functions enter no brush's queue (R222). -/
theorem brushDepth_wordOn (c b : Nat) :
    (d.setThr t (th.wordOn [.ok, .ok])).brushDepth c b = (d.setThr t (th.wordOn [])).brushDepth c b := by
  unfold Dev.brushDepth Dev.setThr
  dsimp only
  rw [tset_wordOn hrunning, tset_wordOn hrunning, 
    Tab.foldl_put_congr (v := th.wordOn [.ok, .ok]) (w := th.wordOn []) (fun _ => rfl)]

/-- Nor do they hold a token index (R220). -/
theorem assignTok_wordOn (c : Nat) (txn : Option Nat) :
    (d.setThr t (th.wordOn [.ok, .ok])).assignTok c txn = (d.setThr t (th.wordOn [])).assignTok c txn := by
  have htaken (i : Nat) : (d.setThr t (th.wordOn [.ok, .ok])).tokTaken c i = (d.setThr t (th.wordOn [])).tokTaken c i := by
    unfold Dev.tokTaken Dev.setThr
    dsimp only
    rw [tset_wordOn hrunning, tset_wordOn hrunning]
    exact Tab.any_put_congr (v := th.wordOn [.ok, .ok]) (w := th.wordOn []) rfl _
  unfold Dev.assignTok
  simp only [htaken]
  rfl

end

/-- A brush function among its thread's issued words, and the thread gone on to the next. -/
def Dev.queued (d : Dev) (t : Nat) (op : BrushOp) : Dev :=
  (d.updThr t fun th => { th with fly := th.fly ++ [.brush op] }).retire t id

theorem queued_fly (d : Dev) (t : Nat) (op : BrushOp) : ((d.queued t op).thr t).fly = (d.thr t).fly ++ [.brush op] := by
  rw [Dev.queued, Dev.retire, Dev.thr_updThr_self, Dev.thr_updThr_self, id, advance_fly]

theorem confirmHead_checked {d : Dev} {t : Nat} {r : List Fly} (hfly : (d.thr t).fly = .ok :: r) (now fuel : Nat) :
    d.confirmHead now t fuel = d := by
  cases fuel with
  | zero => rfl
  | succ n =>
    unfold Dev.confirmHead
    rw [hfly]

/-- A brush function that issues while an older word of its thread is unchecked waits behind it (R219, R220). -/
theorem brushIssue_waits {d : Dev} {th : Thread} {t b fn now : Nat} {f : R3} {r : List Fly} (hthr : d.thr t = th)
    (hatl : isAtl t = false) (hfly : th.fly = .ok :: r) (hres : (brushFn b fn).res ≠ 0) (hblk : (brushFn b fn).blk = true)
    (hcheck : d.brushCheck t b fn (th.g f.ra.toNat) (th.g f.rb.toNat) = none)
    (hserved : d.rb (Reg.CLU_BRUSH_CTL (clusterOf t)) b = true) (hdepth : d.brushDepth (clusterOf t) b < brushEntries b) (hb : b < 7)
    (htok : (d.assignTok (clusterOf t) ((txnKey t th).map (· % 256))).isSome = true)
    (hlegal : d.brushIllegal t b fn (th.g f.ra.toNat) = false) (hsound : d.sramSound) :
    Dev.brushIssue now t b fn f d = d.queued t (issuedOp d now t b fn f) := by
  subst hthr
  have hfields : ¬ (((brushFn b fn).res = 0 ∧ f.rb.toNat ≠ 0) ∨ ((!(brushFn b fn).blk) = true ∧ f.ra.toNat ≠ 0)) := by simp [hres, hblk]
  have haccepted : ¬ (b = 7 ∨ (!d.rb (Reg.CLU_BRUSH_CTL (clusterOf t)) b) = true ∨ brushEntries b ≤ d.brushDepth (clusterOf t) b ∨
      ((brushFn b fn).comp = true ∧
        (if (brushFn b fn).comp = true then d.assignTok (clusterOf t) ((txnKey t (d.thr t)).map (· % 256)) else none).isNone = true)) := by
    rintro (h | h | h | ⟨hcomp, hnone⟩)
    · omega
    · rw [hserved] at h
      cases h
    · omega
    · rw [if_pos hcomp, ← Option.not_isSome, htok] at hnone
      cases hnone
  unfold Dev.brushIssue
  dsimp only
  rw [hatl, if_neg Bool.false_ne_true, if_neg hfields, hcheck]
  dsimp only
  rw [if_neg haccepted, hlegal, if_neg Bool.false_ne_true, hsound, if_neg Bool.false_ne_true]
  dsimp only
  rw [if_neg Bool.false_ne_true, if_neg Bool.false_ne_true, brushBlock_is]
  exact confirmHead_checked ((queued_fly d t _).trans (congrArg (· ++ [Fly.brush (issuedOp d now t b fn f)]) hfly)) now 1

/-! Behind a check that fails (R108, R220). -/

section

variable {s : State} {t fn : Nat} {f : R3} {x : Trap} (hfly : (s.dev.thr t).fly = [.trap x])
include hfly

/-- The thread as the brush finds it: at the word behind the one that will trap, whose check is not known yet. -/
theorem ahead_of_trap : (s.dev.thr t).ahead = (s.dev.thr t).wordOn [.ok, .ok] := by
  unfold Thread.ahead
  rw [hfly]
  rfl

/-- The device in which that thread's checks are done, as `Dev.runsAhead` reads it. -/
theorem runsAhead_of_trap (hslot : (s.dev.thr t).slot = .none) (hrep : (s.dev.thr t).repLeft = 0)
    (hready : (s.dev.updThr t (·.wordOn [])).ready t) : s.dev.runsAhead t f = true := by
  obtain ⟨hissuable, hbp, hdbg⟩ := hready
  rw [Dev.thr_updThr_self] at hdbg
  have hclear : (s.dev.thr t).clear = false := by simp [Thread.clear, hfly]
  have hahead : s.dev.updThr t (fun th => { th.ahead with fly := [] }) = s.dev.updThr t (·.wordOn []) :=
    congrArg (fun th : Thread => s.dev.setThr t { th with fly := [] }) (ahead_of_trap hfly)
  unfold Dev.runsAhead
  dsimp only
  rw [hahead, hissuable, hbp, hclear, hslot, hrep, show (s.dev.thr t).dbg = .none from hdbg, hfly]
  rfl

/-- A brush function that issues there stays unconfirmed: nothing but its thread's words differs. -/
theorem brushAhead_waits {now b : Nat} {op : BrushOp}
    (hop : ((Dev.brushIssue now t b fn f (s.dev.updThr t Thread.ahead)).thr t).fly = [.ok, .ok, .brush op])
    (hfree : (Dev.brushIssue now t b fn f (s.dev.updThr t Thread.ahead)).free = s.dev.free) :
    Dev.brushAhead now t b fn f s.dev = s.dev.setThr t { s.dev.thr t with fly := [.trap x, .brush op] } := by
  unfold Dev.brushAhead
  dsimp only
  rw [hop, hfree, hfly]
  rfl

/-- A lookup that issues behind a check that fails has its token index and waits; it has no other effect (R220, R225). -/
theorem lookup_waits {j : Nat} (hslot : (s.dev.thr t).slot = .none) (hrep : (s.dev.thr t).repLeft = 0) (hfn : fn < 2)
    (hissues : (s.dev.updThr t (·.wordOn [])).brushes t 1 fn f)
    (htok : (s.dev.updThr t (·.wordOn [])).assignTok (clusterOf t)
      ((txnKey t (s.dev.thr t)).map (· % 256)) = some j) :
    ∃ op : BrushOp, op.tok = some j ∧ op.rd = f.rd.toNat ∧ op.blk = s.dev.brushBlock t 1 fn ((s.dev.thr t).g f.ra.toNat) ∧
      runDev (isThread t) (brushCmd s.clk.count t 1 fn f) s =
        .next (s.withDev (s.dev.setThr t { s.dev.thr t with fly := [.trap x, .brush op] })) := by
  obtain ⟨hthread, hatl, hready, -, -, -, hcheck, hserved, hdepth, hlegal, hsound⟩ := hissues
  have hrunning : (s.dev.thr t).run = .running := by
    obtain ⟨hissuable, -, -⟩ := hready
    rw [Dev.issuable, Dev.thr_updThr_self] at hissuable
    simp only [Bool.and_eq_true, decide_eq_true_eq] at hissuable
    obtain ⟨⟨⟨⟨⟨hrun, -⟩, -⟩, -⟩, -⟩, -⟩ := hissuable
    exact hrun
  rw [Dev.thr_updThr_self] at hcheck hlegal
  obtain ⟨hres, hblk, hcomp⟩ : (brushFn 1 fn).res ≠ 0 ∧ (brushFn 1 fn).blk = true ∧ (brushFn 1 fn).comp = true := by
    interval_cases fn <;> decide
  have hfinds : s.dev.updThr t Thread.ahead = s.dev.setThr t ((s.dev.thr t).wordOn [.ok, .ok]) :=
    congrArg (s.dev.setThr t) (ahead_of_trap hfly)
  have hassigned : (s.dev.setThr t ((s.dev.thr t).wordOn [.ok, .ok])).assignTok (clusterOf t) ((txnKey t (s.dev.thr t)).map (· % 256)) =
      some j := by
    rw [← htok]
    exact assignTok_wordOn hrunning _ _ _ _
  have hwaits : Dev.brushIssue s.clk.count t 1 fn f (s.dev.updThr t Thread.ahead) =
      (s.dev.setThr t ((s.dev.thr t).wordOn [.ok, .ok])).queued t
        (issuedOp (s.dev.setThr t ((s.dev.thr t).wordOn [.ok, .ok])) s.clk.count t 1 fn f) := by
    rw [hfinds]
    refine brushIssue_waits (Dev.thr_setThr_self _ _ _) hatl rfl hres hblk hcheck hserved ?depth (by decide) ?token hlegal hsound
    case depth =>
      rw [brushDepth_wordOn hrunning]
      exact hdepth
    case token => exact congrArg Option.isSome hassigned
  have hahead : brushCmd s.clk.count t 1 fn f s.dev = _ :=
    (if_pos (runsAhead_of_trap hfly hslot hrep hready)).trans (brushAhead_waits hfly
      (by rw [hwaits, queued_fly, Dev.thr_setThr_self]; rfl) (by rw [hwaits]; rfl))
  refine ⟨_, ?tok, rfl, ?blk, by rw [runDev_ok hthread, hahead]⟩
  case tok =>
    rw [← hassigned]
    refine (if_pos hcomp).trans ?_
    rw [Dev.thr_setThr_self]
    rfl
  case blk =>
    show s.dev.brushBlock t 1 fn (((s.dev.setThr t ((s.dev.thr t).wordOn [.ok, .ok])).thr t).g f.ra.toNat) = _
    rw [Dev.thr_setThr_self]
    rfl

end

/-- Settles O28: the words of each brush are one function of the brush, which the lemma about that brush covers. -/
theorem brushCompletions : Obligations.BrushCompletions := by
  unfold Obligations.BrushCompletions
  intro s t i f htok
  refine ⟨fun fn hissues => ⟨?lkup, ?lkupl⟩, fun fn hissues => ⟨?cenc, ?cdec⟩,
    fun x fn j hfly hslot hrep hissues hassigns => ⟨?behind, ?behindl⟩⟩
  case lkup | lkupl =>
    rintro rfl
    exact lookup_queued hissues (by decide) htok
  case cenc | cdec =>
    rintro rfl
    exact cipher_completes hissues (by decide) htok
  case behind | behindl =>
    rintro rfl
    exact lookup_waits hfly hslot hrep (by decide) hissues hassigns

end Sys2Proof.Machine
end

section
/-!
SUPPORT. The Message brush, bsave and brest (R223, R233 to R236): what each function does as it is confirmed.
-/

namespace Sys2Proof.Machine

section

variable {s : State} {t b fn : Nat} {f : R3} {m : Option OpenMsg}

/-- A function that answers 0 and leaves its thread's open message as m. -/
theorem message_issues (hissues : s.dev.brushes t b fn f) (hb : b < 7) (hshort : (brushFn b fn).comp = false) (hmeter : ¬ (b = 3 ∧ fn = 0))
    {F : Tab Thread → Dev}
    (heff : ∀ T, tget Thread.reset T t = (s.dev.thr t).advance false →
      (s.dev.withThreads T).brushDo s.clk.count t (issuedOp s.dev s.clk.count t b fn f) 0 = (0, F T) ∧
      (F T).thr t = { (s.dev.thr t).advance false with msg := m }) :
    ∃ T u, tget Thread.reset T t = (s.dev.thr t).advance false ∧ runDev (isThread t) (brushCmd s.clk.count t b fn f) s = .next u ∧
      u.dev.thr t = ({ (s.dev.thr t).advance false with msg := m } : Thread).setG f.rd.toNat 0 ∧
      u.dev.vrn = (F T).vrn ∧ u.dev.esl = (F T).esl ∧ u.dev.mem = (F T).mem := by
  obtain ⟨T, hT, hrun, hthr⟩ := msg_ok hissues hb hshort hmeter (fun T hT => (heff T hT).2) (fun T hT => (heff T hT).1)
  exact ⟨T, _, hT, hrun, hthr, rfl, rfl, rfl⟩

theorem threadMsg_advanced {d : Dev} {T : Tab Thread} (hT : tget Thread.reset T t = (d.thr t).advance false) :
    ((d.withThreads T).thr t).msg = (d.thr t).msg := (congrArg Thread.msg hT).trans (advance_msg _ _)

/-- A function that changes the open message alone. -/
theorem setMsg_thr {d : Dev} {T : Tab Thread} (hT : tget Thread.reset T t = (d.thr t).advance false) (m : Option OpenMsg) :
    ((d.withThreads T).updThr t fun th => { th with msg := m }).thr t = { (d.thr t).advance false with msg := m } :=
  (Dev.thr_updThr_self _ _ _).trans (congrArg (fun th : Thread => { th with msg := m }) hT)

/-- A function that leaves the thread alone. -/
theorem keepMsg_thr {d : Dev} {T : Tab Thread} (hT : tget Thread.reset T t = (d.thr t).advance false) :
    (d.withThreads T).thr t = { (d.thr t).advance false with msg := (d.thr t).msg } := hT.trans (withMsg _ _).symm

/-- brest loads the Message brush's image and no other (R223). -/
theorem restored_thr {d : Dev} {T : Tab Thread} (hT : tget Thread.reset T t = (d.thr t).advance false) (b : Nat) (m : Option OpenMsg) :
    (if b = 6 then (d.withThreads T).updThr t (fun th => { th with msg := m }) else d.withThreads T).thr t =
      { (d.thr t).advance false with msg := if b = 6 then m else (d.thr t).msg } := by
  by_cases hmessage : b = 6
  · rw [if_pos hmessage, if_pos hmessage]
    exact setMsg_thr hT m
  · rw [if_neg hmessage, if_neg hmessage]
    exact keepMsg_thr hT

end

section

variable {d : Dev} {t : Nat} {blk : List Byte}

theorem mopenDo_opens (hclosed : (d.thr t).msg = none) (hon : d.chanEnabled (leAt blk 0 2 % 2048) = true) :
    d.mopenDo t blk = (0, d.updThr t fun th => { th with msg := some ⟨leAt blk 0 2 % 2048, []⟩ }) := by
  unfold Dev.mopenDo
  dsimp only
  rw [hon, hclosed]
  rfl

theorem mputDo_appends {m : OpenMsg} {n : Nat} (hopen : (d.thr t).msg = some m) (hn : leAt blk 0 1 % 32 = n) (hpos : 0 < n)
    (hroom : m.words.length + n ≤ 16) :
    d.mputDo t blk = (0, d.updThr t fun th => { th with msg := some ⟨m.channel, m.words ++ bytesWords n (blk.drop 4)⟩ }) := by
  unfold Dev.mputDo
  dsimp only
  rw [hopen, hn]
  exact if_neg (by omega)

theorem mcloseDo_txn {m : OpenMsg} {k : Nat} (hopen : (d.thr t).msg = some m) (hkey : txnKey t (d.thr t) = some k) (now : Nat) :
    d.mcloseDo now t = (0, (d.updThr t fun th => { th with msg := none }).txnEffect now k (.msgClose m.channel m.words)) := by
  unfold Dev.mcloseDo
  rw [hopen, hkey]

/-- A post to an active cluster with a free record (R236). -/
theorem postRec_stores {r : Rec} {i : Nat} (hactive : d.cluActive (fld r.user 28 24) = true) (hfree : d.freeRcd (fld r.user 28 24) = some i) :
    d.postRec r = (0, d.storeRcd (fld r.user 28 24) i r) := by
  unfold Dev.postRec
  dsimp only
  rw [hactive, hfree]
  rfl

theorem brestDo_accepts {b : Nat} {m : Option OpenMsg} (haccept : readImage b blk = (true, m)) :
    d.brestDo t b blk = (0, if b = 6 then d.updThr t (fun th => { th with msg := m }) else d) := by
  unfold Dev.brestDo
  rw [haccept]
  rfl

end

/-- Settles O29: each function by what it does as it is confirmed. -/
theorem brushMessages : Obligations.BrushMessages := by
  unfold Obligations.BrushMessages
  intro s t f
  refine ⟨fun hissues hclosed hon => ?mopen, fun m n hissues hopen hn hpos hroom => ?mput,
    fun m k hissues hopen hkey hspec hroom => ?mclose, fun i hissues hactive hfree => ?mpost,
    fun b hb hplain hissues => ?bsave, fun b m hb hissues haccept => ?brest⟩
  case mopen =>
    obtain ⟨T, u, -, hrun, hthr, -⟩ := message_issues hissues (by decide) rfl (by decide) fun T hT =>
      ⟨mopenDo_opens (d := s.dev.withThreads T) ((threadMsg_advanced hT).trans hclosed) hon, setMsg_thr hT _⟩
    exact ⟨u, hrun, hthr⟩
  case mput =>
    obtain ⟨T, u, -, hrun, hthr, -⟩ := message_issues hissues (by decide) rfl (by decide) fun T hT =>
      ⟨mputDo_appends (d := s.dev.withThreads T) ((threadMsg_advanced hT).trans hopen) hn hpos hroom, setMsg_thr hT _⟩
    exact ⟨u, hrun, hthr⟩
  case mclose =>
    obtain ⟨T, u, -, hrun, hthr, hvrn, -⟩ := message_issues hissues (by decide) rfl (by decide) fun T hT =>
      ⟨(mcloseDo_txn (d := s.dev.withThreads T) ((threadMsg_advanced hT).trans hopen)
          ((congrArg (txnKey t) hT).trans ((txnKey_advanced s.dev t).trans hkey)) s.clk.count).trans
        (congrArg (Prod.mk 0) (push_ok (d := (s.dev.withThreads T).updThr t fun th => { th with msg := none }) hspec hroom)),
       setMsg_thr hT _⟩
    exact ⟨u, hrun, hthr, (congrArg (fun v : Vrn => tget Txn.reset v.txns k) hvrn).trans (Dev.txn_setTxn_self _ _ _)⟩
  case mpost =>
    obtain ⟨T, u, -, hrun, hthr, -, hesl, -⟩ := message_issues hissues (by decide) rfl (by decide) fun T hT =>
      ⟨congrArg (fun r : Nat × Dev => (wd r.1, r.2)) (postRec_stores (d := s.dev.withThreads T) hactive hfree), keepMsg_thr hT⟩
    refine ⟨u, _, hrun, hthr, (congrArg (fun e : Esl => tget none e.recs _) hesl).trans (rcd_store _ _ _ _), rfl, rfl, rfl, rfl⟩
  case bsave =>
    have hwellFormed : (isThread t && isBrush b) = isThread t := by rw [isBrush, decide_eq_true hb, Bool.and_true]
    obtain ⟨T, u, hT, hrun, hthr, -, -, hmem⟩ := message_issues hissues hb rfl (fun h => absurd h.2 (by decide)) fun T hT =>
      ⟨congrArg (Prod.mk 0) (memWrite_withThreads hplain T _ _), keepMsg_thr hT⟩
    refine ⟨u, (congrArg (fun ok => runDev ok _ s) hwellFormed).trans hrun, hthr, hmem.trans ?_⟩
    rw [threadMsg_advanced hT]
    rfl
  case brest =>
    have hwellFormed : (isThread t && isBrush b) = isThread t := by rw [isBrush, decide_eq_true hb, Bool.and_true]
    obtain ⟨T, u, -, hrun, hthr, -⟩ := message_issues hissues hb rfl (fun h => absurd h.2 (by decide))
      (m := if b = 6 then m else (s.dev.thr t).msg) fun T hT =>
      ⟨brestDo_accepts (d := s.dev.withThreads T) haccept, restored_thr hT b m⟩
    exact ⟨u, (congrArg (fun ok => runDev ok _ s) hwellFormed).trans hrun, hthr⟩

end Sys2Proof.Machine
end

section
/-!
SUPPORT. mrecv (R235): a receive that waits, and its deadline.
-/

namespace Sys2Proof.Machine

/-- A receive of an enabled channel without a ring waits where no message is there and it has a deadline (R235). -/
theorem mrecvDo_waits {d : Dev} {blk : List Byte} (hon : d.chanEnabled (leAt blk 0 2 % 2048) = true)
    (hring : d.chanRing (leAt blk 0 2 % 2048) = false) (hempty : (d.chan (leAt blk 0 2 % 2048)).lens = []) (hwait : leAt blk 4 4 ≠ 0)
    (now t token : Nat) (rb : Word) :
    d.mrecvDo now t token rb blk = { d with brs := { d.brs with recvs := d.brs.recvs ++
      [{ cluster := clusterOf t, token := token, channel := leAt blk 0 2 % 2048, deadline := now + leAt blk 4 4,
         result := ownAddr t rb 68, txn := txnKey t (d.thr t), gone := false }] } } := by
  have hnone (r : Recv) (hr : r.channel = leAt blk 0 2 % 2048) : d.recvReady r = none := by
    unfold Dev.recvReady
    rw [hr, hempty]
    exact if_neg fun h => Nat.not_lt_zero _ h.1
  unfold Dev.mrecvDo
  dsimp only
  rw [hon, hring, if_neg (by decide), hnone _ rfl]
  exact if_neg hwait

theorem brushDo_mrecv {d : Dev} {op : BrushOp} (hbrush : op.brush = 6) (hfn : op.fn = 3) (now t token : Nat) :
    d.brushDo now t op token = (wd token, d.mrecvDo now t token op.rb op.blk) := by
  unfold Dev.brushDo
  rw [hfn, hbrush]
  rfl

/-- The end of a receive: its result is written and its completion leaves. -/
theorem recvEnd_completes (d : Dev) (r : Recv) (status : Nat) (ws : List Word) :
    (d.recvEnd r status ws).brs = d.brs ∧
      (d.recvEnd r status ws).esl.comps = d.esl.comps ++ [⟨r.cluster, r.token, mrecvWord status ws.length⟩] := by
  have hwrites := palOnly_memWrite d r.result (leBytes 4 (mrecvWord status ws.length).toNat ++ padTo 64 (wordsBytes ws))
  have hbrs := palOnly_brs hwrites
  exact ⟨hbrs, congrArg (fun e : Esl => e.comps ++ [⟨r.cluster, r.token, mrecvWord status ws.length⟩]) (palOnly_esl hwrites)⟩

/-- Settles O30: a receive that finds no message by what `mrecvDo_waits` leaves, its deadline by the end of a receive. -/
theorem brushReceive : Obligations.BrushReceive := by
  unfold Obligations.BrushReceive
  intro s t
  refine ⟨fun f i htok hissues hon hring hempty hwait => ?waits, fun c token r hc htoken hdue hfound => ?deadline⟩
  case waits =>
    have hwaits (T : Tab Thread) := mrecvDo_waits (d := s.dev.confirming T t (s.dev.tokenOf (clusterOf t) i)) hon hring hempty hwait
      s.clk.count t (s.dev.tokenOf (clusterOf t) i) ((s.dev.thr t).g f.rb.toNat)
    obtain ⟨T, u, hT, hrun, ⟨hbrs, -, -⟩, hthr, hlive, -⟩ := completion_issues hissues (by decide) (by decide) rfl htok
      (fun _ => brushDo_mrecv rfl rfl _ _ _)
      (fun T _ => ⟨(congrArg (fun d : Dev => d.thr t) (hwaits T)).trans rfl, (congrArg (fun d : Dev => d.esl.toks) (hwaits T)).trans rfl⟩)
    refine ⟨u, _, hrun, congrArg Brs.recvs (hbrs.trans (congrArg Dev.brs (hwaits T))), rfl, rfl, rfl, rfl, rfl, ?_, hthr, hlive⟩
    exact (congrArg (txnKey t) hT).trans (txnKey_advanced s.dev t)
  case deadline =>
    have hmine := List.find?_some hfound
    obtain ⟨hcluster, hrtoken, -⟩ := of_decide_eq_true hmine
    have hends : mrecvDeadline s.clk.count c token s.dev =
        ({ s.dev with brs := { s.dev.brs with recvs := s.dev.brs.recvs.erase r } } : Dev).recvEnd r 1 [] := by
      unfold mrecvDeadline
      rw [hfound]
    obtain ⟨hbrs, hcomps⟩ := recvEnd_completes { s.dev with brs := { s.dev.brs with recvs := s.dev.brs.recvs.erase r } } r 1 []
    refine ⟨_, runDev_ok (Bool.and_eq_true_iff.mpr ⟨decide_eq_true hc, decide_eq_true htoken⟩), ?_, ?_⟩
    · exact (congrArg (fun d : Dev => d.brs.recvs) hends).trans (congrArg Brs.recvs hbrs)
    · rw [← hcluster, ← hrtoken] at *
      exact (congrArg (fun d : Dev => d.esl.comps) hends).trans hcomps

end Sys2Proof.Machine
end

section
/-!
SUPPORT. A lookup that names no table (R248). Word 0 of FWD_TBL[0x2FF81] would be TCA_HIT_CNT_LO, in which a lookup of a
table in DRAM counts its hits (R458). One count carries into the field that gives the table its type, so that the search and the
learn that it posts hash one key in two ways (R253): a learned-MAC table's as it is, a classifier's with the tuple number in front.
`Obligations.LookupEvents` bounds the table of no lookup; `lookupDo` queues none above 255.
-/

namespace Sys2Proof.Machine

def strayTable : Nat := 0x2FF81

/-- A learning search for a key of 127 zeros. -/
def strayLookup : LkReq :=
  { cluster := 0, token := 5, txn := none, under := none, table := strayTable, key := zeros 127, learn := some 0, bad := false,
    result := cluBase 0, canvas := 0, engine := 15, missed := [] }

/-- The lookup at engine 15. The words read as its table's make it an enabled learned-MAC table of four empty buckets in DRAM, each of its
other fields all ones; its lines are at hand. -/
def strayDev : Dev :=
  let d := (Dev.reset.setReg Reg.FWD_CTL 1).setReg (Reg.FWD_TBL_W0 strayTable) 0xEFFFFFFF
  let d := ((d.setReg (Reg.FWD_TBL_W2 strayTable) 2).setReg (Reg.FWD_TBL_W3 strayTable) 16).setReg (Reg.FWD_TBL_W5 strayTable) 0x20000
  { d with
    brs := { d.brs with lookups := [strayLookup] }
    tca := { d.tca with got := (List.range 32).map fun l => (l, some (zeros 64)) } }

/-- One count makes a classifier of the learned-MAC table. -/
theorem strayTable_counts : Reg.FWD_TBL_W0 strayTable = Reg.TCA_HIT_CNT_LO ∧ strayDev.tType strayTable = 5 ∧
    (strayDev.bump64 Reg.TCA_HIT_CNT_LO 1).tType strayTable = 6 := by decide +kernel

theorem strayLookup_served : (strayDev.brs.lookups.filter (fun r => decide (r.engine = 15) && !strayDev.lookupHeld r)).find?
    (fun r => (strayDev.lookupLines r.table r.key).all strayDev.lineReady) = some strayLookup := by decide +kernel

theorem strayLookup_learns : (strayDev.lookupOut strayLookup).learn = true := by decide +kernel

theorem strayLookup_bucket : (strayDev.buckets strayTable 0 (zeros 127)).1 = 1 := by decide +kernel

theorem strayLookup_posts : (lookupEngineSearch 0 15 strayDev).fwd.posts = [⟨strayTable, zeros 127, 0, 0⟩] := by decide +kernel

theorem strayDev_posts : strayDev.fwd.posts = [] := by decide +kernel

/-- The device that a search leaves is the one that `lookupEngineSearch` gives. -/
theorem search_leaves {s : State} {d e : Dev} {now k : Nat} (hk : k < 16) (hnow : s.clk.count = now) (hdev : s.dev = d)
    (hexec : exec (.lookupEngineSearch k) s = .next (s.withDev e)) : e = lookupEngineSearch now k d := by
  subst hnow hdev
  rw [exec_lookupEngineSearch, runDev_ok (ok := isLookupEngine k) (decide_eq_true hk)] at hexec
  exact (congrArg State.dev (Host.Outcome.next.inj hexec)).symm

/-- Refutes O59: the learn of `strayLookup` is posted with bucket 0, where the statement has bucket 1. -/
theorem not_lookupEvents : ¬ Obligations.LookupEvents := by
  unfold Obligations.LookupEvents
  intro h
  obtain ⟨hsearch, -⟩ := h { State.reset with dev := strayDev }
  obtain ⟨e, hexec, -, -, hlearn, -⟩ := hsearch 15 strayLookup (by decide) strayLookup_served
  have hleaves : e = lookupEngineSearch 0 15 strayDev := search_leaves (by decide) rfl rfl hexec
  have hposts : e.fwd.posts = strayDev.fwd.posts ++ [⟨strayTable, zeros 127, 0, (strayDev.buckets strayTable 0 (zeros 127)).1⟩] :=
    hlearn strayLookup_learns
  rw [hleaves, strayLookup_posts, strayDev_posts, strayLookup_bucket] at hposts
  exact absurd hposts (by decide)

end Sys2Proof.Machine
end

section
/-!
SUPPORT. The traffic manager's tables (R319): what each of its operations leaves of the queues and the objects.
-/

namespace Sys2Proof.Machine

/-! A table of the traffic manager or of the meters after a write. -/

@[simp] theorem queue_setQueue_self (d : Dev) (q : Nat) (x : TmQueue) : (d.setQueue q x).queue q = x := tget_tset_self _ _ _ _

theorem queue_setQueue_ne (d : Dev) {q j : Nat} (x : TmQueue) (h : j ≠ q) : (d.setQueue q x).queue j = d.queue j := tget_tset_ne _ _ _ _ _ h

theorem setQueue_rf (d : Dev) (q : Nat) (x : TmQueue) (o hi lo : Nat) : (d.setQueue q x).rf o hi lo = d.rf o hi lo := rfl

theorem queue_of_queues {d e : Dev} (h : e.tmg.queues = d.tmg.queues) (q : Nat) : e.queue q = d.queue q :=
  congrArg (tget TmQueue.empty · q) h

theorem queue_of_tmg {d e : Dev} (h : e.tmg = d.tmg) (q : Nat) : e.queue q = d.queue q := queue_of_queues (congrArg Tmg.queues h) q

theorem obj_of_objs {d e : Dev} (h : e.tmg.objs = d.tmg.objs) (kind i : Nat) : e.obj kind i = d.obj kind i :=
  congrArg (Tab.get objReset · (objKey kind i)) h

theorem obj_setObj_self (d : Dev) (kind i : Nat) (ws : List Word) : (d.setObj kind i ws).obj kind i = ws := Tab.get_set_self _ _ _ _

theorem objKey_inj {k j kind i : Nat} (hj : j < 2 ^ 17) (hi : i < 2 ^ 17) (h : objKey k j = objKey kind i) : (k, j) = (kind, i) := by
  unfold objKey at h
  rw [Prod.mk.injEq]
  omega

theorem obj_setObj_ne (d : Dev) {kind i k j : Nat} (ws : List Word) (hi : i < 2 ^ 17) (hj : j < 2 ^ 17) (h : (k, j) ≠ (kind, i)) :
    (d.setObj kind i ws).obj k j = d.obj k j := Tab.get_set_ne _ _ _ _ _ (mt (objKey_inj hj hi) h)

theorem gate_setGate_self (d : Dev) (p : Nat) (g : GateRun) : (d.setGate p g).gate p = g := tget_tset_self _ _ _ _

theorem gate_setGate_ne (d : Dev) {p j : Nat} (g : GateRun) (h : j ≠ p) : (d.setGate p g).gate j = d.gate j := tget_tset_ne _ _ _ _ _ h

theorem meter_setMeter_self (d : Dev) (i : Nat) (m : Meter) : (d.setMeter i m).meter i = m := tget_tset_self _ _ _ _

theorem meter_setMeter_ne (d : Dev) {i j : Nat} (m : Meter) (h : j ≠ i) : (d.setMeter i m).meter j = d.meter j := tget_tset_ne _ _ _ _ _ h

theorem counter_setCounter_self (d : Dev) (i : Nat) (x : Nat × Nat) : (d.setCounter i x).counter i = (x.1 % 2 ^ 64, x.2 % 2 ^ 64) :=
  tget_tset_self _ _ _ _

theorem counter_setCounter_ne (d : Dev) {i j : Nat} (x : Nat × Nat) (h : j ≠ i) : (d.setCounter i x).counter j = d.counter j :=
  tget_tset_ne _ _ _ _ _ h

/-! The time-gated egress reader (R345, R437) changes the DRAM controller only. -/

theorem dramOnly_keeps {d e : Dev} (h : dramOnly d e) : e.tmg = d.tmg ∧ e.pal = d.pal := by
  obtain ⟨_, _, _, rfl⟩ := h
  exact ⟨rfl, rfl⟩

theorem dramUe_only (d : Dev) (now kind a : Nat) : dramOnly d (d.dramUe now kind a) :=
  dramOnly_trans (dramPoison_only d kind a) (dateUes_only _ now)

theorem dramAsk_only (d : Dev) (now cls : Nat) (who : DramWho) (a : Nat) : dramOnly d (d.dramAsk now cls who a) := by
  unfold Dev.dramAsk
  dsimp only
  split
  · exact dramOnly_trans (dramOnly_drc _ _) (dramUe_only _ _ _ _)
  · exact dramOnly_drc _ _

theorem gatePanic_only (d : Dev) (p : Nat) : dramOnly d (d.gatePanic p) := dramOnly_drc _ _

theorem gateTend_only (d : Dev) (now p : Nat) : dramOnly d (d.gateTend now p) := by
  unfold Dev.gateTend
  split
  · exact dramOnly_refl d
  · dsimp only
    split
    · exact dramOnly_trans (gatePanic_only d p) (dramAsk_only _ _ _ _ _)
    · exact gatePanic_only d p

theorem gateTend_tmg (d : Dev) (now p : Nat) : (d.gateTend now p).tmg = d.tmg := (dramOnly_keeps (gateTend_only d now p)).1

theorem gateTend_pal (d : Dev) (now p : Nat) : (d.gateTend now p).pal = d.pal := (dramOnly_keeps (gateTend_only d now p)).2

/-! Drops (R322, R326). -/

/-- A queue that has dropped a copy. -/
def TmQueue.dropped (x : TmQueue) : TmQueue := { x with drops := (x.drops + 1) % 2 ^ 32, newDrops := x.newDrops + 1 }

theorem dropCopy_tmg (d : Dev) (q reason own : Nat) (x : TmItem) :
    (d.dropCopy q reason own x).tmg = (d.setQueue q (d.queue q).dropped).tmg := (palKeeps_queues (palKeeps_releaseCopy _ _ _)).1

theorem dropCopy_queue_self (d : Dev) (q reason own : Nat) (x : TmItem) : (d.dropCopy q reason own x).queue q = (d.queue q).dropped :=
  (queue_of_tmg (dropCopy_tmg d q reason own x) q).trans (queue_setQueue_self _ _ _)

theorem dropCopy_queue_ne (d : Dev) {q j : Nat} (reason own : Nat) (x : TmItem) (h : j ≠ q) :
    (d.dropCopy q reason own x).queue j = d.queue j :=
  (queue_of_tmg (dropCopy_tmg d q reason own x) j).trans (queue_setQueue_ne _ _ h)

/-- Copies dropped one after the other are all counted, and nothing else of the queue that a scheduler reads changes. -/
theorem drops_counted (l : List TmItem) (d : Dev) (q reason own : Nat) :
    let e := l.foldl (fun d it => d.dropCopy q reason own it) d
    (e.queue q).items = (d.queue q).items ∧ (e.queue q).bytes = (d.queue q).bytes ∧
      (e.queue q).drops % 2 ^ 32 = ((d.queue q).drops + l.length) % 2 ^ 32 ∧ ∀ j, j ≠ q → e.queue j = d.queue j := by
  induction l generalizing d with
  | nil => exact ⟨rfl, rfl, rfl, fun _ _ => rfl⟩
  | cons x l ih =>
    obtain ⟨hitems, hbytes, hdrops, hothers⟩ := ih (d.dropCopy q reason own x)
    rw [dropCopy_queue_self] at hitems hbytes hdrops
    refine ⟨hitems, hbytes, hdrops.trans ?_, fun j hj => (hothers j hj).trans (dropCopy_queue_ne d reason own x hj)⟩
    rw [List.length_cons]
    show ((d.queue q).drops + 1) % 2 ^ 32 + l.length ≡ (d.queue q).drops + (l.length + 1) [MOD 2 ^ 32]
    rw [Nat.add_comm l.length 1, ← Nat.add_assoc]
    exact (Nat.mod_modEq _ _).add_right _

/-! The scheduler's accounts (R328, R329, R333). -/

/-- Only the scheduler's shapers, deficits and rings differ. -/
def schedOnly (d d' : Dev) : Prop := ∃ h f r, d' = { d with tmg := { d.tmg with shapers := h, deficits := f, rings := r } }

theorem schedOnly_refl (d : Dev) : schedOnly d d := ⟨_, _, _, rfl⟩

theorem schedOnly_trans {a b c : Dev} (h : schedOnly a b) (k : schedOnly b c) : schedOnly a c := by
  obtain ⟨_, _, _, rfl⟩ := h
  obtain ⟨_, _, _, rfl⟩ := k
  exact ⟨_, _, _, rfl⟩

theorem debit_sched (d : Dev) (now kind i : Nat) (n : Int) : schedOnly d (d.debit now kind i n) := ⟨_, _, _, rfl⟩

theorem fillShaper_sched (d : Dev) (now kind i : Nat) : schedOnly d (d.fillShaper now kind i) := ⟨_, _, _, rfl⟩

theorem served_sched (d : Dev) (kind node child rank : Nat) (n : Int) (b : Bool) : schedOnly d (d.served kind node child rank n b) :=
  ⟨_, _, _, rfl⟩

theorem clearDeficits_sched (d : Dev) (q : Nat) : schedOnly d (d.clearDeficits q) := by
  unfold Dev.clearDeficits
  refine foldl_inv _ (schedOnly d) (fun e k he => schedOnly_trans he ?_) _ _ (schedOnly_refl d)
  split
  · exact ⟨_, _, _, rfl⟩
  · exact schedOnly_refl e

theorem schedOnly_keeps {d e : Dev} (h : schedOnly d e) : e.tmg.queues = d.tmg.queues ∧ e.tmg.objs = d.tmg.objs ∧
    e.tmg.egress = d.tmg.egress ∧ e.pal = d.pal ∧ ∀ p, e.portUp p = d.portUp p := by
  obtain ⟨_, _, _, rfl⟩ := h
  exact ⟨rfl, rfl, rfl, rfl, fun _ => rfl⟩

theorem schedOnly_queue {d e : Dev} (h : schedOnly d e) (q : Nat) : e.queue q = d.queue q := queue_of_queues (schedOnly_keeps h).1 q

end Sys2Proof.Machine
end

section
/-!
SUPPORT. The object commands, the gates and the MTR commands (R326, R338 to R341, R354, R355): what each runs once its checks let it
through, and what that leaves.
-/

namespace Sys2Proof.Machine

/-! A window of data registers. -/

theorem window_keeps (a : Nat) (ws : List Word) (n : Nat) (d : Dev) :
    let e := (List.range n).foldl (fun d w => d.setReg (a + 4 * w) (ws.getD w 0)) d
    e.tmg = d.tmg ∧ e.mtr = d.mtr := by
  refine foldl_inv _ (fun e : Dev => e.tmg = d.tmg ∧ e.mtr = d.mtr) (fun e w he => ?_) _ _ ⟨rfl, rfl⟩
  exact he

theorem window_reg (a : Nat) (ws : List Word) (d : Dev) {n w : Nat} (hw : w < n) :
    ((List.range n).foldl (fun d w => d.setReg (a + 4 * w) (ws.getD w 0)) d).reg (a + 4 * w) = ws.getD w 0 := by
  induction n with
  | zero => omega
  | succ n ih =>
    rw [List.range_succ, List.foldl_append, List.foldl_cons, List.foldl_nil, Dev.reg_setReg]
    rcases Nat.lt_succ_iff_lt_or_eq.mp hw with hlt | rfl
    · rw [if_neg (by omega), ih hlt]
    · exact if_pos rfl

/-! Reads and writes of objects (R354). -/

/-- The object data registers filled. -/
def Dev.objData (d : Dev) (ws : List Word) : Dev := (List.range 8).foldl (fun d w => d.setReg (Reg.TMG_OBJ_DATA w) (ws.getD w 0)) d

theorem objData_tmg (d : Dev) (ws : List Word) : (d.objData ws).tmg = d.tmg := (window_keeps (Reg.TMG_OBJ_DATA 0) ws 8 d).1

theorem objData_reg (d : Dev) (ws : List Word) {w : Nat} (hw : w < 8) : (d.objData ws).reg (Reg.TMG_OBJ_DATA w) = ws.getD w 0 :=
  window_reg (Reg.TMG_OBJ_DATA 0) ws d hw

theorem objResult_code (d : Dev) (n : Nat) : (d.objResult n).reg Reg.TMG_OBJ_STATUS = wd n := Dev.reg_setReg_self _ _ _

theorem objResult_tmg (d : Dev) (n : Nat) : (d.objResult n).tmg = d.tmg := rfl

theorem objResult_data (d : Dev) (n w : Nat) : (d.objResult n).reg (Reg.TMG_OBJ_DATA w) = d.reg (Reg.TMG_OBJ_DATA w) :=
  Dev.reg_setReg_ne _ _ _ _ (by simp only [Reg.TMG_OBJ_DATA, Reg.TMG_OBJ_STATUS]; omega)

/-- The words that an object command takes. -/
def Dev.objArgs (d : Dev) : List Word := (List.range 8).map fun w => d.reg (Reg.TMG_OBJ_DATA w)

/-- Of a write of an object its queues stay, and of the objects' words only its own change. -/
theorem objPut_keeps (d : Dev) (now kind i : Nat) (ws : List Word) : let e := d.objPut now kind i ws
    e.tmg.objs = (d.setObj kind i (objWords kind ws)).tmg.objs ∧ e.tmg.queues = d.tmg.queues := by
  have hfilled : ∀ b : Bool, schedOnly (d.setObj kind i (objWords kind ws))
      (if b then (d.setObj kind i (objWords kind ws)).fillShaper now kind i else d.setObj kind i (objWords kind ws)) := by
    intro b
    split
    · exact fillShaper_sched _ _ _ _
    · exact schedOnly_refl _
  unfold Dev.objPut
  dsimp only
  split
  · obtain ⟨hqueues, hobjs, -⟩ := schedOnly_keeps (hfilled (!d.objOn kind i && (d.setObj kind i (objWords kind ws)).objOn kind i))
    split
    · rw [gateTend_tmg]
      exact ⟨hobjs, hqueues⟩
    · exact ⟨hobjs, hqueues⟩
  · split <;> exact ⟨rfl, rfl⟩

theorem flushQueue_empties (d : Dev) (q reason : Nat) : let e := d.flushQueue q reason
    (e.queue q).items = [] ∧ (e.queue q).bytes = 0 ∧
      (e.queue q).drops % 2 ^ 32 = ((d.queue q).drops + (d.queue q).items.length) % 2 ^ 32 ∧ ∀ j, j ≠ q → e.queue j = d.queue j := by
  have hcleared := schedOnly_queue (clearDeficits_sched (d.setQueue q { d.queue q with items := [], bytes := 0, cells := 0 }) q)
  obtain ⟨hitems, hbytes, hdrops, hothers⟩ := drops_counted (d.queue q).items
    ((d.setQueue q { d.queue q with items := [], bytes := 0, cells := 0 }).clearDeficits q) q reason 0
  rw [hcleared, queue_setQueue_self] at hitems hbytes hdrops
  exact ⟨hitems, hbytes, hdrops, fun j hj => (hothers j hj).trans ((hcleared j).trans (queue_setQueue_ne d _ hj))⟩

section

variable {d : Dev} {kind bank i : Nat} (hsel : d.objSel = (kind, bank, i))
include hsel

theorem tmgObjRead_none (hi : objCount kind ≤ i) : tmgObjRead d = d.objResult 1 := by
  unfold tmgObjRead
  rw [hsel]
  exact if_pos hi

theorem tmgObjRead_reads (hi : i < objCount kind) : tmgObjRead d = (d.objData (d.objRead kind bank i)).objResult 0 := by
  unfold tmgObjRead
  rw [hsel]
  exact if_neg (Nat.not_le.mpr hi)

theorem tmgObjWrite_refused (hi : i < objCount kind) (hbank : kind ≠ 4 ∨ bank = 0) (href : d.objRefused kind i d.objArgs = true)
    (now : Nat) : tmgObjWrite now d = d.objResult 2 := by
  unfold tmgObjWrite
  rw [hsel]
  dsimp only
  rw [if_neg (by omega), ← Dev.objArgs, if_pos href]

theorem tmgObjWrite_stores (hi : i < objCount kind) (hbank : kind ≠ 4 ∨ bank = 0) (href : d.objRefused kind i d.objArgs = false)
    (now : Nat) : tmgObjWrite now d = (d.objPut now kind i d.objArgs).objResult 0 := by
  unfold tmgObjWrite
  rw [hsel]
  dsimp only
  rw [if_neg (by omega), ← Dev.objArgs, if_neg (by simp [href])]

end

/-! The flush of a queue (R326). -/

section

variable {d : Dev} {bank i : Nat} (hsel : d.objSel = (0, bank, i)) (hi : i < 65536)
include hsel hi

theorem tmgQueueFlush_refused (hon : d.objOn 0 i = true) (now : Nat) : tmgQueueFlush now d = d.objResult 2 := by
  unfold tmgQueueFlush
  rw [hsel]
  dsimp only
  rw [if_neg (by simp [objCount, hi]), if_pos hon]

theorem tmgQueueFlush_flushes (hoff : d.objOn 0 i = false) (now : Nat) :
    tmgQueueFlush now d = ((d.flushQueue i 7).gateTend now (d.queuePort i)).objResult 0 := by
  unfold tmgQueueFlush
  rw [hsel]
  dsimp only
  rw [if_neg (by simp [objCount, hi]), if_neg (by simp [hoff])]

end

/-! The gates of a port (R340, R341). -/

/-- When an admin schedule with a base time takes over that is applied at a time: at its base, or at the first start of a cycle a
microsecond or more from then (R341). -/
def switchTime (tm base cycle : Nat) : Nat := if tm < base then base else base + (tm + 1000 - base + cycle - 1) / cycle * cycle

theorem switchTime_ahead {tm base : Nat} (h : tm < base) (cycle : Nat) : switchTime tm base cycle = base := if_pos h

theorem switchTime_past {tm base cycle : Nat} (h : base ≤ tm) (hcycle : 0 < cycle) : (∃ n, switchTime tm base cycle = base + n * cycle) ∧
    tm + 1000 ≤ switchTime tm base cycle ∧ switchTime tm base cycle < tm + 1000 + cycle := by
  have hdiv := Nat.div_add_mod (tm + 1000 - base + cycle - 1) cycle
  have hmod := Nat.mod_lt (tm + 1000 - base + cycle - 1) hcycle
  have heq : switchTime tm base cycle = base + (tm + 1000 - base + cycle - 1) / cycle * cycle := if_neg (Nat.not_lt.mpr h)
  rw [Nat.mul_comm] at hdiv
  rw [heq]
  exact ⟨⟨_, rfl⟩, by omega, by omega⟩

theorem tmgScheduleApply_applies {d : Dev} {bank p : Nat} (hsel : d.objSel = (5, bank, p)) (hp : p < 80) (heth : d.portEthernet p = true)
    (hmin : 1 ≤ (d.adminList p).length) (hmax : (d.adminList p).length ≤ 1024) (hshort : 1000 ≤ fld (d.ow 5 p 1) 29 0)
    (hlong : fld (d.ow 5 p 1) 29 0 ≤ 1000000000) (hall : ∀ x ∈ d.adminList p, 16 ≤ x.2) (tm : Nat) :
    tmgScheduleApply tm d = (d.setGate p { d.gate p with
      pending := some (switchTime tm (d.adminBase p) (fld (d.ow 5 p 1) 29 0)), nextOper := d.adminList p,
      nextCycle := fld (d.ow 5 p 1) 29 0 }).objResult 0 := by
  have hany : (d.adminList p).any (fun e => decide (e.2 < 16)) = false := by simpa using hall
  unfold tmgScheduleApply
  rw [hsel]
  dsimp only
  rw [if_neg (by omega), if_neg (by simp [heth]), if_neg (by simp only [hany, Bool.false_eq_true, or_false]; omega)]
  rfl

theorem gateScheduleSwitch_due {d : Dev} {p t tm : Nat} (hpend : (d.gate p).pending = some t) (hdue : t ≤ tm) :
    gateScheduleSwitch tm p d = d.setGate p ((d.gate p).next t) := by
  unfold gateScheduleSwitch
  dsimp only
  rw [hpend]
  exact if_pos hdue

theorem missGate_items (d : Dev) (q j : Nat) : ((d.missGate q).queue j).items = (d.queue j).items := by
  unfold Dev.missGate
  by_cases h : j = q
  · subst h
    rw [queue_setQueue_self]
  · rw [queue_setQueue_ne _ _ h]

/-- A gate entry takes effect; the misses that this shows are counts of queues. -/
theorem gateEntryChange_enters {d : Dev} {p : Nat} (hoper : (d.gate p).oper ≠ []) (now tm : Nat) : let g := d.gate p
    let r := gateAt g.cyc (g.pos tm) 0
    let e := gateEntryChange now tm p d
    e.gate p = { g with state := r.1, entry := r.2 } ∧ ∀ q, (e.queue q).items = (d.queue q).items := by
  dsimp only
  unfold gateEntryChange
  dsimp only
  rw [if_neg hoper]
  generalize gateAt (d.gate p).cyc ((d.gate p).pos tm) 0 = r
  refine foldl_inv _ (fun e : Dev => e.gate p = { d.gate p with state := r.1, entry := r.2 } ∧ ∀ q, (e.queue q).items = (d.queue q).items)
    (fun e q he => ?_) _ _ ⟨gate_setGate_self d p _, fun _ => rfl⟩
  split
  · split
    · exact ⟨he.1, fun j => (missGate_items e q j).trans (he.2 j)⟩
    · exact he
  · exact he

/-! Meters and counters (R335, R338, R355). -/

theorem mtrData_mtr (d : Dev) (ws : List Word) : (d.mtrData ws).mtr = d.mtr := (window_keeps (Reg.MTR_DATA 0) ws 4 d).2

theorem mtrResult_code (d : Dev) (n : Nat) : (d.mtrResult n).reg Reg.MTR_STATUS = wd n := Dev.reg_setReg_self _ _ _

theorem mtrResult_mtr (d : Dev) (n : Nat) : (d.mtrResult n).mtr = d.mtr := rfl

theorem mtrData_reg (d : Dev) (ws : List Word) {w : Nat} (hw : w < 4) : (d.mtrData ws).reg (Reg.MTR_DATA w) = ws.getD w 0 :=
  (Dev.reg_setReg_ne _ _ _ _ (by simp only [Reg.MTR_DATA, Reg.MTR_STATUS]; omega)).trans (window_reg (Reg.MTR_DATA 0) ws d hw)

/-- The words that a write of a meter takes, its rates clamped (R335). -/
def Dev.mtrArgs (d : Dev) : List Word :=
  let a := (List.range 4).map fun w => d.reg (Reg.MTR_DATA w)
  (a.set 1 (wd (clampRate (fld (a.getD 1 0) 28 0)))).set 2 (wd (clampRate (fld (a.getD 2 0) 28 0)))

section

variable {d : Dev}

theorem mtrRead_counter (hsel : d.rb Reg.MTR_SEL 31 = true) : mtrRead d = d.mtrData (counterWords (d.counter (d.rf Reg.MTR_SEL 20 0))) :=
  if_pos hsel

theorem mtrReadClear_counter (hsel : d.rb Reg.MTR_SEL 31 = true) : mtrReadClear d =
    (d.mtrData (counterWords (d.counter (d.rf Reg.MTR_SEL 20 0)))).setCounter (d.rf Reg.MTR_SEL 20 0) (0, 0) := if_pos hsel

variable (hsel : d.rb Reg.MTR_SEL 31 = false) (hm : d.rf Reg.MTR_SEL 20 0 < 2 ^ 20)
include hsel hm

theorem mtrRead_lost (hlost : (d.meter (d.rf Reg.MTR_SEL 20 0)).lost = true) : mtrRead d = d.mtrResult 4 := by
  unfold mtrRead
  dsimp only
  rw [if_neg (by simp [hsel]), if_neg (Nat.not_le.mpr hm), if_pos hlost]

theorem mtrRead_meter (hlost : (d.meter (d.rf Reg.MTR_SEL 20 0)).lost = false) :
    mtrRead d = d.mtrData (d.meter (d.rf Reg.MTR_SEL 20 0)).cfg := by
  unfold mtrRead
  dsimp only
  rw [if_neg (by simp [hsel]), if_neg (Nat.not_le.mpr hm), if_neg (by simp [hlost])]

theorem mtrWrite_writes (hstage : d.stage ≠ 3) (hgood : meterBad d.mtrArgs = false) (now : Nat) :
    mtrWrite now d = (d.setMeter (d.rf Reg.MTR_SEL 20 0) (meterSet now d.mtrArgs)).mtrResult 0 := by
  have hplace : ¬ (d.rb Reg.MTR_SEL 31 = true ∨ 2 ^ 20 ≤ d.rf Reg.MTR_SEL 20 0) := by
    simp only [hsel, Bool.false_eq_true, false_or]
    omega
  have hfit : ¬ (d.stage = 3 ∨ meterBad d.mtrArgs = true) := by simp [hstage, hgood]
  exact (if_neg hplace).trans (if_neg hfit)

end

end Sys2Proof.Machine
end

section
/-!
SUPPORT. What the object commands, the gates and the MTR commands answer (R326, R338 to R341, R354, R355).
-/

namespace Sys2Proof.Machine

/-- Settles O48: each command by what it runs once its checks let it through. -/
theorem trafficObjects : Obligations.TrafficObjects := by
  unfold Obligations.TrafficObjects
  intro s
  dsimp only
  have hsel : s.dev.objSel = (s.dev.rf Reg.TMG_OBJ_SEL 31 28, s.dev.rf Reg.TMG_OBJ_SEL 27 27, s.dev.rf Reg.TMG_OBJ_SEL 16 0) := rfl
  have hindex : s.dev.rf Reg.TMG_OBJ_SEL 16 0 < 2 ^ 17 := fld_lt _ 16 0
  generalize s.dev.rf Reg.TMG_OBJ_SEL 31 28 = kind at hsel ⊢
  generalize s.dev.rf Reg.TMG_OBJ_SEL 27 27 = bank at hsel ⊢
  generalize s.dev.rf Reg.TMG_OBJ_SEL 16 0 = i at hsel hindex ⊢
  refine ⟨fun hlive => ⟨?read, fun hi hbank => ⟨fun href => ?refused, fun href => ?stored⟩,
      fun hkind hi => ⟨fun hon => ?busy, fun hoff => ?flushed⟩, fun hkind hi heth hmin hmax hshort hlong hall => ?apply, ?mtr⟩,
    fun p t hp hpend hdue => ?switch, fun p hp hoper => ?entry⟩
  case read =>
    refine ⟨_, (exec_tmgObjRead s).trans (runDev_ok rfl), ?_⟩
    rw [live_on hlive]
    by_cases hi : i < objCount kind
    · rw [tmgObjRead_reads hsel hi]
      exact ⟨(objResult_tmg _ 0).trans (objData_tmg _ _), fun hnone => absurd hi (Nat.not_lt.mpr hnone),
        fun _ => ⟨objResult_code _ 0, fun w hw => (objResult_data _ 0 w).trans (objData_reg _ _ hw)⟩⟩
    · rw [tmgObjRead_none hsel (Nat.not_lt.mp hi)]
      exact ⟨objResult_tmg _ 1, fun _ => objResult_code _ 1, fun hsome => absurd hsome hi⟩
  case refused =>
    refine ⟨_, (exec_tmgObjWrite s).trans (runDev_ok rfl), ?_⟩
    rw [live_on hlive, tmgObjWrite_refused hsel hi hbank href]
    exact ⟨objResult_code _ 2, objResult_tmg _ 2⟩
  case stored =>
    obtain ⟨hobjs, hqueues⟩ := objPut_keeps s.dev s.clk.count kind i s.dev.objArgs
    rw [← objResult_tmg _ 0] at hobjs hqueues
    refine ⟨_, (exec_tmgObjWrite s).trans (runDev_ok rfl), ?_⟩
    rw [live_on hlive, tmgObjWrite_stores hsel hi hbank href]
    exact ⟨objResult_code _ 0, (obj_of_objs hobjs kind i).trans (obj_setObj_self _ _ _ _),
      fun k j hj hne => (obj_of_objs hobjs k j).trans (obj_setObj_ne _ _ hindex hj hne), hqueues⟩
  case busy =>
    subst hkind
    refine ⟨_, (exec_tmgQueueFlush s).trans (runDev_ok rfl), ?_⟩
    rw [live_on hlive, tmgQueueFlush_refused hsel hi hon]
    exact ⟨objResult_code _ 2, objResult_tmg _ 2⟩
  case flushed =>
    subst hkind
    have hflush := flushQueue_empties s.dev i 7
    refine ⟨_, (exec_tmgQueueFlush s).trans (runDev_ok rfl), ?_⟩
    rw [live_on hlive, tmgQueueFlush_flushes hsel hi hoff]
    have hqueue : ∀ j, (((s.dev.flushQueue i 7).gateTend s.clk.count (s.dev.queuePort i)).objResult 0).queue j =
        (s.dev.flushQueue i 7).queue j := queue_of_tmg ((objResult_tmg _ 0).trans (gateTend_tmg _ _ _))
    simp only [hqueue]
    exact ⟨objResult_code _ 0, hflush⟩
  case apply =>
    subst hkind
    refine ⟨_, switchTime (s.clk.sec * 1000000000 + s.clk.nsec) (s.dev.adminBase i) (fld (s.dev.ow 5 i 1) 29 0),
      (exec_tmgScheduleApply s).trans (runDev_ok rfl), ?_⟩
    rw [live_on hlive, tmgScheduleApply_applies hsel hi heth hmin hmax hshort hlong hall]
    exact ⟨objResult_code _ 0, gate_setGate_self _ _ _, fun hahead => switchTime_ahead hahead _,
      fun hpast => switchTime_past hpast (by omega)⟩
  case mtr =>
    rintro m rfl
    refine ⟨fun hcnt => ?counter, fun hcnt hm => ?meter, fun hcnt => ?clear, fun hcnt hm hstage hgood => ?write⟩
    case counter =>
      refine ⟨_, (exec_mtrRead s).trans (runDev_ok rfl), ?_⟩
      rw [live_on hlive, mtrRead_counter hcnt]
      exact ⟨mtrData_mtr _ _, mtrResult_code _ 0, fun w hw => mtrData_reg _ _ hw⟩
    case meter =>
      refine ⟨_, (exec_mtrRead s).trans (runDev_ok rfl), ?_⟩
      rw [live_on hlive]
      cases hlost : (s.dev.meter (s.dev.rf Reg.MTR_SEL 20 0)).lost with
      | true =>
        rw [mtrRead_lost hcnt hm hlost]
        exact ⟨rfl, fun _ => mtrResult_code _ 4, fun hkept => Bool.noConfusion hkept⟩
      | false =>
        rw [mtrRead_meter hcnt hm hlost]
        exact ⟨mtrData_mtr _ _, fun hgone => Bool.noConfusion hgone, fun _ => ⟨mtrResult_code _ 0, fun w hw => mtrData_reg _ _ hw⟩⟩
    case clear =>
      refine ⟨_, (exec_mtrReadClear s).trans (runDev_ok rfl), ?_⟩
      rw [live_on hlive, mtrReadClear_counter hcnt]
      have hcounters : ∀ j, (s.dev.mtrData (counterWords (s.dev.counter (s.dev.rf Reg.MTR_SEL 20 0)))).counter j = s.dev.counter j :=
        fun j => congrArg (fun x : Mtr => tget (0, 0) x.counters j) (mtrData_mtr _ _)
      exact ⟨counter_setCounter_self _ _ _, fun j hj => (counter_setCounter_ne _ _ hj).trans (hcounters j), fun w hw => mtrData_reg _ _ hw⟩
    case write =>
      refine ⟨_, (exec_mtrWrite s).trans (runDev_ok rfl), ?_⟩
      rw [live_on hlive, mtrWrite_writes hcnt hm hstage hgood]
      have hmeter : (((s.dev.setMeter (s.dev.rf Reg.MTR_SEL 20 0) (meterSet s.clk.count s.dev.mtrArgs)).mtrResult 0).meter
          (s.dev.rf Reg.MTR_SEL 20 0)) = meterSet s.clk.count s.dev.mtrArgs := meter_setMeter_self _ _ _
      rw [hmeter]
      exact ⟨mtrResult_code _ 0, rfl, rfl, rfl, fun j hj => meter_setMeter_ne _ _ hj⟩
  case switch =>
    refine ⟨_, (exec_gateScheduleSwitch p s).trans (runDev_ok (decide_eq_true hp)), ?_⟩
    rw [gateScheduleSwitch_due hpend hdue, gate_setGate_self]
    exact ⟨rfl, rfl, rfl, rfl, rfl, fun j hj => gate_setGate_ne _ _ hj⟩
  case entry =>
    exact ⟨_, (exec_gateEntryChange p s).trans (runDev_ok (decide_eq_true hp)), gateEntryChange_enters hoper _ _⟩

end Sys2Proof.Machine
end

section
/-!
SUPPORT. The scheduler (R327 to R330): which copy a port chooses, and what its dequeue leaves.
-/

namespace Sys2Proof.Machine

theorem pickMin_none {key : Nat → Nat} {l : List Nat} (h : pickMin key l = none) : l = [] := by
  cases l with
  | nil => rfl
  | cons a r =>
    unfold pickMin at h
    split at h
    · cases h
    · split at h <;> cases h

/-- The pick is a member that none has a smaller key than. -/
theorem pickMin_least {key : Nat → Nat} {l : List Nat} {b : Nat} (h : pickMin key l = some b) : b ∈ l ∧ ∀ c ∈ l, key b ≤ key c := by
  induction l generalizing b with
  | nil => cases h
  | cons a r ih =>
    unfold pickMin at h
    split at h
    · next hnone =>
      cases h
      rw [pickMin_none hnone]
      simp
    · next x hx =>
      obtain ⟨hmem, hleast⟩ := ih hx
      split at h
      · next hlt =>
        cases h
        exact ⟨List.mem_cons_of_mem _ hmem, List.forall_mem_cons.mpr ⟨Nat.le_of_lt hlt, hleast⟩⟩
      · next hge =>
        cases h
        exact ⟨List.mem_cons_self, List.forall_mem_cons.mpr ⟨Nat.le_refl _, fun c hc => (Nat.le_of_not_lt hge).trans (hleast c hc)⟩⟩

/-- A node selects one of its children that no other of them outranks (R327, R328). -/
theorem selectChild_least {d : Dev} {now kind node : Nat} {cs : List Nat} {x : Nat × Nat} (h : d.selectChild now kind node cs = some x) :
    x.1 ∈ cs ∧ ∀ c ∈ cs, d.rank now kind x.1 ≤ d.rank now kind c := by
  unfold Dev.selectChild at h
  split at h
  · cases h
  · next b hbest =>
    obtain ⟨-, hleast⟩ := pickMin_least hbest
    obtain ⟨c, hring, rfl⟩ := Option.map_eq_some_iff.mp h
    obtain ⟨hmem, hrank⟩ := List.mem_filter.mp (pickMin_least hring).1
    rw [decide_eq_true_eq] at hrank
    exact ⟨hmem, fun c' hc' => hrank.trans_le (hleast c' hc')⟩

/-- The copy chosen is of an eligible queue, and at each level no eligible queue has a node that outranks its own (R327). -/
theorem choose_ranks {d : Dev} {now tm p : Nat} {v sb q : Nat × Nat} (h : d.choose now tm p = some (v, sb, q)) :
    q.1 ∈ d.eligibleQueues now tm p ∧ d.subOf q.1 = sb.1 ∧ d.svcOf sb.1 = v.1 ∧ ∀ j ∈ d.eligibleQueues now tm p,
      d.rank now 2 v.1 ≤ d.rank now 2 (d.svcOf (d.subOf j)) ∧
      (d.svcOf (d.subOf j) = v.1 → d.rank now 1 sb.1 ≤ d.rank now 1 (d.subOf j)) ∧
      (d.subOf j = sb.1 → d.svcOf (d.subOf j) = v.1 → d.rank now 0 q.1 ≤ d.rank now 0 j) := by
  unfold Dev.choose at h
  dsimp only at h
  split at h
  · cases h
  · next v' hsvc =>
    split at h
    · cases h
    · next s' hsub =>
      split at h
      · cases h
      · next q' hqueue =>
        cases h
        obtain ⟨-, hsvcs⟩ := selectChild_least hsvc
        obtain ⟨-, hsubs⟩ := selectChild_least hsub
        obtain ⟨hmem, hqueues⟩ := selectChild_least hqueue
        simp only [List.mem_filter, decide_eq_true_eq] at hmem hqueues
        obtain ⟨⟨heligible, hofsvc⟩, hofsub⟩ := hmem
        refine ⟨heligible, hofsub, hofsub ▸ hofsvc,
          fun j hj => ⟨hsvcs _ ?_, fun hv => hsubs _ ?_, fun hs hv => hqueues j ⟨⟨hj, hv⟩, hs⟩⟩⟩
        · exact List.mem_dedup.mpr (List.mem_map_of_mem hj)
        · exact List.mem_dedup.mpr (List.mem_map_of_mem (List.mem_filter.mpr ⟨hj, decide_eq_true hv⟩))

/-! A dequeue (R329, R330). -/

/-- The device when a port comes to choose: the shapers are up to date, what can never fit is gone, and the reader goes on. -/
def Dev.examined (d : Dev) (now p : Nat) : Dev := ((d.examine now p).dropNofit now p 65536).gateTend now p

/-- The device with a copy off its queue, and the shapers and deficits above it debited. -/
def Dev.paid (d : Dev) (now p : Nat) (v s q : Nat × Nat) (x : TmItem) : Dev :=
  let bytes := d.shapeLen p x.len
  let d := d.unqueue now q.1 x.len
  let d := (((d.debit now 0 q.1 bytes).debit now 1 s.1 bytes).debit now 2 v.1 bytes).debit now 3 p bytes
  let d := d.served 0 s.1 q.1 q.2 bytes (d.nodeEmpty 0 q.1)
  let d := d.served 1 v.1 s.1 s.2 bytes (d.nodeEmpty 1 s.1)
  d.served 2 p v.1 v.2 bytes (d.nodeEmpty 2 v.1)

theorem paid_sched (d : Dev) (now p : Nat) (v s q : Nat × Nat) (x : TmItem) : schedOnly (d.unqueue now q.1 x.len) (d.paid now p v s q x) := by
  have hdebits := schedOnly_trans (schedOnly_trans (schedOnly_trans
    (debit_sched (d.unqueue now q.1 x.len) now 0 q.1 (d.shapeLen p x.len)) (debit_sched _ now 1 s.1 (d.shapeLen p x.len)))
    (debit_sched _ now 2 v.1 (d.shapeLen p x.len))) (debit_sched _ now 3 p (d.shapeLen p x.len))
  exact schedOnly_trans (schedOnly_trans (schedOnly_trans hdebits (served_sched _ _ _ _ _ _ _)) (served_sched _ _ _ _ _ _ _))
    (served_sched _ _ _ _ _ _ _)

/-- A queue once a copy of some length is off it. -/
def TmQueue.popped (x : TmQueue) (now len : Nat) : TmQueue :=
  { x with items := x.items.tail, headAt := now, bytes := x.bytes - len, cells := x.cells - cellsOf len }

theorem paid_queue_self (d : Dev) (now p : Nat) (v s q : Nat × Nat) (x : TmItem) :
    (d.paid now p v s q x).queue q.1 = (d.queue q.1).popped now x.len :=
  (schedOnly_queue (paid_sched d now p v s q x) q.1).trans (queue_setQueue_self _ _ _)

theorem paid_queue_ne (d : Dev) (now p : Nat) (v s : Nat × Nat) {q : Nat × Nat} (x : TmItem) {j : Nat} (h : j ≠ q.1) :
    (d.paid now p v s q x).queue j = d.queue j :=
  (schedOnly_queue (paid_sched d now p v s q x) j).trans (queue_setQueue_ne _ _ h)

theorem paid_keeps (d : Dev) (now p : Nat) (v s q : Nat × Nat) (x : TmItem) : let e := d.paid now p v s q x
    e.tmg.egress = d.tmg.egress ∧ e.pal = d.pal ∧ ∀ p, e.portUp p = d.portUp p := by
  obtain ⟨-, -, hegress, hpal, hup⟩ := schedOnly_keeps (paid_sched d now p v s q x)
  exact ⟨hegress, hpal, hup⟩

/-- A copy in the egress FIFO of a port, counted as sent by its queue. -/
def Dev.toEgress (d : Dev) (tm p q : Nat) (x : TmItem) : Dev :=
  let e := d.setQueue q { d.queue q with sent := ((d.queue q).sent + 1) % 2 ^ 64 }
  { e with tmg := { e.tmg with egress := tset [] e.tmg.egress p (tget [] e.tmg.egress p ++ [⟨x, q, false, tm⟩]) } }

/-- The spill reader's request for a copy that it must read from DRAM (R435, R437). -/
def Dev.spillAsk (d : Dev) (now p : Nat) (x : TmItem) : Dev :=
  if d.inDramPool x && !x.staged then d.dramAsk now 1 (.spill p x.handle x.len) (d.dramHead x.handle) else d

theorem spillAsk_only (d : Dev) (now p : Nat) (x : TmItem) : dramOnly d (d.spillAsk now p x) := by
  unfold Dev.spillAsk
  split
  · exact dramAsk_only _ _ _ _ _
  · exact dramOnly_refl d

section

variable {d e : Dev} {now tm p : Nat} {v sb q : Nat × Nat} {x : TmItem} {r : List TmItem}

theorem tmDequeue_chosen (he : d.examined now p = e) (hon : d.rb Reg.TMG_CTL 0 = true) (hready : e.portReady now p = true)
    (hchoose : e.choose now tm p = some (v, sb, q)) (hitems : (e.queue q.1).items = x :: r)
    (hpunt : 112 ≤ p → p < 128 → e.portUp p = true → e.puntReady (p - 112) x.len = true) :
    tmDequeue now tm p d = if (e.paid now p v sb q x).portUp p then
        (((e.paid now p v sb q x).toEgress tm p q.1 x).spillAsk now p x).gateTend now p
      else ((e.paid now p v sb q x).dropCopy q.1 6 0 x).gateTend now p := by
  have hgiven : ¬ (112 ≤ p ∧ p < 128 ∧ e.portUp p = true ∧ ¬ e.puntReady (p - 112) x.len = true) :=
    fun ⟨hlo, hhi, hup, hfull⟩ => hfull (hpunt hlo hhi hup)
  unfold tmDequeue
  rw [← Dev.examined, he, if_neg (by simp [hon])]
  dsimp only
  rw [if_neg (by simp [hready]), hchoose]
  dsimp only
  rw [hitems]
  exact if_neg hgiven

end

/-- What a dequeue leaves of a port that is up. -/
theorem toEgress_leaves (d : Dev) (now tm p q : Nat) (x : TmItem) : let u := ((d.toEgress tm p q x).spillAsk now p x).gateTend now p
    u.queue q = { d.queue q with sent := ((d.queue q).sent + 1) % 2 ^ 64 } ∧ (∀ j, j ≠ q → u.queue j = d.queue j) ∧
      tget [] u.tmg.egress p = tget [] d.tmg.egress p ++ [⟨x, q, false, tm⟩] ∧ u.pal = d.pal := by
  obtain ⟨htmg, hpal⟩ := dramOnly_keeps (dramOnly_trans (spillAsk_only (d.toEgress tm p q x) now p x) (gateTend_only _ now p))
  refine ⟨(queue_of_tmg htmg q).trans (queue_setQueue_self _ _ _),
    fun j hj => (queue_of_tmg htmg j).trans (queue_setQueue_ne _ _ hj), ?_, hpal⟩
  exact (congrArg (fun t : Tmg => tget [] t.egress p) htmg).trans (tget_tset_self _ _ _ _)

/-- What a dequeue leaves of one that is down. -/
theorem dropCopy_leaves (d : Dev) (now p q reason own : Nat) (x : TmItem) : let u := (d.dropCopy q reason own x).gateTend now p
    u.queue q = (d.queue q).dropped ∧ (∀ j, j ≠ q → u.queue j = d.queue j) ∧ u.tmg.egress = d.tmg.egress := by
  have htmg := gateTend_tmg (d.dropCopy q reason own x) now p
  exact ⟨(queue_of_tmg htmg q).trans (dropCopy_queue_self _ _ _ _ _), fun j hj => (queue_of_tmg htmg j).trans (dropCopy_queue_ne _ _ _ _ hj),
    (congrArg Tmg.egress htmg).trans (by rw [dropCopy_tmg]; rfl)⟩

section

variable {d e : Dev} {now tm p : Nat} {v sb q : Nat × Nat} {x : TmItem} {r : List TmItem}

/-- The oldest copy of the queue chosen goes to the egress FIFO of a port that is up, and is dropped on one that is down. -/
theorem tmDequeue_leaves (he : d.examined now p = e) (hon : d.rb Reg.TMG_CTL 0 = true) (hready : e.portReady now p = true)
    (hchoose : e.choose now tm p = some (v, sb, q)) (hitems : (e.queue q.1).items = x :: r)
    (hpunt : 112 ≤ p → p < 128 → e.portUp p = true → e.puntReady (p - 112) x.len = true) : let u := tmDequeue now tm p d
    (u.queue q.1).items = r ∧ (u.queue q.1).bytes = (e.queue q.1).bytes - x.len ∧
      (u.queue q.1).cells = (e.queue q.1).cells - cellsOf x.len ∧ (∀ j, j ≠ q.1 → u.queue j = e.queue j) ∧
      (e.portUp p = true → tget [] u.tmg.egress p = tget [] e.tmg.egress p ++ [⟨x, q.1, false, tm⟩] ∧
        (u.queue q.1).sent = ((e.queue q.1).sent + 1) % 2 ^ 64 ∧ u.pal = e.pal) ∧
      (e.portUp p = false → u.tmg.egress = e.tmg.egress ∧ (u.queue q.1).drops = ((e.queue q.1).drops + 1) % 2 ^ 32) := by
  obtain ⟨hegress, hpal, hup⟩ := paid_keeps e now p v sb q x
  have hqueue := paid_queue_self e now p v sb q x
  have hothers : ∀ j, j ≠ q.1 → (e.paid now p v sb q x).queue j = e.queue j := fun j hj => paid_queue_ne e now p v sb x hj
  have htail : ((e.queue q.1).popped now x.len).items = r := congrArg List.tail hitems
  rw [tmDequeue_chosen he hon hready hchoose hitems hpunt, hup]
  generalize e.paid now p v sb q x = c at hegress hpal hqueue hothers
  cases e.portUp p with
  | true =>
    obtain ⟨hself, hrest, hfifo, hsame⟩ := toEgress_leaves c now tm p q.1 x
    rw [hqueue] at hself
    rw [hegress] at hfifo
    dsimp only
    rw [if_pos rfl, hself]
    exact ⟨htail, rfl, rfl, fun j hj => (hrest j hj).trans (hothers j hj),
      fun _ => ⟨hfifo, rfl, hsame.trans hpal⟩, fun hdown => Bool.noConfusion hdown⟩
  | false =>
    obtain ⟨hself, hrest, hfifo⟩ := dropCopy_leaves c now p q.1 6 0 x
    rw [hqueue] at hself
    dsimp only
    rw [if_neg Bool.false_ne_true, hself]
    exact ⟨htail, rfl, rfl, fun j hj => (hrest j hj).trans (hothers j hj),
      fun hraised => Bool.noConfusion hraised, fun _ => ⟨hfifo.trans hegress, rfl⟩⟩

end

end Sys2Proof.Machine
end

section
/-!
SUPPORT. Staging of a gated port's heads (R345), recovery (R350), hand-offs (R36, R322) and the Swatch (R351 to R353): what each event
leaves.
-/

namespace Sys2Proof.Machine

/-! The time-gated egress reader (R345). -/

/-- A read of a port's time-gated egress reader that the controller has answered. -/
def gateRead (p : Nat) (r : DramReq) : Bool := match r.who with
  | .gate r' _ => decide (r' = p) && r.done.isSome
  | _ => false

/-- The device with the head of a queue in its port's staging. -/
def Dev.headStaged (d : Dev) (q : Nat) (x : TmItem) (r : List TmItem) : Dev :=
  d.setQueue q { d.queue q with items := { x with staged := true } :: r }

section

variable {d : Dev} {p : Nat} (hfreq : d.rf Reg.DRC_FREQ_STATUS 31 28 ≠ 4) (now tm : Nat)
include hfreq

theorem gatedPrefetchDone_idle (hnone : d.drc.reqs.find? (gateRead p) = none) : gatedPrefetchDone now tm p d = d.gateTend now p := by
  unfold gatedPrefetchDone
  dsimp only
  rw [if_neg hfreq]
  split
  · rfl
  · next hsome => exact absurd (hnone.symm.trans hsome) (by simp)

theorem gatedPrefetchDone_reads {a : DramReq} {q : Nat} {x : TmItem} {r : List TmItem} (hread : d.drc.reqs.find? (gateRead p) = some a)
    (hwho : a.who = .gate p x.handle) (hwaits : (d.dramDrop a.who).gateUnstaged p = [q]) (hitems : (d.queue q).items = x :: r) :
    let e := (d.dramDrop a.who).headStaged q x r
    gatedPrefetchDone now tm p d = (if e.tooLate now p tm q x.len then e.missGate q else e).gateTend now p := by
  have hfind : [q].find? (fun q => ((d.dramDrop a.who).headOf q).any (fun y => decide (a.who = .gate p y.handle))) = some q := by
    have hfirst : (d.dramDrop a.who).headOf q = some x := congrArg List.head? hitems
    refine List.find?_cons_of_pos ?_
    rw [hfirst]
    exact decide_eq_true hwho
  have hkept : ((d.dramDrop a.who).queue q).items = x :: r := hitems
  unfold gatedPrefetchDone
  dsimp only
  rw [if_neg hfreq]
  split
  · next hnone => exact absurd (hnone.symm.trans hread) (by simp)
  · next b hb =>
    cases Option.some.inj (hb.symm.trans hread)
    rw [hwaits, hfind]
    dsimp only
    rw [hkept]
    rfl

/-- The head that was read is staged; a missed gate that this shows is a count of its queue. -/
theorem gatedPrefetchDone_stages {a : DramReq} {q : Nat} {x : TmItem} {r : List TmItem} (hread : d.drc.reqs.find? (gateRead p) = some a)
    (hwho : a.who = .gate p x.handle) (hwaits : (d.dramDrop a.who).gateUnstaged p = [q]) (hitems : (d.queue q).items = x :: r) :
    let u := gatedPrefetchDone now tm p d
    (u.queue q).items = { x with staged := true } :: r ∧ ∀ j, j ≠ q → u.queue j = d.queue j := by
  have hself : ((d.dramDrop a.who).headStaged q x r).queue q = { d.queue q with items := { x with staged := true } :: r } :=
    queue_setQueue_self _ _ _
  have hothers : ∀ j, j ≠ q → ((d.dramDrop a.who).headStaged q x r).queue j = d.queue j := fun j hj => queue_setQueue_ne _ _ hj
  dsimp only
  rw [gatedPrefetchDone_reads hfreq now tm hread hwho hwaits hitems]
  simp only [queue_of_tmg (gateTend_tmg _ now p)]
  split
  · refine ⟨?_, fun j hj => (queue_setQueue_ne _ _ hj).trans (hothers j hj)⟩
    rw [missGate_items, hself]
  · exact ⟨by rw [hself], hothers⟩

end

/-! Recovery (R350). -/

theorem recoveryTimeout_due {d : Dev} {now i : Nat} (htime : fld (d.ow 7 i 0) 19 0 ≠ 0) (hset : (d.recov i).reset = false)
    (hdue : (d.recov i).last + 1000 * fld (d.ow 7 i 0) 19 0 ≤ now) : recoveryTimeout now i d =
      d.setRecov i { d.recov i with reset := true, resets := ((d.recov i).resets + 1) % 2 ^ 32 } :=
  if_pos ⟨htime, by simp [hset], hdue⟩

/-! Hand-offs (R36, R322). -/

theorem freeSlot_keeps (d : Dev) (k : Nat) : (d.freeSlot k).tmg = d.tmg ∧ (d.freeSlot k).pal = d.pal := by
  have hnote : ∀ (e : Dev) (c : Nat), (e.noteNominal c).tmg = e.tmg ∧ (e.noteNominal c).pal = e.pal := by
    intro e c
    unfold Dev.noteNominal
    split <;> exact ⟨rfl, rfl⟩
  unfold Dev.freeSlot
  dsimp only
  obtain ⟨htmg, hpal⟩ := hnote d (k / 256)
  split
  · exact ⟨(hnote _ _).1.trans htmg, (hnote _ _).2.trans hpal⟩
  · exact ⟨(hnote _ _).1.trans htmg, (hnote _ _).2.trans hpal⟩

/-- A queue with a copy linked at its tail. -/
def TmQueue.linked (s : TmQueue) (now : Nat) (x : TmItem) : TmQueue :=
  { s with items := s.items ++ [{ x with at_ := now }], headAt := if s.items = [] then now else s.headAt, bytes := s.bytes + x.len,
           cells := s.cells + cellsOf x.len, admitted := (s.admitted + 1) % 2 ^ 64, maxBytes := max s.maxBytes (s.bytes + x.len) }

/-- A copy that finds its path enabled and the queue within the threshold of its colour is linked (R322). -/
theorem admitCopy_links {d : Dev} {q col : Nat} {x : TmItem} (hon : d.rb Reg.TMG_CTL 0 = true) (hpath : d.pathOn q = true)
    (hthr : fld (d.ow 0 q (5 + min col 2)) 19 0 ≠ 0) (hroom : (d.queue q).bytes + x.len ≤ 256 * fld (d.ow 0 q (5 + min col 2)) 19 0)
    (now : Nat) : d.admitCopy now q col x = (none, d.setQueue q ((d.queue q).linked now x)) := by
  unfold Dev.admitCopy
  dsimp only
  rw [if_neg (by simp [hon, hpath]), if_neg]
  · rfl
  · rcases col with _ | _ | col
    · exact not_or.mpr ⟨hthr, Nat.not_lt.mpr hroom⟩
    · exact not_or.mpr ⟨hthr, Nat.not_lt.mpr hroom⟩
    · rw [Nat.min_eq_right (Nat.le_add_left 2 col)] at hthr hroom
      exact not_or.mpr ⟨hthr, Nat.not_lt.mpr hroom⟩

/-- Without elimination and replication a hand-off is an admission (R322). -/
theorem handoff_links {d : Dev} {q col : Nat} {x : TmItem} (hon : d.rb Reg.TMG_CTL 0 = true) (hpath : d.pathOn q = true)
    (helim : bit (d.ow 0 q 4) 31 = false) (hrepl : bit (d.ow 0 q 5) 31 = false)
    (hthr : fld (d.ow 0 q (5 + min col 2)) 19 0 ≠ 0) (hroom : (d.queue q).bytes + x.len ≤ 256 * fld (d.ow 0 q (5 + min col 2)) 19 0)
    (now own : Nat) : d.handoff now own q col x = d.setQueue q ((d.queue q).linked now x) := by
  have hrepl' : bit ((d.setQueue q ((d.queue q).linked now x)).ow 0 q 5) 31 = false := hrepl
  unfold Dev.handoff
  rw [if_neg (by simp [hon, hpath]), helim]
  dsimp only
  rw [if_neg Bool.false_ne_true]
  dsimp only
  rw [admitCopy_links hon hpath hthr hroom]
  dsimp only
  rw [if_neg (by simp [hrepl'])]

/-- The copy that a transaction hands off (R321). -/
def Dev.handed (d : Dev) (key now : Nat) : TmItem :=
  { handle := (d.txn key).handle, head := (d.txn key).handle, len := d.frameLen (d.txn key).handle (d.txn key).pktLen,
    pktLen := (d.txn key).pktLen, at_ := now, staged := false, recircs := (d.txn key).recircs, recirc := (d.txn key).recirc }

section

variable {d : Dev} {key : Nat} (hphase : (d.txn key).phase = .committing) (holdest : d.oldestHandoff key = true) (now : Nat)
include hphase holdest

theorem tmHandoff_none (henqs : (d.txn key).enqs = []) : tmHandoff now key d = d.freeSlot key := by
  unfold tmHandoff
  dsimp only
  rw [if_pos ⟨hphase, holdest⟩, henqs]
  rfl

theorem tmHandoff_one {q col : Nat} {h : Word} (henqs : (d.txn key).enqs = [.enq q h col]) : tmHandoff now key d =
    ((d.handoff now (d.txn key).owner q col (d.handed key now)).gateTend now (d.queuePort q)).freeSlot key := by
  unfold tmHandoff
  dsimp only
  rw [if_pos ⟨hphase, holdest⟩, henqs]
  rfl

/-- A transaction without enqueues hands nothing off. -/
theorem tmHandoff_frees (henqs : (d.txn key).enqs = []) : let u := tmHandoff now key d
    (u.txn key).phase = .free ∧ u.tmg = d.tmg := by
  dsimp only
  rw [tmHandoff_none hphase holdest now henqs, freeSlot_txn]
  exact ⟨rfl, (freeSlot_keeps d key).1⟩

/-- The copy of its one enqueue is linked at the queue's tail (R322). -/
theorem tmHandoff_links {q col : Nat} {h : Word} (henqs : (d.txn key).enqs = [.enq q h col]) (hon : d.rb Reg.TMG_CTL 0 = true)
    (hpath : d.pathOn q = true) (helim : bit (d.ow 0 q 4) 31 = false) (hrepl : bit (d.ow 0 q 5) 31 = false)
    (hthr : fld (d.ow 0 q (5 + min col 2)) 19 0 ≠ 0)
    (hroom : (d.queue q).bytes + (d.handed key now).len ≤ 256 * fld (d.ow 0 q (5 + min col 2)) 19 0) : let u := tmHandoff now key d
    (u.txn key).phase = .free ∧ u.queue q = (d.queue q).linked now (d.handed key now) ∧ u.pal = d.pal := by
  dsimp only
  rw [tmHandoff_one hphase holdest now henqs, handoff_links hon hpath helim hrepl hthr hroom, freeSlot_txn]
  obtain ⟨htmg, hpal⟩ := freeSlot_keeps ((d.setQueue q ((d.queue q).linked now (d.handed key now))).gateTend now (d.queuePort q)) key
  exact ⟨rfl, (queue_of_tmg (htmg.trans (gateTend_tmg _ _ _)) q).trans (queue_setQueue_self _ _ _), hpal.trans (gateTend_pal _ _ _)⟩

end

/-! The Swatch (R351 to R353). -/

/-- The place of the Swatch's next record in its region (R352). -/
def Dev.swatchAt (d : Dev) : Nat :=
  (d.reg Reg.TMG_SWATCH_BASE_LO).toNat + 2 ^ 32 * d.rf Reg.TMG_SWATCH_BASE_HI 15 0 + 32 * d.rf Reg.TMG_SWATCH_WIDX 23 0

/-- The record of a queue in a pass that is in time (R352). -/
def TmQueue.record (x : TmQueue) (now q : Nat) : List Byte :=
  leBytes 4 (b2n (decide (x.items ≠ [])) * 2 ^ 16 + q) ++ wordsBytes (x.sample now) ++ leBytes 8 now

theorem record_length (x : TmQueue) (now q : Nat) : (x.record now q).length = 32 := by
  unfold TmQueue.record TmQueue.sample wordsBytes
  simp [leBytes_length]

/-- A queue whose sample was taken (R351). -/
def TmQueue.sampled (x : TmQueue) : TmQueue := { x with maxBytes := x.bytes, newDrops := 0 }

section

variable {d : Dev} (hmem : d.rb Reg.TMG_SWATCH_CTL 30 = false)
  (hroom : d.rf Reg.TMG_SWATCH_WIDX 23 0 + 1 < d.rf Reg.TMG_SWATCH_SIZE 23 0) (now q : Nat)
include hmem hroom

/-- A visit writes the queue's record at the write index, which goes on. -/
theorem swatchVisit_writes : d.swatchVisit now false q =
    ((d.setQueue q (d.queue q).sampled).memWrite d.swatchAt ((d.queue q).record now q)).setRf
      Reg.TMG_SWATCH_WIDX 23 0 (d.rf Reg.TMG_SWATCH_WIDX 23 0 + 1) := by
  have hrec : leBytes 4 (b2n false * 2 ^ 17 + b2n (decide ((d.queue q).items ≠ [])) * 2 ^ 16 + q) ++ wordsBytes ((d.queue q).sample now) ++
      leBytes 8 now = (d.queue q).record now q := by simp [TmQueue.record, b2n]
  have hctl : (d.setQueue q (d.queue q).sampled).rb Reg.TMG_SWATCH_CTL 30 = false := hmem
  have hplace : (d.setQueue q (d.queue q).sampled).swatchAt = d.swatchAt := rfl
  unfold Dev.swatchVisit
  dsimp only
  rw [hrec, ← TmQueue.sampled, ← hplace]
  rw [← setQueue_rf d q (d.queue q).sampled Reg.TMG_SWATCH_WIDX 23 0] at hroom ⊢
  rw [← setQueue_rf d q (d.queue q).sampled Reg.TMG_SWATCH_SIZE 23 0] at hroom
  generalize d.setQueue q (d.queue q).sampled = e at hctl hroom ⊢
  rw [if_neg (by simp [hctl]), if_neg (by omega), if_pos (show e.rf Reg.TMG_SWATCH_WIDX 23 0 < e.rf Reg.TMG_SWATCH_SIZE 23 0 by omega),
    if_pos hroom]
  rfl

/-- What a visit leaves of the queue, of the write index and of the region. -/
theorem swatchVisit_leaves (hplain : d.plainMem) : let u := d.swatchVisit now false q
    u.queue q = (d.queue q).sampled ∧ u.rf Reg.TMG_SWATCH_WIDX 23 0 = d.rf Reg.TMG_SWATCH_WIDX 23 0 + 1 ∧
      u.memRead d.swatchAt 32 = (d.queue q).record now q := by
  have hplain' : (d.setQueue q (d.queue q).sampled).plainMem := hplain
  have hfit : d.rf Reg.TMG_SWATCH_SIZE 23 0 < 2 ^ 24 := fld_lt _ 23 0
  have hread := memRead_memWrite_self hplain' d.swatchAt ((d.queue q).record now q)
  rw [record_length] at hread
  dsimp only
  rw [swatchVisit_writes hmem hroom now q, memWrite_plain hplain']
  rw [memWrite_plain hplain'] at hread
  refine ⟨queue_setQueue_self d q _, ?_, hread⟩
  rw [Dev.rf_setRf_self _ _ _ _ _ (by omega) (by omega)]
  exact Nat.mod_eq_of_lt (by omega)

end

/-- A pass over one queue is never late: eight cycles of FCLK are less than a period. -/
theorem swatchPass_visits {d : Dev} {now q : Nat} (hon : d.rb Reg.TMG_SWATCH_CTL 31 = true) (hperiod : d.rf Reg.TMG_SWATCH_CTL 19 0 ≠ 0)
    (hdue : d.tmg.swatchEnd ≤ now) (hmem : d.rb Reg.TMG_SWATCH_CTL 30 = false) (hlo : d.rf Reg.TMG_SWATCH_RANGE 15 0 = q)
    (hhi : d.rf Reg.TMG_SWATCH_RANGE 31 16 = q) : ∃ n, swatchPass now d =
      { d.swatchVisit now false q with tmg := { (d.swatchVisit now false q).tmg with swatchEnd := n } } := by
  have hlate : decide (d.rf Reg.TMG_SWATCH_CTL 19 0 * 10000 < (q + 1 - q) * 64) = false := decide_eq_false (by omega)
  have hrange : (List.range (q + 1 - q)).map (q + ·) = [q] := by simp
  unfold swatchPass
  dsimp only
  rw [if_neg (by simp [hon, hperiod]; omega), hlo, hhi, hlate, if_neg (by simp [hmem]), hrange]
  exact ⟨_, rfl⟩

end Sys2Proof.Machine
end

section
/-!
SUPPORT. What the traffic manager's events on queues answer (R320, R322, R325, R327 to R330, R345, R350 to R353).
-/

namespace Sys2Proof.Machine

/-- Settles O47: each event by the lemma about what it leaves, the choice by `choose_ranks`. -/
theorem trafficQueues : Obligations.TrafficQueues := by
  unfold Obligations.TrafficQueues
  intro s p hp
  dsimp only
  refine ⟨fun v sb q x r hon hready hchoose hitems hpunt => ?dequeue,
    fun hmac hfreq => ⟨fun hnone => ?idle, fun a q x r hread hwho hwaits hitems => ?staged⟩, fun i hi htime hset hdue => ?recovery,
    fun key hkey hphase holdest => ⟨fun henqs => ?empty, fun q h col henqs hon hpath helim hrepl hthr hroom => ?handoff⟩,
    fun q hon hperiod hdue hmem hlo hhi _ hroom hplain => ?swatch⟩
  case dequeue =>
    obtain ⟨heligible, hsub, hsvc, hranks⟩ := choose_ranks hchoose
    refine ⟨⟨heligible, hsub, hsvc, fun j hj => ?_⟩, _, (exec_tmDequeue p s).trans (runDev_ok hp),
      tmDequeue_leaves rfl hon hready hchoose hitems hpunt⟩
    obtain ⟨hsvcs, hsubs, hqueues⟩ := hranks j hj
    exact ⟨fun _ => hsvcs, hsubs, hqueues⟩
  case idle =>
    refine ⟨_, (exec_gatedPrefetchDone p s).trans (runDev_ok (decide_eq_true hmac)), ?_⟩
    rw [gatedPrefetchDone_idle hfreq _ _ hnone, gateTend_tmg]
  case staged =>
    exact ⟨_, (exec_gatedPrefetchDone p s).trans (runDev_ok (decide_eq_true hmac)),
      gatedPrefetchDone_stages hfreq _ _ hread hwho hwaits hitems⟩
  case recovery => rw [exec_recoveryTimeout, runDev_ok (ok := isRecovery i) (decide_eq_true hi), recoveryTimeout_due htime hset hdue]
  case empty => exact ⟨_, (exec_tmHandoff key s).trans (runDev_ok (decide_eq_true hkey)), tmHandoff_frees hphase holdest _ henqs⟩
  case handoff =>
    obtain ⟨hfree, hqueue, hpal⟩ := tmHandoff_links hphase holdest s.clk.count henqs hon hpath helim hrepl hthr hroom
    refine ⟨_, (exec_tmHandoff key s).trans (runDev_ok (decide_eq_true hkey)), hfree, ?_⟩
    rw [hqueue]
    exact ⟨rfl, rfl, rfl, hpal⟩
  case swatch =>
    obtain ⟨n, hpass⟩ := swatchPass_visits hon hperiod hdue hmem hlo hhi
    refine ⟨_, (exec_swatchPass s).trans (runDev_ok rfl), ?_⟩
    rw [hpass]
    exact swatchVisit_leaves hmem hroom s.clk.count q hplain

end Sys2Proof.Machine
end

section
/-!
SUPPORT. The lock words of a thread (R357 to R360): which addresses are lock words, and what a request leaves.
-/

namespace Sys2Proof.Machine

/-- An aligned word of the cluster's own shared memory is a lock word. -/
theorem lockWord_own {d : Dev} {t : Nat} {va : Word} {body : Nat → Dev → Dev} (ht : isThread t = true) (hclu : isAtl t = false)
    (hdram : d.fittedDram ≤ pmBase) (halign : va.toNat % 4 = 0) (hown : va.toNat < 0x80000)
    (hshared : d.inShared (cluBase (clusterOf t) + va.toNat) = true → (txnKey t (d.thr t)).isSome = true) :
    d.lockWord t va body = body (cluBase (clusterOf t) + va.toNat) d := by
  have hallowed : (isAtl t || !d.inShared (cluBase (clusterOf t) + va.toNat) || (txnKey t (d.thr t)).isSome) = true := by
    cases hin : d.inShared (cluBase (clusterOf t) + va.toNat) with
    | false => simp
    | true => simp [hshared hin]
  unfold Dev.lockWord
  rw [if_neg (by omega), tlbFill_clu hclu]
  dsimp only
  rw [xl_own hclu hown]
  dsimp only
  rw [region_own hclu hown hdram ht, hallowed]
  rfl

/-- A word of a cluster thread whose check has passed. -/
theorem passed_clu {t : Nat} (hclu : isAtl t = false) (d : Dev) (f : Thread → Thread) :
    d.passed t f = d.setThr t (({ f (d.thr t) with fly := (f (d.thr t)).fly ++ [.ok] } : Thread).advance false) := by
  unfold Dev.passed
  rw [hclu]
  rfl

/-- Settles O19: the address is a lock word, and each word leaves its request behind those on their way. -/
theorem krovalLocks : Obligations.KrovalLocks := by
  unfold Obligations.KrovalLocks
  intro s t rd ra ht hclu hr hdram
  dsimp only
  intro halign hown hshared
  have hword (body : Nat → Dev → Dev) := lockWord_own (body := body) ht hclu hdram halign hown hshared
  refine ⟨?acquire, ?release⟩
  case acquire =>
    rw [exec_lkacq]
    exact run_issue' hr ht ((legal_true _ _ _ _ rfl).trans (hword _))
      ((congrArg Thread.dbg (Dev.thr_setThr_self s.dev t _)).trans (ready_dbg hr))
  case release =>
    rw [exec_lkrel]
    exact run_issue' hr ht ((legal_true _ _ _ _ rfl).trans ((hword _).trans (passed_clu hclu _ id)))
      ((congrArg Thread.dbg (Dev.thr_setThr_self s.dev t _)).trans ((Thread.advance_dbg _ _).trans (ready_dbg hr)))

end Sys2Proof.Machine
end

section
/-!
SUPPORT. The lock unit (R357 to R371): reads after writes of its locks and semaphores, what a status returned to a thread leaves
alone, and what its records leave.
-/

namespace Sys2Proof.Machine

/-! Reads after writes. -/

@[simp] theorem lock_setLock_self (d : Dev) (k : Nat) (l : Lock) : (d.setLock k l).lock k = l := tget_tset_self _ _ _ _

theorem lock_setLock_ne (d : Dev) {k j : Nat} (l : Lock) (h : j ≠ k) : (d.setLock k l).lock j = d.lock j := tget_tset_ne _ _ _ _ _ h

@[simp] theorem sem_setSem_self (d : Dev) (q : Nat) (x : Sem) : (d.setSem q x).sem q = x := tget_tset_self _ _ _ _

theorem sem_setSem_ne (d : Dev) {q j : Nat} (x : Sem) (h : j ≠ q) : (d.setSem q x).sem j = d.sem j := tget_tset_ne _ _ _ _ _ h

theorem lock_of_locks {d u : Dev} (h : u.lku.locks = d.lku.locks) (k : Nat) : u.lock k = d.lock k :=
  congrArg (fun m => tget Lock.free m k) h

theorem sem_of_sems {d u : Dev} (h : u.lku.sems = d.lku.sems) (q : Nat) : u.sem q = d.sem q :=
  congrArg (fun m => tget (⟨none, false⟩ : Sem) m q) h

@[simp] theorem Thread.setG_run (th : Thread) (r : Nat) (v : Word) : (th.setG r v).run = th.run := by
  obtain ⟨x, hx⟩ := setG_only th r v
  rw [hx]

@[simp] theorem Thread.advance_run (th : Thread) (atl : Bool) : (th.advance atl).run = th.run := by
  unfold Thread.advance
  split
  · rfl
  · split
    · rfl
    · split
      · rfl
      · rfl
      · simp only [apply_ite Thread.run, ite_self]

/-! A status that returns to a thread (R359). -/

/-- A thread that stalls in lkacq for a holder has the code in rd and goes on. -/
def Dev.codeReturned (d u : Dev) (t holder code : Nat) : Prop :=
  ∀ rd, (d.thr t).run = .lockWait rd → d.holderId t = holder →
    u.thr t = ({ d.thr t with run := .running }.setG rd (wd code)).advance (isAtl t)

theorem lockReply_only (d : Dev) (t holder code : Nat) : ∃ k, d.lockReply t holder code = { d with krv := k } := by
  unfold Dev.lockReply
  dsimp only
  split
  · split
    · exact ⟨_, rfl⟩
    · exact ⟨_, rfl⟩
  · exact ⟨_, rfl⟩

/-- The status returns to the thread, whatever the lock unit has done meanwhile. -/
theorem lockReply_returns {d : Dev} (e : Dev) (hkrv : e.krv = d.krv) (t holder code : Nat) :
    d.codeReturned (e.lockReply t holder code) t holder code := by
  intro rd hrun hholder
  have hthr : e.thr t = d.thr t := thr_of_krv (by rw [hkrv]) t
  have hid : e.holderId t = holder := by
    rw [← hholder]
    unfold Dev.holderId
    rw [hthr]
  unfold Dev.lockReply
  dsimp only
  rw [hthr, hrun]
  dsimp only
  rw [if_pos hid, Dev.thr_setThr_self]

/-! Waits in wt kind 1 (R363). -/

theorem wakeLock_only (d : Dev) (addr : Nat) : ∃ k, d.wakeLock addr = { d with krv := k } := by
  refine foldl_inv _ (fun u => ∃ k, u = { d with krv := k }) (fun b t hb => ?_) _ _ ⟨d.krv, rfl⟩
  obtain ⟨k, rfl⟩ := hb
  split
  · obtain ⟨⟨j, hj⟩, -⟩ := endWait_keeps { d with krv := k } t 1
    exact ⟨j, hj⟩
  · exact ⟨_, rfl⟩

theorem waitsOnLock_waiting {d : Dev} {t addr : Nat} (h : d.waitsOnLock t addr = true) : ∃ op rd, (d.thr t).run = .waiting 1 op rd := by
  unfold Dev.waitsOnLock at h
  split at h
  · exact ⟨_, _, ‹_›⟩
  · cases h

theorem endWait_thr_ne (d : Dev) {t u : Nat} (w : Word) (h : u ≠ t) : (d.endWait t w).thr u = d.thr u := by
  unfold Dev.endWait
  dsimp only
  split
  · exact d.thr_setThr_ne _ _ _ h
  · rfl

/-- A thread in no wait of wt stays as it is. -/
theorem wakeLock_thr {d : Dev} {t : Nat} (hrun : ∀ k op rd, (d.thr t).run ≠ .waiting k op rd) (addr : Nat) :
    (d.wakeLock addr).thr t = d.thr t := by
  refine foldl_inv _ (fun u : Dev => u.thr t = d.thr t) (fun b u hb => ?_) _ _ rfl
  split
  · obtain ⟨op, rd, hwaits⟩ := waitsOnLock_waiting ‹_›
    have hne : t ≠ u := by
      rintro rfl
      exact hrun 1 op rd (hb ▸ hwaits)
    exact (endWait_thr_ne b 1 hne).trans hb
  · exact hb

/-- The end of waits in wt changes nothing of a code that has returned. -/
theorem codeReturned_wakeLock {d u : Dev} {t holder code : Nat} (h : d.codeReturned u t holder code) (addr : Nat) :
    d.codeReturned (u.wakeLock addr) t holder code := by
  intro rd hrun hholder
  have hthr := h rd hrun hholder
  refine (wakeLock_thr (fun k op r => ?_) addr).trans hthr
  rw [hthr, Thread.advance_run, Thread.setG_run]
  exact fun h => nomatch h

/-! Records of the unit's faults (R361, R364, R371). -/

theorem lkuCapture_only (d : Dev) (kind addr holder : Nat) : ∃ r, d.lkuCapture kind addr holder = { d with regs := r } := by
  unfold Dev.lkuCapture
  split
  · exact ⟨_, rfl⟩
  · exact ⟨_, rfl⟩

/-- The unit's counters stand below its capture registers. -/
theorem lkuCapture_reg {o : Nat} (ho : o < Reg.LKU_CAPT_ADDR_LO) (d : Dev) (kind addr holder : Nat) :
    (d.lkuCapture kind addr holder).reg o = d.reg o := by
  have hlo : o ≠ Reg.LKU_CAPT_ADDR_LO := by omega
  have hhi : o ≠ Reg.LKU_CAPT_ADDR_HI := by simp only [Reg.LKU_CAPT_ADDR_LO, Reg.LKU_CAPT_ADDR_HI] at *; omega
  have hstatus : o ≠ Reg.LKU_CAPT_STATUS := by simp only [Reg.LKU_CAPT_ADDR_LO, Reg.LKU_CAPT_STATUS] at *; omega
  unfold Dev.lkuCapture
  split
  · exact d.reg_setRb_ne _ _ _ _ hstatus
  · rw [Dev.reg_setReg_ne _ _ _ _ hstatus, Dev.reg_setReg_ne _ _ _ _ hhi, Dev.reg_setReg_ne _ _ _ _ hlo]

/-- An event is counted, captured and reported. -/
def Dev.lkuRecorded (d : Dev) (counter kind addr src holder : Nat) : Dev :=
  ((d.bump counter 1).lkuCapture kind addr holder).raise src holder

theorem lkuRecorded_leaves {o : Nat} (ho : o < Reg.LKU_CAPT_ADDR_LO) (d : Dev) (kind addr src holder : Nat) :
    let u := d.lkuRecorded o kind addr src holder
    u.lku = d.lku ∧ u.krv = d.krv ∧ u.reg o = d.reg o + 1 ∧ u.flt.inbox = d.flt.inbox ++ [⟨src, wd holder, false⟩] := by
  have hreg : ((d.bump o 1).lkuCapture kind addr holder).reg o = d.reg o + 1 := (lkuCapture_reg ho _ _ _ _).trans (reg_bump_one d o)
  obtain ⟨r, hr⟩ := lkuCapture_only (d.bump o 1) kind addr holder
  unfold Dev.lkuRecorded
  rw [hr] at hreg ⊢
  exact ⟨rfl, rfl, hreg, rfl⟩

end Sys2Proof.Machine
end

section
/-!
SUPPORT. The lock unit's events (R359 to R365, R369, R371): what each leaves.
-/

namespace Sys2Proof.Machine

/-! Acquires (R359, R362). -/

section

variable {d : Dev} {k : Nat} {w : Waiter}

/-- A lock that nobody holds, and that has an entry or gets one. -/
theorem lockAcquire_free (hfree : (d.lock k).holder = none)
    (hroom : (d.lock k).broken = true ∨ (d.lku.locks.length < 8192 ∧ d.lku.entryWait = [])) :
    d.lockAcquire k w = (d.setLock k ⟨some w.holder, false, []⟩).lockReply w.thread w.holder (b2n (d.lock k).broken) := by
  unfold Dev.lockAcquire
  dsimp only
  rw [hfree]
  dsimp only
  cases hbroken : (d.lock k).broken with
  | true => rfl
  | false =>
    obtain ⟨hlen, hwait⟩ := hroom.resolve_left (by simp [hbroken])
    rw [if_neg Bool.false_ne_true, if_neg (by simp [hwait]; omega)]
    rfl

theorem lockAcquire_full (hfree : (d.lock k).holder = none) (hbroken : (d.lock k).broken = false)
    (hfull : 8192 ≤ d.lku.locks.length ∨ d.lku.entryWait ≠ []) :
    d.lockAcquire k w = { d with lku := { d.lku with entryWait := d.lku.entryWait ++ [(k, w)] } } := by
  unfold Dev.lockAcquire
  dsimp only
  rw [hfree]
  dsimp only
  rw [hbroken, if_neg Bool.false_ne_true, if_pos (by simpa using hfull)]

theorem lockAcquire_again (hmine : (d.lock k).holder = some w.holder) : d.lockAcquire k w = d.lockReply w.thread w.holder 3 := by
  unfold Dev.lockAcquire
  dsimp only
  rw [hmine]
  exact if_pos rfl

theorem lockAcquire_queues {h : Nat} (hheld : (d.lock k).holder = some h) (hother : h ≠ w.holder) :
    d.lockAcquire k w = d.setLock k { d.lock k with waiters := (d.lock k).waiters ++ [w] } := by
  unfold Dev.lockAcquire
  dsimp only
  rw [hheld]
  exact if_neg hother

end

/-- No request is taken and no fault is reported. -/
structure lockQuiet (d u : Dev) : Prop where
  reqs : u.lku.reqs = d.lku.reqs
  flt : u.flt = d.flt

/-- Nor does another lock change. -/
structure oneLock (k : Nat) (d u : Dev) : Prop extends lockQuiet d u where
  others : ∀ j, j ≠ k → u.lock j = d.lock j

theorem lockQuiet_trans {a b c : Dev} (h : lockQuiet a b) (h' : lockQuiet b c) : lockQuiet a c :=
  ⟨h'.reqs.trans h.reqs, h'.flt.trans h.flt⟩

theorem lockQuiet_krv {d u : Dev} (hu : ∃ x, u = { d with krv := x }) : lockQuiet d u := by
  obtain ⟨x, rfl⟩ := hu
  exact ⟨rfl, rfl⟩

theorem lockQuiet_setLock (d : Dev) (k : Nat) (l : Lock) : lockQuiet d (d.setLock k l) := ⟨rfl, rfl⟩

theorem oneLock_setLock (k : Nat) (d : Dev) (l : Lock) : oneLock k d (d.setLock k l) :=
  ⟨lockQuiet_setLock d k l, fun _ hj => lock_setLock_ne d l hj⟩

theorem oneLock_krv {k : Nat} {d e u : Dev} (h : oneLock k d e) (hu : ∃ x, u = { e with krv := x }) : oneLock k d u := by
  obtain ⟨x, rfl⟩ := hu
  exact ⟨⟨h.reqs, h.flt⟩, h.others⟩

theorem oneLock_lockAcquire (k : Nat) (d : Dev) (w : Waiter) : oneLock k d (d.lockAcquire k w) := by
  have hself : oneLock k d d := ⟨⟨rfl, rfl⟩, fun _ _ => rfl⟩
  unfold Dev.lockAcquire
  dsimp only
  split
  · split
    · exact oneLock_krv hself (lockReply_only _ _ _ _)
    · exact oneLock_setLock _ _ _
  · split
    · exact oneLock_krv (oneLock_setLock _ _ _) (lockReply_only _ _ _ _)
    · split
      · exact ⟨⟨rfl, rfl⟩, fun _ _ => rfl⟩
      · exact oneLock_krv (oneLock_setLock _ _ _) (lockReply_only _ _ _ _)

theorem lockQuiet_lockEnter (d : Dev) (k : Nat) (w : Waiter) : lockQuiet d (d.lockEnter k w) := by
  unfold Dev.lockEnter
  dsimp only
  split
  · exact lockQuiet_setLock _ _ _
  · exact lockQuiet_trans (lockQuiet_setLock _ _ _) (lockQuiet_krv (lockReply_only _ _ _ _))

theorem lockQuiet_serveEntry (n : Nat) (d : Dev) : lockQuiet d (d.serveEntry n) := by
  induction n generalizing d with
  | zero => exact ⟨rfl, rfl⟩
  | succ n ih =>
    unfold Dev.serveEntry
    split
    · exact ⟨rfl, rfl⟩
    · rename_i k w r hwait
      split
      · have hentry : lockQuiet d { d with lku := { d.lku with entryWait := r } } := ⟨rfl, rfl⟩
        exact lockQuiet_trans (lockQuiet_trans hentry (lockQuiet_lockEnter _ k w)) (ih _)
      · exact ⟨rfl, rfl⟩

theorem lockQuiet_lockFree (d : Dev) (k : Nat) (broken : Bool) : lockQuiet d (d.lockFree k broken) := by
  unfold Dev.lockFree
  dsimp only
  refine lockQuiet_trans ?_ (lockQuiet_krv (wakeLock_only _ _))
  split
  · exact lockQuiet_trans (lockQuiet_setLock _ _ _) (lockQuiet_krv (lockReply_only _ _ _ _))
  · exact lockQuiet_trans (lockQuiet_setLock _ _ _) (lockQuiet_serveEntry _ _)

theorem lock_lockReply (d : Dev) (t holder code k : Nat) : (d.lockReply t holder code).lock k = d.lock k := by
  obtain ⟨x, hx⟩ := lockReply_only d t holder code
  rw [hx]
  rfl

/-- What an acquire leaves, by the lock's holder. -/
theorem lockAcquire_leaves (d : Dev) (k : Nat) (w : Waiter) : let l := d.lock k
    let u := d.lockAcquire k w
    (l.holder = none → l.broken = true ∨ (d.lku.locks.length < 8192 ∧ d.lku.entryWait = []) →
      u.lock k = ⟨some w.holder, false, []⟩ ∧ d.codeReturned u w.thread w.holder (b2n l.broken)) ∧
    (l.holder = none → l.broken = false → 8192 ≤ d.lku.locks.length ∨ d.lku.entryWait ≠ [] →
      u.krv = d.krv ∧ u.lku.entryWait = d.lku.entryWait ++ [(k, w)]) ∧
    (l.holder = some w.holder → u.lock k = l ∧ d.codeReturned u w.thread w.holder 3) ∧
    (∀ h, l.holder = some h → h ≠ w.holder → u.krv = d.krv ∧ u.lock k = { l with waiters := l.waiters ++ [w] }) := by
  dsimp only
  refine ⟨fun hfree hroom => ?_, fun hfree hbroken hfull => ?_, fun hmine => ?_, fun h hheld hother => ?_⟩
  · rw [lockAcquire_free hfree hroom, lock_lockReply]
    exact ⟨lock_setLock_self _ _ _, lockReply_returns (d.setLock k ⟨some w.holder, false, []⟩) rfl _ _ _⟩
  · rw [lockAcquire_full hfree hbroken hfull]
    exact ⟨rfl, rfl⟩
  · rw [lockAcquire_again hmine, lock_lockReply]
    exact ⟨rfl, lockReply_returns d rfl _ _ _⟩
  · rw [lockAcquire_queues hheld hother]
    exact ⟨rfl, lock_setLock_self _ _ _⟩

/-- The device in which these requests are still on their way. -/
def Dev.reqsLeft (d : Dev) (rest : List LockReq) : Dev := { d with lku := { d.lku with reqs := rest } }

section

variable {d : Dev} {r : LockReq} {rest : List LockReq} (hreqs : d.lku.reqs = r :: rest)
include hreqs

theorem popLockReq_eq : d.popLockReq = d.reqsLeft rest := by
  unfold Dev.popLockReq
  rw [hreqs]
  rfl

theorem lockAcquireStep_disabled (hacq : r.acquire = true) (hoff : d.rb Reg.LKU_CTL 16 = false) (now : Nat) :
    lockAcquireStep now d = (d.reqsLeft rest).lockReply r.thread r.holder 4 := by
  have hctl : d.popLockReq.rb Reg.LKU_CTL 16 = false := hoff
  unfold lockAcquireStep
  rw [hreqs]
  dsimp only
  rw [if_pos hacq, hctl, popLockReq_eq hreqs]
  rfl

theorem lockAcquireStep_enabled (hacq : r.acquire = true) (hon : d.rb Reg.LKU_CTL 16 = true) (now : Nat) :
    lockAcquireStep now d = (d.reqsLeft rest).lockAcquire (r.addr / 4)
      ⟨r.thread, r.holder, now + 1000 * d.rf Reg.LKU_CTL 15 0⟩ := by
  have hctl : d.popLockReq.rb Reg.LKU_CTL 16 = true := hon
  unfold lockAcquireStep
  rw [hreqs]
  dsimp only
  rw [if_pos hacq, hctl, popLockReq_eq hreqs]
  rfl

theorem lockAcquireStep_oneLock (hacq : r.acquire = true) (now : Nat) :
    oneLock (r.addr / 4) (d.reqsLeft rest) (lockAcquireStep now d) := by
  cases hctl : d.rb Reg.LKU_CTL 16 with
  | false =>
    rw [lockAcquireStep_disabled hreqs hacq hctl]
    exact oneLock_krv ⟨⟨rfl, rfl⟩, fun _ _ => rfl⟩ (lockReply_only _ _ _ _)
  | true =>
    rw [lockAcquireStep_enabled hreqs hacq hctl]
    exact oneLock_lockAcquire _ _ _

/-! Releases (R360, R361). -/

theorem lockRelease_takes (hrel : r.acquire = false) (hlock : r.addr < semBase ∨ semBase + 0x10000 ≤ r.addr) :
    lockRelease d = (d.reqsLeft rest).lockRelease (r.addr / 4) r.holder := by
  have hstep : lockReleaseStep d = (d.reqsLeft rest).lockRelease (r.addr / 4) r.holder := by
    unfold lockReleaseStep
    rw [hreqs, popLockReq_eq hreqs]
    dsimp only
    rw [hrel]
    rfl
  unfold lockRelease
  rw [hreqs]
  dsimp only
  split
  · rw [if_neg (by omega), hstep]
  · exact hstep

theorem semaphoreRelease_takes {q : Nat} (hrel : r.acquire = false) (hq : q < 256) (haddr : r.addr = semBase + 0x100 * q + 4) :
    semaphoreRelease d = (d.reqsLeft rest).semRelease r.holder q := by
  have hoff : r.addr - semBase = 0x100 * q + 4 := by omega
  unfold semaphoreRelease
  rw [hreqs]
  dsimp only
  rw [if_pos ⟨by simp [hrel], by omega, by omega⟩, popLockReq_eq hreqs, hoff]
  unfold Dev.semWrite
  rw [if_pos (by omega), show (0x100 * q + 4) / 0x100 = q by omega]

end

/-- A lock with a waiter is handed to the first. -/
theorem lockFree_hands {d : Dev} {k : Nat} {w : Waiter} {ws : List Waiter} (hwait : (d.lock k).waiters = w :: ws) (broken : Bool) :
    d.lockFree k broken =
      ((d.setLock k ⟨some w.holder, false, ws⟩).lockReply w.thread w.holder (b2n broken)).wakeLock (4 * k) := by
  unfold Dev.lockFree
  dsimp only
  rw [hwait]

/-- A lock without one is free, and with no acquire waiting for an entry nothing else happens. -/
theorem lockFree_frees {d : Dev} {k : Nat} (hnone : (d.lock k).waiters = []) (hwait : d.lku.entryWait = []) (broken : Bool) :
    d.lockFree k broken = (d.setLock k ⟨none, broken, []⟩).wakeLock (4 * k) := by
  unfold Dev.lockFree
  dsimp only
  rw [hnone, hwait]
  rfl

theorem lock_wakeLock (d : Dev) (addr k : Nat) : (d.wakeLock addr).lock k = d.lock k := by
  obtain ⟨x, hx⟩ := wakeLock_only d addr
  rw [hx]
  rfl

/-- What the release of a lock by its holder leaves. -/
theorem lockFree_leaves (d : Dev) (k : Nat) : let l := d.lock k
    let u := d.lockFree k false
    (d.lku.entryWait = [] → ∀ j, j ≠ k → u.lock j = d.lock j) ∧
    (∀ w ws, l.waiters = w :: ws → u.lock k = ⟨some w.holder, false, ws⟩ ∧ d.codeReturned u w.thread w.holder 0) ∧
    (l.waiters = [] → d.lku.entryWait = [] → u.lock k = Lock.free) := by
  dsimp only
  refine ⟨fun hentry j hj => ?_, fun w ws hwait => ?_, fun hnone hentry => ?_⟩
  · cases hwait : (d.lock k).waiters with
    | cons w ws =>
      rw [lockFree_hands hwait, lock_wakeLock, lock_lockReply]
      exact lock_setLock_ne d _ hj
    | nil =>
      rw [lockFree_frees hwait hentry, lock_wakeLock]
      exact lock_setLock_ne d _ hj
  · rw [lockFree_hands hwait, lock_wakeLock, lock_lockReply]
    exact ⟨lock_setLock_self _ _ _,
      codeReturned_wakeLock (lockReply_returns (d.setLock k ⟨some w.holder, false, ws⟩) rfl _ _ _) _⟩
  · rw [lockFree_frees hnone hentry, lock_wakeLock]
    exact lock_setLock_self _ _ _

theorem badRelease_leaves (d : Dev) (addr holder : Nat) : let u := d.badRelease addr holder
    u.lku = d.lku ∧ u.krv = d.krv ∧ u.reg Reg.LKU_BAD_REL_CNT = d.reg Reg.LKU_BAD_REL_CNT + 1 ∧
      u.flt.inbox = d.flt.inbox ++ [⟨Src.lkuBadRelease, wd holder, false⟩] :=
  lkuRecorded_leaves (by decide) d 1 addr Src.lkuBadRelease holder

/-! Waits over their limit (R364). -/

/-- A lock without these of its waiters. -/
def Lock.without (l : Lock) (late : Waiter → Bool) : Lock := { l with waiters := l.waiters.filter fun x => !late x }

section

variable {d : Dev} {now t k : Nat} {l : Lock} {w : Waiter} {late : Waiter → Bool}
  (hlate : late = fun x => decide (x.thread = t ∧ x.until_ ≤ now))
  (hlock : d.lku.locks.find? (fun e => e.2.waiters.any late) = some (k, l)) (hwaiter : l.waiters.find? late = some w)
include hlate hlock hwaiter

theorem lockTimeout_ends : d.lockTimeout now t = ((d.setLock k (l.without late)).lkuRecorded Reg.LKU_TIMEOUT_CNT 0 (4 * k)
    Src.lkuWaitTimeout w.holder).lockReply t w.holder 2 := by
  have hw := List.find?_some hwaiter
  subst hlate
  obtain ⟨hthread, -⟩ := of_decide_eq_true hw
  unfold Dev.lockTimeout
  dsimp only
  rw [hlock]
  dsimp only
  rw [hwaiter]
  dsimp only
  rw [hthread]
  rfl

theorem lockTimeout_leaves : let u := d.lockTimeout now t
    (∀ j, j ≠ k → u.lock j = d.lock j) ∧ u.lock k = l.without late ∧ d.codeReturned u t w.holder 2 ∧
      u.reg Reg.LKU_TIMEOUT_CNT = d.reg Reg.LKU_TIMEOUT_CNT + 1 ∧
      u.flt.inbox = d.flt.inbox ++ [⟨Src.lkuWaitTimeout, wd w.holder, false⟩] := by
  obtain ⟨hlku, hkrv, hreg, hinbox⟩ := lkuRecorded_leaves (o := Reg.LKU_TIMEOUT_CNT) (by decide) (d.setLock k (l.without late)) 0
    (4 * k) Src.lkuWaitTimeout w.holder
  rw [lockTimeout_ends hlate hlock hwaiter]
  generalize (d.setLock k (l.without late)).lkuRecorded Reg.LKU_TIMEOUT_CNT 0 (4 * k) Src.lkuWaitTimeout w.holder = e at *
  have hlocks (j : Nat) : (e.lockReply t w.holder 2).lock j = (d.setLock k (l.without late)).lock j :=
    (lock_lockReply _ _ _ _ _).trans (lock_of_locks (congrArg Lku.locks hlku) j)
  have hreply := lockReply_returns (d := d) e hkrv t w.holder 2
  obtain ⟨x, hx⟩ := lockReply_only e t w.holder 2
  refine ⟨fun j hj => (hlocks j).trans (lock_setLock_ne d _ hj), (hlocks k).trans (lock_setLock_self _ _ _), hreply, ?_, ?_⟩
  · rw [hx]
    exact hreg
  · rw [hx]
    exact hinbox

end

/-! Semaphores (R369). -/

theorem semAcquire_held {d : Dev} {q h : Nat} (hon : d.rb Reg.LKU_CTL 16 = true) (hheld : (d.sem q).holder = some h) (holder : Nat) :
    d.semAcquire holder q = (if h = holder then 3 else 1, d) := by
  unfold Dev.semAcquire
  dsimp only
  rw [hon, hheld]
  by_cases hmine : h = holder
  · simp [hmine]
  · simp [hmine]

theorem semAcquire_free {d : Dev} {q : Nat} (hon : d.rb Reg.LKU_CTL 16 = true) (hfree : (d.sem q).holder = none) (holder : Nat) :
    d.semAcquire holder q = (if (d.sem q).broken then 2 else 0, d.setSem q ⟨some holder, false⟩) := by
  unfold Dev.semAcquire
  dsimp only
  rw [hon, hfree]
  rfl

section

variable {d : Dev} {t q : Nat} {l : Load} (hload : (d.thr t).load = some l) (htxn : d.txnRuns t = true)
  (hown : ∀ r ∈ d.lku.reqs, r.thread = t → r.addr / 0x100 ≠ (semBase + 0x100 * q) / 0x100)
include hload htxn hown

theorem semLoad_reads {off : Nat} (haddr : l.paddr = semBase + 0x100 * q + off) : semLoad off t q d =
    (d.semRead (d.holderId t) (0x100 * q + off)).2.endLoad t l (d.semRead (d.holderId t) (0x100 * q + off)).1 := by
  unfold semLoad
  rw [hload]
  dsimp only
  rw [if_pos ⟨haddr, htxn, by simpa using hown⟩]

theorem semaphoreAcquire_reads (haddr : l.paddr = semBase + 0x100 * q) : semaphoreAcquire t q d =
    (d.semAcquire (d.holderId t) q).2.endLoad t l (d.semAcquire (d.holderId t) q).1 := by
  have hread : d.semRead (d.holderId t) (0x100 * q + 0) = d.semAcquire (d.holderId t) q := by
    unfold Dev.semRead
    dsimp only
    rw [if_pos (by omega), show (0x100 * q + 0) / 0x100 = q by omega]
  rw [← hread]
  exact semLoad_reads hload htxn hown haddr

theorem semaphoreStatus_reads (hon : d.rb Reg.LKU_CTL 16 = true) (haddr : l.paddr = semBase + 0x100 * q + 4) :
    semaphoreStatus t q d = d.endLoad t l (d.sem q).status := by
  have hread : d.semRead (d.holderId t) (0x100 * q + 4) = ((d.sem q).status, d) := by
    unfold Dev.semRead
    dsimp only
    rw [if_neg (by omega), if_neg (by simp [hon]), if_pos (by omega), show (0x100 * q + 4) / 0x100 = q by omega]
  refine (semLoad_reads hload htxn hown haddr).trans ?_
  rw [hread]

end

/-! The probe (R371). -/

theorem probeStatus_setReg (d : Dev) (o : Nat) (v : Word) (addr : Nat) : (d.setReg o v).probeStatus addr = d.probeStatus addr := by
  have hlock : (d.setReg o v).lock (addr / 4) = d.lock (addr / 4) := rfl
  unfold Dev.probeStatus
  rw [hlock]

theorem probe_word_fields {a b h : Nat} (ha : a ≤ 1) (hb : b ≤ 1) (hh : h < 2 ^ 16) (c : Nat) :
    let w := wd (a * 2 ^ 31 + b * 2 ^ 30 + c % 2 ^ 11 * 2 ^ 16 + h)
    fld w 31 31 = a ∧ fld w 30 30 = b ∧ fld w 26 16 = c % 2 ^ 11 := by
  dsimp only
  rw [fld_wd _ _ _ (by omega) (by omega), fld_wd _ _ _ (by omega) (by omega), fld_wd _ _ _ (by omega) (by omega)]
  exact ⟨by omega, by omega, by omega⟩

theorem probeStatus_fields {d : Dev} {addr : Nat} (hholder : (d.lock (addr / 4)).holder.getD 0 < 2 ^ 16) :
    bit (d.probeStatus addr) 31 = (d.lock (addr / 4)).holder.isSome ∧ bit (d.probeStatus addr) 30 = (d.lock (addr / 4)).broken ∧
      fld (d.probeStatus addr) 26 16 = (d.lock (addr / 4)).waiters.length % 2 ^ 11 := by
  have hbit (b : Bool) : decide (b2n b = 1) = b := by cases b <;> rfl
  obtain ⟨hheld, hbroken, hwaiters⟩ := probe_word_fields (b2n_le (d.lock (addr / 4)).holder.isSome)
    (b2n_le (d.lock (addr / 4)).broken) hholder (d.lock (addr / 4)).waiters.length
  unfold Dev.probeStatus
  dsimp only
  rw [bit_eq_fld, bit_eq_fld, hheld, hbroken, hbit, hbit]
  exact ⟨rfl, rfl, hwaiters⟩

theorem lockProbe_leaves (hi : Word) (d : Dev) : let a := (d.reg Reg.LKU_PROBE_ADDR_LO).toNat + hi.toNat % 2 ^ 16 * 2 ^ 32
    let u := lockProbe hi d
    u.rf Reg.LKU_PROBE_ADDR_HI 15 0 = hi.toNat % 2 ^ 16 ∧ u.reg Reg.LKU_PROBE_STATUS = d.probeStatus a ∧ u.lku = d.lku := by
  have hfld : fld hi 15 0 = hi.toNat % 2 ^ 16 := by
    unfold fld
    rw [Nat.pow_zero, Nat.div_one]
  have hlow (v : Word) : (d.setReg Reg.LKU_PROBE_ADDR_HI v).reg Reg.LKU_PROBE_ADDR_LO = d.reg Reg.LKU_PROBE_ADDR_LO :=
    d.reg_setReg_ne _ _ _ (by decide)
  unfold lockProbe
  dsimp only
  rw [Dev.rf_setReg_ne _ _ _ _ _ _ (by decide), Dev.reg_setReg_self, hfld, hlow, probeStatus_setReg,
    Dev.setReg_lku, Dev.setReg_lku]
  refine ⟨?_, rfl, rfl⟩
  unfold Dev.rf
  rw [Dev.reg_setReg_self, fld_wd _ _ _ (by omega) (by omega)]
  omega

/-- Settles O46: each event by the lemma about what it leaves. -/
theorem lockUnit : Obligations.LockUnit := by
  unfold Obligations.LockUnit
  intro s
  dsimp only
  refine ⟨fun r rest hreqs hacq => ?acquire, fun r rest hreqs hrel hlock => ?release, fun t k l w ht hlate hwaiter => ?timeout,
    fun t q l ht hq hload htxn hon hown => ⟨fun haddr => ?semAcquire, fun haddr => ?semStatus⟩,
    fun r rest q hreqs hrel hq haddr => ?semRelease, fun hi hreset hholder => ?probe⟩
  case acquire =>
    obtain ⟨⟨hrest, hflt⟩, hothers⟩ := lockAcquireStep_oneLock hreqs hacq s.clk.count
    refine ⟨_, (exec_lockAcquire s).trans (runDev_ok rfl), hrest, hothers, hflt, fun hoff => ?_, fun hon => ?_⟩
    · rw [lockAcquireStep_disabled hreqs hacq hoff, lock_lockReply]
      exact ⟨rfl, lockReply_returns (d := s.dev) (s.dev.reqsLeft rest) rfl _ _ _⟩
    · rw [lockAcquireStep_enabled hreqs hacq hon]
      exact lockAcquire_leaves (s.dev.reqsLeft rest) (r.addr / 4) _
  case release =>
    refine ⟨_, (exec_lockRelease s).trans (runDev_ok rfl), ?_⟩
    rw [lockRelease_takes hreqs hrel hlock]
    unfold Dev.lockRelease
    split
    · rename_i hmine
      obtain ⟨hothers, hhanded, hfreed⟩ := lockFree_leaves (s.dev.reqsLeft rest) (r.addr / 4)
      obtain ⟨hrest, hflt⟩ := lockQuiet_lockFree (s.dev.reqsLeft rest) (r.addr / 4) false
      exact ⟨hrest, hothers, fun hother => absurd hmine hother, fun _ => ⟨hflt, hhanded, hfreed⟩⟩
    · rename_i hother
      obtain ⟨hlku, hkrv, hcount, hinbox⟩ := badRelease_leaves (s.dev.reqsLeft rest) (4 * (r.addr / 4)) r.holder
      exact ⟨congrArg Lku.reqs hlku, fun _ j _ => lock_of_locks ((congrArg Lku.locks hlku).trans rfl) j,
        fun _ => ⟨hlku, hkrv, hcount, hinbox⟩, fun hmine => absurd hmine hother⟩
  case timeout =>
    exact ⟨_, (exec_lockWaitTimeout t s).trans (runDev_ok ht), lockTimeout_leaves rfl hlate hwaiter⟩
  case semAcquire =>
    refine ⟨_, (exec_semaphoreAcquire t q s).trans (runDev_ok (by rw [ht]; exact decide_eq_true hq)), ?_⟩
    rw [semaphoreAcquire_reads hload htxn hown haddr, endLoad_thr]
    cases hsem : (s.dev.sem q).holder with
    | none =>
      rw [semAcquire_free hon hsem]
      exact ⟨rfl, sem_setSem_self _ _ _, fun j hj => sem_setSem_ne _ _ hj⟩
    | some h =>
      rw [semAcquire_held hon hsem]
      exact ⟨rfl, rfl, fun _ _ => rfl⟩
  case semStatus =>
    refine ⟨_, (exec_semaphoreStatus t q s).trans (runDev_ok (by rw [ht]; exact decide_eq_true hq)), ?_⟩
    rw [semaphoreStatus_reads hload htxn hown hon haddr]
    refine ⟨rfl, (endLoad_thr _ _ _ _).trans ?_⟩
    unfold Sem.status
    rfl
  case semRelease =>
    refine ⟨_, (exec_semaphoreRelease s).trans (runDev_ok rfl), ?_⟩
    rw [semaphoreRelease_takes hreqs hrel hq haddr]
    unfold Dev.semRelease
    split
    · rename_i hmine
      exact ⟨rfl, rfl, rfl, fun _ => ⟨sem_setSem_self _ _ _, rfl⟩, fun hother => absurd hmine hother⟩
    · rename_i hother
      obtain ⟨hlku, hkrv, -, hinbox⟩ := badRelease_leaves (s.dev.reqsLeft rest) (semBase + 0x100 * q) r.holder
      exact ⟨congrArg Lku.reqs hlku, hkrv, (congrArg Lku.locks hlku).trans rfl, fun hmine => absurd hmine hother,
        fun _ => ⟨sem_of_sems ((congrArg Lku.sems hlku).trans rfl) q, hinbox⟩⟩
  case probe =>
    obtain ⟨hlow, hstatus, hlku⟩ := lockProbe_leaves hi s.dev
    obtain ⟨hheld, hbroken, hwaiters⟩ := probeStatus_fields hholder
    refine ⟨_, (exec_lockProbe hi s).trans (runDev_ok rfl), ?_⟩
    rw [live_on hreset]
    refine ⟨hlow, ?_, ?_, ?_, hlku⟩
    · exact (congrArg (bit · 31) hstatus).trans hheld
    · exact (congrArg (bit · 30) hstatus).trans hbroken
    · exact (congrArg (fld · 26 16) hstatus).trans hwaiters

end Sys2Proof.Machine
end

section
/-!
SUPPORT. What a command that is well formed answers.
-/

namespace Sys2Proof.Machine

theorem runAll_ok {ok : Bool} {c : Clock → Clock} {n : Ident → Ident} {f : Dev → Dev} {s : State} (h : ok = true) :
    runAll ok c n f s = .next { s with clk := c s.clk, idn := n s.idn, dev := f s.dev } := by
  unfold runAll
  rw [if_pos h]

theorem runIdn_ok {ok : Bool} {n : Ident → Ident} {f : Dev → Dev} {s : State} (h : ok = true) :
    runIdn ok n f s = .next { s with idn := n s.idn, dev := f s.dev } := by
  unfold runIdn
  rw [if_pos h]

theorem withDev_self (s : State) : s.withDev s.dev = s := rfl

theorem runDev_becomes {s : State} {f : Dev → Dev} {e : Dev} (h : f s.dev = e) : runDev true f s = .next (s.withDev e) := by
  rw [runDev_ok rfl, h]

theorem runDev_silent {s : State} {f : Dev → Dev} (h : f s.dev = s.dev) : runDev true f s = .next s := by
  rw [runDev_ok rfl, h, withDev_self]

end Sys2Proof.Machine
end

section
/-!
SUPPORT. The device's statements about every step: which command runs, that it answers, and what it keeps of the time and the
fuses.
-/

namespace Sys2Proof.Machine

/-- Every command answers by whether it is well formed: those that touch the clock or the identity one by one, all others on
the device alone. -/
theorem exec_answers (c : Instr) (s : State) : (c.wf = true → ∃ t, exec c s = .next t ∧ t.pending = s.pending) ∧
    (c.wf = false → exec c s = .fault .noSuchUnit) := by
  cases c with
  | timeSet => rw [exec_timeSet]; exact runClk_ans _ _ _ _
  | timeStep => rw [exec_timeStep]; exact runClk_ans _ _ _ _
  | timePpsOutRise => rw [exec_timePpsOutRise]; exact runClk_ans _ _ _ _
  | primerBoot => rw [exec_primerBoot]; exact runIdn_ans _ _ _ _
  | hostBootDmaDone => rw [exec_hostBootDmaDone]; exact runIdn_ans _ _ _ _
  | profileCommit => rw [exec_profileCommit]; exact runIdn_ans _ _ _ _
  | measurementExtend => rw [exec_measurementExtend]; exact runIdn_ans _ _ _ _
  | vddIoLoss => rw [exec_vddIoLoss]; exact runAll_ans _ _ _ _ _
  | resetNAssert => rw [exec_resetNAssert]; exact runAll_ans _ _ _ _ _
  | fixativeHeartbeatStop => rw [exec_fixativeHeartbeatStop]; exact runAll_ans _ _ _ _ _
  | subunitReset => rw [exec_subunitReset]; exact runAll_ans _ _ _ _ _
  | dbgAccess => rw [exec_dbgAccess]; exact runAll_ans _ _ _ _ _
  | registerWrite => rw [exec_registerWrite]; exact runAll_ans _ _ _ _ _
  | stw => rw [exec_stw]; exact runAll_ans _ _ _ _ _
  | stwPostinc => rw [exec_stwPostinc]; exact runAll_ans _ _ _ _ _
  | lockWaitTimeout => rw [exec_lockWaitTimeout]; exact runDev_ans _ _ _
  | _ => exact runDev_ans _ _ _

/-- Settles O4: `exec_answers`. -/
theorem commandsAnswer : Obligations.CommandsAnswer := by
  unfold Obligations.CommandsAnswer
  exact exec_answers

/-- Settles O1: the second branch of `step`. -/
theorem stepRunsFront : Obligations.StepRunsFront := by
  unfold Obligations.StepRunsFront
  intro c rest s hpending
  unfold step
  rw [hpending]

/-- Settles O5: a tick keeps the ranges, and so does each clock that `exec_clk` admits. -/
theorem timeStaysInRange : Obligations.TimeStaysInRange := by
  unfold Obligations.TimeStaysInRange
  intro s t hok hstep
  obtain ⟨-, rfl⟩ | ⟨c, rest, -, hrun⟩ := step_cases s t hstep
  · exact tick_ok s.dev s.clk hok
  · obtain ⟨hclk, -⟩ := exec_clk c { s with pending := rest } t hrun
    exact may_ok s.dev s.clk t.clk hok hclk

/-- An identity that another one may follow (R490, R491, R498): the fused parts stand, and the revoke mask and the minimum svn
only gain. -/
def Ident.gains (i j : Ident) : Prop := j.sameFuses i ∧ i.svnMin ≤ j.svnMin ∧ j.revoked ||| i.revoked = j.revoked

theorem gains_measExtend (r : Req) (d : Dev) (i : Ident) : i.gains (measExtendIdent r d i) := by
  obtain heq | ⟨dg, heq⟩ := meas_idn r d i
  · rw [heq]; exact idn_refl i i.meas
  · rw [heq]; exact idn_refl i _

theorem gains_profileCommit (d : Dev) (i : Ident) : i.gains (profileCommitIdent d i) := by
  obtain heq | ⟨dg, heq⟩ := commit_idn d i
  · rw [heq]; exact idn_refl i i.meas
  · rw [heq]; exact idn_refl i _

theorem gains_of_may {d : Dev} {i j : Ident} (h : Ident.may d i j) : i.gains j := by
  obtain rfl | rfl | ⟨r, rfl⟩ | ⟨r, -, rfl⟩ := h
  · exact idn_refl j j.meas
  · exact idn_refl i _
  · exact gains_measExtend r d i
  · exact boot_idn r i

/-- Settles O7: a tick leaves the identity, and every identity that `exec_idn` admits gains. -/
theorem fusesOnlyGain : Obligations.FusesOnlyGain := by
  unfold Obligations.FusesOnlyGain
  intro s t hstep
  obtain ⟨-, rfl⟩ | ⟨c, rest, -, hrun⟩ := step_cases s t hstep
  · exact idn_refl s.idn s.idn.meas
  · obtain hmay | ⟨-, hcommit⟩ := exec_idn c { s with pending := rest } t hrun
    · exact gains_of_may hmay
    · rw [hcommit]; exact gains_profileCommit s.dev s.idn

/-- While RESET_N is low the clock stands (R412). -/
theorem clockTick_in_reset {d : Dev} (c : Clock) (hreset : d.pins.resetN = false) : clockTick d c = c := by
  unfold clockTick
  exact if_pos (.inl (by rw [hreset]; rfl))

/-- With neither TCLK nor REFCLK_SYS the clock stands (R412). -/
theorem clockTick_unclocked {d : Dev} (c : Clock) (hlock : d.rb Reg.GLB_CLK_STATUS 29 = false) (href : d.pins.refclk = false) :
    clockTick d c = c := by
  unfold clockTick
  exact if_pos (.inr (by rw [hlock, href]; exact ⟨rfl, rfl⟩))

/-- The nanosecond counter gains 1 with TCLK and 10 with REFCLK_SYS alone, whether or not the time base runs (R82, R412). -/
theorem clockTick_count {d : Dev} (c : Clock) (hreset : d.pins.resetN = true)
    (hclock : d.rb Reg.GLB_CLK_STATUS 29 = true ∨ d.pins.refclk = true) :
    (clockTick d c).count = (c.count + if d.rb Reg.GLB_CLK_STATUS 29 then 1 else 10) % 2 ^ 64 := by
  unfold clockTick
  dsimp only
  rw [if_neg (by rw [hreset]; obtain h | h := hclock <;> simp [h])]
  split
  · rfl
  · split
    · rfl
    · rfl

/-- Settles O2: the tick's device by definition, and its clock by which clocks run. -/
theorem idleStepTicks : Obligations.IdleStepTicks := by
  unfold Obligations.IdleStepTicks
  intro s hpending
  have hstep : step s = .next s.tick := by unfold step; rw [hpending]
  refine ⟨s.tick, hstep, hpending, rfl, rfl, fun hreset => ?reset, fun _ hreset => ⟨fun hlock => ?tclk, fun hlock href => ?refclk, fun hlock href => ?none⟩⟩
  case reset => exact clockTick_in_reset s.clk hreset
  case tclk => exact (clockTick_count s.clk hreset (.inl hlock)).trans (by rw [hlock]; rfl)
  case refclk => exact (clockTick_count s.clk hreset (.inr href)).trans (by rw [hlock]; rfl)
  case none => exact clockTick_unclocked s.clk hlock href

end Sys2Proof.Machine
end

section
/-!
SUPPORT. Over-temperature, lost clocks and the host's link (R412, R426, R462, R485, R570, R573, R578).
-/

namespace Sys2Proof.Machine

/-- Stopping the heartbeats leaves every port's state. -/
theorem prtState_hbStopAll (d : Dev) {p : Nat} (hp : p < 80) : d.hbStopAll.prtState p = d.prtState p := by
  refine rf_of_reg (hbStopAll_reg d _ ?_) _ _
  unfold Reg.PRT_PORT_W2 Reg.STN_HB Reg.PRT_RING_W1
  omega

/-- The register of a heartbeat is none of a lane's or a port's. -/
theorem stnHb_not_laneReg {k : Nat} (hk : k < 2) : ¬ laneReg (Reg.STN_HB k) := by
  unfold laneReg Reg.PRT_PORT_W2 Reg.PRT_PORT_W3 Reg.STN_LANE_W0 Reg.STN_HB
  omega

/-- The rail's phases turned off: no other register changes. -/
theorem phasesOff_reg_ne (d : Dev) {o : Nat} (ho : o ≠ Reg.PWR_RAIL_STATUS) :
    ((d.setRf Reg.PWR_RAIL_STATUS 27 16 0).setRb Reg.PWR_RAIL_STATUS 31 false).reg o = d.reg o :=
  (Dev.reg_setRb_ne _ _ _ _ _ ho).trans (Dev.reg_setRf_ne _ _ _ _ _ _ ho)

theorem phasesOff_stn (d : Dev) : ((d.setRf Reg.PWR_RAIL_STATUS 27 16 0).setRb Reg.PWR_RAIL_STATUS 31 false).stn = d.stn := by
  rw [Dev.setRb_stn, Dev.setRf_stn]

theorem phasesOff_rail (d : Dev) : let e := (d.setRf Reg.PWR_RAIL_STATUS 27 16 0).setRb Reg.PWR_RAIL_STATUS 31 false
    e.rf Reg.PWR_RAIL_STATUS 27 16 = 0 ∧ e.rb Reg.PWR_RAIL_STATUS 31 = false :=
  ⟨(Dev.rf_setRf_apart _ _ _ _ _ _ _ (by omega) (by omega) (by omega)).trans (Dev.rf_setRf_self _ _ _ _ _ (by omega) (by omega)),
    Dev.rb_setRb_self _ _ _ _ (by omega)⟩

/-- Held lanes with stopped heartbeats: the pins stand, the heartbeats stay off, and no lane or port is up. -/
theorem holdLanes_hbStopAll (d : Dev) : let e := d.hbStopAll.holdLanes true true
    e.pins = d.pins ∧ e.heartsOff ∧ (∀ p, p < 80 → e.prtState p ≠ 4 ∧ (d.prtState p ∈ [1, 2, 3, 4] → e.prtState p = 0)) ∧
      ∀ l, l < 32 → e.laneUp l = false := by
  obtain ⟨⟨⟨r, f, hsame⟩, hregs⟩, hports, hlanes⟩ := holdLanes_ok d.hbStopAll
  dsimp only
  generalize d.hbStopAll.holdLanes true true = u at hsame hregs hports hlanes ⊢
  refine ⟨?_, ?_, fun p hp => ?_, hlanes⟩
  · exact (congrArg Dev.pins hsame).trans (hbStopAll_pins d)
  · exact heartsOff_of (hbStopAll_off d) (fun k hk => hregs _ (stnHb_not_laneReg hk)) (congrArg (fun x => x.stn.hb) hsame)
  · rw [← prtState_hbStopAll d hp]
    exact hports p hp

/-- What THERMTRIP_N leaves (R573). -/
theorem thermtrip_leaves (d : Dev) : let e := thermtrip d
    e.pins = { d.pins with thermtripN := false } ∧ e.heartsOff ∧
      (∀ p, p < 80 → e.prtState p ≠ 4 ∧ (d.prtState p ∈ [1, 2, 3, 4] → e.prtState p = 0)) ∧
      (∀ l, l < 32 → e.laneUp l = false) ∧ e.rf Reg.PWR_RAIL_STATUS 27 16 = 0 ∧ e.rb Reg.PWR_RAIL_STATUS 31 = false := by
  obtain ⟨hpins, hhearts, hports, hlanes⟩ := holdLanes_hbStopAll { d with pins := { d.pins with thermtripN := false } }
  unfold thermtrip
  dsimp only at hpins ⊢
  generalize (Dev.hbStopAll _).holdLanes true true = u at hpins hhearts hports hlanes ⊢
  refine ⟨?_, ?_, fun p hp => ?_, fun l hl => ?_, phasesOff_rail u⟩
  · rw [Dev.setRb_pins, Dev.setRf_pins, hpins]
  · exact heartsOff_of hhearts (fun k hk => phasesOff_reg_ne u (by unfold Reg.STN_HB Reg.PWR_RAIL_STATUS; omega))
      (by rw [phasesOff_stn])
  · have hstate := rf_of_reg (phasesOff_reg_ne u (o := Reg.PRT_PORT_W2 p) (by unfold Reg.PRT_PORT_W2 Reg.PWR_RAIL_STATUS; omega)) 31 28
    obtain ⟨hdown, hheld⟩ := hports p hp
    exact ⟨fun h => hdown (hstate.symm.trans h), fun h => hstate.trans (hheld h)⟩
  · exact (rb_of_reg (phasesOff_reg_ne u (by unfold Reg.STN_LANE_W0 Reg.PWR_RAIL_STATUS; omega)) 31).trans (hlanes l hl)

/-- What the loss of REFCLK_SYS leaves (R578). -/
theorem refclkSysLoss_leaves (d : Dev) : let e := refclkSysLoss d
    e.pins = { d.pins with refclk := false } ∧ e.heartsOff ∧ e.rb Reg.GLB_CLK_STATUS 28 = false := by
  have hclock := hbStopAll_reg (({ d with pins := { d.pins with refclk := false } } : Dev).setRb Reg.GLB_CLK_STATUS 28 false)
    Reg.GLB_CLK_STATUS (by unfold Reg.GLB_CLK_STATUS Reg.STN_HB Reg.PRT_RING_W1; omega)
  exact ⟨hbStopAll_pins _, hbStopAll_off _, (rb_of_reg hclock 28).trans (Dev.rb_setRb_self _ _ _ _ (by omega))⟩

/-- What the loss of TCLK's lock leaves (R426). -/
theorem timRefLoss_leaves {d : Dev} (hlocked : d.rb Reg.GLB_CLK_STATUS 29 = true) : let e := timRefLoss d
    e.rb Reg.GLB_CLK_STATUS 29 = false ∧ e.flt.inbox = d.flt.inbox ++ [⟨Src.timRefLoss, 0, false⟩] ∧
      ∀ o, o ≠ Reg.GLB_CLK_STATUS → e.reg o = d.reg o := by
  have hloss : timRefLoss d = (d.setRb Reg.GLB_CLK_STATUS 29 false).raise Src.timRefLoss 0 := if_pos hlocked
  dsimp only
  rw [hloss, raise_inbox, Dev.setRb_flt, Dev.rb_raise]
  refine ⟨Dev.rb_setRb_self _ _ _ _ (by omega), rfl, fun o ho => ?_⟩
  rw [raise_reg, Dev.reg_setRb_ne _ _ _ _ _ ho]

/-- Settles O35: each event by what it leaves. -/
theorem thermtripAndClocks : Obligations.ThermtripAndClocks := by
  unfold Obligations.ThermtripAndClocks
  intro s
  dsimp only
  refine ⟨⟨_, (exec_thermtrip s).trans (runDev_ok rfl), thermtrip_leaves s.dev⟩,
    ⟨_, (exec_refclkSysLoss s).trans (runDev_ok rfl), refclkSysLoss_leaves s.dev⟩,
    ⟨_, (exec_tclkPllLock s).trans (runDev_ok rfl), ?_⟩,
    fun hlocked => ⟨_, (exec_timRefLoss s).trans (runDev_ok rfl), timRefLoss_leaves hlocked⟩⟩
  unfold tclkPllLock
  exact ⟨setRb_regs _ _ _ _, Dev.rb_setRb_self _ _ _ _ (by omega), fun o ho => Dev.reg_setRb_ne _ _ _ _ _ ho⟩

end Sys2Proof.Machine
end

section
/-!
SUPPORT. The host's link: resets and losses (R462, R485, R570).
-/

namespace Sys2Proof.Machine

/-- What a reset of the groups leaves stands when only the pins differ before it. -/
theorem flrDone_pins {d e : Dev} {p : Pins} (h : ({ d with pins := p } : Dev).flrDone e) : d.flrDone e := h

/-- HST_STATUS is none of the registers that `Dev.flrDone` speaks of. -/
theorem flrDone_setStatus {d e : Dev} (h : d.flrDone e) (v : Word) : d.flrDone (e.setReg Reg.HST_STATUS v) := by
  obtain ⟨hgrps, hbar, hgrp15, hwords, hstage⟩ := h
  have hkeep : ∀ o, o ≠ Reg.HST_STATUS → (e.setReg Reg.HST_STATUS v).reg o = e.reg o := fun o ho => Dev.reg_setReg_ne e _ _ v ho
  refine ⟨fun g hg => ?_, ?_, hgrp15, fun w hw => ?_, ?_⟩
  · exact grpCleared_of (hgrps g hg) (hkeep _ (by unfold Reg.HST_GRP_W15 Reg.HST_STATUS; omega)) (grp_setReg _ _ _ _)
  · exact (rb_of_reg (hkeep _ (by unfold Reg.HST_BAR4 Reg.HST_STATUS; omega)) _).trans hbar
  · exact (hkeep _ (by unfold Reg.HST_GRP_W0 Reg.HST_STATUS; omega)).trans (hwords w hw)
  · exact (rf_of_reg (hkeep _ (by unfold Reg.GLB_RUN_STATE Reg.HST_STATUS; omega)) _ _).trans hstage

theorem grpOnly_pins {d e : Dev} (h : grpOnly d e) : e.pins = d.pins := by
  obtain ⟨_, _, _, rfl⟩ := h
  rfl

/-- The bits of HST_STATUS that a trained link sets (R460, R488). -/
theorem status_bits (l : PcieLink) : let w := wd (2 ^ 31 + b2n l.bme * 2 ^ 30 + l.speed.val * 2 ^ 24 + 3 * 2 ^ 24 + l.width * 2 ^ 16 + l.mps.val)
    bit w 31 = true ∧ bit w 30 = l.bme := by
  have hwidth : l.width ≤ 16 := by
    unfold PcieLink.width
    have : 2 ^ l.lanes.val ≤ 2 ^ 2 := Nat.pow_le_pow_right (by omega) (by omega)
    omega
  have hspeed := l.speed.isLt
  have hmps := l.mps.isLt
  have hbme : b2n l.bme = 1 ∧ l.bme = true ∨ b2n l.bme = 0 ∧ l.bme = false := by cases l.bme <;> decide
  dsimp only
  rw [testBit_wd _ _ (by omega), testBit_wd _ _ (by omega), Nat.testBit_eq_decide_div_mod_eq, Nat.testBit_eq_decide_div_mod_eq]
  obtain ⟨hb, hbit⟩ | ⟨hb, hbit⟩ := hbme
  · rw [hb, hbit, decide_eq_true_eq, decide_eq_true_eq]
    omega
  · rw [hb, hbit, decide_eq_true_eq, decide_eq_false_iff_not]
    omega

/-- What PCIE_PERST_N rising leaves (R570). -/
theorem perstRelease_leaves (link : PcieLink) (d : Dev) : let e := perstRelease link d
    d.flrDone e ∧ e.pins = { d.pins with perstN := true } ∧ e.rb Reg.HST_STATUS 31 = true ∧ e.rb Reg.HST_STATUS 30 = link.bme := by
  obtain ⟨hdone, hgrp⟩ := flr_ok { d with pins := { d.pins with perstN := true } }
  obtain ⟨hup, hbme⟩ := status_bits link
  unfold perstRelease
  dsimp only at hup hbme ⊢
  refine ⟨flrDone_setStatus (flrDone_pins hdone) _, (Dev.setReg_pins _ _ _).trans (grpOnly_pins hgrp), ?_, ?_⟩
  · unfold Dev.rb
    rw [Dev.reg_setReg_self, hup]
  · unfold Dev.rb
    rw [Dev.reg_setReg_self, hbme]

/-- What the loss of the link does to HST_STATUS, before the groups enter the error state (R485, R489). -/
def Dev.linkLost (d : Dev) : LinkLoss → Dev
  | .busMaster => d.setRb Reg.HST_STATUS 30 false
  | .linkDown => d.setReg Reg.HST_STATUS 0
  | .d3hot => d

theorem linkLost_leaves (d : Dev) (why : LinkLoss) : let e := d.linkLost why
    (∀ o, o ≠ Reg.HST_STATUS → e.reg o = d.reg o) ∧ e.hst = d.hst ∧ e.flt = d.flt ∧
      (why = .busMaster → e.rb Reg.HST_STATUS 30 = false) ∧ (why = .linkDown → e.reg Reg.HST_STATUS = 0) := by
  cases why with
  | busMaster =>
    refine ⟨fun o ho => Dev.reg_setRb_ne d _ _ _ _ ho, Dev.setRb_hst d _ _ _, Dev.setRb_flt d _ _ _, fun _ => ?_, nofun⟩
    exact Dev.rb_setRb_self d _ _ _ (by omega)
  | linkDown =>
    refine ⟨fun o ho => Dev.reg_setReg_ne d _ _ _ ho, Dev.setReg_hst d _ _, Dev.setReg_flt d _ _, nofun, fun _ => ?_⟩
    exact Dev.reg_setReg_self d _ _
  | d3hot => exact ⟨fun _ _ => rfl, rfl, rfl, nofun, nofun⟩

theorem hostLinkLoss_eq (why : LinkLoss) (d : Dev) : let run := (List.range 15).filter d.grpRuns
    hostLinkLoss why d = run.foldl (fun d g => d.grpError g 4)
      ((d.linkLost why).raiseIf (decide (why = .linkDown) && decide (run ≠ [])) Src.hstLinkDown 0) := by
  cases why <;> rfl

theorem raiseIf_inbox (d : Dev) (c : Bool) (src v : Nat) :
    (d.raiseIf c src v).flt.inbox = d.flt.inbox ++ if c = true then [⟨src, wd v, false⟩] else [] := by
  unfold Dev.raiseIf
  split
  · rfl
  · exact (List.append_nil _).symm

theorem raiseIf_hst (d : Dev) (c : Bool) (src v : Nat) : (d.raiseIf c src v).hst = d.hst := by
  unfold Dev.raiseIf; split <;> rfl

/-- What a lost link leaves (R485, R489). -/
theorem hostLinkLoss_leaves (why : LinkLoss) (d : Dev) : let run := (List.range 15).filter d.grpRuns
    let e := hostLinkLoss why d
    (∀ g, g < 15 → d.grpRuns g = true → e.rb (Reg.HST_GRP_W15 g) 31 = false ∧ e.rb (Reg.HST_GRP_W15 g) 30 = true ∧
      e.rf (Reg.HST_GRP_W15 g) 7 0 = 4) ∧
    e.grp 15 = d.grp 15 ∧ e.reg (Reg.HST_GRP_W15 15) = d.reg (Reg.HST_GRP_W15 15) ∧
    e.flt.inbox = d.flt.inbox ++ (if why = .linkDown ∧ run ≠ [] then [⟨Src.hstLinkDown, 0, false⟩] else []) ++
      run.map (fun _ => ⟨Src.hstRingError, 4, false⟩) ∧
    (why = .busMaster → e.rb Reg.HST_STATUS 30 = false) ∧ (why = .linkDown → e.reg Reg.HST_STATUS = 0) := by
  dsimp only
  rw [hostLinkLoss_eq]
  have hrun : ∀ g ∈ (List.range 15).filter d.grpRuns, g < 15 := fun g hg => List.mem_range.mp (List.mem_filter.mp hg).1
  have hmem : ∀ g, g < 15 → d.grpRuns g = true → g ∈ (List.range 15).filter d.grpRuns :=
    fun g hg hr => List.mem_filter.mpr ⟨List.mem_range.mpr hg, hr⟩
  generalize (List.range 15).filter d.grpRuns = run at hrun hmem ⊢
  obtain ⟨hreg, hhst, hflt, hmaster, hdown⟩ := linkLost_leaves d why
  obtain ⟨herr, -, hkeep, hgrp, hinbox⟩ := link_fold run
    ((d.linkLost why).raiseIf (decide (why = .linkDown) && decide (run ≠ [])) Src.hstLinkDown 0) hrun
  have hregs : ∀ o, (∀ g, g < 15 → o ≠ Reg.HST_GRP_W15 g) → _ := fun o ho => (hkeep o ho).trans (raiseIf_reg _ _ _ _ o)
  have hstatus := hregs Reg.HST_STATUS (fun g _ => by unfold Reg.HST_STATUS Reg.HST_GRP_W15; omega)
  refine ⟨fun g hg hr => herr g (hmem g hg hr), hgrp.trans ?_, (hregs _ ?_).trans (hreg _ ?_), hinbox.trans ?_,
    fun h => (rb_of_reg hstatus 30).trans (hmaster h), fun h => hstatus.trans (hdown h)⟩
  · unfold Dev.grp
    rw [raiseIf_hst, hhst]
  · unfold Reg.HST_GRP_W15
    omega
  · unfold Reg.HST_GRP_W15 Reg.HST_STATUS
    omega
  · rw [raiseIf_inbox, hflt]
    simp only [Bool.and_eq_true, decide_eq_true_eq]
    rfl

/-- Settles O36: each event by what it leaves. -/
theorem hostLink : Obligations.HostLink := by
  unfold Obligations.HostLink
  intro s
  dsimp only
  obtain ⟨hdone, hgrp⟩ := flr_ok s.dev
  exact ⟨⟨_, (exec_functionLevelReset s).trans (runDev_ok rfl), hdone, grpOnly_pins hgrp⟩,
    fun link => ⟨_, (exec_pciePerstNRelease link s).trans (runDev_ok rfl), perstRelease_leaves link s.dev⟩,
    fun why => ⟨_, (exec_hostLinkLoss why s).trans (runDev_ok rfl), hostLinkLoss_leaves why s.dev⟩⟩

end Sys2Proof.Machine
end

section
/-!
SUPPORT. The time base's commands and the two PPS pins (R413, R417, R418).
-/

namespace Sys2Proof.Machine

/-- A clock in range shows its parts in registers of 32 and 16 bits (R413). -/
theorem captured_parts {c : Clock} (h : c.ok = true) :
    (wd c.nsec).toNat = c.nsec ∧ (wd c.sec).toNat + fld (wd (c.sec / 2 ^ 32)) 15 0 * 2 ^ 32 = c.sec ∧
      (wd (c.frac / 2 ^ 16)).toNat = c.frac / 2 ^ 16 := by
  obtain ⟨hsec, hnsec, hfrac, -⟩ := (Clock.ok_iff c).1 h
  rw [wd_toNat c.nsec (by omega), wd_toNat (c.frac / 2 ^ 16) (by omega), fld_wd _ _ _ (by omega) (by omega)]
  unfold wd
  rw [BitVec.toNat_ofNat]
  omega

/-- What capture leaves (R413). -/
theorem timeCapture_leaves (d : Dev) {c : Clock} (h : c.ok = true) : let e := timeCapture c d
    (e.reg Reg.TIM_T_NS).toNat = c.nsec ∧ (e.reg Reg.TIM_T_SEC_LO).toNat + e.rf Reg.TIM_T_SEC_HI 15 0 * 2 ^ 32 = c.sec ∧
      (e.reg Reg.TIM_T_FRAC).toNat = c.frac / 2 ^ 16 ∧ e = { d with regs := e.regs } ∧
      ∀ o, o ∉ [Reg.TIM_T_NS, Reg.TIM_T_SEC_LO, Reg.TIM_T_SEC_HI, Reg.TIM_T_FRAC] → e.reg o = d.reg o := by
  obtain ⟨hns, hsec, hfrac⟩ := captured_parts h
  have hread := capture_regs c d
  refine ⟨?_, ?_, ?_, rfl, fun o ho => ?_⟩
  · rw [hread, if_neg (by decide), if_neg (by decide), if_pos rfl]
    exact hns
  · unfold Dev.rf
    rw [hread, hread, if_neg (by decide), if_pos rfl, if_pos rfl]
    exact hsec
  · rw [hread, if_neg (by decide), if_neg (by decide), if_neg (by decide), if_pos rfl]
    exact hfrac
  · simp only [List.mem_cons, List.not_mem_nil, or_false, not_or] at ho
    obtain ⟨hns, hlo, hhi, hfr⟩ := ho
    rw [hread, if_neg hhi, if_neg hlo, if_neg hns, if_neg hfr]

/-- Set with TIM_T_NS below 10^9 (R413). -/
theorem timeSetClock_accepted {d : Dev} (c : Clock) (h : (d.reg Reg.TIM_T_NS).toNat < 1000000000) : let k := timeSetClock d c
    k.nsec = (d.reg Reg.TIM_T_NS).toNat ∧ k.sec = (d.reg Reg.TIM_T_SEC_LO).toNat + d.rf Reg.TIM_T_SEC_HI 15 0 * 2 ^ 32 ∧
      k.frac = d.rf Reg.TIM_T_FRAC 15 0 * 2 ^ 16 ∧ k.count = c.count := by
  have hgo : d.setRefused = false := decide_eq_false (by omega)
  unfold timeSetClock
  rw [hgo]
  exact moveTo_ok c _ _ _ _

/-- An edge on TIME_PPS_IN while one is held (R418). -/
theorem ppsInEdge_held {d : Dev} (c : Clock) (hon : d.rb Reg.TIM_CTL 1 = true) (hheld : d.rb Reg.TIM_PPS_IN_STATUS 31 = true) :
    ppsInEdge c d = d.setRb Reg.TIM_PPS_IN_STATUS 30 true := by
  unfold ppsInEdge
  rw [if_neg (by rw [hon]; decide), if_pos hheld]

/-- An edge on TIME_PPS_IN while none is held (R418). -/
theorem ppsInEdge_free {d : Dev} (c : Clock) (hon : d.rb Reg.TIM_CTL 1 = true) (hfree : d.rb Reg.TIM_PPS_IN_STATUS 31 = false) :
    ppsInEdge c d = ((d.setReg Reg.TIM_PPS_IN_NS (wd c.nsec)).setReg Reg.TIM_PPS_IN_SEC_LO (wd c.sec)).setReg Reg.TIM_PPS_IN_STATUS
      (wd (2 ^ 31 + b2n (d.rb Reg.TIM_PPS_IN_STATUS 30) * 2 ^ 30 + c.sec / 2 ^ 32 % 2 ^ 16)) := by
  unfold ppsInEdge
  rw [if_neg (by rw [hon]; decide), if_neg (by rw [hfree]; decide)]

theorem ppsInEdge_regs (d : Dev) (c : Clock) : ppsInEdge c d = { d with regs := (ppsInEdge c d).regs } := by
  unfold ppsInEdge
  split
  · rfl
  · split
    · exact setRb_regs _ _ _ _
    · rfl

/-- The captured edge's status: the flag, and the upper bits of the second beside the overflow (R418). -/
theorem edge_status {b sec : Nat} (hb : b ≤ 1) (hsec : sec < 2 ^ 48) : let w := wd (2 ^ 31 + b * 2 ^ 30 + sec / 2 ^ 32 % 2 ^ 16)
    bit w 31 = true ∧ (wd sec).toNat + fld w 15 0 * 2 ^ 32 = sec := by
  dsimp only
  rw [testBit_wd _ _ (by omega), fld_wd _ _ _ (by omega) (by omega), Nat.testBit_eq_decide_div_mod_eq, decide_eq_true_eq]
  unfold wd
  rw [BitVec.toNat_ofNat]
  omega

/-- What an edge on TIME_PPS_IN captures (R418). -/
theorem ppsInEdge_captures {d : Dev} {c : Clock} (hon : d.rb Reg.TIM_CTL 1 = true) (hfree : d.rb Reg.TIM_PPS_IN_STATUS 31 = false)
    (h : c.ok = true) : let e := ppsInEdge c d
    e.rb Reg.TIM_PPS_IN_STATUS 31 = true ∧ (e.reg Reg.TIM_PPS_IN_NS).toNat = c.nsec ∧
      (e.reg Reg.TIM_PPS_IN_SEC_LO).toNat + e.rf Reg.TIM_PPS_IN_STATUS 15 0 * 2 ^ 32 = c.sec := by
  obtain ⟨hsec, hnsec, -, -⟩ := (Clock.ok_iff c).1 h
  obtain ⟨hflag, htime⟩ := edge_status (b2n_le (d.rb Reg.TIM_PPS_IN_STATUS 30)) hsec
  dsimp only
  rw [ppsInEdge_free c hon hfree]
  unfold Dev.rb Dev.rf
  refine ⟨?_, ?_, ?_⟩
  · rw [Dev.reg_setReg_self]
    exact hflag
  · rw [Dev.reg_setReg_ne _ _ _ _ (by decide), Dev.reg_setReg_ne _ _ _ _ (by decide), Dev.reg_setReg_self]
    exact wd_toNat _ (by omega)
  · rw [Dev.reg_setReg_self, Dev.reg_setReg_ne _ _ _ _ (by decide), Dev.reg_setReg_self]
    exact htime

/-- What an edge on TIME_PPS_IN leaves while one is held (R418). -/
theorem ppsInEdge_overflows {d : Dev} (c : Clock) (hon : d.rb Reg.TIM_CTL 1 = true) (hheld : d.rb Reg.TIM_PPS_IN_STATUS 31 = true) :
    let e := ppsInEdge c d
    e.rb Reg.TIM_PPS_IN_STATUS 30 = true ∧ e.rb Reg.TIM_PPS_IN_STATUS 31 = true ∧ e.reg Reg.TIM_PPS_IN_NS = d.reg Reg.TIM_PPS_IN_NS := by
  dsimp only
  rw [ppsInEdge_held c hon hheld]
  exact ⟨Dev.rb_setRb_self _ _ _ _ (by omega), (Dev.rb_setRb_apart _ _ _ _ _ (by omega) (by omega)).trans hheld,
    Dev.reg_setRb_ne _ _ _ _ _ (by decide)⟩

/-- Settles O37: each command by what it leaves of the clock or the registers. -/
theorem timeCommands : Obligations.TimeCommands := by
  unfold Obligations.TimeCommands
  intro s
  dsimp only
  refine ⟨fun hreset hok => ⟨?capture, fun r hns => ?set, fun r hns => ?refused, ?step⟩, fun hrises => ?rise, fun hhigh hlate hours => ?fall,
    fun hon => ?edge⟩
  case capture =>
    refine ⟨_, (exec_timeCapture s).trans (runDev_ok rfl), ?_⟩
    rw [live_on hreset]
    exact timeCapture_leaves s.dev hok
  case set =>
    refine ⟨timeSetClock s.dev s.clk, (exec_timeSet r s).trans ((runClk_ok rfl).trans ?_), timeSetClock_accepted s.clk hns⟩
    have hgo : s.dev.setRefused = false := decide_eq_false (by omega)
    rw [live_on hreset, if_pos hreset]
    unfold timeSetDev
    rw [hgo]
    rfl
  case refused =>
    have hno : s.dev.setRefused = true := decide_eq_true hns
    refine ⟨_, (exec_timeSet r s).trans ((runClk_ok rfl).trans ?_), rfl⟩
    rw [live_on hreset, if_pos hreset]
    unfold timeSetDev timeSetClock
    rw [hno]
    rfl
  case step =>
    obtain ⟨hns, hsum⟩ := addNs_ok s.clk.sec s.clk.nsec (sint (s.dev.reg Reg.TIM_STEP_NS))
    refine ⟨timeStepClock s.dev s.clk, (exec_timeStep s).trans ((runClk_ok rfl).trans ?_), rfl, rfl, hns, hsum⟩
    rw [if_pos hreset]
    rfl
  case rise =>
    refine ⟨ppsRiseDev s.clk s.dev, (exec_timePpsOutRise s).trans ((runClk_ok rfl).trans ?_), ?_⟩
    · rw [if_pos hrises]
      rfl
    · unfold ppsRiseDev
      rw [if_pos hrises]
      exact ⟨rfl, rfl, rfl, rfl⟩
  case fall =>
    refine ⟨_, (exec_timePpsOutFall s).trans (runDev_ok rfl), ?_⟩
    unfold ppsFallDev
    rw [hhigh, hours, decide_eq_true hlate]
    rfl
  case edge =>
    exact ⟨_, (exec_timePpsInEdge s).trans (runDev_ok rfl), ppsInEdge_regs s.dev s.clk, fun hheld => ppsInEdge_overflows s.clk hon hheld,
      fun hfree hok => ppsInEdge_captures hon hfree hok⟩

end Sys2Proof.Machine
end

section
/-!
SUPPORT. Power failure and the Fixative (R510 to R512, R569).
-/

namespace Sys2Proof.Machine

/-- The device as PWRFAIL_N falling records it (R510, R569). -/
def Dev.pwrfailNoted (d : Dev) : Dev :=
  (({ d with pins := { d.pins with pwrfailN := false, pfUp := none } } : Dev).raise Src.pwrfail 0).setRb Reg.PWR_STATUS 31 true

theorem pwrfailNoted_stage (d : Dev) : d.pwrfailNoted.stage = d.stage := by
  refine rf_of_reg ?_ 3 0
  exact Dev.reg_setRb_ne _ _ _ _ _ (by decide)

theorem pwrfailNoted_pins (d : Dev) : d.pwrfailNoted.pins = { d.pins with pwrfailN := false, pfUp := none } := Dev.setRb_pins _ _ _ _

theorem pwrfailNoted_mgt (d : Dev) : d.pwrfailNoted.mgt = d.mgt := Dev.setRb_mgt _ _ _ _

theorem pwrfailNoted_flt (d : Dev) : d.pwrfailNoted.flt.inbox = d.flt.inbox ++ [⟨Src.pwrfail, 0, false⟩] :=
  congrArg Flt.inbox (Dev.setRb_flt _ _ _ _)

theorem pwrfailNoted_line (d : Dev) : let e := d.pwrfailNoted.atlLine 1
    e.pins = { d.pins with pwrfailN := false, pfUp := none } ∧ e.flt.inbox = d.flt.inbox ++ [⟨Src.pwrfail, 0, false⟩] ∧
      e.rb Reg.PWR_STATUS 31 = true ∧ e.rb Reg.ATL_INT_PEND 1 = true := by
  have hstatus : d.pwrfailNoted.rb Reg.PWR_STATUS 31 = true := Dev.rb_setRb_self _ _ _ _ (by omega)
  have hpins := pwrfailNoted_pins d
  have hflt := pwrfailNoted_flt d
  generalize d.pwrfailNoted = x at hstatus hpins hflt ⊢
  refine ⟨(Dev.setRb_pins _ _ _ _).trans hpins, (congrArg Flt.inbox (Dev.setRb_flt _ _ _ _)).trans hflt, ?_, ?_⟩
  · exact (rb_of_reg (Dev.reg_setRb_ne x Reg.ATL_INT_PEND 1 Reg.PWR_STATUS true (by decide)) 31).trans hstatus
  · exact Dev.rb_setRb_self x _ _ _ (by omega)

/-- A device that differs from another in the management's own state only. -/
def mgtOnly (d e : Dev) : Prop := ∃ m, e = { d with mgt := m }

theorem mgtOnly_refl (d : Dev) : mgtOnly d d := ⟨d.mgt, rfl⟩

theorem mgtOnly_pins {d e : Dev} (h : mgtOnly d e) : e.pins = d.pins := by
  obtain ⟨_, rfl⟩ := h
  rfl

theorem mgtOnly_flt {d e : Dev} (h : mgtOnly d e) : e.flt = d.flt := by
  obtain ⟨_, rfl⟩ := h
  rfl

theorem mgtOnly_rb {d e : Dev} (h : mgtOnly d e) (o i : Nat) : e.rb o i = d.rb o i := by
  obtain ⟨_, rfl⟩ := h
  rfl

/-- The interrupt line that the Fixative raises as it starts (R510): nothing but the Fixative's own state differs. -/
theorem startFix_leaves (d : Dev) (now : Nat) (power : Bool) : let e := d.startFix now power
    mgtOnly (d.atlLine 1) e ∧ (d.mgt.fix = none → e.mgt.fix = some ⟨now, power, false⟩) ∧
      (d.mgt.fix ≠ none → e.mgt.fix = d.mgt.fix) := by
  have hmgt : (d.atlLine 1).mgt = d.mgt := Dev.setRb_mgt _ _ _ _
  unfold Dev.startFix
  dsimp only
  rw [hmgt]
  split
  · next f hfix => exact ⟨mgtOnly_refl _, fun h => absurd (hfix.symm.trans h) nofun, fun _ => congrArg Mgt.fix hmgt⟩
  · next hfix => exact ⟨⟨_, rfl⟩, fun _ => rfl, fun h => absurd hfix h⟩

theorem pwrfailAssert_eq {d : Dev} (now : Nat) (hup : d.pins.pwrfailN = true) : pwrfailAssert now d =
    if d.stage < 2 ∨ d.pins.resetN = false then d.pwrfailNoted.atlLine 1 else d.pwrfailNoted.startFix now true := by
  have hnoted : pwrfailAssert now d = if d.pwrfailNoted.stage < 2 ∨ (!d.pwrfailNoted.pins.resetN) = true then d.pwrfailNoted.atlLine 1
      else d.pwrfailNoted.startFix now true := if_neg (by rw [hup]; decide)
  rw [hnoted, pwrfailNoted_stage, pwrfailNoted_pins]
  simp only [Bool.not_eq_true']

/-- What PWRFAIL_N falling leaves (R510, R569). -/
theorem pwrfailAssert_leaves {d : Dev} (now : Nat) (hup : d.pins.pwrfailN = true) : let e := pwrfailAssert now d
    mgtOnly (d.pwrfailNoted.atlLine 1) e ∧
      (2 ≤ d.stage → d.pins.resetN = true → d.mgt.fix = none → e.mgt.fix = some ⟨now, true, false⟩) ∧
      (d.stage < 2 ∨ d.pins.resetN = false ∨ d.mgt.fix ≠ none → e.mgt.fix = d.mgt.fix) := by
  obtain ⟨honly, hstart, hruns⟩ := startFix_leaves d.pwrfailNoted now true
  have hfix : d.pwrfailNoted.mgt.fix = d.mgt.fix := congrArg Mgt.fix (pwrfailNoted_mgt d)
  dsimp only at honly hstart hruns ⊢
  rw [hfix] at hstart hruns
  rw [pwrfailAssert_eq now hup]
  split
  · next hdown =>
    refine ⟨mgtOnly_refl _, fun hstage hreset _ => ?_, fun _ => (congrArg Mgt.fix (Dev.setRb_mgt _ _ _ _)).trans hfix⟩
    obtain h | h := hdown
    · omega
    · rw [hreset] at h; cases h
  · next hrun =>
    refine ⟨honly, fun _ _ => hstart, fun h => hruns ?_⟩
    obtain h | h | h := h
    · exact absurd (.inl h) hrun
    · exact absurd (.inr h) hrun
    · exact h

/-- Gating every cluster touches the power registers of the clusters and nothing that the heartbeats, the pins or management
hold. -/
theorem gateClusters_leaves (d : Dev) : let e := (List.range 24).foldl Dev.startGating d
    setUp d e ∧ ∀ o, (∀ c, c < 24 → o ≠ Reg.PWR_CL_W0 c) → e.reg o = d.reg o := by
  refine ⟨foldl_inv' _ (setUp d) _ (fun b c _ h => setUp_trans h (gating_ok b c).1) _ (setUp_refl d), fun o ho => ?_⟩
  refine foldl_inv' _ (fun x : Dev => x.reg o = d.reg o) _ (fun b c hc h => ?_) _ rfl
  exact ((gating_ok b c).2 o (ho c (List.mem_range.mp hc))).trans h

/-- Both heartbeats stopped and the Fixative ended. -/
def Dev.fixStopped (d : Dev) : Dev := { d.hbStopAll with mgt := { d.hbStopAll.mgt with fix := none } }

theorem hbStopAll_stage (d : Dev) : d.hbStopAll.stage = d.stage :=
  rf_of_reg (hbStopAll_reg d _ (by unfold Reg.GLB_RUN_STATE Reg.STN_HB Reg.PRT_RING_W1; omega)) 3 0

theorem hbStopAll_mgt (d : Dev) : d.hbStopAll.mgt = d.mgt := by
  obtain ⟨_, _, _, h⟩ := hbStopAll_only d
  rw [h]

/-- What the end of the Fixative leaves where no reset follows (R510, R519). -/
theorem fixativeDone_leaves (d : Dev) : let e := fixativeDone d
    e.heartsOff ∧ e.mgt = { d.mgt with fix := none } ∧ e.stage = d.stage ∧ e.pins = d.pins := by
  have hstopped : fixativeDone d = if d.fixStopped.stage = 4 then (List.range 24).foldl Dev.startGating d.fixStopped else d.fixStopped := rfl
  have hhearts : d.fixStopped.heartsOff := heartsOff_of (hbStopAll_off d) (fun _ _ => rfl) rfl
  have hmgt : d.fixStopped.mgt = { d.mgt with fix := none } := by
    unfold Dev.fixStopped
    dsimp only
    rw [hbStopAll_mgt]
  have hstage : d.fixStopped.stage = d.stage := hbStopAll_stage d
  have hpins : d.fixStopped.pins = d.pins := hbStopAll_pins d
  dsimp only
  rw [hstopped]
  split
  · obtain ⟨⟨r, k, p, hsame⟩, hregs⟩ := gateClusters_leaves d.fixStopped
    generalize (List.range 24).foldl Dev.startGating d.fixStopped = e at hsame hregs ⊢
    refine ⟨heartsOff_of hhearts (fun i hi => hregs _ fun c hc => ?_) (by rw [hsame]), (by rw [hsame, ← hmgt]),
      (rf_of_reg (hregs _ fun c hc => ?_) 3 0).trans hstage, (by rw [hsame, ← hpins])⟩
    · unfold Reg.STN_HB Reg.PWR_CL_W0
      omega
    · unfold Reg.GLB_RUN_STATE Reg.PWR_CL_W0
      omega
  · exact ⟨hhearts, hmgt, hstage, hpins⟩

/-- The journal lies in flash: a reset keeps it (R494, R511). -/
theorem resetAssert_journal (d : Dev) : (resetAssert d).mgt.journal = d.mgt.journal := by
  unfold resetAssert
  dsimp only
  generalize hr : keptRegs.foldl _ _ = r
  obtain ⟨regs, hstage⟩ := setRf_stage_if d r
  rw [hstage]
  subst hr
  rfl

theorem pulse_journal (d : Dev) : d.pulse.mgt.journal = d.mgt.journal := by
  rw [← resetAssert_journal d]
  unfold Dev.pulse
  generalize resetAssert d = x
  unfold resetRelease
  split
  · rfl
  · rfl

section
variable {d : Dev} {now : Nat} {f : Fix} (hfix : d.mgt.fix = some f) (hend : f.start + 2000000 ≤ now)
include hfix hend

theorem fixEnds_of_late : d.fixEnds now = true := by
  unfold Dev.fixEnds
  rw [hfix]
  exact decide_eq_true hend

theorem fixResets_of_late : d.fixResets now = (decide (d.stage ≠ 4) && f.resetAfter) := by
  unfold Dev.fixResets
  rw [fixEnds_of_late hfix hend, hfix, Bool.true_and]

end

/-- What PWRFAIL_N rising leaves of a running Fixative (R512). -/
theorem pwrfailRelease_fix {d : Dev} {f : Fix} (now : Nat) (hlow : d.pins.pwrfailN = false) (hfix : d.mgt.fix = some f) :
    pwrfailRelease now d = { d with pins := { d.pins with pwrfailN := true, pfUp := some now }
                                    mgt := { d.mgt with fix := some { f with resetAfter := f.power || f.resetAfter } } } := by
  unfold pwrfailRelease
  rw [if_neg (by rw [hlow]; decide)]
  dsimp only
  rw [hfix]

theorem pwrfailRelease_pins {d : Dev} (now : Nat) (hlow : d.pins.pwrfailN = false) :
    (pwrfailRelease now d).pins = { d.pins with pwrfailN := true, pfUp := some now } := by
  unfold pwrfailRelease
  rw [if_neg (by rw [hlow]; decide)]
  dsimp only
  split
  · rfl
  · split
    · exact Dev.setRb_pins _ _ _ _
    · rfl

/-- Settles O34: each of the pin's edges, and the end of the Fixative, by what it leaves. -/
theorem powerFailure : Obligations.PowerFailure := by
  unfold Obligations.PowerFailure
  intro s
  dsimp only
  refine ⟨fun hup => ?falls, fun f hfix hend => ⟨fun hstays => ?ends, fun hafter hrun hio hcore => ?resets⟩, fun hlow => ?rises⟩
  case falls =>
    obtain ⟨honly, hstart, hkeep⟩ := pwrfailAssert_leaves s.clk.count hup
    obtain ⟨hpins, hflt, hstatus, hline⟩ := pwrfailNoted_line s.dev
    exact ⟨_, (exec_pwrfailAssert s).trans (runDev_ok rfl), (mgtOnly_pins honly).trans hpins,
      (congrArg Flt.inbox (mgtOnly_flt honly)).trans hflt, (mgtOnly_rb honly _ _).trans hstatus, (mgtOnly_rb honly _ _).trans hline,
      hstart, hkeep⟩
  case ends =>
    have hno : s.dev.fixResets s.clk.count = false := by
      rw [fixResets_of_late hfix hend]
      obtain h | h := hstays
      · rw [h, Bool.and_false]
      · rw [h]; rfl
    obtain ⟨hhearts, hmgt, hstage, hpins⟩ := fixativeDone_leaves (s.dev.journalWrite s.clk.count)
    have hdone : fixativeEnd s.clk.count s.dev = fixativeDone (s.dev.journalWrite s.clk.count) := by
      unfold fixativeEnd
      rw [fixEnds_of_late hfix hend, hno]
    refine ⟨fixativeEnd s.clk.count s.dev, (exec_fixativeHeartbeatStop s).trans ((runAll_ok rfl).trans ?_), ?_⟩
    · rw [hno]
      rfl
    · rw [hdone, hmgt]
      exact ⟨hhearts, rfl, hstage, hpins, rfl⟩
  case resets =>
    have hyes : s.dev.fixResets s.clk.count = true := by
      rw [fixResets_of_late hfix hend, hafter, decide_eq_true hrun]
      rfl
    obtain ⟨hhigh, hstage, hregs⟩ := pulse_ok (s.dev.journalWrite s.clk.count) hio hcore
    have hpulse : fixativeEnd s.clk.count s.dev = (s.dev.journalWrite s.clk.count).pulse := by
      unfold fixativeEnd
      rw [fixEnds_of_late hfix hend, hyes]
    refine ⟨_, (exec_fixativeHeartbeatStop s).trans (runAll_ok rfl), ?_, ?_, rfl, ?_⟩
    · exact if_pos hyes
    · exact if_pos hyes
    · dsimp only
      rw [hpulse]
      exact ⟨hhigh, hstage, pulse_journal _, hregs⟩
  case rises =>
    refine ⟨_, (exec_pwrfailRelease s).trans (runDev_ok rfl), pwrfailRelease_pins _ hlow, fun f hfix => ?_⟩
    rw [pwrfailRelease_fix _ hlow hfix]
    exact ⟨rfl, rfl⟩

end Sys2Proof.Machine
end

section
/-!
SUPPORT. The boot commands (R493, R495, R498, R508).
-/

namespace Sys2Proof.Machine

/-- PRIMER_BOOT with what it finds in flash (R498). -/
theorem exec_primerBoot_some {s : State} {i0 i1 : List Byte} {p0 p1 : List Byte × Bool} {r : BootRes}
    (h : s.dev.primerRes s.clk.count s.idn i0 i1 p0 p1 = some r) :
    exec (.primerBoot i0 i1 p0 p1) s = .next { s with idn := bootIdent r s.idn, dev := bootDev r s.dev } := by
  rw [exec_primerBoot, runIdn_ok rfl]
  unfold primerBootIdent primerBootDev
  rw [h]

/-- The Primer boots an image in flash that verifies (R493, R497). -/
theorem flashBoot_found {sel : Nat} {i : Ident} {i0 i1 img : List Byte} (hsel : sel = 0 ∨ sel = 2) (himg : chooseImage i i0 i1 = some img)
    (p0 p1 : List Byte × Bool) : flashBoot sel i i0 i1 p0 p1 = .boot img (chooseProfile (imageOwners img) p0 p1) := by
  unfold flashBoot
  rw [if_neg (by omega), if_neg (by omega), himg]

/-- Without one it waits for the host, or does not boot (R499). -/
theorem flashBoot_none {sel : Nat} {i : Ident} {i0 i1 : List Byte} (hsel : sel = 0 ∨ sel = 2) (hnone : chooseImage i i0 i1 = none)
    (p0 p1 : List Byte × Bool) : flashBoot sel i i0 i1 p0 p1 = if sel = 2 then .host else .noImage := by
  unfold flashBoot
  rw [if_neg (by omega), if_neg (by omega), hnone]

section
variable {s : State} (hwaits : s.dev.rb Reg.ATL_BOOT 30 = true) (hset : s.dev.rb Reg.ATL_BOOT 31 = true)
  (hruns : s.dev.primerRuns s.clk.count = true)
include hwaits hset hruns

/-- What the Primer finds once the host's image and profile have been read (R495). -/
theorem hostRes_read (img prf : List Byte) : s.dev.hostRes s.clk.count s.idn (some (img, prf)) =
    some (if imageOk s.idn img then .boot img (validateProfile prf (imageOwners img) none) else .noImage) := by
  unfold Dev.hostRes Dev.primerDoes
  rw [hwaits, hset, Bool.and_self, if_pos rfl, if_pos hruns]

/-- It finds none where a read failed (R495). -/
theorem hostRes_failed : s.dev.hostRes s.clk.count s.idn none = some .noImage := by
  unfold Dev.hostRes Dev.primerDoes
  rw [hwaits, hset, Bool.and_self, if_pos rfl, if_pos hruns]

end

/-- A host boot without an image (R495): the Primer waits again. -/
theorem exec_hostBootDmaDone_failed {s : State} {data : Option (List Byte × List Byte)}
    (h : s.dev.hostRes s.clk.count s.idn data = some .noImage) :
    exec (.hostBootDmaDone data) s = .next (s.withDev ((s.dev.setRb Reg.ATL_BOOT 31 false).setRb Reg.ATL_BOOT 29 true)) := by
  rw [exec_hostBootDmaDone, runIdn_ok rfl]
  unfold hostDmaIdent hostDmaDev
  rw [h]
  rfl

/-- Settles O33: each boot command by what the Primer finds. -/
theorem bootCommands : Obligations.BootCommands := by
  unfold Obligations.BootCommands
  intro s i0 i1 p0 p1
  dsimp only
  refine ⟨fun hruns hfree => ⟨?flash, fun hsel => ?source, fun hsel => ?host, fun img hsel himg => ?image, fun hnone => ⟨fun hsel => ?noImage, fun hsel => ?fallback⟩⟩,
    fun hstopped hagain hfree => ?again, fun hreset => ?go, fun hruns hwaits hset img prf => ⟨fun hok => ?verifies, fun hbad => ?invalid, ?failed⟩⟩
  case flash =>
    refine exec_primerBoot_some ?_
    unfold Dev.primerRes Dev.primerDoes
    rw [hfree, if_neg (by decide), if_pos hruns]
  case source =>
    rw [hsel]
    rfl
  case host =>
    rw [hsel]
    rfl
  case image =>
    rw [flashBoot_found hsel himg]
  case noImage =>
    rw [flashBoot_none (.inl hsel) hnone, hsel, if_neg (by decide)]
  case fallback =>
    rw [flashBoot_none (.inr hsel) hnone, if_pos hsel]
  case again =>
    refine (exec_primerBoot_some (r := (flashBoot s.dev.mgt.bootSel s.idn i0 i1 p0 p1).again) ?_).trans ?_
    · unfold Dev.primerRes Dev.primerDoes
      rw [hfree, hstopped, if_neg (by decide), if_neg (by decide), if_pos hagain]
    · rw [again_idn]
      rfl
  case go =>
    rw [exec_hostBootGo, runDev_ok rfl, live_on hreset]
    rfl
  case verifies =>
    have hfound := hostRes_read hwaits hset hruns img prf
    rw [if_pos hok] at hfound
    rw [exec_hostBootDmaDone, runIdn_ok rfl]
    unfold hostDmaIdent hostDmaDev
    rw [hfound]
  case invalid =>
    have hfound := hostRes_read hwaits hset hruns img prf
    rw [hbad] at hfound
    exact exec_hostBootDmaDone_failed hfound
  case failed => exact exec_hostBootDmaDone_failed (hostRes_failed hwaits hset hruns)

end Sys2Proof.Machine
end

section
/-!
SUPPORT. The transmit MAC (R314, R406, R410, R415): what each outcome of a frame's egress read leaves.
-/

namespace Sys2Proof.Machine

/-- What a frame that is sent leaves of the queues, of what has been sent and of the port's transmit counter. -/
def sentKept (p : Nat) (d e : Dev) : Prop :=
  e.tmg = d.tmg ∧ e.prt.sent = d.prt.sent ∧ e.reg (Reg.PRT_CNT p 7) = d.reg (Reg.PRT_CNT p 7)

theorem sentKept_refl (p : Nat) (d : Dev) : sentKept p d d := ⟨rfl, rfl, rfl⟩

theorem sentKept_trans {p : Nat} {a b c : Dev} (h : sentKept p a b) (h' : sentKept p b c) : sentKept p a c := by
  obtain ⟨ht, hs, hr⟩ := h
  obtain ⟨ht', hs', hr'⟩ := h'
  exact ⟨ht'.trans ht, hs'.trans hs, hr'.trans hr⟩

theorem sentKept_setReg {p o : Nat} (d : Dev) (v : Word) (ho : o ≠ Reg.PRT_CNT p 7) : sentKept p d (d.setReg o v) :=
  ⟨rfl, rfl, Dev.reg_setReg_ne _ _ _ _ ho.symm⟩

/-- No write of a ring group touches them. -/
theorem sentKept_closed {p : Nat} (hp : p < 80) (d : Dev) : HostClosed (sentKept p d) where
  store _ _ h := sentKept_trans h ⟨rfl, rfl, rfl⟩
  pal _ h := sentKept_trans h ⟨rfl, rfl, rfl⟩
  free _ h := sentKept_trans h ⟨rfl, rfl, rfl⟩
  raise _ _ h := sentKept_trans h ⟨rfl, rfl, rfl⟩
  reg _ ho h := sentKept_trans h (sentKept_setReg _ _ (by unfold Reg.PRT_CNT; unfold Reg.PAL_CTL at ho; omega))
  host _ h := sentKept_trans h ⟨rfl, rfl, rfl⟩
  low _ ho h := sentKept_trans h (sentKept_setReg _ _ (by unfold Reg.PRT_CNT; unfold Reg.PRT_CTL at ho; omega))

theorem sentKept_drainCaps {p : Nat} (hp : p < 80) (d : Dev) : sentKept p d (d.drainCaps p) := by
  unfold Dev.drainCaps
  split
  · refine foldl_inv' _ (sentKept p d) _ (fun b t _ h => (sentKept_closed hp d).postEvts (fld_lt _ 27 24) _ h) _ ?_
    exact ⟨rfl, rfl, rfl⟩
  · exact sentKept_refl p d

/-- A captured timestamp counts elsewhere (R416). -/
theorem sentKept_captureTs {p : Nat} (hp : p < 80) (d : Dev) (t : TsCap) : sentKept p d (d.captureTs p t) := by
  have hcount : ∀ (x : Dev) (c : Nat), c = 9 ∨ c = 10 → sentKept p x (x.prtCount p c) := fun x c hc =>
    sentKept_setReg x _ (by unfold Reg.PRT_CNT; omega)
  unfold Dev.captureTs
  dsimp only
  refine sentKept_trans ?_ (sentKept_drainCaps hp _)
  split
  · refine sentKept_trans ?_ (hcount _ 9 (.inl rfl))
    exact ⟨rfl, rfl, rfl⟩
  · refine sentKept_trans (hcount d 10 (.inr rfl)) ?_
    exact ⟨rfl, rfl, rfl⟩

/-! The registers, the data and the profile that the transmit MAC reads stand when a copy is over. -/

theorem endEgress_prtKind (d : Dev) (p : Nat) : (d.endEgress p).prtKind p = d.prtKind p := rfl

theorem endEgress_maxFrame (d : Dev) (p : Nat) : (d.endEgress p).maxFrame p = d.maxFrame p := rfl

theorem endEgress_prtState (d : Dev) (p : Nat) : (d.endEgress p).prtState p = d.prtState p := rfl

theorem endEgress_frameBad (d : Dev) (p : Nat) (x : TmItem) : (d.endEgress p).frameBad x = d.frameBad x := (palSame_tmg d _).frameBad x

theorem endEgress_txStamp (d : Dev) (sec nsec frac p : Nat) (bs : List Byte) :
    (d.endEgress p).txStamp sec nsec frac p bs = d.txStamp sec nsec frac p bs := rfl

/-- Only the state of a scrambler changes as a frame takes its line form (R403). -/
theorem endEgress_lineForm (d : Dev) (p : Nat) (bs : List Byte) : let u := (d.endEgress p).lineForm p bs
    u.1 = (d.lineForm p bs).1 ∧ u.2.tmg = (d.endEgress p).tmg ∧ u.2.prt.sent = d.prt.sent ∧ ∀ o, u.2.reg o = d.reg o := by
  have hword : (d.endEgress p).rf (Reg.PRT_PORT_W2 p) 15 8 = d.rf (Reg.PRT_PORT_W2 p) 15 8 := rfl
  unfold Dev.lineForm
  rw [endEgress_prtKind, hword]
  split
  · split
    · exact ⟨rfl, rfl, rfl, fun _ => rfl⟩
    · exact ⟨rfl, rfl, rfl, fun _ => rfl⟩
  · exact ⟨rfl, rfl, rfl, fun _ => rfl⟩

section
variable {d : Dev} {sec nsec frac p : Nat} {x : Egress} (hnext : d.nextEgress p = some x)
  (hleave : d.mayLeave p (sec * 1000000000 + nsec) x = true)
include hnext hleave

/-- A frame of a wrong length is counted as discarded and not sent (R406). -/
theorem transmitFrame_wrongLength (hlen : (d.frameBytes x.item).length = 0 ∨ d.maxFrame p < (d.frameBytes x.item).length + 4 ∨
    (d.prtKind p = 2 ∧ (d.frameBytes x.item).length < 16)) :
    transmitFrame sec nsec frac p d = (d.endEgress p).bump (Reg.PRT_CNT p 8) 1 := by
  unfold transmitFrame
  rw [hnext]
  dsimp only
  rw [hleave, if_neg (by decide), endEgress_prtKind, endEgress_maxFrame, if_pos hlen]
  rfl

/-- A frame that may be sent is sent once and counted (R406). -/
theorem transmitFrame_sends (hp : p < 80) (hsome : (d.frameBytes x.item).length ≠ 0)
    (hmax : (d.frameBytes x.item).length + 4 ≤ d.maxFrame p) (hlink : d.prtKind p = 2 → 16 ≤ (d.frameBytes x.item).length)
    (hgood : d.frameBad x.item = false) (hup : d.prtState p = 4) :
    let bs := d.frameBytes x.item
    let raw := if d.prtKind p = 2 then patch bs 10 (beBytes 2 (bs.length - 16)) else bs
    let out := (d.txStamp sec nsec frac p raw).1
    let wire := if d.prtKind p = 4 then out else out ++ zeros (60 - out.length)
    let all := wire ++ fcsBytes wire
    let e := transmitFrame sec nsec frac p d
    e.prt.sent = d.prt.sent ++ [⟨p, all, (d.lineForm p all).1⟩] ∧ e.tmg = (d.endEgress p).tmg ∧
      e.reg (Reg.PRT_CNT p 7) = wd ((d.reg (Reg.PRT_CNT p 7)).toNat + 1) := by
  have hlen : ¬ ((d.frameBytes x.item).length = 0 ∨ d.maxFrame p < (d.frameBytes x.item).length + 4 ∨
      (d.prtKind p = 2 ∧ (d.frameBytes x.item).length < 16)) := by
    rintro (h | h | ⟨hk, h⟩)
    · exact hsome h
    · omega
    · exact absurd (hlink hk) (by omega)
  unfold transmitFrame
  rw [hnext]
  dsimp only
  rw [hleave, if_neg (by decide), endEgress_prtKind, endEgress_maxFrame, if_neg hlen, endEgress_frameBad, hgood, if_neg (by decide),
    endEgress_prtState, if_neg (not_not_intro hup), endEgress_txStamp]
  generalize d.txStamp sec nsec frac p _ = r
  generalize (if d.prtKind p = 4 then r.1 else r.1 ++ zeros (60 - r.1.length)) = wire
  obtain ⟨hline, htmg, hsent, hreg⟩ := endEgress_lineForm d p (wire ++ fcsBytes wire)
  generalize (d.endEgress p).lineForm p (wire ++ fcsBytes wire) = u at hline htmg hsent hreg ⊢
  have hcount : ({ u.2 with prt := { u.2.prt with sent := u.2.prt.sent ++ [SentFrame.mk p (wire ++ fcsBytes wire) u.1] } } : Dev).reg
      (Reg.PRT_CNT p 7) = d.reg (Reg.PRT_CNT p 7) := hreg _
  split
  · next t _ =>
    obtain ⟨htmg', hsent', hreg'⟩ := sentKept_captureTs hp (({ u.2 with prt := { u.2.prt with
      sent := u.2.prt.sent ++ [SentFrame.mk p (wire ++ fcsBytes wire) u.1] } } : Dev).prtCount p 7) t
    refine ⟨hsent'.trans ?_, htmg'.trans htmg, hreg'.trans ((Dev.reg_setReg_self _ _ _).trans ?_)⟩
    · rw [← hsent, ← hline]
      rfl
    · rw [hcount]
  · refine ⟨?_, htmg, (Dev.reg_setReg_self _ _ _).trans ?_⟩
    · rw [← hsent, ← hline]
      rfl
    · rw [hcount]

end

/-- Settles O40: what a frame's egress read and the end of a transmission leave. -/
theorem frameTransmit : Obligations.FrameTransmit := by
  unfold Obligations.FrameTransmit
  intro s p
  dsimp only
  refine ⟨fun x hp hnext hleave => ⟨fun hlen => ?discarded, fun hsome hmax hlink hgood hup => ?sent⟩, fun hport e r hegress hsent => ?done⟩
  case discarded =>
    rw [exec_transmitFrame, runDev_ok (ok := isMac p) (decide_eq_true hp), transmitFrame_wrongLength hnext hleave hlen]
  case sent =>
    obtain ⟨hsent, htmg, hcount⟩ := transmitFrame_sends (frac := s.clk.frac) hnext hleave hp hsome hmax hlink hgood hup
    refine ⟨_, (exec_transmitFrame p s).trans (runDev_ok (decide_eq_true hp)), hsent, ?_, hcount⟩
    rw [htmg]
    exact tget_tset_self _ _ _ _
  case done =>
    have hover : transmitDone p s.dev = (s.dev.egressLeft p r).releaseCopy (s.dev.portOwner p) e.item := by
      unfold transmitDone
      rw [hegress]
      dsimp only
      rw [if_pos hsent]
      rfl
    have hkeep := palKeeps_releaseCopy (s.dev.egressLeft p r) (s.dev.portOwner p) e.item
    refine ⟨_, (exec_transmitDone p s).trans (runDev_ok hport), ?_⟩
    rw [hover, (palKeeps_queues hkeep).1]
    refine ⟨egressLeft_self _ _ _, ?_⟩
    obtain ⟨⟨_, _, _, _, _, _, h⟩, -⟩ := hkeep
    rw [h]
    rfl

end Sys2Proof.Machine
end

section
/-!
SUPPORT. GMP requests (R491, R506 to R508, R533, R544): what each answers and leaves.
-/

namespace Sys2Proof.Machine

/-- A request to another address is not answered (R506). -/
theorem gmp_silent {d : Dev} {a : BitVec 7} (h : d.answersTo a = false) (code : Nat) (inReset : Bool) (len : Nat → Bool)
    (p : List Byte) (crc : Byte) (body : GmpBody) : d.gmp code inReset len a p crc body = d := by
  unfold Dev.gmp
  rw [h]
  rfl

theorem subunitAll_silent {d : Dev} {a : BitVec 7} (h : d.answersTo a = false) (p : List Byte) (crc : Byte) :
    d.subunitAll a p crc = false := by
  unfold Dev.subunitAll
  rw [h]
  rfl

/-- The CRC of a request is right (R507). -/
def gmpGood (crc : Byte) (code : Nat) (p : List Byte) : Prop :=
  crc.toNat = crc8 0 (leBytes 1 code ++ leBytes 1 p.length ++ p)

section
variable {d : Dev} {a : BitVec 7} {code : Nat} {p : List Byte} {crc : Byte} (hto : d.answersTo a = true)
include hto

theorem gmp_badCrc (hcrc : ¬ gmpGood crc code p) (inReset : Bool) (len : Nat → Bool) (body : GmpBody) :
    d.gmp code inReset len a p crc body = { d with resp := gmpAnswer 3 [] } := by
  unfold gmpGood at hcrc
  unfold Dev.gmp
  rw [hto, if_neg (by decide), if_pos hcrc]
  rfl

theorem gmp_badLength (hcrc : gmpGood crc code p) (hcode : gmpKnown code = true) {len : Nat → Bool} (hlen : len p.length = false)
    (inReset : Bool) (body : GmpBody) : d.gmp code inReset len a p crc body = { d with resp := gmpAnswer 2 [] } := by
  unfold gmpGood at hcrc
  unfold Dev.gmp
  rw [hto, if_neg (by decide), if_neg (not_not_intro hcrc), hcode, if_neg (by decide), hlen]
  rfl

theorem gmp_inReset (hcrc : gmpGood crc code p) (hcode : gmpKnown code = true) {len : Nat → Bool} (hlen : len p.length = true)
    (hreset : d.pins.resetN = false) (body : GmpBody) : d.gmp code false len a p crc body = { d with resp := gmpAnswer 5 [] } := by
  unfold gmpGood at hcrc
  unfold Dev.gmp
  rw [hto, if_neg (by decide), if_neg (not_not_intro hcrc), hcode, if_neg (by decide), hlen, if_neg (by decide), hreset]
  rfl

/-- A request that is executed (R507): its body's answer, after line 3 where it needs firmware. -/
theorem gmp_runs (hcrc : gmpGood crc code p) (hcode : gmpKnown code = true) {len : Nat → Bool} (hlen : len p.length = true)
    {inReset : Bool} (hreset : d.pins.resetN = true ∨ inReset = true) (body : GmpBody) : d.gmp code inReset len a p crc body =
      (body (d.gmpLine code)).2.2.gmpReply ((body (d.gmpLine code)).1, (body (d.gmpLine code)).2.1) := by
  have hready : (!d.pins.resetN && !inReset) = false := by
    obtain h | h := hreset
    · rw [h]; rfl
    · rw [h, Bool.not_true, Bool.and_false]
  unfold gmpGood at hcrc
  unfold Dev.gmp
  rw [hto, if_neg (by decide), if_neg (not_not_intro hcrc), hcode, if_neg (by decide), hlen, if_neg (by decide), hready,
    if_neg (by decide)]

end

/-- A request whose status is not 0 does not count (R515). -/
theorem gmpReply_failed (d : Dev) {n : Nat} (h : n ≠ 0) (bs : List Byte) : d.gmpReply (n, bs) = { d with resp := gmpAnswer n bs } := by
  unfold Dev.gmpReply
  rw [if_neg h]

theorem gmpReply_done (d : Dev) (bs : List Byte) : (d.gmpReply (0, bs)).resp = gmpAnswer 0 bs ∧
    (d.gmpReply (0, bs)).reg Reg.MGT_GMP_CNT = d.reg Reg.MGT_GMP_CNT + 1 := by
  refine ⟨rfl, ?_⟩
  refine (Dev.reg_setReg_self d Reg.MGT_GMP_CNT _).trans (BitVec.eq_of_toNat_eq ?_)
  unfold wd
  rw [BitVec.toNat_ofNat, BitVec.toNat_add]
  rfl

/-- Line 3 is a bit of ATL_INT_PEND: the rest of the device stands (R502). -/
theorem gmpLine_reg (d : Dev) (code : Nat) {o : Nat} (ho : o ≠ Reg.ATL_INT_PEND) : (d.gmpLine code).reg o = d.reg o := by
  unfold Dev.gmpLine
  split
  · exact Dev.reg_setRb_ne _ _ _ _ _ ho
  · rfl

theorem gmpLine_mgt (d : Dev) (code : Nat) : (d.gmpLine code).mgt = d.mgt := by
  unfold Dev.gmpLine
  split
  · exact Dev.setRb_mgt _ _ _ _
  · rfl

theorem gmpLine_rf (d : Dev) (code : Nat) {o : Nat} (ho : o ≠ Reg.ATL_INT_PEND) (hi lo : Nat) :
    (d.gmpLine code).rf o hi lo = d.rf o hi lo := rf_of_reg (gmpLine_reg d code ho) hi lo

theorem bit_of_fld_zero {w : Word} {hi lo i : Nat} (h : fld w hi lo = 0) (hlo : lo ≤ i) (hhi : i ≤ hi) : bit w i = false := by
  have hbit : (fld w hi lo).testBit (i - lo) = bit w i := by
    unfold fld bit
    rw [Nat.testBit_mod_two_pow, Nat.testBit_div_two_pow, decide_eq_true (by omega), Bool.true_and]
    exact congrArg _ (by omega)
  rw [← hbit, h, Nat.zero_testBit]

/-- What FAULT_CLEAR leaves of the first-fault record (R544). -/
theorem faultClear_leaves (d : Dev) : let e := d.setRf Reg.FLT_FIRST_STATUS 31 30 0
    e = { d with regs := e.regs } ∧ e.rb Reg.FLT_FIRST_STATUS 31 = false ∧ e.rb Reg.FLT_FIRST_STATUS 30 = false ∧
      e.rf Reg.FLT_FIRST_STATUS 29 0 = d.rf Reg.FLT_FIRST_STATUS 29 0 ∧ ∀ o, o ≠ Reg.FLT_FIRST_STATUS → e.reg o = d.reg o := by
  have hzero : (d.setRf Reg.FLT_FIRST_STATUS 31 30 0).rf Reg.FLT_FIRST_STATUS 31 30 = 0 := Dev.rf_setRf_self _ _ _ _ _ (by omega) (by omega)
  refine ⟨rfl, bit_of_fld_zero hzero (by omega) (by omega), bit_of_fld_zero hzero (by omega) (by omega), ?_, fun o ho => ?_⟩
  · exact Dev.rf_setRf_apart _ _ _ _ _ _ _ (by omega) (by omega) (by omega)
  · exact Dev.reg_setRf_ne _ _ _ _ _ _ ho

/-- The first-fault record lies in registers that line 3 does not touch (R544). -/
theorem faultRecord_gmpLine (d : Dev) (code : Nat) : (d.gmpLine code).faultRecord = d.faultRecord := by
  unfold Dev.faultRecord
  rw [gmpLine_reg d code (by decide), gmpLine_reg d code (by decide), gmpLine_reg d code (by decide), gmpLine_reg d code (by decide)]

/-- What SUBUNIT_RESET of the whole device does (R508). -/
theorem subunitAll_whole {d : Dev} {a : BitVec 7} {crc b : Byte} (hto : d.answersTo a = true) (hreset : d.pins.resetN = true)
    (hcrc : gmpGood crc 7 [b]) : d.subunitAll a [b] crc = decide (leAt [b] 0 1 = 0xFF) := by
  unfold gmpGood at hcrc
  unfold Dev.subunitAll
  rw [hto, hreset, decide_eq_true hcrc, Bool.and_true, Bool.and_self, Bool.true_and]
  simp only [List.length_singleton, true_and]

/-- A SUBUNIT_RESET that is executed (R507, R508). -/
theorem exec_subunitReset_runs {s : State} {a : BitVec 7} {crc b : Byte} (hto : s.dev.answersTo a = true)
    (hreset : s.dev.pins.resetN = true) (hcrc : gmpGood crc 7 [b]) : exec (.subunitReset a [b] crc) s =
      let r := subunitBody (leAt [b] 0 1) (s.dev.gmpLine 7)
      .next { s with clk := if leAt [b] 0 1 = 0xFF then Clock.reset else s.clk
                     idn := if leAt [b] 0 1 = 0xFF then s.idn.cleared else s.idn, dev := r.2.2.gmpReply (r.1, r.2.1) } := by
  rw [exec_subunitReset, runAll_ok rfl, subunitAll_whole hto hreset hcrc]
  unfold gmpSubunitReset
  rw [gmp_runs hto hcrc rfl rfl (.inl hreset)]
  simp only [decide_eq_true_eq]

/-- SUBUNIT_RESET to another address is not answered (R506). -/
theorem exec_subunitReset_silent {s : State} {a : BitVec 7} (hto : s.dev.answersTo a = false) (p : List Byte) (crc : Byte) :
    exec (.subunitReset a p crc) s = .next s := by
  rw [exec_subunitReset, runAll_ok rfl, subunitAll_silent hto]
  unfold gmpSubunitReset
  rw [gmp_silent hto]
  rfl

/-- Settles O49: each request by what it answers. -/
theorem gmpRequests : Obligations.GmpRequests := by
  unfold Obligations.GmpRequests
  intro s a crc
  dsimp only
  refine ⟨fun hto p => ?silent, fun hto => ⟨fun e bs => gmpReply_done e bs, fun p hcrc => ?badCrc, fun p hcrc hp => ?badLength,
    fun hcrc => ?identity, fun hcrc => ?faultRead, fun hcrc => ⟨(s.dev.gmpLine 3).setRf Reg.FLT_FIRST_STATUS 31 30 0, ?faultClear⟩,
    fun hcrc => ?ringStatus, fun p hcrc hlen => ?certRead, fun hreset hcrc => ?powerInReset, fun hreset => ⟨fun hcrc => ?powerState,
      fun b hcrc hv => ?powerSet, fun b hcrc => ?subunit, fun p hcrc hmin hmax hidle => ?quoteStart,
      fun p q hcrc hlen hidle hquote hoff => ?quoteRead, fun p hcrc hlen hoff => ?regRead⟩⟩⟩
  case silent =>
    simp only [List.forall_mem_cons, List.not_mem_nil, false_imp_iff, implies_true, and_true]
    exact ⟨(exec_identity a p crc s).trans (runDev_silent (gmp_silent hto _ _ _ _ _ _)),
      (exec_faultRead a p crc s).trans (runDev_silent (gmp_silent hto _ _ _ _ _ _)),
      (exec_faultClear a p crc s).trans (runDev_silent (gmp_silent hto _ _ _ _ _ _)),
      (exec_powerState a p crc s).trans (runDev_silent (gmp_silent hto _ _ _ _ _ _)),
      (exec_powerSet a p crc s).trans (runDev_silent (gmp_silent hto _ _ _ _ _ _)),
      (exec_ringStatus a p crc s).trans (runDev_silent (gmp_silent hto _ _ _ _ _ _)), exec_subunitReset_silent hto p crc,
      (exec_quoteStart a p crc s).trans (runDev_silent (gmp_silent hto _ _ _ _ _ _)),
      (exec_quoteRead a p crc s).trans (runDev_silent (gmp_silent hto _ _ _ _ _ _)),
      (exec_certRead a p crc s).trans (runDev_silent (gmp_silent hto _ _ _ _ _ _)),
      (exec_regRead a p crc s).trans (runDev_silent (gmp_silent hto _ _ _ _ _ _))⟩
  case badCrc =>
    exact (exec_identity a p crc s).trans (runDev_becomes (gmp_badCrc hto hcrc _ _ _))
  case badLength =>
    have hlen : noPayload p.length = false := decide_eq_false (mt List.length_eq_zero_iff.mp hp)
    exact (exec_identity a p crc s).trans (runDev_becomes (gmp_badLength hto hcrc rfl hlen _ _))
  case identity =>
    rw [exec_identity, runDev_ok rfl]
    unfold gmpIdentity
    rw [gmp_runs hto hcrc rfl rfl (.inr rfl)]
    dsimp only
    rw [show (s.dev.gmpLine 1).stage = s.dev.stage from gmpLine_rf _ _ (by decide) _ _]
  case faultRead =>
    rw [exec_faultRead, runDev_ok rfl]
    unfold gmpFaultRead
    rw [gmp_runs hto hcrc rfl rfl (.inr rfl), faultRecord_gmpLine]
  case faultClear =>
    obtain ⟨hregs, hvalid, hover, hrest, hkeep⟩ := faultClear_leaves (s.dev.gmpLine 3)
    refine ⟨?_, hregs, hvalid, hover, hrest.trans (gmpLine_rf _ _ (by decide) _ _), hkeep⟩
    rw [exec_faultClear, runDev_ok rfl]
    unfold gmpFaultClear
    rw [gmp_runs hto hcrc rfl rfl (.inr rfl)]
  case ringStatus =>
    rw [exec_ringStatus, runDev_ok rfl]
    unfold gmpRingStatus
    rw [gmp_runs hto hcrc rfl rfl (.inr rfl)]
    dsimp only
    rw [gmpLine_reg _ _ (by decide), gmpLine_reg _ _ (by decide), gmpLine_reg _ _ (by decide), gmpLine_reg _ _ (by decide)]
  case certRead =>
    rw [exec_certRead, runDev_ok rfl]
    unfold gmpCertRead
    rw [gmp_runs hto hcrc rfl (decide_eq_true hlen) (.inr rfl)]
  case powerInReset =>
    exact (exec_powerState a [] crc s).trans (runDev_becomes (gmp_inReset hto hcrc rfl (len := noPayload) rfl hreset _))
  case powerState =>
    rw [exec_powerState, runDev_ok rfl]
    unfold gmpPowerState
    rw [gmp_runs hto hcrc rfl rfl (.inl hreset)]
    dsimp only
    rw [gmpLine_reg _ _ (by decide), gmpLine_rf _ _ (by decide)]
  case powerSet =>
    rw [exec_powerSet, runDev_ok rfl]
    unfold gmpPowerSet
    rw [gmp_runs hto hcrc rfl rfl (.inl hreset)]
    dsimp only
    rw [if_neg (by omega)]
  case subunit =>
    rw [exec_subunitReset_runs hto hreset hcrc]
    refine ⟨fun hu => ?_, fun hmin hmax => ?_, fun hu => ?_, fun hu => ?_, fun hmin hgroups hwhole => ?_⟩
    · rw [hu]
      rfl
    · have hbody : subunitBody (leAt [b] 0 1) (s.dev.gmpLine 7) = (0, [], stnEngStop (leAt [b] 0 1 - 1) (s.dev.gmpLine 7)) := by
        unfold subunitBody
        rw [if_neg (by omega), if_pos hmax]
      rw [hbody, if_neg (by omega), if_neg (by omega)]
      rfl
    · rw [hu]
      rfl
    · rw [hu]
      rfl
    · have hbody : subunitBody (leAt [b] 0 1) (s.dev.gmpLine 7) = (6, [], s.dev.gmpLine 7) := by
        unfold subunitBody
        rw [if_neg (by omega), if_neg (by omega), if_neg hgroups, if_neg hwhole]
      rw [hbody, if_neg hwhole, if_neg hwhole]
      dsimp only
      rw [gmpReply_failed _ (by decide)]
      rfl
  case quoteStart =>
    rw [exec_quoteStart, runDev_ok rfl]
    unfold gmpQuoteStart
    rw [gmp_runs hto hcrc rfl (decide_eq_true ⟨hmin, hmax⟩) (.inl hreset)]
    dsimp only
    rw [gmpLine_mgt, hidle]
    rfl
  case quoteRead =>
    rw [exec_quoteRead, runDev_ok rfl]
    unfold gmpQuoteRead
    rw [gmp_runs hto hcrc rfl (decide_eq_true hlen) (.inl hreset)]
    rw [gmpLine_mgt, hidle, hquote, if_neg (by decide)]
    dsimp only
    rw [if_neg (by omega)]
  case regRead =>
    rw [exec_regRead, runDev_ok rfl]
    unfold gmpRegRead
    rw [gmp_runs hto hcrc rfl (decide_eq_true hlen) (.inl hreset)]
    dsimp only
    rw [if_pos hoff]

end Sys2Proof.Machine
end

section
/-!
SUPPORT. The Atelier's cores as ATL_CORE_CTL starts them (R501).
-/

namespace Sys2Proof.Machine

/-- One core of a write of ATL_CORE_CTL (R501): a core whose start bit becomes 1 starts. -/
def Dev.coreStart (mask : Nat) (d : Dev) (k : Nat) : Dev :=
  if mask.testBit k && !d.rb Reg.ATL_CORE_CTL k then
    (d.setRb Reg.ATL_CORE_CTL k true).startAtl (k + 1) (d.reg (Reg.ATL_START k))
  else d

theorem atlCoreStart_eq {r : Req} (hr : r ≠ .host) (mask : BitVec 3) (d : Dev) :
    atlCoreStart r mask d = [0, 1, 2].foldl (Dev.coreStart mask.toNat) d := if_neg hr

/-- What two devices agree on about a core. -/
def sameCore (k : Nat) (d e : Dev) : Prop :=
  e.rb Reg.ATL_CORE_CTL k = d.rb Reg.ATL_CORE_CTL k ∧ e.reg (Reg.ATL_START k) = d.reg (Reg.ATL_START k) ∧
    e.thr (1537 + k) = d.thr (1537 + k)

theorem sameCore_refl (k : Nat) (d : Dev) : sameCore k d d := ⟨rfl, rfl, rfl⟩

theorem sameCore_trans {k : Nat} {a b c : Dev} (h : sameCore k a b) (h' : sameCore k b c) : sameCore k a c := by
  obtain ⟨hb, hr, ht⟩ := h
  obtain ⟨hb', hr', ht'⟩ := h'
  exact ⟨hb'.trans hb, hr'.trans hr, ht'.trans ht⟩

/-- Starting a core leaves the others. -/
theorem sameCore_coreStart {j k : Nat} (hk : k < 32) (hjk : j ≠ k) (mask : Nat) (d : Dev) : sameCore j d (d.coreStart mask k) := by
  unfold Dev.coreStart
  split
  · refine ⟨Dev.rb_setRb_apart d _ _ _ _ hk hjk, Dev.reg_setRb_ne d _ _ _ _ ?_, Dev.thr_setThr_ne _ _ _ _ (by omega)⟩
    unfold Reg.ATL_START Reg.ATL_CORE_CTL
    omega
  · exact sameCore_refl j d

theorem coreStart_starts {k mask : Nat} {d : Dev} (hk : k < 32) (hmask : mask.testBit k = true)
    (hoff : d.rb Reg.ATL_CORE_CTL k = false) : let e := d.coreStart mask k
    e.rb Reg.ATL_CORE_CTL k = true ∧ e.thr (1537 + k) = { Thread.reset with pc := d.reg (Reg.ATL_START k), sstatus := 1, run := .running } := by
  have hcore : 1537 + k = 1536 + (k + 1) := by omega
  dsimp only
  unfold Dev.coreStart
  rw [hmask, hoff, Bool.not_false, Bool.and_self, if_pos rfl, hcore]
  exact ⟨Dev.rb_setRb_self d _ _ _ hk, Dev.thr_setThr_self _ _ _⟩

theorem coreStart_stays {k mask : Nat} {d : Dev} (h : mask.testBit k = false ∨ d.rb Reg.ATL_CORE_CTL k = true) : d.coreStart mask k = d := by
  unfold Dev.coreStart
  refine if_neg ?_
  obtain h | h := h
  · rw [h, Bool.false_and]
    decide
  · rw [h, Bool.not_true, Bool.and_false]
    decide

/-- A core's own turn between turns of the others. -/
theorem coreStart_between {k mask : Nat} {d x e : Dev} (hk : k < 32) (hbefore : sameCore k d x) (hafter : sameCore k (x.coreStart mask k) e) :
    (mask.testBit k = true → d.rb Reg.ATL_CORE_CTL k = false → e.rb Reg.ATL_CORE_CTL k = true ∧
      (e.thr (1537 + k)).pc = d.reg (Reg.ATL_START k) ∧ (e.thr (1537 + k)).run = .running ∧ (e.thr (1537 + k)).super = true) ∧
    (mask.testBit k = false ∨ d.rb Reg.ATL_CORE_CTL k = true → e.rb Reg.ATL_CORE_CTL k = d.rb Reg.ATL_CORE_CTL k ∧
      e.thr (1537 + k) = d.thr (1537 + k)) := by
  obtain ⟨hbit, hstart, hthr⟩ := hbefore
  obtain ⟨hbit', -, hthr'⟩ := hafter
  refine ⟨fun hmask hoff => ?_, fun h => ?_⟩
  · obtain ⟨hon, hcore⟩ := coreStart_starts hk hmask (hbit.trans hoff)
    rw [hbit', hthr', hon, hcore, hstart]
    exact ⟨rfl, rfl, rfl, (by decide : bit 1 0 = true)⟩
  · have hstays : x.coreStart mask k = x := coreStart_stays (h.imp_right hbit.trans)
    rw [hstays] at hbit' hthr'
    exact ⟨hbit'.trans hbit, hthr'.trans hthr⟩

/-- What a write of ATL_CORE_CTL leaves of each core (R501). -/
theorem atlCoreStart_leaves {r : Req} (hr : r ≠ .host) (mask : BitVec 3) (d : Dev) (k : Nat) (hk : k < 3) : let e := atlCoreStart r mask d
    (mask.toNat.testBit k = true → d.rb Reg.ATL_CORE_CTL k = false → e.rb Reg.ATL_CORE_CTL k = true ∧
      (e.thr (1537 + k)).pc = d.reg (Reg.ATL_START k) ∧ (e.thr (1537 + k)).run = .running ∧ (e.thr (1537 + k)).super = true) ∧
    (mask.toNat.testBit k = false ∨ d.rb Reg.ATL_CORE_CTL k = true → e.rb Reg.ATL_CORE_CTL k = d.rb Reg.ATL_CORE_CTL k ∧
      e.thr (1537 + k) = d.thr (1537 + k)) := by
  dsimp only
  rw [atlCoreStart_eq hr]
  have hother {j i : Nat} (hi : i < 3) (hji : j ≠ i) (x : Dev) : sameCore j x (x.coreStart mask.toNat i) :=
    sameCore_coreStart (by omega) hji mask.toNat x
  obtain rfl | rfl | rfl : k = 0 ∨ k = 1 ∨ k = 2 := by omega
  · exact coreStart_between (by decide) (sameCore_refl 0 d) (sameCore_trans (hother (by decide) (by decide) _) (hother (i := 2) (by decide) (by decide) _))
  · exact coreStart_between (by decide) (hother (i := 0) (by decide) (by decide) d) (hother (i := 2) (by decide) (by decide) _)
  · exact coreStart_between (by decide) (sameCore_trans (hother (i := 0) (by decide) (by decide) d) (hother (i := 1) (by decide) (by decide) _))
      (sameCore_refl 2 _)

end Sys2Proof.Machine
end

section
/-!
SUPPORT. The I3C common commands and the Atelier's registers (R501 to R503, R506, R509, R515).
-/

namespace Sys2Proof.Machine

/-- A common command reaches a target that is up (R506). -/
theorem ccc_up {d : Dev} (h : d.targetUp = true) (f : Dev → Dev) : d.ccc f = f d := if_pos h

theorem ccc_down {d : Dev} (h : d.targetUp = false) (f : Dev → Dev) : d.ccc f = d := if_neg (by rw [h]; decide)

theorem assignAddr_held {d : Dev} (h : d.rb Reg.MGT_I3C_STATUS 8 = true) (a : BitVec 7) : d.assignAddr a = d := if_pos h

/-- What the address and its bit, written to MGT_I3C_STATUS, leave. -/
theorem statusSet_leaves (d : Dev) (v : Nat) (b : Bool) : let e := (d.setRf Reg.MGT_I3C_STATUS 6 0 v).setRb Reg.MGT_I3C_STATUS 8 b
    e = { d with regs := e.regs } ∧ e.rf Reg.MGT_I3C_STATUS 6 0 = v % 2 ^ 7 ∧ e.rb Reg.MGT_I3C_STATUS 8 = b ∧
      e.rb Reg.MGT_I3C_STATUS 7 = d.rb Reg.MGT_I3C_STATUS 7 ∧ ∀ o, o ≠ Reg.MGT_I3C_STATUS → e.reg o = d.reg o := by
  refine ⟨rfl, ?_, Dev.rb_setRb_self _ _ _ _ (by omega), ?_, fun o ho => ?_⟩
  · exact (Dev.rf_setRf_apart _ _ _ _ _ _ _ (by omega) (by omega) (by omega)).trans (Dev.rf_setRf_self _ _ _ _ _ (by omega) (by omega))
  · exact (Dev.rb_setRb_apart _ _ _ _ _ (by omega) (by omega)).trans (Dev.rb_setRf_apart _ _ _ _ _ _ (by omega) (by omega) (by omega))
  · exact (Dev.reg_setRb_ne _ _ _ _ _ ho).trans (Dev.reg_setRf_ne _ _ _ _ _ _ ho)

/-- A dynamic address assigned (R506). -/
theorem assignAddr_leaves {d : Dev} (h : d.rb Reg.MGT_I3C_STATUS 8 = false) (a : BitVec 7) : let e := d.assignAddr a
    e = { d with regs := e.regs } ∧ e.rf Reg.MGT_I3C_STATUS 6 0 = a.toNat ∧ e.rb Reg.MGT_I3C_STATUS 8 = true ∧
      e.rb Reg.MGT_I3C_STATUS 7 = d.rb Reg.MGT_I3C_STATUS 7 ∧ ∀ o, o ≠ Reg.MGT_I3C_STATUS → e.reg o = d.reg o := by
  have hassign : d.assignAddr a = (d.setRf Reg.MGT_I3C_STATUS 6 0 a.toNat).setRb Reg.MGT_I3C_STATUS 8 true := if_neg (by rw [h]; decide)
  have hleaves := statusSet_leaves d a.toNat true
  rw [Nat.mod_eq_of_lt a.isLt] at hleaves
  rw [hassign]
  exact hleaves

/-- ENTDAA, and SETDASA to the static address, assign (R506). -/
theorem exec_assigns {s : State} (hup : s.dev.targetUp = true) {a : BitVec 7} {i : Instr}
    (hi : i = .entdaa a ∨ i = .setdasa (BitVec.ofNat 7 (s.dev.rf Reg.MGT_I3C_CFG 6 0)) a) :
    exec i s = .next (s.withDev (s.dev.assignAddr a)) := by
  obtain rfl | rfl := hi
  · exact (exec_entdaa a s).trans (runDev_becomes (ccc_up hup _))
  · refine (exec_setdasa _ a s).trans (runDev_becomes ((ccc_up hup _).trans (if_pos ?_)))
    rw [BitVec.toNat_ofNat]
    exact Nat.mod_eq_of_lt (fld_lt _ 6 0)

/-- What ENEC and DISEC leave. -/
theorem eventsSet_leaves (d : Dev) (b : Bool) : let e := d.setRb Reg.MGT_I3C_STATUS 7 b
    e = { d with regs := e.regs } ∧ e.rb Reg.MGT_I3C_STATUS 7 = b ∧ e.rf Reg.MGT_I3C_STATUS 6 0 = d.rf Reg.MGT_I3C_STATUS 6 0 ∧
      ∀ o, o ≠ Reg.MGT_I3C_STATUS → e.reg o = d.reg o :=
  ⟨setRb_regs _ _ _ _, Dev.rb_setRb_self _ _ _ _ (by omega), Dev.rf_setRf_apart _ _ _ _ _ _ _ (by omega) (by omega) (by omega),
    fun _ ho => Dev.reg_setRb_ne _ _ _ _ _ ho⟩

/-- A host write of an ATL register is refused (R515). -/
theorem atlWrite_host (d : Dev) (o : Nat) (f : Dev → Dev) : d.atlWrite .host o f = d.refuse .host o := if_pos rfl

theorem atlWrite_own {r : Req} (hr : r ≠ .host) (d : Dev) (o : Nat) (f : Dev → Dev) : d.atlWrite r o f = f d := if_neg hr

/-- What a write of ATL_RUN.go needs (R501). -/
theorem mayRun_iff (d : Dev) : d.mayRun = true ↔ d.prf.inForce ≠ none ∧ d.rb Reg.DRC_STATUS 0 = true ∧ d.rf Reg.DRC_STATUS 31 24 ≠ 0 := by
  unfold Dev.mayRun
  rw [Bool.and_eq_true, Bool.and_eq_true, decide_eq_true_eq, Option.isSome_iff_ne_none, and_assoc]

theorem atlRunGo_stage2 {r : Req} (hr : r ≠ .host) {d : Dev} (hstage : d.stage = 2) :
    atlRunGo r d = if d.mayRun then d.setRf Reg.GLB_RUN_STATE 3 0 3 else d.conflict r Reg.ATL_RUN :=
  (atlWrite_own hr _ _ _).trans (if_neg (not_not_intro hstage))

/-- Settles O50: each command by what it answers and leaves. -/
theorem i3cAndAtelier : Obligations.I3cAndAtelier := by
  unfold Obligations.I3cAndAtelier
  intro s
  dsimp only
  refine ⟨fun hdown a => ?down, fun hup => ⟨fun a i hi => ⟨fun hheld => ?held, fun hfree => ?assigned⟩, fun i b hi => ?events, ?getpid,
    ?getbcr, ?getdcr, ?getmwl, ?getmrl, ?getstatus, fun n => ⟨?setmwl, ?setmrl⟩, fun a => ?rstact⟩, fun sev src hibi hon => ?ibi,
    fun hreset => ⟨fun m => ?hostStart, fun m => ?hostIpi, ?hostRun, ?hostExtend, fun r hr => ⟨fun m => ?start, fun m => ?ipi,
      fun hstage hprf hready hchan => ?run, fun hstage hlacks => ?conflict, ?extend⟩⟩⟩
  case down => exact (exec_entdaa a s).trans (runDev_becomes (ccc_down hdown _))
  case held => exact (exec_assigns hup hi).trans (by rw [assignAddr_held hheld])
  case assigned => exact ⟨_, exec_assigns hup hi, assignAddr_leaves hfree a⟩
  case events =>
    obtain ⟨rfl, rfl⟩ | ⟨rfl, rfl⟩ | ⟨rfl, rfl⟩ := hi
    · obtain ⟨hregs, haddr, hheld, hon, hkeep⟩ := statusSet_leaves s.dev 0 false
      exact ⟨_, (exec_rstdaa s).trans (runDev_becomes (ccc_up hup _)), hregs, hon, fun _ => ⟨haddr, hheld⟩, fun h => absurd rfl h, hkeep⟩
    · obtain ⟨hregs, hon, haddr, hkeep⟩ := eventsSet_leaves s.dev true
      exact ⟨_, (exec_enec s).trans (runDev_becomes (ccc_up hup _)), hregs, hon, nofun, fun _ => haddr, hkeep⟩
    · obtain ⟨hregs, hon, haddr, hkeep⟩ := eventsSet_leaves s.dev false
      exact ⟨_, (exec_disec s).trans (runDev_becomes (ccc_up hup _)), hregs, hon, nofun, fun _ => haddr, hkeep⟩
  case getpid => exact (exec_getpid s).trans (runDev_becomes (ccc_up hup _))
  case getbcr => exact (exec_getbcr s).trans (runDev_becomes (ccc_up hup _))
  case getdcr => exact (exec_getdcr s).trans (runDev_becomes (ccc_up hup _))
  case getmwl => exact (exec_getmwl s).trans (runDev_becomes (ccc_up hup _))
  case getmrl => exact (exec_getmrl s).trans (runDev_becomes (ccc_up hup _))
  case getstatus => exact ⟨_, (exec_getstatus s).trans (runDev_becomes (ccc_up hup _)), rfl, rfl⟩
  case setmwl => exact (exec_setmwl n s).trans (runDev_becomes (ccc_up hup _))
  case setmrl => exact (exec_setmrl n s).trans (runDev_becomes (ccc_up hup _))
  case rstact => exact (exec_rstact a s).trans (runDev_becomes (ccc_up hup _))
  case ibi =>
    refine (exec_ibiAccepted s).trans (runDev_becomes ?_)
    unfold ibiAccepted
    rw [hibi]
    exact if_pos hon
  case hostStart => exact (exec_atlCoreStart .host m s).trans (runDev_becomes ((live_on hreset).trans (atlWrite_host _ _ _)))
  case hostIpi => exact (exec_atlIpi .host m s).trans (runDev_becomes ((live_on hreset).trans (atlWrite_host _ _ _)))
  case hostRun => exact (exec_atlRunGo .host s).trans (runDev_becomes ((live_on hreset).trans (atlWrite_host _ _ _)))
  case hostExtend =>
    rw [exec_measurementExtend, runIdn_ok rfl, live_on hreset, if_pos hreset]
    rfl
  case start =>
    refine ⟨_, (exec_atlCoreStart r m s).trans (runDev_ok rfl), fun k hk => ?_⟩
    rw [live_on hreset]
    exact atlCoreStart_leaves hr m s.dev k hk
  case ipi => exact (exec_atlIpi r m s).trans (runDev_becomes ((live_on hreset).trans (atlWrite_own hr _ _ _)))
  case run =>
    refine (exec_atlRunGo r s).trans (runDev_becomes ((live_on hreset).trans ((atlRunGo_stage2 hr hstage).trans (if_pos ?_))))
    exact (mayRun_iff s.dev).mpr ⟨hprf, hready, hchan⟩
  case conflict =>
    refine (exec_atlRunGo r s).trans (runDev_becomes ((live_on hreset).trans ((atlRunGo_stage2 hr hstage).trans (if_neg ?_))))
    rw [mayRun_iff]
    rintro ⟨hprf, hready, hchan⟩
    obtain h | h | h := hlacks
    · exact hprf h
    · rw [hready] at h; cases h
    · exact hchan h
  case extend =>
    rw [exec_measurementExtend, runIdn_ok rfl, live_on hreset, if_pos hreset]
    unfold measExtendIdent measExtendDev
    rw [if_neg hr, if_neg hr]

end Sys2Proof.Machine
end

section
/-!
SUPPORT. The power state of one cluster (R519, R523, R524): what each operation of Glaze leaves of it, and of the other clusters.
-/

namespace Sys2Proof.Machine

@[simp] theorem clp_setClp_self (d : Dev) (c : Nat) (x : ClPwr) : (d.setClp c x).clp c = x := tget_tset_self _ _ _ _

theorem clp_setClp_ne (d : Dev) {c j : Nat} (x : ClPwr) (h : j ≠ c) : (d.setClp c x).clp j = d.clp j := tget_tset_ne _ _ _ _ _ h

@[simp] theorem reg_setClp (d : Dev) (c : Nat) (x : ClPwr) (o : Nat) : (d.setClp c x).reg o = d.reg o := rfl

@[simp] theorem rf_setClp (d : Dev) (c : Nat) (x : ClPwr) (o hi lo : Nat) : (d.setClp c x).rf o hi lo = d.rf o hi lo := rfl

@[simp] theorem rb_setClp (d : Dev) (c : Nat) (x : ClPwr) (o i : Nat) : (d.setClp c x).rb o i = d.rb o i := rfl

@[simp] theorem setClp_flt (d : Dev) (c : Nat) (x : ClPwr) : (d.setClp c x).flt = d.flt := rfl

theorem clp_of_pwr {d e : Dev} (h : e.pwr = d.pwr) (c : Nat) : e.clp c = d.clp c := by
  unfold Dev.clp
  rw [h]

/-- A device that differs from another in the power state of one cluster only. -/
def clpOnly (c : Nat) (d e : Dev) : Prop :=
  (∃ t, e = { d with pwr := { d.pwr with cl := t } }) ∧ ∀ j, j ≠ c → e.clp j = d.clp j

section
variable {c : Nat} {d e : Dev}

theorem clpOnly_refl (c : Nat) (d : Dev) : clpOnly c d d := ⟨⟨d.pwr.cl, rfl⟩, fun _ _ => rfl⟩

theorem clpOnly_setClp (d : Dev) (c : Nat) (x : ClPwr) : clpOnly c d (d.setClp c x) :=
  ⟨⟨_, rfl⟩, fun _ h => clp_setClp_ne d x h⟩

theorem clpOnly_trans {b : Dev} (h : clpOnly c d e) (k : clpOnly c e b) : clpOnly c d b := by
  obtain ⟨⟨t, rfl⟩, hd⟩ := h
  obtain ⟨⟨u, rfl⟩, he⟩ := k
  exact ⟨⟨u, rfl⟩, fun j hj => (he j hj).trans (hd j hj)⟩

variable (h : ∃ t, e = { d with pwr := { d.pwr with cl := t } })
include h

theorem clps_reg (o : Nat) : e.reg o = d.reg o := by
  obtain ⟨_, rfl⟩ := h
  rfl

theorem clps_rb (o i : Nat) : e.rb o i = d.rb o i := rb_of_reg (clps_reg h o) i

theorem clps_rf (o hi lo : Nat) : e.rf o hi lo = d.rf o hi lo := rf_of_reg (clps_reg h o) hi lo

theorem clps_flt : e.flt = d.flt := by
  obtain ⟨_, rfl⟩ := h
  rfl

theorem clps_lastStep : e.pwr.lastStep = d.pwr.lastStep := by
  obtain ⟨_, rfl⟩ := h
  rfl

end

/-- The point a cluster goes to follows from its word 0, PWR_CTL and its own caps (R523, R532, R533). -/
theorem pointBase_congr {d e : Dev} {c : Nat} (hw : e.reg (Reg.PWR_CL_W0 c) = d.reg (Reg.PWR_CL_W0 c)) (hctl : e.reg Reg.PWR_CTL = d.reg Reg.PWR_CTL)
    (hmax : (e.clp c).maxOk = (d.clp c).maxOk) : e.pointBase c = d.pointBase c := by
  unfold Dev.pointBase Dev.pointCap Dev.lpCap
  rw [rf_of_reg hw, rb_of_reg hctl, rf_of_reg hctl, hmax]

theorem pointGoal_congr {d e : Dev} {c : Nat} (hw : e.reg (Reg.PWR_CL_W0 c) = d.reg (Reg.PWR_CL_W0 c)) (hctl : e.reg Reg.PWR_CTL = d.reg Reg.PWR_CTL)
    (hmax : (e.clp c).maxOk = (d.clp c).maxOk) (hceil : (e.clp c).ceil = (d.clp c).ceil) : e.pointGoal c = d.pointGoal c := by
  unfold Dev.pointGoal
  rw [pointBase_congr hw hctl hmax, hceil]

/-- What `Dev.retarget` makes of a cluster's power state (R523). -/
def Dev.retargeted (d : Dev) (c : Nat) : ClPwr :=
  let x := d.clp c
  if x.next.isSome ∨ d.pointGoal c = x.cur ∨ d.pwrfailOn ∨ d.inBist c then x
  else if d.cluClocked c then { x with next := some (d.pointGoal c) }
  else { x with cur := d.pointGoal c }

theorem retarget_clp (d : Dev) (c : Nat) : (d.retarget c).clp c = d.retargeted c := by
  unfold Dev.retarget Dev.retargeted
  dsimp only
  split
  · rfl
  · split
    · exact clp_setClp_self _ _ _
    · exact clp_setClp_self _ _ _

theorem retarget_only (d : Dev) (c : Nat) : clpOnly c d (d.retarget c) := by
  unfold Dev.retarget
  dsimp only
  split
  · exact clpOnly_refl c d
  · split
    · exact clpOnly_setClp d c _
    · exact clpOnly_setClp d c _

/-- A change of the point leaves a cluster's caps and its gating. -/
theorem retargeted_keeps (d : Dev) (c : Nat) : let x := d.retargeted c
    x.maxOk = (d.clp c).maxOk ∧ x.ceil = (d.clp c).ceil ∧ x.gating = (d.clp c).gating ∧ x.waking = (d.clp c).waking := by
  unfold Dev.retargeted
  dsimp only
  split
  · exact ⟨rfl, rfl, rfl, rfl⟩
  · split
    · exact ⟨rfl, rfl, rfl, rfl⟩
    · exact ⟨rfl, rfl, rfl, rfl⟩

theorem capPoint_only (d : Dev) (c : Nat) : clpOnly c d (d.capPoint c) := by
  unfold Dev.capPoint
  dsimp only
  split
  · exact clpOnly_refl c d
  · exact clpOnly_setClp d c _

theorem capPoint_clp (d : Dev) (c : Nat) : (d.capPoint c).clp c = { d.clp c with maxOk := min (d.clp c).maxOk d.lpCap } := by
  unfold Dev.capPoint
  dsimp only
  split
  · next h => rw [Nat.min_eq_left h]
  · next h => rw [clp_setClp_self, Nat.min_eq_right (by omega)]

/-- One cluster to the point its caps and writes now give. -/
def Dev.recapped (d : Dev) (c : Nat) : Dev := (d.capPoint c).retarget c

theorem recapped_only (d : Dev) (c : Nat) : clpOnly c d (d.recapped c) := clpOnly_trans (capPoint_only d c) (retarget_only _ c)

theorem recapped_keeps (d : Dev) (c : Nat) : let x := (d.recapped c).clp c
    x.maxOk = min (d.clp c).maxOk d.lpCap ∧ x.ceil = (d.clp c).ceil := by
  obtain ⟨hmax, hceil, -, -⟩ := retargeted_keeps (d.capPoint c) c
  unfold Dev.recapped
  rw [retarget_clp]
  rw [capPoint_clp] at hmax hceil
  exact ⟨hmax, hceil⟩

section
variable {f : Dev → Nat → Dev} (hf : ∀ d c, clpOnly c d (f d c))
include hf

/-- A pass over clusters touches their power state only. -/
theorem clps_foldl (l : List Nat) (d : Dev) : ∃ t, l.foldl f d = { d with pwr := { d.pwr with cl := t } } := by
  refine foldl_inv' f (fun e => ∃ t, e = { d with pwr := { d.pwr with cl := t } }) l (fun b a _ h => ?_) d ⟨d.pwr.cl, rfl⟩
  obtain ⟨t, rfl⟩ := h
  obtain ⟨⟨u, hu⟩, -⟩ := hf { d with pwr := { d.pwr with cl := t } } a
  exact ⟨u, hu⟩

theorem clp_foldl_apart {l : List Nat} {c : Nat} (hc : c ∉ l) (d : Dev) : (l.foldl f d).clp c = d.clp c := by
  refine foldl_inv' f (fun e => e.clp c = d.clp c) l (fun b a ha h => ?_) d rfl
  exact ((hf b a).2 c (fun heq => hc (heq ▸ ha))).trans h

/-- A pass over the clusters meets each with its own power state, and leaves what it makes of it. -/
theorem clp_foldl_range {n c : Nat} (hc : c < n) (d : Dev) : ∃ b, (∃ t, b = { d with pwr := { d.pwr with cl := t } }) ∧
    b.clp c = d.clp c ∧ ((List.range n).foldl f d).clp c = (f b c).clp c := by
  obtain ⟨p, q, hsplit⟩ := List.append_of_mem (List.mem_range.mpr hc)
  have hnodup : (p ++ c :: q).Nodup := hsplit ▸ List.nodup_range
  obtain ⟨-, hq, hpq⟩ := List.nodup_append.mp hnodup
  have hp : c ∉ p := fun h => hpq c h c (List.mem_cons_self ..) rfl
  refine ⟨p.foldl f d, clps_foldl hf p d, clp_foldl_apart hf hp d, ?_⟩
  rw [hsplit, List.foldl_append, List.foldl_cons]
  exact clp_foldl_apart hf (List.nodup_cons.mp hq).1 _

end

theorem lpCap_congr {d e : Dev} (h : e.reg Reg.PWR_CTL = d.reg Reg.PWR_CTL) : e.lpCap = d.lpCap := by
  unfold Dev.lpCap
  rw [rb_of_reg h, rf_of_reg h]

/-- What bringing every cluster to its point leaves. -/
theorem retargetAll_leaves (d : Dev) : let e := d.retargetAll
    (∃ t, e = { d with pwr := { d.pwr with cl := t } }) ∧ ∀ c, c < 24 → (e.clp c).maxOk = min (d.clp c).maxOk d.lpCap ∧ (e.clp c).ceil = (d.clp c).ceil := by
  have hpass : d.retargetAll = (List.range 24).foldl Dev.recapped d := rfl
  dsimp only
  rw [hpass]
  refine ⟨clps_foldl recapped_only _ d, fun c hc => ?_⟩
  obtain ⟨b, hb, hclp, hend⟩ := clp_foldl_range recapped_only hc d
  obtain ⟨hmax, hceil⟩ := recapped_keeps b c
  rw [hend, hmax, hceil, hclp, lpCap_congr (clps_reg hb _)]
  exact ⟨rfl, rfl⟩

/-- The cluster's own words of the power unit are none of the unit's own registers. -/
theorem clWord_ne {c o : Nat} (ho : o < 0x300100 ∨ 0x300400 ≤ o) (hc : c < 24) : o ≠ Reg.PWR_CL_W0 c ∧ o ≠ Reg.PWR_CL_W3 c := by
  unfold Reg.PWR_CL_W0 Reg.PWR_CL_W3
  omega

theorem clW0_ne_clW3 (c j : Nat) : Reg.PWR_CL_W0 c ≠ Reg.PWR_CL_W3 j := by
  unfold Reg.PWR_CL_W0 Reg.PWR_CL_W3
  omega

/-- A fault that Glaze records (R539). -/
theorem glaze_leaves (d : Dev) (src n : Nat) : let e := d.glaze src n
    e.flt.inbox = d.flt.inbox ++ [⟨src, wd n, false⟩] ∧ e.rb Reg.ATL_INT_PEND 6 = true ∧ e.pwr = d.pwr ∧
      ∀ o, o ≠ Reg.ATL_INT_PEND → e.reg o = d.reg o := by
  unfold Dev.glaze Dev.atlLine
  refine ⟨?_, Dev.rb_setRb_self _ _ _ _ (by omega), Dev.setRb_pwr _ _ _ _, fun o ho => ?_⟩
  · rw [Dev.setRb_flt]
    exact raise_inbox d src n
  · rw [Dev.reg_setRb_ne _ _ _ _ _ ho, raise_reg]

end Sys2Proof.Machine
end

section
/-!
SUPPORT. Points, gating, the core rail and throttling (R519 to R532, R539): what each command of Glaze leaves.
-/

namespace Sys2Proof.Machine

/-- The device with a write of PWR_CL[c] word 0 in it (R519, R523, R530), before gating and the new point. -/
def Dev.clTaken (d : Dev) (c : Nat) (v : Word) : Dev :=
  let w := Reg.PWR_CL_W0 c
  let x := d.clp c
  (((d.setRf w 3 0 (fld v 3 0)).setRf w 7 4 (min 9 (fld v 7 4))).setRb w 31 (bit v 31)).setClp c
    { x with maxOk := min (min 9 (fld v 7 4)) x.maxOk, stopped := x.stopped && !(!d.rb w 31 && bit v 31) }

/-- Gating or waking as the written gate asks (R524). -/
def Dev.clGated (d : Dev) (c : Nat) (gate : Bool) : Dev :=
  let w := Reg.PWR_CL_W0 c
  if gate && !d.rb w 30 then d.startGating c else if !gate && d.rb w 30 then d.startWaking c else d

section
variable {d : Dev} {c : Nat} {v : Word}

theorem pwrClWrite_refused (r : Req) (h : min 9 (fld v 7 4) < fld v 3 0 ∨ (d.clp c).next.isSome = true ∨
    (fld v 3 0 ≠ d.rf (Reg.PWR_CL_W0 c) 3 0 ∧ (min (d.clp c).maxOk d.lpCap < fld v 3 0 ∨ d.pwrfailOn = true))) :
    pwrClWrite r c v d = d.refuse r (Reg.PWR_CL_W0 c) := by
  refine if_pos ?_
  simp only [Bool.or_eq_true, Bool.and_eq_true, decide_eq_true_eq]
  exact .inl (or_assoc.mpr h)

theorem pwrClWrite_taken (r : Req) (hmax : fld v 3 0 ≤ min 9 (fld v 7 4)) (hnext : (d.clp c).next = none)
    (hcap : fld v 3 0 = d.rf (Reg.PWR_CL_W0 c) 3 0 ∨ (fld v 3 0 ≤ min (d.clp c).maxOk d.lpCap ∧ d.pwrfailOn = false))
    (hgate : bit v 30 = true → d.rb (Reg.PWR_CL_W0 c) 30 = false → d.pwrfailOn = false) :
    pwrClWrite r c v d = ((d.clTaken c v).clGated c (bit v 30)).retarget c := by
  refine if_neg ?_
  simp only [Bool.or_eq_true, Bool.and_eq_true, Bool.not_eq_true', decide_eq_true_eq, hnext, Option.isSome_none, not_or, not_and]
  refine ⟨⟨⟨by omega, nofun⟩, fun hmoves => ?_⟩, fun ⟨hg, hoff⟩ => ?_⟩
  · obtain h | ⟨hle, hpwr⟩ := hcap
    · exact absurd h hmoves
    · exact ⟨by omega, by rw [hpwr]; decide⟩
  · rw [hgate hg hoff]
    decide

/-- A write of the gate as it stands neither gates nor wakes. -/
theorem clGated_same (d : Dev) (c : Nat) : d.clGated c (d.rb (Reg.PWR_CL_W0 c) 30) = d := by
  unfold Dev.clGated
  dsimp only
  cases d.rb (Reg.PWR_CL_W0 c) 30
  · rfl
  · rfl

theorem clTaken_flt : (d.clTaken c v).flt = d.flt := by
  unfold Dev.clTaken
  dsimp only
  rw [setClp_flt, Dev.setRb_flt, Dev.setRf_flt, Dev.setRf_flt]

theorem clTaken_reg_ne {o : Nat} (ho : o ≠ Reg.PWR_CL_W0 c) : (d.clTaken c v).reg o = d.reg o := by
  unfold Dev.clTaken
  dsimp only
  rw [reg_setClp, Dev.reg_setRb_ne _ _ _ _ _ ho, Dev.reg_setRf_ne _ _ _ _ _ _ ho, Dev.reg_setRf_ne _ _ _ _ _ _ ho]

theorem clTaken_point : (d.clTaken c v).rf (Reg.PWR_CL_W0 c) 3 0 = fld v 3 0 := by
  unfold Dev.clTaken
  dsimp only
  rw [rf_setClp, Dev.setRb, Dev.rf_setRf_apart _ _ _ _ _ _ _ (by omega) (by omega) (by omega),
    Dev.rf_setRf_apart _ _ _ _ _ _ _ (by omega) (by omega) (by omega), Dev.rf_setRf_self _ _ _ _ _ (by omega) (by omega)]
  exact Nat.mod_eq_of_lt (fld_lt v 3 0)

theorem clTaken_gate : (d.clTaken c v).rb (Reg.PWR_CL_W0 c) 30 = d.rb (Reg.PWR_CL_W0 c) 30 := by
  unfold Dev.clTaken
  dsimp only
  rw [rb_setClp, Dev.rb_setRb_apart _ _ _ _ _ (by omega) (by omega), Dev.rb_setRf_apart _ _ _ _ _ _ (by omega) (by omega) (by omega),
    Dev.rb_setRf_apart _ _ _ _ _ _ (by omega) (by omega) (by omega)]

theorem clTaken_spec : (d.clTaken c v).rb (Reg.PWR_CL_W0 c) 31 = bit v 31 := by
  unfold Dev.clTaken
  dsimp only
  rw [rb_setClp, Dev.rb_setRb_self _ _ _ _ (by omega)]

theorem clTaken_clp : (d.clTaken c v).clp c = { d.clp c with
    maxOk := min (min 9 (fld v 7 4)) (d.clp c).maxOk
    stopped := (d.clp c).stopped && !(!d.rb (Reg.PWR_CL_W0 c) 31 && bit v 31) } := clp_setClp_self _ _ _

theorem clTaken_clp_ne {j : Nat} (hj : j ≠ c) : (d.clTaken c v).clp j = d.clp j :=
  (clp_setClp_ne _ _ hj).trans (clp_of_pwr ((Dev.setRb_pwr _ _ _ _).trans ((Dev.setRf_pwr _ _ _ _ _).trans (Dev.setRf_pwr _ _ _ _ _))) j)

end

section
variable {d : Dev} {c : Nat} (hc : c < 24)
include hc

/-- What an accepted write of the point leaves (R523). -/
theorem clusterPointChange_leaves (r : Req) {p : Nat} (hp : p ≤ min 9 (d.rf (Reg.PWR_CL_W0 c) 7 4))
    (hcap : p ≤ min (d.clp c).maxOk d.lpCap) (hnext : (d.clp c).next = none) (hpower : d.pwrfailOn = false) (hbist : d.inBist c = false) :
    let e := clusterPointChange r c p d
    let x := d.clp c
    let y := { x with maxOk := min (min 9 (d.rf (Reg.PWR_CL_W0 c) 7 4)) x.maxOk }
    let to_ := min p x.ceil
    e.clp c = (if to_ = x.cur then y else if d.cluClocked c then { y with next := some to_ } else { y with cur := to_ }) ∧
      (∀ j, j ≠ c → e.clp j = d.clp j) ∧ e.rf (Reg.PWR_CL_W0 c) 3 0 = p ∧
      e.rb (Reg.PWR_CL_W0 c) 30 = d.rb (Reg.PWR_CL_W0 c) 30 ∧ e.rb (Reg.PWR_CL_W0 c) 31 = d.rb (Reg.PWR_CL_W0 c) 31 := by
  have hpoint : fld (setFld (d.reg (Reg.PWR_CL_W0 c)) 3 0 p) 3 0 = p := by
    rw [fld_setFld _ _ _ _ (by omega) (by omega)]
    exact Nat.mod_eq_of_lt (by omega)
  have hmax : fld (setFld (d.reg (Reg.PWR_CL_W0 c)) 3 0 p) 7 4 = d.rf (Reg.PWR_CL_W0 c) 7 4 :=
    fld_setFld_apart _ _ _ _ _ _ (by omega) (by omega) (by omega)
  have hbit : ∀ i, 3 < i → bit (setFld (d.reg (Reg.PWR_CL_W0 c)) 3 0 p) i = d.rb (Reg.PWR_CL_W0 c) i :=
    fun i hi => bit_setFld_apart _ (by omega) (by omega) (by omega)
  have hwrite : clusterPointChange r c p d = (d.clTaken c (setFld (d.reg (Reg.PWR_CL_W0 c)) 3 0 p)).retarget c := by
    unfold clusterPointChange
    rw [pwrClWrite_taken r (by rw [hpoint, hmax]; exact hp) hnext (.inr ⟨by rw [hpoint]; exact hcap, hpower⟩) (fun _ _ => hpower),
      hbit 30 (by omega)]
    exact congrArg (fun e => Dev.retarget e c) ((congrArg _ clTaken_gate.symm).trans (clGated_same _ c))
  generalize setFld (d.reg (Reg.PWR_CL_W0 c)) 3 0 p = v at hpoint hmax hbit hwrite
  obtain ⟨hcl, hothers⟩ := retarget_only (d.clTaken c v) c
  have hreg : ∀ o, o < 0x300100 → (d.clTaken c v).reg o = d.reg o := fun o ho => clTaken_reg_ne (clWord_ne (.inl ho) hc).1
  have hgoal : (d.clTaken c v).pointGoal c = min p (d.clp c).ceil := by
    unfold Dev.pointGoal Dev.pointBase Dev.pointCap
    rw [clTaken_point, clTaken_clp, hpoint, hmax, lpCap_congr (hreg _ (by decide))]
    dsimp only
    omega
  have hstop : ((d.clp c).stopped && !(!d.rb (Reg.PWR_CL_W0 c) 31 && bit v 31)) = (d.clp c).stopped := by
    rw [hbit 31 (by omega)]
    cases d.rb (Reg.PWR_CL_W0 c) 31
    · exact Bool.and_true _
    · exact Bool.and_true _
  dsimp only
  rw [hwrite]
  refine ⟨?_, fun j hj => (hothers j hj).trans (clTaken_clp_ne hj), (clps_rf hcl _ _ _).trans (clTaken_point.trans hpoint),
    (clps_rb hcl _ _).trans clTaken_gate, (clps_rb hcl _ _).trans (clTaken_spec.trans (hbit 31 (by omega)))⟩
  have hpwr : (d.clTaken c v).pwrfailOn = false := (rb_of_reg (hreg _ (by decide)) 31).trans hpower
  have hfree : (d.clTaken c v).inBist c = false := by
    unfold Dev.inBist
    rw [clTaken_flt]
    exact hbist
  have hclock : (d.clTaken c v).cluClocked c = d.cluClocked c := rb_of_reg (hreg _ (by decide)) c
  rw [retarget_clp]
  unfold Dev.retargeted
  rw [hgoal, clTaken_clp, hpwr, hfree, hclock, hstop, hmax]
  simp only [hnext, Option.isSome_none, Bool.false_eq_true, or_false, false_or]

/-- What an accepted write of the gate leaves (R524), from what gating or waking makes of the device. -/
theorem pwrClWrite_gate (r : Req) (gate : Bool) (hpoint : d.rf (Reg.PWR_CL_W0 c) 3 0 ≤ min 9 (d.rf (Reg.PWR_CL_W0 c) 7 4))
    (hnext : (d.clp c).next = none) (hgate : d.rb (Reg.PWR_CL_W0 c) 30 = !gate) (hpower : gate = true → d.pwrfailOn = false) :
    ∃ b : Dev, b.flt = d.flt ∧ b.cluClocked c = d.cluClocked c ∧
      pwrClWrite r c (setBit (d.reg (Reg.PWR_CL_W0 c)) 30 gate) d = (if gate then b.startGating c else b.startWaking c).retarget c := by
  have hbit : bit (setBit (d.reg (Reg.PWR_CL_W0 c)) 30 gate) 30 = gate := bit_setBit _ _ (by omega)
  have hfld : ∀ hi lo, hi < 30 → fld (setBit (d.reg (Reg.PWR_CL_W0 c)) 30 gate) hi lo = d.rf (Reg.PWR_CL_W0 c) hi lo :=
    fun hi lo h => fld_setFld_apart _ _ _ _ _ _ (by omega) (by omega) (by omega)
  refine ⟨d.clTaken c (setBit (d.reg (Reg.PWR_CL_W0 c)) 30 gate), clTaken_flt,
    rb_of_reg (clTaken_reg_ne (clWord_ne (o := Reg.GLB_CLK_STATUS) (.inl (by decide)) hc).1) c, ?_⟩
  rw [pwrClWrite_taken r (by rw [hfld _ _ (by omega), hfld _ _ (by omega)]; exact hpoint) hnext (.inl (hfld _ _ (by omega)))
    (fun h _ => hpower (hbit.symm.trans h)), hbit]
  unfold Dev.clGated
  dsimp only
  rw [clTaken_gate, hgate]
  generalize d.clTaken c _ = b
  cases gate
  · rw [if_neg (by decide), if_pos (by decide), if_neg (by decide)]
  · rw [if_pos (by decide), if_pos rfl]

/-- What writing gate 1 leaves (R524). -/
theorem clusterGate_leaves (r : Req) (hpoint : d.rf (Reg.PWR_CL_W0 c) 3 0 ≤ min 9 (d.rf (Reg.PWR_CL_W0 c) 7 4))
    (hnext : (d.clp c).next = none) (hgate : d.rb (Reg.PWR_CL_W0 c) 30 = false) (hpower : d.pwrfailOn = false) (hclock : d.cluClocked c = true) :
    let e := clusterGate r c d
    e.rb (Reg.PWR_CL_W0 c) 30 = true ∧ (e.clp c).gating = true ∧ e.flt = d.flt := by
  obtain ⟨b, hflt, hclk, hwrite⟩ := pwrClWrite_gate hc r true hpoint hnext hgate (fun _ => hpower)
  have hstart : b.startGating c = (b.setRb (Reg.PWR_CL_W0 c) 30 true).setClp c { b.clp c with gating := true } := by
    have hon : (b.setRb (Reg.PWR_CL_W0 c) 30 true).cluClocked c = true :=
      (rb_of_reg (Dev.reg_setRb_ne _ _ _ _ _ (clWord_ne (o := Reg.GLB_CLK_STATUS) (.inl (by decide)) hc).1) c).trans (hclk.trans hclock)
    unfold Dev.startGating
    dsimp only
    rw [if_pos hon, clp_of_pwr (Dev.setRb_pwr _ _ _ _)]
  obtain ⟨hcl, -⟩ := retarget_only (b.startGating c) c
  obtain ⟨-, -, hgating, -⟩ := retargeted_keeps (b.startGating c) c
  unfold clusterGate
  dsimp only
  rw [hwrite, if_pos rfl]
  refine ⟨(clps_rb hcl _ _).trans ?_, ?_, (clps_flt hcl).trans ?_⟩
  · rw [hstart, rb_setClp]
    exact Dev.rb_setRb_self _ _ _ _ (by omega)
  · rw [retarget_clp, hgating, hstart, clp_setClp_self]
  · rw [hstart, setClp_flt, Dev.setRb_flt, hflt]

/-- What writing gate 0 leaves (R524). -/
theorem clusterWake_leaves (r : Req) (hpoint : d.rf (Reg.PWR_CL_W0 c) 3 0 ≤ min 9 (d.rf (Reg.PWR_CL_W0 c) 7 4))
    (hnext : (d.clp c).next = none) (hgate : d.rb (Reg.PWR_CL_W0 c) 30 = true) : let e := clusterWake r c d
    e.rb (Reg.PWR_CL_W0 c) 30 = false ∧ (d.cluClocked c = true → (e.clp c).gating = false) ∧
      (d.cluClocked c = false → (e.clp c).waking = true) ∧ e.flt = d.flt := by
  obtain ⟨b, hflt, hclk, hwrite⟩ := pwrClWrite_gate hc r false hpoint hnext hgate nofun
  have hstart : b.startWaking c = (b.setRb (Reg.PWR_CL_W0 c) 30 false).setClp c
      (if d.cluClocked c then { b.clp c with gating := false } else { b.clp c with waking := true }) := by
    have hclock : (b.setRb (Reg.PWR_CL_W0 c) 30 false).cluClocked c = d.cluClocked c :=
      (rb_of_reg (Dev.reg_setRb_ne _ _ _ _ _ (clWord_ne (o := Reg.GLB_CLK_STATUS) (.inl (by decide)) hc).1) c).trans hclk
    unfold Dev.startWaking
    dsimp only
    rw [hclock, clp_of_pwr (Dev.setRb_pwr _ _ _ _)]
    split
    · rfl
    · rfl
  obtain ⟨hcl, -⟩ := retarget_only (b.startWaking c) c
  obtain ⟨-, -, hgating, hwaking⟩ := retargeted_keeps (b.startWaking c) c
  unfold clusterWake
  dsimp only
  rw [hwrite, if_neg (by decide)]
  refine ⟨(clps_rb hcl _ _).trans ?_, fun hon => ?_, fun hoff => ?_, (clps_flt hcl).trans ?_⟩
  · rw [hstart, rb_setClp]
    exact Dev.rb_setRb_self _ _ _ _ (by omega)
  · rw [retarget_clp, hgating, hstart, clp_setClp_self, if_pos hon]
  · rw [retarget_clp, hwaking, hstart, clp_setClp_self, if_neg (by rw [hoff]; decide)]
  · rw [hstart, setClp_flt, Dev.setRb_flt, hflt]

end

end Sys2Proof.Machine
end

section
/-!
SUPPORT. The power unit's events (R519 to R532, R539): what each leaves.
-/

namespace Sys2Proof.Machine

/-- What the end of a change of a cluster's point leaves (R523). -/
theorem atPoint_leaves {d : Dev} {c : Nat} (p : Nat) (hc : c < 24) : let e := d.atPoint c p
    let x := d.clp c
    e.clp c = { x with cur := p, next := none, offset := 0, winAt := x.commits } ∧ (∀ j, j ≠ c → e.clp j = d.clp j) ∧
      e.reg (Reg.PWR_CL_W3 c) = 0 ∧ (∀ o, o ≠ Reg.PWR_CL_W3 c → e.reg o = d.reg o) ∧ e.flt = d.flt ∧ e.pointGoal c = d.pointGoal c := by
  unfold Dev.atPoint
  dsimp only
  have hpwr := Dev.setReg_pwr (d.setClp c { d.clp c with cur := p, next := none, offset := 0, winAt := (d.clp c).commits }) (Reg.PWR_CL_W3 c) 0
  have hreg : ∀ o, o ≠ Reg.PWR_CL_W3 c →
      ((d.setClp c { d.clp c with cur := p, next := none, offset := 0, winAt := (d.clp c).commits }).setReg (Reg.PWR_CL_W3 c) 0).reg o = d.reg o :=
    fun o ho => Dev.reg_setReg_ne _ _ _ _ ho
  have hself := (clp_of_pwr hpwr c).trans (clp_setClp_self d c _)
  refine ⟨hself, fun j hj => (clp_of_pwr hpwr j).trans (clp_setClp_ne d _ hj),
    Dev.reg_setReg_self _ _ _, hreg, Dev.setReg_flt _ _ _,
    pointGoal_congr (hreg _ (clW0_ne_clW3 c c)) (hreg _ (clWord_ne (.inl (by decide)) hc).2) ?_ ?_⟩
  · rw [hself]
  · rw [hself]

/-- What the LDO's settling leaves (R523). -/
theorem pointChangeDone_leaves {d : Dev} {c p : Nat} (hc : c < 24) (hnext : (d.clp c).next = some p) (hclock : d.cluClocked c = true) :
    let e := pointChangeDone c d
    let x := d.clp c
    e.clp c = { x with winAt := x.commits, cur := p, next := if d.pointGoal c = p ∨ d.pwrfailOn = true ∨ d.inBist c = true then none else some (d.pointGoal c), offset := 0 } ∧
      (∀ j, j ≠ c → e.clp j = d.clp j) ∧ e.reg (Reg.PWR_CL_W3 c) = 0 := by
  obtain ⟨hself, hothers, hcount, hreg, hflt, hgoal⟩ := atPoint_leaves (d := d) p hc
  have hdone : pointChangeDone c d = (d.atPoint c p).retarget c := by
    unfold pointChangeDone
    rw [hnext]
  dsimp only at hself hothers hcount hreg hflt hgoal ⊢
  rw [hdone]
  generalize d.atPoint c p = b at hself hothers hcount hreg hflt hgoal ⊢
  obtain ⟨hcl, hkeep⟩ := retarget_only b c
  refine ⟨?_, fun j hj => (hkeep j hj).trans (hothers j hj), (clps_reg hcl _).trans hcount⟩
  have hpower : b.pwrfailOn = d.pwrfailOn := rb_of_reg (hreg _ (clWord_ne (.inl (by decide)) hc).2) 31
  have hclk : b.cluClocked c = true := (rb_of_reg (hreg _ (clWord_ne (.inl (by decide)) hc).2) c).trans hclock
  have hbist : b.inBist c = d.inBist c := by
    unfold Dev.inBist
    rw [hflt]
  rw [retarget_clp]
  unfold Dev.retargeted
  rw [hgoal, hself, hpower, hclk, hbist]
  simp only [Option.isSome_none, Bool.false_eq_true, false_or, if_true]
  split
  · rfl
  · rfl

/-- The raised max_points of every cluster in effect (R519). -/
def Dev.maxRaised (d : Dev) (c : Nat) : Dev := d.setClp c { d.clp c with maxOk := min 9 (d.rf (Reg.PWR_CL_W0 c) 7 4) }

/-- What VDD_CORE's reaching its target leaves (R519, R520, R538). -/
theorem vcoreSlewDone_leaves {d : Dev} {c : Nat} (hc : c < 24) (hgoal : d.vcoreGoal < 1024) : let e := vcoreSlewDone d
    e.rf Reg.PWR_RAIL_STATUS 9 0 = d.vcoreGoal ∧ (e.clp c).maxOk = min (min 9 (d.rf (Reg.PWR_CL_W0 c) 7 4)) d.lpCap ∧
      (d.rf Reg.PWR_RAIL_STATUS 27 16 ≠ 0 → e.rb Reg.PWR_RAIL_STATUS 31 = true) := by
  have hset : (d.setRf Reg.PWR_RAIL_STATUS 9 0 d.vcoreGoal).rf Reg.PWR_RAIL_STATUS 9 0 = d.vcoreGoal :=
    (Dev.rf_setRf_self _ _ _ _ _ (by omega) (by omega)).trans (Nat.mod_eq_of_lt hgoal)
  have hphases : (d.setRf Reg.PWR_RAIL_STATUS 9 0 d.vcoreGoal).rf Reg.PWR_RAIL_STATUS 27 16 = d.rf Reg.PWR_RAIL_STATUS 27 16 :=
    Dev.rf_setRf_apart _ _ _ _ _ _ _ (by omega) (by omega) (by omega)
  have hreg : ∀ o, o ≠ Reg.PWR_RAIL_STATUS → (d.setRf Reg.PWR_RAIL_STATUS 9 0 d.vcoreGoal).reg o = d.reg o :=
    fun o ho => Dev.reg_setRf_ne _ _ _ _ _ _ ho
  unfold vcoreSlewDone
  dsimp only
  generalize d.setRf Reg.PWR_RAIL_STATUS 9 0 d.vcoreGoal = a at hset hphases hreg ⊢
  have hrail : ∃ b, (if a.rf Reg.PWR_RAIL_STATUS 27 16 = 0 then a else a.setRb Reg.PWR_RAIL_STATUS 31 true) = b ∧
      b.rf Reg.PWR_RAIL_STATUS 9 0 = d.vcoreGoal ∧ (∀ o, o ≠ Reg.PWR_RAIL_STATUS → b.reg o = d.reg o) ∧
      (d.rf Reg.PWR_RAIL_STATUS 27 16 ≠ 0 → b.rb Reg.PWR_RAIL_STATUS 31 = true) := by
    split
    · next h => exact ⟨a, rfl, hset, hreg, fun hon => absurd (hphases.symm.trans h) hon⟩
    · exact ⟨_, rfl, (Dev.rf_setRf_apart _ _ _ _ _ _ _ (by omega) (by omega) (by omega)).trans hset,
        fun o ho => (Dev.reg_setRb_ne _ _ _ _ _ ho).trans (hreg o ho), fun _ => Dev.rb_setRb_self _ _ _ _ (by omega)⟩
  obtain ⟨b, hb, hvolts, hregs, hup⟩ := hrail
  rw [hb]
  have hraise : ∀ e j, clpOnly j e (e.maxRaised j) := fun e j => clpOnly_setClp e j _
  obtain ⟨k, hk, hclp, hend⟩ := clp_foldl_range hraise hc b
  have hall := clps_foldl hraise (List.range 24) b
  obtain ⟨hlast, heach⟩ := retargetAll_leaves ((List.range 24).foldl Dev.maxRaised b)
  obtain ⟨hmax, -⟩ := heach c hc
  refine ⟨(clps_rf hlast _ _ _).trans ((clps_rf hall _ _ _).trans hvolts), hmax.trans ?_,
    fun hon => (clps_rb hlast _ _).trans ((clps_rb hall _ _).trans (hup hon))⟩
  rw [hend, lpCap_congr ((clps_reg hall _).trans (hregs _ (by decide)))]
  unfold Dev.maxRaised
  rw [clp_setClp_self, clps_rf hk, rf_of_reg (hregs _ (by unfold Reg.PWR_CL_W0 Reg.PWR_RAIL_STATUS; omega))]

theorem dropL1_reg (d : Dev) (c o : Nat) : (d.dropL1 c).reg o = d.reg o := rfl

theorem dropL1_pwr (d : Dev) (c : Nat) : (d.dropL1 c).pwr = d.pwr := rfl

theorem dropL1_flt (d : Dev) (c : Nat) : (d.dropL1 c).flt = d.flt := rfl

/-- What gating a cluster leaves (R524). -/
theorem gateNow_leaves {d : Dev} {c : Nat} (hc : c < 24) : let e := d.gateNow c
    e.clp c = { d.clp c with gating := false, waking := false, next := none } ∧ (∀ j, j ≠ c → e.clp j = d.clp j) ∧
      e.rb Reg.GLB_CLK_STATUS c = false ∧ e.rb (Reg.PWR_CL_W0 c) 30 = true := by
  unfold Dev.gateNow
  dsimp only
  have hpwr : (((d.setRb (Reg.PWR_CL_W0 c) 30 true).setRb Reg.GLB_CLK_STATUS c false).dropL1 c).pwr = d.pwr := by
    rw [dropL1_pwr, Dev.setRb_pwr, Dev.setRb_pwr]
  refine ⟨clp_setClp_self _ _ _, fun j hj => (clp_setClp_ne _ _ hj).trans (clp_of_pwr hpwr j), ?_, ?_⟩
  · rw [rb_setClp, rb_of_reg (dropL1_reg _ _ _)]
    exact Dev.rb_setRb_self _ _ _ _ (by omega)
  · rw [rb_setClp, rb_of_reg (dropL1_reg _ _ _), rb_of_reg (Dev.reg_setRb_ne _ _ _ _ _ (clWord_ne (o := Reg.GLB_CLK_STATUS) (.inl (by decide)) hc).1.symm)]
    exact Dev.rb_setRb_self _ _ _ _ (by omega)

/-- What the end of a cluster's waking leaves (R524, R550). -/
theorem wakeDone_leaves {d : Dev} {c : Nat} (now : Nat) (hc : c < 24) (hwaking : (d.clp c).waking = true) : let e := wakeDone now c d
    let x := d.clp c
    e.clp c = { x with winAt := x.commits, waking := false, cur := d.pointGoal c, next := none, offset := 0 } ∧
      (∀ j, j ≠ c → e.clp j = d.clp j) ∧ e.rb Reg.GLB_CLK_STATUS c = true ∧
      ∀ y ∈ d.flt.drains, y.spare = some c → y.since = none → { y with since := some now } ∈ e.flt.drains := by
  have hown : ((d.setClp c { d.clp c with waking := false }).dropL1 c).clp c = { d.clp c with waking := false } := clp_setClp_self d c _
  have hrest : ∀ j, j ≠ c → ((d.setClp c { d.clp c with waking := false }).dropL1 c).clp j = d.clp j := fun j hj => clp_setClp_ne d _ hj
  have hgoal : ((d.setClp c { d.clp c with waking := false }).dropL1 c).pointGoal c = d.pointGoal c :=
    pointGoal_congr rfl rfl (by rw [hown]) (by rw [hown])
  have hfault : ((d.setClp c { d.clp c with waking := false }).dropL1 c).flt = d.flt := dropL1_flt _ c
  unfold wakeDone
  dsimp only
  rw [if_pos hwaking, hgoal]
  generalize (d.setClp c { d.clp c with waking := false }).dropL1 c = a at hown hrest hfault ⊢
  obtain ⟨hself, hothers, -, -, hflt, -⟩ := atPoint_leaves (d := a) (d.pointGoal c) hc
  generalize a.atPoint c (d.pointGoal c) = b at hself hothers hflt ⊢
  refine ⟨(clp_of_pwr (Dev.setRb_pwr b Reg.GLB_CLK_STATUS c true) c).trans (hself.trans (by rw [hown])),
    fun j hj => (clp_of_pwr (Dev.setRb_pwr b Reg.GLB_CLK_STATUS c true) j).trans ((hothers j hj).trans (hrest j hj)), Dev.rb_setRb_self b _ _ _ (by omega),
    fun y hy hspare hsince => ?_⟩
  dsimp only
  rw [Dev.setRb_flt, hflt, hfault]
  refine List.mem_map.mpr ⟨y, hy, if_pos ⟨hspare, hsince⟩⟩

theorem tget_of_not_mem {α : Type} {z : α} {m : Tab α} {k : Nat} (h : k ∉ m.map (·.1)) : tget z m k = z := by
  induction m with
  | nil => rfl
  | cons e r ih =>
    rw [List.map_cons, List.mem_cons, not_or] at h
    exact (if_neg h.1).trans (ih h.2)

/-- A pass that writes every listed value of a table changed into another table. -/
theorem tget_foldl_tset {α : Type} [DecidableEq α] {z : α} (g : Nat → α → α) (k : Nat) {m : Tab α} (h : (m.map (·.1)).Nodup) (acc : Tab α) :
    tget z (m.foldl (fun acc e => tset z acc e.1 (g e.1 e.2)) acc) k = if k ∈ m.map (·.1) then g k (tget z m k) else tget z acc k := by
  induction m generalizing acc with
  | nil => exact (if_neg List.not_mem_nil).symm
  | cons e r ih =>
    obtain ⟨j, v⟩ := e
    obtain ⟨hj, hr⟩ := List.nodup_cons.mp h
    rw [List.foldl_cons, ih hr]
    obtain rfl | hne := eq_or_ne k j
    · have hget : tget z ((k, v) :: r) k = v := if_pos rfl
      rw [if_neg hj, if_pos (by rw [List.map_cons]; exact List.mem_cons_self ..), hget, tget_tset_self]
    · have hget : tget z ((j, v) :: r) k = tget z r k := if_neg hne
      simp only [List.map_cons, List.mem_cons, hne, false_or, hget, tget_tset_ne _ _ _ _ _ hne]

/-- A map over a table that keeps the default maps the value of every key. -/
theorem tget_tmap {α : Type} [DecidableEq α] {z : α} {g : Nat → α → α} {m : Tab α} {k : Nat} (hz : g k z = z)
    (h : Tab.wf (fun _ => z) m = true) : tget z (tmap z g m) k = g k (tget z m k) := by
  have hnodup : (m.map (·.1)).Nodup := List.pairwise_map.mpr (((Tab.wf_iff _ m).mp h).1.imp fun hlt => Nat.ne_of_lt hlt)
  unfold tmap
  rw [tget_foldl_tset g k hnodup]
  split
  · rfl
  · next hk => rw [tget_of_not_mem hk, hz, tget_nil]

/-- What the confirmation makes of a transaction (R529). -/
def Dev.confirmed (d : Dev) (c k : Nat) (x : Txn) : Txn :=
  if k / 256 = c ∧ x.irrev = .waits ∧ x.phase ≠ .free ∧ d.nominalAsked c = true then { x with nonspec := true } else x

/-- What the confirmed non-speculative voltage leaves (R529, R173). -/
theorem nonSpeculativeConfirm_leaves {d : Dev} (c : Nat) (hwf : Tab.wf (fun _ => Txn.reset) d.vrn.txns = true) : let e := nonSpeculativeConfirm c d
    e.flt = d.flt ∧ ∀ k, e.txn k = if k / 256 = c ∧ (d.txn k).irrev = .waits ∧ (d.txn k).phase ≠ .free ∧ d.nominalAsked c = true
      then { d.txn k with nonspec := true } else d.txn k := by
  have hfree : ∀ k, d.confirmed c k Txn.reset = Txn.reset := fun k => if_neg fun h => h.2.2.1 rfl
  refine ⟨rfl, fun k => (noteEligible_txn _ k).trans ?_⟩
  exact tget_tmap (g := d.confirmed c) (hfree k) hwf

/-- What a new window of the loop leaves (R530). -/
theorem newWindow_leaves (d : Dev) (c : Nat) (x : ClPwr) : let e := (d.setClp c x).newWindow c
    e.clp c = { x with winAt := x.commits } ∧ (∀ j, j ≠ c → e.clp j = d.clp j) ∧ e.flt = d.flt := by
  unfold Dev.newWindow
  dsimp only
  rw [clp_setClp_self, Dev.setReg_flt]
  refine ⟨(clp_of_pwr (Dev.setReg_pwr _ _ _) c).trans (clp_setClp_self _ _ _), fun j hj => ?_, rfl⟩
  exact (clp_of_pwr (Dev.setReg_pwr _ _ _) j).trans ((clp_setClp_ne _ _ hj).trans (clp_setClp_ne _ _ hj))

theorem newWindow_alone (d : Dev) (c : Nat) : let e := d.newWindow c
    e.clp c = { d.clp c with winAt := (d.clp c).commits } ∧ (∀ j, j ≠ c → e.clp j = d.clp j) ∧ e.flt = d.flt := by
  unfold Dev.newWindow
  exact ⟨(clp_of_pwr (Dev.setReg_pwr _ _ _) c).trans (clp_setClp_self _ _ _),
    fun j hj => (clp_of_pwr (Dev.setReg_pwr _ _ _) j).trans (clp_setClp_ne _ _ hj), Dev.setReg_flt _ _ _⟩

section
variable {d : Dev} {c : Nat} (hspec : d.speculates c = true) (hend : (d.clp c).winAt + 2 ^ d.rf Reg.PWR_LOOP 28 24 ≤ (d.clp c).commits)
include hspec hend

/-- The end of a window by its errors against the target (R530). -/
theorem errorWindowEnd_eq : errorWindowEnd c d =
    let x := d.clp c
    let e := (d.reg (Reg.PWR_CL_W3 c)).toNat
    let tgt := d.rf Reg.PWR_LOOP 23 16
    if 2 * e < tgt then
      (d.setClp c { x with offset := min ((x.offset + d.rf Reg.PWR_LOOP 7 0) / 5 * 5) (vNom x.cur - vFloor x.cur) }).newWindow c
    else if e ≤ 2 * tgt then d.newWindow c
    else if x.offset = 0 then ((d.setClp c { x with stopped := true }).newWindow c).glaze Src.gzSpecLimit c
    else (d.setClp c { x with offset := (x.offset - d.rf Reg.PWR_LOOP 15 8) / 5 * 5 }).newWindow c := by
  unfold errorWindowEnd
  dsimp only
  rw [hspec, decide_eq_true hend]
  exact if_pos rfl

end

/-- The reading of the hottest sensor in PWR_THERM (R532). -/
def Dev.tempNoted (d : Dev) (sensor temp : Nat) : Dev := (d.setRf Reg.PWR_THERM 15 8 sensor).setRf Reg.PWR_THERM 7 0 temp

theorem tempNoted_leaves (d : Dev) {sensor temp : Nat} (hs : sensor < 32) (ht : temp < 256) : let e := d.tempNoted sensor temp
    e.rf Reg.PWR_THERM 15 8 = sensor ∧ e.rf Reg.PWR_THERM 7 0 = temp ∧ e.rf Reg.PWR_THERM 23 16 = d.rf Reg.PWR_THERM 23 16 ∧
      (∀ o, o ≠ Reg.PWR_THERM → e.reg o = d.reg o) ∧ e.flt = d.flt := by
  unfold Dev.tempNoted
  dsimp only
  refine ⟨?_, ?_, ?_, fun o ho => (Dev.reg_setRf_ne _ _ _ _ _ _ ho).trans (Dev.reg_setRf_ne _ _ _ _ _ _ ho), by rw [Dev.setRf_flt, Dev.setRf_flt]⟩
  · rw [Dev.rf_setRf_apart _ _ _ _ _ _ _ (by omega) (by omega) (by omega), Dev.rf_setRf_self _ _ _ _ _ (by omega) (by omega)]
    exact Nat.mod_eq_of_lt (by omega)
  · rw [Dev.rf_setRf_self _ _ _ _ _ (by omega) (by omega)]
    exact Nat.mod_eq_of_lt (by omega)
  · rw [Dev.rf_setRf_apart _ _ _ _ _ _ _ (by omega) (by omega) (by omega), Dev.rf_setRf_apart _ _ _ _ _ _ _ (by omega) (by omega) (by omega)]

/-- What a crossing of the threshold leaves (R532). -/
theorem thermalThreshold_leaves (d : Dev) {sensor temp : Nat} (hs : sensor < 32) (ht : temp < 256) : let e := thermalThreshold sensor temp d
    e.rf Reg.PWR_THERM 15 8 = sensor ∧ e.rf Reg.PWR_THERM 7 0 = temp ∧
      (d.rb Reg.PWR_STATUS 30 = false → d.rb Reg.PWR_CTL 2 = true → d.rf Reg.PWR_THERM 23 16 < temp → e.rb Reg.PWR_STATUS 30 = true ∧
        e.flt.inbox = d.flt.inbox ++ [⟨Src.gzThrottle, wd sensor, false⟩] ∧ e.rb Reg.ATL_INT_PEND 6 = true) ∧
      (d.rb Reg.PWR_STATUS 30 = true → temp + 3 < d.rf Reg.PWR_THERM 23 16 → e.rb Reg.PWR_STATUS 30 = false ∧ e.flt = d.flt) := by
  obtain ⟨hsensor, htemp, hlimit, hreg, hflt⟩ := tempNoted_leaves d hs ht
  have hon : (d.tempNoted sensor temp).rb Reg.PWR_STATUS 30 = d.rb Reg.PWR_STATUS 30 := rb_of_reg (hreg _ (by decide)) 30
  have hctl : (d.tempNoted sensor temp).rb Reg.PWR_CTL 2 = d.rb Reg.PWR_CTL 2 := rb_of_reg (hreg _ (by decide)) 2
  have heq : thermalThreshold sensor temp d =
      if (d.rb Reg.PWR_CTL 2 && decide (d.rf Reg.PWR_THERM 23 16 < temp) && !d.rb Reg.PWR_STATUS 30) = true then
        ((d.tempNoted sensor temp).setRb Reg.PWR_STATUS 30 true).glaze Src.gzThrottle sensor
      else if (d.rb Reg.PWR_STATUS 30 && decide (temp + 3 < d.rf Reg.PWR_THERM 23 16)) = true then
        (d.tempNoted sensor temp).setRb Reg.PWR_STATUS 30 false
      else d.tempNoted sensor temp := by
    rw [← hon, ← hctl, ← hlimit]
    rfl
  dsimp only at hsensor htemp hflt ⊢
  rw [heq]
  generalize d.tempNoted sensor temp = a at hsensor htemp hreg hflt ⊢
  simp only [Bool.and_eq_true, decide_eq_true_eq, Bool.not_eq_true']
  split
  · next h =>
    obtain ⟨hinbox, hline, -, hkeep⟩ := glaze_leaves (a.setRb Reg.PWR_STATUS 30 true) Src.gzThrottle sensor
    have htherm : ((a.setRb Reg.PWR_STATUS 30 true).glaze Src.gzThrottle sensor).reg Reg.PWR_THERM = a.reg Reg.PWR_THERM :=
      (hkeep _ (by decide)).trans (Dev.reg_setRb_ne _ _ _ _ _ (by decide))
    refine ⟨(rf_of_reg htherm _ _).trans hsensor, (rf_of_reg htherm _ _).trans htemp, fun _ _ _ => ⟨?_, ?_, hline⟩,
      fun hset => absurd (hset.symm.trans h.2) nofun⟩
    · rw [rb_of_reg (hkeep _ (by decide)), Dev.rb_setRb_self _ _ _ _ (by omega)]
    · rw [hinbox, Dev.setRb_flt, hflt]
  · next h =>
    split
    · next h' =>
      have htherm : (a.setRb Reg.PWR_STATUS 30 false).reg Reg.PWR_THERM = a.reg Reg.PWR_THERM := Dev.reg_setRb_ne _ _ _ _ _ (by decide)
      exact ⟨(rf_of_reg htherm _ _).trans hsensor, (rf_of_reg htherm _ _).trans htemp, fun hoff hctl hhot => absurd ⟨⟨hctl, hhot⟩, hoff⟩ h,
        fun _ _ => ⟨Dev.rb_setRb_self _ _ _ _ (by omega), (Dev.setRb_flt _ _ _ _).trans hflt⟩⟩
    · next h' =>
      exact ⟨hsensor, htemp, fun hoff hctl hhot => absurd ⟨⟨hctl, hhot⟩, hoff⟩ h, fun hset hcool => absurd ⟨hset, hcool⟩ h'⟩

theorem throttled_only (on : Bool) (d : Dev) (c : Nat) : clpOnly c d (d.throttled c on) := by
  unfold Dev.throttled
  dsimp only
  split
  · split
    · exact clpOnly_setClp d c _
    · exact clpOnly_refl c d
  · exact clpOnly_setClp d c _

/-- What a throttle step makes of a cluster's ceiling (R532). -/
theorem throttled_ceil (d : Dev) (c : Nat) (on : Bool) : ((d.throttled c on).clp c).ceil =
    if on then (if 0 < d.pointGoal c then d.pointGoal c - 1 else (d.clp c).ceil)
    else if (d.clp c).ceil + 1 < d.pointBase c then (d.clp c).ceil + 1 else 9 := by
  unfold Dev.throttled
  dsimp only
  split
  · split
    · rw [clp_setClp_self]
    · rfl
  · rw [clp_setClp_self]

/-- Whether a throttle step is due (R532): at most one each ms. -/
def Dev.stepDue (d : Dev) (now : Nat) : Bool := match d.pwr.lastStep with
  | some t => decide (t + 1000000 ≤ now)
  | none => true

theorem stepDue_of {d : Dev} {now : Nat} (h : ∀ t, d.pwr.lastStep = some t → t + 1000000 ≤ now) : d.stepDue now = true := by
  unfold Dev.stepDue
  split
  · next t ht => exact decide_eq_true (h t ht)
  · rfl

/-- What a throttle step that is due leaves of a cluster (R532). -/
theorem throttleStep_leaves {d : Dev} {c now : Nat} (hc : c < 24) (hdue : ∀ t, d.pwr.lastStep = some t → t + 1000000 ≤ now)
    (hany : (d.rb Reg.PWR_STATUS 30 && d.rb Reg.PWR_CTL 2) = true ∨ (d.clp c).ceil ≠ 9) : let e := throttleStep now d
    e.pwr.lastStep = some now ∧ (e.clp c).ceil = if d.rb Reg.PWR_STATUS 30 && d.rb Reg.PWR_CTL 2 then
      (if 0 < d.pointGoal c then d.pointGoal c - 1 else (d.clp c).ceil)
      else if (d.clp c).ceil + 1 < d.pointBase c then (d.clp c).ceil + 1 else 9 := by
  have hgo : (d.stepDue now && (d.rb Reg.PWR_STATUS 30 && d.rb Reg.PWR_CTL 2 ||
      (List.range 24).any (fun c => decide ((d.clp c).ceil ≠ 9)))) = true := by
    rw [stepDue_of hdue, Bool.true_and, Bool.or_eq_true, List.any_eq_true]
    exact hany.imp_right fun h => ⟨c, List.mem_range.mpr hc, decide_eq_true h⟩
  have hstep : throttleStep now d = ((List.range 24).foldl (fun (e : Dev) c => e.throttled c (d.rb Reg.PWR_STATUS 30 && d.rb Reg.PWR_CTL 2))
      { d with pwr := { d.pwr with lastStep := some now } }).retargetAll := if_pos hgo
  dsimp only
  rw [hstep]
  generalize (d.rb Reg.PWR_STATUS 30 && d.rb Reg.PWR_CTL 2) = on
  obtain ⟨b, hb, hclp, hend⟩ := clp_foldl_range (throttled_only on) hc { d with pwr := { d.pwr with lastStep := some now } }
  have hall := clps_foldl (throttled_only on) (List.range 24) { d with pwr := { d.pwr with lastStep := some now } }
  obtain ⟨hlast, heach⟩ := retargetAll_leaves ((List.range 24).foldl (fun e c => e.throttled c on) { d with pwr := { d.pwr with lastStep := some now } })
  obtain ⟨-, hceil⟩ := heach c hc
  have hsame : b.clp c = d.clp c := hclp
  have hregs : ∀ o, b.reg o = d.reg o := fun o => clps_reg hb o
  refine ⟨(clps_lastStep hlast).trans (clps_lastStep hall), hceil.trans ?_⟩
  rw [hend, throttled_ceil, pointGoal_congr (hregs _) (hregs _) (by rw [hsame]) (by rw [hsame]),
    pointBase_congr (hregs _) (hregs _) (by rw [hsame]), hsame]

/-- What the loss of a phase leaves (R520). -/
theorem gzPhaseFault_leaves {d : Dev} {n : Nat} (hn : n < 12) (hon : d.rb Reg.PWR_RAIL_STATUS (16 + n) = true) : let e := gzPhaseFault n d
    e.rb Reg.PWR_RAIL_STATUS (16 + n) = false ∧ e.flt.inbox = d.flt.inbox ++ [⟨Src.gzPhaseFault, wd n, false⟩] ∧ e.rb Reg.ATL_INT_PEND 6 = true := by
  have hclear : (d.setRb Reg.PWR_RAIL_STATUS (16 + n) false).rb Reg.PWR_RAIL_STATUS (16 + n) = false := Dev.rb_setRb_self _ _ _ _ (by omega)
  have hflt := Dev.setRb_flt d Reg.PWR_RAIL_STATUS (16 + n) false
  unfold gzPhaseFault
  dsimp only
  rw [if_pos hon]
  generalize d.setRb Reg.PWR_RAIL_STATUS (16 + n) false = a at hclear hflt ⊢
  obtain ⟨hinbox, hline, -, hkeep⟩ := glaze_leaves { a with pwr := { d.pwr with badPhases := d.pwr.badPhases ||| 2 ^ n } } Src.gzPhaseFault n
  exact ⟨(rb_of_reg (hkeep _ (by decide)) _).trans hclear, hinbox.trans (by rw [hflt]), hline⟩

/-- What VDD_CORE out of tolerance leaves (R520, R534). -/
theorem gzVcoreOor_leaves (d : Dev) : let e := gzVcoreOor d
    e.rb Reg.PWR_RAIL_STATUS 31 = false ∧ e.flt.inbox = d.flt.inbox ++ [⟨Src.gzVcoreOor, wd 0, false⟩] ∧ e.rb Reg.ATL_INT_PEND 6 = true := by
  have hclear : (d.setRb Reg.PWR_RAIL_STATUS 31 false).rb Reg.PWR_RAIL_STATUS 31 = false := Dev.rb_setRb_self _ _ _ _ (by omega)
  have hflt := Dev.setRb_flt d Reg.PWR_RAIL_STATUS 31 false
  unfold gzVcoreOor
  dsimp only
  generalize d.setRb Reg.PWR_RAIL_STATUS 31 false = a at hclear hflt ⊢
  have hphases : ∃ b, (if a.pwrfailOn = true then a.setRf Reg.PWR_RAIL_STATUS 27 16 0 else a) = b ∧ b.rb Reg.PWR_RAIL_STATUS 31 = false ∧ b.flt = d.flt := by
    split
    · exact ⟨_, rfl, (Dev.rb_setRf_apart _ _ _ _ _ _ (by omega) (by omega) (by omega)).trans hclear, (Dev.setRf_flt _ _ _ _ _).trans hflt⟩
    · exact ⟨a, rfl, hclear, hflt⟩
  obtain ⟨b, hb, hoff, hsame⟩ := hphases
  obtain ⟨hinbox, hline, -, hkeep⟩ := glaze_leaves b Src.gzVcoreOor 0
  rw [hb]
  exact ⟨(rb_of_reg (hkeep _ (by decide)) _).trans hoff, hinbox.trans (by rw [hsame]), hline⟩

/-- Settles O51: each of the power unit's commands by what it leaves. -/
theorem powerUnit : Obligations.PowerUnit := by
  unfold Obligations.PowerUnit
  intro s c hc
  dsimp only
  have hcl : isCluster c = true := decide_eq_true hc
  refine ⟨fun r p hp hreset => ⟨fun hno => ?refused, fun hmax hcap hnext hpower hbist => ?point⟩, fun p hnext hclock => ?done, fun hgoal => ?rail,
    fun r hreset hpoint hnext hgate hpower hclock => ?gate, fun hgating hempty hpower hbist => ?gated, fun r hreset hpoint hnext hgate => ?wake,
    fun hwaking => ?awake, fun hwf => ?confirm, fun hwindow => ⟨fun hlow => ?lower, fun hmin hmax => ?hold, fun hhigh hoff => ?raise, fun hhigh hoff => ?limit⟩,
    fun sensor temp hs ht => ?thermal, fun hdue hon hctl => ?throttle, fun hdue hoff hceil => ?recover, fun n hn hon => ?phase, ?vcore,
    fun hon => ?ldo, fun hreset => ?thermtrip⟩
  case refused =>
    have hpoint : fld (setFld (s.dev.reg (Reg.PWR_CL_W0 c)) 3 0 p) 3 0 = p :=
      (fld_setFld _ _ _ _ (by omega) (by omega)).trans (Nat.mod_eq_of_lt (by omega))
    have hmax : fld (setFld (s.dev.reg (Reg.PWR_CL_W0 c)) 3 0 p) 7 4 = s.dev.rf (Reg.PWR_CL_W0 c) 7 4 :=
      fld_setFld_apart _ _ _ _ _ _ (by omega) (by omega) (by omega)
    have hrefuse : clusterPointChange r c p s.dev = s.dev.refuse r (Reg.PWR_CL_W0 c) := by
      unfold clusterPointChange
      refine pwrClWrite_refused r ?_
      rw [hpoint, hmax]
      exact hno
    rw [exec_clusterPointChange, runDev_ok (by rw [hcl]; exact decide_eq_true (by omega)), live_on hreset, hrefuse]
  case point =>
    refine ⟨_, (exec_clusterPointChange r c p s).trans (runDev_ok (by rw [hcl]; exact decide_eq_true (by omega))), ?_⟩
    rw [live_on hreset]
    exact clusterPointChange_leaves hc r hmax hcap hnext hpower hbist
  case done => exact ⟨_, (exec_pointChangeDone c s).trans (runDev_ok hcl), pointChangeDone_leaves hc hnext hclock⟩
  case rail => exact ⟨_, (exec_vcoreSlewDone s).trans (runDev_ok rfl), vcoreSlewDone_leaves hc hgoal⟩
  case gate =>
    refine ⟨_, (exec_clusterGate r c s).trans (runDev_ok hcl), ?_⟩
    rw [live_on hreset]
    exact clusterGate_leaves hc r hpoint hnext hgate hpower hclock
  case gated =>
    have hdone : gatingDone c s.dev = s.dev.gateNow c := by
      unfold gatingDone
      rw [hgating, hempty, hpower, hbist]
      rfl
    refine ⟨_, (exec_gatingDone c s).trans (runDev_ok hcl), ?_⟩
    rw [hdone]
    exact gateNow_leaves hc
  case wake =>
    refine ⟨_, (exec_clusterWake r c s).trans (runDev_ok hcl), ?_⟩
    rw [live_on hreset]
    exact clusterWake_leaves hc r hpoint hnext hgate
  case awake => exact ⟨_, (exec_wakeDone c s).trans (runDev_ok hcl), wakeDone_leaves _ hc hwaking⟩
  case confirm => exact ⟨_, (exec_nonSpeculativeConfirm c s).trans (runDev_ok hcl), nonSpeculativeConfirm_leaves c hwf⟩
  case lower =>
    refine ⟨_, (exec_errorWindowEnd c s).trans (runDev_ok hcl), ?_⟩
    rw [errorWindowEnd_eq hwindow.1 hwindow.2]
    dsimp only
    rw [if_pos hlow]
    exact newWindow_leaves _ _ _
  case hold =>
    refine ⟨_, (exec_errorWindowEnd c s).trans (runDev_ok hcl), ?_⟩
    rw [errorWindowEnd_eq hwindow.1 hwindow.2]
    dsimp only
    rw [if_neg (by omega), if_pos hmax]
    exact newWindow_alone _ _
  case raise =>
    refine ⟨_, (exec_errorWindowEnd c s).trans (runDev_ok hcl), ?_⟩
    rw [errorWindowEnd_eq hwindow.1 hwindow.2]
    dsimp only
    rw [if_neg (by omega), if_neg (by omega), if_neg hoff]
    exact newWindow_leaves _ _ _
  case limit =>
    obtain ⟨hself, hothers, hflt⟩ := newWindow_leaves s.dev c { s.dev.clp c with stopped := true }
    obtain ⟨hinbox, hline, hpwr, -⟩ := glaze_leaves ((s.dev.setClp c { s.dev.clp c with stopped := true }).newWindow c) Src.gzSpecLimit c
    refine ⟨_, (exec_errorWindowEnd c s).trans (runDev_ok hcl), ?_⟩
    rw [errorWindowEnd_eq hwindow.1 hwindow.2]
    dsimp only
    rw [if_neg (by omega), if_neg (by omega), if_pos hoff]
    exact ⟨(clp_of_pwr hpwr c).trans hself, fun j hj => (clp_of_pwr hpwr j).trans (hothers j hj), hinbox.trans (by rw [hflt]), hline⟩
  case thermal =>
    exact ⟨_, (exec_thermalThreshold sensor temp s).trans (runDev_ok (Bool.and_eq_true_iff.mpr ⟨decide_eq_true hs, decide_eq_true ht⟩)),
      thermalThreshold_leaves s.dev hs ht⟩
  case throttle =>
    have hboth : (s.dev.rb Reg.PWR_STATUS 30 && s.dev.rb Reg.PWR_CTL 2) = true := by rw [hon, hctl]; rfl
    obtain ⟨hstep, hceil⟩ := throttleStep_leaves hc hdue (.inl hboth)
    exact ⟨_, (exec_throttleStep s).trans (runDev_ok rfl), hstep, hceil.trans (if_pos hboth)⟩
  case recover =>
    obtain ⟨hstep, hback⟩ := throttleStep_leaves hc hdue (.inr hceil)
    exact ⟨_, (exec_throttleStep s).trans (runDev_ok rfl), hstep, hback.trans (if_neg (by rw [hoff]; exact Bool.false_ne_true))⟩
  case phase => exact ⟨_, (exec_gzPhaseFault n s).trans (runDev_ok (decide_eq_true hn)), gzPhaseFault_leaves hn hon⟩
  case vcore => exact ⟨_, (exec_gzVcoreOor s).trans (runDev_ok rfl), gzVcoreOor_leaves s.dev⟩
  case ldo =>
    obtain ⟨hinbox, hline, -, -⟩ := glaze_leaves s.dev Src.gzLdoFault c
    have hfault : gzLdoFault c s.dev = s.dev.glaze Src.gzLdoFault c := if_pos (Bool.or_eq_true_iff.mpr hon)
    refine ⟨_, (exec_gzLdoFault c s).trans (runDev_ok hcl), ?_⟩
    rw [hfault]
    exact ⟨hinbox, hline⟩
  case thermtrip =>
    refine (exec_thermtripNRelease s).trans (runDev_becomes ?_)
    exact if_neg (by rw [hreset]; decide)

end Sys2Proof.Machine
end

section
/-!
SUPPORT. The fault collector (R542 to R545): what a report leaves at its severity.
-/

namespace Sys2Proof.Machine

/-! What an event and a message to the host leave of the collector's own registers (R481, R483). -/

/-- The collector's, the power unit's and the debug unit's registers, and the pins, stand. -/
def fltKeeps (d e : Dev) : Prop := e.pins = d.pins ∧ (∀ o, Reg.FLT_CTL ≤ o → o < Reg.HST_CTL → e.reg o = d.reg o) ∧
  ∀ o, Reg.DBG_CTL ≤ o → e.reg o = d.reg o

section
variable {a b c : Dev}

theorem fltKeeps_refl (d : Dev) : fltKeeps d d := ⟨rfl, fun _ _ _ => rfl, fun _ _ => rfl⟩

theorem fltKeeps_setReg (h : fltKeeps a b) {o : Nat} (ho : o < Reg.FLT_CTL ∨ (Reg.HST_CTL ≤ o ∧ o < Reg.DBG_CTL)) (v : Word) :
    fltKeeps a (b.setReg o v) :=
  have hDbg : Reg.FLT_CTL < Reg.DBG_CTL := by decide
  ⟨h.1, fun p hl hu => (b.reg_setReg_ne _ _ _ (by omega)).trans (h.2.1 p hl hu),
    fun p hl => (b.reg_setReg_ne _ _ _ (by omega)).trans (h.2.2 p hl)⟩

theorem fltKeeps_setRb (h : fltKeeps a b) {o : Nat} (ho : o < Reg.FLT_CTL ∨ (Reg.HST_CTL ≤ o ∧ o < Reg.DBG_CTL)) (i : Nat) (v : Bool) :
    fltKeeps a (b.setRb o i v) :=
  fltKeeps_setReg h ho _

theorem fltKeeps_raise (src x : Nat) (h : fltKeeps a b) : fltKeeps a (b.raise src x) := h

theorem fltKeeps_store (m : Tab Byte) (x : Drc) (h : fltKeeps a b) : fltKeeps a { b with mem := m, drc := x } := h

theorem fltKeeps_dramCapture (kind x : Nat) (h : fltKeeps a b) : fltKeeps a (b.dramCapture kind x) := by
  unfold Dev.dramCapture
  split
  · exact fltKeeps_setReg h (.inr (by decide)) _
  · exact fltKeeps_setReg (fltKeeps_setReg (fltKeeps_setReg h (.inr (by decide)) _) (.inr (by decide)) _) (.inr (by decide)) _

theorem fltKeeps_memWrite (x : Nat) (bs : List Byte) (h : fltKeeps a b) : fltKeeps a (b.memWrite x bs) := by
  unfold Dev.memWrite
  split
  · exact fltKeeps_store _ _ h
  · unfold Dev.dramWrite
    dsimp only
    split
    · exact fltKeeps_raise _ _ (fltKeeps_dramCapture _ _ (fltKeeps_store _ _ h))
    · exact fltKeeps_store _ _ h

theorem fltKeeps_dmaFault (g ring cause x n : Nat) (h : fltKeeps a b) : fltKeeps a (b.dmaFault g ring cause x n) := by
  have hcap : fltKeeps a (if cause = 5 then b.captureIn 1 x n else b) := by
    unfold Dev.captureIn Dev.captureUnmapped
    split
    · split
      · split
        · exact fltKeeps_setRb h (.inl (by decide)) _ _
        · exact fltKeeps_setRb (fltKeeps_setReg (fltKeeps_setReg h (.inl (by decide)) _) (.inl (by decide)) _) (.inl (by decide)) _ _
      · exact h
    · exact h
  unfold Dev.dmaFault
  dsimp only
  generalize (if cause = 5 then b.captureIn 1 x n else b) = e at hcap ⊢
  refine fltKeeps_raise _ _ ?_
  split
  · exact fltKeeps_setRb hcap (.inr (by decide)) _ _
  · exact fltKeeps_setReg (fltKeeps_setReg (fltKeeps_setReg hcap (.inr (by decide)) _) (.inr (by decide)) _) (.inr (by decide)) _

theorem fltKeeps_dmaWrite (g ring x : Nat) (bs : List Byte) (h : fltKeeps a b) : fltKeeps a (b.dmaWrite g ring x bs) := by
  unfold Dev.dmaWrite
  split
  · exact h
  · split
    · exact fltKeeps_memWrite _ _ h
    · exact fltKeeps_dmaFault _ _ _ _ _ h

theorem fltKeeps_writeEvts (g : Nat) (ps : List (List Byte)) (h : fltKeeps a b) : fltKeeps a (b.writeEvts g ps) := by
  induction ps generalizing b with
  | nil => exact h
  | cons x r ih => exact ih (fltKeeps_dmaWrite _ _ _ _ h)

theorem fltKeeps_postEvt {g : Nat} (hg : g < 16) (p : List Byte) (h : fltKeeps a b) : fltKeeps a (b.postEvt g p) := by
  unfold Dev.postEvt Dev.postEvts
  dsimp only
  split
  · exact h
  · split
    · exact fltKeeps_writeEvts _ _ h
    · have hset : fltKeeps a (b.setGrp g { b.grp g with ix := { (b.grp g).ix with evtSeq := ixAdd (b.grp g).ix.evtSeq [p].length } }) := h
      have hword : Reg.HST_CTL ≤ Reg.HST_GRP_CNT g 3 ∧ Reg.HST_GRP_CNT g 3 < Reg.DBG_CTL := by
        unfold Reg.HST_CTL Reg.HST_GRP_CNT Reg.DBG_CTL
        omega
      exact fltKeeps_raise _ _ (fltKeeps_setReg hset (.inr hword) _)

theorem fltKeeps_sendVec {v : Nat} (hv : v < 256) (h : fltKeeps a b) : fltKeeps a (b.sendVec v) := by
  unfold Dev.sendVec
  dsimp only
  split
  · have hword : Reg.HST_CTL ≤ Reg.HST_MSIX_PBA (v / 32) ∧ Reg.HST_MSIX_PBA (v / 32) < Reg.DBG_CTL := by
      unfold Reg.HST_CTL Reg.HST_MSIX_PBA Reg.DBG_CTL
      omega
    exact fltKeeps_setRb h (.inr hword) _ _
  · exact h

theorem fltKeeps_rf (h : fltKeeps a b) {o : Nat} (hl : Reg.FLT_CTL ≤ o) (hu : o < Reg.HST_CTL) (hi lo : Nat) : b.rf o hi lo = a.rf o hi lo :=
  rf_of_reg (h.2.1 o hl hu) hi lo

theorem fltKeeps_rb (h : fltKeeps a b) {o : Nat} (hl : Reg.FLT_CTL ≤ o) (hu : o < Reg.HST_CTL) (i : Nat) : b.rb o i = a.rb o i :=
  rb_of_reg (h.2.1 o hl hu) i

end

/-! The steps of a report (R542, R544). -/

theorem raiseIbi_leaves (d : Dev) (sev src : Nat) : let e := d.raiseIbi sev src
    (∀ o, e.reg o = d.reg o) ∧ e.pins = d.pins ∧ e.flt = d.flt := by
  unfold Dev.raiseIbi
  split
  · split
    · exact ⟨fun _ => rfl, rfl, rfl⟩
    · exact ⟨fun _ => rfl, rfl, rfl⟩
  · exact ⟨fun _ => rfl, rfl, rfl⟩

/-- The count of a report and its in-band interrupt. -/
def Dev.counted (d : Dev) (sev src : Nat) : Dev := (d.bumpSat (Reg.FLT_CNT src) 16 1).raiseIbi sev src

theorem counted_leaves (d : Dev) (sev src : Nat) : let e := d.counted sev src
    (e.reg (Reg.FLT_CNT src)).toNat = min ((d.reg (Reg.FLT_CNT src)).toNat + 1) 0xFFFF ∧
      (∀ o, o ≠ Reg.FLT_CNT src → e.reg o = d.reg o) ∧ e.pins = d.pins ∧ e.flt = d.flt := by
  unfold Dev.counted Dev.bumpSat
  obtain ⟨hreg, hpins, hflt⟩ := raiseIbi_leaves (d.setReg (Reg.FLT_CNT src) (wd (min ((d.reg (Reg.FLT_CNT src)).toNat + 1) (2 ^ 16 - 1)))) sev src
  dsimp only at hreg ⊢
  refine ⟨?_, fun o ho => (hreg o).trans (Dev.reg_setReg_ne _ _ _ _ ho), hpins.trans (Dev.setReg_pins _ _ _), hflt.trans (Dev.setReg_flt _ _ _)⟩
  rw [hreg, Dev.reg_setReg_self, wd_toNat _ (by omega)]
  rfl

/-- FLT_FIRST_STATUS of a captured report (R544). -/
theorem firstStatus_bits {b i sev src : Nat} (hb : b ≤ 1) (hi : i ≤ 1) (hsev : sev < 8) (hsrc : src < 256) :
    let w := wd (2 ^ 31 + b * 2 ^ 30 + i * 2 ^ 29 + sev * 2 ^ 8 + src)
    bit w 31 = true ∧ fld w 10 8 = sev ∧ fld w 7 0 = src := by
  dsimp only
  rw [testBit_wd _ _ (by omega), fld_wd _ _ _ (by omega) (by omega), fld_wd _ _ _ (by omega) (by omega),
    Nat.testBit_eq_decide_div_mod_eq, decide_eq_true_eq]
  omega

/-- What the capture of the first report leaves (R544). -/
theorem firstFault_leaves (d : Dev) (now sev : Nat) (x : Report) (hsev : sev < 8) (hsrc : x.src < 256) : let e := d.firstFault now sev x
    (d.rb Reg.FLT_FIRST_STATUS 31 = false → e.rb Reg.FLT_FIRST_STATUS 31 = true ∧ e.rf Reg.FLT_FIRST_STATUS 10 8 = sev ∧
      e.rf Reg.FLT_FIRST_STATUS 7 0 = x.src ∧ e.reg Reg.FLT_FIRST_DETAIL = x.detail) ∧
    (d.rb Reg.FLT_FIRST_STATUS 31 = true → e.rb Reg.FLT_FIRST_STATUS 30 = true ∧ e.reg Reg.FLT_FIRST_DETAIL = d.reg Reg.FLT_FIRST_DETAIL) ∧
    (∀ o, o ∉ [Reg.FLT_FIRST_STATUS, Reg.FLT_FIRST_DETAIL, Reg.FLT_FIRST_TIME_LO, Reg.FLT_FIRST_TIME_HI] → e.reg o = d.reg o) ∧
    e.pins = d.pins := by
  unfold Dev.firstFault
  dsimp only
  split
  · next hheld =>
    refine ⟨fun h => absurd (hheld.symm.trans h) nofun, fun _ => ⟨Dev.rb_setRb_self _ _ _ _ (by omega), Dev.reg_setRb_ne _ _ _ _ _ (by decide)⟩,
      fun o ho => Dev.reg_setRb_ne _ _ _ _ _ fun h => ho (h ▸ List.mem_cons_self ..), Dev.setRb_pins _ _ _ _⟩
  · next hfree =>
    obtain ⟨hvalid, hfsev, hfsrc⟩ := firstStatus_bits (b2n_le (d.rb Reg.FLT_FIRST_STATUS 30)) (b2n_le x.injected) hsev hsrc
    generalize wd (2 ^ 31 + b2n (d.rb Reg.FLT_FIRST_STATUS 30) * 2 ^ 30 + b2n x.injected * 2 ^ 29 + sev * 2 ^ 8 + x.src) = w at hvalid hfsev hfsrc ⊢
    have hstatus : ((((d.setReg Reg.FLT_FIRST_STATUS w).setReg Reg.FLT_FIRST_DETAIL x.detail).setReg Reg.FLT_FIRST_TIME_LO (wd now)).setReg
        Reg.FLT_FIRST_TIME_HI (wd (now / 2 ^ 32))).reg Reg.FLT_FIRST_STATUS = w := by
      rw [Dev.reg_setReg_ne _ _ _ _ (by decide), Dev.reg_setReg_ne _ _ _ _ (by decide), Dev.reg_setReg_ne _ _ _ _ (by decide), Dev.reg_setReg_self]
    refine ⟨fun _ => ⟨?_, ?_, ?_, ?_⟩, fun h => absurd h hfree, fun o ho => ?_, ?_⟩
    · exact (congrArg (bit · 31) hstatus).trans hvalid
    · exact (congrArg (fld · 10 8) hstatus).trans hfsev
    · exact (congrArg (fld · 7 0) hstatus).trans hfsrc
    · rw [Dev.reg_setReg_ne _ _ _ _ (by decide), Dev.reg_setReg_ne _ _ _ _ (by decide), Dev.reg_setReg_self]
    · simp only [List.mem_cons, List.not_mem_nil, or_false, not_or] at ho
      obtain ⟨h1, h2, h3, h4⟩ := ho
      rw [Dev.reg_setReg_ne _ _ _ _ h4, Dev.reg_setReg_ne _ _ _ _ h3, Dev.reg_setReg_ne _ _ _ _ h2, Dev.reg_setReg_ne _ _ _ _ h1]
    · rw [Dev.setReg_pins, Dev.setReg_pins, Dev.setReg_pins, Dev.setReg_pins]

/-- The capture of a report and its event, from severity 1 on. -/
def Dev.shown (d : Dev) (now sev : Nat) (x : Report) : Dev :=
  if 1 ≤ sev then (d.firstFault now sev x).postEvt (d.rf Reg.HST_CTL 19 16) (faultPayload now sev x) else d

theorem shown_leaves (d : Dev) (now sev : Nat) (x : Report) (hsev : sev < 8) (hsrc : x.src < 256) : let e := d.shown now sev x
    (sev = 0 → e = d) ∧
    (1 ≤ sev → d.rb Reg.FLT_FIRST_STATUS 31 = false → e.rb Reg.FLT_FIRST_STATUS 31 = true ∧ e.rf Reg.FLT_FIRST_STATUS 10 8 = sev ∧
      e.rf Reg.FLT_FIRST_STATUS 7 0 = x.src ∧ e.reg Reg.FLT_FIRST_DETAIL = x.detail) ∧
    (1 ≤ sev → d.rb Reg.FLT_FIRST_STATUS 31 = true → e.rb Reg.FLT_FIRST_STATUS 30 = true ∧ e.reg Reg.FLT_FIRST_DETAIL = d.reg Reg.FLT_FIRST_DETAIL) ∧
    (∀ o, Reg.FLT_CTL ≤ o → o < Reg.HST_CTL → o ∉ [Reg.FLT_FIRST_STATUS, Reg.FLT_FIRST_DETAIL, Reg.FLT_FIRST_TIME_LO, Reg.FLT_FIRST_TIME_HI] →
      e.reg o = d.reg o) ∧ e.pins = d.pins := by
  obtain ⟨hfree, hheld, hregs, hpins⟩ := firstFault_leaves d now sev x hsev hsrc
  have hkeep := fltKeeps_postEvt (g := d.rf Reg.HST_CTL 19 16) (fld_lt (d.reg Reg.HST_CTL) 19 16) (faultPayload now sev x) (fltKeeps_refl (d.firstFault now sev x))
  unfold Dev.shown
  dsimp only at hfree hheld hregs hpins ⊢
  split
  · generalize d.firstFault now sev x = a at hfree hheld hregs hpins hkeep ⊢
    generalize a.postEvt _ _ = b at hkeep ⊢
    rw [fltKeeps_rb hkeep (by decide) (by decide), fltKeeps_rb hkeep (by decide) (by decide), fltKeeps_rf hkeep (by decide) (by decide),
      fltKeeps_rf hkeep (by decide) (by decide), hkeep.2.1 Reg.FLT_FIRST_DETAIL (by decide) (by decide)]
    exact ⟨fun h => by omega, fun _ => hfree, fun _ => hheld, fun o hl hu ho => (hkeep.2.1 o hl hu).trans (hregs o ho), hkeep.1.trans hpins⟩
  · exact ⟨fun _ => rfl, fun h => by omega, fun h => by omega, fun _ _ _ _ => rfl, rfl⟩

/-- The message of a report and interrupt line 0, from severity 2 on. -/
def Dev.announced (d : Dev) (sev : Nat) : Dev := if 2 ≤ sev then (d.sendVec (d.rf Reg.HST_CTL 15 8)).atlLine 0 else d

theorem announced_leaves (d : Dev) (sev : Nat) : let e := d.announced sev
    fltKeeps d e ∧ (sev < 2 → e = d) ∧ (2 ≤ sev → e.rb Reg.ATL_INT_PEND 0 = true) := by
  unfold Dev.announced Dev.atlLine
  dsimp only
  split
  · exact ⟨fltKeeps_setRb (fltKeeps_sendVec (fld_lt (d.reg Reg.HST_CTL) 15 8) (fltKeeps_refl d)) (.inr (by decide)) _ _, fun h => by omega,
      fun _ => Dev.rb_setRb_self _ _ _ _ (by omega)⟩
  · exact ⟨fltKeeps_refl d, fun _ => rfl, fun h => by omega⟩

/-- FAULT_N's pulse begins, from severity 3 on (R545). -/
def Dev.pulsed (d : Dev) (now sev : Nat) : Dev :=
  if 3 ≤ sev then { d with pins := { d.pins with faultEnd := some (now + 1000 * d.rf Reg.FLT_CTL 27 16) } } else d

/-- A report below severity 4 (R542): its count, its capture and event, its interrupts and FAULT_N's pulse. -/
def Dev.noted (d : Dev) (now sev : Nat) (x : Report) : Dev := (((d.counted sev x.src).shown now sev x).announced sev).pulsed now sev

theorem collect_low {d : Dev} {x : Report} (now : Nat) (h : d.rf (Reg.FLT_SEV x.src) 2 0 ≤ 3) :
    d.collect now x = d.noted now (d.rf (Reg.FLT_SEV x.src) 2 0) x := by
  unfold Dev.collect
  dsimp only
  rw [if_neg (by omega), if_neg (by omega)]
  rfl

/-- The registers of the first fault are none of the counters. -/
theorem fltFirst_ne {o : Nat} (ho : o ≤ Reg.FLT_FIRST_TIME_HI) (src : Nat) : o ≠ Reg.FLT_CNT src := by
  unfold Reg.FLT_CNT
  unfold Reg.FLT_FIRST_TIME_HI at ho
  omega

/-- What a report below severity 4 leaves (R542, R544, R545). -/
theorem noted_leaves (d : Dev) (now v : Nat) (x : Report) (hv : v < 8) (hsrc : x.src < 256) : let e := d.noted now v x
    (e.reg (Reg.FLT_CNT x.src)).toNat = min ((d.reg (Reg.FLT_CNT x.src)).toNat + 1) 0xFFFF ∧
      (v = 0 → e.flt = d.flt ∧ e.reg Reg.FLT_FIRST_STATUS = d.reg Reg.FLT_FIRST_STATUS) ∧
      (1 ≤ v → d.rb Reg.FLT_FIRST_STATUS 31 = false → e.rb Reg.FLT_FIRST_STATUS 31 = true ∧
        e.rf Reg.FLT_FIRST_STATUS 10 8 = v ∧ e.rf Reg.FLT_FIRST_STATUS 7 0 = x.src ∧ e.reg Reg.FLT_FIRST_DETAIL = x.detail) ∧
      (1 ≤ v → d.rb Reg.FLT_FIRST_STATUS 31 = true → e.rb Reg.FLT_FIRST_STATUS 30 = true ∧
        e.reg Reg.FLT_FIRST_DETAIL = d.reg Reg.FLT_FIRST_DETAIL) ∧
      (2 ≤ v → e.rb Reg.ATL_INT_PEND 0 = true) ∧
      (v = 3 → e.pins.faultEnd = some (now + 1000 * d.rf Reg.FLT_CTL 27 16)) ∧ (v < 3 → e.pins = d.pins) := by
  obtain ⟨hcnt, hregs, hpins, hflt⟩ := counted_leaves d v x.src
  unfold Dev.noted
  dsimp only at hcnt hregs hpins hflt ⊢
  generalize d.counted v x.src = a at hcnt hregs hpins hflt ⊢
  obtain ⟨hnone, hfree, hheld, hkeep, hpins'⟩ := shown_leaves a now v x hv hsrc
  generalize a.shown now v x = b at hnone hfree hheld hkeep hpins' ⊢
  obtain ⟨hquiet, hlow, hline⟩ := announced_leaves b v
  generalize b.announced v = c at hquiet hlow hline ⊢
  have hreg : ∀ o, (c.pulsed now v).reg o = c.reg o := by
    unfold Dev.pulsed
    split
    · exact fun _ => rfl
    · exact fun _ => rfl
  have hcount : b.reg (Reg.FLT_CNT x.src) = a.reg (Reg.FLT_CNT x.src) :=
    hkeep _ (by unfold Reg.FLT_CTL Reg.FLT_CNT; omega) (by unfold Reg.HST_CTL Reg.FLT_CNT; omega) fun hmem => by
      simp only [List.mem_cons, List.not_mem_nil, or_false] at hmem
      obtain h | h | h | h := hmem
      · exact fltFirst_ne (by decide) _ h.symm
      · exact fltFirst_ne (by decide) _ h.symm
      · exact fltFirst_ne (by decide) _ h.symm
      · exact fltFirst_ne (by decide) _ h.symm
  have hctl : c.rf Reg.FLT_CTL 27 16 = d.rf Reg.FLT_CTL 27 16 :=
    ((fltKeeps_rf hquiet (by decide) (by decide) _ _).trans (rf_of_reg (hkeep _ (by decide) (by decide) (by decide)) _ _)).trans
      (rf_of_reg (hregs _ (fltFirst_ne (by decide) _)) _ _)
  have hstatus : a.reg Reg.FLT_FIRST_STATUS = d.reg Reg.FLT_FIRST_STATUS := hregs _ (fltFirst_ne (by decide) _)
  have hdetail : a.reg Reg.FLT_FIRST_DETAIL = d.reg Reg.FLT_FIRST_DETAIL := hregs _ (fltFirst_ne (by decide) _)
  have hstatus' := hquiet.2.1 Reg.FLT_FIRST_STATUS (by decide) (by decide)
  have hdetail' := hquiet.2.1 Reg.FLT_FIRST_DETAIL (by decide) (by decide)
  rw [rb_of_reg hstatus] at hfree hheld
  rw [rb_of_reg (hreg _), rb_of_reg (hreg _), rb_of_reg (hreg _), rf_of_reg (hreg _), rf_of_reg (hreg _), hreg, hreg, hreg,
    rb_of_reg hstatus', rb_of_reg hstatus', rf_of_reg hstatus', rf_of_reg hstatus', hdetail', hstatus']
  refine ⟨?_, fun hzero => ?_, hfree, fun h1 h2 => ⟨(hheld h1 h2).1, (hheld h1 h2).2.trans hdetail⟩, hline, fun h3 => ?_, fun h3 => ?_⟩
  · rw [hquiet.2.1 _ (by unfold Reg.FLT_CTL Reg.FLT_CNT; omega) (by unfold Reg.HST_CTL Reg.FLT_CNT; omega), hcount, hcnt]
  · obtain rfl := hnone hzero
    obtain rfl := hlow (by omega)
    unfold Dev.pulsed
    rw [if_neg (by omega)]
    exact ⟨hflt, hstatus⟩
  · unfold Dev.pulsed
    rw [if_pos (by omega), hctl]
  · unfold Dev.pulsed
    rw [if_neg (by omega)]
    exact hquiet.1.trans (hpins'.trans hpins)

/-! The stop of severity 5 (R542). -/

theorem mgtOnly_reg {d e : Dev} (h : mgtOnly d e) (o : Nat) : e.reg o = d.reg o := by
  obtain ⟨_, rfl⟩ := h
  rfl

theorem mgtOnly_stn {d e : Dev} (h : mgtOnly d e) : e.stn = d.stn := by
  obtain ⟨_, rfl⟩ := h
  rfl

/-- The Fixative's start leaves the stage and the heartbeats (R510). -/
theorem startFix_runs (d : Dev) (now : Nat) : let e := d.startFix now false
    (∀ o, o ≠ Reg.ATL_INT_PEND → e.reg o = d.reg o) ∧ e.stn = d.stn ∧ e.mgt.fix ≠ none ∧ e.rb Reg.ATL_INT_PEND 1 = true := by
  obtain ⟨honly, hstart, hruns⟩ := startFix_leaves d now false
  refine ⟨fun o ho => (mgtOnly_reg honly o).trans (Dev.reg_setRb_ne _ _ _ _ _ ho), (mgtOnly_stn honly).trans (Dev.setRb_stn _ _ _ _), ?_,
    (mgtOnly_rb honly _ _).trans (Dev.rb_setRb_self _ _ _ _ (by omega))⟩
  by_cases hfix : d.mgt.fix = none
  · rw [hstart hfix]
    nofun
  · rw [hruns hfix]
    exact hfix

/-- What the stop leaves: stage 4, no heartbeat, the Fixative running, and interrupt line 1. -/
theorem stop_leaves (d : Dev) (now : Nat) : let e := d.stop now
    e.stage = 4 ∧ e.heartsOff ∧ e.mgt.fix ≠ none ∧ e.rb Reg.ATL_INT_PEND 1 = true := by
  have hset : (d.setRf Reg.GLB_RUN_STATE 3 0 4).stage = 4 := Dev.rf_setRf_self _ _ _ _ _ (by omega) (by omega)
  unfold Dev.stop
  generalize d.setRf Reg.GLB_RUN_STATE 3 0 4 = a at hset ⊢
  obtain ⟨⟨-, hregs⟩, -, -⟩ := holdLanes_ok a
  dsimp only at hregs ⊢
  generalize a.holdLanes true true = b at hregs ⊢
  have hstage : b.stage = 4 := (rf_of_reg (hregs Reg.GLB_RUN_STATE (by
    unfold laneReg Reg.GLB_RUN_STATE Reg.PRT_PORT_W2 Reg.PRT_PORT_W3 Reg.STN_LANE_W0
    omega)) 3 0).trans hset
  obtain ⟨hrest, hstn, hfix, hline⟩ := startFix_runs b.hbStopAll now
  refine ⟨?_, heartsOff_of (hbStopAll_off b) (fun i hi => hrest _ ?_) (by rw [hstn]), hfix, hline⟩
  · exact (rf_of_reg (hrest _ (by decide)) 3 0).trans ((hbStopAll_stage b).trans hstage)
  · unfold Reg.STN_HB Reg.ATL_INT_PEND
    omega

theorem collect_stops {d : Dev} {x : Report} (now : Nat) (h : 5 ≤ d.rf (Reg.FLT_SEV x.src) 2 0) : ∃ b : Dev, d.collect now x = b.stop now :=
  ⟨_, if_pos h⟩

/-- The oldest report on its way is the one that its source and detail name first (R543). -/
theorem faultReport_first {d : Dev} {x : Report} {rest : List Report} (hinbox : d.flt.inbox = x :: rest) (hlisted : srcListed x.src = true) (now : Nat) :
    faultReport now x.src x.detail d = ({ d with flt := { d.flt with inbox := rest } } : Dev).collect now x := by
  have hfind : findIx (fun y : Report => decide (y.src = x.src ∧ y.detail = x.detail)) (x :: rest) = some 0 := if_pos (decide_eq_true ⟨rfl, rfl⟩)
  unfold faultReport
  rw [hlisted, hinbox, hfind]
  rfl

/-- What a report leaves (R542 to R545). -/
theorem faultReport_leaves {d : Dev} {x : Report} {rest : List Report} (hinbox : d.flt.inbox = x :: rest) (hlisted : srcListed x.src = true)
    (hsrc : x.src < 256) (now : Nat) : let v := d.rf (Reg.FLT_SEV x.src) 2 0
    let e := faultReport now x.src x.detail d
    (v ≤ 3 → (e.reg (Reg.FLT_CNT x.src)).toNat = min ((d.reg (Reg.FLT_CNT x.src)).toNat + 1) 0xFFFF ∧
      (v = 0 → e.flt.inbox = rest ∧ e.reg Reg.FLT_FIRST_STATUS = d.reg Reg.FLT_FIRST_STATUS) ∧
      (1 ≤ v → d.rb Reg.FLT_FIRST_STATUS 31 = false → e.rb Reg.FLT_FIRST_STATUS 31 = true ∧
        e.rf Reg.FLT_FIRST_STATUS 10 8 = v ∧ e.rf Reg.FLT_FIRST_STATUS 7 0 = x.src ∧ e.reg Reg.FLT_FIRST_DETAIL = x.detail) ∧
      (1 ≤ v → d.rb Reg.FLT_FIRST_STATUS 31 = true → e.rb Reg.FLT_FIRST_STATUS 30 = true ∧
        e.reg Reg.FLT_FIRST_DETAIL = d.reg Reg.FLT_FIRST_DETAIL) ∧
      (2 ≤ v → e.rb Reg.ATL_INT_PEND 0 = true) ∧
      (v = 3 → e.pins.faultEnd = some (now + 1000 * d.rf Reg.FLT_CTL 27 16)) ∧ (v < 3 → e.pins = d.pins)) ∧
    (5 ≤ v → e.stage = 4 ∧ e.heartsOff ∧ e.mgt.fix ≠ none ∧ e.rb Reg.ATL_INT_PEND 1 = true) := by
  dsimp only
  rw [faultReport_first hinbox hlisted]
  refine ⟨fun hlow => ?_, fun hhigh => ?_⟩
  · obtain ⟨hcnt, hzero, hrest⟩ := noted_leaves { d with flt := { d.flt with inbox := rest } } now (d.rf (Reg.FLT_SEV x.src) 2 0) x (fld_lt _ 2 0) hsrc
    rw [collect_low (d := { d with flt := { d.flt with inbox := rest } }) now hlow]
    exact ⟨hcnt, fun h => ⟨congrArg Flt.inbox (hzero h).1, (hzero h).2⟩, hrest⟩
  · obtain ⟨b, hb⟩ := collect_stops (d := { d with flt := { d.flt with inbox := rest } }) (x := x) now hhigh
    rw [hb]
    exact stop_leaves b now

end Sys2Proof.Machine
end

section
/-!
SUPPORT. What the lock unit and the threads do to the rest of the device when a task ends (R149, R150, R359 to R367): nothing but
their own state, the Easel's, their registers and fault reports.
-/

namespace Sys2Proof.Machine

/-- A property of devices that no end of a task without a transaction ends. -/
structure TaskClosed (P : Dev → Prop) : Prop where
  lku : ∀ {d} (x : Lku), P d → P { d with lku := x }
  krv : ∀ {d} (x : Krv), P d → P { d with krv := x }
  esl : ∀ {d} (x : Esl), P d → P { d with esl := x }
  raise : ∀ {d} (src x : Nat), P d → P (d.raise src x)
  reg : ∀ {d o} (v : Word), Reg.VRN_CTL < o → P d → P (d.setReg o v)

namespace TaskClosed

variable {P : Dev → Prop} {d : Dev}

theorem setThr (hP : TaskClosed P) (t : Nat) (x : Thread) (h : P d) : P (d.setThr t x) := hP.krv _ h

theorem updThr (hP : TaskClosed P) (t : Nat) (f : Thread → Thread) (h : P d) : P (d.updThr t f) := hP.krv _ h

theorem setLock (hP : TaskClosed P) (n : Nat) (l : Lock) (h : P d) : P (d.setLock n l) := hP.lku _ h

theorem setSem (hP : TaskClosed P) (n : Nat) (x : Sem) (h : P d) : P (d.setSem n x) := hP.lku _ h

theorem endWait (hP : TaskClosed P) (t : Nat) (w : Word) (h : P d) : P (d.endWait t w) := by
  unfold Dev.endWait
  dsimp only
  split
  · exact hP.setThr _ _ h
  · exact h

theorem wakeLock (hP : TaskClosed P) (a : Nat) (h : P d) : P (d.wakeLock a) := by
  refine foldl_inv _ P (fun e t he => ?_) _ _ h
  split
  · exact hP.endWait _ _ he
  · exact he

theorem lockReply (hP : TaskClosed P) (t holder code : Nat) (h : P d) : P (d.lockReply t holder code) := by
  unfold Dev.lockReply
  dsimp only
  split
  · split
    · exact hP.setThr _ _ h
    · exact h
  · exact h

theorem lockEnter (hP : TaskClosed P) (n : Nat) (w : Waiter) (h : P d) : P (d.lockEnter n w) := by
  unfold Dev.lockEnter
  dsimp only
  split
  · exact hP.setLock _ _ h
  · exact hP.lockReply _ _ _ (hP.setLock _ _ h)

theorem serveEntry (hP : TaskClosed P) (n : Nat) (h : P d) : P (d.serveEntry n) := by
  induction n generalizing d with
  | zero => exact h
  | succ n ih =>
    unfold Dev.serveEntry
    split
    · exact h
    · split
      · exact ih (hP.lockEnter _ _ (hP.lku _ h))
      · exact h

theorem lockFree (hP : TaskClosed P) (n : Nat) (broken : Bool) (h : P d) : P (d.lockFree n broken) := by
  unfold Dev.lockFree
  dsimp only
  split
  · exact hP.wakeLock _ (hP.lockReply _ _ _ (hP.setLock _ _ h))
  · exact hP.wakeLock _ (hP.serveEntry _ (hP.setLock _ _ h))

theorem lkuCapture (hP : TaskClosed P) (kind a holder : Nat) (h : P d) : P (d.lkuCapture kind a holder) := by
  unfold Dev.lkuCapture
  split
  · exact hP.reg _ (by decide) h
  · exact hP.reg _ (by decide) (hP.reg _ (by decide) (hP.reg _ (by decide) h))

theorem badRelease (hP : TaskClosed P) (a holder : Nat) (h : P d) : P (d.badRelease a holder) :=
  hP.raise _ _ (hP.lkuCapture _ _ _ (hP.reg _ (by decide) h))

theorem brokenRelease (hP : TaskClosed P) (a holder : Nat) (h : P d) : P (d.brokenRelease a holder) :=
  hP.raise _ _ (hP.lkuCapture _ _ _ (hP.reg _ (by decide) h))

theorem lockRelease (hP : TaskClosed P) (n holder : Nat) (h : P d) : P (d.lockRelease n holder) := by
  unfold Dev.lockRelease
  split
  · exact hP.lockFree _ _ h
  · exact hP.badRelease _ _ h

theorem semWrite (hP : TaskClosed P) (holder off : Nat) (h : P d) : P (d.semWrite holder off) := by
  unfold Dev.semWrite Dev.semRelease
  split
  · split
    · exact hP.setSem _ _ h
    · exact hP.badRelease _ _ h
  · exact h

theorem flushReleases (hP : TaskClosed P) (holder : Nat) (h : P d) : P (d.flushReleases holder) := by
  unfold Dev.flushReleases
  split
  · refine foldl_inv _ P (fun e r he => ?_) _ _ (hP.lku _ h)
    split
    · exact hP.semWrite _ _ he
    · exact hP.lockRelease _ _ he
  · exact h

theorem breakHolder (hP : TaskClosed P) (holder : Nat) (h : P d) : P (d.breakHolder holder) :=
  foldl_inv _ P (fun _ _ he => hP.setSem _ _ (hP.brokenRelease _ _ he)) _ _
    (foldl_inv _ P (fun _ _ he => hP.lockFree _ _ (hP.brokenRelease _ _ he)) _ _ (hP.flushReleases holder h))

theorem cancelSave (hP : TaskClosed P) (t : Nat) (h : P d) : P (d.cancelSave t) := by
  unfold Dev.cancelSave
  dsimp only
  split
  · exact h
  · split
    · exact hP.esl _ (hP.esl _ h)
    · exact hP.esl _ h

theorem stopThread (hP : TaskClosed P) (t : Nat) (h : P d) : P (d.stopThread t) := by
  obtain ⟨l, hwait⟩ := dropWait_is d t
  unfold Dev.stopThread
  rw [hwait]
  exact hP.updThr _ _ (hP.cancelSave t (hP.lku l h))

theorem endTaskToks (hP : TaskClosed P) (c tid : Nat) (h : P d) : P (d.endTaskToks c tid) := hP.esl _ h

theorem endTxnToks (hP : TaskClosed P) (k : Nat) (h : P d) : P (d.endTxnToks k) := foldl_inv _ P (fun _ _ he => hP.esl _ he) _ _ h

theorem countLost (hP : TaskClosed P) (c : Nat) (h : P d) : P (d.countLost c) :=
  hP.reg _ (by unfold Reg.VRN_CTL Reg.CLU_LOST_CNT; omega) h

/-- The end of a task that carries no transaction (R115, R150). -/
theorem killTask (hP : TaskClosed P) {t : Nat} (hfree : (d.thr t).hasTxn = false) (h : P d) : P (d.killTask t) := by
  have hbroken := hP.breakHolder (d.holderId t) h
  unfold Dev.killTask
  dsimp only
  split
  · next k htask =>
    have hno : k.hasTxn = false := by
      unfold Thread.hasTxn at hfree
      rw [htask] at hfree
      exact hfree
    rw [hno, if_neg (by decide)]
    exact hP.stopThread _ (hP.countLost _ (hP.endTaskToks _ _ hbroken))
  · exact hP.stopThread _ (hP.endTaskToks _ _ hbroken)

theorem setRcd (hP : TaskClosed P) (c i : Nat) (r : Option Rec) (h : P d) : P (d.setRcd c i r) := hP.esl _ h

/-- Step 4 of a drain (R547). -/
theorem dropFree (hP : TaskClosed P) (c : Nat) (h : P d) : P (d.dropFree c) := by
  unfold Dev.dropFree
  refine foldl_inv _ P (fun e i he => ?_) _ _ (foldl_inv _ P (fun e t he => ?_) _ _ (foldl_inv _ P (fun e t he => ?_) _ _ h))
  · split
    · split
      · exact he
      · split
        · exact hP.countLost _ (hP.setRcd _ _ _ (hP.esl _ he))
        · exact hP.countLost _ (hP.setRcd _ _ _ he)
    · exact he
  · split
    · exact he
    · next hno => exact hP.killTask (Bool.eq_false_iff.mpr hno) he
  · split
    · exact he
    · exact hP.updThr _ _ (hP.cancelSave _ he)

theorem breakCluster (hP : TaskClosed P) (c : Nat) (h : P d) : P (d.breakCluster c) :=
  foldl_inv _ P (fun _ _ he => hP.breakHolder _ he) _ _ (hP.lku _ h)

end TaskClosed

end Sys2Proof.Machine
end

section
/-!
SUPPORT. The end of a cluster's drain (R547).
-/

namespace Sys2Proof.Machine

/-- The registers up to Varnish's and the drains stand. -/
def drainKeeps (d e : Dev) : Prop := e.flt.drains = d.flt.drains ∧ ∀ o, o ≤ Reg.VRN_CTL → e.reg o = d.reg o

theorem drainKeeps_refl (d : Dev) : drainKeeps d d := ⟨rfl, fun _ _ => rfl⟩

theorem drainKeeps_setReg {d e : Dev} (h : drainKeeps d e) {o : Nat} (ho : Reg.VRN_CTL < o) (v : Word) : drainKeeps d (e.setReg o v) :=
  ⟨h.1, fun p hp => (e.reg_setReg_ne _ _ _ (by omega)).trans (h.2 p hp)⟩

theorem drainKeeps_closed (d : Dev) : TaskClosed (drainKeeps d) where
  lku _ h := h
  krv _ h := h
  esl _ h := h
  raise _ _ h := h
  reg _ ho h := drainKeeps_setReg h ho _

theorem sameVrn_closed (d : Dev) : TaskClosed (fun e => e.vrn = d.vrn) where
  lku _ h := h
  krv _ h := h
  esl _ h := h
  raise _ _ h := h
  reg _ _ h := h

theorem drainKeeps_vrn {d e : Dev} (h : drainKeeps d e) (x : Vrn) : drainKeeps d { e with vrn := x } := h

theorem drainKeeps_bump {d e : Dev} (h : drainKeeps d e) {o : Nat} (ho : Reg.VRN_CTL < o) (n : Nat) : drainKeeps d (e.bump o n) :=
  drainKeeps_setReg h ho _

theorem drainKeeps_abort {d e : Dev} (h : drainKeeps d e) (k cause : Nat) : drainKeeps d (e.abortTxn k cause) := by
  by_cases halive : (e.txn k).alive = true
  · have hset : drainKeeps d (e.setTxn k (txnDead (e.txn k) cause)) := drainKeeps_vrn h _
    have hcounted := drainKeeps_bump ((drainKeeps_closed d).endTxnToks k hset) (o := Reg.VRN_ABORT_CNT (cause % 16))
      (by unfold Reg.VRN_CTL Reg.VRN_ABORT_CNT; omega) 1
    rw [abort_eq halive]
    exact drainKeeps_vrn hcounted _
  · rw [abort_dead halive]
    exact h

/-- An error that is counted changes the counts and the reports only (R541). -/
theorem countErr_leaves (d : Dev) (now key limit unit : Nat) : let e := d.countErr now key limit unit
    (∀ o, e.reg o = d.reg o) ∧ e.flt.drains = d.flt.drains ∧ e.vrn = d.vrn := by
  unfold Dev.countErr Dev.raiseIf
  dsimp only
  split
  · exact ⟨fun _ => rfl, rfl, rfl⟩
  · exact ⟨fun _ => rfl, rfl, rfl⟩

/-- Step 3 of a drain for one transaction (R547). -/
def Dev.migrate (d : Dev) (now c k : Nat) : Dev :=
  let x := d.txn k
  match x.phase with
  | .active | .ending | .commitWait => d.abortTxn k 0xA
  | .aborted cause =>
    if cause = 0xC then d
    else (if cause = 5 then d.countErr now (256 * 256 + c) Src.cluErrLimit c else d).setTxn k { x with phase := .aborted 0xA }
  | _ => d

theorem drainKeeps_migrate {d e : Dev} (h : drainKeeps d e) (now c k : Nat) : drainKeeps d (e.migrate now c k) := by
  unfold Dev.migrate
  dsimp only
  split
  · exact drainKeeps_abort h _ _
  · exact drainKeeps_abort h _ _
  · exact drainKeeps_abort h _ _
  · split
    · exact h
    · split
      · obtain ⟨hreg, hdrains, -⟩ := countErr_leaves e now (256 * 256 + c) Src.cluErrLimit c
        exact ⟨hdrains.trans h.1, fun o ho => (hreg o).trans (h.2 o ho)⟩
      · exact h
  · exact h

theorem migrate_other (d : Dev) (now c : Nat) {k j : Nat} (hne : j ≠ k) : (d.migrate now c k).txn j = d.txn j := by
  have habort : (d.abortTxn k 0xA).txn j = d.txn j := ((endsOnly.refl k d).abortTxn 0xA).txn hne
  unfold Dev.migrate
  dsimp only
  split
  · exact habort
  · exact habort
  · exact habort
  · split
    · rfl
    · rw [Dev.txn_setTxn_ne _ _ _ _ hne]
      split
      · exact txn_of_vrn (countErr_leaves d now _ _ _).2.2 j
      · rfl
  · rfl

/-- A transaction that runs is migrated (R547). -/
theorem migrate_active {d : Dev} {k : Nat} (now c : Nat) (h : (d.txn k).phase = .active) : ((d.migrate now c k).txn k).phase = .aborted 0xA := by
  have halive : (d.txn k).alive = true := by
    unfold Txn.alive
    rw [h]
  unfold Dev.migrate
  dsimp only
  rw [h]
  exact abortTxn_phase halive 0xA

/-- A migrated transaction stays migrated. -/
theorem migrate_migrated {d : Dev} {k : Nat} (now c j : Nat) (h : (d.txn k).phase = .aborted 0xA) : ((d.migrate now c j).txn k).phase = .aborted 0xA := by
  obtain rfl | hne := eq_or_ne j k
  · unfold Dev.migrate
    dsimp only
    rw [h]
    dsimp only
    rw [if_neg (by decide), if_neg (by decide), Dev.txn_setTxn_self]
  · rw [migrate_other d now c hne.symm]
    exact h

theorem migrateAll_eq (d : Dev) (now c : Nat) :
    d.migrateAll now c = (tkeys (fun k (_ : Txn) => decide (k / 256 = c)) d.vrn.txns).foldl (fun e k => e.migrate now c k) d := rfl

theorem tkeys_of_ne {α : Type} {p : Nat → α → Bool} {z : α} {m : Tab α} {k : Nat} (hne : tget z m k ≠ z) (hp : ∀ x, p k x = true) :
    k ∈ tkeys p m := by
  have hmem : k ∈ m.map (·.1) := by
    by_contra hno
    exact hne (tget_of_not_mem hno)
  obtain ⟨e, he, rfl⟩ := List.mem_map.mp hmem
  exact List.mem_map.mpr ⟨e, List.mem_filter.mpr ⟨he, hp _⟩, rfl⟩

/-- Every running transaction of the cluster is migrated (R547). -/
theorem migrateAll_active {d : Dev} {k : Nat} (now : Nat) (h : (d.txn k).phase = .active) : ((d.migrateAll now (k / 256)).txn k).phase = .aborted 0xA := by
  have hmem : k ∈ tkeys (fun k' (_ : Txn) => decide (k' / 256 = k / 256)) d.vrn.txns := by
    refine tkeys_of_ne (z := Txn.reset) (fun hreset => ?_) fun _ => decide_eq_true rfl
    have hphase : (d.txn k).phase = Txn.reset.phase := congrArg Txn.phase hreset
    rw [h] at hphase
    cases hphase
  obtain ⟨p, q, hsplit, hfirst⟩ := List.eq_append_cons_of_mem hmem
  have hbefore : ∀ b : Dev, b.txn k = d.txn k → (p.foldl (fun e j => e.migrate now (k / 256) j) b).txn k = d.txn k := fun b hb =>
    foldl_inv' _ (fun e : Dev => e.txn k = d.txn k) p (fun e j hj he => (migrate_other e now _ fun heq => hfirst (by rw [heq]; exact hj)).trans he) b hb
  rw [migrateAll_eq, hsplit, List.foldl_append, List.foldl_cons]
  refine foldl_inv _ (fun e : Dev => (e.txn k).phase = .aborted 0xA) (fun e j he => migrate_migrated now _ j he) q _ (migrate_active now _ ?_)
  rw [hbefore d rfl]
  exact h

/-- The drains without a cluster's. -/
def Dev.undrained (d : Dev) (c : Nat) : Dev := { d with flt := { d.flt with drains := d.flt.drains.filter (fun e => decide (e.cluster ≠ c)) } }

theorem undrained_reg (d : Dev) (c o : Nat) : (d.undrained c).reg o = d.reg o := rfl

theorem undrained_txn (d : Dev) (c k : Nat) : (d.undrained c).txn k = d.txn k := rfl

theorem undrained_drains (d : Dev) (c : Nat) : ∀ z ∈ (d.undrained c).flt.drains, z.cluster ≠ c :=
  fun _ hz => of_decide_eq_true (List.mem_filter.mp hz).2

/-- Steps 3 to 5 of a drain (R547). -/
def Dev.emptied (d : Dev) (now c : Nat) : Dev := (((d.migrateAll now c).dropFree c).breakCluster c).dropMessages c

theorem dropMessages_reg (d : Dev) (c o : Nat) : (d.dropMessages c).reg o = d.reg o := rfl

theorem dropMessages_flt (d : Dev) (c : Nat) : (d.dropMessages c).flt = d.flt := rfl

theorem dropMessages_vrn (d : Dev) (c : Nat) : (d.dropMessages c).vrn = d.vrn := rfl

theorem emptied_keeps (d : Dev) (now c : Nat) : drainKeeps d (d.emptied now c) := by
  have hmigrated : drainKeeps d (d.migrateAll now c) := by
    rw [migrateAll_eq]
    exact foldl_inv _ (drainKeeps d) (fun e k he => drainKeeps_migrate he now c k) _ d (drainKeeps_refl d)
  obtain ⟨hdrains, hregs⟩ := (drainKeeps_closed d).breakCluster c ((drainKeeps_closed d).dropFree c hmigrated)
  unfold Dev.emptied
  refine ⟨?_, fun o ho => ?_⟩
  · rw [dropMessages_flt, hdrains]
  · rw [dropMessages_reg, hregs o ho]

theorem emptied_vrn (d : Dev) (now c : Nat) : (d.emptied now c).vrn = (d.migrateAll now c).vrn := by
  unfold Dev.emptied
  generalize d.migrateAll now c = m
  rw [dropMessages_vrn]
  exact (sameVrn_closed m).breakCluster c ((sameVrn_closed m).dropFree c rfl)

theorem leaveService_eq (d : Dev) (now c : Nat) :
    d.leaveService now c = (((d.setRb (Reg.FLT_UNITS 0) c true).undrained c).emptied now c).startGating c := by
  unfold Dev.leaveService Dev.emptied Dev.undrained
  dsimp only

theorem startGating_gate (d : Dev) (c : Nat) : (d.startGating c).rb (Reg.PWR_CL_W0 c) 30 = true := by
  unfold Dev.startGating
  dsimp only
  split
  · rw [rb_setClp]
    exact Dev.rb_setRb_self _ _ _ _ (by omega)
  · rw [rb_setClp]
    exact Dev.rb_setRb_self _ _ _ _ (by omega)

theorem setUp_flt {d e : Dev} (h : setUp d e) : e.flt = d.flt := by
  obtain ⟨_, _, _, rfl⟩ := h
  rfl

theorem setUp_vrn {d e : Dev} (h : setUp d e) : e.vrn = d.vrn := by
  obtain ⟨_, _, _, rfl⟩ := h
  rfl

/-- What leaving service leaves of a cluster (R547). -/
theorem leaveService_leaves (d : Dev) (now : Nat) {c : Nat} (hc : c < 24) : let e := d.leaveService now c
    e.rb (Reg.FLT_UNITS 0) c = true ∧ (∀ z ∈ e.flt.drains, z.cluster ≠ c) ∧ e.rb (Reg.PWR_CL_W0 c) 30 = true ∧
      ∀ k, k / 256 = c → (d.txn k).phase = .active → (e.txn k).phase = .aborted 0xA := by
  have hout : (d.setRb (Reg.FLT_UNITS 0) c true).rb (Reg.FLT_UNITS 0) c = true := Dev.rb_setRb_self _ _ _ _ (by omega)
  have htxn : ∀ k, (d.setRb (Reg.FLT_UNITS 0) c true).txn k = d.txn k := fun k => Dev.txn_setRb _ _ _ _ _
  dsimp only
  rw [leaveService_eq]
  generalize d.setRb (Reg.FLT_UNITS 0) c true = a at hout htxn ⊢
  obtain ⟨hdrains, hregs⟩ := emptied_keeps (a.undrained c) now c
  have hvrn := emptied_vrn (a.undrained c) now c
  obtain ⟨hgated, hrest⟩ := gating_ok ((a.undrained c).emptied now c) c
  refine ⟨?_, fun z hz => ?_, startGating_gate _ c, fun k hk h => ?_⟩
  · rw [rb_of_reg (hrest _ (by unfold Reg.FLT_UNITS Reg.PWR_CL_W0; omega)), rb_of_reg (hregs _ (by decide)), rb_of_reg (undrained_reg _ _ _)]
    exact hout
  · rw [setUp_flt hgated, hdrains] at hz
    exact undrained_drains a c z hz
  · rw [txn_of_vrn ((setUp_vrn hgated).trans hvrn)]
    subst hk
    refine migrateAll_active now ?_
    rw [undrained_txn, htxn]
    exact h

/-- FLT_IST_STATUS of an operation's end touches that register alone (R550). -/
theorem istDone_reg_ne (d : Dev) (n : Nat) {o : Nat} (ho : o ≠ Reg.FLT_IST_STATUS) : (d.istDone n).reg o = d.reg o := Dev.reg_setReg_ne _ _ _ _ ho

/-- What the end of a drain leaves (R547). -/
theorem drainTimeout_leaves {d : Dev} {now c t : Nat} {y : Drain} (hc : c < 24) (hfind : d.flt.drains.find? (fun y => decide (y.cluster = c)) = some y)
    (hsince : y.since = some t) (hlate : t + 1000 * d.rf Reg.FLT_CTL 15 0 ≤ now)
    (hrun : ∀ k ∈ d.vrn.txns, k.1 / 256 = c → k.2.irrev ≠ .granted ∨ k.2.phase = .free) : let e := drainTimeout now c d
    e.rb (Reg.FLT_UNITS 0) c = true ∧ (∀ z ∈ e.flt.drains, z.cluster ≠ c) ∧ e.rb (Reg.PWR_CL_W0 c) 30 = true ∧
      ∀ k, k / 256 = c → (d.txn k).phase = .active → (e.txn k).phase = .aborted 0xA := by
  have hall : (d.vrn.txns.filter (fun x => decide (x.1 / 256 = c) && decide (x.2.phase ≠ .free))).all (fun x => decide (x.2.irrev ≠ .granted)) = true := by
    refine List.all_eq_true.mpr fun x hx => decide_eq_true ?_
    obtain ⟨hmem, htest⟩ := List.mem_filter.mp hx
    obtain ⟨hcluster, hbusy⟩ := Bool.and_eq_true_iff.mp htest
    exact (hrun x hmem (of_decide_eq_true hcluster)).resolve_right (of_decide_eq_true hbusy)
  have hend : drainTimeout now c d = (d.leaveService now c).istDone 0 ∨ drainTimeout now c d = d.leaveService now c := by
    unfold drainTimeout
    rw [hfind]
    dsimp only
    rw [hsince]
    dsimp only
    rw [decide_eq_true hlate, hall, Bool.true_or, Bool.true_and, if_pos rfl]
    split
    · exact .inl rfl
    · exact .inr rfl
  obtain ⟨hout, hdrains, hgate, htxn⟩ := leaveService_leaves d now hc
  dsimp only at hout hdrains hgate htxn ⊢
  obtain h | h := hend
  · rw [h]
    generalize d.leaveService now c = a at hout hdrains hgate htxn ⊢
    refine ⟨(rb_of_reg (istDone_reg_ne a 0 (by decide)) c).trans hout, fun z hz => hdrains z ?_,
      (rb_of_reg (istDone_reg_ne a 0 (by unfold Reg.PWR_CL_W0 Reg.FLT_IST_STATUS; omega)) 30).trans hgate, fun k hk hact => ?_⟩
    · exact (congrArg Flt.drains (Dev.setReg_flt a Reg.FLT_IST_STATUS (wd 0))) ▸ hz
    · exact (congrArg Txn.phase (Dev.txn_setReg a Reg.FLT_IST_STATUS (wd 0) k)).trans (htxn k hk hact)
  · rw [h]
    exact ⟨hout, hdrains, hgate, htxn⟩

end Sys2Proof.Machine
end

section
/-!
SUPPORT. In-service test (R546, R550): out, BIST and return of a unit.
-/

namespace Sys2Proof.Machine

/-! What decides whether a unit is in service. -/

/-- The registers and marks that say which units are in service and which have failed stand. -/
def unitsSame (d e : Dev) : Prop :=
  (∀ n, e.reg (Reg.FLT_UNITS n) = d.reg (Reg.FLT_UNITS n)) ∧ e.reg Reg.PRS_SLICE_CTL = d.reg Reg.PRS_SLICE_CTL ∧ e.flt.engOut = d.flt.engOut

section
variable {d e : Dev} (h : unitsSame d e)
include h

theorem unitFailed_congr (kind i : Nat) : e.unitFailed kind i = d.unitFailed kind i := by
  obtain ⟨hunits, -, -⟩ := h
  unfold Dev.unitFailed
  split
  · exact rb_of_reg (hunits 2) i
  · exact rb_of_reg (hunits 3) i
  · exact rb_of_reg (hunits 3) (8 + i)

theorem cluServes_congr (i : Nat) : e.cluServes i = d.cluServes i := by
  obtain ⟨hunits, -, -⟩ := h
  unfold Dev.cluServes
  rw [rb_of_reg (hunits 0), rb_of_reg (hunits 1), rb_of_reg (hunits 2)]

theorem slicesIn_congr : e.slicesIn = d.slicesIn := by
  obtain ⟨hunits, hslice, -⟩ := h
  unfold Dev.slicesIn
  rw [rf_of_reg hslice, rf_of_reg (hunits 3)]

theorem engineIn_congr (i : Nat) : e.engineIn i = d.engineIn i := by
  obtain ⟨hunits, -, hout⟩ := h
  unfold Dev.engineIn
  rw [rb_of_reg (hunits 3), hout]

theorem unitIn_congr (kind i : Nat) : e.unitIn kind i = d.unitIn kind i := by
  unfold Dev.unitIn
  split
  · exact cluServes_congr h i
  · rw [slicesIn_congr h]
  · exact engineIn_congr h i

end

theorem unitsSame_setReg (d : Dev) {o : Nat} (ho : o < Reg.FLT_UNITS 0) (v : Word) : unitsSame d (d.setReg o v) := by
  refine ⟨fun n => Dev.reg_setReg_ne _ _ _ _ ?_, Dev.reg_setReg_ne _ _ _ _ ?_, congrArg Flt.engOut (Dev.setReg_flt _ _ _)⟩
  · unfold Reg.FLT_UNITS at *
    omega
  · unfold Reg.FLT_UNITS at ho
    unfold Reg.PRS_SLICE_CTL
    omega

theorem testBit_rf (d : Dev) (o : Nat) {hi i : Nat} (h : i ≤ hi) : (d.rf o hi 0).testBit i = d.rb o i := by
  unfold Dev.rf Dev.rb fld bit
  rw [Nat.testBit_mod_two_pow, Nat.testBit_div_two_pow, decide_eq_true (by omega), Bool.true_and, Nat.add_zero]

/-- A slice is in service while it is neither isolated nor failed (R213, R546). -/
theorem slicesIn_testBit (d : Dev) {i : Nat} (h : i < 8) : d.slicesIn.testBit i = !(d.rb Reg.PRS_SLICE_CTL i || d.rb (Reg.FLT_UNITS 3) i) := by
  have hlt : d.rf Reg.PRS_SLICE_CTL 7 0 ||| d.rf (Reg.FLT_UNITS 3) 7 0 < 2 ^ 8 := Nat.or_lt_two_pow (fld_lt _ 7 0) (fld_lt _ 7 0)
  have hbit := Nat.testBit_two_pow_sub_succ hlt i
  have hmask : d.slicesIn = 2 ^ 8 - (d.rf Reg.PRS_SLICE_CTL 7 0 ||| d.rf (Reg.FLT_UNITS 3) 7 0).succ := by
    unfold Dev.slicesIn
    omega
  rw [hmask, hbit, decide_eq_true h, Bool.true_and, Nat.testBit_or, testBit_rf _ _ (by omega), testBit_rf _ _ (by omega)]

/-- The units of FLT_IST_CMD: 24 clusters, 8 slices and 16 lookup engines (R550). -/
theorem istUnit_cases {kind i : Nat} (h : istUnit kind i = true) : kind = 0 ∧ i < 24 ∨ kind = 1 ∧ i < 8 ∨ kind = 2 ∧ i < 16 := by
  have hi : i < [24, 8, 16].getD kind 0 := of_decide_eq_true h
  obtain rfl | rfl | rfl | hk : kind = 0 ∨ kind = 1 ∨ kind = 2 ∨ 3 ≤ kind := by omega
  · exact .inl ⟨rfl, hi⟩
  · exact .inr (.inl ⟨rfl, hi⟩)
  · exact .inr (.inr ⟨rfl, hi⟩)
  · rw [List.getD_eq_default _ _ hk] at hi
    omega

theorem unitFailed_cluster (d : Dev) (i : Nat) : d.unitFailed 0 i = d.rb (Reg.FLT_UNITS 2) i := rfl

theorem unitFailed_slice (d : Dev) (i : Nat) : d.unitFailed 1 i = d.rb (Reg.FLT_UNITS 3) i := rfl

theorem unitFailed_engine (d : Dev) (i : Nat) : d.unitFailed 2 i = d.rb (Reg.FLT_UNITS 3) (8 + i) := rfl

theorem unitIn_cluster (d : Dev) (i : Nat) : d.unitIn 0 i = d.cluServes i := rfl

theorem unitIn_slice (d : Dev) (i : Nat) : d.unitIn 1 i = d.slicesIn.testBit i := rfl

theorem unitIn_engine (d : Dev) (i : Nat) : d.unitIn 2 i = d.engineIn i := rfl

/-- A failed unit is out of service (R546). -/
theorem unitIn_failed {d : Dev} {kind i : Nat} (hunit : istUnit kind i = true) (h : d.unitFailed kind i = true) : d.unitIn kind i = false := by
  obtain ⟨rfl, hi⟩ | ⟨rfl, hi⟩ | ⟨rfl, hi⟩ := istUnit_cases hunit
  · rw [unitFailed_cluster] at h
    rw [unitIn_cluster, Dev.cluServes, h, Bool.not_true, Bool.and_false]
  · rw [unitFailed_slice] at h
    rw [unitIn_slice, slicesIn_testBit d hi, h, Bool.or_true, Bool.not_true]
  · rw [unitFailed_engine] at h
    rw [unitIn_engine, Dev.engineIn, h, Bool.not_true, Bool.false_and]

/-- Marking a unit failed leaves the collector's state (R546). -/
theorem markFailed_flt (d : Dev) (kind i : Nat) : (d.markFailed kind i).flt = d.flt := by
  unfold Dev.markFailed
  split
  · rw [Dev.setRb_flt, Dev.setRb_flt, Dev.setRb_flt]
  · rw [Dev.setRb_flt, Dev.setRb_flt]
  · rw [Dev.setRb_flt]

theorem markFailed_failed (d : Dev) {kind i : Nat} (hunit : istUnit kind i = true) : (d.markFailed kind i).unitFailed kind i = true := by
  obtain ⟨rfl, hi⟩ | ⟨rfl, hi⟩ | ⟨rfl, hi⟩ := istUnit_cases hunit
  · rw [unitFailed_cluster, Dev.markFailed, rb_of_reg (Dev.reg_setRb_ne _ _ _ _ _ (by decide)), rb_of_reg (Dev.reg_setRb_ne _ _ _ _ _ (by decide))]
    exact Dev.rb_setRb_self _ _ _ _ (by omega)
  · rw [unitFailed_slice, Dev.markFailed, rb_of_reg (Dev.reg_setRb_ne _ _ _ _ _ (by decide))]
    exact Dev.rb_setRb_self _ _ _ _ (by omega)
  · have hmark : d.markFailed 2 i = d.setRb (Reg.FLT_UNITS 3) (8 + i) true := rfl
    rw [unitFailed_engine, hmark]
    exact Dev.rb_setRb_self _ _ _ _ (by omega)

/-! The results of an operation (R550). -/

theorem istDone_flt (d : Dev) (n : Nat) : (d.istDone n).flt = d.flt := Dev.setReg_flt _ _ _

theorem istDone_status (d : Dev) {n : Nat} (h : n < 2 ^ 32) : ((d.istDone n).reg Reg.FLT_IST_STATUS).toNat = n :=
  (congrArg BitVec.toNat (Dev.reg_setReg_self d Reg.FLT_IST_STATUS (wd n))).trans (wd_toNat n h)

theorem istDone_units (d : Dev) (n : Nat) : unitsSame d (d.istDone n) := unitsSame_setReg d (by decide) _

theorem istBusy_status (d : Dev) : (d.istBusy.reg Reg.FLT_IST_STATUS).toNat = 2 ^ 31 := istDone_status d (n := 2 ^ 31) (by omega)

/-- Naming a unit touches FLT_IST_CMD alone. -/
theorem istName_reg_ne (d : Dev) (kind i : Nat) {o : Nat} (ho : o ≠ Reg.FLT_IST_CMD) : (d.istName kind i).reg o = d.reg o := Dev.reg_setReg_ne _ _ _ _ ho

theorem istName_flt (d : Dev) (kind i : Nat) : (d.istName kind i).flt = d.flt := Dev.setReg_flt _ _ _

theorem istName_units (d : Dev) (kind i : Nat) : unitsSame d (d.istName kind i) := unitsSame_setReg d (by decide) _

section
variable {d e : Dev} (hreg : ∀ o, o ≠ Reg.FLT_IST_CMD → e.reg o = d.reg o) (hflt : e.flt = d.flt)
include hreg hflt

theorem unitsSame_named : unitsSame d e :=
  ⟨fun n => hreg _ (by unfold Reg.FLT_UNITS Reg.FLT_IST_CMD; omega), hreg _ (by decide), congrArg Flt.engOut hflt⟩

theorem cluActive_named (c : Nat) : e.cluActive c = d.cluActive c := by
  unfold Dev.cluActive Dev.cluRuns Dev.cluClocked Dev.draining
  rw [cluServes_congr (unitsSame_named hreg hflt), rb_of_reg (hreg _ (by decide)), hflt,
    rb_of_reg (hreg _ (by unfold Reg.PWR_CL_W0 Reg.FLT_IST_CMD; omega))]

theorem lastUnit_named (kind i : Nat) : e.lastUnit kind i = d.lastUnit kind i := by
  have hunits := unitsSame_named hreg hflt
  unfold Dev.lastUnit
  split
  · simp only [cluActive_named hreg hflt, rb_of_reg (hunits.1 1)]
  · rw [slicesIn_congr hunits]
  · simp only [engineIn_congr hunits]

end

section
variable {d : Dev} {kind i : Nat} {refused : Dev → Bool} (hidle : d.rb Reg.FLT_IST_STATUS 31 = false)
include hidle

/-- A refused operation (R550). -/
theorem istOp_refused (body : Dev → Dev) (h : d.unitFailed kind i = true ∨ refused (d.istName kind i) = true) :
    d.istOp kind i refused body = (d.istName kind i).istDone 2 := by
  unfold Dev.istOp
  rw [hidle, if_neg (by decide)]
  dsimp only
  rw [unitFailed_congr (istName_units d kind i)]
  refine if_pos ?_
  obtain h | h := h
  · rw [h, Bool.or_true, Bool.true_or]
  · rw [h, Bool.or_true]

/-- An operation that is admitted (R550). -/
theorem istOp_runs (body : Dev → Dev) (hunit : istUnit kind i = true) (hgood : d.unitFailed kind i = false) (h : refused (d.istName kind i) = false) :
    d.istOp kind i refused body = body (d.istName kind i) := by
  unfold Dev.istOp
  rw [hidle, if_neg (by decide)]
  dsimp only
  rw [unitFailed_congr (istName_units d kind i), hunit, hgood, h]
  rfl

end

/-- A device that differs from another in registers only. -/
def regsOnly (d e : Dev) : Prop := ∃ r, e = { d with regs := r }

theorem regsOnly_setReg {d e : Dev} (h : regsOnly d e) (o : Nat) (v : Word) : regsOnly d (e.setReg o v) := by
  obtain ⟨_, rfl⟩ := h
  exact ⟨_, rfl⟩

theorem regsOnly_eq {d e : Dev} (h : regsOnly d e) : e = { d with regs := e.regs } := by
  obtain ⟨_, rfl⟩ := h
  rfl

/-- What a refusal leaves: registers only, with result 2 (R550). -/
theorem istRefused_leaves (d : Dev) (kind i : Nat) : let e := (d.istName kind i).istDone 2
    (e.reg Reg.FLT_IST_STATUS).toNat = 2 ∧ e = { d with regs := e.regs } :=
  ⟨istDone_status _ (by omega), regsOnly_eq (regsOnly_setReg (regsOnly_setReg ⟨d.regs, rfl⟩ _ _) _ _)⟩

/-! Out (R547, R550). -/

theorem startWaking_is (d : Dev) (c : Nat) : ∃ x, d.startWaking c = (d.setRb (Reg.PWR_CL_W0 c) 30 false).setClp c x := by
  unfold Dev.startWaking
  dsimp only
  split
  · exact ⟨_, rfl⟩
  · exact ⟨_, rfl⟩

theorem startGating_is (d : Dev) (c : Nat) : ∃ x, d.startGating c = (d.setRb (Reg.PWR_CL_W0 c) 30 true).setClp c x := by
  unfold Dev.startGating
  dsimp only
  split
  · exact ⟨_, rfl⟩
  · exact ⟨_, rfl⟩

theorem startWaking_flt (d : Dev) (c : Nat) : (d.startWaking c).flt = d.flt := by
  obtain ⟨x, hx⟩ := startWaking_is d c
  rw [hx, setClp_flt, Dev.setRb_flt]

theorem startWaking_reg_ne (d : Dev) (c : Nat) {o : Nat} (ho : o ≠ Reg.PWR_CL_W0 c) : (d.startWaking c).reg o = d.reg o := by
  obtain ⟨x, hx⟩ := startWaking_is d c
  rw [hx, reg_setClp, Dev.reg_setRb_ne _ _ _ _ _ ho]

theorem startGating_flt (d : Dev) (c : Nat) : (d.startGating c).flt = d.flt := by
  obtain ⟨x, hx⟩ := startGating_is d c
  rw [hx, setClp_flt, Dev.setRb_flt]

/-- Taking a spare leaves the collector's state (R546). -/
theorem takeSpare_flt (d : Dev) : d.takeSpare.2.flt = d.flt := by
  have hspare : d.takeSpare.2 = { d with free := d.free + 1 } ∨ ∃ c, d.takeSpare.2 =
      (({ d with free := d.free + 1 } : Dev).setRb (Reg.FLT_UNITS 1) c false).startWaking c := by
    unfold Dev.takeSpare Dev.pick
    dsimp only
    split
    · exact .inr ⟨_, rfl⟩
    · exact .inl rfl
  obtain h | ⟨c, h⟩ := hspare
  · rw [h]
  · rw [h, startWaking_flt, Dev.setRb_flt]

/-- Out of a cluster in service (R547): it drains, a spare taken first. -/
theorem istOut_cluster {d : Dev} {i : Nat} (now : Nat) (hunit : istUnit 0 i = true) (hidle : d.rb Reg.FLT_IST_STATUS 31 = false)
    (hgood : d.unitFailed 0 i = false) (hlast : (d.istName 0 i).lastUnit 0 i = false) (hin : (d.istName 0 i).cluServes i = true) :
    ∃ since, let p := (d.istName 0 i).takeSpare
      istOut now 0 i d = { p.2.istBusy with flt := { p.2.flt with drains := p.2.flt.drains ++ [⟨i, since, p.1⟩] } } :=
  ⟨_, (istOp_runs hidle _ hunit hgood hlast).trans (if_pos hin)⟩

/-- Out of a slice (R550). -/
theorem istOut_slice {d : Dev} {i : Nat} (now : Nat) (hunit : istUnit 1 i = true) (hidle : d.rb Reg.FLT_IST_STATUS 31 = false)
    (hgood : d.unitFailed 1 i = false) (hlast : (d.istName 1 i).lastUnit 1 i = false) :
    istOut now 1 i d = ((d.istName 1 i).setRb Reg.PRS_SLICE_CTL i true).istDone 0 := istOp_runs hidle _ hunit hgood hlast

/-- Out of a lookup engine (R550). -/
theorem istOut_engine {d : Dev} {i : Nat} (now : Nat) (hunit : istUnit 2 i = true) (hidle : d.rb Reg.FLT_IST_STATUS 31 = false)
    (hgood : d.unitFailed 2 i = false) (hlast : (d.istName 2 i).lastUnit 2 i = false) : let a := d.istName 2 i
    istOut now 2 i d = { a.istDone 0 with flt := { a.flt with engOut := a.flt.engOut ||| 2 ^ i } } := istOp_runs hidle _ hunit hgood hlast

/-- BIST of a unit (R547, R550). -/
theorem istBist_unit {d : Dev} {kind i : Nat} (hunit : istUnit kind i = true) (hidle : d.rb Reg.FLT_IST_STATUS 31 = false)
    (hgood : d.unitFailed kind i = false) (hout : (d.istName kind i).unitIn kind i = false) : let a := d.istName kind i
    let b : Dev := { a.istBusy with flt := { a.flt with bist := some (kind, i) } }
    istBist kind i d = if kind = 0 then b.bistWake i else b := istOp_runs hidle _ hunit hgood hout

/-- Return of a cluster (R550). -/
theorem istReturn_cluster {d : Dev} {i : Nat} (hunit : istUnit 0 i = true) (hidle : d.rb Reg.FLT_IST_STATUS 31 = false)
    (hgood : d.unitFailed 0 i = false) (hout : (d.istName 0 i).unitIn 0 i = false) : let a := (d.istName 0 i).setRb (Reg.FLT_UNITS 0) i false
    istReturn 0 i d = if 22 ≤ (List.range 24).countP a.cluActive then (a.setRb (Reg.FLT_UNITS 1) i true).istDone 0
      else ((a.setRb (Reg.FLT_UNITS 1) i false).startWaking i).istDone 0 := istOp_runs hidle _ hunit hgood hout

/-- Return of a slice (R550). -/
theorem istReturn_slice {d : Dev} {i : Nat} (hunit : istUnit 1 i = true) (hidle : d.rb Reg.FLT_IST_STATUS 31 = false)
    (hgood : d.unitFailed 1 i = false) (hout : (d.istName 1 i).unitIn 1 i = false) :
    istReturn 1 i d = ((d.istName 1 i).setRb Reg.PRS_SLICE_CTL i false).istDone 0 := istOp_runs hidle _ hunit hgood hout

/-- Return of a lookup engine (R550). -/
theorem istReturn_engine {d : Dev} {i : Nat} (hunit : istUnit 2 i = true) (hidle : d.rb Reg.FLT_IST_STATUS 31 = false)
    (hgood : d.unitFailed 2 i = false) (hout : (d.istName 2 i).unitIn 2 i = false) : let a := d.istName 2 i
    istReturn 2 i d = { a.istDone 0 with flt := { a.flt with engOut := (a.flt.engOut ||| 2 ^ i) - 2 ^ i } } :=
  istOp_runs hidle _ hunit hgood hout

theorem engineIn_flt (d : Dev) (f : Flt) (i : Nat) : ({ d with flt := f } : Dev).engineIn i = (!d.rb (Reg.FLT_UNITS 3) (8 + i) && !f.engOut.testBit i) := rfl

theorem reg_flt (d : Dev) (f : Flt) (o : Nat) : ({ d with flt := f } : Dev).reg o = d.reg o := rfl

/-- A set bit taken away is clear. -/
theorem testBit_sub_self {x i : Nat} (h : x.testBit i = true) : (x - 2 ^ i).testBit i = false := by
  rw [Nat.testBit_eq_decide_div_mod_eq, decide_eq_true_eq] at h
  have hle : 2 ^ i * 1 ≤ x := by
    by_contra hlt
    rw [Nat.div_eq_of_lt (by omega)] at h
    cases h
  have hdiv := Nat.sub_mul_div x (2 ^ i) 1
  rw [Nat.mul_one] at hdiv
  rw [Nat.testBit_eq_decide_div_mod_eq, hdiv, decide_eq_false_iff_not]
  omega

section
variable {d : Dev} {kind i : Nat} (hunit : istUnit kind i = true) (hidle : d.rb Reg.FLT_IST_STATUS 31 = false)
  (hgood : d.unitFailed kind i = false)
include hunit hidle hgood

/-- What an out that is admitted leaves (R547, R550). -/
theorem istOut_leaves (now : Nat) (hlast : d.lastUnit kind i = false) : let e := istOut now kind i d
    (kind ≠ 0 → e.unitIn kind i = false ∧ (e.reg Reg.FLT_IST_STATUS).toNat = 0) ∧
      (kind = 0 → d.cluServes i = true → (e.reg Reg.FLT_IST_STATUS).toNat = 2 ^ 31 ∧ e.flt.drains.length = d.flt.drains.length + 1 ∧
        ∀ y, e.flt.drains.getLast? = some y → y.cluster = i) := by
  have hflt := istName_flt d kind i
  have hlast' : (d.istName kind i).lastUnit kind i = false := (lastUnit_named (fun o ho => istName_reg_ne d kind i ho) hflt kind i).trans hlast
  have hserves := cluServes_congr (istName_units d kind i) i
  obtain ⟨rfl, hi⟩ | ⟨rfl, hi⟩ | ⟨rfl, hi⟩ := istUnit_cases hunit
  · refine ⟨fun h => absurd rfl h, fun _ hin => ?_⟩
    obtain ⟨since, heq⟩ := istOut_cluster now hunit hidle hgood hlast' (hserves.trans hin)
    have hspare := (takeSpare_flt (d.istName 0 i)).trans hflt
    rw [heq]
    generalize (d.istName 0 i).takeSpare = p at hspare ⊢
    obtain ⟨s, b⟩ := p
    dsimp only at hspare ⊢
    rw [reg_flt, hspare, List.getLast?_append]
    refine ⟨istBusy_status b, List.length_append, fun y hy => ?_⟩
    cases hy
    rfl
  · rw [istOut_slice now hunit hidle hgood hlast']
    generalize d.istName 1 i = a
    refine ⟨fun _ => ⟨?_, istDone_status _ (by omega)⟩, fun h => by omega⟩
    rw [unitIn_congr (istDone_units _ _), unitIn_slice, slicesIn_testBit _ hi, Dev.rb_setRb_self _ _ _ _ (by omega), Bool.true_or, Bool.not_true]
  · rw [istOut_engine now hunit hidle hgood hlast']
    generalize d.istName 2 i = a
    refine ⟨fun _ => ⟨?_, (congrArg BitVec.toNat (reg_flt _ _ _)).trans (istDone_status a (n := 0) (by omega))⟩, fun h => by omega⟩
    rw [unitIn_engine, engineIn_flt, Nat.testBit_or, Nat.testBit_two_pow_self, Bool.or_true, Bool.not_true, Bool.and_false]

/-- What a BIST that is admitted leaves (R547, R550). -/
theorem istBist_leaves (hout : d.unitIn kind i = false) : let e := istBist kind i d
    e.flt = { d.flt with bist := some (kind, i) } ∧ (e.reg Reg.FLT_IST_STATUS).toNat = 2 ^ 31 := by
  have hflt := istName_flt d kind i
  dsimp only
  rw [istBist_unit hunit hidle hgood ((unitIn_congr (istName_units d kind i) kind i).trans hout), ← hflt]
  generalize d.istName kind i = a
  have hreg : ∀ x : Dev, (x.bistWake i).reg Reg.FLT_IST_STATUS = x.reg Reg.FLT_IST_STATUS := fun x => by
    rw [Dev.bistWake, reg_setClp, Dev.reg_setRb_ne _ _ _ _ _ (by decide), Dev.reg_setRb_ne _ _ _ _ _ (by unfold Reg.FLT_IST_STATUS Reg.PWR_CL_W0; omega)]
  have hwake : ∀ x : Dev, (x.bistWake i).flt = x.flt := fun x => by
    rw [Dev.bistWake, setClp_flt, Dev.setRb_flt, Dev.setRb_flt]
  split
  · rw [hreg, hwake, reg_flt]
    exact ⟨rfl, istBusy_status a⟩
  · rw [reg_flt]
    exact ⟨rfl, istBusy_status a⟩

/-- What a return that is admitted leaves (R546, R550). -/
theorem istReturn_leaves (hout : d.unitIn kind i = false) : let e := istReturn kind i d
    (e.reg Reg.FLT_IST_STATUS).toNat = 0 ∧ (kind ≠ 0 → e.unitIn kind i = true) ∧ (kind = 0 → e.rb (Reg.FLT_UNITS 0) i = false ∧
      (22 ≤ (List.range 24).countP (d.setRb (Reg.FLT_UNITS 0) i false).cluActive → e.rb (Reg.FLT_UNITS 1) i = true)) := by
  have hname := istName_units d kind i
  have hflt := istName_flt d kind i
  have hactive : ((d.istName kind i).setRb (Reg.FLT_UNITS 0) i false).cluActive = (d.setRb (Reg.FLT_UNITS 0) i false).cluActive := by
    refine funext fun c => cluActive_named (fun o ho => ?_) ?_ c
    · unfold Dev.setRb Dev.setRf
      rw [Dev.reg_setReg, Dev.reg_setReg, istName_reg_ne _ _ _ ho, istName_reg_ne _ _ _ (by decide)]
    · rw [Dev.setRb_flt, Dev.setRb_flt, hflt]
  have hfailed := (unitFailed_congr hname kind i).trans hgood
  have hout' := (unitIn_congr hname kind i).trans hout
  obtain ⟨rfl, hi⟩ | ⟨rfl, hi⟩ | ⟨rfl, hi⟩ := istUnit_cases hunit
  · rw [istReturn_cluster hunit hidle hgood hout', ← hactive]
    generalize d.istName 0 i = a
    have hin : (a.setRb (Reg.FLT_UNITS 0) i false).rb (Reg.FLT_UNITS 0) i = false := Dev.rb_setRb_self _ _ _ _ (by omega)
    dsimp only
    generalize a.setRb (Reg.FLT_UNITS 0) i false = b at hin ⊢
    split
    · next hmany =>
      refine ⟨istDone_status _ (by omega), fun h => absurd rfl h, fun _ => ⟨?_, fun _ => ?_⟩⟩
      · rw [rb_of_reg (istDone_reg_ne _ _ (by decide)), rb_of_reg (Dev.reg_setRb_ne _ _ _ _ _ (by decide))]
        exact hin
      · rw [rb_of_reg (istDone_reg_ne _ _ (by decide))]
        exact Dev.rb_setRb_self _ _ _ _ (by omega)
    · next hfew =>
      refine ⟨istDone_status _ (by omega), fun h => absurd rfl h, fun _ => ⟨?_, fun h => absurd h hfew⟩⟩
      rw [rb_of_reg (istDone_reg_ne _ _ (by decide)), rb_of_reg (startWaking_reg_ne _ _ (by unfold Reg.FLT_UNITS Reg.PWR_CL_W0; omega)),
        rb_of_reg (Dev.reg_setRb_ne _ _ _ _ _ (by decide))]
      exact hin
  · rw [unitFailed_slice] at hfailed
    rw [istReturn_slice hunit hidle hgood hout']
    generalize d.istName 1 i = a at hfailed
    refine ⟨istDone_status _ (by omega), fun _ => ?_, fun h => by omega⟩
    rw [unitIn_congr (istDone_units _ _), unitIn_slice, slicesIn_testBit _ hi, Dev.rb_setRb_self _ _ _ _ (by omega),
      rb_of_reg (Dev.reg_setRb_ne _ _ _ _ _ (by decide)), hfailed, Bool.or_false, Bool.not_false]
  · rw [unitFailed_engine] at hfailed
    rw [istReturn_engine hunit hidle hgood hout']
    generalize d.istName 2 i = a at hfailed
    have hset : (a.flt.engOut ||| 2 ^ i).testBit i = true := by rw [Nat.testBit_or, Nat.testBit_two_pow_self, Bool.or_true]
    refine ⟨(congrArg BitVec.toNat (reg_flt _ _ _)).trans (istDone_status a (n := 0) (by omega)), fun _ => ?_, fun h => by omega⟩
    rw [unitIn_engine, engineIn_flt, testBit_sub_self hset, rb_of_reg (istDone_reg_ne _ _ (by decide)), hfailed, Bool.not_false, Bool.and_true]

end

/-- The end of a BIST, with the cluster gated, before its result is judged (R547, R550). -/
def Dev.bistOver (d : Dev) (kind i : Nat) : Dev :=
  let d := { d with flt := { d.flt with bist := none } }
  if kind = 0 then d.startGating i else d

theorem bistOver_flt (d : Dev) (kind i : Nat) : (d.bistOver kind i).flt = { d.flt with bist := none } := by
  have hgated : ∀ x : Dev, (if kind = 0 then x.startGating i else x).flt = x.flt := fun x => by
    split
    · exact startGating_flt x i
    · rfl
  exact hgated _

theorem bistDone_passes {d : Dev} {kind i : Nat} (array : Nat) (hbist : d.flt.bist = some (kind, i)) :
    bistDone true array d = (d.bistOver kind i).istDone 0 := by
  unfold bistDone
  rw [hbist]
  rfl

theorem bistDone_fails {d : Dev} {kind i : Nat} (array : Nat) (hbist : d.flt.bist = some (kind, i)) :
    ∃ src n, bistDone false array d = (((d.bistOver kind i).markFailed kind i).istDone 1).raise src n := by
  unfold bistDone
  rw [hbist]
  dsimp only
  rw [if_neg (by decide)]
  split
  · exact ⟨_, _, rfl⟩
  · exact ⟨_, _, rfl⟩
  · exact ⟨_, _, rfl⟩

/-- What the end of a BIST leaves (R550). -/
theorem bistDone_leaves {d : Dev} {kind i : Nat} (array : Nat) (hbist : d.flt.bist = some (kind, i)) (hunit : istUnit kind i = true) :
    ((bistDone true array d).flt = { d.flt with bist := none } ∧ ((bistDone true array d).reg Reg.FLT_IST_STATUS).toNat = 0) ∧
    let e := bistDone false array d
    e.flt.bist = none ∧ (e.reg Reg.FLT_IST_STATUS).toNat = 1 ∧ e.unitFailed kind i = true ∧ e.unitIn kind i = false := by
  obtain ⟨src, n, hfails⟩ := bistDone_fails array hbist
  have hflt := bistOver_flt d kind i
  rw [bistDone_passes array hbist, hfails]
  generalize d.bistOver kind i = a at hflt ⊢
  have hfailed := markFailed_failed a hunit
  have hsame := markFailed_flt a kind i
  generalize a.markFailed kind i = b at hfailed hsame ⊢
  have hunits : unitsSame b ((b.istDone 1).raise src n) := istDone_units b 1
  have hfailed' := (unitFailed_congr hunits kind i).trans hfailed
  refine ⟨⟨(istDone_flt a 0).trans hflt, istDone_status a (n := 0) (by omega)⟩, ?_, ?_, hfailed', unitIn_failed hunit hfailed'⟩
  · have hraise : ((b.istDone 1).raise src n).flt.bist = (b.istDone 1).flt.bist := rfl
    rw [hraise, istDone_flt, hsame, hflt]
  · rw [raise_reg]
    exact istDone_status b (n := 1) (by omega)

end Sys2Proof.Machine
end

section
/-!
SUPPORT. Debug (R178, R551 to R554): what its commands leave of their target.
-/

namespace Sys2Proof.Machine

/-! DBG_STATUS, and a command on a target (R552, R558). -/

theorem dbgDone_result (d : Dev) {n : Nat} (h : n < 2 ^ 32) : ((d.dbgDone n).reg Reg.DBG_STATUS).toNat = n :=
  (congrArg BitVec.toNat (Dev.reg_setReg_self d Reg.DBG_STATUS (wd n))).trans (wd_toNat n h)

theorem dbgDone_reg_ne (d : Dev) (n : Nat) {o : Nat} (ho : o ≠ Reg.DBG_STATUS) : (d.dbgDone n).reg o = d.reg o := Dev.reg_setReg_ne _ _ _ _ ho

theorem dbgDone_thr (d : Dev) (n t : Nat) : (d.dbgDone n).thr t = d.thr t := Dev.thr_setReg _ _ _ _

theorem dbgDone_txn (d : Dev) (n k : Nat) : (d.dbgDone n).txn k = d.txn k := Dev.txn_setReg _ _ _ _

theorem tgtDbg_cluster (d : Dev) (t : Nat) : d.tgtDbg (.cluster t) = (d.thr t).dbg := rfl

theorem tgtDbg_atelier (d : Dev) (t : Nat) : d.tgtDbg (.atelier t) = (d.thr t).dbg := rfl

theorem tgtDbg_slot (d : Dev) (e s : Nat) : d.tgtDbg (.slot e s) = (d.slot e s).dbg := rfl

theorem slot_setReg (d : Dev) (o : Nat) (v : Word) (e s : Nat) : (d.setReg o v).slot e s = d.slot e s := by
  unfold Dev.slot
  rw [Dev.setReg_stn]

theorem slot_updSlot (d : Dev) (e s : Nat) (f : Slot2 → Slot2) : (d.updSlot e s f).slot e s = f (d.slot e s) := tget_tset_self _ _ _ _

theorem dbgDone_tgtDbg (d : Dev) (n : Nat) (x : Tgt) : (d.dbgDone n).tgtDbg x = d.tgtDbg x := by
  cases x with
  | cluster t => rw [tgtDbg_cluster, tgtDbg_cluster, dbgDone_thr]
  | atelier t => rw [tgtDbg_atelier, tgtDbg_atelier, dbgDone_thr]
  | slot e s => rw [tgtDbg_slot, tgtDbg_slot, Dev.dbgDone, slot_setReg]

theorem dbgCmd_on {d : Dev} {x : Tgt} (htgt : d.tgt = some x) (hon : d.tgtOff x = false) (f : Tgt → Dev → Dev) : d.dbgCmd f = f x d := by
  unfold Dev.dbgCmd
  rw [htgt]
  exact if_neg (by rw [hon]; decide)

/-! Slots that go on (R386, R552). -/

/-- Debug's hold on a slot stands, or its single step is over. -/
def stepOver (a b : DbgHalt) : Prop := b = a ∨ ∃ h, a = .stepping h ∧ b = .halted h

theorem stepOver_step (x : Slot2) (f : Slot2 → Slot2) : stepOver x.dbg (x.step f).dbg := by
  cases hdbg : x.dbg with
  | stepping h =>
    refine .inr ⟨h, rfl, ?_⟩
    unfold Slot2.step Slot2.done
    rw [hdbg]
  | none =>
    refine .inl ?_
    unfold Slot2.step Slot2.done
    rw [hdbg]
  | pending a =>
    refine .inl ?_
    unfold Slot2.step Slot2.done
    rw [hdbg]
  | halted a =>
    refine .inl ?_
    unfold Slot2.step Slot2.done
    rw [hdbg]

theorem drain_dbg (x : Slot2) (wide : Bool) (maxLen n : Nat) : (x.drain wide maxLen n).dbg = x.dbg := by
  induction n generalizing x with
  | zero => rfl
  | succ n ih =>
    unfold Slot2.drain
    split
    · split
      · exact ih _
      · rfl
    · rfl

theorem placeOverrun_dbg (x : Slot2) (sec ns : Nat) : (x.placeOverrun sec ns).dbg = x.dbg := by
  unfold Slot2.placeOverrun
  split
  · rfl
  · rfl

theorem stepOver_wake (x : Slot2) (wide : Bool) (maxLen : Nat) : stepOver x.dbg (x.wake wide maxLen).dbg := by
  unfold Slot2.wake
  split
  · exact stepOver_step x _
  · exact .inl (drain_dbg x _ _ _)
  · exact .inl rfl

theorem stepOver_takeStaged (x : Slot2) : stepOver x.dbg x.takeStaged.dbg := by
  unfold Slot2.takeStaged
  split
  · split
    · exact stepOver_step x _
    · exact .inl rfl
  · exact .inl rfl

/-- A slot that debug lets go on keeps debug's hold, or its single step is over (R552). -/
theorem stepOver_goOn (x : Slot2) (wide : Bool) (maxLen sec ns : Nat) : stepOver x.dbg (x.goOn wide maxLen sec ns).dbg := by
  unfold Slot2.goOn
  split
  · exact .inl rfl
  · split
    · split
      · exact stepOver_step x _
      · exact .inl rfl
    · exact stepOver_step x _
    · exact stepOver_takeStaged x
    · rw [placeOverrun_dbg]
      exact stepOver_wake x _ _

theorem slotGoes_dbg (d : Dev) (sec ns e s : Nat) (h : DbgHalt) : stepOver h ((d.slotGoes sec ns e s h).slot e s).dbg := by
  unfold Dev.slotGoes
  dsimp only
  rw [slot_updSlot]
  exact stepOver_goOn { d.slot e s with dbg := h } _ _ _ _

/-! Halt, resume and step (R552). -/

/-- A halt is asked of a cluster's thread that runs. -/
theorem haltCmd_leaves {d : Dev} {t : Nat} (htgt : d.tgt = some (.cluster t)) (hon : d.tgtOff (.cluster t) = false)
    (hruns : d.tgtRuns (.cluster t) = true) (hfree : d.tgtDbg (.cluster t) = .none) (abort : Bool) : let e := haltCmd abort d
    (e.reg Reg.DBG_STATUS).toNat = 0 ∧ e.thr t = { d.thr t with dbg := .pending abort } := by
  have hasked : haltCmd abort d = (d.askHalt t abort).dbgDone 0 := by
    unfold haltCmd
    rw [dbgCmd_on htgt hon, hruns, Bool.not_true, Bool.false_and, if_neg (by decide)]
    dsimp only
    rw [← tgtDbg_cluster, hfree]
  dsimp only
  rw [hasked]
  exact ⟨dbgDone_result _ (by omega), (dbgDone_thr _ _ _).trans (Dev.thr_updThr_self _ _ _)⟩

/-- A target whose halt ends: what its thread or slot goes on with. -/
def Dev.released (d : Dev) (sec ns : Nat) (h : DbgHalt) : Tgt → Dev
  | .slot e s => d.slotGoes sec ns e s h
  | .atelier t => d.updThr t (fun th => { th with dbg := h })
  | .cluster t => (d.holdTxn 0 t false).updThr t (fun th => { th with dbg := h })

theorem released_dbg (d : Dev) (sec ns : Nat) (h : DbgHalt) (x : Tgt) :
    ((∀ e s, x ≠ .slot e s) → (d.released sec ns h x).tgtDbg x = h) ∧ stepOver h ((d.released sec ns h x).tgtDbg x) := by
  cases x with
  | cluster t =>
    have hself : (d.released sec ns h (.cluster t)).tgtDbg (.cluster t) = h := congrArg Thread.dbg (Dev.thr_updThr_self (d.holdTxn 0 t false) t _)
    exact ⟨fun _ => hself, .inl hself⟩
  | atelier t =>
    have hself : (d.released sec ns h (.atelier t)).tgtDbg (.atelier t) = h := congrArg Thread.dbg (Dev.thr_updThr_self d t _)
    exact ⟨fun _ => hself, .inl hself⟩
  | slot e s => exact ⟨fun hno => absurd rfl (hno e s), slotGoes_dbg d sec ns e s h⟩

theorem resumeCmd_eq {d : Dev} {x : Tgt} {a : Bool} (htgt : d.tgt = some x) (hon : d.tgtOff x = false) (hhalted : d.tgtDbg x = .halted a)
    (sec ns : Nat) : resumeCmd sec ns d = (d.released sec ns .none x).dbgDone 0 := by
  unfold resumeCmd
  rw [dbgCmd_on htgt hon, hhalted]
  cases x with
  | cluster t => rfl
  | atelier t => rfl
  | slot e s => rfl

theorem stepCmd_eq {d : Dev} {x : Tgt} {a : Bool} (htgt : d.tgt = some x) (hon : d.tgtOff x = false) (hhalted : d.tgtDbg x = .halted a)
    (hruns : d.tgtRuns x = true) (sec ns : Nat) : stepCmd sec ns d = (d.released sec ns (.stepping a) x).dbgDone 0 := by
  unfold stepCmd
  rw [dbgCmd_on htgt hon, hhalted]
  dsimp only
  rw [hruns, Bool.not_true, if_neg (by decide)]
  cases x with
  | cluster t => rfl
  | atelier t => rfl
  | slot e s => rfl

/-- What resume leaves of its target. -/
theorem resumeCmd_leaves {d : Dev} {x : Tgt} {a : Bool} (htgt : d.tgt = some x) (hon : d.tgtOff x = false) (hhalted : d.tgtDbg x = .halted a)
    (sec ns : Nat) : let e := resumeCmd sec ns d
    (e.reg Reg.DBG_STATUS).toNat = 0 ∧ e.tgtDbg x = .none := by
  dsimp only
  rw [resumeCmd_eq htgt hon hhalted, dbgDone_tgtDbg]
  refine ⟨dbgDone_result _ (by omega), ?_⟩
  obtain h | ⟨b, hb, -⟩ := (released_dbg d sec ns .none x).2
  · exact h
  · cases hb

/-- What step leaves of its target. -/
theorem stepCmd_leaves {d : Dev} {x : Tgt} {a : Bool} (htgt : d.tgt = some x) (hon : d.tgtOff x = false) (hhalted : d.tgtDbg x = .halted a)
    (hruns : d.tgtRuns x = true) (sec ns : Nat) : let e := stepCmd sec ns d
    (e.reg Reg.DBG_STATUS).toNat = 0 ∧ ((∀ g q, x ≠ .slot g q) → e.tgtDbg x = .stepping a) ∧
      (e.tgtDbg x = .stepping a ∨ e.tgtDbg x = .halted a) := by
  obtain ⟨hthread, hover⟩ := released_dbg d sec ns (.stepping a) x
  dsimp only
  rw [stepCmd_eq htgt hon hhalted hruns, dbgDone_tgtDbg]
  refine ⟨dbgDone_result _ (by omega), hthread, ?_⟩
  obtain h | ⟨b, hb, h⟩ := hover
  · exact .inl h
  · cases hb
    exact .inr h

/-! The context of a halted target (R554). -/

theorem sel_setSel {th : Thread} {s : Nat} (hmin : 1 ≤ s) (hmax : s < 16) (v : Word) : ((th.setSel s v).sel s).getD 0 = v ∧ (th.setSel s v).dbg = th.dbg := by
  unfold Thread.setSel Thread.sel
  rw [if_pos (by omega), if_pos (by omega)]
  exact ⟨Thread.g_setG_self th s v (by omega), Thread.setG_dbg th s v⟩

/-- The thread of a target that is no slot. -/
theorem tgt_thread {x : Tgt} (hno : ∀ g q, x ≠ .slot g q) : ∃ t, x = .cluster t ∨ x = .atelier t := by
  cases x with
  | cluster t => exact ⟨t, .inl rfl⟩
  | atelier t => exact ⟨t, .inr rfl⟩
  | slot e s => exact absurd rfl (hno e s)

theorem tgt_congr {d e : Dev} (h : e.reg Reg.DBG_SEL = d.reg Reg.DBG_SEL) : e.tgt = d.tgt := by
  unfold Dev.tgt
  rw [h]

theorem tgtHalted_of {d : Dev} {x : Tgt} {a : Bool} (h : d.tgtDbg x = .halted a) : d.tgtHalted x = true := by
  unfold Dev.tgtHalted
  rw [h]

theorem ctxData_thread {d : Dev} {x : Tgt} {t : Nat} {a : Bool} (hx : x = .cluster t ∨ x = .atelier t) (htgt : d.tgt = some x)
    (hhalted : d.tgtDbg x = .halted a) : d.ctxData = ((d.thr t).sel (d.rf Reg.DBG_CTX_IDX 5 0)).getD 0 := by
  unfold Dev.ctxData
  rw [htgt]
  dsimp only
  rw [tgtHalted_of hhalted, Bool.not_true, if_neg (by decide)]
  obtain rfl | rfl := hx
  · rfl
  · rfl

theorem debugContextWrite_thread {d : Dev} {x : Tgt} {t : Nat} {a : Bool} (hx : x = .cluster t ∨ x = .atelier t) (htgt : d.tgt = some x)
    (hon : d.tgtOff x = false) (hhalted : d.tgtDbg x = .halted a) (v : Word) :
    debugContextWrite v d = (d.updThr t (fun th => th.setSel (d.rf Reg.DBG_CTX_IDX 5 0) v)).dbgDone 0 := by
  unfold debugContextWrite
  dsimp only
  rw [dbgCmd_on htgt hon, tgtHalted_of hhalted, Bool.not_true, if_neg (by decide)]
  obtain rfl | rfl := hx
  · rfl
  · rfl

/-- What a write of the context leaves of a halted thread (R554). -/
theorem debugContextWrite_leaves {d : Dev} {x : Tgt} {a : Bool} (htgt : d.tgt = some x) (hon : d.tgtOff x = false) (hhalted : d.tgtDbg x = .halted a)
    (hno : ∀ g q, x ≠ .slot g q) (v : Word) (hmin : 1 ≤ d.rf Reg.DBG_CTX_IDX 5 0) (hmax : d.rf Reg.DBG_CTX_IDX 5 0 < 16) :
    let e := debugContextWrite v d
    (e.reg Reg.DBG_STATUS).toNat = 0 ∧ e.ctxData = v ∧ e.mem = d.mem := by
  obtain ⟨t, hx⟩ := tgt_thread hno
  obtain ⟨hsel, hdbg⟩ := sel_setSel (th := d.thr t) hmin hmax v
  have hthr : ∀ n, ((d.updThr t (fun th => th.setSel (d.rf Reg.DBG_CTX_IDX 5 0) v)).dbgDone n).thr t = (d.thr t).setSel (d.rf Reg.DBG_CTX_IDX 5 0) v :=
    fun n => (dbgDone_thr _ _ _).trans (Dev.thr_updThr_self _ _ _)
  have hreg : ∀ o, o ≠ Reg.DBG_STATUS → ((d.updThr t (fun th => th.setSel (d.rf Reg.DBG_CTX_IDX 5 0) v)).dbgDone 0).reg o = d.reg o :=
    fun o ho => (dbgDone_reg_ne _ _ ho).trans (Dev.reg_updThr _ _ _ _)
  have hmem : ((d.updThr t (fun th => th.setSel (d.rf Reg.DBG_CTX_IDX 5 0) v)).dbgDone 0).mem = d.mem := Dev.setReg_mem _ _ _
  dsimp only
  rw [debugContextWrite_thread hx htgt hon hhalted]
  refine ⟨dbgDone_result _ (by omega), ?_, hmem⟩
  generalize hq : (d.updThr t (fun th => th.setSel (d.rf Reg.DBG_CTX_IDX 5 0) v)).dbgDone 0 = q at hreg
  have hthr' := hthr 0
  rw [hq] at hthr'
  have hstill : q.tgtDbg x = .halted a := by
    obtain rfl | rfl := hx
    · exact (congrArg Thread.dbg hthr').trans (hdbg.trans hhalted)
    · exact (congrArg Thread.dbg hthr').trans (hdbg.trans hhalted)
  rw [ctxData_thread hx ((tgt_congr (hreg _ (by decide))).trans htgt) hstill, hthr', rf_of_reg (hreg _ (by decide))]
  exact hsel

/-! Kill (R178, R552), and the end of a halt (R553). -/

theorem hasTxn_of_key {t k : Nat} {th : Thread} (h : txnKey t th = some k) : th.hasTxn = true := by
  unfold txnKey at h
  unfold Thread.hasTxn
  split at h
  · split at h
    · next htxn => exact htxn
    · cases h
  · cases h

theorem abortTxn_krv (d : Dev) (k cause : Nat) : (d.abortTxn k cause).krv = d.krv := by
  by_cases halive : (d.txn k).alive = true
  · exact (abort_ok halive).2.2
  · rw [abort_dead halive]

theorem alive_of_active {x : Txn} (h : x.phase = .active) : x.alive = true := by
  unfold Txn.alive
  rw [h]

/-- A transaction as debug leaves it to its abort (R178). -/
def Dev.ungranted (d : Dev) (k : Nat) : Dev :=
  let d : Dev := if d.vrn.grant = some k then { d with vrn := { d.vrn with grant := none } } else d
  d.updTxn k (fun x => { x with irrev := if x.irrev = .granted then .waits else x.irrev, held := false })

theorem ungranted_leaves (d : Dev) (k : Nat) : (d.ungranted k).krv = d.krv ∧ ((d.ungranted k).txn k).phase = (d.txn k).phase := by
  unfold Dev.ungranted Dev.updTxn
  dsimp only
  rw [Dev.txn_setTxn_self, Dev.setTxn_krv]
  split
  · exact ⟨rfl, rfl⟩
  · exact ⟨rfl, rfl⟩

theorem debugAbort_none {d : Dev} {t : Nat} (h : txnKey t (d.thr t) = none) : d.debugAbort t = d := by
  unfold Dev.debugAbort
  rw [h]

theorem debugAbort_some {d : Dev} {t k : Nat} (h : txnKey t (d.thr t) = some k) : d.debugAbort t = (d.ungranted k).abortTxn k 0xB := by
  unfold Dev.debugAbort
  rw [h]
  rfl

/-- What debug's abort leaves (R178): the transaction, if it runs, is aborted; the threads stand. -/
theorem debugAbort_leaves (d : Dev) (t : Nat) : let e := d.debugAbort t
    e.krv = d.krv ∧ ∀ k, txnKey t (d.thr t) = some k → (d.txn k).phase = .active → (e.txn k).phase = .aborted 0xB := by
  cases hkey : txnKey t (d.thr t) with
  | none =>
    rw [debugAbort_none hkey]
    exact ⟨rfl, nofun⟩
  | some k =>
    obtain ⟨hkrv, hphase⟩ := ungranted_leaves d k
    rw [debugAbort_some hkey]
    refine ⟨(abortTxn_krv _ _ _).trans hkrv, fun k' hk hactive => ?_⟩
    obtain rfl := Option.some.inj hk
    exact abortTxn_phase (alive_of_active (hphase.trans hactive)) 0xB

/-- A killed task leaves its thread (R115, R150). -/
theorem killTask_task (d : Dev) (t : Nat) : ((d.killTask t).thr t).task = none := by
  unfold Dev.killTask
  dsimp only
  split
  · split
    · exact (stopThread_thr _ t).2.1
    · exact (stopThread_thr _ t).2.1
  · exact (stopThread_thr _ t).2.1

section
variable {d : Dev} {t : Nat} (htgt : d.tgt = some (.cluster t)) (hon : d.tgtOff (.cluster t) = false) (hruns : d.tgtRuns (.cluster t) = true)
include htgt hon hruns

/-- Kill of a thread that runs, by whether its task carries a transaction (R552). -/
theorem killCmd_eq : killCmd d = (if (d.thr t).hasTxn then d.debugAbort t else d.killTask t).dbgDone 0 := by
  unfold killCmd
  rw [dbgCmd_on htgt hon, hruns, Bool.not_true]
  dsimp only
  rw [if_neg (by decide)]
  split
  · rfl
  · rfl

/-- What kill leaves of a task with a transaction (R178). -/
theorem killCmd_aborts {k : Nat} (hkey : txnKey t (d.thr t) = some k) (hactive : (d.txn k).phase = .active) : let e := killCmd d
    (e.reg Reg.DBG_STATUS).toNat = 0 ∧ (e.txn k).phase = .aborted 0xB := by
  dsimp only
  rw [killCmd_eq htgt hon hruns, if_pos (hasTxn_of_key hkey), dbgDone_txn]
  exact ⟨dbgDone_result _ (by omega), (debugAbort_leaves d t).2 k hkey hactive⟩

/-- What kill leaves of a task without one (R150). -/
theorem killCmd_kills (hfree : (d.thr t).hasTxn = false) : let e := killCmd d
    (e.reg Reg.DBG_STATUS).toNat = 0 ∧ (e.thr t).task = none := by
  dsimp only
  rw [killCmd_eq htgt hon hruns, hfree, if_neg (by decide), dbgDone_thr]
  exact ⟨dbgDone_result _ (by omega), killTask_task d t⟩

end

section
variable {d : Dev} {t : Nat} {a : Bool} (now : Nat) (hpend : (d.thr t).dbg = .pending a) (hstall : ∀ rd, (d.thr t).run ≠ .lockWait rd)
include hpend hstall

/-- A halt completes in abort mode: what the thread has issued is squashed (R178, R553). -/
theorem haltComplete_squashes (hsquash : (a && (txnKey t (d.thr t)).isSome) = true) (hready : (d.thr t).slot = .none ∨ (d.thr t).clear = false) :
    haltComplete now t d = (d.setThr t { d.thr t with dbg := .halted a, fly := [], load := none }).debugAbort t := by
  unfold haltComplete
  dsimp only
  rw [hpend]
  refine (if_neg ?_).trans (if_pos hsquash)
  split
  · next rd hrun => exact absurd hrun (hstall rd)
  · obtain h | h := hready
    · simp [hsquash, h]
    · simp [hsquash, h]

/-- A halt completes at a word boundary, nothing being outstanding (R108, R553). -/
theorem haltComplete_holds (hkeep : (a && (txnKey t (d.thr t)).isSome) = false) (hslot : (d.thr t).slot = .none) (hclear : (d.thr t).clear = true) :
    haltComplete now t d = (d.setThr t { d.thr t with dbg := .halted a }).holdTxn now t true := by
  unfold haltComplete
  dsimp only
  rw [hpend]
  refine (if_neg ?_).trans (if_neg (Bool.eq_false_iff.mp hkeep))
  split
  · next rd hrun => exact absurd hrun (hstall rd)
  · simp [hslot, hclear]

end

/-- A transaction that is held, or goes on, from a time (R178). -/
theorem holdTxn_leaves (d : Dev) (now t : Nat) (on : Bool) : let e := d.holdTxn now t on
    e.krv = d.krv ∧ ∀ k, txnKey t (d.thr t) = some k → e.txn k = { d.txn k with held := on, heldAt := now } := by
  unfold Dev.holdTxn
  split
  · next k hkey =>
    refine ⟨Dev.setTxn_krv _ _ _, fun k' hk => ?_⟩
    obtain rfl := Option.some.inj (hkey.symm.trans hk)
    exact Dev.txn_setTxn_self _ _ _
  · next hkey => exact ⟨rfl, fun k hk => absurd (hkey.symm.trans hk) nofun⟩

/-- What the end of a halt leaves (R108, R178, R553). -/
theorem haltComplete_leaves {d : Dev} {t : Nat} {a : Bool} (now : Nat) (hpend : (d.thr t).dbg = .pending a)
    (hstall : ∀ rd, (d.thr t).run ≠ .lockWait rd)
    (hready : ((d.thr t).slot = .none ∧ ((a = true ∧ (txnKey t (d.thr t)).isSome = true) ∨ (d.thr t).clear = true)) ∨
      ((a = true ∧ (txnKey t (d.thr t)).isSome = true) ∧ (d.thr t).clear = false)) : let e := haltComplete now t d
    (e.thr t).dbg = .halted a ∧ (e.thr t).load = none ∧
      ∀ k, txnKey t (d.thr t) = some k → (d.txn k).phase = .active → if a then (e.txn k).phase = .aborted 0xB
        else e.txn k = { d.txn k with held := true, heldAt := now } := by
  dsimp only
  by_cases hsquash : (a && (txnKey t (d.thr t)).isSome) = true
  · obtain ⟨rfl, -⟩ := Bool.and_eq_true_iff.mp hsquash
    have hself := Dev.thr_setThr_self d t { d.thr t with dbg := .halted true, fly := [], load := none }
    obtain ⟨hkrv, habort⟩ := debugAbort_leaves (d.setThr t { d.thr t with dbg := .halted true, fly := [], load := none }) t
    have hthr := (thr_of_krv (congrArg Krv.threads hkrv) t).trans hself
    rw [haltComplete_squashes now hpend hstall hsquash (hready.imp (fun h => h.1) (fun h => h.2)), hthr]
    refine ⟨rfl, rfl, fun k hk hactive => ?_⟩
    rw [if_pos rfl]
    refine habort k ?_ ((congrArg Txn.phase (Dev.txn_setThr _ _ _ _)).trans hactive)
    rw [hself]
    exact (key_same rfl).trans hk
  · have hkeep := Bool.eq_false_iff.mpr hsquash
    have hno : ¬ (a = true ∧ (txnKey t (d.thr t)).isSome = true) := fun h => hsquash (Bool.and_eq_true_iff.mpr h)
    obtain ⟨hslot, hclear⟩ | ⟨h, -⟩ := hready
    · have hclear := hclear.resolve_left hno
      have hself := Dev.thr_setThr_self d t { d.thr t with dbg := .halted a }
      obtain ⟨hkrv, hhold⟩ := holdTxn_leaves (d.setThr t { d.thr t with dbg := .halted a }) now t true
      have hthr := (thr_of_krv (congrArg Krv.threads hkrv) t).trans hself
      have hload : (d.thr t).load = none := by
        unfold Thread.clear at hclear
        exact Option.isNone_iff_eq_none.mp (Bool.and_eq_true_iff.mp hclear).1
      rw [haltComplete_holds now hpend hstall hkeep hslot hclear, hthr]
      refine ⟨rfl, hload, fun k hk hactive => ?_⟩
      have ha : a = false := by
        cases a with
        | false => rfl
        | true => exact absurd ⟨rfl, by rw [hk]; rfl⟩ hno
      rw [if_neg (by rw [ha]; decide), hhold k (by rw [hself]; exact (key_same rfl).trans hk), Dev.txn_setThr]
    · exact absurd h hno

end Sys2Proof.Machine
end

section
/-!
SUPPORT. Lane tests (R551): the register of the test and the port of a lane under test.
-/

namespace Sys2Proof.Machine

/-! The port of a lane (R400). -/

theorem findNat_mem {p : Nat → Bool} {lo n i : Nat} (h : findNat p lo n = some i) : lo ≤ i ∧ i < lo + n ∧ p i = true := by
  induction n generalizing lo with
  | zero => exact absurd h nofun
  | succ n ih =>
    unfold findNat at h
    split at h
    · next hp =>
      obtain rfl := Option.some.inj h
      exact ⟨Nat.le_refl _, by omega, hp⟩
    · obtain ⟨hl, hu, hp⟩ := ih h
      exact ⟨by omega, by omega, hp⟩

theorem lanePort_le {d : Dev} {l p : Nat} (h : d.lanePort l = some p) : p ≤ l := by
  unfold Dev.lanePort at h
  obtain ⟨i, hi, rfl⟩ := Option.map_eq_some_iff.mp h
  obtain ⟨-, -, hp⟩ := findNat_mem hi
  exact of_decide_eq_true (Bool.and_eq_true_iff.mp hp).2

/-- The port of a lane rests on the port words' lane counts alone. -/
theorem lanePort_of_regs {d e : Dev} (h : ∀ p, e.reg (Reg.PRT_PORT_W2 p) = d.reg (Reg.PRT_PORT_W2 p)) (l : Nat) : e.lanePort l = d.lanePort l := by
  have hcount : ∀ p, e.rf (Reg.PRT_PORT_W2 p) 2 0 = d.rf (Reg.PRT_PORT_W2 p) 2 0 := fun p => rf_of_reg (h p) 2 0
  unfold Dev.lanePort
  simp only [hcount]

/-! The register of the test. -/

theorem portWords_not_test {p : Nat} (hp : p < 128) : ¬ (Reg.DBG_LANE_TEST = Reg.PRT_PORT_W2 p ∨ Reg.DBG_LANE_TEST = Reg.PRT_PORT_W3 p) := by
  unfold Reg.DBG_LANE_TEST Reg.PRT_PORT_W2 Reg.PRT_PORT_W3
  omega

theorem setPrtState_test (d : Dev) {p : Nat} (hp : p < 128) (st : Nat) : (d.setPrtState p st).reg Reg.DBG_LANE_TEST = d.reg Reg.DBG_LANE_TEST :=
  (setPrtState_in d p st).2 _ (portWords_not_test hp)

theorem linkEvent_test (d : Dev) (now p state cause : Nat) : (d.linkEvent now p state cause).reg Reg.DBG_LANE_TEST = d.reg Reg.DBG_LANE_TEST := by
  unfold Dev.linkEvent
  split
  · exact (fltKeeps_postEvt (g := d.rf (Reg.PRT_PORT_W0 p) 27 24) (fld_lt (d.reg (Reg.PRT_PORT_W0 p)) 27 24) _ (fltKeeps_refl d)).2.2 _ (by decide)
  · rfl

theorem bringUp_test (d : Dev) (now : Nat) {p : Nat} (hp : p < 128) : (d.bringUp now p).reg Reg.DBG_LANE_TEST = d.reg Reg.DBG_LANE_TEST := by
  unfold Dev.bringUp
  split
  · split
    · exact setPrtState_test _ hp _
    · exact setPrtState_test _ hp _
  · rfl

/-- A lane that enters its test takes its port down (R551). -/
theorem laneTestOn_leaves (d : Dev) (now : Nat) {l : Nat} (hl : l < 80) : let e := d.laneTestOn now l
    e.reg Reg.DBG_LANE_TEST = d.reg Reg.DBG_LANE_TEST ∧ ∀ p, d.lanePort l = some p → e.prtState p = 5 := by
  unfold Dev.laneTestOn
  dsimp only
  split
  · next p hport =>
    have hp : p < 80 := Nat.lt_of_le_of_lt (lanePort_le hport) hl
    refine ⟨(linkEvent_test _ _ _ _ _).trans (setPrtState_test d (by omega) 5), fun q hq => ?_⟩
    obtain rfl := Option.some.inj (hport.symm.trans hq)
    exact (linkEvent_state hp _ _ _ _ _).trans (setPrtState_self d _ 5 (by omega))
  · next hport => exact ⟨rfl, fun q hq => absurd (hport.symm.trans hq) nofun⟩

/-- A lane that leaves its test leaves the test's register as it is. -/
theorem laneTestOff_test (d : Dev) (now : Nat) {l : Nat} (hl : l < 128) : (d.laneTestOff now l).reg Reg.DBG_LANE_TEST = d.reg Reg.DBG_LANE_TEST := by
  unfold Dev.laneTestOff
  split
  · next p hport =>
    have hp : p < 128 := Nat.lt_of_le_of_lt (lanePort_le hport) hl
    split
    · rfl
    · exact (bringUp_test _ now hp).trans (setPrtState_test d hp _)
  · rfl

/-! Writes of DBG_LANE_TEST. -/

/-- The mask of the stored fields: the enable, the pattern and the lane. -/
theorem laneMask_bit {i : Nat} (hi : i < 32) : (0x80000F7F#32).getLsbD i = decide (i = 31 ∨ (8 ≤ i ∧ i < 12) ∨ i < 7) := by
  revert i
  decide

theorem laneTestWord_bit (v : Word) {i : Nat} (hi : i < 32) : (laneTestWord v).getLsbD i = (v.getLsbD i && decide (i = 31 ∨ (8 ≤ i ∧ i < 12) ∨ i < 7)) :=
  (BitVec.getLsbD_and ..).trans (congrArg _ (laneMask_bit hi))

/-- A lane and a pattern are stored as they are written. -/
theorem laneTestWord_named {l n : Nat} (hl : l < 128) (hn : n < 16) :
    laneTestWord (wd (2 ^ 31 + n * 2 ^ 8 + l)) = wd (2 ^ 31 + n * 2 ^ 8 + l) := by
  refine BitVec.eq_of_getLsbD_eq fun i hi => ?_
  rw [laneTestWord_bit _ hi]
  by_cases hfield : i = 31 ∨ (8 ≤ i ∧ i < 12) ∨ i < 7
  · rw [decide_eq_true hfield, Bool.and_true]
  · have hclear : (wd (2 ^ 31 + n * 2 ^ 8 + l)).getLsbD i = false := by
      refine (testBit_wd (2 ^ 31 + n * 2 ^ 8 + l) i hi).trans ?_
      obtain rfl | hhigh : i = 7 ∨ 12 ≤ i := by omega
      · rw [Nat.testBit_eq_decide_div_mod_eq, decide_eq_false_iff_not]
        omega
      · rw [Nat.add_assoc, Nat.testBit_two_pow_add_gt (by omega)]
        exact Nat.testBit_lt_two_pow (Nat.lt_of_lt_of_le (show n * 2 ^ 8 + l < 2 ^ 12 by omega) (Nat.pow_le_pow_right (by omega) hhigh))
    rw [hclear, Bool.false_and]

theorem laneTestWord_closed (v : Word) : laneTestWord (setBit v 31 false) = v &&& 0x00000F7F#32 := by
  have hmask : ∀ i < 32, (0x00000F7F#32).getLsbD i = decide ((8 ≤ i ∧ i < 12) ∨ i < 7) := by decide
  refine BitVec.eq_of_getLsbD_eq fun i hi => ?_
  rw [laneTestWord_bit _ hi, BitVec.getLsbD_and, hmask i hi]
  by_cases htop : i = 31
  · subst htop
    rw [show (setBit v 31 false).getLsbD 31 = false from bit_setBit v false (by omega), Bool.false_and]
    exact (Bool.and_false _).symm
  · rw [show (setBit v 31 false).getLsbD i = v.getLsbD i from bit_setBit_ne v false (by omega) htop]
    simp only [htop, false_or]

/-- A lane under test none before: the one named enters its test (R551). -/
theorem laneTestEnable_leaves {d : Dev} (now : Nat) {l n : Nat} (hfree : d.rb Reg.DBG_LANE_TEST 31 = false) (hl : l < 80) (hn : n < 16) :
    let e := laneTestEnable now l n d
    e.reg Reg.DBG_LANE_TEST = wd (2 ^ 31 + n * 2 ^ 8 + l) ∧ ∀ p, d.lanePort l = some p → e.prtState p = 5 := by
  have hfree : bit (d.reg Reg.DBG_LANE_TEST) 31 = false := hfree
  have hval : 2 ^ 31 + n * 2 ^ 8 + l < 2 ^ 32 := by omega
  have hon : bit (wd (2 ^ 31 + n * 2 ^ 8 + l)) 31 = true := by
    refine (testBit_wd _ _ (by omega)).trans ?_
    rw [Nat.testBit_eq_decide_div_mod_eq, decide_eq_true_eq]
    omega
  have hlane : fld (wd (2 ^ 31 + n * 2 ^ 8 + l)) 6 0 = l := by
    rw [fld_wd _ _ _ (by omega) (by omega)]
    omega
  have hword := laneTestWord_named (l := l) (n := n) (by omega) hn
  unfold laneTestEnable
  rw [Nat.mod_eq_of_lt hn, Nat.mod_eq_of_lt (show l < 128 by omega)]
  generalize wd (2 ^ 31 + n * 2 ^ 8 + l) = w at hon hlane hword ⊢
  have hwrite : laneTestWrite now w d = { d.setReg Reg.DBG_LANE_TEST w with dbg := { d.dbg with testAt := now } }.laneTestOn now l := by
    unfold laneTestWrite
    simp only [hfree, hon, hlane, hword, hl, Bool.false_and, Bool.false_eq_true, if_false, decide_true, Bool.and_self, if_true]
    rfl
  rw [hwrite]
  obtain ⟨hreg, hstate⟩ := laneTestOn_leaves { d.setReg Reg.DBG_LANE_TEST w with dbg := { d.dbg with testAt := now } } now hl
  refine ⟨hreg.trans (Dev.reg_setReg_self _ _ _), fun p hp => hstate p ((lanePort_of_regs (fun q => ?_) l).trans hp)⟩
  exact Dev.reg_setReg_ne _ _ _ _ (by unfold Reg.DBG_LANE_TEST Reg.PRT_PORT_W2; omega)

/-- The test ends: what its register held of pattern and lane stays (R551). -/
theorem laneTestClear_leaves (d : Dev) (now : Nat) :
    (laneTestClear now d).reg Reg.DBG_LANE_TEST = d.reg Reg.DBG_LANE_TEST &&& 0x00000F7F#32 := by
  have hword := laneTestWord_closed (d.reg Reg.DBG_LANE_TEST)
  have hoff := bit_setBit (d.reg Reg.DBG_LANE_TEST) (i := 31) false (by omega)
  rw [← hword]
  unfold laneTestClear laneTestWrite
  generalize setBit (d.reg Reg.DBG_LANE_TEST) 31 false = w at hoff ⊢
  simp only [hoff, Bool.and_false, Bool.false_and, Bool.false_eq_true, if_false]
  split
  · exact (laneTestOff_test _ now (fld_lt _ 6 0)).trans (Dev.reg_setReg_self _ _ _)
  · exact Dev.reg_setReg_self _ _ _

end Sys2Proof.Machine
end

section
/-!
O52 (R542 to R547, R550 to R554): the collector, in-service test and debug.
-/

namespace Sys2Proof.Machine

/-! In-service test of a unit, by whether its operation is admitted (R550). -/

theorem isUnit_named {kind i : Nat} (hkind : kind < 3) (hunit : istUnit kind i = true) : (isUnitKind kind && isUnit i) = true := by
  have hi : i < 32 := by
    obtain ⟨-, hi⟩ | ⟨-, hi⟩ | ⟨-, hi⟩ := istUnit_cases hunit <;> omega
  exact Bool.and_eq_true_iff.mpr ⟨decide_eq_true (by omega), decide_eq_true hi⟩

section
variable {s : State} {kind i : Nat} (hreset : s.dev.pins.resetN = true) (hkind : kind < 3) (hunit : istUnit kind i = true)
include hreset hkind hunit

theorem exec_istOut_named : exec (.istOut kind i) s = .next (s.withDev (istOut s.clk.count kind i s.dev)) := by
  rw [exec_istOut, runDev_ok (isUnit_named hkind hunit), live_on hreset]

theorem exec_istBist_named : exec (.istBist kind i) s = .next (s.withDev (istBist kind i s.dev)) := by
  rw [exec_istBist, runDev_ok (isUnit_named hkind hunit), live_on hreset]

theorem exec_istReturn_named : exec (.istReturn kind i) s = .next (s.withDev (istReturn kind i s.dev)) := by
  rw [exec_istReturn, runDev_ok (isUnit_named hkind hunit), live_on hreset]

/-- An operation on a failed unit is refused, and only the registers of FLT_IST change. -/
theorem istFailed_refused (hidle : s.dev.rb Reg.FLT_IST_STATUS 31 = false) (hfailed : s.dev.unitFailed kind i = true) {cmd : Instr}
    (hcmd : cmd = .istOut kind i ∨ cmd = .istBist kind i ∨ cmd = .istReturn kind i) :
    ∃ e, exec cmd s = .next (s.withDev e) ∧ (e.reg Reg.FLT_IST_STATUS).toNat = 2 ∧ e = { s.dev with regs := e.regs } := by
  refine ⟨(s.dev.istName kind i).istDone 2, ?_, istRefused_leaves s.dev kind i⟩
  obtain rfl | rfl | rfl := hcmd
  · rw [exec_istOut_named hreset hkind hunit, istOut, istOp_refused hidle _ (.inl hfailed)]
  · rw [exec_istBist_named hreset hkind hunit, istBist, istOp_refused hidle _ (.inl hfailed)]
  · rw [exec_istReturn_named hreset hkind hunit, istReturn, istOp_refused hidle _ (.inl hfailed)]

/-- An out that would leave no unit of its kind is refused. -/
theorem istOut_last_refused (hidle : s.dev.rb Reg.FLT_IST_STATUS 31 = false) (hlast : s.dev.lastUnit kind i = true) :
    ∃ e, exec (.istOut kind i) s = .next (s.withDev e) ∧ (e.reg Reg.FLT_IST_STATUS).toNat = 2 ∧ e = { s.dev with regs := e.regs } := by
  have hnamed := lastUnit_named (fun o ho => istName_reg_ne s.dev kind i ho) (istName_flt s.dev kind i) kind i
  refine ⟨(s.dev.istName kind i).istDone 2, ?_, istRefused_leaves s.dev kind i⟩
  rw [exec_istOut_named hreset hkind hunit, istOut, istOp_refused hidle _ (.inr (hnamed.trans hlast))]

end

theorem faultNPulseEnd_due {d : Dev} {now t : Nat} (hend : d.pins.faultEnd = some t) (hdue : t ≤ now) :
    faultNPulseEnd now d = { d with pins := { d.pins with faultEnd := none } } := by
  unfold faultNPulseEnd
  rw [hend]
  exact if_pos hdue

/-- Settles O52: each command by what its own function leaves; a live command of the debug unit or of FLT_IST runs while RESET_N is high. -/
theorem serviceAndDebug : Obligations.ServiceAndDebug := by
  unfold Obligations.ServiceAndDebug
  intro s
  refine ⟨fun x rest hinbox hlisted hsrc => ?report, fun c y t hc hfind hsince hlate hrun => ?drain, fun t hend hdue => ?pulse,
    fun kind array i harray hbist hkind hunit => ?bist, fun hreset => ⟨fun n hn hlisted => ?inject,
      fun kind i hkind hunit hidle => ⟨fun hfailed cmd hcmd => istFailed_refused hreset hkind hunit hidle hfailed hcmd,
        fun _ hlast => istOut_last_refused hreset hkind hunit hidle hlast, fun hgood hlast => ?out, fun hgood hout => ⟨?test, ?back⟩⟩,
      fun x htgt hon => ⟨fun t hx hruns hfree => ?halt, fun a hhalted => ⟨?resume, fun hruns => ?step, fun v hmin hmax hno => ?context⟩,
        fun t hx hruns => ⟨fun k hkey hactive => ?abort, fun hfree => ?kill⟩⟩,
      fun hfree l n hl hn => ?enable, ?clear⟩, fun t a ht hpend hstall hready => ?halted⟩
  case report => exact ⟨_, (exec_faultReport _ _ s).trans (runDev_ok (decide_eq_true hsrc)), faultReport_leaves hinbox hlisted hsrc s.clk.count⟩
  case drain => exact ⟨_, (exec_drainTimeout c s).trans (runDev_ok (decide_eq_true hc)), drainTimeout_leaves hc hfind hsince hlate hrun⟩
  case pulse => exact (exec_faultNPulseEnd s).trans (runDev_becomes (faultNPulseEnd_due hend hdue))
  case bist =>
    obtain ⟨hpass, hfail⟩ := bistDone_leaves array hbist hunit
    exact ⟨⟨_, (exec_bistDone true array s).trans (runDev_ok (decide_eq_true harray)), hpass⟩,
      ⟨_, (exec_bistDone false array s).trans (runDev_ok (decide_eq_true harray)), hfail⟩⟩
  case inject =>
    refine (exec_faultInject n s).trans ((runDev_ok (decide_eq_true hn)).trans ?_)
    rw [live_on hreset, faultInject, if_pos hlisted]
  case out => exact ⟨_, exec_istOut_named hreset hkind hunit, istOut_leaves hunit hidle hgood s.clk.count hlast⟩
  case test => exact ⟨_, exec_istBist_named hreset hkind hunit, istBist_leaves hunit hidle hgood hout⟩
  case back => exact ⟨_, exec_istReturn_named hreset hkind hunit, istReturn_leaves hunit hidle hgood hout⟩
  case halt =>
    subst hx
    have hhold := haltCmd_leaves htgt hon hruns hfree false
    have habort := haltCmd_leaves htgt hon hruns hfree true
    rw [← live_on (f := haltCmd false) hreset] at hhold
    rw [← live_on (f := haltCmd true) hreset] at habort
    exact ⟨⟨_, (exec_haltHold s).trans (runDev_ok rfl), hhold⟩, ⟨_, (exec_haltAbort s).trans (runDev_ok rfl), habort⟩⟩
  case resume =>
    refine ⟨_, (exec_resume s).trans (runDev_ok rfl), ?_⟩
    rw [live_on hreset]
    exact resumeCmd_leaves htgt hon hhalted _ _
  case step =>
    refine ⟨_, (exec_step s).trans (runDev_ok rfl), ?_⟩
    rw [live_on hreset]
    exact stepCmd_leaves htgt hon hhalted hruns _ _
  case context =>
    refine ⟨_, (exec_debugContextWrite v s).trans (runDev_ok rfl), ?_⟩
    rw [live_on hreset]
    exact debugContextWrite_leaves htgt hon hhalted hno v hmin hmax
  case abort =>
    subst hx
    refine ⟨_, (exec_kill s).trans (runDev_ok rfl), ?_⟩
    rw [live_on hreset]
    exact killCmd_aborts htgt hon hruns hkey hactive
  case kill =>
    subst hx
    refine ⟨_, (exec_kill s).trans (runDev_ok rfl), ?_⟩
    rw [live_on hreset]
    exact killCmd_kills htgt hon hruns hfree
  case enable =>
    have hnamed : (isTestLane l && isPattern n) = true := Bool.and_eq_true_iff.mpr ⟨decide_eq_true (by omega), decide_eq_true hn⟩
    refine ⟨_, (exec_laneTestEnable l n s).trans (runDev_ok hnamed), ?_⟩
    rw [live_on hreset]
    exact laneTestEnable_leaves _ hfree hl hn
  case clear =>
    refine ⟨_, (exec_laneTestClear s).trans (runDev_ok rfl), ?_⟩
    rw [live_on hreset]
    exact laneTestClear_leaves s.dev _
  case halted => exact ⟨_, (exec_haltComplete t s).trans (runDev_ok ht), haltComplete_leaves _ hpend hstall hready⟩

end Sys2Proof.Machine
end

section
/-!
SUPPORT. The judging of a read burst (R432): what it leaves of the controller's state and of its registers.
-/

namespace Sys2Proof.Machine

/-- Of the registers below the error capture's none is written, and of the controller's state only the poisoned words and the
dated reads. -/
def judged (d e : Dev) : Prop := (∀ o, o < Reg.DRC_ERR_STATUS → e.reg o = d.reg o) ∧
  ∃ p n t, e.drc = { d.drc with poison := p, ueNew := n, ueTimes := t }

section
variable {a b c : Dev}

theorem judged_refl (d : Dev) : judged d d := ⟨fun _ _ => rfl, _, _, _, rfl⟩

theorem judged_trans (h : judged a b) (k : judged b c) : judged a c := by
  obtain ⟨hreg, _, _, _, hdrc⟩ := h
  obtain ⟨kreg, p, n, t, kdrc⟩ := k
  rw [hdrc] at kdrc
  exact ⟨fun o ho => (kreg o ho).trans (hreg o ho), p, n, t, kdrc⟩

theorem judged_setReg (h : judged a b) {o : Nat} (ho : Reg.DRC_ERR_STATUS ≤ o) (v : Word) : judged a (b.setReg o v) :=
  ⟨fun p hp => (b.reg_setReg_ne _ _ _ (by omega)).trans (h.1 p hp), h.2⟩

theorem judged_bump (h : judged a b) {o : Nat} (ho : Reg.DRC_ERR_STATUS ≤ o) (n : Nat) : judged a (b.bump o n) := judged_setReg h ho _

theorem judged_raise (h : judged a b) (src x : Nat) : judged a (b.raise src x) := h

/-- The poisoned words and the reads to date. -/
theorem judged_drc (h : judged a b) (p : Tab Bool) (n : List Nat) (t : Tab (List Nat)) :
    judged a { b with drc := { b.drc with poison := p, ueNew := n, ueTimes := t } } :=
  judged_trans h ⟨fun _ _ => rfl, _, _, _, rfl⟩

end

theorem chanErr_high (c : Nat) : Reg.DRC_ERR_STATUS ≤ Reg.DRC_CHAN_W1 c ∧ Reg.DRC_ERR_STATUS ≤ Reg.DRC_CHAN_W2 c := by
  unfold Reg.DRC_ERR_STATUS Reg.DRC_CHAN_W1 Reg.DRC_CHAN_W2
  omega

theorem dramCapture_judged (d : Dev) (kind a : Nat) : judged d (d.dramCapture kind a) := by
  unfold Dev.dramCapture
  split
  · exact judged_setReg (judged_refl d) (by decide) _
  · exact judged_setReg (judged_setReg (judged_setReg (judged_refl d) (by decide) _) (by decide) _) (by decide) _

theorem dramPoison_judged (d : Dev) (kind a : Nat) : judged d (d.dramPoison kind a) := by
  have hcounted := judged_bump (judged_bump (judged_refl d) (o := Reg.DRC_UE_CNT) (by decide) 1) (chanErr_high (d.dramLoc a).1).2 1
  unfold Dev.dramPoison
  exact judged_drc (judged_raise (judged_trans hcounted (dramCapture_judged _ _ _)) _ _) _ _ _

theorem dramRecover_judged (d : Dev) (a : Nat) : judged d (d.dramRecover a) :=
  judged_raise (judged_bump (judged_drc (judged_refl d) _ _ _) (chanErr_high _).2 1) _ _

/-- Poisoned reads that are dated leave the registers. -/
theorem dateUes_leaves (d : Dev) (now : Nat) : (∀ o, (d.dateUes now).reg o = d.reg o) ∧ judged d (d.dateUes now) := by
  obtain ⟨n, t, f, heq⟩ := dateUes_reads d now
  rw [heq]
  exact ⟨fun _ => rfl, fun _ _ => rfl, d.drc.poison, n, t, rfl⟩

theorem dramUe_judged (d : Dev) (now kind a : Nat) : judged d (d.dramUe now kind a) :=
  judged_trans (dramPoison_judged d kind a) (dateUes_leaves _ now).2

theorem dramCapture_ueCnt (d : Dev) (kind a : Nat) : (d.dramCapture kind a).reg Reg.DRC_UE_CNT = d.reg Reg.DRC_UE_CNT := by
  unfold Dev.dramCapture
  split
  · exact Dev.reg_setRb_ne _ _ _ _ _ (by decide)
  · exact ((Dev.reg_setReg_ne _ _ _ _ (by decide)).trans (Dev.reg_setReg_ne _ _ _ _ (by decide))).trans (Dev.reg_setReg_ne _ _ _ _ (by decide))

theorem wd_toNat_add (w : Word) (n : Nat) : wd (w.toNat + n) = w + wd n := by
  refine BitVec.eq_of_toNat_eq ?_
  unfold wd
  simp only [BitVec.toNat_ofNat, BitVec.toNat_add, Nat.add_mod_mod]

/-- A poisoned read is counted once (R432). -/
theorem dramUe_counted (d : Dev) (now kind a : Nat) : (d.dramUe now kind a).reg Reg.DRC_UE_CNT = d.reg Reg.DRC_UE_CNT + 1 := by
  have hchan : Reg.DRC_UE_CNT ≠ Reg.DRC_CHAN_W2 (d.dramLoc a).1 := by
    unfold Reg.DRC_UE_CNT Reg.DRC_CHAN_W2
    omega
  refine ((dateUes_leaves _ now).1 _).trans ((dramCapture_ueCnt _ kind a).trans ((Dev.reg_setReg_ne _ _ _ _ hchan).trans ?_))
  exact (Dev.reg_setReg_self _ _ _).trans (wd_toNat_add _ 1)

/-! The finding, and the judgement from it. -/

/-- The device after the choice that a finding makes (R432, log entry 2). -/
def Dev.picked (d : Dev) : Dev := (d.pick 3).2

theorem picked_judged (d : Dev) : judged d d.picked := ⟨fun _ _ => rfl, _, _, _, rfl⟩

/-- A burst read with nothing changed is clean. -/
theorem burstBeats_unchanged {r : BurstRead} (h : r.flips = []) (many : Nat) : burstBeats r many = .clean := by
  have hmask : ∀ b, burstMask r b = 0 := fun b => by
    unfold burstMask
    rw [h]
    rfl
  unfold burstBeats
  simp only [hmask]
  rfl

theorem finding_clean {d : Dev} {a : Nat} {first : BurstRead} (again : BurstRead) (htag : d.tagMatches a first = true) (hflips : first.flips = []) :
    d.finding a first again = (.clean, d.picked) := by
  have htag : (d.pick 3).2.tagMatches a first = true := htag
  unfold Dev.finding
  dsimp only
  rw [htag, if_pos rfl, burstBeats_unchanged hflips]
  rfl

/-- A judgement that the data are bad: recovered from the copy or the stripe, or poisoned (R432). -/
def Dev.judgedBad (d : Dev) (now base kind : Nat) : Bool × Dev :=
  if d.recoverable base then (false, d.dramRecover base) else (true, d.dramUe now kind base)

theorem judgedBad_judged (d : Dev) (now base kind : Nat) : judged d (d.judgedBad now base kind).2 := by
  unfold Dev.judgedBad
  split
  · exact dramRecover_judged d base
  · exact dramUe_judged d now kind base

theorem judge_judged (d : Dev) (now a : Nat) (first again : BurstRead) : judged d (d.judge now a first again).2 := by
  have hpick := picked_judged d
  unfold Dev.judge
  rw [show d.finding a first again = ((d.finding a first again).1, d.picked) from rfl]
  generalize (d.finding a first again).1 = f
  generalize d.picked = e at hpick ⊢
  have hfixed : judged d (((e.bump Reg.DRC_CE_CNT 1).bump (Reg.DRC_CHAN_W1 (e.dramLoc a).1) 1).raise Src.drcCe (e.dramLoc a).1) :=
    judged_raise (judged_bump (judged_bump hpick (by decide) 1) (chanErr_high _).1 1) _ _
  have hsound : ∀ g : Finding, judged d (if e.poisoned (a / 64 * 64) 64 then e.judgedBad now (a / 64 * 64) 0
      else match g with
        | .clean => (false, e)
        | _ => (false, ((e.bump Reg.DRC_CE_CNT 1).bump (Reg.DRC_CHAN_W1 (e.dramLoc a).1) 1).raise Src.drcCe (e.dramLoc a).1)).2 := fun g => by
    split
    · exact judged_trans hpick (judgedBad_judged _ _ _ _)
    · split
      · exact hpick
      · exact hfixed
  cases f with
  | address => exact judged_trans hpick (judgedBad_judged e now _ 1)
  | beat b => exact judged_trans (judged_drc hpick _ _ _) (judgedBad_judged _ now _ 0)
  | clean => exact hsound .clean
  | corrected => exact hsound .corrected
  | retried => exact hsound .retried

section
variable {d : Dev} {a : Nat} {first : BurstRead} (htag : d.tagMatches a first = true) (hflips : first.flips = [])
include htag hflips

/-- A clean burst of sound data (R432). -/
theorem judge_sound (now : Nat) (again : BurstRead) (hsound : d.poisoned (a / 64 * 64) 64 = false) :
    d.judge now a first again = (false, d.picked) := by
  have hsound : d.picked.poisoned (a / 64 * 64) 64 = false := hsound
  unfold Dev.judge
  rw [finding_clean again htag hflips]
  dsimp only
  rw [hsound]
  rfl

/-- A clean burst of poisoned data that nothing recovers (R432). -/
theorem judge_poisoned (now : Nat) (again : BurstRead) (hbad : d.poisoned (a / 64 * 64) 64 = true) (hgone : d.recoverable (a / 64 * 64) = false) :
    d.judge now a first again = (true, d.picked.dramUe now 0 (a / 64 * 64)) := by
  have hbad : d.picked.poisoned (a / 64 * 64) 64 = true := hbad
  have hgone : d.picked.recoverable (a / 64 * 64) = false := hgone
  unfold Dev.judge
  rw [finding_clean again htag hflips]
  dsimp only
  rw [hbad, hgone]
  rfl

end

end Sys2Proof.Machine
end

section
/-!
SUPPORT. The DRAM controller's scheduler (R434 to R436): the read a command slot issues.
-/

namespace Sys2Proof.Machine

/-! The choice of a slot (R436). -/

/-- The location of a read in its channel. -/
def Dev.slotBank (d : Dev) (ch : Nat) (q : DramReq) : DramBank := dramBank (d.rankLog ch) (d.dramLoc (d.servingAddr q.addr)).2

/-- Whether a read hits an open row. -/
def Dev.slotHit (d : Dev) (ch : Nat) (q : DramReq) : Bool :=
  decide (tget none d.drc.rows (bankKey ch (d.slotBank ch q)) = some (d.slotBank ch q).row)

/-- The reads a slot may issue. -/
def Dev.slotReads (d : Dev) (now ch sub : Nat) : List (Nat × DramReq) :=
  (d.readQueue ch sub).filter fun e => (d.readQueue ch sub).all (fun f => decide (e.1 ≤ f.1 ∨ f.2.addr / 64 ≠ e.2.addr / 64)) &&
    d.spillRoom e.2 && (d.slotHit ch e.2 || d.mayActivate now ch (d.slotBank ch e.2))

/-- The bank groups in rotation from the one after the last. -/
def rotation (last : Nat) : List Nat := (List.range 8).map fun i => (last + 1 + i) % 8

/-- A read among those of the lowest class: a row hit first, else the oldest of the next bank group. -/
def slotChoice (hit : DramReq → Bool) (group : DramReq → Nat) (last : Nat) (here : List (Nat × DramReq)) : Option (Nat × DramReq) :=
  match here.find? (fun e => hit e.2) with
  | some e => some e
  | none => ((rotation last).find? (fun g => here.any (fun e => decide (group e.2 = g)))).bind
      (fun g => here.find? (fun e => decide (group e.2 = g)))

/-- The state of a slot that has issued a read. -/
def Dev.issueRead (d : Dev) (now ch sub i : Nat) (q : DramReq) : Dev :=
  let b := d.slotBank ch q
  let k := rankKey ch b
  { d with drc := { d.drc with
    reqs := d.drc.reqs.set i { q with issued := true }
    rows := tset none d.drc.rows (bankKey ch b) (some b.row)
    group := if d.slotHit ch q then d.drc.group else tset 0 d.drc.group (2 * ch + sub) b.group
    acts := if d.slotHit ch q then d.drc.acts else tset [] d.drc.acts k (now :: (tget [] d.drc.acts k).take 3) } }

theorem dramCommandIssue_issues {d : Dev} {now ch sub k i : Nat} {q : DramReq} (hopen : d.chanOpen ch = true)
    (hclass : (List.range 5).find? (fun k => (d.slotReads now ch sub).any (fun e => decide (d.reqClass now e.2 = k))) = some k)
    (hchoice : slotChoice (d.slotHit ch) (fun q => (d.slotBank ch q).group) (tget 0 d.drc.group (2 * ch + sub))
      ((d.slotReads now ch sub).filter (fun e => decide (d.reqClass now e.2 = k))) = some (i, q)) :
    dramCommandIssue now ch sub d = d.issueRead now ch sub i q := by
  unfold dramCommandIssue
  rw [hopen, Bool.not_true, if_neg Bool.false_ne_true]
  extract_lets queue first hit may last order
  split
  · next h => exact absurd (hclass.symm.trans h) nofun
  · next j h =>
    obtain rfl := Option.some.inj (hclass.symm.trans h)
    extract_lets here chosen
    have hchosen : chosen = some (i, q) := hchoice
    clear_value chosen
    rw [hchosen]
    rfl

theorem mem_rotation (last : Nat) {g : Nat} (hg : g < 8) : g ∈ rotation last :=
  List.mem_map.mpr ⟨(g + 7 - last % 8) % 8, List.mem_range.mpr (by omega), by omega⟩

theorem dramBank_group (r x : Nat) : (dramBank r x).group < 8 :=
  Nat.xor_lt_two_pow (n := 3) (Nat.mod_lt _ (by omega)) (Nat.mod_lt _ (by omega))

/-- Among reads the choice finds one, and a row hit if there is one. -/
theorem slotChoice_some {hit : DramReq → Bool} {group : DramReq → Nat} (last : Nat) {here : List (Nat × DramReq)} (hgroup : ∀ q, group q < 8)
    (hsome : here ≠ []) : ∃ x ∈ here, slotChoice hit group last here = some x ∧ ((∃ y ∈ here, hit y.2 = true) → hit x.2 = true) := by
  unfold slotChoice
  cases hfind : here.find? (fun e => hit e.2) with
  | some x => exact ⟨x, List.mem_of_find?_eq_some hfind, rfl, fun _ => List.find?_some (p := fun e : Nat × DramReq => hit e.2) hfind⟩
  | none =>
    obtain ⟨y, hy⟩ := List.exists_mem_of_ne_nil here hsome
    obtain ⟨g, hg⟩ := Option.isSome_iff_exists.mp (List.find?_isSome (p := fun g => here.any (fun e => decide (group e.2 = g))).mpr
      ⟨group y.2, mem_rotation last (hgroup y.2),
      List.any_eq_true.mpr ⟨y, hy, decide_eq_true rfl⟩⟩)
    obtain ⟨z, hz, hzg⟩ := List.any_eq_true.mp (List.find?_some (p := fun g => here.any (fun e => decide (group e.2 = g))) hg)
    obtain ⟨x, hx⟩ := Option.isSome_iff_exists.mp (List.find?_isSome (p := fun e : Nat × DramReq => decide (group e.2 = g)).mpr ⟨z, hz, hzg⟩)
    refine ⟨x, List.mem_of_find?_eq_some hx, ?_, fun ⟨w, hw, hit⟩ => absurd hit (List.find?_eq_none.mp hfind w hw)⟩
    dsimp only
    rw [hg]
    exact hx

theorem mem_slotReads {d : Dev} {now ch sub : Nat} {x : Nat × DramReq} : x ∈ d.slotReads now ch sub ↔
    x ∈ d.readQueue ch sub ∧ d.spillRoom x.2 = true ∧
      (tget none d.drc.rows (bankKey ch (d.slotBank ch x.2)) = some (d.slotBank ch x.2).row ∨ d.mayActivate now ch (d.slotBank ch x.2) = true) ∧
      ∀ y ∈ d.readQueue ch sub, x.1 ≤ y.1 ∨ y.2.addr / 64 ≠ x.2.addr / 64 := by
  simp only [Dev.slotReads, Dev.slotHit, List.mem_filter, Bool.and_eq_true, Bool.or_eq_true, List.all_eq_true, decide_eq_true_eq]
  exact and_congr_right fun _ => ⟨fun ⟨⟨hfirst, hroom⟩, hready⟩ => ⟨hroom, hready, hfirst⟩,
    fun ⟨hroom, hready, hfirst⟩ => ⟨⟨hfirst, hroom⟩, hready⟩⟩

/-- A read of a queue stands at its place in the controller, not issued and not done (R434). -/
theorem readQueue_waits {d : Dev} {ch sub i : Nat} {q : DramReq} (h : (i, q) ∈ d.readQueue ch sub) :
    d.drc.reqs[i]? = some q ∧ q.issued = false ∧ q.done = none := by
  obtain ⟨hzip, hwait⟩ := List.mem_filter.mp (List.mem_of_mem_take h)
  obtain ⟨k, hk, hget⟩ := List.mem_iff_getElem.mp hzip
  rw [List.getElem_zip, List.getElem_range] at hget
  obtain ⟨rfl, hq⟩ := Prod.mk.inj hget
  obtain ⟨hwait, -⟩ := Bool.and_eq_true_iff.mp hwait
  obtain ⟨hissued, hdone⟩ := Bool.and_eq_true_iff.mp hwait
  exact ⟨List.getElem?_eq_some_iff.mpr ⟨_, hq⟩, by simpa using hissued, Option.isNone_iff_eq_none.mp hdone⟩

/-- The lowest class among reads whose class is below 5. -/
theorem lowest_class {α : Type} {l : List α} {class_ : α → Nat} {x : α} (hx : x ∈ l) (hlow : class_ x < 5) :
    ∃ k, (List.range 5).find? (fun k => l.any (fun e => decide (class_ e = k))) = some k ∧
      l.filter (fun e => decide (class_ e = k)) ≠ [] ∧ ∀ y ∈ l, k ≤ class_ y := by
  obtain ⟨k, hk⟩ := Option.isSome_iff_exists.mp (List.find?_isSome (p := fun k => l.any (fun e => decide (class_ e = k))).mpr ⟨class_ x, List.mem_range.mpr hlow,
    List.any_eq_true.mpr ⟨x, hx, decide_eq_true rfl⟩⟩)
  obtain ⟨z, hz, hzk⟩ := List.any_eq_true.mp (List.find?_some (p := fun k => l.any (fun e => decide (class_ e = k))) hk)
  refine ⟨k, hk, List.ne_nil_of_mem (List.mem_filter.mpr ⟨hz, hzk⟩), fun y hy => ?_⟩
  by_contra hlt
  have hnone := (List.find?_range_eq_some.mp hk).2.2 (class_ y) (by omega)
  rw [Bool.not_eq_true', List.any_eq_false] at hnone
  exact hnone y hy (decide_eq_true rfl)

/-- What a command slot with something to issue leaves (R434 to R436). -/
theorem dramCommandIssue_leaves {d : Dev} {now ch sub : Nat} (hopen : d.chanOpen ch = true)
    (hready : ∃ x ∈ d.slotReads now ch sub, d.reqClass now x.2 < 5) :
    ∃ i q, dramCommandIssue now ch sub d = d.issueRead now ch sub i q ∧ (i, q) ∈ d.slotReads now ch sub ∧
      (∀ x ∈ d.slotReads now ch sub, d.reqClass now q ≤ d.reqClass now x.2) ∧
      ((∃ x ∈ d.slotReads now ch sub, d.reqClass now x.2 = d.reqClass now q ∧ d.slotHit ch x.2 = true) → d.slotHit ch q = true) := by
  obtain ⟨x, hx, hlow⟩ := hready
  obtain ⟨k, hk, hsome, hmin⟩ := lowest_class (class_ := fun e : Nat × DramReq => d.reqClass now e.2) hx hlow
  obtain ⟨⟨i, q⟩, hmem, hchoice, hhit⟩ := slotChoice_some (hit := d.slotHit ch) (group := fun q => (d.slotBank ch q).group)
    (tget 0 d.drc.group (2 * ch + sub)) (fun _ => dramBank_group _ _) hsome
  obtain ⟨hmay, hclass⟩ := List.mem_filter.mp hmem
  have hclass : d.reqClass now q = k := of_decide_eq_true hclass
  refine ⟨i, q, dramCommandIssue_issues hopen hk hchoice, hmay, fun y hy => hclass.trans_le (hmin y hy), fun ⟨y, hy, hsame, hyhit⟩ => ?_⟩
  exact hhit ⟨y, List.mem_filter.mpr ⟨hy, decide_eq_true (hsame.trans hclass)⟩, hyhit⟩

/-! A read that returns, and the patrol walker (R432, R433). -/

/-- The judgement of a read: of its burst, and poisoned besides where its own data are lost. -/
def Dev.readJudged (d : Dev) (now : Nat) (q : DramReq) (first again : BurstRead) : Bool × Dev :=
  let r := d.judge now (d.servingAddr q.addr) first again
  if !r.1 && d.lost q.addr then (true, r.2.dramUe now 0 q.addr) else r

theorem readJudged_judged (d : Dev) (now : Nat) (q : DramReq) (first again : BurstRead) : judged d (d.readJudged now q first again).2 := by
  have hjudge := judge_judged d now (d.servingAddr q.addr) first again
  unfold Dev.readJudged
  dsimp only
  split
  · exact judged_trans hjudge (dramUe_judged _ _ _ _)
  · exact hjudge

/-- The device with a read done. -/
def Dev.readDone (d : Dev) (i : Nat) (q : DramReq) (b : Bool) : Dev :=
  { d with drc := { d.drc with reqs := d.drc.reqs.set i { q with done := some b } } }

theorem dramReadReturn_judges {d : Dev} {ch sub i : Nat} {q : DramReq} (hfirst : findIx (fun (q : DramReq) => q.issued && q.done.isNone &&
    decide ((d.dramLoc (d.servingAddr q.addr)).1 = ch) && decide ((d.dramLoc (d.servingAddr q.addr)).2 / 64 % 2 = sub)) d.drc.reqs = some i)
    (hq : d.drc.reqs[i]? = some q) (now : Nat) (first again : BurstRead) : let r := d.readJudged now q first again
    dramReadReturn now ch sub first again d = r.2.readDone i q r.1 := by
  unfold dramReadReturn
  dsimp only
  rw [hfirst, Option.bind_some, hq, Option.map_some]
  rfl

theorem readDone_reqs {d e : Dev} (h : judged d e) (i : Nat) (q : DramReq) (b : Bool) :
    (e.readDone i q b).drc.reqs = d.drc.reqs.set i { q with done := some b } := by
  obtain ⟨-, _, _, _, hdrc⟩ := h
  unfold Dev.readDone
  dsimp only
  rw [hdrc]

theorem scrubVisit_moves {d : Dev} (now : Nat) (first again : BurstRead) (hon : d.rb Reg.DRC_SCRUB 31 = true) (hfit : d.fittedDram ≠ 0)
    (hdue : d.drc.scrubAt ≠ 0 ∨ d.drc.scrubFrom = 0 ∨ d.drc.scrubFrom + d.rf Reg.DRC_SCRUB 19 0 * 1000000000 ≤ now) :
    (scrubVisit now first again d).drc.scrubAt = (d.drc.scrubAt + 64) % d.fittedDram := by
  have hgo : ¬ (d.drc.scrubAt = 0 ∧ d.drc.scrubFrom ≠ 0 ∧ now < d.drc.scrubFrom + d.rf Reg.DRC_SCRUB 19 0 * 1000000000) := by omega
  unfold scrubVisit
  dsimp only
  rw [hon, Bool.not_true, Bool.false_or, if_neg (by rw [decide_eq_true_eq]; exact hfit), if_neg hgo]
  generalize heq : ({ d with drc := { d.drc with
      scrubAt := (d.drc.scrubAt + 64) % d.fittedDram, scrubFrom := if d.drc.scrubAt = 0 then now else d.drc.scrubFrom } } : Dev) = e
  have hat : e.drc.scrubAt = (d.drc.scrubAt + 64) % d.fittedDram := by rw [← heq]
  split
  · obtain ⟨-, _, _, _, hdrc⟩ := judge_judged e now d.drc.scrubAt first again
    rw [hdrc]
    exact hat
  · exact hat

theorem scrubVisit_waits {d : Dev} (now : Nat) (first again : BurstRead) (hon : d.rb Reg.DRC_SCRUB 31 = true) (hfit : d.fittedDram ≠ 0)
    (hstart : d.drc.scrubAt = 0) (hwait : ¬ (d.drc.scrubFrom = 0 ∨ d.drc.scrubFrom + d.rf Reg.DRC_SCRUB 19 0 * 1000000000 ≤ now)) :
    scrubVisit now first again d = d := by
  unfold scrubVisit
  dsimp only
  rw [hon, Bool.not_true, Bool.false_or, if_neg (by rw [decide_eq_true_eq]; exact hfit), if_pos (by omega)]

end Sys2Proof.Machine
end

section
/-!
SUPPORT. The frequency change and the training of the DRAM (R439 to R442): what its steps leave.
-/

namespace Sys2Proof.Machine

/-! What the state of a frequency change rests on. -/

section
variable {d e : Dev}

theorem anyStopped_congr (h : ∀ c, e.reg (Reg.DRC_CHAN_W0 c) = d.reg (Reg.DRC_CHAN_W0 c)) : e.anyStopped = d.anyStopped := by
  have hbit : ∀ c, e.rb (Reg.DRC_CHAN_W0 c) 28 = d.rb (Reg.DRC_CHAN_W0 c) 28 := fun c => rb_of_reg (h c) 28
  unfold Dev.anyStopped
  simp only [hbit]

theorem anyPanic_congr (hreg : e.reg Reg.DRC_PANIC = d.reg Reg.DRC_PANIC) (hpanics : e.drc.panics = d.drc.panics) (hreqs : e.drc.reqs = d.drc.reqs) :
    e.anyPanic = d.anyPanic := by
  unfold Dev.anyPanic Dev.spillPanic Dev.spillLevel
  rw [hpanics, hreqs, rf_of_reg hreg 31 24]

theorem activeSet_congr (h : e.rb Reg.DRC_FREQ_STATUS 16 = d.rb Reg.DRC_FREQ_STATUS 16) : e.activeSet = d.activeSet := congrArg b2n h

end

theorem activeSet_le (d : Dev) : d.activeSet ≤ 1 := b2n_le _

theorem chanW0_ne (c : Nat) {o : Nat} (h : o < 0x1000200) : Reg.DRC_CHAN_W0 c ≠ o := by
  unfold Reg.DRC_CHAN_W0
  omega

/-- The device whose frequency change entered its state now. -/
def Dev.sinceNow (d : Dev) (now : Nat) : Dev := { d with drc := { d.drc with freqSince := now } }

theorem setFreqState_eq (d : Dev) (now st : Nat) : d.setFreqState now st = (d.setRf Reg.DRC_FREQ_STATUS 31 28 st).sinceNow now := rfl

theorem sinceNow_leaves (d : Dev) (now : Nat) : let e := d.sinceNow now
    e.drc = { d.drc with freqSince := now } ∧ (∀ o, e.reg o = d.reg o) ∧ e.flt = d.flt ∧ e.tca = d.tca :=
  ⟨rfl, fun _ => rfl, rfl, rfl⟩

theorem setFreqState_leaves (d : Dev) (now : Nat) {st : Nat} (hst : st < 16) : let e := d.setFreqState now st
    e.freqState = st ∧ e.drc = { d.drc with freqSince := now } ∧ (∀ o, o ≠ Reg.DRC_FREQ_STATUS → e.reg o = d.reg o) ∧
      (∀ i, i < 28 → e.rb Reg.DRC_FREQ_STATUS i = d.rb Reg.DRC_FREQ_STATUS i) ∧ e.flt = d.flt ∧ e.tca = d.tca := by
  obtain ⟨hdrc, hreg, hflt, htca⟩ := sinceNow_leaves (d.setRf Reg.DRC_FREQ_STATUS 31 28 st) now
  rw [setFreqState_eq]
  dsimp only
  rw [hdrc, hflt, htca, Dev.setRf_drc, Dev.setRf_flt, Dev.setRf_tca]
  refine ⟨(rf_of_reg (hreg _) 31 28).trans ?_, rfl, fun o ho => (hreg o).trans (Dev.reg_setRf_ne _ _ _ _ _ _ ho),
    fun i hi => (rb_of_reg (hreg _) i).trans (Dev.rb_setRf_apart _ _ _ _ _ _ (by omega) (by omega) (.inr hi)), rfl, rfl⟩
  exact (Dev.rf_setRf_self d _ _ _ _ (by omega) (by omega)).trans (Nat.mod_eq_of_lt (by omega))

theorem forceSwitch_eq (d : Dev) (now : Nat) :
    d.forceSwitch now = ((d.setRb Reg.DRC_FREQ_STATUS 24 true).raise Src.drcFreqForced 0).setFreqState now 3 := rfl

/-- What a switch that proceeds under panic leaves (R439, R459). -/
theorem forceSwitch_leaves (d : Dev) (now : Nat) : let e := d.forceSwitch now
    e.freqState = 3 ∧ e.drc = { d.drc with freqSince := now } ∧ (∀ o, o ≠ Reg.DRC_FREQ_STATUS → e.reg o = d.reg o) ∧
      (∀ i, i < 28 → i ≠ 24 → e.rb Reg.DRC_FREQ_STATUS i = d.rb Reg.DRC_FREQ_STATUS i) ∧
      e.rb Reg.DRC_FREQ_STATUS 24 = true ∧ e.flt.inbox = d.flt.inbox ++ [⟨Src.drcFreqForced, 0, false⟩] := by
  obtain ⟨hstate, hdrc, hregs, hbits, hflt, -⟩ := setFreqState_leaves ((d.setRb Reg.DRC_FREQ_STATUS 24 true).raise Src.drcFreqForced 0) now (st := 3) (by omega)
  rw [forceSwitch_eq]
  dsimp only
  rw [hdrc, hflt, hbits 24 (by omega), raise_inbox, Dev.raise_drc, Dev.setRb_drc, Dev.setRb_flt]
  exact ⟨hstate, rfl, fun o ho => (hregs o ho).trans ((raise_reg _ _ _ _).trans (Dev.reg_setRb_ne _ _ _ _ _ ho)),
    fun i hi hne => (hbits i hi).trans ((rb_of_reg (raise_reg _ _ _ _) i).trans (Dev.rb_setRb_apart _ _ _ _ _ (by omega) hne)),
    (rb_of_reg (raise_reg _ _ _ _) 24).trans (Dev.rb_setRb_self _ _ _ _ (by omega)), rfl⟩

/-- The state that a latched switch enters (R439). -/
def Dev.latchedState (d : Dev) (defer : Nat) : Nat :=
  if d.anyStopped = true then 1 else if d.anyPanic = true ∧ defer ≠ 0 then 2 else 3

/-- What the latching of a switch leaves (R439). -/
theorem latchSwitch_leaves (d : Dev) (now : Nat) : let e := d.latchSwitch now
    e.freqState = d.latchedState d.drc.freqDefer ∧ e.drc = { d.drc with freqSince := now } ∧
      (∀ o, o ≠ Reg.DRC_FREQ_STATUS → e.reg o = d.reg o) ∧
      (∀ i, i < 28 → i ≠ 24 → e.rb Reg.DRC_FREQ_STATUS i = d.rb Reg.DRC_FREQ_STATUS i) ∧
      if d.anyStopped = false ∧ d.anyPanic = true ∧ d.drc.freqDefer = 0 then
        e.rb Reg.DRC_FREQ_STATUS 24 = true ∧ e.flt.inbox = d.flt.inbox ++ [⟨Src.drcFreqForced, 0, false⟩] else e.flt = d.flt := by
  have hquiet : ∀ st, st < 16 → st = d.latchedState d.drc.freqDefer → ¬ (d.anyStopped = false ∧ d.anyPanic = true ∧ d.drc.freqDefer = 0) →
      let e := d.setFreqState now st
      e.freqState = d.latchedState d.drc.freqDefer ∧ e.drc = { d.drc with freqSince := now } ∧
      (∀ o, o ≠ Reg.DRC_FREQ_STATUS → e.reg o = d.reg o) ∧
      (∀ i, i < 28 → i ≠ 24 → e.rb Reg.DRC_FREQ_STATUS i = d.rb Reg.DRC_FREQ_STATUS i) ∧
      if d.anyStopped = false ∧ d.anyPanic = true ∧ d.drc.freqDefer = 0 then
        e.rb Reg.DRC_FREQ_STATUS 24 = true ∧ e.flt.inbox = d.flt.inbox ++ [⟨Src.drcFreqForced, 0, false⟩] else e.flt = d.flt := by
    intro st hst hlatched hnot
    obtain ⟨hstate, hdrc, hregs, hbits, hflt, -⟩ := setFreqState_leaves d now hst
    exact ⟨hstate.trans hlatched, hdrc, hregs, fun i hi _ => hbits i hi, by rw [if_neg hnot]; exact hflt⟩
  unfold Dev.latchSwitch
  split
  · next hstopped => exact hquiet 1 (by omega) (by unfold Dev.latchedState; rw [if_pos hstopped]) (by simp [hstopped])
  · next hrunning =>
    split
    · next hcalm =>
      have hcalm : d.anyPanic = false := by simpa using hcalm
      exact hquiet 3 (by omega) (by unfold Dev.latchedState; rw [if_neg hrunning, if_neg (by simp [hcalm])]) (by simp [hcalm])
    · next hpanic =>
      have hpanic : d.anyPanic = true := by simpa using hpanic
      split
      · next hdefer => exact hquiet 2 (by omega) (by unfold Dev.latchedState; rw [if_neg hrunning, if_pos ⟨hpanic, hdefer⟩]) (by simp [hdefer])
      · next hnow =>
        obtain ⟨hstate, hdrc, hregs, hbits, hforced, hinbox⟩ := forceSwitch_leaves d now
        have hlatched : d.latchedState d.drc.freqDefer = 3 := by
          unfold Dev.latchedState
          rw [if_neg hrunning, if_neg (fun h => hnow h.2)]
        refine ⟨hstate.trans hlatched.symm, hdrc, hregs, hbits, ?_⟩
        rw [if_pos ⟨Bool.eq_false_iff.mpr hrunning, hpanic, not_not.mp hnow⟩]
        exact ⟨hforced, hinbox⟩

/-! DRC_FREQ_CMD (R439). -/

/-- The write of DRC_FREQ_CMD's two fields. -/
def Dev.freqPut (d : Dev) (v : Word) : Dev := (d.setRf Reg.DRC_FREQ_CMD 31 16 (fld v 31 16)).setRf Reg.DRC_FREQ_CMD 1 1 (fld v 1 1)

theorem freqPut_leaves (d : Dev) (v : Word) : let e := d.freqPut v
    e.rf Reg.DRC_FREQ_CMD 31 16 = fld v 31 16 ∧ e.rf Reg.DRC_FREQ_CMD 1 1 = fld v 1 1 ∧
      (∀ o, o ≠ Reg.DRC_FREQ_CMD → e.reg o = d.reg o) ∧ e.drc = d.drc ∧ e.flt = d.flt := by
  have hhigh := fld_lt v 31 16
  have hlow := fld_lt v 1 1
  have hfield := Dev.rf_setRf_self d Reg.DRC_FREQ_CMD 31 16 (fld v 31 16) (by omega) (by omega)
  have hregs : ∀ o, o ≠ Reg.DRC_FREQ_CMD → (d.setRf Reg.DRC_FREQ_CMD 31 16 (fld v 31 16)).reg o = d.reg o := fun o ho => Dev.reg_setRf_ne _ _ _ _ _ _ ho
  have hdrc := Dev.setRf_drc d Reg.DRC_FREQ_CMD 31 16 (fld v 31 16)
  have hflt := Dev.setRf_flt d Reg.DRC_FREQ_CMD 31 16 (fld v 31 16)
  unfold Dev.freqPut
  generalize d.setRf Reg.DRC_FREQ_CMD 31 16 (fld v 31 16) = x at hfield hregs hdrc hflt ⊢
  refine ⟨?_, ?_, fun o ho => (Dev.reg_setRf_ne _ _ _ _ _ _ ho).trans (hregs o ho), (Dev.setRf_drc _ _ _ _ _).trans hdrc, (Dev.setRf_flt _ _ _ _ _).trans hflt⟩
  · rw [Dev.rf_setRf_apart _ _ _ _ _ _ _ (by omega) (by omega) (by omega), hfield]
    exact Nat.mod_eq_of_lt hhigh
  · rw [Dev.rf_setRf_self _ _ _ _ _ (by omega) (by omega)]
    exact Nat.mod_eq_of_lt hlow

theorem freqChangeGo_puts {d : Dev} {v : Word} (now : Nat) (hgo : bit v 0 = false) : freqChangeGo now v d = d.freqPut v := by
  unfold freqChangeGo
  dsimp only
  rw [hgo]
  rfl

theorem freqChangeGo_rejects {d : Dev} {v : Word} (now : Nat) (hgo : bit v 0 = true)
    (hno : fld v 1 1 = d.activeSet ∨ (1 ≤ d.freqState ∧ d.freqState ≤ 4)) : freqChangeGo now v d = d.setRb Reg.DRC_FREQ_STATUS 25 true := by
  unfold freqChangeGo
  dsimp only
  rw [hgo, Bool.not_true, if_neg Bool.false_ne_true, if_pos hno]

/-- What an accepted switch leaves (R439). -/
theorem freqChangeGo_latches {d : Dev} {v : Word} (now : Nat) (hgo : bit v 0 = true) (hother : fld v 1 1 ≠ d.activeSet)
    (hidle : d.freqState = 0 ∨ 4 < d.freqState) : let e := freqChangeGo now v d
    (e.rf Reg.DRC_FREQ_CMD 31 16 = fld v 31 16 ∧ e.rf Reg.DRC_FREQ_CMD 1 1 = fld v 1 1) ∧
      e.drc.freqTo = bit v 1 ∧ e.drc.freqDefer = fld v 31 16 ∧ e.freqState = d.latchedState (fld v 31 16) ∧ e.drc.freqSince = now ∧
      if d.anyStopped = false ∧ d.anyPanic = true ∧ fld v 31 16 = 0 then
        e.rb Reg.DRC_FREQ_STATUS 24 = true ∧ e.flt.inbox = d.flt.inbox ++ [⟨Src.drcFreqForced, 0, false⟩] else e.flt = d.flt := by
  have heq : freqChangeGo now v d = { d.freqPut v with drc := { (d.freqPut v).drc with freqTo := bit v 1, freqDefer := fld v 31 16 } }.latchSwitch now := by
    unfold freqChangeGo
    dsimp only
    rw [hgo, Bool.not_true, if_neg Bool.false_ne_true, if_neg (by omega)]
    rfl
  obtain ⟨hhigh, hlow, hregs, hdrc, hflt⟩ := freqPut_leaves d v
  rw [heq]
  generalize d.freqPut v = x at hhigh hlow hregs hdrc hflt ⊢
  generalize hy : ({ x with drc := { x.drc with freqTo := bit v 1, freqDefer := fld v 31 16 } } : Dev) = y
  have hyreg : ∀ o, y.reg o = x.reg o := fun o => by rw [← hy]; rfl
  have hydrc : y.drc = { x.drc with freqTo := bit v 1, freqDefer := fld v 31 16 } := by rw [← hy]
  have hyflt : y.flt = d.flt := by rw [← hy]; exact hflt
  rw [hdrc] at hydrc
  have hstopped : y.anyStopped = d.anyStopped := anyStopped_congr fun c => (hyreg _).trans (hregs _ (chanW0_ne c (by decide)))
  have hpanic : y.anyPanic = d.anyPanic := anyPanic_congr ((hyreg _).trans (hregs _ (by decide))) (by rw [hydrc]) (by rw [hydrc])
  have hdefer : y.drc.freqDefer = fld v 31 16 := by rw [hydrc]
  obtain ⟨hstate, hldrc, hlregs, -, hforced⟩ := latchSwitch_leaves y now
  have hcmd := hlregs Reg.DRC_FREQ_CMD (by decide)
  unfold Dev.latchedState at hstate ⊢
  rw [hstopped, hpanic, hdefer] at hstate hforced
  rw [hyflt] at hforced
  refine ⟨⟨(rf_of_reg (hcmd.trans (hyreg _)) _ _).trans hhigh, (rf_of_reg (hcmd.trans (hyreg _)) _ _).trans hlow⟩, ?_, ?_, hstate, ?_, hforced⟩
  · rw [hldrc, hydrc]
  · rw [hldrc, hydrc]
  · rw [hldrc]

end Sys2Proof.Machine
end

section
/-!
SUPPORT. The frequency switch and the training steps (R439 to R442).
-/

namespace Sys2Proof.Machine

/-! The drain before a switch (R440). -/

/-- A device whose table cache is a given one, of which a write of memory changes nothing. -/
theorem sameTca_closed (x : Tca) : PalClosed (fun e => e.tca = x) where
  store _ _ h := h
  pal _ h := h
  free _ h := h
  raise _ _ h := h
  reg _ _ h := h

theorem memMask_tca (d : Dev) (base : Nat) (m : Tab (Option Byte)) : (d.memMask base m).tca = d.tca := by
  unfold Dev.memMask
  induction byteRuns m [] with
  | nil => rfl
  | cons r l ih => exact (sameTca_closed d.tca).memWrite _ _ ih

theorem drainAll_mbs (d : Dev) : d.drainAll.tca.mbs = [] := by
  have hkept : d.drainAll.tca = { d.tca with mbs := [] } :=
    foldl_inv Dev.drainEntry (fun e => e.tca = { d.tca with mbs := [] }) (fun e x h => (memMask_tca e _ _).trans h) _ _ rfl
  rw [hkept]

/-! The switch (R439, R440). -/

section
variable {d : Dev} (now : Nat) (hrun : d.anyStopped = false)
include hrun

theorem freqSwitch_latches (hstate : d.freqState = 1) : freqSwitch now d = d.latchSwitch now := by
  unfold freqSwitch
  dsimp only
  rw [hrun, hstate, if_neg (by decide), if_pos rfl]

theorem freqSwitch_calm (hstate : d.freqState = 2) (hcalm : d.anyPanic = false) : freqSwitch now d = d.setFreqState now 3 := by
  unfold freqSwitch
  dsimp only
  rw [hrun, hstate, hcalm, if_neg (by decide), if_neg (by decide), if_pos rfl, Bool.not_false, if_pos rfl]

theorem freqSwitch_forced (hstate : d.freqState = 2) (hpanic : d.anyPanic = true) (hdue : d.drc.freqSince + 1000 * d.drc.freqDefer ≤ now) :
    freqSwitch now d = d.forceSwitch now := by
  unfold freqSwitch
  dsimp only
  rw [hrun, hstate, hpanic, if_neg (by decide), if_neg (by decide), if_pos rfl, Bool.not_true, if_neg Bool.false_ne_true,
    if_neg (show ¬ now < d.drc.freqSince + 1000 * d.drc.freqDefer by omega)]

theorem freqSwitch_drains (hstate : d.freqState = 3) : freqSwitch now d = (d.drainAll.setFreqState now 4).setRb Reg.GLB_CLK_STATUS 25 false := by
  unfold freqSwitch
  dsimp only
  rw [hrun, hstate, if_neg (by decide), if_neg (by decide), if_neg (by decide)]

end

/-- What the drain and relock of a switch leave (R440). -/
theorem switchDrained_leaves (d : Dev) (now : Nat) : let e := (d.drainAll.setFreqState now 4).setRb Reg.GLB_CLK_STATUS 25 false
    e.freqState = 4 ∧ e.rb Reg.GLB_CLK_STATUS 25 = false ∧ e.tca.mbs = [] := by
  obtain ⟨hstate, -, -, -, -, htca⟩ := setFreqState_leaves d.drainAll now (st := 4) (by omega)
  refine ⟨(rf_of_reg (Dev.reg_setRb_ne _ _ _ _ _ (by decide)) 31 28).trans hstate, Dev.rb_setRb_self _ _ _ _ (by omega), ?_⟩
  rw [Dev.setRb_tca, htca]
  exact drainAll_mbs d

/-- The device on its target set, with the rows closed (R440). -/
def Dev.relocked (d : Dev) : Dev :=
  let d := (d.setRb Reg.DRC_FREQ_STATUS 16 d.drc.freqTo).setRb Reg.GLB_CLK_STATUS 25 true
  { d with drc := { d.drc with rows := [] } }

theorem relocked_leaves (d : Dev) : let e := d.relocked
    e.activeSet = b2n d.drc.freqTo ∧ (∀ i, i ≠ 16 → e.rb Reg.DRC_FREQ_STATUS i = d.rb Reg.DRC_FREQ_STATUS i) ∧
      e.rb Reg.GLB_CLK_STATUS 25 = true ∧ e.drc.rows = [] ∧ ∀ c, e.usable c = d.usable c := by
  have hrows : ∀ x : Dev, let e : Dev := { x with drc := { x.drc with rows := [] } }
      e.drc.rows = [] ∧ (∀ o i, e.rb o i = x.rb o i) := fun x => ⟨rfl, fun _ _ => rfl⟩
  obtain ⟨hclosed, hrb⟩ := hrows ((d.setRb Reg.DRC_FREQ_STATUS 16 d.drc.freqTo).setRb Reg.GLB_CLK_STATUS 25 true)
  have hstatus : ∀ i, d.relocked.rb Reg.DRC_FREQ_STATUS i = (d.setRb Reg.DRC_FREQ_STATUS 16 d.drc.freqTo).rb Reg.DRC_FREQ_STATUS i := fun i =>
    (hrb _ i).trans (rb_of_reg (Dev.reg_setRb_ne _ _ _ _ _ (by decide)) i)
  refine ⟨congrArg b2n ((hstatus 16).trans (Dev.rb_setRb_self _ _ _ _ (by omega))),
    fun i hi => (hstatus i).trans (Dev.rb_setRb_apart _ _ _ _ _ (by omega) hi), (hrb _ _).trans (Dev.rb_setRb_self _ _ _ _ (by omega)), hclosed, fun c => ?_⟩
  exact (hrb _ _).trans (rb_of_reg ((Dev.reg_setRb_ne _ _ _ _ _ (by decide)).trans (Dev.reg_setRb_ne _ _ _ _ _ (by decide))) _)

/-- What the end of a switch leaves (R440, R441). -/
theorem freqSwitchDone_leaves {d : Dev} (now : Nat) (hstate : d.freqState = 4) : let set := b2n d.drc.freqTo
    let e := freqSwitchDone now d
    e.activeSet = set ∧ e.rb Reg.GLB_CLK_STATUS 25 = true ∧ e.drc.rows = [] ∧
      ((∃ c, c < 8 ∧ d.usable c = true ∧ d.rb Reg.DRC_FREQ_STATUS (8 * set + c) = false) → e.freqState = 5) ∧
      ((∀ c, c < 8 → d.usable c = true → d.rb Reg.DRC_FREQ_STATUS (8 * set + c) = true) → e.freqState = 0) := by
  have heq : freqSwitchDone now d = d.relocked.setFreqState now
      (if (List.range 8).any (fun c => d.relocked.usable c && !d.relocked.trainedOn c) then 5 else 0) := if_neg (not_not.mpr hstate)
  have hset : b2n d.drc.freqTo ≤ 1 := b2n_le _
  obtain ⟨hactive, hbits, hlock, hrows, husable⟩ := relocked_leaves d
  have htrained : ∀ c, c < 8 → d.relocked.trainedOn c = d.rb Reg.DRC_FREQ_STATUS (8 * b2n d.drc.freqTo + c) := fun c hc => by
    rw [Dev.trainedOn, hactive]
    exact hbits _ (by omega)
  rw [heq]
  generalize d.relocked = x at hactive hbits hlock hrows husable htrained ⊢
  obtain ⟨hst, hdrc, hregs, hsame, -, -⟩ := setFreqState_leaves x now (st := if (List.range 8).any (fun c => x.usable c && !x.trainedOn c) then 5 else 0)
    (by split <;> omega)
  refine ⟨(activeSet_congr (hsame 16 (by omega))).trans hactive, (rb_of_reg (hregs _ (by decide)) _).trans hlock, by rw [hdrc]; exact hrows,
    fun ⟨c, hc, hon, hnew⟩ => hst.trans (if_pos ?_), fun hall => hst.trans (if_neg ?_)⟩
  · exact List.any_eq_true.mpr ⟨c, List.mem_range.mpr hc, by rw [husable, htrained c hc, hon, hnew]; rfl⟩
  · rw [List.any_eq_true]
    rintro ⟨c, hc, hany⟩
    have hc := List.mem_range.mp hc
    rw [husable, htrained c hc, Bool.and_eq_true_iff] at hany
    exact absurd (hall c hc hany.1) (by simpa using hany.2)

/-! Training steps (R441, R442). -/

theorem trainingStep_begins {d : Dev} {c : Nat} (now : Nat) (hwants : d.wantsTraining c = true) (hmay : d.mayStep now = true) :
    trainingStep now c d = d.setRb (Reg.DRC_CHAN_W0 c) 28 true :=
  if_pos (Bool.and_eq_true_iff.mpr ⟨hwants, hmay⟩)

/-- The device whose channel begins its periodic step now. -/
def Dev.retrainAt (d : Dev) (now c : Nat) : Dev := { d with drc := { d.drc with retrain := tset 0 d.drc.retrain c now } }

theorem retrainAt_leaves (d : Dev) (now c : Nat) : let e := d.retrainAt now c
    (∀ o i, e.rb o i = d.rb o i) ∧ tget 0 e.drc.retrain c = now ∧ e.flt = d.flt :=
  ⟨fun _ _ => rfl, tget_tset_self 0 d.drc.retrain c now, rfl⟩

/-- What the beginning of a periodic retraining step leaves (R442). -/
theorem periodicRetrain_begins {d : Dev} {now c : Nat} (hon : d.usable c = true) (hrun : d.anyStopped = false) (hstate : d.freqState ≠ 4)
    (hdue : tget 0 d.drc.retrain c + 100000000 ≤ now) : periodicRetrain now c d = (d.setRb (Reg.DRC_CHAN_W0 c) 28 true).retrainAt now c := by
  refine if_pos ?_
  rw [hon, hrun, decide_eq_true hstate, decide_eq_true hdue]
  rfl

theorem retrainBegun_leaves (d : Dev) (now c : Nat) : let e := (d.setRb (Reg.DRC_CHAN_W0 c) 28 true).retrainAt now c
    e.rb (Reg.DRC_CHAN_W0 c) 28 = true ∧ tget 0 e.drc.retrain c = now ∧ e.flt = d.flt := by
  obtain ⟨hrb, hretrain, hflt⟩ := retrainAt_leaves (d.setRb (Reg.DRC_CHAN_W0 c) 28 true) now c
  exact ⟨(hrb _ _).trans (Dev.rb_setRb_self _ _ _ _ (by omega)), hretrain, hflt.trans (Dev.setRb_flt _ _ _ _)⟩

/-- The device whose last training step ended now. -/
def Dev.steppedAt (d : Dev) (now : Nat) : Dev := { d with drc := { d.drc with lastStep := some now } }

theorem steppedAt_leaves (d : Dev) (now : Nat) : let e := d.steppedAt now
    (∀ o, e.reg o = d.reg o) ∧ e.drc = { d.drc with lastStep := some now } ∧ e.flt = d.flt := ⟨fun _ => rfl, rfl, rfl⟩

/-- The channel leaves its stopped state. -/
def Dev.stepEnded (d : Dev) (now c : Nat) : Dev := (d.setRb (Reg.DRC_CHAN_W0 c) 28 false).steppedAt now

theorem stepEnded_leaves (d : Dev) (now c : Nat) : let e := d.stepEnded now c
    e.rb (Reg.DRC_CHAN_W0 c) 28 = false ∧ (∀ o, o ≠ Reg.DRC_CHAN_W0 c → e.reg o = d.reg o) ∧
      e.drc = { d.drc with lastStep := some now } ∧ e.flt = d.flt := by
  obtain ⟨hreg, hdrc, hflt⟩ := steppedAt_leaves (d.setRb (Reg.DRC_CHAN_W0 c) 28 false) now
  rw [Dev.setRb_drc] at hdrc
  exact ⟨(rb_of_reg (hreg _) _).trans (Dev.rb_setRb_self _ _ _ _ (by omega)), fun o ho => (hreg o).trans (Dev.reg_setRb_ne _ _ _ _ _ ho),
    hdrc, hflt.trans (Dev.setRb_flt _ _ _ _)⟩

/-- The last step of a training that was wanted ends it: on the active set, and in the channel's return. -/
def Dev.trainedNow (d : Dev) (c : Nat) : Dev :=
  let d := d.setRb Reg.DRC_FREQ_STATUS (8 * d.activeSet + c) true
  if tget 0 d.drc.ret c = 1 then { d with drc := { d.drc with ret := tset 0 d.drc.ret c 2 } } else d

/-- What the step gave: a failure is recorded, and the last step of a wanted training ends it. -/
def Dev.stepResult (d : Dev) (c : Nat) (want last ok : Bool) : Dev :=
  if !ok then d.raiseIf (d.usable c) Src.drcChanFail c else if want && last then d.trainedNow c else d

/-- The registers but DRC_FREQ_STATUS, the upper bits of that, and the controller's state but its returns, stand. -/
def stepKeeps (d e : Dev) : Prop := (∀ o, o ≠ Reg.DRC_FREQ_STATUS → e.reg o = d.reg o) ∧ e.freqState = d.freqState ∧
  e.activeSet = d.activeSet ∧ ∃ r, e.drc = { d.drc with ret := r }

theorem stepKeeps_refl (d : Dev) : stepKeeps d d := ⟨fun _ _ => rfl, rfl, rfl, _, rfl⟩

theorem stepKeeps_trans {a b c : Dev} (h : stepKeeps a b) (k : stepKeeps b c) : stepKeeps a c := by
  obtain ⟨hreg, hstate, hactive, _, hdrc⟩ := h
  obtain ⟨kreg, kstate, kactive, r, kdrc⟩ := k
  rw [hdrc] at kdrc
  exact ⟨fun o ho => (kreg o ho).trans (hreg o ho), kstate.trans hstate, kactive.trans hactive, r, kdrc⟩

/-- A return goes to its zero fill. -/
theorem returnFills (x : Dev) (c : Nat) : let e : Dev := { x with drc := { x.drc with ret := tset 0 x.drc.ret c 2 } }
    stepKeeps x e ∧ (∀ i, e.rb Reg.DRC_FREQ_STATUS i = x.rb Reg.DRC_FREQ_STATUS i) ∧ tget 0 e.drc.ret c = 2 :=
  ⟨⟨fun _ _ => rfl, rfl, rfl, _, rfl⟩, fun _ => rfl, tget_tset_self 0 x.drc.ret c 2⟩

theorem trainedNow_leaves (d : Dev) {c : Nat} (hc : c < 8) : let e := d.trainedNow c
    stepKeeps d e ∧ e.rb Reg.DRC_FREQ_STATUS (8 * d.activeSet + c) = true ∧ (tget 0 d.drc.ret c = 1 → tget 0 e.drc.ret c = 2) := by
  have hset := activeSet_le d
  have hmarked : stepKeeps d (d.setRb Reg.DRC_FREQ_STATUS (8 * d.activeSet + c) true) :=
    ⟨fun o ho => Dev.reg_setRb_ne _ _ _ _ _ ho, Dev.rf_setRf_apart _ _ _ _ _ _ _ (by omega) (by omega) (.inl (by omega)),
      activeSet_congr (Dev.rb_setRb_apart _ _ _ _ _ (by omega) (by omega)), _, Dev.setRb_drc _ _ _ _⟩
  have hbit := Dev.rb_setRb_self d Reg.DRC_FREQ_STATUS (8 * d.activeSet + c) true (by omega)
  unfold Dev.trainedNow
  dsimp only
  rw [Dev.setRb_drc]
  split
  · obtain ⟨hkept, hbits, hret⟩ := returnFills (d.setRb Reg.DRC_FREQ_STATUS (8 * d.activeSet + c) true) c
    rw [Dev.setRb_drc] at hkept hbits hret
    exact ⟨stepKeeps_trans hmarked hkept, (hbits _).trans hbit, fun _ => hret⟩
  · next hno => exact ⟨hmarked, hbit, fun h => absurd h hno⟩

theorem stepResult_trains (d : Dev) (c : Nat) : d.stepResult c true true true = d.trainedNow c := (if_neg (by decide)).trans (if_pos rfl)

theorem stepResult_failed (d : Dev) (c : Nat) (want last : Bool) : d.stepResult c want last false = d.raiseIf (d.usable c) Src.drcChanFail c := if_pos rfl

theorem stepResult_keeps (d : Dev) {c : Nat} (hc : c < 8) (want last ok : Bool) : stepKeeps d (d.stepResult c want last ok) := by
  unfold Dev.stepResult Dev.raiseIf
  split
  · split
    · exact ⟨fun _ _ => rfl, rfl, rfl, _, rfl⟩
    · exact stepKeeps_refl d
  · split
    · exact (trainedNow_leaves d hc).1
    · exact stepKeeps_refl d

/-- Where a step ends: a latched switch goes on, and a switch whose channels are all trained is over (R439, R441). -/
def Dev.stepGoesOn (d : Dev) (now : Nat) : Dev :=
  if d.freqState = 1 then d.latchSwitch now
  else if decide (d.freqState = 5) && (List.range 8).all (fun (c : Nat) => !d.usable c || d.trainedOn c) then d.setFreqState now 0
  else d

theorem stepGoesOn_leaves (d : Dev) (now : Nat) : let e := d.stepGoesOn now
    (∀ o, o ≠ Reg.DRC_FREQ_STATUS → e.reg o = d.reg o) ∧ (∀ i, i < 24 → e.rb Reg.DRC_FREQ_STATUS i = d.rb Reg.DRC_FREQ_STATUS i) ∧
      (∃ t, e.drc = { d.drc with freqSince := t }) ∧ (d.freqState = 1 → e.freqState = d.latchedState d.drc.freqDefer) ∧
      (d.freqState ≠ 1 → e.flt = d.flt) := by
  unfold Dev.stepGoesOn
  split
  · next hone =>
    obtain ⟨hstate, hdrc, hregs, hbits, -⟩ := latchSwitch_leaves d now
    exact ⟨hregs, fun i hi => hbits i (by omega) (by omega), ⟨now, hdrc⟩, fun _ => hstate, fun h => absurd hone h⟩
  · next hother =>
    split
    · obtain ⟨-, hdrc, hregs, hbits, hflt, -⟩ := setFreqState_leaves d now (st := 0) (by omega)
      exact ⟨hregs, fun i hi => hbits i (by omega), ⟨now, hdrc⟩, fun h => absurd h hother, fun _ => hflt⟩
    · exact ⟨fun _ _ => rfl, fun _ _ => rfl, ⟨_, rfl⟩, fun h => absurd h hother, fun _ => rfl⟩

theorem trainingStepDone_eq {d : Dev} {c : Nat} (now : Nat) (last ok : Bool) (hstopped : d.rb (Reg.DRC_CHAN_W0 c) 28 = true) :
    trainingStepDone now c last ok d = ((d.stepEnded now c).stepResult c (d.wantsTraining c) last ok).stepGoesOn now :=
  if_neg (by rw [hstopped]; decide)

/-- What the end of a training step leaves (R439, R441, R442, R459). -/
theorem trainingStepDone_leaves {d : Dev} {c : Nat} (hc : c < 8) (now : Nat) (last ok : Bool) (hstopped : d.rb (Reg.DRC_CHAN_W0 c) 28 = true) :
    let e := trainingStepDone now c last ok d
    e.rb (Reg.DRC_CHAN_W0 c) 28 = false ∧ e.drc.lastStep = some now ∧
      (ok = true → last = true → d.wantsTraining c = true → e.rb Reg.DRC_FREQ_STATUS (8 * d.activeSet + c) = true ∧
        (tget 0 d.drc.ret c = 1 → tget 0 e.drc.ret c = 2)) ∧
      (d.freqState = 1 → (∀ k, k < 8 → k ≠ c → d.rb (Reg.DRC_CHAN_W0 k) 28 = false) →
        e.freqState = if d.anyPanic = true ∧ d.drc.freqDefer ≠ 0 then 2 else 3) ∧
      (ok = false → d.usable c = true → d.freqState ≠ 1 → e.flt.inbox = d.flt.inbox ++ [⟨Src.drcChanFail, wd c, false⟩]) := by
  have hchan := chanW0_ne c (o := Reg.DRC_FREQ_STATUS) (by decide)
  obtain ⟨hfree, hereg, hedrc, heflt⟩ := stepEnded_leaves d now c
  rw [trainingStepDone_eq now last ok hstopped]
  generalize d.stepEnded now c = x at hfree hereg hedrc heflt ⊢
  have hestatus := hereg Reg.DRC_FREQ_STATUS (Ne.symm hchan)
  have hactive : x.activeSet = d.activeSet := activeSet_congr (rb_of_reg hestatus 16)
  have husable : x.usable c = d.usable c := rb_of_reg (hereg _ (Ne.symm (chanW0_ne c (by decide)))) _
  have hxret : x.drc.ret = d.drc.ret := by rw [hedrc]
  obtain ⟨hkreg, hkstate, hkactive, r, hkdrc⟩ := stepResult_keeps x hc (d.wantsTraining c) last ok
  obtain ⟨y, hy⟩ : ∃ y, y = x.stepResult c (d.wantsTraining c) last ok := ⟨_, rfl⟩
  rw [← hy] at hkreg hkstate hkactive hkdrc ⊢
  have hstate : y.freqState = d.freqState := hkstate.trans (rf_of_reg hestatus 31 28)
  obtain ⟨hgreg, hgbits, ⟨t, hgdrc⟩, hgstate, hgflt⟩ := stepGoesOn_leaves y now
  rw [hstate] at hgstate hgflt
  have hset := activeSet_le d
  refine ⟨(rb_of_reg ((hgreg _ hchan).trans (hkreg _ hchan)) 28).trans hfree, by rw [hgdrc, hkdrc, hedrc], ?_, fun hone hothers => ?_, ?_⟩
  · rintro rfl rfl hwants
    obtain ⟨-, hbit, hret⟩ := trainedNow_leaves x hc
    rw [← show y = x.trainedNow c from hy.trans (by rw [hwants, stepResult_trains])] at hbit hret
    rw [hactive] at hbit
    exact ⟨(hgbits _ (by omega)).trans hbit, fun h => by rw [hgdrc]; exact hret ((congrArg (fun m => tget 0 m c) hxret).trans h)⟩
  · have hrun : y.anyStopped = false := by
      refine (Bool.eq_false_iff).mpr fun hany => ?_
      obtain ⟨k, hk, hbit⟩ := List.any_eq_true.mp hany
      have hbit := (rb_of_reg (hkreg _ (chanW0_ne k (by decide))) 28).symm.trans hbit
      by_cases hkc : k = c
      · subst hkc
        exact absurd (hfree.symm.trans hbit) nofun
      · have hne : Reg.DRC_CHAN_W0 k ≠ Reg.DRC_CHAN_W0 c := by
          unfold Reg.DRC_CHAN_W0
          omega
        exact absurd ((hothers k (List.mem_range.mp hk) hkc).symm.trans ((rb_of_reg (hereg _ hne) 28).symm.trans hbit)) nofun
    have hpanic : y.anyPanic = d.anyPanic := anyPanic_congr ((hkreg _ (by decide)).trans (hereg _ (Ne.symm (chanW0_ne c (by decide)))))
      (by rw [hkdrc, hedrc]) (by rw [hkdrc, hedrc])
    have hdefer : y.drc.freqDefer = d.drc.freqDefer := by rw [hkdrc, hedrc]
    rw [hgstate hone, Dev.latchedState, hrun, hpanic, hdefer, if_neg Bool.false_ne_true]
  · rintro rfl hon hother
    have hfailed : y = x.raise Src.drcChanFail c := by
      rw [hy, stepResult_failed, Dev.raiseIf, husable, hon, if_pos rfl]
    rw [hgflt hother, hfailed, raise_inbox, heflt]

end Sys2Proof.Machine
end

section
/-!
SUPPORT. A channel's retire and return, and the bring-up of the controller (R428, R446, R447).
-/

namespace Sys2Proof.Machine

/-! The usable and retired bits of a channel. -/

theorem setUsable_leaves (d : Dev) {c : Nat} (hc : c < 8) (b : Bool) : let e := d.setUsable c b
    e.usable c = b ∧ e.retired c = d.retired c ∧ (∀ o, o ≠ Reg.DRC_STATUS → o ≠ Reg.DRC_CHAN_W0 c → e.reg o = d.reg o) ∧ e.drc = d.drc := by
  have hchan := chanW0_ne c (o := Reg.DRC_STATUS) (by decide)
  have hstatus : ∀ i, (d.setUsable c b).rb Reg.DRC_STATUS i = (d.setRb Reg.DRC_STATUS (24 + c) b).rb Reg.DRC_STATUS i := fun i =>
    rb_of_reg (Dev.reg_setRb_ne _ _ _ _ _ (Ne.symm hchan)) i
  exact ⟨(hstatus _).trans (Dev.rb_setRb_self _ _ _ _ (by omega)), (hstatus _).trans (Dev.rb_setRb_apart _ _ _ _ _ (by omega) (by omega)),
    fun o hs hw => (Dev.reg_setRb_ne _ _ _ _ _ hw).trans (Dev.reg_setRb_ne _ _ _ _ _ hs), (Dev.setRb_drc _ _ _ _).trans (Dev.setRb_drc _ _ _ _)⟩

theorem setRetired_leaves (d : Dev) {c : Nat} (hc : c < 8) (b : Bool) : let e := d.setRetired c b
    e.retired c = b ∧ e.usable c = d.usable c ∧ (∀ o, o ≠ Reg.DRC_STATUS → o ≠ Reg.DRC_CHAN_W0 c → e.reg o = d.reg o) ∧ e.drc = d.drc := by
  have hchan := chanW0_ne c (o := Reg.DRC_STATUS) (by decide)
  have hstatus : ∀ i, (d.setRetired c b).rb Reg.DRC_STATUS i = (d.setRb Reg.DRC_STATUS (16 + c) b).rb Reg.DRC_STATUS i := fun i =>
    rb_of_reg (Dev.reg_setRb_ne _ _ _ _ _ (Ne.symm hchan)) i
  exact ⟨(hstatus _).trans (Dev.rb_setRb_self _ _ _ _ (by omega)), (hstatus _).trans (Dev.rb_setRb_apart _ _ _ _ _ (by omega) (by omega)),
    fun o hs hw => (Dev.reg_setRb_ne _ _ _ _ _ hw).trans (Dev.reg_setRb_ne _ _ _ _ _ hs), (Dev.setRb_drc _ _ _ _).trans (Dev.setRb_drc _ _ _ _)⟩

/-! The stage of a return (R447). -/

theorem setReturn_leaves (d : Dev) (now c stage mib : Nat) : let e := d.setReturn now c stage mib
    (∀ o, e.reg o = d.reg o) ∧ tget 0 e.drc.ret c = stage ∧ (∀ k, k ≠ c → tget 0 e.drc.ret k = tget 0 d.drc.ret k) ∧
      e.drc.ret = tset 0 d.drc.ret c stage :=
  ⟨fun _ => rfl, tget_tset_self 0 d.drc.ret c stage, fun k hk => tget_tset_ne 0 d.drc.ret c k stage hk, rfl⟩

theorem endReturns_leaves (d : Dev) : let e := d.endReturns
    (∀ o, o ≠ Reg.DRC_REBUILD → e.reg o = d.reg o) ∧ e.drc = d.drc ∧
      ((d.drc.ret.all (fun e => decide (e.2 = 9))) = true → e.reg Reg.DRC_REBUILD = 0) := by
  unfold Dev.endReturns
  split
  · exact ⟨fun o ho => Dev.reg_setReg_ne _ _ _ _ ho, Dev.setReg_drc _ _ _, fun _ => Dev.reg_setReg_self _ _ _⟩
  · next hno => exact ⟨fun _ _ => rfl, rfl, fun h => absurd h hno⟩

/-- A return that runs ends. -/
def Dev.returnEnded (d : Dev) (now c : Nat) : Dev := (d.setReturn now c 0 0).endReturns

theorem returnEnded_leaves (d : Dev) (now c : Nat) : let e := d.returnEnded now c
    (∀ o, o ≠ Reg.DRC_REBUILD → e.reg o = d.reg o) ∧ tget 0 e.drc.ret c = 0 ∧ (∀ k, k ≠ c → tget 0 e.drc.ret k = tget 0 d.drc.ret k) ∧
      (d.drc.ret = [(c, 3)] → e.reg Reg.DRC_REBUILD = 0) := by
  obtain ⟨hreg, hself, hothers, hret⟩ := setReturn_leaves d now c 0 0
  obtain ⟨hereg, hedrc, hend⟩ := endReturns_leaves (d.setReturn now c 0 0)
  unfold Dev.returnEnded
  generalize d.setReturn now c 0 0 = x at hreg hself hothers hret hereg hedrc hend ⊢
  refine ⟨fun o ho => (hereg o ho).trans (hreg o), by rw [hedrc]; exact hself, fun k hk => by rw [hedrc]; exact hothers k hk, fun honly => hend ?_⟩
  have hnone : tset 0 [(c, 3)] c 0 = [] := by simp [tset, Tab.set, Tab.del]
  rw [hret, honly, hnone]
  rfl

/-! Retire (R446). -/

/-- The bits of a channel that is retired now. -/
def Dev.retireBits (d : Dev) (c : Nat) : Dev :=
  (((d.setRb Reg.DRC_RETIRE c true).setRetired c true).setUsable c false).setRb (Reg.DRC_CHAN_W0 c) 28 false

theorem retireBits_leaves (d : Dev) {c : Nat} (hc : c < 8) : let e := d.retireBits c
    e.rb Reg.DRC_RETIRE c = true ∧ e.retired c = true ∧ e.usable c = false ∧ e.drc = d.drc := by
  have hchan := chanW0_ne c (o := Reg.DRC_STATUS) (by decide)
  have hretire := chanW0_ne c (o := Reg.DRC_RETIRE) (by decide)
  obtain ⟨hretired, -, hreg, hdrc⟩ := setRetired_leaves (d.setRb Reg.DRC_RETIRE c true) hc true
  have hbit := (rb_of_reg (hreg _ (by decide) (Ne.symm hretire)) c).trans (Dev.rb_setRb_self d Reg.DRC_RETIRE c true (by omega))
  have hdrc := hdrc.trans (Dev.setRb_drc _ _ _ _)
  unfold Dev.retireBits
  generalize (d.setRb Reg.DRC_RETIRE c true).setRetired c true = x at hretired hbit hdrc ⊢
  obtain ⟨husable, hkept, hreg', hdrc'⟩ := setUsable_leaves x hc false
  exact ⟨(rb_of_reg ((Dev.reg_setRb_ne _ _ _ _ _ (Ne.symm hretire)).trans (hreg' _ (by decide) (Ne.symm hretire))) c).trans hbit,
    (rb_of_reg (Dev.reg_setRb_ne _ _ _ _ _ (Ne.symm hchan)) _).trans (hkept.trans hretired),
    (rb_of_reg (Dev.reg_setRb_ne _ _ _ _ _ (Ne.symm hchan)) _).trans husable, (Dev.setRb_drc _ _ _ _).trans (hdrc'.trans hdrc)⟩

/-- The reads of a channel that is retired: those that are lost are poisoned, the others are issued again. -/
def Dev.retireReads (d : Dev) (now c : Nat) : Dev :=
  let hit := fun (q : DramReq) => q.done.isNone && decide ((d.dramLoc q.addr).1 = c)
  let gone := d.drc.reqs.filter (fun q => hit q && d.lost q.addr)
  let reqs := d.drc.reqs.map (fun q =>
    if hit q then (if d.lost q.addr then { q with done := some true } else { q with issued := false }) else q)
  gone.foldl (fun d q => d.dramUe now 0 q.addr) { d with drc := { d.drc with reqs := reqs } }

theorem retireReads_leaves (d : Dev) (now c : Nat) : let e := d.retireReads now c
    (∀ o, o < Reg.DRC_ERR_STATUS → e.reg o = d.reg o) ∧ e.drc.ret = d.drc.ret := by
  unfold Dev.retireReads
  dsimp only
  generalize d.drc.reqs.map _ = l
  have hjudged := foldl_inv (fun (d : Dev) (q : DramReq) => d.dramUe now 0 q.addr) (judged { d with drc := { d.drc with reqs := l } })
    (fun e q h => judged_trans h (dramUe_judged _ _ _ _))
    (d.drc.reqs.filter fun q => q.done.isNone && decide ((d.dramLoc q.addr).1 = c) && d.lost q.addr) _ (judged_refl _)
  obtain ⟨hreg, _, _, _, hdrc⟩ := hjudged
  exact ⟨hreg, by rw [hdrc]⟩

/-- A retire once no return of the channel runs. -/
def Dev.retireRest (d : Dev) (now c : Nat) : Dev :=
  if d.retired c then (d.setRb Reg.DRC_RETIRE c true).setRb (Reg.DRC_CHAN_W0 c) 28 false else (d.retireBits c).retireReads now c

theorem retireRest_leaves (d : Dev) (now : Nat) {c : Nat} (hc : c < 8) : let e := d.retireRest now c
    e.rb Reg.DRC_RETIRE c = true ∧ e.drc.ret = d.drc.ret ∧ (d.retired c = false → e.retired c = true ∧ e.usable c = false) := by
  unfold Dev.retireRest
  split
  · next hout =>
    refine ⟨(rb_of_reg (Dev.reg_setRb_ne _ _ _ _ _ (Ne.symm (chanW0_ne c (by decide)))) c).trans (Dev.rb_setRb_self _ _ _ _ (by omega)), ?_,
      fun h => absurd (hout.symm.trans h) nofun⟩
    rw [Dev.setRb_drc, Dev.setRb_drc]
  · obtain ⟨hbit, hretired, husable, hdrc⟩ := retireBits_leaves d hc
    generalize d.retireBits c = x at hbit hretired husable hdrc ⊢
    obtain ⟨hreg, hret⟩ := retireReads_leaves x now c
    exact ⟨(rb_of_reg (hreg _ (by decide)) c).trans hbit, by rw [hret, hdrc], fun _ =>
      ⟨(rb_of_reg (hreg _ (by decide)) _).trans hretired, (rb_of_reg (hreg _ (by decide)) _).trans husable⟩⟩

theorem retireChan_running {d : Dev} {c : Nat} (now : Nat) (h : tget 0 d.drc.ret c ∈ [1, 2, 3]) : d.retireChan now c = (d.returnEnded now c).retireRest now c := by
  unfold Dev.retireChan Dev.retireRest Dev.retireReads Dev.retireBits Dev.returnEnded
  dsimp only
  rw [if_pos h]

theorem retireChan_still {d : Dev} {c : Nat} (now : Nat) (h : tget 0 d.drc.ret c ∉ [1, 2, 3]) : d.retireChan now c = d.retireRest now c := by
  unfold Dev.retireChan Dev.retireRest Dev.retireReads Dev.retireBits
  dsimp only
  rw [if_neg h]

section
variable {d : Dev} {c : Nat} (now : Nat) (r : Req)

theorem channelRetire_again (hset : d.rb Reg.DRC_RETIRE c = true) : channelRetire now r c d = d := if_pos hset

section
variable (hclear : d.rb Reg.DRC_RETIRE c = false)
include hclear

theorem channelRetire_last (hon : d.usable c = true) (hlast : d.rf Reg.DRC_STATUS 31 24 = 2 ^ c) :
    channelRetire now r c d = d.refuse r Reg.DRC_RETIRE := by
  unfold channelRetire
  rw [hclear, if_neg Bool.false_ne_true, hon, decide_eq_true hlast]
  rfl

theorem channelRetire_out (hoff : d.usable c = false) (hret : tget 0 d.drc.ret c = 0) : channelRetire now r c d = d.setRb Reg.DRC_RETIRE c true := by
  unfold channelRetire
  rw [hclear, if_neg Bool.false_ne_true, hoff, hret, Bool.false_and, if_neg Bool.false_ne_true]
  exact if_neg (by decide)

theorem channelRetire_retires (hgo : (d.usable c = true ∧ d.rf Reg.DRC_STATUS 31 24 ≠ 2 ^ c) ∨ (d.usable c = false ∧ tget 0 d.drc.ret c ≠ 0)) :
    channelRetire now r c d = d.retireChan now c := by
  unfold channelRetire
  rw [hclear, if_neg Bool.false_ne_true]
  obtain ⟨hon, hother⟩ | ⟨hoff, hret⟩ := hgo
  · rw [hon, Bool.true_and, if_neg (by rw [decide_eq_true_eq]; exact hother), Bool.true_or, if_pos rfl]
  · rw [hoff, Bool.false_and, if_neg Bool.false_ne_true, Bool.false_or, if_pos (decide_eq_true hret)]

/-- What the retire of a usable channel leaves (R446). -/
theorem channelRetire_usable (hc : c < 8) (hon : d.usable c = true) (hother : d.rf Reg.DRC_STATUS 31 24 ≠ 2 ^ c) (hin : d.retired c = false) :
    let e := channelRetire now r c d
    e.rb Reg.DRC_RETIRE c = true ∧ e.retired c = true ∧ e.usable c = false := by
  rw [channelRetire_retires now r hclear (.inl ⟨hon, hother⟩)]
  by_cases hret : tget 0 d.drc.ret c ∈ [1, 2, 3]
  · obtain ⟨hbit, -, hout⟩ := retireRest_leaves (d.returnEnded now c) now hc
    rw [retireChan_running now hret]
    exact ⟨hbit, hout ((rb_of_reg ((returnEnded_leaves d now c).1 _ (by decide)) _).trans hin)⟩
  · obtain ⟨hbit, -, hout⟩ := retireRest_leaves d now hc
    rw [retireChan_still now hret]
    exact ⟨hbit, hout hin⟩

/-- What the retire of a channel that is being returned leaves (R446). -/
theorem channelRetire_returning (hc : c < 8) (hoff : d.usable c = false) (hret : tget 0 d.drc.ret c ∈ [1, 2]) : let e := channelRetire now r c d
    e.rb Reg.DRC_RETIRE c = true ∧ tget 0 e.drc.ret c = 0 := by
  have hrun : tget 0 d.drc.ret c ∈ [1, 2, 3] := List.mem_append_left [3] hret
  have hnone : tget 0 d.drc.ret c ≠ 0 := fun h => by simp [h] at hret
  obtain ⟨hbit, hkept, -⟩ := retireRest_leaves (d.returnEnded now c) now hc
  rw [channelRetire_retires now r hclear (.inr ⟨hoff, hnone⟩), retireChan_running now hrun]
  dsimp only
  rw [hkept]
  exact ⟨hbit, (returnEnded_leaves d now c).2.1⟩

end

/-! Return (R447). -/

section
variable (hset : d.rb Reg.DRC_RETIRE c = true)
include hset

theorem channelReturn_contained (hret : tget 0 d.drc.ret c = 9) : channelReturn now r c d = d.refuse r Reg.DRC_RETIRE := by
  unfold channelReturn
  rw [hset, Bool.not_true, if_neg Bool.false_ne_true, if_pos hret]

/-- What the return of a retired channel leaves (R447). -/
theorem channelReturn_leaves (hc : c < 8) (hret : tget 0 d.drc.ret c ≠ 9) (hout : d.retired c = true) : let e := channelReturn now r c d
    e.rb Reg.DRC_RETIRE c = false ∧ tget 0 e.drc.ret c = 1 ∧ e.rb Reg.DRC_REBUILD 31 = true := by
  have hkept : (d.setRb Reg.DRC_RETIRE c false).retired c = true := (rb_of_reg (Dev.reg_setRb_ne _ _ _ _ _ (by decide)) _).trans hout
  have heq : channelReturn now r c d = ((d.setRb Reg.DRC_RETIRE c false).setReturn now c 1
      ((d.setRb Reg.DRC_RETIRE c false).rf (Reg.DRC_CHAN_W0 c) 11 0 * 1024)).setRb Reg.DRC_REBUILD 31 true := by
    unfold channelReturn
    rw [hset, Bool.not_true, if_neg Bool.false_ne_true, if_neg hret]
    exact if_pos hkept
  obtain ⟨hreg, hstage, -, -⟩ := setReturn_leaves (d.setRb Reg.DRC_RETIRE c false) now c 1 ((d.setRb Reg.DRC_RETIRE c false).rf (Reg.DRC_CHAN_W0 c) 11 0 * 1024)
  rw [heq]
  dsimp only
  rw [Dev.setRb_drc]
  exact ⟨(rb_of_reg ((Dev.reg_setRb_ne _ _ _ _ _ (by decide)).trans (hreg _)) c).trans (Dev.rb_setRb_self _ _ _ _ (by omega)), hstage,
    Dev.rb_setRb_self _ _ _ _ (by omega)⟩

end

end

end Sys2Proof.Machine
end

section
/-!
SUPPORT. The bring-up of the DRAM controller (R428, R66): which channels it makes usable.
-/

namespace Sys2Proof.Machine

/-! Bring-up begins (R428). -/

/-- The device with its controller in bring-up and no channel. -/
def Dev.bringing (d : Dev) : Dev := { d with drc := { d.drc with bringing := true, chans := [] } }

theorem bringing_leaves (d : Dev) : let e := d.bringing
    (∀ o, e.reg o = d.reg o) ∧ e.drc = { d.drc with bringing := true, chans := [] } ∧ e.flt = d.flt := ⟨fun _ => rfl, rfl, rfl⟩

/-- The registers at the beginning of a bring-up. -/
def Dev.bringRegs (d : Dev) : Dev :=
  (List.range 8).foldl (fun d c => d.setRb (Reg.DRC_CHAN_W0 c) 30 false)
    ((((d.setRb Reg.DRC_CTL 0 true).setRb Reg.DRC_STATUS 0 false).setRf Reg.DRC_STATUS 31 24 0).setRf Reg.DRC_FREQ_STATUS 7 0 0)

theorem bringRegs_leaves (d : Dev) : let e := d.bringRegs
    e.rb Reg.DRC_CTL 0 = true ∧ e.rb Reg.DRC_STATUS 0 = false ∧ e.rf Reg.DRC_STATUS 31 24 = 0 ∧ e.drc = d.drc ∧ e.flt = d.flt := by
  unfold Dev.bringRegs
  generalize hx : (((d.setRb Reg.DRC_CTL 0 true).setRb Reg.DRC_STATUS 0 false).setRf Reg.DRC_STATUS 31 24 0).setRf Reg.DRC_FREQ_STATUS 7 0 0 = x
  have hctl : x.rb Reg.DRC_CTL 0 = true := by
    rw [← hx]
    exact (rb_of_reg (((Dev.reg_setRf_ne _ _ _ _ _ _ (by decide)).trans (Dev.reg_setRf_ne _ _ _ _ _ _ (by decide))).trans
      (Dev.reg_setRb_ne _ _ _ _ _ (by decide))) 0).trans (Dev.rb_setRb_self _ _ _ _ (by omega))
  have hready : x.rb Reg.DRC_STATUS 0 = false := by
    rw [← hx]
    exact (rb_of_reg (Dev.reg_setRf_ne _ _ _ _ _ _ (by decide)) 0).trans
      ((Dev.rb_setRf_apart _ _ _ _ _ _ (by omega) (by omega) (by omega)).trans (Dev.rb_setRb_self _ _ _ _ (by omega)))
  have husable : x.rf Reg.DRC_STATUS 31 24 = 0 := by
    rw [← hx]
    exact (rf_of_reg (Dev.reg_setRf_ne _ _ _ _ _ _ (by decide)) _ _).trans (Dev.rf_setRf_self _ _ _ _ _ (by omega) (by omega))
  have hdrc : x.drc = d.drc := by rw [← hx, Dev.setRf_drc, Dev.setRf_drc, Dev.setRb_drc, Dev.setRb_drc]
  have hflt : x.flt = d.flt := by rw [← hx, Dev.setRf_flt, Dev.setRf_flt, Dev.setRb_flt, Dev.setRb_flt]
  refine foldl_inv (fun (d : Dev) c => d.setRb (Reg.DRC_CHAN_W0 c) 30 false) (fun e => e.rb Reg.DRC_CTL 0 = true ∧ e.rb Reg.DRC_STATUS 0 = false ∧
    e.rf Reg.DRC_STATUS 31 24 = 0 ∧ e.drc = d.drc ∧ e.flt = d.flt) (fun e c h => ?_) _ x ⟨hctl, hready, husable, hdrc, hflt⟩
  obtain ⟨hctl, hready, husable, hdrc, hflt⟩ := h
  have hreg : ∀ o, o < 0x1000200 → (e.setRb (Reg.DRC_CHAN_W0 c) 30 false).reg o = e.reg o := fun o ho =>
    Dev.reg_setRb_ne _ _ _ _ _ (Ne.symm (chanW0_ne c ho))
  exact ⟨(rb_of_reg (hreg _ (by decide)) _).trans hctl, (rb_of_reg (hreg _ (by decide)) _).trans hready,
    (rf_of_reg (hreg _ (by decide)) _ _).trans husable, (Dev.setRb_drc _ _ _ _).trans hdrc, (Dev.setRb_flt _ _ _ _).trans hflt⟩

theorem dramBringup_begins {d : Dev} (r : Req) (hstill : d.forwarding = false) (hoff : d.rb Reg.DRC_CTL 0 = false) :
    dramBringup r d = d.bringRegs.bringing := by
  unfold dramBringup Dev.bringRegs Dev.bringing
  rw [hstill, if_neg Bool.false_ne_true, hoff, if_neg Bool.false_ne_true]

/-- What the beginning of a bring-up leaves (R428). -/
theorem dramBringup_leaves {d : Dev} (r : Req) (hstill : d.forwarding = false) (hoff : d.rb Reg.DRC_CTL 0 = false) : let e := dramBringup r d
    e.rb Reg.DRC_CTL 0 = true ∧ e.rb Reg.DRC_STATUS 0 = false ∧ e.rf Reg.DRC_STATUS 31 24 = 0 ∧
      e.drc = { d.drc with bringing := true, chans := [] } ∧ e.flt = d.flt := by
  obtain ⟨hctl, hready, husable, hdrc, hflt⟩ := bringRegs_leaves d
  rw [dramBringup_begins r hstill hoff]
  generalize d.bringRegs = x at hctl hready husable hdrc hflt ⊢
  obtain ⟨hreg, hbdrc, hbflt⟩ := bringing_leaves x
  rw [hdrc] at hbdrc
  exact ⟨(rb_of_reg (hreg _) _).trans hctl, (rb_of_reg (hreg _) _).trans hready, (rf_of_reg (hreg _) _ _).trans husable, hbdrc, hbflt.trans hflt⟩

/-! Bring-up ends (R428, R66). -/

/-- A bit that is set stays set when any bit is set. -/
theorem rb_setRb_true (d : Dev) (o i : Nat) {j : Nat} (h : d.rb o j = true) : (d.setRb o i true).rb o j = true := by
  by_cases hi : i < 32
  · by_cases hji : j = i
    · rw [hji]
      exact Dev.rb_setRb_self d o i true hi
    · exact (Dev.rb_setRb_apart d o i j true hi hji).trans h
  · have hlarge : 2 ^ 32 ∣ 2 ^ i := Nat.pow_dvd_pow 2 (by omega)
    have hlt : (d.reg o).toNat < 2 ^ i := Nat.lt_of_lt_of_le (d.reg o).isLt (Nat.le_of_dvd (Nat.two_pow_pos i) hlarge)
    have hsame : setFld (d.reg o) i i (b2n true) = d.reg o := by
      refine BitVec.eq_of_toNat_eq ?_
      unfold setFld fld wd
      rw [Nat.div_eq_of_lt hlt, BitVec.toNat_ofNat]
      obtain ⟨k, hk⟩ := hlarge
      have hword := (d.reg o).isLt
      rw [Nat.zero_mod, Nat.zero_mul, Nat.sub_zero, hk, show i + 1 - i = 1 by omega, show b2n true % 2 ^ 1 = 1 from rfl, Nat.one_mul,
        Nat.add_mul_mod_self_left]
      exact Nat.mod_eq_of_lt hword
    unfold Dev.setRb Dev.setRf
    rw [hsame]
    exact (rb_of_reg (Dev.reg_setReg_self d o (d.reg o)) j).trans h

/-- The controller's state and DRC_RETIRE stand, and no channel stops being usable. -/
def bringKeeps (d e : Dev) : Prop := e.drc = d.drc ∧ e.reg Reg.DRC_RETIRE = d.reg Reg.DRC_RETIRE ∧ ∀ c, c < 8 → d.usable c = true → e.usable c = true

theorem bringKeeps_refl (d : Dev) : bringKeeps d d := ⟨rfl, rfl, fun _ _ h => h⟩

theorem bringKeeps_trans {a b c : Dev} (h : bringKeeps a b) (k : bringKeeps b c) : bringKeeps a c :=
  ⟨k.1.trans h.1, k.2.1.trans h.2.1, fun i hi hon => k.2.2 i hi (h.2.2 i hi hon)⟩

theorem bringKeeps_status (d : Dev) (i : Nat) : bringKeeps d (d.setRb Reg.DRC_STATUS i true) :=
  ⟨Dev.setRb_drc _ _ _ _, Dev.reg_setRb_ne _ _ _ _ _ (by decide), fun _ _ h => rb_setRb_true _ _ _ h⟩

theorem bringKeeps_other (d : Dev) {o : Nat} (hs : Reg.DRC_STATUS ≠ o) (hr : Reg.DRC_RETIRE ≠ o) (hi lo v : Nat) : bringKeeps d (d.setRf o hi lo v) :=
  ⟨Dev.setRf_drc _ _ _ _ _, Dev.reg_setRf_ne _ _ _ _ _ _ hr, fun _ _ h => (rb_of_reg (Dev.reg_setRf_ne _ _ _ _ _ _ hs) _).trans h⟩

theorem bringKeeps_chan (d : Dev) (c hi lo v : Nat) : bringKeeps d (d.setRf (Reg.DRC_CHAN_W0 c) hi lo v) :=
  bringKeeps_other d (Ne.symm (chanW0_ne c (by decide))) (Ne.symm (chanW0_ne c (by decide))) _ _ _

theorem bringKeeps_setUsable (d : Dev) (c : Nat) : bringKeeps d (d.setUsable c true) :=
  bringKeeps_trans (bringKeeps_status d _) (bringKeeps_chan _ _ _ _ _)

theorem bringKeeps_setRetired (d : Dev) (c : Nat) : bringKeeps d (d.setRetired c true) :=
  bringKeeps_trans (bringKeeps_status d _) (bringKeeps_chan _ _ _ _ _)

/-- Whether a channel's DIMMs fit its entry, by what the SPD reads gave. -/
def spdGood (spd : List Spd) (e : DramEnt) : Bool := ((spd[e.channel]?).map (fun s => spdFits s e)).getD false

/-- The entries of the channels that pass. -/
def Dev.goodEnts (d : Dev) (spd : List Spd) (trained : BitVec 8) : List DramEnt :=
  d.dramEnts.filter fun e => spdGood spd e && trained.toNat.testBit e.channel

/-- The map of a bring-up: the one fixed before, or the channels that pass. -/
def Dev.mapChans (d : Dev) (spd : List Spd) (trained : BitVec 8) : List (Nat × Nat) :=
  if d.drc.map ≠ [] then d.drc.map else
    (List.range 8).filterMap fun c => ((d.goodEnts spd trained).find? (fun e => decide (e.channel = c))).map (fun e => (c, e.dimms * e.cap * 2 ^ 30))

/-- The end of the bring-up of one channel: its size and training, and whether it is usable or stays retired. -/
def Dev.bringIn (d : Dev) (e : DramEnt) : Dev :=
  let d := (d.setRf (Reg.DRC_CHAN_W0 e.channel) 11 0 (e.dimms * e.cap)).setRb Reg.DRC_FREQ_STATUS e.channel true
  if d.rb Reg.DRC_RETIRE e.channel then d.setRetired e.channel true else d.setUsable e.channel true

/-- One entry of the profile at the end of a bring-up. -/
def Dev.bringEnt (spd : List Spd) (trained : BitVec 8) (chans : List (Nat × Nat)) (d : Dev) (e : DramEnt) : Dev :=
  if !spdGood spd e then d.raise Src.dramProfileMismatch e.channel
  else if !trained.toNat.testBit e.channel then d.raise Src.drcTrainFail e.channel
  else if !chans.any (fun x => decide (x.1 = e.channel)) then d
  else d.bringIn e

/-- A channel of the map that does not pass is out. -/
def Dev.bringOut (good : List DramEnt) (d : Dev) (e : Nat × Nat) : Dev :=
  if good.any (fun x => decide (x.channel = e.1)) then d else d.setRetired e.1 true

/-- The device with the mapping in force. -/
def Dev.mapFixed (d : Dev) (chans : List (Nat × Nat)) (ilv : Nat) : Dev :=
  { d with drc := { d.drc with chans := chans, map := chans, ilv := ilv, bringing := false } }

/-- The end of a bring-up. -/
def Dev.bringEnd (d : Dev) (chans : List (Nat × Nat)) (ilv : Nat) : Dev :=
  (((d.mapFixed chans ilv).setRf Reg.DRC_STATUS 11 8 chans.length).setRb Reg.DRC_STATUS 0 true).setRb Reg.GLB_CLK_STATUS 25 true

theorem dramBringupDone_eq {d : Dev} (spd : List Spd) (trained : BitVec 8) (hbring : d.drc.bringing = true) : let chans := d.mapChans spd trained
    dramBringupDone spd trained d = (chans.foldl (Dev.bringOut (d.goodEnts spd trained)) (d.dramEnts.foldl (Dev.bringEnt spd trained chans) d)).bringEnd
      chans (if d.drc.map ≠ [] then d.drc.ilv else d.rf Reg.DRC_ILV 3 0) := by
  unfold dramBringupDone
  rw [hbring, Bool.not_true, if_neg Bool.false_ne_true]
  rfl

theorem bringIn_keeps (d : Dev) (e : DramEnt) : bringKeeps d (d.bringIn e) := by
  have hsized := bringKeeps_trans (bringKeeps_chan d e.channel 11 0 (e.dimms * e.cap))
    (bringKeeps_other (o := Reg.DRC_FREQ_STATUS) _ (by decide) (by decide) e.channel e.channel (b2n true))
  unfold Dev.bringIn
  dsimp only
  split
  · exact bringKeeps_trans hsized (bringKeeps_setRetired _ _)
  · exact bringKeeps_trans hsized (bringKeeps_setUsable _ _)

theorem bringEnt_keeps (spd : List Spd) (trained : BitVec 8) (chans : List (Nat × Nat)) (d : Dev) (e : DramEnt) :
    bringKeeps d (d.bringEnt spd trained chans e) := by
  unfold Dev.bringEnt
  split
  · exact bringKeeps_refl d
  · split
    · exact bringKeeps_refl d
    · split
      · exact bringKeeps_refl d
      · exact bringIn_keeps d e

theorem bringIn_usable {d : Dev} {e : DramEnt} (hc : e.channel < 8) (hret : d.rb Reg.DRC_RETIRE e.channel = false) : (d.bringIn e).usable e.channel = true := by
  have hkept : ((d.setRf (Reg.DRC_CHAN_W0 e.channel) 11 0 (e.dimms * e.cap)).setRb Reg.DRC_FREQ_STATUS e.channel true).rb Reg.DRC_RETIRE e.channel = false :=
    (rb_of_reg ((Dev.reg_setRb_ne _ _ _ _ _ (by decide)).trans (Dev.reg_setRf_ne _ _ _ _ _ _ (Ne.symm (chanW0_ne _ (by decide))))) _).trans hret
  unfold Dev.bringIn
  dsimp only
  rw [hkept, if_neg Bool.false_ne_true]
  exact (setUsable_leaves _ hc true).1

/-- A channel that passes, is of the map and is not to be retired is usable after the entries are gone through. -/
theorem bringEnts_usable {spd : List Spd} {trained : BitVec 8} {chans : List (Nat × Nat)} {d : Dev} {l : List DramEnt} {x : DramEnt} (hx : x ∈ l)
    (hc : x.channel < 8) (hfit : spdGood spd x = true) (htrain : trained.toNat.testBit x.channel = true) (hmap : x.channel ∈ chans.map (·.1))
    (hret : d.rb Reg.DRC_RETIRE x.channel = false) : (l.foldl (Dev.bringEnt spd trained chans) d).usable x.channel = true := by
  have hkeeps : ∀ (l : List DramEnt) (d : Dev), bringKeeps d (l.foldl (Dev.bringEnt spd trained chans) d) := fun l d =>
    foldl_inv _ (bringKeeps d) (fun b e hb => bringKeeps_trans hb (bringEnt_keeps spd trained chans b e)) l d (bringKeeps_refl d)
  obtain ⟨p, q, rfl, -⟩ := List.eq_append_cons_of_mem hx
  obtain ⟨-, hbefore, -⟩ := hkeeps p d
  obtain ⟨y, hy, hyc⟩ := List.mem_map.mp hmap
  have hin : chans.any (fun z => decide (z.1 = x.channel)) = true := List.any_eq_true.mpr ⟨y, hy, decide_eq_true hyc⟩
  have hstep : ∀ e : Dev, e.bringEnt spd trained chans x = e.bringIn x := fun e => by
    unfold Dev.bringEnt
    rw [hfit, htrain, hin]
    exact (if_neg (by decide)).trans ((if_neg (by decide)).trans (if_neg (by decide)))
  rw [List.foldl_append, List.foldl_cons, hstep]
  exact (hkeeps q _).2.2 _ hc (bringIn_usable hc ((rb_of_reg hbefore _).trans hret))

theorem bringOuts_keep (good : List DramEnt) (d : Dev) (l : List (Nat × Nat)) : bringKeeps d (l.foldl (Dev.bringOut good) d) :=
  foldl_inv _ (bringKeeps d) (fun b e hb => bringKeeps_trans hb (by
    unfold Dev.bringOut
    split
    · exact bringKeeps_refl b
    · exact bringKeeps_setRetired b _)) l d (bringKeeps_refl d)

theorem mapFixed_leaves (d : Dev) (chans : List (Nat × Nat)) (ilv : Nat) : let e := d.mapFixed chans ilv
    (∀ o, e.reg o = d.reg o) ∧ e.drc.bringing = false ∧ e.drc.chans = chans ∧ e.drc.map = chans ∧ e.drc.ilv = ilv :=
  ⟨fun _ => rfl, rfl, rfl, rfl, rfl⟩

theorem bringEnd_leaves (d : Dev) (chans : List (Nat × Nat)) (ilv : Nat) : let e := d.bringEnd chans ilv
    (e.drc.bringing = false ∧ e.drc.chans = chans ∧ e.drc.map = chans ∧ e.drc.ilv = ilv) ∧ e.rb Reg.DRC_STATUS 0 = true ∧
      e.rb Reg.GLB_CLK_STATUS 25 = true ∧ ∀ c, e.usable c = d.usable c := by
  obtain ⟨hreg, hdrc⟩ := mapFixed_leaves d chans ilv
  have hstatus : ∀ i, (d.bringEnd chans ilv).rb Reg.DRC_STATUS i =
      (((d.mapFixed chans ilv).setRf Reg.DRC_STATUS 11 8 chans.length).setRb Reg.DRC_STATUS 0 true).rb Reg.DRC_STATUS i := fun i =>
    rb_of_reg (Dev.reg_setRb_ne _ _ _ _ _ (by decide)) i
  refine ⟨?_, (hstatus 0).trans (Dev.rb_setRb_self _ _ _ _ (by omega)), Dev.rb_setRb_self _ _ _ _ (by omega), fun c => ?_⟩
  · unfold Dev.bringEnd
    rw [Dev.setRb_drc, Dev.setRb_drc, Dev.setRf_drc]
    exact hdrc
  · exact (hstatus _).trans ((Dev.rb_setRb_apart _ _ _ _ _ (by omega) (by omega)).trans
      ((Dev.rb_setRf_apart _ _ _ _ _ _ (by omega) (by omega) (by omega)).trans (rb_of_reg (hreg _) _)))

/-- A channel that passes is of the map, if it is of the one fixed before (R428, log entry 135). -/
theorem mem_mapChans {d : Dev} {spd : List Spd} {trained : BitVec 8} {x : DramEnt} (hx : x ∈ d.dramEnts) (hc : x.channel < 8)
    (hfit : spdGood spd x = true) (htrain : trained.toNat.testBit x.channel = true) (hmap : d.drc.map = [] ∨ x.channel ∈ d.drc.map.map (·.1)) :
    x.channel ∈ (d.mapChans spd trained).map (·.1) := by
  unfold Dev.mapChans
  split
  · next hold => exact hmap.resolve_left hold
  · have hgood : x ∈ d.goodEnts spd trained := List.mem_filter.mpr ⟨hx, Bool.and_eq_true_iff.mpr ⟨hfit, htrain⟩⟩
    obtain ⟨y, hy⟩ := Option.isSome_iff_exists.mp (List.find?_isSome (p := fun e : DramEnt => decide (e.channel = x.channel)).mpr
      ⟨x, hgood, decide_eq_true rfl⟩)
    refine List.mem_map.mpr ⟨(x.channel, y.dimms * y.cap * 2 ^ 30), List.mem_filterMap.mpr ⟨x.channel, List.mem_range.mpr hc, ?_⟩, rfl⟩
    rw [hy]
    rfl

/-- What the end of a bring-up leaves (R428, R66). -/
theorem dramBringupDone_leaves {d : Dev} (hbring : d.drc.bringing = true) (spd : List Spd) (trained : BitVec 8) : let e := dramBringupDone spd trained d
    e.drc.bringing = false ∧ e.rb Reg.DRC_STATUS 0 = true ∧ e.rb Reg.GLB_CLK_STATUS 25 = true ∧
      e.drc.chans = e.drc.map ∧ (d.drc.map ≠ [] → e.drc.map = d.drc.map ∧ e.drc.ilv = d.drc.ilv) ∧
      ∀ x p, x ∈ d.dramEnts → x.channel < 8 → spd[x.channel]? = some p → spdFits p x = true → trained.toNat.testBit x.channel = true →
        d.drc.map = [] ∨ x.channel ∈ d.drc.map.map (·.1) → d.rb Reg.DRC_RETIRE x.channel = false →
        e.usable x.channel = true ∧ x.channel ∈ e.drc.chans.map (·.1) := by
  have hmap : d.drc.map ≠ [] → d.mapChans spd trained = d.drc.map := fun h => if_pos h
  rw [dramBringupDone_eq spd trained hbring]
  dsimp only
  obtain ⟨⟨hdone, hchans, hfixed, hilv⟩, hready, hlock, husable⟩ := bringEnd_leaves
    ((d.mapChans spd trained).foldl (Dev.bringOut (d.goodEnts spd trained)) (d.dramEnts.foldl (Dev.bringEnt spd trained (d.mapChans spd trained)) d))
    (d.mapChans spd trained) (if d.drc.map ≠ [] then d.drc.ilv else d.rf Reg.DRC_ILV 3 0)
  refine ⟨hdone, hready, hlock, hchans.trans hfixed.symm, fun h => ⟨hfixed.trans (hmap h), hilv.trans (if_pos h)⟩,
    fun x p hx hc hspd hfits htrain hold hret => ?_⟩
  have hfit : spdGood spd x = true := by
    unfold spdGood
    rw [hspd]
    exact hfits
  have hin := mem_mapChans hx hc hfit htrain hold
  rw [hchans, husable]
  exact ⟨(bringOuts_keep _ _ _).2.2 _ hc (bringEnts_usable hx hc hfit htrain hin hret), hin⟩

end Sys2Proof.Machine
end

section
/-!
O55 (R428, R432 to R436, R438 to R442, R446, R447, R457): the DRAM controller's commands.
-/

namespace Sys2Proof.Machine

/-! A read that returns (R432). -/

theorem readDone_leaves (d : Dev) (i : Nat) (q : DramReq) (b : Bool) : let e := d.readDone i q b
    e.flt = d.flt ∧ e.regs = d.regs ∧ ∀ o, e.reg o = d.reg o := ⟨rfl, rfl, fun _ => rfl⟩

section
variable {d : Dev} {q : DramReq} {first : BurstRead} (now : Nat) (again : BurstRead) (htag : d.tagMatches (d.servingAddr q.addr) first = true)
  (hflips : first.flips = [])
include htag hflips

theorem readJudged_sound (hsound : d.poisoned (d.servingAddr q.addr / 64 * 64) 64 = false) (hthere : d.lost q.addr = false) :
    d.readJudged now q first again = (false, d.picked) := by
  unfold Dev.readJudged
  rw [judge_sound htag hflips now again hsound, hthere]
  rfl

theorem readJudged_lost (hsound : d.poisoned (d.servingAddr q.addr / 64 * 64) 64 = false) (hlost : d.lost q.addr = true) :
    d.readJudged now q first again = (true, d.picked.dramUe now 0 q.addr) := by
  unfold Dev.readJudged
  rw [judge_sound htag hflips now again hsound, hlost]
  exact if_pos rfl

theorem readJudged_poisoned (hbad : d.poisoned (d.servingAddr q.addr / 64 * 64) 64 = true)
    (hgone : d.recoverable (d.servingAddr q.addr / 64 * 64) = false) :
    d.readJudged now q first again = (true, d.picked.dramUe now 0 (d.servingAddr q.addr / 64 * 64)) := by
  unfold Dev.readJudged
  rw [judge_poisoned htag hflips now again hbad hgone]
  exact if_neg (by rw [Bool.not_true, Bool.false_and]; exact Bool.false_ne_true)

end

/-- What a read that returns leaves (R432). -/
theorem readReturned_leaves (d : Dev) (now i : Nat) (q : DramReq) (first again : BurstRead) : let a := d.servingAddr q.addr
    let b := (d.readJudged now q first again).1
    let e := (d.readJudged now q first again).2.readDone i q b
    e.drc.reqs = d.drc.reqs.set i { q with done := some b } ∧
      (d.tagMatches a first = true → first.flips = [] → d.poisoned (a / 64 * 64) 64 = false → d.lost q.addr = false →
        b = false ∧ e.flt = d.flt ∧ e.regs = d.regs) ∧
      (d.tagMatches a first = true → first.flips = [] → d.poisoned (a / 64 * 64) 64 = false → d.lost q.addr = true →
        b = true ∧ e.reg Reg.DRC_UE_CNT = d.reg Reg.DRC_UE_CNT + 1) ∧
      (d.tagMatches a first = true → first.flips = [] → d.poisoned (a / 64 * 64) 64 = true → d.recoverable (a / 64 * 64) = false →
        b = true ∧ e.reg Reg.DRC_UE_CNT = d.reg Reg.DRC_UE_CNT + 1) := by
  dsimp only
  refine ⟨readDone_reqs (readJudged_judged d now q first again) i q _, fun htag hflips hsound hthere => ?_, fun htag hflips hsound hlost => ?_,
    fun htag hflips hbad hgone => ?_⟩
  · obtain ⟨hflt, hregs, -⟩ := readDone_leaves d.picked i q false
    rw [readJudged_sound now again htag hflips hsound hthere]
    exact ⟨rfl, hflt, hregs⟩
  · obtain ⟨-, -, hreg⟩ := readDone_leaves (d.picked.dramUe now 0 q.addr) i q true
    rw [readJudged_lost now again htag hflips hsound hlost]
    exact ⟨rfl, (hreg _).trans (dramUe_counted _ _ _ _)⟩
  · obtain ⟨-, -, hreg⟩ := readDone_leaves (d.picked.dramUe now 0 (d.servingAddr q.addr / 64 * 64)) i q true
    rw [readJudged_poisoned now again htag hflips hbad hgone]
    exact ⟨rfl, (hreg _).trans (dramUe_counted _ _ _ _)⟩

/-! A command slot (R434 to R436). -/

/-- What the issue of a read leaves. -/
theorem issueRead_leaves (d : Dev) (now ch sub i : Nat) (q : DramReq) : let e := d.issueRead now ch sub i q
    e = { d with drc := e.drc } ∧ e.drc.reqs = d.drc.reqs.set i { q with issued := true } ∧
      tget none e.drc.rows (bankKey ch (d.slotBank ch q)) = some (d.slotBank ch q).row ∧
      (d.slotHit ch q = true → e.drc.group = d.drc.group ∧ e.drc.acts = d.drc.acts) ∧
      (d.slotHit ch q = false → (tget [] e.drc.acts (rankKey ch (d.slotBank ch q))).head? = some now) := by
  refine ⟨rfl, rfl, tget_tset_self none d.drc.rows (bankKey ch (d.slotBank ch q)) (some (d.slotBank ch q).row),
    fun hhit => ⟨if_pos hhit, if_pos hhit⟩, fun hmiss => ?_⟩
  have hacts : (d.issueRead now ch sub i q).drc.acts = tset [] d.drc.acts (rankKey ch (d.slotBank ch q))
      (now :: (tget [] d.drc.acts (rankKey ch (d.slotBank ch q))).take 3) := if_neg (by rw [hmiss]; exact Bool.false_ne_true)
  rw [hacts, tget_tset_self]
  rfl

/-- Settles O55: each command by what its own function leaves. -/
theorem dramController : Obligations.DramController := by
  unfold Obligations.DramController
  intro s
  have hwrap : ∀ {c : Nat}, c < 8 → isChannel c = true := fun h => decide_eq_true h
  have hslot : ∀ {ch sub : Nat}, ch < 8 → sub < 2 → (isChannel ch && isSub sub) = true := fun hch hsub =>
    Bool.and_eq_true_iff.mpr ⟨decide_eq_true hch, decide_eq_true hsub⟩
  refine ⟨fun hreset r => ⟨fun hrun => ?refused, fun hstill hoff => ?bring⟩, fun hbring spd trained => ?brought,
    fun ch sub hch hsub hopen => ?issue, fun ch sub i q hch hsub hfirst hq first again => ?returns,
    fun hon hfit first again => ⟨fun hdue => ?scrub, fun hstart hwait => ?scrubWaits⟩,
    fun hreset v => ⟨fun hgo => ?put, fun hgo hno => ?reject, fun hgo hother hidle => ?latch⟩,
    fun hrun => ⟨fun hstate => ?again, fun hstate hcalm => ?calm, fun hstate hpanic hdue => ?forced, fun hstate => ?drains⟩,
    fun hstate => ?done, fun c hc => ⟨fun hwants hmay => ?train, fun hon hrun hstate hdue => ?retrain, fun hstopped last ok => ?trained,
      fun hreset r => ⟨fun hset => ?retired, fun hclear hon hlast => ?last, fun hclear hon hother hin => ?retire, fun hclear hoff hret => ?out,
        fun hclear hoff hret => ?returning, fun hset hret => ?contained, fun hset hret hout => ?back⟩⟩⟩
  case refused =>
    refine (exec_dramBringup r s).trans ((runDev_ok rfl).trans ?_)
    rw [live_on hreset, dramBringup, if_pos hrun]
  case bring =>
    refine ⟨_, (exec_dramBringup r s).trans (runDev_ok rfl), ?_⟩
    rw [live_on hreset]
    exact dramBringup_leaves r hstill hoff
  case brought => exact ⟨_, (exec_dramBringupDone spd trained s).trans (runDev_ok rfl), dramBringupDone_leaves hbring spd trained⟩
  case issue =>
    intro bank hits may hready
    have hmay : ∀ x, may x ↔ x ∈ s.dev.slotReads s.clk.count ch sub := fun x => mem_slotReads.symm
    have hhits : ∀ q, hits q ↔ s.dev.slotHit ch q = true := fun q => decide_eq_true_iff.symm
    obtain ⟨x, hx, hlow⟩ := hready
    obtain ⟨i, q, heq, hmem, hmin, hhit⟩ := dramCommandIssue_leaves hopen ⟨x, (hmay x).mp hx, hlow⟩
    obtain ⟨hq, hissued, hdone⟩ := readQueue_waits (mem_slotReads.mp hmem).1
    obtain ⟨hdev, hreqs, hrow, hkept, hact⟩ := issueRead_leaves s.dev s.clk.count ch sub i q
    refine ⟨s.dev.issueRead s.clk.count ch sub i q, i, q, (exec_dramCommandIssue ch sub s).trans ((runDev_ok (hslot hch hsub)).trans (by rw [heq])),
      hq, hissued, hdone, (hmay _).mpr hmem, fun y hy => hmin y ((hmay y).mp hy), fun ⟨y, hy, hsame, hyhit⟩ => ?_, hdev, hreqs, hrow,
      fun h => hkept ((hhits q).mp h), fun h => hact (Bool.eq_false_iff.mpr fun k => h ((hhits q).mpr k))⟩
    exact (hhits q).mpr (hhit ⟨y, (hmay y).mp hy, hsame, (hhits _).mp hyhit⟩)
  case returns =>
    have heq := dramReadReturn_judges hfirst hq s.clk.count first again
    exact ⟨_, _, (exec_dramReadReturn ch sub first again s).trans ((runDev_ok (hslot hch hsub)).trans (by rw [heq])),
      readReturned_leaves s.dev s.clk.count i q first again⟩
  case scrub => exact ⟨_, (exec_scrubVisit first again s).trans (runDev_ok rfl), scrubVisit_moves _ first again hon hfit hdue⟩
  case scrubWaits =>
    exact (exec_scrubVisit first again s).trans (runDev_becomes (scrubVisit_waits _ first again hon hfit hstart hwait))
  case put =>
    obtain ⟨hhigh, hlow, hregs, hdrc, hflt⟩ := freqPut_leaves s.dev v
    refine ⟨s.dev.freqPut v, (exec_freqChangeGo v s).trans (runDev_becomes ((live_on hreset).trans (freqChangeGo_puts _ hgo))), ⟨hhigh, hlow⟩,
      hregs _ (by decide), hdrc, hflt⟩
  case reject => exact (exec_freqChangeGo v s).trans (runDev_becomes ((live_on hreset).trans (freqChangeGo_rejects _ hgo hno)))
  case latch =>
    refine ⟨_, (exec_freqChangeGo v s).trans (runDev_ok rfl), ?_⟩
    rw [live_on hreset]
    exact freqChangeGo_latches _ hgo hother hidle
  case again => exact ⟨_, (exec_freqSwitch s).trans (runDev_becomes (freqSwitch_latches _ hrun hstate)), (latchSwitch_leaves _ _).1⟩
  case calm =>
    obtain ⟨hthree, -, -, -, hflt, -⟩ := setFreqState_leaves s.dev s.clk.count (st := 3) (by omega)
    exact ⟨_, (exec_freqSwitch s).trans (runDev_becomes (freqSwitch_calm _ hrun hstate hcalm)), hthree, hflt⟩
  case forced =>
    obtain ⟨hthree, -, -, -, hforced, hinbox⟩ := forceSwitch_leaves s.dev s.clk.count
    exact ⟨_, (exec_freqSwitch s).trans (runDev_becomes (freqSwitch_forced _ hrun hstate hpanic hdue)), hthree, hforced, hinbox⟩
  case drains => exact ⟨_, (exec_freqSwitch s).trans (runDev_becomes (freqSwitch_drains _ hrun hstate)), switchDrained_leaves _ _⟩
  case done => exact ⟨_, (exec_freqSwitchDone s).trans (runDev_ok rfl), freqSwitchDone_leaves _ hstate⟩
  case train => exact (exec_trainingStep c s).trans ((runDev_ok (hwrap hc)).trans (by rw [trainingStep_begins _ hwants hmay]))
  case retrain =>
    exact ⟨_, (exec_periodicRetrain c s).trans ((runDev_ok (hwrap hc)).trans (by rw [periodicRetrain_begins hon hrun hstate hdue])),
      retrainBegun_leaves _ _ _⟩
  case trained => exact ⟨_, (exec_trainingStepDone c last ok s).trans (runDev_ok (hwrap hc)), trainingStepDone_leaves hc _ last ok hstopped⟩
  case retired => exact (exec_channelRetire r c s).trans ((runDev_ok (hwrap hc)).trans (by rw [live_on hreset, channelRetire_again _ r hset]))
  case last => exact (exec_channelRetire r c s).trans ((runDev_ok (hwrap hc)).trans (by rw [live_on hreset, channelRetire_last _ r hclear hon hlast]))
  case retire =>
    refine ⟨_, (exec_channelRetire r c s).trans (runDev_ok (hwrap hc)), ?_⟩
    rw [live_on hreset]
    exact channelRetire_usable _ r hclear hc hon hother hin
  case out => exact (exec_channelRetire r c s).trans ((runDev_ok (hwrap hc)).trans (by rw [live_on hreset, channelRetire_out _ r hclear hoff hret]))
  case returning =>
    refine ⟨_, (exec_channelRetire r c s).trans (runDev_ok (hwrap hc)), ?_⟩
    rw [live_on hreset]
    exact channelRetire_returning _ r hclear hc hoff hret
  case contained =>
    exact (exec_channelReturn r c s).trans ((runDev_ok (hwrap hc)).trans (by rw [live_on hreset, channelReturn_contained _ r hset hret]))
  case back =>
    refine ⟨_, (exec_channelReturn r c s).trans (runDev_ok (hwrap hc)), ?_⟩
    rw [live_on hreset]
    exact channelReturn_leaves _ r hset hc hret hout

end Sys2Proof.Machine
end

section
/-!
SUPPORT. The table cache and the DRAM controller's queues (R434, R449, R450, R454): what an ask, an install and a fill leave.
-/

namespace Sys2Proof.Machine

/-! A read that is asked of the controller (R434, R446). -/

/-- A retired channel is one of the sixteen that DRC_STATUS has a bit for. -/
theorem retired_low {d : Dev} {c : Nat} (h : d.retired c = true) : c < 16 := by
  by_contra hlarge
  have hzero : (d.reg Reg.DRC_STATUS).toNat.testBit (16 + c) = false :=
    Nat.testBit_lt_two_pow (Nat.lt_of_lt_of_le (d.reg Reg.DRC_STATUS).isLt (Nat.pow_le_pow_right (by omega) (by omega)))
  exact absurd (hzero.symm.trans h) nofun

theorem dramCapture_tca_regs (d : Dev) (kind a : Nat) {o : Nat} (ho : Reg.TCA_CTL ≤ o) : (d.dramCapture kind a).reg o = d.reg o := by
  have hhigh : ∀ {p : Nat}, p < Reg.TCA_CTL → o ≠ p := fun hp => by omega
  unfold Dev.dramCapture
  split
  · exact Dev.reg_setRb_ne _ _ _ _ _ (hhigh (by decide))
  · exact ((Dev.reg_setReg_ne _ _ _ _ (hhigh (by decide))).trans (Dev.reg_setReg_ne _ _ _ _ (hhigh (by decide)))).trans
      (Dev.reg_setReg_ne _ _ _ _ (hhigh (by decide)))

/-- A poisoned read of a channel of the sixteen leaves the registers of the table cache. -/
theorem dramUe_tca_regs (d : Dev) (now kind a : Nat) (hc : (d.dramLoc a).1 < 16) {o : Nat} (ho : Reg.TCA_CTL ≤ o) :
    (d.dramUe now kind a).reg o = d.reg o := by
  have hcnt : o ≠ Reg.DRC_UE_CNT := by
    unfold Reg.TCA_CTL at ho
    unfold Reg.DRC_UE_CNT
    omega
  have hchan : o ≠ Reg.DRC_CHAN_W2 (d.dramLoc a).1 := by
    unfold Reg.TCA_CTL at ho
    unfold Reg.DRC_CHAN_W2
    omega
  refine ((dateUes_leaves _ now).1 o).trans ((dramCapture_tca_regs _ kind a ho).trans ((Dev.reg_setReg_ne _ _ _ _ hchan).trans ?_))
  exact Dev.reg_setReg_ne _ _ _ _ hcnt

theorem dramOnly_tca {d e : Dev} (h : dramOnly d e) : e.tca = d.tca := by
  obtain ⟨_, _, _, rfl⟩ := h
  rfl

/-- The device with a read in the controller's queues. -/
def Dev.readQueued (d : Dev) (q : DramReq) : Dev := { d with drc := { d.drc with reqs := d.drc.reqs ++ [q] } }

theorem readQueued_leaves (d : Dev) (q : DramReq) : let e := d.readQueued q
    (∀ o, e.reg o = d.reg o) ∧ e.tca = d.tca ∧ e.drc.reqs = d.drc.reqs ++ [q] ∧ ∀ a, e.dramLoc a = d.dramLoc a :=
  ⟨fun _ => rfl, rfl, rfl, fun _ => rfl⟩

/-- What an ask of the controller leaves (R434, R446). -/
theorem dramAsk_leaves (d : Dev) (now cls : Nat) (who : DramWho) (a : Nat) : let e := d.dramAsk now cls who a
    (∀ o, Reg.TCA_CTL ≤ o → e.reg o = d.reg o) ∧ e.tca = d.tca ∧ ∃ q, q.who = who ∧ e.drc.reqs = d.drc.reqs ++ [q] := by
  obtain ⟨q, hq⟩ : ∃ q : DramReq, q = { who := who, cls := cls, at_ := now, addr := a, issued := false, done := if d.lost a then some true else none } :=
    ⟨_, rfl⟩
  have hwho : q.who = who := by rw [hq]
  have heq : d.dramAsk now cls who a = if d.lost a then (d.readQueued q).dramUe now 0 a else d.readQueued q := by
    rw [hq]
    rfl
  obtain ⟨hreg, htca, hreqs, hloc⟩ := readQueued_leaves d q
  rw [heq]
  generalize d.readQueued q = x at hreg htca hreqs hloc ⊢
  split
  · next hlost =>
    obtain ⟨⟨-, hret⟩, -⟩ := by
      unfold Dev.lost at hlost
      simpa only [Bool.and_eq_true] using hlost
    obtain ⟨-, _, _, _, hdrc⟩ := dramUe_judged x now 0 a
    refine ⟨fun o ho => (dramUe_tca_regs x now 0 a ?_ ho).trans (hreg o), (dramOnly_tca (dramUe_only x now 0 a)).trans htca, q, hwho, by rw [hdrc]; exact hreqs⟩
    rw [hloc]
    exact retired_low hret
  · exact ⟨fun o _ => hreg o, htca, q, hwho, hreqs⟩

/-- What the end of a requester's read leaves. -/
theorem dramDrop_leaves (d : Dev) (who : DramWho) : let e := d.dramDrop who
    (∀ o, e.reg o = d.reg o) ∧ e.tca = d.tca ∧ (∀ l, e.lineFromDram l = d.lineFromDram l) ∧ e.dramDone who = none := by
  refine ⟨fun _ => rfl, rfl, fun _ => rfl, ?_⟩
  have hnone : (d.dramDrop who).drc.reqs.find? (fun q => decide (q.who = who) && q.done.isSome) = none := by
    refine List.find?_eq_none.mpr fun q hq hgot => ?_
    obtain ⟨-, hother⟩ := List.mem_filter.mp hq
    exact of_decide_eq_true hother (of_decide_eq_true (Bool.and_eq_true_iff.mp hgot).1)
  unfold Dev.dramDone
  rw [hnone]
  rfl

/-! The lines (R449, R452). -/

/-- The lines, the replacement trees and the victims may change, nothing else. -/
def linesOnly (d e : Dev) : Prop := ∃ l p v, e = { d with tca := { d.tca with lines := l, plru := p, victims := v } }

theorem linesOnly_refl (d : Dev) : linesOnly d d := ⟨_, _, _, rfl⟩

theorem linesOnly_trans {a b c : Dev} (h : linesOnly a b) (k : linesOnly b c) : linesOnly a c := by
  obtain ⟨_, _, _, rfl⟩ := h
  obtain ⟨l, p, v, rfl⟩ := k
  exact ⟨l, p, v, rfl⟩

theorem setWay_only (d : Dev) (set way : Nat) (x : Option TcaLine) : linesOnly d (d.setWay set way x) := ⟨_, _, _, rfl⟩

theorem touchWay_only (d : Dev) (set way : Nat) : linesOnly d (d.touchWay set way) := ⟨_, _, _, rfl⟩

theorem setWay_tget (d : Dev) (set way k : Nat) (x : Option TcaLine) :
    tget none (d.setWay set way x).tca.lines k = if k = set * 16 + way then x else tget none d.tca.lines k :=
  tget_tset none d.tca.lines (set * 16 + way) k x

theorem tcaWay_touched (d : Dev) (set way : Nat) (x : Option TcaLine) : ((d.setWay set way x).touchWay set way).tcaWay set way = x :=
  tget_tset_self none d.tca.lines (set * 16 + way) x

theorem linesOnly_fields {d e : Dev} (h : linesOnly d e) : e.regs = d.regs ∧ e.drc = d.drc ∧ e.mem = d.mem ∧ e.tca.fills = d.tca.fills ∧
    e.tca.got = d.tca.got ∧ e.tca.mbs = d.tca.mbs ∧ e.tca.preload = d.tca.preload := by
  obtain ⟨_, _, _, rfl⟩ := h
  exact ⟨rfl, rfl, rfl, rfl, rfl, rfl, rfl⟩

/-- The victim of a set, moved to its slice's buffer. -/
def Dev.evict (d : Dev) (set w s : Nat) : Dev :=
  match d.tcaWay set w with
  | some v =>
    let vs := (v :: tget [] d.tca.victims s).take 8
    { d with tca := { d.tca with victims := tset [] d.tca.victims s vs } }
  | none => d

theorem evict_only (d : Dev) (set w s : Nat) : linesOnly d (d.evict set w s) := by
  unfold Dev.evict
  split
  · exact ⟨_, _, _, rfl⟩
  · exact linesOnly_refl d

theorem tcaInstall_resident {d : Dev} {id w : Nat} {x : TcaLine} (h : d.tcaFind x.line = some w) :
    d.tcaInstall id x = (d.setWay (tcaSet x.line) w (some x)).touchWay (tcaSet x.line) w := by
  unfold Dev.tcaInstall
  rw [h]

theorem tcaInstall_nowhere {d : Dev} {id : Nat} {x : TcaLine} (h : d.tcaFind x.line = none) (hno : d.tableWays id = 0) : d.tcaInstall id x = d := by
  unfold Dev.tcaInstall
  rw [h]
  exact if_pos hno

theorem tcaInstall_victim {d : Dev} {id : Nat} {x : TcaLine} (h : d.tcaFind x.line = none) (hways : d.tableWays id ≠ 0) :
    let w := plruVictim (tget 0 d.tca.plru (tcaSet x.line)) (d.tableWays id) 4 0 0
    d.tcaInstall id x = ((d.evict (tcaSet x.line) w (tcaSlice x.line)).setWay (tcaSet x.line) w (some x)).touchWay (tcaSet x.line) w := by
  unfold Dev.tcaInstall
  rw [h]
  exact if_neg hways

theorem tcaInstall_only (d : Dev) (id : Nat) (x : TcaLine) : linesOnly d (d.tcaInstall id x) := by
  cases hfind : d.tcaFind x.line with
  | some w =>
    rw [tcaInstall_resident hfind]
    exact linesOnly_trans (setWay_only _ _ _ _) (touchWay_only _ _ _)
  | none =>
    by_cases hways : d.tableWays id = 0
    · rw [tcaInstall_nowhere hfind hways]
      exact linesOnly_refl d
    · rw [tcaInstall_victim hfind hways]
      exact linesOnly_trans (evict_only _ _ _ _) (linesOnly_trans (setWay_only _ _ _ _) (touchWay_only _ _ _))

/-- A line that its table may allocate stands in a way of its set after its install (R449, R452). -/
theorem tcaInstall_puts {d : Dev} {id : Nat} (x : TcaLine) (hways : d.tableWays id ≠ 0) : ∃ w, (d.tcaInstall id x).tcaWay (tcaSet x.line) w = some x := by
  cases hfind : d.tcaFind x.line with
  | some w =>
    rw [tcaInstall_resident hfind]
    exact ⟨w, tcaWay_touched _ _ _ _⟩
  | none =>
    rw [tcaInstall_victim hfind hways]
    exact ⟨_, tcaWay_touched _ _ _ _⟩

/-! The preload (R452). -/

theorem tcaResult_leaves (d : Dev) (busy : Bool) {r : Nat} (hr : r < 16) : let e := d.tcaResult busy r
    e.rb Reg.TCA_CMD_STATUS 31 = busy ∧ e.rf Reg.TCA_CMD_STATUS 3 0 = r ∧ (∀ o, o ≠ Reg.TCA_CMD_STATUS → e.reg o = d.reg o) ∧
      e.tca = d.tca ∧ e.drc = d.drc :=
  ⟨(Dev.rb_setRf_apart _ _ _ _ _ _ (by omega) (by omega) (by omega)).trans (Dev.rb_setRb_self _ _ _ _ (by omega)),
    (Dev.rf_setRf_self _ _ _ _ _ (by omega) (by omega)).trans (Nat.mod_eq_of_lt (by omega)),
    fun o ho => (Dev.reg_setRf_ne _ _ _ _ _ _ ho).trans (Dev.reg_setRb_ne _ _ _ _ _ ho),
    (Dev.setRf_tca _ _ _ _ _).trans (Dev.setRb_tca _ _ _ _), (Dev.setRf_drc _ _ _ _ _).trans (Dev.setRb_drc _ _ _ _)⟩

/-- The device with its preload at a line. -/
def Dev.preloadAt (d : Dev) (x : Option (Nat × Nat × Nat)) : Dev := { d with tca := { d.tca with preload := x } }

/-- The device with a fill outstanding. -/
def Dev.fillAsked (d : Dev) (f : TcaFill) : Dev := { d with tca := { d.tca with fills := d.tca.fills ++ [f] } }

theorem preloadAt_leaves (d : Dev) (x : Option (Nat × Nat × Nat)) : let e := d.preloadAt x
    (∀ o, e.reg o = d.reg o) ∧ e.tca = { d.tca with preload := x } ∧ e.drc = d.drc ∧ (∀ l, e.filling l = d.filling l) ∧
      ∀ l, e.sliceFull l = d.sliceFull l :=
  ⟨fun _ => rfl, rfl, rfl, fun _ => rfl, fun _ => rfl⟩

theorem fillAsked_leaves (d : Dev) (f : TcaFill) : let e := d.fillAsked f
    (∀ o, e.reg o = d.reg o) ∧ e.tca = { d.tca with fills := d.tca.fills ++ [f] } ∧ e.drc = d.drc := ⟨fun _ => rfl, rfl, rfl⟩

/-- What an ask for a fill that none is outstanding for leaves (R450). -/
theorem askFill_leaves {d : Dev} {l : Nat} (now cls id : Nat) (pre : Bool) (hfree : d.filling l = false) (hroom : d.sliceFull l = false) :
    let e := d.askFill now cls id l pre
    (∀ o, Reg.TCA_CTL ≤ o → e.reg o = d.reg o) ∧ e.tca = { d.tca with fills := d.tca.fills ++ [TcaFill.mk l id false pre] } ∧
      ∃ q, e.drc.reqs = d.drc.reqs ++ [q] := by
  have heq : d.askFill now cls id l pre = (d.fillAsked (TcaFill.mk l id false pre)).dramAsk now cls (.fill l) (64 * l) := by
    unfold Dev.askFill
    rw [hfree, hroom]
    rfl
  obtain ⟨hreg, htca, hdrc⟩ := fillAsked_leaves d (TcaFill.mk l id false pre)
  rw [heq]
  generalize d.fillAsked (TcaFill.mk l id false pre) = x at hreg htca hdrc ⊢
  obtain ⟨hareg, hatca, q, -, hareqs⟩ := dramAsk_leaves x now cls (.fill l) (64 * l)
  exact ⟨fun o ho => (hareg o ho).trans (hreg o), hatca.trans htca, q, by rw [hareqs, hdrc]⟩

theorem preloadNext_waits {d : Dev} (now : Nat) (h : d.tca.fills.any (fun f => f.pre) = true) : d.preloadNext now = d := if_pos h

theorem preloadNext_none {d : Dev} (now : Nat) (h : d.tca.preload = none) : d.preloadNext now = d := by
  unfold Dev.preloadNext
  rw [h, ite_self]

section
variable {d : Dev} {id l : Nat} (now : Nat) (hfree : d.tca.fills.any (fun f => f.pre) = false)
include hfree

theorem preloadNext_ends (hpre : d.tca.preload = some (id, l, 0)) : d.preloadNext now = (d.preloadAt none).tcaResult false 0 := by
  unfold Dev.preloadNext
  rw [hfree, hpre]
  rfl

theorem preloadNext_goes {n : Nat} (hpre : d.tca.preload = some (id, l, n + 1)) : d.preloadNext now =
    if d.filling l then d.preloadAt (some (id, l + 1, n)) else if d.sliceFull l then d else (d.preloadAt (some (id, l + 1, n))).askFill now 4 id l true := by
  unfold Dev.preloadNext
  rw [hfree, hpre]
  rfl

end

end Sys2Proof.Machine
end

section
/-!
SUPPORT. A fill of the table cache that returns (R450, R452 to R454).
-/

namespace Sys2Proof.Machine

/-! What the next step of a preload leaves of the cache (R452). -/

/-- The lines and the completed fills stand, fills are only added, and only for a preload, and no read is lost. -/
def fillsOn (d e : Dev) : Prop := e.tca.lines = d.tca.lines ∧ e.tca.got = d.tca.got ∧
  (∃ fs, e.tca.fills = d.tca.fills ++ fs ∧ (d.tca.preload = none → fs = [])) ∧ ∀ q ∈ d.drc.reqs, q ∈ e.drc.reqs

theorem fillsOn_refl (d : Dev) : fillsOn d d := ⟨rfl, rfl, ⟨[], (List.append_nil _).symm, fun _ => rfl⟩, fun _ h => h⟩

theorem fillsOn_preloadAt (d : Dev) (x : Option (Nat × Nat × Nat)) : fillsOn d (d.preloadAt x) :=
  ⟨rfl, rfl, ⟨[], (List.append_nil d.tca.fills).symm, fun _ => rfl⟩, fun _ h => h⟩

theorem preloadNext_fills (d : Dev) (now : Nat) : fillsOn d (d.preloadNext now) := by
  by_cases hwait : d.tca.fills.any (fun f => f.pre) = true
  · rw [preloadNext_waits now hwait]
    exact fillsOn_refl d
  · have hfree := Bool.eq_false_iff.mpr hwait
    obtain hnone | ⟨⟨id, l, n⟩, hpre⟩ := Option.eq_none_or_eq_some d.tca.preload
    · rw [preloadNext_none now hnone]
      exact fillsOn_refl d
    · cases n with
      | zero =>
        obtain ⟨hlines, hgot, hfills, hreqs⟩ := fillsOn_preloadAt d none
        rw [preloadNext_ends now hfree hpre]
        generalize d.preloadAt none = x at hlines hgot hfills hreqs ⊢
        obtain ⟨-, -, -, htca, hdrc⟩ := tcaResult_leaves x false (r := 0) (by omega)
        exact ⟨by rw [htca]; exact hlines, by rw [htca]; exact hgot, by rw [htca]; exact hfills, by rw [hdrc]; exact hreqs⟩
      | succ n =>
        rw [preloadNext_goes now hfree hpre]
        split
        · exact fillsOn_preloadAt d _
        · next hnew =>
          split
          · exact fillsOn_refl d
          · next hroom =>
            obtain ⟨-, htca, hdrc, hfilling, hfull⟩ := preloadAt_leaves d (some (id, l + 1, n))
            generalize d.preloadAt (some (id, l + 1, n)) = x at htca hdrc hfilling hfull ⊢
            obtain ⟨-, hatca, q, hareqs⟩ := askFill_leaves now 4 id true ((hfilling l).trans (Bool.eq_false_iff.mpr hnew))
              ((hfull l).trans (Bool.eq_false_iff.mpr hroom))
            refine ⟨by rw [hatca, htca], by rw [hatca, htca], ⟨[TcaFill.mk l id false true], by rw [hatca, htca], fun h => ?_⟩, fun p hp => ?_⟩
            · exact absurd (hpre.symm.trans h) nofun
            · rw [hareqs, hdrc]
              exact List.mem_append_left _ hp

/-! The fill that is answered (R450, R454). -/

/-- The device with a fill no longer outstanding. -/
def Dev.fillTaken (d : Dev) (f : TcaFill) : Dev := { d with tca := { d.tca with fills := d.tca.fills.erase f } }

/-- The completed fills with one of a line, unless preload asked for it. -/
def Dev.gotWith (d : Dev) (f : TcaFill) (r : Option (List Byte)) : List (Nat × Option (List Byte)) :=
  if f.pre = true then d.tca.got else d.tca.got.filter (fun e => decide (e.1 ≠ f.line)) ++ [(f.line, r)]

/-- A fill completes to its requester. -/
def Dev.fillKept (d : Dev) (f : TcaFill) (r : Option (List Byte)) : Dev :=
  if f.pre then d else { d with tca := { d.tca with got := d.tca.got.filter (fun e => decide (e.1 ≠ f.line)) ++ [(f.line, r)] } }

theorem fillKept_leaves (d : Dev) (f : TcaFill) (r : Option (List Byte)) : let e := d.fillKept f r
    e.tca = { d.tca with got := d.gotWith f r } ∧ (∀ o, e.reg o = d.reg o) ∧ e.drc = d.drc := by
  unfold Dev.fillKept Dev.gotWith
  split
  · exact ⟨rfl, fun _ => rfl, rfl⟩
  · exact ⟨rfl, fun _ => rfl, rfl⟩

/-- Whether a table has locked ways (R452). -/
def Dev.tableLocked (d : Dev) (id : Nat) : Bool := decide (d.rf (Reg.TCA_WAYS id) 15 0 ≠ 0)

/-- A fill that is answered: completed to its requester, or installed. -/
def Dev.fillServed (d : Dev) (now : Nat) (f : TcaFill) (bad : Bool) (data : List Byte) : Dev :=
  if bad then d.fillKept f none
  else if !d.rb Reg.TCA_CTL 0 then d.fillKept f (some data)
  else if f.drop then
    if d.tableLocked f.table then ((d.fillKept f (some data)).tcaInstall f.table ⟨f.line, data, true⟩).dramAsk now 2 (.stale f.line) (64 * f.line)
    else d.fillKept f (some data)
  else d.tcaInstall f.table ⟨f.line, data, false⟩

/-- What a fill that is answered leaves, by its kind. -/
def fillOutcome (d e : Dev) (f : TcaFill) (bad : Bool) (data : List Byte) : Prop :=
  let on := d.rb Reg.TCA_CTL 0 = true
  let locked := d.rf (Reg.TCA_WAYS f.table) 15 0 ≠ 0
  let put := fun (stale : Bool) => ∃ w, e.tcaWay (tcaSet f.line) w = some ⟨f.line, data, stale⟩
  (bad = true → e.tca.got = d.gotWith f none ∧ e.tca.lines = d.tca.lines) ∧
    (bad = false → ¬ on ∨ f.drop = true → e.tca.got = d.gotWith f (some data)) ∧
    (bad = false → ¬ on ∨ (f.drop = true ∧ ¬ locked) → e.tca.lines = d.tca.lines) ∧
    (bad = false → on → f.drop = true → locked → put true ∧ ∃ q ∈ e.drc.reqs, q.who = .stale f.line) ∧
    (bad = false → on → f.drop = false → e.tca.got = d.tca.got ∧ (d.tableWays f.table ≠ 0 → put false))

theorem tableWays_congr {d e : Dev} (h : ∀ o, e.reg o = d.reg o) (id : Nat) : e.tableWays id = d.tableWays id := by
  have hways : ∀ i, e.rf (Reg.TCA_WAYS i) 15 0 = d.rf (Reg.TCA_WAYS i) 15 0 := fun i => rf_of_reg (h _) 15 0
  unfold Dev.tableWays Dev.lockedWays
  simp only [hways]

/-- A table with locked ways may allocate into them (R452). -/
theorem tableWays_locked {d : Dev} {id : Nat} (h : d.tableLocked id = true) : d.tableWays id ≠ 0 := by
  have h : d.rf (Reg.TCA_WAYS id) 15 0 ≠ 0 := of_decide_eq_true h
  unfold Dev.tableWays
  dsimp only
  rw [if_pos h]
  exact h

/-- The install of a stale line asks for its refetch (R452, R453). -/
theorem staleInstalled_leaves {d : Dev} {f : TcaFill} {data : List Byte} (now : Nat) (hlocked : d.tableLocked f.table = true) :
    let e := ((d.fillKept f (some data)).tcaInstall f.table ⟨f.line, data, true⟩).dramAsk now 2 (.stale f.line) (64 * f.line)
    e.tca.fills = d.tca.fills ∧ e.tca.preload = d.tca.preload ∧ e.tca.got = d.gotWith f (some data) ∧
      (∃ w, e.tcaWay (tcaSet f.line) w = some ⟨f.line, data, true⟩) ∧ ∃ q ∈ e.drc.reqs, q.who = .stale f.line := by
  obtain ⟨hktca, hkreg, -⟩ := fillKept_leaves d f (some data)
  generalize d.fillKept f (some data) = x at hktca hkreg ⊢
  have hways : x.tableWays f.table ≠ 0 := by
    rw [tableWays_congr hkreg]
    exact tableWays_locked hlocked
  obtain ⟨w, hw⟩ := tcaInstall_puts ⟨f.line, data, true⟩ hways
  obtain ⟨-, -, -, hfills, hgot, -, hpre⟩ := linesOnly_fields (tcaInstall_only x f.table ⟨f.line, data, true⟩)
  generalize x.tcaInstall f.table ⟨f.line, data, true⟩ = y at hw hfills hgot hpre ⊢
  obtain ⟨-, htca, q, hwho, hreqs⟩ := dramAsk_leaves y now 2 (.stale f.line) (64 * f.line)
  refine ⟨by rw [htca, hfills, hktca], by rw [htca, hpre, hktca], by rw [htca, hgot, hktca], ⟨w, ?_⟩, q,
    by rw [hreqs]; exact List.mem_append_right _ (List.mem_singleton_self q), hwho⟩
  exact (congrArg (fun t : Tca => tget none t.lines (tcaSet f.line * 16 + w)) htca).trans hw

theorem fillServed_leaves (d : Dev) (now : Nat) (f : TcaFill) (bad : Bool) (data : List Byte) : let e := d.fillServed now f bad data
    e.tca.fills = d.tca.fills ∧ e.tca.preload = d.tca.preload ∧ fillOutcome d e f bad data := by
  have hkept : ∀ r, let e := d.fillKept f r
      e.tca.fills = d.tca.fills ∧ e.tca.preload = d.tca.preload ∧ e.tca.got = d.gotWith f r ∧ e.tca.lines = d.tca.lines := fun r => by
    obtain ⟨htca, -, -⟩ := fillKept_leaves d f r
    exact ⟨by rw [htca], by rw [htca], by rw [htca], by rw [htca]⟩
  unfold Dev.fillServed fillOutcome
  dsimp only
  split
  · next hbad =>
    obtain ⟨hfills, hpre, hgot, hlines⟩ := hkept none
    exact ⟨hfills, hpre, fun _ => ⟨hgot, hlines⟩, fun h => absurd (hbad.symm.trans h) nofun, fun h => absurd (hbad.symm.trans h) nofun,
      fun h => absurd (hbad.symm.trans h) nofun, fun h => absurd (hbad.symm.trans h) nofun⟩
  · next hgood =>
    split
    · next hoff =>
      obtain ⟨hfills, hpre, hgot, hlines⟩ := hkept (some data)
      have hoff : ¬ d.rb Reg.TCA_CTL 0 = true := by simpa using hoff
      exact ⟨hfills, hpre, fun h => absurd h hgood, fun _ _ => hgot, fun _ _ => hlines, fun _ h => absurd h hoff, fun _ h => absurd h hoff⟩
    · next hon =>
      have hon : d.rb Reg.TCA_CTL 0 = true := by simpa using hon
      split
      · next hdrop =>
        split
        · next hlocked =>
          obtain ⟨hfills, hpre, hgot, hput, hask⟩ := staleInstalled_leaves (data := data) now hlocked
          exact ⟨hfills, hpre, fun h => absurd h hgood, fun _ _ => hgot, fun _ h => h.elim (absurd hon) (fun h => absurd (of_decide_eq_true hlocked) h.2),
            fun _ _ _ _ => ⟨hput, hask⟩, fun _ _ h => absurd (hdrop.symm.trans h) nofun⟩
        · next hfree =>
          obtain ⟨hfills, hpre, hgot, hlines⟩ := hkept (some data)
          exact ⟨hfills, hpre, fun h => absurd h hgood, fun _ _ => hgot, fun _ _ => hlines, fun _ _ _ h => absurd (decide_eq_true h) hfree,
            fun _ _ h => absurd (hdrop.symm.trans h) nofun⟩
      · next hkeep =>
        obtain ⟨-, -, -, hfills, hgot, -, hpre⟩ := linesOnly_fields (tcaInstall_only d f.table ⟨f.line, data, false⟩)
        exact ⟨hfills, hpre, fun h => absurd h hgood, fun _ h => h.elim (absurd hon) (fun h => absurd h hkeep),
          fun _ h => h.elim (absurd hon) (fun h => absurd h.1 hkeep),
          fun _ _ h => absurd h hkeep, fun _ _ _ => ⟨hgot, fun hways => tcaInstall_puts ⟨f.line, data, false⟩ hways⟩⟩

theorem fillTaken_leaves (d : Dev) (f : TcaFill) : let e := d.fillTaken f
    (∀ o, e.reg o = d.reg o) ∧ e.tca = { d.tca with fills := d.tca.fills.erase f } ∧ ∀ l, e.lineFromDram l = d.lineFromDram l :=
  ⟨fun _ => rfl, rfl, fun _ => rfl⟩

/-- Whether an answered fill is poisoned (R432, R454). -/
def Dev.fillBad (d : Dev) (f : TcaFill) : Bool := ((d.dramDone (.fill f.line)).getD true) || d.dead (64 * f.line) 64

theorem tableCacheFill_eq {d : Dev} {s : Nat} {f : TcaFill} (now : Nat)
    (hfind : d.tca.fills.find? (fun f => decide (tcaSlice f.line = s) && (d.dramDone (.fill f.line)).isSome) = some f) :
    tableCacheFill now s d = (((d.fillTaken f).dramDrop (.fill f.line)).fillServed now f (d.fillBad f)
      (((d.fillTaken f).dramDrop (.fill f.line)).lineFromDram f.line)).preloadNext now := by
  unfold tableCacheFill
  rw [hfind]
  rfl

/-- What the answer of a fill leaves (R450, R454). -/
theorem tableCacheFill_leaves {d : Dev} {s : Nat} {f : TcaFill} (now : Nat)
    (hfind : d.tca.fills.find? (fun f => decide (tcaSlice f.line = s) && (d.dramDone (.fill f.line)).isSome) = some f) :
    let e := tableCacheFill now s d
    (∃ fs, e.tca.fills = d.tca.fills.erase f ++ fs ∧ (d.tca.preload = none → fs = [])) ∧ fillOutcome d e f (d.fillBad f) (d.lineFromDram f.line) := by
  obtain ⟨htreg, httca, htline⟩ := fillTaken_leaves d f
  rw [tableCacheFill_eq now hfind]
  generalize d.fillTaken f = x at htreg httca htline ⊢
  obtain ⟨hdreg, hdtca, hdline, -⟩ := dramDrop_leaves x (.fill f.line)
  generalize x.dramDrop (.fill f.line) = y at hdreg hdtca hdline ⊢
  have hreg : ∀ o, y.reg o = d.reg o := fun o => (hdreg o).trans (htreg o)
  have htca : y.tca = { d.tca with fills := d.tca.fills.erase f } := hdtca.trans httca
  rw [(hdline f.line).trans (htline f.line)]
  obtain ⟨hsfills, hspre, hsbad, hskept, hslines, hsstale, hsfresh⟩ := fillServed_leaves y now f (d.fillBad f) (d.lineFromDram f.line)
  generalize y.fillServed now f (d.fillBad f) (d.lineFromDram f.line) = z at hsfills hspre hsbad hskept hslines hsstale hsfresh ⊢
  obtain ⟨hlines, hgot, ⟨fs, hfills, hnone⟩, hreqs⟩ := preloadNext_fills z now
  have hway : ∀ w, (z.preloadNext now).tcaWay (tcaSet f.line) w = z.tcaWay (tcaSet f.line) w := fun w =>
    congrArg (fun m => tget none m (tcaSet f.line * 16 + w)) hlines
  have hon : y.rb Reg.TCA_CTL 0 = d.rb Reg.TCA_CTL 0 := rb_of_reg (hreg _) 0
  have hlocked : y.rf (Reg.TCA_WAYS f.table) 15 0 = d.rf (Reg.TCA_WAYS f.table) 15 0 := rf_of_reg (hreg _) 15 0
  have hygot : y.tca.got = d.tca.got := by rw [htca]
  have hylines : y.tca.lines = d.tca.lines := by rw [htca]
  have hwith : ∀ r, y.gotWith f r = d.gotWith f r := fun r => by
    unfold Dev.gotWith
    rw [hygot]
  rw [hygot, tableWays_congr hreg] at hsfresh
  rw [hon] at hskept hslines hsstale hsfresh
  rw [hlocked] at hslines hsstale
  rw [hwith] at hsbad hskept
  rw [hylines] at hsbad hslines
  refine ⟨⟨fs, by rw [hfills, hsfills, htca], fun h => hnone (by rw [hspre, htca]; exact h)⟩, ?_⟩
  unfold fillOutcome
  dsimp only
  rw [hgot, hlines]
  refine ⟨hsbad, hskept, hslines, fun hb hon hdrop hlock => ?_, fun hb hon hkeep => ?_⟩
  · obtain ⟨⟨w, hw⟩, q, hq, hwho⟩ := hsstale hb hon hdrop hlock
    exact ⟨⟨w, (hway w).trans hw⟩, q, hreqs q hq, hwho⟩
  · obtain ⟨hkgot, hput⟩ := hsfresh hb hon hkeep
    exact ⟨hkgot, fun hways => (hput hways).imp fun w hw => (hway w).trans hw⟩

end Sys2Proof.Machine
end

section
/-!
SUPPORT. The range invalidation, the refetch of a stale line and the drain of a merging buffer (R451, R453).
-/

namespace Sys2Proof.Machine

/-! Entries of a table. -/

theorem mem_of_tget {α : Type} {z : α} {m : Tab α} {k : Nat} (h : tget z m k ≠ z) : (k, tget z m k) ∈ m := by
  induction m with
  | nil => exact absurd rfl h
  | cons e r ih =>
    obtain ⟨j, v⟩ := e
    by_cases hk : k = j
    · have hget : tget z ((j, v) :: r) k = v := if_pos hk
      rw [hget, hk]
      exact List.mem_cons_self ..
    · have hget : tget z ((j, v) :: r) k = tget z r k := if_neg hk
      rw [hget] at h ⊢
      exact List.mem_cons_of_mem _ (ih h)

theorem tget_of_mem {α : Type} {z v : α} {m : Tab α} {k : Nat} (hm : m.Pairwise (fun a b => a.1 < b.1)) (h : (k, v) ∈ m) : tget z m k = v := by
  induction m with
  | nil => exact absurd h List.not_mem_nil
  | cons e r ih =>
    obtain ⟨hfirst, hrest⟩ := List.pairwise_cons.mp hm
    obtain heq | hr := List.mem_cons.mp h
    · rw [← heq]
      exact if_pos rfl
    · have hne : k ≠ e.1 := Nat.ne_of_gt (hfirst _ hr)
      exact (if_neg hne).trans (ih hrest hr)

/-! A pass over the lines of a range (R453). -/

theorem wayLocked_congr {d e : Dev} (h : ∀ o, Reg.TCA_CTL ≤ o → e.reg o = d.reg o) (k : Nat) : e.wayLocked k = d.wayLocked k := by
  have hways : ∀ i, e.rf (Reg.TCA_WAYS i) 15 0 = d.rf (Reg.TCA_WAYS i) 15 0 := fun i =>
    rf_of_reg (h _ (by unfold Reg.TCA_CTL Reg.TCA_WAYS; omega)) 15 0
  unfold Dev.wayLocked Dev.lockedWays
  simp only [hways]

/-- The registers of the table cache, its fills and what has completed stand, and no read is lost. -/
def rangeKeeps (d e : Dev) : Prop := (∀ o, Reg.TCA_CTL ≤ o → e.reg o = d.reg o) ∧ e.tca.fills = d.tca.fills ∧ e.tca.got = d.tca.got ∧
  ∀ q ∈ d.drc.reqs, q ∈ e.drc.reqs

theorem rangeKeeps_refl (d : Dev) : rangeKeeps d d := ⟨fun _ _ => rfl, rfl, rfl, fun _ h => h⟩

theorem rangeKeeps_trans {a b c : Dev} (h : rangeKeeps a b) (k : rangeKeeps b c) : rangeKeeps a c :=
  ⟨fun o ho => (k.1 o ho).trans (h.1 o ho), k.2.1.trans h.2.1, k.2.2.1.trans h.2.2.1, fun q hq => k.2.2.2 q (h.2.2.2 q hq)⟩

theorem rangeKeeps_setWay (d : Dev) (set way : Nat) (x : Option TcaLine) : rangeKeeps d (d.setWay set way x) := ⟨fun _ _ => rfl, rfl, rfl, fun _ h => h⟩

/-- A line of the range: unlocked it is removed, locked it is stale and refetched. -/
def Dev.rangeOut (now : Nat) (d : Dev) (e : Nat × Option TcaLine) : Dev :=
  match e.2 with
  | none => d
  | some x =>
    if d.wayLocked e.1 then
      let d := d.setWay (e.1 / 16) (e.1 % 16) (some { x with stale := true })
      if x.stale then d else d.dramAsk now 2 (.stale x.line) (64 * x.line)
    else d.setWay (e.1 / 16) (e.1 % 16) none

/-- What a line of the range becomes. -/
def Dev.lineAfter (d : Dev) (k : Nat) (x : TcaLine) : Option TcaLine := if d.wayLocked k = true then some { x with stale := true } else none

theorem rangeOut_leaves (d : Dev) (now k : Nat) (x : TcaLine) : let e := d.rangeOut now (k, some x)
    rangeKeeps d e ∧ (∀ j, tget none e.tca.lines j = if j = k then d.lineAfter k x else tget none d.tca.lines j) ∧
      (d.wayLocked k = true → x.stale = false → ∃ q ∈ e.drc.reqs, q.who = .stale x.line) := by
  have hkey : k / 16 * 16 + k % 16 = k := by omega
  have hset : ∀ (y : Option TcaLine) (j : Nat), tget none (d.setWay (k / 16) (k % 16) y).tca.lines j = if j = k then y else tget none d.tca.lines j := fun y j =>
    (setWay_tget d _ _ j y).trans (by rw [hkey])
  unfold Dev.rangeOut Dev.lineAfter
  dsimp only
  split
  · next hlocked =>
    have hkept := rangeKeeps_setWay d (k / 16) (k % 16) (some { x with stale := true })
    have hline := hset (some { x with stale := true })
    generalize d.setWay (k / 16) (k % 16) (some { x with stale := true }) = y at hkept hline ⊢
    split
    · next hstale => exact ⟨hkept, hline, fun _ h => absurd (hstale.symm.trans h) nofun⟩
    · obtain ⟨hreg, htca, q, hwho, hreqs⟩ := dramAsk_leaves y now 2 (.stale x.line) (64 * x.line)
      refine ⟨rangeKeeps_trans hkept ⟨hreg, by rw [htca], by rw [htca], fun p hp => ?_⟩, fun j => by rw [htca]; exact hline j, fun _ _ => ⟨q, ?_, hwho⟩⟩
      · rw [hreqs]
        exact List.mem_append_left _ hp
      · rw [hreqs]
        exact List.mem_append_right _ (List.mem_singleton_self q)
  · next hfree => exact ⟨rangeKeeps_setWay _ _ _ _, hset none, fun h => absurd h hfree⟩

theorem rangeOut_keeps (d : Dev) (now : Nat) (e : Nat × Option TcaLine) : rangeKeeps d (d.rangeOut now e) := by
  obtain ⟨k, x⟩ := e
  cases x with
  | none => exact rangeKeeps_refl d
  | some x => exact (rangeOut_leaves d now k x).1

theorem rangeOuts_keep (now : Nat) (l : Tab (Option TcaLine)) (d : Dev) : rangeKeeps d (l.foldl (Dev.rangeOut now) d) :=
  foldl_inv _ (rangeKeeps d) (fun b e hb => rangeKeeps_trans hb (rangeOut_keeps b now e)) l d (rangeKeeps_refl d)

theorem rangeOuts_ne {now k : Nat} {l : Tab (Option TcaLine)} (d : Dev) (h : k ∉ l.map (·.1)) :
    tget none (l.foldl (Dev.rangeOut now) d).tca.lines k = tget none d.tca.lines k := by
  induction l generalizing d with
  | nil => rfl
  | cons e r ih =>
    rw [List.map_cons, List.mem_cons, not_or] at h
    rw [List.foldl_cons, ih _ h.2]
    obtain ⟨j, x⟩ := e
    cases x with
    | none => rfl
    | some x => exact ((rangeOut_leaves d now j x).2.1 k).trans (if_neg h.1)

theorem rangeOuts_asks {now k : Nat} {x : TcaLine} {l : Tab (Option TcaLine)} {d : Dev} (hmem : (k, some x) ∈ l) (hlocked : d.wayLocked k = true)
    (hfresh : x.stale = false) : ∃ q ∈ (l.foldl (Dev.rangeOut now) d).drc.reqs, q.who = .stale x.line := by
  obtain ⟨p, r, rfl, -⟩ := List.eq_append_cons_of_mem hmem
  rw [List.foldl_append, List.foldl_cons]
  have hbefore := rangeOuts_keep now p d
  generalize p.foldl (Dev.rangeOut now) d = y at hbefore ⊢
  obtain ⟨-, -, hask⟩ := rangeOut_leaves y now k x
  obtain ⟨q, hq, hwho⟩ := hask ((wayLocked_congr hbefore.1 k).trans hlocked) hfresh
  exact ⟨q, (rangeOuts_keep now r _).2.2.2 q hq, hwho⟩

theorem rangeOuts_mem {now k : Nat} {x : TcaLine} {l : Tab (Option TcaLine)} {d : Dev} (hl : l.Pairwise (fun a b => a.1 < b.1))
    (hmem : (k, some x) ∈ l) : tget none (l.foldl (Dev.rangeOut now) d).tca.lines k = d.lineAfter k x := by
  obtain ⟨p, r, rfl, -⟩ := List.eq_append_cons_of_mem hmem
  obtain ⟨-, hpair, -⟩ := List.pairwise_append.mp hl
  have hlater : k ∉ r.map (·.1) := fun h => by
    obtain ⟨e, he, hek⟩ := List.mem_map.mp h
    exact Nat.lt_irrefl k (lt_of_lt_of_eq ((List.pairwise_cons.mp hpair).1 e he) hek)
  rw [List.foldl_append, List.foldl_cons, rangeOuts_ne _ hlater]
  have hbefore := rangeOuts_keep now p d
  generalize p.foldl (Dev.rangeOut now) d = y at hbefore ⊢
  refine ((rangeOut_leaves y now k x).2.1 k).trans ((if_pos rfl).trans ?_)
  unfold Dev.lineAfter
  rw [wayLocked_congr hbefore.1]

/-! The range invalidation (R453). -/

/-- The first line of the range that TCA_RANGE_BASE names. -/
def Dev.rangeLo (d : Dev) : Nat := d.rf Reg.TCA_RANGE_BASE_LO 31 6 + d.rf Reg.TCA_RANGE_BASE_HI 7 0 * 2 ^ 26

/-- Whether a line lies in the range. -/
def Dev.inRange (d : Dev) (l : Nat) : Bool := decide (d.rangeLo ≤ l ∧ l < d.rangeLo + (d.reg Reg.TCA_RANGE_SIZE).toNat)

/-- The resident lines of the range. -/
def Dev.rangeLines (d : Dev) : Tab (Option TcaLine) := d.tca.lines.filter fun e => (e.2.map (fun x => d.inRange x.line)).getD false

/-- The fills, the completed fills and the victims that the range meets. -/
def Dev.rangeFills (d : Dev) : Dev :=
  { d with tca := { d.tca with
    fills := d.tca.fills.map (fun (f : TcaFill) => if d.inRange f.line then { f with drop := true } else f)
    got := d.tca.got.filter (fun e => !d.inRange e.1)
    victims := tmap [] (fun _ vs => vs.filter (fun v => !d.inRange v.line)) d.tca.victims } }

theorem rangeFills_leaves (d : Dev) : let e := d.rangeFills
    (∀ o, e.reg o = d.reg o) ∧ e.tca.lines = d.tca.lines ∧
      e.tca.fills = d.tca.fills.map (fun (f : TcaFill) => if d.inRange f.line then { f with drop := true } else f) ∧
      e.tca.got = d.tca.got.filter (fun e => !d.inRange e.1) := ⟨fun _ => rfl, rfl, rfl, rfl⟩

/-- The range invalidation as a command that runs. -/
def Dev.rangeRun (now : Nat) (d : Dev) : Dev := (d.rangeLines.foldl (Dev.rangeOut now) d.rangeFills).tcaResult false 0

theorem rangeInvalidate_eq (d : Dev) (now : Nat) : rangeInvalidate now d = d.tcaCommand (Dev.rangeRun now) := rfl

theorem tcaCommand_runs {d : Dev} (f : Dev → Dev) (hidle : d.rb Reg.TCA_CMD_STATUS 31 = false) : d.tcaCommand f = f d :=
  if_neg (by rw [hidle]; exact Bool.false_ne_true)

theorem tcaCommand_busy {d : Dev} (f : Dev → Dev) (hbusy : d.rb Reg.TCA_CMD_STATUS 31 = true) : d.tcaCommand f = d.setRf Reg.TCA_CMD_STATUS 3 0 1 :=
  if_pos hbusy

theorem mem_rangeLines {d : Dev} {k : Nat} {y : Option TcaLine} :
    (k, y) ∈ d.rangeLines ↔ (k, y) ∈ d.tca.lines ∧ ∃ x, y = some x ∧ d.inRange x.line = true := by
  unfold Dev.rangeLines
  rw [List.mem_filter]
  refine and_congr_right fun _ => ?_
  cases y with
  | none => exact ⟨nofun, nofun⟩
  | some x =>
    rw [Option.map_some, Option.getD_some]
    exact ⟨fun h => ⟨x, rfl, h⟩, fun ⟨_, hx, h⟩ => by cases hx; exact h⟩

/-- What a line is after a range invalidation. -/
def Dev.lineInvalid (d : Dev) (k : Nat) (y : Option TcaLine) : Option TcaLine := y.bind fun x => if d.inRange x.line = true then d.lineAfter k x else some x

/-- What a range invalidation leaves (R453). -/
theorem rangeInvalidate_leaves {d : Dev} (now : Nat) (hidle : d.rb Reg.TCA_CMD_STATUS 31 = false) : let e := rangeInvalidate now d
    e.rb Reg.TCA_CMD_STATUS 31 = false ∧ e.rf Reg.TCA_CMD_STATUS 3 0 = 0 ∧ (∀ f ∈ e.tca.fills, d.inRange f.line = true → f.drop = true) ∧
      (∀ p ∈ e.tca.got, d.inRange p.1 = false) ∧
      (∀ k x, tget none d.tca.lines k = some x → d.inRange x.line = true → d.wayLocked k = true → x.stale = false →
        ∃ q ∈ e.drc.reqs, q.who = .stale x.line) ∧
      (Tab.wf (fun _ => none) d.tca.lines = true → ∀ k, tget none e.tca.lines k = d.lineInvalid k (tget none d.tca.lines k)) := by
  obtain ⟨hfreg, hflines, hffills, hfgot⟩ := rangeFills_leaves d
  rw [rangeInvalidate_eq, tcaCommand_runs _ hidle, Dev.rangeRun]
  generalize d.rangeFills = x at hfreg hflines hffills hfgot ⊢
  have hlocked : ∀ k, x.wayLocked k = d.wayLocked k := wayLocked_congr fun o _ => hfreg o
  obtain ⟨-, hkfills, hkgot, -⟩ := rangeOuts_keep now d.rangeLines x
  obtain ⟨hbusy, hresult, -, htca, hdrc⟩ := tcaResult_leaves (d.rangeLines.foldl (Dev.rangeOut now) x) false (r := 0) (by omega)
  refine ⟨hbusy, hresult, fun f hf hin => ?_, fun p hp => ?_, fun k y hk hin hlock hfresh => ?_, fun hwf k => ?_⟩
  · rw [htca, hkfills, hffills] at hf
    obtain ⟨g, -, rfl⟩ := List.mem_map.mp hf
    by_cases hg : d.inRange g.line = true
    · rw [if_pos hg]
    · rw [if_neg hg] at hin
      exact absurd hin hg
  · rw [htca, hkgot, hfgot] at hp
    simpa using (List.mem_filter.mp hp).2
  · have hmem : (k, some y) ∈ d.rangeLines := mem_rangeLines.mpr ⟨hk ▸ mem_of_tget (by rw [hk]; exact nofun), y, rfl, hin⟩
    rw [hdrc]
    exact rangeOuts_asks hmem ((hlocked k).trans hlock) hfresh
  · have hpair := ((Tab.wf_iff _ _).mp hwf).1
    rw [htca]
    by_cases hmem : k ∈ d.rangeLines.map (·.1)
    · obtain ⟨⟨j, y⟩, hy, rfl⟩ := List.mem_map.mp hmem
      obtain ⟨hline, z, rfl, hin⟩ := mem_rangeLines.mp hy
      have hrange : d.rangeLines.Pairwise (fun a b => a.1 < b.1) := hpair.filter _
      dsimp only
      rw [rangeOuts_mem hrange hy, tget_of_mem hpair hline, Dev.lineInvalid, Option.bind_some, if_pos hin, Dev.lineAfter, Dev.lineAfter, hlocked]
    · rw [rangeOuts_ne _ hmem, hflines]
      cases hk : tget none d.tca.lines k with
      | none => rfl
      | some y =>
        have hout : ¬ d.inRange y.line = true := fun hin =>
          hmem (List.mem_map.mpr ⟨(k, some y), mem_rangeLines.mpr ⟨hk ▸ mem_of_tget (by rw [hk]; exact nofun), y, rfl, hin⟩, rfl⟩)
        rw [Dev.lineInvalid, Option.bind_some, if_neg hout]

/-! The refetch of a stale line (R453). -/

/-- Whether a line is stale and its refetch in a slice has been answered. -/
def Dev.staleAnswered (d : Dev) (s : Nat) (e : Nat × Option TcaLine) : Bool :=
  match e.2 with
  | some x => x.stale && decide (tcaSlice x.line = s) && (d.dramDone (.stale x.line)).isSome
  | none => false

/-- Whether an answered refetch is poisoned (R432). -/
def Dev.staleBad (d : Dev) (x : TcaLine) : Bool := ((d.dramDone (.stale x.line)).getD true) || d.dead (64 * x.line) 64

theorem staleRefetchDone_eq {d : Dev} {s k : Nat} {x : TcaLine} (hfind : d.tca.lines.find? (d.staleAnswered s) = some (k, some x)) :
    staleRefetchDone s d = (d.dramDrop (.stale x.line)).setWay (k / 16) (k % 16) (if d.staleBad x then none else
      some { x with data := (d.dramDrop (.stale x.line)).lineFromDram x.line, stale := false }) := by
  unfold staleRefetchDone
  split
  · next j y h =>
    obtain ⟨rfl, hy⟩ := Prod.mk.inj (Option.some.inj (hfind.symm.trans h))
    obtain rfl := Option.some.inj hy
    rfl
  · next hno => exact absurd hfind (hno k x)

/-- What the refetch of a stale line leaves (R432, R453). -/
theorem staleRefetchDone_leaves {d : Dev} {s k : Nat} {x : TcaLine} (hfind : d.tca.lines.find? (d.staleAnswered s) = some (k, some x)) :
    let e := staleRefetchDone s d
    e.dramDone (.stale x.line) = none ∧ tget none e.tca.lines k = if d.staleBad x = true then none else
      some { x with data := d.lineFromDram x.line, stale := false } := by
  have hkey : k / 16 * 16 + k % 16 = k := by omega
  obtain ⟨-, -, hline, hnone⟩ := dramDrop_leaves d (.stale x.line)
  rw [staleRefetchDone_eq hfind, hline]
  generalize d.dramDrop (.stale x.line) = y at hnone ⊢
  exact ⟨hnone, (setWay_tget y _ _ k _).trans (if_pos hkey.symm)⟩

/-! The drain of a merging buffer (R451). -/

/-- The device with a merging buffer replaced. -/
def Dev.setMb (d : Dev) (c : Nat) (r : List MbEntry) : Dev := { d with tca := { d.tca with mbs := tset [] d.tca.mbs c r } }

theorem setMb_leaves (d : Dev) (c : Nat) (r : List MbEntry) : let e := d.setMb c r
    tget [] e.tca.mbs c = r ∧ e.flt = d.flt ∧ (d.plainMem → e.plainMem) := ⟨tget_tset_self [] d.tca.mbs c r, rfl, fun h => h⟩

theorem mergeBufferDrain_drains {d : Dev} {now c : Nat} {x : MbEntry} {r : List MbEntry} (hbuf : tget [] d.tca.mbs c = x :: r)
    (hdue : 12 ≤ r.length + 1 ∨ x.at_ + 1000 ≤ now) (hopen : d.chanOpen c = true ∨ d.retired c = true) :
    mergeBufferDrain now c d = (d.setMb c r).drainEntry x := by
  unfold mergeBufferDrain
  rw [hbuf]
  exact if_pos (Bool.and_eq_true_iff.mpr ⟨Bool.or_eq_true_iff.mpr hopen, decide_eq_true hdue⟩)

/-- Plain memory takes a masked write without a report. -/
theorem memMask_plain {d : Dev} (h : d.plainMem) (base : Nat) (m : Tab (Option Byte)) : (d.memMask base m).flt = d.flt := by
  have hkept : (d.memMask base m).plainMem ∧ (d.memMask base m).flt = d.flt := by
    unfold Dev.memMask
    induction byteRuns m [] with
    | nil => exact ⟨h, rfl⟩
    | cons r l ih =>
      refine ⟨plainMem_memWrite ih.1 _ _, Eq.trans ?_ ih.2⟩
      rw [List.foldr_cons, memWrite_plain ih.1]
  exact hkept.2

theorem memMask_one (d : Dev) (base k : Nat) (b : Byte) : d.memMask base [(k, some b)] = d.memWrite (base + k) [b] := rfl

/-- What the drain of a merging-buffer entry leaves (R451). -/
theorem mergeBufferDrain_leaves {d : Dev} {now c : Nat} {x : MbEntry} {r : List MbEntry} (hbuf : tget [] d.tca.mbs c = x :: r)
    (hdue : 12 ≤ r.length + 1 ∨ x.at_ + 1000 ≤ now) (hopen : d.chanOpen c = true ∨ d.retired c = true) : let e := mergeBufferDrain now c d
    tget [] e.tca.mbs c = r ∧ (d.plainMem → e.flt = d.flt ∧ ∀ k b, x.bytes = [(k, some b)] → e.memGet (64 * x.line + k) = b) := by
  obtain ⟨hmbs, hflt, hplain⟩ := setMb_leaves d c r
  rw [mergeBufferDrain_drains hbuf hdue hopen]
  generalize d.setMb c r = y at hmbs hflt hplain ⊢
  unfold Dev.drainEntry
  dsimp only
  rw [memMask_tca]
  refine ⟨hmbs, fun h => ⟨(memMask_plain (hplain h) _ _).trans hflt, fun k b hone => ?_⟩⟩
  rw [hone, memMask_one, memGet_memWrite_plain (hplain h), List.length_singleton, if_pos (by omega), Nat.sub_self]
  rfl

/-! The end of a return's stages (R447). -/

/-- The memory and the bad words that a zero fill leaves. -/
def Dev.zeroFilled (d : Dev) (c : Nat) : Dev :=
  let gone := fun (a : Nat) => decide (a < d.fittedDram) && decide ((d.dramLoc a).1 = c) && !d.recoverable a
  { d with
    mem := d.mem.filter (fun e => !gone e.1)
    drc := { d.drc with poison := d.drc.poison.filter (fun e => !(decide (4 * e.1 < d.fittedDram) && decide ((d.dramLoc (4 * e.1)).1 = c))) } }

theorem zeroFillDone_eq {d : Dev} {c : Nat} (now : Nat) (hstage : tget 0 d.drc.ret c = 2) :
    ∃ mib, zeroFillDone now c d = (((d.zeroFilled c).setReturn now c 3 mib).setRetired c false).setUsable c true :=
  ⟨_, if_neg (not_not.mpr hstage)⟩

theorem mem_zeroFilled {d : Dev} {c : Nat} {x : Nat × Byte} (h : x ∈ (d.zeroFilled c).mem) :
    x ∈ d.mem ∧ ¬ (x.1 < d.fittedDram ∧ (d.dramLoc x.1).1 = c ∧ d.recoverable x.1 = false) := by
  obtain ⟨hmem, hkept⟩ := List.mem_filter.mp h
  refine ⟨hmem, fun ⟨hfit, hchan, hlost⟩ => ?_⟩
  dsimp only at hkept
  rw [decide_eq_true hfit, decide_eq_true hchan, hlost] at hkept
  exact absurd hkept (by decide)

/-- What the end of a zero fill leaves (R447). -/
theorem zeroFillDone_leaves {d : Dev} {c : Nat} (now : Nat) (hc : c < 8) (hstage : tget 0 d.drc.ret c = 2) : let e := zeroFillDone now c d
    tget 0 e.drc.ret c = 3 ∧ e.usable c = true ∧ e.retired c = false ∧
      ∀ x ∈ e.mem, x ∈ d.mem ∧ ¬ (x.1 < d.fittedDram ∧ (d.dramLoc x.1).1 = c ∧ d.recoverable x.1 = false) := by
  obtain ⟨mib, heq⟩ := zeroFillDone_eq now hstage
  obtain ⟨-, hret, -, -⟩ := setReturn_leaves (d.zeroFilled c) now c 3 mib
  have hmem : ((d.zeroFilled c).setReturn now c 3 mib).mem = (d.zeroFilled c).mem := rfl
  rw [heq]
  generalize (d.zeroFilled c).setReturn now c 3 mib = y at hret hmem ⊢
  obtain ⟨hin, -, -, hrdrc⟩ := setRetired_leaves y hc false
  have hrmem : (y.setRetired c false).mem = y.mem := (Dev.setRb_mem _ _ _ _).trans (Dev.setRb_mem _ _ _ _)
  generalize y.setRetired c false = z at hin hrdrc hrmem ⊢
  obtain ⟨hon, hkept, -, hudrc⟩ := setUsable_leaves z hc true
  have humem : (z.setUsable c true).mem = z.mem := (Dev.setRb_mem _ _ _ _).trans (Dev.setRb_mem _ _ _ _)
  refine ⟨by rw [hudrc, hrdrc]; exact hret, hon, hkept.trans hin, fun x hx => mem_zeroFilled ?_⟩
  rw [humem, hrmem, hmem] at hx
  exact hx

theorem rebuildDone_ends {d : Dev} {c : Nat} (now : Nat) (hstage : tget 0 d.drc.ret c = 3) : rebuildDone now c d = d.returnEnded now c :=
  if_neg (not_not.mpr hstage)

end Sys2Proof.Machine
end

section
/-!
O56 (R447, R449 to R454, R458): the table cache's commands.
-/

namespace Sys2Proof.Machine

/-! Preload (R452). -/

/-- A table's geometry rests on its words alone. -/
theorem table_congr {d e : Dev} {id : Nat} (h : ∀ w, w < 8 → e.tw id w = d.tw id w) :
    e.tOn id = d.tOn id ∧ e.tDram id = d.tDram id ∧ e.tBytes id = d.tBytes id ∧ e.tBase id = d.tBase id := by
  have h0 := h 0 (by omega)
  have h1 := h 1 (by omega)
  have h2 := h 2 (by omega)
  unfold Dev.tOn Dev.tBytes Dev.tBase Dev.tDram Dev.tN Dev.tS Dev.tType Dev.tKeyLen Dev.tResLen
  rw [h0, h1, h2]
  exact ⟨rfl, rfl, rfl, rfl⟩

theorem filling_congr {d e : Dev} (h : e.tca.fills = d.tca.fills) (l : Nat) : e.filling l = d.filling l ∧ e.sliceFull l = d.sliceFull l := by
  unfold Dev.filling Dev.sliceFull
  rw [h]
  exact ⟨rfl, rfl⟩

/-- The device whose preload of a table begins. -/
def Dev.preloadBegun (d : Dev) (id : Nat) : Dev := (d.preloadAt (some (id, d.tBase id / 64, d.tBytes id / 64))).tcaResult true 0

theorem preload_eq (d : Dev) (now : Nat) : preload now d =
    d.tcaCommand fun d => if !d.tOn (d.rf Reg.TCA_CMD 15 8) || !d.tDram (d.rf Reg.TCA_CMD 15 8) then d.tcaResult false 2
      else (d.preloadBegun (d.rf Reg.TCA_CMD 15 8)).preloadNext now := rfl

section
variable {d : Dev} {id : Nat} (now : Nat) (hid : d.rf Reg.TCA_CMD 15 8 = id) (hidle : d.rb Reg.TCA_CMD_STATUS 31 = false)
include hid hidle

theorem preload_refused (hno : d.tOn id = false ∨ d.tDram id = false) : preload now d = d.tcaResult false 2 := by
  rw [preload_eq _ now, tcaCommand_runs _ hidle, hid]
  refine if_pos ?_
  obtain h | h := hno
  · rw [h]
    rfl
  · rw [h, Bool.not_false, Bool.or_true]

theorem preload_begins (hon : d.tOn id = true) (hdram : d.tDram id = true) : preload now d = (d.preloadBegun id).preloadNext now := by
  rw [preload_eq _ now, tcaCommand_runs _ hidle, hid]
  exact if_neg (by rw [hon, hdram]; decide)

end

/-- What the next step of a preload that has lines to ask for leaves (R450, R452). -/
theorem preloadNext_leaves {d : Dev} {t l n : Nat} (now : Nat) (hpre : d.tca.preload = some (t, l, n + 1)) : let e := d.preloadNext now
    let pre := d.tca.fills.any (fun f => f.pre) = true
    let ask := d.filling l = false ∧ d.sliceFull l = false
    (∀ o, Reg.TCA_CTL ≤ o → e.reg o = d.reg o) ∧ (pre ∨ (d.filling l = false ∧ d.sliceFull l = true) → e.tca = d.tca) ∧
      (¬ pre → d.filling l = true ∨ ask → e.tca.preload = some (t, l + 1, n) ∧
        e.tca.fills = d.tca.fills ++ if ask then [TcaFill.mk l t false true] else []) := by
  dsimp only
  by_cases hwait : d.tca.fills.any (fun f => f.pre) = true
  · rw [preloadNext_waits now hwait]
    exact ⟨fun _ _ => rfl, fun _ => rfl, fun h => absurd hwait h⟩
  · obtain ⟨hreg, htca, -, hfilling, hfull⟩ := preloadAt_leaves d (some (t, l + 1, n))
    rw [preloadNext_goes now (Bool.eq_false_iff.mpr hwait) hpre]
    generalize d.preloadAt (some (t, l + 1, n)) = x at hreg htca hfilling hfull ⊢
    split
    · next hon =>
      refine ⟨fun o _ => hreg o, fun h => absurd (h.resolve_left hwait).1 (by rw [hon]; decide), fun _ _ => ⟨by rw [htca], ?_⟩⟩
      have hno : ¬ (d.filling l = false ∧ d.sliceFull l = false) := fun h => absurd (hon.symm.trans h.1) nofun
      rw [htca, if_neg hno, List.append_nil]
    · next hnew =>
      have hnew := Bool.eq_false_iff.mpr hnew
      split
      · next hstuck => exact ⟨fun _ _ => rfl, fun _ => rfl, fun _ h => h.elim (fun h => absurd (hnew.symm.trans h) nofun)
          fun h => absurd (hstuck.symm.trans h.2) nofun⟩
      · next hroom =>
        have hroom := Bool.eq_false_iff.mpr hroom
        obtain ⟨hareg, hatca, -⟩ := askFill_leaves now 4 t true ((hfilling l).trans hnew) ((hfull l).trans hroom)
        refine ⟨fun o ho => (hareg o ho).trans (hreg o), fun h => absurd (hroom.symm.trans (h.resolve_left hwait).2) nofun, fun _ _ => ?_⟩
        rw [hatca, htca, if_pos ⟨hnew, hroom⟩]
        exact ⟨rfl, rfl⟩

/-- The next step of a preload leaves TCA_CMD. -/
theorem preloadNext_cmd (d : Dev) (now : Nat) : (d.preloadNext now).reg Reg.TCA_CMD = d.reg Reg.TCA_CMD := by
  obtain hnone | ⟨⟨t, l, n⟩, hpre⟩ := Option.eq_none_or_eq_some d.tca.preload
  · rw [preloadNext_none now hnone]
  · cases n with
    | succ n => exact (preloadNext_leaves now hpre).1 _ (by decide)
    | zero =>
      by_cases hwait : d.tca.fills.any (fun f => f.pre) = true
      · rw [preloadNext_waits now hwait]
      · rw [preloadNext_ends now (Bool.eq_false_iff.mpr hwait) hpre]
        exact ((tcaResult_leaves _ false (r := 0) (by omega)).2.2.1 _ (by decide)).trans ((preloadAt_leaves d none).1 _)

/-- What a preload command leaves (R452, R458). -/
theorem preload_leaves {d : Dev} {t : Nat} (now : Nat) (ht : t < 256) : let e := preload now (d.setRf Reg.TCA_CMD 15 8 t)
    e.rf Reg.TCA_CMD 15 8 = t ∧
      (d.rb Reg.TCA_CMD_STATUS 31 = true → e.rf Reg.TCA_CMD_STATUS 3 0 = 1 ∧ e.tca = d.tca) ∧
      (d.rb Reg.TCA_CMD_STATUS 31 = false → d.tOn t = false ∨ d.tDram t = false → e.rf Reg.TCA_CMD_STATUS 3 0 = 2 ∧ e.tca = d.tca) ∧
      (d.rb Reg.TCA_CMD_STATUS 31 = false → d.tOn t = true → d.tDram t = true → d.tBytes t / 64 ≠ 0 → e.rb Reg.TCA_CMD_STATUS 31 = true ∧
        (let l := d.tBase t / 64
        let pre := d.tca.fills.any (fun f => f.pre) = true
        let ask := d.filling l = false ∧ d.sliceFull l = false
        (pre ∨ (d.filling l = false ∧ d.sliceFull l = true) → e.tca = { d.tca with preload := some (t, l, d.tBytes t / 64) }) ∧
        (¬ pre → d.filling l = true ∨ ask → e.tca.preload = some (t, l + 1, d.tBytes t / 64 - 1) ∧
          e.tca.fills = d.tca.fills ++ if ask then [TcaFill.mk l t false true] else []))) := by
  have hid : (d.setRf Reg.TCA_CMD 15 8 t).rf Reg.TCA_CMD 15 8 = t := (Dev.rf_setRf_self _ _ _ _ _ (by omega) (by omega)).trans (Nat.mod_eq_of_lt (by omega))
  have hreg : ∀ o, o ≠ Reg.TCA_CMD → (d.setRf Reg.TCA_CMD 15 8 t).reg o = d.reg o := fun o ho => Dev.reg_setRf_ne _ _ _ _ _ _ ho
  have htca := Dev.setRf_tca d Reg.TCA_CMD 15 8 t
  generalize d.setRf Reg.TCA_CMD 15 8 t = x at hid hreg htca ⊢
  have hstatus := rb_of_reg (hreg Reg.TCA_CMD_STATUS (by decide)) 31
  obtain ⟨hon, hdram, hbytes, hbase⟩ := table_congr (d := d) (e := x) (id := t) fun w hw => hreg _ (by unfold Reg.FWD_TBL_W0 Reg.TCA_CMD; omega)
  dsimp only
  rw [← hstatus, ← hon, ← hdram, ← hbytes, ← hbase, ← htca, ← (filling_congr (congrArg Tca.fills htca) _).1,
    ← (filling_congr (congrArg Tca.fills htca) _).2]
  cases hbusy : x.rb Reg.TCA_CMD_STATUS 31 with
  | true =>
    have heq : preload now x = x.setRf Reg.TCA_CMD_STATUS 3 0 1 := (preload_eq _ now).trans (tcaCommand_busy _ hbusy)
    rw [heq]
    exact ⟨(rf_of_reg (Dev.reg_setRf_ne _ _ _ _ _ _ (by decide)) _ _).trans hid,
      fun _ => ⟨Dev.rf_setRf_self _ _ _ _ _ (by omega) (by omega), Dev.setRf_tca _ _ _ _ _⟩, nofun, nofun⟩
  | false =>
    by_cases hno : x.tOn t = false ∨ x.tDram t = false
    · obtain ⟨-, hresult, hkept, hrtca, -⟩ := tcaResult_leaves x false (r := 2) (by omega)
      rw [preload_refused now hid hbusy hno]
      exact ⟨(rf_of_reg (hkept _ (by decide)) _ _).trans hid, nofun, fun _ _ => ⟨hresult, hrtca⟩,
        fun _ hyes hdr => absurd hno (by rw [hyes, hdr]; decide)⟩
    · have hyes : x.tOn t = true := by
        cases h : x.tOn t with
        | true => rfl
        | false => exact absurd (.inl h) hno
      have hdr : x.tDram t = true := by
        cases h : x.tDram t with
        | true => rfl
        | false => exact absurd (.inr h) hno
      rw [preload_begins now hid hbusy hyes hdr, Dev.preloadBegun]
      obtain ⟨hpreg, hptca, -, -, -⟩ := preloadAt_leaves x (some (t, x.tBase t / 64, x.tBytes t / 64))
      generalize x.preloadAt (some (t, x.tBase t / 64, x.tBytes t / 64)) = y at hpreg hptca ⊢
      obtain ⟨hrbusy, -, hrreg, hrtca, -⟩ := tcaResult_leaves y true (r := 0) (by omega)
      generalize y.tcaResult true 0 = z at hrbusy hrreg hrtca ⊢
      have hztca := hrtca.trans hptca
      have hzid := (rf_of_reg ((hrreg Reg.TCA_CMD (by decide)).trans (hpreg _)) 15 8).trans hid
      refine ⟨(rf_of_reg (preloadNext_cmd z now) _ _).trans hzid, nofun, fun _ h => absurd h hno, fun _ _ _ hsome => ?_⟩
      obtain ⟨n, hn⟩ := Nat.exists_eq_succ_of_ne_zero hsome
      have hzpre : z.tca.preload = some (t, x.tBase t / 64, n + 1) := by rw [hztca, hn]
      have hzfills : z.tca.fills = x.tca.fills := by rw [hztca]
      obtain ⟨hnreg, hwaits, hgoes⟩ := preloadNext_leaves now hzpre
      rw [hzfills, (filling_congr hzfills _).1, (filling_congr hzfills _).2] at hwaits hgoes
      rw [hn, Nat.succ_sub_one]
      rw [hn] at hztca
      exact ⟨(rb_of_reg (hnreg _ (by decide)) _).trans hrbusy, fun h => (hwaits h).trans hztca, hgoes⟩

/-! Answers and ranges as the statement writes them. -/

/-- An answered read is bad unless it was judged sound and its data are there. -/
theorem answer_bad {o : Option Bool} (b : Bool) (h : o.isSome = true) : (o.getD true || b) = true ↔ ¬ (o = some false ∧ b = false) := by
  obtain ⟨a, rfl⟩ := Option.isSome_iff_exists.mp h
  cases a with
  | true => exact ⟨fun _ h => absurd h.1 nofun, fun _ => rfl⟩
  | false =>
    cases b with
    | true => exact ⟨fun _ h => absurd h.2 nofun, fun _ => rfl⟩
    | false => exact ⟨nofun, fun h => absurd ⟨rfl, rfl⟩ h⟩

theorem inRange_iff (d : Dev) (l : Nat) : d.inRange l = true ↔
    d.rf Reg.TCA_RANGE_BASE_LO 31 6 + d.rf Reg.TCA_RANGE_BASE_HI 7 0 * 2 ^ 26 ≤ l ∧
      l < d.rf Reg.TCA_RANGE_BASE_LO 31 6 + d.rf Reg.TCA_RANGE_BASE_HI 7 0 * 2 ^ 26 + (d.reg Reg.TCA_RANGE_SIZE).toNat := by
  unfold Dev.inRange Dev.rangeLo
  exact decide_eq_true_iff

theorem mergeSync_eq (d : Dev) : mergeSync d = d.tcaCommand fun d => d.drainAll.tcaResult false 0 := rfl

/-- Settles O56: each command by what its own function leaves. -/
theorem tableCache : Obligations.TableCache := by
  unfold Obligations.TableCache
  intro s
  have hchan : ∀ {c : Nat}, c < 8 → isChannel c = true := fun h => decide_eq_true h
  refine ⟨fun c hc => ⟨fun hstage => ?filled, fun hstage => ?rebuilt, fun x r hbuf hdue hopen => ?drain⟩, fun i f hi hfind => ?fill,
    fun i k x hi hfind => ?stale, fun hreset => ⟨fun hbusy i hcmd => ?busy, fun hidle => ?range, fun hidle => ?sync, fun t ht => ?preload⟩⟩
  case filled => exact ⟨_, (exec_zeroFillDone c s).trans (runDev_ok (hchan hc)), zeroFillDone_leaves _ hc hstage⟩
  case rebuilt =>
    obtain ⟨-, hret, hothers, hdone⟩ := returnEnded_leaves s.dev s.clk.count c
    exact ⟨_, (exec_rebuildDone c s).trans ((runDev_ok (hchan hc)).trans (by rw [rebuildDone_ends _ hstage])), hret, hothers, hdone⟩
  case drain =>
    have hcl : isCluster c = true := decide_eq_true (by omega)
    exact ⟨_, (exec_mergeBufferDrain c s).trans (runDev_ok hcl), mergeBufferDrain_leaves hbuf hdue hopen⟩
  case fill =>
    have hchosen : (decide (tcaSlice f.line = i) && (s.dev.dramDone (.fill f.line)).isSome) = true :=
      List.find?_some (p := fun f : TcaFill => decide (tcaSlice f.line = i) && (s.dev.dramDone (.fill f.line)).isSome) hfind
    have hbad : s.dev.fillBad f = true ↔ ¬ (s.dev.dramDone (.fill f.line) = some false ∧ s.dev.dead (64 * f.line) 64 = false) :=
      answer_bad (s.dev.dead (64 * f.line) 64) (Bool.and_eq_true_iff.mp hchosen).2
    obtain ⟨⟨fs, hfills, hnone⟩, hpoisoned, hkept, hlines, hstale, hfresh⟩ := tableCacheFill_leaves s.clk.count hfind
    have hgood : s.dev.dramDone (.fill f.line) = some false ∧ s.dev.dead (64 * f.line) 64 = false → s.dev.fillBad f = false := fun h =>
      Bool.eq_false_iff.mpr fun hb => hbad.mp hb h
    exact ⟨_, fs, (exec_tableCacheFill i s).trans (runDev_ok (decide_eq_true hi)), hfills, hnone, fun h => hpoisoned (hbad.mpr h),
      fun h => hkept (hgood h), fun h => hlines (hgood h), fun h => hstale (hgood h), fun h => hfresh (hgood h)⟩
  case stale =>
    have hfind : s.dev.tca.lines.find? (s.dev.staleAnswered i) = some (k, some x) := hfind
    have hchosen : (x.stale && decide (tcaSlice x.line = i) && (s.dev.dramDone (.stale x.line)).isSome) = true :=
      List.find?_some (p := s.dev.staleAnswered i) hfind
    have hbad : s.dev.staleBad x = true ↔ ¬ (s.dev.dramDone (.stale x.line) = some false ∧ s.dev.dead (64 * x.line) 64 = false) :=
      answer_bad (s.dev.dead (64 * x.line) 64) (Bool.and_eq_true_iff.mp hchosen).2
    obtain ⟨hnone, hline⟩ := staleRefetchDone_leaves hfind
    refine ⟨_, (exec_staleRefetchDone i s).trans (runDev_ok (decide_eq_true hi)), hnone, hline.trans ?_⟩
    by_cases hgood : s.dev.dramDone (.stale x.line) = some false ∧ s.dev.dead (64 * x.line) 64 = false
    · rw [if_pos hgood, if_neg (fun hb => hbad.mp hb hgood)]
    · rw [if_neg hgood, if_pos (hbad.mpr hgood)]
  case busy =>
    obtain rfl | rfl := hcmd
    · exact (exec_rangeInvalidate s).trans (runDev_becomes ((live_on hreset).trans (tcaCommand_busy _ hbusy)))
    · exact (exec_mergeSync s).trans (runDev_becomes ((live_on hreset).trans (tcaCommand_busy _ hbusy)))
  case range =>
    obtain ⟨hstill, hresult, hfills, hgot, hask, hlines⟩ := rangeInvalidate_leaves s.clk.count hidle
    refine ⟨_, (exec_rangeInvalidate s).trans (runDev_becomes (live_on hreset)), hstill, hresult, fun f hf hin => hfills f hf ((inRange_iff _ _).mpr hin),
      fun p hp hin => absurd ((inRange_iff _ _).mpr hin) (by rw [hgot p hp]; exact Bool.false_ne_true),
      fun k x hk hin => hask k x hk ((inRange_iff _ _).mpr hin), fun hwf k => (hlines hwf k).trans ?_⟩
    cases tget none s.dev.tca.lines k with
    | none => rfl
    | some x =>
      rw [Dev.lineInvalid, Option.bind_some]
      dsimp only
      by_cases hin : s.dev.inRange x.line = true
      · rw [if_pos hin, if_pos ((inRange_iff _ _).mp hin)]
        rfl
      · rw [if_neg hin, if_neg (fun h => hin ((inRange_iff _ _).mpr h))]
  case sync =>
    obtain ⟨hstill, hresult, -, htca, -⟩ := tcaResult_leaves s.dev.drainAll false (r := 0) (by omega)
    exact ⟨_, (exec_mergeSync s).trans (runDev_becomes ((live_on hreset).trans ((mergeSync_eq _).trans (tcaCommand_runs _ hidle)))), hstill, hresult,
      (congrArg Tca.mbs htca).trans (drainAll_mbs s.dev)⟩
  case preload =>
    refine ⟨_, (exec_preload t s).trans ((runDev_ok (decide_eq_true ht)).trans ?_), preload_leaves s.clk.count ht⟩
    rw [live_on hreset]

end Sys2Proof.Machine
end
